-- ==== Sys2Proof/Word.lean ====
section
/-! DEFINITION. The word types of the DY4896 model: 32-bit register words, 48-bit device addresses, 64-bit sandglass counts and bytes (R4, R6, R36, R77). -/

namespace Sys2Proof

/-- A 32-bit register or core word (R53, R342). -/
abbrev Word := BitVec 32

/-- A byte of a memory. -/
abbrev Byte := BitVec 8

/-- A 64-bit sandglass count or double word (R77). -/
abbrev Count := BitVec 64

end Sys2Proof
end

