-- ==== Sys2Proof/Types.lean ====
section
/-! DEFINITION. The names commands and state speak of: initiators, islands, page kinds, units and access widths (R3, R12, R43, R45, R53, R56). -/

namespace Sys2Proof

/-- A flash channel CH0 to CH63 (R2). -/
abbrev Chan := Fin 64
/-- A die position on a channel (R2). -/
abbrev Pos := Fin 16
/-- A Nelius cluster NCL0 to NCL5 (R12). -/
abbrev Clu := Fin 6
/-- A core of a cluster (R12). -/
abbrev CoreIx := Fin 8
/-- A caravan CVN0 to CVN15 (R45). -/
abbrev CvnIx := Fin 16
/-- A DRAM controller DMC0 to DMC7 (R45). -/
abbrev DmcIx := Fin 8
/-- A digest engine DGE0 to DGE3 (R45). -/
abbrev DgeIx := Fin 4
/-- A caravan ring (R391). -/
abbrev RingIx := Fin 8
/-- A host port: `false` is port A, `true` is port B (R13). -/
abbrev Port := Bool
/-- A general register w0 to w31 (R342). -/
abbrev RegIx := Fin 32
/-- An NVMe controller: port × 64 + function (R113). -/
abbrev CtlId := Fin 128
/-- A power domain PD00 to PD27 (R572). -/
abbrev Dom := Fin 28

/-- Who issues an access on the fabric (R43, R56). -/
inductive Initiator where
  /-- A security-processor core, initiator number 0x01 or 0x02. -/
  | sp (n : Fin 2)
  /-- A Nelius core in crew mode, number 0x40 + 8c + k. -/
  | crew (c : Clu) (k : CoreIx)
  /-- A Nelius core in passenger mode, with the same number. -/
  | passenger (c : Clu) (k : CoreIx)
  /-- A hardware block, named by its page index (R606). -/
  | block (page : BitVec 12)
  /-- The host (R606 code 0xFE). -/
  | host
  deriving DecidableEq, Repr

/-- The width of one access in bytes: 1, 2, 4 or 8, or a longer burst. -/
inductive Width where
  | b1 | b2 | b4 | b8 | burst (n : Nat)
  deriving DecidableEq, Repr

/-- Bytes of an access. -/
def Width.bytes : Width → Nat
  | .b1 => 1 | .b2 => 2 | .b4 => 4 | .b8 => 8 | .burst n => n

/-- An address region and the kind of block behind a register page (R45). -/
inductive PageKind where
  | sys | flt | sgl | lch | pmu | cle | scp | tol | spn | key | mte | dis | map | str | lds | mec
  | mrm | lnd | hf | nqe | dmc | ncl | cvn | dge | fch
  deriving DecidableEq, Repr

/-- An island: a region with one clock (R12). -/
inductive Island where
  | hostPort (p : Port) | queueEngine | cluster (c : Clu) | fabric | channel (c : Chan)
  | dram (n : DmcIx) | control | sandglass | security
  deriving DecidableEq, Repr

/-- A merge buffer of the on-chip memories (R317). -/
inductive MergeSite where
  | landing (bank : Fin 32) | store (c : Clu) | mram
  deriving DecidableEq, Repr

/-- A memory under patrol scrub (R330). -/
inductive ScrubSite where
  | dram | landing | mramDie (die : Fin 2) | store (c : Clu) | itcm (c : Clu) (k : CoreIx) | dtcm (c : Clu) (k : CoreIx)
  deriving DecidableEq, Repr

/-- What begins a checkpoint: a launched action, or a block's own journal threshold (R195). -/
inductive CheckpointSource where
  | launch (entry : Fin 1024) | mapFill | strFill | spnFill
  deriving DecidableEq, Repr

/-- What a position answers at start-up: its identifier bytes 1 to 6 and the protocols its parameter page offers, NV-DDR3 [0] and JESD230 [1] (R157, R162). -/
structure DieAnswer where
  pos : Pos
  ident : BitVec 48
  protocols : BitVec 2
  deriving DecidableEq, Repr

/-- An LDPC decoder: the hard decoder of a channel, or a soft decoder of the pool (R175). -/
inductive DecoderId where
  | hard (c : Chan) | soft (n : Fin 8)
  deriving DecidableEq, Repr

/-- Who redirects a unit (R202). -/
inductive RedirectKind where
  | host | gc | rebuild
  deriving DecidableEq, Repr

/-- A change to the map (R202): a redirect to a new entry from the location it was read at, a trim, or a retention lock. -/
inductive MapChange where
  | redirect (kind : RedirectKind) (handle : Fin 1024) (unit : BitVec 48) (entry : BitVec 64) (seen : BitVec 64)
  | trim (handle : Fin 1024) (first : BitVec 48) (count : Nat)
  | lock (handle : Fin 1024) (unit : BitVec 48)
  deriving DecidableEq, Repr

/-- A unit packed into a flash page: handle, unit number, and the low 36 bits SLOT, LEN and flags of its new map entry (R184, R185). -/
structure PackedUnit where
  handle : Fin 1024
  unit : BitVec 48
  slot : BitVec 8
  len : BitVec 9
  compressed : Bool
  deriving DecidableEq, Repr

/-- What start-up finds readable: the map journal and root, the stripe journal, the ferry area, and what the dumped units and an older map read as (R283, R287, R288). -/
structure Survey where
  mapJournal : Bool
  stripeJournal : Bool
  ferryArea : Bool
  /-- With the ferry area lost: a dump is found in the floor blocks (R288). -/
  dumpFound : Bool
  /-- Positions in the dump, by UIDX, whose data is lost beyond reconstruction while the header survives, and those whose header is lost too. -/
  lostUnits : List Nat
  goneUnits : List Nat
  /-- Trimmed units that a rebuild of the map finds mapped as they were before: handle, unit, entry (R287). -/
  undone : List (Fin 1024 × BitVec 48 × BitVec 64)
  deriving DecidableEq, Repr

/-- A unit as a read of flash brings it: its stored bytes, and the handle, unit number and key tag its metadata holds (R189 to R191). -/
structure FlashUnit where
  bytes : List Byte
  handle : Fin 1024
  number : BitVec 48
  tag : BitVec 16
  deriving DecidableEq, Repr

/-- What a link error is (R110). -/
inductive LinkErr where
  | replayTimeout | receiverError | ideFailure (fn : Fin 64)
  deriving DecidableEq, Repr

/-- A PCIe configuration request that the block acts on (R113, R634): a read, or a write of NumVFs or of another register. -/
inductive ConfigReq where
  | read | write | numVfs (n : Fin 64)
  deriving DecidableEq, Repr

/-- What a Security Send to the Opal or Key Per I/O SSC asks for a locking object (R475). -/
inductive OpalAct where
  | none | lock (handle : Fin 1024) | unlock (handle : Fin 1024) | genKey (handle : Fin 1024)
  deriving DecidableEq, Repr

/-- An SPDM request (R533): one measurement index or all of them, a certificate slot's chain, an owner chain for slot 1, or another message of SPDM 1.3 whose response has a given length. -/
inductive SpdmReq where
  | measurements (index : Option (BitVec 8)) | certificate (slot : Fin 2) | setCertificate (chain : List Byte) | other (length : Nat)
  deriving DecidableEq, Repr

/-- The clear part of a span message's header beside TYPE: sender, FUA, DEGRADED and UNRECOVERABLE, role, generation, stripe, first local unit, units, reference, and the receiver's consumed offset that comes as credit (R552, R553). -/
structure SpanHdr where
  sender : Fin 8
  fua : Bool
  degraded : Bool
  unrecoverable : Bool
  role : BitVec 8
  gen : BitVec 64
  stripe : BitVec 64
  first : BitVec 32
  units : BitVec 16
  ref : BitVec 32
  credit : Nat
  deriving DecidableEq, Repr

/-- What a heartbeat carries (R561), with what a joining member asks and a lead reports (R569): GROUP_ID, state, committed and proposed generation, configuration digest, running MAIN VERSION, time error in ns, members heard, witness vote held; the serial of a JOIN that names the sender's slot; members whose rebuild the sender has finished. -/
structure SpanBeat where
  group : BitVec 64
  state : Fin 8
  gen : BitVec 64
  proposed : BitVec 64
  digest : List Byte
  version : BitVec 64
  offset : Int
  heard : BitVec 8
  witness : Bool
  joins : Option (BitVec 64)
  finished : BitVec 8
  deriving DecidableEq, Repr

/-- What the members of a group answer to a JOIN: their GROUP_ID and descriptor, whether they hold quorum, whether a proposal is in progress (R567). -/
structure SpanPeer where
  group : BitVec 64
  desc : List Byte
  quorum : Bool
  proposing : Bool
  deriving DecidableEq, Repr

/-- A group action of the coordinator: an epoch boundary or a group snapshot (R562, R563). -/
inductive SpanSync where
  | epoch | snapshot
  deriving DecidableEq, Repr

/-- What follows the header of a span message (R553). -/
inductive SpanBody where
  | units (l : List (List Byte))
  | ask (count : Nat)
  | ack
  | replica (mask : BitVec 16) (rmw : Bool)
  | beat (b : SpanBeat)
  | suspect (m : Fin 8)
  | propose (desc : List Byte)
  | vote (digest : List Byte)
  | commit (desc : List Byte) (time : BitVec 64)
  | witness (vote : Bool)
  | action (a : SpanSync)
  deriving DecidableEq, Repr

end Sys2Proof
end

