-- ==== Sys2Proof/Syntax.lean ====
section
/-! DEFINITION. The commands of the block: one constructor per row of the opcode table, in the table's order. -/

namespace Sys2Proof

/-- A command. Operands are what reaches the block with it: who issues it, which unit it names, the values it carries, and for an event that depends on the device's surroundings what the surroundings did. -/
inductive Instr where
  /-- A write to a register that has no row of its own sets the field at its page, subject to the fabric and page checks (R20). -/
  | registerWrite (who : Initiator) (addr : BitVec 48) (width : Width) (value : Word)
  /-- A read of an RC register returns its value and then clears it (R8). -/
  | rcRegisterRead (who : Initiator) (page : BitVec 12) (off : BitVec 12)
  /-- A W1C write clears the chosen interrupt cause bits (R51). -/
  | irqStatusWrite (who : Initiator) (page : BitVec 12) (value : Word)
  /-- A write to IRQ_FORCE sets the matching IRQ_STATUS bits as if their cause had occurred (R51). -/
  | irqForce (who : Initiator) (page : BitVec 12) (value : Word)
  /-- A COMMIT write checks the staged set and applies it, or holds it PENDING or ARMED, under APPLY_MODE (R65). -/
  | stageCommit (who : Initiator) (page : BitVec 12) (mode : BitVec 2)
  /-- A CANCEL write withdraws a PENDING or ARMED commit and releases held admission (R68). -/
  | stageCancel (who : Initiator) (page : BitVec 12)
  /-- A DISCARD write copies in-force values back into the staged copies and clears DIRTY (R61). -/
  | stageDiscard (who : Initiator) (page : BitVec 12)
  /-- The last work unit of an older epoch completes, and a pending commit applies (R67). -/
  | epochDrained (page : BitVec 12)
  /-- Local time reaches APPLY_TIME of an ARMED commit, which applies or moves to PENDING with LATE (R67). -/
  | applyTimeReached (page : BitVec 12) (elapsed : Nat)
  /-- An epoch's drain bound expires before it drains, and the page records DRAIN_OVERRUN (R72). -/
  | drainOverrun (page : BitVec 12) (elapsed : Nat)
  /-- A write to LB_COUNT sets the count without firing an overflow (R75). -/
  | lbCountWrite (who : Initiator) (page : BitVec 12) (value : Word)
  /-- At each leak grid instant the leaky bucket count falls by 1, down to 0 (R73). -/
  | lbLeak (page : BitVec 12) (elapsed : Nat)
  /-- Writing the first unlock key arms the page's expert gate for the writer (R57). -/
  | expertUnlockArm (who : Initiator) (page : BitVec 12)
  /-- Writing the second key from the arming initiator within 256 cycles opens expert writes (R57). -/
  | expertUnlockOpen (who : Initiator) (page : BitVec 12)
  /-- The 256-cycle window after the first key expires and ARMED clears (R57). -/
  | expertUnlockExpiry (page : BitVec 12) (elapsed : Nat)
  /-- The owner writes 0 to EXPERT_UNLOCK and the unlock ends (R58). -/
  | expertUnlockEnd (who : Initiator) (page : BitVec 12)
  /-- An acknowledge returns to a source whose crossing buffer was full, and its held transfer goes (R17). -/
  | crossingAck (src dst : Island)
  /-- A Landing bank accepts a read and delivers the data, correcting or flagging ECC errors (R313). -/
  | landingRead (who : Initiator) (off : BitVec 26) (n : Nat)
  /-- A Landing bank accepts a write, full words directly and narrow writes into the merge buffer (R313). -/
  | landingWrite (who : Initiator) (off : BitVec 26) (data : List Byte)
  /-- A Landing, cluster-store or MRAM merge entry is written to the array when its mask fills, its time expires or room is needed (R317). -/
  | mergeEntryFlush (site : MergeSite)
  /-- The MRAM controller reads a word from one die, falling back to the other die when uncorrectable (R321). -/
  | mramRead (who : Initiator) (off : BitVec 27) (n : Nat)
  /-- The MRAM controller writes a word to both dies and acknowledges it when durable (R321). -/
  | mramWrite (who : Initiator) (off : BitVec 27) (data : List Byte)
  /-- A DRAM controller serves a read with its row hit, closed or conflict count and ECC check (R305). -/
  | dramRead (who : Initiator) (off : BitVec 39) (n : Nat)
  /-- A DRAM controller accepts a write, or a partial write into its merge buffer (R305). -/
  | dramWrite (who : Initiator) (off : BitVec 39) (data : List Byte)
  /-- A DRAM merge-buffer entry is read, merged and written back after its gather time or eviction (R304). -/
  | dramMergeRmw (n : DmcIx)
  /-- A read of SGL.TIME_LO returns the low count and latches the high half for that initiator (R79). -/
  | timeLoRead (who : Initiator)
  /-- Every PTM_PERIOD the sandglass runs a PTM dialogue and corrects its count (R83). -/
  | ptmDialogue (port : Port) (elapsed : Nat) (offset : Option Int) (linkOut : Bool)
  /-- A rising SPAN_SYNC edge is captured as a whole millisecond of group time and its pulse code read (R84). -/
  | spanSyncEdge (elapsed : Nat) (width : Nat)
  /-- Three expected SPAN_SYNC edges do not come and SRC_LOST is set (R84). -/
  | spanSyncMissing (elapsed : Nat)
  /-- A crew or security-processor write to SNAP_FIRE orders a snapshot 64 ns ahead (R104). -/
  | snapFire (who : Initiator) (value : Word)
  /-- An island reaches the latch time T and every page latches its snapshot registers (R101). -/
  | snapshotLatch (island : Island) (elapsed : Nat)
  /-- LCH ENTRY_OP READ copies the selected launch entry into the window registers (R91). -/
  | entryOpRead (who : Initiator)
  /-- LCH ENTRY_OP ARM checks and copies the window into the entry and sets it ARMED (R91). -/
  | entryOpArm (who : Initiator)
  /-- LCH ENTRY_OP CANCEL sets an ARMED entry to CANCELLED (R91). -/
  | entryOpCancel (who : Initiator)
  /-- LCH ENTRY_OP RELEASE sets a FIRED, FAILED or CANCELLED entry to FREE (R91). -/
  | entryOpRelease (who : Initiator)
  /-- The launch unit dispatches the next due ARMED entry, setting TIE and LATE, and sends its action (R94). -/
  | launchDispatch (elapsed : Nat)
  /-- 64 ns before its time a SNAP_LATCH entry sends the latch order and becomes FIRED (R95). -/
  | snapLatchEarlySend (elapsed : Nat)
  /-- A delivered action's outcome returns and the entry becomes FIRED or FAILED (R96). -/
  | launchOutcomeReturn (entry : Fin 1024)
  /-- A COMMIT_STAGE action reaches its page and performs an immediate-mode commit (R90). -/
  | commitStage (entry : Fin 1024)
  /-- A CHECKPOINT_BEGIN action, or a journal fill threshold, starts a checkpoint pass of MAP, STR or SPN (R195). -/
  | checkpointBegin (source : CheckpointSource)
  /-- A REFRESH_ALIGN action sets the DRAM refresh anchor to its time (R99). -/
  | refreshAlign (entry : Fin 1024)
  /-- A TOKEN_RATE_SET action sets the token ceiling, clamped to TOKEN_MIN to TOKEN_MAX (R593). -/
  | tokenRateSet (entry : Fin 1024)
  /-- A SPAN_EPOCH action applies a committed span generation at its time (R564). -/
  | spanEpoch (entry : Fin 1024)
  /-- A PROGRAM_START action makes the named WAITING run slot READY (R379). -/
  | programStart (entry : Fin 1024)
  /-- A USER_EVENT action copies the template slot into a free general slot and queues it (R379). -/
  | userEvent (entry : Fin 1024)
  /-- At each 1 µs slot start the token loop issues the slot's tokens and lapses the last slot's (R592). -/
  | tokenSlotStart (elapsed : Nat) (current : BitVec 16)
  /-- At a refresh grid instant each DRAM controller closes its banks and issues REFab to every rank (R298). -/
  | refreshInstant (elapsed : Nat)
  /-- A host port trains its link to the highest common rate and width (R106). -/
  | linkUp (p : Port) (rate : Fin 7) (width : Fin 17)
  /-- A host port loses its link and, in x8 + x8, ends its outstanding commands (R109). -/
  | linkDown (p : Port)
  /-- The host writes a submission queue tail doorbell (R116). -/
  | sqDoorbellWrite (ctl : CtlId) (q value : BitVec 16)
  /-- The host writes a completion queue head doorbell (R116). -/
  | cqDoorbellWrite (ctl : CtlId) (q value : BitVec 16)
  /-- The queue engine fetches commands under weighted round robin and checks their data-pointer length (R116). -/
  | commandFetch (sqe : BitVec 512) (dataLen : Nat) (prpShort : Bool)
  /-- Write-buffer room frees and a held write command proceeds to its data transfer (R32). -/
  | wbHoldRelease (cmd : Nat)
  /-- The queue engine posts a completion entry and interrupt after the command's last data write (R27). -/
  | completionPost (cmd : Nat) (elapsed : Nat)
  /-- Admin command Delete I/O Submission Queue (R120). -/
  | deleteIoSq (cmd : Nat)
  /-- Admin command Create I/O Submission Queue (R120). -/
  | createIoSq (cmd : Nat)
  /-- Admin command Delete I/O Completion Queue (R120). -/
  | deleteIoCq (cmd : Nat)
  /-- Admin command Create I/O Completion Queue (R120). -/
  | createIoCq (cmd : Nat)
  /-- Admin command Get Log Page returns a standard or vendor log page piece (R130). -/
  | getLogPage (cmd : Nat)
  /-- Admin command Identify returns the selected data structure with the device's own fields (R128). -/
  | identify (cmd : Nat)
  /-- Admin command Abort cancels an outstanding command not yet on a channel (R120). -/
  | abort (cmd : Nat)
  /-- Admin command Set Features sets a supported feature, power state and Host Memory Buffer included (R120). -/
  | setFeatures (cmd : Nat) (hostData : List Byte)
  /-- Admin command Get Features returns a feature value (R120). -/
  | getFeatures (cmd : Nat)
  /-- Admin command Asynchronous Event Request waits for an event to report (R120). -/
  | asyncEventRequest (cmd : Nat)
  /-- Admin command Namespace Management creates or deletes a namespace (R122). -/
  | namespaceManagement (cmd : Nat) (hostData : List Byte)
  /-- Admin command Namespace Attachment attaches or detaches a namespace (R120). -/
  | namespaceAttachment (cmd : Nat) (hostData : List Byte)
  /-- Admin command Firmware Image Download moves an image piece (R521). -/
  | firmwareImageDownload (cmd : Nat) (hostData : List Byte)
  /-- Admin command Firmware Commit verifies and writes the image into each replica and may activate it (R521). -/
  | firmwareCommit (cmd : Nat) (unreadable : List Nat)
  /-- Admin command Device Self-test runs a short or extended self-test (R120). -/
  | deviceSelfTest (cmd : Nat)
  /-- Admin command Directive Send for Identify and Streams directives (R120). -/
  | directiveSend (cmd : Nat)
  /-- Admin command Directive Receive for Identify and Streams directives (R120). -/
  | directiveReceive (cmd : Nat)
  /-- Admin command Virtualization Management assigns flexible queue and interrupt resources to VFs (R114). -/
  | virtualizationManagement (cmd : Nat)
  /-- Admin command NVMe-MI Send carries an NVMe-MI command in band (R147). -/
  | nvmeMiSend (cmd : Nat) (hostData : List Byte) (micros : Nat)
  /-- Admin command NVMe-MI Receive carries an NVMe-MI command in band (R147). -/
  | nvmeMiReceive (cmd : Nat)
  /-- Admin command Format NVM trims every entry of the namespaces and sets spare shares (R186). -/
  | formatNvm (cmd : Nat)
  /-- Admin command Security Send for TCG Opal, Key Per I/O and SPDM (R475). -/
  | securitySend (cmd : Nat) (hostData : List Byte) (act : OpalAct)
  /-- Admin command Security Receive for TCG Opal, Key Per I/O and SPDM (R475). -/
  | securityReceive (cmd : Nat)
  /-- Admin command Sanitize runs block or crypto erase (R475). -/
  | sanitize (cmd : Nat)
  /-- Admin command Get LBA Status reports mapped and deallocated LBAs (R183). -/
  | getLbaStatus (cmd : Nat)
  /-- I/O command Flush completes once earlier writes pass step 4, or R31 with FLUSH_DRAIN (R123). -/
  | flush (cmd : Nat)
  /-- I/O command Write runs the write path, merging partial units (R28). -/
  | write (cmd : Nat) (hostData : List Byte) (flash : List (Option FlashUnit))
  /-- I/O command Read runs the read path (R25). -/
  | read (cmd : Nat) (flash : List (Option FlashUnit))
  /-- I/O command Compare reads and compares data (R121). -/
  | compare (cmd : Nat) (hostData : List Byte) (flash : List (Option FlashUnit))
  /-- I/O command Write Zeroes zero-fills or deallocates the range (R183). -/
  | writeZeroes (cmd : Nat) (flash : List (Option FlashUnit))
  /-- I/O command Dataset Management deallocates whole units of its ranges (R183). -/
  | datasetManagement (cmd : Nat) (ranges : List Byte)
  /-- I/O command Verify reads through recovery and reconstruction and transfers nothing (R121). -/
  | verify (cmd : Nat) (flash : List (Option FlashUnit))
  /-- I/O command Reservation Register (R121). -/
  | reservationRegister (cmd : Nat) (hostData : List Byte)
  /-- I/O command Reservation Report (R121). -/
  | reservationReport (cmd : Nat)
  /-- I/O command Reservation Acquire (R121). -/
  | reservationAcquire (cmd : Nat) (hostData : List Byte)
  /-- I/O command Reservation Release (R121). -/
  | reservationRelease (cmd : Nat) (hostData : List Byte)
  /-- I/O command Copy moves source ranges to a destination (R121). -/
  | copy (cmd : Nat) (entries : List Byte) (flash : List (Option FlashUnit))
  /-- Span Control QUERY returns the group descriptor (R132). -/
  | spanQuery (cmd : Nat)
  /-- Span Control CREATE forms a group with this device as member 0 (R132). -/
  | spanCreate (cmd : Nat) (hostData : List Byte)
  /-- Span Control JOIN checks and joins an existing group (R567). -/
  | spanJoin (cmd : Nat) (hostData : List Byte) (peer : Option SpanPeer)
  /-- Span Control LEAVE sets the member LEAVING until replaced (R569). -/
  | spanLeave (cmd : Nat)
  /-- Span Control WITNESS grants or withdraws the host agent's witness vote (R566). -/
  | spanWitness (cmd : Nat)
  /-- Span Control FENCE asks the coordinator to fence a member (R568). -/
  | spanFence (cmd : Nat)
  /-- Vendor command Toll Statement Request obtains a meter statement or extract (R544). -/
  | tollStatementRequest (cmd : Nat)
  /-- Snapshot Trigger ACTION 00h fires a snapshot and completes when its latch order is out (R134). -/
  | snapshotTriggerIssue (cmd : Nat)
  /-- Snapshot Trigger ACTION 01h fires a snapshot and completes after its latch time (R134). -/
  | snapshotTriggerWait (cmd : Nat)
  /-- Launch Table Access READ returns a host-reachable entry image (R135). -/
  | launchTableRead (cmd : Nat)
  /-- Launch Table Access ARM arms a host-reachable entry for a permitted action (R135). -/
  | launchTableArm (cmd : Nat) (hostData : List Byte)
  /-- Launch Table Access CANCEL cancels a host-reachable entry (R135). -/
  | launchTableCancel (cmd : Nat)
  /-- Launch Table Access RELEASE frees a host-reachable entry (R135). -/
  | launchTableRelease (cmd : Nat)
  /-- Retention Range Set CREATE adds a retention range after its conflict checks (R136). -/
  | retentionCreate (cmd : Nat) (hostData : List Byte)
  /-- Retention Range Set QUERY returns a range descriptor (R136). -/
  | retentionQuery (cmd : Nat) (hostData : List Byte)
  /-- Retention Range Set EXTEND moves a range's expiry later (R136). -/
  | retentionExtend (cmd : Nat) (hostData : List Byte)
  /-- The Timestamp passes a range's EXPIRY and the range leaves the table (R137). -/
  | retentionExpiry (elapsed : Nat)
  /-- Barchan Control QUERY returns the C1h summary entry (R263). -/
  | barchanQuery (cmd : Nat)
  /-- Barchan Control SET_LAYOUT commits width, protection and seed (R263). -/
  | barchanSetLayout (cmd : Nat) (hostData : List Byte)
  /-- Barchan Control SET_SHARE commits the rebuild share (R263). -/
  | barchanSetShare (cmd : Nat)
  /-- Barchan Control SPARE_DIE sets a die's HOT_SPARE bit (R263). -/
  | barchanSpareDie (cmd : Nat)
  /-- Barchan Control REBUILD requests a rebuild or copy-out of a die (R263). -/
  | barchanRebuild (cmd : Nat)
  /-- Barchan Control RESYNC starts a whole-array resynchronisation (R263). -/
  | barchanResync (cmd : Nat)
  /-- An atomic step of PS3 or PS4 entry runs, at most 200 µs (R141). -/
  | powerStateEntryStep (last : Bool) (elapsed : Nat)
  /-- A command or wake during or after entry returns the device to PS0 by the exit sequence (R141). -/
  | powerStateExit
  /-- FLR of a partition VF ends that partition's commands and deletes its queues (R144). -/
  | partitionReset (fn : Fin 64)
  /-- A side-band MCTP request arrives on the management port and may wake PD01 (R146). -/
  | mgmtRequest (msg : List Byte) (elapsed : Nat)
  /-- NVMe-MI command Read NVMe-MI Data Structure (R147). -/
  | readNvmeMiDataStructure (dtyp : BitVec 8) (ctl : BitVec 16) (inBand : Option Nat)
  /-- NVMe-MI command Subsystem Health Status Poll (R147). -/
  | subsystemHealthStatusPoll (clear : Bool) (inBand : Option Nat)
  /-- NVMe-MI command Controller Health Status Poll (R147). -/
  | controllerHealthStatusPoll (first : BitVec 16) (inBand : Option Nat)
  /-- NVMe-MI command Configuration Set (R147). -/
  | configurationSet (id : BitVec 8) (value : Word) (inBand : Option Nat)
  /-- NVMe-MI command Configuration Get (R147). -/
  | configurationGet (id : BitVec 8) (inBand : Option Nat)
  /-- NVMe-MI command VPD Read (R147). -/
  | vpdRead (off len : BitVec 16) (inBand : Option Nat)
  /-- NVMe-MI command VPD Write (R147). -/
  | vpdWrite (off : BitVec 16) (bytes : List Byte) (inBand : Option Nat)
  /-- NVMe-MI command Reset (R147). -/
  | nvmeMiReset (kind : BitVec 8) (inBand : Option Nat) (micros : Nat)
  /-- A side-band tunnelled admin command is run or refused (R147). -/
  | tunnelledAdminCommand (sqe : BitVec 512) (hostData : List Byte)
  /-- An SPDM 1.3 request on DOE or the management port is answered and signed with the Ed25519 identity key (R533). -/
  | spdmRequest (port : Fin 3) (req : SpdmReq)
  /-- A channel island leaving reset resets, addresses and identifies its dies (R157). -/
  | channelStart (c : Chan) (answers : List DieAnswer)
  /-- At a commit's apply the channel switches enabled dies to the configured mode and trains them (R157). -/
  | channelTraining (c : Chan) (eyes : BitVec 16)
  /-- Every CHECK_INTERVAL the channel re-reads a training pattern and may declare training loss (R158). -/
  | trainingCheck (c : Chan) (elapsed : Nat) (drift : List (Pos × Nat))
  /-- A retraining attempt of a degraded channel passes or fails (R159). -/
  | retrainAttempt (c : Chan) (elapsed : Nat) (passed : Bool)
  /-- An idle die takes the next read, program or erase in class order (R163). -/
  | dieReadIssue (c : Chan) (p : Pos) (elapsed : Nat)
  /-- A read waiting longer than READ_AGE moves to class A (R163). -/
  | readAgePromotion (c : Chan) (p : Pos) (elapsed : Nat)
  /-- A channel's token request is granted or refused in the current slot (R594). -/
  | tokenRequest (elapsed : Nat) (group : List (Chan × Pos))
  /-- The channel checks FREEABLE atomically and issues or refuses an ERASE (R165). -/
  | eraseIssue (c : Chan) (p : Pos)
  /-- A waiting class A or B read suspends a running program or erase when PMIN/EMIN has passed (R166). -/
  | dieSuspend (c : Chan) (p : Pos) (elapsed : Nat)
  /-- After the read batch the suspended operation resumes once it holds a token (R166). -/
  | dieResume (c : Chan) (p : Pos) (elapsed : Nat)
  /-- A status poll finds a busy die ready, ending its read, program, erase or reset (R168). -/
  | dieOpComplete (c : Chan) (p : Pos) (elapsed : Nat) (pass : Bool)
  /-- A channel's hard decoder delivers the result of a codeword (R170). -/
  | hardDecodeDone (c : Chan) (job : Nat) (pass : Bool) (weight : Nat) (bytes : List Byte)
  /-- A soft decoder in the pool finishes a soft or hard-mode job (R172). -/
  | softDecodeJobDone (dec : Fin 8) (pass : Bool) (weight : Nat) (bytes : List Byte)
  /-- A codeword's ladder time reaches LADDER_BUDGET and it goes to reconstruction (R176). -/
  | ladderBudgetExpiry (c : Chan) (job : Nat) (elapsed : Nat)
  /-- Each SELF_CHECK interval a decoder decodes a stored codeword and is retired on mismatch (R175). -/
  | decoderSelfCheck (dec : DecoderId) (good : Bool)
  /-- A die stays busy past TIMEOUT_MULT + 2 times its descriptor time, a transient fault (R178). -/
  | dieTimeout (c : Chan) (p : Pos)
  /-- After its backoff a transient die fault retry polls or resets and reissues the operation (R180). -/
  | fchTransientRetry (c : Chan) (p : Pos) (elapsed : Nat) (ready : Bool)
  /-- A crew write to RETIRE_REQ retires the named die or the channel (R179). -/
  | retireReq (who : Initiator) (c : Chan) (value : Word)
  /-- The map walker resolves a unit through the write-buffer index, cache, host window and flash (R192). -/
  | mapLookup (handle : Fin 1024) (unit : BitVec 48)
  /-- A map page read from flash fills its cache segment and refreshes its window slot (R192). -/
  | mapPageFill (handle : Fin 1024) (page : BitVec 37) (recovered : Bool)
  /-- A dirty map page is written back and journaled with DIR_UPDATE (R195). -/
  | mapWriteBack (handle : Fin 1024) (page : BitVec 37) (loc : BitVec 64)
  /-- Enabling the Host Memory Buffer draws a fresh window key and starts the window empty (R196). -/
  | hmwEnable (granted : Nat)
  /-- The map walker locks, journals and updates a map entry and its block counts (R203). -/
  | mapChange (change : MapChange)
  /-- A map journal record becomes durable, releasing write-buffer space (R201). -/
  | journalRecordDurable
  /-- Map changes held by a full journal ring resume when a checkpoint frees room (R205). -/
  | journalRingFullHold
  /-- A block changes state after its BLOCK_STATE record is durable (R212). -/
  | blockStateChange (die : Fin 1024) (block : Fin 16384)
  /-- The oasis host part or a band fall starts migration to native blocks (R210). -/
  | migrationStart
  /-- GC selects a victim block and moves its live units (R218). -/
  | gcVictimSelect
  /-- An erase-count spread above WL_DELTA makes the oldest closed block a victim (R222). -/
  | staticWearLevel (die : Fin 1024)
  /-- Each 1 ms in Throttle the host write admission rate is set from GC returns (R224). -/
  | throttleWindow (elapsed : Nat)
  /-- A write to MAP.BST_SEL loads the block's entry into BST_W0 to BST_W3 (R211). -/
  | bstSelWrite (who : Initiator) (value : Word)
  /-- MAP ERR_INJECT corrupts a window check, issues an ERASE or sets a reserved flag (R227). -/
  | mapErrInject (who : Initiator) (value : Word)
  /-- The stripe engine opens a block set, placing members and journaling SET_OPEN or SET_SKIP (R235). -/
  | setOpen (slc : Bool)
  /-- A data page's program passes, is added to the accumulator and STRIPE_PROG journaled (R237). -/
  | stripeMemberProgram (set : BitVec 32) (units : List PackedUnit)
  /-- With every data member passed, the engine programs P and Q (R238). -/
  | stripeParityProgram (set : BitVec 32)
  /-- A stripe open for CLOSE_AGE is padded or closed by the fallback (R238). -/
  | stripeCloseAge (set : BitVec 32) (elapsed : Nat)
  /-- The engine verifies a stripe, journals STRIPE_CLOSE and releases the accumulator (R239). -/
  | stripeVerify (set : BitVec 32) (rungs : List (Fin 32 × Fin 4))
  /-- A member program failure closes the set early and moves passed pages to a new set (R240). -/
  | stripeProgramFail (set : BitVec 32) (member : Fin 32)
  /-- A later data page of a provisional stripe updates its provisional parity (R241). -/
  | rmwParityUpdate (set : BitVec 32) (units : List PackedUnit)
  /-- An uncorrectable accumulator read closes its stripe's set and moves passed pages (R319). -/
  | accumulatorUe (set : BitVec 32)
  /-- An unresynchronised stripe is read, checked and closed or moved (R244). -/
  | stripeResync (outcome : Fin 3) (lost : List (Fin 1024 × BitVec 48))
  /-- A codeword at rung 4 is reconstructed from its stripe's survivors (R247). -/
  | stripeReconstruct (job : Nat) (survivors : List (Fin 32 × List Byte))
  /-- A die retirement or REBUILD request fences the die and starts its rebuild (R253). -/
  | rebuildStart (die : Fin 1024)
  /-- The engine walks the map to list every live unit on the lost die (R254). -/
  | rebuildCensus (die : Fin 1024)
  /-- The engine restores one block of the lost die into a substitute and redirects its units (R255). -/
  | rebuildRestoreBlock (die : Fin 1024) (qMismatch : Nat) (solutions : Nat)
  /-- No substitute or a zero share sends a rebuilding die to PAUSED (R253). -/
  | rebuildPause (die : Fin 1024)
  /-- A REBUILD of an in-service die copies its held blocks out and retires it (R256). -/
  | copyOut (die : Fin 1024)
  /-- A write to STR.RB_SEL loads a die's rebuild state registers (R261). -/
  | rbSelWrite (who : Initiator) (value : Word)
  /-- STR ERR_INJECT flips parity, fails verify, loses a survivor or tears a record (R261). -/
  | strErrInject (who : Initiator) (value : Word)
  /-- VIN below VTRIP in two samples raises PWR_FAIL and starts the last ferry (R265). -/
  | pwrFail (vin vmin : BitVec 13) (micros : Nat) (cut : Option Nat)
  /-- VIN stays above VTRIP + HYST for RESTART_HOLD and the parked device restarts (R276). -/
  | restartHoldExpiry (elapsed : Nat) (vin : BitVec 13)
  /-- PMU.FERRY_INJECT raises PWR_FAIL with VIN unchanged, optionally with a brownout (R267). -/
  | ferryInject (who : Initiator) (value : Word) (micros : Nat)
  /-- After boot the device replays journals, reloads the ferry and reaches I/O-ready (R282). -/
  | restartRecovery (survey : Survey)
  /-- Each DRAM controller trains its channel and retires failing ranks (R295). -/
  | dramTraining (n : DmcIx) (failed : BitVec 2)
  /-- Every TRAIN_CTRL ms the controller tracks DQS drift and retrains on loss (R296). -/
  | dqsTracking (n : DmcIx) (elapsed : Nat) (lost : Bool)
  /-- Each 1 ms the controllers read MR4 and switch the refresh interval (R297). -/
  | mr4TempRead (n : DmcIx) (elapsed : Nat) (code0 code1 : BitVec 4) (temp0 temp1 : Int)
  /-- ALERT_n signals a CA parity error; commands are reissued and the rank retired (R306). -/
  | caParityAlert (n : DmcIx) (rank : Fin 2)
  /-- The controller copies MIG_RATE lines per µs from the retired rank into the spare (R307). -/
  | rankMigrationStep (micros : Nat)
  /-- Before PD18 or PD19 goes off each rank enters self-refresh (R299). -/
  | selfRefreshEntry (upper : Bool)
  /-- On domain return each rank leaves self-refresh (R299). -/
  | selfRefreshExit (upper : Bool)
  /-- DMC ERR_INJECT injects a data, address or CA parity error (R310). -/
  | dmcErrInject (who : Initiator) (n : DmcIx) (value : Word)
  /-- An MRAM die stops answering or errs too often and is marked failed (R322). -/
  | mramDieFail (die : Fin 2)
  /-- A ring head entering a logical frame assigns it a fresh pool frame (R325). -/
  | mramFrameAssign (lframe : Fin 1552)
  /-- A cold frame too far below the pool is copied into the hottest pool frame (R326). -/
  | mramFrameSwap
  /-- A frame is retired from the pool, copying its contents first (R327). -/
  | mramFrameRetire (frame : Fin 1920)
  /-- Wear credit returns and held MRAM writes proceed (R329). -/
  | wearMeterRelease (elapsed : Nat)
  /-- A scrubber reads a word in its interval, correcting or reporting it (R330). -/
  | patrolScrubRead (site : ScrubSite) (offset : Nat) (passEnds : Bool)
  /-- LND ERR_INJECT injects a single or double error in a bank (R336). -/
  | lndErrInject (who : Initiator) (value : Word)
  /-- MRM ERR_INJECT injects errors, a die failure or a corrupt header (R337). -/
  | mrmErrInject (who : Initiator) (value : Word)
  /-- ALU ADD (R351). -/
  | add (c : Clu) (k : CoreIx) (rd rs1 rs2 : RegIx) (resv : BitVec 5)
  /-- ALU SUB (R351). -/
  | sub (c : Clu) (k : CoreIx) (rd rs1 rs2 : RegIx) (resv : BitVec 5)
  /-- ALU AND (R351). -/
  | and (c : Clu) (k : CoreIx) (rd rs1 rs2 : RegIx) (resv : BitVec 5)
  /-- ALU OR (R351). -/
  | or (c : Clu) (k : CoreIx) (rd rs1 rs2 : RegIx) (resv : BitVec 5)
  /-- ALU XOR (R351). -/
  | xor (c : Clu) (k : CoreIx) (rd rs1 rs2 : RegIx) (resv : BitVec 5)
  /-- ALU NOR (R351). -/
  | nor (c : Clu) (k : CoreIx) (rd rs1 rs2 : RegIx) (resv : BitVec 5)
  /-- ALU shift left logical (R351). -/
  | sll (c : Clu) (k : CoreIx) (rd rs1 rs2 : RegIx) (resv : BitVec 5)
  /-- ALU shift right logical (R351). -/
  | srl (c : Clu) (k : CoreIx) (rd rs1 rs2 : RegIx) (resv : BitVec 5)
  /-- ALU shift right arithmetic (R351). -/
  | sra (c : Clu) (k : CoreIx) (rd rs1 rs2 : RegIx) (resv : BitVec 5)
  /-- ALU set less than, signed (R351). -/
  | slt (c : Clu) (k : CoreIx) (rd rs1 rs2 : RegIx) (resv : BitVec 5)
  /-- ALU set less than, unsigned (R351). -/
  | sltu (c : Clu) (k : CoreIx) (rd rs1 rs2 : RegIx) (resv : BitVec 5)
  /-- ALU rotate right (R351). -/
  | rotr (c : Clu) (k : CoreIx) (rd rs1 rs2 : RegIx) (resv : BitVec 5)
  /-- ALU multiply, low 32 bits (R351). -/
  | mul (c : Clu) (k : CoreIx) (rd rs1 rs2 : RegIx) (resv : BitVec 5)
  /-- ALU multiply, signed high 32 bits (R351). -/
  | mulh (c : Clu) (k : CoreIx) (rd rs1 rs2 : RegIx) (resv : BitVec 5)
  /-- ALU multiply, unsigned high 32 bits (R351). -/
  | mulhu (c : Clu) (k : CoreIx) (rd rs1 rs2 : RegIx) (resv : BitVec 5)
  /-- ALU signed divide, never trapping (R351). -/
  | div (c : Clu) (k : CoreIx) (rd rs1 rs2 : RegIx) (resv : BitVec 5)
  /-- ALU unsigned divide (R351). -/
  | divu (c : Clu) (k : CoreIx) (rd rs1 rs2 : RegIx) (resv : BitVec 5)
  /-- ALU signed remainder (R351). -/
  | rem (c : Clu) (k : CoreIx) (rd rs1 rs2 : RegIx) (resv : BitVec 5)
  /-- ALU unsigned remainder (R351). -/
  | remu (c : Clu) (k : CoreIx) (rd rs1 rs2 : RegIx) (resv : BitVec 5)
  /-- Add sign-extended immediate (R350). -/
  | addi (c : Clu) (k : CoreIx) (rd rs1 : RegIx) (imm : BitVec 16)
  /-- AND zero-extended immediate (R350). -/
  | andi (c : Clu) (k : CoreIx) (rd rs1 : RegIx) (imm : BitVec 16)
  /-- OR zero-extended immediate (R350). -/
  | ori (c : Clu) (k : CoreIx) (rd rs1 : RegIx) (imm : BitVec 16)
  /-- XOR zero-extended immediate (R350). -/
  | xori (c : Clu) (k : CoreIx) (rd rs1 : RegIx) (imm : BitVec 16)
  /-- Set if less than immediate, signed (R350). -/
  | slti (c : Clu) (k : CoreIx) (rd rs1 : RegIx) (imm : BitVec 16)
  /-- Set if less than immediate, unsigned (R350). -/
  | sltiu (c : Clu) (k : CoreIx) (rd rs1 : RegIx) (imm : BitVec 16)
  /-- Load upper immediate (R350). -/
  | lui (c : Clu) (k : CoreIx) (rd : RegIx) (resv : BitVec 5) (imm : BitVec 16)
  /-- Shift left logical by immediate (R350). -/
  | slli (c : Clu) (k : CoreIx) (rd rs1 : RegIx) (resv : BitVec 9) (amount : BitVec 5)
  /-- Shift right logical by immediate (R350). -/
  | srli (c : Clu) (k : CoreIx) (rd rs1 : RegIx) (resv : BitVec 9) (amount : BitVec 5)
  /-- Shift right arithmetic by immediate (R350). -/
  | srai (c : Clu) (k : CoreIx) (rd rs1 : RegIx) (resv : BitVec 9) (amount : BitVec 5)
  /-- Rotate right by immediate (R350). -/
  | rotri (c : Clu) (k : CoreIx) (rd rs1 : RegIx) (resv : BitVec 9) (amount : BitVec 5)
  /-- Load byte, sign-extended (R350). -/
  | lb (c : Clu) (k : CoreIx) (rd rs1 : RegIx) (imm : BitVec 16) (host : Word)
  /-- Load byte, zero-extended (R350). -/
  | lbu (c : Clu) (k : CoreIx) (rd rs1 : RegIx) (imm : BitVec 16) (host : Word)
  /-- Load half-word, sign-extended (R350). -/
  | lh (c : Clu) (k : CoreIx) (rd rs1 : RegIx) (imm : BitVec 16) (host : Word)
  /-- Load half-word, zero-extended (R350). -/
  | lhu (c : Clu) (k : CoreIx) (rd rs1 : RegIx) (imm : BitVec 16) (host : Word)
  /-- Load word (R350). -/
  | lw (c : Clu) (k : CoreIx) (rd rs1 : RegIx) (imm : BitVec 16) (host : Word)
  /-- Load byte with post-increment (R350). -/
  | lbP (c : Clu) (k : CoreIx) (rd rs1 : RegIx) (imm : BitVec 16) (host : Word)
  /-- Load byte unsigned with post-increment (R350). -/
  | lbuP (c : Clu) (k : CoreIx) (rd rs1 : RegIx) (imm : BitVec 16) (host : Word)
  /-- Load half-word with post-increment (R350). -/
  | lhP (c : Clu) (k : CoreIx) (rd rs1 : RegIx) (imm : BitVec 16) (host : Word)
  /-- Load half-word unsigned with post-increment (R350). -/
  | lhuP (c : Clu) (k : CoreIx) (rd rs1 : RegIx) (imm : BitVec 16) (host : Word)
  /-- Load word with post-increment (R350). -/
  | lwP (c : Clu) (k : CoreIx) (rd rs1 : RegIx) (imm : BitVec 16) (host : Word)
  /-- Store byte (R350). -/
  | sb (c : Clu) (k : CoreIx) (rt rs1 : RegIx) (imm : BitVec 16)
  /-- Store half-word (R350). -/
  | sh (c : Clu) (k : CoreIx) (rt rs1 : RegIx) (imm : BitVec 16)
  /-- Store word (R350). -/
  | sw (c : Clu) (k : CoreIx) (rt rs1 : RegIx) (imm : BitVec 16)
  /-- Store byte with post-increment (R350). -/
  | sbP (c : Clu) (k : CoreIx) (rt rs1 : RegIx) (imm : BitVec 16)
  /-- Store half-word with post-increment (R350). -/
  | shP (c : Clu) (k : CoreIx) (rt rs1 : RegIx) (imm : BitVec 16)
  /-- Store word with post-increment (R350). -/
  | swP (c : Clu) (k : CoreIx) (rt rs1 : RegIx) (imm : BitVec 16)
  /-- Branch if registers equal (R350). -/
  | cbEq (c : Clu) (k : CoreIx) (rs1 rs2 : RegIx) (off : BitVec 16)
  /-- Branch if registers differ (R350). -/
  | cbNe (c : Clu) (k : CoreIx) (rs1 rs2 : RegIx) (off : BitVec 16)
  /-- Branch if less, signed (R350). -/
  | cbLt (c : Clu) (k : CoreIx) (rs1 rs2 : RegIx) (off : BitVec 16)
  /-- Branch if greater or equal, signed (R350). -/
  | cbGe (c : Clu) (k : CoreIx) (rs1 rs2 : RegIx) (off : BitVec 16)
  /-- Branch if less, unsigned (R350). -/
  | cbLtu (c : Clu) (k : CoreIx) (rs1 rs2 : RegIx) (off : BitVec 16)
  /-- Branch if greater or equal, unsigned (R350). -/
  | cbGeu (c : Clu) (k : CoreIx) (rs1 rs2 : RegIx) (off : BitVec 16)
  /-- Branch if bit set (R350). -/
  | bts (c : Clu) (k : CoreIx) (rs1 : RegIx) (bitNo : BitVec 5) (off : BitVec 16)
  /-- Branch if bit clear (R350). -/
  | btc (c : Clu) (k : CoreIx) (rs1 : RegIx) (bitNo : BitVec 5) (off : BitVec 16)
  /-- Branch if equal to immediate (R350). -/
  | cbiEq (c : Clu) (k : CoreIx) (rs1 : RegIx) (imm : BitVec 5) (off : BitVec 16)
  /-- Branch if not equal to immediate (R350). -/
  | cbiNe (c : Clu) (k : CoreIx) (rs1 : RegIx) (imm : BitVec 5) (off : BitVec 16)
  /-- Branch if less than immediate, signed (R350). -/
  | cbiLt (c : Clu) (k : CoreIx) (rs1 : RegIx) (imm : BitVec 5) (off : BitVec 16)
  /-- Branch if greater or equal to immediate, signed (R350). -/
  | cbiGe (c : Clu) (k : CoreIx) (rs1 : RegIx) (imm : BitVec 5) (off : BitVec 16)
  /-- Branch if less than immediate, unsigned (R350). -/
  | cbiLtu (c : Clu) (k : CoreIx) (rs1 : RegIx) (imm : BitVec 5) (off : BitVec 16)
  /-- Branch if greater or equal to immediate, unsigned (R350). -/
  | cbiGeu (c : Clu) (k : CoreIx) (rs1 : RegIx) (imm : BitVec 5) (off : BitVec 16)
  /-- Jump (R350). -/
  | j (c : Clu) (k : CoreIx) (off : BitVec 26)
  /-- Jump and write the link register (R350). -/
  | call (c : Clu) (k : CoreIx) (off : BitVec 26)
  /-- Jump to lk (R352). -/
  | ret (c : Clu) (k : CoreIx) (resv : BitVec 5)
  /-- Jump to register (R352). -/
  | jr (c : Clu) (k : CoreIx) (rs1 : RegIx) (resv : BitVec 5)
  /-- Call through register (R352). -/
  | callr (c : Clu) (k : CoreIx) (rs1 : RegIx) (resv : BitVec 5)
  /-- Move from special register (R348). -/
  | mfs (c : Clu) (k : CoreIx) (rd : RegIx) (sr : BitVec 5) (resv : BitVec 5)
  /-- Move to special register (R348). -/
  | mts (c : Clu) (k : CoreIx) (sr : BitVec 5) (rs1 : RegIx) (resv : BitVec 5)
  /-- TRAP instruction takes vector 8 with its code (R352). -/
  | trap (c : Clu) (k : CoreIx) (code : BitVec 5) (resv : BitVec 5)
  /-- Crew return from trap restores RUNMODE and jumps to TRAP_RET (R352). -/
  | tret (c : Clu) (k : CoreIx) (resv : BitVec 5)
  /-- Wait until every earlier store is acknowledged (R352). -/
  | fence (c : Clu) (k : CoreIx) (resv : BitVec 5)
  /-- End the current work item; the slot follows END_ACTION (R386). -/
  | endw (c : Clu) (k : CoreIx) (resv : BitVec 5)
  /-- Atomic swap in the cluster store (R353). -/
  | swap (c : Clu) (k : CoreIx) (rd rs1 rs2 : RegIx) (resv : BitVec 5)
  /-- Atomic add in the cluster store (R353). -/
  | aadd (c : Clu) (k : CoreIx) (rd rs1 rs2 : RegIx) (resv : BitVec 5)
  /-- Atomic AND in the cluster store (R353). -/
  | aand (c : Clu) (k : CoreIx) (rd rs1 rs2 : RegIx) (resv : BitVec 5)
  /-- Atomic OR in the cluster store (R353). -/
  | aor (c : Clu) (k : CoreIx) (rd rs1 rs2 : RegIx) (resv : BitVec 5)
  /-- Atomic compare and swap in the cluster store (R353). -/
  | cas (c : Clu) (k : CoreIx) (rd rs1 rs2 : RegIx) (resv : BitVec 5)
  /-- Custom instruction runs the micro-op sequence of its decode slot (R362). -/
  | mcx (c : Clu) (k : CoreIx) (rd rs1 rs2 : RegIx) (imm : BitVec 7) (slot : BitVec 4) (host : List Word)
  /-- A START to LOAD_CTRL checks, holds, writes and releases a cluster image load (R368). -/
  | clusterLoadStart (who : Initiator) (c : Clu) (value : Word)
  /-- A write to CORE_RESET resets an idle or halted core (R370). -/
  | coreReset (who : Initiator) (c : Clu) (value : Word)
  /-- A write to CORE_RETIRE or a bucket overflow retires a core (R372). -/
  | coreRetire (who : Initiator) (c : Clu) (value : Word)
  /-- NCL ERR_INJECT injects memory errors or a double trap (R370). -/
  | nclErrInject (who : Initiator) (c : Clu) (value : Word)
  /-- WI_OP READ copies a slot into the window (R376). -/
  | wiRead (who : Initiator)
  /-- WI_OP SUBMIT_NEW takes the lowest free general slot and queues it (R376). -/
  | wiSubmitNew (who : Initiator)
  /-- WI_OP SUBMIT queues the named slot (R376). -/
  | wiSubmit (who : Initiator)
  /-- WI_OP ARM makes the named slot WAITING (R376). -/
  | wiArm (who : Initiator)
  /-- WI_OP CANCEL frees a waiting, delayed or ready slot (R376). -/
  | wiCancel (who : Initiator)
  /-- WI_OP RELEASE frees a DONE or FAILED slot (R376). -/
  | wiRelease (who : Initiator)
  /-- A raised page interrupt makes its WAITING interrupt slot READY or sets PENDING (R378). -/
  | pageInterrupt (page : BitVec 12)
  /-- At each TICK due DELAYED items leave their lists and become READY (R380). -/
  | dispatcherTick (elapsed : Nat)
  /-- An idle core takes the highest-priority eligible READY item and starts it (R382). -/
  | itemDispatch (c : Clu) (elapsed : Nat)
  /-- A READY item pre-empts a lower-threshold running item, whose context is saved (R383). -/
  | itemPreempt (c : Clu) (elapsed : Nat)
  /-- A read of FAIL_NEXT pops the oldest failed slot (R389). -/
  | failNextRead (who : Initiator)
  /-- A write to HIST_CLEAR clears every queue histogram (R389). -/
  | histClear (who : Initiator) (value : Word)
  /-- A read of CORE_BUSY_LO latches CORE_BUSY_HI (R389). -/
  | coreBusyLoRead (who : Initiator)
  /-- DIS ERR_INJECT corrupts a restore or doubles an interrupt event (R389). -/
  | disErrInject (who : Initiator) (value : Word)
  /-- The owner writes a general ring's TAIL, posting descriptors (R393). -/
  | ringTailWrite (who : Initiator) (n : CvnIx) (r : RingIx) (value : Word)
  /-- The owner writes a ring's CPL_HEAD, consuming completions (R393). -/
  | ringCplHeadWrite (who : Initiator) (n : CvnIx) (r : RingIx) (value : Word)
  /-- An admissible ring head is fetched, validated and tagged with the epoch (R394). -/
  | caravanJobAdmit (n : CvnIx) (r : RingIx)
  /-- An idle caravan starts its highest-priority candidate (R395). -/
  | caravanJobStart (n : CvnIx) (hostData : List Byte) (elapsed : Nat)
  /-- A job ends and its completion record is written (R402). -/
  | caravanJobEnd (n : CvnIx) (extra elapsed : Nat)
  /-- A higher-priority candidate stops the feed at a suspension point and the job is saved (R407). -/
  | caravanSuspend (n : CvnIx) (elapsed : Nat)
  /-- A read, write or scan path posts a job to a path ring, waiting when all are full (R413). -/
  | pathJobPost (path : Fin 3) (desc : BitVec 512) (tenant : BitVec 16) (handle : Fin 1024) (unit : BitVec 48)
  /-- A write to RETIRE, a self-check failure or overflow fences the caravan (R417). -/
  | caravanRetire (who : Initiator) (n : CvnIx) (value : Word)
  /-- CVN ERR_INJECT injects restore, self-check, descriptor or output check faults (R420). -/
  | cvnErrInject (who : Initiator) (n : CvnIx) (value : Word)
  /-- The match engine resolves a lookup in 12 cycles within its partition (R457). -/
  | matchLookup (part : Fin 16) (key : BitVec 160)
  /-- Window OP READ copies a partition entry into the window (R460). -/
  | mteRead (who : Initiator) (window : Fin 16)
  /-- Window OP UPDATE writes the window into an entry in three steps (R459). -/
  | mteUpdate (who : Initiator) (window : Fin 16)
  /-- Window OP INVALIDATE invalidates an entry (R460). -/
  | mteInvalidate (who : Initiator) (window : Fin 16)
  /-- Window OP INSERT shifts entries up to a hole and writes the window at INDEX (R461). -/
  | mteInsert (who : Initiator) (window : Fin 16)
  /-- Window OP LOOKUP looks up the window key and returns the result (R460). -/
  | mteLookup (who : Initiator) (window : Fin 16)
  /-- Every SWEEP ms each entry's row and shadow are checked and repaired (R462). -/
  | mteSweep (elapsed : Nat)
  /-- MTE ERR_INJECT corrupts an entry's array bit, row or shadow (R463). -/
  | mteErrInject (who : Initiator) (value : Word)
  /-- A non-resident key slot is unwrapped from DRAM, evicting and rewrapping an LRU slot (R467). -/
  | keyUnwrap (slot : BitVec 16) (intact : Bool)
  /-- Before PD09 goes off the key store wraps every slot and fills the key keep (R469). -/
  | keyStoreSuspend
  /-- When PD09 returns the key store reloads from the key keep and unwraps pinned slots (R469). -/
  | keyStoreRestore
  /-- KOP READ returns a slot's attributes and counter (R470). -/
  | kopRead (who : Initiator)
  /-- KOP LOAD loads attributes, counter and key into a slot (R470). -/
  | kopLoad (who : Initiator)
  /-- KOP GENERATE loads a slot with DRBG key and FIXED (R470). -/
  | kopGenerate (who : Initiator)
  /-- KOP CLEAR zeroises a slot (R470). -/
  | kopClear (who : Initiator)
  /-- KOP PIN keeps a slot resident (R470). -/
  | kopPin (who : Initiator)
  /-- KOP UNPIN releases a slot's pin (R470). -/
  | kopUnpin (who : Initiator)
  /-- KOP LOCK locks a slot (R470). -/
  | kopLock (who : Initiator)
  /-- KOP UNLOCK unlocks a slot (R470). -/
  | kopUnlock (who : Initiator)
  /-- KOP ROTATE sets a VALID slot to ROTATE (R470). -/
  | kopRotate (who : Initiator)
  /-- An entropy sample fails its health tests (R481). -/
  | entropyHealthFail
  /-- Every RESEED_INTERVAL or 2^20 requests the DRBG reseeds, or becomes unseeded (R480). -/
  | drbgReseed (elapsed : Nat)
  /-- After 1,024 passing samples the source recovers and the DRBG reseeds (R481). -/
  | entropyRecovery
  /-- KEY ERR_INJECT fails an unwrap, a health test or sets a counter near wrap (R489). -/
  | keyErrInject (who : Initiator) (value : Word)
  /-- DGE CMD START begins a digest job from DMA, snoop tap or word writes (R485). -/
  | dgeStart (who : Initiator) (n : DgeIx)
  /-- DGE CMD FINISH pads and writes the result in SNOOP or WORD mode (R486). -/
  | dgeFinish (who : Initiator) (n : DgeIx)
  /-- DGE CMD PAUSE stops a job at its next block boundary (R487). -/
  | dgePause (who : Initiator) (n : DgeIx)
  /-- DGE CMD RESUME checks the state window and continues the job (R487). -/
  | dgeResume (who : Initiator) (n : DgeIx)
  /-- DGE CMD ABORT returns the engine to IDLE (R487). -/
  | dgeAbort (who : Initiator) (n : DgeIx)
  /-- A write of DATA_HI in WORD mode hashes 8 bytes (R485). -/
  | dgeDataHiWrite (who : Initiator) (n : DgeIx) (value : Word)
  /-- A DMA-mode digest finishes by itself after LEN bytes (R486). -/
  | dgeDmaDone (n : DgeIx) (hostBytes : List Byte)
  /-- DGE ERR_INJECT fails self-check or corrupts SCHECK (R488). -/
  | dgeErrInject (who : Initiator) (n : DgeIx) (value : Word)
  /-- Load Program receives an image piece and, at the last, checks, measures and records it (R495). -/
  | loadProgram (cmd : Nat) (hostData : List Byte)
  /-- Program Activation Management activate binds a program to a place and grants its environment (R496). -/
  | programActivate (cmd : Nat)
  /-- Program Activation Management deactivate frees the place once the run ends (R496). -/
  | programDeactivate (cmd : Nat)
  /-- Memory Range Set Management create defines up to three ranges (R493). -/
  | memoryRangeSetCreate (cmd : Nat) (hostData : List Byte)
  /-- Memory Range Set Management delete removes a set (R493). -/
  | memoryRangeSetDelete (cmd : Nat)
  /-- Execute Program checks the parameter header and starts or defers a run (R499). -/
  | executeProgram (cmd : Nat) (hostData : List Byte)
  /-- I/O command Memory Read on a memory namespace (R491). -/
  | memoryRead (cmd : Nat)
  /-- I/O command Memory Write on a memory namespace (R491). -/
  | memoryWrite (cmd : Nat) (hostData : List Byte)
  /-- I/O command Memory Copy from NVM ranges into SLM (R491). -/
  | memoryCopy (cmd : Nat) (entries : List Byte) (flash : List (Option FlashUnit))
  /-- Program TRAP RING_POST makes crew write the ring's TAIL (R498). -/
  | ringPost (c : Clu) (k : CoreIx)
  /-- Program TRAP RING_ACK makes crew write CPL_HEAD (R498). -/
  | ringAck (c : Clu) (k : CoreIx)
  /-- Program TRAP MATCH_OP makes crew run a window OP in the program's partition (R498). -/
  | matchOp (c : Clu) (k : CoreIx)
  /-- Program TRAP TIME returns the sandglass count (R498). -/
  | time (c : Clu) (k : CoreIx)
  /-- LIMIT_MS passes and a crew item ends the run with Program Fault (R501). -/
  | runLimitExpiry (slot : BitVec 16) (elapsed : Nat)
  /-- A program run ends and its Execute Program command completes (R501). -/
  | runEnd (slot : BitVec 16)
  /-- Execute Program index 0 scans a range in segments through the caravans (R503). -/
  | scanService (cmd : Nat) (hostData : List Byte)
  /-- A bad unit fails its segment, whose stream and output are discarded (R504). -/
  | scanSegmentFail (cmd : Nat) (segment unit : Nat) (stream : Bool)
  /-- A finished segment's staged output is copied to DEST in order (R505). -/
  | scanOutputCopy (cmd : Nat) (flash : List (Option FlashUnit))
  /-- Key Value Store writes the value half and flips the bucket entry (R509). -/
  | kvStore (cmd : Nat) (hostData : List Byte)
  /-- Key Value Retrieve returns the value through the hot index, cache or flash (R509). -/
  | kvRetrieve (cmd : Nat) (flash : List (Option FlashUnit))
  /-- Key Value Delete clears the entry and trims its halves (R509). -/
  | kvDelete (cmd : Nat)
  /-- Key Value Exist looks the key up (R509). -/
  | kvExist (cmd : Nat)
  /-- Key Value List returns keys in bucket and entry order (R509). -/
  | kvList (cmd : Nat)
  /-- Secondary-index CREATE builds an index in background (R511). -/
  | indexCreate (cmd : Nat) (hostData : List Byte)
  /-- Secondary-index DROP removes an index (R511). -/
  | indexDrop (cmd : Nat) (hostData : List Byte)
  /-- Secondary-index RANGE writes records in index order (R512). -/
  | indexRange (cmd : Nat) (hostData : List Byte)
  /-- Secondary-index STATE reports an index's state (R511). -/
  | indexState (cmd : Nat) (hostData : List Byte)
  /-- From power-good the boot ROM, stage-1 and main firmware verify and start the device (R522). -/
  | bootSequence (elapsed : Nat) (nor : Option (List (List Byte))) (unreadable badSlots : List Nat)
  /-- Hourly and after updates main firmware checks and repairs each boot replica (R520). -/
  | replicaCheck (elapsed : Nat) (unreadable : List Nat)
  /-- An anti-rollback counter rises, recorded and floor bits burned (R524). -/
  | counterAdvance (elapsed : Nat)
  /-- Security Send 0x0010 installs a POLICY image, taking or transferring ownership (R526). -/
  | policyInstall (cmd : Nat) (hostData : List Byte)
  /-- Security Send 0x0011 advances counter 0 to 2 (R527). -/
  | counterAdvanceSend (cmd : Nat) (hostData : List Byte)
  /-- Security Send 0x0012 writes the board record (R527). -/
  | boardRecordWrite (cmd : Nat) (hostData : List Byte)
  /-- Security Send 0x0020 loads the span transport key in a Secured SPDM session (R554). -/
  | spanKeyInstall (cmd : Nat) (hostData : List Byte) (secured : Bool)
  /-- Security Receive 0x0001 returns the identity certificate chains (R527). -/
  | certificateChainsReceive (cmd : Nat)
  /-- Security Receive 0x0002 returns the POLICY image in force (R527). -/
  | policyReceive (cmd : Nat)
  /-- Security Receive 0x0003 returns the counter values and floors (R527). -/
  | countersReceive (cmd : Nat)
  /-- Security Receive 0x0004 returns the stored board record (R527). -/
  | boardRecordReceive (cmd : Nat)
  /-- The security processor forms, signs and durably writes the next boot record (R531). -/
  | bootRecordAppend (elapsed : Nat) (norLocked : Bool)
  /-- SN_CMD START begins the security processor's snoop digest (R534). -/
  | snStart (who : Initiator)
  /-- SN_CMD FINISH completes the snoop digest (R534). -/
  | snFinish (who : Initiator)
  /-- SN_CMD ABORT stops the snoop digest (R534). -/
  | snAbort (who : Initiator)
  /-- SCP ERR_INJECT tears an append or fails an image or ring check (R534). -/
  | scpErrInject (who : Initiator) (value : Word)
  /-- A source event adds to a coalescing entry of its tap collector, waiting when full (R538). -/
  | collectorEvent (tap : Fin 4) (kind : BitVec 4) (tenant : BitVec 16) (amount : BitVec 44)
  /-- A collector sends its oldest or overflowing entry as a tap word (R538). -/
  | tapWordSend (tap : Fin 4) (elapsed : Nat)
  /-- The meter checks a tap word's CRC and SEQ and applies it to tenant records (R538). -/
  | tapWordReceive (tap : Fin 4) (elapsed : Nat) (noise : BitVec 80)
  /-- Each meter second every used record accrues capacity-seconds (R539). -/
  | meterSecond (elapsed : Nat)
  /-- Every 1 s the meter writes its records to the other MRAM copy (R540). -/
  | meterRecordsCommit (elapsed : Nat)
  /-- At PWR_FAIL the collectors send every entry and FLUSHED, and the meter commits (R541). -/
  | tollFlush
  /-- Toll parameter command INSTALL_AUDITOR installs new auditor keys (R542). -/
  | installAuditor (pseq : BitVec 64) (args : List Byte) (oldEd oldMl newEd newMl : List Byte)
  /-- Toll parameter command PERIOD_ALIGN sets the statement minute (R542). -/
  | periodAlign (pseq : BitVec 64) (minute : Byte) (sigEd sigMl : List Byte)
  /-- Toll parameter command TENANT_CLOSE forms a FINAL statement and frees the tenant (R542). -/
  | tenantClose (pseq : BitVec 64) (tenant : BitVec 16) (sigEd sigMl : List Byte)
  /-- At each hour's PERIOD_ALIGN minute the meter forms and signs a statement (R543). -/
  | scheduledStatement (elapsed : Nat)
  /-- A REQUEST tap word of TYPE 0 to 5 queues a statement, extract or chain request (R543). -/
  | tollRequest
  /-- The meter finishes signing a statement and presents it as an item (R543). -/
  | statementFormed (elapsed : Nat)
  /-- Every 20 µs the meter presents the next chunk of the current item in the TOL mirror (R545). -/
  | tolChunkSend (elapsed : Nat)
  /-- Every 10 ms main firmware polls ITEM_HDR and collects the item's chunks (R545). -/
  | tolPoll (elapsed : Nat)
  /-- Once a second while the Timestamp is set a TIME_MARK word is sent (R537). -/
  | timeMark (elapsed : Nat)
  /-- Toll port command GET_INFO (R546). -/
  | getInfo
  /-- Toll port command GET_CERTS (R546). -/
  | getCerts
  /-- Toll port command GET_STATEMENT (R546). -/
  | getStatement (stseq : Word)
  /-- Toll port command GET_EXTRACT (R546). -/
  | getExtract (stseq : Word) (tenant : BitVec 16)
  /-- Toll port command GET_AUDIT (R546). -/
  | getAudit (first last : Word)
  /-- Toll port command PARAM carries a signed parameter command (R542). -/
  | param (op : Byte) (pseq : BitVec 64) (args : List Byte) (oldEd oldMl newEd newMl : List Byte)
  /-- Span message DATA brings a front's units to the stripe's lead (R555). -/
  | data (h : SpanHdr) (units : List (List Byte))
  /-- Span message DATA_ACK acknowledges DATA to the front (R555). -/
  | dataAck (h : SpanHdr)
  /-- Span message CHUNK carries units or parity to a holding member (R555). -/
  | chunk (h : SpanHdr) (units : List (List Byte))
  /-- Span message CHUNK_ACK reports a chunk written (R555). -/
  | chunkAck (h : SpanHdr)
  /-- Span message READ_REQ asks a member for units (R558). -/
  | readReq (h : SpanHdr) (count : BitVec 16) (flash : List (Option FlashUnit))
  /-- Span message READ_DATA returns units or UNRECOVERABLE (R558). -/
  | readData (h : SpanHdr) (units : List (List Byte)) (flash : List (Option FlashUnit))
  /-- Span message REPLICA copies an INTENT to the journal partner (R560). -/
  | replica (h : SpanHdr) (mask : BitVec 16) (rmw : Bool)
  /-- Span message REPLICA_ACK makes the INTENT durable (R560). -/
  | replicaAck (h : SpanHdr)
  /-- Span message HEARTBEAT carries a member's state and is checked against the group (R567). -/
  | heartbeat (h : SpanHdr) (beat : SpanBeat) (fetched : List Byte)
  /-- Every 10 ms a member sends its heartbeat (R561). -/
  | heartbeatSend (elapsed : Nat)
  /-- Span message SUSPECT reports an unanswered peer to the coordinator (R568). -/
  | suspect (h : SpanHdr) (m : Fin 8)
  /-- Span message PROPOSE offers a new generation for votes (R564). -/
  | propose (h : SpanHdr) (desc : List Byte)
  /-- Span message VOTE answers a proposal (R564). -/
  | vote (h : SpanHdr) (digest : List Byte)
  /-- Span message COMMIT fixes a generation and its apply time (R564). -/
  | commit (h : SpanHdr) (desc : List Byte) (time : BitVec 64)
  /-- Span message WITNESS relays the host's witness vote (R566). -/
  | witness (h : SpanHdr) (vote : Bool)
  /-- Span message GROUP_ACTION gives epoch boundaries and snapshots to members without TIME_OK (R563). -/
  | groupAction (h : SpanHdr) (act : SpanSync)
  /-- A received span message is decrypted and checked, and dropped on failure (R553). -/
  | spanMessageReceive (ring : Fin 8) (frame : List Byte) (credit : Nat) (body : SpanBody) (flash : List (Option FlashUnit)) (fetched : List Byte)
  /-- The GATHER deadline passes and the lead runs read-modify-write parity (R556). -/
  | gatherDeadline (stripe : BitVec 64) (elapsed : Nat) (flash : List (Option FlashUnit))
  /-- A proposal misses the quorum threshold within 5 ms and is abandoned (R564). -/
  | proposalTimeout (elapsed : Nat)
  /-- A peer message goes unanswered for PEER_TIMEOUT, retried, then SUSPECT sent (R568). -/
  | peerTimeout (ref : BitVec 32) (elapsed : Nat)
  /-- A member's heartbeats are missing for HB_MISS periods and it is proposed FENCED (R568). -/
  | hbMissExpiry (m : Fin 8) (elapsed : Nat)
  /-- The I3C controller role passes to the lowest in-service member holding quorum (R561). -/
  | coordinatorHandoff (elapsed : Nat)
  /-- A member journals a new nonce mark before using counters beyond the old one (R554). -/
  | nonceReserve
  /-- A lead resyncs unresynchronised or dirty span stripes (R560). -/
  | spanResync (stripe : BitVec 64) (chunks : List (BitVec 8 × Option (List (List Byte))))
  /-- Leads rebuild a returning member's dirty stripes (R569). -/
  | spanRebuild (m : Fin 8) (stripe : BitVec 64) (chunks : List (BitVec 8 × Option (List (List Byte))))
  /-- SPN ERR_INJECT skips heartbeats, withholds acks, corrupts tags or skews time (R570). -/
  | spnErrInject (who : Initiator) (value : Word)
  /-- With its holds clear, a domain drains, shadows, clamps and powers off (R575). -/
  | domainOff (d : Dom)
  /-- A domain powers on, restores its shadow and leaves reset, or fails (R576). -/
  | domainOn (d : Dom) (good retryGood : Bool)
  /-- A wake source starts an exit from PS3 or PS4 (R578). -/
  | wake (src : BitVec 4)
  /-- PMU ERR_INJECT fails a domain switch-on or shadow image (R595). -/
  | pmuErrInject (who : Initiator) (value : Word)
  /-- VIN holds above 3.1 V for 100 ms and the always-on rails start, giving power-good (R580). -/
  | powerGood (elapsed : Nat) (vin : BitVec 13) (refclk testEn : Bool)
  /-- A control engine issue slot evaluates a rail or port compensator and sets its duty (R583). -/
  | loopEvaluation (k : Fin 20) (sample : BitVec 16)
  /-- A rail overvoltage or undervoltage raises PWR_FAIL (R581). -/
  | railOvUv (rail : Fin 14) (above : Bool) (vmin : BitVec 13) (micros : Nat)
  /-- A misbehaving regulator phase is retired and the rail re-spread (R581). -/
  | phaseRetire (phase : Fin 40) (trips : Fin 16)
  /-- An external port not good for 100 µs retires channels or browns out the device (R587). -/
  | extPortFault (port : Fin 6)
  /-- A sensor at 115 °C in two samples raises PWR_FAIL (R588). -/
  | thermalTrip (micros : Nat)
  /-- At 10 kHz the junction sensors are sampled into TEMP_MAX (R588). -/
  | thermalSample (elapsed : Nat) (temps : List Int)
  /-- Every 100 µs the thermal and cap throttle levels are updated (R589). -/
  | throttleUpdate (elapsed vinPower : Nat) (ports : List (Nat × Nat))
  /-- A cluster changes clock via its second PLL and rail slew (R591). -/
  | dvfsChange (c : Clu) (elapsed : Nat)
  /-- A write to TOKEN_CEIL sets the clamped token ceiling (R593). -/
  | tokenCeilWrite (who : Initiator) (value : Word)
  /-- CLE ERR_INJECT retires a phase, heats a sensor, faults a port or drops N (R597). -/
  | cleErrInject (who : Initiator) (value : Word)
  /-- VIN above 5.8 V in two samples raises PWR_FAIL (R631). -/
  | vinOvervoltage (vin : BitVec 13) (micros : Nat)
  /-- A unit classified permanent is fenced, its work moved and service resumed within 40 µs (R602). -/
  | unitRetirement (page : BitVec 12) (unit : BitVec 16)
  /-- A permanent fault in a non-retirable block stops fetch and sets CFS (R601). -/
  | fatalFault (page cause : BitVec 12) (unit : BitVec 16)
  /-- The fault manager writes the next queued log entry or COUNT update to MRAM (R606). -/
  | faultLogWrite (elapsed : Nat)
  /-- A write to FLT.IRESET requests reset of an island (R611). -/
  | ireset (who : Initiator) (value : Word)
  /-- An island holds its crossings, moves work, resets and retrains (R610). -/
  | islandReset (island : BitVec 8)
  /-- An island passes retraining and is re-admitted, or is retired (R611). -/
  | islandReadmit (island : BitVec 8) (passed : Bool) (elapsed : Nat)
  /-- A write to FLT.LOG_WRITE appends a FIRMWARE entry (R614). -/
  | logWrite (who : Initiator) (value : Word)
  /-- FLT ERR_INJECT corrupts a log entry or fills the queue (R614). -/
  | fltErrInject (who : Initiator) (value : Word)
  /-- Firmware Commit 011b activates MAIN without reset through cluster handover (R612). -/
  | liveActivation (elapsed : Nat)
  /-- A cluster handover lasts longer than HANDOVER_MAX (R612). -/
  | handoverSlow (elapsed : Nat)
  /-- VIN rising from below 2.7 V resets everything and starts power-on (R608). -/
  | powerOnReset (vin : BitVec 13) (portMode mgmtMode : Bool)
  /-- VIN below 2.7 V takes the brownout reset scope at once (R266). -/
  | brownout (vin : BitVec 13)
  /-- PERST# assertion starts a reset ferry and reboot, or retrains one port in x8 + x8 (R623). -/
  | perst (port : Port) (micros : Nat)
  /-- An NVM Subsystem Reset write starts a reset ferry and restart (R608). -/
  | nssr (ctl : CtlId) (micros : Nat)
  /-- CC.EN going 1 to 0 resets one controller (R608). -/
  | controllerReset (ctl : CtlId)
  /-- A function-level reset resets a function's controller and configuration (R608). -/
  | flr (ctl : CtlId)
  /-- CLKREQ_A_n deasserted in L1.2 switches the sandglass to its internal oscillator (R624). -/
  | clkreqL12 (deasserted : Bool)
  /-- HFA/HFB ERR_INJECT injects a bad LCRC, poisoned TLP, timeout or IDE failure (R110). -/
  | hfaErrInject (who : Initiator) (p : Port) (value : Word)
  /-- A write to MARGIN_CTRL requests lane margining (R110). -/
  | marginCtrlWrite (who : Initiator) (p : Port) (value : Word)
  /-- NQE ERR_INJECT corrupts a fetched entry or drops a doorbell (R118). -/
  | nqeErrInject (who : Initiator) (value : Word)
  /-- FCH ERR_INJECT injects decode, timeout, training, status or self-check faults (R160). -/
  | fchErrInject (who : Initiator) (c : Chan) (value : Word)
  /-- LDS ERR_INJECT fails a soft job or a decoder self-check (R174). -/
  | ldsErrInject (who : Initiator) (value : Word)
  /-- The host sets CC.EN to 1 and the controller reports CSTS.RDY once I/O-ready holds (R286). -/
  | controllerEnable (ctl : CtlId) (ams : Fin 2) (asq acq : BitVec 13)
  /-- A PCIe configuration read or write, such as NumVFs, reaches a function and is served or answered with Configuration Request Retry Status (R634). -/
  | configurationRequest (p : Port) (r : ConfigReq)
  /-- PERST# deasserts and the boot restarts from R522 step 1 after a PERST scope (R608). -/
  | perstDeassert (port : Port) (elapsed : Nat)
  /-- A PCIe transaction issued by a host port gets no completion within CPL_TIMEOUT, setting CPL_TIMEOUT and counting in the bucket (R110). -/
  | completionTimeout (p : Port)
  /-- A replay timeout, correctable receiver error or IDE integrity failure on a port is counted in the bucket and may end a partition's commands (R110). -/
  | linkError (p : Port) (e : LinkErr)
  /-- In x8 + x8 mode a port whose link stays down for 1 s after retraining is retired (R600). -/
  | linkDownExpiry (p : Port) (elapsed : Nat)
  /-- The background build of a secondary index reads its last bucket and the index leaves INDEX_BUILDING (R512). -/
  | indexBuildDone (index : Fin 8) (found : List (List Byte × List Byte))
  /-- A Toll Statement Request whose meter has not answered within 2 s ends with Meter Unavailable (R133). -/
  | tollStatementTimeout (cmd : Nat) (elapsed : Nat)
  /-- The APST idle time of the current power state runs out and entry to a non-operational state begins (R140). -/
  | apstTransition (elapsed : Nat)
  deriving DecidableEq, Repr

end Sys2Proof
end

