-- ==== Sys2Proof/Config.lean ====
section
/-! DEFINITION. What the spec leaves open or takes from other standards: constants with no body, so that no proof can see their values. Each is named in the assumption log. -/

namespace Sys2Proof.Config

/-- Byte `i` of the `n`-th free value: random output, an undefined result, an unstated one. -/
opaque freeByte : Nat → Nat → Byte

/-- The `n`-th free word. -/
opaque freeWord : Nat → Word

/-- A digest's starting state, 200 bytes of R484 (FIPS 180-4, FIPS 202). -/
opaque digestInit : Nat → List Byte

/-- A digest's state after one block (FIPS 180-4, FIPS 202). -/
opaque digestAbsorb : Nat → List Byte → List Byte → List Byte

/-- A digest's result from its state, the bytes absorbed and the rest of the message: algorithm, state, count, tail, result bytes. -/
opaque digestFinish : Nat → List Byte → Nat → List Byte → Nat → List Byte

/-- An HMAC over a message: algorithm, key, message (FIPS 198-1). -/
opaque hmac : Nat → List Byte → List Byte → List Byte

/-- XTS-AES-256 on one data unit: encrypt or decrypt, key, data unit number, bytes (IEEE 1619). -/
opaque xtsUnit : Bool → List Byte → Nat → List Byte → List Byte

/-- Byte `i` of the AES-256-GCM keystream: key, nonce (SP 800-38D). -/
opaque gcmKeystream : List Byte → List Byte → Nat → Byte

/-- AES-256-GCM tag over ciphertext: key, nonce, ciphertext. -/
opaque gcmTag : List Byte → List Byte → List Byte → List Byte

/-- AES-128-CMAC (SP 800-38B): key, message. -/
opaque cmac : List Byte → List Byte → List Byte

/-- A slot record wrapped by AES key wrap (RFC 3394): wrapping key, record. -/
opaque keyWrap : Nat → List Byte → List Byte

/-- Does a signature verify: scheme, public key, message, signature (Ed25519, ML-DSA, ECDSA, LMS as a chapter names them). -/
opaque verify : Nat → List Byte → List Byte → List Byte → Bool

/-- A signature: scheme, key, message. -/
opaque sign : Nat → Nat → List Byte → List Byte

/-- A public key of the boot ROM: key generation, scheme 0 Ed25519 or 1 ML-DSA-65 (R513). -/
opaque romKey : Nat → Nat → List Byte

/-- The digest of the boot ROM, fixed in it (R533). -/
opaque romDigest : List Byte

/-- The identity certificate chains: 0 Ed25519, 1 ML-DSA-65 (R514). -/
opaque idChain : Nat → List Byte

/-- Seed of the toll meter's two keys, its certificate chains, and the certified version of its ROM (R536). -/
opaque tollSeed : Nat

/-- The toll meter's certificate chains: 0 Ed25519, 1 ML-DSA-65 (R536). -/
opaque tollChain : Nat → List Byte

/-- The certified version of the toll meter's ROM (R536). -/
opaque tollVersion : BitVec 64

/-- CAUSE of a fault whose block-specific code the spec does not give, by the kind of event (R52). -/
opaque blockCause : Nat → Nat

/-- A byte of the boot ROM, whose image the spec does not give (R36). -/
opaque bootRom : Nat → Byte

/-- The distance a search at levels 1 to 9 tries at a position: level, history newest first, input (R426, R428). -/
opaque matchChoice : Nat → List Byte → List Byte → Nat

end Sys2Proof.Config
end

