-- ==== Sys2Proof/Machine/Bits.lean ====
section
/-! DEFINITION. Bit fields, byte order and sorted tables: the helpers every other file uses. A bit range `[m:n]` includes both ends and bit 0 is least significant; multi-byte fields are little-endian (R6). -/

namespace Sys2Proof.Machine

/-- The field `[hi:lo]` of a word as a number (R6). -/
def fld (w : Word) (hi lo : Nat) : Nat := (w.toNat >>> lo) % 2 ^ (hi + 1 - lo)

/-- Bit `i` of a word (R6). -/
def bit (w : Word) (i : Nat) : Bool := w.getLsbD i

/-- `w` with the field `[hi:lo]` replaced by the low bits of `v` (R6). -/
def setFld (w : Word) (hi lo v : Nat) : Word :=
  let m : Word := BitVec.ofNat 32 ((2 ^ (hi + 1 - lo) - 1) <<< lo)
  (w &&& ~~~m) ||| (BitVec.ofNat 32 ((v % 2 ^ (hi + 1 - lo)) <<< lo))

/-- `w` with bit `i` set to `b` (R6). -/
def setBit (w : Word) (i : Nat) (b : Bool) : Word := setFld w i i (if b then 1 else 0)

/-- The word with only bit `i` set. -/
def oneBit (i : Nat) : Word := BitVec.ofNat 32 (2 ^ i)

/-- A number as a 32-bit word, modulo 2^32. -/
def w32 (n : Nat) : Word := BitVec.ofNat 32 n

/-- A 64-bit quantity from its low and high registers (R53). -/
def join64 (hi lo : Word) : Count := hi ++ lo

/-- Bits [31:0] of a count. -/
def lo32 (c : Count) : Word := c.setWidth 32

/-- Bits [63:32] of a count. -/
def hi32 (c : Count) : Word := (c >>> 32).setWidth 32

/-- A counter that saturates at `top`. -/
def satAdd (top a b : Nat) : Nat := min top (a + b)

/-- The low `n` bytes of a number, least significant first (R6). -/
def bytesLE : Nat → Nat → List Byte
  | 0, _ => []
  | n + 1, v => BitVec.ofNat 8 v :: bytesLE n (v / 256)

/-- The number that bytes spell, least significant first (R6). -/
def ofBytesLE : List Byte → Nat
  | [] => 0
  | b :: bs => b.toNat + 256 * ofBytesLE bs

/-- Number of one bits of the low `n` bits. -/
def popCount : Nat → Nat → Nat
  | 0, _ => 0
  | n + 1, v => v % 2 + popCount n (v / 2)

/-- The indices below `n` whose bit of `v` is one, ascending. -/
def bitList (n v : Nat) : List Nat := (List.range n).filter fun i => v.testBit i

/-- Ceiling division. -/
def cdiv (a b : Nat) : Nat := (a + b - 1) / b

/-- Signed value of the low `n` bits of a number. -/
def sgn (n v : Nat) : Int :=
  let x := v % 2 ^ n
  if x < 2 ^ (n - 1) then (x : Int) else (x : Int) - (2 ^ n : Nat)

/-- An integer as a two's complement field of `n` bits. -/
def toField (n : Nat) (v : Int) : Nat := (v % ((2 ^ n : Nat) : Int)).toNat

/-- An integer clamped to a range. -/
def clampInt (lo hi v : Int) : Int := max lo (min hi v)

/-- One step of the CRC-32C register per bit, reflected. -/
def crcBits : Nat → Nat → Nat
  | 0, c => c
  | n + 1, c => crcBits n (if c % 2 = 1 then (c / 2) ^^^ 0x82F63B78 else c / 2)

/-- CRC-32C (Castagnoli) over bytes: reflected polynomial, all-ones start and final inversion. -/
def crc32c (bs : List Byte) : Nat :=
  (bs.foldl (fun c b => crcBits 8 (c ^^^ b.toNat)) 0xFFFFFFFF) ^^^ 0xFFFFFFFF

/-! ### Sorted tables: lists of (key, value) with strictly rising keys -/

/-- A sparse table: keys strictly rising. -/
abbrev Tab (α : Type) := List (Nat × α)

namespace Tab

/-- The value at a key, if listed. -/
def get? {α : Type} : Tab α → Nat → Option α
  | [], _ => none
  | (k', v) :: t, k => if k' = k then some v else get? t k

/-- The value at a key, or a default. -/
def getD {α : Type} (t : Tab α) (k : Nat) (d : α) : α := (get? t k).getD d

/-- Replace the value of a key that is listed. -/
def replace {α : Type} : Tab α → Nat → α → Tab α
  | [], _, _ => []
  | (k', v') :: t, k, v => if k' = k then (k, v) :: t else (k', v') :: replace t k v

/-- Insert a key that is not listed, keeping the keys rising. -/
def insert {α : Type} : Tab α → Nat → α → Tab α
  | [], k, v => [(k, v)]
  | (k', v') :: t, k, v => if k < k' then (k, v) :: (k', v') :: t else (k', v') :: insert t k v

/-- Set the value at a key, keeping the keys rising. -/
def put {α : Type} (t : Tab α) (k : Nat) (v : α) : Tab α := if (get? t k).isSome then replace t k v else insert t k v

/-- Remove a key. -/
def del {α : Type} (t : Tab α) (k : Nat) : Tab α := t.filter fun e => e.1 != k

/-- Set the value at a key in the canonical form in which `d` is what an unlisted key reads as. -/
def putD {α : Type} [DecidableEq α] (t : Tab α) (k : Nat) (v d : α) : Tab α :=
  if v = d then del t k else put t k v

/-- Drop every key in `[lo, hi)`. -/
def dropRange {α : Type} (t : Tab α) (lo hi : Nat) : Tab α :=
  t.filter fun e => !(decide (lo ≤ e.1) && decide (e.1 < hi))

/-- Keys strictly rise, all above `k`. -/
def sortedFrom {α : Type} : Nat → Tab α → Bool
  | _, [] => true
  | k, (k', _) :: t => decide (k ≤ k') && sortedFrom (k' + 1) t

/-- The canonical form: keys strictly rising. -/
def sorted {α : Type} (t : Tab α) : Bool := sortedFrom 0 t

/-- Update the value at a key, from a default when it is not listed. -/
def modify {α : Type} (t : Tab α) (k : Nat) (d : α) (f : α → α) : Tab α := put t k (f (getD t k d))

end Tab

/-- Insert into a list ordered by `le`, after its equals. -/
def insertBy {α : Type} (le : α → α → Bool) (a : α) : List α → List α
  | [] => [a]
  | b :: bs => if le b a then b :: insertBy le a bs else a :: b :: bs

/-- Stable sort by `le`. -/
def sortBy {α : Type} (le : α → α → Bool) (l : List α) : List α := l.foldl (fun acc a => insertBy le a acc) []

/-- The element with the least key, the earliest of equals. -/
def minBy? {α : Type} (key : α → Nat) : List α → Option α
  | [] => none
  | a :: as => match minBy? key as with
    | none => some a
    | some b => if key b < key a then some b else some a

/-- Remove the first element that satisfies `p`. -/
def removeFirst {α : Type} (p : α → Bool) : List α → List α
  | [] => []
  | a :: as => if p a then as else a :: removeFirst p as

/-! ### Byte memories -/

/-- A byte memory in canonical form: addresses strictly rising and no entry equal to 0, which is what an unlisted address reads as (see the assumption log: the spec gives no contents at power-on). -/
abbrev Mem := List Host.Cell

namespace Mem

/-- One byte. -/
def read (m : Mem) (a : Nat) : Byte := Tab.getD m a 0

/-- Write one byte, keeping the canonical form. -/
def write (m : Mem) (a : Nat) (b : Byte) : Mem := Tab.putD m a b 0

/-- `n` bytes from `a` up. -/
def readN (m : Mem) : Nat → Nat → List Byte
  | _, 0 => []
  | a, n + 1 => read m a :: readN m (a + 1) n

/-- Write bytes from `a` up. -/
def writeN (m : Mem) : Nat → List Byte → Mem
  | _, [] => m
  | a, b :: bs => writeN (write m a b) (a + 1) bs

/-- A little-endian number of `n` bytes at `a` (R6). -/
def readNat (m : Mem) (a n : Nat) : Nat := ofBytesLE (readN m a n)

/-- Write a little-endian number of `n` bytes at `a` (R6). -/
def writeNat (m : Mem) (a n v : Nat) : Mem := writeN m a (bytesLE n v)

/-- Zero `n` bytes from `a` up. -/
def clear (m : Mem) (a n : Nat) : Mem := Tab.dropRange m a (a + n)

/-- A memory brought to its canonical form; one that has it stays as it is. -/
def canon (m : Mem) : Mem := m.foldr (fun e t => Tab.putD t e.1 e.2 0) []

/-- The canonical form: addresses strictly rising and no entry equal to 0. -/
def wf (m : Mem) : Bool := Tab.sorted m && m.all fun e => e.2 != 0

end Mem

end Sys2Proof.Machine
end

