-- ==== Sys2Proof/Machine/RegTable.lean ====
section
/-! DEFINITION. The register tables: one row per register or register array of every page, with its offset, access code, apply class, defined bits and reset value, from the page tables of R48, R86, R89, R110, R118, R160, R161, R174, R227, R261, R267, R310, R336, R337, R338, R370, R389, R420, R421, R463, R488, R489, R534, R545, R570, R595, R597, R598 and R614. -/

namespace Sys2Proof.Machine

/-- Access codes of R8; `rw0` is "RW on DMC0, a read-only copy elsewhere" (R310). -/
inductive Acc where
  | rw | ro | wo | w1c | rc | rw0
  deriving DecidableEq, Repr

/-- Apply classes of R10; `none` for a register no write reaches. -/
inductive Cls where
  | live | staged | none
  deriving DecidableEq, Repr

/-- One register, or an array of `count` registers `stride` bytes apart. `kept` marks a reset value taken from MRAM, fuses, headers, the meter or ROM, which no reset scope clears (R608). -/
structure RegRow where
  off : Nat
  count : Nat
  stride : Nat
  acc : Acc
  cls : Cls
  mask : Word
  reset : Word
  kept : Bool
  deriving DecidableEq, Repr

/-- Does the row hold the offset? -/
def RegRow.covers (r : RegRow) (off : Nat) : Bool :=
  decide (r.off ≤ off) && decide (off < r.off + r.count * r.stride) && decide ((off - r.off) % r.stride = 0)

/-- `SGL.TIME_LO`. -/
def SGL_TIME_LO : Nat := 0x100
/-- `SGL.TIME_HI`. -/
def SGL_TIME_HI : Nat := 0x104
/-- `SGL.DISC_CTRL`. -/
def SGL_DISC_CTRL : Nat := 0x108
/-- `SGL.DISC_STATUS`. -/
def SGL_DISC_STATUS : Nat := 0x10C
/-- `SGL.OFFSET`. -/
def SGL_OFFSET : Nat := 0x110
/-- `SGL.SNAP_FIRE`. -/
def SGL_SNAP_FIRE : Nat := 0x114
/-- `SGL.SNAP_SEQ_CUR`. -/
def SGL_SNAP_SEQ_CUR : Nat := 0x118
/-- `SGL.SNAP_TAG`. -/
def SGL_SNAP_TAG : Nat := 0x11C
/-- `SGL.SNAP_T_LO`. -/
def SGL_SNAP_T_LO : Nat := 0x120
/-- `SGL.SNAP_T_HI`. -/
def SGL_SNAP_T_HI : Nat := 0x124
/-- `SGL.SLEW_LIMIT`. -/
def SGL_SLEW_LIMIT : Nat := 0x800
/-- `SGL.STEP_THRESH`. -/
def SGL_STEP_THRESH : Nat := 0x804
/-- `SGL.PTM_PERIOD`. -/
def SGL_PTM_PERIOD : Nat := 0x808
/-- `SGL.SYNC_COMP`. -/
def SGL_SYNC_COMP : Nat := 0x80C
/-- `SGL.TIME_SET_LO`. -/
def SGL_TIME_SET_LO : Nat := 0x810
/-- `SGL.TIME_SET_HI`. -/
def SGL_TIME_SET_HI : Nat := 0x814
/-- `SGL.TIME_SET_EN`. -/
def SGL_TIME_SET_EN : Nat := 0x818
/-- `SGL.SNAP_OFFSET`. -/
def SGL_SNAP_OFFSET : Nat := 0xF10
/-- `SGL.SNAP_DISC`. -/
def SGL_SNAP_DISC : Nat := 0xF14

/-- `LCH.ENTRY_SEL`. -/
def LCH_ENTRY_SEL : Nat := 0x100
/-- `LCH.ENTRY_TIME_LO`. -/
def LCH_ENTRY_TIME_LO : Nat := 0x104
/-- `LCH.ENTRY_TIME_HI`. -/
def LCH_ENTRY_TIME_HI : Nat := 0x108
/-- `LCH.ENTRY_CTRL`. -/
def LCH_ENTRY_CTRL : Nat := 0x10C
/-- `LCH.ENTRY_ARG`. -/
def LCH_ENTRY_ARG : Nat := 0x110
/-- `LCH.ENTRY_OP`. -/
def LCH_ENTRY_OP : Nat := 0x114
/-- `LCH.ENTRY_STATE`. -/
def LCH_ENTRY_STATE : Nat := 0x118
/-- `LCH.ARMED_COUNT`. -/
def LCH_ARMED_COUNT : Nat := 0x11C
/-- `LCH.NEXT_LO`. -/
def LCH_NEXT_LO : Nat := 0x120
/-- `LCH.NEXT_HI`. -/
def LCH_NEXT_HI : Nat := 0x124
/-- `LCH.FIRED_COUNT`. -/
def LCH_FIRED_COUNT : Nat := 0x128
/-- `LCH.TIE_COUNT`. -/
def LCH_TIE_COUNT : Nat := 0x12C
/-- `LCH.USER_PRIO`. -/
def LCH_USER_PRIO : Nat := 0x130
/-- `LCH.HOST_FIRST`. -/
def LCH_HOST_FIRST : Nat := 0x134

/-- `HF.LINK_STATUS`. -/
def HF_LINK_STATUS : Nat := 0x100
/-- `HF.LINK_CTRL`. -/
def HF_LINK_CTRL : Nat := 0x104
/-- `HF.PTM_STATUS`. -/
def HF_PTM_STATUS : Nat := 0x108
/-- `HF.IDE_STATUS`. -/
def HF_IDE_STATUS : Nat := 0x10C
/-- `HF.FN_STATUS`. -/
def HF_FN_STATUS : Nat := 0x110
/-- `HF.CPL_TIMEOUT`. -/
def HF_CPL_TIMEOUT : Nat := 0x114
/-- `HF.AER_SUMMARY`. -/
def HF_AER_SUMMARY : Nat := 0x118
/-- `HF.OBW_BASE`, first of 32 registers 16 bytes apart. -/
def HF_OBW_BASE : Nat := 0x200
/-- `HF.OBW_CTRL`, first of 32 registers 16 bytes apart. -/
def HF_OBW_CTRL : Nat := 0x204
/-- `HF.OBW_PCI_LO`, first of 32 registers 16 bytes apart. -/
def HF_OBW_PCI_LO : Nat := 0x208
/-- `HF.OBW_PCI_HI`, first of 32 registers 16 bytes apart. -/
def HF_OBW_PCI_HI : Nat := 0x20C
/-- `HF.EQ_PRESET`. -/
def HF_EQ_PRESET : Nat := 0x800
/-- `HF.MARGIN_CTRL`. -/
def HF_MARGIN_CTRL : Nat := 0x804
/-- `HF.ERR_INJECT`. -/
def HF_ERR_INJECT : Nat := 0x808
/-- `HF.SNAP_LINK`. -/
def HF_SNAP_LINK : Nat := 0xF10
/-- `HF.SNAP_TLP`. -/
def HF_SNAP_TLP : Nat := 0xF14

/-- `NQE.TENANCY`. -/
def NQE_TENANCY : Nat := 0x100
/-- `NQE.QP_FREE`. -/
def NQE_QP_FREE : Nat := 0x104
/-- `NQE.VEC_FREE`. -/
def NQE_VEC_FREE : Nat := 0x108
/-- `NQE.WB_HELD`. -/
def NQE_WB_HELD : Nat := 0x10C
/-- `NQE.FLUSH_DRAIN`. -/
def NQE_FLUSH_DRAIN : Nat := 0x110
/-- `NQE.PS_STATUS`. -/
def NQE_PS_STATUS : Nat := 0x114
/-- `NQE.CMD_COUNT`. -/
def NQE_CMD_COUNT : Nat := 0x118
/-- `NQE.FN_SHARE`, first of 32 registers 4 bytes apart. -/
def NQE_FN_SHARE : Nat := 0x200
/-- `NQE.FETCH_BURST`. -/
def NQE_FETCH_BURST : Nat := 0x800
/-- `NQE.ERR_INJECT`. -/
def NQE_ERR_INJECT : Nat := 0x804
/-- `NQE.SNAP_OUTSTANDING`. -/
def NQE_SNAP_OUTSTANDING : Nat := 0xF10
/-- `NQE.SNAP_HELD`. -/
def NQE_SNAP_HELD : Nat := 0xF14

/-- `FCH.IF_CFG`. -/
def FCH_IF_CFG : Nat := 0x100
/-- `FCH.IF_STATUS`. -/
def FCH_IF_STATUS : Nat := 0x104
/-- `FCH.DIE_PRESENT`. -/
def FCH_DIE_PRESENT : Nat := 0x108
/-- `FCH.DIE_ENABLE`. -/
def FCH_DIE_ENABLE : Nat := 0x10C
/-- `FCH.DIE_RETIRED`. -/
def FCH_DIE_RETIRED : Nat := 0x110
/-- `FCH.DIE_TYPE`. -/
def FCH_DIE_TYPE : Nat := 0x114
/-- `FCH.SCHED_CTRL`. -/
def FCH_SCHED_CTRL : Nat := 0x118
/-- `FCH.SCHED_MIN_RUN`. -/
def FCH_SCHED_MIN_RUN : Nat := 0x11C
/-- `FCH.READ_AGE`. -/
def FCH_READ_AGE : Nat := 0x120
/-- `FCH.QUEUE_STATUS`. -/
def FCH_QUEUE_STATUS : Nat := 0x124
/-- `FCH.BUSY_MASK`. -/
def FCH_BUSY_MASK : Nat := 0x128
/-- `FCH.LADDER_HARD`. -/
def FCH_LADDER_HARD : Nat := 0x12C
/-- `FCH.LADDER_RETRY`. -/
def FCH_LADDER_RETRY : Nat := 0x130
/-- `FCH.LADDER_SOFT`. -/
def FCH_LADDER_SOFT : Nat := 0x134
/-- `FCH.LADDER_RECON`. -/
def FCH_LADDER_RECON : Nat := 0x138
/-- `FCH.RETIRE_REQ`. -/
def FCH_RETIRE_REQ : Nat := 0x13C
/-- `FCH.DIE_EVT`, first of 16 registers 4 bytes apart. -/
def FCH_DIE_EVT : Nat := 0x140
/-- `FCH.DT_ID0`, first of 4 registers 32 bytes apart. -/
def FCH_DT_ID0 : Nat := 0x200
/-- `FCH.DT_ID1`, first of 4 registers 32 bytes apart. -/
def FCH_DT_ID1 : Nat := 0x204
/-- `FCH.DT_GEOM`, first of 4 registers 32 bytes apart. -/
def FCH_DT_GEOM : Nat := 0x208
/-- `FCH.DT_CODE`, first of 4 registers 32 bytes apart. -/
def FCH_DT_CODE : Nat := 0x20C
/-- `FCH.DT_TR`, first of 4 registers 32 bytes apart. -/
def FCH_DT_TR : Nat := 0x210
/-- `FCH.DT_TPROG`, first of 4 registers 32 bytes apart. -/
def FCH_DT_TPROG : Nat := 0x214
/-- `FCH.DT_TBERS`, first of 4 registers 32 bytes apart. -/
def FCH_DT_TBERS : Nat := 0x218
/-- `FCH.DT_TRST`, first of 4 registers 32 bytes apart. -/
def FCH_DT_TRST : Nat := 0x21C
/-- `FCH.RETRY_CTRL`. -/
def FCH_RETRY_CTRL : Nat := 0x800
/-- `FCH.LADDER_CTRL`. -/
def FCH_LADDER_CTRL : Nat := 0x804
/-- `FCH.SOFT_DELTA`. -/
def FCH_SOFT_DELTA : Nat := 0x808
/-- `FCH.RETRY_FEAT`. -/
def FCH_RETRY_FEAT : Nat := 0x80C
/-- `FCH.TRAIN_CTRL`. -/
def FCH_TRAIN_CTRL : Nat := 0x810
/-- `FCH.ERR_INJECT`. -/
def FCH_ERR_INJECT : Nat := 0x814
/-- `FCH.DIE_EFAIL_MAX`. -/
def FCH_DIE_EFAIL_MAX : Nat := 0x818
/-- `FCH.RETRY_SET`, first of 128 registers 4 bytes apart. -/
def FCH_RETRY_SET : Nat := 0x900
/-- `FCH.SNAP_QUEUE`. -/
def FCH_SNAP_QUEUE : Nat := 0xF10
/-- `FCH.SNAP_BUSY`. -/
def FCH_SNAP_BUSY : Nat := 0xF14
/-- `FCH.SNAP_LADDER`. -/
def FCH_SNAP_LADDER : Nat := 0xF18

/-- `LDS.DEC_ENABLE`. -/
def LDS_DEC_ENABLE : Nat := 0x100
/-- `LDS.DEC_RETIRED`. -/
def LDS_DEC_RETIRED : Nat := 0x104
/-- `LDS.DEC_BUSY`. -/
def LDS_DEC_BUSY : Nat := 0x108
/-- `LDS.QUEUE_DEPTH`. -/
def LDS_QUEUE_DEPTH : Nat := 0x10C
/-- `LDS.SOFT_OK`. -/
def LDS_SOFT_OK : Nat := 0x110
/-- `LDS.SOFT_FAIL`. -/
def LDS_SOFT_FAIL : Nat := 0x114
/-- `LDS.HARD_MODE_JOBS`. -/
def LDS_HARD_MODE_JOBS : Nat := 0x118
/-- `LDS.TIE_COUNT`. -/
def LDS_TIE_COUNT : Nat := 0x11C
/-- `LDS.SOFT_ITER_MAX`. -/
def LDS_SOFT_ITER_MAX : Nat := 0x800
/-- `LDS.SELF_CHECK`. -/
def LDS_SELF_CHECK : Nat := 0x804
/-- `LDS.ERR_INJECT`. -/
def LDS_ERR_INJECT : Nat := 0x808
/-- `LDS.SNAP_QUEUE`. -/
def LDS_SNAP_QUEUE : Nat := 0xF10
/-- `LDS.SNAP_BUSY`. -/
def LDS_SNAP_BUSY : Nat := 0xF14

/-- `MAP.MAP_CFG`. -/
def MAP_MAP_CFG : Nat := 0x100
/-- `MAP.CACHE_SIZE`. -/
def MAP_CACHE_SIZE : Nat := 0x104
/-- `MAP.WB_SIZE`. -/
def MAP_WB_SIZE : Nat := 0x108
/-- `MAP.OP_SHARE`. -/
def MAP_OP_SHARE : Nat := 0x10C
/-- `MAP.SPARE_SHARE`. -/
def MAP_SPARE_SHARE : Nat := 0x110
/-- `MAP.RESERVE_EXTRA`. -/
def MAP_RESERVE_EXTRA : Nat := 0x114
/-- `MAP.MIGRATE_START`. -/
def MAP_MIGRATE_START : Nat := 0x118
/-- `MAP.FILL`. -/
def MAP_FILL : Nat := 0x11C
/-- `MAP.OASIS_BLOCKS`. -/
def MAP_OASIS_BLOCKS : Nat := 0x120
/-- `MAP.FLOOR_BLOCKS`. -/
def MAP_FLOOR_BLOCKS : Nat := 0x124
/-- `MAP.FREE_BLOCKS`. -/
def MAP_FREE_BLOCKS : Nat := 0x128
/-- `MAP.RESERVE_BLOCKS`. -/
def MAP_RESERVE_BLOCKS : Nat := 0x12C
/-- `MAP.SPARE_LEFT`. -/
def MAP_SPARE_LEFT : Nat := 0x130
/-- `MAP.SPARE_INITIAL`. -/
def MAP_SPARE_INITIAL : Nat := 0x134
/-- `MAP.MEDIA_STATE`. -/
def MAP_MEDIA_STATE : Nat := 0x138
/-- `MAP.JSEQ_ISSUED`. -/
def MAP_JSEQ_ISSUED : Nat := 0x13C
/-- `MAP.JSEQ_DURABLE`. -/
def MAP_JSEQ_DURABLE : Nat := 0x140
/-- `MAP.JSEQ_TAIL`. -/
def MAP_JSEQ_TAIL : Nat := 0x144
/-- `MAP.HMW_STATUS`. -/
def MAP_HMW_STATUS : Nat := 0x148
/-- `MAP.HMW_CHECK_FAIL`. -/
def MAP_HMW_CHECK_FAIL : Nat := 0x14C
/-- `MAP.BST_SEL`. -/
def MAP_BST_SEL : Nat := 0x150
/-- `MAP.BST_W0`, first of 4 registers 4 bytes apart. -/
def MAP_BST_W0 : Nat := 0x154
/-- `MAP.GC_COUNT`. -/
def MAP_GC_COUNT : Nat := 0x164
/-- `MAP.REDIRECT_DROP`. -/
def MAP_REDIRECT_DROP : Nat := 0x168
/-- `MAP.ERASE_REFUSED`. -/
def MAP_ERASE_REFUSED : Nat := 0x16C
/-- `MAP.WL_DELTA`. -/
def MAP_WL_DELTA : Nat := 0x800
/-- `MAP.RETIRE_PE_1`. -/
def MAP_RETIRE_PE_1 : Nat := 0x804
/-- `MAP.RETIRE_PE_2`. -/
def MAP_RETIRE_PE_2 : Nat := 0x808
/-- `MAP.RETIRE_PE_3`. -/
def MAP_RETIRE_PE_3 : Nat := 0x80C
/-- `MAP.RETIRE_PE_4`. -/
def MAP_RETIRE_PE_4 : Nat := 0x810
/-- `MAP.RELOC_RETRY`. -/
def MAP_RELOC_RETRY : Nat := 0x814
/-- `MAP.JOURNAL_HIGH`. -/
def MAP_JOURNAL_HIGH : Nat := 0x818
/-- `MAP.ERR_INJECT`. -/
def MAP_ERR_INJECT : Nat := 0x81C
/-- `MAP.SNAP_FILL`. -/
def MAP_SNAP_FILL : Nat := 0xF10
/-- `MAP.SNAP_FREE`. -/
def MAP_SNAP_FREE : Nat := 0xF14
/-- `MAP.SNAP_JSEQ`. -/
def MAP_SNAP_JSEQ : Nat := 0xF18
/-- `MAP.SNAP_MEDIA`. -/
def MAP_SNAP_MEDIA : Nat := 0xF1C

/-- `STR.LAYOUT`. -/
def STR_LAYOUT : Nat := 0x100
/-- `STR.SHARE`. -/
def STR_SHARE : Nat := 0x104
/-- `STR.CLOSE_AGE`. -/
def STR_CLOSE_AGE : Nat := 0x108
/-- `STR.OPEN_MAX`. -/
def STR_OPEN_MAX : Nat := 0x10C
/-- `STR.SPARE_RSV`. -/
def STR_SPARE_RSV : Nat := 0x110
/-- `STR.REQUEST`. -/
def STR_REQUEST : Nat := 0x114
/-- `STR.STATE`. -/
def STR_STATE : Nat := 0x118
/-- `STR.RESYNC_LEFT`. -/
def STR_RESYNC_LEFT : Nat := 0x11C
/-- `STR.SETS_OPEN`. -/
def STR_SETS_OPEN : Nat := 0x120
/-- `STR.STRIPES_OPEN`. -/
def STR_STRIPES_OPEN : Nat := 0x124
/-- `STR.RECON_COUNT`. -/
def STR_RECON_COUNT : Nat := 0x128
/-- `STR.RECON_FAIL`. -/
def STR_RECON_FAIL : Nat := 0x12C
/-- `STR.UNRECOVERABLE`. -/
def STR_UNRECOVERABLE : Nat := 0x130
/-- `STR.SSEQ_ISSUED`. -/
def STR_SSEQ_ISSUED : Nat := 0x134
/-- `STR.SSEQ_DURABLE`. -/
def STR_SSEQ_DURABLE : Nat := 0x138
/-- `STR.SSEQ_TAIL`. -/
def STR_SSEQ_TAIL : Nat := 0x13C
/-- `STR.RB_SEL`. -/
def STR_RB_SEL : Nat := 0x140
/-- `STR.RB_STATE`. -/
def STR_RB_STATE : Nat := 0x144
/-- `STR.RB_DONE`. -/
def STR_RB_DONE : Nat := 0x148
/-- `STR.RB_TOTAL`. -/
def STR_RB_TOTAL : Nat := 0x14C
/-- `STR.HOT_SPARE`, first of 32 registers 4 bytes apart. -/
def STR_HOT_SPARE : Nat := 0x200
/-- `STR.SEED_LO`. -/
def STR_SEED_LO : Nat := 0x800
/-- `STR.SEED_HI`. -/
def STR_SEED_HI : Nat := 0x804
/-- `STR.VERIFY_MODE`. -/
def STR_VERIFY_MODE : Nat := 0x808
/-- `STR.ERR_INJECT`. -/
def STR_ERR_INJECT : Nat := 0x80C
/-- `STR.SNAP_STATE`. -/
def STR_SNAP_STATE : Nat := 0xF10
/-- `STR.SNAP_RESYNC`. -/
def STR_SNAP_RESYNC : Nat := 0xF14
/-- `STR.SNAP_RB`. -/
def STR_SNAP_RB : Nat := 0xF18

/-- `PMU.VTRIP`. -/
def PMU_VTRIP : Nat := 0x180
/-- `PMU.RESTART_HOLD`. -/
def PMU_RESTART_HOLD : Nat := 0x184
/-- `PMU.FERRY_STATUS`. -/
def PMU_FERRY_STATUS : Nat := 0x188
/-- `PMU.FERRY_TIME`. -/
def PMU_FERRY_TIME : Nat := 0x18C
/-- `PMU.FERRY_VMIN`. -/
def PMU_FERRY_VMIN : Nat := 0x190
/-- `PMU.FERRY_UNITS`. -/
def PMU_FERRY_UNITS : Nat := 0x194
/-- `PMU.FERRY_COUNT`. -/
def PMU_FERRY_COUNT : Nat := 0x198
/-- `PMU.FERRY_INJECT`. -/
def PMU_FERRY_INJECT : Nat := 0x880
/-- `PMU.DOMAIN_ON`. -/
def PMU_DOMAIN_ON : Nat := 0x100
/-- `PMU.DOMAIN_BUSY`. -/
def PMU_DOMAIN_BUSY : Nat := 0x104
/-- `PMU.DOMAIN_OFF_REQ`. -/
def PMU_DOMAIN_OFF_REQ : Nat := 0x108
/-- `PMU.WAKE`. -/
def PMU_WAKE : Nat := 0x10C
/-- `PMU.SWITCHES`. -/
def PMU_SWITCHES : Nat := 0x110
/-- `PMU.ISO_STATE`. -/
def PMU_ISO_STATE : Nat := 0x114
/-- `PMU.ERR_INJECT`. -/
def PMU_ERR_INJECT : Nat := 0x800
/-- `PMU.SNAP_ON`. -/
def PMU_SNAP_ON : Nat := 0xF10
/-- `PMU.SNAP_WAKE`. -/
def PMU_SNAP_WAKE : Nat := 0xF14

/-- `DMC.GEOM`. -/
def DMC_GEOM : Nat := 0x100
/-- `DMC.SPARE`. -/
def DMC_SPARE : Nat := 0x104
/-- `DMC.RANK_STATE`. -/
def DMC_RANK_STATE : Nat := 0x108
/-- `DMC.MIG_PTR`. -/
def DMC_MIG_PTR : Nat := 0x10C
/-- `DMC.MIG_RATE`. -/
def DMC_MIG_RATE : Nat := 0x110
/-- `DMC.TEMP`. -/
def DMC_TEMP : Nat := 0x114
/-- `DMC.REF_COUNT`. -/
def DMC_REF_COUNT : Nat := 0x118
/-- `DMC.ECC_CE`. -/
def DMC_ECC_CE : Nat := 0x11C
/-- `DMC.ECC_UE`. -/
def DMC_ECC_UE : Nat := 0x120
/-- `DMC.UE_ADDR_LO`. -/
def DMC_UE_ADDR_LO : Nat := 0x124
/-- `DMC.UE_ADDR_HI`. -/
def DMC_UE_ADDR_HI : Nat := 0x128
/-- `DMC.RAW_WAITS`. -/
def DMC_RAW_WAITS : Nat := 0x12C
/-- `DMC.MERGE_RMW`. -/
def DMC_MERGE_RMW : Nat := 0x130
/-- `DMC.QUEUE`. -/
def DMC_QUEUE : Nat := 0x134
/-- `DMC.POISON_COUNT`. -/
def DMC_POISON_COUNT : Nat := 0x138
/-- `DMC.T_CORE`. -/
def DMC_T_CORE : Nat := 0x800
/-- `DMC.T_RAS_RFC`. -/
def DMC_T_RAS_RFC : Nat := 0x804
/-- `DMC.PAGE_POLICY`. -/
def DMC_PAGE_POLICY : Nat := 0x808
/-- `DMC.MERGE_CTRL`. -/
def DMC_MERGE_CTRL : Nat := 0x80C
/-- `DMC.FENCE`. -/
def DMC_FENCE : Nat := 0x810
/-- `DMC.TRAIN_CTRL`. -/
def DMC_TRAIN_CTRL : Nat := 0x814
/-- `DMC.ERR_INJECT`. -/
def DMC_ERR_INJECT : Nat := 0x818
/-- `DMC.SNAP_QUEUE`. -/
def DMC_SNAP_QUEUE : Nat := 0xF10
/-- `DMC.SNAP_RANK`. -/
def DMC_SNAP_RANK : Nat := 0xF14
/-- `DMC.SNAP_MIG`. -/
def DMC_SNAP_MIG : Nat := 0xF18

/-- `LND.RETAIN`. -/
def LND_RETAIN : Nat := 0x100
/-- `LND.MERGE_CTRL`. -/
def LND_MERGE_CTRL : Nat := 0x104
/-- `LND.ECC_CE`. -/
def LND_ECC_CE : Nat := 0x108
/-- `LND.ECC_UE`. -/
def LND_ECC_UE : Nat := 0x10C
/-- `LND.UE_ADDR`. -/
def LND_UE_ADDR : Nat := 0x110
/-- `LND.BANK_WAIT`. -/
def LND_BANK_WAIT : Nat := 0x114
/-- `LND.ERR_INJECT`. -/
def LND_ERR_INJECT : Nat := 0x800
/-- `LND.SNAP_CE`. -/
def LND_SNAP_CE : Nat := 0xF10

/-- `MRM.DIE_STATE`. -/
def MRM_DIE_STATE : Nat := 0x100
/-- `MRM.FRAMES`. -/
def MRM_FRAMES : Nat := 0x104
/-- `MRM.WEAR_CREDIT`. -/
def MRM_WEAR_CREDIT : Nat := 0x108
/-- `MRM.PASS_MAX`. -/
def MRM_PASS_MAX : Nat := 0x10C
/-- `MRM.PASS_MIN`. -/
def MRM_PASS_MIN : Nat := 0x110
/-- `MRM.SWAPS`. -/
def MRM_SWAPS : Nat := 0x114
/-- `MRM.ECC_CE`. -/
def MRM_ECC_CE : Nat := 0x118
/-- `MRM.ECC_UE`. -/
def MRM_ECC_UE : Nat := 0x11C
/-- `MRM.UE_ADDR`. -/
def MRM_UE_ADDR : Nat := 0x120
/-- `MRM.MIRROR_READS`. -/
def MRM_MIRROR_READS : Nat := 0x124
/-- `MRM.WRITE_KIB`. -/
def MRM_WRITE_KIB : Nat := 0x128
/-- `MRM.MERGE_CTRL`. -/
def MRM_MERGE_CTRL : Nat := 0x800
/-- `MRM.ERR_INJECT`. -/
def MRM_ERR_INJECT : Nat := 0x804
/-- `MRM.SNAP_CREDIT`. -/
def MRM_SNAP_CREDIT : Nat := 0xF10
/-- `MRM.SNAP_FRAMES`. -/
def MRM_SNAP_FRAMES : Nat := 0xF14

/-- `MEC.SCRUB_DRAM`. -/
def MEC_SCRUB_DRAM : Nat := 0x100
/-- `MEC.SCRUB_SRAM`. -/
def MEC_SCRUB_SRAM : Nat := 0x104
/-- `MEC.SCRUB_MRAM`. -/
def MEC_SCRUB_MRAM : Nat := 0x108
/-- `MEC.CS_RETAIN`. -/
def MEC_CS_RETAIN : Nat := 0x10C
/-- `MEC.PASS_DONE`. -/
def MEC_PASS_DONE : Nat := 0x110
/-- `MEC.SCRUB_CE`. -/
def MEC_SCRUB_CE : Nat := 0x114
/-- `MEC.SCRUB_UE`. -/
def MEC_SCRUB_UE : Nat := 0x118
/-- `MEC.SNAP_PASS`. -/
def MEC_SNAP_PASS : Nat := 0xF10

/-- `NCL.CORE_ENABLE`. -/
def NCL_CORE_ENABLE : Nat := 0x100
/-- `NCL.CORE_RETIRED`. -/
def NCL_CORE_RETIRED : Nat := 0x104
/-- `NCL.CORE_STATE`. -/
def NCL_CORE_STATE : Nat := 0x108
/-- `NCL.CLK_REQ`. -/
def NCL_CLK_REQ : Nat := 0x10C
/-- `NCL.CLK_NOW`. -/
def NCL_CLK_NOW : Nat := 0x110
/-- `NCL.LOAD_SRC_LO`. -/
def NCL_LOAD_SRC_LO : Nat := 0x114
/-- `NCL.LOAD_SRC_HI`. -/
def NCL_LOAD_SRC_HI : Nat := 0x118
/-- `NCL.LOAD_CTRL`. -/
def NCL_LOAD_CTRL : Nat := 0x11C
/-- `NCL.LOAD_STATUS`. -/
def NCL_LOAD_STATUS : Nat := 0x120
/-- `NCL.TABLE_GEN`. -/
def NCL_TABLE_GEN : Nat := 0x124
/-- `NCL.ECC_CE`. -/
def NCL_ECC_CE : Nat := 0x128
/-- `NCL.ECC_UE`. -/
def NCL_ECC_UE : Nat := 0x12C
/-- `NCL.UE_ADDR`. -/
def NCL_UE_ADDR : Nat := 0x130
/-- `NCL.TRAP_COUNT`. -/
def NCL_TRAP_COUNT : Nat := 0x134
/-- `NCL.DOUBLE_TRAP`. -/
def NCL_DOUBLE_TRAP : Nat := 0x138
/-- `NCL.CORE_RESET`. -/
def NCL_CORE_RESET : Nat := 0x13C
/-- `NCL.CORE_RETIRE`. -/
def NCL_CORE_RETIRE : Nat := 0x140
/-- `NCL.TCM_CE`, first of 8 registers 4 bytes apart. -/
def NCL_TCM_CE : Nat := 0x160
/-- `NCL.CS_MERGE`. -/
def NCL_CS_MERGE : Nat := 0x800
/-- `NCL.ERR_INJECT`. -/
def NCL_ERR_INJECT : Nat := 0x804
/-- `NCL.SNAP_STATE`. -/
def NCL_SNAP_STATE : Nat := 0xF10
/-- `NCL.SNAP_CLK`. -/
def NCL_SNAP_CLK : Nat := 0xF14
/-- `NCL.SNAP_TRAPS`. -/
def NCL_SNAP_TRAPS : Nat := 0xF18

/-- `DIS.TICK`. -/
def DIS_TICK : Nat := 0x100
/-- `DIS.HIST_UNIT`. -/
def DIS_HIST_UNIT : Nat := 0x104
/-- `DIS.FREE_SLOTS`. -/
def DIS_FREE_SLOTS : Nat := 0x10C
/-- `DIS.WI_SEL`. -/
def DIS_WI_SEL : Nat := 0x110
/-- `DIS.WI_W0`, first of 8 registers 4 bytes apart. -/
def DIS_WI_W0 : Nat := 0x114
/-- `DIS.WI_OP`. -/
def DIS_WI_OP : Nat := 0x134
/-- `DIS.WI_STATUS`. -/
def DIS_WI_STATUS : Nat := 0x138
/-- `DIS.FAIL_COUNT`. -/
def DIS_FAIL_COUNT : Nat := 0x13C
/-- `DIS.FAIL_NEXT`. -/
def DIS_FAIL_NEXT : Nat := 0x140
/-- `DIS.QSEL`. -/
def DIS_QSEL : Nat := 0x144
/-- `DIS.Q_DEPTH`. -/
def DIS_Q_DEPTH : Nat := 0x148
/-- `DIS.Q_MAXDEPTH`. -/
def DIS_Q_MAXDEPTH : Nat := 0x14C
/-- `DIS.Q_HIST`, first of 8 registers 4 bytes apart. -/
def DIS_Q_HIST : Nat := 0x150
/-- `DIS.HIST_CLEAR`. -/
def DIS_HIST_CLEAR : Nat := 0x170
/-- `DIS.CORE_SEL`. -/
def DIS_CORE_SEL : Nat := 0x174
/-- `DIS.CORE_BUSY_LO`. -/
def DIS_CORE_BUSY_LO : Nat := 0x178
/-- `DIS.CORE_BUSY_HI`. -/
def DIS_CORE_BUSY_HI : Nat := 0x17C
/-- `DIS.CORE_ITEMS`. -/
def DIS_CORE_ITEMS : Nat := 0x180
/-- `DIS.CORE_PREEMPT`. -/
def DIS_CORE_PREEMPT : Nat := 0x184
/-- `DIS.CORE_ITEM`. -/
def DIS_CORE_ITEM : Nat := 0x188
/-- `DIS.TIE_COUNT`. -/
def DIS_TIE_COUNT : Nat := 0x18C
/-- `DIS.LATE_COUNT`. -/
def DIS_LATE_COUNT : Nat := 0x190
/-- `DIS.USER_DROP`. -/
def DIS_USER_DROP : Nat := 0x194
/-- `DIS.EVENT_MISS`. -/
def DIS_EVENT_MISS : Nat := 0x198
/-- `DIS.SBANK_SEL`. -/
def DIS_SBANK_SEL : Nat := 0x19C
/-- `DIS.SBANK_DATA`. -/
def DIS_SBANK_DATA : Nat := 0x1A0
/-- `DIS.CTX_AREA`, first of 6 registers 8 bytes apart. -/
def DIS_CTX_AREA : Nat := 0x200
/-- `DIS.ERR_INJECT`. -/
def DIS_ERR_INJECT : Nat := 0x800
/-- `DIS.SNAP_DEPTH`, first of 6 registers 4 bytes apart. -/
def DIS_SNAP_DEPTH : Nat := 0xF10
/-- `DIS.SNAP_RUN`, first of 6 registers 4 bytes apart. -/
def DIS_SNAP_RUN : Nat := 0xF28
/-- `DIS.SNAP_PRE`, first of 6 registers 4 bytes apart. -/
def DIS_SNAP_PRE : Nat := 0xF40
/-- `DIS.SNAP_FREE`. -/
def DIS_SNAP_FREE : Nat := 0xF58

/-- `CVN.PATH_CTRL`. -/
def CVN_PATH_CTRL : Nat := 0x100
/-- `CVN.SUSP_MARGIN`. -/
def CVN_SUSP_MARGIN : Nat := 0x104
/-- `CVN.CTX_BASE`. -/
def CVN_CTX_BASE : Nat := 0x108
/-- `CVN.SAVE_BASE`. -/
def CVN_SAVE_BASE : Nat := 0x10C
/-- `CVN.ACTIVE`. -/
def CVN_ACTIVE : Nat := 0x110
/-- `CVN.JOBS_DONE`. -/
def CVN_JOBS_DONE : Nat := 0x114
/-- `CVN.JOBS_FAILED`. -/
def CVN_JOBS_FAILED : Nat := 0x118
/-- `CVN.SUSP_COUNT`. -/
def CVN_SUSP_COUNT : Nat := 0x11C
/-- `CVN.TIE_COUNT`. -/
def CVN_TIE_COUNT : Nat := 0x120
/-- `CVN.BYTES_IN`. -/
def CVN_BYTES_IN : Nat := 0x124
/-- `CVN.BUSY`. -/
def CVN_BUSY : Nat := 0x128
/-- `CVN.RETIRE`. -/
def CVN_RETIRE : Nat := 0x12C
/-- `CVN.CTX_SEL`. -/
def CVN_CTX_SEL : Nat := 0x130
/-- `CVN.CTX_STATE`. -/
def CVN_CTX_STATE : Nat := 0x134
/-- `CVN.RING0_CFG`. -/
def CVN_RING0_CFG : Nat := 0x208
/-- `CVN.RING0_CTX_RANGE`. -/
def CVN_RING0_CTX_RANGE : Nat := 0x210
/-- `CVN.RING1_CFG`. -/
def CVN_RING1_CFG : Nat := 0x228
/-- `CVN.RING1_CTX_RANGE`. -/
def CVN_RING1_CTX_RANGE : Nat := 0x230
/-- `CVN.RING2_CFG`. -/
def CVN_RING2_CFG : Nat := 0x248
/-- `CVN.RING2_CTX_RANGE`. -/
def CVN_RING2_CTX_RANGE : Nat := 0x250
/-- `CVN.RING_BASE_LO`, first of 5 registers 32 bytes apart. -/
def CVN_RING_BASE_LO : Nat := 0x260
/-- `CVN.RING_BASE_HI`, first of 5 registers 32 bytes apart. -/
def CVN_RING_BASE_HI : Nat := 0x264
/-- `CVN.RING_CFG`, first of 5 registers 32 bytes apart. -/
def CVN_RING_CFG : Nat := 0x268
/-- `CVN.RING_OWNER`, first of 5 registers 32 bytes apart. -/
def CVN_RING_OWNER : Nat := 0x26C
/-- `CVN.RING_CTX_RANGE`, first of 5 registers 32 bytes apart. -/
def CVN_RING_CTX_RANGE : Nat := 0x270
/-- `CVN.RING_TAIL`, first of 5 registers 32 bytes apart. -/
def CVN_RING_TAIL : Nat := 0x274
/-- `CVN.RING_HEAD`, first of 5 registers 32 bytes apart. -/
def CVN_RING_HEAD : Nat := 0x278
/-- `CVN.RING_CPL_HEAD`, first of 5 registers 32 bytes apart. -/
def CVN_RING_CPL_HEAD : Nat := 0x27C
/-- `CVN.ERR_INJECT`. -/
def CVN_ERR_INJECT : Nat := 0x800
/-- `CVN.SNAP_ACTIVE`. -/
def CVN_SNAP_ACTIVE : Nat := 0xF10
/-- `CVN.SNAP_BUSY`. -/
def CVN_SNAP_BUSY : Nat := 0xF14
/-- `CVN.SNAP_WAIT`. -/
def CVN_SNAP_WAIT : Nat := 0xF18

/-- `MTE.PART_RANGE0`. -/
def MTE_PART_RANGE0 : Nat := 0x100
/-- `MTE.PART_RANGE1`. -/
def MTE_PART_RANGE1 : Nat := 0x108
/-- `MTE.PART_RANGE2`. -/
def MTE_PART_RANGE2 : Nat := 0x110
/-- `MTE.PART_RANGE3`. -/
def MTE_PART_RANGE3 : Nat := 0x118
/-- `MTE.PART_RANGE4`, first of 12 registers 8 bytes apart. -/
def MTE_PART_RANGE4 : Nat := 0x120
/-- `MTE.PART_CFG0`. -/
def MTE_PART_CFG0 : Nat := 0x104
/-- `MTE.PART_CFG1`. -/
def MTE_PART_CFG1 : Nat := 0x10C
/-- `MTE.PART_CFG2`. -/
def MTE_PART_CFG2 : Nat := 0x114
/-- `MTE.PART_CFG3`. -/
def MTE_PART_CFG3 : Nat := 0x11C
/-- `MTE.PART_CFG4`, first of 12 registers 8 bytes apart. -/
def MTE_PART_CFG4 : Nat := 0x124
/-- `MTE.SHADOW_BASE`. -/
def MTE_SHADOW_BASE : Nat := 0x180
/-- `MTE.SWEEP`. -/
def MTE_SWEEP : Nat := 0x184
/-- `MTE.LOOKUPS`. -/
def MTE_LOOKUPS : Nat := 0x188
/-- `MTE.HITS`. -/
def MTE_HITS : Nat := 0x18C
/-- `MTE.MULTI_COUNT`. -/
def MTE_MULTI_COUNT : Nat := 0x190
/-- `MTE.UPDATES`. -/
def MTE_UPDATES : Nat := 0x194
/-- `MTE.REPAIRS`. -/
def MTE_REPAIRS : Nat := 0x198
/-- `MTE.PORT_WAIT`. -/
def MTE_PORT_WAIT : Nat := 0x19C
/-- `MTE.VALID_COUNT`. -/
def MTE_VALID_COUNT : Nat := 0x1A0
/-- `MTE.VALUE0`, first of 16 registers 64 bytes apart. -/
def MTE_VALUE0 : Nat := 0x200
/-- `MTE.VALUE1`, first of 16 registers 64 bytes apart. -/
def MTE_VALUE1 : Nat := 0x204
/-- `MTE.VALUE2`, first of 16 registers 64 bytes apart. -/
def MTE_VALUE2 : Nat := 0x208
/-- `MTE.VALUE3`, first of 16 registers 64 bytes apart. -/
def MTE_VALUE3 : Nat := 0x20C
/-- `MTE.VALUE4`, first of 16 registers 64 bytes apart. -/
def MTE_VALUE4 : Nat := 0x210
/-- `MTE.MASK0`, first of 16 registers 64 bytes apart. -/
def MTE_MASK0 : Nat := 0x214
/-- `MTE.MASK1`, first of 16 registers 64 bytes apart. -/
def MTE_MASK1 : Nat := 0x218
/-- `MTE.MASK2`, first of 16 registers 64 bytes apart. -/
def MTE_MASK2 : Nat := 0x21C
/-- `MTE.MASK3`, first of 16 registers 64 bytes apart. -/
def MTE_MASK3 : Nat := 0x220
/-- `MTE.MASK4`, first of 16 registers 64 bytes apart. -/
def MTE_MASK4 : Nat := 0x224
/-- `MTE.W_PRIO`, first of 16 registers 64 bytes apart. -/
def MTE_W_PRIO : Nat := 0x228
/-- `MTE.W_RESULT`, first of 16 registers 64 bytes apart. -/
def MTE_W_RESULT : Nat := 0x22C
/-- `MTE.W_INDEX`, first of 16 registers 64 bytes apart. -/
def MTE_W_INDEX : Nat := 0x230
/-- `MTE.W_OP`, first of 16 registers 64 bytes apart. -/
def MTE_W_OP : Nat := 0x234
/-- `MTE.WSTATUS`, first of 16 registers 64 bytes apart. -/
def MTE_WSTATUS : Nat := 0x238
/-- `MTE.ERR_INJECT`. -/
def MTE_ERR_INJECT : Nat := 0x800
/-- `MTE.SNAP_LOOKUPS`. -/
def MTE_SNAP_LOOKUPS : Nat := 0xF10
/-- `MTE.SNAP_VALID`. -/
def MTE_SNAP_VALID : Nat := 0xF14

/-- `DGE.JOB_CFG`. -/
def DGE_JOB_CFG : Nat := 0x100
/-- `DGE.KEY_SLOT`. -/
def DGE_KEY_SLOT : Nat := 0x104
/-- `DGE.SRC_LO`. -/
def DGE_SRC_LO : Nat := 0x108
/-- `DGE.SRC_HI`. -/
def DGE_SRC_HI : Nat := 0x10C
/-- `DGE.LEN_LO`. -/
def DGE_LEN_LO : Nat := 0x110
/-- `DGE.LEN_HI`. -/
def DGE_LEN_HI : Nat := 0x114
/-- `DGE.XOF_LEN`. -/
def DGE_XOF_LEN : Nat := 0x118
/-- `DGE.CMD`. -/
def DGE_CMD : Nat := 0x11C
/-- `DGE.DSTATUS`. -/
def DGE_DSTATUS : Nat := 0x120
/-- `DGE.BYTES_LO`. -/
def DGE_BYTES_LO : Nat := 0x124
/-- `DGE.BYTES_HI`. -/
def DGE_BYTES_HI : Nat := 0x128
/-- `DGE.DATA_LO`. -/
def DGE_DATA_LO : Nat := 0x12C
/-- `DGE.DATA_HI`. -/
def DGE_DATA_HI : Nat := 0x130
/-- `DGE.LAST_LO`. -/
def DGE_LAST_LO : Nat := 0x134
/-- `DGE.LAST_HI`. -/
def DGE_LAST_HI : Nat := 0x138
/-- `DGE.LAST_VALID`. -/
def DGE_LAST_VALID : Nat := 0x13C
/-- `DGE.RESULT0`, first of 16 registers 4 bytes apart. -/
def DGE_RESULT0 : Nat := 0x140
/-- `DGE.STATE_SEL`. -/
def DGE_STATE_SEL : Nat := 0x180
/-- `DGE.STATE_DATA`. -/
def DGE_STATE_DATA : Nat := 0x184
/-- `DGE.JOBS`. -/
def DGE_JOBS : Nat := 0x188
/-- `DGE.ERR_INJECT`. -/
def DGE_ERR_INJECT : Nat := 0x800
/-- `DGE.SNAP_STATE`. -/
def DGE_SNAP_STATE : Nat := 0xF10
/-- `DGE.SNAP_BYTES`. -/
def DGE_SNAP_BYTES : Nat := 0xF14

/-- `KEY.WRAP_BASE`. -/
def KEY_WRAP_BASE : Nat := 0x100
/-- `KEY.KSEL`. -/
def KEY_KSEL : Nat := 0x104
/-- `KEY.KATTR0`, first of 4 registers 4 bytes apart. -/
def KEY_KATTR0 : Nat := 0x108
/-- `KEY.KCTR_LO`. -/
def KEY_KCTR_LO : Nat := 0x118
/-- `KEY.KCTR_HI`. -/
def KEY_KCTR_HI : Nat := 0x11C
/-- `KEY.KDATA0`, first of 16 registers 4 bytes apart. -/
def KEY_KDATA0 : Nat := 0x120
/-- `KEY.KOP`. -/
def KEY_KOP : Nat := 0x160
/-- `KEY.KSTATUS`. -/
def KEY_KSTATUS : Nat := 0x164
/-- `KEY.RESIDENT`. -/
def KEY_RESIDENT : Nat := 0x168
/-- `KEY.ROTATE_NEXT`. -/
def KEY_ROTATE_NEXT : Nat := 0x16C
/-- `KEY.UNWRAPS`. -/
def KEY_UNWRAPS : Nat := 0x170
/-- `KEY.KEY_DENIED`. -/
def KEY_KEY_DENIED : Nat := 0x174
/-- `KEY.RNG_STATUS`. -/
def KEY_RNG_STATUS : Nat := 0x178
/-- `KEY.RNG_OUT`. -/
def KEY_RNG_OUT : Nat := 0x17C
/-- `KEY.RESEED_INTERVAL`. -/
def KEY_RESEED_INTERVAL : Nat := 0x800
/-- `KEY.NONCE_WARN`. -/
def KEY_NONCE_WARN : Nat := 0x804
/-- `KEY.ERR_INJECT`. -/
def KEY_ERR_INJECT : Nat := 0x808
/-- `KEY.SNAP_RES`. -/
def KEY_SNAP_RES : Nat := 0xF10
/-- `KEY.SNAP_DENIED`. -/
def KEY_SNAP_DENIED : Nat := 0xF14

/-- `SCP.BOOT_STAGE`. -/
def SCP_BOOT_STAGE : Nat := 0x100
/-- `SCP.BOOT_FAIL`. -/
def SCP_BOOT_FAIL : Nat := 0x104
/-- `SCP.REC_SEQ`. -/
def SCP_REC_SEQ : Nat := 0x108
/-- `SCP.REC_STATUS`. -/
def SCP_REC_STATUS : Nat := 0x10C
/-- `SCP.REPLICAS`. -/
def SCP_REPLICAS : Nat := 0x110
/-- `SCP.POLICY`. -/
def SCP_POLICY : Nat := 0x114
/-- `SCP.SERIAL_LO`. -/
def SCP_SERIAL_LO : Nat := 0x118
/-- `SCP.SERIAL_HI`. -/
def SCP_SERIAL_HI : Nat := 0x11C
/-- `SCP.CTR_SEL`. -/
def SCP_CTR_SEL : Nat := 0x120
/-- `SCP.CTR_VALUE`. -/
def SCP_CTR_VALUE : Nat := 0x124
/-- `SCP.CTR_FLOOR`. -/
def SCP_CTR_FLOOR : Nat := 0x128
/-- `SCP.CTR_STATUS`. -/
def SCP_CTR_STATUS : Nat := 0x12C
/-- `SCP.SN_CFG`. -/
def SCP_SN_CFG : Nat := 0x140
/-- `SCP.SN_CMD`. -/
def SCP_SN_CMD : Nat := 0x144
/-- `SCP.SN_STATUS`. -/
def SCP_SN_STATUS : Nat := 0x148
/-- `SCP.SN_BYTES_LO`. -/
def SCP_SN_BYTES_LO : Nat := 0x14C
/-- `SCP.SN_BYTES_HI`. -/
def SCP_SN_BYTES_HI : Nat := 0x150
/-- `SCP.SN_RESULT0`, first of 16 registers 4 bytes apart. -/
def SCP_SN_RESULT0 : Nat := 0x180
/-- `SCP.ERR_INJECT`. -/
def SCP_ERR_INJECT : Nat := 0x800
/-- `SCP.SNAP_REC`. -/
def SCP_SNAP_REC : Nat := 0xF10
/-- `SCP.SNAP_BOOT`. -/
def SCP_SNAP_BOOT : Nat := 0xF14

/-- `TOL.MSTATE`. -/
def TOL_MSTATE : Nat := 0x100
/-- `TOL.VERSION_LO`. -/
def TOL_VERSION_LO : Nat := 0x104
/-- `TOL.VERSION_HI`. -/
def TOL_VERSION_HI : Nat := 0x108
/-- `TOL.STSEQ`. -/
def TOL_STSEQ : Nat := 0x10C
/-- `TOL.ASEQ`. -/
def TOL_ASEQ : Nat := 0x110
/-- `TOL.TENANTS`. -/
def TOL_TENANTS : Nat := 0x114
/-- `TOL.TAP_ERR`. -/
def TOL_TAP_ERR : Nat := 0x118
/-- `TOL.MTIME_LO`. -/
def TOL_MTIME_LO : Nat := 0x11C
/-- `TOL.MTIME_HI`. -/
def TOL_MTIME_HI : Nat := 0x120
/-- `TOL.TAP_HOLD`, first of 4 registers 4 bytes apart. -/
def TOL_TAP_HOLD : Nat := 0x124
/-- `TOL.REQ_DROP`. -/
def TOL_REQ_DROP : Nat := 0x134
/-- `TOL.ITEM_HDR`. -/
def TOL_ITEM_HDR : Nat := 0x140
/-- `TOL.ITEM_LEN`. -/
def TOL_ITEM_LEN : Nat := 0x144
/-- `TOL.CHUNK_TAG`. -/
def TOL_CHUNK_TAG : Nat := 0x148
/-- `TOL.CHUNK_CRC`. -/
def TOL_CHUNK_CRC : Nat := 0x14C
/-- `TOL.CHUNK_DATA`, first of 448 registers 4 bytes apart. -/
def TOL_CHUNK_DATA : Nat := 0x800
/-- `TOL.SNAP_STSEQ`. -/
def TOL_SNAP_STSEQ : Nat := 0xF10
/-- `TOL.SNAP_TAPERR`. -/
def TOL_SNAP_TAPERR : Nat := 0xF14

/-- `SPN.GROUP_ID_LO`. -/
def SPN_GROUP_ID_LO : Nat := 0x100
/-- `SPN.GROUP_ID_HI`. -/
def SPN_GROUP_ID_HI : Nat := 0x104
/-- `SPN.GEN_LO`. -/
def SPN_GEN_LO : Nat := 0x108
/-- `SPN.GEN_HI`. -/
def SPN_GEN_HI : Nat := 0x10C
/-- `SPN.MEMBER`. -/
def SPN_MEMBER : Nat := 0x110
/-- `SPN.VIEW`. -/
def SPN_VIEW : Nat := 0x114
/-- `SPN.GATHER`. -/
def SPN_GATHER : Nat := 0x118
/-- `SPN.PEER_TIMEOUT`. -/
def SPN_PEER_TIMEOUT : Nat := 0x11C
/-- `SPN.HB_MISS`. -/
def SPN_HB_MISS : Nat := 0x120
/-- `SPN.RESYNC_SHARE`. -/
def SPN_RESYNC_SHARE : Nat := 0x124
/-- `SPN.SJ_LIVE`. -/
def SPN_SJ_LIVE : Nat := 0x128
/-- `SPN.RESYNC_LEFT`. -/
def SPN_RESYNC_LEFT : Nat := 0x12C
/-- `SPN.STATE`. -/
def SPN_STATE : Nat := 0x130
/-- `SPN.FULL_STRIPES`. -/
def SPN_FULL_STRIPES : Nat := 0x134
/-- `SPN.RMW_STRIPES`. -/
def SPN_RMW_STRIPES : Nat := 0x138
/-- `SPN.DEGRADED_READS`. -/
def SPN_DEGRADED_READS : Nat := 0x13C
/-- `SPN.LAST_REFUSE`. -/
def SPN_LAST_REFUSE : Nat := 0x140
/-- `SPN.REFUSALS`. -/
def SPN_REFUSALS : Nat := 0x144
/-- `SPN.OFFSET_MAX`. -/
def SPN_OFFSET_MAX : Nat := 0x148
/-- `SPN.ERR_INJECT`. -/
def SPN_ERR_INJECT : Nat := 0x800
/-- `SPN.SNAP_VIEW`. -/
def SPN_SNAP_VIEW : Nat := 0xF10
/-- `SPN.SNAP_GEN`. -/
def SPN_SNAP_GEN : Nat := 0xF14
/-- `SPN.SNAP_SJ`. -/
def SPN_SNAP_SJ : Nat := 0xF18

/-- `CLE.RAIL_GOOD`. -/
def CLE_RAIL_GOOD : Nat := 0x100
/-- `CLE.PHASE_RET_LO`. -/
def CLE_PHASE_RET_LO : Nat := 0x104
/-- `CLE.PHASE_RET_HI`. -/
def CLE_PHASE_RET_HI : Nat := 0x108
/-- `CLE.TEMP_MAX`. -/
def CLE_TEMP_MAX : Nat := 0x10C
/-- `CLE.TJ_TARGET`. -/
def CLE_TJ_TARGET : Nat := 0x110
/-- `CLE.THROTTLE`. -/
def CLE_THROTTLE : Nat := 0x114
/-- `CLE.NODE_POWER`. -/
def CLE_NODE_POWER : Nat := 0x118
/-- `CLE.POWER_CAP`. -/
def CLE_POWER_CAP : Nat := 0x11C
/-- `CLE.CAP_LIMIT`. -/
def CLE_CAP_LIMIT : Nat := 0x120
/-- `CLE.TOKEN_MAX`. -/
def CLE_TOKEN_MAX : Nat := 0x124
/-- `CLE.TOKEN_MIN`. -/
def CLE_TOKEN_MIN : Nat := 0x128
/-- `CLE.TOKEN_CEIL`. -/
def CLE_TOKEN_CEIL : Nat := 0x12C
/-- `CLE.TOKEN_NOW`. -/
def CLE_TOKEN_NOW : Nat := 0x130
/-- `CLE.TOKEN_DRAWN`. -/
def CLE_TOKEN_DRAWN : Nat := 0x134
/-- `CLE.TOKEN_LAPSED`. -/
def CLE_TOKEN_LAPSED : Nat := 0x138
/-- `CLE.TOKEN_WAITS`. -/
def CLE_TOKEN_WAITS : Nat := 0x13C
/-- `CLE.TIE_COUNT`. -/
def CLE_TIE_COUNT : Nat := 0x140
/-- `CLE.FLASH_ILIM`. -/
def CLE_FLASH_ILIM : Nat := 0x144
/-- `CLE.EXT_ENABLE`. -/
def CLE_EXT_ENABLE : Nat := 0x148
/-- `CLE.EXT_STATUS`. -/
def CLE_EXT_STATUS : Nat := 0x14C
/-- `CLE.DVFS_STATUS`. -/
def CLE_DVFS_STATUS : Nat := 0x150
/-- `CLE.RAIL_VSET_0`. -/
def CLE_RAIL_VSET_0 : Nat := 0x200
/-- `CLE.RAIL_VSET_1`. -/
def CLE_RAIL_VSET_1 : Nat := 0x204
/-- `CLE.RAIL_VSET_2`. -/
def CLE_RAIL_VSET_2 : Nat := 0x208
/-- `CLE.RAIL_VSET_3`. -/
def CLE_RAIL_VSET_3 : Nat := 0x20C
/-- `CLE.RAIL_VSET_4`. -/
def CLE_RAIL_VSET_4 : Nat := 0x210
/-- `CLE.RAIL_VSET_5`. -/
def CLE_RAIL_VSET_5 : Nat := 0x214
/-- `CLE.RAIL_VSET_6`. -/
def CLE_RAIL_VSET_6 : Nat := 0x218
/-- `CLE.RAIL_VSET_7`. -/
def CLE_RAIL_VSET_7 : Nat := 0x21C
/-- `CLE.RAIL_VSET_8`. -/
def CLE_RAIL_VSET_8 : Nat := 0x220
/-- `CLE.RAIL_VSET_9`. -/
def CLE_RAIL_VSET_9 : Nat := 0x224
/-- `CLE.RAIL_VSET_10`. -/
def CLE_RAIL_VSET_10 : Nat := 0x228
/-- `CLE.RAIL_VSET_11`. -/
def CLE_RAIL_VSET_11 : Nat := 0x22C
/-- `CLE.RAIL_VSET_12`. -/
def CLE_RAIL_VSET_12 : Nat := 0x230
/-- `CLE.RAIL_VSET_13`. -/
def CLE_RAIL_VSET_13 : Nat := 0x234
/-- `CLE.EXT_CFG`, first of 6 registers 4 bytes apart. -/
def CLE_EXT_CFG : Nat := 0x300
/-- `CLE.CAP_GAIN`. -/
def CLE_CAP_GAIN : Nat := 0x800
/-- `CLE.FERRY_TOKENS`. -/
def CLE_FERRY_TOKENS : Nat := 0x804
/-- `CLE.ERR_INJECT`. -/
def CLE_ERR_INJECT : Nat := 0x808
/-- `CLE.COEF_B01`, first of 20 registers 32 bytes apart. -/
def CLE_COEF_B01 : Nat := 0x900
/-- `CLE.COEF_B23`, first of 20 registers 32 bytes apart. -/
def CLE_COEF_B23 : Nat := 0x904
/-- `CLE.COEF_A12`, first of 20 registers 32 bytes apart. -/
def CLE_COEF_A12 : Nat := 0x908
/-- `CLE.CTRL_A3`, first of 20 registers 32 bytes apart. -/
def CLE_CTRL_A3 : Nat := 0x90C
/-- `CLE.NOTCH_N01`, first of 20 registers 32 bytes apart. -/
def CLE_NOTCH_N01 : Nat := 0x910
/-- `CLE.NOTCH_N2D1`, first of 20 registers 32 bytes apart. -/
def CLE_NOTCH_N2D1 : Nat := 0x914
/-- `CLE.NOTCH_D2`, first of 20 registers 32 bytes apart. -/
def CLE_NOTCH_D2 : Nat := 0x918
/-- `CLE.LIMITS`, first of 20 registers 32 bytes apart. -/
def CLE_LIMITS : Nat := 0x91C
/-- `CLE.SNAP_THROTTLE`. -/
def CLE_SNAP_THROTTLE : Nat := 0xF10
/-- `CLE.SNAP_POWER`. -/
def CLE_SNAP_POWER : Nat := 0xF14
/-- `CLE.SNAP_TOKENS`. -/
def CLE_SNAP_TOKENS : Nat := 0xF18

/-- `FLT.LOG_WSEQ`. -/
def FLT_LOG_WSEQ : Nat := 0x100
/-- `FLT.LOG_OLDEST`. -/
def FLT_LOG_OLDEST : Nat := 0x104
/-- `FLT.LOG_LOST`. -/
def FLT_LOG_LOST : Nat := 0x108
/-- `FLT.FATAL`. -/
def FLT_FATAL : Nat := 0x10C
/-- `FLT.REFUSALS`. -/
def FLT_REFUSALS : Nat := 0x110
/-- `FLT.LAST_REF_LO`. -/
def FLT_LAST_REF_LO : Nat := 0x114
/-- `FLT.LAST_REF_HI`. -/
def FLT_LAST_REF_HI : Nat := 0x118
/-- `FLT.IRESET`. -/
def FLT_IRESET : Nat := 0x11C
/-- `FLT.IRESET_STATUS`. -/
def FLT_IRESET_STATUS : Nat := 0x120
/-- `FLT.ACT_STATUS`. -/
def FLT_ACT_STATUS : Nat := 0x124
/-- `FLT.HANDOVER_MAX`. -/
def FLT_HANDOVER_MAX : Nat := 0x128
/-- `FLT.LOG_D0`. -/
def FLT_LOG_D0 : Nat := 0x12C
/-- `FLT.LOG_D1`. -/
def FLT_LOG_D1 : Nat := 0x130
/-- `FLT.LOG_WRITE`. -/
def FLT_LOG_WRITE : Nat := 0x134
/-- `FLT.INJECT_EN`. -/
def FLT_INJECT_EN : Nat := 0x800
/-- `FLT.ERR_INJECT`. -/
def FLT_ERR_INJECT : Nat := 0x804
/-- `FLT.SNAP_WSEQ`. -/
def FLT_SNAP_WSEQ : Nat := 0xF10
/-- `FLT.SNAP_FATAL`. -/
def FLT_SNAP_FATAL : Nat := 0xF14

/-- Rows of the `SGL` page table, part 0. -/
def rowsSGL0 : List RegRow := [
  ⟨SGL_TIME_LO, 1, 4, .ro, .none, 0xFFFFFFFF, 0x00000000, false⟩,
  ⟨SGL_TIME_HI, 1, 4, .ro, .none, 0xFFFFFFFF, 0x00000000, false⟩,
  ⟨SGL_DISC_CTRL, 1, 4, .rw, .staged, 0x00000003, 0x00000000, false⟩,
  ⟨SGL_DISC_STATUS, 1, 4, .ro, .none, 0xFFFFFFFF, 0x00000000, false⟩,
  ⟨SGL_OFFSET, 1, 4, .ro, .none, 0xFFFFFFFF, 0x00000000, false⟩,
  ⟨SGL_SNAP_FIRE, 1, 4, .wo, .live, 0x00000001, 0x00000000, false⟩,
  ⟨SGL_SNAP_SEQ_CUR, 1, 4, .ro, .none, 0xFFFFFFFF, 0x00000000, false⟩,
  ⟨SGL_SNAP_TAG, 1, 4, .ro, .none, 0xFFFFFFFF, 0x00000000, false⟩,
  ⟨SGL_SNAP_T_LO, 1, 4, .ro, .none, 0xFFFFFFFF, 0x00000000, false⟩,
  ⟨SGL_SNAP_T_HI, 1, 4, .ro, .none, 0xFFFFFFFF, 0x00000000, false⟩,
  ⟨SGL_SLEW_LIMIT, 1, 4, .rw, .staged, 0x000001FF, 0x000000C8, false⟩,
  ⟨SGL_STEP_THRESH, 1, 4, .rw, .staged, 0x000FFFFF, 0x000003E8, false⟩,
  ⟨SGL_PTM_PERIOD, 1, 4, .rw, .staged, 0x000003FF, 0x0000000A, false⟩,
  ⟨SGL_SYNC_COMP, 1, 4, .rw, .staged, 0x0000FFFF, 0x00000000, false⟩,
  ⟨SGL_TIME_SET_LO, 1, 4, .rw, .staged, 0xFFFFFFFF, 0x00000000, false⟩,
  ⟨SGL_TIME_SET_HI, 1, 4, .rw, .staged, 0xFFFFFFFF, 0x00000000, false⟩,
  ⟨SGL_TIME_SET_EN, 1, 4, .rw, .staged, 0x00000001, 0x00000000, false⟩,
  ⟨SGL_SNAP_OFFSET, 1, 4, .ro, .none, 0xFFFFFFFF, 0x00000000, false⟩,
  ⟨SGL_SNAP_DISC, 1, 4, .ro, .none, 0xFFFFFFFF, 0x00000000, false⟩]

/-- Rows of the `SGL` page table. -/
def rowsSGL : List RegRow := rowsSGL0

/-- Rows of the `LCH` page table, part 0. -/
def rowsLCH0 : List RegRow := [
  ⟨LCH_ENTRY_SEL, 1, 4, .rw, .live, 0x000003FF, 0x00000000, false⟩,
  ⟨LCH_ENTRY_TIME_LO, 1, 4, .rw, .live, 0xFFFFFFFF, 0x00000000, false⟩,
  ⟨LCH_ENTRY_TIME_HI, 1, 4, .rw, .live, 0xFFFFFFFF, 0x00000000, false⟩,
  ⟨LCH_ENTRY_CTRL, 1, 4, .rw, .live, 0x000F0FFF, 0x00000000, false⟩,
  ⟨LCH_ENTRY_ARG, 1, 4, .rw, .live, 0xFFFFFFFF, 0x00000000, false⟩,
  ⟨LCH_ENTRY_OP, 1, 4, .wo, .live, 0x00000007, 0x00000000, false⟩,
  ⟨LCH_ENTRY_STATE, 1, 4, .ro, .none, 0xFFFFFFFF, 0x00000000, false⟩,
  ⟨LCH_ARMED_COUNT, 1, 4, .ro, .none, 0xFFFFFFFF, 0x00000000, false⟩,
  ⟨LCH_NEXT_LO, 1, 4, .ro, .none, 0xFFFFFFFF, 0xFFFFFFFF, false⟩,
  ⟨LCH_NEXT_HI, 1, 4, .ro, .none, 0xFFFFFFFF, 0xFFFFFFFF, false⟩,
  ⟨LCH_FIRED_COUNT, 1, 4, .rc, .none, 0xFFFFFFFF, 0x00000000, false⟩,
  ⟨LCH_TIE_COUNT, 1, 4, .rc, .none, 0xFFFFFFFF, 0x00000000, false⟩,
  ⟨LCH_USER_PRIO, 1, 4, .rw, .live, 0x0000000F, 0x00000008, false⟩,
  ⟨LCH_HOST_FIRST, 1, 4, .rw, .live, 0x000007FF, 0x00000380, false⟩]

/-- Rows of the `LCH` page table. -/
def rowsLCH : List RegRow := rowsLCH0

/-- Rows of the `HF` page table, part 0. -/
def rowsHF0 : List RegRow := [
  ⟨HF_LINK_STATUS, 1, 4, .ro, .none, 0xFFFFFFFF, 0x00000000, false⟩,
  ⟨HF_LINK_CTRL, 1, 4, .rw, .staged, 0x0000003F, 0x00000006, false⟩,
  ⟨HF_PTM_STATUS, 1, 4, .ro, .none, 0xFFFFFFFF, 0x00000000, false⟩,
  ⟨HF_IDE_STATUS, 1, 4, .ro, .none, 0xFFFFFFFF, 0x00000000, false⟩,
  ⟨HF_FN_STATUS, 1, 4, .ro, .none, 0xFFFFFFFF, 0x00000000, false⟩,
  ⟨HF_CPL_TIMEOUT, 1, 4, .rw, .staged, 0x00FFFFFF, 0x00002710, false⟩,
  ⟨HF_AER_SUMMARY, 1, 4, .ro, .none, 0xFFFFFFFF, 0x00000000, false⟩,
  ⟨HF_OBW_BASE, 32, 16, .rw, .staged, 0x0FFFFFFF, 0x00000000, false⟩,
  ⟨HF_OBW_CTRL, 32, 16, .rw, .staged, 0xB73F003F, 0x00000000, false⟩,
  ⟨HF_OBW_PCI_LO, 32, 16, .rw, .staged, 0xFFF00000, 0x00000000, false⟩,
  ⟨HF_OBW_PCI_HI, 32, 16, .rw, .staged, 0xFFFFFFFF, 0x00000000, false⟩,
  ⟨HF_EQ_PRESET, 1, 4, .rw, .staged, 0x00000FFF, 0x00000000, false⟩,
  ⟨HF_MARGIN_CTRL, 1, 4, .rw, .live, 0xFFFFFFFF, 0x00000000, false⟩,
  ⟨HF_ERR_INJECT, 1, 4, .wo, .live, 0x0000000F, 0x00000000, false⟩,
  ⟨HF_SNAP_LINK, 1, 4, .ro, .none, 0xFFFFFFFF, 0x00000000, false⟩,
  ⟨HF_SNAP_TLP, 1, 4, .ro, .none, 0xFFFFFFFF, 0x00000000, false⟩]

/-- Rows of the `HF` page table. -/
def rowsHF : List RegRow := rowsHF0

/-- Rows of the `NQE` page table, part 0. -/
def rowsNQE0 : List RegRow := [
  ⟨NQE_TENANCY, 1, 4, .rw, .staged, 0x001F0001, 0x00000000, false⟩,
  ⟨NQE_QP_FREE, 1, 4, .ro, .none, 0xFFFFFFFF, 0x00001FC0, false⟩,
  ⟨NQE_VEC_FREE, 1, 4, .ro, .none, 0xFFFFFFFF, 0x000007E0, false⟩,
  ⟨NQE_WB_HELD, 1, 4, .ro, .none, 0xFFFFFFFF, 0x00000000, false⟩,
  ⟨NQE_FLUSH_DRAIN, 1, 4, .rw, .live, 0x00000001, 0x00000000, false⟩,
  ⟨NQE_PS_STATUS, 1, 4, .ro, .none, 0xFFFFFFFF, 0x00000000, false⟩,
  ⟨NQE_CMD_COUNT, 1, 4, .rc, .none, 0xFFFFFFFF, 0x00000000, false⟩,
  ⟨NQE_FN_SHARE, 32, 4, .rw, .staged, 0xFFFFFFFF, 0x10101010, false⟩,
  ⟨NQE_FETCH_BURST, 1, 4, .rw, .staged, 0x0000007F, 0x00000008, false⟩,
  ⟨NQE_ERR_INJECT, 1, 4, .wo, .live, 0x0000000F, 0x00000000, false⟩,
  ⟨NQE_SNAP_OUTSTANDING, 1, 4, .ro, .none, 0xFFFFFFFF, 0x00000000, false⟩,
  ⟨NQE_SNAP_HELD, 1, 4, .ro, .none, 0xFFFFFFFF, 0x00000000, false⟩]

/-- Rows of the `NQE` page table. -/
def rowsNQE : List RegRow := rowsNQE0

/-- Rows of the `FCH` page table, part 0. -/
def rowsFCH0 : List RegRow := [
  ⟨FCH_IF_CFG, 1, 4, .rw, .staged, 0x0003070F, 0x00000008, false⟩,
  ⟨FCH_IF_STATUS, 1, 4, .ro, .none, 0xFFFFFFFF, 0x00000000, false⟩,
  ⟨FCH_DIE_PRESENT, 1, 4, .ro, .none, 0xFFFFFFFF, 0x00000000, false⟩,
  ⟨FCH_DIE_ENABLE, 1, 4, .rw, .staged, 0x0000FFFF, 0x00000000, false⟩,
  ⟨FCH_DIE_RETIRED, 1, 4, .ro, .none, 0xFFFFFFFF, 0x00000000, true⟩,
  ⟨FCH_DIE_TYPE, 1, 4, .rw, .staged, 0xFFFFFFFF, 0x00000000, false⟩,
  ⟨FCH_SCHED_CTRL, 1, 4, .rw, .staged, 0x00001FFF, 0x00000904, false⟩,
  ⟨FCH_SCHED_MIN_RUN, 1, 4, .rw, .staged, 0xFFFFFFFF, 0x01F400C8, false⟩,
  ⟨FCH_READ_AGE, 1, 4, .rw, .staged, 0x0000FFFF, 0x000007D0, false⟩,
  ⟨FCH_QUEUE_STATUS, 1, 4, .ro, .none, 0xFFFFFFFF, 0x00000000, false⟩,
  ⟨FCH_BUSY_MASK, 1, 4, .ro, .none, 0xFFFFFFFF, 0x00000000, false⟩,
  ⟨FCH_LADDER_HARD, 1, 4, .rc, .none, 0xFFFFFFFF, 0x00000000, false⟩,
  ⟨FCH_LADDER_RETRY, 1, 4, .rc, .none, 0xFFFFFFFF, 0x00000000, false⟩,
  ⟨FCH_LADDER_SOFT, 1, 4, .rc, .none, 0xFFFFFFFF, 0x00000000, false⟩,
  ⟨FCH_LADDER_RECON, 1, 4, .rc, .none, 0xFFFFFFFF, 0x00000000, false⟩,
  ⟨FCH_RETIRE_REQ, 1, 4, .wo, .live, 0x8000000F, 0x00000000, false⟩,
  ⟨FCH_DIE_EVT, 16, 4, .ro, .none, 0xFFFFFFFF, 0x00000000, false⟩,
  ⟨FCH_DT_ID0, 4, 32, .rw, .staged, 0xFFFFFFFF, 0x00000000, false⟩,
  ⟨FCH_DT_ID1, 4, 32, .rw, .staged, 0x8000FFFF, 0x00000000, false⟩,
  ⟨FCH_DT_GEOM, 4, 32, .rw, .staged, 0xFFFFFFF7, 0x00000000, false⟩,
  ⟨FCH_DT_CODE, 4, 32, .rw, .staged, 0xFFFF000F, 0x00000000, false⟩,
  ⟨FCH_DT_TR, 4, 32, .rw, .staged, 0xFFFFFFFF, 0x00000000, false⟩,
  ⟨FCH_DT_TPROG, 4, 32, .rw, .staged, 0xFFFFFFFF, 0x00000000, false⟩,
  ⟨FCH_DT_TBERS, 4, 32, .rw, .staged, 0xFFFFFFFF, 0x00000000, false⟩]

/-- Rows of the `FCH` page table, part 1. -/
def rowsFCH1 : List RegRow := [
  ⟨FCH_DT_TRST, 4, 32, .rw, .staged, 0x0000FFFF, 0x00000000, false⟩,
  ⟨FCH_RETRY_CTRL, 1, 4, .rw, .staged, 0x000FFF07, 0x00020204, false⟩,
  ⟨FCH_LADDER_CTRL, 1, 4, .rw, .staged, 0xFFFF7F3F, 0x00007814, false⟩,
  ⟨FCH_SOFT_DELTA, 1, 4, .rw, .staged, 0xFFFFFFFF, 0x0C0C0C0C, false⟩,
  ⟨FCH_RETRY_FEAT, 1, 4, .rw, .staged, 0xFFFFFFFF, 0x00000000, false⟩,
  ⟨FCH_TRAIN_CTRL, 1, 4, .rw, .staged, 0x00FFFFFF, 0x00190064, false⟩,
  ⟨FCH_ERR_INJECT, 1, 4, .wo, .live, 0x00000F0F, 0x00000000, false⟩,
  ⟨FCH_DIE_EFAIL_MAX, 1, 4, .rw, .staged, 0x000000FF, 0x00000008, false⟩,
  ⟨FCH_RETRY_SET, 128, 4, .rw, .staged, 0xFFFFFFFF, 0x00000000, false⟩,
  ⟨FCH_SNAP_QUEUE, 1, 4, .ro, .none, 0xFFFFFFFF, 0x00000000, false⟩,
  ⟨FCH_SNAP_BUSY, 1, 4, .ro, .none, 0xFFFFFFFF, 0x00000000, false⟩,
  ⟨FCH_SNAP_LADDER, 1, 4, .ro, .none, 0xFFFFFFFF, 0x00000000, false⟩]

/-- Rows of the `FCH` page table. -/
def rowsFCH : List RegRow := rowsFCH0 ++ rowsFCH1

/-- Rows of the `LDS` page table, part 0. -/
def rowsLDS0 : List RegRow := [
  ⟨LDS_DEC_ENABLE, 1, 4, .rw, .staged, 0x000000FF, 0x000000FF, false⟩,
  ⟨LDS_DEC_RETIRED, 1, 4, .ro, .none, 0xFFFFFFFF, 0x00000000, true⟩,
  ⟨LDS_DEC_BUSY, 1, 4, .ro, .none, 0xFFFFFFFF, 0x00000000, false⟩,
  ⟨LDS_QUEUE_DEPTH, 1, 4, .ro, .none, 0xFFFFFFFF, 0x00000000, false⟩,
  ⟨LDS_SOFT_OK, 1, 4, .rc, .none, 0xFFFFFFFF, 0x00000000, false⟩,
  ⟨LDS_SOFT_FAIL, 1, 4, .rc, .none, 0xFFFFFFFF, 0x00000000, false⟩,
  ⟨LDS_HARD_MODE_JOBS, 1, 4, .rc, .none, 0xFFFFFFFF, 0x00000000, false⟩,
  ⟨LDS_TIE_COUNT, 1, 4, .rc, .none, 0xFFFFFFFF, 0x00000000, false⟩,
  ⟨LDS_SOFT_ITER_MAX, 1, 4, .rw, .staged, 0x0000003F, 0x00000020, false⟩,
  ⟨LDS_SELF_CHECK, 1, 4, .rw, .staged, 0x0000FFFF, 0x00000064, false⟩,
  ⟨LDS_ERR_INJECT, 1, 4, .wo, .live, 0x0000007F, 0x00000000, false⟩,
  ⟨LDS_SNAP_QUEUE, 1, 4, .ro, .none, 0xFFFFFFFF, 0x00000000, false⟩,
  ⟨LDS_SNAP_BUSY, 1, 4, .ro, .none, 0xFFFFFFFF, 0x00000000, false⟩]

/-- Rows of the `LDS` page table. -/
def rowsLDS : List RegRow := rowsLDS0

/-- Rows of the `MAP` page table, part 0. -/
def rowsMAP0 : List RegRow := [
  ⟨MAP_MAP_CFG, 1, 4, .rw, .staged, 0x00000031, 0x00000001, false⟩,
  ⟨MAP_CACHE_SIZE, 1, 4, .rw, .staged, 0x000000FF, 0x0000000F, false⟩,
  ⟨MAP_WB_SIZE, 1, 4, .rw, .staged, 0x00000007, 0x00000007, false⟩,
  ⟨MAP_OP_SHARE, 1, 4, .rw, .staged, 0x000000FF, 0x00000020, false⟩,
  ⟨MAP_SPARE_SHARE, 1, 4, .rw, .staged, 0x0000003F, 0x00000005, false⟩,
  ⟨MAP_RESERVE_EXTRA, 1, 4, .rw, .staged, 0x0000003F, 0x00000006, false⟩,
  ⟨MAP_MIGRATE_START, 1, 4, .rw, .staged, 0x0000007F, 0x00000032, false⟩,
  ⟨MAP_FILL, 1, 4, .ro, .none, 0xFFFFFFFF, 0x00000000, false⟩,
  ⟨MAP_OASIS_BLOCKS, 1, 4, .ro, .none, 0xFFFFFFFF, 0x00000000, false⟩,
  ⟨MAP_FLOOR_BLOCKS, 1, 4, .ro, .none, 0xFFFFFFFF, 0x00000000, false⟩,
  ⟨MAP_FREE_BLOCKS, 1, 4, .ro, .none, 0xFFFFFFFF, 0x00000000, false⟩,
  ⟨MAP_RESERVE_BLOCKS, 1, 4, .ro, .none, 0xFFFFFFFF, 0x00000000, false⟩,
  ⟨MAP_SPARE_LEFT, 1, 4, .ro, .none, 0xFFFFFFFF, 0x00000000, false⟩,
  ⟨MAP_SPARE_INITIAL, 1, 4, .ro, .none, 0xFFFFFFFF, 0x00000000, false⟩,
  ⟨MAP_MEDIA_STATE, 1, 4, .ro, .none, 0xFFFFFFFF, 0x00000000, false⟩,
  ⟨MAP_JSEQ_ISSUED, 1, 4, .ro, .none, 0xFFFFFFFF, 0x00000000, false⟩,
  ⟨MAP_JSEQ_DURABLE, 1, 4, .ro, .none, 0xFFFFFFFF, 0x00000000, false⟩,
  ⟨MAP_JSEQ_TAIL, 1, 4, .ro, .none, 0xFFFFFFFF, 0x00000000, false⟩,
  ⟨MAP_HMW_STATUS, 1, 4, .ro, .none, 0xFFFFFFFF, 0x00000000, false⟩,
  ⟨MAP_HMW_CHECK_FAIL, 1, 4, .rc, .none, 0xFFFFFFFF, 0x00000000, false⟩,
  ⟨MAP_BST_SEL, 1, 4, .rw, .live, 0x03FF3FFF, 0x00000000, false⟩,
  ⟨MAP_BST_W0, 4, 4, .ro, .none, 0xFFFFFFFF, 0x00000000, false⟩,
  ⟨MAP_GC_COUNT, 1, 4, .rc, .none, 0xFFFFFFFF, 0x00000000, false⟩,
  ⟨MAP_REDIRECT_DROP, 1, 4, .rc, .none, 0xFFFFFFFF, 0x00000000, false⟩]

/-- Rows of the `MAP` page table, part 1. -/
def rowsMAP1 : List RegRow := [
  ⟨MAP_ERASE_REFUSED, 1, 4, .rc, .none, 0xFFFFFFFF, 0x00000000, false⟩,
  ⟨MAP_WL_DELTA, 1, 4, .rw, .staged, 0x0000FFFF, 0x00000100, false⟩,
  ⟨MAP_RETIRE_PE_1, 1, 4, .rw, .staged, 0x000FFFFF, 0x000186A0, false⟩,
  ⟨MAP_RETIRE_PE_2, 1, 4, .rw, .staged, 0x000FFFFF, 0x00002710, false⟩,
  ⟨MAP_RETIRE_PE_3, 1, 4, .rw, .staged, 0x000FFFFF, 0x00001388, false⟩,
  ⟨MAP_RETIRE_PE_4, 1, 4, .rw, .staged, 0x000FFFFF, 0x000005DC, false⟩,
  ⟨MAP_RELOC_RETRY, 1, 4, .rw, .staged, 0x0000000F, 0x00000004, false⟩,
  ⟨MAP_JOURNAL_HIGH, 1, 4, .rw, .staged, 0x0000007F, 0x00000050, false⟩,
  ⟨MAP_ERR_INJECT, 1, 4, .wo, .live, 0x0000000F, 0x00000000, false⟩,
  ⟨MAP_SNAP_FILL, 1, 4, .ro, .none, 0xFFFFFFFF, 0x00000000, false⟩,
  ⟨MAP_SNAP_FREE, 1, 4, .ro, .none, 0xFFFFFFFF, 0x00000000, false⟩,
  ⟨MAP_SNAP_JSEQ, 1, 4, .ro, .none, 0xFFFFFFFF, 0x00000000, false⟩,
  ⟨MAP_SNAP_MEDIA, 1, 4, .ro, .none, 0xFFFFFFFF, 0x00000000, false⟩]

/-- Rows of the `MAP` page table. -/
def rowsMAP : List RegRow := rowsMAP0 ++ rowsMAP1

/-- Rows of the `STR` page table, part 0. -/
def rowsSTR0 : List RegRow := [
  ⟨STR_LAYOUT, 1, 4, .rw, .staged, 0x0000013F, 0x00000110, false⟩,
  ⟨STR_SHARE, 1, 4, .rw, .staged, 0x0000FFFF, 0x00000A19, false⟩,
  ⟨STR_CLOSE_AGE, 1, 4, .rw, .staged, 0x0000FFFF, 0x00000032, false⟩,
  ⟨STR_OPEN_MAX, 1, 4, .rw, .staged, 0x000000FF, 0x00000040, false⟩,
  ⟨STR_SPARE_RSV, 1, 4, .rw, .staged, 0x0000003F, 0x00000008, false⟩,
  ⟨STR_REQUEST, 1, 4, .rw, .staged, 0xC00003FF, 0x00000000, false⟩,
  ⟨STR_STATE, 1, 4, .ro, .none, 0xFFFFFFFF, 0x00000000, false⟩,
  ⟨STR_RESYNC_LEFT, 1, 4, .ro, .none, 0xFFFFFFFF, 0x00000000, false⟩,
  ⟨STR_SETS_OPEN, 1, 4, .ro, .none, 0xFFFFFFFF, 0x00000000, false⟩,
  ⟨STR_STRIPES_OPEN, 1, 4, .ro, .none, 0xFFFFFFFF, 0x00000000, false⟩,
  ⟨STR_RECON_COUNT, 1, 4, .rc, .none, 0xFFFFFFFF, 0x00000000, false⟩,
  ⟨STR_RECON_FAIL, 1, 4, .rc, .none, 0xFFFFFFFF, 0x00000000, false⟩,
  ⟨STR_UNRECOVERABLE, 1, 4, .ro, .none, 0xFFFFFFFF, 0x00000000, false⟩,
  ⟨STR_SSEQ_ISSUED, 1, 4, .ro, .none, 0xFFFFFFFF, 0x00000000, false⟩,
  ⟨STR_SSEQ_DURABLE, 1, 4, .ro, .none, 0xFFFFFFFF, 0x00000000, false⟩,
  ⟨STR_SSEQ_TAIL, 1, 4, .ro, .none, 0xFFFFFFFF, 0x00000000, false⟩,
  ⟨STR_RB_SEL, 1, 4, .rw, .live, 0x000003FF, 0x00000000, false⟩,
  ⟨STR_RB_STATE, 1, 4, .ro, .none, 0xFFFFFFFF, 0x00000000, false⟩,
  ⟨STR_RB_DONE, 1, 4, .ro, .none, 0xFFFFFFFF, 0x00000000, false⟩,
  ⟨STR_RB_TOTAL, 1, 4, .ro, .none, 0xFFFFFFFF, 0x00000000, false⟩,
  ⟨STR_HOT_SPARE, 32, 4, .rw, .staged, 0xFFFFFFFF, 0x00000000, false⟩,
  ⟨STR_SEED_LO, 1, 4, .rw, .staged, 0xFFFFFFFF, 0x00000000, false⟩,
  ⟨STR_SEED_HI, 1, 4, .rw, .staged, 0xFFFFFFFF, 0x00000000, false⟩,
  ⟨STR_VERIFY_MODE, 1, 4, .rw, .staged, 0x00000003, 0x00000001, false⟩]

/-- Rows of the `STR` page table, part 1. -/
def rowsSTR1 : List RegRow := [
  ⟨STR_ERR_INJECT, 1, 4, .wo, .live, 0x0000000F, 0x00000000, false⟩,
  ⟨STR_SNAP_STATE, 1, 4, .ro, .none, 0xFFFFFFFF, 0x00000000, false⟩,
  ⟨STR_SNAP_RESYNC, 1, 4, .ro, .none, 0xFFFFFFFF, 0x00000000, false⟩,
  ⟨STR_SNAP_RB, 1, 4, .ro, .none, 0xFFFFFFFF, 0x00000000, false⟩]

/-- Rows of the `STR` page table. -/
def rowsSTR : List RegRow := rowsSTR0 ++ rowsSTR1

/-- Rows of the `PMU` page table, part 0. -/
def rowsPMU0 : List RegRow := [
  ⟨PMU_VTRIP, 1, 4, .rw, .staged, 0x00FF1FFF, 0x00640BB8, false⟩,
  ⟨PMU_RESTART_HOLD, 1, 4, .rw, .staged, 0x0000FFFF, 0x00000064, false⟩,
  ⟨PMU_FERRY_STATUS, 1, 4, .ro, .none, 0xFFFFFFFF, 0x00000000, true⟩,
  ⟨PMU_FERRY_TIME, 1, 4, .ro, .none, 0xFFFFFFFF, 0x00000000, true⟩,
  ⟨PMU_FERRY_VMIN, 1, 4, .ro, .none, 0xFFFFFFFF, 0x00000000, true⟩,
  ⟨PMU_FERRY_UNITS, 1, 4, .ro, .none, 0xFFFFFFFF, 0x00000000, true⟩,
  ⟨PMU_FERRY_COUNT, 1, 4, .ro, .none, 0xFFFFFFFF, 0x00000000, true⟩,
  ⟨PMU_FERRY_INJECT, 1, 4, .wo, .live, 0x0000000F, 0x00000000, false⟩,
  ⟨PMU_DOMAIN_ON, 1, 4, .ro, .none, 0xFFFFFFFF, 0x00000000, false⟩,
  ⟨PMU_DOMAIN_BUSY, 1, 4, .ro, .none, 0xFFFFFFFF, 0x00000000, false⟩,
  ⟨PMU_DOMAIN_OFF_REQ, 1, 4, .rw, .staged, 0x0FFFFFFF, 0x00000000, false⟩,
  ⟨PMU_WAKE, 1, 4, .ro, .none, 0xFFFFFFFF, 0x00000000, false⟩,
  ⟨PMU_SWITCHES, 1, 4, .rc, .none, 0xFFFFFFFF, 0x00000000, false⟩,
  ⟨PMU_ISO_STATE, 1, 4, .ro, .none, 0xFFFFFFFF, 0x0FFFFFFE, false⟩,
  ⟨PMU_ERR_INJECT, 1, 4, .wo, .live, 0x00001F0F, 0x00000000, false⟩,
  ⟨PMU_SNAP_ON, 1, 4, .ro, .none, 0xFFFFFFFF, 0x00000000, false⟩,
  ⟨PMU_SNAP_WAKE, 1, 4, .ro, .none, 0xFFFFFFFF, 0x00000000, false⟩]

/-- Rows of the `PMU` page table. -/
def rowsPMU : List RegRow := rowsPMU0

/-- Rows of the `DMC` page table, part 0. -/
def rowsDMC0 : List RegRow := [
  ⟨DMC_GEOM, 1, 4, .rw0, .staged, 0x00000333, 0x00000002, false⟩,
  ⟨DMC_SPARE, 1, 4, .rw0, .staged, 0x00000087, 0x00000000, false⟩,
  ⟨DMC_RANK_STATE, 1, 4, .ro, .none, 0xFFFFFFFF, 0x00000001, true⟩,
  ⟨DMC_MIG_PTR, 1, 4, .ro, .none, 0xFFFFFFFF, 0x00000000, false⟩,
  ⟨DMC_MIG_RATE, 1, 4, .rw, .staged, 0x000000FF, 0x00000040, false⟩,
  ⟨DMC_TEMP, 1, 4, .ro, .none, 0xFFFFFFFF, 0x00000000, false⟩,
  ⟨DMC_REF_COUNT, 1, 4, .rc, .none, 0xFFFFFFFF, 0x00000000, false⟩,
  ⟨DMC_ECC_CE, 1, 4, .ro, .none, 0xFFFFFFFF, 0x00000000, false⟩,
  ⟨DMC_ECC_UE, 1, 4, .ro, .none, 0xFFFFFFFF, 0x00000000, false⟩,
  ⟨DMC_UE_ADDR_LO, 1, 4, .ro, .none, 0xFFFFFFFF, 0x00000000, false⟩,
  ⟨DMC_UE_ADDR_HI, 1, 4, .ro, .none, 0xFFFFFFFF, 0x00000000, false⟩,
  ⟨DMC_RAW_WAITS, 1, 4, .rc, .none, 0xFFFFFFFF, 0x00000000, false⟩,
  ⟨DMC_MERGE_RMW, 1, 4, .rc, .none, 0xFFFFFFFF, 0x00000000, false⟩,
  ⟨DMC_QUEUE, 1, 4, .ro, .none, 0xFFFFFFFF, 0x00000000, false⟩,
  ⟨DMC_POISON_COUNT, 1, 4, .ro, .none, 0xFFFFFFFF, 0x00000000, false⟩,
  ⟨DMC_T_CORE, 1, 4, .rw0, .staged, 0x00FFFFFF, 0x00343434, false⟩,
  ⟨DMC_T_RAS_RFC, 1, 4, .rw0, .staged, 0x0FFF00FF, 0x01270066, false⟩,
  ⟨DMC_PAGE_POLICY, 1, 4, .rw, .staged, 0x00000033, 0x00000020, false⟩,
  ⟨DMC_MERGE_CTRL, 1, 4, .rw, .staged, 0x000000FF, 0x00000040, false⟩,
  ⟨DMC_FENCE, 1, 4, .rw0, .staged, 0x000003FF, 0x000000C0, false⟩,
  ⟨DMC_TRAIN_CTRL, 1, 4, .rw, .staged, 0x0000FFFF, 0x00000064, false⟩,
  ⟨DMC_ERR_INJECT, 1, 4, .wo, .live, 0x0000001F, 0x00000000, false⟩,
  ⟨DMC_SNAP_QUEUE, 1, 4, .ro, .none, 0xFFFFFFFF, 0x00000000, false⟩,
  ⟨DMC_SNAP_RANK, 1, 4, .ro, .none, 0xFFFFFFFF, 0x00000000, false⟩]

/-- Rows of the `DMC` page table, part 1. -/
def rowsDMC1 : List RegRow := [
  ⟨DMC_SNAP_MIG, 1, 4, .ro, .none, 0xFFFFFFFF, 0x00000000, false⟩]

/-- Rows of the `DMC` page table. -/
def rowsDMC : List RegRow := rowsDMC0 ++ rowsDMC1

/-- Rows of the `LND` page table, part 0. -/
def rowsLND0 : List RegRow := [
  ⟨LND_RETAIN, 1, 4, .rw, .staged, 0xFFFFFFFF, 0x00000000, false⟩,
  ⟨LND_MERGE_CTRL, 1, 4, .rw, .staged, 0x000000FF, 0x00000010, false⟩,
  ⟨LND_ECC_CE, 1, 4, .ro, .none, 0xFFFFFFFF, 0x00000000, false⟩,
  ⟨LND_ECC_UE, 1, 4, .ro, .none, 0xFFFFFFFF, 0x00000000, false⟩,
  ⟨LND_UE_ADDR, 1, 4, .ro, .none, 0xFFFFFFFF, 0x00000000, false⟩,
  ⟨LND_BANK_WAIT, 1, 4, .rc, .none, 0xFFFFFFFF, 0x00000000, false⟩,
  ⟨LND_ERR_INJECT, 1, 4, .wo, .live, 0x00001F0F, 0x00000000, false⟩,
  ⟨LND_SNAP_CE, 1, 4, .ro, .none, 0xFFFFFFFF, 0x00000000, false⟩]

/-- Rows of the `LND` page table. -/
def rowsLND : List RegRow := rowsLND0

/-- Rows of the `MRM` page table, part 0. -/
def rowsMRM0 : List RegRow := [
  ⟨MRM_DIE_STATE, 1, 4, .ro, .none, 0xFFFFFFFF, 0x00000011, true⟩,
  ⟨MRM_FRAMES, 1, 4, .ro, .none, 0xFFFFFFFF, 0x00000170, true⟩,
  ⟨MRM_WEAR_CREDIT, 1, 4, .ro, .none, 0xFFFFFFFF, 0x0007B0C0, false⟩,
  ⟨MRM_PASS_MAX, 1, 4, .ro, .none, 0xFFFFFFFF, 0x00000000, true⟩,
  ⟨MRM_PASS_MIN, 1, 4, .ro, .none, 0xFFFFFFFF, 0x00000000, true⟩,
  ⟨MRM_SWAPS, 1, 4, .rc, .none, 0xFFFFFFFF, 0x00000000, false⟩,
  ⟨MRM_ECC_CE, 1, 4, .ro, .none, 0xFFFFFFFF, 0x00000000, false⟩,
  ⟨MRM_ECC_UE, 1, 4, .ro, .none, 0xFFFFFFFF, 0x00000000, false⟩,
  ⟨MRM_UE_ADDR, 1, 4, .ro, .none, 0xFFFFFFFF, 0x00000000, false⟩,
  ⟨MRM_MIRROR_READS, 1, 4, .rc, .none, 0xFFFFFFFF, 0x00000000, false⟩,
  ⟨MRM_WRITE_KIB, 1, 4, .rc, .none, 0xFFFFFFFF, 0x00000000, false⟩,
  ⟨MRM_MERGE_CTRL, 1, 4, .rw, .staged, 0x000000FF, 0x00000040, false⟩,
  ⟨MRM_ERR_INJECT, 1, 4, .wo, .live, 0x0000001F, 0x00000000, false⟩,
  ⟨MRM_SNAP_CREDIT, 1, 4, .ro, .none, 0xFFFFFFFF, 0x00000000, false⟩,
  ⟨MRM_SNAP_FRAMES, 1, 4, .ro, .none, 0xFFFFFFFF, 0x00000000, false⟩]

/-- Rows of the `MRM` page table. -/
def rowsMRM : List RegRow := rowsMRM0

/-- Rows of the `MEC` page table, part 0. -/
def rowsMEC0 : List RegRow := [
  ⟨MEC_SCRUB_DRAM, 1, 4, .rw, .staged, 0x000000FF, 0x00000018, false⟩,
  ⟨MEC_SCRUB_SRAM, 1, 4, .rw, .staged, 0x00000FFF, 0x0000003C, false⟩,
  ⟨MEC_SCRUB_MRAM, 1, 4, .rw, .staged, 0x000000FF, 0x00000018, false⟩,
  ⟨MEC_CS_RETAIN, 1, 4, .rw, .staged, 0x0000003F, 0x00000000, false⟩,
  ⟨MEC_PASS_DONE, 1, 4, .rc, .none, 0xFFFFFFFF, 0x00000000, false⟩,
  ⟨MEC_SCRUB_CE, 1, 4, .rc, .none, 0xFFFFFFFF, 0x00000000, false⟩,
  ⟨MEC_SCRUB_UE, 1, 4, .rc, .none, 0xFFFFFFFF, 0x00000000, false⟩,
  ⟨MEC_SNAP_PASS, 1, 4, .ro, .none, 0xFFFFFFFF, 0x00000000, false⟩]

/-- Rows of the `MEC` page table. -/
def rowsMEC : List RegRow := rowsMEC0

/-- Rows of the `NCL` page table, part 0. -/
def rowsNCL0 : List RegRow := [
  ⟨NCL_CORE_ENABLE, 1, 4, .rw, .staged, 0x000000FF, 0x000000FF, false⟩,
  ⟨NCL_CORE_RETIRED, 1, 4, .ro, .none, 0xFFFFFFFF, 0x00000000, true⟩,
  ⟨NCL_CORE_STATE, 1, 4, .ro, .none, 0xFFFFFFFF, 0x0000FFFF, false⟩,
  ⟨NCL_CLK_REQ, 1, 4, .rw, .staged, 0x0000001F, 0x00000000, false⟩,
  ⟨NCL_CLK_NOW, 1, 4, .ro, .none, 0xFFFFFFFF, 0x00000006, false⟩,
  ⟨NCL_LOAD_SRC_LO, 1, 4, .rw, .live, 0xFFFFFFFF, 0x00000000, false⟩,
  ⟨NCL_LOAD_SRC_HI, 1, 4, .rw, .live, 0x0000FFFF, 0x00000000, false⟩,
  ⟨NCL_LOAD_CTRL, 1, 4, .wo, .live, 0x0000FF03, 0x00000000, false⟩,
  ⟨NCL_LOAD_STATUS, 1, 4, .ro, .none, 0xFFFFFFFF, 0x00000000, false⟩,
  ⟨NCL_TABLE_GEN, 1, 4, .ro, .none, 0xFFFFFFFF, 0x00000000, false⟩,
  ⟨NCL_ECC_CE, 1, 4, .ro, .none, 0xFFFFFFFF, 0x00000000, false⟩,
  ⟨NCL_ECC_UE, 1, 4, .ro, .none, 0xFFFFFFFF, 0x00000000, false⟩,
  ⟨NCL_UE_ADDR, 1, 4, .ro, .none, 0xFFFFFFFF, 0x00000000, false⟩,
  ⟨NCL_TRAP_COUNT, 1, 4, .rc, .none, 0xFFFFFFFF, 0x00000000, false⟩,
  ⟨NCL_DOUBLE_TRAP, 1, 4, .rc, .none, 0xFFFFFFFF, 0x00000000, false⟩,
  ⟨NCL_CORE_RESET, 1, 4, .wo, .live, 0x000000FF, 0x00000000, false⟩,
  ⟨NCL_CORE_RETIRE, 1, 4, .wo, .live, 0x000000FF, 0x00000000, false⟩,
  ⟨NCL_TCM_CE, 8, 4, .ro, .none, 0xFFFFFFFF, 0x00000000, false⟩,
  ⟨NCL_CS_MERGE, 1, 4, .rw, .staged, 0x000000FF, 0x00000010, false⟩,
  ⟨NCL_ERR_INJECT, 1, 4, .wo, .live, 0x0000007F, 0x00000000, false⟩,
  ⟨NCL_SNAP_STATE, 1, 4, .ro, .none, 0xFFFFFFFF, 0x00000000, false⟩,
  ⟨NCL_SNAP_CLK, 1, 4, .ro, .none, 0xFFFFFFFF, 0x00000000, false⟩,
  ⟨NCL_SNAP_TRAPS, 1, 4, .ro, .none, 0xFFFFFFFF, 0x00000000, false⟩]

/-- Rows of the `NCL` page table. -/
def rowsNCL : List RegRow := rowsNCL0

/-- Rows of the `DIS` page table, part 0. -/
def rowsDIS0 : List RegRow := [
  ⟨DIS_TICK, 1, 4, .rw, .staged, 0x00003FFF, 0x000003E8, false⟩,
  ⟨DIS_HIST_UNIT, 1, 4, .rw, .staged, 0x0000FFFF, 0x00000064, false⟩,
  ⟨DIS_FREE_SLOTS, 1, 4, .ro, .none, 0xFFFFFFFF, 0x0000FDFF, false⟩,
  ⟨DIS_WI_SEL, 1, 4, .rw, .live, 0x0000FFFF, 0x00000000, false⟩,
  ⟨DIS_WI_W0, 1, 4, .rw, .live, 0x0000FFFF, 0x00000000, false⟩,
  ⟨DIS_WI_W0 + 4, 2, 4, .rw, .live, 0xFFFFFFFF, 0x00000000, false⟩,
  ⟨DIS_WI_W0 + 12, 1, 4, .rw, .live, 0x3FFF3FFF, 0x00000000, false⟩,
  ⟨DIS_WI_W0 + 16, 2, 4, .rw, .live, 0xFFFFFFFF, 0x00000000, false⟩,
  ⟨DIS_WI_W0 + 24, 1, 4, .rw, .live, 0x03FFFFFF, 0x00000000, false⟩,
  ⟨DIS_WI_W0 + 28, 1, 4, .rw, .live, 0x00000F3F, 0x00000000, false⟩,
  ⟨DIS_WI_OP, 1, 4, .wo, .live, 0x00000007, 0x00000000, false⟩,
  ⟨DIS_WI_STATUS, 1, 4, .ro, .none, 0xFFFFFFFF, 0x00000000, false⟩,
  ⟨DIS_FAIL_COUNT, 1, 4, .ro, .none, 0xFFFFFFFF, 0x00000000, false⟩,
  ⟨DIS_FAIL_NEXT, 1, 4, .rc, .none, 0xFFFFFFFF, 0x0000FFFF, false⟩,
  ⟨DIS_QSEL, 1, 4, .rw, .live, 0x0000007F, 0x00000000, false⟩,
  ⟨DIS_Q_DEPTH, 1, 4, .ro, .none, 0xFFFFFFFF, 0x00000000, false⟩,
  ⟨DIS_Q_MAXDEPTH, 1, 4, .rc, .none, 0xFFFFFFFF, 0x00000000, false⟩,
  ⟨DIS_Q_HIST, 8, 4, .ro, .none, 0xFFFFFFFF, 0x00000000, false⟩,
  ⟨DIS_HIST_CLEAR, 1, 4, .wo, .live, 0x00000001, 0x00000000, false⟩,
  ⟨DIS_CORE_SEL, 1, 4, .rw, .live, 0x0000003F, 0x00000000, false⟩,
  ⟨DIS_CORE_BUSY_LO, 1, 4, .ro, .none, 0xFFFFFFFF, 0x00000000, false⟩,
  ⟨DIS_CORE_BUSY_HI, 1, 4, .ro, .none, 0xFFFFFFFF, 0x00000000, false⟩,
  ⟨DIS_CORE_ITEMS, 1, 4, .ro, .none, 0xFFFFFFFF, 0x00000000, false⟩,
  ⟨DIS_CORE_PREEMPT, 1, 4, .ro, .none, 0xFFFFFFFF, 0x00000000, false⟩,
  ⟨DIS_CORE_ITEM, 1, 4, .ro, .none, 0xFFFFFFFF, 0x00000000, false⟩,
  ⟨DIS_TIE_COUNT, 1, 4, .rc, .none, 0xFFFFFFFF, 0x00000000, false⟩,
  ⟨DIS_LATE_COUNT, 1, 4, .rc, .none, 0xFFFFFFFF, 0x00000000, false⟩,
  ⟨DIS_USER_DROP, 1, 4, .rc, .none, 0xFFFFFFFF, 0x00000000, false⟩,
  ⟨DIS_EVENT_MISS, 1, 4, .rc, .none, 0xFFFFFFFF, 0x00000000, false⟩]

/-- Rows of the `DIS` page table, part 1. -/
def rowsDIS1 : List RegRow := [
  ⟨DIS_SBANK_SEL, 1, 4, .rw, .live, 0x000007FF, 0x00000000, false⟩,
  ⟨DIS_SBANK_DATA, 1, 4, .ro, .none, 0xFFFFFFFF, 0x00000000, false⟩,
  ⟨DIS_CTX_AREA, 6, 8, .rw, .staged, 0xFFFF01FF, 0x00000000, false⟩,
  ⟨DIS_ERR_INJECT, 1, 4, .wo, .live, 0x0000007F, 0x00000000, false⟩,
  ⟨DIS_SNAP_DEPTH, 6, 4, .ro, .none, 0xFFFFFFFF, 0x00000000, false⟩,
  ⟨DIS_SNAP_RUN, 6, 4, .ro, .none, 0xFFFFFFFF, 0x00000000, false⟩,
  ⟨DIS_SNAP_PRE, 6, 4, .ro, .none, 0xFFFFFFFF, 0x00000000, false⟩,
  ⟨DIS_SNAP_FREE, 1, 4, .ro, .none, 0xFFFFFFFF, 0x00000000, false⟩]

/-- Rows of the `DIS` page table. -/
def rowsDIS : List RegRow := rowsDIS0 ++ rowsDIS1

/-- Rows of the `CVN` page table, part 0. -/
def rowsCVN0 : List RegRow := [
  ⟨CVN_PATH_CTRL, 1, 4, .rw, .staged, 0x00000007, 0x00000007, false⟩,
  ⟨CVN_SUSP_MARGIN, 1, 4, .rw, .staged, 0x0000000F, 0x00000002, false⟩,
  ⟨CVN_CTX_BASE, 1, 4, .rw, .staged, 0x000000FF, 0x000000F0, false⟩,
  ⟨CVN_SAVE_BASE, 1, 4, .rw, .staged, 0x0FFFFFFF, 0x00000000, false⟩,
  ⟨CVN_ACTIVE, 1, 4, .ro, .none, 0xFFFFFFFF, 0x00000000, false⟩,
  ⟨CVN_JOBS_DONE, 1, 4, .rc, .none, 0xFFFFFFFF, 0x00000000, false⟩,
  ⟨CVN_JOBS_FAILED, 1, 4, .rc, .none, 0xFFFFFFFF, 0x00000000, false⟩,
  ⟨CVN_SUSP_COUNT, 1, 4, .rc, .none, 0xFFFFFFFF, 0x00000000, false⟩,
  ⟨CVN_TIE_COUNT, 1, 4, .rc, .none, 0xFFFFFFFF, 0x00000000, false⟩,
  ⟨CVN_BYTES_IN, 1, 4, .rc, .none, 0xFFFFFFFF, 0x00000000, false⟩,
  ⟨CVN_BUSY, 1, 4, .rc, .none, 0xFFFFFFFF, 0x00000000, false⟩,
  ⟨CVN_RETIRE, 1, 4, .wo, .live, 0x00000001, 0x00000000, false⟩,
  ⟨CVN_CTX_SEL, 1, 4, .rw, .live, 0x000000FF, 0x00000000, false⟩,
  ⟨CVN_CTX_STATE, 1, 4, .ro, .none, 0xFFFFFFFF, 0x00000000, false⟩,
  ⟨CVN_RING0_CFG, 1, 4, .rw, .staged, 0x00000F00, 0x00000C00, false⟩,
  ⟨CVN_RING0_CTX_RANGE, 1, 4, .rw, .staged, 0x0001FFFF, 0x00000400, false⟩,
  ⟨CVN_RING1_CFG, 1, 4, .rw, .staged, 0x00000F00, 0x00000A00, false⟩,
  ⟨CVN_RING1_CTX_RANGE, 1, 4, .rw, .staged, 0x0001FFFF, 0x00000404, false⟩,
  ⟨CVN_RING2_CFG, 1, 4, .rw, .staged, 0x00000F00, 0x00000600, false⟩,
  ⟨CVN_RING2_CTX_RANGE, 1, 4, .rw, .staged, 0x0001FFFF, 0x00000808, false⟩,
  ⟨CVN_RING_BASE_LO, 5, 32, .rw, .staged, 0xFFFFFFC0, 0x00000000, false⟩,
  ⟨CVN_RING_BASE_HI, 5, 32, .rw, .staged, 0x0000FFFF, 0x00000000, false⟩,
  ⟨CVN_RING_CFG, 5, 32, .rw, .staged, 0x80000F0F, 0x00000400, false⟩,
  ⟨CVN_RING_OWNER, 5, 32, .rw, .staged, 0xFFC0FFFF, 0x00000000, false⟩]

/-- Rows of the `CVN` page table, part 1. -/
def rowsCVN1 : List RegRow := [
  ⟨CVN_RING_CTX_RANGE, 5, 32, .rw, .staged, 0x0001FFFF, 0x00000000, false⟩,
  ⟨CVN_RING_TAIL, 5, 32, .rw, .live, 0x00001FFF, 0x00000000, false⟩,
  ⟨CVN_RING_HEAD, 5, 32, .ro, .none, 0xFFFFFFFF, 0x00000000, false⟩,
  ⟨CVN_RING_CPL_HEAD, 5, 32, .rw, .live, 0x00001FFF, 0x00000000, false⟩,
  ⟨CVN_ERR_INJECT, 1, 4, .wo, .live, 0x0000000F, 0x00000000, false⟩,
  ⟨CVN_SNAP_ACTIVE, 1, 4, .ro, .none, 0xFFFFFFFF, 0x00000000, false⟩,
  ⟨CVN_SNAP_BUSY, 1, 4, .ro, .none, 0xFFFFFFFF, 0x00000000, false⟩,
  ⟨CVN_SNAP_WAIT, 1, 4, .ro, .none, 0xFFFFFFFF, 0x00000000, false⟩]

/-- Rows of the `CVN` page table. -/
def rowsCVN : List RegRow := rowsCVN0 ++ rowsCVN1

/-- Rows of the `MTE` page table, part 0. -/
def rowsMTE0 : List RegRow := [
  ⟨MTE_PART_RANGE0, 1, 8, .rw, .staged, 0x03FF07FF, 0x00000100, false⟩,
  ⟨MTE_PART_RANGE1, 1, 8, .rw, .staged, 0x03FF07FF, 0x01000040, false⟩,
  ⟨MTE_PART_RANGE2, 1, 8, .rw, .staged, 0x03FF07FF, 0x01400080, false⟩,
  ⟨MTE_PART_RANGE3, 1, 8, .rw, .staged, 0x03FF07FF, 0x01C00100, false⟩,
  ⟨MTE_PART_RANGE4, 12, 8, .rw, .staged, 0x03FF07FF, 0x00000000, false⟩,
  ⟨MTE_PART_CFG0, 1, 8, .rw, .staged, 0xF0FFFFC0, 0x90400000, false⟩,
  ⟨MTE_PART_CFG1, 1, 8, .rw, .staged, 0xF0FFFFC0, 0xA0400000, false⟩,
  ⟨MTE_PART_CFG2, 1, 8, .rw, .staged, 0xF0FFFFC0, 0xB0400000, false⟩,
  ⟨MTE_PART_CFG3, 1, 8, .rw, .staged, 0xF0FFFFC0, 0xC0400000, false⟩,
  ⟨MTE_PART_CFG4, 12, 8, .rw, .staged, 0xF0FFFFC0, 0x00000000, false⟩,
  ⟨MTE_SHADOW_BASE, 1, 4, .rw, .staged, 0x03FFFFFF, 0x00000000, false⟩,
  ⟨MTE_SWEEP, 1, 4, .rw, .staged, 0x0000FFFF, 0x0000000A, false⟩,
  ⟨MTE_LOOKUPS, 1, 4, .rc, .none, 0xFFFFFFFF, 0x00000000, false⟩,
  ⟨MTE_HITS, 1, 4, .rc, .none, 0xFFFFFFFF, 0x00000000, false⟩,
  ⟨MTE_MULTI_COUNT, 1, 4, .rc, .none, 0xFFFFFFFF, 0x00000000, false⟩,
  ⟨MTE_UPDATES, 1, 4, .rc, .none, 0xFFFFFFFF, 0x00000000, false⟩,
  ⟨MTE_REPAIRS, 1, 4, .rc, .none, 0xFFFFFFFF, 0x00000000, false⟩,
  ⟨MTE_PORT_WAIT, 1, 4, .rc, .none, 0xFFFFFFFF, 0x00000000, false⟩,
  ⟨MTE_VALID_COUNT, 1, 4, .ro, .none, 0xFFFFFFFF, 0x00000000, false⟩,
  ⟨MTE_VALUE0, 16, 64, .rw, .live, 0xFFFFFFFF, 0x00000000, false⟩,
  ⟨MTE_VALUE1, 16, 64, .rw, .live, 0xFFFFFFFF, 0x00000000, false⟩,
  ⟨MTE_VALUE2, 16, 64, .rw, .live, 0xFFFFFFFF, 0x00000000, false⟩,
  ⟨MTE_VALUE3, 16, 64, .rw, .live, 0xFFFFFFFF, 0x00000000, false⟩,
  ⟨MTE_VALUE4, 16, 64, .rw, .live, 0xFFFFFFFF, 0x00000000, false⟩]

/-- Rows of the `MTE` page table, part 1. -/
def rowsMTE1 : List RegRow := [
  ⟨MTE_MASK0, 16, 64, .rw, .live, 0xFFFFFFFF, 0x00000000, false⟩,
  ⟨MTE_MASK1, 16, 64, .rw, .live, 0xFFFFFFFF, 0x00000000, false⟩,
  ⟨MTE_MASK2, 16, 64, .rw, .live, 0xFFFFFFFF, 0x00000000, false⟩,
  ⟨MTE_MASK3, 16, 64, .rw, .live, 0xFFFFFFFF, 0x00000000, false⟩,
  ⟨MTE_MASK4, 16, 64, .rw, .live, 0xFFFFFFFF, 0x00000000, false⟩,
  ⟨MTE_W_PRIO, 16, 64, .rw, .live, 0x0000FFFF, 0x00000000, false⟩,
  ⟨MTE_W_RESULT, 16, 64, .rw, .live, 0xFFFFFFFF, 0x00000000, false⟩,
  ⟨MTE_W_INDEX, 16, 64, .rw, .live, 0x0000FFFF, 0x00000000, false⟩,
  ⟨MTE_W_OP, 16, 64, .wo, .live, 0x00000007, 0x00000000, false⟩,
  ⟨MTE_WSTATUS, 16, 64, .ro, .none, 0xFFFFFFFF, 0x00000000, false⟩,
  ⟨MTE_ERR_INJECT, 1, 4, .wo, .live, 0xFFFF000F, 0x00000000, false⟩,
  ⟨MTE_SNAP_LOOKUPS, 1, 4, .ro, .none, 0xFFFFFFFF, 0x00000000, false⟩,
  ⟨MTE_SNAP_VALID, 1, 4, .ro, .none, 0xFFFFFFFF, 0x00000000, false⟩]

/-- Rows of the `MTE` page table. -/
def rowsMTE : List RegRow := rowsMTE0 ++ rowsMTE1

/-- Rows of the `DGE` page table, part 0. -/
def rowsDGE0 : List RegRow := [
  ⟨DGE_JOB_CFG, 1, 4, .rw, .live, 0x0000F3FF, 0x00000000, false⟩,
  ⟨DGE_KEY_SLOT, 1, 4, .rw, .live, 0x0000FFFF, 0x00000000, false⟩,
  ⟨DGE_SRC_LO, 1, 4, .rw, .live, 0xFFFFFFFF, 0x00000000, false⟩,
  ⟨DGE_SRC_HI, 1, 4, .rw, .live, 0x0000FFFF, 0x00000000, false⟩,
  ⟨DGE_LEN_LO, 1, 4, .rw, .live, 0xFFFFFFFF, 0x00000000, false⟩,
  ⟨DGE_LEN_HI, 1, 4, .rw, .live, 0xFFFFFFFF, 0x00000000, false⟩,
  ⟨DGE_XOF_LEN, 1, 4, .rw, .live, 0x0000007F, 0x00000020, false⟩,
  ⟨DGE_CMD, 1, 4, .wo, .live, 0x0000001F, 0x00000000, false⟩,
  ⟨DGE_DSTATUS, 1, 4, .ro, .none, 0xFFFFFFFF, 0x00000000, false⟩,
  ⟨DGE_BYTES_LO, 1, 4, .ro, .none, 0xFFFFFFFF, 0x00000000, false⟩,
  ⟨DGE_BYTES_HI, 1, 4, .ro, .none, 0xFFFFFFFF, 0x00000000, false⟩,
  ⟨DGE_DATA_LO, 1, 4, .rw, .live, 0xFFFFFFFF, 0x00000000, false⟩,
  ⟨DGE_DATA_HI, 1, 4, .wo, .live, 0xFFFFFFFF, 0x00000000, false⟩,
  ⟨DGE_LAST_LO, 1, 4, .rw, .live, 0xFFFFFFFF, 0x00000000, false⟩,
  ⟨DGE_LAST_HI, 1, 4, .rw, .live, 0xFFFFFFFF, 0x00000000, false⟩,
  ⟨DGE_LAST_VALID, 1, 4, .rw, .live, 0x0000000F, 0x00000000, false⟩,
  ⟨DGE_RESULT0, 16, 4, .ro, .none, 0xFFFFFFFF, 0x00000000, false⟩,
  ⟨DGE_STATE_SEL, 1, 4, .rw, .live, 0x0000003F, 0x00000000, false⟩,
  ⟨DGE_STATE_DATA, 1, 4, .rw, .live, 0xFFFFFFFF, 0x00000000, false⟩,
  ⟨DGE_JOBS, 1, 4, .rc, .none, 0xFFFFFFFF, 0x00000000, false⟩,
  ⟨DGE_ERR_INJECT, 1, 4, .wo, .live, 0x0000000F, 0x00000000, false⟩,
  ⟨DGE_SNAP_STATE, 1, 4, .ro, .none, 0xFFFFFFFF, 0x00000000, false⟩,
  ⟨DGE_SNAP_BYTES, 1, 4, .ro, .none, 0xFFFFFFFF, 0x00000000, false⟩]

/-- Rows of the `DGE` page table. -/
def rowsDGE : List RegRow := rowsDGE0

/-- Rows of the `KEY` page table, part 0. -/
def rowsKEY0 : List RegRow := [
  ⟨KEY_WRAP_BASE, 1, 4, .rw, .staged, 0x0FFFFFFF, 0x00000000, false⟩,
  ⟨KEY_KSEL, 1, 4, .rw, .live, 0x0000FFFF, 0x00000000, false⟩,
  ⟨KEY_KATTR0, 4, 4, .rw, .live, 0xFFFFFFFF, 0x00000000, false⟩,
  ⟨KEY_KCTR_LO, 1, 4, .rw, .live, 0xFFFFFFFF, 0x00000000, false⟩,
  ⟨KEY_KCTR_HI, 1, 4, .rw, .live, 0xFFFFFFFF, 0x00000000, false⟩,
  ⟨KEY_KDATA0, 16, 4, .wo, .live, 0xFFFFFFFF, 0x00000000, false⟩,
  ⟨KEY_KOP, 1, 4, .wo, .live, 0x0000000F, 0x00000000, false⟩,
  ⟨KEY_KSTATUS, 1, 4, .ro, .none, 0xFFFFFFFF, 0x00000000, false⟩,
  ⟨KEY_RESIDENT, 1, 4, .ro, .none, 0xFFFFFFFF, 0x00100010, false⟩,
  ⟨KEY_ROTATE_NEXT, 1, 4, .rc, .none, 0xFFFFFFFF, 0x0000FFFF, false⟩,
  ⟨KEY_UNWRAPS, 1, 4, .rc, .none, 0xFFFFFFFF, 0x00000000, false⟩,
  ⟨KEY_KEY_DENIED, 1, 4, .rc, .none, 0xFFFFFFFF, 0x00000000, false⟩,
  ⟨KEY_RNG_STATUS, 1, 4, .ro, .none, 0xFFFFFFFF, 0x00000000, false⟩,
  ⟨KEY_RNG_OUT, 1, 4, .rc, .none, 0xFFFFFFFF, 0x00000000, false⟩,
  ⟨KEY_RESEED_INTERVAL, 1, 4, .rw, .staged, 0x00003FFF, 0x000003E8, false⟩,
  ⟨KEY_NONCE_WARN, 1, 4, .rw, .staged, 0x0000003F, 0x00000020, false⟩,
  ⟨KEY_ERR_INJECT, 1, 4, .wo, .live, 0x0000000F, 0x00000000, false⟩,
  ⟨KEY_SNAP_RES, 1, 4, .ro, .none, 0xFFFFFFFF, 0x00000000, false⟩,
  ⟨KEY_SNAP_DENIED, 1, 4, .ro, .none, 0xFFFFFFFF, 0x00000000, false⟩]

/-- Rows of the `KEY` page table. -/
def rowsKEY : List RegRow := rowsKEY0

/-- Rows of the `SCP` page table, part 0. -/
def rowsSCP0 : List RegRow := [
  ⟨SCP_BOOT_STAGE, 1, 4, .ro, .none, 0xFFFFFFFF, 0x00000000, false⟩,
  ⟨SCP_BOOT_FAIL, 1, 4, .ro, .none, 0xFFFFFFFF, 0x00000000, false⟩,
  ⟨SCP_REC_SEQ, 1, 4, .ro, .none, 0xFFFFFFFF, 0x00000000, true⟩,
  ⟨SCP_REC_STATUS, 1, 4, .ro, .none, 0xFFFFFFFF, 0x00000000, false⟩,
  ⟨SCP_REPLICAS, 1, 4, .ro, .none, 0xFFFFFFFF, 0x00000000, false⟩,
  ⟨SCP_POLICY, 1, 4, .ro, .none, 0xFFFFFFFF, 0x0000FFFF, false⟩,
  ⟨SCP_SERIAL_LO, 1, 4, .ro, .none, 0xFFFFFFFF, 0x00000000, true⟩,
  ⟨SCP_SERIAL_HI, 1, 4, .ro, .none, 0xFFFFFFFF, 0x00000000, true⟩,
  ⟨SCP_CTR_SEL, 1, 4, .rw, .live, 0x0000000F, 0x00000000, false⟩,
  ⟨SCP_CTR_VALUE, 1, 4, .ro, .none, 0xFFFFFFFF, 0x00000000, true⟩,
  ⟨SCP_CTR_FLOOR, 1, 4, .ro, .none, 0xFFFFFFFF, 0x00000000, true⟩,
  ⟨SCP_CTR_STATUS, 1, 4, .ro, .none, 0xFFFFFFFF, 0x00000000, false⟩,
  ⟨SCP_SN_CFG, 1, 4, .rw, .live, 0x00000FFF, 0x00000000, false⟩,
  ⟨SCP_SN_CMD, 1, 4, .wo, .live, 0x00000013, 0x00000000, false⟩,
  ⟨SCP_SN_STATUS, 1, 4, .ro, .none, 0xFFFFFFFF, 0x00000000, false⟩,
  ⟨SCP_SN_BYTES_LO, 1, 4, .ro, .none, 0xFFFFFFFF, 0x00000000, false⟩,
  ⟨SCP_SN_BYTES_HI, 1, 4, .ro, .none, 0xFFFFFFFF, 0x00000000, false⟩,
  ⟨SCP_SN_RESULT0, 16, 4, .ro, .none, 0xFFFFFFFF, 0x00000000, false⟩,
  ⟨SCP_ERR_INJECT, 1, 4, .wo, .live, 0x0000003F, 0x00000000, false⟩,
  ⟨SCP_SNAP_REC, 1, 4, .ro, .none, 0xFFFFFFFF, 0x00000000, false⟩,
  ⟨SCP_SNAP_BOOT, 1, 4, .ro, .none, 0xFFFFFFFF, 0x00000000, false⟩]

/-- Rows of the `SCP` page table. -/
def rowsSCP : List RegRow := rowsSCP0

/-- Rows of the `TOL` page table, part 0. -/
def rowsTOL0 : List RegRow := [
  ⟨TOL_MSTATE, 1, 4, .ro, .none, 0xFFFFFFFF, 0x00000000, false⟩,
  ⟨TOL_VERSION_LO, 1, 4, .ro, .none, 0xFFFFFFFF, 0x00000000, true⟩,
  ⟨TOL_VERSION_HI, 1, 4, .ro, .none, 0xFFFFFFFF, 0x00000000, true⟩,
  ⟨TOL_STSEQ, 1, 4, .ro, .none, 0xFFFFFFFF, 0x00000000, true⟩,
  ⟨TOL_ASEQ, 1, 4, .ro, .none, 0xFFFFFFFF, 0x00000000, true⟩,
  ⟨TOL_TENANTS, 1, 4, .ro, .none, 0xFFFFFFFF, 0x00000000, true⟩,
  ⟨TOL_TAP_ERR, 1, 4, .ro, .none, 0xFFFFFFFF, 0x00000000, true⟩,
  ⟨TOL_MTIME_LO, 1, 4, .ro, .none, 0xFFFFFFFF, 0x00000000, true⟩,
  ⟨TOL_MTIME_HI, 1, 4, .ro, .none, 0xFFFFFFFF, 0x00000000, true⟩,
  ⟨TOL_TAP_HOLD, 4, 4, .ro, .none, 0xFFFFFFFF, 0x00000000, false⟩,
  ⟨TOL_REQ_DROP, 1, 4, .ro, .none, 0xFFFFFFFF, 0x00000000, false⟩,
  ⟨TOL_ITEM_HDR, 1, 4, .ro, .none, 0xFFFFFFFF, 0x00000000, false⟩,
  ⟨TOL_ITEM_LEN, 1, 4, .ro, .none, 0xFFFFFFFF, 0x00000000, false⟩,
  ⟨TOL_CHUNK_TAG, 1, 4, .ro, .none, 0xFFFFFFFF, 0x00000000, false⟩,
  ⟨TOL_CHUNK_CRC, 1, 4, .ro, .none, 0xFFFFFFFF, 0x00000000, false⟩,
  ⟨TOL_CHUNK_DATA, 448, 4, .ro, .none, 0xFFFFFFFF, 0x00000000, false⟩,
  ⟨TOL_SNAP_STSEQ, 1, 4, .ro, .none, 0xFFFFFFFF, 0x00000000, false⟩,
  ⟨TOL_SNAP_TAPERR, 1, 4, .ro, .none, 0xFFFFFFFF, 0x00000000, false⟩]

/-- Rows of the `TOL` page table. -/
def rowsTOL : List RegRow := rowsTOL0

/-- Rows of the `SPN` page table, part 0. -/
def rowsSPN0 : List RegRow := [
  ⟨SPN_GROUP_ID_LO, 1, 4, .ro, .none, 0xFFFFFFFF, 0x00000000, true⟩,
  ⟨SPN_GROUP_ID_HI, 1, 4, .ro, .none, 0xFFFFFFFF, 0x00000000, true⟩,
  ⟨SPN_GEN_LO, 1, 4, .ro, .none, 0xFFFFFFFF, 0x00000000, true⟩,
  ⟨SPN_GEN_HI, 1, 4, .ro, .none, 0xFFFFFFFF, 0x00000000, true⟩,
  ⟨SPN_MEMBER, 1, 4, .ro, .none, 0xFFFFFFFF, 0x00000000, true⟩,
  ⟨SPN_VIEW, 1, 4, .ro, .none, 0xFFFFFFFF, 0x00000000, false⟩,
  ⟨SPN_GATHER, 1, 4, .rw, .staged, 0x00003FFF, 0x000000C8, false⟩,
  ⟨SPN_PEER_TIMEOUT, 1, 4, .rw, .staged, 0x0000007F, 0x00000005, false⟩,
  ⟨SPN_HB_MISS, 1, 4, .rw, .staged, 0x0000000F, 0x00000003, false⟩,
  ⟨SPN_RESYNC_SHARE, 1, 4, .rw, .staged, 0x0000007F, 0x0000000A, false⟩,
  ⟨SPN_SJ_LIVE, 1, 4, .ro, .none, 0xFFFFFFFF, 0x00000000, false⟩,
  ⟨SPN_RESYNC_LEFT, 1, 4, .ro, .none, 0xFFFFFFFF, 0x00000000, false⟩,
  ⟨SPN_STATE, 1, 4, .ro, .none, 0xFFFFFFFF, 0x00000000, false⟩,
  ⟨SPN_FULL_STRIPES, 1, 4, .rc, .none, 0xFFFFFFFF, 0x00000000, false⟩,
  ⟨SPN_RMW_STRIPES, 1, 4, .rc, .none, 0xFFFFFFFF, 0x00000000, false⟩,
  ⟨SPN_DEGRADED_READS, 1, 4, .rc, .none, 0xFFFFFFFF, 0x00000000, false⟩,
  ⟨SPN_LAST_REFUSE, 1, 4, .ro, .none, 0xFFFFFFFF, 0x00000000, false⟩,
  ⟨SPN_REFUSALS, 1, 4, .rc, .none, 0xFFFFFFFF, 0x00000000, false⟩,
  ⟨SPN_OFFSET_MAX, 1, 4, .ro, .none, 0xFFFFFFFF, 0x00000000, false⟩,
  ⟨SPN_ERR_INJECT, 1, 4, .wo, .live, 0x0000000F, 0x00000000, false⟩,
  ⟨SPN_SNAP_VIEW, 1, 4, .ro, .none, 0xFFFFFFFF, 0x00000000, false⟩,
  ⟨SPN_SNAP_GEN, 1, 4, .ro, .none, 0xFFFFFFFF, 0x00000000, false⟩,
  ⟨SPN_SNAP_SJ, 1, 4, .ro, .none, 0xFFFFFFFF, 0x00000000, false⟩]

/-- Rows of the `SPN` page table. -/
def rowsSPN : List RegRow := rowsSPN0

/-- Rows of the `CLE` page table, part 0. -/
def rowsCLE0 : List RegRow := [
  ⟨CLE_RAIL_GOOD, 1, 4, .ro, .none, 0xFFFFFFFF, 0x00000000, false⟩,
  ⟨CLE_PHASE_RET_LO, 1, 4, .ro, .none, 0xFFFFFFFF, 0x00000000, true⟩,
  ⟨CLE_PHASE_RET_HI, 1, 4, .ro, .none, 0xFFFFFFFF, 0x00000000, true⟩,
  ⟨CLE_TEMP_MAX, 1, 4, .ro, .none, 0xFFFFFFFF, 0x00000000, false⟩,
  ⟨CLE_TJ_TARGET, 1, 4, .rw, .staged, 0x0000007F, 0x00000064, false⟩,
  ⟨CLE_THROTTLE, 1, 4, .ro, .none, 0xFFFFFFFF, 0x00000000, false⟩,
  ⟨CLE_NODE_POWER, 1, 4, .ro, .none, 0xFFFFFFFF, 0x00000000, false⟩,
  ⟨CLE_POWER_CAP, 1, 4, .ro, .none, 0xFFFFFFFF, 0x00001964, false⟩,
  ⟨CLE_CAP_LIMIT, 1, 4, .rw, .staged, 0x000003FF, 0x00000000, false⟩,
  ⟨CLE_TOKEN_MAX, 1, 4, .rw, .staged, 0x000007FF, 0x00000100, false⟩,
  ⟨CLE_TOKEN_MIN, 1, 4, .rw, .staged, 0x000007FF, 0x00000004, false⟩,
  ⟨CLE_TOKEN_CEIL, 1, 4, .rw, .live, 0x000007FF, 0x00000060, false⟩,
  ⟨CLE_TOKEN_NOW, 1, 4, .ro, .none, 0xFFFFFFFF, 0x00000000, false⟩,
  ⟨CLE_TOKEN_DRAWN, 1, 4, .rc, .none, 0xFFFFFFFF, 0x00000000, false⟩,
  ⟨CLE_TOKEN_LAPSED, 1, 4, .rc, .none, 0xFFFFFFFF, 0x00000000, false⟩,
  ⟨CLE_TOKEN_WAITS, 1, 4, .rc, .none, 0xFFFFFFFF, 0x00000000, false⟩,
  ⟨CLE_TIE_COUNT, 1, 4, .rc, .none, 0xFFFFFFFF, 0x00000000, false⟩,
  ⟨CLE_FLASH_ILIM, 1, 4, .rw, .staged, 0x0000FFFF, 0x00000000, false⟩,
  ⟨CLE_EXT_ENABLE, 1, 4, .rw, .staged, 0x0000003F, 0x00000000, false⟩,
  ⟨CLE_EXT_STATUS, 1, 4, .ro, .none, 0xFFFFFFFF, 0x00000000, false⟩,
  ⟨CLE_DVFS_STATUS, 1, 4, .ro, .none, 0xFFFFFFFF, 0x00000000, false⟩,
  ⟨CLE_RAIL_VSET_0, 1, 4, .rw, .staged, 0x00000FFF, 0x000002EE, false⟩,
  ⟨CLE_RAIL_VSET_1, 1, 4, .ro, .none, 0x00000FFF, 0x00000320, false⟩,
  ⟨CLE_RAIL_VSET_2, 1, 4, .rw, .staged, 0x00000FFF, 0x00000708, false⟩]

/-- Rows of the `CLE` page table, part 1. -/
def rowsCLE1 : List RegRow := [
  ⟨CLE_RAIL_VSET_3, 1, 4, .rw, .staged, 0x00000FFF, 0x00000708, false⟩,
  ⟨CLE_RAIL_VSET_4, 1, 4, .rw, .staged, 0x00000FFF, 0x00000320, false⟩,
  ⟨CLE_RAIL_VSET_5, 1, 4, .rw, .staged, 0x00000FFF, 0x00000320, false⟩,
  ⟨CLE_RAIL_VSET_6, 1, 4, .rw, .staged, 0x00000FFF, 0x00000384, false⟩,
  ⟨CLE_RAIL_VSET_7, 1, 4, .rw, .staged, 0x00000FFF, 0x00000320, false⟩,
  ⟨CLE_RAIL_VSET_8, 1, 4, .rw, .staged, 0x00000FFF, 0x00000384, false⟩,
  ⟨CLE_RAIL_VSET_9, 1, 4, .rw, .staged, 0x00000FFF, 0x00000320, false⟩,
  ⟨CLE_RAIL_VSET_10, 1, 4, .rw, .staged, 0x00000FFF, 0x00000384, false⟩,
  ⟨CLE_RAIL_VSET_11, 1, 4, .ro, .none, 0x00000FFF, 0x0000028A, false⟩,
  ⟨CLE_RAIL_VSET_12, 1, 4, .ro, .none, 0x00000FFF, 0x0000028A, false⟩,
  ⟨CLE_RAIL_VSET_13, 1, 4, .rw, .staged, 0x00000FFF, 0x00000320, false⟩,
  ⟨CLE_EXT_CFG, 6, 4, .rw, .staged, 0x7F000FFF, 0x00000000, false⟩,
  ⟨CLE_CAP_GAIN, 1, 4, .rw, .staged, 0x000000FF, 0x00000002, false⟩,
  ⟨CLE_FERRY_TOKENS, 1, 4, .rw, .staged, 0x0000007F, 0x00000008, false⟩,
  ⟨CLE_ERR_INJECT, 1, 4, .wo, .live, 0x00003F0F, 0x00000000, false⟩,
  ⟨CLE_COEF_B01, 20, 32, .rw, .staged, 0xFFFFFFFF, 0xB6662800, false⟩,
  ⟨CLE_COEF_B23, 20, 32, .rw, .staged, 0xFFFFFFFF, 0x000021EC, false⟩,
  ⟨CLE_COEF_A12, 20, 32, .rw, .staged, 0xFFFFFFFF, 0x00001000, false⟩,
  ⟨CLE_CTRL_A3, 20, 32, .rw, .staged, 0x0307FFFF, 0x00030000, false⟩,
  ⟨CLE_NOTCH_N01, 20, 32, .rw, .staged, 0xFFFFFFFF, 0x00000000, false⟩,
  ⟨CLE_NOTCH_N2D1, 20, 32, .rw, .staged, 0xFFFFFFFF, 0x00000000, false⟩,
  ⟨CLE_NOTCH_D2, 20, 32, .rw, .staged, 0x0000FFFF, 0x00000000, false⟩,
  ⟨CLE_LIMITS, 20, 32, .rw, .staged, 0xFFFFFFFF, 0x73330000, false⟩,
  ⟨CLE_SNAP_THROTTLE, 1, 4, .ro, .none, 0xFFFFFFFF, 0x00000000, false⟩]

/-- Rows of the `CLE` page table, part 2. -/
def rowsCLE2 : List RegRow := [
  ⟨CLE_SNAP_POWER, 1, 4, .ro, .none, 0xFFFFFFFF, 0x00000000, false⟩,
  ⟨CLE_SNAP_TOKENS, 1, 4, .ro, .none, 0xFFFFFFFF, 0x00000000, false⟩]

/-- Rows of the `CLE` page table. -/
def rowsCLE : List RegRow := rowsCLE0 ++ rowsCLE1 ++ rowsCLE2

/-- Rows of the `FLT` page table, part 0. -/
def rowsFLT0 : List RegRow := [
  ⟨FLT_LOG_WSEQ, 1, 4, .ro, .none, 0xFFFFFFFF, 0x00000000, true⟩,
  ⟨FLT_LOG_OLDEST, 1, 4, .ro, .none, 0xFFFFFFFF, 0x00000000, true⟩,
  ⟨FLT_LOG_LOST, 1, 4, .rc, .none, 0xFFFFFFFF, 0x00000000, false⟩,
  ⟨FLT_FATAL, 1, 4, .ro, .none, 0xFFFFFFFF, 0x00000000, false⟩,
  ⟨FLT_REFUSALS, 1, 4, .rc, .none, 0xFFFFFFFF, 0x00000000, false⟩,
  ⟨FLT_LAST_REF_LO, 1, 4, .ro, .none, 0xFFFFFFFF, 0x00000000, false⟩,
  ⟨FLT_LAST_REF_HI, 1, 4, .ro, .none, 0xFFFFFFFF, 0x00000000, false⟩,
  ⟨FLT_IRESET, 1, 4, .wo, .live, 0x000000FF, 0x00000000, false⟩,
  ⟨FLT_IRESET_STATUS, 1, 4, .ro, .none, 0xFFFFFFFF, 0x00000000, false⟩,
  ⟨FLT_ACT_STATUS, 1, 4, .ro, .none, 0xFFFFFFFF, 0x00000000, false⟩,
  ⟨FLT_HANDOVER_MAX, 1, 4, .rw, .staged, 0x00003FFF, 0x00000032, false⟩,
  ⟨FLT_LOG_D0, 1, 4, .rw, .live, 0xFFFFFFFF, 0x00000000, false⟩,
  ⟨FLT_LOG_D1, 1, 4, .rw, .live, 0xFFFFFFFF, 0x00000000, false⟩,
  ⟨FLT_LOG_WRITE, 1, 4, .wo, .live, 0x00000FFF, 0x00000000, false⟩,
  ⟨FLT_INJECT_EN, 1, 4, .rw, .live, 0x00000001, 0x00000000, false⟩,
  ⟨FLT_ERR_INJECT, 1, 4, .wo, .live, 0x0000000F, 0x00000000, false⟩,
  ⟨FLT_SNAP_WSEQ, 1, 4, .ro, .none, 0xFFFFFFFF, 0x00000000, false⟩,
  ⟨FLT_SNAP_FATAL, 1, 4, .ro, .none, 0xFFFFFFFF, 0x00000000, false⟩]

/-- Rows of the `FLT` page table. -/
def rowsFLT : List RegRow := rowsFLT0

/-- The block-specific rows of a page kind; `SYS` has none beyond the frame. -/
def blockRows : PageKind → List RegRow
  | .sys => []
  | .sgl => rowsSGL
  | .lch => rowsLCH
  | .hf => rowsHF
  | .nqe => rowsNQE
  | .fch => rowsFCH
  | .lds => rowsLDS
  | .map => rowsMAP
  | .str => rowsSTR
  | .pmu => rowsPMU
  | .dmc => rowsDMC
  | .lnd => rowsLND
  | .mrm => rowsMRM
  | .mec => rowsMEC
  | .ncl => rowsNCL
  | .dis => rowsDIS
  | .cvn => rowsCVN
  | .mte => rowsMTE
  | .dge => rowsDGE
  | .key => rowsKEY
  | .scp => rowsSCP
  | .tol => rowsTOL
  | .spn => rowsSPN
  | .cle => rowsCLE
  | .flt => rowsFLT

end Sys2Proof.Machine
end

