-- ==== Sys2Proof/Parts/Keys.lean ====
section
/-! DEFINITION. State of the key store, the random generator and the digest engines (R465 to R490). -/

namespace Sys2Proof.Machine

/-- STATE of a key slot (R466). -/
inductive SlotState where
  | empty | valid | rotate
  deriving DecidableEq, Repr

/-- A key slot record (R466). -/
structure KeySlot where
  state : SlotState
  persist : Bool
  locked : Bool
  pin : Bool
  type : Nat
  use : Nat
  klen : Nat
  tenant : Nat
  gen : Nat
  fixed : Nat
  counter : Nat
  key : List Byte
  /-- Changed since its own unwrap (R467). -/
  dirty : Bool
  /-- Its unwrap failed: the slot is unusable (R467). -/
  broken : Bool
  deriving DecidableEq, Repr

/-- An EMPTY slot never used. -/
def KeySlot.fresh : KeySlot := ⟨.empty, false, false, false, 0, 0, 0, 0, 0, 0, 0, [], false, false⟩

/-- The job of a digest engine (R485, R487). -/
structure DigestJob where
  alg : Nat
  feed : Nat
  /-- Tapped stream of SNOOP, and the next expected offset. -/
  snoop : Nat
  nextOff : Nat
  h : List Byte
  /-- Bytes absorbed, a multiple of the block size (R484). -/
  count : Nat
  /-- Bytes of the block not yet complete. -/
  carry : List Byte
  /-- DMA bytes still to read. -/
  left : Nat
  /-- HMAC slot and its GEN; for HMAC the message so far. -/
  slot : Nat
  gen : Nat
  message : List Byte
  /-- DMA source and SHAKE result bytes, read at START and RESUME (R488). -/
  src : Nat
  xof : Nat
  deriving DecidableEq, Repr

/-- One digest engine beside its page. -/
structure Digest where
  job : Option DigestJob
  /-- The state window of R484: 256 bytes, or empty for all zeros. -/
  window : List Byte
  /-- The next read of the window's SCHECK is corrupt (R488). -/
  corrupt : Bool
  deriving DecidableEq, Repr

/-- An engine that has run nothing. -/
def Digest.idle : Digest := ⟨none, [], false⟩

/-- Key store and digest engines. -/
structure Keys where
  /-- Slots by number; unlisted is EMPTY. -/
  slots : Tab KeySlot
  /-- Resident slots beside the 16 fixed ones, least recently used first (R467). -/
  resident : List Nat
  /-- The wrapping key, as the free value that the DRBG drew at power-on (R467). -/
  wrapKey : Nat
  /-- The key keep: the resident slots it recorded; none when it is clear (R469). -/
  keep : Option (List Nat)
  /-- Generate requests since the last reseed (R480). -/
  requests : Nat
  /-- Armed `KEY.ERR_INJECT` code 1. -/
  failUnwrap : Bool
  dge : Tab Digest
  /-- The security processor's snoop digest (R534). -/
  sn : Digest
  deriving DecidableEq, Repr

/-- After reset: every slot EMPTY, no digest running (R608). -/
def Keys.reset : Keys :=
  { slots := [], resident := [], wrapKey := 0, keep := none, requests := 0, failUnwrap := false, dge := [], sn := Digest.idle }

end Sys2Proof.Machine
end

