-- ==== Sys2Proof/Parts/Boot.lean ====
section
/-! DEFINITION. State of the security processor: fuses, the boot area, the NOR, counters, policy, the boot record ring and its queue, SPDM (R513 to R534). -/

namespace Sys2Proof.Machine

/-- The fuse bank, the capability fuses apart (R513). -/
structure Fuses where
  serial : Nat
  /-- DEVICE_SEED, and whether it is read-locked. -/
  seed : List Byte
  seedLocked : Bool
  revoke : Nat
  /-- OWNER_SLOT digests by slot, and OWNER_STATE. -/
  owners : Tab (List Byte)
  ownerState : Nat
  /-- CTR_FLOOR: burned bits of each counter. -/
  floors : Tab Nat
  deriving DecidableEq, Repr

/-- The images of one replica, or of the NOR (R519, R523). -/
structure BootSet where
  stage1 : List Byte
  /-- MAIN by firmware slot 1 to 4. -/
  mains : Tab (List Byte)
  /-- CLUSTER images of each slot. -/
  clusters : Tab (List (List Byte))
  policy : List Byte
  deriving DecidableEq, Repr

/-- An empty set. -/
def BootSet.empty : BootSet := ⟨[], [], [], []⟩

/-- A measurement entry (R528). -/
structure Measure where
  kind : Nat
  flags : Nat
  unit : Nat
  svn : Nat
  version : Nat
  digest : List Byte
  deriving DecidableEq, Repr

/-- A boot record as formed (R528). -/
structure BootRecord where
  event : Nat
  seq : Nat
  bootCount : Nat
  time : Nat
  stamp : Nat
  arg : List Byte
  prev : List Byte
  config : List Byte
  /-- Measurements by index. -/
  meas : Tab Measure
  sigEd : List Byte
  sigMl : List Byte
  /-- The slot holds it whole: SIG, RCHECK and both signatures pass. -/
  intact : Bool
  deriving DecidableEq, Repr

/-- What takes effect once a record is durable (R531). -/
inductive AfterRecord where
  | none
  /-- A BOOT lets the device become Admin-ready. -/
  | boot
  /-- An activation hands over to the image of a firmware slot; `cmd` is its Firmware Commit. -/
  | firmware (slot : Nat) (cmd : Nat)
  /-- A table load releases its cluster. -/
  | tableLoad (c : Fin 6)
  /-- A Load Program completes. -/
  | loaded (cmd : Nat)
  /-- A program activation or deactivation, by its run slot. -/
  | activated (cmd slot : Nat)
  | deactivated (cmd slot : Nat)
  /-- A policy is installed: its image. -/
  | policy (cmd : Nat) (image : List Byte)
  /-- A counter takes a value; `cmd` is none for an advance of the firmware's own. -/
  | counter (cmd : Option Nat) (n v : Nat)
  deriving DecidableEq, Repr

/-- An event that waits for its record (R531). -/
structure BootEvent where
  event : Nat
  arg : List Byte
  /-- Measurement changes the event brings: index, and the entry or none when it goes. -/
  changes : List (Nat × Option Measure)
  after : AfterRecord
  deriving DecidableEq, Repr

/-- The security processor beside its page and the snoop digest. -/
structure Boot where
  fuses : Fuses
  /-- Identity key seeds and the vault key derived at power-on (R514). -/
  edSeed : List Byte
  mlSeed : List Byte
  vaultKey : List Byte
  /-- The boot ROM is to run, after this reset scope (R522, R608). -/
  due : Option Nat
  replicas : Tab BootSet
  nor : BootSet
  /-- Active firmware slot of the boot directory, and the slot a commit activates at the next reset. -/
  active : Nat
  nextSlot : Option Nat
  /-- MRAM counter values; none readable when lost (R524). -/
  counters : Tab Nat
  countersLost : Bool
  /-- The POLICY image in force. -/
  policy : List Byte
  /-- The board record as stored, and the one in effect (R527). -/
  board : List Byte
  boardInForce : List Byte
  /-- Boot record ring by slot, and records BOOT since manufacture. -/
  ring : Tab BootRecord
  bootCount : Nat
  /-- Populated measurements by index (R533). -/
  meas : Tab Measure
  queue : List BootEvent
  /-- Armed `SCP.ERR_INJECT`: code and replica. -/
  inject : List (Nat × Nat)
  /-- Owner chain of certificate slot 1, and SPDM responses not yet taken: port (2 = management) and bytes (R533). -/
  chain1 : List Byte
  spdmOut : List (Nat × List Byte)
  /-- Persistent key copies in the vault, by logical slot (R468, R519); a locked slot's copy is kept locked. -/
  vault : Tab KeySlot
  deriving DecidableEq, Repr

/-- The board record of a device as shipped: VSET 2,500, 2,500, 1,200, 1,100, 1,100 and 1,800 mV, EFF 85 % (R587). -/
def shippedBoard : List Byte :=
  let b := [2500, 2500, 1200, 1100, 1100, 1800].flatMap (fun v => bytesLE 2 v ++ [85, 0, 0, 0, 0, 0]) ++ List.replicate 12 0
  b ++ bytesLE 4 (crc32c b)

/-- After reset: an unprovisioned part with empty replicas, and a boot due under scope 0x0 (R522; the contents are a choice of the log). -/
def Boot.reset : Boot :=
  { fuses := ⟨0, [], false, 0, [], 0, []⟩, edSeed := [], mlSeed := [], vaultKey := [], due := some 0, replicas := [], nor := BootSet.empty, active := 1, nextSlot := none
    counters := [], countersLost := false, policy := [], board := shippedBoard, boardInForce := [], ring := [], bootCount := 0, meas := [], queue := [], inject := [], chain1 := []
    spdmOut := [], vault := [] }

end Sys2Proof.Machine
end

