-- ==== Sys2Proof/Machine/Compress.lean ====
section
/-! DEFINITION. The compression engine (R423 to R439): the Hylas, Deflate, gzip, zlib and LZ4 decoders, and the compressor's level 0 procedure. Streams are byte lists; histories are kept newest byte first. -/

namespace Sys2Proof.Machine

/-! ### Checks -/

/-- One step of the CRC-32 register per bit, reflected. -/
def crc32Bits : Nat → Nat → Nat
  | 0, c => c
  | n + 1, c => crc32Bits n (if c % 2 = 1 then (c / 2) ^^^ 0xEDB88320 else c / 2)

/-- CRC-32 of the gzip trailer (RFC 1952). -/
def crc32 (bs : List Byte) : Nat := (bs.foldl (fun c b => crc32Bits 8 (c ^^^ b.toNat)) 0xFFFFFFFF) ^^^ 0xFFFFFFFF

/-- Adler-32 of the zlib trailer (RFC 1950). -/
def adler32 (bs : List Byte) : Nat :=
  let (a, b) := bs.foldl (fun (p : Nat × Nat) x => let a := (p.1 + x.toNat) % 65521; (a, (p.2 + a) % 65521)) (1, 0)
  b * 65536 + a

/-! ### What a decoder answers -/

/-- How a decode ended. -/
inductive DecEnd where
  /-- The format ended, check included; the bytes after it. -/
  | ended (rest : List Byte)
  /-- The input ended first. -/
  | more
  /-- MALFORMED_STREAM with a DETAIL. -/
  | malformed (detail : Nat)
  /-- The check disagrees. -/
  | check
  deriving DecidableEq, Repr

/-- A decode: the bytes decoded, how it ended, tokens or symbols, dynamic blocks. -/
structure Decoded where
  out : List Byte
  how : DecEnd
  tokens : Nat
  dyn : Nat
  deriving DecidableEq, Repr

/-- Copy `len` bytes from `d` back, one at a time, onto a history kept newest first (R430). -/
def copyBack (d : Nat) : Nat → List Byte → List Byte
  | 0, h => h
  | n + 1, h => copyBack d n (h.getD (d - 1) 0 :: h)

/-! ### Hylas (R429 to R431) -/

/-- A Hylas token read from a stream. -/
inductive HTok where
  | lit (bytes rest : List Byte)
  | copy (len dist : Nat) (rest : List Byte)
  | endCheck (check : Nat) (rest : List Byte)
  | reserved
  | short

/-- Read one token (R430). -/
def hylasTok : List Byte → HTok
  | [] => .short
  | t :: r =>
    let t := t.toNat
    if t < 0x80 then
      if r.length < t + 1 then .short else .lit (r.take (t + 1)) (r.drop (t + 1))
    else if t < 0xC0 then
      match r with
      | b1 :: r => .copy (4 + t / 4 % 16) (1 + (t % 4 * 256 + b1.toNat)) r
      | _ => .short
    else if t < 0xE0 then
      match r with
      | b1 :: b2 :: r => .copy (4 + t % 32) (1 + (b1.toNat + 256 * b2.toNat)) r
      | _ => .short
    else if t < 0xF0 then
      match r with
      | b1 :: b2 :: b3 :: r => .copy (36 + (t % 16 * 256 + b1.toNat)) (1 + (b2.toNat + 256 * b3.toNat)) r
      | _ => .short
    else if t < 0xFF then .reserved
    else if r.length < 4 then .short
    else .endCheck (ofBytesLE (r.take 4)) (r.drop 4)

/-- Decode tokens onto a history; `win` is the window in bytes (R430, R431). -/
def hylasBody (win : Nat) : Nat → List Byte → List Byte → Nat → Decoded
  | 0, _, h, n => ⟨h.reverse, .more, n, 0⟩
  | fuel + 1, inp, h, n =>
    match hylasTok inp with
    | .short => ⟨h.reverse, .more, n, 0⟩
    | .reserved => ⟨h.reverse, .malformed 0x12, n, 0⟩
    | .endCheck c rest =>
      if crc32c h.reverse = c then ⟨h.reverse, .ended rest, n + 1, 0⟩ else ⟨h.reverse, .check, n + 1, 0⟩
    | .lit b rest => hylasBody win fuel rest (b.reverse ++ h) (n + 1)
    | .copy len d rest =>
      if d > h.length ∨ d > win then ⟨h.reverse, .malformed 0x13, n, 0⟩
      else hylasBody win fuel rest (copyBack d len h) (n + 1)

/-- Decode a Hylas stream (R429 to R431). -/
def hylasDecode (inp : List Byte) : Decoded :=
  match inp with
  | [] => ⟨[], .more, 0, 0⟩
  | m :: r =>
    if m.toNat ≠ 0x48 then ⟨[], .malformed 0x11, 0, 0⟩
    else match r with
      | [] => ⟨[], .more, 0, 0⟩
      | v :: r =>
        if v.toNat / 16 ≠ 1 ∨ v.toNat % 16 > 6 then ⟨[], .malformed 0x11, 0, 0⟩
        else hylasBody (2 ^ (10 + v.toNat % 16)) (r.length + 1) r [] 0

/-! ### Deflate (R433, RFC 1951) -/

/-- Bits of a byte string, least significant first. -/
def toBits (bs : List Byte) : List Bool := bs.flatMap fun b => (List.range 8).map fun i => b.getLsbD i

/-- A number from `n` bits, least significant first. -/
def takeBits : Nat → List Bool → Option (Nat × List Bool)
  | 0, bs => some (0, bs)
  | _ + 1, [] => none
  | n + 1, b :: bs => (takeBits n bs).map fun (v, r) => ((if b then 1 else 0) + 2 * v, r)

/-- A code set: (length, code, symbol). -/
abbrev Codes := List (Nat × Nat × Nat)

/-- Canonical codes of the symbols' lengths, by length and then by symbol (RFC 1951 3.2.2). -/
def canonCodes (lens : List Nat) : Codes :=
  let syms := (List.range lens.length).map fun i => (lens.getD i 0, i)
  ((List.range 16).foldl (fun (acc : Codes × Nat) l =>
    if l = 0 then acc
    else
      let here := syms.filter fun p => p.1 == l
      let start := acc.2 * 2
      (acc.1 ++ (List.range here.length).map (fun k => (l, start + k, (here.getD k (0, 0)).2)), start + here.length)) ([], 0)).1

/-- Does a code set fill the code space exactly? (R433 DETAIL 0x12) -/
def completeCodes (lens : List Nat) : Bool :=
  (lens.foldl (fun n l => if l = 0 then n else n + 2 ^ (15 - l)) 0) == 2 ^ 15

/-- What a symbol read answers. -/
inductive SymRes where
  | sym (s : Nat) (rest : List Bool)
  | short
  | bad

/-- Read one symbol: the code's bits come most significant first (RFC 1951 3.1.1). -/
def readSym (cs : Codes) : Nat → Nat → Nat → List Bool → SymRes
  | 0, _, _, _ => .bad
  | _ + 1, _, _, [] => .short
  | fuel + 1, len, code, b :: bs =>
    let code := 2 * code + (if b then 1 else 0)
    match cs.find? fun e => e.1 == len + 1 && e.2.1 == code with
    | some e => .sym e.2.2 bs
    | none => readSym cs fuel (len + 1) code bs

/-- Base length and extra bits of a length symbol 257 to 285 (RFC 1951 3.2.5). -/
def lenBase (s : Nat) : Nat × Nat :=
  let k := s - 257
  if k < 8 then (3 + k, 0)
  else if k = 28 then (258, 0)
  else let e := k / 4 - 1; (3 + (4 + k % 4) * 2 ^ e, e)

/-- Base distance and extra bits of a distance symbol 0 to 29. -/
def distBase (s : Nat) : Nat × Nat :=
  if s < 4 then (1 + s, 0) else let e := s / 2 - 1; (1 + (2 + s % 2) * 2 ^ e, e)

/-- A Deflate decode in progress. -/
structure Infl where
  hist : List Byte
  syms : Nat
  dyn : Nat

/-- How a block ended. -/
inductive BlkEnd where
  | done (rest : List Bool)
  | short
  | bad (detail : Nat)

/-- Decode a block's symbols (R433). -/
def inflBlock (lit dist : Codes) : Nat → List Bool → Infl → Infl × BlkEnd
  | 0, _, z => (z, .short)
  | fuel + 1, bs, z =>
    match readSym lit 15 0 0 bs with
    | .short => (z, .short)
    | .bad => (z, .bad 0x12)
    | .sym s rest =>
      let z := { z with syms := z.syms + 1 }
      if s < 256 then inflBlock lit dist fuel rest { z with hist := BitVec.ofNat 8 s :: z.hist }
      else if s = 256 then (z, .done rest)
      else if s > 285 then (z, .bad 0x12)
      else
        let (lb, le) := lenBase s
        match takeBits le rest with
        | none => (z, .short)
        | some (lx, rest) =>
          match readSym dist 15 0 0 rest with
          | .short => (z, .short)
          | .bad => (z, .bad 0x12)
          | .sym ds rest =>
            if ds > 29 then (z, .bad 0x12)
            else
              let (db, de) := distBase ds
              match takeBits de rest with
              | none => (z, .short)
              | some (dx, rest) =>
                let d := db + dx
                if d > z.hist.length ∨ d > 32768 then (z, .bad 0x13)
                else inflBlock lit dist fuel rest { z with hist := copyBack d (lb + lx) z.hist }

/-- Lengths of the fixed literal and length code (RFC 1951 3.2.6). -/
def fixedLens : List Nat :=
  List.replicate 144 8 ++ List.replicate 112 9 ++ List.replicate 24 7 ++ List.replicate 8 8

/-- Order of the code length code's lengths (RFC 1951 3.2.7). -/
def clOrder : List Nat := [16, 17, 18, 0, 8, 7, 9, 6, 10, 5, 11, 4, 12, 3, 13, 2, 14, 1, 15]

/-- Read `n` code lengths through the code length code; lengths newest first. -/
def readLens (cl : Codes) (n : Nat) : Nat → List Nat → List Bool → Except (Option Nat) (List Nat × List Bool)
  | 0, _, _ => .error none
  | fuel + 1, acc, bs =>
    if acc.length = n then .ok (acc.reverse, bs)
    else if acc.length > n then .error (some 0x12)
    else match readSym cl 15 0 0 bs with
      | .short => .error none
      | .bad => .error (some 0x12)
      | .sym s rest =>
        if s < 16 then readLens cl n fuel (s :: acc) rest
        else
          let (base, extra) := if s = 16 then (3, 2) else if s = 17 then (3, 3) else (11, 7)
          match takeBits extra rest with
          | none => .error none
          | some (x, rest) =>
            if s = 16 then
              match acc with
              | [] => .error (some 0x12)
              | l :: _ => readLens cl n fuel (List.replicate (base + x) l ++ acc) rest
            else readLens cl n fuel (List.replicate (base + x) 0 ++ acc) rest

/-- A distance code set that Deflate allows: complete, one code of one bit, or none (RFC 1951 3.2.7). -/
def distOk (lens : List Nat) : Bool :=
  let used := lens.filter (· != 0)
  completeCodes lens || used.isEmpty || used == [1]

/-- The code sets of a dynamic block (RFC 1951 3.2.7). -/
def dynCodes (bs : List Bool) : Except (Option Nat) (Codes × Codes × List Bool) :=
  match takeBits 5 bs with
  | none => .error none
  | some (hlit, bs) => match takeBits 5 bs with
    | none => .error none
    | some (hdist, bs) => match takeBits 4 bs with
      | none => .error none
      | some (hclen, bs) =>
        if hlit > 29 ∨ hdist > 29 then .error (some 0x12)
        else
          let r := (List.range (hclen + 4)).foldl (fun (a : Option (List Nat × List Bool)) _ =>
            a.bind fun (ls, bs) => (takeBits 3 bs).map fun (v, bs) => (ls ++ [v], bs)) (some ([], bs))
          match r with
          | none => .error none
          | some (ls, bs) =>
            let cll := (List.range 19).map fun s => match clOrder.findIdx? (· == s) with
              | some i => ls.getD i 0
              | none => 0
            if !completeCodes cll then .error (some 0x12)
            else match readLens (canonCodes cll) (hlit + 257 + hdist + 1) 400 [] bs with
              | .error e => .error e
              | .ok (all, bs) =>
                let ll := all.take (hlit + 257)
                let dl := all.drop (hlit + 257)
                if !completeCodes ll || !distOk dl then .error (some 0x12)
                else .ok (canonCodes ll, canonCodes dl, bs)

/-- Decode blocks to the end of the last; `total` is the stream's length in bits (R433). -/
def inflBlocks (total : Nat) : Nat → List Bool → Infl → Infl × BlkEnd
  | 0, _, z => (z, .short)
  | fuel + 1, bs, z =>
    match takeBits 3 bs with
    | none => (z, .short)
    | some (h, bs) =>
      let go (r : Infl × BlkEnd) : Infl × BlkEnd :=
        match r.2 with
        | .done rest => if h % 2 = 1 then r else inflBlocks total fuel rest r.1
        | _ => r
      if h / 2 = 0 then
        let bs := bs.drop ((bs.length) % 8)
        match takeBits 16 bs with
        | none => (z, .short)
        | some (len, bs) => match takeBits 16 bs with
          | none => (z, .short)
          | some (nlen, bs) =>
            if len + nlen ≠ 0xFFFF then (z, .bad 0x12)
            else
              let avail := min len (bs.length / 8)
              let bytes := (List.range avail).map fun i => BitVec.ofNat 8 (((takeBits 8 (bs.drop (8 * i))).getD (0, [])).1)
              let z := { z with hist := bytes.reverse ++ z.hist }
              if avail < len then (z, .short) else go (z, .done (bs.drop (8 * len)))
      else if h / 2 = 1 then
        go (inflBlock (canonCodes fixedLens) (canonCodes (List.replicate 32 5)) (bs.length + 1) bs z)
      else if h / 2 = 2 then
        match dynCodes bs with
        | .error none => (z, .short)
        | .error (some d) => (z, .bad d)
        | .ok (lit, dist, bs) => go (inflBlock lit dist (bs.length + 1) bs { z with dyn := z.dyn + 1 })
      else (z, .bad 0x12)

/-- A raw Deflate stream: the bytes, and the input from the next whole byte on. -/
def inflate (inp : List Byte) : Decoded :=
  let bits := toBits inp
  let r := inflBlocks bits.length (bits.length + 1) bits ⟨[], 0, 0⟩
  let out := r.1.hist.reverse
  match r.2 with
  | .done rest => ⟨out, .ended (inp.drop (inp.length - rest.length / 8)), r.1.syms, r.1.dyn⟩
  | .short => ⟨out, .more, r.1.syms, r.1.dyn⟩
  | .bad d => ⟨out, .malformed d, r.1.syms, r.1.dyn⟩

/-- Skip a zero-terminated string. -/
def skipZ : List Byte → Option (List Byte)
  | [] => none
  | b :: bs => if b = 0 then some bs else skipZ bs

/-- The gzip header: what follows it, none when it is short, or a failure (R433). -/
def gzipHeader (inp : List Byte) : Except DecEnd (List Byte) :=
  if inp.length < 10 then
    let bad := (inp.length ≥ 1 ∧ inp.getD 0 0 ≠ 0x1F) ∨ (inp.length ≥ 2 ∧ inp.getD 1 0 ≠ 0x8B) ∨ (inp.length ≥ 3 ∧ inp.getD 2 0 ≠ 8)
      ∨ (inp.length ≥ 4 ∧ (inp.getD 3 0).toNat ≥ 32)
    if bad then .error (.malformed 0x11) else .error .more
  else if inp.getD 0 0 ≠ 0x1F ∨ inp.getD 1 0 ≠ 0x8B ∨ inp.getD 2 0 ≠ 8 ∨ (inp.getD 3 0).toNat ≥ 32 then .error (.malformed 0x11)
  else
    let flg := (inp.getD 3 0).toNat
    let r := inp.drop 10
    let r1 : Option (List Byte) :=
      if flg.testBit 2 then
        if r.length < 2 then none
        else let n := ofBytesLE (r.take 2); if r.length < 2 + n then none else some (r.drop (2 + n))
      else some r
    let r2 := r1.bind fun r => if flg.testBit 3 then skipZ r else some r
    let r3 := r2.bind fun r => if flg.testBit 4 then skipZ r else some r
    match r3 with
    | none => .error .more
    | some r =>
      if flg.testBit 1 then
        if r.length < 2 then .error .more
        else if ofBytesLE (r.take 2) = crc32 (inp.take (inp.length - r.length)) % 65536 then .ok (r.drop 2)
        else .error .check
      else .ok r

/-- A gzip member (R433). -/
def gunzip (inp : List Byte) : Decoded :=
  match gzipHeader inp with
  | .error e => ⟨[], e, 0, 0⟩
  | .ok body =>
    let d := inflate body
    match d.how with
    | .ended rest =>
      if rest.length < 8 then { d with how := .more }
      else if ofBytesLE (rest.take 4) = crc32 d.out ∧ ofBytesLE ((rest.drop 4).take 4) = d.out.length % 2 ^ 32 then { d with how := .ended (rest.drop 8) }
      else { d with how := .check }
    | _ => d

/-- A zlib stream (R433). -/
def zlibDecode (inp : List Byte) : Decoded :=
  match inp with
  | cmf :: flg :: body =>
    if cmf.toNat % 16 ≠ 8 ∨ cmf.toNat / 16 > 7 ∨ (cmf.toNat * 256 + flg.toNat) % 31 ≠ 0 ∨ flg.getLsbD 5 then ⟨[], .malformed 0x11, 0, 0⟩
    else
      let d := inflate body
      match d.how with
      | .ended rest =>
        if rest.length < 4 then { d with how := .more }
        else if ofBytesLE ((rest.take 4).reverse) = adler32 d.out then { d with how := .ended (rest.drop 4) }
        else { d with how := .check }
      | _ => d
  | [cmf] => if cmf.toNat % 16 ≠ 8 ∨ cmf.toNat / 16 > 7 then ⟨[], .malformed 0x11, 0, 0⟩ else ⟨[], .more, 0, 0⟩
  | [] => ⟨[], .more, 0, 0⟩

/-! ### LZ4 (R434) -/

/-- An LZ4 length's extension bytes. -/
def lz4Ext : List Byte → Nat → Option (Nat × List Byte)
  | [], _ => none
  | b :: bs, n => if b.toNat = 255 then lz4Ext bs (n + 255) else some (n + b.toNat, bs)

/-- Decode one block onto a history of at most 65,535 earlier bytes (R434). -/
def lz4Block : Nat → List Byte → List Byte → Nat → Nat → Decoded
  | 0, _, h, base, n => ⟨(h.take (h.length - base)).reverse, .more, n, 0⟩
  | fuel + 1, inp, h, base, n =>
    let stop (e : DecEnd) (h : List Byte) (n : Nat) : Decoded := ⟨(h.take (h.length - base)).reverse, e, n, 0⟩
    match inp with
    | [] => stop .more h n
    | t :: r =>
      match (if t.toNat / 16 = 15 then lz4Ext r 15 else some (t.toNat / 16, r)) with
      | none => stop .more h n
      | some (ll, r) =>
        if r.length < ll then stop .more h n
        else
          let h := (r.take ll).reverse ++ h
          let r := r.drop ll
          match r with
          | [] => stop (.ended []) h (n + 1)
          | [_] => stop .more h n
          | o0 :: o1 :: r =>
            let d := o0.toNat + 256 * o1.toNat
            if d = 0 ∨ d > h.length then stop (.malformed 0x13) h n
            else match (if t.toNat % 16 = 15 then lz4Ext r 15 else some (t.toNat % 16, r)) with
              | none => stop .more h n
              | some (ml, r) => lz4Block fuel r (copyBack d (ml + 4) h) base (n + 1)

/-! ### The compressor (R426 to R428, R432) -/

/-- What a compress stage keeps of an open stream (R424, R425): the COMP byte, the bytes consumed so far, the hash heads, the pending literals, and for Deflate the bits not yet a whole byte and the open block's bytes. -/
structure CompState where
  fmt : Nat
  /-- Stream bytes consumed, newest first. -/
  hist : List Byte
  heads : Tab Nat
  pend : List Byte
  bits : List Bool
  /-- Input bytes of the open Deflate block; none when no block is open. -/
  block : Option Nat
  outTotal : Nat
  deriving DecidableEq, Repr

/-- A stream just opened. -/
def CompState.opened (comp : Nat) : CompState := ⟨comp, [], [], [], [], none, 0⟩

/-- Length of the match `d` back, at most `top` (R427). -/
def runLen (d : Nat) : Nat → List Byte → List Byte → Nat
  | 0, _, _ => 0
  | _ + 1, _, [] => 0
  | top + 1, h, b :: bs => if h[d - 1]? = some b then 1 + runLen d top (b :: h) bs else 0

/-- The hash of R427 on the next four bytes. -/
def lzHash (b : List Byte) : Nat := (ofBytesLE (b.take 4) * 0x9E3779B1) % 2 ^ 32 / 2 ^ 21

/-- Whole bytes of a bit string, and the bits left over. -/
def packBits : Nat → List Bool → List Byte × List Bool
  | 0, bs => ([], bs)
  | fuel + 1, bs =>
    match takeBits 8 bs with
    | none => ([], bs)
    | some (v, r) => let (o, l) := packBits fuel r; (BitVec.ofNat 8 v :: o, l)

/-- `n` bits of a number, least significant first. -/
def lsbBits (n v : Nat) : List Bool := (List.range n).map fun i => v.testBit i

/-- A fixed Huffman code's bits, most significant first. -/
def fixedCode (s : Nat) : List Bool :=
  if s < 144 then (lsbBits 8 (0x30 + s)).reverse
  else if s < 256 then (lsbBits 9 (0x190 + (s - 144))).reverse
  else if s < 280 then (lsbBits 7 (s - 256)).reverse
  else (lsbBits 8 (0xC0 + (s - 280))).reverse

/-- The length symbol that holds a length, with its extra bits. -/
def lenSym (len : Nat) : List Bool :=
  if len = 258 then fixedCode 285
  else
    let s := ((List.range 28).filter fun k => (lenBase (257 + k)).1 ≤ len).getLastD 0 + 257
    fixedCode s ++ lsbBits (lenBase s).2 (len - (lenBase s).1)

/-- The distance symbol that holds a distance, with its extra bits. -/
def distSym (d : Nat) : List Bool :=
  let s := ((List.range 30).filter fun k => (distBase k).1 ≤ d).getLastD 0
  (lsbBits 5 s).reverse ++ lsbBits (distBase s).2 (d - (distBase s).1)

/-- A Hylas match in the shortest token that holds it (R427, R430). -/
def hylasMatch (len d : Nat) : List Byte :=
  if len ≤ 19 ∧ d ≤ 1024 then [BitVec.ofNat 8 (0x80 + (len - 4) * 4 + (d - 1) / 256), BitVec.ofNat 8 (d - 1)]
  else if len ≤ 35 then [BitVec.ofNat 8 (0xC0 + (len - 4)), BitVec.ofNat 8 (d - 1), BitVec.ofNat 8 ((d - 1) / 256)]
  else [BitVec.ofNat 8 (0xE0 + (len - 36) / 256), BitVec.ofNat 8 (len - 36), BitVec.ofNat 8 (d - 1), BitVec.ofNat 8 ((d - 1) / 256)]

/-- A compression in progress: the state and the output bytes so far, in pieces newest first. -/
structure CompRun where
  st : CompState
  out : List (List Byte)

/-- The FORMAT of a COMP byte (R396). -/
def compFormat (comp : Nat) : Nat := comp / 16 % 8

/-- Emit bits: whole bytes go out, the rest stays in the bit buffer. -/
def emitBits (c : CompRun) (b : List Bool) : CompRun :=
  let (o, l) := packBits (c.st.bits.length + b.length + 1) (c.st.bits ++ b)
  { st := { c.st with bits := l }, out := o :: c.out }

/-- Open a Deflate block when none is open: fixed codes, BFINAL as told (R432). -/
def openBlock (c : CompRun) (final : Bool) : CompRun :=
  match c.st.block with
  | some _ => c
  | none => emitBits { c with st := { c.st with block := some 0 } } [final, true, false]

/-- End the open block when it has taken 65,536 input bytes (R432). -/
def closeFull (c : CompRun) : CompRun :=
  match c.st.block with
  | some 65536 => { emitBits c (fixedCode 256) with st := { (emitBits c (fixedCode 256)).st with block := none } }
  | _ => c

/-- Emit the pending literals (R427): one LIT token, or literal codes. -/
def emitPend (c : CompRun) : CompRun :=
  if c.st.pend.isEmpty then c
  else if compFormat c.st.fmt = 0 then
    { st := { c.st with pend := [] }, out := (BitVec.ofNat 8 (c.st.pend.length - 1) :: c.st.pend) :: c.out }
  else emitBits { c with st := { c.st with pend := [] } } (c.st.pend.flatMap fun b => fixedCode b.toNat)

/-- Bytes of the input a Deflate block may still take before its end. -/
def blockRoom (c : CompRun) : Nat :=
  match c.st.block with
  | some n => 65536 - n
  | none => 65536

/-- Count input bytes into the open block. -/
def countBlock (c : CompRun) (n : Nat) : CompRun := { c with st := { c.st with block := c.st.block.map (· + n) } }

/-- Take one literal: a full 128 is emitted as one LIT (R427). Literals of a Deflate block are emitted before it ends. -/
def takeLit (c : CompRun) (b : Byte) : CompRun :=
  let c := { c with st := { c.st with pend := c.st.pend ++ [b], hist := b :: c.st.hist } }
  let c := if c.st.pend.length = 128 then emitPend c else c
  let c := countBlock c 1
  if c.st.block = some 65536 then closeFull (emitPend c) else c

/-- The distance the search tries at a position: at level 0 the head of the hash, above it a free choice among what the search may find (R426, R427). -/
def lzTry (c : CompRun) (level : Nat) (inp : List Byte) (pos : Nat) : Nat :=
  if level = 0 then
    let head := c.st.heads.getD (lzHash inp) 0xFFFFFFFF
    if head = 0xFFFFFFFF then 0 else (pos + 2 ^ 32 - head) % 2 ^ 32
  else Config.matchChoice level c.st.hist inp

/-- The procedure of R427 over a job's input; `last` tells whether the stream ends with it. -/
def level0 (level : Nat) (last : Bool) : Nat → List Byte → CompRun → CompRun
  | 0, _, c => c
  | fuel + 1, inp, c =>
    if inp.isEmpty then c
    else
      let deflate := compFormat c.st.fmt != 0
      let c := if deflate then openBlock c (last && decide (inp.length ≤ 65536)) else c
      if inp.length < 4 then
        match inp with
        | [] => c
        | b :: bs => level0 level last fuel bs (takeLit c b)
      else
        let pos := c.st.hist.length % 2 ^ 32
        let d := lzTry c level inp pos
        let c := { c with st := { c.st with heads := c.st.heads.put (lzHash inp) pos } }
        let top := if deflate then min 258 (blockRoom c) else 4131
        let reach := if deflate then 32768 else 65536
        let len := if 1 ≤ d ∧ d ≤ reach ∧ d ≤ c.st.hist.length then runLen d top c.st.hist inp else 0
        if len ≥ 4 then
          let c := emitPend c
          let c := if deflate then emitBits c (lenSym len ++ distSym d) else { c with out := hylasMatch len d :: c.out }
          let c := { c with st := { c.st with hist := (inp.take len).reverse ++ c.st.hist } }
          level0 level last fuel (inp.drop len) (closeFull (countBlock c len))
        else
          match inp with
          | [] => c
          | b :: bs => level0 level last fuel bs (takeLit c b)

/-- The stream header (R429, R432). -/
def compHeader (comp : Nat) : List Byte :=
  let lv := comp % 16
  match compFormat comp with
  | 0 => [0x48, 0x16]
  | 2 => [0x1F, 0x8B, 0x08, 0x00, 0, 0, 0, 0, if lv = 9 then 2 else if lv = 1 then 4 else 0, 0xFF]
  | 3 => [0x78, if lv ≤ 1 then 0x01 else if lv ≤ 5 then 0x5E else if lv = 6 then 0x9C else 0xDA]
  | _ => []

/-- The end of a stream: literals, the end token or the last block, and the check (R429, R432). -/
def compEnd (c : CompRun) : CompRun :=
  let c := emitPend c
  let data := c.st.hist.reverse
  if compFormat c.st.fmt = 0 then { c with out := (0xFF :: bytesLE 4 (crc32c data)) :: c.out }
  else
    -- an open block that was begun as the last one ends the stream; any other needs an empty last block
    let c := match c.st.block with
      | some _ => { emitBits c (fixedCode 256) with st := { (emitBits c (fixedCode 256)).st with block := none } }
      | none => c
    let pad (c : CompRun) : CompRun := emitBits c (List.replicate ((8 - c.st.bits.length % 8) % 8) false)
    let c := pad c
    let tail := match compFormat c.st.fmt with
      | 2 => bytesLE 4 (crc32 data) ++ bytesLE 4 (data.length % 2 ^ 32)
      | 3 => (bytesLE 4 (adler32 data)).reverse
      | _ => []
    { c with out := tail :: c.out }

/-- One job's compression: the new state and its output (R427, R428, R432, R439). -/
def compress (st : CompState) (first last : Bool) (inp : List Byte) : CompState × List Byte :=
  let c : CompRun := ⟨st, if first then [compHeader st.fmt] else []⟩
  let wasOpen := st.block.isSome
  let c := level0 (st.fmt % 16) last (inp.length + 1) inp c
  let deflate := compFormat st.fmt != 0
  let c :=
    if !last then c
    else if !deflate then compEnd c
    else
      -- the last block: begun in this job with BFINAL, or an empty one after what came before
      let pendingOnly := emitPend c
      let began := !(inp.isEmpty) && !(wasOpen && decide (inp.length ≤ 65536 - (st.block.getD 0)))
      if began then compEnd pendingOnly
      else
        let closed : CompRun := match pendingOnly.st.block with
          | some _ => { emitBits pendingOnly (fixedCode 256) with st := { (emitBits pendingOnly (fixedCode 256)).st with block := none } }
          | none => pendingOnly
        compEnd (openBlock closed true)
  let out := c.out.reverse.flatten
  ({ c.st with outTotal := st.outTotal + out.length }, out)

end Sys2Proof.Machine
end

