-- ==== Sys2Proof/Parts/Caravan.lean ====
section
/-! DEFINITION. State of the caravans: rings, jobs, context slots and the stages' stream states (R391 to R422, R424, R452, R484). -/

namespace Sys2Proof.Machine

/-- What the stages of an open stream keep (R404): cipher positions and keys' GENs, decoder, filter, digest and compressor. -/
structure Streams where
  /-- Decrypt: the next XTS data unit number and the partial unit (R476). -/
  decUnit : Nat
  decPart : List Byte
  decGen : Option Nat
  /-- Decompress: FMT, the stream bytes consumed, bytes produced, and for LZ4 the history, newest first (R424, R425, R434). -/
  zFmt : Option Nat
  zSeen : List Byte
  zOut : Nat
  zHist : List Byte
  zEnded : Bool
  /-- Filter: PCHECK, RADDR and the record in progress (R452). -/
  pcheck : Nat
  raddr : Nat
  recBytes : List Byte
  /-- Digest: H, COUNT, the partial block, and for HMAC the message and the slot's GEN (R484). -/
  digH : List Byte
  digCount : Nat
  digCarry : List Byte
  digMsg : List Byte
  digGen : Option Nat
  comp : Option CompState
  /-- Encrypt: as decrypt, and for GCM the nonce and the ciphertext so far (R477). -/
  encUnit : Nat
  encPart : List Byte
  encGen : Option Nat
  nonce : List Byte
  cipher : List Byte
  deriving DecidableEq, Repr

/-- A stream that has not begun. -/
def Streams.fresh : Streams :=
  { decUnit := 0, decPart := [], decGen := none, zFmt := none, zSeen := [], zOut := 0, zHist := [], zEnded := false, pcheck := 0, raddr := 0
    recBytes := [], digH := [], digCount := 0, digCarry := [], digMsg := [], digGen := none, comp := none, encUnit := 0, encPart := []
    encGen := none, nonce := [], cipher := [] }

/-- STATE of a context slot (R405, R420). -/
inductive CtxState where
  | held | suspended
  deriving DecidableEq, Repr

/-- A context slot in use (R404). -/
structure CtxSlot where
  state : CtxState
  ring : Nat
  epoch : Nat
  streams : Streams
  deriving DecidableEq, Repr

/-- A path job as a path posts it (R413): its descriptor, tenant, and the unit it works on. -/
structure PathJob where
  desc : List Byte
  tenant : Nat
  handle : Nat
  unit : Nat
  /-- A write path job that ended MEMORY_UNCORRECTABLE and runs once more (R416). -/
  rerun : Bool
  deriving DecidableEq, Repr

/-- What a job came to (R402, R403). -/
structure JobResult where
  status : Nat
  detail : Nat
  outBytes : Nat
  chainUsed : Nat
  /-- Writes to the result area at the job's end: offset and bytes (R399). -/
  results : List (Nat × List Byte)
  streams : Streams
  /-- Cycles of R412 or R437. -/
  cycles : Nat
  deriving DecidableEq, Repr

/-- A job admitted on a caravan (R394, R410). -/
structure CvnJob where
  ring : Nat
  desc : List Byte
  prio : Nat
  epoch : Nat
  /-- Ring and page fields of the epoch it was admitted under. -/
  base : Nat
  size : Nat
  tenant : Nat
  /-- PASSENGER, CLUSTER and ENV of OWNER. -/
  owner : Option (Nat × Nat)
  hasSlots : Bool
  saveBase : Nat
  path : Option PathJob
  susp : Nat
  /-- Set when validation or admission already ended it, or once its work is done. -/
  result : Option JobResult
  /-- Start of its present segment, and cycles it ran before. -/
  started : Count
  ran : Nat
  deriving DecidableEq, Repr

/-- One caravan beside its page. -/
structure Caravan where
  /-- Admitted heads by ring. -/
  heads : Tab CvnJob
  running : Option CvnJob
  /-- Suspended jobs, the earliest first (R395). -/
  suspended : List CvnJob
  /-- Path ring entries by ring 0 to 2 (R393). -/
  paths : Tab (List PathJob)
  /-- Completion producer counts by ring, modulo 2^(SIZE + 1). -/
  prod : Tab Nat
  /-- Context slots in use. -/
  slots : Tab CtxSlot
  /-- Input bytes below a whole KiB (R420 BYTES_IN). -/
  kibRest : Nat
  /-- Armed injections (R420). -/
  inject : List Nat
  deriving DecidableEq, Repr

/-- A caravan at rest. -/
def Caravan.idle : Caravan := ⟨[], none, [], [], [], [], 0, []⟩

/-- All caravans. -/
structure Caravans where
  cvn : Tab Caravan
  /-- The caravan each path posted to last (R413). -/
  turn : Tab Nat
  /-- Path jobs that wait because every ring of their path is full, oldest first, with their path (R413). -/
  waiting : List (Nat × PathJob)
  /-- Path jobs done, oldest first: path, handle, unit, status (R414, R416). -/
  finished : List (Nat × Nat × Nat × Nat)
  deriving DecidableEq, Repr

/-- After reset: caravans at rest. -/
def Caravans.reset : Caravans := ⟨[], [], [], []⟩

end Sys2Proof.Machine
end

