-- ==== Sys2Proof/Parts/Memory.lean ====
section
/-! DEFINITION. State of Landing, the MRAM dies and the DRAM channels: contents, error marks, merge buffers, frames and wear (R289 to R338). -/

namespace Sys2Proof.Machine

/-- What is wrong with a stored word: a single-bit error, a double-bit error, an address check mismatch, or poison (R302, R303, R314). -/
inductive WordErr where
  | single | double | address | poison
  deriving DecidableEq, Repr

/-- One merge-buffer entry: a word (or, on DRAM, a line) index, a byte mask and the bytes (R304, R317). -/
structure MergeEntry where
  index : Nat
  mask : Nat
  data : List Byte
  deriving DecidableEq, Repr

/-- One DRAM bank: its open row with the count at which it opened, and its 2-bit predictor (R300). -/
structure DramBank where
  open_ : Option (Nat × Count)
  pred : Nat
  deriving DecidableEq, Repr

/-- How an access found its bank (R305). -/
inductive BankHit where
  | hit | closed | conflict
  deriving DecidableEq, Repr

/-- Landing, MRAM and DRAM. -/
structure Memory where
  /-- Landing, by offset from 0x0400_0000 (R37). -/
  landing : Mem
  lndErr : Tab WordErr
  /-- Landing merge buffers, oldest first, over all banks; at most 4 per bank (R317). -/
  lndMerge : List MergeEntry
  /-- Armed Landing injections by bank: 1 single-bit, 2 double-bit on the next read (R336). -/
  lndInject : Tab Nat
  /-- The two MRAM dies, by physical offset: the fixed area as in the view, then physical frame f at 0x080_0000 + f × 64 KiB (R320, R324). -/
  mram0 : Mem
  mram1 : Mem
  mErr0 : Tab WordErr
  mErr1 : Tab WordErr
  mrmMerge : List MergeEntry
  /-- Armed MRAM injections: (die, code) (R337). -/
  mrmInject : List (Nat × Nat)
  /-- Logical frame to physical frame; an unlisted logical frame has the physical frame of its own number (R324). -/
  frameOf : Tab Nat
  /-- PASS of each physical frame; unlisted is 0 (R324). -/
  pass : Tab Nat
  /-- ASEQ of each physical frame; unlisted is 0. -/
  aseq : Tab Nat
  /-- LFRAME of each physical frame's header; an unlisted frame names the logical frame of its own number. -/
  lframe : Tab Nat
  /-- Headers written with a bad HCHECK. -/
  badHeader : List Nat
  nextAseq : Nat
  /-- Retired physical frames (R327). -/
  frameRetired : List Nat
  /-- Corrections of each physical frame since the bucket was empty (R316). -/
  frameCe : Tab Nat
  /-- Wear credit in bytes; negative while in debt (R329). -/
  credit : Int
  /-- Bytes written to the rotated area below the last whole KiB (R337). -/
  kibRest : Nat
  /-- Writes to the rotated area held by the wear meter, oldest first: view offset and bytes (R329). -/
  wearHeld : List (Nat × List Byte)
  /-- DRAM contents, by offset from 0x0010_0000_0000 (R36). -/
  dram : Mem
  /-- Error marks of DRAM words, keyed by word offset ÷ 8 (R303). -/
  dErr : Tab WordErr
  /-- DRAM merge buffers, oldest first; at most 8 per controller; `index` is the line offset ÷ 64 (R304). -/
  dMerge : List MergeEntry
  /-- Bank states, keyed by bank number (R293, R300). -/
  banks : Tab DramBank
  /-- How the last DRAM access found its bank, and its count in island cycles (R305). -/
  lastDram : Option (BankHit × Nat)
  /-- Armed DMC injections: (controller, rank, code) (R310). -/
  dmcInject : List (Nat × Nat × Nat)
  /-- The retired rank being copied into the spare, as (channel, rank) (R307). -/
  migrating : Option (Nat × Nat)
  /-- The rank whose lines the spare holds, whole or so far, as (channel, rank). -/
  replaced : Option (Nat × Nat)
  /-- Last temperature of each rank in °C, keyed by channel × 2 + rank (R297). -/
  rankTemp : Tab Int
  /-- Since when every rank has been at 80 °C or below (R297). -/
  coolSince : Option Count
  /-- Channels in self-refresh, one bit each (R299). -/
  selfRefresh : Nat
  /-- The last refresh instant (R298). -/
  lastRefresh : Count
  /-- Scrub positions: words read in the current pass of DRAM, SRAM and MRAM (R330). -/
  scrubbed : Nat × Nat × Nat
  deriving DecidableEq, Repr

/-- After reset: memories read 0, logical frames in their own physical frames, the wear credit full (R324, R329). -/
def Memory.reset : Memory :=
  { landing := [], lndErr := [], lndMerge := [], lndInject := [], mram0 := [], mram1 := [], mErr0 := [], mErr1 := [], mrmMerge := [], mrmInject := [], frameOf := []
    pass := [], aseq := [], lframe := [], badHeader := [], nextAseq := 1, frameRetired := [], frameCe := [], credit := 504000000000, kibRest := 0, wearHeld := [], dram := []
    dErr := [], dMerge := [], banks := [], lastDram := none, dmcInject := [], migrating := none, replaced := none, rankTemp := [], coolSince := none, selfRefresh := 0
    lastRefresh := 0, scrubbed := (0, 0, 0) }

end Sys2Proof.Machine
end

