-- ==== Sys2Proof/Parts/Cluster.lean ====
section
/-! DEFINITION. State of the Nelius cores and clusters: registers, special registers, TCMs, cluster stores, decode tables, microcode and the load engine (R339 to R372). -/

namespace Sys2Proof.Machine

/-- What a core does (R370 CORE_STATE). -/
inductive CoreMode where
  | idle | run | held | halted
  deriving DecidableEq, Repr

/-- One Nelius core (R342, R348). -/
structure Core where
  /-- w0 to w31; w0 is never written (R342). -/
  regs : Vector Word 32
  pc : Word
  lk : Word
  runmode : Word
  trapRet : Word
  trapMode : Word
  trapInfo : Word
  trapAddr : Word
  trapBase : Word
  scratch : Word
  /-- BK1 to BK3 and BL1 to BL3; index 0 is not used (R345). -/
  bk : Vector Word 4
  bl : Vector Word 4
  pg : Vector Word 8
  itw : Word
  dtw : Word
  csw : Word
  /-- Cycles since core reset up to `cycleAt`, and the latched CYCLE_HI (R348). -/
  cycle : Count
  cycleAt : Count
  cycleHi : Word
  /-- Micro-registers u0 to u7 (R362). -/
  u : Vector Word 8
  itcm : Mem
  dtcm : Mem
  itcmErr : Tab WordErr
  dtcmErr : Tab WordErr
  mode : CoreMode
  deriving DecidableEq, Repr

/-- A core as it comes out of power-on: every register 0 (the spec gives w1 to w31 no value), held until its first load (R348, R370). -/
def Core.fresh : Core :=
  { regs := Vector.replicate 32 0, pc := 0, lk := 0, runmode := 0, trapRet := 0, trapMode := 0, trapInfo := 0, trapAddr := 0
    trapBase := 0, scratch := 0, bk := Vector.replicate 4 0, bl := Vector.replicate 4 0, pg := Vector.replicate 8 0
    itw := 0, dtw := 0, csw := 0, cycle := 0, cycleAt := 0, cycleHi := 0, u := Vector.replicate 8 0
    itcm := [], dtcm := [], itcmErr := [], dtcmErr := [], mode := .held }

/-- A section descriptor of a cluster image (R367). -/
structure Section where
  kind : Nat
  mask : Nat
  dest : Nat
  len : Nat
  src : Nat
  deriving DecidableEq, Repr

/-- A load that has passed its check and waits for the held cores (R368). -/
structure LoadJob where
  src : Nat
  sections : List Section
  /-- Cores held for it. -/
  hold : Nat
  tables : Bool
  /-- The sections are written and the release waits for its boot record (R531). -/
  written : Bool
  deriving DecidableEq, Repr

/-- One cluster (R339). -/
structure Cluster where
  store : Mem
  storeErr : Tab WordErr
  storeMerge : List MergeEntry
  /-- Decode table (R362). -/
  table : Vector Word 16
  /-- Microcode store by micro-op index; unlisted is 0. -/
  ucode : Tab Word
  load : Option LoadJob
  /-- Armed injections: core and code, oldest first (R370). -/
  inject : List (Nat × Nat)
  deriving DecidableEq, Repr

/-- A cluster with nothing loaded: every decode entry reads VALID 0. -/
def Cluster.fresh : Cluster := ⟨[], [], [], Vector.replicate 16 0, [], none, []⟩

/-- All clusters and cores; core k of cluster c is core 8c + k. -/
structure Nelius where
  cores : Vector Core 48
  clusters : Vector Cluster 6
  deriving DecidableEq, Repr

/-- After reset: every core held, nothing loaded (R370). -/
def Nelius.reset : Nelius := ⟨Vector.replicate 48 Core.fresh, Vector.replicate 6 Cluster.fresh⟩

end Sys2Proof.Machine
end

