-- ==== Sys2Proof/Parts/Common.lean ====
section
/-! DEFINITION. State shared by every page: the variant, the sandglass count, the register file, the admitted epochs, the fault log with its queue, and the free-value counter. -/

namespace Sys2Proof.Machine

/-- The variant of the part and its sampled port mode (R3, R13, R105). -/
structure Chip where
  /-- Half bin: channel groups 0, 2, 4, 6 and clusters 0 to 3 (R3). -/
  half : Bool
  /-- 1.4 GHz core speed grade instead of 1.8 GHz (R3). -/
  slow : Bool
  /-- Temperature grade I instead of C (R3). -/
  gradeI : Bool
  /-- x8 + x8 port mode instead of x16 (R13). -/
  split : Bool
  deriving DecidableEq, Repr

/-- Every register of every page, keyed by page × 4096 + offset. `live` is what a read returns (the staged copy for a class S field, R60); `inForce` is the in-force value of class S fields. A key that is not listed holds its reset value. -/
structure RegFile where
  live : Tab Word
  inForce : Tab Word
  deriving DecidableEq, Repr

/-- Work units in flight on a page, under the older and under the newest epoch (R64, R70). -/
structure Epochs where
  older : Nat
  newest : Nat
  deriving DecidableEq, Repr

/-- One fault log entry (R606). `bad` marks an entry written with a bad ECHECK (R614). -/
structure LogEntry where
  fseq : Nat
  kind : Nat
  cls : Nat
  page : Nat
  time : Nat
  timestamp : Nat
  cause : Nat
  unit : Nat
  initiator : Nat
  access : Nat
  count : Nat
  address : Nat
  snapSeq : Nat
  bootSeq : Nat
  epoch : Nat
  detail : Nat
  initPage : Nat
  bad : Bool
  deriving DecidableEq, Repr

/-- What waits in the fault manager's entry queue: a new entry, or a COUNT update of a written entry (R606). -/
inductive LogItem where
  | entry (e : LogEntry)
  | count (fseq : Nat) (count : Nat)
  deriving DecidableEq, Repr

/-- The fault log: the ring as written, oldest first, and the 256-entry queue in arrival order (R606). -/
structure FaultLog where
  ring : List LogEntry
  queue : List LogItem
  /-- FSEQ given to the newest entry that entered the queue. -/
  issued : Nat
  /-- The next entry is written with a bad ECHECK (`FLT.ERR_INJECT` code 1). -/
  badNext : Bool
  deriving DecidableEq, Repr

/-- What the last access on the fabric answered to its initiator (R22, R44). -/
inductive Answer where
  | none
  /-- Acknowledged. -/
  | ack
  /-- The data of a read, lowest address first. -/
  | data (bytes : List Byte)
  /-- A word of the read was uncorrectable (R303, R315). -/
  | uncorrectable
  /-- Refused, with its R607 cause. -/
  | refused (cause : Nat)
  /-- Held under R17 until the target takes it. -/
  | held
  deriving DecidableEq, Repr

/-- An access in a crossing, until its acknowledge is back (R16). -/
structure Transit where
  src : Island
  dst : Island
  /-- Arbitration key of the initiator (R642). -/
  key : Nat
  time : Count
  deriving DecidableEq, Repr

/-- An access that its source holds under R17: initiator, write or read, address, width in bytes, and the bytes of a write. -/
structure HeldAccess where
  who : Initiator
  write : Bool
  addr : Nat
  width : Nat
  data : List Byte
  deriving DecidableEq, Repr

/-- Crossings, arbiters and the instants that pages time. -/
structure Bus where
  /-- What the crossings' destination buffers hold, oldest first (R16). -/
  flight : List Transit
  /-- Transfers that their sources hold, oldest first (R17). -/
  held : List HeldAccess
  /-- Round-robin pointer of the arbiter at each target: the key granted last (R642). An unlisted one holds the highest key. -/
  pointer : Tab Nat
  /-- When the first key of each page's EXPERT_UNLOCK was written (R57). -/
  arms : Tab Count
  /-- When the apply that made each page's older epoch took place (R71). -/
  drains : Tab Count
  /-- Pages whose timed commit found two epochs live and waits for the drain (R67). -/
  timed : List Nat
  deriving DecidableEq, Repr

/-- State that every block shares. -/
structure Common where
  chip : Chip
  /-- The sandglass count in ns (R77). -/
  time : Count
  /-- Offset still to be slewed away: positive when the sandglass is ahead of its source (R82). -/
  slew : Int
  regs : RegFile
  /-- Pages whose bucket overflow has fired and not yet re-armed (R74). -/
  lbFired : List Nat
  /-- Work units in flight per page; an unlisted page has none. -/
  epochs : Tab Epochs
  log : FaultLog
  /-- Accumulators "since the previous snapshot", keyed like registers by the snapshot copy they feed (R76). -/
  since : Tab Nat
  /-- The Timestamp feature: milliseconds, and the count at which it was set; none when not set since power-on (R136). -/
  stamp : Option (Nat × Count)
  /-- SMART critical warning bits (R223, R309, R322). -/
  smart : Nat
  /-- Asynchronous events the device has raised and not yet posted, oldest first: type, information, log page (R225, R226). -/
  async : List (Nat × Nat × Nat)
  /-- The event being handled was injected: its log entries carry INJECTED (R613). -/
  injecting : Bool
  /-- Host Memory Buffer as the host supplied it: PCIe address and bytes of each descriptor (R41). -/
  hmb : List (Nat × Nat)
  /-- Writes sent out of the device and not yet taken by the host: PCIe address and bytes, oldest first (R42). -/
  outbox : List (Nat × List Byte)
  /-- Crossings and arbiters. -/
  bus : Bus
  /-- What the last fabric access answered. -/
  answer : Answer
  /-- Free values taken so far: the model's own counter, not the spec's. -/
  free : Nat
  deriving DecidableEq, Repr

/-- After reset: a full-bin part of 1.8 GHz and grade C in x16 mode, the count at 0, every register at its reset value, the log empty (R78, R608; the variant is a choice of the log). -/
def Common.reset : Common :=
  { chip := ⟨false, false, false, false⟩, time := 0, slew := 0, regs := ⟨[], []⟩, lbFired := [], epochs := [], log := ⟨[], [], 0, false⟩, since := [], stamp := none
    smart := 0, async := [], injecting := false, hmb := [], outbox := [], bus := ⟨[], [], [], [], [], []⟩, answer := .none, free := 0 }

end Sys2Proof.Machine
end

