-- ==== Sys2Proof/Parts/Dispatch.lean ====
section
/-! DEFINITION. State of the dispatcher: work-item slots, delay lists, ready queues, the failure list and the observables (R373 to R390). -/

namespace Sys2Proof.Machine

/-- STATE of a work-item slot (R375). -/
inductive ItemState where
  | free | waiting | delayed | ready | running | preempted | done | failed
  deriving DecidableEq, Repr

/-- A work-item slot (R374). -/
structure Item where
  /-- W0 to W3. -/
  w0 : Word
  arg0 : Word
  arg1 : Word
  w3 : Word
  due : Count
  wake : Nat
  ctx : Nat
  cause : Nat
  late : Bool
  tie : Bool
  pending : Bool
  state : ItemState
  /-- The cluster whose queue the item took; for CLUSTER any chosen at its entry to READY (R382). -/
  cluster : Nat
  /-- When it entered READY or PREEMPTED (R388), or its delay list. -/
  entered : Count
  deriving DecidableEq, Repr

/-- A FREE slot of zeros. -/
def Item.fresh : Item := ⟨0, 0, 0, 0, 0, 0, 0, 0, false, false, false, .free, 0, 0⟩

/-- The dispatcher beside its page. -/
structure Dispatch where
  /-- Slots by number; unlisted is FREE. -/
  items : Tab Item
  /-- DELAYED slots of every list in insertion order (R380). -/
  delayed : List Nat
  /-- READY and PREEMPTED slots by queue 16 × cluster + level, head first (R382). -/
  queues : Tab (List Nat)
  /-- The slot that each core runs, keyed by 8c + k. -/
  running : Tab Nat
  /-- Since when each core has run its item. -/
  since : Tab Count
  /-- FAILED slots, oldest first (R386). -/
  failures : List Nat
  /-- Context slots in use, keyed by 1024 × cluster + slot, with the item (R384). -/
  contexts : Tab Nat
  maxDepth : Tab Nat
  /-- Histogram buckets by 16 × queue + bucket (R388). -/
  hist : Tab Nat
  busy : Tab Nat
  started : Tab Nat
  preempts : Tab Nat
  /-- The snapshot bank (R388). -/
  sbank : Tab Word
  /-- Armed injections: (cluster, code) (R389). -/
  inject : List (Nat × Nat)
  /-- PWR_FAIL stopped the dispatcher from making items ready (R387). -/
  stopped : Bool
  deriving DecidableEq, Repr

/-- After reset: every slot FREE (R608). -/
def Dispatch.reset : Dispatch :=
  { items := [], delayed := [], queues := [], running := [], since := [], failures := [], contexts := [], maxDepth := [], hist := [], busy := [], started := []
    preempts := [], sbank := [], inject := [], stopped := false }

end Sys2Proof.Machine
end

