-- ==== Sys2Proof/Parts/Faults.lean ====
section
/-! DEFINITION. State of the fault manager's reset, re-admission and activation work (R601, R610 to R612). -/

namespace Sys2Proof.Machine

/-- Reset and live-service state beside the `FLT` registers. -/
structure Faults where
  /-- Islands in reset, by ISLAND code; a reset that is requested and has not begun is listed as 256 + its code (R611). -/
  resets : List Nat
  /-- Re-admissions of each island within the last 10 minutes, as counts (R604). -/
  readmits : Tab (List Count)
  /-- Command fetch is stopped by a fatal fault (R601). -/
  fetchStopped : Bool
  /-- `FLT.ERR_INJECT` code 2: the entry queue is held as under a wear hold (R614). -/
  holdQueue : Bool
  /-- Islands retired after failed re-admission, by ISLAND code (R611). -/
  retired : List Nat
  /-- The live activation: the firmware slot it activates (R612). -/
  activating : Option Nat
  /-- Count at which the running cluster handover began (R612). -/
  handoverFrom : Option Count
  /-- The last double trap of each core, by core number (R611). -/
  doubleTraps : Tab Count
  deriving DecidableEq, Repr

/-- After reset: nothing in reset, nothing retired, nothing activating. -/
def Faults.reset : Faults :=
  { resets := [], readmits := [], fetchStopped := false, holdQueue := false, retired := [], activating := none, handoverFrom := none, doubleTraps := [] }

end Sys2Proof.Machine
end

