-- ==== Sys2Proof/Parts/Map.lean ====
section
/-! DEFINITION. State of the map walker, the write-buffer index, the host map window, the map journal and the block state table (R181 to R228). -/

namespace Sys2Proof.Machine

/-- One unit in the write buffer: its stored form and what its map entry will carry (R187, R192). -/
structure WbUnit where
  handle : Nat
  unit : Nat
  /-- The stored form: compressed where it is, always encrypted (R25). -/
  data : List Byte
  compressed : Bool
  locked : Bool
  tagged : Bool
  tag : Nat
  fua : Bool
  /-- Packed into a flash page: a redirect to that page is a redirect of this data. -/
  packed : Bool
  /-- Redirect issued: JSEQ of its record (R203). -/
  redirect : Option Nat
  /-- Reloaded from a ferry that is not yet REPLAYED (R277). -/
  reloaded : Bool
  deriving DecidableEq, Repr

/-- The payload of a journal record (R202). -/
inductive JPayload where
  | redirect (kind : RedirectKind) (handle unit : Nat) (entry : BitVec 64)
  | trim (handle first count : Nat)
  | flagSet (handle unit : Nat) (entry : BitVec 64)
  | blockState (die block state : Nat)
  | dirUpdate (handle page : Nat) (entry : BitVec 64)
  | mark
  deriving DecidableEq, Repr

/-- One map journal record in the ring; `torn` when its RCHECK is broken (R201, R205). -/
structure JRecord where
  seq : Nat
  payload : JPayload
  torn : Bool
  deriving DecidableEq, Repr

/-- Block states of R212. -/
inductive BlockState where
  | free | open_ | closed | victim | freeable | retired | bad
  deriving DecidableEq, Repr

/-- One BST entry (R211). -/
structure Bst where
  state : BlockState
  slc : Bool
  floor : Bool
  eraseIssued : Bool
  relocate : Bool
  /-- An issued state change and the JSEQ of its record (R212). -/
  changing : Option (BlockState × Nat)
  eraseCount : Nat
  live : Nat
  jseqLast : Nat
  pins : Nat
  closeStamp : Nat
  /-- Lookups that wait because PINS is full, in arrival order (R215). -/
  waiting : Nat
  deriving DecidableEq, Repr

/-- A block never used: FREE, no erases (assumption log: the spec loads it from flash). -/
def Bst.fresh : Bst := ⟨.free, false, false, false, false, none, 0, 0, 0, 0, 0, 0⟩

/-- Work of a GC victim (R219). -/
inductive GcPhase where
  | select | copy | write | redirect | drained | erase
  deriving DecidableEq, Repr

/-- One GC or migration victim. -/
structure GcVictim where
  die : Nat
  block : Nat
  phase : GcPhase
  migration : Bool
  deriving DecidableEq, Repr

/-- One slot of the host map window (R196, R198). -/
structure WinSlot where
  handle : Nat
  segment : Nat
  /-- Epoch of the slot, and epoch of its entries in host memory (R197, R198). -/
  epoch : Nat
  written : Nat
  /-- The next entry read from it fails its check (an injected or host-side change). -/
  corrupt : Bool
  deriving DecidableEq, Repr

/-- Which tier answered a lookup, or how it ended (R188, R192): the write buffer, the map cache, the host window, a trimmed unit, an invalid entry, or a map page read still in flight. -/
inductive LookupEnd where
  | writeBuffer | cache | window | trimmed | invalid | filling
  deriving DecidableEq, Repr

/-- Map walker and block state table. -/
structure MapState where
  /-- Mapping unit of each namespace in 64-byte slots, 64 or 256, by handle; an unlisted handle has no namespace (R181). -/
  mu : Tab Nat
  /-- Where the next map journal record goes, as an offset in its ring. -/
  jHead : Nat
  /-- Map entries by handle × 2^48 + unit; an unlisted unit is trimmed (R186). -/
  entries : Tab (BitVec 64)
  /-- Directory entries by handle × 2^40 + map page (R193). -/
  dir : Tab (BitVec 64)
  /-- Segments in the DRAM map cache, least recently used first, as handle × 2^40 + segment (R194). -/
  cached : List Nat
  /-- Dirty segments, oldest first, as handle × 2^40 + segment (R194, R195). -/
  dirty : List Nat
  /-- Dirty segments whose map page has been written back and whose DIR_UPDATE is not yet durable; a new change takes a segment out (R195). -/
  cleaning : List Nat
  /-- Map page reads in flight, as handle × 2^40 + map page. -/
  filling : List Nat
  /-- The write-buffer index, in the order in which units entered (R192). -/
  wb : List WbUnit
  /-- Bytes of write-buffer room reserved for commands before step 2 (R32). -/
  reserved : Nat
  /-- The device write stamp and the highest reservation in MRAM (R189). -/
  stamp : Nat
  stampReserved : Nat
  /-- The map journal ring from its tail up, and its bytes in use (R201). -/
  journal : List JRecord
  /-- What each change whose record is not yet durable replaced: JSEQ, key, old entry, and whether it is a directory entry; newest first (R205). -/
  undo : List (Nat × Nat × BitVec 64 × Bool)
  /-- Changes held at R203 step 3 by a full ring (R205). -/
  held : List MapChange
  /-- Host map window slots by slot number, and the number granted (R196). -/
  window : Tab WinSlot
  slots : Nat
  /-- Free value of the window key drawn at the last enable (R196). -/
  windowKey : Nat
  /-- BST entries by die × 16,384 + block; unlisted is `Bst.fresh`. -/
  bst : Tab Bst
  gc : List GcVictim
  /-- Spare blocks left of each die (R223). -/
  spare : Tab Nat
  /-- Fill band 0 to 4 (R206). -/
  band : Nat
  /-- Media error log: (handle, unit) (R182, R260). -/
  mediaErr : List (Nat × Nat)
  /-- Bytes of host writes admitted, and of blocks returned by GC, in this and the previous 1 ms (R224). -/
  admitted : Nat
  returned : Nat
  lastReturned : Nat
  /-- The last lookup: handle, unit, how it ended, and its entry. -/
  lastLookup : Option (Nat × Nat × LookupEnd × BitVec 64)
  /-- Map pages a running checkpoint pass has still to write back; none when no pass runs (R195). -/
  ckpt : Option (List Nat)
  /-- Armed `MAP.ERR_INJECT` codes (R227). -/
  inject : List Nat
  deriving DecidableEq, Repr

/-- After reset: nothing mapped, nothing buffered, every block FREE. -/
def MapState.reset : MapState :=
  { mu := [], jHead := 0, entries := [], dir := [], cached := [], dirty := [], cleaning := [], filling := [], wb := [], reserved := 0, stamp := 0, stampReserved := 0
    journal := [], undo := [], held := [], window := [], slots := 0, windowKey := 0, bst := [], gc := [], spare := [], band := 0, mediaErr := [], admitted := 0
    returned := 0, lastReturned := 0, lastLookup := none, ckpt := none, inject := [] }

end Sys2Proof.Machine
end

