-- ==== Sys2Proof/Parts/Ferry.lean ====
section
/-! DEFINITION. State of the VIN monitor, the last ferry and restart recovery (R265 to R288). -/

namespace Sys2Proof.Machine

/-- STATE of the ferry record (R273). -/
inductive FerryState where
  | none | begun | done | replayed
  deriving DecidableEq, Repr

/-- The standing ferry record (R273). -/
structure FerryRecord where
  fseq : Nat
  state : FerryState
  sets : Nat
  vmin : Nat
  unitsAtStart : Nat
  unitsDumped : Nat
  bytesAtStart : Nat
  jseq : Nat
  sseq : Nat
  duration : Nat
  deriving DecidableEq, Repr

/-- An entry of the Persistent Event log: a code of the model's own naming, and two counts (R283, R287). -/
structure PEvent where
  code : Nat
  a : Nat
  b : Nat
  deriving DecidableEq, Repr

/-- VIN monitor, ferry and restart. -/
structure Ferry where
  /-- VIN in mV as last measured. -/
  vin : Nat
  /-- The PWR_FAIL state: raised, and not yet ended by a restart (R265). -/
  powerFail : Bool
  /-- Only PD00 is held; for a reset ferry PD02 and PD03 too (R276, R609). -/
  parked : Bool
  /-- Nanoseconds for which VIN has held while parked (R276). -/
  hold : Nat
  /-- FSEQ of the ferry whose record stands, and that record (R273). -/
  record : FerryRecord
  /-- What the floor blocks hold: the dumped units, in UIDX order (R272). -/
  dump : List WbUnit
  /-- Stripes whose accumulator the ferry saved (R269 step 6), as stripe numbers. -/
  savedParity : List Nat
  /-- Reset ferry rather than power loss (R609). -/
  resetFerry : Bool
  adminReady : Bool
  ioReady : Bool
  /-- The restart's replay has run; its Admin-ready waits for the boot record (R282, R531). -/
  replayed : Bool
  /-- Persistent Event log, oldest first. -/
  events : List PEvent
  deriving DecidableEq, Repr

/-- No ferry has run (R273). -/
def FerryRecord.none : FerryRecord := ⟨0, .none, 0, 0, 0, 0, 0, 0, 0, 0⟩

/-- After reset: no ferry, nothing recovered. -/
def Ferry.reset : Ferry :=
  { vin := 0, powerFail := false, parked := false, hold := 0, record := FerryRecord.none, dump := [], savedParity := [], resetFerry := false, adminReady := false
    ioReady := false, replayed := false, events := [] }

end Sys2Proof.Machine
end

