-- ==== Sys2Proof/Parts/Flash.lean ====
section
/-! DEFINITION. State of the flash channels, their dies' queues and the LDPC decoders (R148 to R180). -/

namespace Sys2Proof.Machine

/-- Read classes of R163. -/
inductive ReadClass where
  | a | b | c
  deriving DecidableEq, Repr

/-- For whom a codeword is read. -/
inductive ReadOwner where
  | host (cmd unit : Nat)
  | mapPage (handle page : Nat)
  | scan (run unit : Nat)
  | gc (die block : Nat)
  | verify (set page : Nat)
  | patrol
  | rebuild (die : Nat)
  deriving DecidableEq, Repr

/-- One codeword read on its way up the ladder (R163, R176). -/
structure ReadJob where
  id : Nat
  die : Nat
  block : Nat
  page : Nat
  cw : Nat
  cls : ReadClass
  promoted : Bool
  arrived : Count
  owner : ReadOwner
  /-- Rung 1 to 4. -/
  rung : Nat
  /-- The retry set whose levels the read uses; none is the zero-offset levels. -/
  set : Option Nat
  /-- The retry set rung 1 used under HINT_EN, skipped at rung 2. -/
  hintSet : Option Nat
  /-- Lowest syndrome weight so far and its set. -/
  best : Option (Nat × Option Nat)
  /-- Array reads still to make at rung 3 before its soft decode. -/
  softReads : Nat
  /-- Rung 3b instead of 3a. -/
  threeBits : Bool
  epoch : Nat
  deriving DecidableEq, Repr

/-- A program or an erase waiting for a die (R163). -/
inductive Work where
  | program (block page set member : Nat)
  | erase (block : Nat) (by_ : Initiator)
  deriving DecidableEq, Repr

/-- What a die runs. -/
inductive OpJob where
  | read (j : ReadJob)
  | work (w : Work)
  deriving DecidableEq, Repr

/-- A running or suspended operation: since when it runs, and how often it has been suspended (R166). -/
structure RunOp where
  job : OpJob
  since : Count
  susp : Nat
  deriving DecidableEq, Repr

/-- One die position as its channel sees it. -/
structure Die where
  readsA : List ReadJob
  readsB : List ReadJob
  readsC : List ReadJob
  work : List Work
  running : Option RunOp
  suspended : Option RunOp
  /-- Array reads left in the suspension's batch (R166). -/
  batch : Nat
  /-- Retry set whose levels the die holds; none is the zero-offset levels (R171). -/
  levels : Option Nat
  /-- Set that last succeeded at rung 2 (R176). -/
  hint : Option Nat
  /-- Retries of a transient fault made so far; 0 when none runs (R180). -/
  retry : Nat
  /-- A power token is held (R164). -/
  token : Bool
  /-- A token request is refused and outstanding (R594). -/
  asking : Bool
  deriving DecidableEq, Repr

/-- A die with nothing queued or running. -/
def Die.idle : Die := ⟨[], [], [], [], none, none, 0, none, none, 0, false, false⟩

/-- One channel beside its page registers. -/
structure Channel where
  started : Bool
  /-- WP_n is high (R157). -/
  wpHigh : Bool
  /-- CE_n0 and CE_n1 are driven high: the channel is fenced or parked (R179). -/
  ceHigh : Bool
  /-- Identifier and offered protocols of each position that answered (R157). -/
  answers : Tab (BitVec 48 × BitVec 2)
  /-- Positions of the hard failures in a row, newest first (R158). -/
  streak : List Nat
  /-- Codewords read and not yet decoded (R170). -/
  decoding : List ReadJob
  /-- Armed injections by position (R160). -/
  inject : Tab Nat
  deriving DecidableEq, Repr

/-- A channel before start-up. -/
def Channel.cold : Channel := ⟨false, false, false, [], [], [], []⟩

/-- A job of the soft pool; `hardMode` for a channel whose hard decoder is retired (R173). -/
structure SoftJob where
  job : ReadJob
  hardMode : Bool
  deriving DecidableEq, Repr

/-- Flash channels and the soft decoder pool. -/
structure Flash where
  /-- Dies by die index 16 × channel + position; unlisted is idle. -/
  dies : Tab Die
  /-- Channels; unlisted is cold. -/
  chans : Tab Channel
  /-- Foreground and background jobs of the soft pool, in arrival order (R172). -/
  fore : List SoftJob
  back : List SoftJob
  /-- The job each soft decoder runs. -/
  soft : Tab SoftJob
  /-- Armed LDS injections by decoder (R174). -/
  ldsInject : Tab Nat
  /-- Codewords handed to rung 4, in order (R176). -/
  recon : List ReadJob
  /-- Codewords decoded and waiting for their owner, oldest first: job and data; none is unrecoverable. -/
  ready : List (ReadJob × Option (List Byte))
  nextJob : Nat
  deriving DecidableEq, Repr

/-- After reset: cold channels and idle dies. -/
def Flash.reset : Flash := { dies := [], chans := [], fore := [], back := [], soft := [], ldsInject := [], recon := [], ready := [], nextJob := 0 }

end Sys2Proof.Machine
end

