-- ==== Sys2Proof/Parts/Host.lean ====
section
/-! DEFINITION. State of the host side: ports, controllers, queues, commands, namespaces, retention ranges, power states and the side-band (R105 to R147). -/

namespace Sys2Proof.Machine

/-- Status of a completion, by the name the spec uses; the vendor statuses are those of R127. -/
inductive NvStatus where
  | success | invalidOpcode | invalidField | internalError | invalidNamespace | sequenceError | sglLength | prpOffset | lbaRange
  | accessDenied | unrecoveredRead | compareFailure | reservationConflict | readOnlyRange | writeProtected | notReady | interrupted
  | abortRequested | sqDeletion | sqInvalid | cqInvalid | queueSize | queueDeletion | vectorInvalid | abortLimit | asyncLimit | logPage
  | sizeLimit | nsAttached | nsPrivate | nsNotAttached | nsCapacity | nsUnavailable | selfTest | controllerInvalid | controllerState | resources
  | slotInvalid | activationProhibited | guardCheck | tagCheck
  | keyExists | keyMissing | keySize | valueSize | capacityExceeded
  | programActivation | programInvalid | rangeSetInvalid
  | launchRefused | rangeConflict | retentionLocked | spanRefused | barchanBusy | meterUnavailable | stageRejected | programFault
  deriving DecidableEq, Repr

/-- Where a fetched command stands: to be carried out, held for write-buffer room (R32), begun and waiting, or ended with its status and DW0. -/
inductive CmdState where
  | fetched | held | waiting | done (status : NvStatus) (dw0 : Nat)
  deriving DecidableEq, Repr

/-- A command the queue engine has fetched and not yet completed (R116). -/
structure HostCmd where
  /-- Fetch order. -/
  id : Nat
  ctl : Nat
  q : Nat
  cid : Nat
  sqe : List Byte
  /-- Bytes its data pointer describes. -/
  dataLen : Nat
  /-- Logical key slot its key tag resolved to, none without a tag (R473). -/
  keySlot : Option Nat
  /-- Write-buffer bytes reserved for it (R32). -/
  room : Nat
  state : CmdState
  /-- Data returned to the host. -/
  reply : List Byte
  /-- Units whose arrival in flash, or a count whose passing, it waits for. -/
  units : List Nat
  until_ : Nat
  deriving DecidableEq, Repr

/-- A completion the engine has posted: controller, queue, CID, status, DW0, SQHD, phase, and the data that went before it (R27). -/
structure Posted where
  ctl : Nat
  q : Nat
  cid : Nat
  status : NvStatus
  dw0 : Nat
  sqhd : Nat
  phase : Bool
  reply : List Byte
  deriving DecidableEq, Repr

/-- A submission queue: entries, its CQ, priority class 0 to 3, PRP1, and the doorbell's tail and the fetched head. -/
structure SubQ where
  size : Nat
  cq : Nat
  prio : Nat
  base : Nat
  tail : Nat
  head : Nat
  deriving DecidableEq, Repr

/-- A completion queue: entries, vector, interrupts enabled, PRP1, the host's head, the device's tail and phase. -/
structure ComQ where
  size : Nat
  vector : Nat
  ien : Bool
  base : Nat
  head : Nat
  tail : Nat
  phase : Bool
  deriving DecidableEq, Repr

/-- An NVMe controller (R113, R114). -/
structure Ctrl where
  /-- CC.EN, CSTS.RDY, CSTS.CFS. -/
  enabled : Bool
  ready : Bool
  cfs : Bool
  /-- CC.AMS: 0 round robin, 1 weighted round robin with urgent priority class. -/
  ams : Nat
  sqs : Tab SubQ
  cqs : Tab ComQ
  /-- The I/O queue fetched last, and entries left in its visit (R118 FETCH_BURST). -/
  lastQ : Nat
  visit : Nat
  /-- Commands left of the high, medium and low classes in this round. -/
  wrr : Nat × Nat × Nat
  /-- Feature values by feature identifier. -/
  feats : Tab Nat
  /-- Asynchronous events already reported. -/
  seen : Nat
  /-- Secondary controller: online, flexible queue and interrupt resources (R114). -/
  online : Bool
  vq : Nat
  vi : Nat
  deriving DecidableEq, Repr

/-- A controller after reset. -/
def Ctrl.fresh : Ctrl := ⟨false, false, false, 0, [], [], 0, 0, (0, 0, 0), [], 0, false, 0, 0⟩

/-- What a namespace holds (R121, R122, R491). -/
inductive NsKind where
  | nvm | kv | memory | compute
  deriving DecidableEq, Repr

/-- Reservation state of a namespace (R121). -/
structure Reservation where
  /-- Registrants: controller and key. -/
  keys : List (Nat × Nat)
  holder : Option Nat
  rtype : Nat
  gen : Nat
  deriving DecidableEq, Repr

/-- A namespace (R122). -/
structure Namespace where
  kind : NsKind
  /-- Size in LBAs, or in bytes for a memory namespace. -/
  size : Nat
  /-- LBA bytes, metadata bytes, protection type. -/
  lba : Nat
  meta_ : Nat
  pi : Nat
  mu16 : Bool
  compress : Bool
  du4k : Bool
  shared : Bool
  attached : List Nat
  /-- Tenant of its attachment (R413, R456). -/
  tenant : Nat
  /-- 0 an ordinary namespace, 1 the span namespace, 2 the hidden member namespace (R549). -/
  span : Nat
  resv : Reservation
  /-- Streams allocated to it and those open (R120). -/
  streams : Nat
  open_ : List Nat
  deriving DecidableEq, Repr

/-- A retention range (R136). -/
structure RetRange where
  nsid : Nat
  slba : Nat
  count : Nat
  expiry : Nat
  once : Bool
  deriving DecidableEq, Repr

/-- A port's link (R106, R109). -/
structure Link where
  up : Bool
  rate : Nat
  width : Nat
  lastRate : Nat
  downSince : Option Count
  deriving DecidableEq, Repr

/-- A link that never trained. -/
def Link.down : Link := ⟨false, 0, 0, 0, none⟩

/-- NVMe power state: current, the state an entry under way goes to, and its steps done (R140, R141). -/
structure PowerState where
  cur : Nat
  target : Option Nat
  steps : Nat
  /-- Count since which no command has arrived (APST). -/
  idleSince : Count
  deriving DecidableEq, Repr

/-- The host side. -/
structure HostSide where
  linkA : Link
  linkB : Link
  /-- Controllers by controller ID. -/
  ctls : Tab Ctrl
  /-- Namespaces by handle. -/
  ns : Tab Namespace
  /-- Fetched commands, the oldest first. -/
  cmds : List HostCmd
  nextId : Nat
  posted : List Posted
  /-- Interrupts raised: controller and vector, the oldest first. -/
  vectors : List (Nat × Nat)
  /-- The controller being fetched and commands left of its weight (R116). -/
  turn : Nat
  left : Nat
  /-- Retention ranges by index, and the next index (R136). -/
  ranges : Tab RetRange
  power : PowerState
  /-- Generation of each vendor log page (R130). -/
  gens : Tab Nat
  /-- Error Information, newest first (queue, command identifier, status, command specific information), and Changed Namespace List contents. -/
  errors : List (Nat × Nat × NvStatus × Nat)
  changedNs : List Nat
  /-- A device self-test that runs: code and start. -/
  selfTest : Option (Nat × Count)
  /-- Sanitize operations done, and the last action. -/
  sanitized : Nat × Nat
  /-- The 8 metadata bytes of LBAs, by handle × 2^64 + LBA; an unlisted LBA has zeros (R122). -/
  blockMeta : Tab (List Byte)
  /-- Firmware image pieces downloaded: offset and bytes. -/
  download : List (Nat × List Byte)
  /-- NVMe-MI configuration values and VPD (R147). -/
  mi : Tab Nat
  vpd : List Byte
  /-- Side-band requests received and responses sent. -/
  mctpIn : List (List Byte)
  mctpOut : List (List Byte)
  /-- Armed `NQE` injections, and `HF` injections by port × 16 + code. -/
  nqeInject : List Nat
  deriving DecidableEq, Repr

/-- After reset: links down, no controller enabled, no namespace (a device as shipped, see the assumption log). -/
def HostSide.reset : HostSide :=
  { linkA := Link.down, linkB := Link.down, ctls := [], ns := [], cmds := [], nextId := 0, posted := [], vectors := [], turn := 0, left := 0, ranges := []
    power := ⟨0, none, 0, 0⟩, gens := [], errors := [], changedNs := [], selfTest := none, sanitized := (0, 0), blockMeta := [], download := [], mi := [], vpd := []
    mctpIn := [], mctpOut := [], nqeInject := [] }

end Sys2Proof.Machine
end

