-- ==== Sys2Proof/Parts/Match.lean ====
section
/-! DEFINITION. State of the match engine (R455 to R463). -/

namespace Sys2Proof.Machine

/-- One match entry (R455). -/
structure MatchEntry where
  value : BitVec 160
  mask : BitVec 160
  prio : Nat
  result : Word
  valid : Bool
  deriving DecidableEq, Repr

/-- An invalid entry of zeros. -/
def MatchEntry.fresh : MatchEntry := ⟨0, 0, 0, 0, false⟩

/-- What is corrupt in a stored entry: its array bit, its row, its shadow (R462, R463). -/
structure MatchBad where
  array : Bool
  row : Bool
  shadow : Bool
  deriving DecidableEq, Repr

/-- The match engine beside its page. -/
structure Match where
  /-- Entries by number; unlisted is invalid and zero. -/
  entries : Tab MatchEntry
  bad : Tab MatchBad
  /-- The last lookup: hit, multi, index in its partition, priority and result (R457). -/
  last : Option (Bool × Bool × Nat × Nat × Word)
  deriving DecidableEq, Repr

/-- After reset: every entry invalid (R455). -/
def Match.reset : Match := ⟨[], [], none⟩

end Sys2Proof.Machine
end

