-- ==== Sys2Proof/Parts/Power.lean ====
section
/-! DEFINITION. State of the power management unit, the control engine and the strap and status pins (R572 to R599, R615 to R635). -/

namespace Sys2Proof.Machine

/-- The shadow image of a domain: ISEQ, and the saved live and in-force registers of its pages, keyed as the register file is (R334). `bad` when it was written with a bad check. -/
structure ShadowImage where
  iseq : Nat
  live : Tab Word
  inForce : Tab Word
  bad : Bool
  deriving DecidableEq, Repr

/-- History of a loop: e[n−1] to e[n−3], y[n−1] to y[n−3], v[n−1] and v[n−2], and the duty last sent to the modulators (R583, R584). -/
structure LoopHist where
  e1 : Int
  e2 : Int
  e3 : Int
  y1 : Int
  y2 : Int
  y3 : Int
  v1 : Int
  v2 : Int
  duty : Int
  deriving DecidableEq, Repr

/-- Cleared histories (R585). -/
def LoopHist.zero : LoopHist := ⟨0, 0, 0, 0, 0, 0, 0, 0, 0⟩

/-- Pins whose level the block holds or has sampled (R621 to R625). -/
structure Pins where
  /-- Straps as sampled: MGMT_MODE selects I3C; TEST_EN. -/
  mgmtI3c : Bool
  testEn : Bool
  /-- REFCLK_A runs. -/
  refclk : Bool
  /-- PERST_A_n and PERST_B_n asserted. -/
  perstA : Bool
  perstB : Bool
  /-- CLKREQ_A_n deasserted: the link is in L1.2 (R624). -/
  clkreqOff : Bool
  /-- PWRGD_OUT high, DEV_FAULT_n low (R625). -/
  pwrgd : Bool
  devFault : Bool
  deriving DecidableEq, Repr

/-- Power management, control engine and pins. -/
structure Power where
  /-- ISEQ of the last image of each domain, as PD00 keeps it, and the ISEQ given last (R334). -/
  iseq : Tab Nat
  nextIseq : Nat
  /-- The newest image of each domain in the shadow ring. -/
  images : Tab ShadowImage
  /-- Domains that the running or last power-state entry switched off, the last one first (R577). -/
  entryOff : List Nat
  /-- Rails whose phases run, one bit each (R573). -/
  rails : Nat
  /-- VIN monitor in mV, as last read by the control engine. -/
  vin : Nat
  loops : Tab LoopHist
  /-- Samples in a row at 115 °C or more, by sensor (R588). -/
  hot : Tab Nat
  /-- The sensor that an injection holds at 112 °C, and until when (R597). -/
  heated : Option (Nat × Count)
  /-- The park waits for 90 °C, or for VIN to fall to 5.5 V (R588, R631). -/
  hotPark : Bool
  overPark : Bool
  /-- The power-token slot that runs, its tokens left, and the dies whose requests it has refused, in order (R592, R594). -/
  slot : Option Nat
  tokens : Nat
  refused : List Nat
  /-- Armed `PMU.ERR_INJECT`: domain and code (R595). -/
  inject : List (Nat × Nat)
  pins : Pins
  deriving DecidableEq, Repr

/-- After reset: every rail off, no slot running, pins at rest. -/
def Power.reset : Power :=
  { iseq := [], nextIseq := 0, images := [], entryOff := [], rails := 0, vin := 0, loops := [], hot := [], heated := none, hotPark := false, overPark := false
    slot := none, tokens := 0, refused := [], inject := [], pins := ⟨false, false, true, false, false, false, false, false⟩ }

end Sys2Proof.Machine
end

