-- ==== Sys2Proof/Parts/Programs.lean ====
section
/-! DEFINITION. State of computational programs and the built-in services (R491 to R512). -/

namespace Sys2Proof.Machine

/-- Pieces of an image that Load Program is moving: compute namespace handle, index, image bytes in all, and the pieces. -/
structure Loading where
  ns : Nat
  index : Nat
  size : Nat
  pieces : List (Nat × List Byte)
  deriving DecidableEq, Repr

/-- A loaded program (R495). -/
structure Program where
  ns : Nat
  index : Nat
  image : List Byte
  deriving DecidableEq, Repr

/-- An activation: where it lies and what it was granted (R496, R497). -/
structure Activation where
  ns : Nat
  index : Nat
  /-- The issuing controller. -/
  ctl : Nat
  cluster : Nat
  place : Nat
  env : Nat
  /-- Rings granted: caravan and ring. -/
  rings : List (Nat × Nat)
  /-- Match partition granted. -/
  part : Option Nat
  /-- The run slot: the instance handle. -/
  slot : Nat
  entry : Nat
  ceiling : Nat
  tenant : Nat
  /-- Its boot record is durable; and the deactivation that waits, by command. -/
  live : Bool
  closing : Option Nat
  deriving DecidableEq, Repr

/-- A run (R499, R500). -/
structure Run where
  cmd : Nat
  slot : Nat
  /-- The command's memory range set. -/
  rset : Nat
  /-- When the slot entered READY; none while it waits for PROGRAM_START. -/
  ready : Option Count
  limitMs : Nat
  deriving DecidableEq, Repr

/-- A memory range: memory namespace handle, offset, length (R493). -/
structure MemRange where
  ns : Nat
  off : Nat
  len : Nat
  deriving DecidableEq, Repr

/-- How a segment of a scan stands (R503 to R506). -/
structure Segment where
  /-- First unit and units. -/
  first : Nat
  units : Nat
  /-- Status of R506: 0 done, 1 unit unrecoverable, 2 stream fault, 3 not run; none while it runs. -/
  status : Option Nat
  failing : Nat
  outBytes : Nat
  deriving DecidableEq, Repr

/-- A scan under way (R502 to R506). -/
structure Scan where
  cmd : Nat
  nsid : Nat
  slba : Nat
  nlb : Nat
  rset : Nat
  destRange : Nat
  destOff : Nat
  destLen : Nat
  sumRange : Nat
  sumOff : Nat
  prog : List Byte
  segs : List Segment
  /-- Bytes written at DEST, the LBA at which the output stopped, units read and trimmed. -/
  out : Nat
  full : Option Nat
  read : Nat
  trimmed : Nat
  /-- Combined aggregates and counters. -/
  agg : List Byte
  deriving DecidableEq, Repr

/-- An entry of a KV bucket (R508). -/
structure KvEntry where
  slot : Nat
  key : List Byte
  half : Bool
  vlen : Nat
  deriving DecidableEq, Repr

/-- A KV namespace: its capacity C in bytes, buckets NB, and per bucket GEN and the entries in use, in entry order (R507, R508). -/
structure KvSpace where
  capacity : Nat
  nb : Nat
  gens : Tab Nat
  buckets : Tab (List KvEntry)
  deriving DecidableEq, Repr

/-- A secondary index (R511, R512). -/
structure SecIndex where
  ns : Nat
  type : Nat
  width : Nat
  off : Nat
  building : Bool
  /-- An update passed the budget. -/
  above : Bool
  /-- Field value and key, in index order. -/
  entries : List (List Byte × List Byte)
  deriving DecidableEq, Repr

/-- Programs and services. -/
structure Programs where
  loading : List Loading
  images : List Program
  acts : List Activation
  runs : List Run
  /-- Memory range sets: compute namespace handle × 256 + number. -/
  sets : Tab (List MemRange)
  /-- SLM frames of each memory namespace, by handle, as GiB numbers of the DRAM window (R492). -/
  frames : Tab (List Nat)
  scans : List Scan
  kv : Tab KvSpace
  /-- Hot keys, the least recently used first: match entry, namespace handle and key (R510). -/
  hot : List (Nat × Nat × List Byte)
  indexes : Tab SecIndex
  deriving DecidableEq, Repr

/-- After reset: nothing loaded, activated or run. -/
def Programs.reset : Programs :=
  { loading := [], images := [], acts := [], runs := [], sets := [], frames := [], scans := [], kv := [], hot := [], indexes := [] }

end Sys2Proof.Machine
end

