-- ==== Sys2Proof/Parts/Sandglass.lean ====
section
/-! DEFINITION. State of the sandglass, the launch table and the snapshot trigger (R77 to R104). -/

namespace Sys2Proof.Machine

/-- STATE of a launch entry (R88). -/
inductive EntryState where
  | free | armed | fired | failed | cancelled | sent
  deriving DecidableEq, Repr

/-- One launch table entry (R88). -/
structure LaunchEntry where
  time : Count
  page : Nat
  action : Nat
  arg : Word
  state : EntryState
  tie : Bool
  late : Bool
  outcome : Nat
  detail : Nat
  deriving DecidableEq, Repr

/-- A FREE entry with every other field 0: the reset value (R608). -/
def LaunchEntry.empty : LaunchEntry := ⟨0, 0, 0, 0, .free, false, false, 0, 0⟩

/-- A snapshot whose latch order is out (R95, R100). -/
structure SnapOrder where
  time : Count
  seq : Nat
  deriving DecidableEq, Repr

/-- Sandglass and launch unit state beside the `SGL` and `LCH` registers. -/
structure Sandglass where
  /-- TIME_HI holding register of each initiator number (R79). -/
  hiHold : Tab Word
  /-- PTM dialogues failed in a row (R83). -/
  ptmFailed : Nat
  /-- SPAN_SYNC edges missing in a row (R84). -/
  syncMissed : Nat
  /-- Snapshots ordered, in the order in which their orders went out (R95). -/
  orders : List SnapOrder
  /-- Outcomes on their way back to the launch unit: entry, OUTCOME × 16 + DETAIL (R96). -/
  returns : Tab Nat
  /-- The refresh anchor A (R99). -/
  anchor : Count
  /-- The launch table; an unlisted entry is FREE. -/
  entries : Tab LaunchEntry
  deriving DecidableEq, Repr

/-- After reset: no entry armed, no snapshot ordered, the anchor at 0 (R99, R608). -/
def Sandglass.reset : Sandglass := ⟨[], 0, 0, [], [], 0, []⟩

end Sys2Proof.Machine
end

