-- ==== Sys2Proof/Parts/Span.lean ====
section
/-! DEFINITION. State of the span group controller: descriptor, generations and votes, quorum, messages, the lead's and the front's work, the span journal and dirty maps (R547 to R571). -/

namespace Sys2Proof.Machine

/-- MEMBER_i of the group descriptor (R547). -/
structure SpanEntry where
  serial : Nat
  window : Nat
  state : Nat
  port : Nat
  deriving DecidableEq, Repr

/-- A group descriptor (R547). -/
structure SpanDesc where
  group : Nat
  gen : Nat
  members : Nat
  layout : Nat
  chunk : Nat
  witnessEn : Bool
  index : Nat
  mu16 : Bool
  lba4k : Bool
  nsid : Nat
  capacity : Nat
  fwMin : Nat
  fwMax : Nat
  entries : List SpanEntry
  deriving DecidableEq, Repr

/-- A span journal record's payload (R559). -/
inductive SpanRecord where
  | intent (stripe gen mask : Nat) (rmw : Bool) (lead : Nat)
  | done (stripe : Nat)
  | replica (stripe gen mask : Nat) (rmw : Bool) (lead : Nat)
  | propose (gen proposer : Nat) (digest : List Byte)
  | vote (gen voter : Nat) (digest : List Byte)
  | commit (gen : Nat) (desc : List Byte)
  | nonceReserve (mark : Nat)
  | dirtyBegin (member gen : Nat)
  | resyncDone (stripe outcome : Nat)
  | mark
  deriving DecidableEq, Repr

/-- A message to a member: TYPE, header, body, the GCM counter that sealed it, and a tag corrupted by injection (R553, R570). -/
structure SpanMsg where
  dest : Nat
  type : Nat
  hdr : SpanHdr
  body : SpanBody
  counter : Nat
  corrupt : Bool
  deriving DecidableEq, Repr

/-- A message that waits for its answer, with the count at which it went out and whether it was sent again (R568). -/
structure SpanWait where
  msg : SpanMsg
  since : Count
  retried : Bool
  deriving DecidableEq, Repr

/-- Units that a front brought to the lead: front, its reference, data role, first offset in the chunk, unit bytes (R555). -/
structure SpanPiece where
  front : Nat
  ref : Nat
  role : Nat
  first : Nat
  units : List (List Byte)
  fua : Bool
  deriving DecidableEq, Repr

/-- Where a stripe in flight stands (R555). -/
inductive SpanPhase where
  | gather | read | intent | chunks
  deriving DecidableEq, Repr

/-- A stripe that this member leads and writes (R555, R556). -/
structure SpanFlight where
  stripe : Nat
  gen : Nat
  since : Count
  phase : SpanPhase
  pieces : List SpanPiece
  rmw : Bool
  /-- What each role is to write: role, first offset, units; P is 0xFE and Q is 0xFF. -/
  out : List (Nat × Nat × List (List Byte))
  /-- Own units written with FUA and not yet in flash (R31). -/
  own : List Nat
  deriving DecidableEq, Repr

/-- Whom a gather of chunks serves. -/
inductive SpanOwner where
  | flight (stripe : Nat)
  /-- A unit of a host command, and the mirror copies still to try. -/
  | job (cmd unit : Nat) (rest : List Nat)
  /-- A unit that is being reconstructed. -/
  | degraded (cmd unit : Nat)
  deriving DecidableEq, Repr

/-- Old units on their way: offsets [first, first + count) of the roles of a stripe. -/
structure SpanGather where
  owner : SpanOwner
  stripe : Nat
  first : Nat
  count : Nat
  /-- Reference and role of each READ_REQ that is out. -/
  waits : List (Nat × Nat)
  got : List (Nat × Option (List (List Byte)))
  deriving DecidableEq, Repr

/-- A host command on the span namespace: its units, and for a write the data and the pieces not yet acknowledged by their leads (R555, R557, R558). -/
structure SpanJob where
  cmd : Nat
  units : List (Nat × Option (List Byte))
  /-- Units whose read waits for a resync (R558). -/
  blocked : List Nat
  slba : Nat
  data : List Byte
  /-- LBAs it reads; source ranges of a Copy; the data a Compare compares with. -/
  blocks : Nat
  copy : List (Nat × Nat)
  cmp : Option (List Byte)
  fua : Bool
  writing : Bool
  /-- Pieces and flushes that their leads have not acknowledged; kept until then (R557). -/
  held : List SpanMsg
  /-- The status it fails with. -/
  fail : Option NvStatus
  deriving DecidableEq, Repr

/-- What the last heartbeat of a member said, and how many are missing since (R561, R568). -/
structure SpanHeard where
  missing : Nat
  at_ : Count
  beat : SpanBeat
  deriving DecidableEq, Repr

/-- A CHUNK written with FUA: its answer goes out once its units are in flash (R31, R555). -/
structure SpanLate where
  units : List Nat
  msg : SpanMsg
  deriving DecidableEq, Repr

/-- Span group state beside the `SPN` page. -/
structure Span where
  /-- The committed descriptor. -/
  desc : Option SpanDesc
  /-- The generation before it, while that drains, and when it became so (R565). -/
  prev : Option (SpanDesc × Count)
  /-- A committed generation that waits for its time T (R564). -/
  next : Option (SpanDesc × Count)
  /-- The coordinator's proposal in progress, the members that voted for it, and when it was sent. -/
  proposal : Option (SpanDesc × List Nat × Count)
  /-- Highest generation number used by a proposal or a commit (R564). -/
  lastGen : Nat
  /-- Generation and digest last voted for (R564). -/
  voted : Option (Nat × List Byte)
  /-- MEMBER.STATE code of a device that is joining, or refused by its own check (R567). -/
  own : Option Nat
  /-- The serial its JOIN put into its slot, while it asks (R569). -/
  joins : Option Nat
  /-- Handle of the hidden member namespace (R549). -/
  handle : Nat
  /-- Witness vote: the member that holds it and the generation it supports (R566). -/
  witness : Option (Nat × Nat)
  heard : Tab SpanHeard
  /-- Heartbeats in a row with a time error within 400 ns (R563). -/
  good : Nat
  /-- This member drives SPAN_SYNC; the pulse code of the next millisecond (R562). -/
  driver : Bool
  pulse : Nat
  /-- Reserved counter mark of slot 0xFFF1 (R554). -/
  nonceMark : Nat
  /-- Highest counter accepted from each sender (R553). -/
  floor : Tab Nat
  /-- Bytes posted into each peer's ring and bytes of it the peer has consumed; bytes of each own ring consumed (R552). -/
  posted : Tab Nat
  credit : Tab Nat
  consumed : Tab Nat
  /-- Messages that wait for room, and messages sent. -/
  queue : List SpanMsg
  out : List SpanMsg
  waits : List SpanWait
  nextRef : Nat
  flights : List SpanFlight
  /-- DATA for a stripe whose write is in flight (R556). -/
  later : List (Nat × SpanPiece)
  gathers : List SpanGather
  jobs : List SpanJob
  late : List SpanLate
  /-- The span journal: records, oldest first, with PSEQ; the ring's write offset (R559). -/
  journal : List (Nat × SpanRecord)
  pseq : Nat
  head : Nat
  /-- Stripes led here that are dirty, by absent member; members for which every stripe is dirty (R569). -/
  dirty : Tab (List Nat)
  dirtyAll : List Nat
  /-- Members whose rebuild this lead has finished. -/
  finished : List Nat
  unresync : List Nat
  resyncAll : Bool
  /-- Armed `SPN.ERR_INJECT` codes, and heartbeats left with a skewed time error (R570). -/
  inject : List Nat
  skew : Nat
  deriving DecidableEq, Repr

/-- After reset: no group (R570: the identity comes from MRAM, which holds none on an unused part). -/
def Span.reset : Span :=
  { desc := none, prev := none, next := none, proposal := none, lastGen := 0, voted := none, own := none, joins := none, handle := 0, witness := none, heard := []
    good := 0, driver := false, pulse := 0, nonceMark := 0, floor := [], posted := [], credit := [], consumed := [], queue := [], out := [], waits := [], nextRef := 1
    flights := [], later := [], gathers := [], jobs := [], late := [], journal := [], pseq := 0, head := 0, dirty := [], dirtyAll := [], finished := [], unresync := []
    resyncAll := false, inject := [], skew := 0 }

end Sys2Proof.Machine
end

