-- ==== Sys2Proof/Parts/Stripe.lean ====
section
/-! DEFINITION. State of the stripe engine: block sets, open stripes, the stripe journal, resynchronisation and rebuild (R229 to R264). -/

namespace Sys2Proof.Machine

/-- A set member: substituted or not, die and block (R233). -/
structure Member where
  sub : Bool
  die : Nat
  block : Nat
  deriving DecidableEq, Repr

/-- A set table entry (R233). -/
structure SetEntry where
  width : Nat
  prot : Nat
  slc : Bool
  open_ : Bool
  substituted : Bool
  provisional : Bool
  collect : Bool
  pages : Nat
  next : Nat
  members : List Member
  deriving DecidableEq, Repr

/-- Where a stripe stands between its first page and its close: being filled, parity programmed and under verify, closed by the fallback, or kept after a verify at rung 4 until its units have moved (R237 to R241). -/
inductive StripePhase where
  | filling | verifying | provisional | collecting
  deriving DecidableEq, Repr

/-- An open stripe: the page NEXT of an open set (R237). -/
structure OpenStripe where
  set : Nat
  page : Nat
  phase : StripePhase
  /-- Data members whose program has passed, and PAD pages among them. -/
  mask : Nat
  pads : Nat
  /-- An accumulator is held in Landing. -/
  acc : Bool
  firstAt : Count
  /-- Provisional parity pages: P die, block, page and Q die, block, page (R242). -/
  prov : Option (Nat × Nat × Nat × Nat × Nat × Nat)
  /-- Units its pages hold, with their new map entries. -/
  units : List (Nat × Nat × BitVec 64)
  deriving DecidableEq, Repr

/-- The payload of a stripe journal record (R242). -/
inductive SPayload where
  | setOpen (set : Nat) (e : SetEntry) (chmask : Nat) (posmask : List Nat)
  | setSkip (set reason : Nat)
  | stripeProg (stripe mask : Nat)
  | stripeClose (stripe pads result : Nat)
  | provParity (stripe mask : Nat) (loc : Nat × Nat × Nat × Nat × Nat × Nat)
  | setClose (set last : Nat)
  | substitute (set member oldDie oldBlock newDie newBlock : Nat)
  | resyncDone (stripe outcome : Nat)
  | rebuildState (die state done total : Nat)
  | mark
  deriving DecidableEq, Repr

/-- One stripe journal record; `torn` when its RCHECK is broken (R205). -/
structure SRecord where
  seq : Nat
  payload : SPayload
  torn : Bool
  deriving DecidableEq, Repr

/-- Rebuild states of R253. -/
inductive RbState where
  | none | fenced | census | restore | paused | done | copyOut
  deriving DecidableEq, Repr

/-- The rebuild of one die (R253 to R257). -/
structure Rebuild where
  state : RbState
  prev : RbState
  /-- Census: block, page, handle, unit, entry, by block and page (R254). -/
  census : List (Nat × Nat × Nat × Nat × BitVec 64)
  /-- Blocks still to restore, ascending. -/
  todo : List Nat
  done : Nat
  total : Nat
  unrecoverable : Nat
  retiredAt : Nat
  deriving DecidableEq, Repr

/-- A die never rebuilt. -/
def Rebuild.idle : Rebuild := ⟨.none, .none, [], [], 0, 0, 0, 0⟩

/-- The stripe engine. -/
structure Stripe where
  sets : Tab SetEntry
  nextSet : Nat
  /-- Sets skipped in a row (R235). -/
  skips : Nat
  stripes : List OpenStripe
  journal : List SRecord
  /-- Where the next stripe journal record goes, as an offset in its ring. -/
  sHead : Nat
  /-- Unresynchronised stripes in queue order (R244). -/
  unresync : List Nat
  rebuilds : Tab Rebuild
  /-- Reserve left of each die (R249). -/
  reserve : Tab Nat
  /-- Dies evacuating towards the hot-spare role (R250). -/
  evacuating : List Nat
  /-- Substitute blocks: die × 16,384 + block. -/
  substitutes : List Nat
  /-- Verify runs in mode 0b00 until the next applied commit (R261). -/
  verifyAll : Bool
  /-- The open side block of each channel: die × 16,384 + block, and its next page (R241). -/
  side : Tab (Nat × Nat)
  /-- Stripes whose P was programmed with a flipped byte under injection (R261). -/
  badParity : List Nat
  /-- The whole-array pass of R246 or of REQUEST.RESYNC runs. -/
  wholePass : Bool
  /-- Armed `STR.ERR_INJECT` codes. -/
  inject : List Nat
  deriving DecidableEq, Repr

/-- After reset: no set, no stripe. -/
def Stripe.reset : Stripe :=
  { sets := [], nextSet := 0, skips := 0, stripes := [], journal := [], sHead := 0, unresync := [], rebuilds := [], reserve := [], evacuating := [], substitutes := []
    verifyAll := false, side := [], badParity := [], wholePass := false, inject := [] }

end Sys2Proof.Machine
end

