-- ==== Sys2Proof/Parts/Toll.lean ====
section
/-! DEFINITION. State of the toll collectors and of the toll meter (R535 to R546). -/

namespace Sys2Proof.Machine

/-- An entry of a collector: KIND, TENANT, AMOUNT (R538). -/
structure TapEntry where
  kind : Nat
  tenant : Nat
  amount : Nat
  deriving DecidableEq, Repr

/-- One tap and its collector (R537, R538). -/
structure Collector where
  /-- Busy entries, oldest first; at most 256. -/
  entries : List TapEntry
  /-- Events that wait for a free entry, with the count since which they wait (R17). -/
  waiting : List (TapEntry × Count)
  /-- SEQ of the next word, and the SEQ that the meter expects. -/
  seq : Nat
  expect : Nat
  /-- Words on the tap that the meter has not taken, oldest first. -/
  wire : List (BitVec 80)
  deriving DecidableEq, Repr

/-- A collector with nothing to send. -/
def Collector.empty : Collector := ⟨[], [], 0, 0, []⟩

/-- A tenant record (R539). -/
structure TenantRecord where
  tenant : Nat
  closed : Bool
  overflow : Bool
  firstSeq : Nat
  bytesRead : Nat
  bytesWritten : Nat
  cvnNs : Nat
  coreNs : Nat
  capMib : Nat
  capMibS : Nat
  cvnBytes : Nat
  deriving DecidableEq, Repr

/-- One copy of the meter's records in its MRAM (R540). `good` says that its CRC-32C passes. -/
structure MeterCopy where
  gen : Nat
  good : Bool
  records : Tab TenantRecord
  mtime : Nat
  tapErr : Nat
  refused : Nat
  deriving DecidableEq, Repr

/-- A stored statement: its STSEQ, its 4,096-byte head and its 1,024 records (R543). -/
structure Statement where
  seq : Nat
  head : List Byte
  records : List (List Byte)
  deriving DecidableEq, Repr

/-- A request the meter has queued: TYPE, TENANT, ARG, and for a fresh one the STSEQ it waits for; `port` for one of the toll port (R543, R546). -/
structure TollReq where
  type : Nat
  tenant : Nat
  arg : Nat
  need : Nat
  own : Bool
  deriving DecidableEq, Repr

/-- The item the meter presents (R545). -/
structure TollItem where
  seq : Nat
  kind : Nat
  bytes : List Byte
  since : Nat
  chunk : Nat
  deriving DecidableEq, Repr

/-- The collectors, the meter and what main firmware has of it. -/
structure Toll where
  taps : Tab Collector
  /-- PD02 is on and the ROM runs. -/
  running : Bool
  /-- Meter time in microseconds, and the device count at which it stood so (R540). -/
  mtime : Nat
  asOf : Count
  records : Tab TenantRecord
  /-- Meter time of each tenant's last event. -/
  lastEvent : Tab Nat
  copyA : MeterCopy
  copyB : MeterCopy
  /-- Auditor keys, Ed25519 and ML-DSA-65; highest PSEQ; PERIOD_ALIGN (R542). -/
  auditor : Option (List Byte × List Byte)
  pseq : Nat
  align : Nat
  /-- The audit ring, oldest first, and the newest ASEQ. -/
  audit : List (List Byte)
  aseq : Nat
  /-- Statements kept, oldest first; the newest STSEQ; the one being formed: KIND, head without signatures, records. -/
  statements : List Statement
  stseq : Nat
  forming : Option Statement
  /-- Meter second counted last, and meter hour whose statement was formed last. -/
  second : Nat
  hour : Nat
  queue : List TollReq
  item : Option TollItem
  itemSeq : Nat
  /-- The last TIME_MARK: ms and meter time. -/
  mark : Option (Nat × Nat)
  tapErr : Nat
  refused : Nat
  powerOns : Nat
  /-- FLAGS of the next statement: GAP, TAP_ERROR, LOSS, PARAM. -/
  gap : Bool
  tapFlag : Bool
  loss : Bool
  param : Bool
  /-- Taps whose FLUSHED word has come (R541). -/
  flushed : List Nat
  /-- Slots whose CLOSED record goes at the next statement (R542). -/
  closing : List Nat
  /-- Tenants whose FINAL statement waits for the one being formed. -/
  toClose : List Nat
  /-- Responses of the toll port not yet taken: command code and bytes. -/
  port : List (Nat × List Byte)
  /-- Fresh statements that the toll port waits for: the STSEQ needed. -/
  portWait : List Nat
  /-- ITEM_SEQ main firmware collected last, and the statements it stores, newest first (R544). -/
  collected : Nat
  stored : List (List Byte)
  deriving DecidableEq, Repr

/-- A copy never written. -/
def MeterCopy.none : MeterCopy := ⟨0, false, [], 0, 0, 0⟩

/-- After reset: the meter stopped, nothing counted since manufacture. -/
def Toll.reset : Toll :=
  { taps := [], running := false, mtime := 0, asOf := 0, records := [], lastEvent := [], copyA := MeterCopy.none, copyB := MeterCopy.none, auditor := none, pseq := 0
    align := 0, audit := [], aseq := 0, statements := [], stseq := 0, forming := none, closing := [], toClose := [], second := 0, hour := 0, queue := [], item := none
    itemSeq := 0, mark := none, tapErr := 0, refused := 0, powerOns := 0, gap := false, tapFlag := false, loss := false, param := false, flushed := [], port := []
    portWait := [], collected := 0, stored := [] }

end Sys2Proof.Machine
end

