-- ==== Sys2Proof/Machine/State.lean ====
section
/-! DEFINITION. The state of the block, why a command stops, and the value of the state right after reset. -/

namespace Sys2Proof.Machine

/-- Why the model would stop a command: no command of the table stops, so there is no constructor and nothing raises one. -/
inductive Fault where
  deriving DecidableEq, Repr

/-- Why a command has no meaning. -/
inductive Refusal where
  /-- Raised by an arm of `exec` whose command has no meaning yet, under the command's mnemonic; safe. -/
  | notModelled (mnemonic : String)
  deriving DecidableEq, Repr


/-- The state of the block: one part per unit, and the queue of waiting commands, first in first out. -/
structure State where
  /-- What every page shares: variant, sandglass count, registers, epochs, fault log. -/
  com : Common
  /-- Sandglass, launch table and snapshot orders. -/
  sgl : Sandglass
  /-- Landing, MRAM and DRAM. -/
  mem : Memory
  /-- Resets, re-admissions and activation. -/
  flt : Faults
  /-- Flash channels, dies and decoders. -/
  fch : Flash
  /-- Map walker, write buffer, journal and block state table. -/
  map : MapState
  /-- Stripe engine and rebuild. -/
  str : Stripe
  /-- Last ferry and restart. -/
  fer : Ferry
  /-- Key store and digest engines. -/
  key : Keys
  /-- Match engine. -/
  mte : Match
  /-- Clusters and cores. -/
  nel : Nelius
  /-- Dispatcher. -/
  dis : Dispatch
  /-- Caravans. -/
  cvn : Caravans
  /-- Host side. -/
  hst : HostSide
  /-- Security processor and boot. -/
  bot : Boot
  /-- Computational programs and services. -/
  prg : Programs
  /-- Toll collectors and meter. -/
  tol : Toll
  /-- Power management, control engine and pins. -/
  pwr : Power
  /-- Span group. -/
  spn : Span
  /-- The commands that wait, first in first out. -/
  pending : List Instr
  deriving DecidableEq, Repr

/-- The block right after reset: every part at its reset value, no command waiting (R608). Values that the spec does not give are named in the assumption log. -/
def State.reset : State :=
  { com := Common.reset
    sgl := Sandglass.reset
    mem := Memory.reset
    flt := Faults.reset
    fch := Flash.reset
    map := MapState.reset
    str := Stripe.reset
    fer := Ferry.reset
    key := Keys.reset
    mte := Match.reset
    nel := Nelius.reset
    dis := Dispatch.reset
    cvn := Caravans.reset
    hst := HostSide.reset
    bot := Boot.reset
    prg := Programs.reset
    tol := Toll.reset
    pwr := Power.reset
    spn := Span.reset
    pending := [] }

end Sys2Proof.Machine
end

