-- ==== Sys2Proof/Machine/Pages.lean ====
section
/-! DEFINITION. Register pages: the page table of R45, the common frame of R48 to R52, reading and setting registers, page faults and interrupts, the leaky bucket, the epochs of work units, and the fault log's entries. -/

namespace Sys2Proof

/-! ### Initiators -/

/-- The initiator number of R56, or 0x80 for a hardware block and 0xFE for the host (R606). -/
def Initiator.num : Initiator → Nat
  | .sp n => 1 + n.val
  | .crew c k => 0x40 + 8 * c.val + k.val
  | .passenger c k => 0x40 + 8 * c.val + k.val
  | .block _ => 0x80
  | .host => 0xFE

/-- The page index of an initiating hardware block, else 0 (R606 INIT_PAGE). -/
def Initiator.initPage : Initiator → Nat
  | .block p => p.toNat
  | _ => 0

/-- Crew or the security processor. -/
def Initiator.isCrewOrSp : Initiator → Bool
  | .sp _ => true
  | .crew _ _ => true
  | _ => false

/-- The security processor. -/
def Initiator.isSp : Initiator → Bool
  | .sp _ => true
  | _ => false

/-- A passenger. -/
def Initiator.isPassenger : Initiator → Bool
  | .passenger _ _ => true
  | _ => false

end Sys2Proof

namespace Sys2Proof.Machine

/-! ### Page numbers (R45) -/

/-- Page of `SYS`. -/
def pSYS : Nat := 0x000
/-- Page of `FLT`. -/
def pFLT : Nat := 0x001
/-- Page of `SGL`. -/
def pSGL : Nat := 0x002
/-- Page of `LCH`. -/
def pLCH : Nat := 0x003
/-- Page of `PMU`. -/
def pPMU : Nat := 0x004
/-- Page of `CLE`. -/
def pCLE : Nat := 0x005
/-- Page of `SCP`. -/
def pSCP : Nat := 0x006
/-- Page of `TOL`. -/
def pTOL : Nat := 0x007
/-- Page of `SPN`. -/
def pSPN : Nat := 0x008
/-- Page of `KEY`. -/
def pKEY : Nat := 0x009
/-- Page of `MTE`. -/
def pMTE : Nat := 0x00A
/-- Page of `DIS`. -/
def pDIS : Nat := 0x00B
/-- Page of `MAP`. -/
def pMAP : Nat := 0x00C
/-- Page of `STR`. -/
def pSTR : Nat := 0x00D
/-- Page of `LDS`. -/
def pLDS : Nat := 0x00E
/-- Page of `MEC`. -/
def pMEC : Nat := 0x00F
/-- Page of `MRM`. -/
def pMRM : Nat := 0x010
/-- Page of `LND`. -/
def pLND : Nat := 0x011
/-- Page of `HFA` or `HFB`. -/
def pHF (p : Port) : Nat := if p then 0x013 else 0x012
/-- Page of `NQE`. -/
def pNQE : Nat := 0x014
/-- Page of `DMC`n. -/
def pDMC (n : Nat) : Nat := 0x020 + n
/-- Page of `NCL`n. -/
def pNCL (n : Nat) : Nat := 0x030 + n
/-- Page of `CVN`n. -/
def pCVN (n : Nat) : Nat := 0x040 + n
/-- Page of `DGE`n. -/
def pDGE (n : Nat) : Nat := 0x050 + n
/-- Page of `FCH`c. -/
def pFCH (c : Nat) : Nat := 0x100 + c

/-- Is channel `c` present in this bin? The half bin keeps channel groups 0, 2, 4 and 6 (R3). -/
def Chip.hasChannel (ch : Chip) (c : Nat) : Bool := decide (c < 64) && (!ch.half || decide ((c / 8) % 2 = 0))

/-- Is cluster `n` present in this bin? (R3) -/
def Chip.hasCluster (ch : Chip) (n : Nat) : Bool := decide (n < (if ch.half then 4 else 6))

/-- The block kind at a page index; none for a slot with no page or a unit fused off (R45, R46). -/
def pageKind? (ch : Chip) (p : Nat) : Option PageKind :=
  if p = 0x000 then some .sys else if p = 0x001 then some .flt else if p = 0x002 then some .sgl
  else if p = 0x003 then some .lch else if p = 0x004 then some .pmu else if p = 0x005 then some .cle
  else if p = 0x006 then some .scp else if p = 0x007 then some .tol else if p = 0x008 then some .spn
  else if p = 0x009 then some .key else if p = 0x00A then some .mte else if p = 0x00B then some .dis
  else if p = 0x00C then some .map else if p = 0x00D then some .str else if p = 0x00E then some .lds
  else if p = 0x00F then some .mec else if p = 0x010 then some .mrm else if p = 0x011 then some .lnd
  else if p = 0x012 ∨ p = 0x013 then some .hf else if p = 0x014 then some .nqe
  else if 0x020 ≤ p ∧ p < 0x028 then some .dmc
  else if 0x030 ≤ p ∧ p < 0x036 then (if ch.hasCluster (p - 0x030) then some .ncl else none)
  else if 0x040 ≤ p ∧ p < 0x050 then some .cvn
  else if 0x050 ≤ p ∧ p < 0x054 then some .dge
  else if 0x100 ≤ p ∧ p < 0x140 then (if ch.hasChannel (p - 0x100) then some .fch else none)
  else none

/-- Every page index that can hold a page, ascending. -/
def allPages : List Nat :=
  List.range 0x15 ++ (List.range 8).map (· + 0x20) ++ (List.range 6).map (· + 0x30)
    ++ (List.range 16).map (· + 0x40) ++ (List.range 4).map (· + 0x50) ++ (List.range 64).map (· + 0x100)

/-- Type code of a page kind (R45). -/
def typeCode : PageKind → Nat
  | .sys => 0x0001 | .flt => 0x0002 | .sgl => 0x0003 | .lch => 0x0004 | .pmu => 0x0005 | .cle => 0x0006
  | .scp => 0x0007 | .tol => 0x0008 | .spn => 0x0009 | .key => 0x000A | .mte => 0x000B | .dis => 0x000C
  | .map => 0x000D | .str => 0x000E | .lds => 0x000F | .mec => 0x0010 | .mrm => 0x0011 | .lnd => 0x0012
  | .hf => 0x0013 | .nqe => 0x0014 | .dmc => 0x0020 | .ncl => 0x0030 | .cvn => 0x0040 | .dge => 0x0050
  | .fch => 0x0100

/-- Instance number of a page within its kind (R45). -/
def instanceOf (k : PageKind) (p : Nat) : Nat :=
  match k with
  | .hf => p - 0x012 | .dmc => p - 0x020 | .ncl => p - 0x030 | .cvn => p - 0x040 | .dge => p - 0x050
  | .fch => p - 0x100 | _ => 0

/-- The capability bits STAGED, EXPERT, BUCKET and SNAPCOPY of a page kind, as PAGE_CAPS [31:28] (R49, R50 and each page's rule). -/
def capBits : PageKind → Nat
  | .sys => 0b0000 | .lch => 0b0000 | .tol => 0b0001
  | .sgl => 0b1101 | .pmu => 0b1101 | .mec => 0b1001
  | .dge => 0b0111 | .scp => 0b0111
  | _ => 0b1111

/-- PAGE_CAPS.STAGED (R49). -/
def hasStaged (k : PageKind) : Bool := (capBits k).testBit 3
/-- PAGE_CAPS.EXPERT (R49). -/
def hasExpert (k : PageKind) : Bool := (capBits k).testBit 2
/-- PAGE_CAPS.BUCKET (R49). -/
def hasBucket (k : PageKind) : Bool := (capBits k).testBit 1
/-- PAGE_CAPS.SNAPCOPY (R49). -/
def hasSnapCopy (k : PageKind) : Bool := (capBits k).testBit 0

/-- Reset value of LB_LIMIT (R86 to R614, each page's rule). -/
def lbLimitReset : PageKind → Nat
  | .fch => 0x20 | .cvn => 0x20 | .dis => 0x10 | .dge => 0x10 | .key => 0x10 | .scp => 0x10
  | .dmc => 0x100 | .flt => 0x100
  | k => if hasBucket k then 0x40 else 0

/-- Reset value of LB_LEAK (each page's rule). -/
def lbLeakReset : PageKind → Nat
  | .dmc => 0x2710 | .flt => 0x3E8
  | k => if hasBucket k then 0xF4240 else 0

/-- PAGE_CAPS as a page reads it. The layout of the enabled set in `SYS.PAGE_CAPS` is the model's (assumption log): channel groups [7:0], clusters [13:8]. -/
def pageCaps (ch : Chip) (k : PageKind) : Word :=
  let low := match k with
    | .sys => (if ch.half then 0x55 else 0xFF) + 256 * (if ch.half then 0x0F else 0x3F)
    | _ => 0
  w32 (capBits k * 2 ^ 28 + low)

/-! ### The common frame (R48) -/

/-- Offset of PAGE_ID. -/
def rPAGE_ID : Nat := 0x000
/-- Offset of PAGE_CAPS. -/
def rPAGE_CAPS : Nat := 0x004
/-- Offset of CTRL. -/
def rCTRL : Nat := 0x008
/-- Offset of STATUS. -/
def rSTATUS : Nat := 0x00C
/-- Offset of IRQ_STATUS. -/
def rIRQ_STATUS : Nat := 0x010
/-- Offset of IRQ_ENABLE. -/
def rIRQ_ENABLE : Nat := 0x014
/-- Offset of IRQ_FORCE. -/
def rIRQ_FORCE : Nat := 0x018
/-- Offset of FAULT. -/
def rFAULT : Nat := 0x01C
/-- Offset of STAGE_CTRL. -/
def rSTAGE_CTRL : Nat := 0x020
/-- Offset of STAGE_STATUS. -/
def rSTAGE_STATUS : Nat := 0x024
/-- Offset of APPLY_TIME_LO. -/
def rAPPLY_LO : Nat := 0x028
/-- Offset of APPLY_TIME_HI. -/
def rAPPLY_HI : Nat := 0x02C
/-- Offset of LB_COUNT. -/
def rLB_COUNT : Nat := 0x030
/-- Offset of LB_LIMIT. -/
def rLB_LIMIT : Nat := 0x034
/-- Offset of LB_LEAK. -/
def rLB_LEAK : Nat := 0x038
/-- Offset of EXPERT_UNLOCK. -/
def rUNLOCK : Nat := 0x03C
/-- Offset of SNAP_SEQ. -/
def rSNAP_SEQ : Nat := 0xF00
/-- Offset of SNAP_TIME_LO. -/
def rSNAP_LO : Nat := 0xF04
/-- Offset of SNAP_TIME_HI. -/
def rSNAP_HI : Nat := 0xF08
/-- Offset of SNAP_STAGE. -/
def rSNAP_STAGE : Nat := 0xF0C

/-- The frame rows of a page kind: what R48 lists, without the registers its capability bits remove (R49, R50). -/
def frameRows (k : PageKind) : List RegRow :=
  let ro (o : Nat) : RegRow := ⟨o, 1, 4, .ro, .none, 0xFFFFFFFF, 0, false⟩
  let snap := [ro rSNAP_SEQ, ro rSNAP_LO, ro rSNAP_HI, ro rSNAP_STAGE]
  if k = .tol then [ro rPAGE_ID, ro rPAGE_CAPS, ro rCTRL, ro rSTATUS, ro rIRQ_STATUS, ro rIRQ_ENABLE, ro rFAULT] ++ snap
  else
    [ro rPAGE_ID, ro rPAGE_CAPS, ⟨rCTRL, 1, 4, .rw, .live, 0x00000001, 0, false⟩, ro rSTATUS,
      ⟨rIRQ_STATUS, 1, 4, .w1c, .live, 0xFFFFFFFF, 0, false⟩, ⟨rIRQ_ENABLE, 1, 4, .rw, .live, 0xFFFFFFFF, 0, false⟩,
      ⟨rIRQ_FORCE, 1, 4, .wo, .live, 0xFFFFFFFF, 0, false⟩, ro rFAULT]
    ++ (if hasStaged k then
        [⟨rSTAGE_CTRL, 1, 4, .rw, .live, 0x00000003, 0, false⟩,
          ⟨rSTAGE_STATUS, 1, 4, .w1c, .none, 0x28000000, 0x01000000, false⟩,
          ⟨rAPPLY_LO, 1, 4, .rw, .live, 0xFFFFFFFF, 0, false⟩, ⟨rAPPLY_HI, 1, 4, .rw, .live, 0xFFFFFFFF, 0, false⟩]
       else [])
    ++ (if hasBucket k then
        [⟨rLB_COUNT, 1, 4, .rw, .live, 0x0000FFFF, 0, false⟩,
          ⟨rLB_LIMIT, 1, 4, .rw, if hasStaged k then .staged else .live, 0x0000FFFF, w32 (lbLimitReset k), false⟩,
          ⟨rLB_LEAK, 1, 4, .rw, if hasStaged k then .staged else .live, 0xFFFFFFFF, w32 (lbLeakReset k), false⟩]
       else [])
    ++ (if hasExpert k then [⟨rUNLOCK, 1, 4, .rw, .live, 0xFFFFFFFF, 0, false⟩] else [])
    ++ snap

/-- Every row of a page kind. -/
def rowsOf (k : PageKind) : List RegRow := frameRows k ++ blockRows k

/-- The row that holds an offset. -/
def rowAt? (k : PageKind) (off : Nat) : Option RegRow := (rowsOf k).find? fun r => r.covers off

/-- Domains of the bin: every domain but those of fused-off units only (R573). -/
def binDomains (ch : Chip) : Nat := if ch.half then 0x0CFD57FF else 0x0FFFFFFF

/-- The maximum Nelius clock in 100 MHz (R3, R370). -/
def Chip.clkMax (ch : Chip) : Nat := if ch.slow then 14 else 18

/-- Reset value of a register of a page (R10, R48 and each page table). -/
def resetWord (ch : Chip) (k : PageKind) (p off : Nat) : Word :=
  if off = rPAGE_ID then w32 (typeCode k * 65536 + instanceOf k p * 256 + 1)
  else if off = rPAGE_CAPS then pageCaps ch k
  else match rowAt? k off with
    | none => 0
    | some r =>
      match k with
      | .cvn => if off = CVN_CTX_BASE then w32 (0xF0 + instanceOf .cvn p) else r.reset
      | .ncl => if off = NCL_CLK_REQ then w32 ch.clkMax else r.reset
      | .pmu => if off = PMU_DOMAIN_ON then w32 (binDomains ch) else r.reset
      | .nqe =>
        if off = NQE_QP_FREE then w32 (if ch.split then 0x1F80 else 0x1FC0)
        else if off = NQE_VEC_FREE then w32 (if ch.split then 0x7C0 else 0x7E0) else r.reset
      | _ => r.reset

/-! ### Reading and setting registers -/

/-- Key of a register in the register file. -/
def regKey (p off : Nat) : Nat := p * 4096 + off

/-- Reset value of a register by page and offset; 0 where the block defines none (R54). -/
def resetAt (ch : Chip) (p off : Nat) : Word :=
  match pageKind? ch p with
  | none => 0
  | some k => resetWord ch k p off

/-- What a register holds: for a class S field its staged copy (R60). -/
def rd (s : State) (p off : Nat) : Word :=
  match s.com.regs.live.get? (regKey p off) with
  | some v => v
  | none => resetAt s.com.chip p off

/-- The in-force value of a class S register (R60). -/
def inForce (s : State) (p off : Nat) : Word :=
  match s.com.regs.inForce.get? (regKey p off) with
  | some v => v
  | none => resetAt s.com.chip p off

/-- Set what a register holds: the block's own update, or a write's effect. The table stays canonical: no entry equals its reset value. -/
def wr (s : State) (p off : Nat) (v : Word) : State :=
  { s with com := { s.com with regs := { s.com.regs with
      live := s.com.regs.live.putD (regKey p off) v (resetAt s.com.chip p off) } } }

/-- Set the in-force value of a class S register. -/
def wrForce (s : State) (p off : Nat) (v : Word) : State :=
  { s with com := { s.com with regs := { s.com.regs with
      inForce := s.com.regs.inForce.putD (regKey p off) v (resetAt s.com.chip p off) } } }

/-- A field of a register. -/
def rdF (s : State) (p off hi lo : Nat) : Nat := fld (rd s p off) hi lo

/-- A field of an in-force class S register. -/
def inF (s : State) (p off hi lo : Nat) : Nat := fld (inForce s p off) hi lo

/-- Set a field of a register. -/
def wrF (s : State) (p off hi lo v : Nat) : State := wr s p off (setFld (rd s p off) hi lo v)

/-- Set or clear one bit of a register. -/
def wrB (s : State) (p off i : Nat) (b : Bool) : State := wrF s p off i i (if b then 1 else 0)

/-- Add to a 32-bit counter register, saturating. -/
def bump (s : State) (p off n : Nat) : State := wr s p off (w32 (satAdd 0xFFFFFFFF (rd s p off).toNat n))

/-- Add to a counter field, saturating at its width. -/
def bumpF (s : State) (p off hi lo n : Nat) : State :=
  wrF s p off hi lo (satAdd (2 ^ (hi + 1 - lo) - 1) (rdF s p off hi lo) n)

/-- Take n from a counter register, down to 0. -/
def drop (s : State) (p off n : Nat) : State := wr s p off (w32 ((rd s p off).toNat - n))

/-- Add to an accumulator "since the previous snapshot" (R76). -/
def bumpSince (s : State) (p off n : Nat) : State :=
  { s with com := { s.com with since := s.com.since.modify (regKey p off) 0 (· + n) } }

/-! ### Interrupts and FAULT (R51, R52) -/

/-- Set IRQ_STATUS bits (R51). -/
def irqMask (s : State) (p : Nat) (m : Word) : State := wr s p rIRQ_STATUS (rd s p rIRQ_STATUS ||| m)

/-- Set one IRQ_STATUS bit (R51). -/
def irq (s : State) (p i : Nat) : State := irqMask s p (oneBit i)

/-- Does the page raise its interrupt? (R51) -/
def irqRaised (s : State) (p : Nat) : Bool := (rd s p rIRQ_STATUS &&& rd s p rIRQ_ENABLE) != 0

/-- FAULT classes of R52. -/
inductive FClass where
  | config | access | transient | permanent | uncorrectable | bucket | drainOverrun
  deriving DecidableEq, Repr

/-- Code of a FAULT class (R52). -/
def FClass.code : FClass → Nat
  | .config => 1 | .access => 2 | .transient => 3 | .permanent => 4 | .uncorrectable => 5 | .bucket => 6
  | .drainOverrun => 7

/-- Write FAULT; a class other than CONFIG also sets IRQ_STATUS.FAULT (R51, R52). -/
def writeFault (s : State) (p : Nat) (c : FClass) (cause unit : Nat) : State :=
  let s := wr s p rFAULT (w32 (c.code * 2 ^ 28 + (cause % 4096) * 65536 + unit % 65536))
  if c = .config then s else irq s p 28

/-! ### Free values -/

/-- Take one free value: the counter moves on (the model's own field). -/
def takeFree (s : State) : State := { s with com := { s.com with free := s.com.free + 1 } }

/-! ### The fault log (R606) -/

/-- Milliseconds of the Timestamp feature now; 0 when not set since power-on (R606). -/
def stampNow (s : State) : Nat :=
  match s.com.stamp with
  | none => 0
  | some (ms, at_) => ms + (s.com.time - at_).toNat / 1000000

/-- What an event puts in the log; the rest of the entry is filled in at detection (R606). -/
structure LogEvent where
  kind : Nat
  cls : Nat := 0
  page : Nat
  cause : Nat := 0
  unit : Nat := 0
  initiator : Nat := 0xFF
  access : Nat := 0
  address : Nat := 0
  detail : Nat := 0
  initPage : Nat := 0

/-- KIND codes of R606. -/
def kFAULT : Nat := 1
/-- KIND REFUSAL. -/
def kREFUSAL : Nat := 2
/-- KIND RETIRE. -/
def kRETIRE : Nat := 3
/-- KIND RESET. -/
def kRESET : Nat := 4
/-- KIND ADMIT. -/
def kADMIT : Nat := 5
/-- KIND FATAL. -/
def kFATAL : Nat := 6
/-- KIND FIRMWARE. -/
def kFIRMWARE : Nat := 7
/-- KIND ACTIVATION. -/
def kACTIVATION : Nat := 8

/-- Capacity of the entry queue (R606). -/
def logQueueMax : Nat := 256

/-- The newest count of an entry: what its last COUNT update, waiting or written, says. -/
def newestCount (l : FaultLog) (e : LogEntry) : Nat :=
  l.queue.foldl (fun n q => match q with
    | .count f c => if f = e.fseq then c else n
    | .entry _ => n) e.count

/-- Entries of the ring and of the queue, oldest first. -/
def FaultLog.all (l : FaultLog) : List LogEntry :=
  l.ring ++ l.queue.filterMap fun q => match q with
    | .entry e => some e
    | .count _ _ => none

/-- The entry that an equal refusal within 1 ms of its first event raises (R606). -/
def coalesceTarget? (s : State) (v : LogEvent) : Option LogEntry :=
  (s.com.log.all.filter fun e =>
    e.kind == kREFUSAL && e.page == v.page && e.cause == v.cause && e.initiator == v.initiator
      && e.address == v.address && decide (s.com.time.toNat < e.time + 1000000)).getLast?

/-- Put an item in the entry queue; when it is full, or filled by injection, the entry is counted in LOG_LOST and LOG_HOLD is set (R606). -/
def logPush (s : State) (q : LogItem) : State :=
  if s.com.log.queue.length < logQueueMax ∧ !s.flt.holdQueue then
    { s with com := { s.com with log := { s.com.log with
        queue := s.com.log.queue ++ [q],
        issued := match q with
          | .entry e => e.fseq
          | .count _ _ => s.com.log.issued } } }
  else irq (bump s pFLT FLT_LOG_LOST 1) pFLT 4

/-- Log an event: a new entry, or a COUNT update of the entry it coalesces with (R606). -/
def logEvent (s : State) (v : LogEvent) : State :=
  match (if v.kind = kREFUSAL then coalesceTarget? s v else none) with
  | some e => logPush s (.count e.fseq (satAdd 0xFFFF (newestCount s.com.log e) 1))
  | none =>
    let e : LogEntry :=
      { fseq := (s.com.log.issued + 1) % 2 ^ 32, kind := v.kind, cls := v.cls, page := v.page,
        time := s.com.time.toNat, timestamp := stampNow s, cause := v.cause, unit := v.unit,
        initiator := v.initiator, access := v.access + (if s.com.injecting then 0x80 else 0), count := 1, address := v.address,
        snapSeq := (rd s pSGL SGL_SNAP_SEQ_CUR).toNat, bootSeq := (rd s pSCP SCP_REC_SEQ).toNat,
        epoch := rdF s v.page rSTAGE_STATUS 15 0, detail := v.detail, initPage := v.initPage, bad := false }
    logPush s (.entry e)

/-- A fault or rejection of a page: FAULT, its interrupt, and the fault manager's entry, which keeps the history (R51, R52, R606). -/
def setFault (s : State) (p : Nat) (c : FClass) (cause unit : Nat) : State :=
  logEvent (writeFault s p c cause unit) { kind := kFAULT, cls := c.code, page := p, cause := cause, unit := unit }

/-! ### The leaky bucket (R73 to R75) -/

/-- One counted event of a unit: LB_COUNT rises, and on reaching LB_LIMIT the overflow fires once until the count has fallen below it (R73, R74). The second result says that the overflow fired, for the block's escalation (R604). -/
def lbEventAt (s : State) (p unit : Nat) : State × Bool :=
  let n := rdF s p rLB_COUNT 15 0
  let lim := inF s p rLB_LIMIT 15 0
  let n' := satAdd 0xFFFF n 1
  let fires := decide (lim ≠ 0) && decide (n < lim) && decide (n' ≥ lim) && !s.com.lbFired.contains p
  let s := wrF s p rLB_COUNT 15 0 n'
  if fires then
    let s := { s with com := { s.com with lbFired := p :: s.com.lbFired } }
    (setFault (irq s p 31) p .bucket (Config.blockCause 13) unit, true)
  else (s, false)

/-- One counted event of a page; the UNIT of its overflow is free (R52, R73). -/
def lbEvent (s : State) (p : Nat) : State × Bool := lbEventAt s p (Config.blockCause 30)

/-- Re-arm the overflow once the count is below the limit (R74). -/
def lbRearm (s : State) (p : Nat) : State :=
  if rdF s p rLB_COUNT 15 0 < inF s p rLB_LIMIT 15 0 then
    { s with com := { s.com with lbFired := s.com.lbFired.filter (· != p) } }
  else s

/-- Counted events one after another. -/
def lbEvents (s : State) (p : Nat) : Nat → State × Bool
  | 0 => (s, false)
  | n + 1 =>
    let (s1, f1) := lbEvent s p
    let (s2, f2) := lbEvents s1 p n
    (s2, f1 || f2)

/-! ### Refusals (R44, R607) -/

/-- Refusal causes of R607. -/
def cUNMAPPED : Nat := 0x001
/-- Cause NO_PAGE. -/
def cNO_PAGE : Nat := 0x002
/-- Cause NOT_PERMITTED. -/
def cNOT_PERMITTED : Nat := 0x003
/-- Cause DOMAIN_OFF. -/
def cDOMAIN_OFF : Nat := 0x004
/-- Cause WIDTH. -/
def cWIDTH : Nat := 0x005
/-- Cause EXPERT_LOCKED. -/
def cEXPERT_LOCKED : Nat := 0x006
/-- Cause STAGE_BUSY. -/
def cSTAGE_BUSY : Nat := 0x007
/-- Cause FENCED. -/
def cFENCED : Nat := 0x008
/-- Cause SP_ONLY. -/
def cSP_ONLY : Nat := 0x009
/-- Cause INJECT_OFF. -/
def cINJECT_OFF : Nat := 0x00A
/-- Cause ERASE_INTERLOCK. -/
def cERASE_INTERLOCK : Nat := 0x00B

/-- Record a refusal in `FLT`: the log entry, REFUSALS, LAST_REF, IRQ_STATUS.REFUSAL and the bucket (R44, R606, R614). -/
def recordRefusal (s : State) (who : Initiator) (page addr cause access : Nat) : State :=
  let ev : LogEvent :=
    { kind := kREFUSAL, cls := FClass.access.code, page := page, cause := cause,
      initiator := who.num, access := access, address := addr, initPage := who.initPage }
  let s := logEvent s ev
  let s := bump s pFLT FLT_REFUSALS 1
  let s := wr s pFLT FLT_LAST_REF_LO (w32 addr)
  let s := wr s pFLT FLT_LAST_REF_HI (w32 (who.num * 2 ^ 24 + (cause % 256) * 65536 + (addr / 2 ^ 32) % 65536))
  (lbEvent (irq s pFLT 2) pFLT).1

/-! ### Power domains of pages -/

/-- The power domain of a page (R12, R572; for `SYS`, `TOL`, `MEC` and `DGE` see the assumption log). -/
def pageDomain (k : PageKind) (p : Nat) : Nat :=
  match k with
  | .sys => 0 | .pmu => 0 | .cle => 0
  | .scp => 1
  | .flt => 3 | .sgl => 3 | .lch => 3
  | .hf => 4 + instanceOf .hf p
  | .nqe => 6
  | .tol => 7 | .mec => 7 | .mrm => 7 | .lnd => 7 | .dge => 7
  | .spn => 8 | .map => 8 | .str => 8 | .lds => 8
  | .key => 9 | .mte => 9 | .dis => 9
  | .fch => 10 + instanceOf .fch p / 8
  | .dmc => 18 + instanceOf .dmc p / 4
  | .ncl => 20 + instanceOf .ncl p
  | .cvn => 26 + instanceOf .cvn p / 8

/-- Is a domain on and unclamped? (R44, R575, R607) -/
def domainUp (s : State) (d : Nat) : Bool :=
  bit (rd s pPMU PMU_DOMAIN_ON) d && !bit (rd s pPMU PMU_ISO_STATE) d

/-- Is the page's block present, on and unclamped? -/
def pageUp (s : State) (p : Nat) : Bool :=
  match pageKind? s.com.chip p with
  | none => false
  | some k => domainUp s (pageDomain k p)

/-- An operation of a block that does nothing while its domain is off or clamped (R575). -/
def whenUp (p : Nat) (f : State → State) (s : State) : State := if pageUp s p then f s else s

/-- Set SMART critical warning bit `i`. -/
def smartSet (s : State) (i : Nat) : State := { s with com := { s.com with smart := s.com.smart ||| 2 ^ i } }

/-- Clear SMART critical warning bit `i`. -/
def smartClear (s : State) (i : Nat) : State :=
  { s with com := { s.com with smart := if s.com.smart.testBit i then s.com.smart - 2 ^ i else s.com.smart } }

/-- Record what an access answered. -/
def answer (s : State) (a : Answer) : State := { s with com := { s.com with answer := a } }

/-- Run an event as an injected one: its log entries carry INJECTED (R613). -/
def injected (s : State) (f : State → State) : State :=
  let t := f { s with com := { s.com with injecting := true } }
  { t with com := { t.com with injecting := s.com.injecting } }

/-- A retirement: the log entry and IRQ_STATUS.RETIRE of `FLT` (R600, R606, R614). -/
def logRetire (s : State) (page cause unit : Nat) : State :=
  irq (logEvent s { kind := kRETIRE, cls := FClass.permanent.code, page := page, cause := cause, unit := unit }) pFLT 1

/-! ### Epochs (R64, R70) -/

/-- The work units in flight on a page. -/
def epochsOf (s : State) (p : Nat) : Epochs := s.com.epochs.getD p ⟨0, 0⟩

/-- Set the work units in flight; LIVE_EPOCHS and STATUS.DRAINING follow (R64, R70). -/
def setEpochs (s : State) (p : Nat) (e : Epochs) : State :=
  let s := { s with com := { s.com with epochs := s.com.epochs.putD p e ⟨0, 0⟩ } }
  let two := decide (e.older ≠ 0)
  let s := wrB s p rSTATUS 2 two
  wrF s p rSTAGE_STATUS 25 24 (if two then 2 else 1)

/-- APPLIED_EPOCH of a page: the epoch under which new work is admitted (R64, R70). -/
def epochNow (s : State) (p : Nat) : Nat := rdF s p rSTAGE_STATUS 15 0

/-- Admit one work unit under the newest epoch (R70). -/
def admitUnit (s : State) (p : Nat) : State :=
  setEpochs s p { epochsOf s p with newest := (epochsOf s p).newest + 1 }

/-- Does the page hold admission of new work? (R67) -/
def admitHeld (s : State) (p : Nat) : Bool := bit (rd s p rSTAGE_STATUS) 26

/-! ### Time -/

/-- Advance the sandglass by real nanoseconds: the count adds 1 per ns, and while an offset is being slewed away it adds 2 or 0 in at most SLEW_LIMIT parts per million of them (R77, R82). -/
def advance (s : State) (ns : Nat) : State :=
  let room : Int := (ns * inF s pSGL SGL_SLEW_LIMIT 8 0 / 1000000 : Nat)
  let c : Int := clampInt (-room) room s.com.slew
  let t : Int := (s.com.time.toNat : Int) + ns - c
  { s with com := { s.com with time := BitVec.ofNat 64 t.toNat, slew := s.com.slew - c } }

/-- Step the count forward (R82). The count never steps back. -/
def stepForward (s : State) (ns : Nat) : State :=
  { s with com := { s.com with time := s.com.time + BitVec.ofNat 64 ns } }

/-- The last ferry is running: `PMU.FERRY_STATUS.RUNNING` (R267). -/
def ferryRunning (s : State) : Bool := bit (rd s pPMU PMU_FERRY_STATUS) 4

/-- Round a time up to a multiple of 8 ns (R81). -/
def round8 (t : Nat) : Nat := cdiv t 8 * 8

end Sys2Proof.Machine
end

