-- ==== Sys2Proof/Machine/BootQueue.lean ====
section
/-! DEFINITION. The queue of events that wait for their boot record (R531, R532). -/

namespace Sys2Proof.Machine

/-- Both MRAM dies have failed (R322, R532). -/
def noRing (s : State) : Bool := bit (rd s pSCP SCP_REC_STATUS) 30

/-- Put an event into the queue of records to form (R531). -/
def queueRecord (s : State) (e : BootEvent) : State :=
  wrB { s with bot := { s.bot with queue := s.bot.queue ++ [e] } } pSCP SCP_REC_STATUS 31 true

end Sys2Proof.Machine
end

