-- ==== Sys2Proof/Machine/Sandglass.lean ====
section
/-! DEFINITION. The sandglass, the launch table and the snapshot trigger (R77 to R104): discipline, window operations, dispatch, and the latching of snapshot copies. -/

namespace Sys2Proof.Machine

/-! ### Discipline (R82 to R87) -/

/-- Apply one measured offset, positive when the sandglass is ahead of the source (R82). -/
def discipline (s : State) (off : Int) : State :=
  let thresh : Int := (inF s pSGL SGL_STEP_THRESH 19 0 * 1000 : Nat)
  let sat : Int := clampInt (-(2 ^ 31 - 1)) (2 ^ 31 - 1) off
  let s := wr s pSGL SGL_OFFSET (w32 (toField 32 sat))
  let s := wrB (wrB s pSGL SGL_DISC_STATUS 3 false) pSGL SGL_DISC_STATUS 0 true
  if thresh ≠ 0 ∧ off < -thresh then
    let s := stepForward s (-off).toNat
    let s := { s with com := { s.com with slew := 0 } }
    irq (wrB (wrB s pSGL SGL_DISC_STATUS 1 true) pSGL SGL_DISC_STATUS 2 false) pSGL 0
  else
    let s := { s with com := { s.com with slew := off } }
    if thresh < off then irq (wrB s pSGL SGL_DISC_STATUS 2 true) pSGL 2
    else wrB s pSGL SGL_DISC_STATUS 2 false

/-- The source is lost: the sandglass runs free (R83, R84). -/
def sourceLost (s : State) : State :=
  let s := { s with com := { s.com with slew := 0 } }
  irq (wrB (wrB s pSGL SGL_DISC_STATUS 3 true) pSGL SGL_DISC_STATUS 0 false) pSGL 1

/-- DISC_CTRL.SRC in force. -/
def discSrc (s : State) : Nat := inF s pSGL SGL_DISC_CTRL 1 0

/-- Every PTM_PERIOD the sandglass runs a PTM dialogue: `offset` is what it measures, none when the dialogue fails; `linkOut` says the link has been out of L0 for longer than 8 periods (R83). -/
def ptmDialogue (s : State) (p : Port) (offset : Option Int) (linkOut : Bool) : State :=
  if discSrc s ≠ (if p then 2 else 1) then s
  else match offset with
    | some o =>
      let s := wrB s (pHF p) HF_PTM_STATUS 1 true
      discipline { s with sgl := { s.sgl with ptmFailed := 0 } } o
    | none =>
      let s := wrB s (pHF p) HF_PTM_STATUS 1 false
      let n := s.sgl.ptmFailed + 1
      let s := { s with sgl := { s.sgl with ptmFailed := n } }
      if (n ≥ 8 || linkOut) && !bit (rd s pSGL SGL_DISC_STATUS) 3 then sourceLost s else s

/-- The signed distance of a captured count from the nearest whole millisecond of group time (R84). -/
def msOffset (captured : Int) : Int :=
  let m := captured % 1000000
  if m < 500000 then m else m - 1000000

/-- A rising SPAN_SYNC edge: captured at the count less SYNC_COMP and taken as a whole millisecond of group time (R84). -/
def syncEdge (s : State) : State :=
  if discSrc s ≠ 3 then s
  else
    let cap : Int := (s.com.time.toNat : Int) - sgn 16 (inF s pSGL SGL_SYNC_COMP 15 0)
    discipline { s with sgl := { s.sgl with syncMissed := 0 } } (msOffset cap)

/-- An expected SPAN_SYNC edge does not come; the third in a row loses the source (R84). -/
def syncMissing (s : State) : State :=
  if discSrc s ≠ 3 then s
  else
    let n := s.sgl.syncMissed + 1
    let s := { s with sgl := { s.sgl with syncMissed := n } }
    if n = 3 then sourceLost s else s

/-- Commit check of `SGL`: offending offset and REJECT_CODE of each failing condition (R87). -/
def checkSgl (s : State) : List (Nat × Nat) :=
  let f (o hi lo : Nat) := rdF s pSGL o hi lo
  let set := (join64 (rd s pSGL SGL_TIME_SET_HI) (rd s pSGL SGL_TIME_SET_LO)).toNat
  let src := f SGL_DISC_CTRL 1 0
  (if f SGL_SLEW_LIMIT 8 0 = 0 ∨ f SGL_SLEW_LIMIT 8 0 > 500 then [(SGL_SLEW_LIMIT, 1)] else [])
  ++ (if f SGL_PTM_PERIOD 9 0 = 0 ∨ f SGL_PTM_PERIOD 9 0 > 1000 then [(SGL_PTM_PERIOD, 1)] else [])
  ++ (if f SGL_TIME_SET_EN 0 0 = 1 ∧ set ≤ s.com.time.toNat then [(SGL_TIME_SET_LO, 1)] else [])
  ++ (if (src = 1 ∧ !bit (rd s (pHF false) HF_PTM_STATUS) 0)
        ∨ (src = 2 ∧ (!s.com.chip.split ∨ !bit (rd s (pHF true) HF_PTM_STATUS) 0)) then [(SGL_DISC_CTRL, 3)] else [])

/-- What an apply of `SGL` does beside the copy: a TIME_SET step, if its time is still ahead, and TIME_SET_EN returns to 0 (R87). -/
def applySgl (s : State) : State :=
  if inF s pSGL SGL_TIME_SET_EN 0 0 = 1 then
    let set := (join64 (inForce s pSGL SGL_TIME_SET_HI) (inForce s pSGL SGL_TIME_SET_LO)).toNat
    let s := wrForce (wr s pSGL SGL_TIME_SET_EN 0) pSGL SGL_TIME_SET_EN 0
    if s.com.time.toNat < set then
      irq (wrB (stepForward s (set - s.com.time.toNat)) pSGL SGL_DISC_STATUS 1 true) pSGL 0
    else s
  else s

/-! ### The launch table (R88 to R97) -/

/-- An entry of the launch table; an unlisted one is FREE. -/
def entryOf (s : State) (i : Nat) : LaunchEntry := s.sgl.entries.getD i LaunchEntry.empty

/-- Set an entry, keeping the table canonical. -/
def putEntry (s : State) (i : Nat) (e : LaunchEntry) : State :=
  { s with sgl := { s.sgl with entries := s.sgl.entries.putD i e LaunchEntry.empty } }

/-- Indices and entries that are ARMED, by ascending TIME and then index (R94). -/
def armedEntries (s : State) : List (Nat × LaunchEntry) :=
  sortBy (fun a b => decide (a.2.time.toNat < b.2.time.toNat) || (a.2.time == b.2.time && decide (a.1 ≤ b.1)))
    (s.sgl.entries.filter fun e => e.2.state == .armed)

/-- ARMED_COUNT, NEXT_LO and NEXT_HI follow the table (R89). -/
def refreshLaunch (s : State) : State :=
  let a := armedEntries s
  let s := wr s pLCH LCH_ARMED_COUNT (w32 a.length)
  match a with
  | [] => wr (wr s pLCH LCH_NEXT_LO 0xFFFFFFFF) pLCH LCH_NEXT_HI 0xFFFFFFFF
  | (_, e) :: _ => wr (wr s pLCH LCH_NEXT_LO (lo32 e.time)) pLCH LCH_NEXT_HI (hi32 e.time)

/-- Code of an entry STATE (R88). -/
def EntryState.code : EntryState → Nat
  | .free => 0 | .armed => 1 | .fired => 2 | .failed => 3 | .cancelled => 4 | .sent => 5

/-- Does the action's rule ignore PAGE? (R90) -/
def pageIgnored (action : Nat) : Bool := action == 2 || action == 4 || action == 8

/-- Is the page of the block the action names? (R90) -/
def pageFits (k : PageKind) (action : Nat) : Bool :=
  match action with
  | 1 => hasStaged k
  | 3 => k == .map || k == .str || k == .spn
  | 5 => k == .cle
  | 6 => k == .spn
  | 7 => k == .dis
  | _ => false

/-- OP_STATUS of an ARM of `e` on an entry in state `st`: the first failing condition of R91, else 0. -/
def armStatus (s : State) (st : EntryState) (e : LaunchEntry) (host : Bool) : Nat :=
  let a := e.action
  let badAction := a = 0 ∨ a > 8 ∨ ((a = 1 ∨ a = 4) ∧ e.arg ≠ 0) ∨ (a = 5 ∧ fld e.arg 31 16 ≠ 0)
    ∨ (host = true ∧ ¬(a = 2 ∨ a = 7 ∨ a = 8))
  let badPage := pageIgnored a = false ∧ (match pageKind? s.com.chip e.page with
    | none => true
    | some k => !pageFits k a) = true
  if ferryRunning s then 7
  else if st = .armed ∨ st = .sent then 1
  else if badAction then 3
  else if badPage then 4
  else if a = 5 ∧ fld e.arg 15 0 = 0 then 6
  else if e.time.toNat < s.com.time.toNat + 64 then 5
  else 0

/-- ARM an entry: its OP_STATUS and the state (R91, R92). -/
def armEntry (s : State) (i : Nat) (e : LaunchEntry) (host : Bool) : State × Nat :=
  let st := armStatus s (entryOf s i).state e host
  if st = 0 then
    (refreshLaunch (putEntry s i { e with state := .armed, tie := false, late := false, outcome := 0, detail := 0 }), 0)
  else (s, st)

/-- CANCEL an entry (R91). -/
def cancelEntry (s : State) (i : Nat) : State × Nat :=
  let e := entryOf s i
  if e.state = .armed then (refreshLaunch (putEntry s i { e with state := .cancelled }), 0) else (s, 2)

/-- RELEASE an entry (R91). -/
def releaseEntry (s : State) (i : Nat) : State × Nat :=
  let e := entryOf s i
  match e.state with
  | .armed => (s, 1)
  | .sent => (s, 1)
  | .free => (s, 0)
  | _ => (putEntry s i { e with state := .free }, 0)

/-- ENTRY_STATE as it shows an entry with an OP_STATUS (R89). -/
def entryStateWord (e : LaunchEntry) (op : Nat) : Word :=
  w32 (e.state.code * 2 ^ 29 + (if e.tie then 2 ^ 28 else 0) + (if e.late then 2 ^ 27 else 0)
    + e.outcome % 16 * 2 ^ 20 + e.detail % 16 * 2 ^ 16 + op % 16)

/-- The window registers as an entry. -/
def windowEntry (s : State) : LaunchEntry :=
  { LaunchEntry.empty with
    time := join64 (rd s pLCH LCH_ENTRY_TIME_HI) (rd s pLCH LCH_ENTRY_TIME_LO)
    page := rdF s pLCH LCH_ENTRY_CTRL 11 0
    action := rdF s pLCH LCH_ENTRY_CTRL 19 16
    arg := rd s pLCH LCH_ENTRY_ARG }

/-- A write of ENTRY_OP acts on the entry that ENTRY_SEL names (R91); a reserved code does nothing (R9). -/
def entryOp (s : State) (op : Nat) : State :=
  let i := rdF s pLCH LCH_ENTRY_SEL 9 0
  let show_ (s : State) (st : Nat) := wr s pLCH LCH_ENTRY_STATE (entryStateWord (entryOf s i) st)
  match op with
  | 1 =>
    let e := entryOf s i
    let s := wr (wr s pLCH LCH_ENTRY_TIME_LO (lo32 e.time)) pLCH LCH_ENTRY_TIME_HI (hi32 e.time)
    let s := wr s pLCH LCH_ENTRY_CTRL (w32 (e.action % 16 * 65536 + e.page % 4096))
    show_ (wr s pLCH LCH_ENTRY_ARG e.arg) 0
  | 2 => let (s, st) := armEntry s i (windowEntry s) false; show_ s st
  | 3 => let (s, st) := cancelEntry s i; show_ s st
  | 4 => let (s, st) := releaseEntry s i; show_ s st
  | _ => s

/-- Order a snapshot for time T: it takes the next SNAP_SEQ as its latch order goes out, and orders that every island has passed for long are forgotten (R95, R100, R101). -/
def orderSnapshot (s : State) (t : Nat) (tag : Word) : State × Nat :=
  let seq := ((rd s pSGL SGL_SNAP_SEQ_CUR).toNat + 1) % 2 ^ 32
  let s := wr s pSGL SGL_SNAP_SEQ_CUR (w32 seq)
  let s := wr s pSGL SGL_SNAP_TAG tag
  let tc : Count := BitVec.ofNat 64 t
  let s := wr (wr s pSGL SGL_SNAP_T_LO (lo32 tc)) pSGL SGL_SNAP_T_HI (hi32 tc)
  ({ s with sgl := { s.sgl with
      orders := (s.sgl.orders.filter fun o => decide (s.com.time.toNat < o.time.toNat + 1000)) ++ [⟨tc, seq⟩] } }, seq)

/-- Fire a snapshot through SNAP_FIRE or C3h: T is the count plus 64 ns, rounded up to 8 ns (R104). -/
def fireSnapshot (s : State) : State × Nat := orderSnapshot s (round8 (s.com.time.toNat + 64)) 0

/-- Other ARMED entries share the TIME of entry `i`. An early-sent SNAP_LATCH still counts until its TIME (R94, R95). -/
def sharesTime (s : State) (i : Nat) (t : Count) : Bool :=
  s.sgl.entries.any fun e => e.1 != i && e.2.time == t
    && (e.2.state == .armed || (e.2.state == .fired && e.2.action == 2 && decide (s.com.time.toNat ≤ t.toNat + 8)))

/-- Set TIE on every entry of a group, and count the group once (R94). -/
def markTies (s : State) (t : Count) : State :=
  let live (e : LaunchEntry) : Bool := e.time == t && (e.state == .armed || (e.state == .fired && e.action == 2))
  let first := !(s.sgl.entries.any fun e => live e.2 && e.2.tie)
  let s := { s with sgl := { s.sgl with
    entries := s.sgl.entries.map fun e => (e.1, if live e.2 then { e.2 with tie := true } else e.2) } }
  if first then bump s pLCH LCH_TIE_COUNT 1 else s

/-- The entries the launch unit may dispatch at TIME: every action but SNAP_LATCH, which is sent early (R94, R95). -/
def dueEntry? (s : State) : Option (Nat × LaunchEntry) :=
  (armedEntries s).find? fun e => e.2.action != 2 && decide (round8 e.2.time.toNat ≤ s.com.time.toNat)

/-- Dispatch the next due ARMED entry: it becomes SENT, with TIE and LATE (R94, R96); nothing is dispatched once PWR_FAIL is raised (R97). -/
def launchDispatch (s : State) : State :=
  if ferryRunning s then s
  else match dueEntry? s with
    | none => s
    | some (i, e) =>
      let s := if sharesTime s i e.time then markTies s e.time else s
      let late := decide (round8 e.time.toNat + 8 ≤ s.com.time.toNat)
      let s := putEntry s i { entryOf s i with state := .sent, late := late }
      refreshLaunch (bump s pLCH LCH_FIRED_COUNT 1)

/-- The early send of a SNAP_LATCH entry, 64 ns before its TIME: its latch order goes out and it is FIRED with OUTCOME 0 (R95). -/
def snapEarlySend (s : State) : State :=
  if ferryRunning s then s
  else match (armedEntries s).find? fun e => e.2.action == 2 && decide (round8 e.2.time.toNat ≤ s.com.time.toNat + 64) with
    | none => s
    | some (i, e) =>
      let s := if sharesTime s i e.time then markTies s e.time else s
      let late := decide (round8 e.time.toNat + 8 ≤ s.com.time.toNat)
      let s := putEntry s i { entryOf s i with state := .fired, late := late, outcome := 0 }
      let s := (orderSnapshot s (round8 e.time.toNat) e.arg).1
      refreshLaunch (bump s pLCH LCH_FIRED_COUNT 1)

/-- Deliver a SENT entry with the given action to its page: TARGET_REFUSED when the page is down or its unit fenced, HALTED while the ferry runs, else the action's own outcome (R96). The outcome then waits for its return. -/
def deliver (s : State) (i action : Nat) (act : State → LaunchEntry → State × Nat) (page? : LaunchEntry → Nat) : State :=
  let e := entryOf s i
  if e.state ≠ .sent ∨ e.action ≠ action then s
  else
    let p := page? e
    let (s, out) :=
      if ferryRunning s then (s, 5 * 16)
      else if !pageUp s p || bit (rd s p rSTATUS) 1 then
        (recordRefusal s (.block 0x003) p (0xF0000000 + p * 4096) (if pageUp s p then cFENCED else cDOMAIN_OFF) 1, 4 * 16)
      else act s e
    { s with sgl := { s.sgl with returns := s.sgl.returns.put i out } }

/-- A delivered action's outcome returns: FIRED for 0x0 and 0x1, else FAILED (R96). -/
def outcomeReturn (s : State) (i : Nat) : State :=
  let e := entryOf s i
  match s.sgl.returns.get? i with
  | none => s
  | some o =>
    let s := { s with sgl := { s.sgl with returns := s.sgl.returns.del i } }
    if e.state = .sent then
      putEntry s i { e with state := if o / 16 ≤ 1 then .fired else .failed, outcome := o / 16, detail := o % 16 }
    else s

/-! ### Snapshot latching (R76, R101 to R103) -/

/-- The pages of an island (R12). -/
def islandPages (s : State) : Island → List Nat
  | .hostPort p => if s.com.chip.split then [pHF p] else [pHF false, pHF true]
  | .queueEngine => [pNQE]
  | .cluster c => [pNCL c.val]
  | .fabric => [pTOL, pSPN, pKEY, pMTE, pDIS, pMAP, pSTR, pLDS, pMEC, pMRM, pLND]
      ++ (List.range 16).map pCVN ++ (List.range 4).map pDGE
  | .channel c => [pFCH c.val]
  | .dram n => [pDMC n.val]
  | .control => [pSYS, pPMU, pCLE]
  | .sandglass => [pFLT, pSGL, pLCH]
  | .security => [pSCP]

/-- Block-specific snapshot copies of a page: the copy and the register it copies, or none for an accumulator since the previous snapshot (R76 and each page table). -/
def snapCopies : PageKind → List (Nat × Option Nat)
  | .sgl => [(SGL_SNAP_OFFSET, some SGL_OFFSET), (SGL_SNAP_DISC, some SGL_DISC_STATUS)]
  | .hf => [(HF_SNAP_LINK, some HF_LINK_STATUS), (HF_SNAP_TLP, none)]
  | .nqe => [(NQE_SNAP_OUTSTANDING, none), (NQE_SNAP_HELD, some NQE_WB_HELD)]
  | .fch => [(FCH_SNAP_QUEUE, some FCH_QUEUE_STATUS), (FCH_SNAP_BUSY, some FCH_BUSY_MASK), (FCH_SNAP_LADDER, none)]
  | .lds => [(LDS_SNAP_QUEUE, some LDS_QUEUE_DEPTH), (LDS_SNAP_BUSY, some LDS_DEC_BUSY)]
  | .map => [(MAP_SNAP_FILL, some MAP_FILL), (MAP_SNAP_FREE, some MAP_FREE_BLOCKS),
      (MAP_SNAP_JSEQ, some MAP_JSEQ_DURABLE), (MAP_SNAP_MEDIA, some MAP_MEDIA_STATE)]
  | .str => [(STR_SNAP_STATE, some STR_STATE), (STR_SNAP_RESYNC, some STR_RESYNC_LEFT), (STR_SNAP_RB, none)]
  | .dmc => [(DMC_SNAP_QUEUE, some DMC_QUEUE), (DMC_SNAP_RANK, some DMC_RANK_STATE), (DMC_SNAP_MIG, some DMC_MIG_PTR)]
  | .lnd => [(LND_SNAP_CE, some LND_ECC_CE)]
  | .mrm => [(MRM_SNAP_CREDIT, some MRM_WEAR_CREDIT), (MRM_SNAP_FRAMES, some MRM_FRAMES)]
  | .mec => [(MEC_SNAP_PASS, some MEC_PASS_DONE)]
  | .ncl => [(NCL_SNAP_STATE, some NCL_CORE_STATE), (NCL_SNAP_CLK, some NCL_CLK_NOW), (NCL_SNAP_TRAPS, none)]
  | .dis => (List.range 6).flatMap (fun c => [(DIS_SNAP_DEPTH + 4 * c, none), (DIS_SNAP_RUN + 4 * c, none), (DIS_SNAP_PRE + 4 * c, none)])
      ++ [(DIS_SNAP_FREE, some DIS_FREE_SLOTS)]
  | .cvn => [(CVN_SNAP_ACTIVE, some CVN_ACTIVE), (CVN_SNAP_BUSY, none), (CVN_SNAP_WAIT, none)]
  | .mte => [(MTE_SNAP_LOOKUPS, none), (MTE_SNAP_VALID, some MTE_VALID_COUNT)]
  | .dge => [(DGE_SNAP_STATE, some DGE_DSTATUS), (DGE_SNAP_BYTES, none)]
  | .key => [(KEY_SNAP_RES, some KEY_RESIDENT), (KEY_SNAP_DENIED, none)]
  | .scp => [(SCP_SNAP_REC, some SCP_REC_SEQ), (SCP_SNAP_BOOT, some SCP_BOOT_STAGE)]
  | .tol => [(TOL_SNAP_STSEQ, some TOL_STSEQ), (TOL_SNAP_TAPERR, some TOL_TAP_ERR)]
  | .spn => [(SPN_SNAP_VIEW, some SPN_VIEW), (SPN_SNAP_GEN, some SPN_GEN_LO), (SPN_SNAP_SJ, some SPN_SJ_LIVE)]
  | .pmu => [(PMU_SNAP_ON, some PMU_DOMAIN_ON), (PMU_SNAP_WAKE, some PMU_WAKE)]
  | .cle => [(CLE_SNAP_THROTTLE, some CLE_THROTTLE), (CLE_SNAP_POWER, some CLE_NODE_POWER), (CLE_SNAP_TOKENS, none)]
  | .flt => [(FLT_SNAP_WSEQ, some FLT_LOG_WSEQ), (FLT_SNAP_FATAL, some FLT_FATAL)]
  | .sys => [] | .lch => []

/-- Levels, not accumulators: copies whose value the block keeps up to date in `since` and that a latch does not clear. -/
def levelCopy (k : PageKind) (off : Nat) : Bool :=
  (k == .nqe && off == NQE_SNAP_OUTSTANDING) || (k == .cvn && off == CVN_SNAP_WAIT)
    || (k == .dis && decide (DIS_SNAP_DEPTH ≤ off) && decide (off < DIS_SNAP_RUN))

/-- The fields SNAP_LADDER packs: rung 4 [31:24], rung 3 [23:16], rung 2 [15:0], each saturating; the accumulator holds them as digits of base 2^32 (R160). -/
def packLadder (n : Nat) : Nat :=
  let rung (i : Nat) := n / 2 ^ (32 * i) % 2 ^ 32
  min 0xFF (rung 2) * 2 ^ 24 + min 0xFF (rung 1) * 2 ^ 16 + min 0xFFFF (rung 0)

/-- Latch one page (R76). -/
def latchPage (o : SnapOrder) (s : State) (p : Nat) : State :=
  match pageKind? s.com.chip p with
  | none => s
  | some k =>
    let s := wr s p rSNAP_SEQ (w32 o.seq)
    let s := wr (wr s p rSNAP_LO (lo32 o.time)) p rSNAP_HI (hi32 o.time)
    let s := wr s p rSNAP_STAGE (if hasStaged k then rd s p rSTAGE_STATUS else 0)
    if hasSnapCopy k then
      (snapCopies k).foldl (fun s c => match c.2 with
        | some src => wr s p c.1 (rd s p src)
        | none =>
          let n := s.com.since.getD (regKey p c.1) 0
          let s := wr s p c.1 (w32 (min 0xFFFFFFFF (if k = .fch then packLadder n else n)))
          if levelCopy k c.1 then s
          else { s with com := { s.com with since := s.com.since.del (regKey p c.1) } }) s
    else s

/-- The orders an island latches now: those whose T is reached and that went out after the one its page latched last. -/
def dueOrders (s : State) (p : Nat) : List SnapOrder :=
  let last := (rd s p rSNAP_SEQ).toNat
  let due := s.sgl.orders.filter fun o => decide (o.time.toNat ≤ s.com.time.toNat)
  if due.any fun o => o.seq == last then (due.dropWhile fun o => o.seq != last).drop 1 else due

/-- The island is in reset: its crossings hold, and its pages do not latch (R103, R610). -/
def islandHeld (s : State) : Island → Bool
  | .hostPort p => s.flt.resets.contains (if p then 2 else 1)
  | .cluster c => s.flt.resets.contains (0x10 + c.val)
  | .dram n => s.flt.resets.contains (0x20 + n.val)
  | .channel c => s.flt.resets.contains (0x40 + c.val)
  | _ => false

/-- An island reaches a latch time: every page of it whose domain is on latches; a page that is off or absent, or whose island is in reset, keeps its older copies (R101, R103). -/
def latchIsland (s : State) (i : Island) : State :=
  if islandHeld s i then s
  else (islandPages s i).foldl (fun s p =>
    if pageUp s p then (dueOrders s p).foldl (fun s o => latchPage o s p) s else s) s

end Sys2Proof.Machine
end

