-- ==== Sys2Proof/Machine/Memory.lean ====
section
/-! DEFINITION. Landing, the MRAM dies and the DRAM channels: error codes, merge buffers, address decode, frames, wear, refresh and rank retirement (R289 to R338). -/

namespace Sys2Proof.Machine

/-! ### Word memories with SECDED and a merge buffer (R314, R317, R318) -/

/-- A word memory of 8-byte words: contents, error marks by word, merge entries oldest first. -/
structure WordMem where
  mem : Mem
  err : Tab WordErr
  merge : List MergeEntry

/-- What a word access met: corrected words, and words returned uncorrectable with the last one's index. -/
structure Met where
  ce : Nat
  ue : Nat
  ueWord : Nat

/-- Nothing met. -/
def Met.none : Met := ⟨0, 0, 0⟩

/-- Two accesses' findings together. -/
def Met.add (a b : Met) : Met := ⟨a.ce + b.ce, a.ue + b.ue, if b.ue = 0 then a.ueWord else b.ueWord⟩

/-- Bytes of `old` overlaid with the bytes of `new` whose mask bit is set; `i` is the index of the first byte. -/
def overlay : Nat → Nat → List Byte → List Byte → List Byte
  | i, m, o :: os, n :: ns => (if m.testBit i then n else o) :: overlay (i + 1) m os ns
  | _, _, os, _ => os

/-- Read one word: a single-bit error is corrected and written back, a double-bit error returns uncorrectable, and a merge entry's bytes lie over the array's (R314, R317). -/
def wmRead (m : WordMem) (w : Nat) : WordMem × Option (List Byte) × Met :=
  let bytes := m.mem.readN (8 * w) 8
  let seen := match m.merge.find? fun e => e.index == w with
    | none => bytes
    | some e => overlay 0 e.mask bytes e.data
  match m.err.get? w with
  | none => (m, some seen, Met.none)
  | some .single => ({ m with err := m.err.del w }, some seen, ⟨1, 0, 0⟩)
  | some _ => (m, none, ⟨0, 1, w⟩)

/-- Write a whole word to the array: its error mark clears. -/
def wmStore (m : WordMem) (w : Nat) (bytes : List Byte) : WordMem :=
  { m with mem := m.mem.writeN (8 * w) bytes, err := m.err.del w }

/-- Write a merge entry to the array: a full mask as a plain write, else as a read-modify-write; over an uncorrectable word the merged word stays uncorrectable and counts (R317, R318). -/
def wmFlush (m : WordMem) (e : MergeEntry) : WordMem × Met :=
  let m := { m with merge := removeFirst (fun x : MergeEntry => x.index == e.index) m.merge }
  if e.mask = 255 then (wmStore m e.index e.data, Met.none)
  else
    let merged := overlay 0 e.mask (m.mem.readN (8 * e.index) 8) e.data
    match m.err.get? e.index with
    | none => (wmStore m e.index merged, Met.none)
    | some .single => (wmStore m e.index merged, ⟨1, 0, 0⟩)
    | some k => ({ wmStore m e.index merged with err := m.err.put e.index k }, ⟨0, 1, e.index⟩)

/-- Add bytes at `lo` of word `w` to an entry. -/
def mergeInto (e : MergeEntry) (lo : Nat) (bytes : List Byte) (size : Nat) : MergeEntry :=
  let mask := (2 ^ bytes.length - 1) <<< lo
  let wide := List.replicate lo 0 ++ bytes ++ List.replicate (size - lo - bytes.length) 0
  { e with mask := e.mask ||| mask, data := overlay 0 mask e.data wide }

/-- Write bytes that lie in one word, at byte `lo` of word `w`. `slots` is how many entries the word's buffer has, `mine` which entries share it, and `gather` whether MERGE_CTRL lets entries wait (R317). -/
def wmWrite (m : WordMem) (w lo : Nat) (bytes : List Byte) (slots : Nat) (mine : Nat → Bool) (gather : Bool) : WordMem × Met :=
  if bytes.length = 8 then
    (wmStore { m with merge := removeFirst (fun x : MergeEntry => x.index == w) m.merge } w bytes, Met.none)
  else
    let (m, met0, e) := match m.merge.find? fun x : MergeEntry => x.index == w with
      | some e => (m, Met.none, e)
      | none =>
        let (m, met) := match m.merge.filter fun x : MergeEntry => mine x.index with
          | old :: rest => if rest.length + 1 ≥ slots then wmFlush m old else (m, Met.none)
          | [] => (m, Met.none)
        let e : MergeEntry := ⟨w, 0, List.replicate 8 0⟩
        ({ m with merge := m.merge ++ [e] }, met, e)
    let e := mergeInto e lo bytes 8
    let m := { m with merge := m.merge.map fun x : MergeEntry => if x.index == w then e else x }
    if e.mask = 255 || !gather then
      let (m, met) := wmFlush m e
      (m, met0.add met)
    else (m, met0)

/-- The pieces of an access by words: word, byte in the word, and how many bytes. -/
def wordPieces (size : Nat) : Nat → Nat → Nat → List (Nat × Nat × Nat)
  | 0, _, _ => []
  | fuel + 1, off, n =>
    if n = 0 then []
    else
      let lo := off % size
      let k := min n (size - lo)
      (off / size, lo, k) :: wordPieces size fuel (off + k) (n - k)

/-- The pieces of an access of `n` bytes at `off` by 8-byte words. -/
def pieces8 (off n : Nat) : List (Nat × Nat × Nat) := wordPieces 8 (n + 1) off n

/-- Read `n` bytes across words; none when a word is uncorrectable. -/
def wmReadBytes (m : WordMem) (off n : Nat) : WordMem × Option (List Byte) × Met :=
  (pieces8 off n).foldl (fun acc p =>
    let (m, out, met) := acc
    let (m, b, met') := wmRead m p.1
    (m, (match out, b with
      | some o, some b => some (o ++ (b.drop p.2.1).take p.2.2)
      | _, _ => none), met.add met')) (m, some [], Met.none)

/-- Write bytes across words. -/
def wmWriteBytes (m : WordMem) (off : Nat) (bytes : List Byte) (slots : Nat) (mine : Nat → Nat → Bool) (gather : Bool) : WordMem × Met :=
  ((pieces8 off bytes.length).foldl (fun acc p =>
    let (m, met, rest) := acc
    let (m, met') := wmWrite m p.1 p.2.1 (rest.take p.2.2) slots (mine p.1) gather
    (m, met.add met', rest.drop p.2.2)) (m, Met.none, bytes)) |> fun r => (r.1, r.2.1)

/-! ### Landing (R312 to R318, R336) -/

/-- Bank of a Landing offset (R37). -/
def lndBank (off : Nat) : Nat := off / 0x200000

/-- Landing as a word memory. -/
def lndMem (s : State) : WordMem := ⟨s.mem.landing, s.mem.lndErr, s.mem.lndMerge⟩

/-- Put Landing back, with what the access met: ECC_CE and the bucket for corrections, ECC_UE, UE_ADDR and IRQ UE for uncorrectable words; a bucket overflow names the bank of the latest correction (R315, R316). -/
def lndPut (s : State) (m : WordMem) (met : Met) (bank : Nat) : State :=
  let s := { s with mem := { s.mem with landing := m.mem, lndErr := m.err, lndMerge := m.merge } }
  let s := if met.ce = 0 then s else
    let s := bump s pLND LND_ECC_CE met.ce
    (List.range met.ce).foldl (fun s _ => (lbEventAt s pLND bank).1) s
  if met.ue = 0 then s
  else irq (wr (bumpF s pLND LND_ECC_UE 15 0 met.ue) pLND LND_UE_ADDR (w32 (met.ueWord * 8))) pLND 0

/-- An armed injection for the bank marks the word about to be read (R336). -/
def lndArm (s : State) (off : Nat) : State :=
  match s.mem.lndInject.get? (lndBank off) with
  | none => s
  | some c => { s with mem := { s.mem with
      lndInject := s.mem.lndInject.del (lndBank off),
      lndErr := s.mem.lndErr.put (off / 8) (if c = 1 then .single else .double) } }

/-- Read Landing bytes (R313). -/
def lndRead (s : State) (off n : Nat) : State × Option (List Byte) :=
  let s := lndArm s off
  let (m, b, met) := wmReadBytes (lndMem s) off n
  (lndPut s m met (lndBank off), b)

/-- Write Landing bytes (R313, R317). -/
def lndWrite (s : State) (off : Nat) (bytes : List Byte) : State :=
  let (m, met) := wmWriteBytes (lndMem s) off bytes 4 (fun w x => lndBank (8 * x) == lndBank (8 * w))
    (inF s pLND LND_MERGE_CTRL 7 0 != 0)
  lndPut s m met (lndBank off)

/-- The oldest merge entry of a Landing bank goes to the array (R317). -/
def lndFlush (s : State) (bank : Nat) : State :=
  match s.mem.lndMerge.find? fun e => lndBank (8 * e.index) == bank with
  | none => s
  | some e => let (m, met) := wmFlush (lndMem s) e; lndPut s m met bank

/-- Commit check of `LND` (R336). -/
def checkLnd (s : State) : List (Nat × Nat) :=
  if popCount 32 (rd s pLND LND_RETAIN).toNat > 8 then [(LND_RETAIN, 1)] else []

/-! ### MRAM (R320 to R329, R337) -/

/-- State of an MRAM die: 1 in service, 2 failed (R337). -/
def mrmDie (s : State) (d : Nat) : Nat := if d = 0 then rdF s pMRM MRM_DIE_STATE 3 0 else rdF s pMRM MRM_DIE_STATE 7 4

/-- Is the die in service? -/
def dieUp (s : State) (d : Nat) : Bool := mrmDie s d == 1

/-- The rotated area of the view: the rings (R323). -/
def inRotated (off : Nat) : Bool := decide (0x0800000 ≤ off) && decide (off < 0x6900000)

/-- Ranges that read as 0 and ignore writes (R323). -/
def mrmReserved (off : Nat) : Bool :=
  (decide (0x003E000 ≤ off) && decide (off < 0x0800000))

/-- Physical frame of a logical frame (R324). -/
def physFrame (s : State) (l : Nat) : Nat := s.mem.frameOf.getD l l

/-- Physical offset of a view offset (R324). -/
def physOff (s : State) (off : Nat) : Nat :=
  if inRotated off then 0x0800000 + physFrame s ((off - 0x0800000) / 65536) * 65536 + (off - 0x0800000) % 65536
  else off

/-- The die a read goes to first (R320). -/
def readDie (s : State) (off : Nat) : Nat :=
  if inRotated off then physFrame s ((off - 0x0800000) / 65536) % 2 else 0

/-- One MRAM die as a word memory. -/
def dieMem (s : State) (d : Nat) : WordMem :=
  if d = 0 then ⟨s.mem.mram0, s.mem.mErr0, []⟩ else ⟨s.mem.mram1, s.mem.mErr1, []⟩

/-- Put an MRAM die back. -/
def dieSet (s : State) (d : Nat) (m : WordMem) : State :=
  if d = 0 then { s with mem := { s.mem with mram0 := m.mem, mErr0 := m.err } }
  else { s with mem := { s.mem with mram1 := m.mem, mErr1 := m.err } }

/-- Physical frames that are assigned. -/
def assignedFrames (s : State) : List Nat := (List.range 1552).map (physFrame s)

/-- The pool: physical frames neither assigned nor retired (R324, R327). -/
def poolFrames (s : State) : List Nat :=
  let a := assignedFrames s
  (List.range 1920).filter fun f => !a.contains f && !s.mem.frameRetired.contains f

/-- PASS of a physical frame. -/
def passOf (s : State) (f : Nat) : Nat := s.mem.pass.getD f 0

/-- FRAMES, PASS_MAX and PASS_MIN follow the headers; a pool below 32 frames raises POOL_LOW (R327, R337). -/
def refreshFrames (s : State) : State :=
  let n := 1920 - 1552 - s.mem.frameRetired.length
  let ps := (List.range 1920).map (passOf s)
  let s := wr s pMRM MRM_FRAMES (w32 (s.mem.frameRetired.length % 2048 * 65536 + n % 2048))
  let s := wr s pMRM MRM_PASS_MAX (w32 (ps.foldl max 0))
  let s := wr s pMRM MRM_PASS_MIN (w32 (ps.foldl min (passOf s 0)))
  if n < 32 then smartSet (irq s pMRM 3) 2 else s

/-- Assign physical frame `f` to logical frame `l`: its header is written with the next ASEQ and PASS + 1 (R325). -/
def assignFrame (s : State) (l f : Nat) : State :=
  let bad := s.mem.mrmInject.any fun i => i.2 == 4
  { s with mem := { s.mem with
      frameOf := s.mem.frameOf.putD l f l
      pass := s.mem.pass.put f (passOf s f + 1)
      aseq := s.mem.aseq.put f s.mem.nextAseq
      lframe := s.mem.lframe.putD f l f
      nextAseq := s.mem.nextAseq + 1
      badHeader := if bad then f :: s.mem.badHeader else s.mem.badHeader.filter (· != f)
      mrmInject := removeFirst (fun i => i.2 == 4) s.mem.mrmInject } }

/-- The pool frame with the lowest PASS, the lowest number on a tie (R325). -/
def coolestPool? (s : State) : Option Nat := minBy? (passOf s) (poolFrames s)

/-- At start-up every header is read: a frame whose HCHECK fails joins the pool with the pool's highest PASS, and its logical frame maps to the valid header with the highest ASEQ that names it, or to a fresh frame where none does (R325). -/
def frameRecover (s : State) : State :=
  let bad := s.mem.badHeader
  let top := ((poolFrames s).map (passOf s)).foldl max 0
  let s := { s with mem := { s.mem with badHeader := [], pass := bad.foldl (fun (t : Tab Nat) f => t.put f top) s.mem.pass } }
  let s := bad.foldl (fun s f =>
    match (List.range 1552).find? fun l => physFrame s l == f with
    | none => s
    | some l =>
      let named := (List.range 1920).filter fun g => !bad.contains g && !s.mem.frameRetired.contains g && s.mem.lframe.getD g g == l
      match minBy? (fun g => s.mem.nextAseq - s.mem.aseq.getD g 0) named with
      | some g => { s with mem := { s.mem with frameOf := s.mem.frameOf.putD l g l } }
      | none => match coolestPool? s with
        | some g => assignFrame s l g
        | none => s) s
  if bad.isEmpty then s else refreshFrames s

/-- A ring's write head enters a logical frame: a fresh pool frame is assigned and the old one returns to the pool (R325). -/
def frameEnter (s : State) (l : Nat) : State :=
  match coolestPool? s with
  | none => s
  | some f => refreshFrames (assignFrame s l f)

/-- Copy one physical frame to another on both dies, with its error marks. -/
def copyFrame (s : State) (src dst : Nat) : State :=
  let cp (m : WordMem) : WordMem :=
    let so := 0x0800000 + src * 65536
    let d0 := 0x0800000 + dst * 65536
    { m with
      mem := (m.mem.filter fun e => decide (so ≤ e.1) && decide (e.1 < so + 65536)).foldl
        (fun a e => a.write (d0 + (e.1 - so)) e.2) (m.mem.clear d0 65536)
      err := (m.err.filter fun e => decide (so / 8 ≤ e.1) && decide (e.1 < (so + 65536) / 8)).foldl
        (fun a e => match e.2 with
          | .single => a
          | k => a.put (d0 / 8 + (e.1 - so / 8)) k) (m.err.dropRange (d0 / 8) ((d0 + 65536) / 8)) }
  let s := dieSet s 0 (cp (dieMem s 0))
  dieSet s 1 (cp (dieMem s 1))

/-- The logical frame a physical frame serves. -/
def servedBy? (s : State) (f : Nat) : Option Nat := (List.range 1552).find? fun l => physFrame s l == f

/-- A cold frame more than 65,536 passes below the hottest pool frame is copied into it and returns to the pool (R326). -/
def frameSwap (s : State) : State :=
  match minBy? (fun f => 2 ^ 40 - passOf s f) (poolFrames s), minBy? (passOf s) (assignedFrames s) with
  | some hot, some cold =>
    if passOf s hot > passOf s cold + 65536 then
      match servedBy? s cold with
      | none => s
      | some l => refreshFrames (bump (assignFrame (copyFrame s cold hot) l hot) pMRM MRM_SWAPS 1)
    else s
  | _, _ => s

/-- A frame is retired for good, its contents copied to a pool frame first if it is assigned (R327). -/
def frameRetire (s : State) (f : Nat) : State :=
  if s.mem.frameRetired.contains f then s
  else
    let s := match servedBy? s f, coolestPool? s with
      | some l, some g => assignFrame (copyFrame s f g) l g
      | _, _ => s
    let s := { s with mem := { s.mem with frameRetired := f :: s.mem.frameRetired } }
    refreshFrames (irq s pMRM 2)

/-- A corrected MRAM word: ECC_CE, its frame's share of the bucket (a bucket that has run empty holds no frame's events), and on an overflow the retirement of the frame that holds half of it (R316). -/
def mrmCorrectedAt (s : State) (frame : Option Nat) : State :=
  let kept : Tab Nat := if rdF s pMRM rLB_COUNT 15 0 = 0 then [] else s.mem.frameCe
  let s := bump s pMRM MRM_ECC_CE 1
  let s := match frame with
    | some f => { s with mem := { s.mem with frameCe := kept.modify f 0 (· + 1) } }
    | none => { s with mem := { s.mem with frameCe := kept } }
  let (s, fired) := lbEvent s pMRM
  if fired then
    match s.mem.frameCe.find? fun e => decide (2 * e.2 ≥ inF s pMRM rLB_LIMIT 15 0) with
    | some e => frameRetire s e.1
    | none => s
  else s

/-- A corrected word of the view. -/
def mrmCorrected (s : State) (off : Nat) : State :=
  mrmCorrectedAt s (if inRotated off then some (physFrame s ((off - 0x0800000) / 65536)) else none)

/-- Mark the word about to be read, under an armed injection (R337). -/
def mrmArm (s : State) (off : Nat) : State :=
  match s.mem.mrmInject.find? fun i => i.2 == 1 || i.2 == 2 with
  | none => s
  | some i =>
    let d := if i.2 = 1 then readDie s off else i.1
    let m := dieMem s d
    let s := dieSet s d { m with err := m.err.put (physOff s off / 8) (if i.2 = 1 then .single else .double) }
    { s with mem := { s.mem with mrmInject := removeFirst (fun x => x == i) s.mem.mrmInject } }

/-- Read one MRAM word, from one die and, when that copy is uncorrectable, from the other, which repairs the first (R320). -/
def mrmWordRead (s : State) (w : Nat) : State × Option (List Byte) :=
  let off := 8 * w
  if mrmReserved off then (s, some (List.replicate 8 0))
  else
    let s := mrmArm s off
    let p := physOff s off / 8
    let d0 := readDie s off
    let d := if dieUp s d0 then d0 else 1 - d0
    let o := 1 - d
    let above (b : List Byte) : List Byte := match s.mem.mrmMerge.find? fun e => e.index == w with
      | none => b
      | some e => overlay 0 e.mask b e.data
    let lost (s : State) : State × Option (List Byte) :=
      (irq (wr (bumpF s pMRM MRM_ECC_UE 15 0 1) pMRM MRM_UE_ADDR (w32 off)) pMRM 4, none)
    if !dieUp s d then lost s
    else
      let (m, b, met) := wmRead (dieMem s d) p
      let s := dieSet s d m
      let s := if met.ce = 0 then s else mrmCorrected s off
      match b with
      | some b => (s, some (above b))
      | none =>
        if !dieUp s o then lost s
        else
          let (mo, bo, meto) := wmRead (dieMem s o) p
          let s := dieSet s o mo
          let s := if meto.ce = 0 then s else mrmCorrected s off
          match bo with
          | none => lost s
          | some b =>
            let s := dieSet s d (wmStore (dieMem s d) p b)
            (bump s pMRM MRM_MIRROR_READS 1, some (above b))

/-- Write one whole MRAM word to every die in service (R320, R322). -/
def mrmWordStore (s : State) (w : Nat) (bytes : List Byte) : State :=
  let off := 8 * w
  if mrmReserved off then s
  else
    let p := physOff s off / 8
    let s := if dieUp s 0 then dieSet s 0 (wmStore (dieMem s 0) p bytes) else s
    if dieUp s 1 then dieSet s 1 (wmStore (dieMem s 1) p bytes) else s

/-- WEAR_CREDIT shows the credit in MB, and 0 while in debt (R329, R337). -/
def showCredit (s : State) : State := wr s pMRM MRM_WEAR_CREDIT (w32 (s.mem.credit.toNat / 1000000))

/-- Charge bytes written to the rotated area (R329, R337). -/
def chargeWear (s : State) (n : Nat) : State :=
  let k := s.mem.kibRest + n
  let s := { s with mem := { s.mem with credit := s.mem.credit - n, kibRest := k % 1024 } }
  showCredit (bump s pMRM MRM_WRITE_KIB (k / 1024))

/-- Mark a word on every die in service. -/
def mrmMark (s : State) (w : Nat) (k : WordErr) : State :=
  let p := physOff s (8 * w) / 8
  let mark (s : State) (d : Nat) : State := if dieUp s d then dieSet s d { dieMem s d with err := (dieMem s d).err.put p k } else s
  mark (mark s 0) 1

/-- Write a merge entry to the array: a full mask as a plain write, else over the word as read; a word uncorrectable on both dies stays so (R317, R318). -/
def mrmFlush (s : State) (e : MergeEntry) : State :=
  let s := { s with mem := { s.mem with mrmMerge := removeFirst (fun x : MergeEntry => x.index == e.index) s.mem.mrmMerge } }
  if e.mask = 255 then mrmWordStore s e.index e.data
  else match mrmWordRead s e.index with
    | (s, some b) => mrmWordStore s e.index (overlay 0 e.mask b e.data)
    | (s, none) =>
      let d := if dieUp s 0 then 0 else 1
      mrmMark (mrmWordStore s e.index (overlay 0 e.mask ((dieMem s d).mem.readN (physOff s (8 * e.index)) 8) e.data)) e.index .double

/-- Write bytes to the array through the merge buffer of 8 entries (R317). -/
def mrmMergeWrite (s : State) (w lo : Nat) (bytes : List Byte) : State :=
  if bytes.length = 8 then
    mrmWordStore { s with mem := { s.mem with mrmMerge := removeFirst (fun x : MergeEntry => x.index == w) s.mem.mrmMerge } } w bytes
  else
    let (s, e) := match s.mem.mrmMerge.find? fun x : MergeEntry => x.index == w with
      | some e => (s, e)
      | none =>
        let s := match s.mem.mrmMerge with
          | old :: rest => if rest.length + 1 ≥ 8 then mrmFlush s old else s
          | [] => s
        let e : MergeEntry := ⟨w, 0, List.replicate 8 0⟩
        ({ s with mem := { s.mem with mrmMerge := s.mem.mrmMerge ++ [e] } }, e)
    let e := mergeInto e lo bytes 8
    let s := { s with mem := { s.mem with mrmMerge := s.mem.mrmMerge.map fun x : MergeEntry => if x.index == w then e else x } }
    if e.mask = 255 || inF s pMRM MRM_MERGE_CTRL 7 0 = 0 then mrmFlush s e else s

/-- Put bytes into the view at once, as the device's own rings do: words through the merge buffer, charged to the wear meter in the rotated area (R321, R329). -/
def mramPut (s : State) (off : Nat) (bytes : List Byte) : State :=
  let s := ((pieces8 off bytes.length).foldl (fun acc p =>
    let (s, rest) := acc
    (mrmMergeWrite s p.1 p.2.1 (rest.take p.2.2), rest.drop p.2.2)) (s, bytes)).1
  if inRotated off then chargeWear s bytes.length else s

/-- Bytes of the view; none when a word is uncorrectable on both dies. -/
def mramGet (s : State) (off n : Nat) : State × Option (List Byte) :=
  (pieces8 off n).foldl (fun acc p =>
    let (s, out) := acc
    let (s, b) := mrmWordRead s p.1
    (s, match out, b with
      | some o, some b => some (o ++ (b.drop p.2.1).take p.2.2)
      | _, _ => none)) (s, some [])

/-- The wear meter holds a write to the rotated area while its credit is empty; after PWR_FAIL it never does (R329). -/
def wearHolds (s : State) (off : Nat) : Bool :=
  inRotated off && decide (s.mem.credit ≤ 0) && !ferryRunning s

/-- Write the view for an initiator: held by the wear meter, or written (R329). -/
def mramWrite (s : State) (off : Nat) (bytes : List Byte) : State × Answer :=
  if wearHolds s off then
    (irq { s with mem := { s.mem with wearHeld := s.mem.wearHeld ++ [(off, bytes)] } } pMRM 0, .held)
  else (mramPut s off bytes, .ack)

/-- Wear credit returns at 140 MB/s up to 504 GB, and held writes proceed in order while there is credit (R329). -/
def wearRelease (s : State) (ns : Nat) : State :=
  let c : Int := min 504000000000 (s.mem.credit + (ns * 14 / 100 : Nat))
  let s := showCredit { s with mem := { s.mem with credit := c } }
  let held := s.mem.wearHeld
  held.foldl (fun s w =>
    if wearHolds s w.1 then { s with mem := { s.mem with wearHeld := s.mem.wearHeld ++ [w] } }
    else mramPut s w.1 w.2) { s with mem := { s.mem with wearHeld := [] } }

/-- An MRAM die is marked failed; with both lost the device stops changing the map (R322). -/
def mrmDieFail (s : State) (d : Nat) : State :=
  let s := if d = 0 then wrF s pMRM MRM_DIE_STATE 3 0 2 else wrF s pMRM MRM_DIE_STATE 7 4 2
  let s := smartSet (irq s pMRM 1) 2
  if dieUp s 0 || dieUp s 1 then s
  else smartSet (wrB (irq s pMRM 5) pMAP MAP_MEDIA_STATE 3 true) 3

/-! ### DRAM decode (R289 to R294) -/

/-- Rank capacity K in bytes of the committed geometry (R289). -/
def rankBytes (s : State) : Nat :=
  let gib := 2 ^ 30
  if inF s pDMC0 DMC_GEOM 5 5 = 1 then 32 * gib
  else match inF s pDMC0 DMC_GEOM 9 8 with
    | 0 => 16 * gib
    | 1 => 24 * gib
    | _ => 32 * gib
where
  /-- Page of `DMC0`, which holds the device-wide fields (R310). -/
  pDMC0 : Nat := pDMC 0

/-- Does each channel have two ranks? -/
def twoRanks (s : State) : Bool := inF s (pDMC 0) DMC_GEOM 4 4 == 1

/-- The channel of the spare rank, if one is designated (R294). -/
def spareCh? (s : State) : Option Nat :=
  if twoRanks s && inF s (pDMC 0) DMC_SPARE 7 7 == 1 then some (inF s (pDMC 0) DMC_SPARE 2 0) else none

/-- Channels with a mapped rank 1, ascending (R292). -/
def rank1Channels (s : State) : List Nat :=
  if twoRanks s then (List.range 8).filter fun c => some c != spareCh? s else []

/-- Populated top of the DRAM window, as an offset (R40). -/
def dramTop (s : State) : Nat := rankBytes s * (8 + (rank1Channels s).length)

/-- Where a line of the window lies: channel, rank, subchannel and chunk (R292). -/
structure DramLoc where
  ch : Nat
  rank : Nat
  sub : Nat
  y : Nat
  deriving DecidableEq, Repr

/-- The address decode of R292. -/
def dramDecode (s : State) (o : Nat) : DramLoc :=
  let k := rankBytes s
  if o < 8 * k then ⟨o / 128 % 8, 0, o / 64 % 2, o / 1024⟩
  else
    let cs := rank1Channels s
    let x := (o - 8 * k) / 128
    ⟨cs.getD (x % cs.length) 0, 1, o / 64 % 2, x / cs.length⟩

/-- Rank-local line index (R302, R307). -/
def DramLoc.line (l : DramLoc) : Nat := l.y * 2 + l.sub

/-- The spare's channel, for a line that migration has already copied to the spare rank (R292, R307). -/
def copiedTo? (s : State) (o : Nat) : Option Nat :=
  let l := dramDecode s o
  match s.mem.replaced, spareCh? s with
  | some (c, r), some sp =>
    if l.ch = c ∧ l.rank = r ∧ (s.mem.migrating = none ∨ l.line < (rd s (pDMC c) DMC_MIG_PTR).toNat) then some sp else none
  | _, _ => none

/-- The channel an access belongs to: that of the spare for a line already copied (R292, R307). -/
def dramChannel (s : State) (o : Nat) : Nat := (copiedTo? s o).getD (dramDecode s o).ch

/-- The (channel, rank) that physically holds a line: the spare is rank 1 of its channel (R294, R307). -/
def dramRank (s : State) (o : Nat) : Nat × Nat :=
  match copiedTo? s o with
  | some sp => (sp, 1)
  | none => ((dramDecode s o).ch, (dramDecode s o).rank)

/-- Bank number of a location on a channel and rank (R293). -/
def dramBankOf (s : State) (l : DramLoc) (ch rank : Nat) : Nat × Nat :=
  let lines := if inF s (pDMC 0) DMC_GEOM 5 5 = 1 then 128 else 64
  let row := l.y / (32 * lines)
  let bg := (l.y / lines % 8) ^^^ (row % 8)
  let ba := (l.y / lines / 8 % 4) ^^^ (row / 8 % 4)
  ((((ch * 2 + rank) * 2 + l.sub) * 8 + bg) * 4 + ba, row)

/-- A timing field of `DMC0` in island cycles: half its tCK count, rounded up (R291). -/
def islandCycles (tck : Nat) : Nat := cdiv tck 2

/-- CL in island cycles. -/
def tCL (s : State) : Nat := islandCycles (inF s (pDMC 0) DMC_T_CORE 7 0)
/-- tRCD in island cycles. -/
def tRCD (s : State) : Nat := islandCycles (inF s (pDMC 0) DMC_T_CORE 15 8)
/-- tRP in island cycles. -/
def tRP (s : State) : Nat := islandCycles (inF s (pDMC 0) DMC_T_CORE 23 16)
/-- tRAS in island cycles. -/
def tRAS (s : State) : Nat := islandCycles (inF s (pDMC 0) DMC_T_RAS_RFC 7 0)

/-- Island clock of the DRAM controllers in 100 MHz (R290). -/
def dmcClock (s : State) : Nat := 12 + 2 * min 2 (inF s (pDMC 0) DMC_GEOM 1 0)

/-- Cycles still needed to meet tRAS on a row opened at `t` (R305). -/
def rresCycles (s : State) (t : Count) : Nat := tRAS s - (s.com.time - t).toNat * dmcClock s / 10

/-- Count of a read in island cycles by how it finds its bank (R305). -/
def readCycles (s : State) (h : BankHit) (rres : Nat) : Nat :=
  match h with
  | .hit => 4 + tCL s + 4 + 12 + 2
  | .closed => 4 + tRCD s + tCL s + 4 + 12 + 2
  | .conflict => 4 + rres + tRP s + tRCD s + tCL s + 4 + 12 + 2

/-- Touch the bank of a line: hit, closed or conflict, the predictor, and whether the row stays open (R300, R305). -/
def touchBank (s : State) (o : Nat) : State :=
  let (ch, rank) := dramRank s o
  let (b, row) := dramBankOf s (dramDecode s o) ch rank
  let k := s.mem.banks.getD b ⟨none, inF s (pDMC ch) DMC_PAGE_POLICY 5 4⟩
  let (h, since, rres) := match k.open_ with
    | none => (BankHit.closed, s.com.time, 0)
    | some (r, t) => if r = row then (BankHit.hit, t, 0) else (BankHit.conflict, s.com.time, rresCycles s t)
  let pred := match h with
    | .hit => min 3 (k.pred + 1)
    | .conflict => k.pred - 1
    | .closed => k.pred
  let keep := match inF s (pDMC ch) DMC_PAGE_POLICY 1 0 with
    | 1 => true
    | 2 => false
    | _ => decide (2 ≤ pred)
  { s with mem := { s.mem with
      banks := s.mem.banks.put b ⟨if keep then some (row, since) else none, pred⟩
      lastDram := some (h, readCycles s h rres) } }

/-! ### Rank retirement (R306 to R309) -/

/-- State code of a rank in RANK_STATE (R310). -/
def rankState (s : State) (ch r : Nat) : Nat :=
  if r = 0 then rdF s (pDMC ch) DMC_RANK_STATE 3 0 else rdF s (pDMC ch) DMC_RANK_STATE 7 4

/-- Set the state code of a rank. -/
def setRankState (s : State) (ch r v : Nat) : State :=
  if r = 0 then wrF s (pDMC ch) DMC_RANK_STATE 3 0 v else wrF s (pDMC ch) DMC_RANK_STATE 7 4 v

/-- Lines of a rank (R307). -/
def rankLines (s : State) : Nat := rankBytes s / 64

/-- The spare rank is idle. -/
def spareIdle? (s : State) : Option Nat :=
  match spareCh? s with
  | some c => if rankState s c 1 = 2 ∧ s.mem.migrating = none ∧ s.mem.replaced = none then some c else none
  | none => none

/-- Retire a rank: it is replaced by an idle spare, migrating its lines unless its contents are empty, or it stays in service degraded; the spare's own faults follow its state (R306 to R309). -/
def retireRank (s : State) (ch r : Nat) (empty : Bool) : State :=
  match rankState s ch r with
  | 2 => setRankState (logRetire s (pDMC ch) (Config.blockCause 29) r) ch r 7
  | 1 =>
    let s := irq (logRetire s (pDMC ch) (Config.blockCause 29) r) (pDMC ch) 0
    match spareIdle? s with
    | some sp =>
      if empty then
        let s := setRankState (setRankState s ch r 4) sp 1 5
        { wr s (pDMC ch) DMC_MIG_PTR (w32 (rankLines s)) with mem := { s.mem with replaced := some (ch, r) } }
      else
        let s := wr (setRankState s ch r 3) (pDMC ch) DMC_MIG_PTR 0
        { s with mem := { s.mem with migrating := some (ch, r), replaced := some (ch, r) } }
    | none => smartSet (irq (setRankState s ch r 6) (pDMC ch) 5) 2
  | 5 => smartSet (irq (setRankState (logRetire s (pDMC ch) (Config.blockCause 29) r) ch r 6) (pDMC ch) 5) 2
  | _ => s

/-- A corrected DRAM word (R303, R306). -/
def dmcCorrected (s : State) (ch r : Nat) : State :=
  let s := if r = 0 then bumpF s (pDMC ch) DMC_ECC_CE 15 0 1 else bumpF s (pDMC ch) DMC_ECC_CE 31 16 1
  let (s, fired) := lbEvent s (pDMC ch)
  let n := if r = 0 then rdF s (pDMC ch) DMC_ECC_CE 15 0 else rdF s (pDMC ch) DMC_ECC_CE 31 16
  if fired && decide (2 * n ≥ inF s (pDMC ch) rLB_LIMIT 15 0) then retireRank s ch r false else s

/-- An uncorrectable DRAM word: ECC_UE, UE_ADDR and IRQ UE, and the rank is retired unless the word was poison (R303, R306). -/
def dmcUncorrectable (s : State) (ch r o : Nat) (poison : Bool) : State :=
  let s := bumpF s (pDMC ch) DMC_ECC_UE 15 0 1
  let s := wr s (pDMC ch) DMC_UE_ADDR_LO (w32 (o / 64 * 64))
  let s := wr s (pDMC ch) DMC_UE_ADDR_HI (w32 (o / 2 ^ 32 % 256))
  let s := irq s (pDMC ch) 3
  if poison then s else retireRank s ch r false

/-- Mark the word about to be read under an armed injection (R310). -/
def dmcArm (s : State) (o : Nat) : State :=
  let (ch, r) := dramRank s o
  match s.mem.dmcInject.find? fun i => i.1 == ch && i.2.1 == r with
  | none => s
  | some i => { s with mem := { s.mem with
      dmcInject := removeFirst (fun x => x == i) s.mem.dmcInject,
      dErr := s.mem.dErr.put (o / 8) (match i.2.2 with
        | 1 => .single
        | 2 => .double
        | _ => .address) } }

/-- Read the word at index `w`: its bytes, or none when it is uncorrectable (R303). -/
def dramWordRead (s : State) (w : Nat) : State × Option (List Byte) :=
  let o := 8 * w
  let (ch, r) := dramRank s o
  match s.mem.dErr.get? w with
  | none => (s, some (s.mem.dram.readN o 8))
  | some .single =>
    (dmcCorrected { s with mem := { s.mem with dErr := s.mem.dErr.del w } } ch r, some (s.mem.dram.readN o 8))
  | some k => (dmcUncorrectable s ch r o (k == .poison), none)

/-- A whole line is written: poison and errors clear (R303). -/
def dramLineStore (s : State) (line : Nat) (bytes : List Byte) : State :=
  { s with mem := { s.mem with
      dram := s.mem.dram.writeN (64 * line) bytes
      dErr := s.mem.dErr.dropRange (8 * line) (8 * line + 8) } }

/-- Read the eight words of a line; the bytes as stored, and whether any word was uncorrectable. -/
def dramLineRead (s : State) (line : Nat) : State × Bool :=
  (List.range 8).foldl (fun acc i =>
    let (s, bad) := acc
    let (s, b) := dramWordRead s (8 * line + i)
    (s, bad || b.isNone)) (s, false)

/-- Controller of a line, for its merge buffer. -/
def lineDmc (s : State) (line : Nat) : Nat := (dramDecode s (64 * line)).ch

/-- Write a merge entry back: a plain line write when the mask is full, else a read-modify-write, poisoned over an uncorrectable line (R304). -/
def dramFlush (s : State) (e : MergeEntry) : State :=
  let s := { s with mem := { s.mem with dMerge := removeFirst (fun x : MergeEntry => x.index == e.index) s.mem.dMerge } }
  if e.mask = 2 ^ 64 - 1 then dramLineStore s e.index e.data
  else
    let ch := lineDmc s e.index
    let s := bump s (pDMC ch) DMC_MERGE_RMW 1
    let (s, bad) := dramLineRead (touchBank s (64 * e.index)) e.index
    let merged := overlay 0 e.mask (s.mem.dram.readN (64 * e.index) 64) e.data
    let s := dramLineStore s e.index merged
    if bad then
      let s := bumpF s (pDMC ch) DMC_POISON_COUNT 23 0 1
      { s with mem := { s.mem with
          dErr := (List.range 8).foldl (fun t i => t.put (8 * e.index + i) .poison) s.mem.dErr } }
    else s

/-- Write bytes that lie in one line (R304, R305). -/
def dramWriteLine (s : State) (line lo : Nat) (bytes : List Byte) : State :=
  let s := touchBank s (64 * line)
  if bytes.length = 64 then
    dramLineStore { s with mem := { s.mem with dMerge := removeFirst (fun x : MergeEntry => x.index == line) s.mem.dMerge } } line bytes
  else
    let ch := lineDmc s line
    let (s, e) := match s.mem.dMerge.find? fun x : MergeEntry => x.index == line with
      | some e => (s, e)
      | none =>
        let mine := s.mem.dMerge.filter fun x : MergeEntry => lineDmc s x.index == ch
        let s := match mine with
          | old :: rest => if rest.length + 1 ≥ 8 then dramFlush s old else s
          | [] => s
        let e : MergeEntry := ⟨line, 0, List.replicate 64 0⟩
        ({ s with mem := { s.mem with dMerge := s.mem.dMerge ++ [e] } }, e)
    let e := mergeInto e lo bytes 64
    let s := { s with mem := { s.mem with dMerge := s.mem.dMerge.map fun x : MergeEntry => if x.index == line then e else x } }
    if e.mask = 2 ^ 64 - 1 || inF s (pDMC ch) DMC_MERGE_CTRL 7 0 = 0 then dramFlush s e else s

/-- Write bytes of the DRAM window, line by line. -/
def dramWrite (s : State) (off : Nat) (bytes : List Byte) : State :=
  ((wordPieces 64 (bytes.length + 1) off bytes.length).foldl (fun acc p =>
    let (s, rest) := acc
    (dramWriteLine s p.1 p.2.1 (rest.take p.2.2), rest.drop p.2.2)) (s, bytes)).1

/-- A read that matches a merge entry first forces that entry's read-modify-write, and counts as held (R301). -/
def dramSettle (s : State) (line : Nat) : State :=
  match s.mem.dMerge.find? fun e => e.index == line with
  | none => s
  | some e => bump (dramFlush s e) (pDMC (lineDmc s line)) DMC_RAW_WAITS 1

/-- Read bytes of the DRAM window; none when a word is uncorrectable (R301, R303, R305). -/
def dramRead (s : State) (off n : Nat) : State × Option (List Byte) :=
  let s := (wordPieces 64 (n + 1) off n).foldl (fun s p => touchBank (dramSettle s p.1) (64 * p.1)) s
  let s := dmcArm s off
  (pieces8 off n).foldl (fun acc p =>
    let (s, out) := acc
    let (s, b) := dramWordRead s p.1
    (s, match out, b with
      | some o, some b => some (o ++ (b.drop p.2.1).take p.2.2)
      | _, _ => none)) (s, some [])

/-- The oldest merge entry of a controller has waited its gather time (R304). -/
def dramMergeDue (s : State) (n : Nat) : State :=
  match s.mem.dMerge.find? fun e => lineDmc s e.index == n with
  | none => s
  | some e => dramFlush s e

/-- Bytes of the write buffer at the bottom of the window: primary and mirror copies (R294). -/
def wbTop (s : State) : Nat := 2 * (inF s pMAP MAP_WB_SIZE 2 0 + 1) * 256 * 2 ^ 20

/-- Copy the error marks of the lines that migration passes: corrected, taken from the write buffer's mirror, or poisoned (R307). -/
def migrateMark (s : State) (ch r lo hi : Nat) (m : Nat × WordErr) : State :=
  let o := 8 * m.1
  let l := dramDecode s o
  if l.ch = ch ∧ l.rank = r ∧ lo ≤ l.line ∧ l.line < hi then
    match m.2 with
    | .single => { s with mem := { s.mem with dErr := s.mem.dErr.del m.1 } }
    | .poison => s
    | _ =>
      if o < wbTop s then
        let mirror := if o / 0x200 % 2 = 0 then o + 0x200 else o - 0x200
        { s with mem := { s.mem with
            dram := s.mem.dram.writeN o (s.mem.dram.readN mirror 8), dErr := s.mem.dErr.del m.1 } }
      else
        bumpF { s with mem := { s.mem with dErr := s.mem.dErr.put m.1 .poison } } (pDMC ch) DMC_POISON_COUNT 23 0 1
  else s

/-- Migration runs for some microseconds: MIG_RATE lines each, MIG_PTR following, until every line of the rank is copied (R307). -/
def migrate (s : State) (us : Nat) : State :=
  match s.mem.migrating, spareCh? s with
  | some (ch, r), some sp =>
    let lo := (rd s (pDMC ch) DMC_MIG_PTR).toNat
    let hi := min (rankLines s) (lo + us * inF s (pDMC ch) DMC_MIG_RATE 7 0)
    let s := s.mem.dErr.foldl (fun s m => migrateMark s ch r lo hi m) s
    let s := wr s (pDMC ch) DMC_MIG_PTR (w32 hi)
    if hi = rankLines s then
      irq (setRankState (setRankState { s with mem := { s.mem with migrating := none } } ch r 4) sp 1 5) (pDMC ch) 1
    else s
  | _, _ => s

/-- ALERT_n: the parity error is counted and the rank retired (R306). -/
def caParity (s : State) (ch r : Nat) : State :=
  retireRank (irq (bumpF s (pDMC ch) DMC_ECC_UE 31 16 1) (pDMC ch) 4) ch r false

/-- A controller trains its channel: ranks that fail are retired with empty contents, retirements of earlier power-ons are applied, and READY is set (R295). -/
def dramTrain (s : State) (ch : Nat) (failed : Nat) : State :=
  if bit (rd s (pDMC ch) rCTRL) 0 then
    let s := if twoRanks s && rankState s ch 1 == 0 then
        setRankState s ch 1 (if spareCh? s = some ch then 2 else 1) else s
    let s := if failed.testBit 0 then retireRank s ch 0 true else s
    let s := if failed.testBit 1 && twoRanks s then retireRank s ch 1 true else s
    wrB s (pDMC ch) rSTATUS 0 true
  else s

/-! ### Refresh (R297 to R299) -/

/-- Any rank of any channel reports hot: every controller refreshes at 1.95 µs (R297). -/
def dmcHot (s : State) : Bool := bit (rd s (pDMC 0) DMC_TEMP) 31

/-- Set TEMP.HOT on every controller; setting it raises IRQ HOT (R297, R310). -/
def setHot (s : State) (h : Bool) : State :=
  (List.range 8).foldl (fun s n =>
    let s := if h && !bit (rd s (pDMC n) DMC_TEMP) 31 then irq s (pDMC n) 2 else s
    wrB s (pDMC n) DMC_TEMP 31 h) s

/-- A controller reads MR4 of its ranks: above 85 °C anywhere turns every controller hot; 80 °C or below everywhere for 1 s turns them back (R297). -/
def mr4Read (s : State) (n : Nat) (c0 c1 : Nat) (t0 t1 : Int) : State :=
  let s := wrF (wrF s (pDMC n) DMC_TEMP 3 0 c0) (pDMC n) DMC_TEMP 7 4 c1
  let ts := s.mem.rankTemp.put (2 * n) t0
  let ts := if twoRanks s then ts.put (2 * n + 1) t1 else ts
  let s := { s with mem := { s.mem with rankTemp := ts } }
  let s := if ts.any fun e => decide (85 < e.2) then setHot s true else s
  if ts.all fun e => decide (e.2 ≤ 80) then
    match s.mem.coolSince with
    | none => { s with mem := { s.mem with coolSince := some s.com.time } }
    | some c => if (s.com.time - c).toNat ≥ 1000000000 then setHot s false else s
  else { s with mem := { s.mem with coolSince := none } }

/-- tREFI in ns (R297). -/
def tREFI (s : State) : Nat := if dmcHot s then 1950 else 3900

/-- The latest instant of the refresh grid at or before now, if it is later than the last refresh (R99). -/
def refreshDue? (s : State) : Option Nat :=
  let a := s.sgl.anchor.toNat
  let k := (s.com.time.toNat - a) / tREFI s
  let i := a + k * tREFI s
  if k ≥ 1 ∧ i > s.mem.lastRefresh.toNat then some i else none

/-- Is a channel in self-refresh? -/
def inSelfRefresh (s : State) (n : Nat) : Bool := s.mem.selfRefresh.testBit n

/-- A refresh instant: every bank closes and REFab goes to every rank of the channels that are not in self-refresh (R297, R298). -/
def refreshInstant (s : State) : State :=
  match refreshDue? s with
  | none => s
  | some i =>
    let s := { s with mem := { s.mem with
      lastRefresh := BitVec.ofNat 64 i
      banks := s.mem.banks.map fun b => (b.1, if inSelfRefresh s (b.1 / 128) then b.2 else { b.2 with open_ := none }) } }
    (List.range 8).foldl (fun s n =>
      if inSelfRefresh s n || !pageUp s (pDMC n) then s
      else bump s (pDMC n) DMC_REF_COUNT (if twoRanks s then 2 else 1)) s

/-- Channels of PD18 (`upper` false) or PD19 as a mask. -/
def halfMask (upper : Bool) : Nat := if upper then 0xF0 else 0x0F

/-- Ranks of a domain enter self-refresh; never while the write-buffer index holds a unit (R277, R299). -/
def selfRefreshEntry (s : State) (upper : Bool) : State :=
  { s with mem := { s.mem with
      selfRefresh := s.mem.selfRefresh ||| halfMask upper
      banks := s.mem.banks.map fun b => (b.1, if (halfMask upper).testBit (b.1 / 128) then { b.2 with open_ := none } else b.2) } }

/-- Ranks of a domain leave self-refresh; the next REFab falls on the next grid instant (R299). -/
def selfRefreshExit (s : State) (upper : Bool) : State :=
  { s with mem := { s.mem with selfRefresh := s.mem.selfRefresh &&& (0xFF - halfMask upper) } }

/-- Longest access of R305 plus tRP, for staged timings (R311). -/
def longestAccess (core ras : Word) : Nat :=
  let c := islandCycles
  4 + c (fld ras 7 0) + c (fld core 23 16) + c (fld core 15 8) + c (fld core 7 0) + 4 + 12 + 2 + c (fld core 23 16)

/-- Commit check of a `DMC` page; the device-wide fields are checked on `DMC0` (R311). -/
def checkDmc (s : State) (p : Nat) : List (Nat × Nat) :=
  let mode := if rdF s p DMC_PAGE_POLICY 1 0 = 3 then [(DMC_PAGE_POLICY, 2)] else []
  if p ≠ pDMC 0 then mode
  else
    let geom := rd s p DMC_GEOM
    let core := rd s p DMC_T_CORE
    let ras := rd s p DMC_T_RAS_RFC
    let ready := (List.range 8).any fun n => bit (rd s (pDMC n) rSTATUS) 0
    let changed := [DMC_GEOM, DMC_SPARE, DMC_T_CORE, DMC_T_RAS_RFC, DMC_FENCE].filter fun o => rd s p o != inForce s p o
    let spare := rd s p DMC_SPARE
    mode
    ++ (if rdF s p DMC_FENCE 9 0 < 160 then [(DMC_FENCE, 1)] else [])
    ++ (if fld core 7 0 = 0 ∨ fld core 15 8 = 0 ∨ fld core 23 16 = 0 then [(DMC_T_CORE, 1)] else [])
    ++ (if fld ras 7 0 = 0 then [(DMC_T_RAS_RFC, 1)] else [])
    ++ (if fld geom 9 8 = 3 ∨ fld geom 1 0 = 3 then [(DMC_GEOM, 2)] else [])
    ++ (if ready then changed.map fun o => (o, 3) else [])
    ++ (if bit spare 7 ∧ fld geom 4 4 = 0 then [(DMC_GEOM, 3)] else [])
    ++ (if fld geom 5 5 = 1 ∧ fld geom 9 8 ≠ 0 then [(DMC_GEOM, 3)] else [])
    ++ (if fld ras 27 16 < (if fld geom 9 8 = 0 then 295 else 410) then [(DMC_GEOM, 3)] else [])
    ++ (if rdF s p DMC_FENCE 9 0 < longestAccess core ras then [(DMC_T_CORE, 3)] else [])
    ++ (if bit spare 7 ∧ [3, 4, 7].contains (rankState s (fld spare 2 0) 1) then [(DMC_SPARE, 5)] else [])

/-- Commit check of `MEC`: no fused-off cluster is retained (R338). -/
def checkMec (s : State) : List (Nat × Nat) :=
  if (bitList 6 (rd s pMEC MEC_CS_RETAIN).toNat).any fun c => !s.com.chip.hasCluster c then [(MEC_CS_RETAIN, 5)] else []

/-! ### Injection (R310, R336, R337) -/

/-- `DMC.ERR_INJECT`: a CA parity alert at once, the other codes on the next read of the rank (R310). -/
def dmcInject (s : State) (ch : Nat) (v : Word) : State :=
  match fld v 3 0 with
  | 3 => injected s fun s => caParity s ch (fld v 4 4)
  | 1 => { s with mem := { s.mem with dmcInject := s.mem.dmcInject ++ [(ch, fld v 4 4, 1)] } }
  | 2 => { s with mem := { s.mem with dmcInject := s.mem.dmcInject ++ [(ch, fld v 4 4, 2)] } }
  | 4 => { s with mem := { s.mem with dmcInject := s.mem.dmcInject ++ [(ch, fld v 4 4, 4)] } }
  | _ => s

/-- `LND.ERR_INJECT`: armed for the next read of the bank (R336). -/
def lndInject (s : State) (v : Word) : State :=
  let code := fld v 3 0
  if code = 1 ∨ code = 2 then { s with mem := { s.mem with lndInject := s.mem.lndInject.put (fld v 12 8) code } } else s

/-- `MRM.ERR_INJECT`: a die fails at once, the other codes wait for the next read or the next header written (R337). -/
def mrmInject (s : State) (v : Word) : State :=
  let code := fld v 3 0
  if code = 3 then injected s fun s => mrmDieFail s (fld v 4 4)
  else if code = 1 ∨ code = 2 ∨ code = 4 then { s with mem := { s.mem with mrmInject := s.mem.mrmInject ++ [(fld v 4 4, code)] } }
  else s

end Sys2Proof.Machine
end

