-- ==== Sys2Proof/Machine/Bst.lean ====
section
/-! DEFINITION. Dies and their types as their channel page describes them, the MRAM rings, the map journal's records and the block state table (R152 to R161, R201, R202, R211 to R217, R221 to R226). -/

namespace Sys2Proof.Machine

/-! ### Dies (R152 to R161) -/

/-- Page of the channel of die `d` (R153). -/
def diePage (d : Nat) : Nat := pFCH (d / 16)

/-- The die-type descriptor of a position: the offset of its first register (R156, R161). -/
def dieTypeBase (s : State) (d : Nat) : Nat :=
  let t := inF s (diePage d) FCH_DIE_TYPE (2 * (d % 16) + 1) (2 * (d % 16))
  0x200 + 32 * t

/-- A field of the descriptor of die `d`, at a register offset within the descriptor (R161). -/
def dieTypeF (s : State) (d reg hi lo : Nat) : Nat := inF s (diePage d) (dieTypeBase s d + reg) hi lo

/-- Blocks of a die (R161). -/
def dieBlocks (s : State) (d : Nat) : Nat := dieTypeF s d 0x08 31 18 + 1
/-- Pages of a native block (R161). -/
def diePages (s : State) (d : Nat) : Nat := dieTypeF s d 0x08 17 6 + 1
/-- Bits per cell (R161). -/
def dieBpc (s : State) (d : Nat) : Nat := dieTypeF s d 0x08 5 4 + 1
/-- Pages of a block in a mode (R185). -/
def modePages (s : State) (d : Nat) (slc : Bool) : Nat := if slc then diePages s d / dieBpc s d else diePages s d

/-- Did the position answer at start-up? (R157) -/
def diePresent (s : State) (d : Nat) : Bool :=
  s.com.chip.hasChannel (d / 16) && bit (rd s (diePage d) FCH_DIE_PRESENT) (d % 16)

/-- Is the die retired? (R179) -/
def dieRetired (s : State) (d : Nat) : Bool := bit (rd s (diePage d) FCH_DIE_RETIRED) (d % 16)

/-- Is the channel fenced? (R46, R179) -/
def chanFenced (s : State) (c : Nat) : Bool := bit (rd s (pFCH c) rSTATUS) 1

/-- Is the die enabled, present and not retired? (R157, R235) -/
def dieInService (s : State) (d : Nat) : Bool :=
  diePresent s d && bit (inForce s (diePage d) FCH_DIE_ENABLE) (d % 16) && !dieRetired s d && !chanFenced s (d / 16)

/-- Channels with a die enabled, ascending. -/
def usedChannels (s : State) : List Nat :=
  (List.range 64).filter fun c => s.com.chip.hasChannel c && inForce s (pFCH c) FCH_DIE_ENABLE != 0

/-- The in-service dies, ascending. -/
def serviceDies (s : State) : List Nat :=
  (usedChannels s).flatMap fun c => ((List.range 16).map (16 * c + ·)).filter (dieInService s)

/-! ### Rings of MRAM (R323, R325) -/

/-- Write bytes at the head of a ring of the view, wrapping at its end. -/
def ringWrite (s : State) (base size head : Nat) (bytes : List Byte) : State :=
  let h := head % size
  let first := bytes.take (size - h)
  let s := mramPut s (base + h) first
  if bytes.length > size - h then mramPut s base (bytes.drop (size - h)) else s

/-- A journal record's bytes: header and entries, RCHECK over the record with the field taken as 0; a torn record's RCHECK is inverted (R201, R205). -/
def recordBytes (seq type : Nat) (entries : List (List Byte)) (torn : Bool) : List Byte :=
  let n := entries.length
  let head (chk : Nat) := bytesLE 4 seq ++ bytesLE 1 type ++ bytesLE 1 0 ++ bytesLE 2 n ++ bytesLE 4 (16 + 16 * n) ++ bytesLE 4 chk
  let body := entries.flatten
  let c := crc32c (head 0 ++ body)
  head (if torn then c ^^^ 0xFFFFFFFF else c) ++ body

/-! ### The map journal (R201, R202, R205) -/

/-- Is sequence number `a` at or before `b` in modulo-2^32 order? (R216) -/
def seqLe (a b : Nat) : Bool := decide ((b + 2 ^ 32 - a) % 2 ^ 32 < 2 ^ 31)

/-- Size of the map journal ring (R323). -/
def jRingSize : Nat := 0x4000000

/-- TYPE and entries of a map journal record (R202); a BLOCK_STATE entry carries the word given. -/
def jEntries : JPayload → Nat × List (List Byte)
  | .redirect k h u e =>
    ((match k with
      | .host => 1
      | .gc => 2
      | .rebuild => 8), [bytesLE 8 e.toNat ++ bytesLE 2 h ++ bytesLE 6 u])
  | .trim h f n => (3, [bytesLE 2 h ++ bytesLE 6 f ++ bytesLE 8 n])
  | .flagSet h u e => (4, [bytesLE 8 e.toNat ++ bytesLE 2 h ++ bytesLE 6 u])
  | .blockState d b w => (5, [bytesLE 2 d ++ bytesLE 2 b ++ bytesLE 4 w ++ bytesLE 8 0])
  | .dirUpdate h p e => (6, [bytesLE 2 h ++ bytesLE 6 p ++ bytesLE 8 e.toNat])
  | .mark => (7, [])

/-- Bytes a record takes in the ring (R201). -/
def jSize (p : JPayload) : Nat := 16 + 16 * (jEntries p).2.length

/-- Bytes of the map journal ring in use. -/
def jUsed (s : State) : Nat := (s.map.journal.map fun r => jSize r.payload).foldl (· + ·) 0

/-- Is there room for a record of this size? (R205) -/
def jRoom (s : State) (n : Nat) : Bool := decide (jUsed s + n ≤ jRingSize)

/-- Issue a map journal record: it takes the next JSEQ (R201); reaching JOURNAL_HIGH percent sets IRQ_STATUS.JOURNAL_HIGH (R195, R227). -/
def jIssue (s : State) (p : JPayload) : State × Nat :=
  let seq := ((rd s pMAP MAP_JSEQ_ISSUED).toNat + 1) % 2 ^ 32
  let s := wr s pMAP MAP_JSEQ_ISSUED (w32 seq)
  let s := if s.map.journal.isEmpty then wr s pMAP MAP_JSEQ_TAIL (w32 seq) else s
  let before := jUsed s
  let s := { s with map := { s.map with journal := s.map.journal ++ [⟨seq, p, false⟩] } }
  let high := inF s pMAP MAP_JOURNAL_HIGH 6 0
  let edge := jRingSize * high / 100
  let s := if high ≠ 0 ∧ before < edge ∧ edge ≤ jUsed s then irq s pMAP 6 else s
  (s, seq)

/-- JSEQ of the last durable record. -/
def jDurable (s : State) : Nat := (rd s pMAP MAP_JSEQ_DURABLE).toNat

/-- Drop the records that a checkpoint mark has put behind the tail: everything before it (R202, R205). -/
def jCheckpoint (s : State) (mark : Nat) : State :=
  let keep := s.map.journal.dropWhile fun r => r.seq != mark
  let s := { s with map := { s.map with journal := keep } }
  match keep with
  | r :: _ => wr s pMAP MAP_JSEQ_TAIL (w32 r.seq)
  | [] => s

/-! ### The block state table (R211 to R217) -/

/-- Code of a block state (R212). -/
def BlockState.code : BlockState → Nat
  | .free => 0 | .open_ => 1 | .closed => 2 | .victim => 3 | .freeable => 4 | .retired => 6 | .bad => 7

/-- Key of a block. -/
def bstKey (d b : Nat) : Nat := d * 16384 + b

/-- The entry as stored. -/
def bstRaw (s : State) (d b : Nat) : Bst := s.map.bst.getD (bstKey d b) Bst.fresh

/-- The conditions of R216 on an entry whose change, if any, is settled. -/
def freeableNow (durable : Nat) (e : Bst) : Bool :=
  (e.state == .closed || e.state == .victim) && e.changing.isNone && e.live == 0 && e.pins == 0
    && e.waiting == 0 && seqLe e.jseqLast durable

/-- An entry as it stands once the map journal is durable up to `durable`: a change whose record is durable has taken effect (R212), and R216 has been applied. -/
def settle (durable : Nat) (e : Bst) : Bst :=
  let e := match e.changing with
    | some (st, j) => if seqLe j durable then { e with state := st, changing := none } else e
    | none => e
  if freeableNow durable e then { e with state := .freeable } else e

/-- The entry of a block (R211, R212, R216). -/
def bstOf (s : State) (d b : Nat) : Bst := settle (jDurable s) (bstRaw s d b)

/-- Set the entry of a block. -/
def putBst (s : State) (d b : Nat) (e : Bst) : State :=
  { s with map := { s.map with bst := s.map.bst.putD (bstKey d b) e Bst.fresh } }

/-- BST_W0 of an entry (R211). -/
def bstW0 (e : Bst) : Nat :=
  e.state.code * 2 ^ 28 + (if e.slc then 2 ^ 27 else 0) + (if e.floor then 2 ^ 26 else 0)
    + (if e.eraseIssued then 2 ^ 25 else 0) + (if e.relocate then 2 ^ 24 else 0)
    + (if e.changing.isSome then 2 ^ 23 else 0) + min 0xFFFFF e.eraseCount

/-- Issue the BLOCK_STATE record that changes a block's state (R212). -/
def issueBlockState (s : State) (d b : Nat) (st : BlockState) (upd : Bst → Bst) : State :=
  let e := upd (bstOf s d b)
  let (s, j) := jIssue s (.blockState d b (bstW0 { e with state := st, changing := none }))
  putBst s d b { e with changing := some (st, j) }

/-- A block of the BST that may be allocated: FREE, not of the floor, and not changing (R212, R221). -/
def allocatable (s : State) (d b : Nat) : Bool :=
  let e := bstOf s d b
  e.state == .free && e.changing.isNone && !e.floor

/-- The block that allocation takes on a die: the lowest ERASE_COUNT, then the lowest number (R221). -/
def allocBlock? (s : State) (d : Nat) : Option Nat :=
  minBy? (fun b => (bstOf s d b).eraseCount) ((List.range (dieBlocks s d)).filter (allocatable s d))

/-- Listed blocks of a die. -/
def listedBlocks (s : State) (d : Nat) : List (Nat × Bst) :=
  (s.map.bst.filter fun e => e.1 / 16384 == d).map fun e => (e.1 % 16384, settle (jDurable s) e.2)

/-- Blocks of a die that satisfy `p`: an unlisted block is `Bst.fresh`. -/
def countBlocks (s : State) (d : Nat) (p : Bst → Bool) : Nat :=
  let l := listedBlocks s d
  (l.filter fun e => p e.2).length + (if p Bst.fresh then dieBlocks s d - l.length else 0)

/-- Sum of a count over the in-service dies. -/
def sumDies (s : State) (f : Nat → Nat) : Nat := ((serviceDies s).map f).foldl (· + ·) 0

/-- A good block: neither BAD nor RETIRED (R206, R223). -/
def goodBlock (e : Bst) : Bool := !(e.state == .bad || e.state == .retired)

/-- The free pool (R224). -/
def freePool (s : State) : Nat :=
  sumDies s fun d => countBlocks s d fun e => (e.state == .free || e.state == .freeable) && e.changing.isNone && !e.floor

/-- The reserve (R224). -/
def reserveBlocks (s : State) : Nat := (2 + inF s pMAP MAP_RESERVE_EXTRA 5 0) * (serviceDies s).length

/-- Spare blocks left over the in-service dies (R223). -/
def spareLeft (s : State) : Nat := sumDies s fun d => s.map.spare.getD d 0

/-! ### Capacity, fill and the oasis (R206, R207) -/

/-- Bytes of a unit of a namespace (R181). -/
def unitBytes (s : State) (h : Nat) : Nat := 64 * s.map.mu.getD h 64

/-- Bytes of every mapped, untrimmed unit (R206). -/
def mappedBytes (s : State) : Nat :=
  (s.map.entries.map fun e => unitBytes s (e.1 / 2 ^ 48)).foldl (· + ·) 0

/-- In-service good blocks. -/
def goodBlocks (s : State) : Nat := sumDies s fun d => countBlocks s d goodBlock

/-- Blocks of the floor: the larger of 0.25 % of the good blocks and room for WB_SIZE plus 512 MiB in SLC mode, over the in-service dies (R207). -/
def floorBlocks (s : State) : Nat :=
  let need := (inF s pMAP MAP_WB_SIZE 2 0 + 1) * 256 * 2 ^ 20 + 512 * 2 ^ 20
  let slc := match serviceDies s with
    | d :: _ => modePages s d true * 16384
    | [] => 1
  max (cdiv (goodBlocks s) 400) (cdiv need (max 1 slc))

/-- Parity members of a stripe (R229). -/
def parityCount (s : State) : Nat := 1 + inF s pSTR STR_LAYOUT 8 8

/-- Is the die named in HOT_SPARE? (R250) -/
def hotSpare (s : State) (d : Nat) : Bool := bit (inForce s pSTR (STR_HOT_SPARE + 4 * (d / 32))) (d % 32)

/-- Staged HOT_SPARE bit. -/
def hotStaged (s : State) (d : Nat) : Bool := bit (rd s pSTR (STR_HOT_SPARE + 4 * (d / 32))) (d % 32)

/-- Capacity that the namespaces of the array take, in bytes. -/
def nsAllocated (s : State) : Nat := (s.hst.ns.map fun e => match e.2.kind with
  | .nvm => e.2.size * e.2.lba
  | .kv => e.2.size
  | _ => 0).sum

/-- TNVMCAP in bytes, without the hot spares that `hot` names: the data capacity left after parity and the distributed reserve, the spare blocks, the floor and the FUA lane, less OP_SHARE ÷ 256 (R206, R250). -/
def tnvmcapFor (s : State) (hot : Nat → Bool) : Nat :=
  let w := inF s pSTR STR_LAYOUT 5 0
  let per (d : Nat) : Nat :=
    let g := countBlocks s d goodBlock
    (g - g * inF s pSTR STR_SPARE_RSV 5 0 / 256 - s.map.spare.getD d 0) * diePages s d * 16384
  let page := match serviceDies s with
    | d :: _ => diePages s d * 16384
    | [] => 0
  let raw := sumDies s (fun d => if hot d then 0 else per d) - (floorBlocks s + w) * page
  let data := raw * (w - parityCount s) / max 1 w
  data - data * inF s pMAP MAP_OP_SHARE 7 0 / 256

/-- TNVMCAP in bytes (R206). -/
def tnvmcap (s : State) : Nat := tnvmcapFor s (hotSpare s)

/-- The fill F in permille (R206). -/
def fillNow (s : State) : Nat := if tnvmcap s = 0 then 0 else min 1000 (mappedBytes s * 1000 / tnvmcap s)

/-- The band that a fill of `m` bytes of `c` bytes gives from band `b`: it rises at once over an upper edge, and falls to the band below only at that edge's lower value (R206). -/
def bandFor (b m c : Nat) : Nat :=
  let above (pct : Nat) : Bool := decide (pct * c < 100 * m)
  let up := if c = 0 then 0 else if 95 * c ≤ 100 * m then 4 else if above 75 then 3 else if above 50 then 2 else if above 25 then 1 else 0
  let fall : Nat → Nat
    | 4 => 93 | 3 => 73 | 2 => 48 | 1 => 23 | _ => 0
  let rec down : Nat → Nat → Nat
    | 0, b => b
    | n + 1, b => if b ≠ 0 ∧ (c = 0 ∨ !above (fall b)) then down n (b - 1) else b
  if up > b then up else down 4 b

/-- The oasis share of the good blocks in a band, floor and lane included (R206). -/
def oasisShare (s : State) : Nat :=
  let g := goodBlocks s
  match s.map.band with
  | 0 => g * 6 / 100
  | 1 => g * 4 / 100
  | 2 => g * 2 / 100
  | 3 => g / 100
  | _ => floorBlocks s + inF s pSTR STR_LAYOUT 5 0

/-- Oasis blocks of the host part and the lanes: SLC blocks in use outside the floor (R206, R227). -/
def oasisUsed (s : State) : Nat :=
  ((s.map.bst.map fun e => settle (jDurable s) e.2).filter fun e =>
    e.slc && !e.floor && (e.state == .open_ || e.state == .closed || e.state == .victim
      || (e.state == .free && e.changing.isSome))).length

/-- FILL, BAND, OASIS_BLOCKS and FLOOR_BLOCKS follow (R206, R227). -/
def refreshFill (s : State) : State :=
  let f := fillNow s
  let s := { s with map := { s.map with band := bandFor s.map.band (mappedBytes s) (tnvmcap s) } }
  let s := wr s pMAP MAP_FILL (w32 (s.map.band * 4096 + f))
  let s := wr s pMAP MAP_OASIS_BLOCKS (w32 (oasisUsed s))
  wr s pMAP MAP_FLOOR_BLOCKS (w32 (s.map.bst.filter fun e => e.2.floor).length)

/-! ### The free pool's conditions (R223 to R226) -/

/-- Report an asynchronous event (R225, R226). -/
def asyncEvent (s : State) (type info page : Nat) : State :=
  { s with com := { s.com with async := s.com.async ++ [(type, info, page)] } }

/-- Enter read-only (R225): READ_ONLY and RO_ENTER, the critical warnings, then the event. -/
def enterReadOnly (s : State) : State :=
  asyncEvent (smartSet (irq (wrB s pMAP MAP_MEDIA_STATE 0 true) pMAP 0) 3) 1 0 2

/-- Critical warning bit 3 falls when no condition behind it stands: READ_ONLY, NO_PLACE or the loss of both MRAM dies (R226, R236, R322). -/
def clearMediaWarning (s : State) : State :=
  if bit (rd s pMAP MAP_MEDIA_STATE) 0 || bit (rd s pMAP MAP_MEDIA_STATE) 3 || bit (rd s pSTR STR_STATE) 9 then s else smartClear s 3

/-- Leave read-only (R226). -/
def leaveReadOnly (s : State) : State :=
  asyncEvent (clearMediaWarning (irq (wrB s pMAP MAP_MEDIA_STATE 0 false) pMAP 1)) 7 0xE0 2

/-- The condition of R224 that the counts give; entering and leaving read-only follow R225 and R226, and SMART Available Spare below 10 % sets SPARE_LOW (R223). -/
def refreshPool (s : State) : State :=
  let free := freePool s
  let res := reserveBlocks s
  let spare := spareLeft s
  let s := wr (wr s pMAP MAP_FREE_BLOCKS (w32 free)) pMAP MAP_RESERVE_BLOCKS (w32 res)
  let s := wr s pMAP MAP_SPARE_LEFT (w32 spare)
  let init := (rd s pMAP MAP_SPARE_INITIAL).toNat
  let s := if init ≠ 0 ∧ 100 * spare / init < 10 then
      (if s.com.smart.testBit 0 then s else smartSet (irq s pMAP 4) 0) else s
  let ro := bit (rd s pMAP MAP_MEDIA_STATE) 0
  let s := if res = 0 then s
    else if !ro && decide (free ≤ res) && spare == 0 then enterReadOnly s
    else if ro && decide (free ≥ 2 * res) then leaveReadOnly s else s
  let ro := bit (rd s pMAP MAP_MEDIA_STATE) 0
  let thr := decide (res ≠ 0) && decide (free ≤ 2 * res) && !ro
  let s := if thr && !bit (rd s pMAP MAP_MEDIA_STATE) 1 then irq s pMAP 5 else s
  let s := wrB s pMAP MAP_MEDIA_STATE 1 thr
  wrB s pMAP MAP_MEDIA_STATE 2 (thr && decide (free ≤ res) && decide (0 < spare))

/-- Retire a block for good, taking one spare block of its die (R178, R212, R218, R223). -/
def retireBlock (s : State) (d b : Nat) : State :=
  let s := issueBlockState s d b .retired fun e => { e with eraseIssued := false }
  let s := { s with map := { s.map with spare := s.map.spare.modify d 0 (· - 1) } }
  refreshPool s

/-- Mark a block for early collection (R219). -/
def markRelocate (s : State) (d b : Nat) : State := putBst s d b { bstRaw s d b with relocate := true }

/-- Raise or refuse a pin: beyond 0xFFFF the lookup waits (R215). -/
def pinBlock (s : State) (d b : Nat) : State :=
  let e := bstOf s d b
  putBst s d b (if e.pins < 0xFFFF then { e with pins := e.pins + 1 } else { e with waiting := e.waiting + 1 })

/-- The channel issues an array read for a block: PINS falls by 1, and the lookup that has waited longest raises it again (R215). -/
def unpinBlock (s : State) (d b : Nat) : State :=
  let e := bstOf s d b
  let e := { e with pins := e.pins - 1 }
  let e := if e.waiting = 0 then e else { e with pins := e.pins + 1, waiting := e.waiting - 1 }
  refreshPool (putBst s d b (settle (jDurable s) e))

/-- Enter a unit in the media error log (R182, R260, R283). -/
def mediaError (s : State) (h u : Nat) : State :=
  if s.map.mediaErr.contains (h, u) then s else { s with map := { s.map with mediaErr := s.map.mediaErr ++ [(h, u)] } }

/-- A new copy of a unit ends its media error (R182, R260). -/
def clearMediaError (s : State) (h u : Nat) : State :=
  { s with map := { s.map with mediaErr := s.map.mediaErr.filter (· != (h, u)) } }

end Sys2Proof.Machine
end

