-- ==== Sys2Proof/Machine/Redirect.lean ====
section
/-! DEFINITION. Map entries and their rules, the set table, the stripe journal, held slots, and the journaled change of a map entry (R184 to R188, R198, R202 to R205, R213, R214, R233, R242). -/

namespace Sys2Proof.Machine

/-! ### Map entries (R184 to R188) -/

/-- A field of a map entry. -/
def entF (e : BitVec 64) (hi lo : Nat) : Nat := (e.toNat >>> lo) % 2 ^ (hi + 1 - lo)

/-- DIE of an entry. -/
def entDie (e : BitVec 64) : Nat := entF e 63 54
/-- BLOCK of an entry. -/
def entBlock (e : BitVec 64) : Nat := entF e 53 40
/-- PAGE of an entry. -/
def entPage (e : BitVec 64) : Nat := entF e 39 28
/-- SLOT of an entry. -/
def entSlot (e : BitVec 64) : Nat := entF e 27 20
/-- LEN of an entry. -/
def entLen (e : BitVec 64) : Nat := entF e 19 11
/-- C of an entry. -/
def entC (e : BitVec 64) : Bool := e.getLsbD 10
/-- O of an entry. -/
def entO (e : BitVec 64) : Bool := e.getLsbD 9
/-- RL of an entry. -/
def entRL (e : BitVec 64) : Bool := e.getLsbD 8
/-- T of an entry. -/
def entT (e : BitVec 64) : Bool := e.getLsbD 7
/-- TT of an entry. -/
def entTT (e : BitVec 64) : Bool := e.getLsbD 6

/-- The trimmed entry (R186). -/
def trimmed : BitVec 64 := 0x80

/-- An entry from its fields (R184). -/
def mkEntry (die block page slot len flags : Nat) : BitVec 64 :=
  BitVec.ofNat 64 (die % 1024 * 2 ^ 54 + block % 16384 * 2 ^ 40 + page % 4096 * 2 ^ 28 + slot % 256 * 2 ^ 20
    + len % 512 * 2 ^ 11 + flags % 2 ^ 11)

/-- Does the entry name a flash location: reserved bits 0, T = 0 and a length? -/
def hasLocation (e : BitVec 64) : Bool := entF e 5 0 == 0 && !entT e && entLen e != 0

/-- Does a compressed unit continue on the next page? (R185) -/
def spills (e : BitVec 64) : Bool := entC e && decide (entSlot e + entLen e > 256)

/-- The pages an entry's unit occupies (R185). -/
def entPages (e : BitVec 64) : List Nat := if spills e then [entPage e, entPage e + 1] else [entPage e]

/-- The location fields of an entry: DIE, BLOCK, PAGE, SLOT and LEN. -/
def sameLocation (a b : BitVec 64) : Bool := entF a 63 11 == entF b 63 11

/-- The checks of R188 on an entry of namespace `h`. -/
def validEntry (s : State) (h : Nat) (e : BitVec 64) : Bool :=
  let u := s.map.mu.getD h 64
  let pages := modePages s (entDie e) (entO e)
  if entF e 5 0 ≠ 0 then false
  else if entT e then e == trimmed
  else
    (if entC e then decide (1 ≤ entLen e) && decide (entLen e < u)
      else entLen e == u && decide (entSlot e % u = 0))
    && diePresent s (entDie e) && decide (entBlock e < dieBlocks s (entDie e)) && decide (entPage e < pages)
    && (!spills e || decide (entPage e + 1 < pages))

/-- Key of a unit in the map. -/
def unitKey (h u : Nat) : Nat := h * 2 ^ 48 + u

/-- The map entry of a unit, whatever tier holds it; unlisted is trimmed (R186, R193). -/
def entryAt (s : State) (h u : Nat) : BitVec 64 := s.map.entries.getD (unitKey h u) trimmed

/-! ### The set table (R230, R233) -/

/-- Number of data members (R229). -/
def SetEntry.k (e : SetEntry) : Nat := e.width - 1 - e.prot

/-- A block set. -/
def setAt? (s : State) (n : Nat) : Option SetEntry := s.str.sets.get? n

/-- Set a block set's entry. -/
def putSet (s : State) (n : Nat) (e : SetEntry) : State := { s with str := { s.str with sets := s.str.sets.put n e } }

/-- The set that owns a block: the reverse index (R233). -/
def setOf? (s : State) (d b : Nat) : Option (Nat × SetEntry) :=
  s.str.sets.find? fun e => e.2.members.any fun m : Member => m.die == d && m.block == b

/-- The open stripe of a set (R237). -/
def stripeOf? (s : State) (n : Nat) : Option OpenStripe := s.str.stripes.find? fun o => o.set == n

/-- Stripe number (R230). -/
def stripeNo (n j : Nat) : Nat := 4096 * n + j

/-! ### The stripe journal (R242, R243) -/

/-- Size of the stripe journal ring (R323). -/
def sRingSize : Nat := 0x800000

/-- A MEMBER word (R233). -/
def memberWord (m : Member) : Nat := (if m.sub then 2 ^ 31 else 0) + m.die % 1024 * 2 ^ 16 + m.block % 16384

/-- FLAGS of a set table entry (R233). -/
def setFlags (e : SetEntry) : Nat :=
  (if e.slc then 1 else 0) + (if e.open_ then 2 else 0) + (if e.substituted then 4 else 0)
    + (if e.provisional then 8 else 0) + (if e.collect then 16 else 0)

/-- Bytes in pieces of 16, the last padded with zeros. -/
def chunks16 : Nat → List Byte → List (List Byte)
  | 0, _ => []
  | n + 1, bs => if bs.isEmpty then [] else
      (bs.take 16 ++ List.replicate (16 - min 16 bs.length) 0) :: chunks16 n (bs.drop 16)

/-- Code of a rebuild state (R253). -/
def RbState.code : RbState → Nat
  | .none => 0 | .fenced => 1 | .census => 2 | .restore => 3 | .paused => 4 | .done => 5 | .copyOut => 6

/-- TYPE and entries of a stripe journal record (R242). -/
def sEntries : SPayload → Nat × List (List Byte)
  | .setOpen n e ch pos =>
    (0x41, [bytesLE 4 n ++ bytesLE 1 e.width ++ bytesLE 1 e.prot ++ bytesLE 1 (setFlags e) ++ bytesLE 1 0 ++ bytesLE 2 e.pages ++ bytesLE 6 0,
        bytesLE 8 ch ++ bytesLE 8 0]
      ++ chunks16 8 (pos.flatMap (bytesLE 2)) ++ chunks16 8 (e.members.flatMap fun m => bytesLE 4 (memberWord m)))
  | .setSkip n r => (0x42, [bytesLE 4 n ++ bytesLE 1 r ++ bytesLE 11 0])
  | .stripeProg st mask => (0x43, [bytesLE 6 st ++ bytesLE 2 0 ++ bytesLE 4 mask ++ bytesLE 4 0])
  | .stripeClose st pads r => (0x44, [bytesLE 6 st ++ bytesLE 1 pads ++ bytesLE 1 r ++ bytesLE 8 0])
  | .provParity st mask (pd, pb, pp, qd, qb, qp) =>
    (0x45, [bytesLE 6 st ++ bytesLE 2 0 ++ bytesLE 4 mask ++ bytesLE 4 0,
      bytesLE 2 pd ++ bytesLE 2 pb ++ bytesLE 2 pp ++ bytesLE 2 qd ++ bytesLE 2 qb ++ bytesLE 2 qp ++ bytesLE 4 0])
  | .setClose n last => (0x46, [bytesLE 4 n ++ bytesLE 2 last ++ bytesLE 10 0])
  | .substitute n m od ob nd nb =>
    (0x47, [bytesLE 4 n ++ bytesLE 1 m ++ bytesLE 1 0 ++ bytesLE 2 od ++ bytesLE 2 ob ++ bytesLE 2 nd ++ bytesLE 2 nb ++ bytesLE 2 0])
  | .resyncDone st o => (0x48, [bytesLE 6 st ++ bytesLE 1 o ++ bytesLE 9 0])
  | .rebuildState d st dn tot => (0x49, [bytesLE 2 d ++ bytesLE 1 st ++ bytesLE 1 0 ++ bytesLE 4 dn ++ bytesLE 4 tot ++ bytesLE 4 0])
  | .mark => (0x4A, [])

/-- Bytes a stripe journal record takes. -/
def sSize (p : SPayload) : Nat := 16 + 16 * (sEntries p).2.length

/-- Bytes of the stripe journal ring in use. -/
def sUsed (s : State) : Nat := (s.str.journal.map fun r => sSize r.payload).foldl (· + ·) 0

/-- Is the stripe journal ring full for a record of 512 bytes, the longest there is? (R243) -/
def sFull (s : State) : Bool := decide (sUsed s + 512 > sRingSize)

/-- A record is torn by an armed injection (R261 ERR_INJECT code 4). -/
def sTorn (s : State) (p : SPayload) : Bool :=
  match p with
  | .stripeProg _ _ => s.str.inject.contains 4
  | _ => false

/-- Journal a stripe record: it takes the next SSEQ and is durable when both MRAM dies hold it, before the step that issued it goes on (R201, R242). -/
def sIssue (s : State) (p : SPayload) : State :=
  let seq := ((rd s pSTR STR_SSEQ_ISSUED).toNat + 1) % 2 ^ 32
  let s := wr (wr s pSTR STR_SSEQ_ISSUED (w32 seq)) pSTR STR_SSEQ_DURABLE (w32 seq)
  let s := if s.str.journal.isEmpty then wr s pSTR STR_SSEQ_TAIL (w32 seq) else s
  let torn := sTorn s p
  let before := sUsed s
  let (ty, es) := sEntries p
  let s := ringWrite s 0x4800000 sRingSize s.str.sHead (recordBytes seq ty es torn)
  let s := { s with str := { s.str with
      sHead := (s.str.sHead + sSize p) % sRingSize
      journal := s.str.journal ++ [⟨seq, p, torn⟩]
      inject := if torn then removeFirst (· == 4) s.str.inject else s.str.inject } }
  let edge := sRingSize * 80 / 100
  if before < edge ∧ edge ≤ sUsed s then irq s pSTR 6 else s

/-! ### Held slots (R213) -/

/-- Everything that makes a unit live: the map entries, and the directory's entries of map pages (R193, R213). -/
def liveRefs (s : State) : Tab (BitVec 64) := s.map.entries ++ s.map.dir

/-- Does a live unit lie in page `j` of set `n`, or of a block of no set? -/
def stripeLive (s : State) (e : SetEntry) (j : Nat) : Bool :=
  (liveRefs s).any fun u =>
    hasLocation u.2 && (entPages u.2).contains j
      && e.members.any fun m : Member => m.die == entDie u.2 && m.block == entBlock u.2

/-- Live units of page `j` of a block that belongs to no set. -/
def blockPageLive (s : State) (d b j : Nat) : Bool :=
  (liveRefs s).any fun u => hasLocation u.2 && entDie u.2 == d && entBlock u.2 == b && (entPages u.2).contains j

/-- Add 256 slots to LIVE of a block. -/
def raiseLive (s : State) (d b : Nat) : State :=
  let e := bstRaw s d b
  putBst s d b { e with live := min 0x1FFFFF (e.live + 256) }

/-- Take 256 slots from LIVE of a block, with the record that did it (R203 step 4, R213). -/
def lowerLive (s : State) (d b seq : Nat) : State :=
  let e := bstRaw s d b
  putBst s d b (settle (jDurable s) { e with live := e.live - 256, jseqLast := seq })

/-- The blocks whose slots page `j` of the entry's stripe holds: every member of its set, or its own block. -/
def heldBlocks (s : State) (e : BitVec 64) : List (Nat × Nat) :=
  match setOf? s (entDie e) (entBlock e) with
  | some (_, t) => t.members.map fun m : Member => (m.die, m.block)
  | none => [(entDie e, entBlock e)]

/-- Is page `j` of the entry's stripe held? -/
def pageHeld (s : State) (e : BitVec 64) (j : Nat) : Bool :=
  match setOf? s (entDie e) (entBlock e) with
  | some (_, t) => stripeLive s t j
  | none => blockPageLive s (entDie e) (entBlock e) j

/-- Replace one live reference by another and let LIVE follow: the new stripe's slots are held from its first live unit, the old stripe's until its last (R203 step 4, R213). -/
def replaceRef (s : State) (old new : BitVec 64) (seq : Nat) (put : State → State) : State :=
  let fresh := if hasLocation new then (entPages new).filter fun j => !pageHeld s new j else []
  let s := put s
  let s := fresh.foldl (fun s _ => (heldBlocks s new).foldl (fun s b => raiseLive s b.1 b.2) s) s
  let dead := if hasLocation old then (entPages old).filter fun j => !pageHeld s old j else []
  dead.foldl (fun s _ => (heldBlocks s old).foldl (fun s b => lowerLive s b.1 b.2 seq) s) s

/-- Set a unit's entry (R203 step 4). -/
def setEntry (s : State) (h u : Nat) (new : BitVec 64) (seq : Nat) : State :=
  replaceRef s (entryAt s h u) new seq fun s =>
    { s with map := { s.map with
        undo := (seq, unitKey h u, entryAt s h u, false) :: s.map.undo
        entries := s.map.entries.putD (unitKey h u) new trimmed } }

/-- Key of a map page in the directory. -/
def pageKey (h p : Nat) : Nat := h * 2 ^ 40 + p

/-- Directory entry of a map page; one never written has the trimmed value (R193). -/
def dirAt (s : State) (h p : Nat) : BitVec 64 := s.map.dir.getD (pageKey h p) trimmed

/-- Set a directory entry (R195). -/
def setDir (s : State) (h p : Nat) (new : BitVec 64) (seq : Nat) : State :=
  replaceRef s (dirAt s h p) new seq fun s =>
    { s with map := { s.map with
        undo := (seq, pageKey h p, dirAt s h p, true) :: s.map.undo
        dir := s.map.dir.putD (pageKey h p) new trimmed } }

/-! ### Dirty segments and window epochs (R195, R198) -/

/-- Segment of a unit (R193). -/
def segKey (h u : Nat) : Nat := h * 2 ^ 40 + u / 512

/-- A changed entry makes its segment dirty; the window slot's epoch rises when the segment first turns dirty (R198, R203 step 4). -/
def dirtySegment (s : State) (h u : Nat) : State :=
  let k := segKey h u
  if s.map.dirty.contains k then { s with map := { s.map with cleaning := s.map.cleaning.filter (· != k) } }
  else
    { s with map := { s.map with
        dirty := s.map.dirty ++ [k]
        cached := s.map.cached.filter (· != k) ++ [k]
        window := s.map.window.map fun w =>
          (w.1, if w.2.handle * 2 ^ 40 + w.2.segment = k then { w.2 with epoch := (w.2.epoch + 1) % 2 ^ 32 } else w.2) } }

/-! ### Map changes (R203, R204, R205, R214) -/

/-- Common steps 4 and 5 hold for a new copy: its page lies in a closed stripe, in a stripe whose parity is programmed, or, in SLC mode, in an open stripe whose STRIPE_PROG lists it (R203 step 1, R279). A block of no set has nothing to wait for. -/
def copyCovered (s : State) (e : BitVec 64) : Bool :=
  match setOf? s (entDie e) (entBlock e) with
  | none => true
  | some (n, t) =>
    (entPages e).all fun j =>
      decide (j < t.next) || (match stripeOf? s n with
        | none => false
        | some o => o.page == j && (o.phase == .verifying
            || (t.slc && (t.members.zipIdx.any fun m : Member × Nat =>
              m.1.die == entDie e && m.1.block == entBlock e && o.mask.testBit m.2))))

/-- Was the data a host redirect moves to flash written under a write-once range? (R137, R187) -/
def hostLock (s : State) (h u : Nat) : Bool := s.map.wb.any fun w => w.handle == h && w.unit == u && w.packed && w.redirect.isNone && w.locked

/-- The entry a redirect writes: a move keeps C, RL and TT of the unit's entry and takes O from the mode of its new block; a host redirect sets RL as its write did (R137, R187). -/
def redirectEntry (s : State) (k : RedirectKind) (lock : Bool) (old new : BitVec 64) : BitVec 64 :=
  let o := (bstOf s (entDie new) (entBlock new)).slc
  let base := BitVec.ofNat 64 (entF new 63 11 * 2 ^ 11 + (if o then 2 ^ 9 else 0))
  match k with
  | .host => base ||| (new &&& 0x540) ||| (if lock then 0x100 else 0)
  | _ => base ||| (old &&& 0x540)

/-- The write-buffer index drops a unit at R203 step 4, when the page redirected to carries its newest data; its room is held until the record is durable. -/
def wbRedirected (s : State) (h u seq : Nat) : State :=
  { s with map := { s.map with wb := s.map.wb.map fun w =>
      if w.handle == h && w.unit == u && w.packed && w.redirect.isNone then { w with redirect := some seq } else w } }

/-- A redirect's journal record and the update of R203 step 4. -/
def doRedirect (s : State) (k : RedirectKind) (h u : Nat) (new : BitVec 64) : State :=
  let e := redirectEntry s k (hostLock s h u) (entryAt s h u) new
  let (s, seq) := jIssue s (.redirect k h u e)
  let s := dirtySegment (setEntry s h u e seq) h u
  match k with
  | .host => clearMediaError (wbRedirected s h u seq) h u
  | _ => bump s pMAP MAP_GC_COUNT 1

/-- A trim of whole units: one TRIM record; every mapped unit of the range takes the trimmed entry (R183, R186, R203). -/
def doTrim (s : State) (h first count : Nat) : State :=
  let (s, seq) := jIssue s (.trim h first count)
  let inRange (u : Nat) : Bool := decide (first ≤ u) && decide (u < first + count)
  let units := (s.map.entries.filter fun e => e.1 / 2 ^ 48 == h && inRange (e.1 % 2 ^ 48)).map (·.1 % 2 ^ 48)
  let s := units.foldl (fun s u => dirtySegment (setEntry s h u trimmed seq) h u) s
  { s with map := { s.map with
      wb := s.map.wb.map fun w => if w.handle == h && inRange w.unit && w.redirect.isNone then { w with redirect := some seq } else w
      mediaErr := s.map.mediaErr.filter fun e => !(e.1 == h && inRange e.2) } }

/-- A retention lock sets RL, with a FLAG_SET record (R187, R202). -/
def doLock (s : State) (h u : Nat) : State :=
  let e := entryAt s h u ||| 0x100
  let (s, seq) := jIssue s (.flagSet h u e)
  dirtySegment (setEntry s h u e seq) h u

/-- Does the map take no changes: both MRAM dies are lost (R322), or the last ferry issues no new record (R269 step 4)? -/
def mapStopped (s : State) : Bool := bit (rd s pMAP MAP_MEDIA_STATE) 3 || ferryRunning s

/-- A map change at the map walker (R203): held by a full ring (R205), dropped when a move finds the unit elsewhere (R214), or journaled and applied. -/
def mapChange (s : State) (c : MapChange) : State :=
  if mapStopped s then s
  else if !jRoom s 32 then { s with map := { s.map with held := s.map.held ++ [c] } }
  else
    let s := match c with
      | .redirect k h u e seen =>
        let (h, u) := (h.val, u.toNat)
        if !copyCovered s e then s
        else match k with
          | .host => doRedirect s k h u e
          | _ => if sameLocation (entryAt s h u) seen then doRedirect s k h u e else bump s pMAP MAP_REDIRECT_DROP 1
      | .trim h f n => doTrim s h.val f.toNat n
      | .lock h u => if hasLocation (entryAt s h.val u.toNat) then doLock s h.val u.toNat else s
    refreshPool (refreshFill s)

/-- A journal record becomes durable in order: its bytes reach MRAM, JSEQ_DURABLE moves on, and write-buffer room of host redirects and trims is released (R201, R203 step 5, R280); it waits while the wear meter holds the ring (R329). -/
def journalDurable (s : State) : State :=
  match s.map.journal.find? fun r => !seqLe r.seq (jDurable s) with
  | none => s
  | some r =>
    if wearHolds s 0x0800000 then s
    else
      let (ty, es) := jEntries r.payload
      let s := ringWrite s 0x0800000 jRingSize s.map.jHead (recordBytes r.seq ty es r.torn)
      let s := wr s pMAP MAP_JSEQ_DURABLE (w32 r.seq)
      let s := { s with map := { s.map with
          jHead := (s.map.jHead + jSize r.payload) % jRingSize
          undo := s.map.undo.filter fun u => !seqLe u.1 r.seq
          wb := s.map.wb.filter fun w => w.redirect != some r.seq } }
      let s := match r.payload with
        | .mark => jCheckpoint s r.seq
        | .dirUpdate h p _ =>
          let mine (k : Nat) : Bool := k / 2 ^ 40 == h && k % 2 ^ 40 / 4 == p && s.map.cleaning.contains k
          { s with map := { s.map with
              dirty := s.map.dirty.filter fun k => !mine k
              cleaning := s.map.cleaning.filter fun k => !mine k
              window := s.map.window.map fun w =>
                (w.1, if mine (w.2.handle * 2 ^ 40 + w.2.segment) then { w.2 with written := w.2.epoch, corrupt := false } else w.2) } }
        | _ => s
      refreshPool s

/-- Every issued record becomes durable (R269 step 4, R280). -/
def journalFlush (s : State) : State := s.map.journal.foldl (fun s _ => journalDurable s) s

/-- A checkpoint has freed room: held changes run again in order (R205). -/
def releaseHeld (s : State) : State :=
  let held := s.map.held
  held.foldl mapChange { s with map := { s.map with held := [] } }

/-! ### Journaled state changes of a block -/

/-- Store a block's settled entry: the change whose record is durable, and FREEABLE where R216 gives it. -/
def settleBlock (s : State) (d b : Nat) : State := refreshPool (putBst s d b (bstOf s d b))

end Sys2Proof.Machine
end

