-- ==== Sys2Proof/Machine/Dies.lean ====
section
/-! DEFINITION. The queues of the die positions and what follows them in the FCH page, and a codeword's hand-over to rung 4 (R160, R163, R176, R219). -/

namespace Sys2Proof.Machine

/-- A die position as its channel sees it. -/
def dieOf (s : State) (d : Nat) : Die := s.fch.dies.getD d Die.idle

/-- A channel beside its page. -/
def chanOf (s : State) (c : Nat) : Channel := s.fch.chans.getD c Channel.cold

/-- Set a channel beside its page. -/
def putChan (s : State) (c : Nat) (x : Channel) : State :=
  { s with fch := { s.fch with chans := s.fch.chans.putD c x Channel.cold } }

/-- Reads queued at a die. -/
def Die.reads (x : Die) : Nat := x.readsA.length + x.readsB.length + x.readsC.length

/-- Programs queued at a die. -/
def Die.programs (x : Die) : Nat := (x.work.filter fun w => match w with
  | .program _ _ _ _ => true
  | .erase _ _ => false).length

/-- Erases queued at a die. -/
def Die.erases (x : Die) : Nat := x.work.length - x.programs

/-- QUEUE_STATUS and BUSY_MASK follow the die queues (R160). -/
def refreshQueues (s : State) (c : Nat) : State :=
  let ds := (List.range 16).map fun p => dieOf s (16 * c + p)
  let sum (f : Die → Nat) : Nat := (ds.map f).foldl (· + ·) 0
  let mask (f : Die → Bool) : Nat := (ds.zipIdx.map fun x => if f x.1 then 2 ^ x.2 else 0).foldl (· + ·) 0
  let s := wr s (pFCH c) FCH_QUEUE_STATUS
    (w32 (min 255 (sum Die.erases) * 2 ^ 20 + min 255 (sum Die.programs) * 2 ^ 12 + min 4095 (sum Die.reads)))
  wr s (pFCH c) FCH_BUSY_MASK
    (w32 (mask (fun x => x.suspended.isSome) * 65536 + mask fun x => x.running.isSome || x.suspended.isSome))

/-- Set a die position; the page follows. -/
def putDie (s : State) (d : Nat) (x : Die) : State :=
  refreshQueues { s with fch := { s.fch with dies := s.fch.dies.putD d x Die.idle } } (d / 16)

/-- One work unit of a page ends under the epoch that admitted it (R70). -/
def finishUnit (s : State) (p epoch : Nat) : State :=
  let e := epochsOf s p
  if epoch = epochNow s p ∨ e.older = 0 then setEpochs s p { e with newest := e.newest - 1 }
  else setEpochs s p { e with older := e.older - 1 }

/-- A codeword goes to the stripe engine: LADDER_RECON counts it, IRQ LADDER_RECON is set, and its block is marked RELOCATE (R176, R219). -/
def handRung4 (s : State) (j : ReadJob) : State :=
  let p := diePage j.die
  let s := irq (bump s p FCH_LADDER_RECON 1) p 6
  let s := bumpSince s p FCH_SNAP_LADDER (2 ^ 64)
  let s := if dieRetired s j.die then s else markRelocate s j.die j.block
  { s with fch := { s.fch with recon := s.fch.recon ++ [{ j with rung := 4 }] } }

/-- Queue a read at its die in its class, or hand it to rung 4 where the die takes none: retired, its channel fenced or degraded, or in a transient retry (R159, R179, R180). -/
def queueRead (s : State) (die block page cw : Nat) (cls : ReadClass) (owner : ReadOwner) : State :=
  let p := diePage die
  let j : ReadJob :=
    { id := s.fch.nextJob, die := die, block := block, page := page, cw := cw, cls := cls, promoted := false,
      arrived := s.com.time, owner := owner, rung := 1, set := none, hintSet := none, best := none, softReads := 0,
      threeBits := false, epoch := epochNow s p }
  let s := admitUnit { s with fch := { s.fch with nextJob := s.fch.nextJob + 1 } } p
  let x := dieOf s die
  if dieRetired s die || chanFenced s (die / 16) || bit (rd s p rSTATUS) 4 || decide (x.retry ≠ 0) then handRung4 s j
  else putDie s die (match cls with
    | .a => { x with readsA := x.readsA ++ [j] }
    | .b => { x with readsB := x.readsB ++ [j] }
    | .c => { x with readsC := x.readsC ++ [j] })

/-- Queue a program or an erase at its die (R163). -/
def queueWork (s : State) (die : Nat) (w : Work) : State :=
  let x := dieOf s die
  putDie (admitUnit s (diePage die)) die { x with work := x.work ++ [w] }

/-- Is a work item the program of a page? -/
def Work.isProgramOf (block page : Nat) : Work → Bool
  | .program b p _ _ => b == block && p == page
  | .erase _ _ => false

/-- A page's program leaves its die: still queued, running or suspended. -/
def takeProgram (s : State) (die block page : Nat) : State :=
  let x := dieOf s die
  let hit (o : Option RunOp) : Bool := match o with
    | some ⟨.work w, _, _⟩ => w.isProgramOf block page
    | _ => false
  let queued := x.work.any (Work.isProgramOf block page)
  if queued || hit x.running || hit x.suspended then
    let x := { x with
      work := x.work.filter fun w => !w.isProgramOf block page
      running := if hit x.running then none else x.running
      suspended := if hit x.suspended then none else x.suspended }
    finishUnit (putDie s die x) (diePage die) (epochNow s (diePage die))
  else s

/-- A decoded codeword waits for its owner; none says that it is unrecoverable (R26, R176). -/
def deliverCodeword (s : State) (j : ReadJob) (data : Option (List Byte)) : State :=
  finishUnit { s with fch := { s.fch with ready := s.fch.ready ++ [(j, data)] } } (diePage j.die) j.epoch

end Sys2Proof.Machine
end

