-- ==== Sys2Proof/Machine/Stripe.lean ====
section
/-! DEFINITION. The stripe engine: GF(2^8) parity, placement, opening, filling and closing stripes, the fallback, resynchronisation, reconstruction, and the start of a rebuild (R229 to R253, R258 to R262). -/

namespace Sys2Proof.Machine

/-! ### Parity (R231, R232) -/

/-- Multiply by g = 2 in GF(2^8) with reducing polynomial 0x11D (R231). -/
def gfDouble (a : Nat) : Nat := if a < 128 then 2 * a else (2 * a) ^^^ 0x11D

/-- Product in GF(2^8) over the low `n` bits of `b` (R231). -/
def gfMulN : Nat → Nat → Nat → Nat
  | 0, _, _ => 0
  | n + 1, a, b => (if b % 2 = 1 then a else 0) ^^^ gfMulN n (gfDouble a) (b / 2)

/-- Product in GF(2^8) (R231). -/
def gfMul (a b : Nat) : Nat := gfMulN 8 a b

/-- g to a power (R231). -/
def gfPow : Nat → Nat
  | 0 => 1
  | n + 1 => gfDouble (gfPow n)

/-- Inverse of a power of g: the group has order 255 (R231). -/
def gfPowNeg (x : Nat) : Nat := gfPow (255 - x % 255)

/-- Inverse in GF(2^8), as the 254th power. -/
def gfInv (a : Nat) : Nat :=
  let sq (x : Nat) := gfMul x x
  let a2 := sq a
  let a4 := sq a2
  let a8 := sq a4
  let a16 := sq a8
  let a32 := sq a16
  let a64 := sq a32
  let a128 := sq a64
  gfMul a2 (gfMul a4 (gfMul a8 (gfMul a16 (gfMul a32 (gfMul a64 a128)))))

/-- Sum of two codewords byte by byte. -/
def xorBytes (a b : List Byte) : List Byte := List.zipWith (· ^^^ ·) a b

/-- A codeword multiplied by a constant. -/
def scaleBytes (c : Nat) (a : List Byte) : List Byte := a.map fun b => BitVec.ofNat 8 (gfMul c b.toNat)

/-- P over data members: their sum (R231). -/
def sumP (n : Nat) (ds : List (Nat × List Byte)) : List Byte :=
  ds.foldl (fun acc d => xorBytes acc d.2) (List.replicate n 0)

/-- Q over data members: their sum with weights g^i (R231). -/
def sumQ (n : Nat) (ds : List (Nat × List Byte)) : List Byte :=
  ds.foldl (fun acc d => xorBytes acc (scaleBytes (gfPow d.1) d.2)) (List.replicate n 0)

/-- Recover member `x` of a stripe with `k` data members from the members that survive, P being member k and Q member k + 1; none when R232 does not give it. -/
def recoverMember (k prot n x : Nat) (alive : List (Nat × List Byte)) : Option (List Byte) :=
  let data := alive.filter fun m => decide (m.1 < k)
  let lost := (List.range k).filter fun i => !alive.any fun m => m.1 == i
  let p? := (alive.find? fun m => m.1 == k).map (·.2)
  let q? := if prot = 1 then (alive.find? fun m => m.1 == k + 1).map (·.2) else none
  let p' := p?.map fun p => xorBytes p (sumP n data)
  let q' := q?.map fun q => xorBytes q (sumQ n data)
  let whole : Option (List (Nat × List Byte)) := match lost with
    | [] => some data
    | [a] => match p', q' with
      | some p, _ => some ((a, p) :: data)
      | none, some q => some ((a, scaleBytes (gfPowNeg a) q) :: data)
      | none, none => none
    | [a, b] => match p', q' with
      | some p, some q =>
        let da := scaleBytes (gfInv (gfPow a ^^^ gfPow b)) (xorBytes q (scaleBytes (gfPow b) p))
        some ((a, da) :: (b, xorBytes p da) :: data)
      | _, _ => none
    | _ => none
  whole.bind fun ds =>
    if x < k then (ds.find? fun m => m.1 == x).map (·.2)
    else if x = k then some (sumP n ds)
    else if x = k + 1 ∧ prot = 1 then some (sumQ n ds) else none

/-! ### Placement (R234 to R236) -/

/-- 64-bit arithmetic wraps. -/
def m64 (x : Nat) : Nat := x % 2 ^ 64

/-- The mixing function of R234. -/
def mix (x : Nat) : Nat :=
  let x := x ^^^ (x >>> 30)
  let x := m64 (x * 0xBF58476D1CE4E5B9)
  let x := x ^^^ (x >>> 27)
  let x := m64 (x * 0x94D049BB133111EB)
  x ^^^ (x >>> 31)

/-- Swap two positions of a list. -/
def swapAt (l : List Nat) (i j : Nat) : List Nat := (l.set i (l.getD j 0)).set j (l.getD i 0)

/-- The partial shuffle of R234 from index i, `fuel` steps. -/
def shuffleFrom (key : Nat) : Nat → Nat → List Nat → List Nat
  | 0, _, l => l
  | fuel + 1, i, l => shuffleFrom key fuel (i + 1) (swapAt l i (i + mix (key ^^^ i) % (l.length - i)))

/-- The member dies of set n (R234): channels with a one in `chmask`, and per channel the eligible positions. -/
def place (n seed w chmask : Nat) (posmask : List Nat) : List Nat :=
  let ch := bitList 64 chmask
  let w := min w ch.length
  let key := seed ^^^ m64 (n <<< 8)
  let ch := shuffleFrom key w 0 ch
  (List.range w).map fun i =>
    let c := ch.getD i 0
    let ps := bitList 16 (posmask.getD c 0)
    16 * c + ps.getD (mix (key ^^^ (0x80 + i)) % max 1 ps.length) 0

/-- The rebuild of a die. -/
def rebuildOf (s : State) (d : Nat) : Rebuild := s.str.rebuilds.getD d Rebuild.idle

/-- Is a die eligible for placement: in service, no hot spare, not evacuated and not copied out? (R235, R256) -/
def dieEligible (s : State) (d : Nat) : Bool :=
  dieInService s d && !hotSpare s d && !s.str.evacuating.contains d && (rebuildOf s d).state != .copyOut

/-- Channels eligible once the staged HOT_SPARE has applied (R250, R262). -/
def eligibleStaged (s : State) : Nat :=
  ((usedChannels s).filter fun c => (List.range 16).any fun p =>
    dieInService s (16 * c + p) && !hotStaged s (16 * c + p) && (rebuildOf s (16 * c + p)).state != .copyOut).length

/-- The mask of eligible positions of a channel (R235). -/
def posMask (s : State) (c : Nat) : Nat :=
  ((List.range 16).map fun p => if dieEligible s (16 * c + p) then 2 ^ p else 0).foldl (· + ·) 0

/-- The masks of all channels (R234). -/
def posMasks (s : State) : List Nat :=
  let used := usedChannels s
  (List.range 64).map fun c => if used.contains c then posMask s c else 0

/-- The mask of eligible channels (R235). -/
def chanMask (pos : List Nat) : Nat := (pos.zipIdx.map fun m => if m.1 ≠ 0 then 2 ^ m.2 else 0).foldl (· + ·) 0

/-- Eligible channels now. -/
def eligibleChannels (s : State) : Nat := popCount 64 (chanMask (posMasks s))

/-- The layout seed in force. -/
def layoutSeed (s : State) : Nat := (join64 (inForce s pSTR STR_SEED_HI) (inForce s pSTR STR_SEED_LO)).toNat

/-- PROT in force. -/
def layoutProt (s : State) : Nat := inF s pSTR STR_LAYOUT 8 8

/-- WIDTH in force. -/
def layoutWidth (s : State) : Nat := inF s pSTR STR_LAYOUT 5 0

/-- NARROW and NO_PLACE follow the eligible channels; the condition NO_PLACE raises and clears the media warning with its events (R225, R226, R236). -/
def refreshPlace (s : State) : State :=
  let n := eligibleChannels s
  let s := wrB s pSTR STR_STATE 7 (decide (n < layoutWidth s))
  let none_ := decide (n < layoutProt s + 2)
  let was := bit (rd s pSTR STR_STATE) 9
  let s := wrB s pSTR STR_STATE 9 none_
  if none_ && !was then asyncEvent (smartSet s 3) 1 0 2
  else if was && !none_ then asyncEvent (clearMediaWarning s) 7 0xE0 2
  else s

/-- SETS_OPEN, STRIPES_OPEN, RMW_ACTIVE and the rebuild count follow (R261). -/
def refreshStr (s : State) : State :=
  let prov := (s.str.stripes.filter fun o => o.phase == .provisional).length
  let s := wr s pSTR STR_SETS_OPEN (w32 (min 0xFFFF (s.str.sets.filter fun e => e.2.open_).length))
  let s := wr s pSTR STR_STRIPES_OPEN (w32 (min 255 prov * 256 + min 255 s.str.stripes.length))
  let s := wrB s pSTR STR_STATE 8 (decide (prov ≠ 0))
  let running := (s.str.rebuilds.filter fun r => r.2.state != .none && r.2.state != .done).length
  wrF s pSTR STR_STATE 3 0 (min 15 running)

/-- Set an open stripe; others of the same set are replaced. -/
def putStripe (s : State) (o : OpenStripe) : State :=
  refreshStr { s with str := { s.str with stripes := s.str.stripes.map fun x => if x.set == o.set then o else x } }

/-- Drop the open stripe of a set and with it its accumulator. -/
def dropStripe (s : State) (n : Nat) : State :=
  refreshStr { s with str := { s.str with stripes := s.str.stripes.filter fun x => x.set != n } }

/-- An open stripe at page j, with nothing programmed. -/
def freshStripe (s : State) (n j : Nat) : OpenStripe :=
  { set := n, page := j, phase := .filling, mask := 0, pads := 0, acc := false, firstAt := s.com.time, prov := none, units := [] }

/-- SET_OPEN: members are placed and journaled; a member die with no block to give skips the set number (R235, R236). `fuel` bounds the skips of one attempt. -/
def openSetFrom (s : State) (slc : Bool) (pos : List Nat) : Nat → State
  | 0 => s
  | fuel + 1 =>
    let n := s.str.nextSet
    let ch := chanMask pos
    let dies := place n (layoutSeed s) (layoutWidth s) ch pos
    let s := { s with str := { s.str with nextSet := n + 1 } }
    match dies.mapM fun d => (allocBlock? s d).map fun b => (d, b) with
    | none =>
      let s := sIssue s (.setSkip n 1)
      openSetFrom { s with str := { s.str with skips := s.str.skips + 1 } } slc pos fuel
    | some ms =>
      let pages := (ms.map fun m => modePages s m.1 slc).foldl min 4096
      let e : SetEntry :=
        { width := ms.length, prot := layoutProt s, slc := slc, open_ := true, substituted := false, provisional := false,
          collect := false, pages := pages, next := 0, members := ms.map fun m => ⟨false, m.1, m.2⟩ }
      let s := sIssue s (.setOpen n e ch pos)
      let s := ms.foldl (fun s m => issueBlockState s m.1 m.2 .open_ fun x => { x with slc := slc }) s
      let s := putSet { s with str := { s.str with skips := 0 } } n e
      let s := { s with str := { s.str with stripes := s.str.stripes ++ [freshStripe s n 0] } }
      let s := match ms with
        | m :: _ => queueWork s m.1 (.program m.2 0 n 0)
        | [] => s
      refreshStr (refreshPool (refreshFill s))

/-- The stripe engine opens a block set in a mode (R235): never with too few channels (R236), over OPEN_MAX (R237), with a full stripe journal (R243), above the oasis share (R210), or while the last ferry runs. After 64 skips in a row one further attempt is made each time (R235). -/
def openSet (s : State) (slc : Bool) : State :=
  let s := refreshPlace s
  if bit (rd s pSTR STR_STATE) 9 || ferryRunning s || sFull s || !jRoom s 4096 then s
  else if s.str.stripes.length ≥ inF s pSTR STR_OPEN_MAX 7 0 then s
  else if slc && decide (oasisUsed s + layoutWidth s > oasisShare s) then s
  else openSetFrom s slc (posMasks s) (if s.str.skips < 64 then 64 - s.str.skips else 1)

/-! ### Filling and closing (R237 to R240) -/

/-- Member i of a set. -/
def SetEntry.member (e : SetEntry) (i : Nat) : Member := e.members.getD i ⟨false, 0, 0⟩

/-- The next data member to fill: the lowest with no page (R237). -/
def nextMember (e : SetEntry) (o : OpenStripe) : Nat := ((List.range e.k).find? fun i => !o.mask.testBit i).getD e.k

/-- Hand the next member page of a stripe to its channel (R237 step 1). -/
def queueMember (s : State) (n : Nat) (e : SetEntry) (o : OpenStripe) : State :=
  let i := nextMember e o
  if i < e.k then queueWork s (e.member i).die (.program (e.member i).block o.page n i) else s

/-- The device packs a flash page: its write stamp rises, reserved 65,536 ahead in MRAM (R189). -/
def packPage (s : State) : State :=
  let st := s.map.stamp + 1
  { s with map := { s.map with
      stamp := st % 2 ^ 48
      stampReserved := if st ≥ s.map.stampReserved then (s.map.stampReserved + 65536) % 2 ^ 48 else s.map.stampReserved } }

/-- The write-buffer units that a page takes are packed (R192). -/
def markPacked (s : State) (us : List PackedUnit) : State :=
  { s with map := { s.map with wb := s.map.wb.map fun w =>
      if (us.any fun u => u.handle.val == w.handle && u.unit.toNat == w.unit) then { w with packed := true } else w } }

/-- Every member block of the set is OPEN by durable record, or the set is not new any more (R279 common step 2). -/
def setReady (s : State) (e : SetEntry) : Bool :=
  e.members.all fun m : Member => (bstOf s m.die m.block).state == .open_

/-- The new map entries of the units of a page (R184, R185). -/
def pageUnits (m : Member) (j : Nat) (slc : Bool) (us : List PackedUnit) : List (Nat × Nat × BitVec 64) :=
  us.map fun u => (u.handle.val, u.unit.toNat,
    mkEntry m.die m.block j u.slot.toNat u.len.toNat ((if u.compressed then 2 ^ 10 else 0) + (if slc then 2 ^ 9 else 0)))

/-- A data page's program passes: it joins the accumulator and STRIPE_PROG lists it (R237). -/
def memberProgram (s : State) (n : Nat) (us : List PackedUnit) : State :=
  match setAt? s n, stripeOf? s n with
  | some e, some o =>
    let i := nextMember e o
    if o.phase ≠ .filling ∨ i ≥ e.k ∨ !setReady s e ∨ sFull s then s
    else
      let m := e.member i
      let s := markPacked (packPage (takeProgram s m.die m.block o.page)) us
      let o := { o with
        mask := o.mask + 2 ^ i
        acc := true
        firstAt := if o.mask = 0 then s.com.time else o.firstAt
        units := o.units ++ pageUnits m o.page e.slc us }
      let s := sIssue (putStripe s o) (.stripeProg (stripeNo n o.page) o.mask)
      queueMember s n e o
  | _, _ => s

/-- The parity pages of a full stripe are programmed; an armed injection flips one P byte (R238, R261). -/
def parityProgram (s : State) (n : Nat) : State :=
  match setAt? s n, stripeOf? s n with
  | some e, some o =>
    if o.phase ≠ .filling ∨ nextMember e o < e.k then s
    else
      let s := (List.range (1 + e.prot)).foldl (fun s i =>
        let m := e.member (e.k + i)
        packPage (takeProgram s m.die m.block o.page)) s
      let s := if s.str.inject.contains 1 then
          { s with str := { s.str with
              inject := removeFirst (· == 1) s.str.inject, badParity := s.str.badParity ++ [stripeNo n o.page] } }
        else s
      putStripe s { o with phase := .verifying }
  | _, _ => s

/-- Blocks of a closed set become CLOSED, with the stamp of their last page (R211, R212). -/
def closeBlocks (s : State) (e : SetEntry) : State :=
  e.members.foldl (fun s m =>
    let b := bstOf s m.die m.block
    if b.state == .open_ ∨ b.changing.isSome then
      issueBlockState s m.die m.block .closed fun x => { x with closeStamp := s.map.stamp / 2 ^ 32 % 65536 }
    else s) s

/-- Close a set at its stripe `last`, or before its first stripe: journaled, its blocks close, and its open stripe and accumulator go (R230, R240). -/
def closeSet (s : State) (n : Nat) (e : SetEntry) (pages : Nat) (collect : Bool) : State :=
  let s := sIssue s (.setClose n ((pages + 65535) % 65536))
  let s := putSet s n { e with open_ := false, pages := pages, next := pages, collect := e.collect || collect }
  let s := closeBlocks s e
  let s := if collect then e.members.foldl (fun s m => markRelocate s m.die m.block) s else s
  refreshPool (dropStripe s n)

/-- Drop the programs of a set's open stripe that have not passed. -/
def dropPrograms (s : State) (e : SetEntry) (j : Nat) : State :=
  e.members.foldl (fun s m => takeProgram s m.die m.block j) s

/-- The open stripe's set closes one stripe early: the passed pages' units are packed again from the write buffer, which still holds them (R240). -/
def abandonStripe (s : State) (n : Nat) : State :=
  match setAt? s n, stripeOf? s n with
  | some e, some o => closeSet (dropPrograms s e o.page) n e o.page true
  | _, _ => s

/-- A member page fails program status: its block is retired and its set closes early (R240). -/
def programFail (s : State) (n i : Nat) : State :=
  match setAt? s n, stripeOf? s n with
  | some e, some _ =>
    if i ≥ e.width then s
    else
      let m := e.member i
      let s := if (bstOf s m.die m.block).state = .retired then s else retireBlock s m.die m.block
      abandonStripe s n
  | _, _ => s

/-- A stripe's close is journaled, its accumulator is released, and its set goes on to the next page or closes (R230, R239). -/
def finishStripe (s : State) (n : Nat) (e : SetEntry) (o : OpenStripe) (result : Nat) : State :=
  let s := sIssue s (.stripeClose (stripeNo n o.page) o.pads result)
  let e := { e with next := o.page + 1, provisional := false }
  if e.next ≥ e.pages then closeSet (putSet s n e) n e e.pages false
  else
    let s := putStripe (putSet s n e) (freshStripe s n e.next)
    queueMember s n e (freshStripe s n e.next)

/-! ### The fallback (R241) -/

/-- A side block page on a channel: the open side block's next page, or the first page of a newly opened SLC block. -/
def sidePage (s : State) (c : Nat) : Option (State × Nat × Nat × Nat) :=
  let fresh : Option (State × Nat × Nat × Nat) :=
    match ((List.range 16).map (16 * c + ·)).find? fun d => dieInService s d && (allocBlock? s d).isSome with
    | none => none
    | some d => (allocBlock? s d).map fun b =>
      let s := issueBlockState s d b .open_ fun x => { x with slc := true }
      ({ s with str := { s.str with side := s.str.side.put c (bstKey d b, 1) } }, d, b, 0)
  match s.str.side.get? c with
  | some (k, pg) =>
    if pg < modePages s (k / 16384) true then
      some ({ s with str := { s.str with side := s.str.side.put c (k, pg + 1) } }, k / 16384, k % 16384, pg)
    else fresh
  | none => fresh

/-- Provisional parity pages stop being held. -/
def releaseProv (s : State) (o : OpenStripe) (prot : Nat) : State :=
  match o.prov with
  | none => s
  | some (pd, pb, _, qd, qb, _) =>
    let seq := (rd s pMAP MAP_JSEQ_ISSUED).toNat
    let s := lowerLive s pd pb seq
    if prot = 1 then lowerLive s qd qb seq else s

/-- Program provisional parity of a stripe and journal it (R241). -/
def writeProv (s : State) (n : Nat) (e : SetEntry) (o : OpenStripe) : Option (State × OpenStripe) :=
  (sidePage s ((e.member e.k).die / 16)).bind fun (s, pd, pb, pp) =>
    let q := if e.prot = 1 then sidePage s ((e.member (e.k + 1)).die / 16) else some (s, 0, 0, 0)
    q.map fun (s, qd, qb, qp) =>
      let s := raiseLive s pd pb
      let s := if e.prot = 1 then raiseLive s qd qb else s
      let s := releaseProv (packPage s) o e.prot
      let loc := (pd, pb, pp, qd, qb, qp)
      let s := sIssue s (.provParity (stripeNo n o.page) o.mask loc)
      (s, { o with prov := some loc, phase := .provisional, acc := false })

/-- Pad a stripe's missing data members, so that its parity can be programmed (R238). -/
def padStripe (s : State) (n : Nat) (e : SetEntry) (o : OpenStripe) : State :=
  let missing := e.k - popCount e.k o.mask
  let s := dropPrograms s e o.page
  let s := (List.range missing).foldl (fun s _ => packPage s) s
  let o := { o with mask := 2 ^ e.k - 1, pads := o.pads + missing, phase := .filling }
  parityProgram (releaseProv (putStripe s o) o e.prot) n

/-- A stripe has been open for CLOSE_AGE: it is padded, or closed by the fallback where that is allowed; a provisional stripe is padded when the fallback is no longer allowed (R238, R241). -/
def closeAge (s : State) (n : Nat) : State :=
  match setAt? s n, stripeOf? s n with
  | some e, some o =>
    let age := inF s pSTR STR_CLOSE_AGE 15 0
    let rmw := bit (rd s pMAP MAP_MEDIA_STATE) 2
    if o.phase = .provisional then (if rmw then s else padStripe s n e o)
    else if o.phase ≠ .filling ∨ o.mask = 0 ∨ age = 0 ∨ (s.com.time - o.firstAt).toNat < age * 1000000 ∨ sFull s then s
    else
      let prov := (s.str.stripes.filter fun x => x.phase == .provisional).length
      if rmw && decide (prov < inF s pSTR STR_OPEN_MAX 7 0) then
        match writeProv (dropPrograms s e o.page) n e o with
        | some (s, o) => putStripe (putSet s n { e with provisional := true }) o
        | none => padStripe s n e o
      else padStripe s n e o
  | _, _ => s

/-- A later data page of a provisional stripe: new provisional parity, or the final parity with the last member (R241). -/
def rmwUpdate (s : State) (n : Nat) (us : List PackedUnit) : State :=
  match setAt? s n, stripeOf? s n with
  | some e, some o =>
    let i := nextMember e o
    if o.phase ≠ .provisional ∨ i ≥ e.k ∨ sFull s then s
    else
      let s := markPacked (packPage s) us
      let o := { o with mask := o.mask + 2 ^ i, units := o.units ++ pageUnits (e.member i) o.page e.slc us }
      if nextMember e o ≥ e.k then
        let s := releaseProv s o e.prot
        parityProgram (putStripe s { o with phase := .filling, prov := none }) n
      else match writeProv s n e o with
        | some (s, o) => putStripe s o
        | none => putStripe s o
  | _, _ => s

/-! ### Verify (R239) -/

/-- One counted event of the STR bucket; on overflow verify runs in mode 0b00 until the next applied commit (R261). -/
def strBucket (s : State) : State :=
  let (s, fired) := lbEvent s pSTR
  if fired then { s with str := { s.str with verifyAll := true } } else s

/-- VERIFY_MODE that applies now (R239, R261). -/
def verifyMode (s : State) : Nat := if s.str.verifyAll then 0 else inF s pSTR STR_VERIFY_MODE 1 0

/-- The members whose codewords a verify reads (R239). -/
def verifyMembers (s : State) (e : SetEntry) : List Nat :=
  if verifyMode s = 2 then (List.range (1 + e.prot)).map (· + e.k) else List.range e.width

/-- A stripe's verify ends: `rungs` gives, for every codeword that did not decode at rung 1, its member and the rung it reached, 2 to 4 as 1 to 3 (R239). An armed injection sends one codeword to rung 4 (R261). -/
def stripeVerify (s : State) (n : Nat) (rungs : List (Fin 32 × Fin 4)) : State :=
  match setAt? s n, stripeOf? s n with
  | some e, some o =>
    if o.phase = .collecting then
      (if stripeLive s e o.page then s else finishStripe s n e o 1)
    else if o.phase ≠ .verifying ∨ sFull s then s
    else
      let ms := verifyMembers s e
      let rungs := (rungs.map fun r => (r.1.val, r.2.val)).filter fun r => ms.contains r.1
      let inj := s.str.inject.contains 2
      let s := if inj then { s with str := { s.str with inject := removeFirst (· == 2) s.str.inject } } else s
      let soft := rungs.filter fun r => r.2 == 1 || r.2 == 2
      let s := soft.foldl (fun s r => strBucket (markRelocate s (e.member r.1).die (e.member r.1).block)) s
      if inj || rungs.any fun r => r.2 == 3 then
        let s := irq s pSTR 5
        let s := e.members.foldl (fun s m => markRelocate s m.die m.block) s
        putStripe (putSet s n { e with collect := true }) { o with phase := .collecting }
      else finishStripe s n e o (if soft.isEmpty then 0 else 1)
  | _, _ => s

/-- An accumulator in Landing returns uncorrectable: as a program failure, but no block is retired (R319). -/
def accumulatorUe (s : State) (n : Nat) : State :=
  match stripeOf? s n with
  | some o => if o.acc then abandonStripe s n else s
  | none => s

/-! ### Resynchronisation (R244 to R246) -/

/-- RESYNC_LEFT and STATE.RESYNC follow the queue; the flag of a whole-array pass clears with its last stripe (R244, R246). -/
def refreshResync (s : State) : State :=
  let n := s.str.unresync.length
  let s := wr s pSTR STR_RESYNC_LEFT (w32 n)
  let was := bit (rd s pSTR STR_STATE) 4
  let s := wrB s pSTR STR_STATE 4 (decide (n ≠ 0))
  if was && decide (n = 0) then
    let s := wrB (irq s pSTR 4) pSTR STR_STATE 5 false
    { s with str := { s.str with wholePass := false } }
  else s

/-- The live units of a stripe, as (handle, unit). -/
def stripeUnits (s : State) (e : SetEntry) (j : Nat) : List (Nat × Nat) :=
  (s.map.entries.filter fun u => hasLocation u.2 && (entPages u.2).contains j
    && e.members.any fun m : Member => m.die == entDie u.2 && m.block == entBlock u.2).map fun u => (u.1 / 2 ^ 48, u.1 % 2 ^ 48)

/-- An unrecoverable stripe: its live units enter the media error log, and it is counted, for the lost die too (R260). -/
def unrecoverableStripe (s : State) (e : SetEntry) (j lostDie : Nat) : State :=
  let s := (stripeUnits s e j).foldl (fun s u => mediaError s u.1 u.2) s
  let s := irq (bump s pSTR STR_UNRECOVERABLE 1) pSTR 3
  let r := rebuildOf s lostDie
  if r.state = .none then s
  else { s with str := { s.str with rebuilds := s.str.rebuilds.put lostDie { r with unrecoverable := r.unrecoverable + 1 } } }

/-- The stripe at the head of the resync queue is read and checked; `outcome` is what the check gives, `lost` the units whose pages do not decode (R244). A RESYNC_SHARE of 0 stops the work (R252). -/
def stripeResync (s : State) (outcome : Nat) (lost : List (Nat × Nat)) : State :=
  match s.str.unresync with
  | [] => s
  | st :: rest =>
    if inF s pSTR STR_SHARE 15 8 = 0 ∨ ferryRunning s then s
    else
      let n := st / 4096
      let j := st % 4096
      let s := { s with str := { s.str with unresync := rest } }
      let s := match outcome with
        | 0 => sIssue (sIssue s (.stripeClose st 0 0)) (.resyncDone st 0)
        | o =>
          let s := lost.foldl (fun s u => mediaError s u.1 u.2) s
          let s := match setAt? s n with
            | some e =>
              let s := e.members.foldl (fun s m => markRelocate s m.die m.block) s
              if e.open_ then closeSet s n e (min e.pages (j + 1)) true else putSet s n { e with collect := true }
            | none => s
          let s := if o = 2 then irq (bump s pSTR STR_UNRECOVERABLE 1) pSTR 3 else s
          sIssue s (.resyncDone st o)
      refreshResync s

/-- Every stripe of every set, in set order (R246). -/
def allStripes (s : State) : List Nat := s.str.sets.flatMap fun e => (List.range e.2.next).map (stripeNo e.1)

/-- Start a whole-array pass (R246, R263). -/
def wholeArrayPass (s : State) : State :=
  let s := wrB (wrB s pSTR STR_STATE 5 true) pSTR STR_STATE 4 true
  refreshResync { s with str := { s.str with unresync := allStripes s, wholePass := true } }

/-! ### Reconstruction (R245, R247) -/

/-- Is a stripe not resynchronised? -/
def isUnresync (s : State) (st : Nat) : Bool := s.str.unresync.contains st

/-- Reconstruct a codeword at rung 4 from the members that survive, whose codewords the reads brought; an armed injection loses the first survivor (R247, R261). A read of an unresynchronised stripe moves it to the head of the resync queue (R245). -/
def reconstruct (s : State) (id : Nat) (survivors : List (Fin 32 × List Byte)) : State :=
  match s.fch.recon.find? fun j => j.id == id with
  | none => s
  | some job =>
    let s := { s with fch := { s.fch with recon := s.fch.recon.filter fun j => j.id != id } }
    let inj := s.str.inject.contains 3
    let s := if inj then { s with str := { s.str with inject := removeFirst (· == 3) s.str.inject } } else s
    let alive := (survivors.map fun m => (m.1.val, m.2)).drop (if inj then 1 else 0)
    let fail (s : State) : State := deliverCodeword (bump s pSTR STR_RECON_FAIL 1) job none
    match setOf? s job.die job.block with
    | none => fail s
    | some (n, e) =>
      let st := stripeNo n job.page
      let s := if isUnresync s st then
          { s with str := { s.str with unresync := st :: s.str.unresync.filter (· != st) } } else s
      let x := (e.members.zipIdx.find? fun m : Member × Nat => m.1.die == job.die && m.1.block == job.block).elim 0 (·.2)
      let held := match stripeOf? s n with
        | some o => if o.page = job.page then alive.filter fun m => m.1 ≥ e.k || o.mask.testBit m.1 else alive
        | none => alive
      let zero (i : Nat) : Nat × List Byte := (i, List.replicate 4096 0)
      let empty := match stripeOf? s n with
        | some o => if o.page = job.page then ((List.range e.k).filter fun i => !o.mask.testBit i).map zero else []
        | none => []
      match recoverMember e.k e.prot 4096 x ((held ++ empty).filter fun m => m.1 != x) with
      | some b => deliverCodeword (bump s pSTR STR_RECON_COUNT 1) job (some b)
      | none => fail (unrecoverableStripe s e job.page job.die)

/-! ### Rebuild start (R253, R256, R259) -/

/-- Set a die's rebuild. -/
def putRebuild (s : State) (d : Nat) (r : Rebuild) : State :=
  refreshStr { s with str := { s.str with rebuilds := s.str.rebuilds.putD d r Rebuild.idle } }

/-- Every open set with a member on the die closes at its last closed stripe (R253). -/
def closeSetsOn (s : State) (d : Nat) : State :=
  (s.str.sets.filter fun e => e.2.open_ && e.2.members.any fun m : Member => m.die == d).foldl (fun s e => abandonStripe s e.1) s

/-- A retired die is fenced for rebuild: IRQ REBUILD_START, its open sets close, and a die never rebuilt enters FENCED (R253). A retirement during PAUSED keeps the die paused until the cause clears (R259). -/
def rebuildFence (s : State) (d : Nat) : State :=
  let r := rebuildOf s d
  if r.state = .none ∨ r.state = .copyOut then
    let s := closeSetsOn (irq s pSTR 0) d
    let done := r.state = .copyOut ∧ r.todo.isEmpty
    let held := ((listedBlocks s d).filter fun e => decide (e.2.live ≠ 0)).map (·.1)
    putRebuild s d { Rebuild.idle with
      state := if done then .done else .fenced, retiredAt := stampNow s, todo := if done then [] else held, done := r.done
      total := if done then r.total else r.done + held.length }
  else s

/-! ### Commit check and the apply (R250, R261, R262) -/

/-- Does a die hold blocks with LIVE above 0? -/
def heldOn (s : State) (d : Nat) : Nat := ((listedBlocks s d).filter fun e => decide (e.2.live ≠ 0)).length

/-- Commit check of `STR` (R262). -/
def checkStr (s : State) : List (Nat × Nat) :=
  let lay := rd s pSTR STR_LAYOUT
  let w := fld lay 5 0
  let sh := rd s pSTR STR_SHARE
  let om := rdF s pSTR STR_OPEN_MAX 7 0
  let rsv := rdF s pSTR STR_SPARE_RSV 5 0
  let rq := rd s pSTR STR_REQUEST
  let d := fld rq 9 0
  let nsExists := !s.map.mu.isEmpty
  let changed (o : Nat) : Bool := rd s pSTR o != inForce s pSTR o
  let r := (rebuildOf s d).state
  let named := (List.range 1024).filter fun x => hotStaged s x && !hotSpare s x
  let absent := named.any fun x => !diePresent s x || dieRetired s x
  let removed := s.str.substitutes.any fun k => hotSpare s (k / 16384) && !hotStaged s (k / 16384)
  (if w = 0 then [(STR_LAYOUT, 4)] else if w < 8 ∨ w > 32 then [(STR_LAYOUT, 1)] else [])
  ++ (if fld sh 7 0 > 100 ∨ fld sh 15 8 > 100 then [(STR_SHARE, 1)] else [])
  ++ (if om = 0 ∨ om > 128 then [(STR_OPEN_MAX, 1)] else [])
  ++ (if rsv > 32 then [(STR_SPARE_RSV, 1)] else [])
  ++ (if rdF s pSTR STR_VERIFY_MODE 1 0 = 3 then [(STR_VERIFY_MODE, 2)] else [])
  ++ (if nsExists && changed STR_LAYOUT then [(STR_LAYOUT, 3)] else [])
  ++ (if nsExists && changed STR_SEED_LO then [(STR_SEED_LO, 3)] else [])
  ++ (if nsExists && changed STR_SEED_HI then [(STR_SEED_HI, 3)] else [])
  ++ (if w > eligibleStaged s then [(STR_LAYOUT, 3)] else [])
  ++ (if nsExists && changed STR_SPARE_RSV then [(STR_SPARE_RSV, 3)] else [])
  ++ (if bit rq 31 && bit rq 30 then [(STR_REQUEST, 3)] else [])
  ++ (if !named.isEmpty && decide (tnvmcapFor s (hotStaged s) < nsAllocated s) then [(STR_HOT_SPARE, 3)] else [])
  ++ (if removed then [(STR_HOT_SPARE, 3)] else [])
  ++ (if absent then [(STR_HOT_SPARE, 5)] else [])
  ++ (if bit rq 30 && (!diePresent s d || (dieRetired s d && r != .paused)) then [(STR_REQUEST, 5)] else [])
  ++ (if bit rq 30 && r != .none && r != .paused then [(STR_REQUEST, 3)] else [])
  ++ (if bit rq 31 && bit (rd s pSTR STR_STATE) 4 then [(STR_REQUEST, 3)] else [])

/-- RB_SEL is written: RB_STATE, RB_DONE and RB_TOTAL load (R261). -/
def rbSelect (s : State) (v : Word) : State :=
  let d := fld v 9 0
  let r := rebuildOf s d
  let s := wr s pSTR STR_RB_SEL (v &&& 0x3FF)
  let s := wr s pSTR STR_RB_STATE (w32 (s.str.reserve.getD d 0 % 2 ^ 24 * 256 + r.state.code))
  wr (wr s pSTR STR_RB_DONE (w32 r.done)) pSTR STR_RB_TOTAL (w32 r.total)

/-- STR.ERR_INJECT: a code 1 to 4 is armed (R261). -/
def strInject (s : State) (code : Nat) : State :=
  if 1 ≤ code ∧ code ≤ 4 then { s with str := { s.str with inject := s.str.inject ++ [code] } } else s

end Sys2Proof.Machine
end

