-- ==== Sys2Proof/Machine/Flash.lean ====
section
/-! DEFINITION. The flash channels: start-up and training, die scheduling, the erase interlock, suspension, the read-recovery ladder, the soft pool, transient retries and retirement (R148 to R180). -/

namespace Sys2Proof.Machine

/-! ### Retirement (R178, R179) -/

/-- Every job of a die: queued, running and suspended reads, and codewords waiting for decode. -/
def dieJobs (x : Die) : List ReadJob :=
  let op (o : Option RunOp) : List ReadJob := match o with
    | some ⟨.read j, _, _⟩ => [j]
    | _ => []
  x.readsA ++ x.readsB ++ x.readsC ++ op x.running ++ op x.suspended

/-- An erase that has been issued and will not end: its block stays FREEABLE (R216). -/
def abandonErase (s : State) (d : Nat) (o : Option RunOp) : State :=
  match o with
  | some ⟨.work (.erase b _), _, _⟩ => putBst s d b { bstRaw s d b with eraseIssued := false }
  | _ => s

/-- A die's queues empty: its reads go to rung 4, its programs return to the stripe engine, its erases are dropped (R179). -/
def emptyDie (s : State) (d : Nat) : State :=
  let x := dieOf s d
  let s := abandonErase (abandonErase s d x.running) d x.suspended
  let s := putDie s d Die.idle
  (dieJobs x).foldl handRung4 s

/-- A position leaves service for good: the parts of R179 that a die's and a channel's retirement share. -/
def fenceDie (s : State) (d : Nat) : State :=
  let s := wrB s (diePage d) FCH_DIE_RETIRED (d % 16) true
  let s := emptyDie s d
  rebuildFence s d

/-- Retire a die: DIE_RETIRED, FAULT and the RETIRE entry by its position, and its rebuild (R179). A die already retired only logs (R603). -/
def retireDie (s : State) (d : Nat) : State :=
  let p := diePage d
  if dieRetired s d || chanFenced s (d / 16) then logRetire s p 0 (d % 16)
  else
    let s := logRetire (setFault s p .permanent (Config.blockCause 1) (d % 16)) p (Config.blockCause 1) (d % 16)
    let s := irq s p 0
    refreshPlace (refreshPool (fenceDie s d))

/-- Retire a channel: all 16 positions, FENCED, CE high and WP low (R179). -/
def retireChannel (s : State) (c : Nat) : State :=
  let p := pFCH c
  if chanFenced s c then logRetire s p 0 0x0010
  else
    let s := logRetire (setFault s p .permanent (Config.blockCause 2) 0x0010) p (Config.blockCause 2) 0x0010
    let s := irq s p 0
    let s := (List.range 16).foldl (fun s i =>
      if diePresent s (16 * c + i) then fenceDie s (16 * c + i) else wrB s p FCH_DIE_RETIRED i true) s
    let s := wrB (wrB (wrB s p rSTATUS 1 true) p rSTATUS 3 false) p rSTATUS 4 false
    refreshPlace (refreshPool (putChan s c { chanOf s c with wpHigh := false, ceHigh := true, decoding := [] }))

/-- The bucket overflow of R179: the lowest position with half of LB_LIMIT, else the channel. -/
def fchOverflow (s : State) (c : Nat) : State :=
  let half (p : Nat) : Bool := decide (2 * rdF s (pFCH c) (FCH_DIE_EVT + 4 * p) 7 0 ≥ inF s (pFCH c) rLB_LIMIT 15 0)
  match (List.range 16).find? half with
  | some p => retireDie s (16 * c + p)
  | none => retireChannel s c

/-- One counted event of a channel: LB_COUNT, and EVT when it belongs to a position (R178). -/
def fchEvent (s : State) (c : Nat) (pos : Option Nat) : State :=
  let s := match pos with
    | some p => bumpF s (pFCH c) (FCH_DIE_EVT + 4 * p) 7 0 1
    | none => s
  let (s, fired) := lbEvent s (pFCH c)
  if fired then fchOverflow s c else s

/-! ### Start-up and training (R157 to R159) -/

/-- A channel island leaves reset: its dies are reset, addressed and identified, and DIE_PRESENT shows which answered (R157). -/
def channelStart (s : State) (c : Nat) (answers : List DieAnswer) : State :=
  if !pageUp s (pFCH c) || chanFenced s c then s
  else
    let mask := (List.range 16).foldl (fun m p => if answers.any fun a => a.pos.val == p then m + 2 ^ p else m) 0
    let s := wr s (pFCH c) FCH_DIE_PRESENT (w32 mask)
    let s := wrB (wr s (pFCH c) FCH_IF_STATUS 0x40) (pFCH c) rSTATUS 3 false
    let tab := answers.foldl (fun (t : Tab (BitVec 48 × BitVec 2)) a => t.put a.pos.val (a.ident, a.protocols)) []
    refreshPlace (refreshPool (putChan s c { Channel.cold with started := true, answers := tab, inject := (chanOf s c).inject }))

/-- Enabled positions that are present and not retired, as a mask (R159). -/
def livePositions (s : State) (c : Nat) : Nat :=
  (inForce s (pFCH c) FCH_DIE_ENABLE &&& rd s (pFCH c) FCH_DIE_PRESENT &&& ~~~(rd s (pFCH c) FCH_DIE_RETIRED)).toNat % 65536

/-- Training loss is declared: a transient fault of the channel, which is degraded until it is trained again; its queued reads go to rung 4 (R158, R159, R178). A degraded or fenced channel has none to lose. -/
def trainingLoss (s : State) (c : Nat) : State :=
  let p := pFCH c
  if bit (rd s p rSTATUS) 4 || chanFenced s c then s
  else
  let s := irq (setFault s p .transient (Config.blockCause 3) 0x0010) p 1
  let s := wrB (wrB s p rSTATUS 3 false) p rSTATUS 4 true
  let s := wrF s p FCH_IF_STATUS 10 8 0
  let s := putChan s c { chanOf s c with streak := [] }
  let s := (List.range 16).foldl (fun s i =>
    let x := dieOf s (16 * c + i)
    let js := x.readsA ++ x.readsB ++ x.readsC
    if js.isEmpty then s
    else js.foldl handRung4 (putDie s (16 * c + i) { x with readsA := [], readsB := [], readsC := [] })) s
  fchEvent s c none

/-- The apply's switch to the configured protocol and rate, with training; `eyes` marks the positions that found passing eyes (R157). -/
def channelTraining (s : State) (c : Nat) (eyes : Nat) : State :=
  let p := pFCH c
  if !(chanOf s c).started || chanFenced s c then s
  else
    let rate := inF s p FCH_IF_CFG 3 0
    let proto := inF s p FCH_IF_CFG 17 16
    let s := wr s p FCH_IF_STATUS (w32 (proto * 16 + rate))
    let live := livePositions s c
    if (bitList 16 live).all fun i => eyes.testBit i then
      let s := wrB (wrB s p rSTATUS 3 true) p rSTATUS 4 false
      refreshPlace (putChan s c { chanOf s c with wpHigh := true })
    else trainingLoss s c

/-- The periodic check: drift above DRIFT_LIMIT on an enabled position declares training loss (R158). -/
def trainingCheck (s : State) (c : Nat) (drift : List (Pos × Nat)) : State :=
  let p := pFCH c
  let lim := inF s p FCH_TRAIN_CTRL 23 16
  if inF s p FCH_TRAIN_CTRL 15 0 = 0 ∨ lim = 0 ∨ !bit (rd s p rSTATUS) 3 then s
  else if drift.any fun d => (livePositions s c).testBit d.1.val && decide (d.2 > lim) then trainingLoss s c
  else s

/-- TRANSIENT_MAX in force. -/
def transientMax (s : State) (c : Nat) : Nat := inF s (pFCH c) FCH_RETRY_CTRL 2 0

/-- A retraining attempt of a degraded channel (R159, R178). -/
def retrainAttempt (s : State) (c : Nat) (passed : Bool) : State :=
  let p := pFCH c
  if !bit (rd s p rSTATUS) 4 then s
  else if transientMax s c = 0 then retireChannel s c
  else
    let n := rdF s p FCH_IF_STATUS 10 8 + 1
    let s := fchEvent (wrF s p FCH_IF_STATUS 10 8 n) c none
    if chanFenced s c then s
    else if passed then
      wrF (irq (wrB (wrB s p rSTATUS 3 true) p rSTATUS 4 false) p 2) p FCH_IF_STATUS 10 8 0
    else if n ≥ transientMax s c then retireChannel s c
    else s

/-! ### Die scheduling (R163 to R167) -/

/-- The next read in the order of R163 and the die without it. -/
def nextRead? (x : Die) : Option (ReadJob × Die) :=
  match x.readsA, x.readsB, x.readsC with
  | j :: r, _, _ => some (j, { x with readsA := r })
  | [], j :: r, _ => some (j, { x with readsB := r })
  | [], [], j :: r => some (j, { x with readsC := r })
  | [], [], [] => none

/-- Put a ladder's next array read at the head of its class's queue (R176). -/
def requeueHead (s : State) (j : ReadJob) : State :=
  let x := dieOf s j.die
  putDie s j.die (if j.cls == .a || j.promoted then { x with readsA := j :: x.readsA }
    else if j.cls == .b then { x with readsB := j :: x.readsB } else { x with readsC := j :: x.readsC })

/-- LADDER_CTRL.HINT_EN. -/
def hintEn (s : State) (c : Nat) : Bool := inF s (pFCH c) FCH_LADDER_CTRL 14 14 == 1

/-- The levels rung 1 reads at: under HINT_EN those of the set that last succeeded at rung 2 on the die (R176). -/
def rung1Set (s : State) (d : Nat) : Option Nat := if hintEn s (d / 16) then (dieOf s d).hint else none

/-- Does a lookup's pin stand for this read? (R215) -/
def pinned (j : ReadJob) : Bool :=
  j.rung == 1 && (match j.owner with
    | .host _ _ => true
    | .mapPage _ _ => true
    | .scan _ _ => true
    | _ => false)

/-- Start an array read on a die: its levels are set, and a lookup's pin falls (R171, R215). -/
def startRead (s : State) (d : Nat) (j : ReadJob) (x : Die) : State :=
  let set := if j.rung = 1 then rung1Set s d else j.set
  let j := { j with set := set, hintSet := if j.rung = 1 then set else j.hintSet }
  let s := putDie s d { x with running := some ⟨.read j, s.com.time, 0⟩, levels := set }
  if pinned j then unpinBlock s d j.block else s

/-- The erase at the head of a die's queue: the interlock tests FREEABLE and issues or refuses in one step (R165, R216, R607). -/
def issueErase (s : State) (d b : Nat) (by_ : Initiator) (x : Die) : State :=
  let p := diePage d
  let e := bstOf s d b
  if e.state == .freeable && !e.eraseIssued then
    let s := putBst s d b { e with eraseIssued := true }
    putDie s d { x with running := some ⟨.work (.erase b by_), s.com.time, 0⟩, token := false }
  else
    let s := finishUnit (putDie s d x) p (epochNow s p)
    let ev : LogEvent :=
      { kind := kREFUSAL, cls := FClass.access.code, page := p, cause := cERASE_INTERLOCK, unit := d % 16,
        initiator := by_.num, detail := d + b * 65536, initPage := by_.initPage }
    irq (bump (irq (logEvent s ev) p 5) pMAP MAP_ERASE_REFUSED 1) pMAP 3

/-- Start the program or erase at the head of a die's queue, with its token (R163 to R165). -/
def startWork (s : State) (d : Nat) : State :=
  let x := dieOf s d
  match x.work with
  | [] => s
  | w :: rest =>
    if !x.token then s
    else match w with
      | .erase b by_ => issueErase s d b by_ { x with work := rest }
      | .program _ _ _ _ =>
        putDie s d { x with work := rest, running := some ⟨.work w, s.com.time, 0⟩, token := false }

/-- May the die take a read now? In a suspension only within the batch, or beyond it while a resume waits for a token (R166, R167). -/
def readAllowed (x : Die) : Bool := x.suspended.isNone || decide (x.batch ≠ 0) || x.asking

/-- An idle die takes its next work in the order of R163. A degraded channel takes none (R159), nor a die in a transient retry (R180). -/
def dieIssue (s : State) (d : Nat) : State :=
  let x := dieOf s d
  let c := d / 16
  if x.running.isSome || decide (x.retry ≠ 0) || bit (rd s (pFCH c) rSTATUS) 4 || !bit (rd s (pFCH c) rSTATUS) 3
      || dieRetired s d then s
  else match (if readAllowed x then nextRead? x else none) with
    | some (j, x) => startRead s d j { x with batch := x.batch - 1 }
    | none => if x.suspended.isSome then s else startWork s d

/-- ERASE_ISSUE: the erase at the head of an idle die's queue, with its token (R164, R165). -/
def eraseIssue (s : State) (d : Nat) : State :=
  let x := dieOf s d
  let head := match x.work with
    | .erase _ _ :: _ => true
    | _ => false
  if head && x.running.isNone && x.suspended.isNone && decide (x.retry = 0) && !bit (rd s (diePage d) rSTATUS) 4 then startWork s d
  else s

/-- Reads that have waited longer than READ_AGE move behind the class A reads (R163). -/
def agePromotion (s : State) (d : Nat) : State :=
  let age := inF s (diePage d) FCH_READ_AGE 15 0
  if age = 0 then s
  else
    let x := dieOf s d
    let old (j : ReadJob) : Bool := decide ((s.com.time - j.arrived).toNat > age * 1000)
    let up := (x.readsB.filter old ++ x.readsC.filter old).map fun j : ReadJob => { j with promoted := true }
    if up.isEmpty then s
    else putDie s d { x with
      readsA := x.readsA ++ up
      readsB := x.readsB.filter fun j => !old j
      readsC := x.readsC.filter fun j => !old j }

/-- Is a read of class A or class B by its own class? (R166) -/
def suspendsOps (j : ReadJob) : Bool := j.cls == .a || j.cls == .b

/-- A waiting class A or B read suspends the running program or erase once its minimum run has passed and its limit allows (R166). -/
def dieSuspend (s : State) (d : Nat) : State :=
  let x := dieOf s d
  let p := diePage d
  match x.running with
  | some ⟨.work w, since, n⟩ =>
    let isErase := match w with
      | .erase _ _ => true
      | .program _ _ _ _ => false
    let minRun := if isErase then inF s p FCH_SCHED_MIN_RUN 31 16 else inF s p FCH_SCHED_MIN_RUN 15 0
    let lim := if isErase then inF s p FCH_SCHED_CTRL 8 4 else inF s p FCH_SCHED_CTRL 3 0
    let batch := inF s p FCH_SCHED_CTRL 12 9
    let waits := (x.readsA ++ x.readsB ++ x.readsC).any suspendsOps
    if waits && decide (batch ≠ 0) && decide (n < lim) && decide ((s.com.time - since).toNat ≥ minRun * 1000)
        && decide (x.retry = 0) && !bit (rd s p rSTATUS) 4 then
      putDie s d { x with running := none, suspended := some ⟨.work w, s.com.time, n + 1⟩, batch := batch, asking := false }
    else s
  | _ => s

/-- The suspended operation resumes when the batch ends, with a token; without one the die stays suspended and goes on reading (R166, R167). -/
def dieResume (s : State) (d : Nat) : State :=
  let x := dieOf s d
  match x.suspended with
  | some o =>
    if x.running.isSome || (decide (x.batch ≠ 0) && (nextRead? x).isSome) then s
    else if x.token then
      putDie s d { x with running := some { o with since := s.com.time }, suspended := none, token := false, asking := false, batch := 0 }
    else putDie s d { x with asking := true }
  | none => s

/-! ### The soft pool (R172, R173) -/

/-- QUEUE_DEPTH and DEC_BUSY follow the pool (R174). -/
def refreshPoolQueue (s : State) : State :=
  let s := wr s pLDS LDS_QUEUE_DEPTH (w32 (min 1024 s.fch.back.length * 65536 + min 1024 s.fch.fore.length))
  wr s pLDS LDS_DEC_BUSY (w32 ((s.fch.soft.map fun e => 2 ^ e.1).foldl (· + ·) 0))

/-- Decoders in service and idle, ascending. -/
def idleDecoders (s : State) : List Nat :=
  (List.range 8).filter fun n =>
    bit (inForce s pLDS LDS_DEC_ENABLE) n && !bit (rd s pLDS LDS_DEC_RETIRED) n && (s.fch.soft.get? n).isNone

/-- Give waiting jobs to the lowest idle decoders, foreground first (R172). -/
def feedPool (s : State) : State :=
  refreshPoolQueue ((idleDecoders s).foldl (fun s n => match s.fch.fore, s.fch.back with
    | j :: r, _ => { s with fch := { s.fch with fore := r, soft := s.fch.soft.put n j } }
    | [], j :: r => { s with fch := { s.fch with back := r, soft := s.fch.soft.put n j } }
    | [], [] => s) s)

/-- Post a job to the pool: class A and hard-mode jobs are foreground (R172, R173). -/
def postSoft (s : State) (j : ReadJob) (hard : Bool) : State :=
  let s := if s.fch.fore.length + s.fch.back.length ≥ 1024 then irq s pLDS 1 else s
  let job : SoftJob := ⟨j, hard⟩
  feedPool (if hard || j.cls == .a then { s with fch := { s.fch with fore := s.fch.fore ++ [job] } }
    else { s with fch := { s.fch with back := s.fch.back ++ [job] } })

/-! ### The ladder (R176) -/

/-- RETRY_FEAT of the die's type is not 0: it has retry sets (R160, R176). -/
def hasRetrySets (s : State) (d : Nat) : Bool :=
  let t := inF s (diePage d) FCH_DIE_TYPE (2 * (d % 16) + 1) (2 * (d % 16))
  inF s (diePage d) FCH_RETRY_FEAT (8 * t + 7) (8 * t) != 0

/-- The next retry set after the one just read, in ascending order, without the set rung 1 read at under HINT_EN (R176). -/
def nextSet? (s : State) (j : ReadJob) : Option Nat :=
  let n := inF s (diePage j.die) FCH_LADDER_CTRL 11 8
  let from_ := if j.rung = 1 then 0 else j.set.elim 0 (· + 1)
  if hasRetrySets s j.die then
    ((List.range n).filter fun k => decide (from_ ≤ k) && !(hintEn s (j.die / 16) && j.hintSet == some k)).head?
  else none

/-- The lowest syndrome weight so far, the lower set number on a tie (R176). -/
def betterOf (j : ReadJob) (weight : Nat) : Option (Nat × Option Nat) :=
  match j.best with
  | none => some (weight, j.set)
  | some (w, t) => if weight < w ∨ (weight = w ∧ lower j.set t) then some (weight, j.set) else some (w, t)
where
  /-- Is the first set's number the lower? The zero-offset levels are no set. -/
  lower : Option Nat → Option Nat → Bool
    | some a, some b => decide (a < b)
    | _, _ => false

/-- An armed injection of a position (R160). -/
def fchArmed (s : State) (c p code : Nat) : Bool := (chanOf s c).inject.get? p == some code

/-- Take an armed injection. -/
def fchDisarm (s : State) (c p : Nat) : State := putChan s c { chanOf s c with inject := (chanOf s c).inject.del p }

/-- Rung 4: the codeword goes to the stripe engine (R176 step 4). -/
def toRung4 (s : State) (j : ReadJob) : State :=
  let s := if fchArmed s (j.die / 16) (j.die % 16) 2 then fchDisarm s (j.die / 16) (j.die % 16) else s
  handRung4 s j

/-- Begin rung 3, or go to rung 4 (R176): 3a takes three array reads, 3b one more than 3a or four alone. -/
def toRung3 (s : State) (j : ReadJob) : State :=
  let p := diePage j.die
  let centre := j.best.elim none (·.2)
  if inF s p FCH_LADDER_CTRL 12 12 = 1 then
    requeueHead s { j with rung := 3, set := centre, softReads := 3, threeBits := false }
  else if inF s p FCH_LADDER_CTRL 13 13 = 1 then
    requeueHead s { j with rung := 3, set := centre, softReads := 4, threeBits := true }
  else toRung4 s j

/-- A codeword passes: its rung counts it, and a recovery may mark its block RELOCATE and set the hint (R160, R176, R219). -/
def ladderPass (s : State) (j : ReadJob) (bytes : List Byte) : State :=
  let p := diePage j.die
  let s := match j.rung with
    | 1 => putChan (bump s p FCH_LADDER_HARD 1) (j.die / 16) { chanOf s (j.die / 16) with streak := [] }
    | 2 =>
      let s := bumpSince (bump s p FCH_LADDER_RETRY 1) p FCH_SNAP_LADDER 1
      let x := dieOf s j.die
      let s := putDie s j.die { x with hint := j.set }
      if inF s pMAP MAP_RELOC_RETRY 3 0 < 8 ∧ j.set.elim 0 id ≥ inF s pMAP MAP_RELOC_RETRY 3 0 then markRelocate s j.die j.block else s
    | _ => markRelocate (bumpSince (bump s p FCH_LADDER_SOFT 1) p FCH_SNAP_LADDER (2 ^ 32)) j.die j.block
  deliverCodeword s j (some bytes)

/-- Four hard failures in a row from four positions declare training loss (R158). -/
def hardFailure (s : State) (d : Nat) : State :=
  let c := d / 16
  let streak := ((d % 16) :: (chanOf s c).streak).take 4
  let s := putChan s c { chanOf s c with streak := streak }
  if streak.length = 4 ∧ streak.Nodup then trainingLoss s c else s

/-- A hard decode of rung 1 or 2 ends (R170, R176). -/
def hardResult (s : State) (j : ReadJob) (pass : Bool) (weight : Nat) (bytes : List Byte) : State :=
  let c := j.die / 16
  let pos := j.die % 16
  let once := fchArmed s c pos 1
  let s := if once then fchDisarm s c pos else s
  if pass && !once && !fchArmed s c pos 2 then ladderPass s j bytes
  else
    let j := { j with best := betterOf j weight }
    let s := if j.rung = 1 then hardFailure s j.die else s
    if dieRetired s j.die || bit (rd s (pFCH c) rSTATUS) 4 then toRung4 s j
    else match nextSet? s j with
      | some k => requeueHead s { j with rung := 2, set := some k }
      | none => toRung3 s j

/-- The channel's hard decoder delivers a codeword's result (R170). -/
def hardDecodeDone (s : State) (c id : Nat) (pass : Bool) (weight : Nat) (bytes : List Byte) : State :=
  match (chanOf s c).decoding.find? fun j => j.id == id with
  | none => s
  | some j => hardResult (putChan s c { chanOf s c with decoding := (chanOf s c).decoding.filter fun x => x.id != id }) j pass weight bytes

/-- A soft decoder ends its job (R172, R173, R176); an armed injection fails it (R174). -/
def softDecodeDone (s : State) (n : Nat) (pass : Bool) (weight : Nat) (bytes : List Byte) : State :=
  match s.fch.soft.get? n with
  | none => s
  | some sj =>
    let inj := s.fch.ldsInject.get? n == some 1
    let s := { s with fch := { s.fch with
        soft := s.fch.soft.del n
        ldsInject := if inj then s.fch.ldsInject.del n else s.fch.ldsInject } }
    let j := sj.job
    let ok := pass && !inj
    let s := if sj.hardMode then hardResult (bump s pLDS LDS_HARD_MODE_JOBS 1) j ok weight bytes
      else if ok && !fchArmed s (j.die / 16) (j.die % 16) 2 then ladderPass (bump s pLDS LDS_SOFT_OK 1) j bytes
      else
        let s := bump s pLDS LDS_SOFT_FAIL 1
        if !j.threeBits && inF s (diePage j.die) FCH_LADDER_CTRL 13 13 == 1 && !dieRetired s j.die
            && !bit (rd s (diePage j.die) rSTATUS) 4 then
          requeueHead s { j with softReads := 1, threeBits := true }
        else toRung4 s j
    feedPool s

/-- Remove a codeword wherever its ladder stands. -/
def takeJob (s : State) (c id : Nat) : State × Option ReadJob :=
  let drop (l : List ReadJob) := l.filter fun j : ReadJob => j.id != id
  let hit (l : List ReadJob) := l.find? fun j : ReadJob => j.id == id
  match hit (chanOf s c).decoding with
  | some j => (putChan s c { chanOf s c with decoding := drop (chanOf s c).decoding }, some j)
  | none =>
    match (List.range 16).find? fun p => (hit (dieJobs (dieOf s (16 * c + p)))).isSome with
    | some p =>
      let d := 16 * c + p
      let x := dieOf s d
      let run (o : Option RunOp) : Option RunOp := match o with
        | some ⟨.read j, t, n⟩ => if j.id = id then none else some ⟨.read j, t, n⟩
        | o => o
      (putDie s d { x with readsA := drop x.readsA, readsB := drop x.readsB, readsC := drop x.readsC, running := run x.running },
        hit (dieJobs x))
    | none =>
      match (s.fch.fore ++ s.fch.back ++ s.fch.soft.map (·.2)).find? fun j : SoftJob => j.job.id == id with
      | some sj =>
        let keep (l : List SoftJob) := l.filter fun j : SoftJob => j.job.id != id
        (feedPool { s with fch := { s.fch with
            fore := keep s.fch.fore, back := keep s.fch.back, soft := s.fch.soft.filter fun e => e.2.job.id != id } }, some sj.job)
      | none => (s, none)

/-- A codeword's ladder time reaches LADDER_BUDGET: it goes to rung 4 and the rest of its ladder is abandoned (R176). -/
def budgetExpiry (s : State) (c id : Nat) : State :=
  let budget := inF s (pFCH c) FCH_LADDER_CTRL 31 16
  if budget = 0 then s
  else match takeJob s c id with
    | (t, some j) => if (s.com.time - j.arrived).toNat ≥ budget * 1000 then toRung4 t j else s
    | (_, none) => s

/-! ### Ends of operations, faults and retries (R168, R178, R180) -/

/-- A transient fault of a die: FAULT, and its queued reads go to rung 4 from the first retry; with TRANSIENT_MAX 0 it is retired at once (R178, R180). -/
def dieTransient (s : State) (d : Nat) : State :=
  let c := d / 16
  let s := setFault s (pFCH c) .transient (Config.blockCause 4) (d % 16)
  if transientMax s c = 0 then retireDie s d
  else
    let x := dieOf s d
    let js := x.readsA ++ x.readsB ++ x.readsC
    js.foldl handRung4 (putDie s d { x with retry := 1, readsA := [], readsB := [], readsC := [] })

/-- A program status failure (R178): PFAIL, PROG_FAIL, and the block retired. -/
def programStatusFail (s : State) (d b : Nat) : State :=
  let p := diePage d
  let s := irq (bumpF s p (FCH_DIE_EVT + 4 * (d % 16)) 23 16 1) p 3
  if (bstOf s d b).state = .retired then s else retireBlock s d b

/-- An erase status failure (R178): EFAIL, ERASE_FAIL, the block retired, and the die at DIE_EFAIL_MAX. -/
def eraseStatusFail (s : State) (d b : Nat) : State :=
  let p := diePage d
  let s := irq (bumpF s p (FCH_DIE_EVT + 4 * (d % 16)) 15 8 1) p 4
  let s := retireBlock s d b
  let lim := inF s p FCH_DIE_EFAIL_MAX 7 0
  if lim ≠ 0 ∧ rdF s p (FCH_DIE_EVT + 4 * (d % 16)) 15 8 ≥ lim then retireDie s d else s

/-- An erase passes: its BLOCK_STATE record to FREE is issued with ERASE_COUNT + 1, and the block counts as returned by GC (R212, R224). -/
def eraseStatusPass (s : State) (d b : Nat) : State :=
  let s := issueBlockState s d b .free fun e =>
    { e with eraseCount := min 0xFFFFF (e.eraseCount + 1), eraseIssued := false, slc := false, relocate := false, live := 0 }
  { s with map := { s.map with
      returned := s.map.returned + diePages s d * 16384
      gc := s.map.gc.filter fun v => !(v.die == d && v.block == b) } }

/-- A read's data is out: it waits for its decode, for the ladder's next array read, or for the soft pool (R170, R173, R176). -/
def readDone (s : State) (j : ReadJob) : State :=
  let c := j.die / 16
  if j.rung = 3 then
    if j.softReads ≤ 1 then postSoft s { j with softReads := 0 } false else requeueHead s { j with softReads := j.softReads - 1 }
  else if bit (rd s (pFCH c) rSTATUS) 5 then postSoft s j true
  else putChan s c { chanOf s c with decoding := (chanOf s c).decoding ++ [j] }

/-- A status poll finds a die ready: its read, program or erase ends with its status; armed injections turn the end into a status failure or a timeout (R160, R168, R178). -/
def dieOpComplete (s : State) (d : Nat) (pass : Bool) : State :=
  let c := d / 16
  let x := dieOf s d
  match x.running with
  | none => s
  | some o =>
    if fchArmed s c (d % 16) 3 then injected (fchDisarm s c (d % 16)) fun s => dieTransient s d
    else
      let s := putDie s d { x with running := none, retry := 0 }
      match o.job with
      | .read j => readDone s j
      | .work (.program b _ _ _) =>
        let inj := fchArmed s c (d % 16) 6
        let s := finishUnit (if inj then fchDisarm s c (d % 16) else s) (pFCH c) (epochNow s (pFCH c))
        if pass && !inj then s else programStatusFail s d b
      | .work (.erase b _) =>
        let inj := fchArmed s c (d % 16) 5
        let s := finishUnit (if inj then fchDisarm s c (d % 16) else s) (pFCH c) (epochNow s (pFCH c))
        refreshPool (if pass && !inj then eraseStatusPass s d b else eraseStatusFail s d b)

/-- A die is still busy past its descriptor time (R178). -/
def dieTimeout (s : State) (d : Nat) : State :=
  let x := dieOf s d
  if x.running.isNone || decide (x.retry ≠ 0) then s else dieTransient s d

/-- Retry n of a transient die fault: a poll, then Reset LUN with the operation reissued; a program then counts as a program status failure, and the last failed retry retires the die (R178, R180). -/
def transientRetry (s : State) (d : Nat) (ready : Bool) : State :=
  let c := d / 16
  let x := dieOf s d
  if x.retry = 0 then s
  else
    let n := x.retry
    let s := fchEvent s c (some (d % 16))
    if dieRetired s d then s
    else
      let x := dieOf s d
      let (s, x) := if n ≥ 2 then
          match x.running with
          | some ⟨.work (.program b _ _ _), _, _⟩ =>
            (programStatusFail (finishUnit s (pFCH c) (epochNow s (pFCH c))) d b, { x with running := none })
          | some o => (s, { x with running := some { o with since := s.com.time } })
          | none => (s, x)
        else (s, x)
      if ready then putDie s d { x with retry := 0 }
      else if n ≥ transientMax s c then retireDie (putDie s d { x with retry := 0 }) d
      else putDie s d { x with retry := n + 1 }

/-- A hard decoder is retired: HARD_DEC_RETIRED, UNIT 0x0011, and its codewords go to the soft pool (R173, R175). -/
def retireHardDecoder (s : State) (c : Nat) : State :=
  let p := pFCH c
  let s := logRetire (setFault (wrB s p rSTATUS 5 true) p .permanent (Config.blockCause 5) 0x0011) p (Config.blockCause 5) 0x0011
  let js := (chanOf s c).decoding
  js.foldl (fun s j => postSoft s j true) (putChan s c { chanOf s c with decoding := [] })

/-- A soft decoder is retired: its job returns to the head of its queue (R175). -/
def retireSoftDecoder (s : State) (n : Nat) : State :=
  let s := irq (logRetire (setFault (wrB s pLDS LDS_DEC_RETIRED n true) pLDS .permanent (Config.blockCause 6) n) pLDS (Config.blockCause 6) n) pLDS 0
  let s := match s.fch.soft.get? n with
    | none => s
    | some j =>
      let s := { s with fch := { s.fch with soft := s.fch.soft.del n } }
      if j.hardMode || j.job.cls == .a then { s with fch := { s.fch with fore := j :: s.fch.fore } }
      else { s with fch := { s.fch with back := j :: s.fch.back } }
  feedPool s

/-- A decoder decodes its stored codeword: never while it is busy, and a differing result retires it (R175). -/
def selfCheck (s : State) (dec : DecoderId) (good : Bool) : State :=
  match dec with
  | .hard c =>
    if inF s (pFCH c.val) FCH_TRAIN_CTRL 15 0 = 0 ∨ bit (rd s (pFCH c.val) rSTATUS) 5 ∨ !(chanOf s c.val).decoding.isEmpty
        ∨ !pageUp s (pFCH c.val) ∨ chanFenced s c.val then s
    else if good then s else retireHardDecoder s c.val
  | .soft n =>
    if inF s pLDS LDS_SELF_CHECK 15 0 = 0 ∨ bit (rd s pLDS LDS_DEC_RETIRED) n.val ∨ (s.fch.soft.get? n.val).isSome ∨ !pageUp s pLDS then s
    else if good then s else retireSoftDecoder s n.val

/-! ### Requests and injections (R160, R174) -/

/-- RETIRE_REQ: the channel or the named position is retired (R160, R178). -/
def retireReq (s : State) (c : Nat) (v : Word) : State :=
  if bit v 31 then retireChannel s c else retireDie s (16 * c + fld v 3 0)

/-- FCH ERR_INJECT: training loss and a decoder failure act at once, the other codes are armed for their position (R160). -/
def fchInject (s : State) (c : Nat) (v : Word) : State :=
  match fld v 3 0 with
  | 4 => injected s fun s => trainingLoss s c
  | 7 => injected s fun s => retireHardDecoder s c
  | 1 => arm 1
  | 2 => arm 2
  | 3 => arm 3
  | 5 => arm 5
  | 6 => arm 6
  | _ => s
where
  /-- Arm a code for the position written. -/
  arm (code : Nat) : State := putChan s c { chanOf s c with inject := (chanOf s c).inject.put (fld v 11 8) code }

/-- LDS ERR_INJECT: the next job of a decoder fails, or its self-check does (R174). -/
def ldsInject (s : State) (v : Word) : State :=
  match fld v 3 0 with
  | 1 => { s with fch := { s.fch with ldsInject := s.fch.ldsInject.put (fld v 6 4) 1 } }
  | 2 => injected s fun s => retireSoftDecoder s (fld v 6 4)
  | _ => s

/-! ### Commit checks (R162, R166, R174) -/

/-- The wait W of R166 in 0.1 µs for a type's tR, with `dies` in service. -/
def tokenWait (dies tokenMin tR : Nat) : Nat := cdiv dies (max 1 tokenMin) * 10 + tR + 40

/-- The bound of R166 in 0.1 µs. -/
def suspBound (dies tokenMin tOp lim tSusp batch tR : Nat) : Nat :=
  tOp * 10 + tokenWait dies tokenMin tR + lim * (2 * tSusp * 10 + batch * (tR + 40) + tokenWait dies tokenMin tR)

/-- In-service dies as they stand once the commit of channel `c` has applied (R166). -/
def diesAfter (s : State) (c : Nat) : Nat :=
  ((List.range 64).map fun k =>
    if !s.com.chip.hasChannel k || chanFenced s k then 0
    else
      let en := if k = c then rd s (pFCH k) FCH_DIE_ENABLE else inForce s (pFCH k) FCH_DIE_ENABLE
      popCount 16 (en &&& rd s (pFCH k) FCH_DIE_PRESENT &&& ~~~(rd s (pFCH k) FCH_DIE_RETIRED)).toNat).foldl (· + ·) 0

/-- Does the worst suspension of descriptor t exceed 30 ms? (R162, R166, R599); SCHED_CTRL and the descriptor are read through `f`. -/
def boundExceeds (f : Nat → Word) (dies tokenMin t : Nat) : Bool :=
  let base := 0x200 + 32 * t
  let sched := f FCH_SCHED_CTRL
  let tR := max (fld (f (base + 0x10)) 15 0) (fld (f (base + 0x10)) 31 16)
  let tP := max (fld (f (base + 0x14)) 15 0) (fld (f (base + 0x14)) 31 16)
  let tB := fld (f (base + 0x18)) 15 0
  let tS := fld (f (base + 0x18)) 31 24
  bit (f (base + 4)) 31 && (decide (suspBound dies tokenMin tP (fld sched 3 0) tS (fld sched 12 9) tR > 300000)
    || decide (suspBound dies tokenMin tB (fld sched 8 4) tS (fld sched 12 9) tR > 300000))

/-- Spare bytes a PARITY_SEL needs per page (R155). -/
def spareNeed (sel : Nat) : Nat :=
  match sel with
  | 0 => 1600 | 1 => 1856 | 2 => 2112 | _ => 2176

/-- Commit check of channel `c` (R162). -/
def checkFch (s : State) (c : Nat) : List (Nat × Nat) :=
  let p := pFCH c
  let f (o : Nat) := rd s p o
  let range := [(FCH_IF_CFG, decide (fld (f FCH_IF_CFG) 3 0 = 0 ∨ fld (f FCH_IF_CFG) 3 0 > 8 ∨ fld (f FCH_IF_CFG) 10 8 > 4)),
    (FCH_SCHED_CTRL, decide (fld (f FCH_SCHED_CTRL) 3 0 > 8 ∨ fld (f FCH_SCHED_CTRL) 8 4 > 16 ∨ fld (f FCH_SCHED_CTRL) 12 9 > 8)),
    (FCH_LADDER_CTRL, decide (fld (f FCH_LADDER_CTRL) 5 0 > 40 ∨ fld (f FCH_LADDER_CTRL) 11 8 > 8)),
    (FCH_RETRY_CTRL, decide (fld (f FCH_RETRY_CTRL) 19 16 > 6 ∨ fld (f FCH_RETRY_CTRL) 2 0 > 4))]
  let base (t : Nat) := 0x200 + 32 * t
  let types := List.range 4
  let ans := (chanOf s c).answers
  let enabled := bitList 16 (f FCH_DIE_ENABLE).toNat
  let typeOf (pos : Nat) := fld (f FCH_DIE_TYPE) (2 * pos + 1) (2 * pos)
  let valid (t : Nat) : Bool := bit (f (base t + 4)) 31
  let idOf (t : Nat) : Nat := (f (base t)).toNat + fld (f (base t + 4)) 15 0 * 2 ^ 32
  let badId (pos : Nat) : Bool := !valid (typeOf pos) || (match ans.get? pos with
    | some a => a.1.toNat != idOf (typeOf pos)
    | none => false)
  let proto := fld (f FCH_IF_CFG) 17 16
  let noProto (pos : Nat) : Bool := match ans.get? pos with
    | some a => !a.2.getLsbD proto
    | none => false
  let zeroT (t : Nat) : Bool := valid t && (fld (f (base t + 0x10)) 15 0 == 0 || fld (f (base t + 0x14)) 15 0 == 0 || fld (f (base t + 0x18)) 15 0 == 0)
  let lowSpare (t : Nat) : Bool := valid t && decide (fld (f (base t + 0x0C)) 31 16 < spareNeed (fld (f (base t + 0x0C)) 1 0))
  let pair (pos : Nat) : Nat := if pos % 2 = 0 then pos + 1 else pos - 1
  let badDual (pos : Nat) : Bool :=
    fld (f (base (typeOf pos) + 0x0C)) 3 3 == 1 && (!(ans.get? (pair pos)).isSome || typeOf (pair pos) != typeOf pos)
  let inUse (t : Nat) : Bool := (bitList 16 (inForce s p FCH_DIE_ENABLE &&& ~~~(rd s p FCH_DIE_RETIRED)).toNat).any fun pos =>
    fld (inForce s p FCH_DIE_TYPE) (2 * pos + 1) (2 * pos) == t
  let changed (t : Nat) : Bool := inUse t && (f (base t + 8) != inForce s p (base t + 8) || f (base t + 0x0C) != inForce s p (base t + 0x0C))
  let dies := diesAfter s c
  let tmin := inF s pCLE CLE_TOKEN_MIN 10 0
  let absent := enabled.any fun pos => !bit (f FCH_DIE_PRESENT) pos || bit (f FCH_DIE_RETIRED) pos
  ((range.filter (·.2)).map fun x => (x.1, 1))
  ++ (if proto ≥ 2 then [(FCH_IF_CFG, 2)] else [])
  ++ ((types.filter fun t => decide (fld (f (base t + 8)) 2 0 ≥ 6)).map fun t => (base t + 8, 2))
  ++ (if enabled.any badId then [(FCH_DIE_TYPE, 3)] else [])
  ++ ((types.filter zeroT).map fun t => (base t + (if fld (f (base t + 0x10)) 15 0 = 0 then 0x10
        else if fld (f (base t + 0x14)) 15 0 = 0 then 0x14 else 0x18), 3))
  ++ ((types.filter lowSpare).map fun t => (base t + 0x0C, 3))
  ++ ((enabled.filter badDual).map fun pos => (base (typeOf pos) + 0x0C, 3))
  ++ (if enabled.any noProto then [(FCH_IF_CFG, 3)] else [])
  ++ ((types.filter changed).map fun t => (base t + (if f (base t + 8) != inForce s p (base t + 8) then 8 else 0x0C), 3))
  ++ (if types.any (boundExceeds f dies tmin) then [(FCH_SCHED_CTRL, 3)] else [])
  ++ (if absent then [(FCH_DIE_ENABLE, 5)] else [])

/-- Commit check of `LDS` (R174). -/
def checkLds (s : State) : List (Nat × Nat) :=
  (if rdF s pLDS LDS_SOFT_ITER_MAX 5 0 > 40 then [(LDS_SOFT_ITER_MAX, 1)] else [])
  ++ (if (rd s pLDS LDS_DEC_ENABLE &&& rd s pLDS LDS_DEC_RETIRED) != 0 then [(LDS_DEC_ENABLE, 5)] else [])

end Sys2Proof.Machine
end

