-- ==== Sys2Proof/Machine/Map.lean ====
section
/-! DEFINITION. The map walker's tiers, write-back and checkpoints, the host map window, garbage collection, migration, wear levelling and the MAP page (R192 to R200, R205, R210, R218 to R228, R243). -/

namespace Sys2Proof.Machine

/-! ### The host map window (R196 to R200) -/

/-- HMW_STATUS follows the window (R227). -/
def setHmw (s : State) (active suspended : Bool) : State :=
  wr s pMAP MAP_HMW_STATUS (w32 (s.map.slots % 2 ^ 23 * 16 + (if suspended then 2 else 0) + (if active then 1 else 0)))

/-- The window may be read: HMW_EN, ACTIVE and not SUSPENDED (R196, R200). -/
def hmwActive (s : State) : Bool :=
  bit (inForce s pMAP MAP_MAP_CFG) 0 && bit (rd s pMAP MAP_HMW_STATUS) 0 && !bit (rd s pMAP MAP_HMW_STATUS) 1

/-- One counted event of the MAP bucket: on overflow the window is suspended (R200, R227). -/
def mapBucket (s : State) : State :=
  let (s, fired) := lbEvent s pMAP
  if fired then setHmw s false true else s

/-- The host enables its buffer: a fresh window key and an empty window over what the host granted (R196). -/
def hmwEnable (s : State) (granted : Nat) : State :=
  let n := granted / 8192
  let s := takeFree { s with map := { s.map with window := [], slots := n, windowKey := s.com.free } }
  setHmw s (bit (inForce s pMAP MAP_MAP_CFG) 0 && decide (n ≠ 0)) false

/-- The host disables its buffer, or HMW_EN is cleared: no further access (R200). -/
def hmwDisable (s : State) : State :=
  setHmw { s with map := { s.map with window := [], slots := 0 } } false false

/-- The slot that holds a segment. -/
def slotOf? (s : State) (k : Nat) : Option (Nat × WinSlot) :=
  s.map.window.find? fun w => w.2.handle * 2 ^ 40 + w.2.segment == k

/-- A filled segment refreshes its window slot, or takes the lowest free one (R192). -/
def refreshSlot (s : State) (k : Nat) : State :=
  if !hmwActive s then s
  else match slotOf? s k with
    | some (n, w) => { s with map := { s.map with window := s.map.window.put n { w with written := w.epoch, corrupt := false } } }
    | none =>
      match (List.range (s.map.window.length + 1)).find? fun n => (s.map.window.get? n).isNone with
      | some n =>
        if n < s.map.slots then
          { s with map := { s.map with window := s.map.window.put n ⟨k / 2 ^ 40, k % 2 ^ 40, 0, 0, false⟩ } }
        else s
      | none => s

/-! ### The DRAM map cache (R194) -/

/-- Segments the cache holds at most: CACHE_SIZE GiB of 512 entries (R193, R194). -/
def cacheMax (s : State) : Nat := (inF s pMAP MAP_CACHE_SIZE 7 0 + 1) * 262144

/-- Clean segments leave least recently used first while the cache is over its size; a dirty one never does (R194). -/
def evictTo (dirty : List Nat) : Nat → List Nat → List Nat
  | _, [] => []
  | above, k :: ks => if above ≠ 0 ∧ !dirty.contains k then evictTo dirty (above - 1) ks else k :: evictTo dirty above ks

/-- Bring segments into the cache as most recently used. -/
def cacheTouch (s : State) (ks : List Nat) : State :=
  let l := s.map.cached.filter (fun k => !ks.contains k) ++ ks
  { s with map := { s.map with cached := evictTo s.map.dirty (l.length - cacheMax s) l } }

/-! ### Lookup (R188, R192, R199, R215) -/

/-- Record how a lookup ended. -/
def lookupEnds (s : State) (h u : Nat) (t : LookupEnd) (e : BitVec 64) : State :=
  { s with map := { s.map with lastLookup := some (h, u, t, e) } }

/-- An invalid entry of the cache or of flash: MAP.FAULT CLASS UNCORRECTABLE, the bucket, and the fault log with namespace and unit (R188, R227). -/
def invalidEntry (s : State) (h u : Nat) (e : BitVec 64) : State :=
  let s := mapBucket (writeFault s pMAP .uncorrectable (Config.blockCause 9) (h % 65536))
  let ev : LogEvent := { kind := kFAULT, cls := FClass.uncorrectable.code, page := pMAP, cause := Config.blockCause 9, unit := h % 65536, address := u, detail := h }
  lookupEnds (logEvent s ev) h u .invalid e

/-- A tier gives an entry: it is checked, and a flash location pins its block (R188, R215). -/
def resolve (s : State) (h u : Nat) (t : LookupEnd) (e : BitVec 64) : State :=
  if !validEntry s h e then invalidEntry s h u e
  else if entT e then lookupEnds s h u .trimmed e
  else lookupEnds (pinBlock s (entDie e) (entBlock e)) h u t e

/-- Tier 4: the unit's map page is read from flash; a page never written makes its units trimmed (R192, R193). -/
def lookupFlash (s : State) (h u : Nat) : State :=
  let p := u / 2048
  let d := dirAt s h p
  if !hasLocation d then lookupEnds s h u .trimmed trimmed
  else
    let s := lookupEnds s h u .filling d
    if s.map.filling.contains (pageKey h p) then s
    else
      let s := { s with map := { s.map with filling := s.map.filling ++ [pageKey h p] } }
      let s := pinBlock s (entDie d) (entBlock d)
      queueRead s (entDie d) (entBlock d) (entPage d) (u / 512 % 4) .a (.mapPage h p)

/-- A corrupt window entry: HMW_CHECK_FAIL, the bucket and IRQ HMW_CHECK (R199). -/
def hmwCorrupt (s : State) : State := mapBucket (irq (bump s pMAP MAP_HMW_CHECK_FAIL 1) pMAP 2)

/-- Take one armed injection of the map walker. -/
def mapDisarm (s : State) (code : Nat) : State := { s with map := { s.map with inject := removeFirst (· == code) s.map.inject } }

/-- Tier 3: the window entry answers when its slot holds the segment, its epoch is current and it passes its checks; a stale or corrupt one falls to tier 4 (R199). -/
def lookupWindow (s : State) (h u : Nat) : State :=
  match (if hmwActive s then slotOf? s (segKey h u) else none) with
  | none => lookupFlash s h u
  | some (_, w) =>
    let inj := s.map.inject.contains 1
    let s := if inj then mapDisarm s 1 else s
    if w.written ≠ w.epoch then lookupFlash s h u
    else if w.corrupt || inj || !validEntry s h (entryAt s h u) then
      lookupFlash (if inj then injected s hmwCorrupt else hmwCorrupt s) h u
    else resolve s h u .window (entryAt s h u)

/-- The map walker resolves a unit of an existing namespace (R192). -/
def mapLookup (s : State) (h u : Nat) : State :=
  if (s.map.mu.get? h).isNone then s
  else match s.map.wb.find? fun w => w.handle == h && w.unit == u && w.redirect.isNone with
    | some _ => lookupEnds s h u .writeBuffer 0
    | none =>
      if s.map.cached.contains (segKey h u) then
        let s := cacheTouch s [segKey h u]
        if s.map.inject.contains 3 then
          injected (mapDisarm s 3) fun s => resolve s h u .cache (entryAt s h u ||| 1)
        else resolve s h u .cache (entryAt s h u)
      else lookupWindow s h u

/-- A map page arrives from flash: its four segments are cached and their window slots refreshed; one that cannot be recovered leaves its lookups without an answer (R192). -/
def pageFill (s : State) (h p : Nat) (recovered : Bool) : State :=
  if !s.map.filling.contains (pageKey h p) then s
  else
    let s := { s with map := { s.map with filling := s.map.filling.filter (· != pageKey h p) } }
    if recovered then
      let ks := (List.range 4).map fun i => h * 2 ^ 40 + 4 * p + i
      ks.foldl refreshSlot (cacheTouch s ks)
    else setFault s pMAP .uncorrectable (Config.blockCause 10) (h % 65536)

/-! ### Write-back and checkpoints (R195, R205, R217, R243) -/

/-- Dirty segments of a map page. -/
def dirtyOf (s : State) (h p : Nat) : List Nat := s.map.dirty.filter fun k => k / 2 ^ 40 == h && k % 2 ^ 40 / 4 == p

/-- Map pages with a dirty segment, oldest first. -/
def dirtyPages (s : State) : List Nat := (s.map.dirty.map fun k => k / 2 ^ 40 * 2 ^ 40 + k % 2 ^ 40 / 4).eraseDups

/-- A checkpoint pass has written back all its pages: CHECKPOINT_MARK is journaled (R195, R202). -/
def checkpointStep (s : State) (done : Nat) : State :=
  match s.map.ckpt with
  | none => s
  | some ps =>
    let ps := ps.filter (· != done)
    if ps.isEmpty then (jIssue { s with map := { s.map with ckpt := none } } .mark).1
    else { s with map := { s.map with ckpt := some ps } }

/-- A dirty map page is written to a new location under Barchan protection and its DIR_UPDATE journaled; its segments turn clean when the record is durable (R195). -/
def writeBack (s : State) (h p : Nat) (loc : BitVec 64) : State :=
  if (dirtyOf s h p).isEmpty || mapStopped s || !copyCovered s loc then s
  else
    let e := mkEntry (entDie loc) (entBlock loc) (entPage loc) 0 256 0
    let (s, seq) := jIssue (packPage s) (.dirUpdate h p e)
    let s := setDir s h p e seq
    let s := { s with map := { s.map with cleaning := (s.map.cleaning.filter fun k => !(dirtyOf s h p).contains k) ++ dirtyOf s h p } }
    checkpointStep s (pageKey h p)

/-- A checkpoint pass of the map begins: ARG [31] = 1 takes every dirty page, otherwise the ARG [23:0] oldest; ARG = 0 does nothing (R195). -/
def mapCheckpoint (s : State) (arg : Word) : State :=
  if arg = 0 then s
  else
    let ps := if bit arg 31 then dirtyPages s else (dirtyPages s).take (fld arg 23 0)
    if ps.isEmpty then (if bit arg 31 then (jIssue s .mark).1 else s)
    else { s with map := { s.map with ckpt := some ps } }

/-- Does a stripe journal record belong to a stripe that is still in flight? (R242) -/
def sInFlight (s : State) (r : SRecord) : Bool :=
  match r.payload with
  | .stripeProg st _ => s.str.stripes.any fun o => stripeNo o.set o.page == st
  | .provParity st _ _ => s.str.stripes.any fun o => stripeNo o.set o.page == st
  | _ => false

/-- A checkpoint of the stripe engine: the set table is written, CHECKPOINT_MARK journaled, and the tail passes every record before the oldest stripe in flight (R243). -/
def strCheckpoint (s : State) (arg : Word) : State :=
  if !bit arg 31 then s
  else
    let s := sIssue s .mark
    let last := (rd s pSTR STR_SSEQ_ISSUED).toNat
    let keep := s.str.journal.dropWhile fun r => !sInFlight s r && r.seq != last
    let s := { s with str := { s.str with journal := keep } }
    match keep with
    | r :: _ => wr s pSTR STR_SSEQ_TAIL (w32 r.seq)
    | [] => s

/-- The map journal is at JOURNAL_HIGH percent or more (R195). -/
def jHigh (s : State) : Bool :=
  let h := inF s pMAP MAP_JOURNAL_HIGH 6 0
  decide (h ≠ 0) && decide (jUsed s ≥ jRingSize * h / 100)

/-- The stripe journal is 80 percent full or more (R243). -/
def sHigh (s : State) : Bool := decide (sUsed s ≥ sRingSize * 80 / 100)

/-! ### Garbage collection, migration and wear (R210, R218 to R222) -/

/-- Live units of a block: their entries. -/
def blockUnits (s : State) (d b : Nat) : List (BitVec 64) :=
  (s.map.entries.filter fun u => hasLocation u.2 && entDie u.2 == d && entBlock u.2 == b).map (·.2)

/-- The codewords of a page that an entry's slots touch, on its first page (R155, R185). -/
def entCodewords (e : BitVec 64) : List Nat :=
  let last := min 255 (entSlot e + entLen e - 1)
  (List.range 4).filter fun c => decide (entSlot e / 64 ≤ c) && decide (c ≤ last / 64)

/-- Class C reads of every live unit of a victim (R219 COPY). -/
def copyReads (s : State) (d b : Nat) : State :=
  (blockUnits s d b).foldl (fun s e =>
    let s := (entCodewords e).foldl (fun s c => queueRead s d b (entPage e) c .c (.gc d b)) s
    if spills e then
      (List.range (cdiv (entSlot e + entLen e - 256) 64)).foldl (fun s c => queueRead s d b (entPage e + 1) c .c (.gc d b)) s
    else s) s

/-- A CLOSED block becomes a victim: its BLOCK_STATE record is issued and its units are read (R218, R219). -/
def makeVictim (s : State) (d b : Nat) (migration : Bool) : State :=
  let s := issueBlockState s d b .victim fun e => e
  copyReads { s with map := { s.map with gc := s.map.gc ++ [⟨d, b, .copy, migration⟩] } } d b

/-- Wear retirement count of a die's type (R218, R227). -/
def retirePe (s : State) (d : Nat) : Nat := inF s pMAP (MAP_RETIRE_PE_1 + 4 * (dieBpc s d - 1)) 19 0

/-- Has the block reached the wear retirement count? A count of 0 never retires (R218, R227). -/
def wornOut (s : State) (d : Nat) (e : Bst) : Bool := decide (retirePe s d ≠ 0) && decide (e.eraseCount ≥ retirePe s d)

/-- Listed blocks that GC may select: CLOSED and not changing, on an in-service die (R212, R218). -/
def gcCandidates (s : State) : List (Nat × Nat × Bst) :=
  (s.map.bst.map fun e => (e.1 / 16384, e.1 % 16384, settle (jDurable s) e.2)).filter fun c =>
    c.2.2.state == .closed && c.2.2.changing.isNone && dieInService s c.1 && !c.2.2.floor

/-- Slots of a block in its mode. -/
def blockSlots (s : State) (d : Nat) (e : Bst) : Nat := max 1 (modePages s d e.slc * 256)

/-- The lowest LIVE in proportion to slots; ties go to the lowest die and block, the order of the list (R218). -/
def coldest? (s : State) : List (Nat × Nat × Bst) → Option (Nat × Nat × Bst)
  | [] => none
  | a :: as => match coldest? s as with
    | none => some a
    | some b => if b.2.2.live * blockSlots s a.1 a.2.2 < a.2.2.live * blockSlots s b.1 b.2.2 then some b else some a

/-- The victim that R218 picks: RELOCATE blocks first, then the blocks of evacuating dies (R250), then the coldest. -/
def gcPick? (s : State) : Option (Nat × Nat × Bst) :=
  let cs := gcCandidates s
  match cs.find? fun c => c.2.2.relocate with
  | some c => some c
  | none => match cs.find? fun c => s.str.evacuating.contains c.1 with
    | some c => some c
    | none => coldest? s cs

/-- GC selects a victim, or retires a worn block with nothing live (R218). -/
def gcSelect (s : State) : State :=
  if ferryRunning s || !jRoom s 32 then s
  else match gcPick? s with
    | none => s
    | some (d, b, e) => if wornOut s d e && e.live == 0 then retireBlock s d b else makeVictim s d b false

/-- Host part of the oasis share (R206, R210). -/
def oasisOver (s : State) : Bool :=
  let share := oasisShare s - floorBlocks s
  let start := inF s pMAP MAP_MIGRATE_START 6 0
  decide (oasisUsed s > share) || (decide (start ≠ 0) && decide (oasisUsed s * 100 > share * start))

/-- Migration takes an SLC block whose units move to native blocks (R210). A MIGRATE_START of 0 starts none. -/
def migrationStart (s : State) : State :=
  if ferryRunning s || !jRoom s 32 || !oasisOver s || decide (inF s pMAP MAP_MIGRATE_START 6 0 = 0) then s
  else match coldest? s ((gcCandidates s).filter fun c => c.2.2.slc) with
    | none => s
    | some (d, b, _) => makeVictim s d b true

/-- The CLOSED block of a die with the oldest CLOSE_STAMP becomes a victim when the erase counts spread over WL_DELTA (R222). -/
def staticWear (s : State) (d : Nat) : State :=
  let delta := inF s pMAP MAP_WL_DELTA 15 0
  let good := (listedBlocks s d).filter fun e => goodBlock e.2
  let counts := (good.map fun e => e.2.eraseCount) ++ (if (listedBlocks s d).length < dieBlocks s d then [0] else [])
  let spread := counts.foldl max 0 - counts.foldl min (counts.headD 0)
  if delta = 0 ∨ spread ≤ delta ∨ ferryRunning s ∨ !jRoom s 32 then s
  else match minBy? (fun c : Nat × Nat × Bst => c.2.2.closeStamp) ((gcCandidates s).filter fun c => c.1 == d) with
    | none => s
    | some (_, b, _) => makeVictim s d b false

/-- Is an erase of the block queued or running? -/
def eraseQueued (s : State) (d b : Nat) : Bool :=
  (dieOf s d).work.any fun w => match w with
    | .erase x _ => x == b
    | _ => false

/-- A block's state change takes effect (R212): what R216 makes FREEABLE is queued for its erase by the block state table, or retired if worn (R218, R219). -/
def blockStateChange (s : State) (d b : Nat) : State :=
  let s := settleBlock s d b
  let e := bstOf s d b
  if e.state == .freeable && !e.eraseIssued && !eraseQueued s d b && !ferryRunning s && dieInService s d then
    if wornOut s d e && !e.floor then retireBlock s d b
    else queueWork s d (.erase b (.block (BitVec.ofNat 12 pMAP)))
  else s

/-- The next 1 ms of throttled admission: what GC returned in the last one (R224). -/
def throttleWindow (s : State) : State :=
  { s with map := { s.map with lastReturned := s.map.returned, returned := 0, admitted := 0 } }

/-- May a host write of `n` bytes be admitted before step 2? (R224, R225) -/
def writeAdmitted (s : State) (n : Nat) : Bool :=
  !bit (rd s pMAP MAP_MEDIA_STATE) 1 || decide (s.map.admitted + n ≤ s.map.lastReturned)

/-! ### Format (R223, R249) -/

/-- Each die sets aside its spare blocks and its distributed reserve (R223, R249). -/
def setSpares (s : State) : State :=
  let dies := serviceDies s
  let good (d : Nat) : Nat := countBlocks s d goodBlock
  let share := inF s pMAP MAP_SPARE_SHARE 5 0
  let rsv := inF s pSTR STR_SPARE_RSV 5 0
  let s := { s with
    map := { s.map with spare := dies.foldl (fun (t : Tab Nat) d => t.put d (good d * share / 256)) [] }
    str := { s.str with reserve := dies.foldl (fun (t : Tab Nat) d => t.put d (good d * rsv / 256)) [] } }
  let s := wr s pMAP MAP_SPARE_INITIAL (w32 (spareLeft s))
  refreshPool s

/-! ### The MAP page (R211, R227, R228) -/

/-- BST_SEL is written: BST_W0 to BST_W3 load (R211, R227). -/
def bstSelect (s : State) (v : Word) : State :=
  let e := bstOf s (fld v 25 16) (fld v 13 0)
  let s := wr s pMAP MAP_BST_SEL (v &&& 0x03FF3FFF)
  let s := wr s pMAP MAP_BST_W0 (w32 (bstW0 e))
  let s := wr s pMAP (MAP_BST_W0 + 4) (w32 (e.live % 2 ^ 21))
  let s := wr s pMAP (MAP_BST_W0 + 8) (w32 e.jseqLast)
  wr s pMAP (MAP_BST_W0 + 12) (w32 (e.pins * 65536 + e.closeStamp))

/-- MAP.ERR_INJECT: codes 1 and 3 are armed; code 2 queues an ERASE of the BST_SEL block, which the interlock refuses unless it is FREEABLE (R227). -/
def mapInject (s : State) (code : Nat) : State :=
  let d := rdF s pMAP MAP_BST_SEL 25 16
  let b := rdF s pMAP MAP_BST_SEL 13 0
  let by_ : Initiator := .block (BitVec.ofNat 12 pMAP)
  match code with
  | 1 => { s with map := { s.map with inject := s.map.inject ++ [1] } }
  | 2 =>
    if (bstOf s d b).state == .freeable then queueWork s d (.erase b by_)
    else injected s fun s => issueErase (admitUnit s (diePage d)) d b by_ (dieOf s d)
  | 3 => { s with map := { s.map with inject := s.map.inject ++ [3] } }
  | _ => s

/-- Commit check of `MAP` (R228). -/
def checkMap (s : State) (applyMode : Nat) : List (Nat × Nat) :=
  let f (o hi lo : Nat) := rdF s pMAP o hi lo
  let nsExists := !s.map.mu.isEmpty
  let changed (o : Nat) : Bool := rd s pMAP o != inForce s pMAP o
  let half := dramTop s / 2
  (if f MAP_OP_SHARE 7 0 > 128 then [(MAP_OP_SHARE, 1)] else [])
  ++ (if f MAP_SPARE_SHARE 5 0 > 32 then [(MAP_SPARE_SHARE, 1)] else [])
  ++ (if f MAP_RESERVE_EXTRA 5 0 > 62 then [(MAP_RESERVE_EXTRA, 1)] else [])
  ++ (if f MAP_MIGRATE_START 6 0 > 100 then [(MAP_MIGRATE_START, 1)] else [])
  ++ (if f MAP_JOURNAL_HIGH 6 0 > 95 then [(MAP_JOURNAL_HIGH, 1)] else [])
  ++ (if f MAP_RELOC_RETRY 3 0 > 8 then [(MAP_RELOC_RETRY, 1)] else [])
  ++ (if f MAP_MAP_CFG 5 4 ≥ 2 then [(MAP_MAP_CFG, 2)] else [])
  ++ (if nsExists && changed MAP_OP_SHARE then [(MAP_OP_SHARE, 3)] else [])
  ++ (if nsExists && changed MAP_SPARE_SHARE then [(MAP_SPARE_SHARE, 3)] else [])
  ++ (if changed MAP_WB_SIZE && decide (applyMode ≠ 1) then [(MAP_WB_SIZE, 3)] else [])
  ++ (if (f MAP_CACHE_SIZE 7 0 + 1) * 2 ^ 30 + 2 * (f MAP_WB_SIZE 2 0 + 1) * 2 ^ 28 > half then [(MAP_CACHE_SIZE, 3)] else [])

/-- What an apply of `MAP` does beside the copy: clearing HMW_EN stops the window (R228). -/
def applyMap (s : State) : State :=
  let s := if bit (inForce s pMAP MAP_MAP_CFG) 0 then s else setHmw s false (bit (rd s pMAP MAP_HMW_STATUS) 1)
  refreshPool (refreshFill s)

end Sys2Proof.Machine
end

