-- ==== Sys2Proof/Machine/Fabric.lean ====
section
/-! DEFINITION. The device address space as the fabric sees it: regions, initiator rights, refusals, outbound windows and the memory accesses of engines (R36 to R44, R292, R312, R321, R607). -/

namespace Sys2Proof.Machine

/-- What an address reaches (R36). -/
inductive Target where
  | rom (off : Nat)
  | landing (off : Nat)
  | page (p off : Nat)
  | mram (off : Nat)
  | dram (off : Nat)
  /-- Host Memory Buffer view, with the PCIe address. -/
  | hmb (pci : Nat)
  /-- An outbound window of a port, with the PCIe address. -/
  | window (port : Bool) (pci : Nat)
  | unmapped
  deriving DecidableEq, Repr

/-- PCIe address of an offset into the Host Memory Buffer (R41). -/
def hmbAddr : List (Nat × Nat) → Nat → Option Nat
  | [], _ => none
  | (a, n) :: ds, off => if off < n then some (a + off) else hmbAddr ds (off - n)

/-- Does an outbound window translate an address? Its PCIe address (R111). -/
def windowHit (s : State) (p n a : Nat) : Option Nat :=
  let ctrl := inForce s p (HF_OBW_CTRL + 16 * n)
  let base := inF s p (HF_OBW_BASE + 16 * n) 27 0 * 2 ^ 20
  let size := 2 ^ fld ctrl 5 0
  if bit ctrl 31 && decide (base ≤ a) && decide (a < base + size) then
    some ((inForce s p (HF_OBW_PCI_HI + 16 * n)).toNat * 2 ^ 32 + inF s p (HF_OBW_PCI_LO + 16 * n) 31 20 * 2 ^ 20 + (a - base))
  else none

/-- The window of a port that an address hits (R42). -/
def portWindow (s : State) (port : Bool) (a : Nat) : Option Nat :=
  (List.range 32).findSome? fun n => windowHit s (pHF port) n a

/-- What an address reaches; the MRAM rotation reserve is unmapped, and in the x16 configuration every window belongs to port A (R36 to R42, R323, R607). -/
def targetOf (s : State) (a : Nat) : Target :=
  if a < 0x40000 then .rom a
  else if 0x4000000 ≤ a ∧ a < 0x8000000 then .landing (a - 0x4000000)
  else if 0xF0000000 ≤ a ∧ a < 0xF1000000 then .page ((a - 0xF0000000) / 4096) ((a - 0xF0000000) % 4096)
  else if 0x100000000 ≤ a ∧ a < 0x108000000 then
    (if 0x106900000 ≤ a then .unmapped else .mram (a - 0x100000000))
  else if 0x1000000000 ≤ a ∧ a < 0x9000000000 then
    (if a - 0x1000000000 < dramTop s then .dram (a - 0x1000000000) else .unmapped)
  else if 0x10000000000 ≤ a ∧ a < 0x20000000000 then
    match hmbAddr s.com.hmb (a - 0x10000000000) with
    | some x => .hmb x
    | none => .unmapped
  else if 0x20000000000 ≤ a ∧ a < 2 ^ 48 then
    match portWindow s false a with
    | some x => .window false x
    | none =>
      if s.com.chip.split then
        match portWindow s true a with
        | some x => .window true x
        | none => .unmapped
      else .unmapped
  else .unmapped

/-- Is the address in a region that R36 lists, whatever lies there? -/
def inHostRegion (a : Nat) : Bool := decide (0x10000000000 ≤ a)

/-- Which rights a hardware block has: queue engine and host ports, the engines that follow descriptors, the media blocks, or none (R43). -/
inductive BlockClass where
  | queue | byDescriptor | media | other
  deriving DecidableEq, Repr

/-- Class of a hardware block by its page. -/
def blockClass (p : Nat) : BlockClass :=
  if p = 0x014 ∨ p = 0x012 ∨ p = 0x013 then .queue
  else if (0x040 ≤ p ∧ p < 0x050) ∨ (0x050 ≤ p ∧ p < 0x054) then .byDescriptor
  else if p = 0x00C ∨ p = 0x00D ∨ (0x100 ≤ p ∧ p < 0x140) then .media
  else .other

/-- May the initiator use the region? (R43) `op` is 0 for a read, 1 for a write, 2 for a fetch. -/
def permitted (who : Initiator) (op : Nat) (t : Target) : Bool :=
  match who, t with
  | .sp _, .rom _ => op != 1
  | .sp _, _ => true
  | .crew _ _, .rom _ => false
  | .crew _ _, _ => true
  | .passenger _ _, .landing _ => true
  | .passenger _ _, .page _ _ => true
  | .passenger _ _, .dram _ => true
  | .passenger _ _, _ => false
  | .block p, t =>
    match blockClass p.toNat, t with
    | .queue, .landing _ => true
    | .queue, .hmb _ => true
    | .queue, .window _ _ => true
    | .byDescriptor, .landing _ => true
    | .byDescriptor, .dram _ => true
    | .byDescriptor, .hmb _ => true
    | .byDescriptor, .window _ _ => true
    | .media, .landing _ => true
    | .media, .mram _ => true
    | .media, .dram _ => true
    | .media, .hmb _ => true
    | _, _ => false
  | .host, _ => false

/-- Is the domain of the target on and unclamped? For DRAM it is that of the channel that serves the line (R44, R292). -/
def targetUp (s : State) : Target → Bool
  | .rom _ => domainUp s 1
  | .landing _ => domainUp s 7
  | .page p _ => pageUp s p
  | .mram _ => domainUp s 7
  | .dram off => domainUp s (18 + dramChannel s off / 4)
  | .hmb _ => domainUp s 4
  | .window port _ => domainUp s (if port then 5 else 4)
  | .unmapped => true

/-- An access of `n` bytes has the wrong width or alignment for its region (R312, R321). -/
def badWidth (t : Target) (n : Nat) : Bool :=
  match t with
  | .landing off => decide (off / 64 ≠ (off + (n - 1)) / 64)
  | .mram off => decide (off / 8 ≠ (off + (n - 1)) / 8)
  | _ => false

/-- Why the fabric refuses a memory access: the lowest cause of R607, or none. -/
def memRefusal (s : State) (who : Initiator) (op a n : Nat) : Option Nat :=
  let t := targetOf s a
  if t = .unmapped then some cUNMAPPED
  else if !permitted who op t then some cNOT_PERMITTED
  else if !targetUp s t then some cDOMAIN_OFF
  else if badWidth t n then some cWIDTH
  else none

/-- PAGE of a refusal made at the fabric (R606). -/
def refusalPage (a : Nat) : Nat := if 0xF0000000 ≤ a ∧ a < 0xF1000000 then (a - 0xF0000000) / 4096 else pFLT

/-- Refuse an access at the fabric: recorded and answered (R44). -/
def refuse (s : State) (who : Initiator) (op a cause : Nat) : State × Answer :=
  (recordRefusal s who (refusalPage a) a cause (if op = 1 then 1 else if op = 0 then 2 else 4), .refused cause)

/-- Send bytes to the host (R42). -/
def sendOut (s : State) (pci : Nat) (bytes : List Byte) : State :=
  { s with com := { s.com with outbox := s.com.outbox ++ [(pci, bytes)] } }

/-- Read from a memory region; register pages are read elsewhere. `host` is what the host's memory answers. -/
def memReadAt (s : State) (t : Target) (n : Nat) (host : List Byte) : State × Answer :=
  let ret (r : State × Option (List Byte)) : State × Answer :=
    match r.2 with
    | some b => (r.1, .data b)
    | none => (r.1, .uncorrectable)
  match t with
  | .rom off => (s, .data ((List.range n).map fun i => Config.bootRom (off + i)))
  | .landing off => ret (lndRead s off n)
  | .mram off => ret (mramGet s off n)
  | .dram off => ret (dramRead s off n)
  | .hmb _ => (s, .data (host.take n ++ List.replicate (n - host.length) 0))
  | .window _ _ => (s, .data (host.take n ++ List.replicate (n - host.length) 0))
  | _ => (s, .none)

/-- Write a memory region. -/
def memWriteAt (s : State) (t : Target) (bytes : List Byte) : State × Answer :=
  match t with
  | .landing off => (lndWrite s off bytes, .ack)
  | .mram off => mramWrite s off bytes
  | .dram off => (dramWrite s off bytes, .ack)
  | .hmb pci => (sendOut s pci bytes, .ack)
  | .window _ pci => (sendOut s pci bytes, .ack)
  | _ => (s, .none)

/-- One memory read of an initiator (R43, R44). -/
def memRead (s : State) (who : Initiator) (a n : Nat) (host : List Byte) : State × Answer :=
  match memRefusal s who 0 a n with
  | some c => refuse s who 0 a c
  | none => memReadAt s (targetOf s a) n host

/-- One memory write of an initiator (R43, R44). -/
def memWrite (s : State) (who : Initiator) (a : Nat) (bytes : List Byte) : State × Answer :=
  match memRefusal s who 1 a bytes.length with
  | some c => refuse s who 1 a c
  | none => memWriteAt s (targetOf s a) bytes

/-- The pieces of an engine's transfer: lines of 64 bytes, or words of 8 on MRAM (R312, R321). -/
def linePieces (s : State) (a n : Nat) : List (Nat × Nat) :=
  let size := match targetOf s a with
    | .mram _ => 8
    | _ => 64
  (wordPieces size (n + 1) a n).map fun p => (p.1 * size + p.2.1, p.2.2)

/-- What an engine's read of many bytes gives. -/
inductive Bulk where
  | ok (bytes : List Byte)
  | uncorrectable
  | refused (cause : Nat)
  deriving DecidableEq, Repr

/-- An engine reads `n` bytes, line by line; the first failure ends it. -/
def bulkRead (s : State) (who : Initiator) (a n : Nat) (host : List Byte) : State × Bulk :=
  (linePieces s a n).foldl (fun acc p =>
    match acc.2 with
    | .ok out =>
      match memRead acc.1 who p.1 p.2 (host.drop (p.1 - a)) with
      | (s, .data b) => (s, .ok (out ++ b))
      | (s, .uncorrectable) => (s, .uncorrectable)
      | (s, .refused c) => (s, .refused c)
      | (s, _) => (s, .ok out)
    | _ => acc) (s, .ok [])

/-- An engine writes many bytes, line by line; a refusal ends it and is answered. -/
def bulkWrite (s : State) (who : Initiator) (a : Nat) (bytes : List Byte) : State × Option Nat :=
  let r := (linePieces s a bytes.length).foldl (fun (acc : State × Option Nat × List Byte) p =>
    match acc.2.1 with
    | some c => (acc.1, some c, acc.2.2)
    | none =>
      match memWrite acc.1 who p.1 (acc.2.2.take p.2) with
      | (s, .refused c) => (s, some c, acc.2.2)
      | (s, _) => (s, none, acc.2.2.drop p.2)) (s, none, bytes)
  (r.1, r.2.1)

end Sys2Proof.Machine
end

