-- ==== Sys2Proof/Machine/Keys.lean ====
section
/-! DEFINITION. The key store, the random generator, and the digest engines (R465 to R490). -/

namespace Sys2Proof.Machine

/-! ### Free bytes -/

/-- `n` bytes of a fresh free value, such as DRBG output (R480). -/
def takeBytes (s : State) (n : Nat) : State × List Byte :=
  (takeFree s, (List.range n).map fun i => Config.freeByte s.com.free i)

/-- A list cut or filled with zeros to `n` bytes. -/
def fit (n : Nat) (l : List Byte) : List Byte := (l ++ List.replicate (n - l.length) 0).take n

/-! ### Slots (R465 to R468) -/

/-- A slot; unlisted is EMPTY. -/
def slotOf (s : State) (k : Nat) : KeySlot := s.key.slots.getD k KeySlot.fresh

/-- Is it one of the 16 fixed slots, always resident and counted as pinned? (R467) -/
def fixedSlot (k : Nat) : Bool := decide (0xFFF0 ≤ k)

/-- Is the slot resident? -/
def isResident (s : State) (k : Nat) : Bool := fixedSlot k || s.key.resident.contains k

/-- Pinned slots, the fixed ones included. -/
def pinnedCount (s : State) : Nat := 16 + (s.key.slots.filter fun e => e.2.pin && !fixedSlot e.1).length

/-- RESIDENT follows the store (R489). -/
def refreshKeys (s : State) : State :=
  wr s pKEY KEY_RESIDENT (w32 (min 0x1FFF (pinnedCount s) * 65536 + min 0x1FFF (16 + s.key.resident.length)))

/-- Set a slot. -/
def putSlot (s : State) (k : Nat) (x : KeySlot) : State :=
  refreshKeys { s with key := { s.key with slots := s.key.slots.putD k x KeySlot.fresh } }

/-- WRAP_BASE as a device address; 0 for no wrap area (R467). -/
def wrapBase (s : State) : Nat := inF s pKEY KEY_WRAP_BASE 27 0 * 2 ^ 20

/-- Offset of a slot's wrapped record in the DRAM window (R36, R467). -/
def wrapOff (s : State) (k : Nat) : Nat := wrapBase s - 0x1000000000 + 96 * k

/-- The 88 bytes of a record (R466). -/
def recordOf (x : KeySlot) : List Byte :=
  let st := match x.state with
    | .empty => 0
    | .valid => 1
    | .rotate => 2
  bytesLE 1 (st + (if x.persist then 16 else 0) + (if x.locked then 32 else 0) + (if x.pin then 64 else 0))
    ++ bytesLE 1 x.type ++ bytesLE 1 x.use ++ bytesLE 1 x.klen ++ bytesLE 2 x.tenant ++ bytesLE 2 x.gen
    ++ bytesLE 4 x.fixed ++ bytesLE 4 0 ++ bytesLE 8 x.counter ++ fit 64 x.key

/-- Wrap a slot into its place in DRAM (R467). -/
def wrapSlot (s : State) (k : Nat) : State :=
  let s := dramWrite s (wrapOff s k) (fit 96 (Config.keyWrap s.key.wrapKey (recordOf (slotOf s k))))
  { s with key := { s.key with slots := s.key.slots.putD k { slotOf s k with dirty := false } KeySlot.fresh } }

/-- The least recently used unpinned resident slot leaves, rewrapped first if it has changed (R467). -/
def evictSlot (s : State) : State :=
  if s.key.resident.length + 16 < 4096 then s
  else match s.key.resident.find? fun k => !(slotOf s k).pin with
    | none => s
    | some k =>
      let s := if (slotOf s k).dirty then wrapSlot s k else s
      { s with key := { s.key with resident := s.key.resident.filter (· != k) } }

/-- A failed unwrap: the slot is unusable, IRQ WRAP_FAIL, and the bucket counts it (R467, R489). -/
def wrapFail (s : State) (k : Nat) : State :=
  (lbEvent (irq (putSlot s k { slotOf s k with broken := true }) pKEY 2) pKEY).1

/-- Bring a slot in: its OP_STATUS is 0, NO_ROOM with no wrap area, or WRAP_FAIL (R467, R470). A resident slot becomes the most recently used. -/
def unwrapSlot (s : State) (k : Nat) (intact : Bool) : State × Nat :=
  if fixedSlot k then (s, 0)
  else if s.key.resident.contains k then
    ({ s with key := { s.key with resident := s.key.resident.filter (· != k) ++ [k] } }, 0)
  else if wrapBase s = 0 then (s, 4)
  else
    let s := evictSlot s
    let s := bump s pKEY KEY_UNWRAPS 1
    let inj := s.key.failUnwrap
    let s := { s with key := { s.key with failUnwrap := false } }
    let (s, b) := if (slotOf s k) = KeySlot.fresh then (s, some []) else dramRead s (wrapOff s k) 96
    if inj then (injected s fun s => wrapFail s k, 6)
    else if b.isNone || !intact || (slotOf s k).broken then (wrapFail s k, 6)
    else (refreshKeys { s with key := { s.key with resident := s.key.resident ++ [k] } }, 0)

/-! ### KOP (R470) -/

/-- The record the window registers spell (R466, R489). -/
def windowSlot (s : State) : KeySlot :=
  let a (i : Nat) := rd s pKEY (KEY_KATTR0 + 4 * i)
  let st := fld (a 0) 1 0
  let kd := (List.range 16).flatMap fun i => bytesLE 4 (rd s pKEY (KEY_KDATA0 + 4 * i)).toNat
  { state := if st = 1 then .valid else if st = 2 then .rotate else .empty
    persist := bit (a 0) 4, locked := bit (a 0) 5, pin := false
    type := fld (a 0) 15 8, use := fld (a 0) 23 16, klen := fld (a 0) 31 24
    tenant := fld (a 1) 15 0, gen := 0, fixed := (a 2).toNat
    counter := (join64 (rd s pKEY KEY_KCTR_HI) (rd s pKEY KEY_KCTR_LO)).toNat
    key := kd, dirty := true, broken := false }

/-- KLEN allowed for a TYPE (R466). -/
def klenFits (type klen : Nat) : Bool :=
  match type with
  | 1 => klen == 64
  | 2 => klen == 32
  | 3 => decide (16 ≤ klen) && decide (klen ≤ 64)
  | 4 => klen == 16
  | _ => false

/-- USE allowed for a TYPE (R466). -/
def useFits (type use : Nat) : Bool := if type ≤ 2 then decide (use ≤ 3) else use == 4

/-- Is the record allowed in the slot: reserved values, KLEN, USE and the media slots' TYPE (R465, R466, R470)? -/
def recordFits (k : Nat) (stateCode : Nat) (x : KeySlot) : Bool :=
  stateCode != 3 && decide (1 ≤ x.type) && decide (x.type ≤ 4) && klenFits x.type x.klen && useFits x.type x.use
    && (decide (0x400 ≤ k) || x.type == 1)

/-- Equal XTS halves are refused (R470). -/
def xtsHalvesEqual (x : KeySlot) : Bool := x.type == 1 && x.key.take 32 == (x.key.drop 32).take 32

/-- Is the slot reserved to the security processor or to hardware? (R465) -/
def reservedSlot (k : Nat) : Bool := decide (k < 0x400) || fixedSlot k

/-- DRBG_SEEDED (R481). -/
def drbgSeeded (s : State) : Bool := bit (rd s pKEY KEY_RNG_STATUS) 1

/-- KSTATUS shows RESIDENT and OP_STATUS (R489). -/
def kopEnds (s : State) (k st : Nat) : State := wr s pKEY KEY_KSTATUS (w32 ((if isResident s k then 256 else 0) + st))

/-- KDATA is zeroised after every LOAD (R470). -/
def clearKdata (s : State) : State := (List.range 16).foldl (fun s i => wr s pKEY (KEY_KDATA0 + 4 * i) 0) s

/-- A slot enters ROTATE: IRQ ROTATE, and ROTATE_NEXT keeps the oldest since its last read (R479, R489). -/
def toRotate (s : State) (k : Nat) : State :=
  let s := irq (putSlot s k { slotOf s k with state := .rotate, dirty := true }) pKEY 0
  if rdF s pKEY KEY_ROTATE_NEXT 15 0 = 0xFFFF then wr s pKEY KEY_ROTATE_NEXT (w32 k) else s

/-- The generation rises by 1 (R466). -/
def nextGen (x : KeySlot) : Nat := (x.gen + 1) % 65536

/-- The window key that the last enable drew goes into slot 0xFFF0: an AES-128-CMAC key of the device's own (R196, R465, R466). -/
def windowKeyLoad (s : State) : State :=
  let x := slotOf s 0xFFF0
  putSlot s 0xFFF0 { KeySlot.fresh with
    state := .valid, pin := x.pin, type := 4, use := 4, klen := 16, tenant := 0xFFFE, gen := nextGen x
    key := (List.range 16).map fun i => Config.freeByte s.map.windowKey i, dirty := true }

/-- The window is enabled with its fresh key; while the generator is unseeded it cannot be (R196, R481). -/
def hmwOpen (s : State) (granted : Nat) : State := if drbgSeeded s then windowKeyLoad (hmwEnable s granted) else s

/-- The effect of a KOP on a slot that is in: its OP_STATUS (R470). -/
def kopEffect (s : State) (k op : Nat) : State × Nat :=
  let x := slotOf s k
  let w := windowSlot s
  let live := x.state != .empty
  let store (s : State) (y : KeySlot) : State := putSlot s k { y with gen := nextGen x, pin := x.pin, dirty := true }
  match op with
  | 1 =>
    let r := recordOf x
    let word (i : Nat) : Word := w32 (ofBytesLE ((r.drop (4 * i)).take 4))
    let s := (List.range 4).foldl (fun s i => wr s pKEY (KEY_KATTR0 + 4 * i) (word i)) s
    (wr (wr s pKEY KEY_KCTR_LO (word 4)) pKEY KEY_KCTR_HI (word 5), 0)
  | 2 => if x.state = .valid then (s, 3) else (store s { w with key := w.key.take w.klen }, 0)
  | 3 =>
    if x.state = .valid then (s, 3)
    else if !drbgSeeded s then (s, 5)
    else
      let (s, kb) := takeBytes s w.klen
      let (s, fb) := takeBytes s 4
      (store { s with key := { s.key with requests := s.key.requests + 1 } } { w with key := kb, fixed := ofBytesLE fb }, 0)
  | 4 => (putSlot s k { x with state := .empty, key := [], locked := false, pin := false, gen := nextGen x, dirty := true }, 0)
  | 5 =>
    if !live then (s, 3)
    else if pinnedCount s ≥ 3840 ∧ !x.pin then (s, 4)
    else (putSlot s k { x with pin := true, dirty := true }, 0)
  | 6 => if !live then (s, 3) else (putSlot s k { x with pin := false, dirty := true }, 0)
  | 7 => if !live then (s, 3) else (putSlot s k { x with locked := true, dirty := true }, 0)
  | 8 => if !live then (s, 3) else (putSlot s k { x with locked := false, dirty := true }, 0)
  | 9 => if x.state = .valid then (toRotate s k, 0) else (s, 3)
  | _ => (s, 1)

/-- A write of KOP acts on the slot KSEL names (R470). A refused operation leaves the slot unchanged. -/
def kop (s : State) (who : Initiator) (op : Nat) : State :=
  let k := rdF s pKEY KEY_KSEL 15 0
  let w := windowSlot s
  let code := rdF s pKEY KEY_KATTR0 1 0
  let writes := decide (2 ≤ op)
  let loads := op == 2 || op == 3
  let t :=
    if op = 0 ∨ op > 9 ∨ (loads = true ∧ (recordFits k code w = false ∨ (op = 2 ∧ xtsHalvesEqual w = true))) then kopEnds s k 1
    else if writes && reservedSlot k && !who.isSp then kopEnds s k 2
    else if ferryRunning s then kopEnds s k 7
    else
      let (s, st) := unwrapSlot s k true
      if st ≠ 0 then kopEnds s k st
      else
        let (s, st) := kopEffect s k op
        kopEnds s k st
  if op = 2 then clearKdata t else t

/-- Why a stage may not use its slot: the DETAIL of R471, or none. -/
def slotRefusal (s : State) (k type use : Nat) (gcmEncrypt : Bool) (tenant : Nat) (passenger : Bool) (gen : Option Nat) : Option Nat :=
  let x := slotOf s k
  if x.broken then some 0x36
  else if x.state = .empty ∨ x.locked then some 0x31
  else if !isResident s k then some 0x36
  else if x.state = .rotate ∧ gcmEncrypt then some 0x32
  else if x.type ≠ type ∨ x.use &&& use = 0 then some 0x33
  else if (x.tenant ≠ tenant ∧ x.tenant ≠ 0xFFFF) ∨ (x.tenant = 0xFFFE ∧ passenger) then some 0x34
  else if gen.any (· != x.gen) then some 0x35
  else none

/-- A job ends KEY_INVALID: KEY_DENIED counts it (R471, R489). -/
def keyDenied (s : State) : State := bumpSince (bump s pKEY KEY_KEY_DENIED 1) pKEY KEY_SNAP_DENIED 1

/-- Has the generator been seeded since PD09 came on? No cipher job starts before; later a failed reseed leaves MASK_STALE set and stops none (R481). -/
def firstSeeded (s : State) : Bool := drbgSeeded s || bit (rd s pKEY KEY_RNG_STATUS) 2

/-- Draw a GCM counter (R479): none when the slot is exhausted, which turns it to ROTATE. -/
def gcmDraw (s : State) (k : Nat) : State × Option Nat :=
  let x := slotOf s k
  if x.counter = 2 ^ 64 - 1 then (toRotate s k, none)
  else
    let c := x.counter + 1
    let s := putSlot s k { x with counter := c, dirty := true }
    let s := if c ≥ 2 ^ 64 - 2 ^ inF s pKEY KEY_NONCE_WARN 5 0 then irq s pKEY 1 else s
    (s, some x.counter)

/-- A job or operation that waits for a slot's unwrap gets it (R467). -/
def keyUnwrap (s : State) (k : Nat) (intact : Bool) : State :=
  if isResident s k then s else (unwrapSlot s k intact).1

/-! ### Power (R469) -/

/-- Every slot that is not EMPTY is wrapped, and the key keep is written (R469). -/
def keySuspend (s : State) : State :=
  if wrapBase s = 0 then s
  else
    let live := (s.key.slots.filter fun e => e.2.state != .empty && isResident s e.1).map (·.1)
    let s := live.foldl wrapSlot s
    { s with key := { s.key with keep := some s.key.resident } }

/-- PD09 returns: with a key keep, the fixed and the pinned slots are resident again and the keep is cleared (R469); without one the store starts empty under a fresh wrapping key (R467). -/
def keyRestore (s : State) : State :=
  match s.key.keep with
  | some res =>
    let pins := res.filter fun k => (slotOf s k).pin
    refreshKeys { s with key := { s.key with resident := pins, keep := none } }
  | none => refreshKeys (takeFree { s with key := { s.key with slots := [], resident := [], wrapKey := s.com.free } })

/-! ### Randomness (R480, R481) -/

/-- A health test fails: ENTROPY_FAIL, SOURCE_OK 0, the failure count, the bucket and a fault log entry (R481). -/
def entropyFail (s : State) : State :=
  let s := irq (wrB s pKEY KEY_RNG_STATUS 0 false) pKEY 3
  let s := bumpF s pKEY KEY_RNG_STATUS 31 16 1
  let s := (lbEvent s pKEY).1
  setFault s pKEY .transient (Config.blockCause 7) 0

/-- A reseed falls due: the DRBG reseeds, or becomes unseeded while the source fails (R480, R481). -/
def drbgReseed (s : State) : State :=
  if bit (rd s pKEY KEY_RNG_STATUS) 0 then
    takeFree { wrB (wrB s pKEY KEY_RNG_STATUS 1 true) pKEY KEY_RNG_STATUS 2 false with key := { s.key with requests := 0 } }
  else irq (wrB (wrB s pKEY KEY_RNG_STATUS 1 false) pKEY KEY_RNG_STATUS 2 true) pKEY 4

/-- The source recovers and the DRBG reseeds at once (R481). -/
def entropyRecover (s : State) : State := drbgReseed (wrB s pKEY KEY_RNG_STATUS 0 true)

/-- A read of RNG_OUT: 32 bits of DRBG output, 0 while unseeded (R489). -/
def rngOut (s : State) : State × Word :=
  if drbgSeeded s then (takeFree { s with key := { s.key with requests := s.key.requests + 1 } }, Config.freeWord s.com.free) else (s, 0)

/-- KEY.ERR_INJECT (R489). -/
def keyInject (s : State) (code : Nat) : State :=
  match code with
  | 1 => { s with key := { s.key with failUnwrap := true } }
  | 2 => injected s entropyFail
  | 3 => let k := rdF s pKEY KEY_KSEL 15 0; putSlot s k { slotOf s k with counter := 2 ^ 64 - 2, dirty := true }
  | _ => s

/-- Commit check of `KEY` (R490). -/
def checkKey (s : State) : List (Nat × Nat) :=
  let ri := rdF s pKEY KEY_RESEED_INTERVAL 13 0
  let nw := rdF s pKEY KEY_NONCE_WARN 5 0
  let wb := rdF s pKEY KEY_WRAP_BASE 27 0 * 2 ^ 20
  let changed := rd s pKEY KEY_WRAP_BASE != inForce s pKEY KEY_WRAP_BASE
  let away := s.key.slots.any fun e => !isResident s e.1 && (e.2.state != .empty || e.2.locked)
  (if ri = 0 ∨ ri > 10000 then [(KEY_RESEED_INTERVAL, 1)] else [])
  ++ (if nw = 0 then [(KEY_NONCE_WARN, 1)] else [])
  ++ (if wb ≠ 0 ∧ (wb < 0x1000000000 ∨ wb + 6 * 2 ^ 20 > 0x1000000000 + dramTop s) then [(KEY_WRAP_BASE, 1)] else [])
  ++ (if changed && away then [(KEY_WRAP_BASE, 3)] else [])

/-! ### Digests (R482 to R484) -/

/-- Block bytes of an algorithm; 0 for a reserved code (R482). -/
def digestBlock (alg : Nat) : Nat :=
  match alg with
  | 0x01 => 64 | 0x02 => 128 | 0x03 => 128 | 0x04 => 136 | 0x05 => 104 | 0x06 => 72 | 0x07 => 168 | 0x08 => 136
  | 0x11 => 64 | 0x12 => 128 | 0x13 => 128 | _ => 0

/-- Result bytes of an algorithm in a caravan job (R482). -/
def digestLen (alg : Nat) : Nat :=
  match alg with
  | 0x01 => 32 | 0x02 => 48 | 0x03 => 64 | 0x04 => 32 | 0x05 => 48 | 0x06 => 64 | 0x07 => 32 | 0x08 => 64
  | 0x11 => 32 | 0x12 => 48 | 0x13 => 64 | _ => 0

/-- Is it one of the HMAC codes? -/
def isHmac (alg : Nat) : Bool := decide (0x11 ≤ alg) && decide (alg ≤ 0x13)

/-- Absorb whole blocks: state, bytes absorbed and the rest. `fuel` bounds the blocks. -/
def absorbBlocks (alg : Nat) : Nat → List Byte → Nat → List Byte → List Byte × Nat × List Byte
  | 0, h, c, d => (h, c, d)
  | fuel + 1, h, c, d =>
    let n := digestBlock alg
    if n = 0 ∨ d.length < n then (h, c, d)
    else absorbBlocks alg fuel (fit 200 (Config.digestAbsorb alg h (d.take n))) (c + n) (d.drop n)

/-- A whole message's digest (R482). -/
def digestOf (alg : Nat) (msg : List Byte) (len : Nat) : List Byte :=
  let (h, c, t) := absorbBlocks alg msg.length (fit 200 (Config.digestInit alg)) 0 msg
  fit len (Config.digestFinish alg h c t len)

/-! ### Digest engines (R485 to R488) -/

/-- An engine beside its page. -/
def dgeOf (s : State) (n : Nat) : Digest := s.key.dge.getD n Digest.idle

/-- Set an engine. -/
def putDge (s : State) (n : Nat) (d : Digest) : State := { s with key := { s.key with dge := s.key.dge.putD n d Digest.idle } }

/-- DSTATUS: STATE, DETAIL and STATUS (R488). -/
def setDstatus (s : State) (n st detail status : Nat) : State :=
  wr s (pDGE n) DGE_DSTATUS (w32 (st * 65536 + detail % 256 * 256 + status % 256))

/-- STATE of an engine: 0 IDLE, 1 RUNNING, 2 PAUSED, 3 DONE, 4 FAILED. -/
def dgeState (s : State) (n : Nat) : Nat := rdF s (pDGE n) DGE_DSTATUS 18 16

/-- A job ends with a status other than OK: FAILED and IRQ FAIL (R488). -/
def dgeFail (s : State) (n status detail : Nat) : State :=
  irq (setDstatus (putDge s n { dgeOf s n with job := none }) n 4 detail status) (pDGE n) 2

/-- BYTES follows what a job has absorbed (R488). -/
def dgeBytes (s : State) (n total added : Nat) : State :=
  let c : Count := BitVec.ofNat 64 total
  bumpSince (wr (wr s (pDGE n) DGE_BYTES_LO (lo32 c)) (pDGE n) DGE_BYTES_HI (hi32 c)) (pDGE n) DGE_SNAP_BYTES added

/-- A running engine absorbs bytes. -/
def dgeAbsorb (s : State) (n : Nat) (j : DigestJob) (bytes : List Byte) : State :=
  let (h, c, t) := if isHmac j.alg then (j.h, j.count, []) else absorbBlocks j.alg (j.carry.length + bytes.length) j.h j.count (j.carry ++ bytes)
  let j' := { j with h := h, count := c, carry := t, message := if isHmac j.alg then j.message ++ bytes else [], nextOff := j.nextOff + bytes.length }
  let total := if isHmac j.alg then j'.message.length else c + t.length
  dgeBytes (putDge s n { dgeOf s n with job := some j' }) n total bytes.length

/-- Write a result left-aligned into RESULT0 to RESULT15 (R486). -/
def putResult (s : State) (n : Nat) (r : List Byte) : State :=
  (List.range 16).foldl (fun s i => wr s (pDGE n) (DGE_RESULT0 + 4 * i) (w32 (ofBytesLE (((fit 64 r).drop (4 * i)).take 4)))) s

/-- The finish: LAST bytes, padding and the result (R486). -/
def dgeFinish (s : State) (n : Nat) : State :=
  match (dgeOf s n).job with
  | none => s
  | some j =>
    let lv := rdF s (pDGE n) DGE_LAST_VALID 3 0
    let last := (bytesLE 4 (rd s (pDGE n) DGE_LAST_LO).toNat ++ bytesLE 4 (rd s (pDGE n) DGE_LAST_HI).toNat).take lv
    let s := dgeAbsorb s n j last
    let j := (dgeOf s n).job.getD j
    let len := if j.alg = 7 ∨ j.alg = 8 then j.xof else digestLen j.alg
    let r := if isHmac j.alg then fit len (Config.hmac j.alg (slotOf s j.slot).key j.message)
      else fit len (Config.digestFinish j.alg j.h j.count j.carry len)
    let s := putResult s n r
    irq (bump (setDstatus (putDge s n { dgeOf s n with job := none }) n 3 0 0) (pDGE n) DGE_JOBS 1) (pDGE n) 0

/-- Is a tap in use by another engine? (R485) -/
def tapUsed (s : State) (n src : Nat) : Bool :=
  s.key.dge.any fun e => e.1 != n && e.2.job.any fun j => j.feed == 1 && j.snoop == src

/-- The DMA source's address (R488). -/
def dgeSrc (s : State) (n : Nat) : Nat := (join64 (rd s (pDGE n) DGE_SRC_HI) (rd s (pDGE n) DGE_SRC_LO)).toNat % 2 ^ 48

/-- START (R485, R488). -/
def dgeStart (s : State) (n : Nat) : State :=
  let st := dgeState s n
  if st = 1 ∨ st = 2 ∨ bit (rd s (pDGE n) rSTATUS) 1 then s
  else
    let cfg := rd s (pDGE n) DGE_JOB_CFG
    let alg := fld cfg 7 0
    let feed := fld cfg 9 8
    let src := fld cfg 15 12
    let slot := rdF s (pDGE n) DGE_KEY_SLOT 15 0
    let bad := feed = 3 ∨ digestBlock alg = 0 ∨ rdF s (pDGE n) DGE_LAST_VALID 3 0 > 8 ∨ rdF s (pDGE n) DGE_XOF_LEN 6 0 > 64
      ∨ (feed = 1 ∧ (src = 0 ∨ src > 3))
    if bad then dgeFail s n 0x0C 0x01
    else if feed = 1 ∧ tapUsed s n src then dgeFail s n 0x0C 0x41
    else
      let s := if isHmac alg then keyUnwrap s slot true else s
      match (if isHmac alg then slotRefusal s slot 3 4 false 0xFFFE false none else none) with
      | some d => keyDenied (dgeFail s n 0x07 d)
      | none =>
        let len := (join64 (rd s (pDGE n) DGE_LEN_HI) (rd s (pDGE n) DGE_LEN_LO)).toNat
        let j : DigestJob :=
          { alg := alg, feed := feed, snoop := src, nextOff := 0, h := fit 200 (Config.digestInit alg), count := 0, carry := [],
            left := len, slot := slot, gen := (slotOf s slot).gen, message := [], src := dgeSrc s n, xof := rdF s (pDGE n) DGE_XOF_LEN 6 0 }
        dgeBytes (setDstatus (putDge s n { dgeOf s n with job := some j, window := [] }) n 1 0 0) n 0 0

/-- A DMA job's bytes have arrived: it finishes by itself (R485, R486). A host window brings `host`. An uncorrectable word or a refusal ends the job (R44, R403). -/
def dgeDmaDone (s : State) (n : Nat) (host : List Byte) : State :=
  match (dgeOf s n).job with
  | some j =>
    if j.feed ≠ 0 ∨ dgeState s n ≠ 1 then s
    else match bulkRead s (.block (BitVec.ofNat 12 (pDGE n))) j.src j.left host with
      | (s, .ok b) => dgeFinish (dgeAbsorb s n { j with left := 0 } b) n
      | (s, .uncorrectable) => dgeFail s n 0x09 0
      | (s, .refused _) => dgeFail s n 0x0B 0
  | none => s

/-- FINISH: ignored in DMA mode (R486). -/
def dgeFinishCmd (s : State) (n : Nat) : State :=
  match (dgeOf s n).job with
  | some j => if j.feed = 0 ∨ dgeState s n ≠ 1 then s else dgeFinish s n
  | none => s

/-- A write of DATA_HI in WORD mode hashes the eight bytes (R485). -/
def dgeWord (s : State) (n : Nat) (hi : Word) : State :=
  match (dgeOf s n).job with
  | some j =>
    if j.feed ≠ 2 ∨ dgeState s n ≠ 1 then s
    else dgeAbsorb s n j (bytesLE 4 (rd s (pDGE n) DGE_DATA_LO).toNat ++ bytesLE 4 hi.toNat)
  | none => s

/-- A piece of a tapped stream: it must start at the next expected byte (R485). -/
def dgeSnoop (s : State) (src off : Nat) (bytes : List Byte) : State :=
  match s.key.dge.find? fun e => e.2.job.any fun j => j.feed == 1 && j.snoop == src with
  | none => s
  | some (n, d) => match d.job with
    | some j => if dgeState s n ≠ 1 then s else if j.nextOff = off then dgeAbsorb s n j bytes else dgeFail s n 0x0C 0x42
    | none => s

/-- The state window of a paused job (R484). -/
def windowOf (j : DigestJob) : List Byte :=
  let body := fit 200 j.h ++ bytesLE 16 j.count ++ bytesLE 1 j.alg ++ bytesLE 1 0 ++ bytesLE 2 0 ++ bytesLE 2 0 ++ List.replicate 30 0
  if isHmac j.alg then [] else body ++ bytesLE 4 (crc32c body)

/-- PAUSE at the next block boundary (R487). -/
def dgePause (s : State) (n : Nat) : State :=
  match (dgeOf s n).job with
  | some j =>
    if dgeState s n ≠ 1 then s
    else irq (setDstatus (putDge s n { dgeOf s n with window := windowOf j }) n 2 0 0) (pDGE n) 1
  | none => s

/-- RESUME from the state in the window (R487): a bad SCHECK, ALG or COUNT ends MALFORMED_STREAM, DETAIL 0x43, and HMAC checks GEN. -/
def dgeResume (s : State) (n : Nat) : State :=
  let st := dgeState s n
  if st ≠ 2 ∧ st ≠ 0 then s
  else
    let cfg := rd s (pDGE n) DGE_JOB_CFG
    let alg := fld cfg 7 0
    let len := (join64 (rd s (pDGE n) DGE_LEN_HI) (rd s (pDGE n) DGE_LEN_LO)).toNat
    let d := dgeOf s n
    match d.job with
    | some j =>
      if isHmac j.alg then
        match slotRefusal s j.slot 3 4 false 0xFFFE false (some j.gen) with
        | some x => keyDenied (dgeFail s n 0x07 x)
        | none => setDstatus (putDge s n { d with job := some { j with left := len, src := dgeSrc s n, xof := rdF s (pDGE n) DGE_XOF_LEN 6 0 } }) n 1 0 0
      else fromWindow s n alg len d (some j)
    | none => fromWindow s n alg len d none
where
  /-- Continue from the window's bytes. -/
  fromWindow (s : State) (n alg len : Nat) (d : Digest) (j? : Option DigestJob) : State :=
    let w := fit 256 d.window
    let count := ofBytesLE ((w.drop 200).take 16)
    let block := digestBlock alg
    if crc32c (w.take 252) ≠ ofBytesLE (w.drop 252) ∨ ofBytesLE ((w.drop 216).take 1) ≠ alg ∨ block = 0 ∨ isHmac alg
        ∨ count % max 1 block ≠ 0 then dgeFail s n 0x0C 0x43
    else
      let cfg := rd s (pDGE n) DGE_JOB_CFG
      let j : DigestJob :=
        { alg := alg, feed := fld cfg 9 8, snoop := fld cfg 15 12, nextOff := j?.elim count (·.nextOff), h := w.take 200, count := count,
          carry := j?.elim [] (·.carry), left := len, slot := 0, gen := 0, message := [], src := dgeSrc s n, xof := rdF s (pDGE n) DGE_XOF_LEN 6 0 }
      setDstatus (putDge s n { d with job := some j, window := [] }) n 1 0 0

/-- ABORT: back to IDLE with no status (R487). -/
def dgeAbort (s : State) (n : Nat) : State := setDstatus (putDge s n { dgeOf s n with job := none }) n 0 0 0

/-- The word of the state window that STATE_SEL names; an armed injection corrupts SCHECK once (R487, R488). -/
def dgeSelect (s : State) (n sel : Nat) : State :=
  let d := dgeOf s n
  let st := dgeState s n
  let w := ofBytesLE (((fit 256 d.window).drop (4 * sel)).take 4)
  let bad := d.corrupt && decide (sel = 63)
  let v := if st = 2 ∨ st = 0 then (if bad then w ^^^ 0xFFFFFFFF else w) else 0
  let s := wr (wr s (pDGE n) DGE_STATE_SEL (w32 sel)) (pDGE n) DGE_STATE_DATA (w32 v)
  if bad then putDge s n { d with corrupt := false } else s

/-- A write of the selected state word while PAUSED or IDLE; ignored for an HMAC job (R487). -/
def dgeStateWrite (s : State) (n : Nat) (v : Word) : State :=
  let d := dgeOf s n
  let st := dgeState s n
  let sel := rdF s (pDGE n) DGE_STATE_SEL 5 0
  if (st ≠ 2 ∧ st ≠ 0) ∨ d.job.any (fun j => isHmac j.alg) then s
  else
    let w := fit 256 d.window
    let s := putDge s n { d with window := w.take (4 * sel) ++ bytesLE 4 v.toNat ++ w.drop (4 * sel + 4) }
    wr s (pDGE n) DGE_STATE_DATA v

/-- A digest engine is retired: its job ends FENCED (R487, R600). -/
def retireDge (s : State) (n : Nat) : State :=
  let p := pDGE n
  let s := if (dgeOf s n).job.isSome then dgeFail s n 0x0A 0 else s
  logRetire (setFault (wrB s p rSTATUS 1 true) p .permanent (Config.blockCause 8) 0) p (Config.blockCause 8) 0

/-- DGE ERR_INJECT (R488). -/
def dgeInject (s : State) (n code : Nat) : State :=
  match code with
  | 1 => injected s fun s => retireDge s n
  | 2 => putDge s n { dgeOf s n with corrupt := true }
  | _ => s

/-! ### The security processor's snoop digest (R534) -/

/-- SN_STATUS: STATE and STATUS. -/
def snStatus (s : State) (st status : Nat) : State := wr s pSCP SCP_SN_STATUS (w32 (st * 65536 + status))

/-- SN_BYTES follows what the digest has absorbed. -/
def snBytes (s : State) (total : Nat) : State :=
  let c : Count := BitVec.ofNat 64 total
  wr (wr s pSCP SCP_SN_BYTES_LO (lo32 c)) pSCP SCP_SN_BYTES_HI (hi32 c)

/-- START of the snoop digest: a reserved algorithm or source ends it MALFORMED_STREAM (R482, R485, R534). HMAC has no slot register here. -/
def snStart (s : State) : State :=
  let alg := rdF s pSCP SCP_SN_CFG 7 0
  let src := rdF s pSCP SCP_SN_CFG 11 8
  if rdF s pSCP SCP_SN_STATUS 18 16 = 1 then s
  else if digestBlock alg = 0 || isHmac alg || src == 0 || decide (4 < src) then snStatus s 4 0x0C
  else
    let j : DigestJob := ⟨alg, 1, src, 0, fit 200 (Config.digestInit alg), 0, [], 0, 0, 0, [], 0, 0⟩
    snBytes (snStatus { s with key := { s.key with sn := { s.key.sn with job := some j } } } 1 0) 0

/-- Bytes reach a running snoop digest in order. -/
def snAbsorb (s : State) (j : DigestJob) (bytes : List Byte) : State :=
  let (h, c, t) := absorbBlocks j.alg (j.carry.length + bytes.length) j.h j.count (j.carry ++ bytes)
  let j := { j with h := h, count := c, carry := t, nextOff := j.nextOff + bytes.length }
  snBytes { s with key := { s.key with sn := { s.key.sn with job := some j } } } (c + t.length)

/-- A piece of a tapped stream: it must start at the next expected byte (R485, R534). -/
def snSnoop (s : State) (src off : Nat) (bytes : List Byte) : State :=
  match s.key.sn.job with
  | some j =>
    if j.snoop ≠ src then s
    else if j.nextOff = off then snAbsorb s j bytes
    else snStatus { s with key := { s.key with sn := { s.key.sn with job := none } } } 4 0x0C
  | none => s

/-- Bytes of a cluster image load, hashed as they are read (R368). -/
def snLoad (s : State) (bytes : List Byte) : State :=
  match s.key.sn.job with
  | some j => snAbsorb s j bytes
  | none => s

/-- FINISH of the snoop digest: the result, DONE and IRQ SN_DONE (R486, R534). -/
def snFinish (s : State) : State :=
  match s.key.sn.job with
  | none => s
  | some j =>
    let r := fit (digestLen j.alg) (Config.digestFinish j.alg j.h j.count j.carry (digestLen j.alg))
    let s := (List.range 16).foldl (fun s i => wr s pSCP (SCP_SN_RESULT0 + 4 * i) (w32 (ofBytesLE (((fit 64 r).drop (4 * i)).take 4)))) s
    irq (snStatus { s with key := { s.key with sn := { s.key.sn with job := none } } } 3 0) pSCP 4

/-- ABORT of the snoop digest: IDLE with no status (R487). -/
def snAbort (s : State) : State := snStatus { s with key := { s.key with sn := { s.key.sn with job := none } } } 0 0

/-- Both taps of a piece of a stream: the digest engine's and the snoop digest's (R485, R534). -/
def tap (s : State) (src off : Nat) (bytes : List Byte) : State := snSnoop (dgeSnoop s src off bytes) src off bytes

end Sys2Proof.Machine
end

