-- ==== Sys2Proof/Machine/Cluster.lean ====
section
/-! DEFINITION. Clusters and cores as state: registers, TCMs, the cluster store, cycle counts and CORE_STATE (R339 to R348, R370). -/

namespace Sys2Proof.Machine

/-! ### Cores and clusters -/

/-- Number of core k of cluster c (R56). -/
def coreNo (c : Clu) (k : CoreIx) : Fin 48 := ⟨8 * c.val + k.val, by omega⟩

/-- A core. -/
def coreOf (s : State) (n : Fin 48) : Core := s.nel.cores[n.val]

/-- Set a core. -/
def putCore (s : State) (n : Fin 48) (x : Core) : State :=
  { s with nel := { s.nel with cores := s.nel.cores.set n.val x } }

/-- A cluster. -/
def cluOf (s : State) (c : Clu) : Cluster := s.nel.clusters[c.val]

/-- Set a cluster. -/
def putClu (s : State) (c : Clu) (x : Cluster) : State :=
  { s with nel := { s.nel with clusters := s.nel.clusters.set c.val x } }

/-- Cluster of a core number. -/
def cluNo (n : Fin 48) : Clu := ⟨n.val / 8, by omega⟩

/-- Number within its cluster. -/
def coreIx (n : Fin 48) : CoreIx := ⟨n.val % 8, by omega⟩

/-- Every core number. -/
def allCores : List (Fin 48) := List.finRange 48

/-- Every cluster number. -/
def allClus : List Clu := List.finRange 6

/-- The cores of a cluster, ascending. -/
def coresOf (c : Clu) : List (Fin 48) := (List.finRange 8).map (coreNo c)

/-- Is a core retired? (R372) -/
def coreRetired (s : State) (n : Fin 48) : Bool := bit (rd s (pNCL (n.val / 8)) NCL_CORE_RETIRED) (n.val % 8)

/-- Is a core present, enabled and not retired? (R370, R372) -/
def coreInService (s : State) (n : Fin 48) : Bool :=
  s.com.chip.hasCluster (n.val / 8) && bit (inForce s (pNCL (n.val / 8)) NCL_CORE_ENABLE) (n.val % 8) && !coreRetired s n

/-- Is a cluster fused off or retired? (R372) -/
def cluGone (s : State) (c : Nat) : Bool := !s.com.chip.hasCluster c || bit (rd s (pNCL c) rSTATUS) 1

/-- RUNMODE.PSG (R348). -/
def Core.psg (x : Core) : Bool := bit x.runmode 0

/-- RUNMODE.HANDLER (R348). -/
def Core.handler (x : Core) : Bool := bit x.runmode 1

/-- CORE_STATE code of a core (R370). -/
def coreStateCode (x : Core) : Nat :=
  match x.mode with
  | .idle => 0
  | .run => if x.psg then 2 else 1
  | .held => 3
  | .halted => 3

/-- CORE_STATE of a cluster's page follows its cores (R370). -/
def showCores (s : State) (c : Clu) : State :=
  wr s (pNCL c.val) NCL_CORE_STATE (w32 (((coresOf c).map fun n => coreStateCode (coreOf s n) * 4 ^ (n.val % 8)).foldl (· + ·) 0))

/-- Set a core and show its state. -/
def setCore (s : State) (n : Fin 48) (x : Core) : State := showCores (putCore s n x) (cluNo n)

/-! ### General registers (R342) -/

/-- Read a general register: w0 reads as 0. -/
def Core.reg (x : Core) (i : RegIx) : Word := if i = 0 then 0 else x.regs[i.val]

/-- Write a general register: a write to w0 is discarded. -/
def Core.setReg (x : Core) (i : RegIx) (v : Word) : Core :=
  if i = 0 then x else { x with regs := x.regs.set i.val v }

/-! ### Cycles (R348) -/

/-- Running clock of a cluster in 100 MHz (R370). -/
def clkNow (s : State) (c : Nat) : Nat := rdF s (pNCL c) NCL_CLK_NOW 4 0

/-- Core cycles since core reset, now: time at the running clock since the last change. -/
def cyclesNow (s : State) (n : Fin 48) : Count :=
  let x := coreOf s n
  x.cycle + BitVec.ofNat 64 ((s.com.time - x.cycleAt).toNat * clkNow s (n.val / 8) / 10)

/-- Settle the cycle count before the clock changes. -/
def settleCycles (s : State) (n : Fin 48) : State :=
  putCore s n { coreOf s n with cycle := cyclesNow s n, cycleAt := s.com.time }

/-! ### TCMs and the cluster store (R314, R315, R317, R340) -/

/-- Which local memory: UE_ADDR.MEM codes (R370). -/
inductive LocalMem where
  | itcm | dtcm | store
  deriving DecidableEq, Repr

/-- A word is corrected: ECC_CE, the core's TCM_CE and the bucket (R315, R370). The second result says that the bucket overflowed. -/
def nclCorrected (s : State) (n : Fin 48) (m : LocalMem) : State × Bool :=
  let p := pNCL (n.val / 8)
  let s := bump s p NCL_ECC_CE 1
  let s := if m = .store then s else bumpF s p (NCL_TCM_CE + 4 * (n.val % 8)) 15 0 1
  lbEvent s p

/-- A word is uncorrectable: ECC_UE, UE_ADDR and IRQ UE (R315, R370). -/
def nclUncorrectable (s : State) (n : Fin 48) (m : LocalMem) (off : Nat) : State :=
  let p := pNCL (n.val / 8)
  let s := bumpF s p NCL_ECC_UE 15 0 1
  let code := match m with
    | .itcm => 0
    | .dtcm => 1
    | .store => 2
  irq (wr s p NCL_UE_ADDR (w32 ((n.val % 8) * 2 ^ 29 + code * 2 ^ 27 + off / 4 * 4))) p 4

/-- Take the first armed injection of a cluster that fits (R370). -/
def nclArmed (s : State) (n : Fin 48) (codes : List Nat) : State × Option Nat :=
  let c := cluNo n
  match (cluOf s c).inject.find? fun i => i.1 == n.val % 8 && codes.contains i.2 with
  | none => (s, none)
  | some i => (putClu s c { cluOf s c with inject := removeFirst (fun x : Nat × Nat => x == i) (cluOf s c).inject }, some i.2)

/-- A word of a TCM is about to be read: a single-bit error is corrected and written back (R314). The result says whether the word is readable, and whether the bucket overflowed. -/
def tcmWord (s : State) (n : Fin 48) (m : LocalMem) (off : Nat) : State × Bool × Bool :=
  let x := coreOf s n
  let err := if m = .itcm then x.itcmErr else x.dtcmErr
  match err.get? (off / 4) with
  | none => (s, true, false)
  | some .single =>
    let x := if m = .itcm then { x with itcmErr := err.del (off / 4) } else { x with dtcmErr := err.del (off / 4) }
    let (s, f) := nclCorrected (putCore s n x) n m
    (s, true, f)
  | some _ => (nclUncorrectable s n m off, false, false)

/-- Bytes of a TCM within one word. -/
def tcmBytes (s : State) (n : Fin 48) (m : LocalMem) (off len : Nat) : List Byte :=
  if m = .itcm then (coreOf s n).itcm.readN off len else (coreOf s n).dtcm.readN off len

/-- Write bytes of a TCM within one word; a whole word clears its error mark. -/
def tcmWrite (s : State) (n : Fin 48) (m : LocalMem) (off : Nat) (b : List Byte) : State :=
  let x := coreOf s n
  let clr (e : Tab WordErr) : Tab WordErr := if b.length = 4 then e.del (off / 4) else e
  putCore s n (if m = .itcm then { x with itcm := x.itcm.writeN off b, itcmErr := clr x.itcmErr }
    else { x with dtcm := x.dtcm.writeN off b, dtcmErr := clr x.dtcmErr })

/-- A cluster store as a word memory. -/
def storeMem (s : State) (c : Clu) : WordMem := ⟨(cluOf s c).store, (cluOf s c).storeErr, (cluOf s c).storeMerge⟩

/-- Put a cluster store back with what the access met, counted for a core of the cluster. -/
def storePut (s : State) (c : Clu) (k : CoreIx) (m : WordMem) (met : Met) : State × Bool :=
  let s := putClu s c { cluOf s c with store := m.mem, storeErr := m.err, storeMerge := m.merge }
  let (s, f) := (List.range met.ce).foldl (fun (a : State × Bool) _ =>
    let (s, f) := nclCorrected a.1 (coreNo c k) .store
    (s, a.2 || f)) (s, false)
  let s := (List.range met.ue).foldl (fun s _ => nclUncorrectable s (coreNo c k) .store (8 * met.ueWord)) s
  (s, f)

/-- Do entries of the cluster store's merge buffer gather? (R317, R370 CS_MERGE) -/
def storeGathers (s : State) (c : Clu) : Bool := inF s (pNCL c.val) NCL_CS_MERGE 7 0 != 0

/-- Read bytes of the cluster store; none when a word is uncorrectable. -/
def storeRead (s : State) (c : Clu) (k : CoreIx) (off n : Nat) : State × Option (List Byte) :=
  let (m, b, met) := wmReadBytes (storeMem s c) off n
  ((storePut s c k m met).1, b)

/-- Write bytes of the cluster store (R317). -/
def storeWrite (s : State) (c : Clu) (k : CoreIx) (off : Nat) (b : List Byte) : State :=
  let (m, met) := wmWriteBytes (storeMem s c) off b 4 (fun _ _ => true) (storeGathers s c)
  (storePut s c k m met).1

/-- The oldest merge entry of a cluster store goes to the array (R317). -/
def storeFlush (s : State) (c : Clu) : State :=
  match (cluOf s c).storeMerge with
  | [] => s
  | e :: _ => let (m, met) := wmFlush (storeMem s c) e; (storePut s c 0 m met).1

end Sys2Proof.Machine
end

