-- ==== Sys2Proof/Machine/Dispatcher.lean ====
section
/-! DEFINITION. The dispatcher: work-item slots and their window, delay lists, ready queues, dispatch, pre-emption, endings and the observables (R361, R373 to R390). -/

namespace Sys2Proof.Machine

/-! ### Slots (R373 to R375) -/

/-- A slot. -/
def itemOf (s : State) (n : Nat) : Item := s.dis.items.getD n Item.fresh

/-- General slots that are not FREE. -/
def generalUsed (s : State) : Nat := (s.dis.items.filter fun e => decide (0x201 ≤ e.1) && e.2.state != .free).length

/-- FREE_SLOTS and SLOTS_LOW follow the slots (R389). -/
def refreshFree (s : State) : State :=
  let n := 65023 - generalUsed s
  let was := rdF s pDIS DIS_FREE_SLOTS 16 0
  let s := wr s pDIS DIS_FREE_SLOTS (w32 n)
  if n < 1024 ∧ 1024 ≤ was then irq s pDIS 1 else s

/-- Set a slot. -/
def putItem (s : State) (n : Nat) (x : Item) : State :=
  refreshFree { s with dis := { s.dis with items := s.dis.items.putD n x Item.fresh } }

/-- PRIO of an item. -/
def Item.prio (x : Item) : Nat := fld x.w3 3 0
/-- THRESH of an item. -/
def Item.thresh (x : Item) : Nat := fld x.w3 7 4
/-- CLUSTER field of an item; 7 is any. -/
def Item.clusterField (x : Item) : Nat := fld x.w3 10 8
/-- MODE: passenger. -/
def Item.passenger (x : Item) : Bool := bit x.w3 11
/-- END_ACTION of an item. -/
def Item.endAction (x : Item) : Nat := fld x.w3 13 12
/-- CORE_MASK of an item. -/
def Item.mask (x : Item) : Nat := fld x.w3 23 16
/-- ENV of an item; 0x3F is none. -/
def Item.env (x : Item) : Nat := fld x.w3 29 24

/-- STATE code (R375). -/
def ItemState.code : ItemState → Nat
  | .free => 0 | .waiting => 1 | .delayed => 2 | .ready => 3 | .running => 4 | .preempted => 5 | .done => 6 | .failed => 7

/-- Words W6 and W7 of a slot (R374). -/
def Item.w6 (x : Item) : Word := w32 (x.ctx * 65536 + x.wake)
/-- Word W7 of a slot. -/
def Item.w7 (x : Item) : Word :=
  w32 (x.cause * 256 + (if x.late then 32 else 0) + (if x.tie then 16 else 0) + (if x.pending then 8 else 0) + x.state.code)

/-! ### Observables (R388) -/

/-- Set an accumulator or a level that a snapshot copies. -/
def setSince (s : State) (p off n : Nat) : State :=
  { s with com := { s.com with since := s.com.since.putD (regKey p off) n 0 } }

/-- A ready queue. -/
def queueOf (s : State) (q : Nat) : List Nat := s.dis.queues.getD q []

/-- READY and PREEMPTED items of a cluster. -/
def clusterDepth (s : State) (c : Nat) : Nat := ((List.range 16).map fun l => (queueOf s (16 * c + l)).length).foldl (· + ·) 0

/-- Set a ready queue: depth, maximum depth and the snapshot level follow. -/
def putQueue (s : State) (q : Nat) (l : List Nat) : State :=
  let s := { s with dis := { s.dis with
    queues := s.dis.queues.putD q l [],
    maxDepth := s.dis.maxDepth.putD q (max l.length (s.dis.maxDepth.getD q 0)) 0 } }
  setSince s pDIS (DIS_SNAP_DEPTH + 4 * (q / 16)) (clusterDepth s (q / 16))

/-- Cycles that an item has run on a core so far. -/
def runCycles (s : State) (n : Nat) : Nat :=
  match s.dis.since.get? n with
  | none => 0
  | some t => (s.com.time - t).toNat * clkNow s (n / 8) / 10

/-- Busy cycles of a core. -/
def busyNow (s : State) (n : Nat) : Nat := (s.dis.busy.getD n 0 + runCycles s n) % 2 ^ 64

/-- Settle the busy cycles of a core before its clock changes or its item stops. -/
def settleBusy (s : State) (n : Nat) : State :=
  let b := busyNow s n
  { s with dis := { s.dis with
      busy := s.dis.busy.putD n b 0,
      since := match s.dis.since.get? n with
        | none => s.dis.since
        | some _ => s.dis.since.put n s.com.time } }

/-- A histogram register: two buckets (R388). -/
def histWord (s : State) (q m : Nat) : Nat :=
  s.dis.hist.getD (16 * q + 2 * m + 1) 0 * 65536 + s.dis.hist.getD (16 * q + 2 * m) 0

/-- The views that QSEL, CORE_SEL and SBANK_SEL select follow the state (R389). CORE_BUSY_HI moves only when CORE_BUSY_LO is read. -/
def showDis (s : State) : State :=
  let q := 16 * rdF s pDIS DIS_QSEL 6 4 + rdF s pDIS DIS_QSEL 3 0
  let n := rdF s pDIS DIS_CORE_SEL 5 0
  let s := wr s pDIS DIS_Q_DEPTH (w32 (queueOf s q).length)
  let s := wr s pDIS DIS_Q_MAXDEPTH (w32 (s.dis.maxDepth.getD q 0))
  let s := (List.range 8).foldl (fun s m => wr s pDIS (DIS_Q_HIST + 4 * m) (w32 (histWord s q m))) s
  let s := wr s pDIS DIS_CORE_BUSY_LO (w32 (busyNow s n))
  let s := wr s pDIS DIS_CORE_ITEMS (w32 (s.dis.started.getD n 0))
  let s := wr s pDIS DIS_CORE_PREEMPT (w32 (s.dis.preempts.getD n 0))
  let s := wr s pDIS DIS_CORE_ITEM (match s.dis.running.get? n with
    | none => 0
    | some i => w32 (2 ^ 31 + i))
  wr s pDIS DIS_SBANK_DATA (s.dis.sbank.getD (rdF s pDIS DIS_SBANK_SEL 10 0) 0)

/-- A read of CORE_BUSY_LO latches CORE_BUSY_HI (R389). -/
def coreBusyRead (s : State) : State × Word :=
  let n := rdF s pDIS DIS_CORE_SEL 5 0
  let b := busyNow s n
  (wr (wr s pDIS DIS_CORE_BUSY_LO (w32 b)) pDIS DIS_CORE_BUSY_HI (w32 (b / 2 ^ 32)), w32 b)

/-- A wait of a queue is counted in its histogram; HIST_UNIT 0 stops counting (R388). -/
def countWait (s : State) (q ns : Nat) : State :=
  let u := inF s pDIS DIS_HIST_UNIT 15 0
  if u = 0 then s
  else
    let b := if ns < u then 0 else min 15 (Nat.log2 (ns / u) + 1)
    let k := 16 * q + b
    { s with dis := { s.dis with hist := s.dis.hist.put k (satAdd 0xFFFF (s.dis.hist.getD k 0) 1) } }

/-- A write of 1 to HIST_CLEAR bit 0 (R389). -/
def histClear (s : State) (v : Word) : State := if bit v 0 then showDis { s with dis := { s.dis with hist := [] } } else s

/-- The dispatcher's part of a snapshot: every observable goes to the snapshot bank (R388). -/
def disLatch (s : State) : State :=
  let qs := (List.range 96).flatMap fun q =>
    [(10 * q, w32 (queueOf s q).length), (10 * q + 1, w32 (s.dis.maxDepth.getD q 0))]
      ++ (List.range 8).map fun m => (10 * q + 2 + m, w32 (histWord s q m))
  let cs := (List.range 48).flatMap fun n =>
    let b := busyNow s n
    [(960 + 4 * n, w32 b), (961 + 4 * n, w32 (b / 2 ^ 32)), (962 + 4 * n, w32 (s.dis.started.getD n 0)), (963 + 4 * n, w32 (s.dis.preempts.getD n 0))]
  showDis { s with dis := { s.dis with sbank := (qs ++ cs).filter fun e => e.2 != 0 } }

/-! ### Entering READY (R382) -/

/-- READY items of a cluster at a level or above. -/
def readyAbove (s : State) (c prio : Nat) : Nat :=
  ((List.range 16).map fun l => if prio ≤ l then ((queueOf s (16 * c + l)).filter fun i => (itemOf s i).state == .ready).length else 0).foldl (· + ·) 0

/-- Clusters that can take items: present, not retired, with an enabled core (R382). -/
def openClusters (s : State) : List Nat :=
  (List.range 6).filter fun c => !cluGone s c && decide (inF s (pNCL c) NCL_CORE_ENABLE 7 0 ≠ 0)

/-- The cluster an item queues at. -/
def queueCluster (s : State) (x : Item) : Nat :=
  if x.clusterField ≤ 5 then x.clusterField
  else (minBy? (fun c => readyAbove s c x.prio) (openClusters s)).getD 0

/-- Items that enter one queue in the same fabric cycle, that of count `t`: the lower slot goes first, each is marked TIE, and the tie counts (R382). -/
def enterQueue (s : State) (q n : Nat) (t : Count) : State :=
  let l := queueOf s q
  let same (i : Nat) : Bool := (itemOf s i).state == .ready && (itemOf s i).entered == t
  let older := (l.reverse.dropWhile same).reverse
  let tied := l.drop older.length
  if tied.isEmpty then putQueue s q (l ++ [n])
  else
    let s := (n :: tied).foldl (fun s i => putItem s i { itemOf s i with tie := true }) s
    bump (putQueue s q (older ++ sortBy (fun a b => decide (a ≤ b)) (tied ++ [n]))) pDIS DIS_TIE_COUNT 1

/-- A slot becomes READY at the tail of its queue in the fabric cycle of count `t`; after PWR_FAIL only the ferry slot does (R382, R387). -/
def makeReadyAt (s : State) (n : Nat) (t : Count) : State :=
  if s.dis.stopped && n != 0x1FF then s
  else
    let x := itemOf s n
    let c := queueCluster s x
    let s := putItem s n { x with state := .ready, cluster := c, entered := t }
    showDis (enterQueue s (16 * c + x.prio) n t)

/-- A slot becomes READY now. -/
def makeReady (s : State) (n : Nat) : State := makeReadyAt s n s.com.time

/-- A slot is queued as for SUBMIT_NEW: READY when DUE is 0 or past, else DELAYED (R376). -/
def queueItem (s : State) (n : Nat) : State :=
  let x := itemOf s n
  if x.due.toNat ≤ s.com.time.toNat then makeReady s n
  else
    putItem { s with dis := { s.dis with delayed := s.dis.delayed ++ [n] } } n
      { x with state := .delayed, cluster := if x.clusterField ≤ 5 then x.clusterField else 0, entered := s.com.time }

/-! ### The window (R374, R376, R377) -/

/-- Window register W_i. -/
def winW (s : State) (i : Nat) : Word := rd s pDIS (DIS_WI_W0 + 4 * i)

/-- The window as an item; reserved bits are ignored, and CTX, CAUSE, LATE, TIE, PENDING and STATE are read-only (R9, R374). -/
def windowItem (s : State) : Item :=
  { Item.fresh with
      w0 := winW s 0 &&& 0xFFFF, arg0 := winW s 1, arg1 := winW s 2, w3 := winW s 3 &&& 0x3FFF3FFF,
      due := join64 (winW s 5) (winW s 4), wake := fld (winW s 6) 15 0 }

/-- Copy a slot into the window (R376). -/
def showItem (s : State) (x : Item) : State :=
  let ws := [x.w0, x.arg0, x.arg1, x.w3, lo32 x.due, hi32 x.due, x.w6, x.w7]
  (ws.zipIdx.foldl (fun s w => wr s pDIS (DIS_WI_W0 + 4 * w.2) w.1) s)

/-- WI_STATUS: SLOT, STATE of the slot, OP_STATUS (R389). -/
def wiStatus (s : State) (slot op : Nat) : State :=
  wr s pDIS DIS_WI_STATUS (w32 (slot * 65536 + (itemOf s slot).state.code * 16 + op))

/-- ENV_COUNT, CTX_COUNT and the byte offset of a cluster's context area (R384, R389). -/
def envCount (s : State) (c : Nat) : Nat := inF s pDIS (DIS_CTX_AREA + 8 * c) 31 26
/-- Slots of the context area. -/
def ctxCount (s : State) (c : Nat) : Nat := inF s pDIS (DIS_CTX_AREA + 8 * c) 25 16
/-- Byte offset of the context area in the cluster store. -/
def ctxBase (s : State) (c : Nat) : Nat := inF s pDIS (DIS_CTX_AREA + 8 * c) 8 0 * 4096

/-- A word of an environment record as the cluster store holds it (R384). -/
def envWord (s : State) (c : Clu) (env w : Nat) : Word :=
  let m := storeMem s c
  let off := ctxBase s c.val + 256 * env + 4 * w
  match (wmReadBytes m off 4).2.1 with
  | some b => w32 (ofBytesLE b)
  | none => 0

/-- Enabled clusters that the item's CORE_MASK must meet (R376 ABSENT). -/
def maskedCores (s : State) (c mask : Nat) : Bool :=
  (List.range 8).any fun k => mask.testBit k && bit (inForce s (pNCL c) NCL_CORE_ENABLE) k
    && !bit (rd s (pNCL c) NCL_CORE_RETIRED) k

/-- BAD_FIELD: reserved encodings, ENTRY, THRESH, ENV, CLUSTER any with MODE 1 (R374, R376). -/
def badFields (s : State) (x : Item) : Bool :=
  let c := x.clusterField
  fld x.w0 1 0 != 0 || x.endAction == 3 || c == 6
    || decide (x.thresh < x.prio) || (c == 7 && x.passenger)
    || (x.env != 0x3F && (if c ≤ 5 then decide (x.env ≥ envCount s c) else true))

/-- ABSENT: the cluster is fused off or retired, or CORE_MASK names no enabled core. -/
def absentItem (s : State) (x : Item) : Bool :=
  let c := x.clusterField
  if c ≤ 5 then cluGone s c || !maskedCores s c x.mask
  else !((openClusters s).any fun c => maskedCores s c x.mask)

/-- The item a passenger's core runs. -/
def whoItem (s : State) : Initiator → Option Item
  | .passenger c k => (s.dis.running.get? (coreNo c k).val).map (itemOf s)
  | _ => none

/-- DENIED: a passenger's operation outside its own environment, or a submission above its CEILING (R377). -/
def wiDenied (s : State) (who : Initiator) (op slot : Nat) : Bool :=
  match who with
  | .passenger c _ =>
    match whoItem s who with
    | none => true
    | some me =>
      let mine (x : Item) : Bool := x.env == me.env && x.clusterField == me.clusterField
      let w := windowItem s
      if op = 2 then
        !mine w || !w.passenger
          || (let ceil := fld (envWord s c me.env 56) 3 0; decide (w.prio > ceil) || decide (w.thresh > ceil))
      else if op = 1 ∨ op = 5 ∨ op = 6 then !mine (itemOf s slot)
      else true
  | _ => false

/-- The lowest FREE general slot. -/
def lowestFree (s : State) : Option Nat :=
  let rec go : Nat → List (Nat × Item) → Nat
    | k, [] => k
    | k, (i, x) :: t => if i < k then go k t else if i = k ∧ x.state ≠ .free then go (k + 1) t else if i = k then k else k
  let k := go 0x201 s.dis.items
  if k < 0x10000 then some k else none

/-- Take a slot off its delay list or ready queue. -/
def unqueue (s : State) (n : Nat) : State :=
  let x := itemOf s n
  let s := { s with dis := { s.dis with delayed := s.dis.delayed.filter (· != n) } }
  let q := 16 * x.cluster + x.prio
  if (queueOf s q).contains n then putQueue s q ((queueOf s q).filter (· != n)) else s

/-- Fill a slot from the window: on an interrupt slot only W0 to W3 (R376). -/
def takeWindow (s : State) (n : Nat) : State :=
  let w := windowItem s
  let x := itemOf s n
  putItem s n (if n < 0x1FF then { x with w0 := w.w0, arg0 := w.arg0, arg1 := w.arg1, w3 := w.w3 } else w)

/-- Set the failure list: FAIL_COUNT is its length and FAIL_NEXT its oldest slot (R386, R389). -/
def putFailures (s : State) (l : List Nat) : State :=
  wr (wr { s with dis := { s.dis with failures := l } } pDIS DIS_FAIL_COUNT (w32 l.length)) pDIS DIS_FAIL_NEXT (w32 (l.headD 0xFFFF))

/-- Drop a slot from the failure list when it leaves FAILED. -/
def dropFailure (s : State) (n : Nat) : State := putFailures s (s.dis.failures.filter (· != n))

/-- An operation of `WI_OP` (R376, R377). -/
def wiOp (s : State) (who : Initiator) (op : Nat) : State :=
  let sel := rdF s pDIS DIS_WI_SEL 15 0
  let st := (itemOf s sel).state
  let w := windowItem s
  let fits := decide (2 ≤ op) && decide (op ≤ 4)
  if op = 0 ∨ op > 6 then wiStatus s sel 3
  else if wiDenied s who op sel then wiStatus s sel 5
  else if op = 1 then wiStatus (showItem s (itemOf s sel)) sel 0
  else if fits && (badFields s w || ((op == 3 || op == 4) && (sel == 0x1FF || sel == 0x200))) then wiStatus s sel 3
  else if op = 5 ∧ (sel = 0x200 ∨ sel = 0x1FF) then wiStatus s sel 3
  else if fits && absentItem s w then wiStatus s sel 4
  else match op with
    | 2 =>
      match lowestFree s with
      | none => wiStatus s sel 2
      | some n => let s := queueItem (takeWindow s n) n; showDis (wiStatus s n 0)
    | 3 =>
      if st = .free ∨ st = .waiting ∨ st = .done ∨ st = .failed then
        let s := takeWindow (dropFailure s sel) sel
        let s := if sel < 0x1FF then putItem s sel { itemOf s sel with state := .waiting } else queueItem s sel
        showDis (wiStatus s sel 0)
      else wiStatus s sel 1
    | 4 =>
      if st = .free ∨ st = .done ∨ st = .failed then
        let s := takeWindow (dropFailure s sel) sel
        showDis (wiStatus (putItem s sel { itemOf s sel with state := .waiting }) sel 0)
      else wiStatus s sel 1
    | 5 =>
      if st = .waiting ∨ st = .delayed ∨ st = .ready then
        let s := unqueue s sel
        showDis (wiStatus (putItem s sel { itemOf s sel with state := .free }) sel 0)
      else wiStatus s sel 1
    | _ =>
      if st = .done ∨ st = .failed then
        showDis (wiStatus (putItem (dropFailure s sel) sel { itemOf s sel with state := .free }) sel 0)
      else wiStatus s sel 1

/-! ### Events (R378, R379) -/

/-- An event that found no WAITING slot. -/
def eventMiss (s : State) : State := bump s pDIS DIS_EVENT_MISS 1

/-- The interrupt of a page reaches its slot (R378). -/
def pageEvent (s : State) (p : Nat) : State :=
  let x := itemOf s p
  match x.state with
  | .waiting => makeReady s p
  | .free => eventMiss s
  | _ => putItem s p { x with pending := true }

/-- A page whose interrupt is raised signals its slot; an armed injection makes the event arrive twice (R378, R389). -/
def pageInterrupt (s : State) (p : Nat) : State :=
  if p ≥ 0x1FF || !irqRaised s p then s
  else
    let c := queueCluster s (itemOf s p)
    let s := pageEvent s p
    match s.dis.inject.find? fun i => i.2 == 2 && i.1 == c with
    | none => s
    | some i => injected { s with dis := { s.dis with inject := removeFirst (fun x : Nat × Nat => x == i) s.dis.inject } } fun s => pageEvent s p

/-- USER_EVENT (R379): the template goes to the lowest FREE general slot. -/
def userEvent (s : State) (arg : Word) : State :=
  match lowestFree s with
  | none => irq (bump s pDIS DIS_USER_DROP 1) pDIS 3
  | some n =>
    let t := itemOf s 0x200
    let prio := rdF s pLCH LCH_USER_PRIO 3 0
    let w3 := setFld (setFld t.w3 3 0 prio) 7 4 (max t.thresh prio)
    queueItem (putItem s n { t with arg0 := arg, w3 := w3, state := .free, pending := false, late := false, tie := false }) n

/-- PROGRAM_START (R379): the named slot becomes READY when it is WAITING. -/
def programStart (s : State) (slot : Nat) : State :=
  if (itemOf s slot).state = .waiting then makeReady s slot else eventMiss s

/-! ### The tick (R380, R381) -/

/-- One DELAYED item leaves its list, in the fabric cycle `k` of the tick (R380). -/
def leaveDelay (s : State) (n : Nat) (tied : Bool) (k : Nat) : State :=
  let x := itemOf s n
  let tick := inF s pDIS DIS_TICK 13 0
  let called := cdiv x.due.toNat (max 1 tick) * max 1 tick
  let late := decide (called < s.com.time.toNat)
  let s := { s with dis := { s.dis with delayed := s.dis.delayed.filter (· != n) } }
  let s := putItem s n { x with late := x.late || late, tie := x.tie || tied }
  let s := if late then irq (bump s pDIS DIS_LATE_COUNT 1) pDIS 4 else s
  makeReadyAt s n (s.com.time + BitVec.ofNat 64 k)

/-- At a multiple of TICK every due item leaves, one per fabric cycle, by DUE and then by insertion (R380, R381). -/
def dispatcherTick (s : State) : State :=
  let tick := inF s pDIS DIS_TICK 13 0
  if tick = 0 ∨ s.com.time.toNat % tick ≠ 0 ∨ s.dis.stopped then s
  else
    let due := sortBy (fun a b => decide ((itemOf s a).due.toNat ≤ (itemOf s b).due.toNat))
      (s.dis.delayed.filter fun n => decide ((itemOf s n).due.toNat ≤ s.com.time.toNat))
    let dueOf (n : Nat) : Nat := (itemOf s n).due.toNat
    let cl (n : Nat) : Nat := (itemOf s n).cluster
    let tied (n : Nat) : Bool := due.any fun m => m != n && dueOf m == dueOf n && cl m == cl n
    let groups := (due.filter fun n => tied n && (due.find? fun m => dueOf m == dueOf n && cl m == cl n) == some n).length
    let s := due.zipIdx.foldl (fun s n => leaveDelay s n.1 (tied n.1) n.2) s
    bump s pDIS DIS_TIE_COUNT groups

/-! ### Failure (R386) -/

/-- An item fails: FAILED with its cause, the failure list, IRQ ITEM_FAILED and the bucket (R386). -/
def failItem (s : State) (n cause : Nat) : State :=
  let s := putItem s n { itemOf s n with state := .failed, cause := cause }
  let s := putFailures s (s.dis.failures ++ [n])
  showDis (lbEvent (irq s pDIS 0) pDIS).1

/-- A read of FAIL_NEXT pops the oldest failed slot (R389). -/
def failNext (s : State) : State × Word :=
  match s.dis.failures with
  | [] => (s, 0xFFFF)
  | n :: l => (putFailures s l, w32 n)

/-- A read of Q_MAXDEPTH: the selected queue's maximum since its last read, which starts again (R388, R389). -/
def maxDepthRead (s : State) : State × Word :=
  let q := 16 * rdF s pDIS DIS_QSEL 6 4 + rdF s pDIS DIS_QSEL 3 0
  ({ s with dis := { s.dis with maxDepth := s.dis.maxDepth.del q } }, rd s pDIS DIS_Q_MAXDEPTH)

/-! ### Contexts (R361, R384) -/

/-- The 64 words of a saved context (R361). -/
def contextWords (x : Core) : List Word :=
  ((List.finRange 31).map fun i => x.regs[i.val + 1]) ++ [x.lk, x.pc, x.runmode, x.trapRet, x.trapMode, x.trapInfo, x.trapAddr, x.scratch]
    ++ [x.bk[1], x.bk[2], x.bk[3], x.bl[1], x.bl[2], x.bl[3]] ++ x.pg.toList ++ [x.itw, x.dtw, x.csw] ++ List.replicate 8 0

/-- Words 39 to 55 of a context or environment record into a core; reserved bits read 0 (R9, R345, R348). -/
def loadEnv (x : Core) (w : Nat → Word) : Core :=
  { x with
      bk := Vector.ofFn fun i => if i.val = 0 then x.bk[0] else w (38 + i.val) &&& 0xC003FFFF
      bl := Vector.ofFn fun i => if i.val = 0 then x.bl[0] else w (41 + i.val) &&& 0x7FFFF
      pg := Vector.ofFn fun i => w (45 + i.val) &&& 0xC0000FFF, itw := w 53 &&& 0x07FF03FF, dtw := w 54 &&& 0x07FF03FF, csw := w 55 &&& 0x03FF03FF }

/-- A saved context into a core (R361). -/
def loadContext (x : Core) (w : Nat → Word) : Core :=
  let x := { x with regs := Vector.ofFn fun i => if i.val = 0 then 0 else w (i.val - 1) }
  let x := { x with lk := w 31, pc := w 32, runmode := w 33 &&& 3, trapRet := w 34, trapMode := w 35 &&& 3, trapInfo := w 36 &&& 0xFFF, trapAddr := w 37, scratch := w 38 }
  loadEnv x w

/-- A fresh item's registers (R384): w4 and w5 from the arguments, everything else 0; TRAP_BASE and the TCMs are the core's own. -/
def freshCore (x : Core) (i : Item) (now : Count) : Core :=
  { x with
      regs := ((Vector.replicate 32 0).set 4 i.arg0).set 5 i.arg1, pc := w32 (fld i.w0 15 0), lk := 0, runmode := if i.passenger then 1 else 0
      trapRet := 0, trapMode := 0, trapInfo := 0, trapAddr := 0, scratch := 0, bk := Vector.replicate 4 0, bl := Vector.replicate 4 0
      pg := Vector.replicate 8 0, itw := 0, dtw := 0, csw := 0, cycle := 0, cycleAt := now, cycleHi := 0 }

/-- Read a 256-byte context slot of a cluster store; none when it is uncorrectable. An armed injection makes it so (R386, R389). -/
def readContext (s : State) (n : Fin 48) (slot : Nat) (restore : Bool) : State × Option (Nat → Word) :=
  let c := cluNo n
  let armed := s.dis.inject.find? fun i => restore && i.2 == 1 && i.1 == c.val
  match armed with
  | some i => ({ s with dis := { s.dis with inject := removeFirst (fun x : Nat × Nat => x == i) s.dis.inject } }, none)
  | none =>
    match storeRead s c (coreIx n) (ctxBase s c.val + 256 * slot) 256 with
    | (s, some b) => (s, some fun w => w32 (ofBytesLE ((b.drop (4 * w)).take 4)))
    | (s, none) => (s, none)

/-! ### Dispatch (R382, R384) -/

/-- Is a core ready for an item: idle, in service and its domain on? -/
def coreFree (s : State) (n : Fin 48) : Bool :=
  (coreOf s n).mode == .idle && coreInService s n && pageUp s (pNCL (n.val / 8))

/-- A core stops running its item: busy cycles settle. -/
def stopRun (s : State) (n : Fin 48) : State :=
  let s := settleBusy s n.val
  { s with dis := { s.dis with running := s.dis.running.del n.val, since := s.dis.since.del n.val } }

/-- The mode a core takes when its item ends: held when a load waits for it, else idle (R368). -/
def restMode (s : State) (n : Fin 48) : CoreMode :=
  match (cluOf s (cluNo n)).load with
  | some j => if j.hold.testBit (n.val % 8) then .held else .idle
  | none => .idle

/-- A core starts an item: a fresh one, or one whose context it reads back (R384). -/
def startItem (s : State) (n : Fin 48) (i : Nat) : State :=
  let x := itemOf s i
  let q := 16 * x.cluster + x.prio
  let s := putQueue s q ((queueOf s q).filter (· != i))
  let s := countWait s q (s.com.time.toNat - x.entered.toNat)
  let resumed := x.state == .preempted
  let (s, core) : State × Option Core :=
    if resumed then
      match readContext s n x.ctx true with
      | (s, some w) => (s, some (loadContext (coreOf s n) w))
      | (s, none) => (s, none)
    else
      let f := freshCore (coreOf s n) x s.com.time
      if x.env = 0x3F then (s, some f)
      else match readContext s n x.env false with
        | (s, some w) => (s, some (loadEnv f w))
        | (s, none) => (s, none)
  let s := if resumed then { s with dis := { s.dis with contexts := s.dis.contexts.del (1024 * x.cluster + x.ctx) } } else s
  match core with
  | none => failItem s i 4
  | some k =>
    let s := setCore s n { k with mode := .run }
    let s := putItem s i { x with state := .running, ctx := 0 }
    let s := { s with dis := { s.dis with running := s.dis.running.put n.val i, since := s.dis.since.put n.val s.com.time } }
    let s := if resumed then s else
      bumpSince { s with dis := { s.dis with started := s.dis.started.put n.val (satAdd 0xFFFFFFFF (s.dis.started.getD n.val 0) 1) } }
        pDIS (DIS_SNAP_RUN + 4 * x.cluster) 1
    showDis s

/-- The item that a core may take: the highest level first, then queue order, passing over items whose CORE_MASK leaves the core out (R382). -/
def nextFor (s : State) (n : Fin 48) : Option Nat :=
  (List.range 16).reverse.findSome? fun l =>
    (queueOf s (16 * (n.val / 8) + l)).find? fun i => (itemOf s i).mask.testBit (n.val % 8)

/-- Each idle core of a cluster, the lower first, takes an item (R382). -/
def dispatchCluster (s : State) (c : Clu) : State :=
  (coresOf c).foldl (fun s n =>
    if coreFree s n then
      match nextFor s n with
      | some i => startItem s n i
      | none => s
    else s) s

/-! ### Pre-emption (R383, R384) -/

/-- The lowest free context slot of a cluster, above its environment records. -/
def freeContext (s : State) (c : Nat) : Option Nat :=
  ((List.range (ctxCount s c)).drop (envCount s c)).find? fun k => (s.dis.contexts.get? (1024 * c + k)).isNone

/-- The victim for an item among eligible cores that no pre-emption is in flight to: the lowest THRESH below its priority, the lowest core on a tie (R383). -/
def victimFor (s : State) (c : Clu) (i : Nat) (inFlight : List (Fin 48)) : Option (Fin 48) :=
  let p := (itemOf s i).prio
  let elig := (coresOf c).filter fun n => (itemOf s i).mask.testBit (n.val % 8) && coreInService s n
  if elig.any fun n => coreFree s n then none
  else
    minBy? (fun n => match s.dis.running.get? n.val with
        | some r => (itemOf s r).thresh
        | none => 16)
      (elig.filter fun n => match s.dis.running.get? n.val with
        | some r => decide ((itemOf s r).thresh < p) && !inFlight.contains n
        | none => false)

/-- Save a victim into a context slot; it becomes PREEMPTED at the head of its queue (R383, R384). -/
def preempt (s : State) (n : Fin 48) (slot : Nat) : State :=
  match s.dis.running.get? n.val with
  | none => s
  | some r =>
    let c := cluNo n
    let bytes := (contextWords (coreOf s n)).flatMap fun w => bytesLE 4 w.toNat
    let s := storeWrite s c (coreIx n) (ctxBase s c.val + 256 * slot) bytes
    let s := stopRun s n
    let x := itemOf s r
    let s := putItem s r { x with state := .preempted, ctx := slot, entered := s.com.time }
    let s := { s with dis := { s.dis with
      contexts := s.dis.contexts.put (1024 * c.val + slot) r,
      preempts := s.dis.preempts.put n.val (satAdd 0xFFFFFFFF (s.dis.preempts.getD n.val 0) 1) } }
    let s := bumpSince s pDIS (DIS_SNAP_PRE + 4 * c.val) 1
    let q := 16 * c.val + x.prio
    let s := putQueue s q (r :: queueOf s q)
    setCore s n { coreOf s n with mode := restMode s n }

/-- The pre-emption that can take place now: the READY items of a cluster choose their victims in the order of their queues, and one whose victim runs a trap handler waits with its pre-emption in flight (R361, R383). -/
def preemptPick (s : State) (c : Clu) : Option (Nat × Fin 48) :=
  let items := (List.range 16).reverse.flatMap fun l => (queueOf s (16 * c.val + l)).filter fun i => (itemOf s i).state == .ready
  (items.foldl (fun (acc : Option (Nat × Fin 48) × List (Fin 48)) i =>
    match acc.1, victimFor s c i acc.2 with
    | none, some n => if (coreOf s n).handler then (none, n :: acc.2) else (some (i, n), acc.2)
    | _, _ => acc) (none, [])).1

/-- A READY item of a cluster pre-empts when it may; with no free context slot IRQ CTX_FULL is set (R383). A cluster without a context area never pre-empts (R389). -/
def preemptCluster (s : State) (c : Clu) : State :=
  match preemptPick s c with
  | none => s
  | some (i, n) =>
    if ctxCount s c.val = 0 then s
    else match freeContext s c.val with
      | none => irq s pDIS 2
      | some slot =>
        let s := preempt s n slot
        if coreFree s n then showDis (startItem s n i) else showDis s

/-! ### Endings (R386, R387) -/

/-- What END_ACTION does to an ended item's slot; an interrupt slot re-arms instead (R378, R386). -/
def endAction (s : State) (i : Nat) (w4 : Word) : State :=
  let x := itemOf s i
  if i < 0x1FF then
    if x.pending || irqRaised s i then makeReady (putItem s i { x with pending := false, state := .waiting }) i
    else putItem s i { x with state := .waiting }
  else match x.endAction with
    | 1 => putItem s i { x with state := .done, arg0 := w4 }
    | 2 =>
      let s := putItem s i { x with state := .free }
      if (itemOf s x.wake).state = .waiting then makeReady s x.wake else eventMiss s
    | _ => putItem s i { x with state := .free }

/-- The running item of a core ends; the core becomes idle (R386). -/
def endItem (s : State) (n : Fin 48) : State :=
  match s.dis.running.get? n.val with
  | none => if (coreOf s n).mode = .run then setCore s n { coreOf s n with mode := restMode s n } else s
  | some i =>
    let w4 := (coreOf s n).reg 4
    let s := stopRun s n
    let s := setCore s n { coreOf s n with mode := restMode s n }
    showDis (endAction s i w4)

/-- The running item of a core fails (R386). -/
def failRunning (s : State) (n : Fin 48) (cause : Nat) : State :=
  match s.dis.running.get? n.val with
  | none => s
  | some i => failItem (stopRun s n) i cause

/-- A cluster is retired: its READY, PREEMPTED and DELAYED items fail (R386). -/
def failCluster (s : State) (c : Nat) : State :=
  let lost := (s.dis.items.filter fun e => e.2.cluster == c
    && (e.2.state == .ready || e.2.state == .preempted || e.2.state == .delayed)).map (·.1)
  lost.foldl (fun s i =>
    let x := itemOf s i
    let s := unqueue s i
    let s := if x.state = .preempted then { s with dis := { s.dis with contexts := s.dis.contexts.del (1024 * c + x.ctx) } } else s
    failItem s i 3) s

/-- The ferry cluster: NCL0 while in service, else the lowest in service (R387). -/
def ferryCluster (s : State) : Option Nat :=
  (List.range 6).find? fun c => !cluGone s c && (coresOf ⟨c % 6, by omega⟩).any fun n => coreInService s n

/-- PWR_FAIL is raised: nothing but the ferry slot becomes ready, and it does so on the ferry cluster at PRIO 15 and THRESH 15, pre-empting (R387). -/
def ferryItem (s : State) : State :=
  let s := { s with dis := { s.dis with stopped := true } }
  match ferryCluster s with
  | none => s
  | some c =>
    let x := itemOf s 0x1FF
    let w3 := setFld (setFld (setFld (setFld x.w3 3 0 15) 7 4 15) 10 8 c) 23 16 0xFF
    makeReady (putItem s 0x1FF { x with w3 := w3 }) 0x1FF

/-- `DIS.ERR_INJECT` (R389). -/
def disInject (s : State) (v : Word) : State :=
  let code := fld v 3 0
  if code = 1 ∨ code = 2 then { s with dis := { s.dis with inject := s.dis.inject ++ [(fld v 6 4, code)] } } else s

/-- Commit checks of `DIS` (R390). -/
def checkDis (s : State) : List (Nat × Nat) :=
  let tick := rdF s pDIS DIS_TICK 13 0
  (if tick < 100 ∨ tick > 10000 then [(DIS_TICK, 1)] else [])
  ++ (List.range 6).flatMap fun c =>
    let off := DIS_CTX_AREA + 8 * c
    let new := rd s pDIS off
    let env := fld new 31 26
    let cnt := fld new 25 16
    let changed := new != inForce s pDIS off
    let held := s.dis.items.any fun e => e.2.cluster == c && (e.2.state == .preempted
      || ((e.2.state == .ready || e.2.state == .delayed || e.2.state == .running) && e.2.env != 0x3F))
    (if fld new 8 0 * 4096 + cnt * 256 > 0x200000 then [(off, 1)] else [])
    ++ (if env > cnt then [(off, 3)] else [])
    ++ (if changed && held then [(off, 3)] else [])
    ++ (if cnt ≠ 0 ∧ !s.com.chip.hasCluster c then [(off, 5)] else [])

end Sys2Proof.Machine
end

