-- ==== Sys2Proof/Machine/Cores.lean ====
section
/-! DEFINITION. Traps, core resets, retirement of cores and clusters, and the cluster load engine (R357 to R372). -/

namespace Sys2Proof.Machine

/-! ### Reset vector and core reset (R359, R370) -/

/-- The reset vector of a core: TRAP_BASE + 64 × 0. -/
def Core.resetVector (x : Core) : Word := x.trapBase

/-- A core reset: PC at the reset vector, RUNMODE and CYCLE 0; TCMs and tables unchanged (R370). -/
def resetCore (s : State) (n : Fin 48) (m : CoreMode) : State :=
  let x := coreOf s n
  setCore s n { x with pc := x.resetVector, runmode := 0, cycle := 0, cycleAt := s.com.time, cycleHi := 0, mode := m }

/-! ### Retirement (R372, R600) -/

/-- The expert unlocks that a core holds end with its fencing (R58). -/
def endOwned (s : State) (num : Nat) : State :=
  (s.com.regs.live.filter fun e => decide (e.1 % 4096 = rUNLOCK) && fld e.2 31 24 == num).foldl (fun s e => wr s (e.1 / 4096) rUNLOCK 0) s

/-- A cluster is retired: FENCED, its domain isolated, its items failed (R372, R386, R600). -/
def retireCluster (s : State) (c : Clu) : State :=
  let s := wrB s (pNCL c.val) rSTATUS 1 true
  let s := wrB s pPMU PMU_ISO_STATE (20 + c.val) true
  let s := (List.range 8).foldl (fun s k => endOwned s (0x40 + 8 * c.val + k)) s
  logRetire (failCluster s c.val) (pNCL c.val) (Config.blockCause 14) 0x0020

/-- A core is retired: stopped, CORE_RETIRED, its running item FAILED, IRQ CORE_RETIRED; the last one takes the cluster with it (R372). -/
def retireCore (s : State) (n : Fin 48) : State :=
  if coreRetired s n || !s.com.chip.hasCluster (n.val / 8) then s
  else
    let p := pNCL (n.val / 8)
    let s := wrB s p NCL_CORE_RETIRED (n.val % 8) true
    let s := setFault (failRunning s n 2) p .permanent (Config.blockCause 15) (n.val % 8)
    let s := endOwned (setCore s n { coreOf s n with mode := .halted }) (0x40 + n.val)
    let s := logRetire (irq s p 0) p (Config.blockCause 15) (n.val % 8)
    if (coresOf (cluNo n)).any fun m => coreInService s m then s else retireCluster s (cluNo n)

/-- Retire the cores of a mask, ascending (R372 CORE_RETIRE). -/
def retireCores (s : State) (c : Clu) (mask : Nat) : State :=
  (coresOf c).foldl (fun s n => if mask.testBit (n.val % 8) then retireCore s n else s) s

/-- The bucket of a cluster has overflowed: the lowest core whose TCM_CE is at least half of LB_LIMIT is retired (R372). -/
def nclOverflow (s : State) (c : Clu) : State :=
  let p := pNCL c.val
  let half := inF s p rLB_LIMIT 15 0
  match (List.range 8).find? fun k => decide (half ≤ 2 * rdF s p (NCL_TCM_CE + 4 * k) 15 0) && decide (half ≠ 0) with
  | some k => retireCore s (coreNo c ⟨k % 8, by omega⟩)
  | none => s

/-- Escalate when the bucket of a cluster overflowed between two states. -/
def nclEscalate (before after : State) (c : Clu) : State :=
  if after.com.lbFired.contains (pNCL c.val) && !before.com.lbFired.contains (pNCL c.val) then nclOverflow after c else after

/-! ### Traps (R357 to R360) -/

/-- The double traps of the last 1 ms: a cluster whose every in-service core is among them is to have its island reset (R611). -/
def noteDoubleTrap (s : State) (n : Fin 48) : State :=
  let s := { s with flt := { s.flt with doubleTraps := s.flt.doubleTraps.put n.val s.com.time } }
  let c := cluNo n
  let code := 256 + 0x10 + c.val
  if s.flt.resets.contains code || s.flt.resets.contains (0x10 + c.val) then s
  else if (coresOf c).all fun m => !coreInService s m || match s.flt.doubleTraps.get? m.val with
      | some t => decide ((s.com.time - t).toNat < 1000000)
      | none => false then { s with flt := { s.flt with resets := s.flt.resets ++ [code] } }
  else s

/-- A double trap: the core stops, the page records it, and the core resets itself and returns to idle; its item fails (R358, R386). -/
def doubleTrap (s : State) (n : Fin 48) : State :=
  let p := pNCL (n.val / 8)
  let s0 := s
  let s := setFault s p .transient (Config.blockCause 16) (n.val % 8)
  let s := bump s p NCL_DOUBLE_TRAP 1
  let s := (lbEvent s p).1
  let s := irq s p 1
  let s := failRunning s n 1
  noteDoubleTrap (nclEscalate s0 (resetCore s n (restMode s n)) (cluNo n)) n

/-- A trap, in one step: TRAP_RET, TRAP_MODE, RUNMODE, TRAP_INFO, TRAP_ADDR for an access or alignment fault, and the vector; under a handler it is a double trap (R357, R358). -/
def trap (s : State) (n : Fin 48) (code sub : Nat) (addr : Option Word) (ret : Word) : State :=
  let x := coreOf s n
  if x.handler then doubleTrap s n
  else
    let s := setCore s n
      { x with
          trapRet := ret, trapMode := x.runmode, runmode := 2, trapInfo := w32 (sub % 256 * 16 + code)
          trapAddr := addr.getD x.trapAddr, pc := x.trapBase + w32 (64 * code) }
    let p := pNCL (n.val / 8)
    bumpSince (bump s p NCL_TRAP_COUNT 1) p NCL_SNAP_TRAPS 1

/-! ### Micro-op checks (R363, R365) -/

/-- Is a DST encoding defined? -/
def uDstOk (d : Nat) : Bool := d == 0 || decide (8 ≤ d)
/-- Is a source encoding defined? -/
def uSrcOk (d : Nat) : Bool := decide (d ≤ 4) || decide (8 ≤ d)

/-- Does a micro-op hold only defined CLASS, DST, SRCA, SRCB and FUNC? (R363) -/
def uopDefined (w : Word) : Bool :=
  let func := fld w 15 10
  let fok := match fld w 31 28 with
    | 0 => decide (func ≤ 0xB)
    | 1 => decide (func ≤ 0xB)
    | 2 => func == 0
    | 3 => func == 0
    | 4 => decide (func ≤ 5)
    | 5 => decide (func ≤ 3)
    | 6 => decide (func ≤ 2)
    | 15 => func == 0
    | _ => false
  fok && uDstOk (fld w 27 24) && uSrcOk (fld w 23 20) && uSrcOk (fld w 19 16)

/-- The first failing micro-op of a decode table entry's sequence, or none (R365). -/
def badSequence (entry : Word) (uc : Nat → Word) : Option Nat :=
  let start := fld entry 11 0
  let len := fld entry 27 20
  if start + len > 4095 then some start
  else
    let r := (List.range (len + 1)).foldl (fun (acc : Nat × Option Nat) i =>
      match acc.2 with
      | some _ => acc
      | none =>
        let w := uc (start + i)
        let cls := fld w 31 28
        let stores := acc.1 + (if cls = 3 then 1 else 0)
        let bad := !uopDefined w || (i == len && cls != 15) || (cls == 4 && decide (i + 1 + fld w 9 0 > len))
          || ((cls == 2 || cls == 3) && !bit entry 28) || decide (stores > 4)
        (stores, if bad then some (start + i) else none)) (0, none)
    r.2

/-! ### The load engine (R367 to R369) -/

/-- LOAD_STATUS (R370). -/
def loadStatus (s : State) (c : Clu) (busy : Bool) (uop sec result : Nat) : State :=
  wr s (pNCL c.val) NCL_LOAD_STATUS (w32 ((if busy then 2 ^ 31 else 0) + uop % 4096 * 65536 + sec % 256 * 256 + result))

/-- A load ends with a failure. -/
def loadFails (s : State) (c : Clu) (uop sec result : Nat) : State := irq (loadStatus s c false uop sec result) (pNCL c.val) 3

/-- A section descriptor from its 16 bytes (R367). -/
def sectionOf (b : List Byte) : Section :=
  let at_ (o n : Nat) := ofBytesLE ((b.drop o).take n)
  ⟨at_ 0 1, at_ 1 1, at_ 4 4, at_ 8 4, at_ 12 4⟩

/-- Is a section well formed? (R369 BAD_SECTION) -/
def sectionOk (s : State) (c : Clu) (x : Section) : Bool :=
  let size := match x.kind with
    | 1 => 0x10000
    | 2 => 0x10000
    | 3 => 0x200000
    | 4 => 64
    | 5 => 16384
    | _ => 0
  decide (1 ≤ x.kind) && decide (x.kind ≤ 5) && decide (x.dest + x.len ≤ size) && x.len % 4 == 0
    && ((coresOf c).all fun n => !x.mask.testBit (n.val % 8) || (s.com.chip.hasCluster c.val && !coreRetired s n))

/-- Words of a section's data. -/
def wordsOf : Nat → List Byte → List Word
  | 0, _ => []
  | k + 1, b => w32 (ofBytesLE (b.take 4)) :: wordsOf k (b.drop 4)

/-- One section's data goes to its memory. -/
def writeSection (s : State) (c : Clu) (x : Section) (b : List Byte) : State :=
  match x.kind with
  | 1 => (coresOf c).foldl (fun s n =>
      if x.mask.testBit (n.val % 8) then
        let k := coreOf s n
        putCore s n { k with itcm := k.itcm.writeN x.dest b, itcmErr := k.itcmErr.dropRange (x.dest / 4) ((x.dest + x.len) / 4) }
      else s) s
  | 2 => (coresOf c).foldl (fun s n =>
      if x.mask.testBit (n.val % 8) then
        let k := coreOf s n
        putCore s n { k with dtcm := k.dtcm.writeN x.dest b, dtcmErr := k.dtcmErr.dropRange (x.dest / 4) ((x.dest + x.len) / 4) }
      else s) s
  | 3 => storeWrite s c 0 x.dest b
  | 4 => (wordsOf (x.len / 4) b).zipIdx.foldl (fun s w =>
      if h : x.dest / 4 + w.2 < 16 then putClu s c { cluOf s c with table := (cluOf s c).table.set (x.dest / 4 + w.2) w.1 } else s) s
  | _ => (wordsOf (x.len / 4) b).zipIdx.foldl (fun s w =>
      putClu s c { cluOf s c with ucode := (cluOf s c).ucode.putD (x.dest / 4 + w.2) w.1 0 }) s

/-- The load engine reads as the security processor that ordered the load. -/
def loadReader : Initiator := .sp 0

/-- The data of a section. -/
def sectionData (s : State) (src : Nat) (x : Section) : State × Bulk := bulkRead s loadReader (src + x.src) x.len []

/-- Release: TABLE_GEN rises when the load held tables, held cores start at the reset vector with RUNMODE 0, and LOAD_STATUS shows OK (R368). -/
def loadRelease (s : State) (c : Clu) : State :=
  match (cluOf s c).load with
  | none => s
  | some j =>
    let p := pNCL c.val
    let s := putClu s c { cluOf s c with load := none }
    let s := if j.tables then wr s p NCL_TABLE_GEN (w32 ((rdF s p NCL_TABLE_GEN 15 0 + 1) % 65536)) else s
    let s := (coresOf c).foldl (fun s n =>
      if j.hold.testBit (n.val % 8) && !coreRetired s n then resetCore s n .run else s) s
    irq (loadStatus s c false 0 0 0) p 2

/-- Write step: sections in descriptor order, every byte through the snoop digest; then the release, which a table load holds until its boot record is durable (R368, R369, R531, R532). -/
def loadWrite (s : State) (c : Clu) (j : LoadJob) : State :=
  let r := j.sections.zipIdx.foldl (fun (acc : State × Option Nat) x =>
    match acc.2 with
    | some _ => acc
    | none =>
      if x.1.len = 0 then acc
      else match sectionData acc.1 j.src x.1 with
        | (s, .ok b) => (writeSection (snLoad s b) c x.1 b, none)
        | (s, _) => (s, some x.2)) (s, if j.tables && noRing s then some 0 else none)
  let s := r.1
  match r.2 with
  | some i =>
    let s := putClu s c { cluOf s c with load := none }
    let s := if j.tables then putClu s c { cluOf s c with table := Vector.replicate 16 0 } else s
    loadFails s c 0 i 4
  | none =>
    if j.tables then
      let gen := (rdF s (pNCL c.val) NCL_TABLE_GEN 15 0 + 1) % 65536
      let s := putClu s c { cluOf s c with load := some { j with written := true } }
      queueRecord s ⟨3, bytesLE 2 c.val ++ bytesLE 2 gen, [], .tableLoad c⟩
    else loadRelease s c

/-- Proceed with a load once no held core runs an item (R368). -/
def loadProceed (s : State) (c : Clu) : State :=
  match (cluOf s c).load with
  | none => s
  | some j =>
    if j.written || ((coresOf c).any fun n => j.hold.testBit (n.val % 8) && (coreOf s n).mode == .run) then s
    else loadWrite s c j

/-- Does a load hold tables? -/
def hasTables (l : List Section) : Bool := l.any fun x => x.kind == 4 || x.kind == 5

/-- The tables as they would stand after a load (R365, R368). -/
def tablesAfter (s : State) (c : Clu) (src : Nat) (l : List Section) : State × Option (Vector Word 16 × Tab Word) :=
  l.foldl (fun acc x =>
    if x.kind ≠ 4 ∧ x.kind ≠ 5 then acc
    else match acc.2 with
      | none => acc
      | some (t, u) =>
        match sectionData acc.1 src x with
        | (s, .ok b) =>
          let ws := (wordsOf (x.len / 4) b).zipIdx
          if x.kind = 4 then
            (s, some (ws.foldl (fun t w => if h : x.dest / 4 + w.2 < 16 then t.set (x.dest / 4 + w.2) w.1 else t) t, u))
          else (s, some (t, ws.foldl (fun u w => u.putD (x.dest / 4 + w.2) w.1 0) u))
        | (s, _) => (s, none)) (s, some ((cluOf s c).table, (cluOf s c).ucode))

/-- A START to LOAD_CTRL: check, hold, then write and release (R367 to R369). -/
def loadStart (s : State) (c : Clu) (v : Word) : State :=
  let p := pNCL c.val
  let count := fld v 15 8
  if !bit v 0 || bit (rd s p NCL_LOAD_STATUS) 31 then s
  else if count = 0 then irq (loadStatus s c false 0 0 0) p 2
  else
    let src := rdF s p NCL_LOAD_SRC_HI 15 0 * 2 ^ 32 + (rd s p NCL_LOAD_SRC_LO).toNat
    match bulkRead s loadReader src (16 * count) [] with
    | (s, .ok b) =>
      let l := (List.range count).map fun i => sectionOf ((b.drop (16 * i)).take 16)
      match l.findIdx? fun x => !sectionOk s c x with
      | some i => loadFails s c 0 i 1
      | none =>
        if hasTables l && !bit v 1 then loadFails s c 0 0 3
        else
          let (s, after) := if hasTables l then tablesAfter s c src l else (s, some ((cluOf s c).table, (cluOf s c).ucode))
          match after with
          | none => loadFails s c 0 0 4
          | some (t, u) =>
            let bad := if hasTables l then (t.toList.filter fun e => bit e 31).findSome? fun e => badSequence e (fun i => u.getD i 0) else none
            match bad with
            | some i => loadFails s c i 0 2
            | none =>
              let whole := l.any fun x => decide (3 ≤ x.kind)
              let hold := if whole then 0xFF else l.foldl (fun m x => m ||| x.mask) 0
              let s := putClu s c { cluOf s c with load := some ⟨src, l, hold, hasTables l, false⟩ }
              let s := (coresOf c).foldl (fun s n =>
                if hold.testBit (n.val % 8) && (coreOf s n).mode == .idle then setCore s n { coreOf s n with mode := .held } else s) s
              loadProceed (loadStatus s c true 0 0 0) c
    | (s, _) => loadFails s c 0 0 4

/-! ### NCL pages (R370, R371) -/

/-- A write to CORE_RESET acts on idle and halted cores only (R370). -/
def coreResetWrite (s : State) (c : Clu) (v : Word) : State :=
  (coresOf c).foldl (fun s n =>
    let m := (coreOf s n).mode
    if bit v (n.val % 8) && (m == .idle || m == .halted) && !coreRetired s n then resetCore s n (restMode s n) else s) s

/-- `NCL.ERR_INJECT` (R370). -/
def nclInject (s : State) (c : Clu) (v : Word) : State :=
  let code := fld v 3 0
  let k := fld v 6 4
  if code = 4 then injected s fun s => doubleTrap s (coreNo c ⟨k % 8, by omega⟩)
  else if code = 1 ∨ code = 2 ∨ code = 3 ∨ code = 5 then putClu s c { cluOf s c with inject := (cluOf s c).inject ++ [(k, code)] }
  else s

/-- Does the dispatcher hold items bound to a cluster? (R371) -/
def boundItems (s : State) (c : Nat) : Bool :=
  s.dis.items.any fun e => e.2.state != .free && e.2.state != .done && e.2.state != .failed && e.2.clusterField == c

/-- Commit checks of `NCL` (R371). -/
def checkNcl (s : State) (c : Clu) : List (Nat × Nat) :=
  let p := pNCL c.val
  let clk := rdF s p NCL_CLK_REQ 4 0
  let en := rdF s p NCL_CORE_ENABLE 7 0
  (if clk < 6 ∨ clk > s.com.chip.clkMax then [(NCL_CLK_REQ, 1)] else [])
  ++ (if (coresOf c).any fun n => en.testBit (n.val % 8) && coreRetired s n then [(NCL_CORE_ENABLE, 5)] else [])
  ++ (if en = 0 ∧ inF s p NCL_CORE_ENABLE 7 0 ≠ 0 ∧ pageUp s p = true ∧ boundItems s c.val = true then [(NCL_CORE_ENABLE, 3)] else [])

end Sys2Proof.Machine
end

