-- ==== Sys2Proof/Machine/Filter.lean ====
section
/-! DEFINITION. The filter and project/aggregate stages of a caravan: the filter program and its check, records, columns, terms, the predicate tree, projection and aggregates (R440 to R453). -/

namespace Sys2Proof.Machine

/-! ### Bytes -/

/-- Byte `i` of a program or record, 0 beyond its end. -/
def bAt (p : List Byte) (i : Nat) : Nat := (p.getD i 0).toNat

/-- `n` bytes from `i`, little-endian. -/
def leAt (p : List Byte) (i n : Nat) : Nat := ofBytesLE ((p.drop i).take n)

/-- `n` bytes from `i`, big-endian. -/
def beAt (p : List Byte) (i n : Nat) : Nat := ofBytesLE ((p.drop i).take n).reverse

/-- Are `n` bytes from `i` all zero? -/
def zerosAt (p : List Byte) (i n : Nat) : Bool := ((p.drop i).take n).all (· == 0)

/-! ### Floating point (R444, R446, R449) -/

/-- Is a float64 bit pattern a NaN? -/
def f64Nan (x : Nat) : Bool := decide (x % 2 ^ 63 > 0x7FF0000000000000)

/-- The order of float64 values that are not NaN: −0 equals +0. -/
def f64Key (x : Nat) : Int := if x ≥ 2 ^ 63 then -((x % 2 ^ 63 : Nat) : Int) else (x : Int)

/-- Widen a float32 to float64, exactly. -/
def f32to64 (x : Nat) : Nat :=
  let sign := x / 2 ^ 31 * 2 ^ 63
  let e := x / 2 ^ 23 % 256
  let m := x % 2 ^ 23
  if e = 255 then sign + 0x7FF * 2 ^ 52 + m * 2 ^ 29
  else if e ≠ 0 then sign + (e + 896) * 2 ^ 52 + m * 2 ^ 29
  else if m = 0 then sign
  else let k := Nat.log2 m; sign + (k + 874) * 2 ^ 52 + (m * 2 ^ (52 - k) - 2 ^ 52)

/-- A finite float64 in units of 2^−1074. -/
def f64Units (x : Nat) : Int :=
  let e := x / 2 ^ 52 % 2048
  let m : Nat := x % 2 ^ 52
  let a : Nat := if e = 0 then m else (m + 2 ^ 52) * 2 ^ (e - 1)
  if x ≥ 2 ^ 63 then -(a : Int) else (a : Int)

/-- A count of units of 2^−1074 rounded to float64, nearest even; infinity beyond the largest. -/
def f64Round (n : Nat) : Nat :=
  if n < 2 ^ 53 then n
  else
    let sh := Nat.log2 n - 52
    let q := n / 2 ^ sh
    let r := n % 2 ^ sh
    let half := 2 ^ (sh - 1)
    let q := if r > half ∨ (r = half ∧ q % 2 = 1) then q + 1 else q
    let bits := sh * 2 ^ 52 + q
    if bits ≥ 0x7FF0000000000000 then 0x7FF0000000000000 else bits

/-- The float64 quiet NaN. -/
def f64QNaN : Nat := 0x7FF8000000000000

/-- Float64 addition, rounded to nearest even. -/
def f64Add (a b : Nat) : Nat :=
  let inf (x : Nat) : Bool := x % 2 ^ 63 == 0x7FF0000000000000
  if f64Nan a || f64Nan b then f64QNaN
  else if inf a && inf b then (if a = b then a else f64QNaN)
  else if inf a then a
  else if inf b then b
  else
    let s := f64Units a + f64Units b
    if s = 0 then (if a = 2 ^ 63 ∧ b = 2 ^ 63 then 2 ^ 63 else 0)
    else if s < 0 then 2 ^ 63 + f64Round (-s).toNat
    else f64Round s.toNat

/-! ### The filter program (R440 to R449) -/

/-- A column entry (R443). -/
structure FCol where
  pos : Nat
  width : Nat
  type : Nat
  scale : Nat

/-- A term entry (R445); `const` holds bytes 8 to 23. -/
structure FTerm where
  col : Nat
  op : Nat
  neg : Bool
  fold_ : Bool
  len : Nat
  part : Nat
  a : Nat
  b : Nat
  m : Nat
  const : List Byte

/-- A node entry (R447). -/
structure FNode where
  isOr : Bool
  neg : Bool
  kids : List Nat

/-- A filter program (R440, R441). -/
structure FProg where
  format : Nat
  tailSkip : Bool
  crlf : Bool
  presence : Bool
  output : Nat
  recLen : Nat
  pWidth : Nat
  pBE : Bool
  pIncl : Bool
  recDelim : Nat
  fieldDelim : Nat
  quote : Nat
  cols : List FCol
  terms : List FTerm
  nodes : List FNode
  proj : List Nat
  aggs : List (Nat × Nat)

/-- Read the column table. -/
def readCols (p : List Byte) (n : Nat) : List FCol :=
  (List.range n).map fun i =>
    let o := 0x40 + 8 * i
    ⟨leAt p o 2, leAt p (o + 2) 2, bAt p (o + 4), bAt p (o + 5) % 16⟩

/-- Read the term table. -/
def readTerms (p : List Byte) (n : Nat) : List FTerm :=
  (List.range n).map fun i =>
    let o := 0x240 + 32 * i
    ⟨bAt p o, bAt p (o + 1), bAt p (o + 2) % 2 == 1, bAt p (o + 2) / 2 % 2 == 1, bAt p (o + 3), bAt p (o + 4),
      leAt p (o + 8) 8, leAt p (o + 16) 8, leAt p (o + 24) 8, (p.drop (o + 8)).take 16⟩

/-- Read the node table. -/
def readNodes (p : List Byte) (n : Nat) : List FNode :=
  (List.range n).map fun i =>
    let o := 0x640 + 8 * i
    ⟨bAt p o % 2 == 1, bAt p o / 2 % 2 == 1, (List.range (min 6 (bAt p (o + 1)))).map fun k => bAt p (o + 2 + k)⟩

/-- The program of 2,048 bytes (R440, R441). -/
def readProg (p : List Byte) : FProg :=
  let fl := bAt p 7
  let px := bAt p 10
  { format := bAt p 1, tailSkip := fl % 2 == 1, crlf := fl / 2 % 2 == 1, presence := fl / 4 % 2 == 1, output := fl / 8 % 4
    recLen := leAt p 8 2 % 4096 + 1, pWidth := px % 8, pBE := px / 16 % 2 == 1, pIncl := px / 32 % 2 == 1
    recDelim := bAt p 11, fieldDelim := bAt p 12, quote := bAt p 13
    cols := readCols p (bAt p 2), terms := readTerms p (bAt p 3), nodes := readNodes p (bAt p 4)
    proj := (List.range (bAt p 5)).map fun i => bAt p (0x740 + 2 * i)
    aggs := (List.range (bAt p 6)).map fun i => (bAt p (0x760 + 4 * i), bAt p (0x761 + 4 * i)) }

/-! ### The program check (R453) -/

/-- DETAIL 0x21: the version, or a reserved field or encoding. -/
def check21 (p : List Byte) : Bool :=
  let nc := min 64 (bAt p 2)
  let nt := min 32 (bAt p 3)
  let nn := min 31 (bAt p 4)
  let fmt := bAt p 1
  let px := bAt p 10
  let pw := px % 8
  bAt p 0 != 1 || decide (fmt > 2) || decide (bAt p 7 / 32 ≠ 0) || decide (bAt p 7 / 8 % 4 = 3)
    || (fmt == 0 && decide (leAt p 8 2 / 4096 ≠ 0))
    || (fmt == 2 && (!(pw == 1 || pw == 2 || pw == 4) || decide (px / 8 % 2 ≠ 0) || decide (px / 64 ≠ 0)))
    || !zerosAt p 14 50 || !zerosAt p 0x738 8 || !zerosAt p 0x7A0 96
    || (List.range nc).any (fun i => decide (bAt p (0x44 + 8 * i) ≥ 8) || decide (bAt p (0x45 + 8 * i) / 16 ≠ 0) || !zerosAt p (0x46 + 8 * i) 2)
    || (List.range nt).any (fun i => decide (bAt p (0x241 + 32 * i) ≥ 12) || decide (bAt p (0x242 + 32 * i) / 4 ≠ 0)
        || decide (bAt p (0x244 + 32 * i) > 15) || !zerosAt p (0x245 + 32 * i) 3)
    || (List.range nn).any (fun i => decide (bAt p (0x640 + 8 * i) / 4 ≠ 0))
    || (List.range (min 16 (bAt p 5))).any (fun i => bAt p (0x741 + 2 * i) != 0)
    || (List.range (min 16 (bAt p 6))).any (fun i => decide (bAt p (0x760 + 4 * i) > 3) || !zerosAt p (0x762 + 4 * i) 2)

/-- DETAIL 0x22: a count above its limit, or more than 4 IN_SET terms. -/
def check22 (p : List Byte) (f : FProg) : Bool :=
  decide (bAt p 2 > 64) || decide (bAt p 3 > 32) || decide (bAt p 4 > 31) || decide (bAt p 5 > 16) || decide (bAt p 6 > 16)
    || decide (4 < (f.terms.filter fun t => t.op == 0xB).length)

/-- DETAIL 0x23: a column's width, place or type. -/
def check23 (f : FProg) : Bool :=
  f.cols.any fun c =>
    let text := c.type == 0 || c.type == 7
    let okWidth :=
      if text then (decide (1 ≤ c.width) || f.format == 1) && decide (c.width ≤ 4096)
      else if c.type = 5 ∨ c.type = 6 then c.width == 4 || c.width == 8
      else c.width == 1 || c.width == 2 || c.width == 4 || c.width == 8
    !okWidth || (f.format == 0 && decide (c.pos + c.width > f.recLen)) || (f.format == 1 && !text)

/-- Is an OP allowed for a column type? (R446) -/
def opFits (op type : Nat) : Bool :=
  if op = 6 then type != 0
  else if op = 7 ∨ op = 8 then type == 0
  else if op = 9 then decide (1 ≤ type) && decide (type ≤ 4)
  else true

/-- DETAIL 0x24: a term or aggregate on no column, an OP or FUNC not allowed for the type, or a LEN. -/
def check24 (f : FProg) : Bool :=
  let type (c : Nat) : Nat := (f.cols[c]?).elim 0 (·.type)
  f.terms.any (fun t => decide (t.col ≥ f.cols.length) || !opFits t.op (type t.col)
      || (type t.col == 0 && (decide (t.op ≤ 5) || t.op == 7 || t.op == 8) && (decide (t.len = 0) || decide (t.len > 16))))
    || f.aggs.any (fun a => a.1 != 0 && (decide (a.2 ≥ f.cols.length) || (a.1 == 1 && type a.2 == 0)))
    || f.proj.any (fun c => decide (c ≥ f.cols.length))

/-- Depth of each node: one more than its deepest parent; parents come first (R447). -/
def nodeDepths (f : FProg) : List Nat :=
  (List.range f.nodes.length).foldl (fun ds i =>
    let d := ((List.range i).map fun j =>
      if ((f.nodes[j]?).elim [] (·.kids)).contains (128 + i) then ds.getD j 1 + 1 else 1).foldl max 1
    ds ++ [d]) []

/-- DETAIL 0x25: the shape of the predicate tree. -/
def check25 (p : List Byte) (f : FProg) : Bool :=
  (List.range f.nodes.length).any (fun i =>
    let n := bAt p (0x641 + 8 * i)
    decide (n = 0) || decide (n > 6) || ((f.nodes[i]?).elim [] (·.kids)).any fun k =>
      if k ≥ 128 then decide (k % 128 ≥ f.nodes.length) || decide (k % 128 ≤ i) else decide (k ≥ f.terms.length))
    || (nodeDepths f).any fun d => decide (d > 4)

/-- The program check: the lowest DETAIL that applies; `partOk` says which IN_SET partitions the ring's owner may use (R453). -/
def checkProg (p : List Byte) (partOk : Nat → Bool) : Option Nat :=
  let f := readProg p
  if check21 p then some 0x21
  else if check22 p f then some 0x22
  else if check23 f then some 0x23
  else if check24 f then some 0x24
  else if check25 p f then some 0x25
  else if f.terms.any fun t => t.op == 0xB && !partOk t.part then some 0x26
  else none

/-! ### Records (R442) -/

/-- A record: as read with its delimiter or prefix, its body, and for delimited records its fields as (value, raw). -/
structure FRec where
  raw : List Byte
  body : List Byte
  fields : List (List Byte × List Byte)

/-- What the parser finds at the head of a stream. -/
inductive FNext where
  | record (r : FRec) (rest : List Byte)
  | partial_
  | malformed

/-- State of the delimited scan. -/
structure DScan where
  inQ : Bool
  pend : Bool
  atStart : Bool
  val : List Byte
  rawF : List Byte
  fields : List (List Byte × List Byte)
  raw : List Byte

/-- End the current field of a scan. -/
def DScan.push (d : DScan) : List (List Byte × List Byte) := d.fields ++ [(d.val, d.rawF)]

/-- Drop a trailing carriage return. -/
def dropCR (l : List Byte) : List Byte := if l.getLast? = some (0x0D : Byte) then l.dropLast else l

/-- Scan one delimited record (R442). -/
def scanDelim (f : FProg) : List Byte → DScan → FNext
  | [], d => if d.raw.length > 4096 then .malformed else .partial_
  | b :: bs, d =>
    let quoted (d : DScan) : Bool := d.inQ && !(d.pend && b.toNat != f.quote)
    if quoted d then
      if d.pend then scanDelim f bs { d with pend := false, val := d.val ++ [b], rawF := d.rawF ++ [b], raw := d.raw ++ [b] }
      else if b.toNat = f.quote then scanDelim f bs { d with pend := true, rawF := d.rawF ++ [b], raw := d.raw ++ [b] }
      else scanDelim f bs { d with val := d.val ++ [b], rawF := d.rawF ++ [b], raw := d.raw ++ [b] }
    else
      let d := { d with inQ := false, pend := false }
      if b.toNat = f.recDelim then
        if d.raw.length > 4096 then .malformed
        else
          let cut := f.crlf && f.recDelim == 0x0A && d.raw.getLast? == some (0x0D : Byte)
          let d' := if cut then { d with val := dropCR d.val, rawF := dropCR d.rawF } else d
          .record ⟨d.raw ++ [b], if cut then dropCR d.raw else d.raw, d'.push⟩ bs
      else if b.toNat = f.fieldDelim then
        scanDelim f bs { d with fields := d.push, val := [], rawF := [], atStart := true, raw := d.raw ++ [b] }
      else if d.atStart && f.quote != 0 && b.toNat == f.quote then
        scanDelim f bs { d with inQ := true, atStart := false, rawF := d.rawF ++ [b], raw := d.raw ++ [b] }
      else scanDelim f bs { d with atStart := false, val := d.val ++ [b], rawF := d.rawF ++ [b], raw := d.raw ++ [b] }

/-- The next record of a stream (R442). -/
def nextRecord (f : FProg) (bs : List Byte) : FNext :=
  match f.format with
  | 0 => if bs.length < f.recLen then .partial_ else .record ⟨bs.take f.recLen, bs.take f.recLen, []⟩ (bs.drop f.recLen)
  | 2 =>
    if bs.length < f.pWidth then .partial_
    else
      let v := if f.pBE then beAt bs 0 f.pWidth else leAt bs 0 f.pWidth
      if f.pIncl ∧ v < f.pWidth then .malformed
      else
        let n := if f.pIncl then v - f.pWidth else v
        if n > 4096 then .malformed
        else if bs.length < f.pWidth + n then .partial_
        else .record ⟨bs.take (f.pWidth + n), (bs.drop f.pWidth).take n, []⟩ (bs.drop (f.pWidth + n))
  | _ => scanDelim f bs ⟨false, false, true, [], [], [], []⟩

/-! ### Columns (R443, R444) -/

/-- A column's value in a record. -/
inductive FVal where
  | absent
  /-- TYPE 0x7 text that does not parse: absent, and a bad value. -/
  | bad
  | bytes (b : List Byte)
  | int (v : Int)
  | flt (bits : Nat)

/-- Is a byte an ASCII digit? -/
def isDigit (b : Byte) : Bool := decide (48 ≤ b.toNat) && decide (b.toNat ≤ 57)

/-- Digits as a number. -/
def digitsVal (l : List Byte) : Nat := l.foldl (fun n b => 10 * n + (b.toNat - 48)) 0

/-- Drop spaces at both ends. -/
def trimSpaces (l : List Byte) : List Byte :=
  ((l.dropWhile (· == 32)).reverse.dropWhile (· == 32)).reverse

/-- ASCII decimal text times 10^scale as a signed 64-bit integer (R444). -/
def parseDecimal (l : List Byte) (scale : Nat) : Option Int :=
  let t := trimSpaces l
  let (neg, t) := match t with
    | b :: r => if b = 45 then (true, r) else if b = 43 then (false, r) else (false, b :: r)
    | [] => (false, [])
  let whole := t.takeWhile isDigit
  let rest := t.dropWhile isDigit
  let frac := match rest with
    | [] => some []
    | b :: r => if b = 46 ∧ r.all isDigit then some r else none
  match frac with
  | none => none
  | some fr =>
    if (whole.isEmpty && fr.isEmpty) || decide (fr.length > scale) then none
    else
      let n := (digitsVal whole * 10 ^ fr.length + digitsVal fr) * 10 ^ (scale - fr.length)
      let v : Int := if neg then -(n : Int) else n
      if v < -(2 ^ 63) ∨ v ≥ 2 ^ 63 then none else some v

/-- A column's bytes by its type (R444). -/
def typedVal (c : FCol) (b : List Byte) : FVal :=
  let n := b.length
  match c.type with
  | 0 => .bytes b
  | 1 => .int (leAt b 0 n : Nat)
  | 2 => .int (sgn (8 * n) (leAt b 0 n))
  | 3 => .int (beAt b 0 n : Nat)
  | 4 => .int (sgn (8 * n) (beAt b 0 n))
  | 5 => .flt (if n = 4 then f32to64 (leAt b 0 4) else leAt b 0 8)
  | 6 => .flt (if n = 4 then f32to64 (beAt b 0 4) else beAt b 0 8)
  | _ => match parseDecimal b c.scale with
    | some v => .int v
    | none => .bad

/-- A column of a record (R443). -/
def colVal (f : FProg) (r : FRec) (c : FCol) : FVal :=
  if f.format = 1 then
    match r.fields[c.pos]? with
    | none => .absent
    | some (v, _) => typedVal c (if c.width = 0 then v else v.take c.width)
  else if c.pos + c.width > r.body.length then .absent
  else typedVal c ((r.body.drop c.pos).take c.width)

/-- Is a column present? -/
def FVal.present : FVal → Bool
  | .absent => false
  | .bad => false
  | _ => true

/-! ### Terms and nodes (R446, R447, R458) -/

/-- A byte folded to lower case (R445 FOLD). -/
def foldByte (b : Byte) : Byte := if 65 ≤ b.toNat ∧ b.toNat ≤ 90 then b + 32 else b

/-- Unsigned lexicographic order: −1, 0 or 1 (R446). -/
def lexCmp : List Byte → List Byte → Int
  | [], [] => 0
  | [], _ :: _ => -1
  | _ :: _, [] => 1
  | a :: as, b :: bs => if a.toNat < b.toNat then -1 else if b.toNat < a.toNat then 1 else lexCmp as bs

/-- Does a constant occur anywhere in a text? -/
def occurs (c : List Byte) : List Byte → Bool
  | [] => c.isEmpty
  | b :: bs => (b :: bs).take c.length == c || occurs c bs

/-- A comparison outcome under EQ, NE, LT, LE, GT, GE (R446). -/
def cmpOp (op : Nat) (c : Int) : Bool :=
  match op with
  | 0 => c == 0
  | 1 => c != 0
  | 2 => decide (c < 0)
  | 3 => decide (c ≤ 0)
  | 4 => decide (0 < c)
  | _ => decide (0 ≤ c)

/-- The match key of a value for IN_SET (R458). -/
def inSetKey (v : FVal) : BitVec 160 :=
  match v with
  | .int x => BitVec.ofNat 160 (toField 64 x)
  | .flt x => BitVec.ofNat 160 x
  | .bytes b => BitVec.ofNat 160 (beAt ((b ++ List.replicate 20 0).take 20) 0 20)
  | _ => 0

/-- A term's result before NOT (R446). -/
def termTrue (t : FTerm) (signed : Bool) (hit : Nat → BitVec 160 → Bool) (v : FVal) : Bool :=
  if !v.present then false
  else if t.op = 0xA then true
  else if t.op = 0xB then hit t.part (inSetKey v)
  else match v with
    | .int x =>
      let k (n : Nat) : Int := if signed then sgn 64 n else n
      if t.op = 6 then decide (k t.a ≤ x) && decide (x ≤ k t.b)
      else if t.op = 9 then toField 64 x &&& t.m == t.a
      else cmpOp t.op (x - k t.a)
    | .flt x =>
      if t.op = 6 then !f64Nan x && !f64Nan t.a && !f64Nan t.b && decide (f64Key t.a ≤ f64Key x) && decide (f64Key x ≤ f64Key t.b)
      else if f64Nan x || f64Nan t.a then t.op == 1
      else cmpOp t.op (f64Key x - f64Key t.a)
    | .bytes b =>
      let fold (l : List Byte) := if t.fold_ then l.map foldByte else l
      let c := fold (t.const.take t.len)
      let b := fold b
      if t.op = 7 then b.take t.len == c
      else if t.op = 8 then occurs c b
      else cmpOp t.op (lexCmp b c)
    | _ => false

/-- A node's result; parents come before children, so the tree is evaluated from the last node up (R447). -/
def nodeResults (f : FProg) (terms : List Bool) : List Bool :=
  (List.range f.nodes.length).reverse.foldl (fun (acc : List Bool) i =>
    match f.nodes[i]? with
    | none => acc
    | some n =>
      let kid (k : Nat) : Bool := if k ≥ 128 then acc.getD (k % 128 - i - 1) false else terms.getD k false
      let r := if n.isOr then n.kids.any kid else n.kids.all kid
      (r != n.neg) :: acc) []

/-- The values of all columns of a record. -/
def recVals (f : FProg) (r : FRec) : List FVal := f.cols.map (colVal f r)

/-- Does a record pass? Also the lookups its IN_SET terms make (R446, R447). -/
def recPasses (f : FProg) (vals : List FVal) (hit : Nat → BitVec 160 → Bool) : Bool :=
  let terms := f.terms.map fun t =>
    let ty := (f.cols[t.col]?).elim 0 (·.type)
    termTrue t (ty == 2 || ty == 4 || ty == 7) hit (vals.getD t.col .absent) != t.neg
  if f.terms.isEmpty then true
  else if f.nodes.isEmpty then terms.all id
  else (nodeResults f terms).headD true

/-- The lookups of a record's IN_SET terms, one each (R454). -/
def recLookups (f : FProg) (vals : List FVal) : List (Nat × BitVec 160) :=
  (f.terms.filter fun t => t.op == 0xB && (vals.getD t.col .absent).present).map fun t =>
    (t.part, inSetKey (vals.getD t.col .absent))

/-! ### Projection (R448) -/

/-- A number as big-endian bytes. -/
def bytesBE (n v : Nat) : List Byte := (bytesLE n v).reverse

/-- A record's output under OUTPUT 0b01; a column absent by its place or by its text gives zero bytes (R443, R448). -/
def projected (f : FProg) (r : FRec) (vals : List FVal) : List Byte :=
  if f.proj.isEmpty then []
  else if f.format = 1 then
    let raw (c : Nat) : List Byte := (((f.cols[c]?).bind fun k => r.fields[k.pos]?).map (·.2)).getD []
    let rec join : List Nat → List Byte
      | [] => []
      | [c] => raw c
      | c :: cs => raw c ++ [BitVec.ofNat 8 f.fieldDelim] ++ join cs
    join f.proj ++ [BitVec.ofNat 8 f.recDelim]
  else
    let part (c : Nat) : List Byte := match f.cols[c]? with
      | none => []
      | some k => if (vals.getD c .absent).present then (r.body.drop k.pos).take k.width else List.replicate k.width 0
    let body := f.proj.flatMap part
    let mask := (f.proj.zipIdx.map fun c => if (vals.getD c.1 .absent).present then 2 ^ c.2 else 0).foldl (· + ·) 0
    let head := if f.presence then bytesLE 2 mask else []
    let whole := head ++ body
    if f.format = 2 then
      let n := if f.pIncl then whole.length + f.pWidth else whole.length
      (if f.pBE then bytesBE f.pWidth n else bytesLE f.pWidth n) ++ whole
    else whole

/-! ### Aggregates (R449, R450) -/

/-- A running aggregate: VALUE as a 128-bit number, INCLUDED and FLAGS (R450). -/
structure FAgg where
  value : Nat
  included : Nat
  flags : Nat

/-- An aggregate that has included nothing: EMPTY set (R451). -/
def FAgg.zero : FAgg := ⟨0, 0, 1⟩

/-- An aggregate from its 32 bytes (R450, R451). -/
def FAgg.read (b : List Byte) : FAgg := ⟨leAt b 0 16, leAt b 16 8, leAt b 24 4⟩

/-- An aggregate's 32 bytes (R450). -/
def FAgg.write (a : FAgg) : List Byte := bytesLE 16 a.value ++ bytesLE 8 a.included ++ bytesLE 4 a.flags ++ bytesLE 4 0

/-- Set a flag bit. -/
def orFlag (fl i : Nat) : Nat := if fl.testBit i then fl else fl + 2 ^ i

/-- Include a value: VALUE replaced, INCLUDED + 1, EMPTY cleared. -/
def FAgg.take (a : FAgg) (v : Nat) : FAgg := ⟨v, a.included + 1, if a.flags.testBit 0 then a.flags - 1 else a.flags⟩

/-- One record into one aggregate (R449). -/
def aggStep (func : Nat) (signed : Bool) (v : FVal) (a : FAgg) : FAgg :=
  if func = 0 then a.take (a.value + 1)
  else match v with
    | .int x =>
      if func = 1 then
        let s := sgn 128 a.value + x
        let a' := a.take (toField 128 s)
        if s < -(2 ^ 127) ∨ s ≥ 2 ^ 127 then { a' with flags := orFlag a'.flags 1 } else a'
      else
        let old : Int := if signed then sgn 64 a.value else (a.value : Int)
        let better := if func = 2 then decide (x < old) else decide (old < x)
        a.take (if a.flags.testBit 0 || better then toField 64 x else a.value)
    | .flt x =>
      if func = 1 then a.take (if a.flags.testBit 0 then (if f64Nan x then f64QNaN else x) else f64Add a.value x)
      else if f64Nan x then { a with flags := orFlag a.flags 2 }
      else
        let better := if func = 2 then decide (f64Key x < f64Key a.value) else decide (f64Key a.value < f64Key x)
        a.take (if a.flags.testBit 0 || better then x else a.value)
    | .bytes b =>
      let x := (b ++ List.replicate 16 0).take 16
      let c := lexCmp x (bytesLE 16 a.value)
      let better := if func = 2 then decide (c < 0) else decide (0 < c)
      a.take (if a.flags.testBit 0 || better then ofBytesLE x else a.value)
    | _ => a

/-! ### The stages over a stream (R442, R448 to R451) -/

/-- The running state of a stream's filter stages: aggregates and the four counters (R450). -/
structure FState where
  aggs : List FAgg
  recordsIn : Nat
  passed : Nat
  tailSkipped : Nat
  badValues : Nat

/-- A stream's state before its first record (R451). -/
def FState.zero (n : Nat) : FState := ⟨List.replicate n FAgg.zero, 0, 0, 0, 0⟩

/-- What the stages make of a stream's bytes. -/
structure FOut where
  st : FState
  out : List Byte
  /-- Bytes of the record in progress. -/
  carry : List Byte
  lookups : List (Nat × BitVec 160)
  malformed : Bool

/-- One record through filter and project/aggregate (R448, R449). -/
def filterRecord (f : FProg) (filterOn projOn : Bool) (hit : Nat → BitVec 160 → Bool) (o : FOut) (r : FRec) : FOut :=
  let vals := recVals f r
  let bad := (vals.filter fun v => match v with
    | .bad => true
    | _ => false).length
  let pass := !filterOn || recPasses f vals hit
  let signed (c : Nat) : Bool := let t := (f.cols[c]?).elim 0 (·.type); t == 2 || t == 4 || t == 7
  let st := { o.st with recordsIn := o.st.recordsIn + 1, badValues := o.st.badValues + bad, passed := o.st.passed + (if pass then 1 else 0) }
  let st := if pass && projOn then
      { st with aggs := (f.aggs.zip st.aggs).map fun a => aggStep a.1.1 (signed a.1.2) (vals.getD a.1.2 .absent) a.2 } else st
  let out := if !pass then []
    else if !projOn then r.raw
    else match f.output with
      | 0 => r.raw
      | 1 => projected f r vals
      | _ => []
  { o with st := st, out := o.out ++ out, lookups := o.lookups ++ (if filterOn then recLookups f vals else []) }

/-- All whole records of a stream; the rest stays as the carry. `fuel` bounds the records. -/
def filterStream (f : FProg) (filterOn projOn : Bool) (hit : Nat → BitVec 160 → Bool) : Nat → List Byte → FOut → FOut
  | 0, bs, o => { o with carry := bs }
  | fuel + 1, bs, o =>
    if bs.isEmpty then { o with carry := [] }
    else match nextRecord f bs with
      | .record r rest => filterStream f filterOn projOn hit fuel rest (filterRecord f filterOn projOn hit o r)
      | .partial_ => { o with carry := bs }
      | .malformed => { o with malformed := true, carry := bs }

end Sys2Proof.Machine
end

