-- ==== Sys2Proof/Machine/Match.lean ====
section
/-! DEFINITION. The match engine: partitions, lookups, window operations, the ordered insert and the sweep (R455 to R464). -/

namespace Sys2Proof.Machine

/-! ### Partitions (R456) -/

/-- Offset of PART_RANGE_n (R463). -/
def partRangeOff (n : Nat) : Nat := 0x100 + 8 * n
/-- Offset of PART_CFG_n (R463). -/
def partCfgOff (n : Nat) : Nat := 0x104 + 8 * n

/-- First entry of a partition. -/
def partBase (s : State) (n : Nat) : Nat := inF s pMTE (partRangeOff n) 25 16 * 64
/-- Entries of a partition. -/
def partSize (s : State) (n : Nat) : Nat := inF s pMTE (partRangeOff n) 10 0 * 64
/-- Is a partition enabled with entries? (R463) -/
def partOn (s : State) (n : Nat) : Bool := inF s pMTE (partCfgOff n) 31 31 == 1 && decide (partSize s n ≠ 0)
/-- CLASS of a partition. -/
def partClass (s : State) (n : Nat) : Nat := inF s pMTE (partCfgOff n) 30 28

/-- The enabled partition of a class from 1 to 4 (R464). -/
def partOfClass? (s : State) (c : Nat) : Option Nat := (List.range 16).find? fun n => partOn s n && partClass s n == c

/-! ### Entries -/

/-- An entry by its number. -/
def matchEntry (s : State) (i : Nat) : MatchEntry := s.mte.entries.getD i MatchEntry.fresh

/-- VALID_COUNT follows the table (R463). -/
def refreshMatch (s : State) : State := wr s pMTE MTE_VALID_COUNT (w32 (s.mte.entries.filter fun e => e.2.valid).length)

/-- Set an entry: array, row and shadow are written anew (R455, R459). -/
def putMatch (s : State) (i : Nat) (e : MatchEntry) : State :=
  refreshMatch { s with mte := { s.mte with entries := s.mte.entries.putD i e MatchEntry.fresh, bad := s.mte.bad.del i } }

/-- Does an entry match a key? (R455) -/
def MatchEntry.matches (e : MatchEntry) (k : BitVec 160) : Bool := e.valid && (k &&& e.mask) == (e.value &&& e.mask)

/-- What is corrupt in an entry. -/
def badOf (s : State) (i : Nat) : MatchBad := s.mte.bad.getD i ⟨false, false, false⟩

/-- The entries of a partition whose array matches a key; one with a flipped array bit does not (R462). -/
def matching (s : State) (n : Nat) (k : BitVec 160) : List (Nat × MatchEntry) :=
  if !partOn s n then []
  else s.mte.entries.filter fun e =>
    decide (partBase s n ≤ e.1) && decide (e.1 < partBase s n + partSize s n) && !(badOf s e.1).array && e.2.matches k

/-- The winner: highest priority, then lowest index, and whether its priority is shared (R458). -/
def winner (l : List (Nat × MatchEntry)) : Option (Nat × MatchEntry × Bool) :=
  match minBy? (fun e => 65535 - e.2.prio) l with
  | none => none
  | some (i, e) => some (i, e, decide (1 < (l.filter fun x => x.2.prio == e.prio).length))

/-- Restore an entry from its shadow, or lose it when row and shadow are both corrupt (R462). -/
def restoreMatch (s : State) (i : Nat) : State :=
  if (badOf s i).row && (badOf s i).shadow then
    irq (setFault (putMatch s i { matchEntry s i with valid := false }) pMTE .uncorrectable (Config.blockCause 11) i) pMTE 1
  else irq (bump (putMatch s i (matchEntry s i)) pMTE MTE_REPAIRS 1) pMTE 0

/-- A lookup in a partition (R457, R458): the winner's row is checked, and a bad one restored with the lookup replayed once (R462). -/
def matchLookup (s : State) (n : Nat) (k : BitVec 160) : State × Option (Nat × MatchEntry × Bool) :=
  let s := bumpSince (bump s pMTE MTE_LOOKUPS 1) pMTE MTE_SNAP_LOOKUPS 1
  let s := match winner (matching s n k) with
    | some (i, _, _) => if (badOf s i).row then restoreMatch s i else s
    | none => s
  match winner (matching s n k) with
  | none => ({ s with mte := { s.mte with last := some (false, false, 0, 0, 0) } }, none)
  | some (i, e, multi) =>
    let s := bump s pMTE MTE_HITS 1
    let s := if multi then bump s pMTE MTE_MULTI_COUNT 1 else s
    ({ s with mte := { s.mte with last := some (true, multi, i - partBase s n, e.prio, e.result) } }, some (i - partBase s n, e, multi))

/-! ### Windows (R460, R461) -/

/-- Offset of a window register. -/
def winOff (w off : Nat) : Nat := off + 64 * w

/-- Five words as a 160-bit value, the first lowest. -/
def winKey (s : State) (w off : Nat) : BitVec 160 :=
  BitVec.ofNat 160 (((List.range 5).map fun i => (rd s pMTE (winOff w off + 4 * i)).toNat * 2 ^ (32 * i)).foldl (· + ·) 0)

/-- The window as an entry. -/
def winEntry (s : State) (w : Nat) : MatchEntry :=
  ⟨winKey s w MTE_VALUE0, winKey s w MTE_MASK0, rdF s pMTE (winOff w MTE_W_PRIO) 15 0, rd s pMTE (winOff w MTE_W_RESULT), true⟩

/-- Show a 160-bit value in five window registers. -/
def showKey (s : State) (w off : Nat) (v : BitVec 160) : State :=
  (List.range 5).foldl (fun s i => wr s pMTE (winOff w off + 4 * i) (w32 (v.toNat / 2 ^ (32 * i)))) s

/-- WSTATUS: HOLE_AT, VALID, MULTI, HIT and OP_STATUS (R463). -/
def winStatus (s : State) (w hole : Nat) (valid multi hit : Bool) (op : Nat) : State :=
  wr s pMTE (winOff w MTE_WSTATUS) (w32 (hole % 65536 * 65536 + (if valid then 1024 else 0) + (if multi then 512 else 0)
    + (if hit then 256 else 0) + op))

/-- The lowest invalid entry at or above an index within its reach (R461). -/
def holeFrom (s : State) (n idx : Nat) : Option Nat :=
  let hole := inF s pMTE (partCfgOff n) 23 16
  let reach := if hole = 0 then 256 else hole
  ((List.range (reach + 1)).map (idx + ·)).find? fun i => decide (i < partSize s n) && !(matchEntry s (partBase s n + i)).valid

/-- Move entries p − 1 to p for p from h down to idx + 1 (R461). -/
def shiftUp (s : State) (base idx : Nat) : Nat → State
  | 0 => s
  | k + 1 => shiftUp (putMatch s (base + idx + k + 1) (matchEntry s (base + idx + k))) base idx k

/-- A window operation on the window's own partition; `allowed` says that the initiator may use it (R460). -/
def mteOp (s : State) (w op : Nat) (allowed : Bool) : State :=
  let idx := rdF s pMTE (winOff w MTE_W_INDEX) 15 0
  let i := partBase s w + idx
  let fail (c : Nat) : State := winStatus s w 0 false false false c
  if !allowed then fail 3
  else if ferryRunning s then fail 5
  else if !partOn s w then fail 4
  else if op = 5 then
    match matchLookup s w (winKey s w MTE_VALUE0) with
    | (s, none) => winStatus s w 0 false false false 0
    | (s, some (j, e, multi)) =>
      let s := wr (wr s pMTE (winOff w MTE_W_PRIO) (w32 e.prio)) pMTE (winOff w MTE_W_RESULT) e.result
      winStatus (wr s pMTE (winOff w MTE_W_INDEX) (w32 j)) w 0 true multi true 0
  else if idx ≥ partSize s w then fail 1
  else match op with
  | 1 =>
    let e := matchEntry s i
    let s := showKey (showKey s w MTE_VALUE0 e.value) w MTE_MASK0 e.mask
    let s := wr (wr s pMTE (winOff w MTE_W_PRIO) (w32 e.prio)) pMTE (winOff w MTE_W_RESULT) e.result
    winStatus s w 0 e.valid false false 0
  | 2 => winStatus (putMatch (bump s pMTE MTE_UPDATES 1) i (winEntry s w)) w 0 true false false 0
  | 3 => winStatus (putMatch (bump s pMTE MTE_UPDATES 1) i { matchEntry s i with valid := false }) w 0 false false false 0
  | 4 =>
    match holeFrom s w idx with
    | none => fail 2
    | some h =>
      let e := winEntry s w
      let s := shiftUp (bump s pMTE MTE_UPDATES 1) (partBase s w) idx (h - idx)
      winStatus (putMatch s i e) w h true false false 0
  | _ => s

/-- The sweep reads every entry's row and shadow and repairs what disagrees (R462). -/
def mteSweep (s : State) : State :=
  if inF s pMTE MTE_SWEEP 15 0 = 0 then s
  else s.mte.bad.foldl (fun s b => restoreMatch s b.1) s

/-- MTE ERR_INJECT (R463). -/
def mteInject (s : State) (v : Word) : State :=
  let i := fld v 31 16
  let b := badOf s i
  let put (b : MatchBad) : State := { s with mte := { s.mte with bad := s.mte.bad.put i b } }
  match fld v 3 0 with
  | 1 => put { b with array := true }
  | 2 => put { b with row := true }
  | 3 => put { b with row := true, shadow := true }
  | _ => s

/-- Commit check of `MTE` (R464). -/
def checkMte (s : State) : List (Nat × Nat) :=
  let base (n : Nat) := rdF s pMTE (partRangeOff n) 25 16
  let size (n : Nat) := rdF s pMTE (partRangeOff n) 10 0
  let cfg (n : Nat) := rd s pMTE (partCfgOff n)
  let on (n : Nat) : Bool := bit (cfg n) 31
  let cls (n : Nat) := fld (cfg n) 30 28
  let ns := List.range 16
  let overlap (a b : Nat) : Bool := on a && on b && decide (a < b) && decide (base a < base b + size b) && decide (base b < base a + size a)
  let same (a b : Nat) : Bool := on a && on b && decide (a < b) && cls a == cls b && decide (1 ≤ cls a) && decide (cls a ≤ 4)
  let changed (n : Nat) : Bool := rd s pMTE (partRangeOff n) != inforceRange n || cls n != partClass s n
  let held (n : Nat) : Bool := s.mte.entries.any fun e => e.2.valid && decide (partBase s n ≤ e.1) && decide (e.1 < partBase s n + partSize s n)
  let sb := rdF s pMTE MTE_SHADOW_BASE 25 0 * 2 ^ 22
  let bad (f : Nat → Bool) (off : Nat → Nat) (code : Nat) : List (Nat × Nat) := (ns.filter f).map fun n => (off n, code)
  bad (fun n => on n && decide (base n + size n > 1024)) partRangeOff 1
  ++ (if sb < 0x1000000000 ∨ sb + 2 ^ 22 > 0x1000000000 + dramTop s then [(MTE_SHADOW_BASE, 1)] else [])
  ++ bad (fun n => decide (cls n ≥ 5)) partCfgOff 2
  ++ bad (fun n => ns.any fun m => overlap n m) partRangeOff 3
  ++ bad (fun n => ns.any fun m => same n m) partCfgOff 3
  ++ bad (fun n => bit (cfg n) 15 && cls n != 0) partCfgOff 3
  ++ bad (fun n => changed n && held n) (fun n => if rd s pMTE (partRangeOff n) != inforceRange n then partRangeOff n else partCfgOff n) 3
  ++ (if rd s pMTE MTE_SHADOW_BASE != inForce s pMTE MTE_SHADOW_BASE && s.mte.entries.any fun e => e.2.valid then [(MTE_SHADOW_BASE, 3)] else [])
  ++ bad (fun n => bit (cfg n) 15 && (!s.com.chip.hasCluster (fld (cfg n) 14 12) || bit (rd s (pNCL (fld (cfg n) 14 12)) rSTATUS) 1)) partCfgOff 5
where
  /-- PART_RANGE_n in force. -/
  inforceRange (n : Nat) : Word := inForce s pMTE (partRangeOff n)

end Sys2Proof.Machine
end

