-- ==== Sys2Proof/Machine/CaravanJob.lean ====
section
/-! DEFINITION. What one caravan job does: its descriptor, validation, the seven stages, its output, results and time (R391, R392, R396 to R401, R411, R412, R425, R435 to R439, R471 to R479, R483). -/

namespace Sys2Proof.Machine

/-! ### The descriptor (R396) -/

/-- A field of a descriptor. -/
def dField (d : List Byte) (o n : Nat) : Nat := ofBytesLE ((d.drop o).take n)
/-- STAGES. -/
def jStages (d : List Byte) : Nat := dField d 0 1
/-- Is a stage enabled? -/
def stageOn (d : List Byte) (i : Nat) : Bool := (jStages d).testBit i
/-- FIRST. -/
def jFirst (d : List Byte) : Bool := (dField d 1 1).testBit 0
/-- LAST. -/
def jLast (d : List Byte) : Bool := (dField d 1 1).testBit 1
/-- CHAIN_OUT. -/
def jChainOut (d : List Byte) : Bool := (dField d 1 1).testBit 2
/-- IRQ. -/
def jIrq (d : List Byte) : Bool := (dField d 1 1).testBit 5
/-- PRIO. -/
def jPrio (d : List Byte) : Nat := dField d 2 1 % 16
/-- CTX. -/
def jCtx (d : List Byte) : Nat := dField d 3 1
/-- KEY_DEC. -/
def jKeyDec (d : List Byte) : Nat := dField d 4 2
/-- KEY_ENC. -/
def jKeyEnc (d : List Byte) : Nat := dField d 6 2
/-- TWEAK. -/
def jTweak (d : List Byte) : Nat := dField d 8 8
/-- IN_ADDR. -/
def jInAddr (d : List Byte) : Nat := dField d 16 6
/-- COMP. -/
def jComp (d : List Byte) : Nat := dField d 22 1
/-- DIG. -/
def jDig (d : List Byte) : Nat := dField d 23 1
/-- IN_LEN. -/
def jInLen (d : List Byte) : Nat := dField d 24 4
/-- OUT_LEN. -/
def jOutLen (d : List Byte) : Nat := dField d 28 4
/-- OUT_ADDR. -/
def jOutAddr (d : List Byte) : Nat := dField d 32 6
/-- CIPH. -/
def jCiph (d : List Byte) : Nat := dField d 38 1
/-- PARAM_ADDR. -/
def jParam (d : List Byte) : Nat := dField d 40 6
/-- RESULT_ADDR. -/
def jResult (d : List Byte) : Nat := dField d 48 6
/-- CHAIN_ADDR. -/
def jChain (d : List Byte) : Nat := dField d 54 6
/-- TAG. -/
def jTag (d : List Byte) : Nat := dField d 60 4
/-- DEC_MODE. -/
def jDecMode (d : List Byte) : Nat := jCiph d % 4
/-- ENC_MODE. -/
def jEncMode (d : List Byte) : Nat := jCiph d / 4 % 4
/-- XTS data unit bytes. -/
def jUnit (d : List Byte) : Nat := if (jCiph d).testBit 4 then 4096 else 512
/-- Is GCM used by an enabled cipher stage? -/
def usesGcm (d : List Byte) : Bool := (stageOn d 0 && jDecMode d == 1) || (stageOn d 6 && jEncMode d == 1)
/-- FIRST and LAST as the decrypt and decompress stages take them: both 1 on the scan path ring (R415). -/
def unitFirst (ring : Nat) (d : List Byte) : Bool := ring == 2 || jFirst d
/-- LAST of the decrypt and decompress stages. -/
def unitLast (ring : Nat) (d : List Byte) : Bool := ring == 2 || jLast d

/-- Does the chain write an output stream, `projNone` telling that projection is switched off in the filter program? (R392) -/
def writesOutput (d : List Byte) (projNone : Bool) : Bool :=
  let st := jStages d % 128
  if st = 0 then true
  else if stageOn d 6 || stageOn d 5 then true
  else if stageOn d 3 then !projNone
  else stageOn d 2 || stageOn d 1 || stageOn d 0

/-- Reserved bits and encodings of a descriptor (R396, R397 DETAIL 0x01). -/
def reservedBits (d : List Byte) : Bool :=
  let f := dField d 1 1
  (jStages d).testBit 7 || f.testBit 3 || f.testBit 4 || f.testBit 6 || f.testBit 7 || decide (16 ≤ dField d 2 1)
    || (jComp d).testBit 7 || ((stageOn d 1 || stageOn d 5) && decide (5 ≤ jComp d / 16 % 8)) || (stageOn d 5 && decide (10 ≤ jComp d % 16))
    || decide (32 ≤ jCiph d) || (stageOn d 0 && decide (2 ≤ jDecMode d)) || (stageOn d 6 && decide (2 ≤ jEncMode d))
    || (stageOn d 4 && digestBlock (jDig d) == 0) || dField d 39 1 != 0 || dField d 46 2 != 0

/-- Validation of a descriptor before any data moves: the first DETAIL of R397 (and R425) that applies. `projNone` as for `writesOutput`; `held` is the slot when it is HELD by this ring. -/
def validateDesc (d : List Byte) (ring first count saveBase : Nat) (projNone : Bool) (held : Option CtxSlot) : Option Nat :=
  let z := stageOn d 1 || stageOn d 5
  if reservedBits d then some 0x01
  else if jOutLen d = 0 && writesOutput d projNone then some 0x02
  else if (jResult d = 0 || jResult d % 64 != 0) && (stageOn d 4 || usesGcm d || stageOn d 3) then some 0x03
  else if jParam d = 0 && (stageOn d 2 || stageOn d 3) then some 0x04
  else if jChainOut d && jChain d == 0 then some 0x05
  else if count ≠ 0 && (decide (jCtx d < first) || decide (first + count ≤ jCtx d)) then some 0x06
  else if !jFirst d && held.isNone then some 0x07
  else if (!jFirst d || !jLast d) && (count == 0 || (stageOn d 5 && saveBase == 0) || (stageOn d 1 && ring != 2 && saveBase == 0)) then some 0x08
  else if stageOn d 5 && (compFormat (jComp d) == 4 || (jComp d % 16 != 0 && decide (ring < 3))) then some 0x09
  else if !jFirst d && z && ring != 2 && (held.any fun h => (h.streams.zFmt.any (· != jComp d)) || (h.streams.comp.any fun c => c.fmt != jComp d)) then some 0x11
  else none

/-! ### Addresses (R43, R44, R419) -/

/-- Who issues a caravan's accesses. -/
def cvnWho (n : Nat) : Initiator := .block (BitVec.ofNat 12 (pCVN n))

/-- May a passenger-owned ring reach `len` bytes at a device address? The bank windows of the owning environment record decide (R345, R419). -/
def ownerAllows (s : State) (owner : Option (Nat × Nat)) (a len : Nat) (write : Bool) : Bool :=
  match owner with
  | none => true
  | some (c, env) =>
    let clu : Clu := ⟨c % 6, by omega⟩
    (List.range 3).any fun i =>
      let bk := envWord s clu env (39 + i)
      let bl := envWord s clu env (42 + i)
      let base := fld bk 17 0 * 2 ^ 30
      bit bk 31 && (!write || bit bk 30) && decide (base ≤ a) && decide (a + len ≤ base + min 262144 (fld bl 18 0) * 4096)

/-- A job's read: POLICY_DENIED is a refusal. -/
def jobRead (s : State) (n : Nat) (owner : Option (Nat × Nat)) (a len : Nat) (host : List Byte) : State × Bulk :=
  if len = 0 then (s, .ok [])
  else if !ownerAllows s owner a len false then (s, .refused cNOT_PERMITTED)
  else bulkRead s (cvnWho n) a len host

/-- A job's write; false when it is refused. -/
def jobWrite (s : State) (n : Nat) (owner : Option (Nat × Nat)) (a : Nat) (b : List Byte) : State × Bool :=
  if b.isEmpty then (s, true)
  else if !ownerAllows s owner a b.length true then (s, false)
  else let (s, r) := bulkWrite s (cvnWho n) a b; (s, r.isNone)

/-! ### Stages -/

/-- A chain in progress: the bytes at the point reached, the stream states, the status with its DETAIL, and per stage the bytes counted, for the job's time. -/
structure Chain where
  data : List Byte
  st : Streams
  status : Nat
  detail : Nat
  results : List (Nat × List Byte)
  /-- Latencies of the enabled stages. -/
  lat : Nat
  /-- ⌈B ÷ r⌉ up to and including decompress, and after it. -/
  before : Nat
  after : Nat
  /-- Bytes that decompress holds, none when it holds nothing; and a verify pass. -/
  held : Option Nat
  verify : Nat

/-- A chain that has met no failure. -/
def Chain.ok (c : Chain) : Bool := c.status == 0 || c.status == 2

/-- End the chain with a status; the data is dropped. -/
def Chain.fail (c : Chain) (status detail : Nat) : Chain := { c with status := status, detail := detail, data := [] }

/-- A chain that has met a failure passes nothing on to the stages of a mask that follow; with none of them the bytes are its output (R392, R403). -/
def Chain.gate (c : Chain) (d : List Byte) (later : Nat) : Chain := if !c.ok && jStages d &&& later != 0 then { c with data := [] } else c

/-- Count bytes at a stage after decompress: tenths of a byte per cycle. -/
def Chain.count (c : Chain) (isBefore : Bool) (bytes rate10 lat : Nat) : Chain :=
  let t := cdiv (10 * bytes) (max 1 rate10)
  if isBefore then { c with before := max c.before t, lat := c.lat + lat } else { c with after := max c.after t, lat := c.lat + lat }

/-- XTS over consecutive data units from a number; the last unit may be short (R476). -/
def xtsUnits (enc : Bool) (key : List Byte) (unit : Nat) : Nat → Nat → List Byte → List Byte
  | 0, _, _ => []
  | fuel + 1, k, b =>
    if b.isEmpty then []
    else fit (min unit b.length) (Config.xtsUnit enc key k (b.take unit)) ++ xtsUnits enc key unit fuel (k + 1) (b.drop unit)

/-- An XTS stage (R401, R476). -/
def xtsStage (enc : Bool) (key : List Byte) (unit : Nat) (last : Bool) (k : Nat) (part b : List Byte) : Option (List Byte × Nat × List Byte × Bool) :=
  let all := part ++ b
  let whole := all.length / unit * unit
  let rest := all.length - whole
  let units := all.length / unit + (if last ∧ rest ≠ 0 then 1 else 0)
  if k + units > 2 ^ 64 ∧ units ≠ 0 then none
  else if last then
    if rest ≠ 0 ∧ rest < 16 then some (xtsUnits enc key unit (units + 1) k (all.take whole), k + units, [], true)
    else some (xtsUnits enc key unit (units + 1) k all, k + units, [], false)
  else some (xtsUnits enc key unit (units + 1) k (all.take whole), k + all.length / unit, all.drop whole, false)

/-- GCM's keystream over bytes from a position (R477). -/
def gcmXor (key nonce : List Byte) (from_ : Nat) (b : List Byte) : List Byte :=
  b.zipIdx.map fun x => x.1 ^^^ Config.gcmKeystream key nonce (from_ + x.2)

/-- The decrypt stage (R476, R478). `expected` is the tag the result area holds. -/
def decryptStage (c : Chain) (ring : Nat) (d key expected : List Byte) : Chain :=
  let n := c.data.length
  if jDecMode d = 0 then
    match xtsStage false key (jUnit d) (unitLast ring d) (if unitFirst ring d then jTweak d else c.st.decUnit) c.st.decPart c.data with
    | none => c.fail 0x0C 0x3E
    | some (out, k, part, short) =>
      let c := ({ c with data := out, st := { c.st with decUnit := k, decPart := part } }).count true n 160 24
      if short then { c with status := 1 } else c
  else if n < 12 then c.fail 0x01 0
  else if n - 12 > 2 ^ 36 - 32 then c.fail 0x0C 0x39
  else
    let nonce := c.data.take 12
    let ct := c.data.drop 12
    if ofBytesLE (nonce.drop 4) < jTweak d then c.fail 0x03 0x3D
    else if fit 16 (Config.gcmTag key nonce ct) ≠ expected then c.fail 0x03 0x3C
    else
      let c := ({ c with data := gcmXor key nonce 0 ct }).count true n 160 20
      { c with verify := c.verify + cdiv (n - 12) 16 + 20 }

/-- Decode a stream by its FORMAT (R429 to R434). -/
def decodeAs (fmt : Nat) (inp : List Byte) : Decoded :=
  match fmt with
  | 0 => hylasDecode inp
  | 1 => inflate inp
  | 2 => gunzip inp
  | _ => zlibDecode inp

/-- Does a FORMAT carry a check? (R435) -/
def checkedFormat (fmt : Nat) : Bool := fmt == 0 || fmt == 2 || fmt == 3

/-- The decompress stage (R401, R425, R434 to R439). -/
def decompressStage (c : Chain) (ring : Nat) (d : List Byte) : Chain :=
  let fmt := compFormat (jComp d)
  let first := unitFirst ring d
  let last := unitLast ring d
  let rate := if fmt = 0 ∨ fmt = 4 then 160 else 40
  let lat := if fmt = 0 ∨ fmt = 4 then 32 else 40
  if fmt = 4 then
    let hist := if first then [] else c.st.zHist
    if c.data.isEmpty then ({ c with st := { c.st with zFmt := some (jComp d), zHist := hist } }).count true 0 rate lat
    else
      let r := lz4Block (c.data.length + 1) c.data hist hist.length 0
      let c' := ({ c with data := r.out, st := { c.st with zFmt := some (jComp d), zHist := (r.out.reverse ++ hist).take 65535 } }).count true (max r.out.length (16 * r.tokens)) rate lat
      match r.how with
      | .ended _ => c'
      | .malformed x => { c' with status := 0x0C, detail := x }
      | _ => { c' with status := 1 }
  else
    let seen := (if first then [] else c.st.zSeen) ++ c.data
    let before := if first then 0 else c.st.zOut
    let ended := !first && c.st.zEnded
    if seen.isEmpty then ({ c with st := { c.st with zFmt := some (jComp d), zSeen := [], zOut := 0 } }).count true 0 rate lat
    else
      let r := decodeAs fmt seen
      let out := r.out.drop before
      let per := if fmt = 0 then 16 else 4
      let c' := ({ c with data := out, st := { c.st with
            zFmt := some (jComp d), zSeen := seen, zOut := r.out.length, zEnded := (match r.how with
            | .ended _ => true
            | _ => false) } }).count true (max out.length (per * r.tokens)) rate (lat + 64 * r.dyn)
      let holds := last && checkedFormat fmt
      if holds && !first && decide (65536 < out.length) then c.fail 0x0C 0x14
      else match r.how with
        | .malformed x => if holds then c'.fail 0x0C x else { c' with status := 0x0C, detail := x }
        | .check => if holds then c'.fail 0x03 0 else { c' with status := 0x03 }
        | .more => if !last then c' else if holds then c'.fail 0x01 0 else { c' with status := 1 }
        | .ended rest =>
          let two := holds && decide (65536 < out.length)
          let c' := if holds then { c' with held := some (if two then 0 else out.length), verify := c'.verify + (if two then c'.before + 4 else 0) } else c'
          if rest.isEmpty && !(ended && !c.data.isEmpty) then c' else { c' with status := 2 }

/-- Bytes that the other stages of a job keep in the slot's carry (R404, R442). -/
def otherCarry (st : Streams) : Nat :=
  st.decPart.length + st.digCarry.length + st.encPart.length + st.cipher.length % 16 + (st.comp.elim 0 fun c => c.pend.length)

/-- The filter and project/aggregate stages (R440 to R454): the chain, and the lookups made. -/
def filterStage (c : Chain) (d prog : List Byte) (hit : Nat → BitVec 160 → Bool) (start : FState) : Chain × List (Nat × BitVec 160) :=
  let f := readProg prog
  let fOn := stageOn d 2
  let pOn := stageOn d 3
  let n := c.data.length
  let inp := (if jFirst d then [] else c.st.recBytes) ++ c.data
  let o := filterStream f fOn pOn hit (inp.length + 1) inp ⟨start, [], [], [], false⟩
  let rate := match f.format with
    | 0 => 160
    | 1 => 80
    | _ => 120
  let recs := o.st.recordsIn - start.recordsIn
  let pass := o.st.passed - start.passed
  let c := if fOn then c.count false n rate 16 else c
  let c := if fOn then { c with after := max c.after recs } else c
  let c := if pOn then { (c.count false n 160 12) with after := max (c.count false n 160 12).after (if fOn then pass else recs) } else c
  let c := { c with data := o.out, st := { c.st with recBytes := o.carry, pcheck := crc32c prog, raddr := jResult d } }
  let put (st : FState) (c : Chain) : Chain :=
    let ag := (st.aggs.zipIdx.filter fun _ => pOn).map fun a => (128 + 32 * a.2, a.1.write)
    let cnt := (640, bytesLE 8 st.recordsIn ++ bytesLE 8 st.passed ++ bytesLE 8 st.tailSkipped ++ bytesLE 8 st.badValues)
    { c with results := c.results ++ ag ++ [cnt] }
  if o.malformed then (c.fail 0x0C 0x27, o.lookups)
  else if o.carry.isEmpty then (put o.st c, o.lookups)
  else if jLast d then
    if f.tailSkip then (put { o.st with tailSkipped := o.st.tailSkipped + o.carry.length } { c with st := { c.st with recBytes := [] } }, o.lookups)
    else ({ c with status := 1 }, o.lookups)
  else if o.carry.length + otherCarry { c.st with recBytes := [] } > 256 then (c.fail 0x0C 0x28, o.lookups)
  else (put o.st c, o.lookups)

/-- Rate in tenths of a byte per cycle and finish latency of a digest (R411, R483). -/
def digestRate (alg : Nat) : Nat × Nat :=
  if alg = 0x01 then (40, 20)
  else if alg = 0x11 then (40, 20 + 3 * 16)
  else if alg = 0x02 ∨ alg = 0x03 then (64, 24)
  else if alg = 0x12 ∨ alg = 0x13 then (64, 24 + 3 * 20)
  else if alg = 0x04 ∨ alg = 0x08 then (113, 14)
  else if alg = 0x05 then (87, 14)
  else if alg = 0x06 then (60, 14)
  else (140, 14)

/-- The digest stage: a tap; at the end of the stream its value goes to result bytes 0 to 63 (R399, R483). -/
def digestStage (c : Chain) (d key : List Byte) : Chain :=
  let alg := jDig d
  let n := c.data.length
  let c := c.count false n (digestRate alg).1 (digestRate alg).2
  let st := if jFirst d then { c.st with digH := fit 200 (Config.digestInit alg), digCount := 0, digCarry := [], digMsg := [] } else c.st
  if isHmac alg then
    let msg := st.digMsg ++ c.data
    let c := { c with st := { st with digMsg := msg, digCarry := (msg.drop (msg.length / digestBlock alg * digestBlock alg)) } }
    if jLast d then { c with results := c.results ++ [(0, fit 64 (fit (digestLen alg) (Config.hmac alg key msg)))] } else c
  else
    let (h, cnt, t) := absorbBlocks alg (st.digCarry.length + n) st.digH st.digCount (st.digCarry ++ c.data)
    let c := { c with st := { st with digH := h, digCount := cnt, digCarry := t } }
    if jLast d then { c with results := c.results ++ [(0, fit 64 (fit (digestLen alg) (Config.digestFinish alg h cnt t (digestLen alg))))] } else c

/-- Rate in tenths of a byte per cycle and latency of the compressor by level (R411, R426). -/
def compressRate (level : Nat) : Nat × Nat :=
  match level with
  | 0 => (80, 48) | 1 => (60, 64) | 2 => (50, 64) | 3 => (42, 64) | 4 => (34, 64) | 5 => (28, 64) | 6 => (23, 64) | 7 => (19, 64)
  | 8 => (15, 64) | _ => (12, 64)

/-- The compress stage (R427, R432). -/
def compressStage (c : Chain) (d : List Byte) : Chain :=
  let st := match c.st.comp with
    | some x => if jFirst d then CompState.opened (jComp d) else x
    | none => CompState.opened (jComp d)
  let (st, out) := compress st (jFirst d) (jLast d) c.data
  ({ c with data := out, st := { c.st with comp := some st } }).count false c.data.length (compressRate (jComp d % 16)).1 (compressRate (jComp d % 16)).2

/-- The encrypt stage (R476, R477). `nonce` is the one drawn for a stream that starts. -/
def encryptStage (c : Chain) (d key nonce : List Byte) : Chain :=
  let n := c.data.length
  if jEncMode d = 0 then
    match xtsStage true key (jUnit d) (jLast d) (if jFirst d then jTweak d else c.st.encUnit) c.st.encPart c.data with
    | none => c.fail 0x0C 0x3E
    | some (out, k, part, short) =>
      let c := ({ c with data := out, st := { c.st with encUnit := k, encPart := part } }).count false n 160 24
      if short then { c with status := 1 } else c
  else
    let nc := if jFirst d then nonce else c.st.nonce
    let sofar := if jFirst d then [] else c.st.cipher
    if sofar.length + n > 2 ^ 36 - 32 then c.fail 0x0C 0x39
    else
      let ct := gcmXor key nc sofar.length c.data
      let c := ({ c with data := (if jFirst d then nc else []) ++ ct, st := { c.st with nonce := nc, cipher := sofar ++ ct } }).count false n 160 20
      if jLast d then { c with results := c.results ++ [(64, fit 16 (Config.gcmTag key nc (sofar ++ ct)))] } else c

/-! ### Output (R392, R398, R438) -/

/-- Read the chain list: buffers in order until they hold `need` bytes, up to the entry marked LAST or entry 255 (R398). -/
def chainList (s : State) (n : Nat) (owner : Option (Nat × Nat)) (a need : Nat) : Nat → State × Except Nat (List (Nat × Nat))
  | 0 => (s, .ok [])
  | fuel + 1 =>
    if need = 0 then (s, .ok [])
    else match jobRead s n owner a 16 [] with
    | (s, .ok b) =>
      let e := (dField b 0 6, dField b 8 4)
      if (dField b 12 4).testBit 0 then (s, .ok [e])
      else match chainList s n owner (a + 16) (need - e.2) fuel with
        | (s, .ok l) => (s, .ok (e :: l))
        | (s, .error x) => (s, .error x)
    | (s, .uncorrectable) => (s, .error 0x09)
    | (s, .refused _) => (s, .error 0x0B)

/-- Write output into buffers: the state, bytes written, chain entries used, and the status it forces; an entry of LEN 0 is skipped (R398). -/
def writeChain (s : State) (n : Nat) (owner : Option (Nat × Nat)) : List (Nat × Nat) → List Byte → Nat → Nat → State × Nat × Nat × Nat
  | [], b, w, u => (s, w, u, if b.isEmpty then 0 else 0x05)
  | (a, len) :: l, b, w, u =>
    if b.isEmpty then (s, w, u, 0)
    else
      let piece := b.take len
      match jobWrite s n owner a piece with
      | (s, false) => (s, w, u, 0x0B)
      | (s, true) => writeChain s n owner l (b.drop len) (w + piece.length) (if len = 0 then u else u + 1)

/-- Write a job's output stream: OUT_ADDR first, then the chain list (R392, R398). The result is bytes written, entries used, and 0 or the status it forces. -/
def writeOut (s : State) (n : Nat) (owner : Option (Nat × Nat)) (d : List Byte) (held : Bool) (b : List Byte) : State × Nat × Nat × Nat :=
  let room := jOutLen d
  let list := if room < b.length ∧ jChainOut d then chainList s n owner (jChain d) (b.length - room) 256 else (s, .ok [])
  match list with
  | (s, .error st) => (s, 0, 0, st)
  | (s, .ok l) =>
    -- a held job checks the space before release (R438)
    if held && decide (room + (l.map (·.2)).foldl (· + ·) 0 < b.length) then (s, 0, 0, 0x05)
    else match jobWrite s n owner (jOutAddr d) (b.take room) with
      | (s, false) => (s, 0, 0, 0x0B)
      | (s, true) => writeChain s n owner l (b.drop room) (min room b.length) 0

/-! ### Keys of a job (R471, R483) -/

/-- The slot and TYPE of each keyed stage: decrypt, encrypt, HMAC. USE bit 0 decrypts, bit 1 encrypts, bit 2 is HMAC (R466). -/
def keyedStages (d : List Byte) : List (Nat × Nat × Nat × Bool × Nat) :=
  (if stageOn d 0 then [(jKeyDec d, (if jDecMode d = 0 then 1 else 2), 1, false, 0)] else [])
  ++ (if stageOn d 6 then [(jKeyEnc d, (if jEncMode d = 0 then 1 else 2), 2, jEncMode d == 1, 1)] else [])
  ++ (if stageOn d 4 && isHmac (jDig d) then [(if stageOn d 0 then jKeyEnc d else jKeyDec d, 3, 4, false, 2)] else [])

/-- The GEN a stream recorded for a keyed stage. -/
def streamGen (st : Streams) (i : Nat) : Option Nat := if i = 0 then st.decGen else if i = 1 then st.encGen else st.digGen

/-- Check every keyed stage's slot; a slot that is not resident is unwrapped first. The first DETAIL, or none (R467, R471). -/
def checkKeys (s : State) (j : CvnJob) (st : Streams) (cont : Bool) : State × Option Nat :=
  (keyedStages j.desc).foldl (fun acc k =>
    match acc.2 with
    | some _ => acc
    | none =>
      let s := (unwrapSlot acc.1 k.1 true).1
      (s, slotRefusal s k.1 k.2.1 k.2.2.1 k.2.2.2.1 j.tenant j.owner.isSome (if cont then streamGen st k.2.2.2.2 else none))) (s, none)

/-- Record the GENs of the keyed stages in the stream (R471). -/
def recordGens (s : State) (d : List Byte) (st : Streams) : Streams :=
  (keyedStages d).foldl (fun st k =>
    let g := some (slotOf s k.1).gen
    if k.2.2.2.2 = 0 then { st with decGen := g } else if k.2.2.2.2 = 1 then { st with encGen := g } else { st with digGen := g }) st

/-! ### The whole job -/

/-- May the ring's owner use a match partition in IN_SET? (R453 DETAIL 0x26, R456) -/
def inSetOk (s : State) (owner : Option (Nat × Nat)) (p : Nat) : Bool :=
  partOn s p && partClass s p == 0 && decide (p < 16) &&
    (match owner with
     | none => inF s pMTE (partCfgOff p) 15 15 == 0
     | some (c, e) => inF s pMTE (partCfgOff p) 15 15 == 1 && inF s pMTE (partCfgOff p) 14 12 == c && inF s pMTE (partCfgOff p) 11 6 == e)

/-- A result that moved no data. -/
def earlyEnd (status detail : Nat) (st : Streams) : JobResult := ⟨status, detail, 0, 0, [], st, 12⟩

/-- The running state of a stream's filter stages: zero, or read from the result area (R451). -/
def filterStart (s : State) (n : Nat) (j : CvnJob) (prog : List Byte) : State × Option FState :=
  let k := (readProg prog).aggs.length
  if jFirst j.desc then (s, some (FState.zero k))
  else match jobRead s n j.owner (jResult j.desc + 128) 544 [] with
    | (s, .ok b) => (s, some ⟨(List.range k).map fun i => FAgg.read ((b.drop (32 * i)).take 32), dField b 512 8, dField b 520 8, dField b 528 8, dField b 536 8⟩)
    | (s, _) => (s, none)

/-- Cycles of the filter stages besides their streams: the program read when it lies in Landing, the result area's write, and its load in a continued stream (R454). -/
def progCycles (d : List Byte) (naggs : Nat) : Nat :=
  (if 0x4000000 ≤ jParam d ∧ jParam d < 0x8000000 then 64 else 0) + (naggs + 1) + (if jFirst d then 0 else naggs + 1)

/-- Run a job's chain over its input and write its output: the work of a started job (R391, R392, R400, R401). `host` is what a host window answers for the input. -/
def runJob (s : State) (n : Nat) (j : CvnJob) (st : Streams) (host : List Byte) : State × JobResult :=
  let d := j.desc
  if stageOn d 6 && jEncMode d == 1 && jTweak d != 0 then (s, earlyEnd 0x0C 0x01 st)
  else if stageOn d 0 && jDecMode d == 1 && !(unitFirst j.ring d && unitLast j.ring d) then (s, earlyEnd 0x0C 0x37 st)
  else if stageOn d 4 && isHmac (jDig d) && stageOn d 0 && stageOn d 6 then (s, earlyEnd 0x0C 0x3B st)
  else match checkKeys s j st (!jFirst d) with
    | (s, some x) => (keyDenied s, earlyEnd 0x07 x st)
    | (s, none) =>
      let st := recordGens s d st
      let fs := stageOn d 2 || stageOn d 3
      let (s, prog) := if fs then jobRead s n j.owner (jParam d) 2048 [] else (s, .ok [])
      match prog with
      | .uncorrectable => (s, earlyEnd 0x09 0 st)
      | .refused _ => (s, earlyEnd 0x0B 0 st)
      | .ok prog =>
        let bad := if fs then
            match checkProg prog (inSetOk s j.owner) with
            | some x => some x
            | none => if jFirst d then none else if crc32c prog ≠ st.pcheck then some 0x29 else if jResult d ≠ st.raddr then some 0x2A else none
          else none
        match bad with
        | some x => (s, earlyEnd 0x0C x st)
        | none =>
          let (s, start) := if fs then filterStart s n j prog else (s, some (FState.zero 0))
          match start with
          | none => (s, earlyEnd 0x09 0 st)
          | some start =>
          let gcmEnc := stageOn d 6 && jEncMode d == 1 && jFirst d
          let (s, drawn) := if gcmEnc then gcmDraw s (jKeyEnc d) else (s, some 0)
          match drawn with
          | none => (s, earlyEnd 0x08 0 st)
          | some ctr =>
            let nonce := bytesLE 4 (slotOf s (jKeyEnc d)).fixed ++ bytesLE 8 ctr
            match jobRead s n j.owner (jInAddr d) (jInLen d) host with
            | (s, .uncorrectable) => (s, earlyEnd 0x09 0 st)
            | (s, .refused _) => (s, earlyEnd 0x0B 0 st)
            | (s, .ok inp) =>
              let (s, expected) := if stageOn d 0 && jDecMode d == 1 then jobRead s n j.owner (jResult d + 80) 16 [] else (s, .ok [])
              match expected with
              | .uncorrectable => (s, earlyEnd 0x09 0 st)
              | .refused _ => (s, earlyEnd 0x0B 0 st)
              | .ok tag =>
                let key (k : Nat) : List Byte := (slotOf s k).key
                let c : Chain := ⟨inp, st, 0, 0, [], 0, 0, 0, none, 0⟩
                let c := if jStages d = 0 then c.count false inp.length 160 0 else c
                let c := if stageOn d 0 then (decryptStage c j.ring d (key (jKeyDec d)) tag).gate d 0x6E else c
                let c := if stageOn d 1 && c.ok then (decompressStage c j.ring d).gate d 0x6C else c
                let hit (p : Nat) (k : BitVec 160) : Bool := (winner (matching s p k)).isSome
                let (c, looks) := if fs && c.ok then filterStage c d prog hit start else (c, [])
                let c := c.gate d 0x60
                let s := looks.foldl (fun s l => (matchLookup s l.1 l.2).1) s
                let c := if stageOn d 4 && c.ok then digestStage c d (key (if stageOn d 0 then jKeyEnc d else jKeyDec d)) else c
                let c := if stageOn d 5 && c.ok then compressStage c d else c
                let c := if stageOn d 6 && c.ok then encryptStage c d (key (jKeyEnc d)) nonce else c
                let projNone := fs && (readProg prog).output == 2
                let (s, w, used, ost) := if writesOutput d projNone then writeOut s n j.owner d c.held.isSome c.data else (s, 0, 0, 0)
                let status := if ost ≠ 0 ∧ c.ok then ost else if c.status = 0 ∧ used ≠ 0 then 0x04 else c.status
                let spill := if (!jLast d || !jFirst d) && (stageOn d 1 || stageOn d 5) then cdiv (8192 + 65536) 32 else 0
                let program := if fs then progCycles d (readProg prog).aggs.length else 0
                let cycles := match c.held with
                  | none => 12 + c.lat + max c.before c.after + c.verify + spill + program
                  | some h => 12 + c.lat + c.verify + c.before + 4 + max (cdiv h 16) c.after + spill + program
                (s, ⟨status, c.detail, w, used, c.results, c.st, cycles⟩)

end Sys2Proof.Machine
end

