-- ==== Sys2Proof/Machine/Caravans.lean ====
section
/-! DEFINITION. Caravans: rings, admission, choice, suspension, the end of a job, path jobs, retirement and the commit checks (R393 to R395, R402 to R410, R413 to R422). -/

namespace Sys2Proof.Machine

/-! ### Access -/

/-- A caravan. -/
def cvnOf (s : State) (n : Nat) : Caravan := s.cvn.cvn.getD n Caravan.idle

/-- Ring r's register at an offset of its block (R420, R421). -/
def rgOff (r o : Nat) : Nat := 0x200 + 32 * r + o

/-- CFG.SIZE of a ring in force. -/
def rgSize (s : State) (n r : Nat) : Nat := inF s (pCVN n) (rgOff r 0x08) 3 0

/-- Ring address in force. -/
def rgBase (s : State) (n r : Nat) : Nat :=
  inF s (pCVN n) (rgOff r 0x04) 15 0 * 2 ^ 32 + inF s (pCVN n) (rgOff r 0x00) 31 6 * 64

/-- Is a ring enabled? Path rings follow PATH_CTRL (R421). -/
def rgOn (s : State) (n r : Nat) : Bool :=
  if r < 3 then inF s (pCVN n) CVN_PATH_CTRL r r == 1 else inF s (pCVN n) (rgOff r 0x08) 31 31 == 1

/-- HEAD, TAIL and CPL_HEAD. -/
def rgHead (s : State) (n r : Nat) : Nat := rdF s (pCVN n) (rgOff r 0x18) 12 0
/-- TAIL. -/
def rgTail (s : State) (n r : Nat) : Nat := rdF s (pCVN n) (rgOff r 0x14) 12 0
/-- CPL_HEAD. -/
def rgCpl (s : State) (n r : Nat) : Nat := rdF s (pCVN n) (rgOff r 0x1C) 12 0
/-- The completion producer count. -/
def rgProd (s : State) (n r : Nat) : Nat := (cvnOf s n).prod.getD r 0

/-- Distance between two ring counts modulo 2^(SIZE + 1) (R393). -/
def ringDist (size from_ dest : Nat) : Nat := (dest + 2 ^ (size + 1) - from_ % 2 ^ (size + 1)) % 2 ^ (size + 1)

/-- Is a caravan in service? -/
def cvnServes (s : State) (n : Nat) : Bool := decide (n < 16) && pageUp s (pCVN n) && !bit (rd s (pCVN n) rSTATUS) 1

/-- Does a job of the ring run, wait admitted, or stand suspended? -/
def ringBusy (c : Caravan) (r : Nat) : Bool :=
  (c.heads.get? r).isSome || c.running.any (fun j => j.ring == r) || c.suspended.any fun j => j.ring == r

/-- Is the head entry of a ring admissible? (R394) -/
def admissible (s : State) (n r : Nat) : Bool :=
  let c := cvnOf s n
  rgOn s n r && !ringBusy c r
    && (if r < 3 then !((c.paths.getD r []).isEmpty)
        else rgTail s n r != rgHead s n r && decide (ringDist (rgSize s n r) (rgCpl s n r) (rgProd s n r) < 2 ^ rgSize s n r))

/-- STATE code of a slot (R420). -/
def CtxSlot.code (x : CtxSlot) : Nat := if x.state = .held then 1 else 2

/-- ACTIVE, CTX_STATE and the SNAP_WAIT level follow the caravan (R420). -/
def showCvn (s : State) (n : Nat) : State :=
  let p := pCVN n
  let c := cvnOf s n
  let sus := min 0x1FF c.suspended.length
  let act := match c.running with
    | some j => 2 ^ 31 + j.ring * 2 ^ 24 + jCtx j.desc * 2 ^ 16 + sus
    | none => sus
  let s := wr s p CVN_ACTIVE (w32 act)
  let s := wr s p CVN_CTX_STATE (match c.slots.get? (rdF s p CVN_CTX_SEL 7 0) with
    | some x => w32 (x.epoch * 65536 + x.ring * 16 + x.code)
    | none => 0)
  setSince s p CVN_SNAP_WAIT (((List.range 8).filter fun r => admissible s n r).map (2 ^ ·)).sum

/-- Set a caravan. -/
def putCvn (s : State) (n : Nat) (c : Caravan) : State :=
  showCvn { s with cvn := { s.cvn with cvn := s.cvn.cvn.putD n c Caravan.idle } } n

/-- Disarm an injection; true when it was armed. -/
def cvnArmed (s : State) (n code : Nat) : State × Bool :=
  let c := cvnOf s n
  if c.inject.contains code then (putCvn s n { c with inject := removeFirst (· == code) c.inject }, true) else (s, false)

/-! ### Path jobs (R413) -/

/-- The caravans in round robin order after the one a path posted to last. -/
def pathOrder (s : State) (path : Nat) : List Nat := (List.range 16).map fun i => (s.cvn.turn.getD path 15 + 1 + i) % 16

/-- Post a path job, leaving out one caravan; when every ring is full it waits (R413, R417). -/
def pathPost (s : State) (path : Nat) (j : PathJob) (front : Bool) : State :=
  let fits (n : Nat) : Bool := cvnServes s n && rgOn s n path && decide (((cvnOf s n).paths.getD path []).length < 64)
  match (pathOrder s path).find? fits with
  | none => { s with cvn := { s.cvn with waiting := if front then (path, j) :: s.cvn.waiting else s.cvn.waiting ++ [(path, j)] } }
  | some n =>
    let c := cvnOf s n
    let s := { s with cvn := { s.cvn with turn := s.cvn.turn.put path n } }
    putCvn s n { c with paths := c.paths.put path (c.paths.getD path [] ++ [j]) }

/-- Post the path jobs that wait, oldest first, while a ring has room. -/
def pathDrain (s : State) : State :=
  let w := s.cvn.waiting
  w.foldl (fun s x => pathPost s x.1 x.2 false) { s with cvn := { s.cvn with waiting := [] } }

/-! ### Completions (R402) -/

/-- Write a completion record of a general ring and move its producer count. -/
def postCompletion (s : State) (n r base size status detail epoch tag out used susp : Nat) (wantIrq : Bool) : State :=
  let k := rgProd s n r
  let phase := if k / 2 ^ size % 2 = 0 then 1 else 0
  let rec_ := [BitVec.ofNat 8 status, BitVec.ofNat 8 detail] ++ bytesLE 2 epoch ++ bytesLE 4 tag ++ bytesLE 4 out ++ bytesLE 2 used
    ++ [BitVec.ofNat 8 (min 255 susp), BitVec.ofNat 8 phase]
  let s := (bulkWrite s (cvnWho n) (base + 64 * 2 ^ size + 16 * (k % 2 ^ size)) rec_).1
  let c := cvnOf s n
  let s := putCvn s n { c with prod := c.prod.put r ((k + 1) % 2 ^ (size + 1)) }
  if wantIrq then irq s (pCVN n) r else s

/-- The slot after a job ended (R405). -/
def slotAfter (s : State) (n : Nat) (j : CvnJob) (res : JobResult) (status : Nat) : State :=
  let c := cvnOf s n
  let k := jCtx j.desc
  if !j.hasSlots then s
  else if !jLast j.desc && (status == 0 || status == 4 || status == 2) then
    let base := 0x4000000 + inF s (pCVN n) CVN_CTX_BASE 7 0 * 0x40000 + 1024 * k
    let hdr := [BitVec.ofNat 8 1, BitVec.ofNat 8 j.ring] ++ bytesLE 2 j.epoch ++ bytesLE 4 (jTag j.desc) ++ bytesLE 4 (jInLen j.desc)
      ++ bytesLE 4 res.outBytes ++ bytesLE 2 res.chainUsed ++ bytesLE 2 (otherCarry res.streams + res.streams.recBytes.length)
    let s := (bulkWrite s (cvnWho n) base (fit 64 hdr ++ fit 64 j.desc)).1
    putCvn s n { c with slots := c.slots.put k ⟨.held, j.ring, j.epoch, res.streams⟩ }
  else if (c.slots.get? k).any fun x => x.ring == j.ring then putCvn s n { c with slots := c.slots.del k }
  else s

/-- Write the result parts of a job that ended well: false when one is refused (R399). -/
def writeResults (s : State) (n : Nat) (j : CvnJob) (l : List (Nat × List Byte)) : State × Bool :=
  l.foldl (fun acc x => if acc.2 then jobWrite acc.1 n j.owner (jResult j.desc + x.1) x.2 else acc) (s, true)

/-- A unit whose check failed goes to reconstruction: its codewords are handed to rung 4 (R26, R416). -/
def unitToRecon (s : State) (path : Nat) (j : PathJob) : State :=
  let e := entryAt s j.handle j.unit
  if !hasLocation e then s
  else
    let first := entSlot e
    let last := first + entLen e - 1
    let d := entDie e
    (List.range (last / 64 + 1 - first / 64)).foldl (fun s i =>
      let cw := first / 64 + i
      let job : ReadJob :=
        { id := s.fch.nextJob, die := d, block := entBlock e, page := entPage e + cw / 4, cw := cw % 4, cls := .a, promoted := false
          arrived := s.com.time, owner := if path = 0 then .host 0 j.unit else .scan 0 j.unit, rung := 4, set := none
          hintSet := none, best := none, softReads := 0, threeBits := false, epoch := epochNow s (diePage d) }
      handRung4 (admitUnit { s with fch := { s.fch with nextJob := s.fch.nextJob + 1 } } (diePage d)) job) s

/-- What a path does with the end of its job (R414, R416, R605). -/
def pathEnd (s : State) (n path : Nat) (j : PathJob) (status : Nat) : State :=
  let done (s : State) : State := { s with cvn := { s.cvn with finished := s.cvn.finished ++ [(path, j.handle, j.unit, status)] } }
  if status = 0x0A then pathPost s path j true
  else if path ≠ 1 ∧ (status = 3 ∨ status = 0x0C ∨ status = 9) then unitToRecon (done s) path j
  else if path = 1 ∧ status = 9 then
    if j.rerun then
      done (logEvent s { kind := kFAULT, cls := FClass.uncorrectable.code, page := pCVN n, unit := n, address := jInAddr j.desc, initPage := pCVN n })
    else pathPost s path { j with rerun := true } true
  else done s

/-- Did a job move its input? A job that ended before its input was read took only the 12 fixed cycles. -/
def movedInput (r : JobResult) : Bool := decide (12 < r.cycles)

/-- A job ends: results, slot, counters, completion (R399, R402, R405, R420). -/
def endJob (s : State) (n : Nat) (j : CvnJob) (res : JobResult) : State :=
  let p := pCVN n
  let good := res.status == 0 || res.status == 4
  let (s, fine) := if good then writeResults s n j res.results else (s, true)
  let status := if fine then res.status else 0x0B
  let s := slotAfter s n j res status
  let s := if status = 0 ∨ status = 2 ∨ status = 4 then bump s p CVN_JOBS_DONE 1 else bump s p CVN_JOBS_FAILED 1
  let c := cvnOf s n
  let tot := c.kibRest + (if movedInput res then jInLen j.desc else 0)
  let s := bump (putCvn s n { c with kibRest := tot % 1024 }) p CVN_BYTES_IN (tot / 1024)
  let s := bumpSince (bump s p CVN_BUSY res.cycles) p CVN_SNAP_BUSY res.cycles
  let s := finishUnit s p j.epoch
  let s := match j.path with
    | some pj => pathEnd s n j.ring pj status
    | none => postCompletion s n j.ring j.base j.size status res.detail j.epoch (jTag j.desc) res.outBytes res.chainUsed j.susp (jIrq j.desc)
  showCvn s n

/-! ### Admission (R394, R410) -/

/-- Does the filter program of a descriptor switch projection off? Read without effect. -/
def descProjNone (s : State) (n : Nat) (owner : Option (Nat × Nat)) (d : List Byte) : Bool :=
  if stageOn d 3 && jParam d != 0 then
    match (jobRead s n owner (jParam d) 2048 []).2 with
    | .ok prog => (readProg prog).output == 2
    | _ => false
  else false

/-- The job a descriptor makes on a ring. -/
def jobFrom (s : State) (n r : Nat) (d : List Byte) (path : Option PathJob) : CvnJob :=
  let p := pCVN n
  let own := inForce s p (rgOff r 0x0C)
  { ring := r, desc := d, prio := min (jPrio d) (inF s p (rgOff r 0x08) 11 8), epoch := epochNow s p, base := rgBase s n r, size := rgSize s n r
    tenant := match path with
      | some j => j.tenant
      | none => fld own 15 0
    owner := if path.isNone && bit own 31 then some (fld own 30 28, fld own 27 22) else none
    hasSlots := inF s p (rgOff r 0x10) 16 8 != 0, saveBase := inF s p CVN_SAVE_BASE 27 0, path := path, susp := 0, result := none
    started := s.com.time, ran := 0 }

/-- Validate an admitted descriptor; a failure ends the job at once (R397). -/
def admitJob (s : State) (n r : Nat) (j : CvnJob) : State :=
  let p := pCVN n
  let s := admitUnit s p
  let c := cvnOf s n
  let slot := (c.slots.get? (jCtx j.desc)).filter fun x => x.ring == r && x.state == .held
  match validateDesc j.desc r (inF s p (rgOff r 0x10) 7 0) (inF s p (rgOff r 0x10) 16 8) j.saveBase (descProjNone s n j.owner j.desc) slot with
  | some x => endJob s n j (earlyEnd 0x0C x Streams.fresh)
  | none => putCvn s n { c with heads := c.heads.put r j }

/-- A ring's admissible head entry is fetched, validated and tagged with the epoch (R394, R410). -/
def cvnAdmit (s : State) (n r : Nat) : State :=
  if !cvnServes s n || !admissible s n r || admitHeld s (pCVN n) then s
  else if r < 3 then
    let c := cvnOf s n
    match c.paths.getD r [] with
    | [] => s
    | x :: xs =>
      let s := putCvn s n { c with paths := c.paths.put r xs }
      pathDrain (admitJob s n r (jobFrom s n r x.desc (some x)))
  else
    let size := rgSize s n r
    let (s, bad) := cvnArmed s n 3
    let (s, d) := bulkRead s (cvnWho n) (rgBase s n r + 64 * (rgHead s n r % 2 ^ size)) 64 []
    let s := wr s (pCVN n) (rgOff r 0x18) (w32 ((rgHead s n r + 1) % 2 ^ (size + 1)))
    let early (status : Nat) : State := endJob (admitUnit s (pCVN n)) n (jobFrom s n r (fit 64 []) none) (earlyEnd status 0 Streams.fresh)
    if bad then early 0x09
    else match d with
      | .ok d => admitJob s n r (jobFrom s n r d none)
      | .uncorrectable => early 0x09
      | .refused _ => early 0x0B

/-! ### Choice, start and end (R395, R408, R409, R412) -/

/-- The candidates: suspended jobs, the earliest first, then the heads by ring. -/
def candidates (c : Caravan) : List CvnJob := c.suspended ++ c.heads.map (·.2)

/-- The candidate of highest priority, ties in the order of the list (R395). -/
def chosen? (l : List CvnJob) : Option CvnJob := minBy? (fun j => 15 - j.prio) l

/-- The stream a job begins with: fresh, or its HELD slot's (R405). -/
def openingStreams (s : State) (n : Nat) (j : CvnJob) : Streams :=
  if jFirst j.desc then Streams.fresh
  else ((cvnOf s n).slots.get? (jCtx j.desc)).elim Streams.fresh (·.streams)

/-- Discard a slot that could not be restored: the job ends MEMORY_UNCORRECTABLE (R409). -/
def restoreFails (s : State) (n : Nat) (j : CvnJob) : State := irq (endJob s n j (earlyEnd 0x09 0 Streams.fresh)) (pCVN n) 9

/-- A fresh job starts: its work is done now, its end comes with the cycles it takes (R395, R412). -/
def startFresh (s : State) (n : Nat) (j : CvnJob) (host : List Byte) : State :=
  let (s, bad) := if jFirst j.desc then (s, false) else cvnArmed s n 1
  if bad then restoreFails s n j
  else
    let (s, check) := cvnArmed s n 4
    let (t, res) := runJob s n j (openingStreams s n j) host
    let (t, res) := if check then
        ({ t with mem := s.mem, com := { t.com with outbox := s.com.outbox } }, { res with status := 0x03, outBytes := 0, chainUsed := 0, results := [] })
      else (t, res)
    putCvn t n { cvnOf t n with running := some { j with started := t.com.time, result := some res } }

/-- A suspended job resumes: its slot is restored and its keys are checked again (R408, R409, R471). -/
def resumeJob (s : State) (n : Nat) (j : CvnJob) : State :=
  let (s, bad) := cvnArmed s n 1
  if bad then restoreFails s n j
  else
    let st := (j.result.elim Streams.fresh (·.streams))
    match checkKeys s j st true with
    | (s, some x) => endJob (keyDenied s) n j (earlyEnd 0x07 x st)
    | (s, none) =>
      let c := cvnOf s n
      let k := jCtx j.desc
      putCvn s n { c with running := some { j with started := s.com.time }, slots := if jFirst j.desc then c.slots.del k else c.slots.put k ⟨.held, j.ring, j.epoch, st⟩ }

/-- Does a job wait for the generator's first seeding? (R481) -/
def awaitsSeed (s : State) (j : CvnJob) : Bool := (stageOn j.desc 0 || stageOn j.desc 6) && !firstSeeded s

/-- An idle caravan starts its next job; no cipher job starts before the first seeding (R395, R481). -/
def cvnStart (s : State) (n : Nat) (host : List Byte) : State :=
  let c := cvnOf s n
  if !cvnServes s n || c.running.isSome then s
  else match chosen? (candidates c) with
    | none => s
    | some j =>
      if awaitsSeed s j then s
      else
      let s := if 1 < ((candidates c).filter fun x => x.prio == j.prio).length then bump s (pCVN n) CVN_TIE_COUNT 1 else s
      if c.suspended.any fun x => x.ring == j.ring then
        resumeJob (putCvn s n { c with suspended := c.suspended.filter fun x => x.ring != j.ring }) n j
      else startFresh (putCvn s n { c with heads := c.heads.del j.ring }) n j host

/-- Cycles the running job has left, at 1 ns a cycle (R412). -/
def cyclesLeft (s : State) (j : CvnJob) : Nat :=
  (j.result.elim 0 (·.cycles)) - j.ran - (s.com.time - j.started).toNat

/-- The running job's last output is written and it ends; `extra` are the cycles its paths added (R19, R412). -/
def cvnEnd (s : State) (n extra : Nat) : State :=
  let c := cvnOf s n
  match c.running with
  | none => s
  | some j =>
    if cyclesLeft { s with com := { s.com with time := s.com.time - BitVec.ofNat 64 extra } } j ≠ 0 then s
    else endJob (putCvn s n { c with running := none }) n j (j.result.getD (earlyEnd 0 0 Streams.fresh))

/-- May the running job be suspended? (R406, R424) -/
def suspendable (j : CvnJob) : Bool :=
  let z := stageOn j.desc 1 || stageOn j.desc 5
  j.hasSlots && (!z || j.saveBase != 0) && !(stageOn j.desc 1 && stageOn j.desc 5)

/-- A suspension: the running job reaches a suspension point before its end, drains, and is saved (R406 to R408). -/
def cvnSuspend (s : State) (n : Nat) : State :=
  let c := cvnOf s n
  let margin := inF s (pCVN n) CVN_SUSP_MARGIN 3 0
  match c.running, chosen? (candidates c) with
  | some j, some k =>
    if margin ≠ 0 ∧ j.prio + margin ≤ k.prio ∧ suspendable j ∧ cyclesLeft s j ≠ 0 then
      let ran := j.ran + (s.com.time - j.started).toNat
      let st := j.result.elim Streams.fresh (·.streams)
      let j' := { j with susp := min 255 (j.susp + 1), ran := ran }
      let s := putCvn s n { c with
        running := none
        suspended := c.suspended ++ [j']
        slots := c.slots.put (jCtx j.desc) ⟨.suspended, j.ring, j.epoch, st⟩ }
      bump s (pCVN n) CVN_SUSP_COUNT 1
    else s
  | _, _ => s

/-! ### Registers (R393, R420) -/

/-- A caravan is retired: fenced, its path jobs requeued, its general rings completed FENCED, its slots freed (R417). -/
def retireCvn (s : State) (n : Nat) (selfCheck : Bool) : State :=
  let p := pCVN n
  if bit (rd s p rSTATUS) 1 then s
  else
    let c := cvnOf s n
    let s := wrB s p rSTATUS 1 true
    let s := if selfCheck then irq s p 8 else s
    let s := logRetire (setFault s p .permanent (Config.blockCause 14) n) p (Config.blockCause 14) n
    let jobs := c.running.toList ++ candidates c
    let s := putCvn s n { c with running := none, suspended := [], heads := [], paths := [], slots := [] }
    let s := (List.range 8).foldl (fun s r =>
      let mine := jobs.filter fun j => j.ring == r
      if r < 3 then
        (mine.filterMap (·.path) ++ c.paths.getD r []).foldl (fun s x => pathPost s r x false) s
      else
        let size := rgSize s n r
        let s := mine.foldl (fun s j => bump (postCompletion s n r j.base j.size 0x0A 0 j.epoch (jTag j.desc) 0 0 j.susp (jIrq j.desc)) p CVN_JOBS_FAILED 1) s
        let todo := if rgOn s n r then ringDist size (rgHead s n r) (rgTail s n r) else 0
        let s := (List.range todo).foldl (fun s i =>
          let (s, d) := bulkRead s (cvnWho n) (rgBase s n r + 64 * ((rgHead s n r + i) % 2 ^ size)) 64 []
          let d := match d with
            | .ok d => d
            | _ => fit 64 []
          bump (postCompletion s n r (rgBase s n r) size 0x0A 0 (epochNow s p) (jTag d) 0 0 0 (jIrq d)) p CVN_JOBS_FAILED 1) s
        wr s p (rgOff r 0x18) (rd s p (rgOff r 0x14))) s
    showCvn (setEpochs s p ⟨0, 0⟩) n

/-- The bucket of a caravan counts one event; its overflow retires the caravan (R417, R420). -/
def cvnBucket (s : State) (n : Nat) : State :=
  match lbEvent s (pCVN n) with
  | (s, true) => retireCvn s n false
  | (s, false) => s

/-- A write of TAIL (R393). -/
def ringTail (s : State) (n r : Nat) (v : Word) : State :=
  if r < 3 then s
  else
    let size := rgSize s n r
    let t := fld v 12 0 % 2 ^ (size + 1)
    if ringDist size (rgHead s n r) t > 2 ^ size then cvnBucket (setFault s (pCVN n) .access (Config.blockCause 15) r) n
    else showCvn (wr s (pCVN n) (rgOff r 0x14) (w32 t)) n

/-- A write of CPL_HEAD (R393). -/
def ringCplHead (s : State) (n r : Nat) (v : Word) : State :=
  if r < 3 then s else showCvn (wr s (pCVN n) (rgOff r 0x1C) (w32 (fld v 12 0 % 2 ^ (rgSize s n r + 1)))) n

/-- `CVN.ERR_INJECT` (R420). -/
def cvnInject (s : State) (n : Nat) (v : Word) : State :=
  match fld v 3 0 with
  | 2 => injected s fun s => retireCvn s n true
  | 1 => putCvn s n { cvnOf s n with inject := (cvnOf s n).inject ++ [1] }
  | 3 => putCvn s n { cvnOf s n with inject := (cvnOf s n).inject ++ [3] }
  | 4 => putCvn s n { cvnOf s n with inject := (cvnOf s n).inject ++ [4] }
  | _ => s

/-- At PWR_FAIL every job is abandoned without a completion (R418). -/
def cvnAbandon (s : State) : State :=
  let s := (List.range 16).foldl (fun s n =>
    let c := cvnOf s n
    if c = Caravan.idle then s
    else setEpochs (putCvn s n { c with running := none, suspended := [], heads := [], paths := [], slots := [] }) (pCVN n) ⟨0, 0⟩) s
  { s with cvn := { s.cvn with waiting := [] } }

/-- Is a range of device addresses wholly in Landing or in mapped DRAM? -/
def inRam (s : State) (a n : Nat) : Bool :=
  (decide (0x4000000 ≤ a) && decide (a + n ≤ 0x8000000)) || (decide (0x1000000000 ≤ a) && decide (a + n ≤ 0x1000000000 + dramTop s))

/-- Commit checks of a `CVN` page (R422). -/
def checkCvn (s : State) (n : Nat) : List (Nat × Nat) :=
  let p := pCVN n
  let c := cvnOf s n
  let on (r : Nat) : Bool := rdF s p (rgOff r 0x08) 31 31 == 1
  let first (r : Nat) : Nat := rdF s p (rgOff r 0x10) 7 0
  let cnt (r : Nat) : Nat := rdF s p (rgOff r 0x10) 16 8
  let overlap (a b : Nat) : Bool := a != b && cnt a != 0 && cnt b != 0 && decide (first a < first b + cnt b) && decide (first b < first a + cnt a)
  let changed (off : Nat) : Bool := rd s p off != inForce s p off
  let save := rdF s p CVN_SAVE_BASE 27 0 * 2 ^ 20
  let moves (off : Nat) : List (Nat × Nat) := if changed off && !c.slots.isEmpty then [(off, 3)] else []
  ((List.range 8).flatMap fun r =>
    let size := rdF s p (rgOff r 0x08) 3 0
    let base := rdF s p (rgOff r 0x04) 15 0 * 2 ^ 32 + rdF s p (rgOff r 0x00) 31 6 * 64
    let live := rgOn s n r && (rgHead s n r != rgTail s n r || ringBusy c r || rgCpl s n r != rgProd s n r)
    let own := rd s p (rgOff r 0x0C)
    (if first r + cnt r > 256 then [(rgOff r 0x10, 1)] else [])
    ++ (if (List.range 8).any (overlap r) then [(rgOff r 0x10, 3)] else [])
    ++ (if r < 3 then [] else
      (if on r && (decide (size < 4) || decide (12 < size)) then [(rgOff r 0x08, 1)] else [])
      ++ (if on r && !inRam s base (80 * 2 ^ size) then [(rgOff r 0x00, 1)] else [])
      ++ (if live then
          (if changed (rgOff r 0x00) then [(rgOff r 0x00, 3)] else []) ++ (if changed (rgOff r 0x04) then [(rgOff r 0x04, 3)] else [])
          ++ (if size != rgSize s n r then [(rgOff r 0x08, 3)] else []) ++ (if changed (rgOff r 0x0C) then [(rgOff r 0x0C, 3)] else [])
        else [])
      ++ (if bit own 31 && cluGone s (fld own 30 28) then [(rgOff r 0x0C, 5)] else [])))
  ++ (if save ≠ 0 ∧ ¬(0x1000000000 ≤ save ∧ save + 18 * 2 ^ 20 ≤ 0x1000000000 + dramTop s) then [(CVN_SAVE_BASE, 1)] else [])
  ++ moves CVN_CTX_BASE ++ moves CVN_SAVE_BASE
  ++ (if (List.range 16).any fun m => m != n && inF s (pCVN m) CVN_CTX_BASE 7 0 == rdF s p CVN_CTX_BASE 7 0 then [(CVN_CTX_BASE, 3)] else [])

/-- After a commit of a `CVN` page applied: a ring that became enabled starts at zero (R422). -/
def applyCvn (old : State) (s : State) (n : Nat) : State :=
  let p := pCVN n
  let s := (List.range 8).foldl (fun s r =>
    if 3 ≤ r && rgOn s n r && !rgOn old n r then
      let s := wr (wr (wr s p (rgOff r 0x14) 0) p (rgOff r 0x18) 0) p (rgOff r 0x1C) 0
      putCvn s n { cvnOf s n with prod := (cvnOf s n).prod.del r }
    else s) s
  pathDrain (showCvn s n)

end Sys2Proof.Machine
end

