-- ==== Sys2Proof/Machine/HostQueues.lean ====
section
/-! DEFINITION. Ports, controllers, queues, doorbells, command fetch and completion (R106, R109, R113 to R118, R125, R126, R30 to R32). Field places of submission entries and opcodes that the spec does not give are NVMe's own (see the assumption log). -/

namespace Sys2Proof.Machine

/-! ### Controllers (R113, R114) -/

/-- A controller. -/
def ctlOf (s : State) (c : Nat) : Ctrl := s.hst.ctls.getD c Ctrl.fresh

/-- Set a controller. -/
def putCtl (s : State) (c : Nat) (x : Ctrl) : State := { s with hst := { s.hst with ctls := s.hst.ctls.putD c x Ctrl.fresh } }

/-- Port of a controller: true for port B. -/
def ctlPort (c : Nat) : Bool := decide (64 ≤ c)

/-- Function number of a controller. -/
def ctlFn (c : Nat) : Nat := c % 64

/-- Is it the PF's controller? -/
def isPf (c : Nat) : Bool := ctlFn c == 0

/-- NumVFs of a port. -/
def numVfs (s : State) (p : Bool) : Nat := rdF s (pHF p) HF_FN_STATUS 5 0

/-- Does the controller exist: a PF, or an enabled VF, of a port of this mode? -/
def ctlExists (s : State) (c : Nat) : Bool := decide (c < 128) && (!ctlPort c || s.com.chip.split) && decide (ctlFn c ≤ numVfs s (ctlPort c))

/-- Every controller that exists. -/
def allCtls (s : State) : List Nat := (List.range 128).filter (ctlExists s)

/-- The link of a port. -/
def linkOf (s : State) (p : Bool) : Link := if p then s.hst.linkB else s.hst.linkA

/-- Set a link. -/
def putLink (s : State) (p : Bool) (l : Link) : State :=
  if p then { s with hst := { s.hst with linkB := l } } else { s with hst := { s.hst with linkA := l } }

/-- I/O queue pairs and vectors of a controller: a PF keeps 64 and 32; a VF's are its flexible resources, the first queue pair being the admin pair (R114). -/
def ioQueues (s : State) (c : Nat) : Nat := if isPf c then 64 else (ctlOf s c).vq - 1

/-- Vectors of a controller. -/
def vectorsOf (s : State) (c : Nat) : Nat := if isPf c then 32 else (ctlOf s c).vi

/-- Partition mode in force (R118, R143). -/
def partitionMode (s : State) : Bool := inF s pNQE NQE_TENANCY 0 0 == 1

/-! ### Submission entry fields -/

/-- A field of a submission entry, by byte and length. -/
def sqeF (d : List Byte) (o n : Nat) : Nat := ofBytesLE ((d.drop o).take n)
/-- Opcode. -/
def sqeOp (d : List Byte) : Nat := sqeF d 0 1
/-- CID. -/
def sqeCid (d : List Byte) : Nat := sqeF d 2 2
/-- NSID. -/
def sqeNsid (d : List Byte) : Nat := sqeF d 4 4
/-- A command dword. -/
def cdw (d : List Byte) (n : Nat) : Nat := sqeF d (4 * n) 4
/-- Bits [hi:lo] of a command dword. -/
def cdwF (d : List Byte) (n hi lo : Nat) : Nat := cdw d n / 2 ^ lo % 2 ^ (hi + 1 - lo)
/-- SLBA of an I/O command. -/
def sqeSlba (d : List Byte) : Nat := sqeF d 40 8
/-- Blocks of an I/O command: NLB is 0-based (R126). -/
def sqeBlocks (d : List Byte) : Nat := cdwF d 12 15 0 + 1

/-! ### Namespaces -/

/-- The namespace of an NSID: handle = NSID less 1 (R181). -/
def nsAt? (s : State) (nsid : Nat) : Option Namespace := if nsid = 0 then none else s.hst.ns.get? (nsid - 1)

/-- Set a namespace. -/
def putNs (s : State) (h : Nat) (x : Namespace) : State := { s with hst := { s.hst with ns := s.hst.ns.put h x } }

/-- Unit bytes of a namespace (R181). -/
def Namespace.unit (x : Namespace) : Nat := if x.mu16 then 16384 else 4096

/-- First and last unit of an LBA range (R181). -/
def Namespace.units (x : Namespace) (slba n : Nat) : List Nat :=
  if n = 0 then []
  else
    let a := slba * x.lba / x.unit
    let b := ((slba + n) * x.lba - 1) / x.unit
    (List.range (b + 1 - a)).map (a + ·)

/-! ### Commands -/

/-- A fetched command by its fetch number. -/
def cmdOf? (s : State) (id : Nat) : Option HostCmd := s.hst.cmds.find? fun c => c.id == id

/-- SNAP_OUTSTANDING follows the commands in flight (R118). -/
def showNqe (s : State) : State :=
  let held := (s.hst.cmds.filter fun c => c.state == .held).length
  setSince (wr s pNQE NQE_WB_HELD (w32 held)) pNQE NQE_SNAP_OUTSTANDING s.hst.cmds.length

/-- Replace a command. -/
def putCmd (s : State) (c : HostCmd) : State :=
  showNqe { s with hst := { s.hst with cmds := s.hst.cmds.map fun x => if x.id == c.id then c else x } }

/-- What carrying out a command leads to: an end, a wait for something later, or, where it may not run yet, nothing so far. -/
inductive Reply where
  | done (status : NvStatus) (dw0 : Nat) (data : List Byte)
  | wait
  | later
  deriving DecidableEq, Repr

/-- A plain ending. -/
def Reply.ok : Reply := .done .success 0 []
/-- An ending with a status. -/
def Reply.err (st : NvStatus) : Reply := .done st 0 []

/-- A command ends with a status: its room is released, and a status other than Success enters the error log (R129). -/
def endCmd (s : State) (c : HostCmd) (st : NvStatus) (dw0 : Nat) (data : List Byte) : State :=
  let s := { s with map := { s.map with reserved := s.map.reserved - c.room } }
  let s := if st = .success then s
    else { s with hst := { s.hst with errors := ((c.q, c.cid, st, 0) :: s.hst.errors).take 256 } }
  putCmd s { c with state := .done st dw0, reply := data, room := 0 }

/-- Carry out a fetched command whose opcode and queue kind fit the row; in any other case nothing happens. -/
def onCmd (s : State) (admin : Bool) (op id : Nat) (f : State → HostCmd → State × Reply) : State :=
  match cmdOf? s id with
  | none => s
  | some c =>
    if c.state = .fetched ∧ sqeOp c.sqe = op ∧ (c.q = 0) = admin then
      let (s, r) := f s c
      match r with
      | .done st dw0 data => endCmd s ((cmdOf? s id).getD c) st dw0 data
      | .wait => putCmd s { (cmdOf? s id).getD c with state := .waiting }
      | .later => s
    else s

/-- End every outstanding command that satisfies a test. -/
def endAll (s : State) (p : HostCmd → Bool) (st : NvStatus) : State :=
  s.hst.cmds.foldl (fun s c => if p c then (match c.state with
    | .done _ _ => s
    | _ => endCmd s c st 0 []) else s) s

/-! ### Doorbells (R116, R118) -/

/-- The bucket of the queue engine (R118). -/
def nqeBucket (s : State) : State := (lbEvent s pNQE).1

/-- An asynchronous event of the error class: an invalid doorbell. -/
def badDoorbell (s : State) (c : Nat) : State :=
  let s := asyncEvent (nqeBucket s) 0 0 1
  if partitionMode s && !isPf c then endAll s (fun x => x.ctl == c) .sqDeletion else s

/-- A doorbell write goes missing when an injection is armed (R118). -/
def doorbellLost (s : State) : State × Bool :=
  if s.hst.nqeInject.contains 2 then ({ s with hst := { s.hst with nqeInject := removeFirst (· == 2) s.hst.nqeInject } }, true) else (s, false)

/-- The host writes a submission queue tail doorbell. -/
def sqDoorbell (s : State) (c q v : Nat) : State :=
  let x := ctlOf s c
  if !ctlExists s c || !x.enabled then s
  else match doorbellLost s with
    | (s, true) => s
    | (s, false) =>
      match x.sqs.get? q with
      | none => badDoorbell s c
      | some sq =>
        if v ≥ sq.size then badDoorbell s c
        else
          let s := putCtl s c { x with sqs := x.sqs.put q { sq with tail := v } }
          { s with hst := { s.hst with power := { s.hst.power with idleSince := s.com.time } } }

/-- The host writes a completion queue head doorbell. -/
def cqDoorbell (s : State) (c q v : Nat) : State :=
  let x := ctlOf s c
  if !ctlExists s c || !x.enabled then s
  else match doorbellLost s with
    | (s, true) => s
    | (s, false) =>
      match x.cqs.get? q with
      | none => badDoorbell s c
      | some cq => if v ≥ cq.size then badDoorbell s c else putCtl s c { x with cqs := x.cqs.put q { cq with head := v } }

/-! ### Arbitration (R116) -/

/-- Does a queue hold entries to fetch? -/
def SubQ.pending (q : SubQ) : Bool := q.tail != q.head

/-- Does a controller have entries the engine may fetch? -/
def hasWork (s : State) (c : Nat) : Bool :=
  let x := ctlOf s c
  ctlExists s c && x.enabled && x.ready && (linkOf s (ctlPort c)).up && x.sqs.any fun q => q.2.pending

/-- FN_SHARE weight of a controller (R118). -/
def fnShare (s : State) (c : Nat) : Nat := inF s pNQE (NQE_FN_SHARE + 4 * (c / 4)) (8 * (c % 4) + 7) (8 * (c % 4))

/-- The controller to fetch from: the present one while its weight lasts, else the next with entries. -/
def pickCtl (s : State) : Option (Nat × Nat) :=
  if s.hst.left ≠ 0 && hasWork s s.hst.turn then some (s.hst.turn, s.hst.left - 1)
  else
    match ((List.range 128).map fun i => (s.hst.turn + 1 + i) % 128).find? (hasWork s) with
    | none => none
    | some c => some (c, fnShare s c - 1)

/-- The next I/O queue with entries after the last one, among a class. -/
def nextQueue (x : Ctrl) (fits : SubQ → Bool) : Option Nat :=
  let l := (x.sqs.filter fun q => q.1 != 0 && q.2.pending && fits q.2).map (·.1)
  match l.find? fun q => decide (x.lastQ < q) with
  | some q => some q
  | none => l.head?

/-- Weights of the high, medium and low classes in the Arbitration feature, 0-based. -/
def classWeights (x : Ctrl) : Nat × Nat × Nat :=
  let v := x.feats.getD 1 0
  (v / 2 ^ 24 % 256 + 1, v / 2 ^ 16 % 256 + 1, v / 2 ^ 8 % 256 + 1)

/-- The queue to fetch from within a controller: the admin queue, then the queue being visited, then round robin, or weighted round robin with the urgent class first. -/
def pickQueue (burst : Nat) (x : Ctrl) : Option (Nat × Ctrl) :=
  let pend (q : Nat) : Bool := (x.sqs.get? q).any SubQ.pending
  let visit (x : Ctrl) (q : Nat) : Nat × Ctrl := (q, { x with lastQ := q, visit := burst - 1 })
  if pend 0 then some (0, x)
  else if x.visit ≠ 0 && x.lastQ != 0 && pend x.lastQ then some (x.lastQ, { x with visit := x.visit - 1 })
  else if x.ams = 0 then (nextQueue x fun _ => true).map (visit x)
  else match nextQueue x fun q => q.prio == 0 with
    | some q => some (visit x q)
    | none =>
      let try_ (x : Ctrl) : Option (Nat × Ctrl) :=
        let a := if x.wrr.1 ≠ 0 then (nextQueue x fun q => q.prio == 1).map fun q => visit { x with wrr := (x.wrr.1 - 1, x.wrr.2) } q else none
        let b := if x.wrr.2.1 ≠ 0 then (nextQueue x fun q => q.prio == 2).map fun q => visit { x with wrr := (x.wrr.1, x.wrr.2.1 - 1, x.wrr.2.2) } q else none
        let c := if x.wrr.2.2 ≠ 0 then (nextQueue x fun q => q.prio == 3).map fun q => visit { x with wrr := (x.wrr.1, x.wrr.2.1, x.wrr.2.2 - 1) } q else none
        (a.orElse fun _ => b).orElse fun _ => c
      (try_ x).orElse fun _ => try_ { x with wrr := classWeights x }

/-! ### Fetch (R116, R120, R121, R125, R225, R456, R473, R475) -/

/-- Admin opcodes supported (R120, R491). -/
def adminOpcodes : List Nat :=
  [0x00, 0x01, 0x02, 0x04, 0x05, 0x06, 0x08, 0x09, 0x0A, 0x0C, 0x0D, 0x10, 0x11, 0x14, 0x15, 0x19, 0x1A, 0x1C, 0x1D, 0x1E, 0x80, 0x81, 0x82, 0x84, 0x85, 0x86,
    0x88, 0x89, 0xC1, 0xC2, 0xC3, 0xC4, 0xC5, 0xC6]

/-- Admin opcodes only a PF takes (R120, R131). -/
def pfOnly : List Nat := [0x0D, 0x10, 0x11, 0x15, 0x1C, 0x80, 0xC1, 0xC3, 0xC4, 0xC6]

/-- I/O opcodes of a namespace (R121, R491). -/
def ioOpcodes : NsKind → List Nat
  | .nvm => [0x00, 0x01, 0x02, 0x05, 0x08, 0x09, 0x0C, 0x0D, 0x0E, 0x11, 0x15, 0x19]
  | .kv => [0x00, 0x01, 0x02, 0x06, 0x10, 0x14]
  | .memory => [0x01, 0x02, 0x05]
  | .compute => [0x01]

/-- Actions of the vendor commands (R131 to R138); Toll Statement Request has none. -/
def vendorActions : Nat → List Nat
  | 0xC1 => [0, 1, 2, 3, 4, 5]
  | 0xC3 => [0, 1]
  | 0xC4 => [1, 2, 3, 4]
  | 0xC5 => [0, 1, 2]
  | 0xC6 => [0, 1, 2, 3, 4, 5]
  | _ => List.range 256

/-- Bytes a command's blocks or transfer length call for, where it has them (R125). -/
def wantedBytes (s : State) (q : Nat) (d : List Byte) : Option Nat :=
  if q = 0 then (if sqeOp d = 0x02 then some (4 * (cdwF d 11 15 0 * 65536 + cdwF d 10 31 16 + 1)) else none)
  else match nsAt? s (sqeNsid d) with
    | none => none
    | some x =>
      match x.kind with
      | .nvm => if sqeOp d = 1 ∨ sqeOp d = 2 ∨ sqeOp d = 5 then some (sqeBlocks d * (x.lba + x.meta_)) else none
      | _ => none

/-- Does a command change map entries? (R225, R322) -/
def changesMap (x : Namespace) (op : Nat) : Bool :=
  match x.kind with
  | .nvm => op == 0x01 || op == 0x08 || op == 0x09 || op == 0x19
  | .kv => op == 0x01 || op == 0x10
  | _ => false

/-- Is a command turned away while the device is read-only? A Write Zeroes that deallocates whole units is not (R225). -/
def roRefused (x : Namespace) (d : List Byte) : Bool :=
  let op := sqeOp d
  match x.kind with
  | .nvm =>
    if op = 0x08 ∧ cdwF d 12 25 25 = 1 then
      decide (sqeSlba d * x.lba % x.unit ≠ 0) || decide ((sqeSlba d + sqeBlocks d) * x.lba % x.unit ≠ 0)
    else op == 0x01 || op == 0x08 || op == 0x19
  | .kv => op == 0x01
  | _ => false

/-- The class 2 key of a command (R456). -/
def ruleKey (op ctl h : Nat) : BitVec 160 := BitVec.ofNat 160 (op * 2 ^ 152 + ctl * 2 ^ 145 + h * 2 ^ 135)

/-- The class 3 key of a key tag (R456). -/
def tagKey (tag h : Nat) : BitVec 160 := BitVec.ofNat 160 (tag * 2 ^ 144 + h * 2 ^ 134)

/-- Lookup in the partition of a class; a class without a partition misses. -/
def classLookup (s : State) (cls : Nat) (k : BitVec 160) : State × Option Word :=
  match partOfClass? s cls with
  | none => (s, none)
  | some n => match matchLookup s n k with
    | (s, some w) => (s, some w.2.1.result)
    | (s, none) => (s, none)

/-- The key tag a command names: CETYPE and CEV of the Key Per I/O extension. -/
def sqeTag (d : List Byte) : Option Nat := if cdwF d 12 19 16 = 1 then some (cdwF d 13 15 0) else none

/-- Write-buffer bytes in use and its size (R32, R227). -/
def wbUsed (s : State) : Nat := (s.map.wb.map fun w => w.data.length).sum
/-- Write-buffer size. -/
def wbSize (s : State) : Nat := (inF s pMAP MAP_WB_SIZE 2 0 + 1) * 256 * 2 ^ 20

/-- Write-buffer room a command needs: every unit it touches (R32). -/
def roomFor (x : Namespace) (d : List Byte) : Nat :=
  if x.kind = .nvm ∧ (sqeOp d = 0x01 ∨ (sqeOp d = 0x08 ∧ cdwF d 12 25 25 = 0)) then (x.units (sqeSlba d) (sqeBlocks d)).length * x.unit else 0

/-- The checks of an I/O command at fetch: how it ends at once, or its key slot and room. -/
def ioChecks (s : State) (ctl : Nat) (d : List Byte) (dataLen : Nat) (prpShort : Bool) : State × Except NvStatus (Option Nat × Nat) :=
  match nsAt? s (sqeNsid d) with
  | none => (s, .error .invalidNamespace)
  | some x =>
    let h := sqeNsid d - 1
    if !x.attached.contains ctl then (s, .error .invalidNamespace)
    else if !(ioOpcodes x.kind).contains (sqeOp d) then (s, .error .invalidOpcode)
    else if x.span = 1 ∧ 6 ≤ rdF s pSPN SPN_MEMBER 11 8 then (s, .error .notReady)
    else if x.span = 1 ∧ rdF s pSPN SPN_VIEW 16 16 = 0 ∧ roRefused x d then (s, .error .writeProtected)
    else
      let (s, rule) := classLookup s 2 (ruleKey (sqeOp d) ctl h)
      if rule.any fun w => bit w 31 then (s, .error .accessDenied)
      else
        let (s, slot) := match sqeTag d with
          | some t => (match classLookup s 3 (tagKey t h) with
            | (s, some r) => (s, some (some (fld r 15 0)))
            | (s, none) => (s, some none))
          | none => (s, none)
        if slot = some none then (s, .error .invalidField)
        else
          let k := match slot with
            | some (some k) => k
            | _ => h
          if x.kind = .nvm ∧ (slotOf s k).locked then (s, .error .accessDenied)
          else if slot.isSome ∧ (slotRefusal s k 1 3 false x.tenant false none).isSome then (s, .error .invalidField)
          else if prpShort then (s, .error .prpOffset)
          else if (wantedBytes s 1 d).any (· != dataLen) then (s, .error .sglLength)
          else if mapStopped s ∧ changesMap x (sqeOp d) then (s, .error .writeProtected)
          else if (bit (rd s pMAP MAP_MEDIA_STATE) 0 ∨ bit (rd s pSTR STR_STATE) 9) ∧ roRefused x d then (s, .error .writeProtected)
          else (s, .ok (slot.map fun _ => k, roomFor x d))

/-- May a write begin step 2: is there room, and does the throttle admit it? (R32, R224) -/
def roomNow (s : State) (n : Nat) : Bool := n == 0 || (decide (wbUsed s + s.map.reserved + n ≤ wbSize s) && writeAdmitted s n)

/-- Reserve write-buffer room for a command (R32). -/
def takeRoom (s : State) (n : Nat) : State := { s with map := { s.map with reserved := s.map.reserved + n, admitted := s.map.admitted + n } }

/-- The engine fetches the next command by its arbitration; `d` is the entry in the submission queue, `dataLen` what its data pointer describes (R116, R125). -/
def fetchCommand (s : State) (d : List Byte) (dataLen : Nat) (prpShort : Bool) : State :=
  if s.flt.fetchStopped then s
  else match pickCtl s with
  | none => s
  | some (c, left) =>
    match pickQueue (inF s pNQE NQE_FETCH_BURST 6 0) (ctlOf s c) with
    | none => s
    | some (q, x) =>
      match x.sqs.get? q with
      | none => s
      | some sq =>
        let s := putCtl s c { x with sqs := x.sqs.put q { sq with head := (sq.head + 1) % sq.size } }
        let s := bump { s with hst := { s.hst with turn := c, left := left, power := { s.hst.power with idleSince := s.com.time } } } pNQE NQE_CMD_COUNT 1
        let bad := s.hst.nqeInject.contains 1
        let s := if bad then nqeBucket { s with hst := { s.hst with nqeInject := removeFirst (· == 1) s.hst.nqeInject } } else s
        let cmd : HostCmd :=
          { id := s.hst.nextId, ctl := c, q := q, cid := sqeCid d, sqe := d, dataLen := dataLen, keySlot := none, room := 0, state := .fetched
            reply := [], units := [], until_ := 0 }
        let s := { s with hst := { s.hst with cmds := s.hst.cmds ++ [cmd], nextId := s.hst.nextId + 1 } }
        let fail (s : State) (st : NvStatus) : State := endCmd s cmd st 0 []
        if bad then (let s := fail s .invalidField; if partitionMode s && !isPf c then endAll s (fun y => y.ctl == c) .sqDeletion else s)
        else if q = 0 then
          if !adminOpcodes.contains (sqeOp d) || (!isPf c && pfOnly.contains (sqeOp d)) then fail s .invalidOpcode
          else if !(vendorActions (sqeOp d)).contains (cdwF d 10 7 0) then fail s .invalidField
          else if prpShort then fail s .prpOffset
          else if (wantedBytes s 0 d).any (· != dataLen) then fail s .sglLength
          else showNqe s
        else match ioChecks s c d dataLen prpShort with
          | (s, .error st) => fail s st
          | (s, .ok (slot, room)) =>
            if roomNow s room then putCmd (takeRoom s room) { cmd with keySlot := slot, room := room }
            else irq (putCmd s { cmd with keySlot := slot, units := [room], state := .held }) pNQE 0

/-- Write-buffer room frees and a held write proceeds (R32). -/
def holdRelease (s : State) (id : Nat) : State :=
  match cmdOf? s id with
  | none => s
  | some c =>
    let n := c.units.headD 0
    if c.state = .held ∧ roomNow s n then putCmd (takeRoom s n) { c with state := .fetched, room := n, units := [] } else s

/-! ### Tunnelled commands' answers (R147) -/

/-- Status code and type of a status, as type × 256 + code; those of R127 are the spec's, the others the standard's. -/
def NvStatus.code : NvStatus → Nat
  | .success => 0x000 | .invalidOpcode => 0x001 | .invalidField => 0x002 | .internalError => 0x006 | .abortRequested => 0x007 | .sqDeletion => 0x008
  | .invalidNamespace => 0x00B | .sequenceError => 0x00C | .sglLength => 0x00F | .prpOffset => 0x013 | .writeProtected => 0x020 | .interrupted => 0x021
  | .lbaRange => 0x080 | .capacityExceeded => 0x081 | .notReady => 0x082 | .reservationConflict => 0x083 | .valueSize => 0x085 | .keySize => 0x086
  | .keyMissing => 0x087 | .keyExists => 0x089 | .cqInvalid => 0x100 | .sqInvalid => 0x101 | .queueSize => 0x102 | .abortLimit => 0x103 | .asyncLimit => 0x105
  | .slotInvalid => 0x106 | .vectorInvalid => 0x108 | .logPage => 0x109 | .queueDeletion => 0x10C | .activationProhibited => 0x113 | .nsCapacity => 0x115
  | .nsUnavailable => 0x116 | .nsAttached => 0x118 | .nsPrivate => 0x119 | .nsNotAttached => 0x11A | .selfTest => 0x11D | .controllerInvalid => 0x11F
  | .controllerState => 0x120 | .resources => 0x121 | .readOnlyRange => 0x182 | .sizeLimit => 0x183 | .rangeSetInvalid => 0x184 | .programInvalid => 0x185
  | .programActivation => 0x186 | .unrecoveredRead => 0x281 | .guardCheck => 0x282 | .tagCheck => 0x284 | .compareFailure => 0x285 | .accessDenied => 0x286
  | .launchRefused => 0x7C0 | .rangeConflict => 0x7C1 | .retentionLocked => 0x7C2 | .spanRefused => 0x7C3 | .barchanBusy => 0x7C4 | .meterUnavailable => 0x7C5
  | .stageRejected => 0x7C6 | .programFault => 0x7C7

/-- The queue number of commands tunnelled through the management port: none that a host can create. -/
def mgmtQueue : Nat := 0x10000

/-- The answer to a tunnelled command: DW0, the status, and the data. -/
def tunnelReply (st : NvStatus) (dw0 : Nat) (d : List Byte) : List Byte := bytesLE 4 dw0 ++ bytesLE 4 st.code ++ d

/-- A response leaves on the management port; it answers the oldest request that waits. -/
def mgmtRespond (s : State) (b : List Byte) : State :=
  { s with hst := { s.hst with mctpIn := s.hst.mctpIn.drop 1, mctpOut := s.hst.mctpOut ++ [b] } }

/-! ### Completion (R27, R31, R123) -/

/-- Is the newest data of a unit past the write buffer: programmed and journaled (R31)? -/
def unitSettled (s : State) (h u : Nat) : Bool := !s.map.wb.any fun w => w.handle == h && w.unit == u && w.redirect.isNone

/-- The event an Asynchronous Event Request of a controller reports next. -/
def nextEvent (s : State) (c : Nat) : Option (Nat × Nat × Nat) := s.com.async[(ctlOf s c).seen]?

/-- A waiting command whose condition holds now ends: an event request, a FUA write, a drained Flush, a snapshot whose time has passed. -/
def wakeCmd (s : State) (c : HostCmd) : State :=
  if c.state ≠ .waiting then s
  else if c.q = 0 ∧ sqeOp c.sqe = 0x0C then
    match nextEvent s c.ctl with
    | none => s
    | some (t, i, p) => endCmd (putCtl s c.ctl { ctlOf s c.ctl with seen := (ctlOf s c.ctl).seen + 1 }) c .success (t + i * 256 + p * 65536) []
  else if c.q = 0 ∧ sqeOp c.sqe = 0xC3 then (if s.com.time.toNat < c.until_ then s else endCmd s c .success (c.units.headD 0) [])
  else if c.q ≠ 0 ∧ c.q ≠ mgmtQueue ∧ !c.units.isEmpty ∧ c.units.all fun u => unitSettled s (sqeNsid c.sqe - 1) u then endCmd s c .success 0 c.reply
  else s

/-- Post the completion of a command that has ended, with its interrupt (R27). -/
def postCmd (s : State) (id : Nat) : State :=
  match cmdOf? s id with
  | none => s
  | some c0 =>
    let s := wakeCmd s c0
    match cmdOf? s id with
    | none => s
    | some c =>
      match c.state with
      | .done st dw0 =>
        if c.q = mgmtQueue then showNqe (mgmtRespond { s with hst := { s.hst with cmds := s.hst.cmds.filter fun y => y.id != id } } (tunnelReply st dw0 c.reply))
        else
        let x := ctlOf s c.ctl
        let cqId := match x.sqs.get? c.q with
          | some q => q.cq
          | none => 0
        match x.cqs.get? cqId with
        | none => s
        | some cq =>
          if s.flt.fetchStopped || !(linkOf s (ctlPort c.ctl)).up || (cq.tail + 1) % cq.size == cq.head then s
          else
            let tail := (cq.tail + 1) % cq.size
            let post : Posted := ⟨c.ctl, c.q, c.cid, st, dw0, (x.sqs.get? c.q).elim 0 (·.head), cq.phase, c.reply⟩
            let s := putCtl s c.ctl { x with cqs := x.cqs.put cqId { cq with tail := tail, phase := if tail = 0 then !cq.phase else cq.phase } }
            showNqe { s with hst := { s.hst with
              cmds := s.hst.cmds.filter fun y => y.id != id
              posted := s.hst.posted ++ [post]
              vectors := if cq.ien then s.hst.vectors ++ [(c.ctl, cq.vector)] else s.hst.vectors } }
      | _ => s

/-! ### Ports (R106, R109, R110, R600) -/

/-- Maximum width of a port in this mode (R105). -/
def portLanes (s : State) : Nat := if s.com.chip.split then 8 else 16

/-- Does the port exist as an island? (R13) -/
def portHere (s : State) (p : Bool) : Bool := !p || s.com.chip.split

/-- The port trains to the highest common rate and width (R106). -/
def linkUp (s : State) (p : Bool) (rate width : Nat) : State :=
  let l := linkOf s p
  let r := min rate (inF s (pHF p) HF_LINK_CTRL 3 0)
  let w := min width (portLanes s)
  if !portHere s p || bit (rd s (pHF p) rSTATUS) 1 || decide (r < 4) || decide (6 < r) || decide (w = 0) then s
  else
    let ltssm := (Config.freeWord s.com.free).toNat % 128
    let s := takeFree s
    let s := wr s (pHF p) HF_LINK_STATUS (w32 (r + w * 16 + (if r = 6 then 1024 else 0) + w * 2048 + ltssm * 2 ^ 17))
    let s := irq s (pHF p) 1
    let s := if l.lastRate ≠ 0 ∧ l.lastRate ≠ r then irq s (pHF p) 2 else s
    putLink s p ⟨true, r, w, r, none⟩

/-- End every outstanding command of a port's controllers (R109, R600). -/
def endPort (s : State) (p : Bool) : State := endAll s (fun c => ctlPort c.ctl == p) .interrupted

/-- The port loses its link; in x8 + x8 its commands end (R109). -/
def linkDown (s : State) (p : Bool) : State :=
  let l := linkOf s p
  if !portHere s p || !l.up then s
  else
    let s := irq (wr s (pHF p) HF_LINK_STATUS 0) (pHF p) 0
    let s := putLink s p { l with up := false, rate := 0, width := 0, downSince := some s.com.time }
    if s.com.chip.split then endPort s p else s

/-- A host port is retired in x8 + x8: transmit off, its commands end; port A in x16 never is (R600). -/
def retirePort (s : State) (p : Bool) : State :=
  if !s.com.chip.split || bit (rd s (pHF p) rSTATUS) 1 then s
  else
    let s := wrB (wr s (pHF p) HF_LINK_STATUS 0) (pHF p) rSTATUS 1 true
    let s := logRetire (setFault s (pHF p) .permanent (Config.blockCause 17) 0) (pHF p) (Config.blockCause 17) 0
    endPort (putLink s p { linkOf s p with up := false, rate := 0, width := 0 }) p

/-- One counted event of a port; the overflow retires it (R110, R600). -/
def portEvent (s : State) (p : Bool) : State :=
  match lbEvent s (pHF p) with
  | (s, true) => retirePort s p
  | (s, false) => s

/-- In x8 + x8 a port still down 1 s after it lost its link is retired (R600). -/
def linkExpiry (s : State) (p : Bool) : State :=
  match (linkOf s p).downSince with
  | some t => if !(linkOf s p).up && decide (1000000000 ≤ (s.com.time - t).toNat) then retirePort s p else s
  | none => s

/-- A transaction issued by the port gets no completion (R110). -/
def completionTimeout (s : State) (p : Bool) : State := portEvent (irq s (pHF p) 3) p

/-- A link error: replay timeouts and receiver errors count; an IDE failure is reported and ends the commands of the partition whose stream failed (R110, R144). -/
def linkError (s : State) (p : Bool) (e : LinkErr) : State :=
  match e with
  | .replayTimeout => portEvent s p
  | .receiverError => portEvent s p
  | .ideFailure fn =>
    let s := irq (bumpF s (pHF p) HF_IDE_STATUS 23 8 1) (pHF p) 4
    if partitionMode s && fn.val != 0 then endAll s (fun c => c.ctl == (if p then 64 else 0) + fn.val) .sqDeletion else s

/-- `HF.ERR_INJECT` (R110): bad LCRC, poisoned TLP (AER uncorrectable bit 12), completion timeout, IDE MAC failure. -/
def hfInject (s : State) (p : Bool) (v : Word) : State :=
  match fld v 3 0 with
  | 1 => injected s fun s => linkError s p .receiverError
  | 2 => injected s fun s => wrB s (pHF p) HF_AER_SUMMARY 12 true
  | 3 => injected s fun s => completionTimeout s p
  | 4 => injected s fun s => linkError s p (.ideFailure 0)
  | _ => s

/-- `NQE.ERR_INJECT` (R118). -/
def nqeInject (s : State) (v : Word) : State :=
  if fld v 3 0 = 1 ∨ fld v 3 0 = 2 then { s with hst := { s.hst with nqeInject := s.hst.nqeInject ++ [fld v 3 0] } } else s

/-! ### Commit checks (R112, R119) -/

/-- Commit checks of `HFA` and `HFB` (R112, R105). -/
def checkHf (s : State) (p : Bool) : List (Nat × Nat) :=
  let pg := pHF p
  let on (n : Nat) : Bool := rdF s pg (HF_OBW_CTRL + 16 * n) 31 31 == 1
  let base (n : Nat) : Nat := rdF s pg (HF_OBW_BASE + 16 * n) 27 0 * 2 ^ 20
  let size (n : Nat) : Nat := rdF s pg (HF_OBW_CTRL + 16 * n) 5 0
  let other := pHF (!p)
  let oOn (n : Nat) : Bool := s.com.chip.split && inF s other (HF_OBW_CTRL + 16 * n) 31 31 == 1
  let oBase (n : Nat) : Nat := inF s other (HF_OBW_BASE + 16 * n) 27 0 * 2 ^ 20
  let oSize (n : Nat) : Nat := inF s other (HF_OBW_CTRL + 16 * n) 5 0
  let meets (a m b n : Nat) : Bool := decide (a < b + 2 ^ n) && decide (b < a + 2 ^ m)
  if !portHere s p then [(0, 5)]
  else
    ((List.range 32).flatMap fun n =>
      if !on n then [] else
      (if size n < 20 ∨ 44 < size n then [(HF_OBW_CTRL + 16 * n, 1)] else [])
      ++ (if base n < 0x20000000000 ∨ base n % 2 ^ size n ≠ 0 then [(HF_OBW_BASE + 16 * n, 1)] else [])
      ++ (if (List.range 32).any fun m => (m != n && on m && meets (base n) (size n) (base m) (size m)) || (oOn m && meets (base n) (size n) (oBase m) (oSize m))
          then [(HF_OBW_BASE + 16 * n, 3)] else [])
      ++ (let ide := rdF s pg (HF_OBW_CTRL + 16 * n) 26 24
          let fn := rdF s pg (HF_OBW_CTRL + 16 * n) 21 16
          if (ide ≠ 0 ∧ (ide > 4 ∨ rdF s pg HF_IDE_STATUS (ide - 1) (ide - 1) = 0)) ∨ fn > numVfs s p then [(HF_OBW_CTRL + 16 * n, 5)] else []))
    ++ (let t := rdF s pg HF_CPL_TIMEOUT 23 0
        if t < 50 ∨ 10000000 < t then [(HF_CPL_TIMEOUT, 1)] else [])
    ++ (let r := rdF s pg HF_LINK_CTRL 3 0
        if r < 4 ∨ 6 < r then [(HF_LINK_CTRL, 1)] else [])

/-- Does any I/O queue exist? -/
def anyIoQueue (s : State) : Bool := s.hst.ctls.any fun c => c.2.sqs.any (fun q => q.1 != 0) || c.2.cqs.any fun q => q.1 != 0

/-- Commit checks of `NQE` (R119). -/
def checkNqe (s : State) (applyMode : Nat) : List (Nat × Nat) :=
  let changed := rd s pNQE NQE_TENANCY != inForce s pNQE NQE_TENANCY
  let parts := rdF s pNQE NQE_TENANCY 20 16
  ((allCtls s).filter fun c => rdF s pNQE (NQE_FN_SHARE + 4 * (c / 4)) (8 * (c % 4) + 7) (8 * (c % 4)) == 0).map (fun c => (NQE_FN_SHARE + 4 * (c / 4), 1))
  ++ (let b := rdF s pNQE NQE_FETCH_BURST 6 0
      if b = 0 ∨ 64 < b then [(NQE_FETCH_BURST, 1)] else [])
  ++ (if rdF s pNQE NQE_TENANCY 0 0 = 1 ∧ (parts < 1 ∨ 16 < parts) then [(NQE_TENANCY, 1)] else [])
  ++ (if changed && (anyIoQueue s || applyMode != 1) then [(NQE_TENANCY, 3)] else [])

end Sys2Proof.Machine
end

