-- ==== Sys2Proof/Machine/Images.lean ====
section
/-! DEFINITION. Rosna images and their check, the owner policy, the anti-rollback counters, and boot records as bytes (R513 to R530, R532). -/

namespace Sys2Proof.Machine

/-! ### Image fields (R515, R516) -/

/-- KIND. -/
def imgKind (b : List Byte) : Nat := bAt b 6
/-- SIGNER [1:0]. -/
def imgSigner (b : List Byte) : Nat := bAt b 7 % 4
/-- KEY_GEN. -/
def imgKeyGen (b : List Byte) : Nat := bAt b 7 / 16 % 4
/-- IMAGE_LEN. -/
def imgLen (b : List Byte) : Nat := leAt b 8 4
/-- SECTIONS. -/
def imgSections (b : List Byte) : Nat := leAt b 12 4
/-- CTR_IDX. -/
def imgCtr (b : List Byte) : Nat := leAt b 16 2
/-- SVN. -/
def imgSvn (b : List Byte) : Nat := leAt b 20 4
/-- VERSION. -/
def imgVersion (b : List Byte) : Nat := leAt b 24 8
/-- BIND. -/
def imgBind (b : List Byte) : Nat := leAt b 32 8
/-- PART_LEN. -/
def imgPartLen (b : List Byte) : Nat := leAt b 40 4
/-- CLUSTER_MASK. -/
def imgClusters (b : List Byte) : Nat := bAt b 44
/-- COSIGNED. -/
def imgCosigned (b : List Byte) : Bool := (bAt b 45).testBit 0
/-- OWNER_ID. -/
def imgOwner (b : List Byte) : List Byte := (b.drop 128).take 64
/-- The payload: bytes 8,192 to IMAGE_LEN - 1. -/
def imgPayload (b : List Byte) : List Byte := (b.take (imgLen b)).drop 8192
/-- SHA-512 (R482). -/
def sha512 (b : List Byte) : List Byte := digestOf 0x03 b 64
/-- The image digest: SHA-512 over bytes 0 to 255. -/
def imgDigest (b : List Byte) : List Byte := sha512 (b.take 256)

/-- Largest IMAGE_LEN of a kind; 0 for a reserved one. -/
def kindMax : Nat → Nat
  | 1 => 262144 | 2 => 16777216 | 3 => 8388608 | 4 => 524288 | 5 => 16384 | _ => 0

/-- Signers and counters a kind allows. -/
def kindAllows (k signer ctr : Nat) : Bool :=
  match k with
  | 1 => signer == 0 && ctr == 0
  | 2 => signer == 0 && ctr == 1
  | 3 => signer == 0 && ctr == 2
  | 4 => decide (signer ≤ 1) && (ctr == 0xFFFF || (decide (4 ≤ ctr) && decide (ctr ≤ 15)))
  | 5 => signer == 2 && ctr == 3
  | _ => false

/-- Step 1 of R518. -/
def imgFormatOk (s : State) (b : List Byte) : Bool :=
  let k := imgKind b
  leAt b 0 4 == 0x414E5352 && leAt b 4 2 == 1 && kindAllows k (imgSigner b) (imgCtr b) && bAt b 7 % 16 / 4 == 0 && bAt b 7 / 64 == 0
    && decide (8192 ≤ imgLen b) && decide (imgLen b ≤ kindMax k) && decide (imgLen b ≤ b.length)
    && ((k != 1 && k != 5) || imgSections b == 0) && (k == 2 || imgPartLen b == 0) && (k == 3 || imgClusters b == 0) && decide (bAt b 45 ≤ 1)
    && (imgCosigned b || imgSigner b != 0 || zerosAt b 128 64)
    && zerosAt b 18 2 && zerosAt b 46 18 && zerosAt b 192 64 && zerosAt b 3629 3 && zerosAt b 7005 1187
    && (imgCosigned b || zerosAt b 3632 3373)
    && (imgBind b == 0 || imgBind b == s.bot.fuses.serial)

/-! ### Owner and policy (R525) -/

/-- The owner in force: the highest slot USED and not REVOKED. -/
def ownerInForce? (s : State) : Option Nat :=
  ([3, 2, 1, 0].find? fun n => s.bot.fuses.ownerState.testBit (2 * n) && !s.bot.fuses.ownerState.testBit (2 * n + 1))

/-- The digest of the owner in force. -/
def ownerDigest (s : State) : List Byte := (ownerInForce? s).elim [] fun n => s.bot.fuses.owners.getD n []

/-- The digest a policy payload names: of OWNER_ED then OWNER_ML. -/
def policyOwner (p : List Byte) : List Byte := sha512 (p.take 1984)

/-- The payload of the policy in force; empty with no owner in force. -/
def policyPayload (s : State) : List Byte := if (ownerInForce? s).isSome then imgPayload s.bot.policy else []

/-- FLAGS of the policy in force: the defaults are all clear (R526). -/
def policyFlags (s : State) : Nat := bAt (policyPayload s) 3968

/-- Owner keys of a payload: scheme 0 Ed25519, 1 ML-DSA-65. -/
def ownerKey (p : List Byte) (scheme : Nat) : List Byte := if scheme = 0 then p.take 32 else (p.drop 32).take 1952

/-- Owner program keys of a payload. -/
def programKey (p : List Byte) (scheme : Nat) : List Byte := if scheme = 0 then (p.drop 1984).take 32 else (p.drop 2016).take 1952

/-- Verify a block: Ed25519 over the message; ML-DSA-65 over it with the context string that its scheme number stands for (1 QW-ROSNA, 2 QW-ROSNA-OWNER). -/
def primOk (b : List Byte) (key : Nat → List Byte) (scheme : Nat) : Bool :=
  Config.verify scheme (key scheme) (b.take 256) (if scheme = 0 then (b.drop 256).take 64 else (b.drop 320).take 3309)

/-- Does the owner block verify? -/
def ownerBlockOk (b : List Byte) (key : Nat → List Byte) : Bool :=
  Config.verify 0 (key 0) (b.take 3632) ((b.drop 3632).take 64) && Config.verify 2 (key 1) (b.take 3632) ((b.drop 3696).take 3309)

/-- The key that signs a primary block; none when there is no such key. -/
def primKey? (s : State) (b : List Byte) : Option (Nat → List Byte) :=
  match imgSigner b with
  | 0 => some (Config.romKey (imgKeyGen b))
  | 1 => if (policyFlags s).testBit 4 then some (programKey (policyPayload s)) else none
  | _ => if (ownerInForce? s).isSome then some (ownerKey (policyPayload s)) else none

/-! ### Counters (R524) -/

/-- Burned bits of a floor: the fuse floor is 16 × them. -/
def floorOf (s : State) (c : Nat) : Nat := 16 * s.bot.fuses.floors.getD c 0

/-- A counter's effective value. -/
def counterOf (s : State) (c : Nat) : Nat := if s.bot.countersLost then floorOf s c else max (s.bot.counters.getD c 0) (floorOf s c)

/-- `SCP` shows the selected counter and MRAM_LOST (R534). -/
def showCounters (s : State) : State :=
  let c := rdF s pSCP SCP_CTR_SEL 3 0
  wr (wr (wr s pSCP SCP_CTR_VALUE (w32 (counterOf s c))) pSCP SCP_CTR_FLOOR (w32 (floorOf s c))) pSCP SCP_CTR_STATUS (if s.bot.countersLost then 1 else 0)

/-- A counter rises to a value, and floor bits are burned until ⌊v ÷ 16⌋ are, up to 32; a lower value is refused. -/
def setCounter (s : State) (c v : Nat) : State :=
  if v < counterOf s c then s
  else
    let f := s.bot.fuses
    let s := { s with bot := { s.bot with
      counters := s.bot.counters.put c v
      fuses := { f with floors := f.floors.putD c (max (f.floors.getD c 0) (min 32 (v / 16))) 0 } } }
    let s := mramPut s (0x100 + 4 * c) (bytesLE 4 v)
    irq (showCounters s) pSCP 3

/-! ### The image check (R518) -/

/-- Section descriptors that open a payload (R367, R515). -/
def imgSecs (b : List Byte) : List Section := (List.range (imgSections b)).map fun i => sectionOf (((imgPayload b).drop (imgPartLen b + 16 * i)).take 16)

/-- Is it an image the program policy UNSIGNED_ALLOWED takes as unsigned? -/
def unsignedImage (s : State) (b : List Byte) : Bool :=
  (policyFlags s).testBit 1 && imgKind b == 4 && imgSigner b == 0 && !imgCosigned b && zerosAt b 256 64 && zerosAt b 320 3309

/-- Counter-signature required by the policy in force for a kind. -/
def cosignNeeded (s : State) (k : Nat) : Bool := (policyFlags s).testBit 0 && decide (1 ≤ k) && decide (k ≤ 3)

/-- Steps 2 to 5 for an image that is no policy. -/
def signatureCause (s : State) (b : List Byte) : Option Nat :=
  if (imgSigner b = 0 ∧ s.bot.fuses.revoke.testBit (imgKeyGen b) = true) ∨ (imgSigner b ≠ 0 ∧ ((ownerInForce? s).isNone ∨ imgOwner b ≠ ownerDigest s)) then some 2
  else match primKey? s b with
    | none => some 3
    | some key =>
      if !primOk b key 0 then some 3
      else if !primOk b key 1 then some 4
      else if (imgCosigned b || cosignNeeded s (imgKind b))
          && !(imgCosigned b && imgOwner b == ownerDigest s && (ownerInForce? s).isSome && ownerBlockOk b (ownerKey (policyPayload s))) then some 5
      else none

/-- Steps 2 to 5 for a POLICY image (R525): `installing` checks the primary block under the owner in force. -/
def policyCause (s : State) (installing : Bool) (b : List Byte) : Option Nat :=
  let p := imgPayload b
  let inForce := (ownerInForce? s).isSome
  if !zerosAt p 3969 127 then some 1
  else if !installing && inForce && imgOwner b != ownerDigest s then some 2
  else if installing && inForce && !primOk b (ownerKey (policyPayload s)) 0 then some 3
  else if installing && inForce && !primOk b (ownerKey (policyPayload s)) 1 then some 4
  else if !imgCosigned b || imgOwner b != policyOwner p || !ownerBlockOk b (ownerKey p) then some 5
  else none

/-- The check of R518: the cause of the first failure. `none` bytes are a read that failed. -/
def imageCause (s : State) (installing : Bool) : Option (List Byte) → Option Nat
  | none => some 8
  | some b =>
    if !imgFormatOk s b then some 1
    else
      let sigs :=
        if imgKind b = 5 then policyCause s installing b
        else if unsignedImage s b then (if hasTables (imgSecs b) then some 3 else none)
        else signatureCause s b
      match sigs with
      | some c => some c
      | none =>
        if imgCtr b ≠ 0xFFFF ∧ imgSvn b < counterOf s (imgCtr b) then some 6
        else if sha512 (imgPayload b) ≠ (b.drop 64).take 64 then some 7
        else none

/-- One counted check failure: the bucket of `SCP` (R534). -/
def scpEvent (s : State) : State := (lbEvent s pSCP).1

/-- Check an image that the security processor reads: the boot stream reaches the snoop tap 0x4 (R534), an armed injection fails the check of its replica with MLDSA_FAIL, and a failure counts in the bucket. -/
def checkImage (s : State) (installing : Bool) (replica : Nat) (r : Option (List Byte)) : State × Option Nat :=
  let s := match r with
    | some b => snSnoop s 4 0 b
    | none => s
  if s.bot.inject.contains (2, replica) then
    (injected (scpEvent { s with bot := { s.bot with inject := removeFirst (· == (2, replica)) s.bot.inject } }) id, some 4)
  else match imageCause s installing r with
    | some c => (scpEvent s, some c)
    | none => (s, none)

/-! ### Boot records (R528 to R531) -/

/-- A measurement entry's 80 bytes. -/
def measureBytes (i : Nat) (m : Measure) : List Byte :=
  bytesLE 1 i ++ bytesLE 1 m.kind ++ bytesLE 1 m.flags ++ bytesLE 1 m.unit ++ bytesLE 4 m.svn ++ bytesLE 8 m.version ++ fit 64 m.digest

/-- Bytes 0 to 4,671 of a record, which both signatures cover. -/
def recordBody (r : BootRecord) : List Byte :=
  bytesLE 4 0x52425751 ++ bytesLE 2 1 ++ bytesLE 1 r.event ++ bytesLE 1 r.meas.length ++ bytesLE 4 r.seq ++ bytesLE 4 r.bootCount
    ++ bytesLE 8 r.time ++ bytesLE 8 r.stamp ++ fit 16 r.arg ++ List.replicate 16 0 ++ fit 64 r.prev ++ fit 64 r.config
    ++ fit 4480 (r.meas.flatMap fun m => measureBytes m.1 m.2)

/-- The 8,192 bytes of a record. -/
def bootRecordBytes (r : BootRecord) : List Byte :=
  let b := recordBody r ++ fit 64 r.sigEd ++ fit 3309 r.sigMl ++ List.replicate 143 0
  b ++ bytesLE 4 (crc32c b)

/-- PREV of the record after `r`: SHA-512 over bytes 0 to 8,044. -/
def prevDigest (r : BootRecord) : List Byte := sha512 ((bootRecordBytes r).take 8045)

/-- The configuration block (R530). -/
def configBlock (s : State) : List Byte :=
  bytesLE 8 s.bot.fuses.serial ++ bytesLE 4 (rd s pSYS rPAGE_CAPS).toNat ++ bytesLE 1 ((ownerInForce? s).getD 0xFF) ++ bytesLE 1 (policyFlags s)
    ++ bytesLE 1 (if s.com.chip.split then 1 else 0) ++ bytesLE 1 (inF s pNQE NQE_TENANCY 0 0)
    ++ (List.range 16).flatMap (fun c => bytesLE 4 (counterOf s c)) ++ fit 64 (ownerDigest s) ++ List.replicate 112 0

/-- Form the next record of an event: CHANGED marks the entries it brings; a BOOT marks every one. -/
def formRecord (s : State) (e : BootEvent) : State × BootRecord :=
  let base : Tab Measure := s.bot.meas.map fun m => (m.1, { m.2 with flags := m.2.flags &&& 2 })
  let cfg : Measure := ⟨0, 0, 0, 0, 0, sha512 (configBlock s)⟩
  let meas := e.changes.foldl (fun (t : Tab Measure) c => match c.2 with
    | some m => t.put c.1 { m with flags := m.flags ||| 1 }
    | none => t.del c.1) (base.put 0x0B cfg)
  let meas : Tab Measure := if e.event = 1 then meas.map fun m => (m.1, { m.2 with flags := m.2.flags ||| 1 }) else meas
  let last := rdF s pSCP SCP_REC_SEQ 31 0
  let prev := match s.bot.ring.get? (last % 1024) with
    | some p => if p.seq = last ∧ p.intact then prevDigest p else List.replicate 64 0
    | none => List.replicate 64 0
  let r : BootRecord :=
    { event := e.event, seq := last + 1, bootCount := s.bot.bootCount + (if e.event = 1 then 1 else 0), time := s.com.time.toNat, stamp := stampNow s, arg := e.arg
      prev := prev, config := sha512 (configBlock s), meas := meas, sigEd := [], sigMl := [], intact := true }
  ({ s with bot := { s.bot with meas := meas, bootCount := r.bootCount } },
    { r with sigEd := Config.sign 0 (ofBytesLE s.bot.edSeed) (recordBody r), sigMl := Config.sign 3 (ofBytesLE s.bot.mlSeed) (recordBody r) })

/-- Write a record into its ring slot of MRAM: durable when both dies hold it. -/
def storeRecord (s : State) (r : BootRecord) : State :=
  let slot := r.seq % 1024
  let s := { s with bot := { s.bot with ring := s.bot.ring.put slot r } }
  let s := mramPut s (0x5800000 + 8192 * slot) (bootRecordBytes r)
  irq (wr s pSCP SCP_REC_SEQ (w32 r.seq)) pSCP 0

/-- An append that power loss or an injection abandons leaves its slot torn (R531, R534). -/
def tearSlot (s : State) (seq : Nat) : State :=
  match s.bot.ring.get? (seq % 1024) with
  | some r => { s with bot := { s.bot with ring := s.bot.ring.put (seq % 1024) { r with intact := false } } }
  | none => s

/-- A measurement entry of an image. -/
def imgMeasure (b : List Byte) (nor : Bool) (unit : Nat) : Measure := ⟨imgKind b, if nor then 2 else 0, unit, imgSvn b, imgVersion b, imgDigest b⟩

/-! ### The ring check (R532) -/

/-- Does the record of a SEQ stand in its slot and match the PREV of its successor? -/
def chainHolds (s : State) (succ : Option BootRecord) (seq : Nat) : Option BootRecord :=
  match s.bot.ring.get? (seq % 1024) with
  | some r => if r.seq = seq ∧ r.intact ∧ (succ.all fun n => n.prev == prevDigest r) then some r else none
  | none => none

/-- Walk back from the newest: the SEQ values that fail, highest first. -/
def ringWalk (s : State) : Nat → Nat → Option BootRecord → List Nat
  | 0, _, _ => []
  | fuel + 1, seq, succ =>
    match chainHolds s succ seq with
    | some r => if seq = 0 then [] else ringWalk s fuel (seq - 1) (some r)
    | none => seq :: (if seq = 0 then [] else ringWalk s fuel (seq - 1) none)

/-- Runs of consecutive SEQ values, lowest first: first and last. -/
def seqRuns (l : List Nat) : List (Nat × Nat) :=
  l.foldl (fun acc n => match acc with
    | (a, b) :: t => if n + 1 = a then (n, b) :: t else (n, n) :: acc
    | [] => [(n, n)]) []

/-- Append a GAP record (R532). -/
def appendGap (s : State) (first last : Nat) : State :=
  let (s, r) := formRecord s ⟨8, bytesLE 4 first ++ bytesLE 4 last, [], .none⟩
  let s := irq (storeRecord s r) pSCP 2
  bumpF s pSCP SCP_REC_STATUS 15 0 1

/-- Check the ring at start-up: newest record, walk, one GAP record for each run lost; with no record at all a new chain starts at SEQ 1. `bad` are slots whose read fails. -/
def ringCheck (s : State) (bad : List Nat) : State :=
  if bit (rd s pSCP SCP_REC_STATUS) 30 then s
  else
    let last := rdF s pSCP SCP_REC_SEQ 31 0
    let armed := s.bot.inject.any fun x => x.1 == 3
    let s := { s with bot := { s.bot with inject := s.bot.inject.filter fun x => x.1 != 3 } }
    let bad := bad ++ (if armed then [(last + 1023) % 1024] else [])
    let s := bad.foldl (fun s k => match s.bot.ring.get? k with
      | some r => scpEvent { s with bot := { s.bot with ring := s.bot.ring.put k { r with intact := false } } }
      | none => s) s
    match (s.bot.ring.filter fun r => r.2.intact).foldl (fun (m : Option BootRecord) r => match m with
      | some x => if x.seq < r.2.seq then some r.2 else m
      | none => some r.2) none with
    | none => appendGap (wr s pSCP SCP_REC_SEQ 0) 0 0xFFFFFFFF
    | some n =>
      let s := wr s pSCP SCP_REC_SEQ (w32 n.seq)
      if n.seq = 0 then s else (seqRuns (ringWalk s 1022 (n.seq - 1) (some n))).foldl (fun s r => appendGap s r.1 r.2) s

end Sys2Proof.Machine
end

