-- ==== Sys2Proof/Machine/PathData.lean ====
section
/-! DEFINITION. What a unit's bytes become on the write path and what the read path makes of them: unit header, Hylas stream, fill, XTS, identity and tag checks, merge (R25, R28, R122, R182, R185, R189 to R191, R414, R473, R474). -/

namespace Sys2Proof.Machine

/-- Data units of a mapping unit (R474). -/
def duBytes (x : Namespace) : Nat := if x.du4k then 4096 else 512

/-- The unit header of R190. -/
def unitHeader (h u streamLen tag : Nat) : List Byte :=
  let b := bytesLE 2 h ++ bytesLE 6 u ++ bytesLE 2 streamLen ++ bytesLE 2 tag ++ [0, 0]
  b ++ bytesLE 2 (crc32c b % 65536)

/-- XTS over a unit's bytes from its first data unit number (R474, R476). -/
def unitXts (enc : Bool) (x : Namespace) (key : List Byte) (u : Nat) (b : List Byte) : List Byte :=
  xtsUnits enc key (duBytes x) (b.length + 1) (u * (x.unit / duBytes x)) b

/-- The stored form of a unit before encryption: header and stream with zero fill where that needs fewer slots, otherwise the unit itself (R185, R414, R474). -/
def packUnit (x : Namespace) (h u tag : Nat) (data : List Byte) : List Byte × Bool :=
  let stream := (compress (CompState.opened 0) true true data).2
  let n := cdiv (16 + stream.length) 64
  if x.compress && decide (n < x.unit / 64) then (fit (64 * n) (unitHeader h u stream.length tag ++ stream), true)
  else (data, false)

/-- Write-path step 3: the unit compressed where it pays, then encrypted; none when its key slot refuses (R414, R473, R475). -/
def storeUnit (s : State) (x : Namespace) (h u slot : Nat) (tag : Option Nat) (data : List Byte) : State × Option (List Byte × Bool) :=
  let s := (unwrapSlot s slot true).1
  match slotRefusal s slot 1 2 false x.tenant false none with
  | some _ => (keyDenied s, none)
  | none =>
    let (b, c) := packUnit x h u (tag.getD 0) data
    (s, some (unitXts true x (slotOf s slot).key u b, c))

/-- How a read of a unit fails at step 7. -/
inductive UnitFault where
  /-- Its key slot refuses (R475). -/
  | key
  /-- A media error: identity, HCHECK or stream check (R191). -/
  | media
  /-- The key tag differs (R473). -/
  | tag
  deriving DecidableEq, Repr

/-- Read-path step 7: decrypt, check identity and tag, decompress (R191, R414, R473, R474). For an uncompressed unit the identity and tag are those of its metadata. -/
def openUnit (s : State) (x : Namespace) (h u slot : Nat) (tag : Option Nat) (stored : List Byte) (compressed : Bool) (mHandle mUnit mTag : Nat) :
    State × Except UnitFault (List Byte) :=
  let s := (unwrapSlot s slot true).1
  match slotRefusal s slot 1 1 false x.tenant false none with
  | some _ => (keyDenied s, .error .key)
  | none =>
    let b := unitXts false x (slotOf s slot).key u stored
    let want := tag.getD 0
    if compressed then
      let hdr := b.take 16
      let bad := ofBytesLE (hdr.take 2) != h || ofBytesLE ((hdr.drop 2).take 6) != u || ofBytesLE (hdr.drop 14) != crc32c (hdr.take 14) % 65536
      if bad then (s, .error .media)
      else if ofBytesLE ((hdr.drop 10).take 2) ≠ want then (s, .error .tag)
      else
        let r := hylasDecode ((b.drop 16).take (ofBytesLE ((hdr.drop 8).take 2)))
        match r.how with
        | .ended _ => if r.out.length = x.unit then (s, .ok r.out) else (s, .error .media)
        | _ => (s, .error .media)
    else if mHandle ≠ h ∨ mUnit ≠ u then (s, .error .media)
    else if mTag ≠ want then (s, .error .tag)
    else (s, .ok (fit x.unit b))

/-- The status a failed unit gives its command. -/
def UnitFault.status : UnitFault → NvStatus
  | .key => .internalError
  | .media => .unrecoveredRead
  | .tag => .accessDenied

/-- The newest data of a unit in the write buffer (R192). -/
def wbNewest? (s : State) (h u : Nat) : Option WbUnit := (s.map.wb.filter fun w => w.handle == h && w.unit == u && w.redirect.isNone).getLast?

/-- One unit through read-path steps 2 to 7: from the write buffer, as zeros when trimmed, or from flash, where `flash` is what the channels and, if need be, reconstruction deliver; none is unrecoverable (R25, R26). -/
def readUnit (s : State) (x : Namespace) (h u slot : Nat) (tag : Option Nat) (flash : Option FlashUnit) : State × Except NvStatus (List Byte) :=
  let lift (r : State × Except UnitFault (List Byte)) : State × Except NvStatus (List Byte) := match r with
    | (s, .ok b) => (s, .ok b)
    | (s, .error f) => (s, .error f.status)
  match wbNewest? s h u with
  | some w => lift (openUnit s x h u slot tag w.data w.compressed w.handle w.unit (if w.tagged then w.tag else 0))
  | none =>
    let e := entryAt s h u
    if e = trimmed then (s, .ok (List.replicate x.unit 0))
    else if !validEntry s h e then (invalidEntry s h u e, .error .unrecoveredRead)
    else if s.map.mediaErr.contains (h, u) then (s, .error .unrecoveredRead)
    else match flash with
      | none => (s, .error .unrecoveredRead)
      | some f => lift (openUnit s x h u slot tag f.bytes (entC e) f.handle.val f.number.toNat f.tag.toNat)

/-- Units one after another; the first failure ends it. `flash` follows the list. -/
def readUnits (s : State) (x : Namespace) (h slot : Nat) (tag : Option Nat) : List Nat → List (Option FlashUnit) → State × Except (Nat × NvStatus) (List (Nat × List Byte))
  | [], _ => (s, .ok [])
  | u :: us, fl =>
    match readUnit s x h u slot tag (fl.headD none) with
    | (s, .error st) => (s, .error (u, st))
    | (s, .ok b) => match readUnits s x h slot tag us (fl.drop 1) with
      | (s, .ok l) => (s, .ok ((u, b) :: l))
      | (s, .error e) => (s, .error e)

/-- The bytes of an LBA range from its units. -/
def sliceUnits (x : Namespace) (l : List (Nat × List Byte)) (slba n : Nat) : List Byte :=
  let all := l.flatMap (·.2)
  let first := (l.head?.map (·.1)).getD 0 * x.unit
  (all.drop (slba * x.lba - first)).take (n * x.lba)

/-- Lay new bytes over a unit's old ones (R182). -/
def overUnit (x : Namespace) (u : Nat) (old : List Byte) (slba : Nat) (data : List Byte) : List Byte :=
  let at_ := u * x.unit
  let from_ := slba * x.lba
  (List.range x.unit).map fun i =>
    let a := at_ + i
    if from_ ≤ a ∧ a < from_ + data.length then data.getD (a - from_) 0 else old.getD i 0

/-- Is a unit covered whole by an LBA range? -/
def coversUnit (x : Namespace) (u slba n : Nat) : Bool := decide (slba * x.lba ≤ u * x.unit) && decide ((u + 1) * x.unit ≤ (slba + n) * x.lba)

/-! ### Protection information (R122) -/

/-- CRC-16 of the 16-bit guard: polynomial 0x8BB7, zero start, most significant bit first. -/
def guardCrc (b : List Byte) : Nat :=
  b.foldl (fun c x => (List.range 8).foldl (fun c _ => if c ≥ 32768 then (2 * c % 65536) ^^^ 0x8BB7 else 2 * c % 65536) (c ^^^ (x.toNat * 256))) 0

/-- A big-endian number. -/
def beNat (b : List Byte) : Nat := b.foldl (fun n x => 256 * n + x.toNat) 0

/-- Check one block's protection information: guard, application tag, reference tag (PRCHK bits 2, 1, 0). -/
def checkPi (x : Namespace) (prchk lba : Nat) (d : List Byte) (block m : List Byte) : Option NvStatus :=
  if x.pi = 0 ∨ x.meta_ = 0 ∨ (beNat ((m.drop 2).take 2) = 0xFFFF ∧ (x.pi ≠ 3 ∨ beNat (m.drop 4) = 0xFFFFFFFF)) then none
  else if prchk.testBit 2 ∧ beNat (m.take 2) ≠ guardCrc block then some .guardCheck
  else if prchk.testBit 1 ∧ (beNat ((m.drop 2).take 2) ^^^ cdwF d 15 15 0) &&& cdwF d 15 31 16 ≠ 0 then some .tagCheck
  else if prchk.testBit 0 ∧ x.pi ≠ 3 ∧ beNat (m.drop 4) ≠ (if x.pi = 1 then lba % 2 ^ 32 else (cdw d 14 + (lba - sqeSlba d)) % 2 ^ 32) then some .tagCheck
  else none

/-- The protection information the device writes itself (PRACT). -/
def makePi (x : Namespace) (lba : Nat) (d block : List Byte) : List Byte :=
  let ref := if x.pi = 1 then lba % 2 ^ 32 else (cdw d 14 + (lba - sqeSlba d)) % 2 ^ 32
  (bytesLE 2 (guardCrc block)).reverse ++ (bytesLE 2 (cdwF d 15 15 0)).reverse ++ (bytesLE 4 ref).reverse

/-- Split transferred blocks into data and metadata: LBA, block, metadata. -/
def splitBlocks (x : Namespace) (slba : Nat) : Nat → List Byte → List (Nat × List Byte × List Byte)
  | 0, _ => []
  | n + 1, b => (slba, b.take x.lba, (b.drop x.lba).take x.meta_) :: splitBlocks x (slba + 1) n (b.drop (x.lba + x.meta_))

/-- Metadata of an LBA. -/
def metaOf (s : State) (h lba : Nat) : List Byte := s.hst.blockMeta.getD (h * 2 ^ 64 + lba) (List.replicate 8 0)

/-- Set metadata of an LBA. -/
def putMeta (s : State) (h lba : Nat) (m : List Byte) : State :=
  { s with hst := { s.hst with blockMeta := s.hst.blockMeta.putD (h * 2 ^ 64 + lba) (fit 8 m) (List.replicate 8 0) } }

/-! ### Into the write buffer (R28 steps 3 and 4) -/

/-- Put a unit's stored form into the write buffer in place of older data not yet packed. -/
def wbEnter (s : State) (w : WbUnit) : State :=
  { s with map := { s.map with
      wb := (s.map.wb.filter fun y => !(y.handle == w.handle && y.unit == w.unit && y.redirect.isNone)) ++ [w] } }

/-- Store every unit or none: the whole list is encrypted before the first unit enters the write buffer. -/
def storeAll (s : State) (x : Namespace) (h slot : Nat) (tag : Option Nat) (fua : Bool) (lock : Nat → Bool) : List (Nat × List Byte) → List WbUnit → State × Option (List WbUnit)
  | [], acc => (s, some acc.reverse)
  | (u, b) :: l, acc =>
    match storeUnit s x h u slot tag b with
    | (s, none) => (s, none)
    | (s, some (d, c)) =>
      storeAll s x h slot tag fua lock l
        ({ handle := h, unit := u, data := d, compressed := c, locked := lock u, tagged := tag.isSome, tag := tag.getD 0, fua := fua, packed := false
           redirect := none, reloaded := false } :: acc)

/-- A path job that ended KEY_INVALID: its command ends Internal Error and the fault log records it (R475). -/
def keyInvalidLog (s : State) (h u : Nat) : State :=
  logEvent s { kind := kFAULT, cls := FClass.config.code, page := pKEY, cause := Config.blockCause 18, unit := h, address := u }

/-- Units into the write buffer: none is written when a key refuses. -/
def enterUnits (s : State) (x : Namespace) (h slot : Nat) (tag : Option Nat) (fua : Bool) (lock : Nat → Bool) (l : List (Nat × List Byte)) : State × Bool :=
  match storeAll s x h slot tag fua lock l [] with
  | (s, none) => (keyInvalidLog s h ((l.head?.map (·.1)).getD 0), false)
  | (s, some ws) => (ws.foldl (fun s w => clearMediaError (wbEnter s w) h w.unit) s, true)

end Sys2Proof.Machine
end

