-- ==== Sys2Proof/Machine/Span.lean ====
section
/-! DEFINITION. The span group: descriptor, placement, the span journal, messages, and the work of leads and fronts (R547 to R560). -/

namespace Sys2Proof.Machine

/-! ### The descriptor (R547 to R549) -/

/-- An entry of a slot that is not used. -/
def SpanEntry.none : SpanEntry := ⟨0, 0, 0, 0⟩

/-- MEMBER_i. -/
def SpanDesc.entry (d : SpanDesc) (i : Nat) : SpanEntry := d.entries.getD i SpanEntry.none

/-- Set MEMBER_i. -/
def SpanDesc.put (d : SpanDesc) (i : Nat) (e : SpanEntry) : SpanDesc := { d with entries := d.entries.set i e }

/-- STATE of MEMBER_i. -/
def SpanDesc.st (d : SpanDesc) (i : Nat) : Nat := (d.entry i).state

/-- Set STATE of MEMBER_i. -/
def SpanDesc.setSt (d : SpanDesc) (i st : Nat) : SpanDesc := d.put i { d.entry i with state := st }

/-- The 384 bytes (R547). -/
def SpanDesc.bytes (d : SpanDesc) : List Byte :=
  let head := bytesLE 8 d.group ++ bytesLE 8 d.gen ++ bytesLE 1 d.members ++ bytesLE 1 d.layout ++ bytesLE 1 d.chunk ++ bytesLE 1 (if d.witnessEn then 1 else 0)
    ++ bytesLE 1 d.index ++ bytesLE 1 (if d.mu16 then 1 else 0) ++ bytesLE 1 (if d.lba4k then 1 else 0) ++ [0] ++ bytesLE 4 d.nsid ++ bytesLE 4 0
    ++ bytesLE 8 d.capacity ++ bytesLE 8 d.fwMin ++ bytesLE 8 d.fwMax ++ List.replicate 72 0
  head ++ (List.range 8).flatMap fun i =>
    let e := d.entry i
    bytesLE 8 e.serial ++ bytesLE 8 e.window ++ bytesLE 1 e.state ++ bytesLE 1 e.port ++ List.replicate 14 0

/-- A descriptor from its bytes. -/
def spanParse (b : List Byte) : SpanDesc :=
  { group := leAt b 0 8, gen := leAt b 8 8, members := bAt b 16, layout := bAt b 17, chunk := bAt b 18, witnessEn := bAt b 19 == 1, index := bAt b 20
    mu16 := bAt b 21 == 1, lba4k := bAt b 22 == 1, nsid := leAt b 24 4, capacity := leAt b 32 8, fwMin := leAt b 40 8, fwMax := leAt b 48 8
    entries := (List.range 8).map fun i => ⟨leAt b (128 + 32 * i) 8, leAt b (136 + 32 * i) 8, bAt b (144 + 32 * i), bAt b (145 + 32 * i)⟩ }

/-- The configuration digest (R548). -/
def SpanDesc.digest (d : SpanDesc) : List Byte :=
  let z : SpanDesc := { d with gen := 0, index := 0, entries := d.entries.map fun (e : SpanEntry) => { e with window := 0, state := 0 } }
  digestOf 0x02 z.bytes 48

/-- Bytes of a unit. -/
def SpanDesc.unit (d : SpanDesc) : Nat := if d.mu16 then 16384 else 4096
/-- Bytes of an LBA. -/
def SpanDesc.lba (d : SpanDesc) : Nat := if d.lba4k then 4096 else 512
/-- Data chunks of a span stripe. -/
def SpanDesc.width (d : SpanDesc) : Nat := if d.layout = 0 then 1 else d.members - d.layout
/-- Data units of a span stripe (R549). -/
def SpanDesc.perStripe (d : SpanDesc) : Nat := d.width * d.chunk
/-- Units of the span volume. -/
def SpanDesc.volUnits (d : SpanDesc) : Nat := d.capacity * d.lba / d.unit
/-- Span stripes. -/
def SpanDesc.stripes (d : SpanDesc) : Nat := d.volUnits / max 1 d.perStripe
/-- Size of the member namespace in units: the parity layouts keep C units of each stripe (R549). -/
def SpanDesc.memberUnits (d : SpanDesc) : Nat := d.stripes * d.chunk

/-- Is a descriptor valid as it came: the conditions of R549, reserved fields 0 and values the table names? -/
def spanValid (raw : List Byte) : Bool :=
  let d := spanParse raw
  let n := d.members
  let serials := (d.entries.take n).map (·.serial)
  raw.length == 384 && d.bytes == raw && d.group != 0
    && (match d.layout with
      | 0 => n == 2 || n == 3
      | 1 => decide (3 ≤ n) && decide (n ≤ 8)
      | 2 => decide (4 ≤ n) && decide (n ≤ 8)
      | _ => false)
    && decide (1 ≤ d.chunk) && decide (d.chunk ≤ 16) && decide (d.index < n)
    && d.capacity != 0 && d.capacity * d.lba % (d.unit * d.perStripe) == 0
    && serials.all (· != 0) && serials.eraseDups.length == n && (d.entries.drop n).all (· == SpanEntry.none)
    && d.entries.all fun e => decide (e.state ≤ 6) && decide (e.port ≤ 1)

/-! ### Placement (R550, R551) -/

/-- Where a span unit lies: stripe, data role, offset in its chunk; in the mirror layout the role is 0. -/
def SpanDesc.locate (d : SpanDesc) (u : Nat) : Nat × Nat × Nat :=
  let t := u / max 1 d.perStripe
  let r := u % max 1 d.perStripe
  (t, r / max 1 d.chunk, r % max 1 d.chunk)

/-- The member that holds a role of a stripe; in the mirror layout the roles are the members. -/
def SpanDesc.holder (d : SpanDesc) (t role : Nat) : Nat :=
  let n := max 1 d.members
  if d.layout = 0 then role
  else if role = 0xFE then t % n
  else if role = 0xFF then (t + 1) % n
  else (t + d.layout + role) % n

/-- Every role of a stripe. -/
def SpanDesc.roles (d : SpanDesc) : List Nat :=
  if d.layout = 0 then List.range d.members
  else List.range d.width ++ [0xFE] ++ (if d.layout = 2 then [0xFF] else [])

/-- Does a member serve: in service, or leaving and not yet replaced (R569)? -/
def SpanDesc.serves (d : SpanDesc) (i : Nat) : Bool := decide (i < d.members) && (d.st i == 1 || d.st i == 4)

/-- Does a member take new writes: it serves or is being rebuilt (R569)? -/
def SpanDesc.takes (d : SpanDesc) (i : Nat) : Bool := d.serves i || (decide (i < d.members) && d.st i == 3)

/-- The first serving member at or after i in cyclic order. -/
def SpanDesc.firstServing (d : SpanDesc) (i : Nat) : Option Nat :=
  ((List.range d.members).map fun k => (i + k) % max 1 d.members).find? d.serves

/-- The lead of a span stripe (R551). -/
def SpanDesc.lead (d : SpanDesc) (t : Nat) : Option Nat := d.firstServing (t % max 1 d.members)

/-- The journal partner of a member: the first serving one after it (R560). -/
def SpanDesc.partner (d : SpanDesc) (m : Nat) : Option Nat := (d.firstServing (m + 1)).filter (· != m)

/-- Index of a role in the order that recovery uses: data, then P, then Q. -/
def SpanDesc.rix (d : SpanDesc) (role : Nat) : Nat := if role = 0xFE then d.width else if role = 0xFF then d.width + 1 else role

/-! ### This member -/

/-- Set the span part. -/
def putSpn (s : State) (p : Span) : State := { s with spn := p }

/-- The descriptor in force, or one of no group. -/
def spanDesc (s : State) : SpanDesc := s.spn.desc.getD (spanParse [])

/-- Is the device a member of a group? -/
def inGroup (s : State) : Bool := s.spn.desc.isSome

/-- This device's index. -/
def spanMe (s : State) : Nat := (spanDesc s).index

/-- Does the group's firmware window keep a VERSION of the main firmware out (R567)? -/
def spanBars (s : State) (v : Nat) : Bool := inGroup s && (decide (v < (spanDesc s).fwMin) || decide ((spanDesc s).fwMax < v))

/-- Does this member lead a stripe? -/
def leadsStripe (s : State) (t : Nat) : Bool := (spanDesc s).lead t == some (spanMe s)

/-- Heartbeat period in ns. -/
def beatNs : Nat := 10000000

/-- HB_MISS in force. -/
def hbMiss (s : State) : Nat := inF s pSPN SPN_HB_MISS 3 0

/-- PEER_TIMEOUT in force, in ns. -/
def peerTimeout (s : State) : Nat := inF s pSPN SPN_PEER_TIMEOUT 6 0 * 1000000

/-- Is a member heard: itself, or one whose heartbeats are not missing for HB_MISS periods? -/
def hears (s : State) (i : Nat) : Bool :=
  i == spanMe s || (match s.spn.heard.get? i with
    | some h => decide (h.missing < hbMiss s)
    | none => false)

/-- Is it heard in the committed generation (R566)? -/
def hearsNow (s : State) (i : Nat) : Bool :=
  i == spanMe s || (hears s i && (match s.spn.heard.get? i with
    | some h => h.beat.gen.toNat == (spanDesc s).gen
    | none => false))

/-- The threshold of R566. -/
def SpanDesc.threshold (d : SpanDesc) : Nat := (d.members + if d.witnessEn then 1 else 0) / 2 + 1

/-- Does this member hold a witness vote for the generation? -/
def holdsWitness (s : State) : Bool :=
  s.spn.witness == some (spanMe s, (spanDesc s).gen)

/-- Does no digest have a majority of the configured members, this one among those that differ (R567 check 3)? -/
def digestSplit (s : State) : Bool :=
  let d := spanDesc s
  let others := (s.spn.heard.filter fun e => e.2.beat.gen.toNat == d.gen && hears s e.1).map fun e => e.2.beat.digest
  let all := if inGroup s then others ++ [d.digest] else []
  all.any (· != d.digest) && !all.any fun g => decide ((all.filter (· == g)).length * 2 > d.members)

/-- Does this member hold quorum: every member counts that it hears in its committed generation (R566, R567)? -/
def quorumNow (s : State) : Bool :=
  let d := spanDesc s
  let n := ((List.range d.members).filter (hearsNow s)).length + if holdsWitness s then 1 else 0
  inGroup s && !digestSplit s
    && (decide (d.threshold ≤ n) || (d.members == 2 && !d.witnessEn && (spanMe s == 0 || hearsNow s 0)))

/-- The coordinator: the lowest serving member heard, while quorum holds (R561). -/
def coordinator (s : State) : Option Nat :=
  if quorumNow s then ((List.range (spanDesc s).members).find? fun i => (spanDesc s).serves i && hears s i) else none

/-- Is this member the coordinator? -/
def isCoord (s : State) : Bool := inGroup s && coordinator s == some (spanMe s)

/-- MEMBER.STATE (R570). -/
def memberState (s : State) : Nat :=
  match s.spn.own with
  | some c => c
  | none =>
    if !inGroup s then 0
    else match (spanDesc s).st (spanMe s) with
      | 1 => if quorumNow s then 3 else 4
      | 2 => 6 | 3 => 2 | 4 => 5 | 6 => 7
      | _ => 1

/-- Dirty stripes led here: all of them for a member in `dirtyAll`. -/
def dirtyCount (s : State) : Nat :=
  let d := spanDesc s
  (s.spn.dirty.map fun e => e.2.length).sum + s.spn.dirtyAll.length * (d.stripes / max 1 d.members)

/-- The registers that show the group's state follow, and losing or regaining quorum interrupts (R566, R570). -/
def showSpan (s : State) : State :=
  let d := spanDesc s
  let q := quorumNow s
  let s := match s.spn.prev with
    | some (_, t) => if decide (50000000 ≤ (s.com.time - t).toNat) then putSpn s { s.spn with prev := none } else s
    | none => s
  let s := if bit (rd s pSPN SPN_VIEW) 16 && !q && inGroup s then irq s pSPN 0 else if !bit (rd s pSPN SPN_VIEW) 16 && q then irq s pSPN 1 else s
  let grp := if inGroup s then d.group else 0
  let gen := if inGroup s then d.gen else 0
  let s := wr (wr s pSPN SPN_GROUP_ID_LO (w32 grp)) pSPN SPN_GROUP_ID_HI (w32 (grp / 2 ^ 32))
  let s := wr (wr s pSPN SPN_GEN_LO (w32 gen)) pSPN SPN_GEN_HI (w32 (gen / 2 ^ 32))
  let s := wr s pSPN SPN_MEMBER (w32 (memberState s * 256 + (if isCoord s then 64 else 0) + d.index % 8))
  let mask (p : Nat → Bool) : Nat := ((List.range 8).map fun i => if decide (i < d.members) && p i then 2 ^ i else 0).sum
  let view := (rd s pSPN SPN_VIEW).toNat / 2 ^ 18 % 2 * 2 ^ 18 + (if holdsWitness s then 2 ^ 17 else 0) + (if q then 2 ^ 16 else 0)
    + mask d.serves * 256 + (if inGroup s then mask (hears s) else 0)
  let s := wr s pSPN SPN_VIEW (w32 view)
  let s := wr s pSPN SPN_SJ_LIVE (w32 s.spn.flights.length)
  let s := wr s pSPN SPN_RESYNC_LEFT (w32 (min 0xFFFFFFFF (s.spn.unresync.length + dirtyCount s)))
  let rebuilding := (List.range d.members).any fun i => d.st i == 3
  let degraded := inGroup s && (List.range d.members).any fun i => !d.serves i
  let solo := inGroup s && (d.partner d.index).isNone
  wr s pSPN SPN_STATE (w32 ((if rebuilding then 8 else 0) + (if degraded then 4 else 0) + (if solo then 2 else 0) + if s.spn.resyncAll then 1 else 0))

/-- A dropped or unauthentic message counts in the bucket (R552, R553, R570). -/
def spanDrop (s : State) : State := (lbEvent s pSPN).1

/-- A refusal: LAST_REFUSE and REFUSALS (R567, R570). -/
def spanRefuse (s : State) (member reason : Nat) : State :=
  bump (wr s pSPN SPN_LAST_REFUSE (w32 (member % 8 * 256 + reason))) pSPN SPN_REFUSALS 1

/-! ### The span journal (R559) -/

/-- TYPE and entries of a record. -/
def spanEntries : SpanRecord → Nat × List (List Byte)
  | .intent t g m r l => (0x81, [bytesLE 8 t ++ bytesLE 4 g ++ bytesLE 2 m ++ bytesLE 1 (if r then 1 else 0) ++ bytesLE 1 l])
  | .done t => (0x82, [bytesLE 8 t ++ bytesLE 8 0])
  | .replica t g m r l => (0x83, [bytesLE 8 t ++ bytesLE 4 g ++ bytesLE 2 m ++ bytesLE 1 (if r then 1 else 0) ++ bytesLE 1 l])
  | .propose g p h => (0x84, [bytesLE 8 g ++ bytesLE 1 p ++ bytesLE 7 0, fit 16 h, fit 16 (h.drop 16), fit 16 (h.drop 32)])
  | .vote g v h => (0x85, [bytesLE 8 g ++ bytesLE 1 v ++ bytesLE 7 0, fit 16 h])
  | .commit g b => (0x86, (bytesLE 8 g ++ bytesLE 8 0) :: (List.range 24).map fun i => fit 16 (b.drop (16 * i)))
  | .nonceReserve m => (0x87, [bytesLE 8 m ++ bytesLE 8 0])
  | .dirtyBegin m g => (0x88, [bytesLE 8 m ++ bytesLE 8 g])
  | .resyncDone t o => (0x89, [bytesLE 8 t ++ bytesLE 1 o ++ bytesLE 7 0])
  | .mark => (0x8A, [])

/-- Journal a record in the MRAM ring; it is durable with the command that writes it. -/
def spanJournal (s : State) (r : SpanRecord) : State :=
  let seq := (s.spn.pseq + 1) % 2 ^ 32
  let (ty, es) := spanEntries r
  let b := recordBytes seq ty es false
  let s := ringWrite s 0x5000000 0x800000 s.spn.head b
  putSpn s { s.spn with pseq := seq, head := (s.spn.head + b.length) % 0x800000, journal := s.spn.journal ++ [(seq, r)] }

/-- Stripes with an INTENT or REPLICA of a lead and no DONE after it. -/
def openIntents (j : List (Nat × SpanRecord)) (own : Bool) (lead : Nat) : List Nat :=
  j.foldl (fun (l : List Nat) r => match r.2 with
    | .intent t _ _ _ m => if own && m == lead && !l.contains t then l ++ [t] else l
    | .replica t _ _ _ m => if !own && m == lead && !l.contains t then l ++ [t] else l
    | .done t => l.filter (· != t)
    | .resyncDone t _ => l.filter (· != t)
    | _ => l) []

/-- CHECKPOINT_MARK: what lies before it is no longer needed, but for intents still open, votes and the commit in force (R559). -/
def spanMark (s : State) : State :=
  let s := spanJournal s .mark
  let keep := s.spn.journal.filter fun r => match r.2 with
    | .mark => r.1 == s.spn.pseq
    | .intent t _ _ _ m => (openIntents s.spn.journal true m).contains t
    | .replica t _ _ _ m => (openIntents s.spn.journal false m).contains t
    | .vote g _ _ => decide ((spanDesc s).gen < g)
    | .commit g _ => decide ((spanDesc s).gen ≤ g)
    | .nonceReserve m => m == s.spn.nonceMark
    | _ => false
  putSpn s { s.spn with journal := keep }

/-! ### Messages (R552 to R554) -/

/-- Key slot of the span transport. -/
def spanSlot : Nat := 0xFFF1

/-- Bytes of a sender ring: an eighth of the smallest span window (R108, R552; the window's size in force is not in a register). -/
def spanRing : Nat := 0x200000

/-- Bytes of a message: clear frame, nonce, header, payload, tag (R553). -/
def spanSize : SpanBody → Nat
  | .units l => 76 + (l.map List.length).sum
  | .propose _ => 460
  | .commit _ _ => 468
  | .beat _ => 172
  | .replica _ _ => 92
  | _ => 76

/-- May a message go out now: its counter lies below the reserved mark, and the receiver's last credit shows room? -/
def maySend (s : State) (m : SpanMsg) : Bool :=
  decide ((slotOf s spanSlot).counter < s.spn.nonceMark)
    && (decide (0x10 ≤ m.type) || decide (s.spn.posted.getD m.dest 0 + spanSize m.body ≤ s.spn.credit.getD m.dest 0 + spanRing))

/-- Seal and send the messages at the front of the queue that may go. A key slot that refuses keeps them. -/
def spanPumpN : Nat → State → State
  | 0, s => s
  | fuel + 1, s =>
    match s.spn.queue with
    | [] => s
    | m :: rest =>
      if !maySend s m then s
      else
        let s := (unwrapSlot s spanSlot true).1
        match slotRefusal s spanSlot 2 2 true 0xFFFF false none with
        | some _ => s
        | none =>
          match gcmDraw s spanSlot with
          | (s, none) => s
          | (s, some c) =>
            let bad := s.spn.inject.contains 3
            let m := { m with counter := c, corrupt := bad, hdr := { m.hdr with credit := s.spn.consumed.getD m.dest 0 } }
            spanPumpN fuel (putSpn s { s.spn with
              queue := rest
              out := s.spn.out ++ [m]
              inject := if bad then removeFirst (· == 3) s.spn.inject else s.spn.inject
              posted := if m.type < 0x10 then s.spn.posted.modify m.dest 0 (· + spanSize m.body) else s.spn.posted })

/-- Send what may go. -/
def spanPump (s : State) : State := spanPumpN s.spn.queue.length s

/-- A header of this member. -/
def spanHdr (s : State) (gen t role first n ref : Nat) (fua : Bool) : SpanHdr :=
  { sender := ⟨spanMe s % 8, by omega⟩, fua := fua, degraded := (spanDesc s).entries.any (fun e => e.state == 2), unrecoverable := false, role := BitVec.ofNat 8 role
    gen := BitVec.ofNat 64 gen, stripe := BitVec.ofNat 64 t, first := BitVec.ofNat 32 first, units := BitVec.ofNat 16 n, ref := BitVec.ofNat 32 ref, credit := 0 }

/-- Put a message in line. -/
def spanSend (s : State) (dest type : Nat) (h : SpanHdr) (b : SpanBody) : State :=
  putSpn s { s.spn with queue := s.spn.queue ++ [⟨dest, type, h, b, 0, false⟩] }

/-- Put a message in line that wants an answer. -/
def spanAsk (s : State) (dest type : Nat) (h : SpanHdr) (b : SpanBody) : State :=
  let s := spanSend s dest type h b
  putSpn s { s.spn with waits := s.spn.waits ++ [⟨⟨dest, type, h, b, 0, false⟩, s.com.time, false⟩] }

/-- A message is answered. -/
def spanAnswered (s : State) (type ref : Nat) : State :=
  putSpn s { s.spn with waits := s.spn.waits.filter fun w => !(w.msg.type == type && w.msg.hdr.ref.toNat == ref) }

/-- A fresh reference. -/
def spanRef (s : State) : State × Nat := (putSpn s { s.spn with nextRef := (s.spn.nextRef + 1) % 2 ^ 32 }, s.spn.nextRef)

/-! ### The member namespace -/

/-- The hidden member namespace. -/
def memberNs? (s : State) : Option Namespace := s.hst.ns.get? s.spn.handle

/-- Local unit of an offset of a stripe's chunk (R550). -/
def localUnit (d : SpanDesc) (t off : Nat) : Nat := t * d.chunk + off

/-- Own units of a chunk, from the write buffer or flash; `flash` follows the units asked for. -/
def chunkLoad (s : State) (t first n : Nat) (flash : List (Option FlashUnit)) : State × Option (List (List Byte)) × List (Option FlashUnit) :=
  match memberNs? s with
  | none => (s, none, flash.drop n)
  | some x =>
    match readUnits s x s.spn.handle s.spn.handle none ((List.range n).map fun i => localUnit (spanDesc s) t (first + i)) flash with
    | (s, .ok l) => (s, some (l.map (·.2)), flash.drop n)
    | (s, .error _) => (s, none, flash.drop n)

/-- Own units of a chunk written into the write buffer (R279 common step 1). -/
def chunkStore (s : State) (t first : Nat) (units : List (List Byte)) (fua : Bool) : State :=
  match memberNs? s with
  | none => s
  | some x => (enterUnits s x s.spn.handle s.spn.handle none fua (fun _ => false) (units.zipIdx.map fun u => (localUnit (spanDesc s) t (first + u.2), u.1))).1

/-- A stripe led here was written while a member was not in service (R569). -/
def markDirty (s : State) (m t : Nat) : State :=
  if (s.spn.dirty.getD m []).contains t then s
  else putSpn s { s.spn with dirty := s.spn.dirty.put m (s.spn.dirty.getD m [] ++ [t]) }

/-- May a role's chunk be read: its member serves, or is being rebuilt and this lead knows the stripe clean? -/
def goodRole (s : State) (t role : Nat) : Bool :=
  let d := spanDesc s
  let m := d.holder t role
  d.serves m || (d.takes m && leadsStripe s t && !s.spn.dirtyAll.contains m && !(s.spn.dirty.getD m []).contains t)

/-! ### The lead (R555, R556, R559, R560) -/

/-- The flight of a stripe. -/
def flightOf? (s : State) (t : Nat) : Option SpanFlight := s.spn.flights.find? fun f => f.stripe == t

/-- Set a flight. -/
def putFlight (s : State) (f : SpanFlight) : State :=
  putSpn s { s.spn with flights := s.spn.flights.filter (fun g => g.stripe != f.stripe) ++ [f] }

/-- A piece of a host command is acknowledged by its lead, or failed. -/
def pieceAcked (s : State) (ref : Nat) (bad : Bool) : State :=
  putSpn s { s.spn with jobs := s.spn.jobs.map fun j =>
    if (j.held.any fun m => m.hdr.ref.toNat == ref) then
      { j with held := j.held.filter (fun m => m.hdr.ref.toNat != ref), fail := if bad then some .unrecoveredRead else j.fail }
    else j }

/-- The lead acknowledges a stripe to the front of a piece, by a CHUNK_ACK with the reference of its DATA. -/
def ackFront (s : State) (f : SpanFlight) (bad : Bool) (p : SpanPiece) : State :=
  if p.front = spanMe s then pieceAcked s p.ref bad
  else spanSend s p.front 0x04 { spanHdr s f.gen f.stripe p.role p.first 0 p.ref p.fua with unrecoverable := bad } .ack

/-- A stripe leaves flight: its fronts are answered and DATA that waited begins a new gather. -/
def closeFlight (s : State) (f : SpanFlight) (bad : Bool) : State :=
  let s := f.pieces.foldl (fun s p => ackFront s f bad p) s
  let mine := (s.spn.later.filter fun l => l.1 == f.stripe).map (·.2)
  let s := putSpn s { s.spn with flights := s.spn.flights.filter (fun g => g.stripe != f.stripe), later := s.spn.later.filter fun l => l.1 != f.stripe }
  if mine.isEmpty then s else putFlight s ⟨f.stripe, (spanDesc s).gen, s.com.time, .gather, mine, false, [], []⟩

/-- Step 5 to 7: with every chunk written the stripe is acknowledged, and DONE is journaled and replicated. -/
def checkFlight (s : State) (t : Nat) : State :=
  match flightOf? s t with
  | none => s
  | some f =>
    let out := s.spn.waits.any fun w => w.msg.type == 0x03 && w.msg.hdr.stripe.toNat == t && w.msg.hdr.units.toNat != 0
    if f.phase = .chunks ∧ out = false ∧ (f.own.all fun u => unitSettled s s.spn.handle u) then
      let s := closeFlight s f false
      let s := spanJournal s (.done t)
      match (spanDesc s).partner (spanMe s) with
      | some m => spanSend s m 0x07 (spanHdr s f.gen t 0 0 0 0 false) (.replica 0 false)
      | none => s
    else s

/-- Step 4: the units go to every member that takes them; a member that does not makes the stripe dirty (R555, R569). -/
def startChunks (s : State) (f : SpanFlight) : State :=
  let d := spanDesc s
  let me := spanMe s
  let fua := f.pieces.any (·.fua)
  let s := (List.range d.members).foldl (fun s m => if d.serves m then s else markDirty s m f.stripe) s
  let mine := f.out.filter fun o => d.holder f.stripe o.1 == me
  let s := mine.foldl (fun s o => chunkStore s f.stripe o.2.1 o.2.2 fua) s
  let own := if fua then mine.flatMap fun o => (List.range o.2.2.length).map fun i => localUnit d f.stripe (o.2.1 + i) else []
  let s := (f.out.filter fun o => d.holder f.stripe o.1 != me && d.takes (d.holder f.stripe o.1)).foldl (fun s o =>
    let (s, r) := spanRef s
    spanAsk s (d.holder f.stripe o.1) 0x03 (spanHdr s f.gen f.stripe o.1 (localUnit d f.stripe o.2.1) o.2.2.length r fua) (.units o.2.2)) s
  checkFlight (putFlight s { f with phase := .chunks, own := own }) f.stripe

/-- Step 3: INTENT in the lead's ring and its REPLICA at the partner; with no partner the lead journals alone (R560). -/
def startIntent (s : State) (f : SpanFlight) : State :=
  let d := spanDesc s
  let mask := ((List.range 8).map fun j => if f.pieces.any (fun p => p.role == j) then 2 ^ j else 0).sum
  let s := spanJournal s (.intent f.stripe (f.gen % 2 ^ 32) mask f.rmw (spanMe s))
  match d.partner (spanMe s) with
  | none => startChunks s f
  | some m =>
    let (s, r) := spanRef s
    spanAsk (putFlight s { f with phase := .intent }) m 0x07 (spanHdr s f.gen f.stripe 0 0 0 r false) (.replica (BitVec.ofNat 16 mask) f.rmw)

/-- The newest data for an offset of a role, in the order of arrival (R557). -/
def newUnit (f : SpanFlight) (role off : Nat) : Option (List Byte) :=
  f.pieces.foldl (fun (acc : Option (List Byte)) p =>
    if p.role = role ∧ p.first ≤ off ∧ off < p.first + p.units.length then p.units[off - p.first]? else acc) none

/-- Has every data unit of the stripe arrived? -/
def fullStripe (d : SpanDesc) (f : SpanFlight) : Bool :=
  (List.range d.width).all fun j => (List.range d.chunk).all fun o => (newUnit f j o).isSome

/-- The pieces as the data chunks take them; in the mirror layout every member takes every piece. -/
def dataOut (d : SpanDesc) (f : SpanFlight) : List (Nat × Nat × List (List Byte)) :=
  if d.layout = 0 then f.pieces.flatMap fun p => (List.range d.members).map fun m => (m, p.first, p.units)
  else f.pieces.map fun p => (p.role, p.first, p.units)

/-- A full stripe: parity from the new data alone (R556). -/
def writeFull (s : State) (f : SpanFlight) : State :=
  let d := spanDesc s
  let n := d.unit
  let col (o : Nat) : List (Nat × List Byte) := (List.range d.width).map fun j => (j, (newUnit f j o).getD [])
  let par := if d.layout = 0 then [] else [(0xFE, 0, (List.range d.chunk).map fun o => sumP n (col o))]
    ++ (if d.layout = 2 then [(0xFF, 0, (List.range d.chunk).map fun o => sumQ n (col o))] else [])
  let f : SpanFlight := { f with out := dataOut d f ++ par, rmw := false }
  let s := if d.layout = 0 then s else bump s pSPN SPN_FULL_STRIPES 1
  startIntent s f

/-- Offsets that the pieces of a flight touch: the first and how many. -/
def touched (f : SpanFlight) : Nat × Nat :=
  let lo := f.pieces.foldl (fun a p => min a p.first) 16
  let hi := f.pieces.foldl (fun a p => max a (p.first + p.units.length)) 0
  (min lo hi, hi - min lo hi)

/-- A role's units of a gather: as read, or reconstructed from the others (R232, R556). -/
def gathered (d : SpanDesc) (g : SpanGather) (role : Nat) : Option (List Byte) :=
  let have_ := g.got.filterMap fun e => e.2.map fun l => (d.rix e.1, l.flatten)
  match have_.find? fun e => e.1 == d.rix role with
  | some e => some e.2
  | none => if d.layout = 0 then none else recoverMember d.width (d.layout - 1) (g.count * d.unit) (d.rix role) have_

/-- Cut bytes into units. -/
def cutUnits (n : Nat) : Nat → List Byte → List (List Byte)
  | 0, _ => []
  | k + 1, b => fit n (b.take n) :: cutUnits n k (b.drop n)

/-- Read-modify-write with the old units at hand: P and Q take the changes of every written role (R556). -/
def rmwReady (s : State) (f : SpanFlight) (g : SpanGather) : State :=
  let d := spanDesc s
  let n := d.unit
  let written := (List.range d.width).filter fun j => f.pieces.any fun p => p.role == j
  let parities := ([0xFE] ++ (if d.layout = 2 then [0xFF] else [])).filter fun r => d.takes (d.holder f.stripe r)
  let olds := (written ++ parities).map fun r => (r, gathered d g r)
  if olds.any fun o => o.2.isNone then closeFlight s f true
  else
    let old (r : Nat) : List Byte := ((olds.find? fun o => o.1 == r).bind (·.2)).getD []
    let new (j : Nat) : List Byte := (List.range g.count).flatMap fun i => (newUnit f j (g.first + i)).getD ((old j).drop (n * i) |>.take n)
    let delta (j : Nat) : List Byte := xorBytes (old j) (new j)
    let par := parities.map fun r =>
      let v := written.foldl (fun acc j => xorBytes acc (if r = 0xFE then delta j else scaleBytes (gfPow j) (delta j))) (old r)
      (r, g.first, cutUnits n g.count v)
    startIntent (bump s pSPN SPN_RMW_STRIPES 1) { f with out := dataOut d f ++ par, rmw := true }

/-- Begin a gather: own chunks at once, the others by READ_REQ. Answers the gather; it is complete when nothing is waited for. -/
def startGather (s : State) (o : SpanOwner) (t first n : Nat) (roles : List Nat) (flash : List (Option FlashUnit)) : State × SpanGather :=
  let d := spanDesc s
  let g : SpanGather := ⟨o, t, first, n, [], []⟩
  let (s, g, _) := roles.foldl (fun (acc : State × SpanGather × List (Option FlashUnit)) r =>
    let (s, g, fl) := acc
    let m := d.holder t r
    if m = spanMe s then
      let (s, u, fl) := chunkLoad s t first n fl
      (s, { g with got := g.got ++ [(r, u)] }, fl)
    else
      let (s, ref) := spanRef s
      (spanAsk s m 0x05 (spanHdr s d.gen t r (localUnit d t first) n ref false) (.ask n), { g with waits := g.waits ++ [(ref, r)] }, fl)) (s, g, flash)
  (if g.waits.isEmpty then s else putSpn s { s.spn with gathers := s.spn.gathers ++ [g] }, g)

/-- The gather deadline passed, or the stripe is complete: step 2 (R556). -/
def endGather (s : State) (t : Nat) (flash : List (Option FlashUnit)) : State :=
  let d := spanDesc s
  match flightOf? s t with
  | none => s
  | some f =>
    if f.phase ≠ .gather then s
    else if d.layout = 0 ∨ fullStripe d f then writeFull s f
    else
      let written := (List.range d.width).filter fun j => f.pieces.any fun p => p.role == j
      let want := (written ++ [0xFE] ++ (if d.layout = 2 then [0xFF] else [])).filter fun r => r < 0xFE || d.takes (d.holder t r)
      let roles := if want.all (goodRole s t) then want else d.roles.filter (goodRole s t)
      let parity := want.any (0xFE ≤ ·)
      let (a, n) := touched f
      if !parity then startIntent (bump s pSPN SPN_RMW_STRIPES 1) { f with out := dataOut d f, rmw := true }
      else
        let (s, g) := startGather (putFlight s { f with phase := .read }) (.flight t) t a n roles flash
        if g.waits.isEmpty then rmwReady s f g else s

/-- DATA of a front reaches the lead: it joins the stripe's gather, begins one, or waits for the write in flight (R555, R556). -/
def onData (s : State) (p : SpanPiece) (t : Nat) : State :=
  let s := if p.front = spanMe s then s else spanSend s p.front 0x02 (spanHdr s (spanDesc s).gen t p.role p.first 0 p.ref p.fua) .ack
  match flightOf? s t with
  | some f =>
    if f.phase = .gather then
      let f := { f with pieces := f.pieces ++ [p] }
      let s := putFlight s f
      if fullStripe (spanDesc s) f then endGather s t [] else s
    else putSpn s { s.spn with later := s.spn.later ++ [(t, p)] }
  | none =>
    let f : SpanFlight := ⟨t, (spanDesc s).gen, s.com.time, .gather, [p], false, [], []⟩
    let s := putFlight s f
    if (spanDesc s).layout = 0 ∨ fullStripe (spanDesc s) f then endGather s t [] else s

/-! ### The front (R555, R557, R558) -/

/-- The job of a command. -/
def jobOf? (s : State) (cmd : Nat) : Option SpanJob := s.spn.jobs.find? fun j => j.cmd == cmd

/-- Set a job. -/
def putJob (s : State) (j : SpanJob) : State := putSpn s { s.spn with jobs := s.spn.jobs.map fun k => if k.cmd == j.cmd then j else k }

/-- A unit of a job has its data. -/
def jobUnit (s : State) (cmd u : Nat) (b : List Byte) : State :=
  match jobOf? s cmd with
  | none => s
  | some j => putJob s { j with units := j.units.map fun e => if e.1 = u then (u, some b) else e }

/-- A job fails. -/
def jobFail (s : State) (cmd : Nat) (st : NvStatus) : State :=
  match jobOf? s cmd with
  | none => s
  | some j => putJob s { j with fail := some (j.fail.getD st) }

/-- A unit reconstructed from the other chunks of its stripe, or its failure (R558). -/
def jobRecover (s : State) (cmd u : Nat) (g : SpanGather) : State :=
  let d := spanDesc s
  match gathered d g (d.locate u).2.1 with
  | some b => jobUnit (bump s pSPN SPN_DEGRADED_READS 1) cmd u b
  | none =>
    let up := (d.roles.filter fun r => d.serves (d.holder g.stripe r)).length
    jobFail s cmd (if up < d.width then .notReady else .unrecoveredRead)

/-- Reconstruct a unit: every other chunk that may be read; a stripe led here that is unresynchronised is reconstructed only after its resync (R558). -/
def jobDegraded (s : State) (cmd u : Nat) (flash : List (Option FlashUnit)) : State :=
  let d := spanDesc s
  let (t, role, off) := d.locate u
  if leadsStripe s t && (s.spn.unresync.contains t || s.spn.resyncAll) then
    match jobOf? s cmd with
    | some j => putJob s { j with blocked := j.blocked ++ [u] }
    | none => s
  else
    let (s, g) := startGather s (.degraded cmd u) t off 1 (d.roles.filter fun r => r != role && goodRole s t r) flash
    if g.waits.isEmpty then jobRecover s cmd u g else s

/-- Read a unit from the first of the mirror copies still to try (R558). -/
def jobCopies (s : State) (cmd u : Nat) : List Nat → State
  | [] => jobFail s cmd .unrecoveredRead
  | m :: rest =>
    let d := spanDesc s
    let (t, _, off) := d.locate u
    (startGather s (.job cmd u rest) t off 1 [m] []).1

/-- Read a unit of the span volume (R558). -/
def frontRead (s : State) (cmd u : Nat) (flash : List (Option FlashUnit)) : State :=
  let d := spanDesc s
  let me := spanMe s
  let (t, role, off) := d.locate u
  if d.layout = 0 then
    let order := ((List.range d.members).map fun k => ((d.lead t).getD 0 + k) % max 1 d.members).filter fun m => m != me && d.serves m
    if d.serves me then
      match chunkLoad s t off 1 flash with
      | (s, some [b], _) => jobUnit s cmd u b
      | (s, _, _) => jobCopies s cmd u order
    else if order.isEmpty then jobFail s cmd .notReady
    else jobCopies s cmd u order
  else
    let m := d.holder t role
    if !goodRole s t role then jobDegraded s cmd u flash
    else if m = me then
      match chunkLoad s t off 1 flash with
      | (s, some [b], _) => jobUnit s cmd u b
      | (s, _, fl) => jobDegraded s cmd u fl
    else (startGather s (.job cmd u []) t off 1 [role] flash).1

/-- The span namespace. -/
def spanNs? (s : State) : Option Namespace := nsAt? s (spanDesc s).nsid

/-- Send a piece to a stripe's lead, itself among them, and hold it until the lead acknowledges it (R555, R557). -/
def sendPiece (s : State) (cmd t role first : Nat) (units : List (List Byte)) (fua : Bool) : State :=
  let d := spanDesc s
  match d.lead t, jobOf? s cmd with
  | some l, some j =>
    let (s, r) := spanRef s
    let h := spanHdr s d.gen t role (localUnit d t first) units.length r fua
    let s := putJob s { j with held := j.held ++ [⟨l, 0x01, h, .units units, 0, false⟩] }
    if l = spanMe s then onData s ⟨spanMe s, r, role, first, units, fua⟩ t else spanAsk s l 0x01 h (.units units)
  | _, _ => jobFail s cmd .notReady

/-- Send a write's units, merged over what was read, in runs of one role (R182, R555). -/
def sendPieces (s : State) (x : Namespace) (j : SpanJob) : State :=
  let d := spanDesc s
  let n := j.data.length / max 1 x.lba
  let runs := (x.units j.slba n).foldl (fun (l : List (Nat × Nat × Nat × List (List Byte))) u =>
    let (t, r, o) := d.locate u
    let b := overUnit x u (((j.units.find? fun e => e.1 == u).bind (·.2)).getD []) j.slba j.data
    match l.getLast? with
    | some (t', r', o', us) => if t' = t ∧ r' = r ∧ o' + us.length = o then l.dropLast ++ [(t, r, o', us ++ [b])] else l ++ [(t, r, o, [b])]
    | none => [(t, r, o, [b])]) []
  let s := putJob s { j with writing := true }
  runs.foldl (fun s p => sendPiece s j.cmd p.1 p.2.1 p.2.2.1 p.2.2.2 j.fua) s

/-- A job whose reads are in goes on: a Copy gets its data, and a write sends its pieces. -/
def jobAdvance (s : State) (cmd : Nat) : State :=
  match jobOf? s cmd, spanNs? s with
  | some j, some x =>
    if j.fail.isSome || j.writing || !j.units.all (fun e => e.2.isSome) then s
    else
      let got := j.units.map fun e => (e.1, e.2.getD [])
      let part (r : Nat × Nat) : List Byte := sliceUnits x (got.filter fun e => (x.units r.1 r.2).contains e.1) r.1 r.2
      let j := if j.copy.isEmpty then j else { j with data := j.copy.flatMap part, copy := [] }
      if j.data.isEmpty then s else sendPieces s x j
  | _, _ => s

/-- How a job ends, once it does. -/
def jobReply (s : State) (j : SpanJob) : Option Reply :=
  match j.fail with
  | some st => if j.held.isEmpty then some (.err st) else none
  | none =>
    if j.writing then (if j.held.isEmpty then some .ok else none)
    else if j.data.isEmpty && j.copy.isEmpty && j.units.all (fun e => e.2.isSome) then
      match spanNs? s with
      | none => some (.err .notReady)
      | some x =>
        let b := sliceUnits x (j.units.map fun e => (e.1, e.2.getD [])) j.slba j.blocks
        match j.cmp with
        | some want => some (if b = want then .ok else .err .compareFailure)
        | none => some (.done .success 0 b)
    else none

/-- Forget a job. -/
def dropJob (s : State) (cmd : Nat) : State := putSpn s { s.spn with jobs := s.spn.jobs.filter fun j => j.cmd != cmd }

/-- Begin a job on the span namespace and carry it as far as it goes at once; `flash` follows the units it reads. -/
def startJob (s : State) (j : SpanJob) (flash : List (Option FlashUnit)) : State × Reply :=
  let s := putSpn s { s.spn with jobs := s.spn.jobs ++ [j] }
  let s := j.units.zipIdx.foldl (fun s u => frontRead s j.cmd u.1.1 (flash.drop u.2)) s
  let s := jobAdvance s j.cmd
  match (jobOf? s j.cmd).bind (jobReply s) with
  | some r => (dropJob s j.cmd, r)
  | none => (spanPump s, .wait)

/-- A plain read job. -/
def readJob (c : HostCmd) (x : Namespace) (slba n : Nat) : SpanJob :=
  ⟨c.id, (x.units slba n).map fun u => (u, none), [], slba, [], n, [], none, false, false, [], none⟩

/-- A write job: the units covered in part are read first (R182). -/
def writeJob (c : HostCmd) (x : Namespace) (slba : Nat) (data : List Byte) (fua : Bool) : SpanJob :=
  let n := data.length / max 1 x.lba
  ⟨c.id, ((x.units slba n).filter fun u => !coversUnit x u slba n).map fun u => (u, none), [], slba, data, n, [], none, fua, false, [], none⟩

/-- A copy job. -/
def copyJob (c : HostCmd) (x : Namespace) (l : List (Nat × Nat)) (slba n : Nat) (fua : Bool) : SpanJob :=
  let us := (l.flatMap fun r => x.units r.1 r.2) ++ (x.units slba n).filter fun u => !coversUnit x u slba n
  ⟨c.id, us.eraseDups.map fun u => (u, none), [], slba, [], n, l, none, fua, false, [], none⟩

/-- Flush on the span namespace: every member drains as R123 says; a CHUNK with no units and FUA asks it (R557). -/
def startFlush (s : State) (c : HostCmd) : State × Reply :=
  let d := spanDesc s
  let others := (List.range d.members).filter fun m => m != spanMe s && d.takes m
  let (s, held) := others.foldl (fun (acc : State × List SpanMsg) m =>
    let (s, r) := spanRef acc.1
    let h := spanHdr s d.gen 0 0 0 0 r true
    (spanAsk s m 0x03 h (.units []), acc.2 ++ [⟨m, 0x03, h, .units [], 0, false⟩])) (s, [])
  let us := if bit (rd s pNQE NQE_FLUSH_DRAIN) 0 then (s.map.wb.filter fun w => w.handle == s.spn.handle && w.redirect.isNone).map (·.unit) else []
  let (s, r) := spanRef s
  let mine : SpanMsg := ⟨spanMe s, 0x03, spanHdr s d.gen 0 0 0 0 r true, .units [], 0, false⟩
  let s := if us.isEmpty then s else putSpn s { s.spn with late := s.spn.late ++ [⟨us, mine⟩] }
  let held := if us.isEmpty then held else held ++ [mine]
  if held.isEmpty then (s, .ok)
  else (spanPump (putSpn s { s.spn with jobs := s.spn.jobs ++ [⟨c.id, [], [], 0, [], 0, [], none, true, true, held, none⟩] }), .wait)

end Sys2Proof.Machine
end

