-- ==== Sys2Proof/Machine/HostIo.lean ====
section
/-! DEFINITION. The NVM command set's I/O commands, reservations, retention ranges and Get LBA Status (R28 to R32, R117, R121, R123, R124, R136, R137, R182, R183). -/

namespace Sys2Proof.Machine

/-! ### Retention ranges (R136, R137) -/

/-- Has the Timestamp passed a range's EXPIRY? Before the host has set it, no range expires. -/
def rangeExpired (s : State) (r : RetRange) : Bool := s.com.stamp.isSome && r.expiry != 2 ^ 64 - 1 && decide (r.expiry < stampNow s)

/-- Unexpired ranges of a namespace. -/
def rangesOf (s : State) (nsid : Nat) : List (Nat × RetRange) := s.hst.ranges.filter fun r => r.2.nsid == nsid && !rangeExpired s r.2

/-- Is a unit's data retention-locked? -/
def unitLocked (s : State) (h u : Nat) : Bool :=
  match wbNewest? s h u with
  | some w => w.locked || entRL (entryAt s h u)
  | none => entRL (entryAt s h u)

/-- Does any LBA of a range refuse a write? (R137) -/
def retentionRefuses (s : State) (x : Namespace) (nsid slba n : Nat) : Bool :=
  (rangesOf s nsid).any fun r =>
    let lo := max slba r.2.slba
    let hi := min (slba + n) (r.2.slba + r.2.count)
    decide (lo < hi) && (!r.2.once || (x.units lo (hi - lo)).any (unitLocked s (nsid - 1)))

/-- Does a write to an LBA range lock a unit: it writes an LBA of a write-once range there? (R187) -/
def locksUnit (s : State) (x : Namespace) (nsid slba n u : Nat) : Bool :=
  (rangesOf s nsid).any fun r =>
    let lo := max slba r.2.slba
    let hi := min (slba + n) (r.2.slba + r.2.count)
    r.2.once && decide (lo < hi) && (x.units lo (hi - lo)).contains u

/-- Does any LBA of a unit lie in an unexpired write-once range? -/
def onceUnit (s : State) (x : Namespace) (nsid u : Nat) : Bool :=
  (rangesOf s nsid).any fun r => r.2.once && decide (r.2.slba * x.lba < (u + 1) * x.unit) && decide (u * x.unit < (r.2.slba + r.2.count) * x.lba)

/-- The largest k with 2^k dividing `lo` and at most `n`. -/
def prefixBits (lo n : Nat) : Nat := (List.range 49).foldl (fun k i => if lo % 2 ^ i = 0 ∧ 2 ^ i ≤ n then i else k) 0

/-- The exact prefix cover of units [lo, lo + n): first unit and free low bits (R456). -/
def prefixCover : Nat → Nat → Nat → List (Nat × Nat)
  | 0, _, _ => []
  | fuel + 1, lo, n => if n = 0 then [] else (lo, prefixBits lo n) :: prefixCover fuel (lo + 2 ^ prefixBits lo n) (n - 2 ^ prefixBits lo n)

/-- The class 1 entries of a range (R456): PARTIAL marks units covered in part. -/
def rangeEntries (x : Namespace) (h idx slba n : Nat) : List MatchEntry :=
  let us := x.units slba n
  let part := us.filter fun u => !coversUnit x u slba n
  let whole := us.filter fun u => coversUnit x u slba n
  let entry (u k r : Nat) : MatchEntry :=
    ⟨BitVec.ofNat 160 (h * 2 ^ 150 + u * 2 ^ 102), BitVec.ofNat 160 (1023 * 2 ^ 150 + (2 ^ 48 - 2 ^ k) * 2 ^ 102), 1, w32 r, true⟩
  part.map (fun u => entry u 0 (idx + 2 ^ 31)) ++ (prefixCover 128 (whole.headD 0) whole.length).map fun p => entry p.1 p.2 idx

/-- Enter a range in the class 1 partition; none when the cover does not fit (R456). -/
def enterRange (s : State) (l : List MatchEntry) : Option State :=
  match partOfClass? s 1 with
  | none => none
  | some n =>
    let free := ((List.range (partSize s n)).map (partBase s n + ·)).filter fun i => !(matchEntry s i).valid
    if free.length < l.length then none
    else some ((free.zip l).foldl (fun s p => putMatch s p.1 p.2) s)

/-- Take a range's entries out of the class 1 partition. -/
def leaveRange (s : State) (idx : Nat) : State :=
  match partOfClass? s 1 with
  | none => s
  | some n =>
    (s.mte.entries.filter fun e => decide (partBase s n ≤ e.1) && decide (e.1 < partBase s n + partSize s n) && e.2.valid && fld e.2.result 12 0 == idx).foldl
      (fun s e => putMatch s e.1 MatchEntry.fresh) s

/-- The 32-byte range descriptor (R136). -/
def rangeDesc (idx : Nat) (r : RetRange) : List Byte :=
  bytesLE 8 r.slba ++ bytesLE 8 r.count ++ bytesLE 8 r.expiry ++ [if r.once then 1 else 0, 0, 0, 0] ++ bytesLE 4 idx

/-- Set the retention table. -/
def putRanges (s : State) (t : Tab RetRange) : State := { s with hst := { s.hst with ranges := t } }

/-- May the issuing controller set ranges of a namespace: a PF for any, a VF for one attached to it (R136)? -/
def rangeNs? (s : State) (c : HostCmd) : Option Namespace :=
  (nsAt? s (sqeNsid c.sqe)).filter fun x => isPf c.ctl || x.attached.contains c.ctl

/-- Retention Range Set CREATE (R136). -/
def retCreate (d : List Byte) (s : State) (c : HostCmd) : State × Reply :=
  match rangeNs? s c with
  | none => (s, .err .invalidNamespace)
  | some x =>
    let nsid := sqeNsid c.sqe
    let r : RetRange := ⟨nsid, sqeF d 0 8, sqeF d 8 8, sqeF d 16 8, sqeF d 24 1 == 1⟩
    let idx := ((List.range 8192).find? fun i => (s.hst.ranges.get? i).isNone).getD 0xFFFFFFFF
    if r.count = 0 then (s, .ok)
    else if sqeF d 24 1 > 1 ∨ r.expiry ≤ stampNow s ∨ r.slba + r.count > x.size then (s, .err .invalidField)
    else match s.hst.ranges.find? fun q => q.2.nsid == nsid && decide (q.2.slba < r.slba + r.count) && decide (r.slba < q.2.slba + q.2.count) with
      | some q => (s, .done .rangeConflict q.1 [])
      | none =>
        if idx ≥ 8192 then (s, .done .rangeConflict 0xFFFFFFFF [])
        else match enterRange s (rangeEntries x (nsid - 1) idx r.slba r.count) with
          | none => (s, .done .rangeConflict 0xFFFFFFFF [])
          | some s => (putRanges s (s.hst.ranges.put idx r), .done .success 0 (rangeDesc idx r))

/-- Retention Range Set QUERY (R136). -/
def retQuery (d : List Byte) (s : State) (c : HostCmd) : State × Reply :=
  match rangeNs? s c, s.hst.ranges.get? (sqeF d 28 4) with
  | some _, some r => if r.nsid = sqeNsid c.sqe then (s, .done .success 0 (rangeDesc (sqeF d 28 4) r)) else (s, .err .invalidField)
  | some _, none => (s, .err .invalidField)
  | none, _ => (s, .err .invalidNamespace)

/-- Retention Range Set EXTEND: a later EXPIRY only (R136). -/
def retExtend (d : List Byte) (s : State) (c : HostCmd) : State × Reply :=
  let idx := sqeF d 28 4
  match rangeNs? s c, s.hst.ranges.get? idx with
  | some _, some r =>
    if r.nsid ≠ sqeNsid c.sqe ∨ sqeF d 16 8 < r.expiry then (s, .err .invalidField)
    else
      let r' := { r with expiry := sqeF d 16 8 }
      (putRanges s (s.hst.ranges.put idx r'), .done .success 0 (rangeDesc idx r'))
  | some _, none => (s, .err .invalidField)
  | none, _ => (s, .err .invalidNamespace)

/-- Expired ranges leave the table and the match engine (R137). -/
def retExpire (s : State) : State :=
  (s.hst.ranges.filter fun r => rangeExpired s r.2).foldl (fun s r => leaveRange (putRanges s (s.hst.ranges.del r.1)) r.1) s

/-! ### Order and reservations (R117, R121) -/

/-- LBA range of an NVM I/O command that addresses blocks directly. -/
def cmdRange (d : List Byte) : Nat × Nat := (sqeSlba d, sqeBlocks d)

/-- Does an earlier fetched command of the namespace, not yet carried out, overlap? Reads do not wait for reads (R117). -/
def mustWait (s : State) (c : HostCmd) (slba n : Nat) (writes : Bool) : Bool :=
  s.hst.cmds.any fun y =>
    decide (y.id < c.id) && y.q != 0 && sqeNsid y.sqe == sqeNsid c.sqe && (y.state == .fetched || y.state == .held)
      && [1, 2, 5, 8, 9, 0x0C, 0x19].contains (sqeOp y.sqe)
      && (writes || [1, 8, 9, 0x19].contains (sqeOp y.sqe))
      && (sqeOp y.sqe == 9 || (decide ((cmdRange y.sqe).1 < slba + n) && decide (slba < (cmdRange y.sqe).1 + (cmdRange y.sqe).2)))

/-- Does a reservation keep a controller out? Types: 1 write exclusive, 2 exclusive access, 3 and 4 the same for registrants only, 5 and 6 for all registrants (R121). -/
def resvConflict (x : Namespace) (ctl : Nat) (write : Bool) : Bool :=
  let r := x.resv
  let registered := r.keys.any fun k => k.1 == ctl
  match r.holder with
  | none => false
  | some hd =>
    let mine := hd == ctl || (decide (3 ≤ r.rtype) && registered)
    if r.rtype % 2 = 1 then write && !mine else !mine

/-- What every command that addresses blocks checks first: the namespace, its range, the reservation, the order. -/
def blockChecks (s : State) (c : HostCmd) (slba n : Nat) (write : Bool) : Except Reply Namespace :=
  match nsAt? s (sqeNsid c.sqe) with
  | none => .error (.err .invalidNamespace)
  | some x =>
    if slba + n > x.size then .error (.err .lbaRange)
    else if resvConflict x c.ctl write then .error (.err .reservationConflict)
    else if mustWait s c slba n write then .error .later
    else .ok x

/-- The key slot of a command (R473). -/
def cmdSlot (c : HostCmd) : Nat := c.keySlot.getD (sqeNsid c.sqe - 1)
/-- The key tag a command with a slot named. -/
def cmdTag (c : HostCmd) : Option Nat := if c.keySlot.isSome then sqeTag c.sqe else none

/-! ### Read, Compare, Verify (R25, R121) -/

/-- The blocks of a range as the read path delivers them, with metadata. -/
def readBlocks (s : State) (c : HostCmd) (x : Namespace) (slba n : Nat) (flash : List (Option FlashUnit)) : State × Except NvStatus (List (Nat × List Byte × List Byte)) :=
  let h := sqeNsid c.sqe - 1
  match readUnits s x h (cmdSlot c) (cmdTag c) (x.units slba n) flash with
  | (s, .error (_, st)) => (s, .error st)
  | (s, .ok l) => (s, .ok ((splitBlocks { x with meta_ := 0 } slba n (sliceUnits x l slba n)).map fun b => (b.1, b.2.1, (metaOf s h b.1).take x.meta_)))

/-- PRCHK of a command. -/
def prchk (d : List Byte) : Nat := cdwF d 12 28 26
/-- PRACT of a command. -/
def pract (d : List Byte) : Bool := cdwF d 12 29 29 == 1

/-- The first protection failure among blocks. -/
def piFailure (x : Namespace) (d : List Byte) (l : List (Nat × List Byte × List Byte)) : Option NvStatus := l.findSome? fun b => checkPi x (prchk d) b.1 d b.2.1 b.2.2

/-- Read (R25): all units or, on a failure, no data. -/
def ioRead (flash : List (Option FlashUnit)) (s : State) (c : HostCmd) : State × Reply :=
  let d := c.sqe
  match blockChecks s c (sqeSlba d) (sqeBlocks d) false with
  | .error r => (s, r)
  | .ok x =>
    if x.span = 1 then startJob s (readJob c x (sqeSlba d) (sqeBlocks d)) flash
    else match readBlocks s c x (sqeSlba d) (sqeBlocks d) flash with
    | (s, .error st) => (s, .err st)
    | (s, .ok l) => match piFailure x d l with
      | some st => (s, .err st)
      | none => (s, .done .success 0 (l.flatMap fun b => if x.pi ≠ 0 ∧ pract d then b.2.1 else b.2.1 ++ b.2.2))

/-- Compare (R121). -/
def ioCompare (hostData : List Byte) (flash : List (Option FlashUnit)) (s : State) (c : HostCmd) : State × Reply :=
  let d := c.sqe
  match blockChecks s c (sqeSlba d) (sqeBlocks d) false with
  | .error r => (s, r)
  | .ok x =>
    if hostData.length ≠ sqeBlocks d * (x.lba + x.meta_) then (s, .err .sglLength)
    else if x.span = 1 then startJob s { readJob c x (sqeSlba d) (sqeBlocks d) with cmp := some hostData } flash
    else match readBlocks s c x (sqeSlba d) (sqeBlocks d) flash with
      | (s, .error st) => (s, .err st)
      | (s, .ok l) => if (l.flatMap fun b => b.2.1 ++ b.2.2) = hostData then (s, .ok) else (s, .err .compareFailure)

/-- Verify: reads and checks, transfers nothing (R121). -/
def ioVerify (flash : List (Option FlashUnit)) (s : State) (c : HostCmd) : State × Reply :=
  match ioRead flash s c with
  | (s, .done .success _ _) => (s, .ok)
  | r => r

/-! ### Writes (R28 to R31, R137, R182, R183) -/

/-- Write whole new units from new blocks: units covered in part merge with their old data (R182). `flash` follows the units in order. A merge read that fails ends the command with nothing written. -/
def mergeUnits (s : State) (c : HostCmd) (x : Namespace) (slba : Nat) (data : List Byte) (flash : List (Option FlashUnit)) : State × Except NvStatus (List (Nat × List Byte)) :=
  let h := sqeNsid c.sqe - 1
  let n := data.length / max 1 x.lba
  let step (acc : State × Except NvStatus (List (Nat × List Byte))) (u : Nat × Option FlashUnit) : State × Except NvStatus (List (Nat × List Byte)) :=
    match acc with
    | (s, .error st) => (s, .error st)
    | (s, .ok l) =>
      if coversUnit x u.1 slba n then (s, .ok (l ++ [(u.1, overUnit x u.1 [] slba data)]))
      else match readUnit s x h u.1 (cmdSlot c) (cmdTag c) u.2 with
        | (s, .ok old) => (s, .ok (l ++ [(u.1, overUnit x u.1 old slba data)]))
        | (s, .error .unrecoveredRead) => (mediaError s h u.1, .error .unrecoveredRead)
        | (s, .error st) => (s, .error st)
  (((x.units slba n).zipIdx.map fun u => (u.1, (flash[u.2]?).join))).foldl step (s, .ok [])

/-- Write blocks into the write buffer: FUA waits for R31. -/
def writeBlocks (s : State) (c : HostCmd) (x : Namespace) (slba : Nat) (data : List Byte) (metas : List (Nat × List Byte)) (fua : Bool) (flash : List (Option FlashUnit)) : State × Reply :=
  let nsid := sqeNsid c.sqe
  let h := nsid - 1
  let n := data.length / max 1 x.lba
  if x.span = 1 then (if n = 0 then (s, .ok) else startJob s (writeJob c x slba data fua) flash)
  else match mergeUnits s c x slba data flash with
  | (s, .error st) => (s, .err st)
  | (s, .ok l) =>
    match enterUnits s x h (cmdSlot c) (cmdTag c) fua (fun u => locksUnit s x nsid slba n u || (unitLocked s h u && onceUnit s x nsid u)) l with
    | (s, false) => (s, .err .internalError)
    | (s, true) =>
      let s := metas.foldl (fun s m => putMeta s h m.1 m.2) s
      if fua then (putCmd s { (cmdOf? s c.id).getD c with units := l.map (·.1) }, .wait) else (s, .ok)

/-- Write (R28 to R31). -/
def ioWrite (hostData : List Byte) (flash : List (Option FlashUnit)) (s : State) (c : HostCmd) : State × Reply :=
  let d := c.sqe
  match blockChecks s c (sqeSlba d) (sqeBlocks d) true with
  | .error r => (s, r)
  | .ok x =>
    let made := x.pi ≠ 0 && pract d
    let per := x.lba + (if made then 0 else x.meta_)
    if hostData.length ≠ sqeBlocks d * (x.lba + x.meta_) ∧ ¬(made ∧ hostData.length = sqeBlocks d * x.lba) then (s, .err .sglLength)
    else if retentionRefuses s x (sqeNsid d) (sqeSlba d) (sqeBlocks d) then (s, .err .readOnlyRange)
    else
      let l := splitBlocks { x with meta_ := per - x.lba } (sqeSlba d) (sqeBlocks d) hostData
      let l := if made then l.map fun b => (b.1, b.2.1, makePi x b.1 d b.2.1) else l
      match (if made then none else piFailure x d l) with
      | some st => (s, .err st)
      | none =>
        writeBlocks s c x (sqeSlba d) (l.flatMap (·.2.1)) (if x.meta_ = 0 then [] else l.map fun b => (b.1, b.2.2)) (cdwF d 12 30 30 == 1) flash

/-- Trim units of a namespace (R183). -/
def trimUnits (s : State) (h : Nat) (us : List Nat) : State :=
  match us with
  | [] => s
  | u :: _ => if h < 1024 then mapChange s (.trim ⟨h % 1024, by omega⟩ (BitVec.ofNat 48 u) us.length) else s

/-- Write Zeroes: with DEAC whole units are trimmed and parts zero-filled; without it the range is zero-filled (R121, R183). -/
def ioWriteZeroes (flash : List (Option FlashUnit)) (s : State) (c : HostCmd) : State × Reply :=
  let d := c.sqe
  let (slba, n) := cmdRange d
  match blockChecks s c slba n true with
  | .error r => (s, r)
  | .ok x =>
    if retentionRefuses s x (sqeNsid d) slba n then (s, .err .readOnlyRange)
    else if cdwF d 12 25 25 = 0 ∨ x.span = 1 then
      writeBlocks s c x slba (List.replicate (n * x.lba) 0) (if x.meta_ = 0 then [] else (List.range n).map fun i => (slba + i, List.replicate 8 0)) (cdwF d 12 30 30 == 1) flash
    else
      let whole := (x.units slba n).filter fun u => coversUnit x u slba n
      if whole.isEmpty then writeBlocks s c x slba (List.replicate (n * x.lba) 0) [] false flash
      else
        let a := whole.headD 0 * x.unit / x.lba
        let b := (whole.headD 0 + whole.length) * x.unit / x.lba
        let edge (s : State) (from_ dest : Nat) (fl : List (Option FlashUnit)) : State × Reply :=
          if from_ ≥ dest then (s, .ok) else writeBlocks s c x from_ (List.replicate ((dest - from_) * x.lba) 0) [] false fl
        match edge s slba a flash with
        | (s, .done .success _ _) => (match edge s b (slba + n) (flash.reverse.take 1) with
          | (s, .done .success _ _) => (trimUnits s (sqeNsid d - 1) whole, .ok)
          | r => r)
        | r => r

/-- Dataset Management deallocate: units that a range covers whole are trimmed (R183). The ranges are 16 bytes each: attributes, LBAs, first LBA. -/
def ioDsm (ranges : List Byte) (s : State) (c : HostCmd) : State × Reply :=
  let d := c.sqe
  let k := cdwF d 10 7 0 + 1
  match nsAt? s (sqeNsid d) with
  | none => (s, .err .invalidNamespace)
  | some x =>
    let l := (List.range k).map fun i => (sqeF ranges (16 * i + 8) 8, sqeF ranges (16 * i + 4) 4)
    if ranges.length ≠ 16 * k then (s, .err .sglLength)
    else if resvConflict x c.ctl true then (s, .err .reservationConflict)
    else if l.any fun r => mustWait s c r.1 r.2 true then (s, .later)
    else if cdwF d 11 2 2 = 0 then (s, .ok)
    else if l.any fun r => decide (r.1 + r.2 > x.size) then (s, .err .lbaRange)
    else if l.any fun r => retentionRefuses s x (sqeNsid d) r.1 r.2 then (s, .err .readOnlyRange)
    else if x.span = 1 then (s, .ok)
    else (l.foldl (fun s r => trimUnits s (sqeNsid d - 1) ((x.units r.1 r.2).filter fun u => coversUnit x u r.1 r.2)) s, .ok)

/-- Copy: source ranges, one after another, to the destination (R121). Entries are 32 bytes in format 0h and 40 in 1h: first LBA at 8, blocks less 1 at 16. -/
def ioCopy (entries : List Byte) (flash : List (Option FlashUnit)) (s : State) (c : HostCmd) : State × Reply :=
  let d := c.sqe
  let k := cdwF d 12 7 0 + 1
  let fmt := cdwF d 12 11 8
  let per := if fmt = 0 then 32 else 40
  let l := (List.range k).map fun i => (sqeF entries (per * i + 8) 8, sqeF entries (per * i + 16) 2 + 1)
  let total := (l.map (·.2)).sum
  if fmt > 1 then (s, .err .invalidField)
  else if entries.length ≠ per * k then (s, .err .sglLength)
  else if k > 128 ∨ l.any (fun r => decide (r.2 > 65535)) ∨ total > 262143 then (s, .err .sizeLimit)
  else match blockChecks s c (sqeSlba d) total true with
    | .error r => (s, r)
    | .ok x =>
      if l.any fun r => decide (r.1 + r.2 > x.size) then (s, .err .lbaRange)
      else if resvConflict x c.ctl false then (s, .err .reservationConflict)
      else if retentionRefuses s x (sqeNsid d) (sqeSlba d) total then (s, .err .readOnlyRange)
      else if !roomNow s ((x.units (sqeSlba d) total).length * x.unit) then (s, .later)
      else if x.span = 1 then startJob s (copyJob c x l (sqeSlba d) total (cdwF d 12 30 30 == 1)) flash
      else
        let got := l.foldl (fun (acc : State × List (Option FlashUnit) × Except NvStatus (List (Nat × List Byte × List Byte))) r =>
          match acc with
          | (s, fl, .error st) => (s, fl, .error st)
          | (s, fl, .ok bs) =>
            let us := x.units r.1 r.2
            match readBlocks s c x r.1 r.2 fl with
            | (s, .ok more) => (s, fl.drop us.length, .ok (bs ++ more))
            | (s, .error st) => (s, fl, .error st)) (s, flash, .ok [])
        match got with
        | (s, _, .error st) => (s, .err st)
        | (s, fl, .ok bs) =>
          writeBlocks s c x (sqeSlba d) (bs.flatMap (·.2.1)) (if x.meta_ = 0 then [] else bs.zipIdx.map fun b => (sqeSlba d + b.2, b.1.2.2)) (cdwF d 12 30 30 == 1) fl

/-- Flush (R123); on the span namespace it goes to every member (R557). -/
def ioFlush (s : State) (c : HostCmd) : State × Reply :=
  let h := sqeNsid c.sqe - 1
  if (nsAt? s (sqeNsid c.sqe)).any fun x => x.span == 1 then startFlush s c
  else
  let us := if bit (rd s pNQE NQE_FLUSH_DRAIN) 0 then (s.map.wb.filter fun w => w.handle == h && w.redirect.isNone).map (·.unit) else []
  if us.isEmpty then (s, .ok) else (putCmd s { c with units := us }, .wait)

/-- Get LBA Status: the mapped LBA runs of the range, by unit; a part of a unit counts as its unit does (R183). -/
def getLbaStatus (s : State) (c : HostCmd) : State × Reply :=
  let d := c.sqe
  match nsAt? s (sqeNsid d) with
  | none => (s, .err .invalidNamespace)
  | some x =>
    let h := sqeNsid d - 1
    let slba := sqeF d 40 8
    let n := min (cdwF d 13 15 0) (x.size - slba)
    if slba ≥ x.size then (s, .err .lbaRange)
    else
      let held (u : Nat) : Bool := entryAt s h u != trimmed || (wbNewest? s h u).isSome
      let runs := ((x.units slba n).filter held).foldl (fun (l : List (Nat × Nat)) u =>
        match l.getLast? with
        | some (a, k) => if a + k = u then l.dropLast ++ [(a, k + 1)] else l ++ [(u, 1)]
        | none => [(u, 1)]) []
      let desc := runs.map fun r =>
        let a := max slba (r.1 * x.unit / x.lba)
        let b := min (slba + n) ((r.1 + r.2) * x.unit / x.lba)
        bytesLE 8 a ++ bytesLE 4 (b - a) ++ [0, 0, 0, 0]
      (s, .done .success 0 ((bytesLE 4 runs.length ++ [1, 0, 0, 0] ++ desc.flatten).take (4 * (cdw d 12 + 1))))

/-! ### Reservations (R121) -/

/-- Set a namespace's reservation. -/
def putResv (s : State) (h : Nat) (x : Namespace) (r : Reservation) : State := putNs s h { x with resv := r }

/-- Key of a registrant. -/
def keyOf (x : Namespace) (ctl : Nat) : Option Nat := (x.resv.keys.find? fun k => k.1 == ctl).map (·.2)

/-- A holder that leaves releases the reservation, unless all registrants hold it and some remain. -/
def dropHolder (r : Reservation) (ctl : Nat) : Reservation :=
  if r.holder = some ctl then
    (if r.rtype ≥ 5 ∧ !r.keys.isEmpty then { r with holder := (r.keys.head?).map (·.1) } else { r with holder := none, rtype := 0 })
  else r

/-- Reservation Register: register, unregister, replace. Data: current and new key. -/
def resvRegister (data : List Byte) (s : State) (c : HostCmd) : State × Reply :=
  let d := c.sqe
  match nsAt? s (sqeNsid d) with
  | none => (s, .err .invalidNamespace)
  | some x =>
    let r := x.resv
    let cur := sqeF data 0 8
    let new := sqeF data 8 8
    let others := r.keys.filter fun k => k.1 != c.ctl
    let fits := keyOf x c.ctl = some cur ∨ cdwF d 10 3 3 = 1
    match cdwF d 10 2 0 with
    | 0 =>
      if (keyOf x c.ctl).any (· != new) then (s, .err .reservationConflict)
      else (putResv s (sqeNsid d - 1) x { r with keys := others ++ [(c.ctl, new)], gen := r.gen + 1 }, .ok)
    | 1 =>
      if !fits ∨ (keyOf x c.ctl).isNone then (s, .err .reservationConflict)
      else (putResv s (sqeNsid d - 1) x (dropHolder { r with keys := others, gen := r.gen + 1 } c.ctl), .ok)
    | 2 =>
      if !fits then (s, .err .reservationConflict)
      else (putResv s (sqeNsid d - 1) x { r with keys := others ++ [(c.ctl, new)], gen := r.gen + 1 }, .ok)
    | _ => (s, .err .invalidField)

/-- Reservation Acquire: acquire, preempt, preempt and abort. Data: current and preempted key. -/
def resvAcquire (data : List Byte) (s : State) (c : HostCmd) : State × Reply :=
  let d := c.sqe
  match nsAt? s (sqeNsid d) with
  | none => (s, .err .invalidNamespace)
  | some x =>
    let r := x.resv
    let t := cdwF d 10 15 8
    let pr := sqeF data 8 8
    if keyOf x c.ctl ≠ some (sqeF data 0 8) then (s, .err .reservationConflict)
    else if t < 1 ∨ 6 < t then (s, .err .invalidField)
    else match cdwF d 10 2 0 with
      | 0 =>
        match r.holder with
        | none => (putResv s (sqeNsid d - 1) x { r with holder := some c.ctl, rtype := t }, .ok)
        | some hd => if hd = c.ctl ∧ r.rtype = t then (s, .ok) else (s, .err .reservationConflict)
      | a =>
        if a > 2 then (s, .err .invalidField)
        else
          let hit (k : Nat × Nat) : Bool := k.1 != c.ctl && (k.2 == pr || (decide (5 ≤ r.rtype) && pr == 0))
          let gone := (r.keys.filter hit).map (·.1)
          let takes := match r.holder with
            | some hd => hd == c.ctl || gone.contains hd || decide (5 ≤ r.rtype)
            | none => false
          let r' := { r with keys := r.keys.filter fun k => !hit k, gen := r.gen + 1 }
          let s := putResv s (sqeNsid d - 1) x (if takes then { r' with holder := some c.ctl, rtype := t } else r')
          (if a = 2 then endAll s (fun y => gone.contains y.ctl && sqeNsid y.sqe == sqeNsid d && y.q != 0 && y.id != c.id) .abortRequested else s, .ok)

/-- Reservation Release: release or clear. Data: current key. -/
def resvRelease (data : List Byte) (s : State) (c : HostCmd) : State × Reply :=
  let d := c.sqe
  match nsAt? s (sqeNsid d) with
  | none => (s, .err .invalidNamespace)
  | some x =>
    let r := x.resv
    if keyOf x c.ctl ≠ some (sqeF data 0 8) then (s, .err .reservationConflict)
    else match cdwF d 10 2 0 with
      | 0 =>
        match r.holder with
        | none => (s, .ok)
        | some hd =>
          if hd ≠ c.ctl ∧ r.rtype < 5 then (s, .ok)
          else if cdwF d 10 15 8 ≠ r.rtype then (s, .err .invalidField)
          else (putResv s (sqeNsid d - 1) x { r with holder := none, rtype := 0 }, .ok)
      | 1 => (putResv s (sqeNsid d - 1) x { r with keys := [], holder := none, rtype := 0, gen := r.gen + 1 }, .ok)
      | _ => (s, .err .invalidField)

/-- Reservation Report: generation, type, registrants with controller, holder flag, host and key. -/
def resvReport (s : State) (c : HostCmd) : State × Reply :=
  match nsAt? s (sqeNsid c.sqe) with
  | none => (s, .err .invalidNamespace)
  | some x =>
    let r := x.resv
    let one (k : Nat × Nat) : List Byte := bytesLE 2 k.1 ++ [if r.holder = some k.1 then 1 else 0, 0, 0, 0, 0, 0] ++ bytesLE 8 k.1 ++ bytesLE 8 k.2
    let all := bytesLE 4 r.gen ++ [BitVec.ofNat 8 r.rtype] ++ bytesLE 2 r.keys.length ++ List.replicate 17 0 ++ r.keys.flatMap one
    (s, .done .success 0 (all.take (4 * (cdw c.sqe 10 + 1))))

end Sys2Proof.Machine
end

