-- ==== Sys2Proof/Machine/Slm.lean ====
section
/-! DEFINITION. SLM: frames, memory namespaces, memory range sets and the memory commands (R491 to R493). Field places of the SLM and CP commands are the model's (see the assumption log). -/

namespace Sys2Proof.Machine

/-- Bytes of a GiB. -/
def gib : Nat := 2 ^ 30

/-- DRAM regions fixed on the register pages, as window offsets and bytes (R294, R194, R467, R455, R404). -/
def fixedRegions (s : State) : List (Nat × Nat) :=
  let at_ (a n : Nat) : List (Nat × Nat) := if a < 0x1000000000 then [] else [(a - 0x1000000000, n)]
  [(0, wbTop s + (inF s pMAP MAP_CACHE_SIZE 7 0 + 1) * gib)]
    ++ at_ (wrapBase s) (6 * 2 ^ 20) ++ at_ (inF s pMTE MTE_SHADOW_BASE 25 0 * 2 ^ 22) (4 * 2 ^ 20)
    ++ (List.range 16).flatMap fun n => at_ (inF s (pCVN n) CVN_SAVE_BASE 27 0 * 2 ^ 20) (18 * 2 ^ 20)

/-- SLM frames: whole GiB of mapped DRAM clear of every fixed region, the first 16 of them kept as the firmware reserve (R492). -/
def slmFrames (s : State) : List Nat :=
  ((List.range (dramTop s / gib)).filter fun f => !((fixedRegions s).any fun r => decide (r.1 < (f + 1) * gib) && decide (f * gib < r.1 + r.2) && r.2 != 0)).drop 16

/-- Frames no memory namespace holds. -/
def freeFrames (s : State) : List Nat := (slmFrames s).filter fun f => !(s.prg.frames.any fun e => e.2.contains f)

/-- Window offset of a byte of a memory namespace. -/
def slmAddr (s : State) (h off : Nat) : Nat := ((s.prg.frames.getD h []).getD (off / gib) 0) * gib + off % gib

/-- Pieces of a byte range by frame: window offset and bytes. -/
def slmPieces (s : State) (h : Nat) : Nat → Nat → Nat → List (Nat × Nat)
  | 0, _, _ => []
  | fuel + 1, off, n =>
    if n = 0 then []
    else
      let k := min n (gib - off % gib)
      (slmAddr s h off, k) :: slmPieces s h fuel (off + k) (n - k)

/-- Read SLM bytes; none when a word is uncorrectable. -/
def slmRead (s : State) (h off n : Nat) : State × Option (List Byte) :=
  (slmPieces s h 65 off n).foldl (fun acc p =>
    match acc with
    | (s, none) => (s, none)
    | (s, some b) => (match dramRead s p.1 p.2 with
      | (s, some c) => (s, some (b ++ c))
      | (s, none) => (s, none))) (s, some [])

/-- Write SLM bytes. -/
def slmWrite (s : State) (h off : Nat) (b : List Byte) : State :=
  ((slmPieces s h 65 off b.length).foldl (fun (acc : State × List Byte) p => (dramWrite acc.1 p.1 (acc.2.take p.2), acc.2.drop p.2)) (s, b)).1

/-- Creation of a memory namespace takes frames and zeroes them; none when too few are free (R492). -/
def slmCreate (s : State) (h size : Nat) : Option State :=
  let k := cdiv size gib
  let l := (freeFrames s).take k
  if l.length < k then none
  else some { s with
    prg := { s.prg with frames := s.prg.frames.put h l }
    mem := { s.mem with dram := l.foldl (fun m f => Mem.clear m (f * gib) gib) s.mem.dram } }

/-- Deletion frees the frames. -/
def slmDelete (s : State) (h : Nat) : State := { s with prg := { s.prg with frames := s.prg.frames.del h } }

/-- Does a live set name a memory namespace? (R493) -/
def inLiveSet (s : State) (h : Nat) : Bool := s.prg.sets.any fun e => e.2.any fun r => r.ns == h

/-- The memory namespace of a command, with its byte range. -/
def memNs? (s : State) (c : HostCmd) (off n : Nat) : Except NvStatus Nat :=
  match nsAt? s (sqeNsid c.sqe) with
  | none => .error .invalidNamespace
  | some x => if x.kind ≠ .memory then .error .invalidOpcode else if off + n > x.size then .error .lbaRange else .ok (sqeNsid c.sqe - 1)

/-- Start byte of a memory command, dwords 10 and 11, and its bytes, dword 12. -/
def memRange (d : List Byte) : Nat × Nat := (sqeF d 40 8, cdw d 12)

/-- Memory Read. -/
def memoryRead (s : State) (c : HostCmd) : State × Reply :=
  let (off, n) := memRange c.sqe
  match memNs? s c off n with
  | .error st => (s, .err st)
  | .ok h =>
    if c.dataLen ≠ n then (s, .err .sglLength)
    else match slmRead s h off n with
      | (s, some b) => (s, .done .success 0 b)
      | (s, none) => (s, .err .unrecoveredRead)

/-- Memory Write. -/
def memoryWrite (data : List Byte) (s : State) (c : HostCmd) : State × Reply :=
  let (off, n) := memRange c.sqe
  match memNs? s c off n with
  | .error st => (s, .err st)
  | .ok h => if data.length ≠ n then (s, .err .sglLength) else (slmWrite s h off data, .ok)

/-- Memory Copy: up to 128 LBA ranges of NVM namespaces attached to the issuing controller, one after another; each source unit passes read-path steps 2 to 7 (R491). An entry is 32 bytes: NSID, first LBA at 8, blocks less 1 at 16. -/
def memoryCopy (entries : List Byte) (flash : List (Option FlashUnit)) (s : State) (c : HostCmd) : State × Reply :=
  let k := cdwF c.sqe 12 7 0 + 1
  let l := (List.range k).map fun i => (sqeF entries (32 * i) 4, sqeF entries (32 * i + 8) 8, sqeF entries (32 * i + 16) 2 + 1)
  if entries.length ≠ 32 * k then (s, .err .sglLength)
  else if k > 128 then (s, .err .sizeLimit)
  else
    let got := l.foldl (fun (acc : State × List (Option FlashUnit) × Except NvStatus (List Byte)) r =>
      match acc with
      | (s, fl, .error st) => (s, fl, .error st)
      | (s, fl, .ok b) =>
        match nsAt? s r.1 with
        | none => (s, fl, .error .invalidNamespace)
        | some x =>
          if x.kind ≠ .nvm ∨ !x.attached.contains c.ctl then (s, fl, .error .invalidNamespace)
          else if r.2.1 + r.2.2 > x.size then (s, fl, .error .lbaRange)
          else
            let us := x.units r.2.1 r.2.2
            match readUnits s x (r.1 - 1) (r.1 - 1) none us fl with
            | (s, .error (_, st)) => (s, fl, .error st)
            | (s, .ok got) => (s, fl.drop us.length, .ok (b ++ sliceUnits x got r.2.1 r.2.2))) (s, flash, .ok [])
    match got with
    | (s, _, .error st) => (s, .err st)
    | (s, _, .ok b) => match memNs? s c (sqeF c.sqe 40 8) b.length with
      | .error st => (s, .err st)
      | .ok h => (slmWrite s h (sqeF c.sqe 40 8) b, .ok)

/-! ### Memory range sets (R491, R493) -/

/-- The compute namespace of a command. -/
def computeNs? (s : State) (c : HostCmd) : Option Nat :=
  match nsAt? s (sqeNsid c.sqe) with
  | some x => if x.kind = .compute ∧ (isPf c.ctl ∨ x.attached.contains c.ctl) then some (sqeNsid c.sqe - 1) else none
  | none => none

/-- A range as given: NSID, offset at 8, length at 16 of 32 bytes; none when it breaks R493. -/
def rangeFrom? (s : State) (c : HostCmd) (b : List Byte) : Option MemRange :=
  let nsid := sqeF b 0 4
  let off := sqeF b 8 8
  let len := sqeF b 16 8
  match nsAt? s nsid with
  | none => none
  | some x =>
    if x.kind = .memory ∧ x.attached.contains c.ctl = true ∧ off % gib = 0 ∧ len % 4096 = 0 ∧ 4096 ≤ len ∧ len ≤ gib ∧ off + len ≤ x.size then some ⟨nsid - 1, off, len⟩
    else none

/-- Memory Range Set Management, create: completion DW0 gives the set's number. -/
def rangeSetCreate (data : List Byte) (s : State) (c : HostCmd) : State × Reply :=
  let n := data.length / 32
  match computeNs? s c with
  | none => (s, .err .invalidNamespace)
  | some h =>
    if data.length % 32 ≠ 0 ∨ data.length ≠ c.dataLen then (s, .err .sglLength)
    else
      let l := (List.range n).map fun i => rangeFrom? s c ((data.drop (32 * i)).take 32)
      let free := ((List.range 256).map (256 * h + ·)).find? fun k => (s.prg.sets.get? k).isNone
      match free with
      | none => (s, .err .resources)
      | some k =>
        if n = 0 ∨ n > 3 ∨ l.any Option.isNone then (s, .err .invalidField)
        else ({ s with prg := { s.prg with sets := s.prg.sets.put k (l.filterMap id) } }, .done .success (k % 256) [])

/-- Memory Range Set Management, delete: the set number stands in dword 11; a set that a run uses stays. -/
def rangeSetDelete (s : State) (c : HostCmd) : State × Reply :=
  match computeNs? s c with
  | none => (s, .err .invalidNamespace)
  | some h =>
    let k := 256 * h + cdwF c.sqe 11 7 0
    if (s.prg.sets.get? k).isNone then (s, .err .rangeSetInvalid)
    else if (s.prg.runs.any fun r => r.rset == k) || (s.prg.scans.any fun r => r.rset == k) then (s, .later)
    else ({ s with prg := { s.prg with sets := s.prg.sets.del k } }, .ok)

end Sys2Proof.Machine
end

