-- ==== Sys2Proof/Machine/Programs.lean ====
section
/-! DEFINITION. Downloadable programs: load, activation, the passenger environment, runs and the program's TRAP calls (R494 to R501). -/

namespace Sys2Proof.Machine

/-- Set the programs part. -/
def putPrg (s : State) (p : Programs) : State := { s with prg := p }

/-! ### Load Program (R494, R495) -/

/-- The manifest: the 64 bytes after the section descriptors. -/
def manifest (b : List Byte) : List Byte := ((imgPayload b).drop (16 * imgSections b)).take 64

/-- TEXT_LEN, DATA_LEN, CS_LEN, ENTRY, RINGS, PRIO_MAX, MATCH. -/
def mfText (m : List Byte) : Nat := leAt m 0 2
/-- DATA_LEN. -/
def mfData (m : List Byte) : Nat := leAt m 2 2
/-- CS_LEN. -/
def mfStore (m : List Byte) : Nat := leAt m 4 4
/-- ENTRY. -/
def mfEntry (m : List Byte) : Nat := leAt m 8 2
/-- RINGS. -/
def mfRings (m : List Byte) : Nat := bAt m 10
/-- PRIO_MAX. -/
def mfPrio (m : List Byte) : Nat := bAt m 11
/-- MATCH, in units of 64 entries. -/
def mfMatch (m : List Byte) : Nat := leAt m 12 2

/-- Does the manifest, with the sections, follow R494? -/
def manifestOk (b : List Byte) : Bool :=
  let m := manifest b
  let secs := imgSecs b
  let fits (k n : Nat) : Bool := secs.all fun x => x.kind != k || decide (x.dest + x.len ≤ n)
  decide (4 ≤ mfText m) && decide (mfText m ≤ 16384) && decide (mfData m ≤ 4096) && decide (mfStore m ≤ 262144)
    && decide (mfEntry m < mfText m) && mfEntry m % 4 == 0 && decide (mfRings m ≤ 4) && decide (mfPrio m ≤ 11) && decide (mfMatch m ≤ 64)
    && decide (bAt m 14 ≤ 1) && zerosAt m 15 49
    && secs.all (fun x => decide (1 ≤ x.kind) && decide (x.kind ≤ 5) && x.len % 4 == 0 && decide (x.src + x.len ≤ (imgPayload b).length))
    && fits 1 (mfText m) && fits 2 (mfData m) && fits 3 (mfStore m)
    && (!hasTables secs || bAt m 14 == 1)

/-- Pieces laid over zeros. -/
def assemble (size : Nat) (l : List (Nat × List Byte)) : List Byte :=
  l.foldl (fun img p => fit size (img.take p.1 ++ p.2 ++ img.drop (p.1 + p.2.length))) (List.replicate size 0)

/-- Has every byte arrived? -/
def allArrived (size : Nat) (l : List (Nat × List Byte)) : Bool :=
  let ends := 0 :: l.map fun p => p.1 + p.2.length
  ends.all fun e => decide (size ≤ e) || l.any fun p => decide (p.1 ≤ e) && decide (e < p.1 + p.2.length)

/-- The status of an image failure at Load Program: a form failure is Invalid Field, any other Access Denied. -/
def loadStatusOf (cause : Nat) : NvStatus := if cause = 1 then .invalidField else .accessDenied

/-- Load Program: index in dword 10 [15:0] and type [23:16], image bytes in dword 11, offset in dword 15 (R495). The last piece's command checks the image and waits for its PROGRAM_LOAD record. -/
def loadProgram (data : List Byte) (s : State) (c : HostCmd) : State × Reply :=
  let d := c.sqe
  let pind := cdwF d 10 15 0
  match computeNs? s c with
  | none => (s, .err .invalidNamespace)
  | some h =>
    if pind < 3 ∨ 63 < pind then (s, .err .programInvalid)
    else if cdwF d 10 23 16 ≠ 0xC0 then (s, .err .invalidField)
    else if data.length ≠ c.dataLen then (s, .err .sglLength)
    else if cdw d 11 > 524288 ∨ cdw d 15 + data.length > cdw d 11 then (s, .err .invalidField)
    else if s.prg.acts.any fun a => a.ns == h && a.index == pind then (s, .err .programInvalid)
    else
      let mine (l : Loading) : Bool := l.ns == h && l.index == pind
      let old := ((s.prg.loading.find? mine).filter fun l => l.size == cdw d 11).elim [] (·.pieces)
      let pieces := old ++ [(cdw d 15, data)]
      let rest := s.prg.loading.filter fun l => !mine l
      if !allArrived (cdw d 11) pieces then (putPrg s { s.prg with loading := rest ++ [⟨h, pind, cdw d 11, pieces⟩] }, .ok)
      else
        let img := assemble (cdw d 11) pieces
        let s := putPrg s { s.prg with loading := rest }
        if !imgFormatOk s img || imgKind img != 4 || !manifestOk img then (scpEvent s, .err .invalidField)
        else
          match checkImage s false 5 (some img) with
          | (s, some cause) => (s, .err (loadStatusOf cause))
          | (s, none) =>
            let s := tap s 3 0 img
            if noRing s then (s, .err .internalError)
            else
              let others := s.prg.images.filter fun p => !(p.ns == h && p.index == pind)
              let s := putPrg s { s.prg with images := others ++ [⟨h, pind, img⟩] }
              let s := queueRecord s ⟨4, bytesLE 4 (h + 1) ++ bytesLE 1 pind, [], .loaded c.id⟩
              let s := if imgCtr img = 0xFFFF ∨ imgSvn img ≤ counterOf s (imgCtr img) then s
                else queueRecord s ⟨7, bytesLE 1 (imgCtr img) ++ [0, 0, 0] ++ bytesLE 4 (imgSvn img), [], .counter none (imgCtr img) (imgSvn img)⟩
              (s, .wait)

/-! ### Places and grants (R496, R497) -/

/-- Places taken in a cluster. -/
def placesUsed (s : State) (c : Nat) : List Nat := (s.prg.acts.filter fun a => a.cluster == c).map (·.place)

/-- The enabled cluster with the most free places, the lowest on a tie; NCL0 has none. -/
def pickCluster (s : State) : Option (Nat × Nat) :=
  let cands := [1, 2, 3, 4, 5].filter fun c => !cluGone s c && pageUp s (pNCL c) && decide ((placesUsed s c).length < 3)
  (minBy? (fun c => (placesUsed s c).length) cands).map fun c => (c, ([0, 1, 2].find? fun p => !(placesUsed s c).contains p).getD 0)

/-- Is a general ring free to grant: not enabled and in no activation? -/
def ringFree (s : State) (n r : Nat) : Bool :=
  cvnServes s n && !rgOn s n r && !(s.prg.acts.any fun a => a.rings.contains (n, r))

/-- The lowest run of four context slots of a caravan that no ring's range holds. -/
def fourSlots (s : State) (n : Nat) : Option Nat :=
  (List.range 253).find? fun f => (List.range 8).all fun r =>
    let v := inForce s (pCVN n) (rgOff r 0x10)
    fld v 16 8 == 0 || decide (f + 4 ≤ fld v 7 0) || decide (fld v 7 0 + fld v 16 8 ≤ f)

/-- Rings on distinct caravans: the lowest free general ring of each of the first caravans that have one. -/
def pickRings (s : State) (k : Nat) : Option (List (Nat × Nat)) :=
  let l := (List.range 16).filterMap fun n => (([3, 4, 5, 6, 7].find? fun r => ringFree s n r).filter fun _ => (fourSlots s n).isSome).map fun r => (n, r)
  if k ≤ l.length then some (l.take k) else none

/-- A partition of class 0 not enabled, and the lowest 64-entry base where `m` units fit clear of every enabled partition. -/
def pickPartition (s : State) (m : Nat) : Option (Nat × Nat) :=
  match (List.range 16).find? fun n => !partOn s n with
  | none => none
  | some n =>
    ((List.range 1025).find? fun b => decide (b + m ≤ 1024) && (List.range 16).all fun q =>
      !partOn s q || decide ((b + m) * 64 ≤ partBase s q) || decide (partBase s q + partSize s q ≤ b * 64)).map fun b => (n, b)

/-- An environment record of the cluster that no activation uses. -/
def pickEnv (s : State) (c : Nat) : Option Nat :=
  (List.range (envCount s c)).find? fun e => !(s.prg.acts.any fun a => a.cluster == c && a.env == e)

/-- Write a field of a staged register in force, as crew's own commit does. -/
def setNow (s : State) (p off : Nat) (v : Word) : State := wrForce (wr s p off v) p off v

/-- Words of an environment record (R384, R497): windows bk1 to bk3 with their limits, no pages, the place's ITW, DTW and CSW, and CEILING in word 56. -/
def envWords (s : State) (p ceiling : Nat) (ranges : List MemRange) : List Word :=
  let win (i : Nat) : Word := match ranges[i]? with
    | some r => w32 (2 ^ 31 + 2 ^ 30 + (2 ^ 36 + slmAddr s r.ns r.off) / gib % 2 ^ 18)
    | none => 0
  let lim (i : Nat) : Word := match ranges[i]? with
    | some r => w32 (r.len / 4096)
    | none => 0
  let span (base n unit : Nat) : Word := w32 ((base + n) / unit * 65536 + base / unit)
  [win 0, win 1, win 2, lim 0, lim 1, lim 2] ++ List.replicate 8 0
    ++ [span (0x4000 + 0x4000 * p) 0x4000 64, span (0xA000 + 0x2000 * p) 0x2000 64, span (0x100000 + 0x40000 * p) 0x40000 4096, w32 ceiling]

/-- Write an activation's environment record. -/
def writeEnv (s : State) (a : Activation) (ranges : List MemRange) : State :=
  let c : Clu := ⟨a.cluster % 6, by omega⟩
  storeWrite s c 0 (ctxBase s a.cluster + 256 * a.env + 4 * 39) ((envWords s a.place a.ceiling ranges).flatMap fun w => bytesLE 4 w.toNat)

/-- Sections of an image moved to a place, for the cores in service. -/
def placedSections (s : State) (c : Clu) (p : Nat) (l : List Section) : List Section :=
  let mask := (coresOf c).foldl (fun m n => if coreInService s n then m + 2 ^ (n.val % 8) else m) 0
  l.map fun x => match x.kind with
    | 1 => { x with mask := mask, dest := 0x4000 + 0x4000 * p + x.dest }
    | 2 => { x with mask := mask, dest := 0xA000 + 0x2000 * p + x.dest }
    | 3 => { x with mask := 0, dest := 0x100000 + 0x40000 * p + x.dest }
    | _ => { x with mask := 0 }

/-- Tables as a program's sections would leave them. -/
def tablesWith (s : State) (c : Clu) (payload : List Byte) (l : List Section) : Vector Word 16 × Tab Word :=
  l.foldl (fun (t, u) x =>
    let ws := (wordsOf (x.len / 4) ((payload.drop x.src).take x.len)).zipIdx
    if x.kind = 4 then (ws.foldl (fun t w => if h : x.dest / 4 + w.2 < 16 then t.set (x.dest / 4 + w.2) w.1 else t) t, u)
    else if x.kind = 5 then (t, ws.foldl (fun u w => u.putD (x.dest / 4 + w.2) w.1 0) u)
    else (t, u)) ((cluOf s c).table, (cluOf s c).ucode)

/-- Does the load of a place pass R368's check? -/
def placeLoadOk (s : State) (c : Clu) (payload : List Byte) (l : List Section) : Bool :=
  l.all (sectionOk s c) &&
    (let (t, u) := tablesWith s c payload l
     !hasTables l || ((t.toList.filter fun e => bit e 31).all fun e => (badSequence e fun i => u.getD i 0).isNone))

/-- May the cluster be handed over now: no core runs a crew item, and every running passenger item can be saved (R612)? -/
def handoverNow (s : State) (c : Clu) : Option State :=
  (coresOf c).foldl (fun (acc : Option State) n =>
    match acc with
    | none => none
    | some s =>
      if (coreOf s n).mode != .run then some s
      else match s.dis.running.get? n.val with
        | none => none
        | some i =>
          if !(itemOf s i).passenger || (coreOf s n).handler then none
          else match freeContext s c.val with
            | none => none
            | some slot => some (preempt s n slot)) (some s)

/-- Cores of a cluster leave a load at the reset vector (R368). -/
def releaseCluster (s : State) (c : Clu) : State :=
  (coresOf c).foldl (fun s n => if coreInService s n then resetCore s n .run else s) s

/-- The instance's image. -/
def programOf (s : State) (ns index : Nat) : Option Program := s.prg.images.find? fun p => p.ns == ns && p.index == index

/-- Grant the rings of an activation: OWNER, CTX_RANGE COUNT 4 (R497). -/
def grantRings (s : State) (a : Activation) : State :=
  a.rings.foldl (fun s r =>
    let p := pCVN r.1
    let own := w32 (2 ^ 31 + a.cluster * 2 ^ 28 + a.env * 2 ^ 22 + a.tenant)
    let s := setNow s p (rgOff r.2 0x10) (w32 (4 * 256 + (fourSlots s r.1).getD 0))
    setNow s p (rgOff r.2 0x0C) own) s

/-- Grant the match partition: class 0, PASSENGER, the record's cluster and environment (R497). -/
def grantPartition (s : State) (a : Activation) (base m : Nat) : State :=
  match a.part with
  | none => s
  | some n =>
    let s := setNow s pMTE (partRangeOff n) (w32 (base * 65536 + m))
    setNow s pMTE (partCfgOff n) (w32 (2 ^ 31 + 2 ^ 15 + a.cluster * 2 ^ 12 + a.env * 2 ^ 6))

/-- The program index of an activation command, dword 10 [15:0]; dword 11 [7:0] selects activate 1 or deactivate 0. -/
def actIndex (d : List Byte) : Nat := cdwF d 10 15 0

/-- Program Activation Management, activate (R496, R497): everything is granted and loaded at once, and the PROGRAM_ACTIVATE record holds the run slot. A cluster whose crew items still run holds the command. -/
def activate (s : State) (c : HostCmd) : State × Reply :=
  let pind := actIndex c.sqe
  match computeNs? s c with
  | none => (s, .err .invalidNamespace)
  | some h =>
    if cdwF c.sqe 11 7 0 ≠ 1 then (s, .later)
    else match programOf s h pind with
      | none => (s, .err .programInvalid)
      | some g =>
        if s.prg.acts.any fun a => a.ns == h && a.index == pind then (s, .err .programActivation)
        else if noRing s then (s, .err .programActivation)
        else
          let m := manifest g.image
          match pickCluster s with
          | none => (s, .err .programActivation)
          | some (k, p) =>
            let clu : Clu := ⟨k % 6, by omega⟩
            let secs := placedSections s clu p (imgSecs g.image)
            let payload := imgPayload g.image
            match pickEnv s k, pickRings s (mfRings m), lowestFree s with
            | some env, some rings, some slot =>
              let part := if mfMatch m = 0 then some none else (pickPartition s (mfMatch m)).map some
              match part with
              | none => (s, .err .programActivation)
              | some part =>
                if !placeLoadOk s clu payload secs then (s, .err .programActivation)
                else match handoverNow s clu with
                  | none => (s, .later)
                  | some s =>
                    let a : Activation :=
                      { ns := h, index := pind, ctl := c.ctl, cluster := k, place := p, env := env, rings := rings, part := part.map (·.1), slot := slot
                        entry := mfEntry m, ceiling := mfPrio m, tenant := (nsAt? s (h + 1)).elim 0 (·.tenant), live := false, closing := none }
                    let s := secs.foldl (fun s x => writeSection (snLoad s ((payload.drop x.src).take x.len)) clu x ((payload.drop x.src).take x.len)) s
                    let s := if hasTables secs then wr s (pNCL k) NCL_TABLE_GEN (w32 ((rdF s (pNCL k) NCL_TABLE_GEN 15 0 + 1) % 65536)) else s
                    let s := releaseCluster s clu
                    let s := grantPartition (grantRings (writeEnv s a []) a) a ((part.map (·.2)).getD 0) (mfMatch m)
                    let s := putItem s slot { Item.fresh with state := .done }
                    let s := putPrg s { s.prg with acts := s.prg.acts ++ [a] }
                    let arg := bytesLE 4 (h + 1) ++ bytesLE 1 pind ++ bytesLE 1 k ++ bytesLE 1 p ++ [0] ++ bytesLE 2 slot
                    (queueRecord s ⟨5, arg, [(0x20 + 3 * (k - 1) + p, some (imgMeasure g.image false pind))], .activated c.id slot⟩, .wait)
            | _, _, _ => (s, .err .programActivation)

/-- The run of an activation. -/
def runOf? (s : State) (slot : Nat) : Option Run := s.prg.runs.find? fun r => r.slot == slot

/-- The activation of a run slot. -/
def actOf? (s : State) (slot : Nat) : Option Activation := s.prg.acts.find? fun a => a.slot == slot

/-- Take an activation's grants back: rings, partition, run slot (R496). -/
def revoke (s : State) (a : Activation) : State :=
  let s := a.rings.foldl (fun s r => [0x00, 0x04, 0x0C, 0x10].foldl (fun s o => setNow s (pCVN r.1) (rgOff r.2 o) 0) (setNow s (pCVN r.1) (rgOff r.2 0x08) 0x400)) s
  let s := match a.part with
    | some n =>
      let s := (List.range (partSize s n)).foldl (fun s i => if (matchEntry s (partBase s n + i)).valid then putMatch s (partBase s n + i) MatchEntry.fresh else s) s
      setNow (setNow s pMTE (partCfgOff n) 0) pMTE (partRangeOff n) 0
    | none => s
  putItem s a.slot Item.fresh

/-- Deactivate (R496): waits for the running run, then frees everything; its record comes first. -/
def deactivate (s : State) (c : HostCmd) : State × Reply :=
  match computeNs? s c with
  | none => (s, .err .invalidNamespace)
  | some h =>
    if cdwF c.sqe 11 7 0 ≠ 0 then (s, .later)
    else match s.prg.acts.find? fun a => a.ns == h && a.index == actIndex c.sqe with
      | none => (s, .err .programInvalid)
      | some a =>
        if noRing s then (s, .err .internalError)
        else if (runOf? s a.slot).isSome || !a.live || a.closing.isSome then (s, .later)
        else
          let s := putPrg s { s.prg with acts := s.prg.acts.map fun x => if x.slot == a.slot then { x with closing := some c.id } else x }
          let arg := bytesLE 4 (h + 1) ++ bytesLE 1 a.index ++ bytesLE 1 a.cluster ++ bytesLE 1 a.place ++ [1] ++ bytesLE 2 a.slot
          (queueRecord s ⟨5, arg, [(0x20 + 3 * (a.cluster - 1) + a.place, none)], .deactivated c.id a.slot⟩, .wait)

/-! ### Runs (R499 to R501) -/

/-- The parameter header of Execute Program (R499). -/
structure ParamHeader where
  defer : Bool
  prio : Nat
  limitMs : Nat
  params : List Byte

/-- Read and check the header. -/
def paramHeader (c : HostCmd) (data : List Byte) (ceiling : Nat) : Except NvStatus ParamHeader :=
  let len := leAt data 8 4
  let lim := leAt data 4 4
  if data.length < 16 ∨ data.length ≠ 16 + len ∨ data.length ≠ c.dataLen then .error .sglLength
  else if bAt data 0 ≠ 1 ∨ bAt data 1 > 1 ∨ bAt data 2 > 15 ∨ bAt data 3 ≠ 0 ∨ !zerosAt data 12 4 ∨ len > 4080 ∨ lim < 1 ∨ 600000 < lim ∨ bAt data 2 > ceiling then .error .invalidField
  else .ok ⟨bAt data 1 == 1, bAt data 2, lim, data.drop 16⟩

/-- Program index and memory range set of Execute Program, dword 2. -/
def execIndex (d : List Byte) : Nat := cdwF d 2 15 0
/-- The set's key in the table. -/
def execSet (d : List Byte) : Nat := 256 * (sqeNsid d - 1) + cdwF d 2 31 16 % 256

/-- Have an activation's rings drained: nothing between HEAD and TAIL and no job of theirs in the caravan? -/
def ringsDrained (s : State) (a : Activation) : Bool :=
  a.rings.all fun r => !rgOn s r.1 r.2 || (rgHead s r.1 r.2 == rgTail s r.1 r.2 && !ringBusy (cvnOf s r.1) r.2)

/-- Does an earlier fetched Execute Program name the same index? -/
def earlierRun (s : State) (c : HostCmd) : Bool :=
  s.hst.cmds.any fun y => decide (y.id < c.id) && y.q != 0 && y.state == .fetched && sqeNsid y.sqe == sqeNsid c.sqe && sqeOp y.sqe == 1 && execIndex y.sqe == execIndex c.sqe

/-- The rings of a run: ring memory inside the run's first window, at a place that the spec leaves to the activation (R497). -/
def openRings (s : State) (a : Activation) (ranges : List MemRange) : State :=
  match ranges with
  | [] => s
  | r :: _ =>
    a.rings.foldl (fun s q =>
      if rgOn s q.1 q.2 then s
      else
        let v := Config.freeWord s.com.free
        let s := takeFree s
        let at_ := 0x1000000000 + slmAddr s r.ns r.off + v.toNat % (r.len / 4096) * 4096
        let p := pCVN q.1
        let old := s
        let s := setNow (setNow s p (rgOff q.2 0x00) (w32 (at_ % 2 ^ 32))) p (rgOff q.2 0x04) (w32 (at_ / 2 ^ 32))
        applyCvn old (setNow s p (rgOff q.2 0x08) (w32 (2 ^ 31 + 0x404))) q.1) s

/-- Execute Program on a downloadable program (R499, R500): the header, the parameters into the place's D-TCM, the environment record, the run slot; then READY, or WAITING when deferred. -/
def executeProgram (data : List Byte) (s : State) (c : HostCmd) : State × Reply :=
  let d := c.sqe
  let h := sqeNsid d - 1
  match nsAt? s (sqeNsid d) with
  | none => (s, .err .invalidNamespace)
  | some x =>
    if x.kind ≠ .compute then (s, .later)
    else if execIndex d = 1 then (s, .err .invalidField)
    else if execIndex d = 0 ∨ execIndex d = 2 then (s, .later)
    else match s.prg.acts.find? fun a => a.ns == h && a.index == execIndex d && a.live && a.closing.isNone with
      | none => (s, .err .programInvalid)
      | some a =>
        match paramHeader c data a.ceiling with
        | .error st => (s, .err st)
        | .ok ph =>
          match s.prg.sets.get? (execSet d) with
          | none => (s, .err .rangeSetInvalid)
          | some ranges =>
            if (runOf? s a.slot).isSome || earlierRun s c || !ringsDrained s a then (s, .later)
            else
              let clu : Clu := ⟨a.cluster % 6, by omega⟩
              let cores := (coresOf clu).filter fun n => coreInService s n
              let base := 0xA000 + 0x2000 * a.place + 0x1000
              let s := cores.foldl (fun s n => tcmWrite s n .dtcm base ph.params) s
              let s := openRings (writeEnv s a ranges) a ranges
              let mask := cores.foldl (fun m n => m + 2 ^ (n.val % 8)) 0
              let w3 := ph.prio + ph.prio * 2 ^ 4 + a.cluster * 2 ^ 8 + 2 ^ 11 + 2 ^ 12 + mask * 2 ^ 16 + a.env * 2 ^ 24
              let item : Item :=
                { Item.fresh with w0 := w32 (0x4000 + 0x4000 * a.place + a.entry), arg0 := w32 (0x10000 + base), arg1 := w32 ph.params.length, w3 := w32 w3, state := .waiting, cluster := a.cluster }
              let s := putItem s a.slot item
              let run : Run := ⟨c.id, a.slot, execSet d, if ph.defer then none else some s.com.time, ph.limitMs⟩
              let s := putPrg s { s.prg with runs := s.prg.runs ++ [run] }
              (if ph.defer then s else makeReady s a.slot, .wait)

/-- A PROGRAM_START that reached a run slot starts its time limit (R500). -/
def runStarted (s : State) (slot : Nat) : State :=
  putPrg s { s.prg with runs := s.prg.runs.map fun r =>
    if r.slot == slot && r.ready.isNone && (itemOf s slot).state == .ready then { r with ready := some s.com.time } else r }

/-- A run is over: its command ends, and its slot is parked for the next run. -/
def finishRun (s : State) (r : Run) (st : NvStatus) (dw0 : Nat) : State :=
  let s := putPrg s { s.prg with runs := s.prg.runs.filter fun x => x.slot != r.slot }
  let s := putItem s r.slot { Item.fresh with state := .done }
  match cmdOf? s r.cmd with
  | none => s
  | some c => endCmd s c st dw0 []

/-- The newest Error Information entry of a run's command takes TRAP_ADDR as its command specific information (R501). -/
def noteTrap (s : State) (cmd : Nat) (at_ : Word) : State :=
  match cmdOf? s cmd, s.hst.errors with
  | some c, (q, cid, st, _) :: rest => if q = c.q ∧ cid = c.cid then { s with hst := { s.hst with errors := (q, cid, st, at_.toNat) :: rest } } else s
  | _, _ => s

/-- Is the trap one of the calls of R498? -/
def programCall (x : Core) : Bool := fld x.trapInfo 3 0 == 8 && decide (1 ≤ fld x.trapInfo 11 4) && decide (fld x.trapInfo 11 4 ≤ 4)

/-- Take an item off whatever holds it: its core, its queue, its context slot. -/
def dropItem (s : State) (i : Nat) : State :=
  match s.dis.running.find? fun e => e.2 == i with
  | some (n, _) =>
    if h : n < 48 then
      let s := stopRun s ⟨n, h⟩
      setCore s ⟨n, h⟩ { coreOf s ⟨n, h⟩ with mode := restMode s ⟨n, h⟩, runmode := 0 }
    else s
  | none =>
    let x := itemOf s i
    let s := unqueue s i
    if x.state = .preempted then { s with dis := { s.dis with contexts := s.dis.contexts.del (1024 * x.cluster + x.ctx) } } else s

/-- A run ends (R501): by ENDW, by a passenger trap that is no call of R498, or because its item failed. -/
def runEnd (s : State) (slot : Nat) : State :=
  match runOf? s slot with
  | none => s
  | some r =>
    let x := itemOf s slot
    match x.state with
    | .done => finishRun s r .success x.arg0.toNat
    | .failed => finishRun (dropFailure s slot) r .programFault (0x80000000 + x.cause)
    | .running =>
      match (s.dis.running.find? fun e => e.2 == slot) with
      | some (n, _) =>
        if h : n < 48 then
          let core := coreOf s ⟨n, h⟩
          if core.handler && bit core.trapMode 0 && !programCall core then
            noteTrap (finishRun (dropItem s slot) r .programFault (fld core.trapInfo 11 0)) r.cmd core.trapAddr
          else s
        else s
      | none => s
    | _ => s

/-- LIMIT_MS has passed since the slot entered READY: crew ends the run (R501). -/
def runLimit (s : State) (slot : Nat) : State :=
  match runOf? s slot with
  | none => s
  | some r =>
    match r.ready with
    | none => s
    | some t =>
      let x := itemOf s slot
      let above := decide (r.limitMs * 1000000 ≤ (s.com.time - t).toNat)
      if above && (x.state == .running || x.state == .ready || x.state == .preempted) then finishRun (dropItem s slot) r .programFault 0xFFFFFFFF else s

/-- Abort of a deferred Execute Program cancels the WAITING slot (R500). -/
def cancelRun (s : State) (cmd : Nat) : State :=
  match s.prg.runs.find? fun r => r.cmd == cmd && r.ready.isNone with
  | none => s
  | some r =>
    let s := putPrg s { s.prg with runs := s.prg.runs.filter fun x => x.slot != r.slot }
    putItem s r.slot { Item.fresh with state := .done }

/-! ### Program calls (R498) -/

/-- The core's activation, when its handler serves a passenger's TRAP of this code. -/
def callOf? (s : State) (n : Fin 48) (code : Nat) : Option Activation :=
  let x := coreOf s n
  match s.dis.running.get? n.val with
  | some slot => if x.mode = .run ∧ x.handler = true ∧ bit x.trapMode 0 = true ∧ x.trapInfo = w32 (code * 16 + 8) then actOf? s slot else none
  | none => none

/-- Return from the call: w4, w5, and the registers of TRET. -/
def callReturn (s : State) (n : Fin 48) (w4 w5 : Option Word) : State :=
  let x := coreOf s n
  let x := { x with runmode := x.trapMode, pc := x.trapRet }
  let x := (w4.elim x fun v => x.setReg 4 v)
  setCore s n (w5.elim x fun v => x.setReg 5 v)

/-- RING_POST: crew writes the ring's TAIL. -/
def ringPost (s : State) (n : Fin 48) : State :=
  match callOf? s n 1 with
  | none => s
  | some a =>
    match a.rings[((coreOf s n).reg 4).toNat]? with
    | none => callReturn s n (some 1) none
    | some (k, r) =>
      if !rgOn s k r then callReturn s n (some 1) none
      else
        let v := (coreOf s n).reg 5
        let t := ringTail s k r v
        if rgTail t k r = fld v 12 0 then callReturn t n (some 0) none
        else callReturn (takeFree t) n (some 2) (some (Config.freeWord t.com.free))

/-- RING_ACK: crew writes CPL_HEAD. -/
def ringAck (s : State) (n : Fin 48) : State :=
  match callOf? s n 2 with
  | none => s
  | some a =>
    match a.rings[((coreOf s n).reg 4).toNat]? with
    | none => callReturn s n (some 1) none
    | some (k, r) =>
      if !rgOn s k r then callReturn s n (some 1) none
      else
        let v := (coreOf s n).reg 5
        let t := ringCplHead s k r v
        if rgCpl t k r = fld v 12 0 then callReturn t n (some 0) none
        else callReturn (takeFree t) n (some 2) (some (Config.freeWord t.com.free))

/-- Window registers that a 64-byte image carries, in its order: VALUE, MASK, PRIO, RESULT, INDEX. -/
def windowRegs : List Nat := (List.range 13).map (4 * ·)

/-- MATCH_OP: crew runs the operation in the program's partition on the window image in its D-TCM, and writes the image back. -/
def matchCall (s : State) (n : Fin 48) : State :=
  match callOf? s n 3 with
  | none => s
  | some a =>
    let at_ := ((coreOf s n).reg 4).toNat
    let op := ((coreOf s n).reg 5).toNat
    let off := at_ - 0x10000
    let base := 0xA000 + 0x2000 * a.place
    match a.part with
    | none => callReturn s n (some 1) none
    | some w =>
      if at_ < 0x10000 ∨ at_ % 4 ≠ 0 ∨ off < base ∨ base + 0x2000 < off + 64 ∨ op < 1 ∨ 5 < op then callReturn s n (some 1) none
      else
        let img := tcmBytes s n .dtcm off 64
        let s := windowRegs.foldl (fun s o => wr s pMTE (winOff w (MTE_VALUE0 + o)) (w32 (leAt img o 4))) s
        let s := mteOp s w op true
        let out := (List.range 16).flatMap fun i => if i = 13 then (img.drop 52).take 4 else bytesLE 4 (rd s pMTE (winOff w (MTE_VALUE0 + 4 * i))).toNat
        let s := tcmWrite s n .dtcm off out
        let st := fld (rd s pMTE (winOff w MTE_WSTATUS)) 7 0
        if st = 0 then callReturn s n (some 0) none else callReturn s n (some 2) (some (w32 st))

/-- TIME: w4 and w5 receive the sandglass count. -/
def timeCall (s : State) (n : Fin 48) : State :=
  match callOf? s n 4 with
  | none => s
  | some _ => callReturn s n (some (lo32 s.com.time)) (some (hi32 s.com.time))

end Sys2Proof.Machine
end

