-- ==== Sys2Proof/Machine/Rebuild.lean ====
section
/-! DEFINITION. Rebuild of lost dies: substitutes, census, restore, pause, copy-out, and what an apply of STR starts (R249 to R259). -/

namespace Sys2Proof.Machine

/-- Channels that hold a member of a set. -/
def setChannels (e : SetEntry) : List Nat := e.members.map fun m => m.die / 16

/-- FREE blocks of a die (R251). -/
def freeOn (s : State) (d : Nat) : Nat := countBlocks s d fun e => e.state == .free && e.changing.isNone && !e.floor

/-- The substitute die for a lost block of a set: a hot spare with most FREE blocks, else an eligible die with most reserve left; never on a channel of the set (R251). -/
def substituteDie? (s : State) (e : SetEntry) : Option Nat :=
  let ok (d : Nat) : Bool := dieInService s d && !(setChannels e).contains (d / 16) && (allocBlock? s d).isSome
    && decide (modePages s d e.slc ≥ e.pages)
  let hot := (serviceDies s).filter fun d => ok d && hotSpare s d && !s.str.evacuating.contains d
  match minBy? (fun d => 2 ^ 20 - freeOn s d) hot with
  | some d => some d
  | none =>
    minBy? (fun d => 2 ^ 20 - s.str.reserve.getD d 0)
      ((serviceDies s).filter fun d => ok d && dieEligible s d && decide (s.str.reserve.getD d 0 ≠ 0))

/-- Code of REBUILD_SHARE in force. -/
def rebuildShare (s : State) : Nat := inF s pSTR STR_SHARE 7 0

/-- The census of a lost die: every live unit on it by block and page, and its blocks with LIVE above 0 (R254, R255). -/
def censusOf (s : State) (d : Nat) : List (Nat × Nat × Nat × Nat × BitVec 64) :=
  let units := (s.map.entries.filter fun u => hasLocation u.2 && entDie u.2 == d).map fun u =>
    (entBlock u.2, entPage u.2, u.1 / 2 ^ 48, u.1 % 2 ^ 48, u.2)
  sortBy (fun a b => decide (a.1 * 4096 + a.2.1 ≤ b.1 * 4096 + b.2.1)) units

/-- Blocks of a die with LIVE above 0, ascending. -/
def heldBlocksOf (s : State) (d : Nat) : List Nat :=
  ((listedBlocks s d).filter fun e => decide (e.2.live ≠ 0)).map (·.1)

/-- The blocks a lost die's rebuild restores: those with LIVE above 0 at its retirement (R255). -/
def rebuildTodo (s : State) (d : Nat) : List Nat := if (rebuildOf s d).todo.isEmpty then heldBlocksOf s d else (rebuildOf s d).todo

/-- The census walk ends and RESTORE begins (R253, R254); a REBUILD_SHARE of 0 pauses the die instead (R252). -/
def rebuildCensus (s : State) (d : Nat) : State :=
  let r := rebuildOf s d
  if (r.state ≠ .fenced ∧ r.state ≠ .census) ∨ ferryRunning s then s
  else if rebuildShare s = 0 then putRebuild s d { r with state := .paused, prev := .census }
  else
    let todo := rebuildTodo s d
    let r := { r with state := .restore, census := censusOf s d, todo := todo, total := r.done + todo.length }
    if todo.isEmpty then irq (putRebuild s d { r with state := .done }) pSTR 1 else putRebuild s d r

/-- A rebuilding die pauses; NO_SPARE says that no substitute was to be had (R251, R253). -/
def pauseRebuild (s : State) (d : Nat) (noSpare : Bool) : State :=
  let r := rebuildOf s d
  let s := if noSpare then irq (wrB s pSTR STR_STATE 6 true) pSTR 2 else s
  if r.state = .paused then s else putRebuild s d { r with state := .paused, prev := r.state }

/-- Move one live reference to the substitute at its page and slot: journaled, unless the unit has moved since the census (R255 step 6). LIVE does not change, for the unit stays in its stripe (R213). -/
def rebuildRedirect (s : State) (u : Nat × Nat × Nat × Nat × BitVec 64) (nd nb : Nat) : State :=
  let (_, pg, h, un, old) := u
  if sameLocation (entryAt s h un) old then
    let cur := entryAt s h un
    let e := BitVec.ofNat 64 (nd * 2 ^ 54 + nb * 2 ^ 40 + pg * 2 ^ 28 + entF cur 27 0)
    let (s, _) := jIssue s (.redirect .rebuild h un e)
    dirtySegment { s with map := { s.map with entries := s.map.entries.putD (unitKey h un) e trimmed } } h un
  else bump s pMAP MAP_REDIRECT_DROP 1

/-- Move the directory entries of map pages on the lost block (R254). -/
def rebuildDir (s : State) (d b nd nb : Nat) : State :=
  (s.map.dir.filter fun x => hasLocation x.2 && entDie x.2 == d && entBlock x.2 == b).foldl (fun s x =>
    let e := mkEntry nd nb (entPage x.2) 0 256 0
    let s := (jIssue s (.dirUpdate (x.1 / 2 ^ 40) (x.1 % 2 ^ 40) e)).1
    { s with map := { s.map with dir := s.map.dir.putD x.1 e trimmed } }) s

/-- A set's member word takes SUB = 1 and the new die and block (R255 step 5). -/
def substituteMember (s : State) (n : Nat) (e : SetEntry) (d b nd nb : Nat) : State :=
  let i := (e.members.zipIdx.find? fun m : Member × Nat => m.1.die == d && m.1.block == b).elim 0 (·.2)
  let s := sIssue s (.substitute n i d b nd nb)
  putSet s n { e with substituted := true, members := e.members.map fun m : Member =>
    if m.die == d && m.block == b then ⟨true, nd, nb⟩ else m }

/-- Restore one block of a die into a substitute, and redirect its units (R255): Q mismatches count in the bucket, and a page with no single solution is unrecoverable. -/
def restoreBlock (s : State) (d b nd : Nat) (qMismatch solutions : Nat) : State :=
  match allocBlock? s nd, setOf? s d b with
  | some nb, some (n, e) =>
    let bad := (s.str.badParity.filter fun st => st / 4096 == n).length
    let s := (List.range (qMismatch + bad)).foldl (fun s _ => strBucket s) s
    let s := if (qMismatch ≠ 0 ∧ solutions ≠ 1) then unrecoverableStripe s e 0 d else s
    let live := (bstOf s d b).live
    let stamp := (bstOf s d b).closeStamp
    let s := issueBlockState s nd nb .open_ fun x => { x with slc := e.slc, live := live }
    let s := issueBlockState s nd nb .closed fun x => { x with closeStamp := stamp }
    let s := substituteMember s n e d b nd nb
    let s := { s with str := { s.str with
        substitutes := s.str.substitutes ++ [bstKey nd nb], reserve := s.str.reserve.modify nd 0 (· - 1) } }
    let r := rebuildOf s d
    let s := (r.census.filter fun u => u.1 == b).foldl (fun s u => rebuildRedirect s u nd nb) s
    let s := rebuildDir s d b nd nb
    let s := putBst s d b { bstRaw s d b with live := 0, jseqLast := (rd s pMAP MAP_JSEQ_ISSUED).toNat }
    let r := rebuildOf s d
    let r := { r with done := r.done + 1, todo := r.todo.filter (· != b) }
    let s := sIssue s (.rebuildState d r.state.code r.done r.total)
    bumpSince (putRebuild s d r) pSTR STR_SNAP_RB 1
  | _, _ =>
    let r := rebuildOf s d
    putRebuild s d { r with done := r.done + 1, todo := r.todo.filter (· != b) }

/-- The next block of a rebuilding die is restored; a paused die first goes back to the state it was in once its cause has cleared (R253, R255). -/
def rebuildRestore (s : State) (d qMismatch solutions : Nat) : State :=
  let r := rebuildOf s d
  let st := if r.state = .paused then r.prev else r.state
  if st ≠ .restore ∨ ferryRunning s ∨ !jRoom s 65536 ∨ sFull s then s
  else if rebuildShare s = 0 then pauseRebuild s d false
  else match r.todo with
    | [] => irq (putRebuild s d { r with state := .done }) pSTR 1
    | b :: _ =>
      let sub : Option Nat := match setOf? s d b with
        | some (_, e) => substituteDie? s e
        | none => some d
      match sub with
      | none => pauseRebuild s d true
      | some nd =>
        let s := wrB s pSTR STR_STATE 6 false
        let s := restoreBlock (putRebuild s d { r with state := .restore }) d b nd qMismatch solutions
        if (rebuildOf s d).todo.isEmpty then irq (putRebuild s d { rebuildOf s d with state := .done }) pSTR 1 else s

/-- No substitute, or a share of 0, pauses a rebuilding die (R251 to R253). -/
def rebuildPause (s : State) (d : Nat) : State :=
  let r := rebuildOf s d
  if r.state ≠ .restore ∧ r.state ≠ .census ∧ r.state ≠ .copyOut then s
  else if rebuildShare s = 0 then pauseRebuild s d false
  else
    let stuck := match r.todo with
      | [] => false
      | b :: _ => match setOf? s d b with
        | some (_, e) => (substituteDie? s e).isNone
        | none => false
    if stuck then pauseRebuild s d true else s

/-- A request for a rebuild: an in-service die starts COPY_OUT, a paused one resumes (R253, R256, R262). -/
def rebuildRequest (s : State) (d : Nat) : State :=
  let r := rebuildOf s d
  if r.state = .paused then putRebuild s d { r with state := r.prev }
  else if dieInService s d && r.state == .none then
    let todo := heldBlocksOf s d
    let s := closeSetsOn s d
    refreshPlace (putRebuild s d { Rebuild.idle with state := .copyOut, census := censusOf s d, todo := todo, total := todo.length })
  else s

/-- Copy out one block after another, then retire the die with nothing left to rebuild (R256). `fuel` is the number of blocks. -/
def copyOutFrom (d : Nat) : Nat → State → State
  | 0, s => s
  | fuel + 1, s =>
    let r := rebuildOf s d
    match r.todo with
    | [] => s
    | b :: _ =>
      let sub : Option Nat := match setOf? s d b with
        | some (_, e) => substituteDie? s e
        | none => some d
      match sub with
      | none => pauseRebuild s d true
      | some nd => copyOutFrom d fuel (restoreBlock s d b nd 0 1)

/-- COPY_OUT of an in-service die (R256). -/
def copyOut (s : State) (d : Nat) : State :=
  let s := rebuildRequest s d
  if (rebuildOf s d).state ≠ .copyOut ∨ ferryRunning s then s
  else
    let r := rebuildOf s d
    let s := putRebuild s d { r with census := censusOf s d }
    let s := copyOutFrom d r.todo.length s
    if (rebuildOf s d).state = .copyOut ∧ (rebuildOf s d).todo.isEmpty then irq (retireDie s d) pSTR 1 else s

/-- REBUILD_START: a retired die's rebuild begins, or a paused one resumes (R253). -/
def rebuildStart (s : State) (d : Nat) : State :=
  if dieRetired s d && (rebuildOf s d).state == .none then rebuildFence s d else rebuildRequest s d

/-- What an apply of `STR` does beside the copy: a request starts, its bits return to 0, new hot spares that hold blocks evacuate, and verify returns to VERIFY_MODE (R250, R261). -/
def applyStr (s : State) : State :=
  let rq := inForce s pSTR STR_REQUEST
  let clear := rq &&& 0x3FF
  let s := wrForce (wr s pSTR STR_REQUEST clear) pSTR STR_REQUEST clear
  let s := if bit rq 30 then rebuildRequest s (fld rq 9 0) else s
  let s := if bit rq 31 then wholeArrayPass s else s
  let s := { s with str := { s.str with
      verifyAll := false
      evacuating := (serviceDies s).filter fun d => hotSpare s d && decide (heldOn s d ≠ 0) } }
  refreshPool (refreshPlace s)

end Sys2Proof.Machine
end

