-- ==== Sys2Proof/Machine/FaultOps.lean ====
section
/-! DEFINITION. Fatal faults, the retirement of a unit by its page, and commits that a halt ends (R66, R600 to R603). -/

namespace Sys2Proof.Machine

/-- A permanent fault in a block that is no unit of retirement: fetch stops, CSTS.CFS on every controller, `FLT.FATAL`, the FATAL entry and DEV_FAULT_n (R601, R625). -/
def fatalFault (s : State) (page cause unit : Nat) : State :=
  let s := logEvent s { kind := kFATAL, cls := FClass.permanent.code, page := page, cause := cause, unit := unit }
  let s := irq (wr s pFLT FLT_FATAL (w32 (2 ^ 31 + page * 65536 + cause % 4096))) pFLT 0
  { s with
    flt := { s.flt with fetchStopped := true }
    hst := { s.hst with ctls := s.hst.ctls.map fun c => (c.1, { c.2 with cfs := true }) }
    pwr := { s.pwr with pins := { s.pwr.pins with devFault := true } } }

/-- Is the page's block no unit of R600, so that its permanent fault is fatal? The phases of `CLE` are units (R600, R601). -/
def fatalPage (s : State) (p : Nat) : Bool :=
  match pageKind? s.com.chip p with
  | none => false
  | some k => !([PageKind.fch, .dmc, .ncl, .cvn, .lds, .hf, .cle].contains k)

/-- A page's commit that is PENDING or ARMED ends HALTED; no register offends, so UNIT is free (R66, R269 step 1). -/
def haltCommit (s : State) (p : Nat) : State :=
  let st := rd s p rSTAGE_STATUS
  if bit st 31 || bit st 30 then
    let s := wr s p rSTAGE_STATUS (setFld (setFld (st &&& 0x1BFFFFFF) 29 29 1) 19 16 7)
    irq (setFault s p .config 7 (Config.blockCause 27)) p 29
  else s

/-- Every page's waiting commit ends HALTED. -/
def haltCommits (s : State) : State := (allPages.filter fun p => (pageKind? s.com.chip p).isSome).foldl haltCommit s

/-- Retirement of the unit behind a page, fenced and with its work moved; a page that is no unit of R600 is fatal (R600 to R602). -/
def retireUnit (s : State) (p : Nat) (unit : Nat) : State :=
  match pageKind? s.com.chip p with
  | some .fch => if unit < 16 then retireDie s (16 * (p - 0x100) + unit) else retireChannel s (p - 0x100)
  | some .dmc => retireRank s (p - 0x020) (unit % 2) false
  | some .ncl =>
    let c : Clu := ⟨(p - 0x030) % 6, Nat.mod_lt _ (by decide)⟩
    if unit < 8 then retireCore s (coreNo c ⟨unit % 8, Nat.mod_lt _ (by decide)⟩) else retireCluster s c
  | some .cvn => retireCvn s (p - 0x040) false
  | some .lds => retireSoftDecoder s (unit % 8)
  | some .hf =>
    if s.com.chip.split then retirePort s (p == 0x013)
    else logEvent s { kind := kFAULT, cls := FClass.permanent.code, page := p, cause := Config.blockCause 19, unit := unit }
  | some _ => fatalFault s p (Config.blockCause 20) unit
  | none => s

end Sys2Proof.Machine
end

