-- ==== Sys2Proof/Machine/HostAdmin.lean ====
section
/-! DEFINITION. Admin commands on queues, features, namespaces' attachment, resources, erasure and power states, and the controller and partition resets (R113, R114, R120, R137, R140 to R144, R186, R286, R475, R608). -/

namespace Sys2Proof.Machine

/-! ### Queues (R113, R114, R120) -/

/-- Create I/O Completion Queue. -/
def createCq (s : State) (c : HostCmd) : State × Reply :=
  let d := c.sqe
  let q := cdwF d 10 15 0
  let n := cdwF d 10 31 16 + 1
  let x := ctlOf s c.ctl
  if q = 0 ∨ ioQueues s c.ctl < q ∨ (x.cqs.get? q).isSome then (s, .err .sqInvalid)
  else if n < 2 then (s, .err .queueSize)
  else if cdwF d 11 1 1 = 1 ∧ vectorsOf s c.ctl ≤ cdwF d 11 31 16 then (s, .err .vectorInvalid)
  else (putCtl s c.ctl { x with cqs := x.cqs.put q ⟨n, cdwF d 11 31 16, cdwF d 11 1 1 == 1, sqeF d 24 8, 0, 0, true⟩ }, .ok)

/-- Create I/O Submission Queue. -/
def createSq (s : State) (c : HostCmd) : State × Reply :=
  let d := c.sqe
  let q := cdwF d 10 15 0
  let n := cdwF d 10 31 16 + 1
  let x := ctlOf s c.ctl
  if q = 0 ∨ ioQueues s c.ctl < q ∨ (x.sqs.get? q).isSome then (s, .err .sqInvalid)
  else if n < 2 then (s, .err .queueSize)
  else if cdwF d 11 31 16 = 0 ∨ (x.cqs.get? (cdwF d 11 31 16)).isNone then (s, .err .cqInvalid)
  else (putCtl s c.ctl { x with sqs := x.sqs.put q ⟨n, cdwF d 11 31 16, cdwF d 11 2 1, sqeF d 24 8, 0, 0⟩ }, .ok)

/-- Delete I/O Submission Queue: its outstanding commands end. -/
def deleteSq (s : State) (c : HostCmd) : State × Reply :=
  let q := cdwF c.sqe 10 15 0
  let x := ctlOf s c.ctl
  if q = 0 ∨ (x.sqs.get? q).isNone then (s, .err .sqInvalid)
  else
    let mine (y : HostCmd) : Bool := y.ctl == c.ctl && y.q == q
    let s := endAll s mine .sqDeletion
    let s := { s with hst := { s.hst with cmds := s.hst.cmds.filter fun y => !mine y } }
    (showNqe (putCtl s c.ctl { x with sqs := x.sqs.del q }), .ok)

/-- Delete I/O Completion Queue: not while a submission queue uses it. -/
def deleteCq (s : State) (c : HostCmd) : State × Reply :=
  let q := cdwF c.sqe 10 15 0
  let x := ctlOf s c.ctl
  if q = 0 ∨ (x.cqs.get? q).isNone then (s, .err .sqInvalid)
  else if x.sqs.any fun y => y.2.cq == q then (s, .err .queueDeletion)
  else (putCtl s c.ctl { x with cqs := x.cqs.del q }, .ok)

/-! ### Abort, events, self-test (R120) -/

/-- Abort: a command not yet carried out ends with Command Aborted by Abort Command; up to 8 Aborts may be outstanding. -/
def abortCmd (s : State) (c : HostCmd) : State × Reply :=
  let open_ := s.hst.cmds.filter fun y => y.ctl == c.ctl && y.q == 0 && sqeOp y.sqe == 8 && (match y.state with
    | .done _ _ => false
    | _ => true)
  if open_.length > 8 then (s, .err .abortLimit)
  else match s.hst.cmds.find? fun y => y.ctl == c.ctl && y.q == cdwF c.sqe 10 15 0 && y.cid == cdwF c.sqe 10 31 16 && y.id != c.id && (match y.state with
    | .done _ _ => false
    | _ => true) with
    | some y => (endCmd s y .abortRequested 0 [], .done .success 0 [])
    | none => (s, .done .success 1 [])

/-- Asynchronous Event Request: up to 16 wait on a controller. -/
def asyncRequest (s : State) (c : HostCmd) : State × Reply :=
  let n := (s.hst.cmds.filter fun y => y.ctl == c.ctl && y.q == 0 && sqeOp y.sqe == 0x0C && y.state == .waiting).length
  if n ≥ 16 then (s, .err .asyncLimit) else (s, .wait)

/-- Device Self-test: short, extended, or abort; a short test takes 2 minutes. -/
def selfTest (s : State) (c : HostCmd) : State × Reply :=
  let busy := match s.hst.selfTest with
    | some (k, t) => k != 1 || decide ((s.com.time - t).toNat < 120000000000)
    | none => false
  match cdwF c.sqe 10 3 0 with
  | 1 => if busy then (s, .err .selfTest) else ({ s with hst := { s.hst with selfTest := some (1, s.com.time) } }, .ok)
  | 2 => if busy then (s, .err .selfTest) else ({ s with hst := { s.hst with selfTest := some (2, s.com.time) } }, .ok)
  | 0xF => ({ s with hst := { s.hst with selfTest := none } }, .ok)
  | _ => (s, .err .invalidField)

/-! ### Features (R120, R136, R140 to R142, R196, R200) -/

/-- Feature identifiers supported; Keep Alive (0Fh) is not (R120). -/
def featureIds : List Nat := [0x01, 0x02, 0x04, 0x07, 0x08, 0x09, 0x0A, 0x0B, 0x0C, 0x0D, 0x0E]

/-- PS_STATUS follows the power state (R118). -/
def showPower (s : State) : State :=
  let p := s.hst.power
  wr s pNQE NQE_PS_STATUS (w32 (p.cur + (if p.target.isSome then 8 else 0) + min 255 p.steps * 16))

/-- Set the power state. -/
def putPower (s : State) (p : PowerState) : State := showPower { s with hst := { s.hst with power := p } }

/-- A power state is set: PS0 to PS2 at once, PS3 and PS4 by an entry; a set that arrives during an entry starts from the state reached (R140 to R142). -/
def setPower (s : State) (ps : Nat) : State :=
  let p := s.hst.power
  if ps ≤ 2 then irq (putPower s { p with cur := ps, target := none, steps := 0 }) pNQE 1
  else if ferryRunning s then s
  else putPower s { p with target := some ps, steps := 0 }

/-- Host Memory Buffer descriptors: PCIe address 8 bytes, 4 KiB pages 4 bytes, reserved 4 bytes. -/
def hmbList (d : List Byte) : Nat → List (Nat × Nat)
  | 0 => []
  | n + 1 => (sqeF d 0 8, sqeF d 8 4 * 4096) :: hmbList (d.drop 16) n

/-- A part of Set Features that acts beside keeping the value; enabling the Host Memory Buffer starts the window (R196). `data` is the command's buffer. -/
def featureActs (s : State) (c : HostCmd) (fid v : Nat) (data : List Byte) : State × Except NvStatus Nat :=
  match fid with
  | 0x02 => if v % 32 > 4 then (s, .error .invalidField) else (setPower s (v % 32), .ok 0)
  | 0x07 => let n := ioQueues s c.ctl; if n = 0 then (s, .error .invalidField) else (s, .ok ((n - 1) * 65537))
  | 0x0D =>
    if v % 2 = 1 then
      let l := hmbList data (cdw c.sqe 15)
      (whenUp pMAP (fun s => hmwOpen s (l.map (·.2)).sum) { s with com := { s.com with hmb := l } }, .ok 0)
    else (hmwDisable { s with com := { s.com with hmb := [] } }, .ok 0)
  | 0x0E => ({ s with com := { s.com with stamp := some (sqeF data 0 6, s.com.time) } }, .ok 0)
  | _ => (s, .ok 0)

/-- Values the device keeps for the whole subsystem rather than per controller. -/
def featureHome (fid ctl : Nat) : Nat := if fid = 0x02 ∨ fid = 0x0C ∨ fid = 0x0D then 0 else ctl

/-- Set Features. -/
def setFeatures (data : List Byte) (s : State) (c : HostCmd) : State × Reply :=
  let fid := cdwF c.sqe 10 7 0
  let v := cdw c.sqe 11
  if !featureIds.contains fid then (s, .err .invalidField)
  else match featureActs s c fid v data with
    | (s, .error st) => (s, .err st)
    | (s, .ok dw0) =>
      let hc := featureHome fid c.ctl
      let x := ctlOf s hc
      let keep := if fid = 0x0C then v % 2 + 2 * ofBytesLE (data.take 256) else v
      (putCtl s hc { x with feats := x.feats.put fid keep }, .done .success dw0 [])

/-- Get Features: Power Management reports the present state, Timestamp its milliseconds. -/
def getFeatures (s : State) (c : HostCmd) : State × Reply :=
  let fid := cdwF c.sqe 10 7 0
  let v := (ctlOf s (featureHome fid c.ctl)).feats.getD fid 0
  if !featureIds.contains fid then (s, .err .invalidField)
  else match fid with
    | 0x02 => (s, .done .success s.hst.power.cur [])
    | 0x07 => (s, .done .success ((ioQueues s c.ctl - 1) * 65537) [])
    | 0x0C => (s, .done .success (v % 2) (bytesLE 256 (v / 2)))
    | 0x0E => (s, .done .success 0 (bytesLE 6 (stampNow s) ++ [0, 0]))
    | _ => (s, .done .success v [])

/-! ### Attachment and resources (R114, R120, R143) -/

/-- Namespace Attachment: attach or detach the controllers of a list (count, then 2-byte identifiers). -/
def nsAttach (data : List Byte) (s : State) (c : HostCmd) : State × Reply :=
  let nsid := sqeNsid c.sqe
  let l := (List.range (min 2047 (sqeF data 0 2))).map fun i => sqeF data (2 + 2 * i) 2
  match nsAt? s nsid with
  | none => (s, .err .invalidNamespace)
  | some x =>
    if l.any fun k => !ctlExists s k then (s, .err .controllerInvalid)
    else match cdwF c.sqe 10 3 0 with
      | 0 =>
        if l.any fun k => x.attached.contains k then (s, .err .nsAttached)
        else if (!x.shared || partitionMode s) && decide (1 < (x.attached ++ l).length) && !(partitionMode s && (x.attached ++ l).all fun k => ctlFn k == ctlFn (l.headD 0)) then (s, .err .nsPrivate)
        else
          let s := putNs s (nsid - 1) { x with attached := x.attached ++ l }
          ({ s with hst := { s.hst with changedNs := s.hst.changedNs ++ [nsid] } }, .ok)
      | 1 =>
        if l.any fun k => !x.attached.contains k then (s, .err .nsNotAttached)
        else (putNs s (nsid - 1) { x with attached := x.attached.filter fun k => !l.contains k }, .ok)
      | _ => (s, .err .invalidField)

/-- Virtualization Management: flexible queue pairs and vectors of a VF are assigned while it is offline; it comes online with at least 2 and 1 (R114). -/
def virtManage (s : State) (c : HostCmd) : State × Reply :=
  let d := c.sqe
  let k := cdwF d 10 31 16
  let n := cdwF d 11 15 0
  let x := ctlOf s k
  if !ctlExists s k ∨ isPf k ∨ ctlPort k ≠ ctlPort c.ctl then (s, .err .controllerInvalid)
  else match cdwF d 10 3 0 with
    | 7 => (putCtl s k { x with online := false, enabled := false, ready := false }, .ok)
    | 8 =>
      if x.online then (s, .err .controllerState)
      else if cdwF d 10 10 8 = 0 then
        let free := rdF s pNQE NQE_QP_FREE 13 0 + x.vq
        if n > free ∨ (partitionMode s && decide (n > 513)) then (s, .err .resources)
        else (putCtl (wr s pNQE NQE_QP_FREE (w32 (free - n))) k { x with vq := n }, .done .success n [])
      else if cdwF d 10 10 8 = 1 then
        let free := rdF s pNQE NQE_VEC_FREE 11 0 + x.vi
        if n > free ∨ (partitionMode s && decide (n > 128)) then (s, .err .resources)
        else (putCtl (wr s pNQE NQE_VEC_FREE (w32 (free - n))) k { x with vi := n }, .done .success n [])
      else (s, .err .invalidField)
    | 9 => if x.vq < 2 ∨ x.vi < 1 then (s, .err .controllerState) else (putCtl s k { x with online := true }, .ok)
    | _ => (s, .err .invalidField)

/-! ### Directives (R120) -/

/-- Directive Send: Identify (type 0) enables streams; Streams (type 1) releases one stream or the resources. -/
def directiveSend (s : State) (c : HostCmd) : State × Reply :=
  let d := c.sqe
  let h := sqeNsid d - 1
  match nsAt? s (sqeNsid d) with
  | none => (s, .err .invalidNamespace)
  | some x =>
    match cdwF d 11 15 8, cdwF d 11 7 0 with
    | 0, 1 => (putCtl s c.ctl { ctlOf s c.ctl with feats := (ctlOf s c.ctl).feats.put 0x101 (cdwF d 12 0 0) }, .ok)
    | 1, 1 => (putNs s h { x with open_ := x.open_.filter (· != cdwF d 11 31 16) }, .ok)
    | 1, 2 => (putNs s h { x with open_ := [], streams := 0 }, .ok)
    | _, _ => (s, .err .invalidField)

/-- Directive Receive: what Identify and Streams report; Streams allocates up to 16 per namespace. -/
def directiveReceive (s : State) (c : HostCmd) : State × Reply :=
  let d := c.sqe
  let h := sqeNsid d - 1
  match nsAt? s (sqeNsid d) with
  | none => (s, .err .invalidNamespace)
  | some x =>
    match cdwF d 11 15 8, cdwF d 11 7 0 with
    | 0, 1 => (s, .done .success 0 ([3] ++ List.replicate 31 0 ++ [BitVec.ofNat 8 (1 + 2 * (ctlOf s c.ctl).feats.getD 0x101 0)] ++ List.replicate 4063 0))
    | 1, 1 => (s, .done .success 0 (bytesLE 2 16 ++ bytesLE 2 x.open_.length ++ bytesLE 2 (16 - x.streams) ++ List.replicate 10 0 ++ bytesLE 4 0 ++ bytesLE 2 0 ++ bytesLE 2 x.streams ++ List.replicate 8 0))
    | 1, 2 => (s, .done .success 0 (bytesLE 2 x.open_.length ++ x.open_.flatMap (bytesLE 2)))
    | 1, 3 => let n := min 16 (cdwF d 12 15 0); (putNs s h { x with streams := n }, .done .success n [])
    | _, _ => (s, .err .invalidField)

/-! ### Format, Sanitize, locking (R137, R186, R223, R475) -/

/-- Does any unexpired range stand on an affected namespace? (R137) -/
def anyRetained (s : State) (hs : List Nat) : Bool := hs.any fun h => !(rangesOf s (h + 1)).isEmpty

/-- Trim every unit of a namespace. -/
def trimAll (s : State) (h : Nat) : State :=
  match s.hst.ns.get? h with
  | none => s
  | some x => if h < 1024 then mapChange s (.trim ⟨h % 1024, by omega⟩ 0 (cdiv (x.size * x.lba) x.unit)) else s

/-- Cryptographic erase of a namespace: CLEAR and GENERATE its slot, CLEAR every slot its tags resolve to (R475). -/
def cryptoErase (s : State) (h : Nat) : State :=
  let tags := match partOfClass? s 3 with
    | none => []
    | some n => (s.mte.entries.filter fun e : Nat × MatchEntry => e.2.valid && decide (partBase s n ≤ e.1) && decide (e.1 < partBase s n + partSize s n)
        && e.2.value.toNat / 2 ^ 134 % 1024 == h).map fun e : Nat × MatchEntry => fld e.2.result 15 0
  let old := slotOf s h
  let s := tags.foldl (fun s k => (kopEffect s k 4).1) s
  let s := (kopEffect s h 4).1
  let (s, kb) := takeBytes s 64
  let (s, fb) := takeBytes s 4
  putSlot s h { KeySlot.fresh with
    state := .valid, persist := old.persist, type := 1, use := 3, klen := 64, tenant := old.tenant
    gen := nextGen (slotOf s h), fixed := ofBytesLE fb, key := kb, dirty := true }

/-- Are commands of a namespace still to be carried out? (R475: erasure and locking run after they have drained.) -/
def draining (s : State) (c : HostCmd) (hs : List Nat) : Bool :=
  s.hst.cmds.any fun y => y.q != 0 && y.id != c.id && decide (y.id < c.id) && hs.contains (sqeNsid y.sqe - 1) && (y.state == .fetched || y.state == .held)

/-- Handles a command affects: all, or one. -/
def affected (s : State) (nsid : Nat) : List Nat :=
  if nsid = 0xFFFFFFFF ∨ nsid = 0 then s.hst.ns.map (·.1) else if (nsAt? s nsid).isSome then [nsid - 1] else []

/-- LBA bytes and metadata of a format index. -/
def lbaFormat : Nat → Option (Nat × Nat)
  | 0 => some (512, 0) | 1 => some (512, 8) | 2 => some (4096, 0) | 3 => some (4096, 8) | _ => none

/-- Format NVM: secure erase settings 000b to 010b (R120, R186). -/
def formatNvm (s : State) (c : HostCmd) : State × Reply :=
  let d := c.sqe
  let hs := affected s (sqeNsid d)
  let ses := cdwF d 10 11 9
  match lbaFormat (cdwF d 10 3 0) with
  | none => (s, .err .invalidNamespace)
  | some (lba, m) =>
    if hs.isEmpty then (s, .err .invalidNamespace)
    else if ses > 2 ∨ cdwF d 10 7 5 > 3 ∨ (cdwF d 10 7 5 ≠ 0 ∧ m = 0) then (s, .err .invalidField)
    else if anyRetained s hs then (s, .err .retentionLocked)
    else if mapStopped s then (s, .err .writeProtected)
    else if draining s c hs then (s, .later)
    else
      let s := hs.foldl (fun s h =>
        let s := trimAll s h
        let s := if ses = 2 then cryptoErase s h else s
        match s.hst.ns.get? h with
        | none => s
        | some x => putNs s h { x with size := x.size * x.lba / lba, lba := lba, meta_ := m, pi := cdwF d 10 7 5 }) s
      (setSpares s, .ok)

/-- Sanitize: block erase (2) and crypto erase (4); overwrite is not supported (R120). -/
def sanitize (s : State) (c : HostCmd) : State × Reply :=
  let act := cdwF c.sqe 10 2 0
  let hs := s.hst.ns.map (·.1)
  if act ≠ 2 ∧ act ≠ 4 ∧ act ≠ 1 then (s, .err .invalidField)
  else if act = 1 then (s, .ok)
  else if anyRetained s hs then (s, .err .retentionLocked)
  else if mapStopped s then (s, .err .writeProtected)
  else if draining s c hs then (s, .later)
  else
    let s := hs.foldl (fun s h => let s := trimAll s h; if act = 4 then cryptoErase s h else s) s
    ({ s with hst := { s.hst with sanitized := (s.hst.sanitized.1 + 1, act) } }, .ok)

/-- What an Opal or Key Per I/O message does to a locking object (R475). LOCK runs after the namespace's commands have drained. -/
def opal (act : OpalAct) (s : State) (c : HostCmd) : State × Reply :=
  match act with
  | .none => (s, .ok)
  | .lock h => if draining s c [h.val] then (s, .later) else ((kopEffect s h.val 7).1, .ok)
  | .unlock h => ((kopEffect s h.val 8).1, .ok)
  | .genKey h => if draining s c [h.val] then (s, .later) else (cryptoErase s h.val, .ok)

/-! ### Power states (R140 to R142) -/

/-- One atomic step of an entry; the last one reaches the state (R141). -/
def powerStep (s : State) (last : Bool) : State :=
  let p := s.hst.power
  match p.target with
  | none => s
  | some t =>
    if ferryRunning s then putPower s { p with target := none }
    else if last then irq (putPower s { p with cur := t, target := none, steps := p.steps + 1 }) pNQE 1
    else putPower s { p with steps := p.steps + 1 }

/-- A command or a wake returns the device to PS0 by the exit of the steps done so far (R141). -/
def powerExit (s : State) : State :=
  let p := s.hst.power
  if p.target.isNone ∧ p.cur ≤ 2 then s
  else irq (putPower s ⟨0, none, 0, s.com.time⟩) pNQE 1

/-- Autonomous transition: entry 32 of the APST table gives the next state [7:3] and the idle milliseconds [31:8] of the present one (R140). -/
def apst (s : State) : State :=
  let v := (ctlOf s 0).feats.getD 0x0C 0
  let p := s.hst.power
  let e := v / 2 / 2 ^ (64 * p.cur) % 2 ^ 64
  let ps := e / 8 % 32
  let ms := e / 256 % 2 ^ 24
  if v % 2 = 1 ∧ 3 ≤ ps ∧ ps ≤ 4 ∧ ms ≠ 0 ∧ p.target.isNone ∧ p.cur < ps ∧ s.hst.cmds.isEmpty ∧ ms * 1000000 ≤ (s.com.time - p.idleSince).toNat then setPower s ps
  else s

/-! ### Controllers (R144, R286, R608) -/

/-- The host sets CC.EN to 1 with its admin queue sizes; CSTS.RDY follows I/O-ready (R286). -/
def enableCtl (s : State) (c ams asq acq : Nat) : State :=
  let x := ctlOf s c
  if !ctlExists s c || (!isPf c && !x.online) || x.enabled || !(linkOf s (ctlPort c)).up || decide (asq < 2) || decide (acq < 2) then s
  else putCtl s c { x with
    enabled := true, ready := s.fer.ioReady, ams := ams, sqs := [(0, ⟨min 4096 asq, 0, 0, 0, 0, 0⟩)], cqs := [(0, ⟨min 4096 acq, 0, true, 0, 0, 0, true⟩)] }

/-- CSTS.RDY of every enabled controller once I/O-ready holds (R286). -/
def readyCtls (s : State) : State :=
  { s with hst := { s.hst with ctls := s.hst.ctls.map fun c => (c.1, if c.2.enabled && s.fer.ioReady then { c.2 with ready := true } else c.2) } }

/-- Reset of one controller: queues, outstanding commands and feature values go (R608 scope 0x4); flexible resources stay assigned. -/
def resetCtl (s : State) (c : Nat) : State :=
  let s := endAll s (fun y => y.ctl == c) .sqDeletion
  let x := ctlOf s c
  showNqe (putCtl { s with hst := { s.hst with cmds := s.hst.cmds.filter fun y => y.ctl != c } } c
    { Ctrl.fresh with online := x.online, vq := x.vq, vi := x.vi })

/-- A configuration request: NumVFs is refused above PART_COUNT in partition mode (R144); until step 5 of the boot the answer is Configuration Request Retry Status (R634). -/
def configRequest (s : State) (p : Bool) (booted : Bool) (r : ConfigReq) : State :=
  if !booted then answer s .held
  else match r with
    | .read => answer s (.data [])
    | .write => answer s .ack
    | .numVfs n =>
      if partitionMode s && decide (inF s pNQE NQE_TENANCY 20 16 < n.val) then answer s (.refused cNOT_PERMITTED)
      else
        let old := numVfs s p
        let s := (List.range (old - n.val)).foldl (fun s i => resetCtl s ((if p then 64 else 0) + n.val + 1 + i)) s
        answer (wrF s (pHF p) HF_FN_STATUS 5 0 n.val) .ack

end Sys2Proof.Machine
end

