-- ==== Sys2Proof/Machine/Scan.lean ====
section
/-! DEFINITION. The scan service (R33, R502 to R506). Segments run one after another in segment order; the timing of R503's parallel jobs is left out. -/

namespace Sys2Proof.Machine

/-- The header and parameters of an Execute Program on a service index: none when the command belongs to another row. -/
def serviceParams (s : State) (c : HostCmd) (data : List Byte) (index : Nat) : Option (Except NvStatus (List Byte)) :=
  match nsAt? s (sqeNsid c.sqe) with
  | some x =>
    if x.kind ≠ .compute ∨ execIndex c.sqe ≠ index then none
    else some (match paramHeader c data 11 with
      | .ok ph => .ok ph.params
      | .error st => .error st)
  | none => none

/-- Range `i` of the command's memory range set. -/
def rangeOf? (s : State) (key i : Nat) : Option MemRange := (s.prg.sets.getD key [])[i]?

/-- Is [off, off + n) inside a range? -/
def insideRange (s : State) (key i off n : Nat) : Bool := (rangeOf? s key i).any fun r => decide (off + n ≤ r.len)

/-- Write bytes into a range at an offset. -/
def rangeWrite (s : State) (key i off : Nat) (b : List Byte) : State :=
  match rangeOf? s key i with
  | some r => slmWrite s r.ns (r.off + off) b
  | none => s

/-- Segments of a range in LBA order, the last possibly shorter (R503). -/
def cutSegments (first per : Nat) : Nat → Nat → List Segment
  | 0, _ => []
  | fuel + 1, n => if n = 0 then [] else ⟨first, min per n, none, 0, 0⟩ :: cutSegments (first + min per n) per fuel (n - min per n)

/-- The summary's bytes (R506). -/
def summaryBytes (x : Namespace) (sc : Scan) (code detail : Nat) : List Byte :=
  let failed := (sc.segs.filter fun g => g.status == some 1 || g.status == some 2).length
  let next := sc.full.getD (sc.slba + sc.nlb)
  bytesLE 4 code ++ bytesLE 4 sc.segs.length ++ bytesLE 8 sc.out ++ bytesLE 8 next ++ bytesLE 8 sc.read ++ bytesLE 8 sc.trimmed ++ bytesLE 4 failed
    ++ bytesLE 1 detail ++ List.replicate 19 0 ++ fit 544 sc.agg
    ++ sc.segs.flatMap fun g => bytesLE 8 (g.first * x.unit / x.lba) ++ bytesLE 4 g.outBytes ++ bytesLE 1 (g.status.getD 3) ++ [0] ++ bytesLE 2 g.failing

/-- A scan ends: the summary is written and the command completes Success with the code in DW0. -/
def endScan (s : State) (sc : Scan) (code detail : Nat) : State :=
  match nsAt? s sc.nsid, cmdOf? s sc.cmd with
  | some x, some c =>
    let s := rangeWrite s sc.rset sc.sumRange sc.sumOff (summaryBytes x sc code detail)
    let s := putPrg s { s.prg with scans := s.prg.scans.filter fun y => y.cmd != sc.cmd }
    endCmd s c .success code []
  | _, _ => putPrg s { s.prg with scans := s.prg.scans.filter fun y => y.cmd != sc.cmd }

/-- Scan service: parameters, the filter program's check, and the segments (R502, R503). -/
def scanService (data : List Byte) (s : State) (c : HostCmd) : State × Reply :=
  let d := c.sqe
  match serviceParams s c data 0 with
  | none => (s, .later)
  | some (.error st) => (s, .err st)
  | some (.ok p) =>
    let nsid := leAt p 0 4
    let per := leAt p 4 4
    let slba := leAt p 8 8
    let nlb := leAt p 16 8
    let bad := (s, Reply.done .success 1 [])
    let key := execSet d
    if p.length ≠ 64 then bad
    else match nsAt? s nsid with
      | none => bad
      | some x =>
        let bpu := x.unit / max 1 x.lba
        let segs := cutSegments (slba / max 1 bpu) per (nlb + 1) (nlb / max 1 bpu)
        if x.kind ≠ .nvm ∨ !x.attached.contains c.ctl ∨ per < 1 ∨ 1024 < per ∨ slba % bpu ≠ 0 ∨ nlb % bpu ≠ 0 ∨ slba + nlb > x.size ∨ !zerosAt p 27 5
            ∨ leAt p 56 8 % 64 ≠ 0 ∨ !insideRange s key (bAt p 24) (leAt p 32 8) 2048 ∨ !insideRange s key (bAt p 25) (leAt p 40 8) (leAt p 48 8)
            ∨ !insideRange s key (bAt p 26) (leAt p 56 8) (608 + 16 * segs.length) then bad
        else if nlb = 0 then (s, .ok)
        else
          let r := (rangeOf? s key (bAt p 24)).getD ⟨0, 0, 0⟩
          match slmRead s r.ns (r.off + leAt p 32 8) 2048 with
          | (s, none) => (s, .err .unrecoveredRead)
          | (s, some prog) =>
            let sc : Scan :=
              { cmd := c.id, nsid := nsid, slba := slba, nlb := nlb, rset := key, destRange := bAt p 25, destOff := leAt p 40 8, destLen := leAt p 48 8
                sumRange := bAt p 26, sumOff := leAt p 56 8, prog := prog, segs := segs, out := 0, full := none, read := 0, trimmed := 0, agg := [] }
            match checkProg prog (inSetOk s none) with
            | some det => (rangeWrite s key sc.sumRange sc.sumOff (summaryBytes x sc 4 det), .done .success 4 [])
            | none => (putPrg s { s.prg with scans := s.prg.scans ++ [sc] }, .wait)

/-- The stream of a segment, unit by unit: aggregates, output, or the failing unit with its status (R503, R504). A record may cross units while its bytes fit the carry. -/
def scanUnits (f : FProg) (hit : Nat → BitVec 160 → Bool) : List (Nat × List Byte) → FOut → Nat → Except (Nat × Nat) FOut
  | [], o, last => if o.carry.isEmpty then .ok o else if f.tailSkip then
      .ok { o with st := { o.st with tailSkipped := o.st.tailSkipped + o.carry.length }, carry := [] } else .error (last, 2)
  | (i, b) :: rest, o, _ =>
    let inp := o.carry ++ b
    let o := filterStream f true true hit (inp.length + 1) inp { o with carry := [] }
    if o.malformed || (decide (256 < o.carry.length) && !rest.isEmpty) then .error (i, 2) else scanUnits f hit rest o i

/-- Read the units of a segment: trimmed ones add nothing; the first that fails ends it. Units read, trimmed, and their bytes by place in the segment. -/
def scanRead (s : State) (x : Namespace) (h : Nat) : List (Nat × Nat) → List (Option FlashUnit) → Nat → Nat → List (Nat × List Byte) → State × (Nat × Nat × Except (Nat × Nat) (List (Nat × List Byte)))
  | [], _, rd, tr, acc => (s, rd, tr, .ok acc.reverse)
  | (i, u) :: rest, fl, rd, tr, acc =>
    if (wbNewest? s h u).isNone && entryAt s h u == trimmed then scanRead s x h rest (fl.drop 1) rd (tr + 1) acc
    else match readUnit s x h u h none (fl.headD none) with
      | (s, .ok b) => scanRead s x h rest (fl.drop 1) (rd + 1) tr ((i, b) :: acc)
      | (s, .error .internalError) => (s, rd + 1, tr, .error (i, 2))
      | (s, .error _) => (s, rd + 1, tr, .error (i, 1))

/-- Combine a segment's aggregate into the one so far (R505): the earlier segment wins a tie. -/
def combineAgg (func type : Nat) (a b : FAgg) : FAgg :=
  let flags := ((a.flags ||| b.flags) / 2 * 2) + (if a.flags.testBit 0 && b.flags.testBit 0 then 1 else 0)
  let n := a.included + b.included
  if b.flags.testBit 0 ∧ func ≠ 0 then { a with flags := flags, included := n }
  else if a.flags.testBit 0 ∧ func ≠ 0 then { b with flags := flags, included := n }
  else if func = 0 then ⟨(a.value + b.value) % 2 ^ 128, n, flags⟩
  else if func = 1 then
    if type = 5 ∨ type = 6 then ⟨f64Add a.value b.value, n, flags⟩ else ⟨toField 128 (sgn 128 a.value + sgn 128 b.value), n, flags⟩
  else
    let less : Bool :=
      if type = 5 ∨ type = 6 then decide (f64Key b.value < f64Key a.value)
      else if type = 0 then decide (lexCmp (bytesLE 16 b.value) (bytesLE 16 a.value) < 0)
      else if type = 2 ∨ type = 4 ∨ type = 7 then decide (sgn 64 b.value < sgn 64 a.value)
      else decide (b.value < a.value)
    let better := if func = 2 then less else !less && b.value != a.value
    ⟨if better then b.value else a.value, n, flags⟩

/-- The combined aggregates and counters after one more segment. -/
def combine (f : FProg) (agg : List Byte) (st : FState) : List Byte :=
  let old := fit 544 agg
  let ags := (f.aggs.zip st.aggs).zipIdx.map fun a =>
    let t := (f.cols[a.1.1.2]?).elim 0 (·.type)
    let prev := if agg.isEmpty then FAgg.zero else FAgg.read ((old.drop (32 * a.2)).take 32)
    FAgg.write (combineAgg a.1.1.1 t prev a.1.2)
  let cnt (i v : Nat) : List Byte := bytesLE 8 (leAt old (512 + 8 * i) 8 + v)
  fit 512 ags.flatten ++ cnt 0 st.recordsIn ++ cnt 1 st.passed ++ cnt 2 st.tailSkipped ++ cnt 3 st.badValues

/-- Replace a scan. -/
def putScan (s : State) (sc : Scan) : State := putPrg s { s.prg with scans := s.prg.scans.map fun y => if y.cmd == sc.cmd then sc else y }

/-- Set segment `i` of a scan. -/
def setSegment (sc : Scan) (i : Nat) (g : Segment) : Scan := { sc with segs := sc.segs.zipIdx.map fun p => if p.2 == i then g else p.1 }

/-- End the scan once every segment has ended; after OUTPUT_FULL the rest are not run (R505, R506). -/
def scanSettle (s : State) (sc : Scan) : State :=
  let s := putScan s sc
  if sc.full.isSome then endScan s { sc with segs := sc.segs.map fun g => if g.status.isNone then { g with status := some 3 } else g } 2 0
  else if sc.segs.any fun g => g.status.isNone then s
  else endScan s sc (if sc.segs.any fun g => g.status == some 1 || g.status == some 2 then 3 else 0) 0

/-- A segment fails: its stream, staged output and partial aggregates are dropped, and the scan goes on (R504). -/
def segmentFail (s : State) (cmd seg unit status : Nat) : State :=
  match s.prg.scans.find? fun y => y.cmd == cmd with
  | none => s
  | some sc =>
    match sc.segs[seg]? with
    | none => s
    | some g => if g.status.isSome || decide (g.units ≤ unit) then s else scanSettle s (setSegment sc seg { g with status := some status, failing := unit })

/-- The next segment in order finishes and its output is copied to DEST, or it fails (R503 to R505). `flash` follows its units. -/
def scanCopy (s : State) (cmd : Nat) (flash : List (Option FlashUnit)) : State :=
  match s.prg.scans.find? fun y => y.cmd == cmd with
  | none => s
  | some sc =>
    match sc.segs.findIdx? (·.status.isNone), nsAt? s sc.nsid with
    | some i, some x =>
      let g := (sc.segs[i]?).getD ⟨0, 0, none, 0, 0⟩
      let us := (List.range g.units).map fun k => (k, g.first + k)
      match scanRead s x (sc.nsid - 1) us flash 0 0 [] with
      | (s, rd, tr, .error (u, st)) => scanSettle s (setSegment { sc with read := sc.read + rd, trimmed := sc.trimmed + tr } i { g with status := some st, failing := u })
      | (s, rd, tr, .ok bytes) =>
        let f := readProg sc.prog
        let hit (p : Nat) (k : BitVec 160) : Bool := (winner (matching s p k)).isSome
        match scanUnits f hit bytes ⟨FState.zero f.aggs.length, [], [], [], false⟩ 0 with
        | .error (u, st) => scanSettle s (setSegment { sc with read := sc.read + rd, trimmed := sc.trimmed + tr } i { g with status := some st, failing := u })
        | .ok o =>
          let s := o.lookups.foldl (fun s l => (matchLookup s l.1 l.2).1) s
          let sc := { sc with read := sc.read + rd, trimmed := sc.trimmed + tr }
          if sc.out + o.out.length > sc.destLen then scanSettle s { sc with full := some (g.first * x.unit / x.lba) }
          else
            let s := rangeWrite s sc.rset sc.destRange (sc.destOff + sc.out) o.out
            scanSettle s (setSegment { sc with out := sc.out + o.out.length, agg := combine f sc.agg o.st } i { g with status := some 0, outBytes := o.out.length })
    | _, _ => s

end Sys2Proof.Machine
end

