-- ==== Sys2Proof/Machine/KeyValue.lean ====
section
/-! DEFINITION. The key-value service and the secondary indexes (R507 to R512). Field places of the Key Value commands are NVMe's own (see the assumption log). -/

namespace Sys2Proof.Machine

/-! ### Layout (R507, R508) -/

/-- Buckets for a capacity: the smallest power of two at or above ⌈C ÷ 256 KiB⌉. -/
def kvBuckets (cap : Nat) : Nat :=
  let n := cdiv cap 262144
  ((List.range 64).find? fun k => decide (n ≤ 2 ^ k)).elim 1 (2 ^ ·)

/-- The KV space of a namespace handle. -/
def kvOf (s : State) (h : Nat) : KvSpace := s.prg.kv.getD h ⟨0, 1, [], []⟩

/-- Set it. -/
def putKv (s : State) (h : Nat) (k : KvSpace) : State := putPrg s { s.prg with kv := s.prg.kv.put h k }

/-- The bucket of a key: CRC-32C(key) mod NB. -/
def bucketOf (k : KvSpace) (key : List Byte) : Nat := crc32c key % max 1 k.nb

/-- Entries in use of a bucket. -/
def bucketEntries (k : KvSpace) (b : Nat) : List KvEntry := k.buckets.getD b []

/-- The entry of a key. -/
def entryOfKey? (k : KvSpace) (key : List Byte) : Option KvEntry := (bucketEntries k (bucketOf k key)).find? fun e => e.key == key

/-- Value units of an entry's half. -/
def valueUnits (k : KvSpace) (b : Nat) (e : KvEntry) (half : Bool) (n : Nat) : List Nat :=
  (List.range n).map fun i => k.nb + 128 * (127 * b + e.slot) + (if half then 64 else 0) + i

/-- A bucket unit's bytes. -/
def bucketBytes (gen : Nat) (l : List KvEntry) : List Byte :=
  let hdr := bytesLE 4 0x4B564231 ++ bytesLE 2 l.length ++ [0, 0] ++ bytesLE 8 gen ++ List.replicate 16 0
  hdr ++ (List.range 127).flatMap fun i => match l.find? fun e => e.slot == i with
    | some e => bytesLE 1 e.key.length ++ bytesLE 1 (if e.half then 1 else 0) ++ [0, 0] ++ bytesLE 4 e.vlen ++ List.replicate 8 0 ++ fit 16 e.key
    | none => List.replicate 32 0

/-- Units written: value units of every entry and buckets written. -/
def kvUnits (k : KvSpace) : Nat := k.gens.length + ((k.buckets.map fun b => (b.2.map fun e => cdiv e.vlen 4096).sum).sum)

/-! ### Hot keys (R456, R510) -/

/-- The class 4 key. -/
def hotKey (h : Nat) (key : List Byte) : BitVec 160 := BitVec.ofNat 160 (h * 2 ^ 150 + key.length * 2 ^ 144 + ofBytesLE (fit 16 key).reverse * 2 ^ 16)

/-- Look a key up in the hot partition; a hit becomes the most recently used. -/
def hotLookup (s : State) (h : Nat) (key : List Byte) : State × Bool :=
  match classLookup s 4 (hotKey h key) with
  | (s, some _) =>
    let mine := s.prg.hot.filter fun e => e.2.1 == h && e.2.2 == key
    (putPrg s { s.prg with hot := (s.prg.hot.filter fun e => !(e.2.1 == h && e.2.2 == key)) ++ mine }, true)
  | (s, none) => (s, false)

/-- Invalidate a key's hot entry: was it there? -/
def hotDrop (s : State) (h : Nat) (key : List Byte) : State × Bool :=
  match s.prg.hot.find? fun e => e.2.1 == h && e.2.2 == key with
  | none => (s, false)
  | some (i, _) => (putPrg (putMatch s i MatchEntry.fresh) { s.prg with hot := s.prg.hot.filter fun e => !(e.2.1 == h && e.2.2 == key) }, true)

/-- Enter a key, in place of the least recently used hot key when the partition is full. -/
def hotEnter (s : State) (h : Nat) (key : List Byte) : State :=
  match partOfClass? s 4 with
  | none => s
  | some n =>
    let free := ((List.range (partSize s n)).map (partBase s n + ·)).find? fun i => !(matchEntry s i).valid
    let put (s : State) (i : Nat) : State :=
      let e : MatchEntry := ⟨hotKey h key, BitVec.ofNat 160 (2 ^ 160 - 2 ^ 16), 0, w32 (i - partBase s n), true⟩
      putPrg (putMatch s i e) { s.prg with hot := s.prg.hot ++ [(i, h, key)] }
    match free with
    | some i => put s i
    | none => match s.prg.hot with
      | [] => s
      | (i, _) :: rest => put (putPrg s { s.prg with hot := rest }) i

/-! ### Secondary indexes (R511, R512) -/

/-- The order of two field values of a TYPE (R446): negative, zero or positive. -/
def fieldCmp (type : Nat) (a b : List Byte) : Int :=
  let n := 8 * a.length
  match type with
  | 0 => lexCmp a b
  | 1 => (ofBytesLE a : Int) - ofBytesLE b
  | 2 => sgn n (ofBytesLE a) - sgn n (ofBytesLE b)
  | 3 => (ofBytesLE a.reverse : Int) - ofBytesLE b.reverse
  | _ => sgn n (ofBytesLE a.reverse) - sgn n (ofBytesLE b.reverse)

/-- Does an index entry come at or before another: by field, then by key bytes? -/
def indexLe (type : Nat) (a b : List Byte × List Byte) : Bool :=
  decide (fieldCmp type a.1 b.1 < 0) || (fieldCmp type a.1 b.1 == 0 && decide (lexCmp a.2 b.2 ≤ 0))

/-- The field of a value; none when the value is too short. -/
def fieldOf? (x : SecIndex) (value : List Byte) : Option (List Byte) := if value.length < x.off + x.width then none else some ((value.drop x.off).take x.width)

/-- Entries of every index. -/
def indexTotal (s : State) : Nat := (s.prg.indexes.map fun e => e.2.entries.length).sum

/-- Set an index. -/
def putIndex (s : State) (i : Nat) (x : SecIndex) : State := putPrg s { s.prg with indexes := s.prg.indexes.put i x }

/-- A Store or Delete of a key updates every index of its namespace; past 8 GiB at 48 bytes an entry the index stops (R511, R512). -/
def indexUpdate (s : State) (h : Nat) (key : List Byte) (value : Option (List Byte)) : State :=
  s.prg.indexes.foldl (fun s e =>
    let x := e.2
    if x.ns ≠ h ∨ x.above then s
    else
      let rest := x.entries.filter fun p => p.2 != key
      match value.bind (fieldOf? x) with
      | none => putIndex s e.1 { x with entries := rest }
      | some f =>
        if (indexTotal s - x.entries.length + rest.length + 1) * 48 > 8 * 2 ^ 30 then putIndex s e.1 { x with above := true }
        else putIndex s e.1 { x with entries := insertBy (indexLe x.type) (f, key) rest }) s

/-! ### KV commands (R509) -/

/-- KL and the options byte of dword 11, and the key in dwords 2, 3, 14 and 15. -/
def kvKeyLen (d : List Byte) : Nat := cdwF d 11 7 0
/-- Options. -/
def kvOpt (d : List Byte) (i : Nat) : Bool := (cdwF d 11 15 8).testBit i
/-- The key. -/
def kvKey (d : List Byte) : List Byte := (((d.drop 8).take 8) ++ ((d.drop 56).take 8)).take (kvKeyLen d)

/-- The checks every KV command begins with: its namespace, key length, and fetch order of commands whose keys share a bucket. -/
def kvChecks (s : State) (c : HostCmd) : Except Reply (Namespace × KvSpace) :=
  match nsAt? s (sqeNsid c.sqe) with
  | none => .error (.err .invalidNamespace)
  | some x =>
    let k := kvOf s (sqeNsid c.sqe - 1)
    if x.kind ≠ .kv then .error .later
    else if kvKeyLen c.sqe < 1 ∨ 16 < kvKeyLen c.sqe then .error (.err .keySize)
    else
      let b := bucketOf k (kvKey c.sqe)
      let before := s.hst.cmds.any fun y => decide (y.id < c.id) && y.q != 0 && (y.state == .fetched || y.state == .held) && sqeNsid y.sqe == sqeNsid c.sqe
        && [0x01, 0x02, 0x10, 0x14].contains (sqeOp y.sqe) && bucketOf k (kvKey y.sqe) == b
      if before then .error .later else .ok (x, k)

/-- Write a bucket with new entries: the unit whole and never compressed, GEN one more (R507, R508). -/
def writeBucket (s : State) (x : Namespace) (h b : Nat) (l : List KvEntry) : State × Bool :=
  let k := kvOf s h
  let gen := k.gens.getD b 0 + 1
  match enterUnits s { x with compress := false } h h none false (fun _ => false) [(b, bucketBytes gen l)] with
  | (s, true) => (putKv s h { k with gens := k.gens.put b gen, buckets := k.buckets.putD b l [] }, true)
  | (s, false) => (s, false)

/-- Store (R509). -/
def kvStore (data : List Byte) (s : State) (c : HostCmd) : State × Reply :=
  let d := c.sqe
  let h := sqeNsid d - 1
  match kvChecks s c with
  | .error r => (s, r)
  | .ok (x, k) =>
    let key := kvKey d
    let b := bucketOf k key
    let l := bucketEntries k b
    let old := entryOfKey? k key
    let slot := match old with
      | some e => some e.slot
      | none => (List.range 127).find? fun i => !(l.any fun e => e.slot == i)
    let n := cdiv data.length 4096
    if cdw d 10 > 262144 then (s, .err .valueSize)
    else if data.length ≠ cdw d 10 then (s, .err .sglLength)
    else if kvOpt d 0 && old.isNone then (s, .err .keyMissing)
    else if kvOpt d 1 && old.isSome then (s, .err .keyExists)
    else match slot with
      | none => (s, .err .capacityExceeded)
      | some slot =>
        let e : KvEntry := ⟨slot, key, old.elim false fun o => !o.half, data.length⟩
        let l' := (l.filter fun o => o.slot != slot) ++ [e]
        let after := { k with buckets := k.buckets.putD b l' [], gens := k.gens.put b 1 }
        if kvUnits after > k.capacity / 4096 then (s, .err .capacityExceeded)
        else if !roomNow s ((n + 1) * 4096) then (s, .later)
        else
          let (s, was) := hotDrop s h key
          let us := valueUnits k b e e.half n
          match enterUnits s x h h none false (fun _ => false) (us.zipIdx.map fun u => (u.1, fit 4096 ((data.drop (4096 * u.2)).take 4096))) with
          | (s, false) => (s, .err .internalError)
          | (s, true) =>
            match writeBucket s x h b l' with
            | (s, false) => (s, .err .internalError)
            | (s, true) =>
              let s := match old with
                | some o => trimUnits s h (valueUnits k b o o.half (cdiv o.vlen 4096))
                | none => s
              let s := if was then hotEnter s h key else s
              (indexUpdate s h key (some data), .ok)

/-- Retrieve (R509, R510): `flash` follows the value's units. -/
def kvRetrieve (flash : List (Option FlashUnit)) (s : State) (c : HostCmd) : State × Reply :=
  let d := c.sqe
  let h := sqeNsid d - 1
  match kvChecks s c with
  | .error r => (s, r)
  | .ok (x, k) =>
    let key := kvKey d
    let (s, hot) := hotLookup s h key
    match entryOfKey? k key with
    | none => (s, .err .keyMissing)
    | some e =>
      let s := if hot then s else hotEnter s h key
      let want := min e.vlen (cdw d 10)
      match readUnits s x h h none (valueUnits k (bucketOf k key) e e.half (cdiv want 4096)) flash with
      | (s, .error (_, st)) => (s, .err st)
      | (s, .ok us) => (s, .done .success e.vlen ((us.flatMap (·.2)).take want))

/-- Delete (R509). -/
def kvDelete (s : State) (c : HostCmd) : State × Reply :=
  let h := sqeNsid c.sqe - 1
  match kvChecks s c with
  | .error r => (s, r)
  | .ok (x, k) =>
    let key := kvKey c.sqe
    let b := bucketOf k key
    match entryOfKey? k key with
    | none => (s, .err .keyMissing)
    | some e =>
      if !roomNow s 4096 then (s, .later)
      else
        let (s, _) := hotDrop s h key
        match writeBucket s x h b ((bucketEntries k b).filter fun o => o.slot != e.slot) with
        | (s, false) => (s, .err .internalError)
        | (s, true) =>
          let s := trimUnits (trimUnits s h (valueUnits k b e false 64)) h (valueUnits k b e true 64)
          (indexUpdate s h key none, .ok)

/-- Exist (R509). -/
def kvExist (s : State) (c : HostCmd) : State × Reply :=
  match kvChecks s c with
  | .error r => (s, r)
  | .ok (_, k) => if (entryOfKey? k (kvKey c.sqe)).isSome then (s, .ok) else (s, .err .keyMissing)

/-- Every key of a namespace in bucket order, then entry order. -/
def kvOrder (k : KvSpace) : List (List Byte) := k.buckets.flatMap fun b => (sortBy (fun a c : KvEntry => decide (a.slot ≤ c.slot)) b.2).map (·.key)

/-- The keys that fit a list buffer: a count of 4 bytes, then each key with its length of 2 bytes, padded to 4. -/
def keyList (room : Nat) (l : List (List Byte)) : List Byte :=
  let one (key : List Byte) : List Byte := bytesLE 2 key.length ++ key ++ List.replicate ((4 - (2 + key.length) % 4) % 4) 0
  let (n, b) := l.foldl (fun (acc : Nat × List Byte) key => if 4 + acc.2.length + (one key).length ≤ room then (acc.1 + 1, acc.2 ++ one key) else acc) (0, [])
  bytesLE 4 n ++ b

/-- List (R509): starting after the given key. -/
def kvList (s : State) (c : HostCmd) : State × Reply :=
  let d := c.sqe
  match nsAt? s (sqeNsid d) with
  | none => (s, .err .invalidNamespace)
  | some x =>
    let k := kvOf s (sqeNsid d - 1)
    let all := kvOrder k
    if x.kind ≠ .kv then (s, .later)
    else if kvKeyLen d > 16 then (s, .err .keySize)
    else if kvKeyLen d = 0 then (s, .done .success 0 (keyList (cdw d 10) all))
    else match all.findIdx? (· == kvKey d) with
      | none => (s, .err .keyMissing)
      | some i => (s, .done .success 0 (keyList (cdw d 10) (all.drop (i + 1))))

/-! ### Index commands (R511, R512) -/

/-- Parameters of an index command of an OP: none when the command belongs to another row. -/
def indexParams (s : State) (c : HostCmd) (data : List Byte) (op : Nat) : Option (Except Reply (List Byte)) :=
  match serviceParams s c data 2 with
  | none => none
  | some (.error st) => some (.error (.err st))
  | some (.ok p) =>
    if p.length < 80 ∨ bAt p 0 > 3 then (if op = 0 then some (.error (.done .success 1 [])) else none)
    else if bAt p 0 ≠ op then none
    else if bAt p 1 > 7 ∨ !zerosAt p 14 2 then some (.error (.done .success 1 []))
    else some (.ok p)

/-- CREATE: the build begins in background. -/
def indexCreate (data : List Byte) (s : State) (c : HostCmd) : State × Reply :=
  match indexParams s c data 0 with
  | none => (s, .later)
  | some (.error r) => (s, r)
  | some (.ok p) =>
    let type := bAt p 2
    let width := bAt p 3
    let nsid := leAt p 4 4
    let fits := if type = 0 then decide (1 ≤ width) && decide (width ≤ 16) else width == 1 || width == 2 || width == 4 || width == 8
    match nsAt? s nsid with
    | none => (s, .done .success 1 [])
    | some x =>
      if x.kind ≠ .kv ∨ !x.attached.contains c.ctl ∨ type > 4 ∨ !fits ∨ (s.prg.indexes.get? (bAt p 1)).isSome then (s, .done .success 1 [])
      else (putIndex s (bAt p 1) ⟨nsid - 1, type, width, leAt p 8 4, true, false, []⟩, .ok)

/-- DROP. -/
def indexDrop (data : List Byte) (s : State) (c : HostCmd) : State × Reply :=
  match indexParams s c data 1 with
  | none => (s, .later)
  | some (.error r) => (s, r)
  | some (.ok p) =>
    if (s.prg.indexes.get? (bAt p 1)).isNone then (s, .done .success 6 []) else (putPrg s { s.prg with indexes := s.prg.indexes.del (bAt p 1) }, .ok)

/-- The code an index answers with, when it cannot serve. -/
def indexCode (x : SecIndex) : Nat := if x.above then 7 else if x.building then 5 else 0

/-- STATE: 0 when the index serves, else its code. -/
def indexState (data : List Byte) (s : State) (c : HostCmd) : State × Reply :=
  match indexParams s c data 3 with
  | none => (s, .later)
  | some (.error r) => (s, r)
  | some (.ok p) => match s.prg.indexes.get? (bAt p 1) with
    | none => (s, .done .success 6 [])
    | some x => (s, .done .success (indexCode x) [])

/-- RANGE: up to MAX records in index order into DEST; DW0 gives the count. -/
def indexRange (data : List Byte) (s : State) (c : HostCmd) : State × Reply :=
  match indexParams s c data 2 with
  | none => (s, .later)
  | some (.error r) => (s, r)
  | some (.ok p) => match s.prg.indexes.get? (bAt p 1) with
    | none => (s, .done .success 6 [])
    | some x =>
      let max_ := leAt p 72 8
      let lo := (p.drop 16).take x.width
      let hi := (p.drop 32).take x.width
      let after := ((p.drop 48).take 16).take (bAt p 13)
      let key := execSet c.sqe
      if indexCode x ≠ 0 then (s, .done .success (indexCode x) [])
      else if max_ = 0 then (s, .ok)
      else if bAt p 13 > 16 ∨ (rangeOf? s key (bAt p 12)).isNone then (s, .done .success 1 [])
      else
        let hits := (x.entries.filter fun e => decide (0 ≤ fieldCmp x.type e.1 lo) && decide (fieldCmp x.type e.1 hi ≤ 0)
          && (after.isEmpty || fieldCmp x.type e.1 lo != 0 || decide (0 < lexCmp e.2 after))).take max_
        if !insideRange s key (bAt p 12) (leAt p 64 8) (40 * hits.length) then (s, .done .success 1 [])
        else
          let bytes := hits.flatMap fun e => fit 16 e.1 ++ bytesLE 1 e.2.length ++ List.replicate 7 0 ++ fit 16 e.2
          (rangeWrite s key (bAt p 12) (leAt p 64 8) bytes, .done .success hits.length [])

/-- The build of an index has read its last bucket (R512): the values it read, by key; keys stored since then stand as stored. -/
def indexBuilt (s : State) (i : Nat) (found : List (List Byte × List Byte)) : State :=
  match s.prg.indexes.get? i with
  | none => s
  | some x =>
    if !x.building then s
    else
      let live := kvOrder (kvOf s x.ns)
      let read := found.filterMap fun v =>
        if live.contains v.1 && !(x.entries.any fun e => e.2 == v.1) then (fieldOf? x v.2).map fun f => (f, v.1) else none
      let all := sortBy (indexLe x.type) (x.entries ++ read)
      if (indexTotal s - x.entries.length + all.length) * 48 > 8 * 2 ^ 30 then putIndex s i { x with building := false, above := true }
      else putIndex s i { x with building := false, entries := all }

end Sys2Proof.Machine
end

