-- ==== Sys2Proof/Machine/HostVendor.lean ====
section
/-! DEFINITION. Namespace Management and the vendor commands Snapshot Trigger and Launch Table Access (R122, R134, R135, R491, R492, R507). -/

namespace Sys2Proof.Machine

/-! ### Namespace Management (R122, R137, R322, R491 to R493, R507) -/

/-- The kind a command set identifier stands for: 0 NVM, 1 Key Value, 3 Subsystem Local Memory, 4 Computational Programs. -/
def kindOf? : Nat → Option NsKind
  | 0 => some .nvm | 1 => some .kv | 3 => some .memory | 4 => some .compute | _ => none

/-- How many namespaces of a kind exist. -/
def nsCount (s : State) (k : NsKind) : Nat := (s.hst.ns.filter fun e => e.2.kind == k).length

/-- A namespace as its create data structure describes it: NSZE, LBA format, protection, sharing and the vendor bytes. -/
def nsFrom (k : NsKind) (d : List Byte) (lba m : Nat) : Namespace :=
  { kind := k, size := leAt d 0 8, lba := lba, meta_ := m, pi := bAt d 29 % 8, mu16 := bAt d 3072 == 1, compress := bAt d 3073 == 1, du4k := bAt d 3074 == 1
    shared := bAt d 30 % 2 == 1, attached := [], tenant := 0, span := 0, resv := ⟨[], none, 0, 0⟩, streams := 0, open_ := [] }

/-- Create: DW0 gives the NSID, the lowest not in use. -/
def nsCreate (data : List Byte) (s : State) (c : HostCmd) : State × Reply :=
  match kindOf? (cdwF c.sqe 11 31 24), (List.range 1024).find? fun h => (s.hst.ns.get? h).isNone with
  | none, _ => (s, .err .invalidField)
  | _, none => (s, .err .nsUnavailable)
  | some k, some h =>
    let fmt := if k = .nvm then lbaFormat (bAt data 26 % 16) else some (1, 0)
    match fmt with
    | none => (s, .err .invalidNamespace)
    | some (lba, m) =>
      let x := nsFrom k data lba m
      if data.length ≠ 4096 then (s, .err .sglLength)
      else if bAt data 3072 > 1 ∨ bAt data 3073 > 1 ∨ bAt data 3074 > 1 ∨ !zerosAt data 3075 1021 ∨ x.pi > 3 ∨ (x.pi ≠ 0 ∧ m = 0) then (s, .err .invalidField)
      else if mapStopped s then (s, .err .writeProtected)
      else
        let put (s : State) : State × Reply := (putNs s h x, .done .success (h + 1) [])
        let mapped (s : State) (mu : Nat) : State := setSpares { s with map := { s.map with mu := s.map.mu.put h mu } }
        match k with
        | .nvm =>
          if x.size * lba + nsAllocated s > tnvmcap s ∨ x.size = 0 then (s, .err .nsCapacity)
          else put (mapped s (x.unit / 64))
        | .kv =>
          if x.mu16 then (s, .err .invalidNamespace)
          else if x.size + nsAllocated s > tnvmcap s ∨ x.size = 0 then (s, .err .nsCapacity)
          else put (putKv (mapped s 64) h ⟨x.size, kvBuckets x.size, [], []⟩)
        | .memory =>
          if nsCount s .memory ≥ 64 then (s, .err .nsUnavailable)
          else if x.size < 4096 ∨ 64 * gib < x.size ∨ x.size % 4096 ≠ 0 then (s, .err .invalidField)
          else match slmCreate s h x.size with
            | none => (s, .err .nsCapacity)
            | some s => put s
        | .compute => if nsCount s .compute ≥ 16 then (s, .err .nsUnavailable) else put s

/-- Deletion of one namespace: its units are trimmed, and what belonged to it goes. -/
def dropNs (s : State) (h : Nat) (x : Namespace) : State :=
  let s := match x.kind with
    | .nvm => trimAll s h
    | .kv =>
      let k := kvOf s h
      let s := if h < 1024 then mapChange s (.trim ⟨h % 1024, by omega⟩ 0 (k.nb + 128 * 127 * k.nb)) else s
      let s := putPrg s { s.prg with kv := s.prg.kv.del h, indexes := s.prg.indexes.filter fun e => e.2.ns != h }
      (s.prg.hot.filter fun e : Nat × Nat × List Byte => e.2.1 == h).foldl (fun s (e : Nat × Nat × List Byte) => (hotDrop s h e.2.2).1) s
    | .memory => slmDelete s h
    | .compute => putPrg s { s.prg with images := s.prg.images.filter fun p => p.ns != h, loading := s.prg.loading.filter fun l => l.ns != h }
  { s with
    hst := { s.hst with
      ns := s.hst.ns.del h
      changedNs := s.hst.changedNs ++ [h + 1]
      blockMeta := s.hst.blockMeta.dropRange (h * 2 ^ 64) ((h + 1) * 2 ^ 64) }
    map := { s.map with mu := s.map.mu.del h } }

/-- Delete: one namespace, or with NSID FFFFFFFFh every one. -/
def nsDelete (s : State) (c : HostCmd) : State × Reply :=
  let hs := affected s (sqeNsid c.sqe)
  let first := hs.findSome? fun h => ((rangesOf s (h + 1)).head?).map (·.1)
  if hs.isEmpty then (s, if sqeNsid c.sqe = 0xFFFFFFFF then .ok else .err .invalidNamespace)
  else match first with
    | some i => (s, .done .retentionLocked i [])
    | none =>
      if hs.any (inLiveSet s) then (s, .err .nsPrivate)
      else if mapStopped s then (s, .err .writeProtected)
      else if (hs.any fun h => s.prg.acts.any fun a => a.ns == h) then (s, .err .nsPrivate)
      else if draining s c hs then (s, .later)
      else (hs.foldl (fun s h => match s.hst.ns.get? h with
        | some x => dropNs s h x
        | none => s) s, .ok)

/-- Namespace Management: SEL 0 create, 1 delete. -/
def nsManage (data : List Byte) (s : State) (c : HostCmd) : State × Reply :=
  match cdwF c.sqe 10 3 0 with
  | 0 => nsCreate data s c
  | 1 => nsDelete s c
  | _ => (s, .err .invalidField)

/-- Abort (R120, R500): a deferred Execute Program's WAITING slot is cancelled with it; a run that has started is not aborted. -/
def abortAny (s : State) (c : HostCmd) : State × Reply :=
  let target := s.hst.cmds.find? fun y => y.ctl == c.ctl && y.q == cdwF c.sqe 10 15 0 && y.cid == cdwF c.sqe 10 31 16 && y.id != c.id
  match target.bind fun y => s.prg.runs.find? fun r => r.cmd == y.id with
  | none => abortCmd s c
  | some r => if r.ready.isSome then (s, .done .success 1 []) else abortCmd (cancelRun s r.cmd) c

/-! ### Vendor commands (R131) -/

/-- Carry out a vendor command whose ACTION fits the row. -/
def onVendor (s : State) (op action id : Nat) (f : State → HostCmd → State × Reply) : State :=
  onCmd s true op id fun s c => if cdwF c.sqe 10 7 0 = action then f s c else (s, .later)

/-! ### Snapshot Trigger (R134) -/

/-- ACTION 00h completes with the SNAP_SEQ taken. -/
def snapIssue (s : State) (_c : HostCmd) : State × Reply :=
  let (s, seq) := fireSnapshot s
  (s, .done .success seq [])

/-- ACTION 01h completes after the latch time T. -/
def snapWait (s : State) (c : HostCmd) : State × Reply :=
  let t := round8 (s.com.time.toNat + 64)
  let (s, seq) := fireSnapshot s
  (putCmd s { c with units := [seq], until_ := t }, .wait)

/-! ### Launch Table Access (R93, R135) -/

/-- The entry a command names. -/
def launchIx (c : HostCmd) : Nat := cdwF c.sqe 11 9 0

/-- Is the entry below HOST_FIRST? -/
def belowHost (s : State) (c : HostCmd) : Bool := decide (launchIx c < rdF s pLCH LCH_HOST_FIRST 9 0)

/-- ENTRY_STATE of the entry with an OP_STATUS. -/
def launchState (s : State) (c : HostCmd) (st : Nat) : Nat := (entryStateWord (entryOf s (launchIx c)) st).toNat

/-- READ returns the 32-byte image. -/
def launchRead (s : State) (c : HostCmd) : State × Reply :=
  if belowHost s c then (s, .err .invalidField)
  else
    let e := entryOf s (launchIx c)
    let img := bytesLE 8 e.time.toNat ++ bytesLE 2 (e.page % 4096) ++ bytesLE 1 (e.action % 16) ++ [0] ++ bytesLE 4 e.arg.toNat ++ bytesLE 4 (launchState s c 0) ++ List.replicate 12 0
    (s, .done .success (launchState s c 0) img)

/-- ARM from the image, in the order of checks of R135. -/
def launchArm (data : List Byte) (s : State) (c : HostCmd) : State × Reply :=
  let e : LaunchEntry :=
    { LaunchEntry.empty with time := BitVec.ofNat 64 (leAt data 0 8), page := leAt data 8 2 % 4096, action := bAt data 10 % 16, arg := w32 (leAt data 12 4) }
  if belowHost s c then (s, .err .invalidField)
  else if data.length ≠ 32 then (s, .err .sglLength)
  else if e.action = 7 ∧ !(s.prg.acts.any fun a => a.slot == e.arg.toNat && a.ctl == c.ctl) then (s, .err .invalidField)
  else match armEntry s (launchIx c) e true with
    | (s, 0) => (s, .done .success (launchState s c 0) [])
    | (s, st) => (s, .done .launchRefused st [])

/-- CANCEL. -/
def launchCancel (s : State) (c : HostCmd) : State × Reply :=
  if belowHost s c then (s, .err .invalidField)
  else match cancelEntry s (launchIx c) with
    | (s, 0) => (s, .done .success (launchState s c 0) [])
    | (s, st) => (s, .done .launchRefused st [])

/-- RELEASE. -/
def launchRelease (s : State) (c : HostCmd) : State × Reply :=
  if belowHost s c then (s, .err .invalidField)
  else match releaseEntry s (launchIx c) with
    | (s, 0) => (s, .done .success (launchState s c 0) [])
    | (s, st) => (s, .done .launchRefused st [])

end Sys2Proof.Machine
end

