-- ==== Sys2Proof/Machine/Toll.lean ====
section
/-! DEFINITION. The toll collectors, the meter, its statements and port, the TOL mirror, and Toll Statement Request (R133, R535 to R546). -/

namespace Sys2Proof.Machine

/-- Set the toll part. -/
def putTol (s : State) (t : Toll) : State := { s with tol := t }

/-! ### Taps and collectors (R537, R538) -/

/-- CRC-8 with polynomial 0x07, most significant bit first. -/
def crc8Bits : Nat → Nat → Nat
  | 0, c => c
  | n + 1, c => crc8Bits n (if c ≥ 128 then (2 * c % 256) ^^^ 7 else 2 * c)

/-- CRC-8 over bytes. -/
def crc8 (bs : List Nat) : Nat := bs.foldl (fun c b => crc8Bits 8 (c ^^^ b)) 0

/-- CRC of a tap word over its bits 79:8. -/
def tapCrc (w : BitVec 80) : Nat := crc8 ((List.range 9).map fun i => (w.toNat >>> (72 - 8 * i)) % 256)

/-- A field of a tap word. -/
def tapF (w : BitVec 80) (hi lo : Nat) : Nat := (w.toNat >>> lo) % 2 ^ (hi + 1 - lo)

/-- The tap word of an entry (R537). -/
def tapWord (e : TapEntry) (seq : Nat) : BitVec 80 :=
  let w : BitVec 80 := BitVec.ofNat 80 (e.kind % 16 * 2 ^ 76 + e.tenant % 65536 * 2 ^ 60 + e.amount % 2 ^ 44 * 65536 + seq % 256 * 256)
  w ||| BitVec.ofNat 80 (tapCrc w)

/-- Does a tap carry a kind from its sources? Taps 0 to 3 are HST, CVN, CORE and CTL (R537). -/
def tapCarries (tap kind : Nat) : Bool :=
  match tap with
  | 0 => kind == 1 || kind == 2
  | 1 => kind == 3 || kind == 7
  | 2 => kind == 4
  | _ => kind == 5 || kind == 6 || kind == 8 || kind == 9

/-- Kinds whose amounts add up; a TIME_MARK and a REQUEST take an entry each. -/
def tapCoalesces (kind : Nat) : Bool := decide (1 ≤ kind) && decide (kind ≤ 7)

/-- A collector. -/
def tapOf (s : State) (t : Nat) : Collector := s.tol.taps.getD t Collector.empty

/-- Set a collector. -/
def putTap (s : State) (t : Nat) (c : Collector) : State := putTol s { s.tol with taps := s.tol.taps.putD t c Collector.empty }

/-- Put one entry on the tap as a word. -/
def sendEntry (c : Collector) (e : TapEntry) : Collector := { c with wire := c.wire ++ [tapWord e c.seq], seq := (c.seq + 1) % 256 }

/-- Take an event into a collector, or say that every entry is busy (R538). -/
def collect? (c : Collector) (e : TapEntry) : Option Collector :=
  match c.entries.find? fun x => x.kind == e.kind && x.tenant == e.tenant && tapCoalesces e.kind with
  | some x =>
    if x.amount + e.amount ≤ 2 ^ 44 - 1 then some { c with entries := c.entries.map fun y => if y == x then { x with amount := x.amount + e.amount } else y }
    else
      let c := sendEntry c x
      some { c with entries := c.entries.filter (· != x) ++ [e] }
  | none => if c.entries.length < 256 then some { c with entries := c.entries ++ [e] } else none

/-- A source event reaches its collector, and waits when every entry is busy (R17, R538). -/
def collectorEvent (s : State) (tap : Nat) (e : TapEntry) : State :=
  if !tapCarries tap e.kind then s
  else
    let c := tapOf s tap
    match (if c.waiting.isEmpty then collect? c e else none) with
    | some c => putTap s tap c
    | none => putTap s tap { c with waiting := c.waiting ++ [(e, s.com.time)] }

/-- Waiting events enter while there is room; TAP_HOLD counts the fabric cycles of their wait (R538). -/
def releaseWaiting (s : State) (tap : Nat) : List (TapEntry × Count) → State
  | [] => putTap s tap { tapOf s tap with waiting := [] }
  | (e, t) :: rest =>
    match collect? (tapOf s tap) e with
    | some c => releaseWaiting (bump (putTap s tap c) pTOL (TOL_TAP_HOLD + 4 * tap) (s.com.time - t).toNat) tap rest
    | none => putTap s tap { tapOf s tap with waiting := (e, t) :: rest }

/-- A collector sends its oldest entry as a tap word (R538). -/
def tapSend (s : State) (tap : Nat) : State :=
  let c := tapOf s tap
  match c.entries with
  | [] => s
  | e :: rest => releaseWaiting (putTap s tap { sendEntry c e with entries := rest }) tap c.waiting

/-- A collector sends every entry (R333, R541). -/
def tapDrain : Nat → State → Nat → State
  | 0, s, _ => s
  | n + 1, s, tap => if (tapOf s tap).entries.isEmpty then s else tapDrain n (tapSend s tap) tap

/-- All four collectors send every entry. -/
def collectorsSend (s : State) : State := (List.range 4).foldl (fun s t => tapDrain (256 + (tapOf s t).waiting.length) s t) s

/-- Does any collector hold an entry not yet sent? -/
def collectorsHold (s : State) : Bool := (List.range 4).any fun t => !(tapOf s t).entries.isEmpty || !(tapOf s t).waiting.isEmpty

/-! ### Meter time, records and their copies (R539, R540) -/

/-- Meter time moves with the device's count while the meter runs (R540). -/
def meterSync (s : State) : State :=
  if !s.tol.running then s
  else
    let us := (s.com.time - s.tol.asOf).toNat / 1000
    putTol s { s.tol with mtime := s.tol.mtime + us, asOf := s.tol.asOf + BitVec.ofNat 64 (1000 * us) }

/-- A record of a tenant that has counted nothing. -/
def TenantRecord.fresh (t : Nat) (overflow : Bool) : TenantRecord := ⟨t, false, overflow, 0, 0, 0, 0, 0, 0, 0, 0⟩

/-- The slot of a tenant: its own, the lowest unused one below 1,023, or slot 1,023 (R539). -/
def tenantSlot (s : State) (t : Nat) : Nat :=
  match s.tol.records.find? fun e => decide (e.1 < 1023) && e.2.tenant == t with
  | some e => e.1
  | none => ((List.range 1023).find? fun i => (s.tol.records.get? i).isNone).getD 1023

/-- Count one TAP_ERR. -/
def tapError (s : State) : State := putTol s { s.tol with tapErr := s.tol.tapErr + 1, tapFlag := true }

/-- Apply a counted word to its tenant's record (R539). -/
def countWord (s : State) (e : TapEntry) : State :=
  let i := tenantSlot s e.tenant
  let r := s.tol.records.getD i (if i = 1023 then TenantRecord.fresh 0xFFFF true else TenantRecord.fresh e.tenant false)
  let s := if e.kind = 6 ∧ r.capMib < e.amount then tapError s else s
  let r := match e.kind with
    | 1 => { r with bytesRead := r.bytesRead + e.amount }
    | 2 => { r with bytesWritten := r.bytesWritten + e.amount }
    | 3 => { r with cvnNs := r.cvnNs + e.amount }
    | 4 => { r with coreNs := r.coreNs + e.amount }
    | 5 => { r with capMib := r.capMib + e.amount }
    | 6 => { r with capMib := r.capMib - e.amount }
    | _ => { r with cvnBytes := r.cvnBytes + e.amount }
  putTol s { s.tol with records := s.tol.records.put i r, lastEvent := s.tol.lastEvent.put e.tenant s.tol.mtime }

/-- Every used record accrues its capacity for each meter second passed (R539). -/
def meterSecond (s : State) : State :=
  let s := meterSync s
  let n := s.tol.mtime / 1000000 - s.tol.second
  if !s.tol.running ∨ n = 0 then s
  else putTol s { s.tol with
    second := s.tol.second + n
    records := s.tol.records.map fun e => (e.1, { e.2 with capMibS := e.2.capMibS + n * e.2.capMib }) }

/-- The meter hour of a meter time, whose statement falls at the PERIOD_ALIGN minute (R543). -/
def alignHour (align mtime : Nat) : Nat := (mtime / 60000000 + 60 - align) / 60

/-- The records are written to the other of the two copies (R540). -/
def meterCommit (s : State) : State :=
  if !s.tol.running then s
  else
    let c : MeterCopy := ⟨max s.tol.copyA.gen s.tol.copyB.gen + 1, true, s.tol.records, s.tol.mtime, s.tol.tapErr, s.tol.refused⟩
    if s.tol.copyA.gen < s.tol.copyB.gen then putTol s { s.tol with copyA := c } else putTol s { s.tol with copyB := c }

/-- At start-up the meter takes the newer copy whose check passes; a power-off sets GAP (R540, R541, R543). -/
def meterStart (s : State) : State :=
  if s.tol.running then s
  else
    let cs := [s.tol.copyA, s.tol.copyB].filter fun c => c.good && decide (c.gen ≠ 0)
    let t := s.tol
    let t := match minBy? (fun c : MeterCopy => t.copyA.gen + t.copyB.gen - c.gen) cs with
      | some c => { t with records := c.records, mtime := c.mtime, tapErr := c.tapErr, refused := c.refused, second := c.mtime / 1000000 }
      | none => t
    putTol s { t with
      running := true, asOf := s.com.time, hour := alignHour t.align t.mtime, gap := t.stseq != 0, powerOns := t.powerOns + 1, flushed := [], forming := none, queue := [], item := none, lastEvent := []
      taps := t.taps.map fun e => (e.1, { Collector.empty with seq := e.2.seq, expect := e.2.seq }) }

/-- PD02 loses power with counts not committed: the next statement sets LOSS (R541). -/
def meterLost (s : State) : State := if s.tol.running then putTol s { s.tol with running := false, loss := true } else s

/-! ### Statements (R543) -/

/-- The 64 bytes of a record slot. -/
def slotBytes (r : Option TenantRecord) : List Byte :=
  match r with
  | none => List.replicate 64 0
  | some r =>
    bytesLE 2 r.tenant ++ bytesLE 1 (1 + (if r.closed then 2 else 0) + (if r.overflow then 4 else 0)) ++ [0] ++ bytesLE 4 r.firstSeq
      ++ bytesLE 8 r.bytesRead ++ bytesLE 8 r.bytesWritten ++ bytesLE 8 r.cvnNs ++ bytesLE 8 r.coreNs ++ bytesLE 8 r.capMib ++ bytesLE 8 r.capMibS
      ++ bytesLE 8 r.cvnBytes

/-- The nodes above a level of the Merkle tree. -/
def merkleUp : List (List Byte) → List (List Byte)
  | a :: b :: rest => sha512 (1 :: (a ++ b)) :: merkleUp rest
  | l => l

/-- The levels of the tree from the leaves up. -/
def merkleLevels : Nat → List (List Byte) → List (List (List Byte))
  | 0, l => [l]
  | n + 1, l => l :: merkleLevels n (merkleUp l)

/-- The 11 levels over 1,024 records. -/
def recordTree (rs : List (List Byte)) : List (List (List Byte)) := merkleLevels 10 (rs.map fun r => sha512 (0 :: r))

/-- The newest statement stored. -/
def newestStatement? (s : State) : Option Statement := s.tol.statements.getLast?

/-- SHA-512 of the newest audit record; zeros before the first. -/
def auditHead (s : State) : List Byte := match s.tol.audit.getLast? with
  | some a => sha512 a
  | none => List.replicate 64 0

/-- Form a statement: its snapshot is taken now (R540, R542, R543). -/
def formStatement (s : State) (kind : Nat) : State :=
  let s := meterSecond s
  let n := s.tol.stseq + 1
  let recs : Tab TenantRecord := s.tol.records.map fun e => (e.1, if e.2.firstSeq = 0 then { e.2 with firstSeq := n } else e.2)
  let t := s.tol
  let rs := (List.range 1024).map fun i => slotBytes (recs.get? i)
  let flags := (if t.gap then 1 else 0) + (if t.tapFlag then 2 else 0) + (if (recs.get? 1023).isSome then 4 else 0) + (if t.loss then 8 else 0) + (if t.param then 16 else 0)
  let hostMs := match t.mark with
    | some (ms, at_) => ms + (t.mtime - at_) / 1000
    | none => 0
  let prev := match newestStatement? s with
    | some p => sha512 (p.head.take 448)
    | none => List.replicate 64 0
  let head := bytesLE 4 0x4C545751 ++ bytesLE 2 1 ++ bytesLE 1 kind ++ bytesLE 1 flags ++ bytesLE 4 n ++ bytesLE 4 recs.length ++ bytesLE 8 t.mtime ++ bytesLE 8 hostMs
    ++ bytesLE 4 t.aseq ++ bytesLE 4 t.tapErr ++ bytesLE 8 Config.tollVersion.toNat ++ bytesLE 8 s.bot.fuses.serial ++ bytesLE 4 t.refused ++ bytesLE 4 t.powerOns
    ++ prev ++ ((recordTree rs).getLastD []).headD [] ++ auditHead s
  putTol s { t with
    records := recs.filter fun e => !t.closing.contains e.1
    closing := [], gap := false, tapFlag := false, loss := false, param := false
    forming := some ⟨n, fit 448 head, rs⟩ }

/-- The head with its signatures (R543). -/
def signedHead (h : List Byte) : List Byte :=
  fit 4096 (h ++ fit 64 (Config.sign 0 Config.tollSeed h) ++ fit 3309 (Config.sign 5 Config.tollSeed h))

/-- A whole statement: 69,632 bytes. -/
def Statement.bytes (x : Statement) : List Byte := x.head ++ x.records.flatten

/-- Sibling hashes of a leaf from the leaf to the root. -/
def siblings : Nat → List (List (List Byte)) → List Byte
  | i, l :: rest => if rest.isEmpty then [] else l.getD (i ^^^ 1) [] ++ siblings (i / 2) rest
  | _, [] => []

/-- An extract for a tenant: head, slot, record and 10 sibling hashes; a tenant without a slot of its own is in slot 1,023 (R543). -/
def Statement.extract (x : Statement) (tenant : Nat) : List Byte :=
  let i := (x.records.findIdx? fun r => leAt r 0 2 == tenant && bAt r 2 % 2 == 1).getD 1023
  x.head ++ bytesLE 8 i ++ List.replicate 56 0 ++ x.records.getD i [] ++ siblings i (recordTree x.records)

/-- A stored statement by STSEQ, else the newest one. -/
def statementAt? (s : State) (n : Nat) : Option Statement := match s.tol.statements.find? fun x => x.seq == n with
  | some x => some x
  | none => newestStatement? s

/-! ### Requests, items and the mirror (R543, R545) -/

/-- The mirror's fields follow the meter while the fabric island is on (R545). -/
def showToll (s : State) : State :=
  if !pageUp s pTOL then s
  else
    let t := s.tol
    let s := wr s pTOL TOL_MSTATE (w32 ((if t.running then 5 else 0) + (if t.auditor.isSome then 2 else 0)))
    let s := wr s pTOL TOL_VERSION_LO (Config.tollVersion.setWidth 32)
    let s := wr s pTOL TOL_VERSION_HI ((Config.tollVersion >>> 32).setWidth 32)
    let s := wr s pTOL TOL_STSEQ (w32 t.stseq)
    let s := wr s pTOL TOL_ASEQ (w32 t.aseq)
    let s := wr s pTOL TOL_TENANTS (w32 t.records.length)
    let s := wr s pTOL TOL_TAP_ERR (w32 t.tapErr)
    match t.item with
    | none => s
    | some i => wr (wr s pTOL TOL_ITEM_HDR (w32 (i.seq * 65536 + cdiv i.bytes.length 1792 * 256 + i.kind))) pTOL TOL_ITEM_LEN (w32 i.bytes.length)

/-- Present an item (R545). -/
def present (s : State) (kind : Nat) (bytes : List Byte) : State :=
  let n := (s.tol.itemSeq + 1) % 65536
  putTol s { s.tol with itemSeq := n, item := some ⟨n, kind, bytes, s.tol.mtime, 0⟩ }

/-- May the current item go? It stays for at least 25 ms (R545). -/
def itemFree (s : State) : Bool := match s.tol.item with
  | none => true
  | some i => decide (i.since + 25000 ≤ s.tol.mtime)

/-- The item that a request asks for, once what it waits for is stored. -/
def requestItem? (s : State) (r : TollReq) : Option (Nat × List Byte) :=
  match r.type with
  | 0 => (newestStatement? s).map fun x => (1, x.bytes)
  | 1 => (newestStatement? s).map fun x => (1, x.bytes)
  | 2 => (statementAt? s r.arg).map fun x => (2, x.extract r.tenant)
  | 3 => (newestStatement? s).map fun x => (2, x.extract r.tenant)
  | 4 => (statementAt? s r.arg).map fun x => (1, x.bytes)
  | _ => some (3, Config.tollChain 0 ++ Config.tollChain 1)

/-- Serve the oldest request: form the statement it needs, or present its item when the current one may go (R543, R545). -/
def serveRequest (s : State) : State :=
  match s.tol.queue with
  | [] => s
  | r :: rest =>
    if s.tol.stseq < r.need then (if s.tol.forming.isSome then s else formStatement s 2)
    else if !itemFree s then s
    else match requestItem? s r with
      | none => if s.tol.forming.isSome then s else formStatement s 2
      | some (k, b) => putTol (present s k b) { (present s k b).tol with queue := rest }

/-- The STSEQ a fresh request waits for: the next statement, or the one after the statement being formed (R543). -/
def freshNeed (s : State) : Nat := s.tol.stseq + (if s.tol.forming.isSome then 2 else 1)

/-- A REQUEST word is queued; beyond 8 it is dropped (R543). -/
def meterRequest (s : State) (type tenant arg : Nat) : State :=
  if type > 5 then s
  else if (s.tol.queue.filter fun r => !r.own).length ≥ 8 then bump s pTOL TOL_REQ_DROP 1
  else
    let need := if type = 1 ∨ type = 3 then freshNeed s else 0
    serveRequest (putTol s { s.tol with queue := s.tol.queue ++ [⟨type, tenant, arg, need, false⟩] })

/-- The meter takes the next word of a tap, with the noise it met: CRC and SEQ, the capacity-seconds that are due, then its effect (R538 to R540). -/
def tapReceive (s : State) (tap : Nat) (noise : BitVec 80) : State :=
  let c := tapOf s tap
  match c.wire with
  | [] => s
  | w :: rest =>
    let w := w ^^^ noise
    let s := putTap s tap { c with wire := rest }
    if !s.tol.running then s
    else if tapCrc w ≠ tapF w 7 0 then showToll (tapError s)
    else
      let s := meterSecond s
      let s := if tapF w 15 8 = c.expect then s else tapError s
      let s := putTap s tap { tapOf s tap with expect := (tapF w 15 8 + 1) % 256 }
      let e : TapEntry := ⟨tapF w 79 76, tapF w 75 60, tapF w 59 16⟩
      let s :=
        if 1 ≤ e.kind ∧ e.kind ≤ 7 then countWord s e
        else match e.kind with
          | 8 => putTol s { s.tol with mark := some (e.amount, s.tol.mtime) }
          | 9 => meterRequest s (e.amount / 2 ^ 40) e.tenant (e.amount % 2 ^ 32)
          | 15 => putTol s { s.tol with flushed := (tap :: s.tol.flushed).eraseDups }
          | _ => s
      showToll s

/-- The next CTL word, when it is a REQUEST of TYPE 0 to 5 (R543). -/
def tollRequest (s : State) : State :=
  match (tapOf s 3).wire with
  | w :: _ => if tapF w 79 76 = 9 ∧ tapF w 59 56 ≤ 5 then tapReceive s 3 0 else s
  | [] => s

/-- Every word on a tap reaches the meter. -/
def tapFlush : Nat → State → Nat → State
  | 0, s, _ => s
  | n + 1, s, tap => if (tapOf s tap).wire.isEmpty then s else tapFlush n (tapReceive s tap 0) tap

/-- At PWR_FAIL the collectors send every entry and a FLUSHED word, the meter commits and stops (R541). -/
def tollFlush (s : State) : State :=
  if !s.tol.running then s
  else
    let s := collectorsSend s
    let s := (List.range 4).foldl (fun s t =>
      let s := putTap s t (sendEntry (tapOf s t) ⟨15, 0, 0⟩)
      tapFlush (tapOf s t).wire.length s t) s
    let s := meterCommit s
    showToll (putTol s { s.tol with running := false })

/-- At each meter hour whose minute equals PERIOD_ALIGN a SCHEDULED statement is formed (R543). -/
def scheduledStatement (s : State) : State :=
  let s := meterSync s
  let h := alignHour s.tol.align s.tol.mtime
  if !s.tol.running ∨ s.tol.forming.isSome ∨ h ≤ s.tol.hour then s
  else formStatement (putTol s { s.tol with hour := h }) 1

/-- TENANT_CLOSE: a FINAL statement, then CLOSED on the record; the slot goes at the next statement (R542). -/
def closeTenant (s : State) (t : Nat) : State :=
  let s := formStatement s 3
  let at_ := (s.tol.records.filter fun e => e.2.tenant == t).map (·.1)
  putTol s { s.tol with
    records := s.tol.records.map fun e => if e.2.tenant = t then (e.1, { e.2 with closed := true }) else e
    closing := s.tol.closing ++ at_ }

/-- The statement being formed is signed and stored; it is presented, and the toll port gets what it waits for (R543, R545, R546). -/
def statementFormed (s : State) : State :=
  let s := meterSync s
  match s.tol.forming with
  | none => s
  | some x =>
    if !s.tol.running then s
    else
      let x := { x with head := signedHead x.head }
      let l := s.tol.statements ++ [x]
      let asked := s.tol.queue.any fun r => decide (r.need = x.seq)
      let t := { s.tol with
        forming := none, stseq := x.seq, statements := l.drop (l.length - 24)
        port := s.tol.port ++ (s.tol.portWait.filter fun n => decide (n ≤ x.seq)).map fun _ => (3, x.bytes)
        portWait := s.tol.portWait.filter fun n => decide (x.seq < n)
        queue := if asked then s.tol.queue else s.tol.queue ++ [⟨4, 0, x.seq, 0, true⟩] }
      let s := putTol s t
      let s := match s.tol.toClose with
        | n :: rest => closeTenant (putTol s { s.tol with toClose := rest }) n
        | [] => serveRequest s
      let s := if s.tol.forming.isNone && !s.tol.portWait.isEmpty then formStatement s 2 else s
      showToll s

/-- The meter sends the next chunk of the current item (R545). -/
def chunkSend (s : State) : State :=
  let s := if s.tol.running then serveRequest (meterSync s) else s
  if !s.tol.running ∨ !pageUp s pTOL then s
  else match s.tol.item with
    | none => showToll s
    | some i =>
      let b := fit 1792 ((i.bytes.drop (1792 * i.chunk)).take 1792)
      let n := cdiv i.bytes.length 1792
      let s := wr s pTOL TOL_CHUNK_TAG (w32 (i.seq * 65536 + i.chunk))
      let s := wr s pTOL TOL_CHUNK_CRC (w32 (crc32c b))
      let s := (List.range 448).foldl (fun s k => wr s pTOL (TOL_CHUNK_DATA + 4 * k) (w32 (leAt b (4 * k) 4))) s
      let s := wr s pTOL TOL_MTIME_LO (w32 s.tol.mtime)
      let s := wr s pTOL TOL_MTIME_HI (w32 (s.tol.mtime / 2 ^ 32))
      showToll (putTol s { s.tol with item := some { i with chunk := if i.chunk + 1 < n then i.chunk + 1 else 0 } })

/-- Once a second while the Timestamp is set the CTL tap carries a TIME_MARK (R537). -/
def timeMark (s : State) : State := if s.com.stamp.isSome then collectorEvent s 3 ⟨8, 0, stampNow s⟩ else s

/-! ### Parameters (R542) -/

/-- A parameter command as it arrives: OP, PSEQ, ARGS, and the Ed25519 and ML-DSA-65 signatures of the auditor in force and of the new keys. -/
structure ParamCmd where
  op : Nat
  pseq : Nat
  args : List Byte
  auditorSig : List Byte × List Byte
  newSig : List Byte × List Byte

/-- The bytes that are signed. -/
def ParamCmd.signed (p : ParamCmd) : List Byte := [BitVec.ofNat 8 p.op] ++ List.replicate 7 0 ++ bytesLE 8 p.pseq ++ p.args

/-- Do both signatures verify under a pair of keys? -/
def bothVerify (k : List Byte × List Byte) (m : List Byte) (sig : List Byte × List Byte) : Bool := Config.verify 0 k.1 m sig.1 && Config.verify 4 k.2 m sig.2

/-- The keys INSTALL_AUDITOR brings: Ed25519 32 bytes, ML-DSA-65 1,952 bytes. -/
def ParamCmd.newKeys (p : ParamCmd) : List Byte × List Byte := (p.args.take 32, (p.args.drop 32).take 1952)

/-- Is the command accepted? (R542) -/
def paramAccepted (s : State) (p : ParamCmd) : Bool :=
  let byAuditor := s.tol.auditor.any fun k => bothVerify k p.signed p.auditorSig
  decide (s.tol.pseq < p.pseq) &&
  match p.op with
  | 1 => (s.tol.auditor.isNone || byAuditor) && bothVerify p.newKeys p.signed p.newSig
  | 2 => byAuditor && decide (leAt p.args 0 1 ≤ 59)
  | 3 =>
    let t := leAt p.args 0 2
    byAuditor && (s.tol.records.any fun e => e.2.tenant == t) && !(s.tol.records.any fun e => e.2.tenant == t && decide (e.2.capMib ≠ 0))
      && !(match s.tol.lastEvent.get? t with
        | some at_ => decide (s.tol.mtime < at_ + 60000000)
        | none => false)
  | _ => false

/-- The audit record of an accepted command (R542). -/
def auditRecord (s : State) (p : ParamCmd) : List Byte :=
  let prev := auditHead s
  bytesLE 4 (s.tol.aseq + 1) ++ bytesLE 1 p.op ++ [0, 0, 0] ++ bytesLE 8 s.tol.mtime ++ bytesLE 8 p.pseq
    ++ fit 104 (if p.args.length ≤ 104 then p.args else sha512 p.args) ++ sha512 p.signed ++ prev

/-- Effect of an accepted parameter; a TENANT_CLOSE that finds a statement being formed has its FINAL statement next (R542). -/
def paramEffect (s : State) (p : ParamCmd) : State :=
  match p.op with
  | 1 => putTol s { s.tol with auditor := some p.newKeys }
  | 2 => putTol s { s.tol with align := leAt p.args 0 1, hour := alignHour (leAt p.args 0 1) s.tol.mtime }
  | _ =>
    let t := leAt p.args 0 2
    if s.tol.forming.isSome then putTol s { s.tol with toClose := s.tol.toClose ++ [t] } else closeTenant s t

/-- A parameter command: accepted with its audit record, or refused and counted; the port answers 1 or 0 (R542, R546). -/
def paramCommand (s : State) (p : ParamCmd) : State :=
  let s := meterSync s
  if !s.tol.running then s
  else if paramAccepted s p then
    let a := auditRecord s p
    let s := paramEffect s p
    let l := s.tol.audit ++ [a]
    showToll (putTol s { s.tol with pseq := p.pseq, audit := l.drop (l.length - 1024), aseq := s.tol.aseq + 1, param := true, port := s.tol.port ++ [(6, [1])] })
  else putTol s { s.tol with refused := s.tol.refused + 1, port := s.tol.port ++ [(6, [0])] }

/-! ### The toll port (R546) -/

/-- The meter answers on its port. -/
def portAnswer (s : State) (code : Nat) (b : List Byte) : State := if s.tol.running then putTol s { s.tol with port := s.tol.port ++ [(code, b)] } else s

/-- Version, serial, STSEQ, ASEQ, meter time, auditor digest. -/
def infoBytes (s : State) : List Byte :=
  bytesLE 8 Config.tollVersion.toNat ++ bytesLE 8 s.bot.fuses.serial ++ bytesLE 4 s.tol.stseq ++ bytesLE 4 s.tol.aseq ++ bytesLE 8 s.tol.mtime
    ++ (match s.tol.auditor with
      | some k => sha512 (k.1 ++ k.2)
      | none => List.replicate 64 0)

/-- GET_STATEMENT: 0 the newest, all ones a fresh one. -/
def portStatement (s : State) (arg : Nat) : State :=
  if !s.tol.running then s
  else if arg = 0xFFFFFFFF then
    let n := freshNeed s
    let s := if s.tol.forming.isSome then s else formStatement s 2
    putTol s { s.tol with portWait := s.tol.portWait ++ [n] }
  else portAnswer s 3 (((if arg = 0 then newestStatement? s else statementAt? s arg).map Statement.bytes).getD [])

/-- GET_AUDIT: the records of a range of ASEQ that the ring holds. -/
def portAudit (s : State) (first last : Nat) : State :=
  portAnswer s 5 ((s.tol.audit.filter fun a => decide (first ≤ leAt a 0 4) && decide (leAt a 0 4 ≤ last)).flatten)

/-! ### Toll Statement Request and the poll (R133, R544, R545) -/

/-- The tenant bound to a controller: that of a namespace attached to it (R537). -/
def tenantOfCtl (s : State) (ctl : Nat) : Nat := match s.hst.ns.find? fun e => e.2.attached.contains ctl with
  | some e => e.2.tenant
  | none => 0

/-- Toll Statement Request: main firmware sends a REQUEST word and the command waits for its item, 2 s at most. -/
def tollStatement (s : State) (c : HostCmd) : State × Reply :=
  let t := cdwF c.sqe 11 15 0
  let fresh := cdwF c.sqe 11 16 16 == 1
  let vf := !isPf c.ctl
  let own := tenantOfCtl s c.ctl
  if vf ∧ t ≠ own then (s, .err .invalidField)
  else
    let type := if vf then (if fresh then 3 else 2) else (if fresh then 1 else 0)
    let need := if fresh then freshNeed s else 0
    let s := collectorEvent s 3 ⟨9, if vf then own else 0, type * 2 ^ 40 + s.tol.stseq % 2 ^ 32⟩
    (putCmd s { c with units := [0xC2, need, if vf then 2 else 1, own], until_ := s.com.time.toNat + 2000000000 }, .wait)

/-- Does an item answer a waiting Toll Statement Request? Bytes 8 to 11 of a head are STSEQ; an extract's record follows its slot. -/
def itemAnswers (i : TollItem) (c : HostCmd) : Bool :=
  match c.units with
  | [0xC2, need, kind, own] =>
    c.state == .waiting && i.kind == kind && decide (need ≤ leAt i.bytes 8 4) && (kind == 1 || leAt i.bytes 4160 2 == own || leAt i.bytes 4160 2 == 0xFFFF)
  | _ => false

/-- Main firmware polls ITEM_HDR, collects a new item's chunks, stores a statement and ends the oldest command that asked for the item (R544, R545). -/
def tolPoll (s : State) : State :=
  match s.tol.item with
  | none => s
  | some i =>
    if !pageUp s pTOL ∨ i.seq = s.tol.collected then s
    else
      let s := putTol s { s.tol with collected := i.seq, stored := if i.kind = 1 then (i.bytes :: s.tol.stored).take 24 else s.tol.stored }
      match s.hst.cmds.find? fun c => itemAnswers i c with
      | some c => endCmd s c .success i.bytes.length i.bytes
      | none => s

/-- A Toll Statement Request that has waited 2 s ends with Meter Unavailable (R133). -/
def tollTimeout (s : State) (id : Nat) : State :=
  match cmdOf? s id with
  | some c => if c.state = .waiting ∧ c.units.head? = some 0xC2 ∧ c.until_ ≤ s.com.time.toNat then endCmd s c .meterUnavailable 0 [] else s
  | none => s

end Sys2Proof.Machine
end

