-- ==== Sys2Proof/Machine/Power.lean ====
section
/-! DEFINITION. Power domains, shadow images, rails, the control engine's loops, throttling, cluster clocks and power tokens (R150, R332 to R335, R572 to R599). -/

namespace Sys2Proof.Machine

/-- Set the power part. -/
def putPwr (s : State) (p : Power) : State := { s with pwr := p }

/-! ### Rails and phases (R573, R579 to R581, R585) -/

/-- Phases of each rail (R579). -/
def railPhases : List Nat := [1, 1, 1, 1, 4, 2, 2, 4, 3, 3, 3, 5, 5, 5]

/-- Domains that a rail feeds; VAUX feeds none (R572, R579). -/
def railDomains : Nat → List Nat
  | 0 => [0, 1, 3] | 1 => [2] | 3 => [7] | 4 => [6, 7, 8, 9] | 5 => [4, 5] | 6 => [4, 5]
  | 7 => [10, 11, 12, 13, 14, 15, 16, 17] | 8 => [10, 11, 12, 13, 14, 15, 16, 17] | 9 => [18, 19] | 10 => [18, 19]
  | 11 => [20, 21, 22] | 12 => [23, 24, 25] | 13 => [26, 27] | _ => []

/-- VSET of loop k in mV: a rail's, or a port's. -/
def loopVset (s : State) (k : Nat) : Nat := if k < 14 then inF s pCLE (CLE_RAIL_VSET_0 + 4 * k) 11 0 else inF s pCLE (CLE_EXT_CFG + 4 * (k - 14)) 11 0

/-- Set the history of a loop. -/
def putLoop (s : State) (k : Nat) (h : LoopHist) : State := putPwr s { s.pwr with loops := s.pwr.loops.putD k h LoopHist.zero }

/-- Starting a loop loads y and v with VSET ÷ VIN × 32,768 from the VIN monitor (R585). -/
def loopStart (s : State) (k : Nat) : State :=
  let d : Int := (loopVset s k * 32768 / max 1 s.pwr.vin : Nat)
  putLoop s k { LoopHist.zero with y1 := d, y2 := d, y3 := d, v1 := d, v2 := d, duty := d }

/-- A rail starts: its phases run and it is good. -/
def railStart (s : State) (r : Nat) : State :=
  if s.pwr.rails.testBit r then s
  else wrB (loopStart (putPwr s { s.pwr with rails := s.pwr.rails + 2 ^ r }) r) pCLE CLE_RAIL_GOOD r true

/-- A rail stops; its histories clear (R585). -/
def railStop (s : State) (r : Nat) : State :=
  if !s.pwr.rails.testBit r then s
  else wrB (putLoop (putPwr s { s.pwr with rails := s.pwr.rails - 2 ^ r }) r LoopHist.zero) pCLE CLE_RAIL_GOOD r false

/-- Rails follow their domains: one whose domains are all off stops, VAON and VAUX apart; one with a domain on runs (R573, R580). -/
def refreshRails (s : State) : State :=
  (List.range 14).foldl (fun s r =>
    if r = 0 ∨ r = 2 then s
    else if (railDomains r).any fun d => domainUp s d then railStart s r else railStop s r) s

/-- Rail of a phase (R579). -/
def railOfPhase (ph : Nat) : Nat := (railPhases.foldl (fun (a : Nat × Nat × Nat) n => if ph < a.1 then a else (a.1 + n, a.2.1 + 1, a.2.1)) (0, 0, 0)).2.2

/-- First phase of a rail. -/
def firstPhase (r : Nat) : Nat := (railPhases.take r).sum

/-- Is a phase retired? -/
def phaseRetired (s : State) (ph : Nat) : Bool := if ph < 32 then bit (rd s pCLE CLE_PHASE_RET_LO) ph else bit (rd s pCLE CLE_PHASE_RET_HI) (ph - 32)

/-- Phases of a rail in service; its current limit is 8 A for each lost below that of R579. -/
def livePhases (s : State) (r : Nat) : Nat := ((List.range (railPhases.getD r 0)).filter fun i => !phaseRetired s (firstPhase r + i)).length

/-- A phase is retired and its rail re-spread; the only phase of a rail is logged and keeps running (R581, R600). `trips` are the current-limit trips that the bucket counts (R597). -/
def phaseRetire (s : State) (ph trips : Nat) : State :=
  let s := (lbEvents s pCLE trips).1
  if phaseRetired s ph then s
  else
    let s := setFault s pCLE .permanent (Config.blockCause 21) ph
    if livePhases s (railOfPhase ph) ≤ 1 then s
    else
      let s := if ph < 32 then wrB s pCLE CLE_PHASE_RET_LO ph true else wrB s pCLE CLE_PHASE_RET_HI (ph - 32) true
      logRetire (irq s pCLE 1) pCLE (Config.blockCause 21) ph

/-! ### Shadow images (R334, R335) -/

/-- Pages of a domain on this part. -/
def domainPages (s : State) (d : Nat) : List Nat :=
  allPages.filter fun p => match pageKind? s.com.chip p with
    | some k => pageDomain k p == d
    | none => false

/-- Does the image hold a register: CTRL, IRQ_ENABLE, LB_LIMIT, LB_LEAK, STAGE_CTRL, and every RW field at 0x100 to 0xEFF? (R334) -/
def shadowed (s : State) (p off : Nat) : Bool :=
  off == rCTRL || off == rIRQ_ENABLE || off == rLB_LIMIT || off == rLB_LEAK || off == rSTAGE_CTRL
    || (decide (0x100 ≤ off) && decide (off < 0xF00) && match pageKind? s.com.chip p with
      | none => false
      | some k => match rowAt? k off with
        | some r => r.acc == .rw || r.acc == .rw0
        | none => false)

/-- Does the register keep its value without power: its reset value comes from MRAM, fuses, headers, the meter or ROM? -/
def keptReg (ch : Chip) (p off : Nat) : Bool :=
  match pageKind? ch p with
  | none => false
  | some k => match rowAt? k off with
    | some r => r.kept
    | none => false

/-- STAGE_STATUS as an image keeps it: APPLIED_EPOCH and DIRTY. -/
def shadowStage (w : Word) : Word := (w &&& 0x1000FFFF) ||| 0x01000000

/-- Write the shadow image of a domain; an armed injection code 2 makes its check bad (R334, R595). -/
def shadowWrite (s : State) (d : Nat) : State :=
  let ps := domainPages s d
  let mine (k : Nat) : Bool := ps.contains (k / 4096) && shadowed s (k / 4096) (k % 4096)
  let stages : Tab Word := ps.map fun p => (regKey p rSTAGE_STATUS, shadowStage (rd s p rSTAGE_STATUS))
  let live := stages.foldl (fun (t : Tab Word) e => t.put e.1 e.2) (s.com.regs.live.filter fun e => mine e.1)
  let bad := s.pwr.inject.contains (d, 2)
  let n := s.pwr.nextIseq + 1
  putPwr s { s.pwr with
    nextIseq := n
    iseq := s.pwr.iseq.put d n
    images := s.pwr.images.put d ⟨n, live, s.com.regs.inForce.filter fun e => mine e.1, bad⟩
    inject := if bad then removeFirst (· == (d, 2)) s.pwr.inject else s.pwr.inject }

/-- Registers of the pages of a domain after power returned: kept ones stand, `img` is restored, all others reset; expert staged copies equal the in-force values (R335). -/
def pageRestore (s : State) (d : Nat) (img : Option ShadowImage) : State :=
  let ps := domainPages s d
  let mine (k : Nat) : Bool := ps.contains (k / 4096)
  let keep (k : Nat) : Bool := !mine k || keptReg s.com.chip (k / 4096) (k % 4096)
  let fenced := ps.filter fun p => bit (rd s p rSTATUS) 1
  let live := s.com.regs.live.filter fun e => keep e.1
  let force := s.com.regs.inForce.filter fun e => keep e.1
  let (live, force) := match img with
    | none => (live, force)
    | some i =>
      let force := i.inForce.foldl (fun (t : Tab Word) e => t.put e.1 e.2) force
      let basic := i.live.filter fun e => decide (e.1 % 4096 < 0x800)
      let live := basic.foldl (fun (t : Tab Word) e => t.put e.1 e.2) live
      let live := (i.inForce.filter fun e => decide (0x800 ≤ e.1 % 4096)).foldl (fun (t : Tab Word) e => t.put e.1 e.2) live
      (live, force)
  let s := { s with com := { s.com with
      regs := ⟨live, force⟩
      lbFired := s.com.lbFired.filter fun p => !ps.contains p
      epochs := s.com.epochs.filter fun e => !ps.contains e.1
      since := s.com.since.filter fun e => !mine e.1 } }
  fenced.foldl (fun s p => wrB s p rSTATUS 1 true) s

/-- PMU restores the newest image whose ISEQ matches its own and whose check passes; with none, the pages take their reset values and `PMU.FAULT` records CLASS UNCORRECTABLE (R335). A domain that has never gone off has no image to miss. -/
def shadowRestore (s : State) (d : Nat) : State :=
  match s.pwr.iseq.get? d, s.pwr.images.get? d with
  | some n, some i => if i.iseq = n ∧ !i.bad then pageRestore s d (some i) else setFault (pageRestore s d none) pPMU .uncorrectable (Config.blockCause 22) d
  | some _, none => setFault (pageRestore s d none) pPMU .uncorrectable (Config.blockCause 22) d
  | none, _ => s

/-! ### Switching a domain (R150, R332, R333, R572 to R577) -/

/-- Domains that crew may hold off (R572). -/
def crewDomain (d : Nat) : Bool := (decide (10 ≤ d) && decide (d ≤ 17)) || (decide (21 ≤ d) && decide (d ≤ 27))

/-- Is the domain off in a power state? (R572) -/
def offIn (ps d : Nat) : Bool :=
  (decide (3 ≤ ps) && ((decide (10 ≤ d) && decide (d ≤ 19)) || decide (21 ≤ d))) || (decide (4 ≤ ps) && (d == 1 || (decide (6 ≤ d) && d != 3)))

/-- The power state that domains follow: the one being entered, else the present one. -/
def domainState (s : State) : Nat := match s.hst.power.target with
  | some t => t
  | none => s.hst.power.cur

/-- Is the domain to be off: held off by crew, or off in the power state? (R572, R596) -/
def domainWantedOff (s : State) (d : Nat) : Bool := bit (inForce s pPMU PMU_DOMAIN_OFF_REQ) d || offIn (domainState s) d

/-- A channel is idle: no die of it runs, suspends or queues anything but an erase that will be abandoned (R150). -/
def channelQuiet (s : State) (c : Nat) : Bool :=
  (chanOf s c).decoding.isEmpty && (List.range 16).all fun i =>
    let x := dieOf s (16 * c + i)
    x.running.isNone && x.reads == 0 && x.work.isEmpty && match x.suspended with
      | none => true
      | some ⟨.work (.erase _ _), _, _⟩ => true
      | some _ => false

/-- A commit is PENDING or ARMED on a page of the domain. -/
def commitWaits (s : State) (d : Nat) : Bool := (domainPages s d).any fun p => bit (rd s p rSTAGE_STATUS) 31 || bit (rd s p rSTAGE_STATUS) 30

/-- Caravans of domain 26 or 27. -/
def domainCaravans (d : Nat) : List Nat := (List.range 8).map fun i => (if d = 27 then 8 else 0) + i

/-- A hold of R574 on switching the domain off. -/
def domainHeld (s : State) (d : Nat) : Bool :=
  commitWaits s d ||
  (if 10 ≤ d ∧ d ≤ 17 then (List.range 8).any fun i => !channelQuiet s (8 * (d - 10) + i)
  else if d = 18 ∨ d = 19 then !s.map.wb.isEmpty || (List.range 4).any fun i => !inSelfRefresh s (4 * (d - 18) + i)
  else if d = 7 then !s.map.wb.isEmpty || !s.str.stripes.isEmpty || (s.cvn.cvn.any fun c => c.2.slots.any fun e => e.2.state == .suspended) || collectorsHold s
  else if d = 9 then s.key.keep.isNone && s.key.slots.any fun e => e.2.state != .empty
  else if 20 ≤ d ∧ d ≤ 25 then
    let c := d - 20
    (s.dis.running.any fun e => e.1 / 8 == c)
      || ((s.dis.items.any fun e => e.2.cluster == c && e.2.state == .preempted) && !bit (inForce s pMEC MEC_CS_RETAIN) c)
      || (s.prg.acts.any fun a => a.cluster == c)
  else if d = 26 ∨ d = 27 then (domainCaravans d).any fun n =>
    let c := cvnOf s n
    c.running.isSome || !c.suspended.isEmpty || !c.slots.isEmpty || inF s (pCVN n) CVN_PATH_CTRL 2 0 != 0
  else false)

/-- Merge buffers of a domain drain (R333). -/
def domainDrain (s : State) (d : Nat) : State :=
  if d = 7 then
    let s := (List.range 32).foldl (fun s b => (List.range 4).foldl (fun s _ => lndFlush s b) s) s
    s.mem.mrmMerge.foldl (fun s e => mrmWordStore { s with mem := { s.mem with mrmMerge := s.mem.mrmMerge.filter (· != e) } } e.index e.data) s
  else if d = 18 ∨ d = 19 then dramMergeDue s 64
  else s

/-- What is lost with a domain's power: banks and stores not retained, TCMs, tables, queues (R332, R335, R455). -/
def domainLose (s : State) (d : Nat) : State :=
  if d = 7 then
    let keep := inForce s pLND LND_RETAIN
    let lost (off : Nat) : Bool := !bit keep (lndBank off)
    { s with mem := { s.mem with
        landing := s.mem.landing.filter fun e => !lost e.1
        lndErr := s.mem.lndErr.filter fun e => !lost (8 * e.1)
        lndMerge := [] } }
  else if d = 9 then
    { s with
      dis := Dispatch.reset
      mte := { s.mte with entries := [], bad := [] }
      key := { s.key with resident := [] } }
  else if 10 ≤ d ∧ d ≤ 17 then
    (List.range 8).foldl (fun s i =>
      let c := 8 * (d - 10) + i
      let s := (List.range 16).foldl (fun s k => putDie (abandonErase s (16 * c + k) (dieOf s (16 * c + k)).suspended) (16 * c + k) Die.idle) s
      putChan s c { Channel.cold with inject := (chanOf s c).inject }) s
  else if 20 ≤ d ∧ d ≤ 25 then
    let c : Clu := ⟨(d - 20) % 6, Nat.mod_lt _ (by decide)⟩
    let x := s.nel.clusters[c]
    let keep := bit (inForce s pMEC MEC_CS_RETAIN) c.val
    let fresh := { Cluster.fresh with store := if keep then x.store else [], storeErr := if keep then x.storeErr else [] }
    let s := (coresOf c).foldl (fun s n => { s with nel := { s.nel with cores := s.nel.cores.set n Core.fresh } }) s
    { s with nel := { s.nel with clusters := s.nel.clusters.set c fresh } }
  else if d = 26 ∨ d = 27 then
    (domainCaravans d).foldl (fun s n => { s with cvn := { s.cvn with cvn := s.cvn.cvn.del n } }) s
  else s

/-- Expert unlocks of a domain's pages end with its power (R58). -/
def endUnlocks (s : State) (ps : List Nat) : State := ps.foldl (fun s p => wr s p rUNLOCK 0) s

/-- Close the clamps and open the switch of a domain (R575 steps 4 and 5). -/
def domainCut (s : State) (d : Nat) : State :=
  let s := domainLose (endUnlocks s (domainPages s d)) d
  refreshRails (wrB (wrB s pPMU PMU_ISO_STATE d true) pPMU PMU_DOMAIN_ON d false)

/-- Switch a domain off, once it is to be off and every hold is clear (R574, R575). -/
def domainOff (s : State) (d : Nat) : State :=
  if !domainUp s d || d == 0 || d == 2 || !domainWantedOff s d || ferryRunning s then s
  else
    let s := if d = 7 then collectorsSend s else s
    if domainHeld s d then s
    else
      let s := shadowWrite (domainDrain s d) d
      let s := bump (domainCut s d) pPMU PMU_SWITCHES 1
      if s.hst.power.target.isSome ∨ s.hst.power.cur ≥ 3 then putPwr s { s.pwr with entryOff := d :: s.pwr.entryOff } else s

/-- Is the domain's unit retired as a whole: a fenced cluster stays isolated (R600)? -/
def domainFenced (s : State) (d : Nat) : Bool := decide (20 ≤ d) && decide (d ≤ 25) && bit (rd s (pNCL (d - 20)) rSTATUS) 1

/-- A domain whose rail is not good twice: DOMAIN_FAIL, CLASS PERMANENT, FENCED on every page, and the retirement or the fatal fault that follows (R576, R600, R601). -/
def domainFail (s : State) (d : Nat) : State :=
  let s := setFault (irq s pPMU 0) pPMU .permanent (Config.blockCause 23) d
  if 20 ≤ d ∧ d ≤ 25 then retireCluster s ⟨(d - 20) % 6, Nat.mod_lt _ (by decide)⟩
  else if 10 ≤ d ∧ d ≤ 17 then (List.range 8).foldl (fun s i => if s.com.chip.hasChannel (8 * (d - 10) + i) then retireChannel s (8 * (d - 10) + i) else s) s
  else if d = 26 ∨ d = 27 then (domainCaravans d).foldl (fun s n => retireCvn s n true) s
  else if d = 18 ∨ d = 19 then
    let s := (domainPages s d).foldl (fun s p => wrB s p rSTATUS 1 true) s
    (List.range 4).foldl (fun s i => retireRank (retireRank s (4 * (d - 18) + i) 0 false) (4 * (d - 18) + i) 1 false) s
  else
    let s := (domainPages s d).foldl (fun s p => wrB s p rSTATUS 1 true) s
    fatalFault s ((domainPages s d).headD pPMU) (Config.blockCause 23) d

/-- The domain comes up: image and memories, clamps, reset (R576 steps 3 to 5). -/
def domainRaise (s : State) (d : Nat) : State :=
  let s := wrB s pPMU PMU_DOMAIN_ON d true
  let s := shadowRestore s d
  let s := refreshRails (wrB s pPMU PMU_ISO_STATE d false)
  let s := if d = 9 then refreshKeys (refreshMatch s) else s
  bump s pPMU PMU_SWITCHES 1

/-- Does an armed injection fail this attempt? Codes 1 and 3 fail the first, code 1 also the retry (R595). -/
def injectedFail (s : State) (d : Nat) (retry : Bool) : Bool := s.pwr.inject.contains (d, 1) || (!retry && s.pwr.inject.contains (d, 3))

/-- Switch a domain on; `good` says whether its rails report good at the first attempt and at the retry (R576). -/
def domainOn (s : State) (d : Nat) (good retryGood : Bool) : State :=
  if domainUp s d || d == 2 || !(binDomains s.com.chip).testBit d || domainFenced s d || domainWantedOff s d || ferryRunning s || s.fer.parked || !s.pwr.pins.pwrgd || s.pwr.pins.testEn then s
  else
    let ok := (good && !injectedFail s d false) || (retryGood && !injectedFail s d true)
    let inj := s.pwr.inject.contains (d, 1) || s.pwr.inject.contains (d, 3)
    let s := putPwr s { s.pwr with
      inject := s.pwr.inject.filter fun e => !(e.1 == d && e.2 != 2)
      entryOff := s.pwr.entryOff.filter (· != d) }
    if ok then domainRaise s d
    else if inj then injected s fun s => domainFail s d
    else domainFail s d

/-- A wake source starts an exit from PS3 or PS4: `PMU.WAKE` records it and the exit begins (R577, R578). -/
def wake (s : State) (src : Nat) : State :=
  let p := s.hst.power
  if p.target.isNone ∧ p.cur ≤ 2 ∨ src > 4 ∨ ferryRunning s ∨ s.fer.parked then s
  else
    let s := wr s pPMU PMU_WAKE (w32 ((rdF s pPMU PMU_WAKE 31 16 + 1) % 65536 * 65536 + s.pwr.entryOff.headD 0 * 256 + src))
    powerExit (irq s pPMU 1)

/-- `PMU.ERR_INJECT` (R595). -/
def pmuInject (s : State) (v : Word) : State :=
  let code := fld v 3 0
  if 1 ≤ code ∧ code ≤ 3 then putPwr s { s.pwr with inject := s.pwr.inject ++ [(fld v 12 8, code)] } else s

/-! ### Cluster clocks (R590, R591) -/

/-- APPLIED throttle level (R590). -/
def throttleLevel (s : State) : Nat := rdF s pCLE CLE_THROTTLE 23 16

/-- From level 225 up no caravan job starts in the first L − 224 µs of every 32 µs (R590). -/
def caravanHeld (s : State) : Bool := decide (s.com.time.toNat / 1000 % 32 + 224 < throttleLevel s)

/-- Cluster clock limit of the level, in 100 MHz (R590). -/
def clockLimit (s : State) : Nat :=
  let l := throttleLevel s
  if l ≤ 128 then 18 else if l ≤ 224 then 18 - cdiv (l - 128) 8 else 6

/-- Voltage in mV that a clock needs (R591). -/
def clockVolts (f : Nat) : Nat := 650 + 25 * (f - 6)

/-- The set points of VCLA and VCLB: what the fastest of their clusters that are on needs, 650 with none (R591, R597). -/
def refreshDvfs (s : State) : State :=
  let need (l : List Nat) : Nat := ((l.filter fun c => domainUp s (20 + c)).map fun c => clockVolts (clkNow s c)).foldl max 650
  let a := need [0, 1, 2]
  let b := need [3, 4, 5]
  let s := wrForce (wr s pCLE CLE_RAIL_VSET_11 (w32 a)) pCLE CLE_RAIL_VSET_11 (w32 a)
  let s := wrForce (wr s pCLE CLE_RAIL_VSET_12 (w32 b)) pCLE CLE_RAIL_VSET_12 (w32 b)
  wr s pCLE CLE_DVFS_STATUS (w32 (b * 65536 + a))

/-- A cluster changes to the lower of CLK_REQ and the clock limit (R591). -/
def dvfsChange (s : State) (c : Clu) : State :=
  let target := min (inF s (pNCL c.val) NCL_CLK_REQ 4 0) (clockLimit s)
  if !domainUp s (20 + c.val) || clkNow s c.val == target then s
  else
    let s := (coresOf c).foldl (fun s n => settleBusy (settleCycles s n) n.val) s
    refreshDvfs (wrF s (pNCL c.val) NCL_CLK_NOW 4 0 target)

/-! ### Power tokens (R592 to R594) -/

/-- The ceiling clamped into TOKEN_MIN to TOKEN_MAX (R593). -/
def setCeiling (s : State) (v : Nat) : State :=
  let lo := inF s pCLE CLE_TOKEN_MIN 10 0
  let hi := inF s pCLE CLE_TOKEN_MAX 10 0
  wr s pCLE CLE_TOKEN_CEIL (w32 (max lo (min hi v)))

/-- TOKEN_RATE_SET (R593). -/
def tokenRateSet (s : State) (arg : Word) : State × Nat := (setCeiling s (fld arg 15 0), 0)

/-- Token limit of the throttle level (R590). -/
def tokenLimit (s : State) : Nat :=
  let l := throttleLevel s
  let ceil := rdF s pCLE CLE_TOKEN_CEIL 10 0
  let lo := inF s pCLE CLE_TOKEN_MIN 10 0
  if l = 0 then ceil else if l ≤ 128 then ceil - (ceil - lo) * l / 128 else lo

/-- Does a die wait for a power token: a program or erase at its head, or a resume? (R164) -/
def wantsToken (x : Die) : Bool := !x.token && (x.suspended.isSome || (x.running.isNone && !x.work.isEmpty))

/-- Grant a token, or refuse it: it counts in TOKEN_WAITS and keeps its place (R594). -/
def grantToken (s : State) (d : Nat) : State :=
  let x := dieOf s d
  if !wantsToken x then s
  else if s.pwr.tokens = 0 then
    let s := bump s pCLE CLE_TOKEN_WAITS 1
    putDie (putPwr s { s.pwr with refused := s.pwr.refused ++ [d] }) d { x with asking := true }
  else
    let s := bumpSince (bump s pCLE CLE_TOKEN_DRAWN 1) pCLE CLE_SNAP_TOKENS 1
    putDie (putPwr s { s.pwr with tokens := s.pwr.tokens - 1 }) d { x with token := true, asking := false }

/-- N of the token loop from the flash current in 10 mA (R592). -/
def tokenValue (s : State) (current : Nat) : Nat :=
  let n := rdF s pCLE CLE_TOKEN_NOW 26 16
  let lim := inF s pCLE CLE_FLASH_ILIM 15 0
  let ceil := rdF s pCLE CLE_TOKEN_CEIL 10 0
  let n := if lim = 0 then ceil else if current > lim then n - 4 else if 10 * current < 9 * lim then n + 1 else n
  max (inF s pCLE CLE_TOKEN_MIN 10 0) (min ceil n)

/-- A slot starts: the last slot's tokens lapse, the loop issues this slot's, and refused requests come first (R98, R592, R594). -/
def tokenSlot (s : State) (current : Nat) : State :=
  let n := s.com.time.toNat / 1000
  if s.pwr.slot = some n then s
  else
    let s := bump s pCLE CLE_TOKEN_LAPSED s.pwr.tokens
    let v := if s.fer.powerFail then rdF s pCLE CLE_TOKEN_NOW 26 16 else tokenValue s current
    let issue := if s.fer.powerFail then inF s pCLE CLE_FERRY_TOKENS 6 0 else min v (tokenLimit s)
    let s := wr s pCLE CLE_TOKEN_NOW (w32 (v * 65536 + issue))
    let again := s.pwr.refused
    again.foldl grantToken (putPwr s { s.pwr with slot := some n, tokens := issue, refused := [] })

/-- Requests of one engine cycle: cyclically upward from channel n mod 64; a group of several is a tie (R594). -/
def tokenRequests (s : State) (group : List (Nat × Nat)) : State :=
  let n := s.com.time.toNat / 1000
  let l := (sortBy (fun a b : Nat × Nat => decide ((a.1 + 64 - n % 64) % 64 ≤ (b.1 + 64 - n % 64) % 64)) group).filter fun e => !s.pwr.refused.contains (16 * e.1 + e.2)
  let s := if group.length ≥ 2 then bump s pCLE CLE_TIE_COUNT 1 else s
  l.foldl (fun s e => grantToken s (16 * e.1 + e.2)) s

/-! ### Loops (R582 to R586) -/

/-- Saturate to 16 bits. -/
def sat16 (v : Int) : Int := clampInt (-32768) 32767 v

/-- Does a loop evaluate: its rail's phases run, or its port is enabled? (R582) -/
def loopRuns (s : State) (k : Nat) : Bool := if k < 14 then s.pwr.rails.testBit k else bit (inForce s pCLE CLE_EXT_ENABLE) (k - 14)

/-- One evaluation: compensator, clamp, notch, duty, histories (R583 to R585). -/
def loopEval (s : State) (k sample : Nat) : State :=
  if !loopRuns s k then s
  else
    let b := 32 * k
    let co (reg hi lo : Nat) : Int := sgn 16 (inF s pCLE (reg + b) hi lo)
    let h := s.pwr.loops.getD k LoopHist.zero
    let e : Int := (2 * loopVset s k : Nat) - (sample : Nat)
    let third := inF s pCLE (CLE_CTRL_A3 + b) 24 24 == 1
    let b3 := if third then co CLE_COEF_B23 31 16 else 0
    let a3 := if third then co CLE_CTRL_A3 15 0 else 0
    let acc := co CLE_COEF_B01 15 0 * e + co CLE_COEF_B01 31 16 * h.e1 + co CLE_COEF_B23 15 0 * h.e2 + b3 * h.e3
      + co CLE_COEF_A12 15 0 * h.y1 + co CLE_COEF_A12 31 16 * h.y2 + a3 * h.y3
    let lo : Int := inF s pCLE (CLE_LIMITS + b) 15 0
    let hi : Int := inF s pCLE (CLE_LIMITS + b) 31 16
    let y := clampInt lo hi (sat16 (acc / (2 ^ (15 - inF s pCLE (CLE_CTRL_A3 + b) 18 16) : Nat)))
    let v := if inF s pCLE (CLE_CTRL_A3 + b) 25 25 = 1 then
        clampInt lo hi ((co CLE_NOTCH_N01 15 0 * y + co CLE_NOTCH_N01 31 16 * h.y1 + co CLE_NOTCH_N2D1 15 0 * h.y2 + co CLE_NOTCH_N2D1 31 16 * h.v1 + co CLE_NOTCH_D2 15 0 * h.v2) / 16384)
      else y
    putLoop s k ⟨e, h.e1, h.e2, y, h.y1, h.y2, v, h.v1, v⟩

/-! ### Temperature, power cap and throttling (R588, R589) -/

/-- Readings of the junction sensors in 1/16 °C, an injected one at 112 °C while it lasts (R588, R597). -/
def sensorReads (s : State) (temps : List Int) : List Int :=
  match s.pwr.heated with
  | some (i, t) => if s.com.time.toNat < t.toNat then temps.set i 1792 else temps
  | none => temps

/-- A sample of the sensors: TEMP_MAX, the run of hot samples, TEMP_WARN (R588, R597). -/
def thermalSample (s : State) (temps : List Int) : State :=
  let l := (sensorReads s (temps.take 32)).zipIdx
  match l with
  | [] => s
  | first :: _ =>
    let top := l.foldl (fun (m : Int × Nat) x => if x.1 > m.1 then x else m) first
    let was := sgn 12 (rdF s pCLE CLE_TEMP_MAX 11 0)
    let hot := l.foldl (fun (t : Tab Nat) x => t.putD x.2 (if x.1 ≥ 1840 then t.getD x.2 0 + 1 else 0) 0) s.pwr.hot
    let s := wr s pCLE CLE_TEMP_MAX (w32 (top.2 * 65536 + toField 12 top.1))
    let s := putPwr s { s.pwr with hot := hot }
    if top.1 ≥ 1520 ∧ was < 1520 then irq s pCLE 5 else s

/-- Does some sensor read 115 °C or more in two samples in a row? (R588) -/
def thermalTripDue (s : State) : Bool := s.pwr.hot.any fun e => decide (2 ≤ e.2)

/-- Maximum power of a power state in 10 mW (R140). -/
def stateCap : Nat → Nat
  | 0 => 6500 | 1 => 4800 | 2 => 3200 | 3 => 600 | _ => 90

/-- C of R589 in 10 mW. -/
def capNow (s : State) : Nat :=
  let lim := inF s pCLE CLE_CAP_LIMIT 9 0
  if s.fer.powerFail then 5000 else if lim = 0 then stateCap s.hst.power.cur else min (10 * lim) (stateCap s.hst.power.cur)

/-- Power of the enabled ports in 10 mW: V × I ÷ EFF, from mV and mA (R587). -/
def portPower (s : State) (ports : List (Nat × Nat)) : Nat :=
  (ports.zipIdx.map fun e =>
    if bit (inForce s pCLE CLE_EXT_ENABLE) e.2 then e.1.1 * e.1.2 / (100 * max 1 (inF s pCLE (CLE_EXT_CFG + 4 * e.2) 30 24)) else 0).sum

/-- The two throttle levels after 100 µs of mean power, given the VIN power in 10 mW and the ports' mV and mA (R589). -/
def throttleUpdate (s : State) (vin : Nat) (ports : List (Nat × Nat)) : State :=
  let t := sgn 12 (rdF s pCLE CLE_TEMP_MAX 11 0) / 16
  let target : Int := inF s pCLE CLE_TJ_TARGET 6 0
  let th := rdF s pCLE CLE_THROTTLE 7 0
  let cp := rdF s pCLE CLE_THROTTLE 15 8
  let th' := if t > target then min 255 (th + 4 * (t - target).toNat) else th - 1
  let p := vin + portPower s ports
  let c := capNow s
  let cp' :=
    if s.hst.power.cur > 2 ∧ !s.fer.powerFail then cp
    else if p > c then min 255 (cp + inF s pCLE CLE_CAP_GAIN 7 0 * cdiv (p - c) 100)
    else if p + 100 < c then cp - 1 else cp
  let s := wr (wr s pCLE CLE_NODE_POWER (w32 (min 0xFFFF p))) pCLE CLE_POWER_CAP (w32 c)
  let s := wr s pCLE CLE_THROTTLE (w32 (max th' cp' * 65536 + cp' * 256 + th'))
  let s := if th = 0 ∧ th' ≠ 0 then irq s pCLE 2 else s
  if cp = 0 ∧ cp' ≠ 0 then irq s pCLE 3 else s

/-! ### External ports (R587) -/

/-- EXT_STATUS of a port that is not good for 100 µs; ports 0 and 1 take their channels with them. Ports 2 to 5 cause a brownout beside this. -/
def portFault (s : State) (p : Nat) : State :=
  let s := irq (wrB (wrB s pCLE CLE_EXT_STATUS (8 + p) true) pCLE CLE_EXT_STATUS p false) pCLE 4
  if p < 2 then (List.range 32).foldl (fun s i => if s.com.chip.hasChannel (32 * p + i) then retireChannel s (32 * p + i) else s) s else s

/-! ### Commits (R596, R599) -/

/-- A domain with an enabled die, an enabled core, an activated program or a caravan on a path (R596). -/
def domainInUse (s : State) (d : Nat) : Bool :=
  if 10 ≤ d ∧ d ≤ 17 then (List.range 8).any fun i =>
    let c := 8 * (d - 10) + i
    (inForce s (pFCH c) FCH_DIE_ENABLE &&& ~~~(rd s (pFCH c) FCH_DIE_RETIRED)) &&& 0xFFFF != 0
  else if 20 ≤ d ∧ d ≤ 25 then
    ((inForce s (pNCL (d - 20)) NCL_CORE_ENABLE &&& ~~~(rd s (pNCL (d - 20)) NCL_CORE_RETIRED)) &&& 0xFF != 0) || s.prg.acts.any fun a => a.cluster == d - 20
  else if d = 26 ∨ d = 27 then (domainCaravans d).any fun n => inF s (pCVN n) CVN_PATH_CTRL 2 0 != 0
  else false

/-- Commit checks of `PMU` (R268, R596). -/
def checkPmu (s : State) : List (Nat × Nat) :=
  let req := rd s pPMU PMU_DOMAIN_OFF_REQ
  let named := (List.range 28).filter fun d => bit req d
  let trip := rdF s pPMU PMU_VTRIP 12 0
  let hyst := rdF s pPMU PMU_VTRIP 23 16
  let hold := rdF s pPMU PMU_RESTART_HOLD 15 0
  (if named.any fun d => !crewDomain d || domainInUse s d then [(PMU_DOMAIN_OFF_REQ, 3)] else [])
  ++ (if named.any fun d => !(binDomains s.com.chip).testBit d then [(PMU_DOMAIN_OFF_REQ, 5)] else [])
  ++ (if trip < 3000 ∨ trip > 5000 ∨ hyst < 20 ∨ hyst > 250 then [(PMU_VTRIP, 1)] else [])
  ++ (if trip + hyst + 100 > s.fer.vin then [(PMU_VTRIP, 3)] else [])
  ++ (if hold < 1 ∨ hold > 60000 then [(PMU_RESTART_HOLD, 1)] else [])

/-- VSET range of each rail in mV; VTOL, VCLA and VCLB are read-only (R579, R597). -/
def railRange : Nat → Nat × Nat
  | 0 => (700, 800) | 2 => (1710, 1890) | 3 => (1710, 1890) | 4 => (750, 850) | 5 => (750, 850) | 6 => (850, 950) | 7 => (750, 850)
  | 8 => (850, 950) | 9 => (750, 850) | 10 => (850, 950) | 13 => (750, 850) | _ => (0, 4095)

/-- VSET range of each port in mV (R587). -/
def portRange : Nat → Nat × Nat
  | 0 => (2350, 3450) | 1 => (2350, 3450) | 2 => (1140, 1260) | 3 => (1060, 1170) | 4 => (1060, 1170) | _ => (1710, 1890)

/-- Domains that a port's board rail feeds: flash VCC by half, VCCQ, DRAM (R587). -/
def portDomains : Nat → List Nat
  | 0 => [10, 11, 12, 13] | 1 => [14, 15, 16, 17] | 2 => [10, 11, 12, 13, 14, 15, 16, 17] | _ => [18, 19]

/-- Does TOKEN_MIN take the suspension bound of R166 past 30 ms on some channel? -/
def tokenMinTooLow (s : State) (tmin : Nat) : Bool :=
  (usedChannels s).any fun c => (List.range 4).any fun t => boundExceeds (fun off => inForce s (pFCH c) off) (diesAfter s 64) tmin t

/-- Commit checks of `CLE` (R599). -/
def checkCle (s : State) : List (Nat × Nat) :=
  let tj := rdF s pCLE CLE_TJ_TARGET 6 0
  let cap := rdF s pCLE CLE_CAP_LIMIT 9 0
  let tmax := rdF s pCLE CLE_TOKEN_MAX 10 0
  let tmin := rdF s pCLE CLE_TOKEN_MIN 10 0
  let gain := rdF s pCLE CLE_CAP_GAIN 7 0
  let ft := rdF s pCLE CLE_FERRY_TOKENS 6 0
  let en := rd s pCLE CLE_EXT_ENABLE
  (if tmax = 0 then [(CLE_TOKEN_MAX, 4)] else [])
  ++ (if tmax > 1024 then [(CLE_TOKEN_MAX, 1)] else [])
  ++ (if tj < 70 ∨ tj > 110 then [(CLE_TJ_TARGET, 1)] else [])
  ++ (if cap ≠ 0 ∧ (cap < 100 ∨ cap > 650) then [(CLE_CAP_LIMIT, 1)] else [])
  ++ (if gain < 1 ∨ gain > 64 then [(CLE_CAP_GAIN, 1)] else [])
  ++ (if ft < 1 ∨ ft > 64 then [(CLE_FERRY_TOKENS, 1)] else [])
  ++ ((List.range 14).filterMap fun r =>
    let v := rdF s pCLE (CLE_RAIL_VSET_0 + 4 * r) 11 0
    if v < (railRange r).1 ∨ (railRange r).2 < v then some (CLE_RAIL_VSET_0 + 4 * r, 1) else none)
  ++ ((List.range 6).filterMap fun p =>
    let v := rdF s pCLE (CLE_EXT_CFG + 4 * p) 11 0
    let eff := rdF s pCLE (CLE_EXT_CFG + 4 * p) 30 24
    if bit en p ∧ (v < (portRange p).1 ∨ (portRange p).2 < v ∨ eff < 50 ∨ eff > 100) then some (CLE_EXT_CFG + 4 * p, 1) else none)
  ++ ((List.range 20).flatMap fun k =>
    let b := 32 * k
    let two := rdF s pCLE (CLE_CTRL_A3 + b) 24 24 == 0
    (if rdF s pCLE (CLE_LIMITS + b) 31 16 > 29491 then [(CLE_LIMITS + b, 1)] else [])
    ++ (if two && (rdF s pCLE (CLE_COEF_B23 + b) 31 16 != 0 || rdF s pCLE (CLE_CTRL_A3 + b) 15 0 != 0) then [(CLE_COEF_B23 + b, 3)] else [])
    ++ (if rdF s pCLE (CLE_LIMITS + b) 15 0 > rdF s pCLE (CLE_LIMITS + b) 31 16 then [(CLE_LIMITS + b, 3)] else []))
  ++ (if tmin = 0 then [(CLE_TOKEN_MIN, 3)] else if tmin > tmax then [(CLE_TOKEN_MAX, 3)] else [])
  ++ (if tmin ≠ inF s pCLE CLE_TOKEN_MIN 10 0 ∧ tokenMinTooLow s tmin then [(CLE_TOKEN_MIN, 3)] else [])
  ++ ((List.range 6).filterMap fun p =>
    if !bit en p && bit (inForce s pCLE CLE_EXT_ENABLE) p && (portDomains p).any fun d => domainUp s d then some (CLE_EXT_ENABLE, 3) else none)

/-- What an apply of `CLE` does beside the fields: the ceiling follows TOKEN_MIN and TOKEN_MAX, and ports start or stop (R585, R587, R593). -/
def applyCle (old s : State) : State :=
  let s := setCeiling s (rdF s pCLE CLE_TOKEN_CEIL 10 0)
  (List.range 6).foldl (fun s p =>
    let was := bit (inForce old pCLE CLE_EXT_ENABLE) p
    let now := bit (inForce s pCLE CLE_EXT_ENABLE) p
    if now && !was then wrB (loopStart s (14 + p)) pCLE CLE_EXT_STATUS p true
    else if was && !now then wrB (putLoop s (14 + p) LoopHist.zero) pCLE CLE_EXT_STATUS p false
    else s) s

/-- `CLE.ERR_INJECT` codes 1, 2 and 4 (R597); code 3 is a port fault. -/
def cleInject (s : State) (v : Word) : State :=
  match fld v 3 0 with
  | 1 => if fld v 13 8 < 40 then injected s fun s => phaseRetire s (fld v 13 8) 0 else s
  | 2 => putPwr s { s.pwr with heated := some (0, s.com.time + 1000000) }
  | 4 => wrF s pCLE CLE_TOKEN_NOW 26 16 (inF s pCLE CLE_TOKEN_MIN 10 0)
  | _ => s

end Sys2Proof.Machine
end

