-- ==== Sys2Proof/Machine/Ferry.lean ====
section
/-! DEFINITION. The last ferry, the reset ferry, the park and restart recovery (R97, R142, R169, R207, R265 to R288, R387, R418, R609). -/

namespace Sys2Proof.Machine

/-- Set the ferry part. -/
def putFer (s : State) (f : Ferry) : State := { s with fer := f }

/-- STEP of FERRY_STATUS (R267). -/
def ferryStep (s : State) (n : Nat) : State := wrF s pPMU PMU_FERRY_STATUS 3 0 n

/-! ### The ferry record (R273) -/

/-- Code of a record's STATE. -/
def FerryState.code : FerryState → Nat
  | .none => 0 | .begun => 1 | .done => 2 | .replayed => 3

/-- The 64 bytes of a ferry record. -/
def FerryRecord.bytes (r : FerryRecord) : List Byte :=
  let b := bytesLE 4 r.fseq ++ bytesLE 1 r.state.code ++ bytesLE 1 r.sets ++ bytesLE 2 r.vmin ++ bytesLE 4 r.unitsAtStart ++ bytesLE 4 r.unitsDumped
    ++ bytesLE 8 r.bytesAtStart ++ bytesLE 4 r.jseq ++ bytesLE 4 r.sseq ++ bytesLE 4 r.duration ++ List.replicate 24 0
  b ++ bytesLE 4 (crc32c b)

/-- Write the record to the copy of its FSEQ; the other copy keeps the record before it. -/
def putRecord (s : State) (r : FerryRecord) : State :=
  putFer (mramPut s (0x1000 + 64 * (r.fseq % 2)) r.bytes) { s.fer with record := r }

/-! ### Steps of the ferry (R269) -/

/-- A data page whose program has passed is journaled with STRIPE_PROG (R269 step 4). -/
def ferryPass (s : State) (w : Work) : State :=
  match w with
  | .erase _ _ => s
  | .program _ page set i =>
    match setAt? s set, stripeOf? s set with
    | some e, some o =>
      if o.page == page && o.phase == .filling && decide (i < e.k) && !o.mask.testBit i then
        let o := { o with mask := o.mask + 2 ^ i, acc := true }
        sIssue (putStripe s o) (.stripeProg (stripeNo set page) o.mask)
      else s
    | _, _ => s

/-- A die at step 4: running and suspended programs complete, erases are abandoned, everything not started is dropped (R169, R269). -/
def ferryDie (s : State) (d : Nat) : State :=
  let x := dieOf s d
  let s := abandonErase (abandonErase s d x.running) d x.suspended
  let s := putDie s d Die.idle
  let op (o : Option RunOp) : List Work := match o with
    | some ⟨.work w, _, _⟩ => [w]
    | _ => []
  (op x.suspended ++ op x.running).foldl ferryPass s

/-- Step 4: the channels' work, then every issued record durable; background work stops. -/
def ferryChannels (s : State) : State :=
  let s := (s.fch.dies.map (·.1)).foldl ferryDie s
  let s := { s with
    fch := { s.fch with fore := [], back := [], soft := [], recon := [], ready := [] }
    map := { s.map with gc := [], held := [], filling := [] } }
  journalFlush s

/-- Units that the dump holds: the write-buffer index but for units of a ferry not yet replayed (R271, R277). -/
def dumpUnits (s : State) : List WbUnit := s.map.wb.filter fun w => !w.reloaded

/-- Slots of a dumped unit: its header and its data (R272). -/
def dumpSlots (w : WbUnit) : Nat := 1 + cdiv w.data.length 64

/-- Blocks that the dump fills, a unit never crossing one (R272). -/
def dumpBlocks (room : Nat) (l : List WbUnit) : Nat :=
  (l.foldl (fun (a : Nat × Nat) w => if a.2 + dumpSlots w ≤ room then (a.1, a.2 + dumpSlots w) else (a.1 + 1, dumpSlots w)) (0, room)).1

/-- Floor blocks (R207). -/
def floorList (s : State) : List (Nat × Nat) := (s.map.bst.filter fun e => e.2.floor).map fun e => (e.1 / 16384, e.1 % 16384)

/-- Ferry sets that the dump uses (R271, R273). -/
def ferrySets (s : State) (l : List WbUnit) : Nat :=
  match floorList s with
  | [] => 0
  | (d, _) :: _ =>
    let k := max 1 (layoutWidth s - parityCount s)
    min 64 (cdiv (dumpBlocks (256 * modePages s d true) l) k)

/-- Step 6: the accumulator of every open stripe without durable provisional parity goes to the floor, with its PROV_PARITY record (R269). -/
def saveParity (s : State) : State :=
  (s.str.stripes.filter fun o => o.acc && o.prov.isNone).foldl (fun s o =>
    let st := stripeNo o.set o.page
    let at_ := (floorList s).headD (0, 0)
    let s := sIssue s (.provParity st o.mask (at_.1, at_.2, 0, 0x3FF, 0x3FFF, 0))
    putFer s { s.fer with savedParity := s.fer.savedParity ++ [st] }) s

/-- Host side of steps 2 and 3: commands not past step 4 of the write path are abandoned, their room is released, the ports' transmit sides are off (R270). -/
def ferryHost (s : State) : State :=
  { s with
    hst := { s.hst with
      cmds := [], linkA := { s.hst.linkA with up := false }, linkB := { s.hst.linkB with up := false }
      power := { s.hst.power with target := none } }
    map := { s.map with reserved := 0 } }

/-- Step 3: clusters other than the ferry cluster, and the caravans, go off (R269, R387, R418). -/
def ferryDomains (s : State) (keep : Option Nat) : State :=
  let s := cvnAbandon s
  ((List.range 6).filter (fun c => keep != some c)).foldl (fun s c => domainCut s (20 + c)) (domainCut (domainCut s 26) 27)

/-- Steps 1 to 4. A PWR_FAIL, and no reset ferry, raises the ferry slot and the PWR_FAIL line. -/
def ferryBegin (s : State) (reset : Bool) : State :=
  let s := wrF (bump s pPMU PMU_FERRY_COUNT 1) pPMU PMU_FERRY_STATUS 4 4 1
  let s := ferryStep (haltCommits (putFer s { s.fer with powerFail := !reset, resetFerry := reset })) 1
  let s := ferryStep (ferryHost (if reset then s else ferryItem { s with key := { s.key with keep := none } })) 2
  let s := ferryStep (ferryDomains s (ferryCluster s)) 3
  ferryStep (ferryChannels s) 4

/-- A ferry not yet REPLAYED: its record and its dump stand (R277). -/
def recordStands (s : State) : Bool := s.fer.record.state == .done || s.fer.record.state == .begun

/-- Step 5 up to `n` units: the record BEGUN, then the dump (R271 to R273). While an earlier ferry is not replayed its record and dump stand (R277). -/
def ferryDump (s : State) (vmin n : Nat) : State :=
  let s := ferryStep s 5
  let l := dumpUnits s
  if recordStands s then wr (wr s pPMU PMU_FERRY_UNITS 0) pPMU PMU_FERRY_VMIN (w32 vmin)
  else
    let r : FerryRecord := ⟨(s.fer.record.fseq + 1) % 2 ^ 32, .begun, ferrySets s l, vmin, l.length, min n l.length, (l.map fun w => w.data.length).sum, 0, 0, 0⟩
    let s := putRecord s r
    let s := putFer s { s.fer with dump := l.take n, savedParity := [] }
    wr (wr s pPMU PMU_FERRY_UNITS (w32 (min n l.length))) pPMU PMU_FERRY_VMIN (w32 vmin)

/-- Steps 6 and 7: parity saved, every record durable, and the record of this ferry, if it has one, DONE (R269, R277). -/
def ferryDone (s : State) (micros : Nat) (own : Bool) : State :=
  let s := ferryStep (saveParity (ferryStep s 6)) 7
  let s := journalFlush s
  let r := s.fer.record
  let s := if own then
      putRecord s { r with state := .done, jseq := jDurable s, sseq := (rd s pSTR STR_SSEQ_DURABLE).toNat, duration := micros }
    else s
  wrF (wr s pPMU PMU_FERRY_TIME (w32 micros)) pPMU PMU_FERRY_STATUS 9 8 1

/-- Step 8, the park: every domain but PD00 off, CE high and WP_n low on every channel; a reset ferry keeps PD02 and PD03 (R269, R609). -/
def ferryPark (s : State) : State :=
  let keep : List Nat := if s.fer.resetFerry then [0, 2, 3] else [0]
  let s := ((List.range 28).filter fun d => !keep.contains d).foldl (fun s d => if domainUp s d then domainCut s d else wrB s pPMU PMU_DOMAIN_ON d false) s
  let s := (List.range 64).foldl (fun s c => if s.com.chip.hasChannel c then putChan s c { chanOf s c with wpHigh := false, ceHigh := true } else s) s
  let s := wrF (ferryStep s 8) pPMU PMU_FERRY_STATUS 4 4 0
  let s := putPwr s { s.pwr with pins := { s.pwr.pins with pwrgd := s.fer.resetFerry } }
  putFer s { s.fer with parked := true, hold := 0, adminReady := false, ioReady := false, replayed := false }

/-- May PWR_FAIL be raised: the device is past power-good and no ferry runs or has parked? (R265) -/
def ferryMay (s : State) : Bool := s.pwr.pins.pwrgd && !s.fer.parked && !ferryRunning s

/-- The whole ferry (R269). -/
def lastFerry (s : State) (reset : Bool) (vmin micros : Nat) : State :=
  if ferryMay s then ferryPark (ferryDone (ferryDump (ferryBegin s reset) vmin (dumpUnits s).length) micros (!recordStands s)) else s

/-- A ferry that VIN below 2.7 V cuts short after `n` units; the brownout scope follows (R266). -/
def cutFerry (s : State) (vmin n : Nat) : State := if ferryMay s then wrF (ferryDump (ferryBegin s false) vmin n) pPMU PMU_FERRY_STATUS 4 4 0 else s

/-! ### What a loss of power leaves of the journals and tables (R205, R217, R220) -/

/-- Changes whose records were not durable never happened: entries, directory and block states go back (R205). -/
def rollBack (s : State) : State :=
  let u := s.map.undo
  let s := { s with map := { s.map with undo := [], journal := s.map.journal.filter fun r => seqLe r.seq (jDurable s) } }
  let s := wr s pMAP MAP_JSEQ_ISSUED (rd s pMAP MAP_JSEQ_DURABLE)
  let s := u.foldl (fun s c =>
    if c.2.2.2 then setDir s (c.2.1 / 2 ^ 40) (c.2.1 % 2 ^ 40) c.2.2.1 (jDurable s)
    else setEntry s (c.2.1 / 2 ^ 48) (c.2.1 % 2 ^ 48) c.2.2.1 (jDurable s)) s
  let j := jDurable s
  let fix (e : Bst) : Bst :=
    let e := settle j e
    { e with changing := none, pins := 0, waiting := 0, eraseIssued := false, state := if e.state = .victim then .closed else e.state }
  { s with map := { s.map with
      undo := [], bst := (s.map.bst.map fun e => (e.1, settle j (fix e.2))).filter fun e => e.2 != Bst.fresh
      gc := [], held := [], filling := [], cached := [], dirty := [], cleaning := [], window := [], slots := 0, wb := [], reserved := 0, ckpt := none, lastLookup := none
      stamp := s.map.stampReserved } }

/-! ### Restart (R282 to R288) -/

/-- Replay of the stripe journal meets its torn record: at the end of the ring the page it listed is dead again; with a record after it the ring is unreadable (R205, R246). -/
def stripeReplay (s : State) : State × Bool :=
  match s.str.journal.find? (·.torn) with
  | none => (s, true)
  | some r =>
    if (s.str.journal.getLast?.map (·.seq)) ≠ some r.seq then (s, false)
    else
      let s := { s with str := { s.str with journal := s.str.journal.dropLast } }
      match r.payload with
      | .stripeProg st m =>
        match stripeOf? s (st / 4096) with
        | some o => (putStripe s { o with mask := o.mask - 2 ^ Nat.log2 (max 1 m) }, true)
        | none => (s, true)
      | .stripeClose st _ _ => ({ s with str := { s.str with unresync := s.str.unresync ++ [st] } }, true)
      | .setOpen n _ _ _ => (dropStripe { s with str := { s.str with sets := s.str.sets.del n } } n, true)
      | _ => (s, true)

/-- In-flight stripes after a stop without a complete ferry are unresynchronised; their sets go on at the next page (R244, R284). -/
def unresyncOpen (s : State) : State :=
  let l := s.str.stripes.filter fun o => o.mask != 0 || o.phase != .filling
  let s := l.foldl (fun s o =>
    match setAt? s o.set with
    | none => dropStripe s o.set
    | some e =>
      let s := { s with str := { s.str with unresync := s.str.unresync ++ [stripeNo o.set o.page] } }
      let e := { e with next := o.page + 1, provisional := false }
      if e.next ≥ e.pages then closeSet (putSet s o.set e) o.set e e.pages false else putStripe (putSet s o.set e) (freshStripe s o.set e.next)) s
  refreshResync s

/-- After a complete ferry: a stripe whose parity the ferry saved is closed with PAD pages and final parity and verified; one provisional before stays so (R284). -/
def closeSaved (s : State) : State :=
  let l := s.str.stripes.filter fun o => s.fer.savedParity.contains (stripeNo o.set o.page)
  let s := l.foldl (fun s o =>
    match setAt? s o.set, stripeOf? s o.set with
    | some e, some o =>
      let s := padStripe s o.set e o
      match stripeOf? s o.set with
      | some o => finishStripe s o.set e o 0
      | none => s
    | _, _ => s) s
  putFer s { s.fer with savedParity := [] }

/-- Open sets queue their next member again. -/
def requeueSets (s : State) : State :=
  s.str.stripes.foldl (fun s o =>
    match setAt? s o.set with
    | some e => if o.phase = .filling then queueMember s o.set e o else s
    | none => s) s

/-- Every rebuild that is not DONE repeats its census (R257). -/
def restartRebuilds (s : State) : State :=
  { s with str := { s.str with rebuilds := s.str.rebuilds.map fun e =>
      (e.1, if e.2.state = .none ∨ e.2.state = .done then e.2 else { e.2 with state := .fenced, prev := .none, census := [] }) } }

/-- A Persistent Event log entry. -/
def persistentEvent (s : State) (code a b : Nat) : State := putFer s { s.fer with events := s.fer.events ++ [⟨code, a, b⟩] }

/-- A dumped unit whose data is lost while its header survives: its entry becomes invalid and it enters the media error log (R283). -/
def loseUnit (s : State) (w : WbUnit) : State :=
  let (s, seq) := jIssue s (.redirect .host w.handle w.unit 1)
  mediaError (dirtySegment (setEntry s w.handle w.unit 1 seq) w.handle w.unit) w.handle w.unit

/-- Reload of the newest ferry not REPLAYED into the write buffer (R283). -/
def ferryReload (s : State) (lost gone : List Nat) : State :=
  let r := s.fer.record
  if r.state ≠ .begun ∧ r.state ≠ .done then s
  else
    let s := s.fer.dump.zipIdx.foldl (fun s e =>
      if lost.contains e.2 then loseUnit s e.1
      else if gone.contains e.2 then s
      else { s with map := { s.map with wb := s.map.wb ++ [{ e.1 with reloaded := true, redirect := none, packed := false }] } }) s
    if r.state = .begun then
      let s := smartSet (wrF s pPMU PMU_FERRY_STATUS 9 8 2) 4
      let s := persistentEvent s 1 r.unitsAtStart r.unitsDumped
      logEvent s { kind := kFAULT, cls := FClass.permanent.code, page := pPMU, cause := Config.blockCause 24, detail := r.unitsDumped * 2 ^ 32 + r.unitsAtStart }
    else s

/-- The map rebuilt from flash: what it undoes becomes readable, RL is set inside write-once ranges, SMART bit 2 (R287). -/
def mapRebuild (s : State) (undone : List (Fin 1024 × BitVec 48 × BitVec 64)) : State :=
  let s := undone.foldl (fun s u => if entryAt s u.1.val u.2.1.toNat == trimmed then setEntry s u.1.val u.2.1.toNat u.2.2 (jDurable s) else s) s
  let inOnce (h u : Nat) : Bool := match s.hst.ns.get? h with
    | some x => onceUnit s x (h + 1) u
    | none => false
  let s := { s with map := { s.map with
      undo := [], entries := s.map.entries.map fun e =>
        (e.1, if hasLocation e.2 && inOnce (e.1 / 2 ^ 48) (e.1 % 2 ^ 48) then e.2 ||| 0x100 else e.2) } }
  persistentEvent (smartSet s 2) 2 undone.length 0

/-- Floor blocks are chosen, evenly over the in-service channels, from FREE blocks, until the floor has its size (R207). -/
def formFloor : Nat → State → State
  | 0, s => s
  | n + 1, s =>
    let have_ (c : Nat) : Nat := ((floorList s).filter fun e => e.1 / 16 == c).length
    let dies (c : Nat) : List Nat := (serviceDies s).filter fun d => d / 16 == c && (allocBlock? s d).isSome
    match minBy? have_ ((usedChannels s).filter fun c => !(dies c).isEmpty) with
    | none => s
    | some c =>
      match minBy? (fun d => ((floorList s).filter fun e => e.1 == d).length) (dies c) with
      | none => s
      | some d => match allocBlock? s d with
        | none => s
        | some b => formFloor n (putBst s d b { bstOf s d b with floor := true, slc := true })

/-- Restart steps 2 to 6: replay, reload, stripes (R282). -/
def restartReplay (s : State) (v : Survey) : State :=
  let s := if v.mapJournal then s else mapRebuild s v.undone
  let (s, ok) := stripeReplay s
  let s := if v.ferryArea then s
    else if v.dumpFound then putFer s { s.fer with record := { s.fer.record with state := .begun }, savedParity := [] }
    else putFer s { s.fer with record := FerryRecord.none, dump := [], savedParity := [] }
  let whole := s.fer.record.state == .done
  let s := ferryReload s v.lostUnits v.goneUnits
  let s := if !ok || !v.stripeJournal then
      wholeArrayPass { s with str := { s.str with stripes := [], sets := s.str.sets.map fun e => (e.1, { e.2 with open_ := false, provisional := false }) } }
    else if whole then closeSaved s else unresyncOpen s
  let s := restartRebuilds (requeueSets s)
  let s := refreshPool (refreshFill (formFloor (floorBlocks s - (floorList s).length) s))
  putFer s { s.fer with replayed := true }

/-- Restart steps 7 and 8: once no reloaded unit waits for its redirect the record is REPLAYED, the floor blocks of its sets are erased, and the device is I/O-ready (R282, R286). -/
def restartReady (s : State) : State :=
  if !s.fer.replayed ∨ !s.fer.adminReady ∨ s.fer.ioReady ∨ s.map.wb.any (·.reloaded) then s
  else
    let r := s.fer.record
    let s := if r.state = .begun ∨ r.state = .done then
        let s := ((floorList s).take (r.sets * layoutWidth s)).foldl (fun s e => putBst s e.1 e.2 { bstOf s e.1 e.2 with eraseCount := (bstOf s e.1 e.2).eraseCount + 1 }) s
        putFer (putRecord s { r with state := .replayed }) { (putRecord s { r with state := .replayed }).fer with dump := [] }
      else s
    let s := putFer s { s.fer with ioReady := true }
    readyCtls s

/-- Restart recovery, from main firmware up (R282). It may need to run again once the reloaded units have taken the write path. -/
def restartRecovery (s : State) (v : Survey) : State :=
  if s.bot.due.isSome ∨ rdF s pSCP SCP_BOOT_STAGE 3 0 < 2 ∨ s.fer.parked ∨ ferryRunning s ∨ !domainUp s 8 then s
  else
    let s := if s.fer.replayed then s else restartReplay s v
    let s := if s.fer.replayed ∧ !s.fer.adminReady ∧ !(s.bot.queue.any fun e => e.after == .boot) then wrF (putFer s { s.fer with adminReady := true }) pSCP SCP_BOOT_STAGE 3 0 3 else s
    restartReady s

end Sys2Proof.Machine
end

