-- ==== Sys2Proof/Machine/Islands.lean ====
section
/-! DEFINITION. Island resets and re-admission (R296, R604, R608, R610, R611), and what withdraws a commit (R68). -/

namespace Sys2Proof.Machine

/-- The page of an island that can be reset alone; none for a code that names no island, a unit fused off, or port B in x16 (R611). -/
def islandPage? (s : State) (code : Nat) : Option Nat :=
  if code = 1 then some (pHF false)
  else if code = 2 then (if s.com.chip.split then some (pHF true) else none)
  else if 0x10 ≤ code ∧ code ≤ 0x15 then (if s.com.chip.hasCluster (code - 0x10) then some (pNCL (code - 0x10)) else none)
  else if 0x20 ≤ code ∧ code ≤ 0x27 then some (pDMC (code - 0x20))
  else if 0x40 ≤ code ∧ code ≤ 0x7F then (if s.com.chip.hasChannel (code - 0x40) then some (pFCH (code - 0x40)) else none)
  else none

/-- IRESET_STATUS (R614). -/
def islandStatus (s : State) (busy : Bool) (code result : Nat) : State :=
  wr s pFLT FLT_IRESET_STATUS (w32 ((if busy then 2 ^ 31 else 0) + code % 256 * 256 + result))

/-- Is the island retired: its page fenced? -/
def islandRetired (s : State) (code : Nat) : Bool := (islandPage? s code).any fun p => bit (rd s p rSTATUS) 1

/-- A request for an island reset: refused RESULT 0x1 when not resettable, 0x2 when retired, 0x3 while another reset runs; else BUSY until re-admission (R611). -/
def islandRequest (s : State) (code : Nat) : State :=
  match islandPage? s code with
  | none => islandStatus s (!s.flt.resets.isEmpty) code 1
  | some _ =>
    if islandRetired s code then islandStatus s (!s.flt.resets.isEmpty) code 2
    else if !s.flt.resets.isEmpty then islandStatus s true code 3
    else islandStatus { s with flt := { s.flt with resets := [256 + code] } } true code 0

/-- A commit that is PENDING or ARMED is withdrawn as CANCEL withdraws it: both clear, ADMIT_HELD clears, nothing is applied (R68). -/
def cancelCommit (s : State) (p : Nat) : State := wr s p rSTAGE_STATUS (rd s p rSTAGE_STATUS &&& 0x3BFFFFFF)

/-- A die of a channel in reset: what runs or is suspended goes back to the head of its queue (R610). -/
def requeueDie (s : State) (d : Nat) : State :=
  let x := dieOf s d
  let ops : List RunOp := x.suspended.toList ++ x.running.toList
  let work := ops.filterMap fun o => match o.job with
    | .work w => some w
    | .read _ => none
  let reads := ops.filterMap fun o => match o.job with
    | .read j => some j
    | .work _ => none
  let s := putDie s d { x with running := none, suspended := none, batch := 0, levels := none, token := false, asking := false, work := work ++ x.work }
  reads.foldl requeueHead s

/-- In-flight work and logic of an island in reset (R600, R610). -/
def islandWork (s : State) (code p : Nat) : State :=
  if 0x40 ≤ code then
    let c := code - 0x40
    let s := (chanOf s c).decoding.foldl requeueHead s
    let s := (List.range 16).foldl (fun s i => requeueDie s (16 * c + i)) (putChan s c { chanOf s c with decoding := [], streak := [], started := false })
    let s := wrB (wrB s p rSTATUS 3 false) p rSTATUS 4 true
    (List.range 16).foldl (fun s i =>
      let x := dieOf s (16 * c + i)
      let js := x.readsA ++ x.readsB ++ x.readsC
      if js.isEmpty then s else js.foldl handRung4 (putDie s (16 * c + i) { x with readsA := [], readsB := [], readsC := [] })) s
  else if 0x20 ≤ code then s
  else if 0x10 ≤ code then
    let c : Clu := ⟨(code - 0x10) % 6, Nat.mod_lt _ (by decide)⟩
    (coresOf c).foldl (fun s n => setCore (failRunning s n 3) n { coreOf (failRunning s n 3) n with mode := .halted }) s
  else linkDown s (decide (code = 2))

/-- Retire an island that does not come back: a unit of R600, or a fatal fault (R604, R611). -/
def islandGone (s : State) (code p : Nat) : State :=
  let s := { s with flt := { s.flt with retired := code :: s.flt.retired, resets := s.flt.resets.filter fun c => c % 256 != code } }
  let s := islandStatus s false code 2
  if 0x40 ≤ code then retireChannel s (code - 0x40)
  else if 0x10 ≤ code ∧ code ≤ 0x15 then retireCluster s ⟨(code - 0x10) % 6, Nat.mod_lt _ (by decide)⟩
  else if code ≤ 2 ∧ s.com.chip.split then retirePort s (decide (code = 2))
  else fatalFault s p (Config.blockCause 20) code

/-- Re-admissions that an island has needed within the last 10 minutes (R604). -/
def recentResets (s : State) (code : Nat) : List Count := (s.flt.readmits.getD code []).filter fun t => decide ((s.com.time - t).toNat < 600000000000)

/-- Steps 1 to 3 of an island reset, requested or of the device's own accord; the third within 10 minutes retires the island instead (R604, R610). -/
def islandReset (s : State) (code : Nat) : State :=
  match islandPage? s code with
  | none => s
  | some p =>
    if s.flt.resets.contains code || islandRetired s code || (!s.flt.resets.isEmpty && !s.flt.resets.contains (256 + code)) then s
    else
      let recent := recentResets s code
      if recent.length ≥ 2 then islandGone s code p
      else
        let s := { s with flt := { s.flt with
            resets := s.flt.resets.filter (· != 256 + code) ++ [code]
            readmits := s.flt.readmits.put code (recent ++ [s.com.time]) } }
        let s := irq (logEvent s { kind := kRESET, page := p, cause := 7, unit := code }) pFLT 5
        let s := wrB (wr (cancelCommit (islandStatus s true code 0) p) p rUNLOCK 0) p rSTATUS 0 false
        islandWork s code p

/-- Steps 4 and 5: the island passes and is re-admitted, or is retired or fatal (R610, R611). -/
def islandReadmit (s : State) (code : Nat) (passed : Bool) : State :=
  match islandPage? s code with
  | none => s
  | some p =>
    if !s.flt.resets.contains code then s
    else if !passed then islandGone s code p
    else
      let s := { s with flt := { s.flt with resets := s.flt.resets.filter (· != code) } }
      let s := wrB (islandStatus s false code 0) p rSTATUS 0 true
      let s := logEvent s { kind := kADMIT, page := p, unit := code }
      if 0x40 ≤ code then
        let s := wrB (wrB s p rSTATUS 3 true) p rSTATUS 4 false
        putChan s (code - 0x40) { chanOf s (code - 0x40) with started := true }
      else if 0x20 ≤ code then s
      else if 0x10 ≤ code then
        let c : Clu := ⟨(code - 0x10) % 6, Nat.mod_lt _ (by decide)⟩
        (coresOf c).foldl (fun s n => if coreInService s n then resetCore s n .run else s) s
      else linkUp s (decide (code = 2)) (linkOf s (decide (code = 2))).lastRate (portLanes s)

/-- DQS tracking finds drift beyond the limit: TRAIN_LOSS, and an island reset to retrain the channel (R296). -/
def dqsTracking (s : State) (n : Nat) (lost : Bool) : State :=
  if !lost || !bit (rd s (pDMC n) rSTATUS) 0 then s
  else islandReset (irq s (pDMC n) 6) (0x20 + n)

end Sys2Proof.Machine
end

