-- ==== Sys2Proof/Machine/Resets.lean ====
section
/-! DEFINITION. The reset scopes: what POWER_ON, BROWNOUT, PERST and NSSR clear and keep, controller and function resets, the reset ferry, and the events of VIN (R265, R266, R276, R580, R608, R609, R623, R631). -/

namespace Sys2Proof.Machine

/-! ### Scopes 0x0 to 0x3 (R608) -/

/-- Registers that start-up finds again in MRAM, in the journals and in the wear meter, beside those whose reset value is kept (R201, R242, R329). -/
def recoveredReg (k : Nat) : Bool :=
  [regKey pMAP MAP_JSEQ_ISSUED, regKey pMAP MAP_JSEQ_DURABLE, regKey pMAP MAP_JSEQ_TAIL, regKey pMAP MAP_SPARE_LEFT, regKey pMAP MAP_SPARE_INITIAL,
    regKey pSTR STR_SSEQ_ISSUED, regKey pSTR STR_SSEQ_DURABLE, regKey pSTR STR_SSEQ_TAIL, regKey pMRM MRM_WEAR_CREDIT].contains k

/-- Registers of the sandglass that a PERST or NSSR keeps: its discipline and the snapshot count that runs with it (R608). -/
def disciplineReg (k : Nat) : Bool :=
  [SGL_DISC_CTRL, SGL_DISC_STATUS, SGL_OFFSET, SGL_SLEW_LIMIT, SGL_STEP_THRESH, SGL_PTM_PERIOD, SGL_SYNC_COMP].any fun o => k == regKey pSGL o

/-- Pages whose FENCED is a retirement, which every scope keeps (R608). -/
def fencedUnits (s : State) : List Nat :=
  allPages.filter fun p => bit (rd s p rSTATUS) 1 && match pageKind? s.com.chip p with
    | some .fch => true
    | some .ncl => true
    | some .cvn => true
    | some .hf => true
    | _ => false

/-- The shared part after a scope. SMART critical warning bit 3 stays only with both MRAM dies lost: the read-only condition is found again from the counts (R226, R322). -/
def resetCommon (s : State) (code : Nat) : Common :=
  let warm := decide (2 ≤ code)
  let keep (k : Nat) : Bool := keptReg s.com.chip (k / 4096) (k % 4096) || recoveredReg k || (warm && disciplineReg k)
  let log := s.com.log
  { Common.reset with
    chip := s.com.chip
    time := if warm then s.com.time else 0
    slew := if warm then s.com.slew else 0
    regs := ⟨s.com.regs.live.filter fun e => keep e.1, s.com.regs.inForce.filter fun e => warm && disciplineReg e.1⟩
    log := { log with queue := if warm then log.queue else [], issued := if warm then log.issued else (rd s pFLT FLT_LOG_WSEQ).toNat, badNext := false }
    stamp := if warm then s.com.stamp else none
    smart := if rd s pMRM MRM_DIE_STATE = 0x22 then s.com.smart else s.com.smart &&& 0xF7
    free := s.com.free }

/-- Landing, MRAM and DRAM after a scope: MRAM stands, and the degraded ranks of earlier power-ons with it (R295, R608). -/
def resetMemory (m : Memory) : Memory :=
  { Memory.reset with
    mram0 := m.mram0, mram1 := m.mram1, mErr0 := m.mErr0, mErr1 := m.mErr1, frameOf := m.frameOf, pass := m.pass, aseq := m.aseq, lframe := m.lframe
    badHeader := m.badHeader, nextAseq := m.nextAseq, frameRetired := m.frameRetired, frameCe := m.frameCe, credit := m.credit, kibRest := m.kibRest
    replaced := m.replaced, migrating := m.migrating }

/-- Host side after a scope: namespaces and their attachments, retention ranges, metadata, VPD and logs stand; controllers, queues and commands do not. -/
def resetHost (h : HostSide) : HostSide :=
  { HostSide.reset with
    ns := h.ns.map fun e => (e.1, { e.2 with open_ := [] }), nextId := h.nextId, ranges := h.ranges, gens := h.gens, errors := h.errors, changedNs := h.changedNs
    sanitized := h.sanitized, blockMeta := h.blockMeta, mi := h.mi, vpd := h.vpd }

/-- Keys after a scope: every slot EMPTY, the keep clear; the wrapping key is drawn anew (R467, R469). -/
def resetKeys (s : State) : Keys := { Keys.reset with wrapKey := s.com.free }

/-- The security processor after a scope: fuses, replicas, NOR, counters, policy, boot record ring and vault stand; the persistent keys' copies are in the vault, and a boot is due (R468, R522). -/
def resetBoot (s : State) (code : Nat) : Boot :=
  let b := s.bot
  { Boot.reset with
    fuses := { b.fuses with seedLocked := false }, due := some code, replicas := b.replicas, nor := b.nor, active := b.nextSlot.getD b.active, counters := b.counters
    countersLost := b.countersLost, policy := b.policy, board := b.board, ring := b.ring, bootCount := b.bootCount, chain1 := b.chain1
    vault := if b.due.isSome then b.vault else s.key.slots.filter fun e => e.2.persist && e.2.state != .empty }

/-- Pins and supply after a scope: a PERST or an NSSR keeps PWRGD_OUT and PD02; DEV_FAULT_n is released (R608, R625). -/
def resetPower (s : State) (code : Nat) : Power :=
  let p := s.pwr.pins
  { Power.reset with
    vin := s.pwr.vin
    pins := { p with pwrgd := p.pwrgd && decide (2 ≤ code), devFault := p.testEn && p.pwrgd && decide (2 ≤ code), clkreqOff := false } }

/-- The span group after a scope: what MRAM and the span journal hold stands; this member's open intents are unresynchronised, and dirty maps stand after a clean ferry only (R554, R559, R560, R569). Its own witness vote goes with its power (R566). -/
def resetSpan (s : State) (code : Nat) : Span :=
  let p := s.spn
  let clean := decide (2 ≤ code) || s.fer.record.state == .done
  let d := spanDesc s
  let absent := (List.range d.members).filter fun i => !d.serves i
  { Span.reset with
    desc := p.desc, next := p.next, lastGen := p.lastGen, voted := p.voted, handle := p.handle, own := p.own, joins := p.joins, nonceMark := p.nonceMark, floor := p.floor
    witness := if 2 ≤ code then p.witness else p.witness.filter fun w => w.1 != d.index
    nextRef := p.nextRef, journal := p.journal, pseq := p.pseq, head := p.head, dirty := if clean then p.dirty else [], dirtyAll := if clean then p.dirtyAll else absent
    unresync := (p.unresync ++ openIntents p.journal true d.index).eraseDups
    resyncAll := p.resyncAll || (p.desc.isSome && rd s pMRM MRM_DIE_STATE == w32 0x22) }

/-- A reset scope 0x0 to 0x3 (R608). What a loss of power undoes in the journals goes back first; MRAM frames are read again from their headers (R205, R325). -/
def resetScope (s : State) (code : Nat) : State :=
  let fenced := fencedUnits s
  let s := rollBack s
  let lost := s.com.regs.live.filter fun e => (e.1 == regKey pMRM MRM_DIE_STATE) && e.2 == w32 0x22
  let t : State :=
    { com := resetCommon s code
      sgl := if 2 ≤ code then { Sandglass.reset with ptmFailed := s.sgl.ptmFailed, syncMissed := s.sgl.syncMissed } else Sandglass.reset
      mem := resetMemory s.mem
      flt := { Faults.reset with retired := s.flt.retired }
      fch := Flash.reset
      map := { s.map with admitted := 0, returned := 0, lastReturned := 0, inject := [] }
      str := { s.str with inject := [] }
      fer := { Ferry.reset with vin := s.fer.vin, record := s.fer.record, dump := s.fer.dump, savedParity := s.fer.savedParity, events := s.fer.events }
      key := resetKeys s
      mte := Match.reset
      nel := Nelius.reset
      dis := Dispatch.reset
      cvn := Caravans.reset
      hst := resetHost s.hst
      bot := resetBoot s code
      prg := { Programs.reset with sets := s.prg.sets, frames := s.prg.frames, kv := s.prg.kv, indexes := s.prg.indexes.map fun e => (e.1, { e.2 with building := true }) }
      tol := s.tol
      pwr := resetPower s code
      spn := resetSpan s code
      pending := s.pending }
  let t := takeFree t
  let t := fenced.foldl (fun t p => wrB t p rSTATUS 1 true) t
  let t := if 2 ≤ code then
      let iso := [2, 3].foldl (fun w d => setBit w d false) (rd t pPMU PMU_ISO_STATE)
      wr t pPMU PMU_ISO_STATE iso
    else meterLost t
  let t := (if 2 ≤ code then bitList 5 s.pwr.rails else if 2700 ≤ s.pwr.vin then [0] else []).foldl railStart t
  let t := if lost.isEmpty then t else wrB (wrB t pMAP MAP_MEDIA_STATE 3 true) pSCP SCP_REC_STATUS 30 true
  refreshLaunch (logEvent (frameRecover t) { kind := kRESET, page := pFLT, cause := code })

/-- The device leaves its park through the brownout scope (R276). -/
def brownout (s : State) : State := resetScope s 1

/-! ### Scopes 0x4 and 0x5 (R608) -/

/-- Runs of a controller's Execute Program commands end under the routine of the time limit, without completion; a deferred one is cancelled (R500, R501, R608). -/
def endRuns (s : State) (ctl : Nat) : State :=
  (s.prg.runs.filter fun r => (cmdOf? s r.cmd).any fun c => c.ctl == ctl).foldl (fun s r =>
    let s := { s with hst := { s.hst with cmds := s.hst.cmds.filter fun c => c.id != r.cmd } }
    finishRun (dropItem s r.slot) r .programFault 0xFFFFFFFF) s

/-- CC.EN goes from 1 to 0: that controller's queues, commands, event requests and features go (R608 scope 0x4). -/
def controllerReset (s : State) (ctl : Nat) (code : Nat) : State :=
  if !ctlExists s ctl then s
  else logEvent (resetCtl (endRuns s ctl) ctl) { kind := kRESET, page := pNQE, cause := code, unit := ctl }

/-- FLR of a partition VF on either port: both its controllers are reset, its commands end and its room is released (R144, R608 scope 0x6). -/
def partitionReset (s : State) (fn : Nat) : State :=
  if !partitionMode s ∨ fn = 0 then s
  else
    let one (s : State) (c : Nat) : State :=
      let t := resetCtl (endRuns s c) c
      if ctlExists s c then logEvent t { kind := kRESET, page := pNQE, cause := 6, unit := c } else t
    let s := one s fn
    irq (if s.com.chip.split then one s (64 + fn) else s) pNQE 2

/-- A function-level reset: as a controller reset, and the function's configuration space; the physical function's takes its virtual functions with it, and in partition mode a virtual function's is a partition reset (R144, R608 scopes 0x5 and 0x6). -/
def functionReset (s : State) (ctl : Nat) : State :=
  if !ctlExists s ctl then s
  else if partitionMode s && !isPf ctl then partitionReset s (ctl % 64)
  else
    let p := ctlPort ctl
    let vfs := if isPf ctl then (allCtls s).filter fun c => ctlPort c == p && !isPf c else []
    let s := controllerReset (vfs.foldl (fun s c => controllerReset s c 5) s) ctl 5
    if isPf ctl then wrF s (pHF p) HF_FN_STATUS 5 0 0 else s

/-! ### VIN (R265, R266, R276, R580, R631) -/

/-- A VIN measurement. -/
def setVin (s : State) (mv : Nat) : State := putPwr (putFer s { s.fer with vin := mv }) { s.pwr with vin := mv }

/-- VTRIP and its hysteresis in force, in mV (R267). -/
def vTrip (s : State) : Nat := inF s pPMU PMU_VTRIP 12 0
/-- VTRIP + HYST. -/
def vStart (s : State) : Nat := vTrip s + inF s pPMU PMU_VTRIP 23 16

/-- PWR_FAIL: the whole ferry, or, when VIN falls below 2.7 V after `cut` units, the brownout scope (R265, R266, R269). -/
def powerFail (s : State) (vmin micros : Nat) (cut : Option Nat) : State :=
  if !ferryMay s then s
  else match cut with
    | none => lastFerry s false vmin micros
    | some n => brownout (setVin (cutFerry s vmin n) (min vmin 2699))

/-- VIN below VTRIP in two samples (R265). -/
def vinLow (s : State) (vin vmin micros : Nat) (cut : Option Nat) : State :=
  if vin < vTrip s then powerFail (setVin s vin) vmin micros cut else s

/-- VIN above 5.8 V in two samples: the ferry, and a park that waits for VIN to come down (R631). -/
def vinHigh (s : State) (vin micros : Nat) : State :=
  if 5800 < vin ∧ ferryMay s then
    let s := powerFail (setVin s vin) vin micros none
    putPwr s { s.pwr with overPark := true }
  else s

/-- A sensor at 115 °C or more in two samples: the ferry, and a park that waits for 90 °C (R588). -/
def thermalTrip (s : State) (micros : Nat) : State :=
  if thermalTripDue s ∧ ferryMay s then
    let s := powerFail s s.fer.vin micros none
    putPwr s { s.pwr with hotPark := true }
  else s

/-- VIN rises from below 2.7 V: VAON starts, the straps are sampled, and the power-on scope begins (R105, R580, R608, R625). -/
def powerOn (s : State) (vin : Nat) (split i3c : Bool) : State :=
  if vin < 2700 ∨ 2700 ≤ s.pwr.vin then s
  else
    let s := setVin s vin
    let s := { s with com := { s.com with chip := { s.com.chip with split := split } } }
    resetScope (putPwr s { s.pwr with pins := { s.pwr.pins with mgmtI3c := i3c } }) 0

/-- VIN falls below 2.7 V (R266). -/
def vinLost (s : State) (vin : Nat) : State :=
  if vin < 2700 then brownout (setVin s vin) else s

/-- The sequencer waits for VIN to hold at VTRIP + HYST for RESTART_HOLD, starts VAUX, VMRM, VFAB and VTOL and switches PD02 on: power-good. A device that samples TEST_EN high asserts DEV_FAULT_n (R580, R621, R625). -/
def powerGood (s : State) (ns vin : Nat) (refclk testEn : Bool) : State :=
  if s.pwr.pins.pwrgd ∨ s.fer.parked ∨ s.pwr.vin < 2700 ∨ vin < 2700 then s
  else
    let s := setVin s vin
    if vin < vStart s then putFer s { s.fer with hold := 0 }
    else
      let held := s.fer.hold + ns
      let s := putFer s { s.fer with hold := held }
      if held < inF s pPMU PMU_RESTART_HOLD 15 0 * 1000000 then s
      else
        let s := [0, 2, 3, 4, 1].foldl railStart (putFer s { s.fer with hold := 0 })
        let s := wrB s pPMU PMU_ISO_STATE 2 false
        meterStart (putPwr s { s.pwr with pins := { s.pwr.pins with pwrgd := true, refclk := refclk, testEn := testEn, devFault := testEn } })

/-- A parked device: it is off when VIN falls below 2.7 V, and it restarts through the brownout scope once VIN has held, after a thermal trip also TEMP_MAX has fallen to 90 °C, after an overvoltage VIN has come down to 5.5 V (R276, R588, R631). -/
def restartHold (s : State) (ns vin : Nat) : State :=
  if !s.fer.parked then s
  else if vin < 2700 then vinLost s vin
  else
    let s := setVin s vin
    let cool := !s.pwr.hotPark || decide (sgn 12 (rdF s pCLE CLE_TEMP_MAX 11 0) ≤ 1440)
    if vin < vStart s ∨ (s.pwr.overPark ∧ 5500 < vin) then putFer s { s.fer with hold := 0 }
    else
      let held := s.fer.hold + ns
      if held < inF s pPMU PMU_RESTART_HOLD 15 0 * 1000000 ∨ !cool then putFer s { s.fer with hold := held }
      else
        let hot := s.pwr.hotPark
        let s := brownout s
        if hot then persistentEvent (smartSet s 1) 3 0 0 else s

/-- `PMU.FERRY_INJECT`: PWR_FAIL with VIN unchanged; code 2 ends in a brownout at the end of step 5 (R267). -/
def ferryInject (s : State) (v : Word) (micros : Nat) : State :=
  match fld v 3 0 with
  | 1 => powerFail s s.fer.vin micros none
  | 2 => if ferryMay s then brownout (cutFerry s s.fer.vin (dumpUnits s).length) else s
  | _ => s

/-- An overvoltage stops the rail's phases; it and an undervoltage of 10 µs raise PWR_FAIL (R581). -/
def railTrip (s : State) (r : Nat) (above : Bool) (vmin micros : Nat) : State :=
  if !s.pwr.rails.testBit r then s
  else
    let s := setFault (irq s pCLE 0) pCLE .permanent (Config.blockCause 26) r
    powerFail (if above then railStop s r else s) vmin micros none

/-- An enabled port that is not good for 100 µs: ports 0 and 1 lose their channels, the others brown the device out (R587). -/
def extPortFault (s : State) (p : Nat) : State :=
  if !bit (inForce s pCLE CLE_EXT_ENABLE) p then s
  else if p < 2 then portFault s p else brownout (portFault s p)

/-! ### PERST, NSSR and L1.2 (R608, R609, R623, R624) -/

/-- Are both PERST inputs that matter asserted? (R623) -/
def perstHeld (s : State) : Bool := s.pwr.pins.perstA && (!s.com.chip.split || s.pwr.pins.perstB)

/-- A PERST ball is asserted: scope 0x2 with its reset ferry, or in x8 + x8, with one ball alone, a retraining of that port and scope 0x4 for its controllers (R608, R623). -/
def perst (s : State) (b : Bool) (micros : Nat) : State :=
  if b ∧ !s.com.chip.split then s
  else
    let s := putPwr s { s.pwr with pins := if b then { s.pwr.pins with perstB := true } else { s.pwr.pins with perstA := true } }
    if !s.pwr.pins.pwrgd then s
    else if perstHeld s then (if ferryMay s then resetScope (lastFerry s true s.fer.vin micros) 2 else s)
    else if s.com.chip.split then ((allCtls s).filter fun c => ctlPort c == b).foldl (fun s c => controllerReset s c 4) (linkDown s b)
    else s

/-- A PERST ball is deasserted; the boot of a PERST scope waits for it (R608). -/
def perstOff (s : State) (b : Bool) : State :=
  putPwr s { s.pwr with pins := if b then { s.pwr.pins with perstB := false } else { s.pwr.pins with perstA := false } }

/-- An NVM Subsystem Reset is written: the reset ferry, and the restart when it parks (R608, R609). -/
def subsystemReset (s : State) (micros : Nat) : State := if ferryMay s then resetScope (lastFerry s true s.fer.vin micros) 3 else s

/-- CLKREQ_A_n in L1.2: while it is deasserted the sandglass runs from the oscillator of PD00, and discipline resumes afterwards; the count never steps (R624). -/
def clkreq (s : State) (off : Bool) : State := putPwr s { s.pwr with pins := { s.pwr.pins with clkreqOff := off } }

end Sys2Proof.Machine
end

