-- ==== Sys2Proof/Machine/BootFlow.lean ====
section
/-! DEFINITION. The boot, replicas, firmware slots and live activation, the owner policy, counter advances, the board record, boot record appends and what follows them, and SPDM (R513 to R533, R587, R612). -/

namespace Sys2Proof.Machine

/-- Set the security processor's part. -/
def putBot (s : State) (b : Boot) : State := { s with bot := b }

/-! ### Replicas and their images (R519 to R523) -/

/-- Channel of a replica. -/
def replicaChan (k : Nat) : Nat := 16 * k

/-- Is a replica lost with its channel? -/
def replicaLost (s : State) (k : Nat) : Bool := bit (rd s (pFCH (replicaChan k)) rSTATUS) 1

/-- Roles of a boot read: STAGE1, the MAIN of a slot, the CLUSTER images, the POLICY. `unreadable` lists replica × 16 + role. -/
def roleStage1 : Nat := 0
/-- The CLUSTER images. -/
def roleCluster : Nat := 6
/-- The POLICY image. -/
def rolePolicy : Nat := 5

/-- What a replica answers to a read; none when the read fails or the replica is lost. -/
def readReplica (s : State) (unreadable : List Nat) (k role : Nat) (b : List Byte) : Option (List Byte) :=
  if replicaLost s k || unreadable.contains (16 * k + role) then none else some b

/-- Replica k. -/
def replicaOf (s : State) (k : Nat) : BootSet := s.bot.replicas.getD k BootSet.empty

/-- The slot's MAIN of a set. -/
def BootSet.main (b : BootSet) (slot : Nat) : List Byte := b.mains.getD slot []
/-- The slot's CLUSTER images of a set. -/
def BootSet.clu (b : BootSet) (slot : Nat) : List (List Byte) := b.clusters.getD slot []

/-- The set that a sequence of NOR images spells: STAGE1, MAIN, CLUSTER images, POLICY (R523). -/
def norSet (slot : Nat) (l : List (List Byte)) : BootSet :=
  let kind (k : Nat) : List (List Byte) := l.filter fun b => imgKind b == k
  ⟨(kind 1).headD [], [(slot, (kind 2).headD [])], [(slot, kind 3)], (kind 5).headD []⟩

/-- The first replica, in order 0 to 3, whose image passes R518; each failure of STAGE1 or MAIN is recorded in BOOT_FAIL at `shift` + 4k, and each one in the fault log (R522). -/
def firstGood (s : State) (unreadable : List Nat) (role shift : Nat) (img : BootSet → List Byte) : List Nat → State × Option Nat
  | [] => (s, none)
  | k :: ks =>
    match checkImage s false k (readReplica s unreadable k role (img (replicaOf s k))) with
    | (s, none) => (s, some k)
    | (s, some c) =>
      let s := if shift ≤ 16 then wrF s pSCP SCP_BOOT_FAIL (shift + 4 * k + 3) (shift + 4 * k) c else s
      firstGood (logEvent s { kind := kFAULT, cls := FClass.transient.code, page := pSCP, cause := c, unit := k }) unreadable role shift img ks

/-- An image of the NOR: none when it fails R518, its cause in the fault log. -/
def norGood (s : State) (b : List Byte) : State × Bool :=
  match checkImage s false 4 (some b) with
  | (s, none) => (s, true)
  | (s, some c) => (logEvent s { kind := kFAULT, cls := FClass.transient.code, page := pSCP, cause := c, unit := 4 }, false)

/-- Which replicas pass R518 as a whole: STAGE1, every slot that holds an image, and the policy. -/
def replicaPasses (s : State) (unreadable : List Nat) (k : Nat) : Bool :=
  let b := replicaOf s k
  let ok (role : Nat) (x : List Byte) : Bool := (imageCause s false (readReplica s unreadable k role x)).isNone
  ok roleStage1 b.stage1 && (b.mains.all fun m => ok m.1 m.2) && (b.clusters.all fun c => c.2.all (ok roleCluster))
    && (b.policy.isEmpty && (ownerInForce? s).isNone || ok rolePolicy b.policy)

/-- `SCP.REPLICAS` after a check; fewer than two raise REPLICA_BAD, which the fault log records (R520). -/
def showReplicas (s : State) (unreadable : List Nat) : State :=
  let good := (List.range 4).filter (replicaPasses s unreadable)
  let s := wr s pSCP SCP_REPLICAS (w32 ((good.map fun k => 2 ^ k).sum))
  if good.length < 2 then logEvent (irq s pSCP 1) { kind := kFAULT, cls := FClass.uncorrectable.code, page := pSCP, cause := Config.blockCause 25, unit := good.length } else s

/-- Main firmware reads every replica, and rewrites one that fails from a good one; its channel must be in service (R520). -/
def replicaCheck (s : State) (unreadable : List Nat) : State :=
  if rdF s pSCP SCP_BOOT_STAGE 3 0 < 2 then s
  else
    match (List.range 4).find? (replicaPasses s unreadable) with
    | none => showReplicas s unreadable
    | some g =>
      let bad := (List.range 4).filter fun k => !replicaPasses s unreadable k && !replicaLost s k
      let s := showReplicas s unreadable
      bad.foldl (fun s k => putBot s { s.bot with replicas := s.bot.replicas.put k (replicaOf s g) }) s

/-! ### Loading clusters (R368, R522, R612) -/

/-- The section list's data of an image: SRC counts from the list, which follows PART_LEN bytes. -/
def secData (b : List Byte) (x : Section) : List Byte := ((imgPayload b).drop (imgPartLen b + x.src)).take x.len

/-- Sections of an image with the masks of the cores in service. -/
def liveSections (s : State) (c : Clu) (b : List Byte) : List Section :=
  let mask := (coresOf c).foldl (fun m n => if coreInService s n then m + 2 ^ (n.val % 8) else m) 0
  (imgSecs b).map fun x => { x with mask := x.mask &&& mask }

/-- Write an image's sections into a cluster, every byte through the snoop digest; a section that fails the check of R369 writes nothing. -/
def loadImage (s : State) (c : Clu) (b : List Byte) : State :=
  let secs := (liveSections s c b).filter fun x => sectionOk s c x && x.len != 0
  let s := secs.foldl (fun s x => writeSection (snLoad s (secData b x)) c x (secData b x)) s
  if hasTables secs then wr s (pNCL c.val) NCL_TABLE_GEN (w32 ((rdF s (pNCL c.val) NCL_TABLE_GEN 15 0 + 1) % 65536)) else s

/-- The images that a cluster runs: MAIN, and the CLUSTER images that name it. -/
def cluImages (main : List Byte) (clus : List (List Byte)) (c : Nat) : List (List Byte) := main :: clus.filter fun b => (imgClusters b).testBit c

/-- Load a cluster and release its cores. -/
def loadCluster (s : State) (main : List Byte) (clus : List (List Byte)) (c : Clu) : State :=
  if cluGone s c.val || !domainUp s (20 + c.val) then s
  else releaseCluster ((cluImages main clus c.val).foldl (fun s b => loadImage s c b) s) c

/-! ### The board record and the external ports (R587) -/

/-- Does a board record pass its check, with every VSET and EFF in range? -/
def boardOk (b : List Byte) : Bool :=
  b.length == 64 && leAt b 60 4 == crc32c (b.take 60) && (List.range 6).all fun p =>
    let v := leAt b (8 * p) 2
    let eff := bAt b (8 * p + 2)
    decide ((portRange p).1 ≤ v) && decide (v ≤ (portRange p).2) && decide (50 ≤ eff) && decide (eff ≤ 100)

/-- Boot code commits EXT_CFG and enables a port with the record's values, or the defaults where the record fails. -/
def enablePort (s : State) (p : Nat) : State :=
  let b := if boardOk s.bot.boardInForce then s.bot.boardInForce else shippedBoard
  let s := setNow s pCLE (CLE_EXT_CFG + 4 * p) (w32 (bAt b (8 * p + 2) * 2 ^ 24 + leAt b (8 * p) 2))
  let s := setNow s pCLE CLE_EXT_ENABLE (setBit (inForce s pCLE CLE_EXT_ENABLE) p true)
  wrB (loopStart s (14 + p)) pCLE CLE_EXT_STATUS p true

/-! ### Key vault (R468, R519) -/

/-- The vault's copies return to the key store; a locked namespace's slot stays EMPTY until its credential is presented. COUNTER of the span slot takes the highest mark journaled (R554). -/
def vaultRestore (s : State) : State :=
  let back (e : Nat × KeySlot) : KeySlot := if e.1 = spanSlot then { e.2 with counter := s.spn.nonceMark } else e.2
  refreshKeys { s with key := { s.key with
    slots := (s.bot.vault.filter fun e => !e.2.locked).foldl (fun (t : Tab KeySlot) e => t.put e.1 (back e)) s.key.slots } }

/-! ### Boot (R522, R523, R531, R532) -/

/-- The boot stops in the boot ROM: host port domains stay off and DEV_FAULT_n is asserted (R523, R625). -/
def bootStop (s : State) : State :=
  putPwr (putBot s { s.bot with due := none }) { s.pwr with pins := { s.pwr.pins with devFault := true } }

/-- Switch a domain on for the boot. -/
def bootDomain (s : State) (d : Nat) : State := domainOn s d true true

/-- Keys derived from DEVICE_SEED, which is then read-locked (R513, R514). -/
def deriveKeys (s : State) : State :=
  let seed := s.bot.fuses.seed
  let key (label : String) : List Byte := (Config.hmac 3 seed (label.toList.map fun c => BitVec.ofNat 8 c.toNat)).take 32
  putBot s { s.bot with edSeed := key "QW-ID-ED25519", mlSeed := key "QW-ID-MLDSA65", vaultKey := key "QW-VAULT", fuses := { s.bot.fuses with seedLocked := true } }

/-- Writes that the newest POLICY_CHANGE and COUNTER_ADVANCE records state and that had not been made are completed (R531). -/
def completeWrites (s : State) : State :=
  let recs := (s.bot.ring.filter fun r => r.2.intact).map (·.2)
  let newest (ev : Nat) : Option BootRecord := (recs.filter fun r => r.event == ev).foldl (fun (m : Option BootRecord) r => match m with
    | some x => if x.seq < r.seq then some r else m
    | none => some r) none
  let s := match newest 7 with
    | some r => if bAt r.arg 0 < 16 ∧ counterOf s (bAt r.arg 0) < leAt r.arg 4 4 then setCounter s (bAt r.arg 0) (leAt r.arg 4 4) else s
    | none => s
  match newest 6 with
  | some r =>
    let slot := bAt r.arg 0
    let f := s.bot.fuses
    if slot < 4 ∧ bAt r.arg 1 = 1 ∧ !f.ownerState.testBit (2 * slot) then
      let old := match ownerInForce? s with
        | some o => 2 ^ (2 * o + 1)
        | none => 0
      putBot s { s.bot with fuses := { f with ownerState := f.ownerState ||| 2 ^ (2 * slot) ||| old, owners := f.owners.put slot (policyOwner (imgPayload s.bot.policy)) } }
    else s
  | none => s

/-- `SCP.POLICY` (R534). -/
def showPolicy (s : State) : State :=
  wr s pSCP SCP_POLICY (w32 (((ownerInForce? s).getD 0xFF) * 256 + policyFlags s))

/-- The measurements of a boot (R533). -/
def bootMeasures (s : State) (set1 set2 : BootSet) (r1 r2 : Nat) : List (Nat × Option Measure) :=
  let nor (r : Nat) : Bool := r == 4
  let main := set2.main s.bot.active
  let clus : List (Nat × Option Measure) := (List.range 6).filterMap fun c =>
    ((set2.clu s.bot.active).find? fun b => (imgClusters b).testBit c).map fun b => (4 + c, some (imgMeasure b (nor r2) r2))
  [(1, some ⟨0, 0, 0, 0, 0, Config.romDigest⟩), (2, some (imgMeasure set1.stage1 (nor r1) r1)), (3, some (imgMeasure main (nor r2) r2))] ++ clus
    ++ (if (ownerInForce? s).isSome then [(0x0A, some (imgMeasure s.bot.policy false 0))] else [])
    ++ [(0x0C, some ⟨0, 0, 0, 0, 0, bytesLE 8 Config.tollVersion.toNat⟩)]

/-- Main firmware rewrites every replica from the running images; a replica lost with its channel stays as it is (R520, R523). -/
def rewriteReplicas (s : State) (slot : Nat) (stage1 main : List Byte) (clus : List (List Byte)) : State :=
  [0, 1, 2, 3].foldl (fun s k =>
    if replicaLost s k then s
    else
      let b := replicaOf s k
      putBot s { s.bot with replicas := s.bot.replicas.put k ⟨stage1, b.mains.put slot main, b.clusters.put slot clus, s.bot.policy⟩ }) s

/-- Steps 4 to 6, once STAGE1 has passed: ports, domains, policy, MAIN, key vault, clusters, the ring check and the BOOT record. -/
def bootMain (s : State) (unreadable badSlots : List Nat) (nor : BootSet) (r1 : Nat) (scope : Nat) : State :=
  let set1 := if r1 = 4 then nor else replicaOf s r1
  let (s, r0) : State × Option Nat := if (ownerInForce? s).isNone then (putBot s { s.bot with policy := [] }, some 0)
    else match firstGood s unreadable rolePolicy 32 BootSet.policy [0, 1, 2, 3] with
      | (s, some k) => (putBot s { s.bot with policy := (replicaOf s k).policy }, some k)
      | (s, none) => match norGood s nor.policy with
        | (s, true) => (putBot s { s.bot with policy := nor.policy }, some 4)
        | (s, false) => (s, none)
  if r0.isNone then bootStop s
  else
    let s := showPolicy s
    let slot := s.bot.active
    let (s, m) := firstGood s unreadable slot 0 (·.main slot) [0, 1, 2, 3]
    let (s, r2) : State × Option Nat := match m with
      | some k => (s, some k)
      | none =>
        if (policyFlags s).testBit 3 then (s, none)
        else match norGood s (nor.main slot) with
          | (s, true) => (s, some 4)
          | (s, false) => (s, none)
    match r2 with
    | none => bootStop s
    | some r2 =>
      let set2 := if r2 = 4 then nor else replicaOf s r2
      let recovery := r0 == some 4 || r1 == 4 || r2 == 4
      let s := [3, 4, 5].foldl enablePort s
      let s := (List.range 28).foldl bootDomain s
      let (s, clus) := (set2.clu slot).foldl (fun (a : State × List (List Byte)) b => match checkImage a.1 false r2 (if r2 = 4 then some b else readReplica a.1 unreadable r2 roleCluster b) with
        | (s, none) => (s, a.2 ++ [b])
        | (s, some _) => (s, a.2)) (s, [])
      let s := vaultRestore s
      let s := allClus.foldl (fun s c => loadCluster s (set2.main slot) clus c) s
      let s := if recovery then rewriteReplicas s slot set1.stage1 (set2.main slot) clus else s
      let s := wr s pSCP SCP_BOOT_STAGE (w32 ((if recovery then 128 else 0) + 16 * r2 + 2))
      let s := showReplicas s unreadable
      let s := showCounters (completeWrites (ringCheck s badSlots))
      let s := putBot s { s.bot with due := none }
      let arg := [BitVec.ofNat 8 scope, BitVec.ofNat 8 r1, BitVec.ofNat 8 r2]
      if noRing s then s else queueRecord s ⟨1, arg, bootMeasures s set1 { set2 with clusters := [(slot, clus)] } r1 r2, .boot⟩

/-- The boot that a reset scope owes, from power-good: R522 steps 1 to 6. `nor` is what the board's NOR holds, none when it stands as the device last left it; a missing reference clock, or no STAGE1 that passes, stops it in the ROM (R522, R523, R634). -/
def bootSequence (s : State) (norImages : Option (List (List Byte))) (unreadable badSlots : List Nat) : State :=
  match s.bot.due with
  | none => s
  | some scope =>
    if !s.pwr.pins.pwrgd || s.pwr.pins.testEn || s.fer.parked || perstHeld s then s
    else
      let s := [1, 3, 7].foldl bootDomain s
      if !s.pwr.pins.refclk then bootStop s
      else
        let s := match norImages with
          | some l => putBot s { s.bot with nor := norSet s.bot.active l }
          | none => s
        let nor := s.bot.nor
        let s := wr (deriveKeys (putBot s { s.bot with boardInForce := s.bot.board })) pSCP SCP_BOOT_FAIL 0
        let s := [0, 1, 2].foldl enablePort s
        let s := bootDomain s 10
        match firstGood s unreadable roleStage1 16 BootSet.stage1 [0, 1, 2, 3] with
        | (s, some k) => bootMain s unreadable badSlots nor k scope
        | (s, none) =>
          if (policyFlags s).testBit 3 then bootStop s
          else match norGood s nor.stage1 with
            | (s, true) => bootMain s unreadable badSlots nor 4 scope
            | (s, false) => bootStop s

/-! ### Counter advances (R524, R527) -/

/-- SVN of the running image that feeds counter 0, 1 or 2. -/
def runningSvn (s : State) (c : Nat) : Nat :=
  match c with
  | 0 => (s.bot.meas.get? 2).elim 0 (·.svn)
  | 1 => (s.bot.meas.get? 3).elim 0 (·.svn)
  | _ => ((s.bot.meas.filter fun m => decide (4 ≤ m.1) && decide (m.1 ≤ 9)).map fun m => m.2.svn).foldl max 0

/-- Queue the COUNTER_ADVANCE record of an advance. -/
def queueAdvance (s : State) (cmd : Option Nat) (c v : Nat) : State := queueRecord s ⟨7, bytesLE 4 c ++ bytesLE 4 v, [], .counter cmd c v⟩

/-- Counters 0 to 2 follow the running images from I/O-ready on, unless the policy holds them (R524). -/
def advanceCounters (s : State) : State :=
  if !s.fer.ioReady || (policyFlags s).testBit 2 || noRing s then s
  else (List.range 3).foldl (fun s c =>
    if counterOf s c < runningSvn s c && !(s.bot.queue.any fun e => e.after == .counter none c (runningSvn s c)) then queueAdvance s none c (runningSvn s c) else s) s

/-! ### Security Send and Receive, protocol F0h (R527) -/

/-- SECP and SPSP of a Security command: dword 10 [31:24] and [23:8]. -/
def secProtocol (d : List Byte) : Nat := cdwF d 10 31 24
/-- SPSP. -/
def secSpsp (d : List Byte) : Nat := cdwF d 10 23 8

/-- A Security command of protocol F0h with a given SPSP, on a PF admin queue. -/
def onSecurity (s : State) (op spsp id : Nat) (f : State → HostCmd → State × Reply) : State :=
  onCmd s true op id fun s c =>
    if secProtocol c.sqe ≠ 0xF0 ∨ secSpsp c.sqe ≠ spsp then (s, .later)
    else if !isPf c.ctl then (s, .err .invalidField)
    else f s c

/-- Install a policy: the checks, then its POLICY_CHANGE record holds the rest (R525, R526, R531). -/
def policyInstall (data : List Byte) (s : State) (c : HostCmd) : State × Reply :=
  let (s, cause) := checkImage s true 9 (some data)
  if cause.isSome ∨ imgKind data ≠ 5 then (s, .err .accessDenied)
  else
    let new := ownerDigest s != policyOwner (imgPayload data) || (ownerInForce? s).isNone
    let free := (List.range 4).find? fun n => !s.bot.fuses.ownerState.testBit (2 * n)
    if new && free.isNone then (s, .err .invalidField)
    else if noRing s then (s, .err .internalError)
    else
      let slot := if new then free.getD 0 else (ownerInForce? s).getD 0
      (queueRecord s ⟨6, [BitVec.ofNat 8 slot, if new then 1 else 0], [(0x0A, some (imgMeasure data false 0))], .policy c.id data⟩, .wait)

/-- What a durable POLICY_CHANGE lets happen: fuses, the replicas and the NOR, and counter 3's advance (R524, R526). -/
def policyApply (s : State) (image : List Byte) : State :=
  let f := s.bot.fuses
  let owner := policyOwner (imgPayload image)
  let new := ownerDigest s != owner || (ownerInForce? s).isNone
  let f := if !new then f
    else match (List.range 4).find? fun n => !f.ownerState.testBit (2 * n) with
      | none => f
      | some n =>
        let old := match ownerInForce? s with
          | some o => 2 ^ (2 * o + 1)
          | none => 0
        { f with ownerState := f.ownerState ||| 2 ^ (2 * n) ||| old, owners := f.owners.put n owner }
  let b := s.bot
  let s := putBot s { b with
    fuses := f, policy := image, nor := { b.nor with policy := image }
    replicas := (List.range 4).foldl (fun (t : Tab BootSet) k => if replicaLost s k then t else t.put k { t.getD k BootSet.empty with policy := image }) b.replicas }
  let s := showPolicy s
  if counterOf s 3 < imgSvn image ∧ !noRing s then queueAdvance s none 3 (imgSvn image) else s

/-- Advance a counter for the host (R527). -/
def counterSend (data : List Byte) (s : State) (c : HostCmd) : State × Reply :=
  let n := bAt data 0
  let v := leAt data 4 4
  if data.length < 8 ∨ 2 < n ∨ v < counterOf s n ∨ runningSvn s n < v then (s, .err .invalidField)
  else if noRing s then (s, .err .internalError)
  else (queueAdvance s (some c.id) n v, .wait)

/-- Write the board record (R527, R587). -/
def boardWrite (data : List Byte) (s : State) (_c : HostCmd) : State × Reply :=
  if !boardOk data then (s, .err .invalidField) else (mramPut (putBot s { s.bot with board := data }) 0x40 data, .ok)

/-- Both identity chains, each after its 4-byte length. -/
def chainBytes : List Byte := bytesLE 4 (Config.idChain 0).length ++ Config.idChain 0 ++ bytesLE 4 (Config.idChain 1).length ++ Config.idChain 1

/-- The 16 counter records: effective value and fuse floor. -/
def counterBytes (s : State) : List Byte := (List.range 16).flatMap fun c => bytesLE 4 (counterOf s c) ++ bytesLE 4 (floorOf s c)

/-- SPSP values of the functions of R527, and of the span key (R554). -/
def knownSpsp (send : Bool) : List Nat := if send then [0x0010, 0x0011, 0x0012, 0x0020] else [0x0001, 0x0002, 0x0003, 0x0004]

/-- Security Send to another protocol: the locking SSCs; a protocol F0h function has a command of its own, and an SPSP that names none is refused. -/
def securitySend (act : OpalAct) (s : State) (c : HostCmd) : State × Reply :=
  if secProtocol c.sqe = 0xF0 then (if (knownSpsp true).contains (secSpsp c.sqe) then (s, .later) else (s, .err .invalidField)) else opal act s c

/-- Security Receive of another protocol: what the locking SSC answers is not the spec's. -/
def securityReceive (s : State) (c : HostCmd) : State × Reply :=
  if secProtocol c.sqe = 0xF0 then (if (knownSpsp false).contains (secSpsp c.sqe) then (s, .later) else (s, .err .invalidField))
  else
    let n := cdw c.sqe 11
    let data := (List.range n).map (Config.freeByte s.com.free)
    (takeFree s, .done .success 0 data)

/-! ### Firmware (R120, R521, R612) -/

/-- Firmware Image Download: a piece at dword offset dword 11, dword 10 + 1 dwords long; the snoop taps see it (R485, R521). -/
def firmwareDownload (data : List Byte) (s : State) (c : HostCmd) : State × Reply :=
  let off := 4 * cdw c.sqe 11
  let bytes := data.take (4 * (cdw c.sqe 10 + 1))
  let s := tap s (if ctlPort c.ctl then 2 else 1) off bytes
  ({ s with hst := { s.hst with download := s.hst.download ++ [(off, bytes)] } }, .ok)

/-- The image downloaded: the pieces laid out. -/
def downloaded (s : State) : List Byte :=
  assemble ((s.hst.download.map fun p => p.1 + p.2.length).foldl max 0) s.hst.download

/-- A set with an image in a slot; a CLUSTER image replaces one that serves the same clusters. -/
def BootSet.store (b : BootSet) (slot : Nat) (img : List Byte) : BootSet :=
  match imgKind img with
  | 1 => { b with stage1 := img }
  | 2 => { b with mains := b.mains.put slot img }
  | _ => { b with clusters := b.clusters.put slot ((b.clu slot).filter (fun x => imgClusters x != imgClusters img) ++ [img]) }

/-- Write an image into the replicas, CH48 first; a lost replica is passed over (R521). -/
def storeImage (s : State) (slot : Nat) (img : List Byte) : State :=
  [3, 2, 1, 0].foldl (fun s k => if replicaLost s k then s else putBot s { s.bot with replicas := s.bot.replicas.put k ((replicaOf s k).store slot img) }) s

/-- A slot's images as the first good replica holds them. -/
def slotSet (s : State) (unreadable : List Nat) (slot : Nat) : Option BootSet :=
  ((List.range 4).find? fun k => !(replicaOf s k |>.main slot).isEmpty && (imageCause s false (readReplica s unreadable k slot ((replicaOf s k).main slot))).isNone).map (replicaOf s)

/-- Does a crew section of an image overlap the place of an activated program? (R496, R612 step 1) -/
def overlapsPlace (s : State) (b : List Byte) : Bool :=
  s.prg.acts.any fun a => (imgSecs b).any fun x =>
    let hit (lo n : Nat) : Bool := decide (x.len ≠ 0) && decide (x.dest < lo + n) && decide (lo < x.dest + x.len)
    match x.kind with
    | 1 => hit (0x4000 + 0x4000 * a.place) 0x4000
    | 2 => hit (0xA000 + 0x2000 * a.place) 0x2000
    | 3 => hit (0x100000 + 0x40000 * a.place) 0x40000
    | _ => false

/-- The images of a slot are activated without reset: the check of step 1, then the FW_ACTIVATE record holds the rest (R612). -/
def activateSlot (s : State) (unreadable : List Nat) (slot ca : Nat) (c : HostCmd) : State × Reply :=
  match slotSet s unreadable slot with
  | none => (s, .err .activationProhibited)
  | some b =>
    let (s, cause) := checkImage s false 9 (some (b.main slot))
    if cause.isSome || overlapsPlace s (b.main slot) || s.flt.activating.isSome then (s, .err .activationProhibited)
    else if noRing s then (s, .err .internalError)
    else
      let clus : List (Nat × Option Measure) := (List.range 6).map fun i =>
        (4 + i, ((b.clu slot).find? fun x => (imgClusters x).testBit i).map fun x => imgMeasure x false 0)
      let s := wrF s pFLT FLT_ACT_STATUS 31 28 1
      let s := queueRecord s ⟨2, [BitVec.ofNat 8 slot, BitVec.ofNat 8 ca], [(3, some (imgMeasure (b.main slot) false 0))] ++ clus, .firmware slot c.id⟩
      (putCmd s { c with units := [0xF1, slot] }, .wait)

/-- Firmware Commit: action CDW10 [5:3], slot [2:0] (R521, R612). -/
def firmwareCommit (unreadable : List Nat) (s : State) (c : HostCmd) : State × Reply :=
  let ca := cdwF c.sqe 10 5 3
  let fs := cdwF c.sqe 10 2 0
  let slot := if fs = 0 then ((List.range 4).map (· + 1)).find? (· != s.bot.active) |>.getD 1 else fs
  if slot > 4 then (s, .err .slotInvalid)
  else if ca > 3 then (s, .err .invalidField)
  else if ca ≤ 1 then
    let img := downloaded s
    let (s, cause) := checkImage s false 9 (some img)
    if cause.isSome ∨ imgKind img = 0 ∨ 3 < imgKind img then (s, .err .activationProhibited)
    else if ca = 1 ∧ imgKind img = 2 ∧ spanBars s (imgVersion img) = true then (s, .err .activationProhibited)
    else if ca = 1 ∧ noRing s then (s, .err .internalError)
    else
      let s := storeImage { s with hst := { s.hst with download := [] } } slot img
      (if ca = 1 then putBot s { s.bot with nextSlot := some slot } else s, .ok)
  else if (slotSet s unreadable slot).isNone then (s, .err .slotInvalid)
  else if ((slotSet s unreadable slot).any fun b => spanBars s (imgVersion (b.main slot))) then (s, .err .activationProhibited)
  else if noRing s then (s, .err .internalError)
  else if ca = 2 then (putBot s { s.bot with nextSlot := some slot }, .ok)
  else activateSlot s unreadable slot ca c

/-- The images that a live activation runs. -/
def activeSet (s : State) (slot : Nat) : BootSet := (slotSet s [] slot).getD BootSet.empty

/-- The next cluster of a handover, from NCL5 down, skipping those that are off or retired (R612 step 4). -/
def nextHandover (s : State) : Option Nat :=
  [5, 4, 3, 2, 1, 0].find? fun c => !cluGone s c && domainUp s (20 + c) && !(rdF s pFLT FLT_ACT_STATUS 5 0).testBit c

/-- The end of a live activation: counters advance and the command completes (R612 step 5). -/
def activationDone (s : State) (slot : Nat) : State :=
  let s := wr s pFLT FLT_ACT_STATUS (setFld (rd s pFLT FLT_ACT_STATUS) 31 28 4)
  let s := { s with flt := { s.flt with activating := none, handoverFrom := none } }
  let s := advanceCounters s
  match s.hst.cmds.find? fun c => c.units == [0xF1, slot] && c.state == .waiting with
  | some c => endCmd s c .success 0 []
  | none => s

/-- One cluster of a live activation is handed over, once no crew item runs on it; with none left the activation ends (R612 steps 3 to 5). -/
def liveStep (s : State) : State :=
  match s.flt.activating with
  | none => s
  | some slot =>
    match nextHandover s with
    | none => activationDone s slot
    | some c =>
      let s := wrF (wrF s pFLT FLT_ACT_STATUS 31 28 3) pFLT FLT_ACT_STATUS 22 20 c
      let s := if s.flt.handoverFrom.isSome then s else { s with flt := { s.flt with handoverFrom := some s.com.time } }
      let clu : Clu := ⟨c % 6, Nat.mod_lt _ (by decide)⟩
      match handoverNow s clu with
      | none => s
      | some s =>
        let b := activeSet s slot
        let s := loadCluster s (b.main slot) (b.clu slot) clu
        let s := { s with flt := { s.flt with handoverFrom := none } }
        let s := wrB s pFLT FLT_ACT_STATUS c true
        if (nextHandover s).isNone then activationDone s slot else s

/-- A handover that lasts longer than HANDOVER_MAX raises HANDOVER_SLOW and goes on (R612). -/
def handoverSlow (s : State) : State :=
  match s.flt.handoverFrom with
  | some t => if (s.com.time - t).toNat > inF s pFLT FLT_HANDOVER_MAX 13 0 * 1000000 then irq s pFLT 3 else s
  | none => s

/-! ### Boot record appends and what follows them (R531) -/

/-- Main firmware rewrites the NOR with the running images, unless its write-protect input is asserted (R523). -/
def norRewrite (s : State) (locked : Bool) : State :=
  if locked then s
  else
    let b := activeSet s s.bot.active
    let st := ((List.range 4).find? fun k => (imageCause s false (readReplica s [] k roleStage1 (replicaOf s k).stage1)).isNone).elim s.bot.nor.stage1 fun k => (replicaOf s k).stage1
    putBot s { s.bot with nor := ⟨st, [(s.bot.active, b.main s.bot.active)], [(s.bot.active, b.clu s.bot.active)], s.bot.policy⟩ }

/-- End a waiting command by its number. -/
def endWaiting (s : State) (id : Nat) (st : NvStatus) (dw0 : Nat) : State :=
  match cmdOf? s id with
  | some c => endCmd s c st dw0 []
  | none => s

/-- The effect that a record held (R531). -/
def afterRecord (s : State) (a : AfterRecord) (norLocked : Bool) : State :=
  match a with
  | .none => s
  | .boot => if s.fer.replayed then wrF (putFer s { s.fer with adminReady := true }) pSCP SCP_BOOT_STAGE 3 0 3 else s
  | .firmware slot _ =>
    let s := putBot s { s.bot with active := slot }
    let s := logEvent s { kind := kACTIVATION, page := pSCP, unit := slot }
    { wr s pFLT FLT_ACT_STATUS (w32 (2 * 2 ^ 28)) with flt := { s.flt with activating := some slot, handoverFrom := none } }
  | .tableLoad c => loadRelease s c
  | .loaded id => endWaiting s id .success 0
  | .activated id slot =>
    endWaiting (putPrg s { s.prg with acts := s.prg.acts.map fun x => if x.slot == slot then { x with live := true } else x }) id .success slot
  | .deactivated id slot => match actOf? s slot with
    | some x => endWaiting (revoke (putPrg s { s.prg with acts := s.prg.acts.filter fun y => y.slot != slot }) x) id .success 0
    | none => endWaiting s id .success 0
  | .policy id image => endWaiting (policyApply s image) id .success 0
  | .counter id n v =>
    let s := norRewrite (setCounter s n v) norLocked
    match id with
    | some k => endWaiting s k .success 0
    | none => s

/-- The next queued event's record is formed, signed and written to its ring slot; an armed injection leaves it torn, and the wear meter may hold it (R329, R531, R534). -/
def recordAppend (s : State) (norLocked : Bool) : State :=
  match s.bot.queue with
  | [] => s
  | e :: rest =>
    if wearHolds s 0x5800000 || noRing s then s
    else
      let s := putBot s { s.bot with queue := rest }
      let (s, r) := formRecord s e
      let s := storeRecord s r
      let s := if s.bot.inject.any (fun i => i.1 == 1) then
          injected (putBot s { s.bot with inject := removeFirst (fun i => i.1 == 1) s.bot.inject }) fun s => tearSlot s r.seq
        else s
      let s := afterRecord s e.after norLocked
      wrB s pSCP SCP_REC_STATUS 31 (!s.bot.queue.isEmpty)

/-- `SCP.ERR_INJECT` (R534). -/
def scpInject (s : State) (v : Word) : State :=
  let code := fld v 3 0
  if 1 ≤ code ∧ code ≤ 3 then putBot s { s.bot with inject := s.bot.inject ++ [(code, fld v 5 4)] } else s

/-! ### SPDM (R533) -/

/-- The value of a measurement index: raw for the toll version and the newest boot record, else the digest; none when absent. -/
def measurement? (s : State) (i : Nat) : Option (List Byte) :=
  if i = 0x30 then (s.bot.ring.get? (rdF s pSCP SCP_REC_SEQ 31 0 % 1024)).map bootRecordBytes
  else if i = 0x0B then some (sha512 (configBlock s))
  else (s.bot.meas.get? i).map fun m => if i = 0x0C then m.digest.take 8 else m.digest

/-- DMTF value type of an index. -/
def measureType (i : Nat) : Nat := if i = 1 then 0 else if i = 0x0A then 3 else if i = 0x0B then 2 else if i = 0x0C then 6 else if i = 0x30 then 4 else 1

/-- A measurement block: index, value type, length and value. -/
def measureBlock (s : State) (i : Nat) : List Byte := match measurement? s i with
  | some v => bytesLE 1 i ++ bytesLE 1 (measureType i) ++ bytesLE 2 v.length ++ v
  | none => []

/-- An SPDM request on port 0 or 1 (a PF's DOE mailbox) or 2 (the management port); each response is signed with the Ed25519 identity key. The message forms beside the measurements are those of SPDM 1.3, so such a response is a free value. -/
def spdmRequest (s : State) (port : Nat) (r : SpdmReq) : State :=
  if rdF s pSCP SCP_BOOT_STAGE 3 0 < 2 ∨ (port < 2 ∧ !(linkOf s (decide (port = 1))).up) then s
  else
    let answer (b : List Byte) : State := putBot s { s.bot with spdmOut := s.bot.spdmOut ++ [(port, b ++ Config.sign 0 (ofBytesLE s.bot.edSeed) b)] }
    match r with
    | .measurements none => answer ((List.range 256).flatMap (measureBlock s))
    | .measurements (some i) => answer (measureBlock s i.toNat)
    | .certificate 0 => answer (Config.idChain 0)
    | .certificate _ => answer s.bot.chain1
    | .setCertificate chain => putBot s { s.bot with chain1 := chain }
    | .other n => takeFree (putBot s { s.bot with spdmOut := s.bot.spdmOut ++ [(port, (List.range n).map (Config.freeByte s.com.free))] })

end Sys2Proof.Machine
end

