-- ==== Sys2Proof/Machine/Footprint.lean ====
section
/-! DEFINITION. The parts of the state, and a command's effect confined to the parts it may touch: the shared part is always among them, the queue of waiting commands never is. -/

namespace Sys2Proof.Machine

/-- A part of the state beside the shared one. -/
inductive Part where
  | sglP | memP | fltP | fchP | mapP | strP | ferP | keyP | mteP | nelP | disP | cvnP | hstP | botP | prgP | tolP | pwrP | spnP
  deriving DecidableEq, Repr

/-- Landing, MRAM and DRAM with every memory in its canonical form. -/
def Memory.canon (m : Memory) : Memory :=
  { m with landing := m.landing.canon, mram0 := m.mram0.canon, mram1 := m.mram1.canon, dram := m.dram.canon }

/-- A core with its TCMs in their canonical form. -/
def Core.canon (x : Core) : Core := { x with itcm := x.itcm.canon, dtcm := x.dtcm.canon }

/-- A cluster with its store in its canonical form. -/
def Cluster.canon (x : Cluster) : Cluster := { x with store := x.store.canon }

/-- Clusters and cores with every memory in its canonical form. -/
def Nelius.canon (x : Nelius) : Nelius := { x with cores := x.cores.map Core.canon, clusters := x.clusters.map Cluster.canon }

/-- The state after `t`, confined to the shared part and the parts listed; the memories of a part that the command may touch end in their canonical form. -/
def confine (ps : List Part) (s t : State) : State :=
  { com := t.com
    sgl := if ps.contains .sglP then t.sgl else s.sgl
    mem := if ps.contains .memP then t.mem.canon else s.mem
    flt := if ps.contains .fltP then t.flt else s.flt
    fch := if ps.contains .fchP then t.fch else s.fch
    map := if ps.contains .mapP then t.map else s.map
    str := if ps.contains .strP then t.str else s.str
    fer := if ps.contains .ferP then t.fer else s.fer
    key := if ps.contains .keyP then t.key else s.key
    mte := if ps.contains .mteP then t.mte else s.mte
    nel := if ps.contains .nelP then t.nel.canon else s.nel
    dis := if ps.contains .disP then t.dis else s.dis
    cvn := if ps.contains .cvnP then t.cvn else s.cvn
    hst := if ps.contains .hstP then t.hst else s.hst
    bot := if ps.contains .botP then t.bot else s.bot
    prg := if ps.contains .prgP then t.prg else s.prg
    tol := if ps.contains .tolP then t.tol else s.tol
    pwr := if ps.contains .pwrP then t.pwr else s.pwr
    spn := if ps.contains .spnP then t.spn else s.spn
    pending := s.pending }

/-- Every part. -/
def allParts : List Part := [.sglP, .memP, .fltP, .fchP, .mapP, .strP, .ferP, .keyP, .mteP, .nelP, .disP, .cvnP, .hstP, .botP, .prgP, .tolP, .pwrP, .spnP]

/-- A command that runs: its effect `f`, confined to the shared part and the parts listed. -/
def touching (ps : List Part) (f : State → State) (s : State) : Host.Outcome State Fault Refusal := .next (confine ps s (f s))

end Sys2Proof.Machine
end

