-- ==== Sys2Proof/Machine/BootRows.lean ====
section
/-! DEFINITION. Meanings of the boot, firmware, policy, counter, boot record and SPDM commands (R513 to R534, R612). -/

namespace Sys2Proof.Machine

/-- An SPDM 1.3 request on DOE or the management port is answered and signed with the Ed25519 identity key (R533). -/
def execSpdmRequest (port : Fin 3) (req : SpdmReq) (s : State) : Host.Outcome State Fault Refusal :=
  touching [.botP] (fun s => spdmRequest s port.val req) s

/-- From power-good the boot ROM, stage-1 and main firmware verify and start the device (R522). -/
def execBootSequence (elapsed : Nat) (nor : Option (List (List Byte))) (unreadable badSlots : List Nat) (s : State) : Host.Outcome State Fault Refusal :=
  touching allParts (fun s => bootSequence (advance s elapsed) nor unreadable badSlots) s

/-- Hourly and after updates main firmware checks and repairs each boot replica (R520). -/
def execReplicaCheck (elapsed : Nat) (unreadable : List Nat) (s : State) : Host.Outcome State Fault Refusal :=
  touching [.botP] (fun s => replicaCheck (advance s elapsed) unreadable) s

/-- An anti-rollback counter rises, recorded and floor bits burned (R524). -/
def execCounterAdvance (elapsed : Nat) (s : State) : Host.Outcome State Fault Refusal :=
  touching [.botP] (fun s => advanceCounters (advance s elapsed)) s

/-- Security Send 0x0010 installs a POLICY image, taking or transferring ownership (R526). -/
def execPolicyInstall (cmd : Nat) (hostData : List Byte) (s : State) : Host.Outcome State Fault Refusal :=
  touching [.botP, .hstP, .mapP, .keyP] (fun s => onSecurity s 0x81 0x10 cmd (policyInstall hostData)) s

/-- Security Send 0x0011 advances counter 0 to 2 (R527). -/
def execCounterAdvanceSend (cmd : Nat) (hostData : List Byte) (s : State) : Host.Outcome State Fault Refusal :=
  touching [.botP, .hstP, .mapP] (fun s => onSecurity s 0x81 0x11 cmd (counterSend hostData)) s

/-- Security Send 0x0012 writes the board record (R527). -/
def execBoardRecordWrite (cmd : Nat) (hostData : List Byte) (s : State) : Host.Outcome State Fault Refusal :=
  touching [.botP, .hstP, .mapP, .memP] (fun s => onSecurity s 0x81 0x12 cmd (boardWrite hostData)) s

/-- Security Receive 0x0001 returns the identity certificate chains (R527). -/
def execCertificateChainsReceive (cmd : Nat) (s : State) : Host.Outcome State Fault Refusal :=
  touching [.botP, .hstP, .mapP] (fun s => onSecurity s 0x82 0x01 cmd fun s _ => (s, .done .success 0 chainBytes)) s

/-- Security Receive 0x0002 returns the POLICY image in force (R527). -/
def execPolicyReceive (cmd : Nat) (s : State) : Host.Outcome State Fault Refusal :=
  touching [.botP, .hstP, .mapP] (fun s => onSecurity s 0x82 0x02 cmd fun s _ => (s, .done .success 0 s.bot.policy)) s

/-- Security Receive 0x0003 returns the counter values and floors (R527). -/
def execCountersReceive (cmd : Nat) (s : State) : Host.Outcome State Fault Refusal :=
  touching [.botP, .hstP, .mapP] (fun s => onSecurity s 0x82 0x03 cmd fun s _ => (s, .done .success 0 (counterBytes s))) s

/-- Security Receive 0x0004 returns the stored board record (R527). -/
def execBoardRecordReceive (cmd : Nat) (s : State) : Host.Outcome State Fault Refusal :=
  touching [.botP, .hstP, .mapP] (fun s => onSecurity s 0x82 0x04 cmd fun s _ => (s, .done .success 0 s.bot.board)) s

/-- The security processor forms, signs and durably writes the next boot record (R531). -/
def execBootRecordAppend (elapsed : Nat) (norLocked : Bool) (s : State) : Host.Outcome State Fault Refusal :=
  touching allParts (fun s => recordAppend (advance s elapsed) norLocked) s

/-- Firmware Commit 011b activates MAIN without reset through cluster handover (R612). -/
def execLiveActivation (elapsed : Nat) (s : State) : Host.Outcome State Fault Refusal :=
  touching allParts (fun s => liveStep (advance s elapsed)) s

/-- A cluster handover lasts longer than HANDOVER_MAX (R612). -/
def execHandoverSlow (elapsed : Nat) (s : State) : Host.Outcome State Fault Refusal :=
  touching [.fltP] (fun s => handoverSlow (advance s elapsed)) s

/-- Admin command Firmware Image Download moves an image piece (R521). -/
def execFirmwareImageDownload (cmd : Nat) (hostData : List Byte) (s : State) : Host.Outcome State Fault Refusal :=
  touching [.hstP, .mapP, .keyP] (fun s => onCmd s true 0x11 cmd (firmwareDownload hostData)) s

/-- Admin command Firmware Commit verifies and writes the image into each replica and may activate it (R521). -/
def execFirmwareCommit (cmd : Nat) (unreadable : List Nat) (s : State) : Host.Outcome State Fault Refusal :=
  touching [.hstP, .mapP, .keyP, .botP, .fltP] (fun s => onCmd s true 0x10 cmd (firmwareCommit unreadable)) s

/-- Admin command Security Send for TCG Opal, Key Per I/O and SPDM (R475). -/
def execSecuritySend (cmd : Nat) (hostData : List Byte) (act : OpalAct) (s : State) : Host.Outcome State Fault Refusal :=
  touching [.hstP, .mapP, .keyP, .memP] (fun s => onCmd s true 0x81 cmd (securitySend act)) s

/-- Admin command Security Receive for TCG Opal, Key Per I/O and SPDM (R475). -/
def execSecurityReceive (cmd : Nat) (s : State) : Host.Outcome State Fault Refusal :=
  touching [.botP, .hstP, .mapP] (fun s => onCmd s true 0x82 cmd securityReceive) s

end Sys2Proof.Machine
end

