-- ==== Sys2Proof/Machine/FaultLog.lean ====
section
/-! DEFINITION. The fault log ring in MRAM, and the writes to `FLT` that act on it (R606, R614). -/

namespace Sys2Proof.Machine

/-- The 64 bytes of an entry; a bad one's ECHECK is inverted. -/
def LogEntry.bytes (e : LogEntry) : List Byte :=
  let b := bytesLE 4 e.fseq ++ bytesLE 1 e.kind ++ bytesLE 1 e.cls ++ bytesLE 2 e.page ++ bytesLE 8 e.time ++ bytesLE 8 e.timestamp ++ bytesLE 2 e.cause ++ bytesLE 2 e.unit
    ++ bytesLE 1 e.initiator ++ bytesLE 1 e.access ++ bytesLE 2 e.count ++ bytesLE 8 e.address ++ bytesLE 4 e.snapSeq ++ bytesLE 4 e.bootSeq ++ bytesLE 2 e.epoch
    ++ bytesLE 8 e.detail ++ bytesLE 2 e.initPage
  b ++ bytesLE 4 (if e.bad then crc32c b ^^^ 0xFFFFFFFF else crc32c b)

/-- An entry as log page C3h returns it: one whose ECHECK fails has KIND 0x00. -/
def LogEntry.shown (e : LogEntry) : List Byte := if e.bad then (LogEntry.bytes { e with kind := 0 }) else e.bytes

/-- Place of an entry in the MRAM view. -/
def logPlace (fseq : Nat) : Nat := 0x6000000 + 64 * (fseq % 65536)

/-- LOG_WSEQ and LOG_OLDEST follow the ring. -/
def showLog (s : State) : State :=
  match s.com.log.ring.head?, s.com.log.ring.getLast? with
  | some a, some b => wr (wr s pFLT FLT_LOG_OLDEST (w32 a.fseq)) pFLT FLT_LOG_WSEQ (w32 b.fseq)
  | _, _ => s

/-- The fault manager writes the oldest queued item: a new entry, which overwrites the oldest of a full ring, or a COUNT update in place. The wear meter holds it (R329, R606). -/
def logWriteNext (s : State) : State :=
  let s := { s with flt := { s.flt with holdQueue := false } }
  match s.com.log.queue with
  | [] => s
  | q :: rest =>
    if wearHolds s 0x6000000 then s
    else match q with
      | .entry e =>
        let e := { e with bad := s.com.log.badNext }
        let ring := s.com.log.ring ++ [e]
        let s := { s with com := { s.com with log := { s.com.log with queue := rest, ring := if 65536 < ring.length then ring.drop 1 else ring, badNext := false } } }
        showLog (mramPut s (logPlace e.fseq) e.bytes)
      | .count f c =>
        let ring : List LogEntry := s.com.log.ring.map fun e : LogEntry => if e.fseq == f then { e with count := c } else e
        let s := { s with com := { s.com with log := { s.com.log with queue := rest, ring := ring } } }
        match s.com.log.ring.find? fun e => e.fseq == f with
        | some e => mramPut s (logPlace f) e.bytes
        | none => s

/-- A write to LOG_WRITE appends a FIRMWARE entry with LOG_D0 and LOG_D1 as DETAIL (R614). -/
def logWrite (s : State) (who : Initiator) (v : Word) : State :=
  logEvent s { kind := kFIRMWARE, page := pFLT, cause := fld v 11 0, initiator := who.num, detail := (rd s pFLT FLT_LOG_D0).toNat + (rd s pFLT FLT_LOG_D1).toNat * 2 ^ 32 }

/-- `FLT.ERR_INJECT` (R614). -/
def fltInject (s : State) (v : Word) : State :=
  match fld v 3 0 with
  | 1 => { s with com := { s.com with log := { s.com.log with badNext := true } } }
  | 2 => { s with flt := { s.flt with holdQueue := true } }
  | _ => s

/-- Commit check of `FLT` (R614). -/
def checkFlt (s : State) : List (Nat × Nat) :=
  let m := rdF s pFLT FLT_HANDOVER_MAX 13 0
  if m < 1 ∨ m > 10000 then [(FLT_HANDOVER_MAX, 1)] else []

end Sys2Proof.Machine
end

