-- ==== Sys2Proof/Machine/SpanGroup.lean ====
section
/-! DEFINITION. The span group: generations and votes, quorum, heartbeats, messages received, host commands, fencing, resync and rebuild, group time (R132, R552 to R571). -/

namespace Sys2Proof.Machine

/-- Running VERSION of the main firmware (R515, R561). -/
def mainVersion (s : State) : Nat := ((s.bot.meas.get? 3).map (·.version)).getD 0

/-- A committed generation is placed in force: low 32 bits. -/
def genLow (g : Nat) : Nat := g % 2 ^ 32

/-! ### What has settled -/

/-- Answers whose units are now in flash go out, flights and jobs that can end do so, and the registers follow. -/
def spanSettle (s : State) : State :=
  let ready := s.spn.late.filter fun l => l.units.all fun u => unitSettled s s.spn.handle u
  let s := putSpn s { s.spn with late := s.spn.late.filter fun l => !(l.units.all fun u => unitSettled s s.spn.handle u) }
  let s := ready.foldl (fun s l => if l.msg.dest = spanMe s then pieceAcked s l.msg.hdr.ref.toNat false else putSpn s { s.spn with queue := s.spn.queue ++ [l.msg] }) s
  let s := (s.spn.flights.map (·.stripe)).foldl checkFlight s
  let s := (s.spn.jobs.map (·.cmd)).foldl (fun s k =>
    let s := jobAdvance s k
    match jobOf? s k with
    | none => s
    | some j => match jobReply s j, cmdOf? s k with
      | some (.done st dw0 b), some c => endCmd (dropJob s k) c st dw0 (if sqeOp c.sqe = 0x0C then [] else b)
      | _, _ => s) s
  showSpan (spanPump s)

/-! ### Generations (R564, R565, R569) -/

/-- Open the launch entry that applies a generation at T: the first FREE one; a member without TIME_OK waits for the coordinator's word (R563, R564). -/
def armEpoch (s : State) (gen : Nat) (t : Count) : State :=
  if !bit (rd s pSPN SPN_VIEW) 18 && !isCoord s then s
  else match (List.range 1024).find? fun i => (entryOf s i).state == .free with
    | none => s
    | some i => (armEntry s i { LaunchEntry.empty with time := t, page := pSPN, action := 6, arg := w32 (genLow gen) } false).1

/-- The next whole millisecond at or after a count. -/
def ceilMs (n : Nat) : Nat := cdiv n 1000000 * 1000000

/-- COMMIT once the votes reach the threshold (R564 step 3). A member 0 that holds quorum on its own needs no other vote (R566). -/
def countVotes (s : State) : State :=
  match s.spn.proposal with
  | none => s
  | some (d, votes, _) =>
    let n := votes.length + if holdsWitness s then 1 else 0
    if decide (n < (spanDesc s).threshold) && !((spanDesc s).members == 2 && !(spanDesc s).witnessEn && spanMe s == 0) then s
    else
      let t : Count := BitVec.ofNat 64 (ceilMs (s.com.time.toNat + 2000000))
      let s := spanJournal s (.commit d.gen d.bytes)
      let others := (List.range 8).filter fun i => i != spanMe s && (d.st i != 0 || (spanDesc s).st i != 0)
      let s := others.foldl (fun s i => spanSend s i 0x14 (spanHdr s d.gen 0 0 0 0 0 false) (.commit { d with index := i }.bytes t)) s
      armEpoch (putSpn s { s.spn with proposal := none, next := some (d, t), pulse := 400 }) d.gen t

/-- The coordinator proposes a changed descriptor as the next generation (R564 steps 1 and 2). -/
def spanPropose (s : State) (d : SpanDesc) : State :=
  if !isCoord s || s.spn.proposal.isSome || s.spn.next.isSome || d == spanDesc s then s
  else
    let g := max s.spn.lastGen (spanDesc s).gen + 1
    let d := { d with gen := g }
    let h := d.digest
    let s := spanJournal s (.propose g (spanMe s) h)
    let s := spanJournal s (.vote g (spanMe s) h)
    let s := putSpn s { s.spn with proposal := some (d, [spanMe s], s.com.time), lastGen := g, voted := some (g, h) }
    let others := (List.range 8).filter fun i => i != spanMe s && (d.st i != 0 || (spanDesc s).st i != 0)
    countVotes (others.foldl (fun s i => spanSend s i 0x12 (spanHdr s g 0 0 0 0 0 false) (.propose { d with index := i }.bytes)) s)

/-- Propose one member's state. -/
def proposeState (s : State) (i st : Nat) : State := spanPropose s ((spanDesc s).setSt i st)

/-- A message to a member that no longer takes work is given up: a chunk is dirty, a read has no answer, a REPLICA goes to the new partner or the lead journals alone (R556, R560, R569). -/
def giveUp (s : State) (w : SpanWait) : State :=
  let h := w.msg.hdr
  let s := spanAnswered s w.msg.type h.ref.toNat
  match w.msg.type with
  | 0x03 => if h.units.toNat = 0 then pieceAcked s h.ref.toNat false else checkFlight (markDirty s w.msg.dest h.stripe.toNat) h.stripe.toNat
  | 0x05 =>
    match s.spn.gathers.find? fun g => g.waits.any fun x => x.1 == h.ref.toNat with
    | none => s
    | some g =>
      let role := ((g.waits.find? fun x => x.1 == h.ref.toNat).map (·.2)).getD 0
      let g' := { g with waits := g.waits.filter (fun x => x.1 != h.ref.toNat), got := g.got ++ [(role, none)] }
      let s := putSpn s { s.spn with gathers := (s.spn.gathers.filter (· != g)) ++ (if g'.waits.isEmpty then [] else [g']) }
      if !g'.waits.isEmpty then s
      else match g'.owner with
        | .flight t => (match flightOf? s t with
          | some f => rmwReady s f g'
          | none => s)
        | .job cmd u rest => if (spanDesc s).layout = 0 then jobCopies s cmd u rest else jobDegraded s cmd u []
        | .degraded cmd u => jobRecover s cmd u g'
  | 0x07 =>
    match flightOf? s h.stripe.toNat with
    | some f => if f.phase = .intent then (match (spanDesc s).partner (spanMe s) with
        | none => startChunks s f
        | some m => spanAsk s m 0x07 h w.msg.body) else s
    | none => s
  | _ => s

/-- A held piece whose lead no longer serves goes to the new lead in the new generation (R557). -/
def resendHeld (s : State) (cmd : Nat) (m : SpanMsg) : State :=
  let d := spanDesc s
  let t := m.hdr.stripe.toNat
  if m.type ≠ 0x01 ∨ d.takes m.dest then s
  else match d.lead t, jobOf? s cmd, m.body with
    | some l, some j, .units us =>
      let h := { m.hdr with gen := BitVec.ofNat 64 d.gen }
      let m' := { m with dest := l, hdr := h }
      let s := spanAnswered s 0x01 h.ref.toNat
      let s := putJob s { j with held := j.held.map fun x => if x.hdr.ref == h.ref then m' else x }
      if l = spanMe s then onData s ⟨spanMe s, h.ref.toNat, h.role.toNat, h.first.toNat - t * d.chunk, us, h.fua⟩ t
      else spanAsk s l 0x01 h (.units us)
    | _, _, _ => jobFail s cmd .notReady

/-- What a device says of itself while its entry does not yet: joining until its slot is rebuilt or in service, leaving until its slot says so. -/
def ownAfter (own : Option Nat) (st : Nat) : Option Nat :=
  match own with
  | some 1 => if st = 1 ∨ st = 3 then none else some 1
  | some 5 => if st = 1 ∨ st = 3 then some 5 else none
  | _ => none

/-- A committed generation takes force (R564 step 4, R569). -/
def spanApply (s : State) (d : SpanDesc) : State :=
  let old := spanDesc s
  let was := inGroup s
  let me := spanMe s
  let d := { d with index := if was then me else d.index }
  let s := putSpn s { s.spn with
    desc := some d, prev := if was then some (old, s.com.time) else none, next := none, proposal := none, lastGen := max s.spn.lastGen d.gen
    own := ownAfter s.spn.own (d.st d.index), joins := if d.st d.index = 1 ∨ d.st d.index = 3 then none else s.spn.joins
    witness := s.spn.witness.filter fun w => decide (d.gen ≤ w.2)
    finished := s.spn.finished.filter fun i => d.st i == 3 }
  let s := irq s pSPN 7
  let s := (List.range 8).foldl (fun s i =>
    let was1 := old.serves i
    let s := if was1 && !d.takes i then spanJournal (irq s pSPN 2) (.dirtyBegin i d.gen) else s
    let s := if was && !was1 && d.serves i then
        let s := irq s pSPN 3
        putSpn s { s.spn with dirty := s.spn.dirty.del i, dirtyAll := s.spn.dirtyAll.filter (· != i) }
      else s
    let replaced := was && (old.entry i).serial != (d.entry i).serial && (d.entry i).serial != 0
    if replaced then putSpn s { s.spn with dirtyAll := (s.spn.dirtyAll.filter (· != i)) ++ [i] } else s) s
  let s := if d.st d.index = 6 ∧ old.st me ≠ 6 then irq s pSPN 4 else s
  let gone := s.spn.waits.filter fun w => !d.takes w.msg.dest
  let s := gone.foldl giveUp s
  let s := (s.spn.jobs.flatMap fun j => j.held.map fun m => (j.cmd, m)).foldl (fun s h => resendHeld s h.1 h.2) s
  let inherited := ((List.range 8).filter fun i => old.serves i && !d.serves i).flatMap fun i => (openIntents s.spn.journal false i).filter fun t => leadsStripe s t && !s.spn.unresync.contains t
  spanSettle (putSpn s { s.spn with unresync := s.spn.unresync ++ inherited.eraseDups })

/-- SPAN_EPOCH delivered: a generation that this member committed with that number takes force; any other ARG has no effect (R565). -/
def spanEpoch (s : State) (arg : Word) : State :=
  match s.spn.next with
  | some (d, _) => if w32 (genLow d.gen) = arg then spanApply s d else s
  | none => s

/-- A descriptor of a higher generation is fetched and adopted; proposals above what it commits are discarded (R567 check 2). -/
def spanAdopt (s : State) (raw : List Byte) : State :=
  let d := spanParse raw
  if !spanValid raw || d.group != (spanDesc s).group || decide (d.gen ≤ (spanDesc s).gen) then s
  else spanApply (spanJournal s (.commit d.gen { d with index := spanMe s }.bytes)) { d with index := spanMe s }

/-! ### Heartbeats (R561, R563, R567, R568) -/

/-- Own time error in ns (R561, R570). -/
def timeError (s : State) : Int := sgn 32 (rd s pSGL SGL_OFFSET).toNat + (if s.spn.skew = 0 then 0 else 1000)

/-- TIME_OK follows the own time error (R563). -/
def checkTime (s : State) : State :=
  let e := (timeError s).natAbs
  let ok := bit (rd s pSPN SPN_VIEW) 18
  let good := if e ≤ 400 then s.spn.good + 1 else 0
  let s := putSpn s { s.spn with good := good }
  if e > 500 then (if ok then irq (wrB s pSPN SPN_VIEW 18 false) pSPN 5 else s)
  else if !ok && decide (10 ≤ good) then wrB s pSPN SPN_VIEW 18 true
  else s

/-- This member's heartbeat. -/
def ownBeat (s : State) : SpanBeat :=
  let d := spanDesc s
  { group := BitVec.ofNat 64 d.group, state := ⟨memberState s % 8, by omega⟩, gen := BitVec.ofNat 64 d.gen
    proposed := BitVec.ofNat 64 (match s.spn.voted with
      | some v => v.1
      | none => 0)
    digest := d.digest, version := BitVec.ofNat 64 (mainVersion s), offset := timeError s
    heard := BitVec.ofNat 8 ((List.range 8).map fun i => if decide (i < d.members) && hears s i then 2 ^ i else 0).sum
    witness := holdsWitness s, joins := s.spn.joins.map (BitVec.ofNat 64 ·), finished := BitVec.ofNat 8 ((s.spn.finished.map fun i => 2 ^ i).sum) }

/-- Heartbeats missing from each member, by the time since its last. -/
def ageHeard (s : State) : State :=
  putSpn s { s.spn with heard := s.spn.heard.map fun e => (e.1, { e.2 with missing := (s.com.time - e.2.at_).toNat / beatNs }) }

/-- A rebuilding member that no stripe of this lead is dirty for is done at once (R569). -/
def finishClean (s : State) : State :=
  let d := spanDesc s
  let more := (List.range d.members).filter fun i => d.st i == 3 && !s.spn.dirtyAll.contains i && (s.spn.dirty.getD i []).isEmpty && !s.spn.finished.contains i
  putSpn s { s.spn with finished := s.spn.finished ++ more }

/-- Every 10 ms: the heartbeat goes to every other member (R561). OFFSET_MAX begins a new period. -/
def sendBeat (s : State) : State :=
  if !inGroup s then s
  else
    let s := finishClean (checkTime (ageHeard s))
    let s := wr s pSPN SPN_OFFSET_MAX 0
    let skip := s.spn.inject.contains 1
    let b := ownBeat s
    let s := putSpn s { s.spn with skew := s.spn.skew - 1 }
    let s := if skip then putSpn s { s.spn with inject := removeFirst (· == 1) s.spn.inject }
      else ((List.range (spanDesc s).members).filter (· != spanMe s)).foldl (fun s i => spanSend s i 0x10 (spanHdr s (spanDesc s).gen 0 0 0 0 0 false) (.beat b)) s
    spanSettle s

/-- Checks 3 and 4 of R567 at a heartbeat, and what the coordinator proposes on it (R568, R569). -/
def beatChecks (s : State) (m : Nat) (b : SpanBeat) : State :=
  let d := spanDesc s
  let peers := (s.spn.heard.filter fun e => e.2.beat.gen.toNat == d.gen && hears s e.1).map fun e => e.2.beat.digest
  let all := peers ++ [d.digest]
  let majority := all.find? fun g => decide ((all.filter (· == g)).length * 2 > d.members)
  if b.gen.toNat = d.gen ∧ b.digest ≠ d.digest ∧ b.joins.isNone then
    if majority.any (· != d.digest) then irq (spanRefuse (putSpn s { s.spn with own := some 7 }) (spanMe s) 2) pSPN 4
    else spanRefuse s m 2
  else if b.version.toNat < d.fwMin ∨ d.fwMax < b.version.toNat then
    if isCoord s && d.st m != 6 then proposeState (spanRefuse s m 3) m 6 else s
  else if !isCoord s then s
  else match b.joins with
    | some serial =>
      if d.st m = 0 ∨ d.st m = 2 ∨ d.st m = 4 ∨ d.st m = 5 then spanPropose s (d.put m { d.entry m with serial := serial.toNat, state := 3 }) else s
    | none =>
      if d.st m = 2 then proposeState s m 3
      else if d.st m = 1 ∧ b.state = 5 then proposeState s m 4
      else
        let done (i : Nat) : Bool := s.spn.finished.contains i && (List.range d.members).all fun k =>
          k == spanMe s || !d.serves k || (match s.spn.heard.get? k with
            | some h => h.beat.finished.getLsbD i
            | none => false)
        match (List.range d.members).find? fun i => d.st i == 3 && done i with
        | some i => proposeState s i 1
        | none => s

/-- A heartbeat arrives (R567). `fetched` is the sender's descriptor, which a member with a lower generation asks for. -/
def onBeat (s : State) (m : Nat) (b : SpanBeat) (fetched : List Byte) : State :=
  if !inGroup s then s
  else if b.group.toNat ≠ (spanDesc s).group then bump s pSPN SPN_REFUSALS 1
  else
    let s := putSpn s { s.spn with heard := s.spn.heard.put m ⟨0, s.com.time, b⟩ }
    let o := b.offset.natAbs
    let s := if (rd s pSPN SPN_OFFSET_MAX).toNat < o then wr s pSPN SPN_OFFSET_MAX (w32 (min 0xFFFFFFFF o)) else s
    let pendingGen := s.spn.next.any fun n => n.1.gen == b.gen.toNat
    let s := if (spanDesc s).gen < b.gen.toNat ∧ pendingGen = false then spanAdopt (putSpn s { s.spn with proposal := none }) fetched
      else if b.gen.toNat < (spanDesc s).gen then s
      else beatChecks s m b
    spanSettle s

/-- A member's heartbeats have been missing for HB_MISS periods (R568). -/
def beatMissed (s : State) (m : Nat) : State :=
  let s := showSpan (ageHeard s)
  if !hears s m && isCoord s && (spanDesc s).takes m then spanSettle (proposeState s m 2) else s

/-- The controller role moves: the coordinator drives SPAN_SYNC once the old edges are gone for 3 ms, every other member turns its driver off (R561, R562). -/
def handoff (s : State) : State :=
  let s := showSpan (ageHeard s)
  if isCoord s then (if 3 ≤ s.sgl.syncMissed ∨ s.spn.driver = true then putSpn s { s.spn with driver := true } else s)
  else putSpn s { s.spn with driver := false }

/-! ### Votes (R564) -/

/-- PROPOSE arrives: one content per generation number gets this member's vote. -/
def onPropose (s : State) (from_ : Nat) (raw : List Byte) : State :=
  let d := spanParse raw
  let h := d.digest
  let fresh := match s.spn.voted with
    | none => true
    | some v => decide (v.1 < d.gen) || (v.1 == d.gen && v.2 == h)
  if !inGroup s || !spanValid raw || d.group != (spanDesc s).group || decide (d.gen ≤ (spanDesc s).gen) || !fresh then s
  else
    let s := spanJournal s (.vote d.gen (spanMe s) h)
    let s := putSpn s { s.spn with voted := some (d.gen, h), lastGen := max s.spn.lastGen d.gen }
    spanSettle (spanSend s from_ 0x13 (spanHdr s d.gen 0 0 0 0 0 false) (.vote (h.take 16)))

/-- VOTE arrives. -/
def onVote (s : State) (from_ : Nat) (gen : Nat) (h : List Byte) : State :=
  match s.spn.proposal with
  | some (d, votes, t) =>
    if d.gen = gen ∧ h = d.digest.take 16 ∧ votes.contains from_ = false then
      spanSettle (countVotes (putSpn s { s.spn with proposal := some (d, votes ++ [from_], t) }))
    else s
  | none => s

/-- COMMIT arrives: it is journaled and waits for T. -/
def onCommit (s : State) (raw : List Byte) (t : Count) : State :=
  let d := { spanParse raw with index := spanMe s }
  if !inGroup s || !spanValid raw || d.group != (spanDesc s).group || decide (d.gen ≤ (spanDesc s).gen) then s
  else
    let s := spanJournal s (.commit d.gen d.bytes)
    spanSettle (armEpoch (putSpn s { s.spn with next := some (d, t), lastGen := max s.spn.lastGen d.gen }) d.gen t)

/-- 5 ms passed without the threshold: the proposal is abandoned (R564). -/
def proposalTimeout (s : State) : State :=
  match s.spn.proposal with
  | some (_, _, t) => if decide (5000000 ≤ (s.com.time - t).toNat) then spanSettle (putSpn s { s.spn with proposal := none }) else s
  | none => s

/-! ### Messages received (R552 to R560, R563) -/

/-- Does the receiver drop a message of this sender: unknown here, or FENCED or REFUSED (R552)? -/
def spanShut (s : State) (m : Nat) : Bool :=
  let d := spanDesc s
  !inGroup s || decide (d.members ≤ m) || m == spanMe s || d.st m == 2 || d.st m == 6

/-- Is a message's generation still served (R565)? -/
def genServed (s : State) (g : Nat) : Bool :=
  g == (spanDesc s).gen || (match s.spn.prev with
    | some (d, _) => d.gen == g
    | none => false)

/-- READ_DATA completes a gather (R556, R558). -/
def onReadData (s : State) (ref : Nat) (units : Option (List (List Byte))) (flash : List (Option FlashUnit)) : State :=
  match s.spn.gathers.find? fun g => g.waits.any fun w => w.1 == ref with
  | none => s
  | some g =>
    let role := ((g.waits.find? fun w => w.1 == ref).map (·.2)).getD 0
    let g' := { g with waits := g.waits.filter (fun w => w.1 != ref), got := g.got ++ [(role, units)] }
    let s := putSpn s { s.spn with gathers := (s.spn.gathers.filter (· != g)) ++ (if g'.waits.isEmpty then [] else [g']) }
    if !g'.waits.isEmpty then s
    else match g'.owner with
      | .flight t => (match flightOf? s t with
        | some f => rmwReady s f g'
        | none => s)
      | .job cmd u rest => (match units with
        | some (b :: _) => jobUnit s cmd u b
        | _ => if (spanDesc s).layout = 0 then jobCopies s cmd u rest else jobDegraded s cmd u flash)
      | .degraded cmd u => jobRecover s cmd u g'

/-- The effect of an authentic message by its TYPE. -/
def spanAct (s : State) (type : Nat) (h : SpanHdr) (body : SpanBody) (flash : List (Option FlashUnit)) (fetched : List Byte) : State :=
  let m := h.sender.val
  let d := spanDesc s
  let t := h.stripe.toNat
  let off := h.first.toNat - t * d.chunk
  let ref := h.ref.toNat
  let reply (s : State) (type : Nat) (bad : Bool) (b : SpanBody) : State :=
    spanSend s m type { spanHdr s h.gen.toNat t h.role.toNat h.first.toNat h.units.toNat ref h.fua with unrecoverable := bad } b
  match type, body with
  | 0x01, .units us => if leadsStripe s t then spanSettle (onData s ⟨m, ref, h.role.toNat, off, us, h.fua⟩ t) else s
  | 0x02, _ => spanSettle (spanAnswered s 0x01 ref)
  | 0x03, .units us =>
    if us.isEmpty then
      let open_ := if bit (rd s pNQE NQE_FLUSH_DRAIN) 0 then (s.map.wb.filter fun w => w.handle == s.spn.handle && w.redirect.isNone).map (·.unit) else []
      let ans : SpanMsg := ⟨m, 0x04, spanHdr s h.gen.toNat t 0 0 0 ref true, .ack, 0, false⟩
      spanSettle (if open_.isEmpty then putSpn s { s.spn with queue := s.spn.queue ++ [ans] } else putSpn s { s.spn with late := s.spn.late ++ [⟨open_, ans⟩] })
    else
      let s := chunkStore s t off us h.fua
      let ans : SpanMsg := ⟨m, 0x04, spanHdr s h.gen.toNat t h.role.toNat h.first.toNat us.length ref h.fua, .ack, 0, false⟩
      spanSettle (if h.fua then putSpn s { s.spn with late := s.spn.late ++ [⟨(List.range us.length).map fun i => localUnit d t (off + i), ans⟩] }
        else putSpn s { s.spn with queue := s.spn.queue ++ [ans] })
  | 0x04, _ => spanSettle (pieceAcked (spanAnswered s 0x03 ref) ref h.unrecoverable)
  | 0x05, .ask n =>
    let (s, us, _) := chunkLoad s t off n flash
    spanSettle (reply s 0x06 us.isNone (.units (us.getD [])))
  | 0x06, .units us => spanSettle (onReadData (spanAnswered s 0x05 ref) ref (if h.unrecoverable then none else some us) flash)
  | 0x07, .replica mask rmw =>
    if mask = 0 then spanSettle (spanJournal s (.done t))
    else
      let s := spanJournal s (.replica t (genLow h.gen.toNat) mask.toNat rmw m)
      if s.spn.inject.contains 2 then spanSettle (putSpn s { s.spn with inject := removeFirst (· == 2) s.spn.inject })
      else spanSettle (reply s 0x08 false .ack)
  | 0x08, _ =>
    let s := spanAnswered s 0x07 ref
    match flightOf? s t with
    | some f => spanSettle (if f.phase = .intent then startChunks s f else s)
    | none => s
  | 0x10, .beat b => onBeat s m b fetched
  | 0x11, .suspect k => if isCoord s && d.takes k.val && k.val != spanMe s then spanSettle (proposeState s k.val 2) else s
  | 0x12, .propose raw => onPropose s m raw
  | 0x13, .vote g => onVote s m h.gen.toNat g
  | 0x14, .commit raw t => onCommit s raw t
  | 0x15, .witness v => spanSettle (putSpn s { s.spn with witness := if v then some (m, h.gen.toNat) else s.spn.witness.filter fun w => w.1 != m })
  | 0x16, .action a =>
    if bit (rd s pSPN SPN_VIEW) 18 || coordinator s != some m then s
    else match a with
      | .epoch => (match s.spn.next with
        | some (d, _) => if d.gen = h.gen.toNat then wrB (spanApply s d) pSPN rSTAGE_STATUS 27 true else s
        | none => s)
      | .snapshot => (orderSnapshot s (round8 s.com.time.toNat) (w32 (genLow h.gen.toNat))).1
  | _, _ => s

/-- A decrypted message from another member: shut-out senders and older work are dropped, and its credit is taken (R552, R565). -/
def spanOn (s : State) (type : Nat) (h : SpanHdr) (body : SpanBody) (flash : List (Option FlashUnit)) (fetched : List Byte) : State :=
  let m := h.sender.val
  if type ≠ 0x10 ∧ spanShut s m then (if inGroup s then spanDrop s else s)
  else if type < 0x10 ∧ genServed s h.gen.toNat = false then s
  else
    let s := putSpn s { s.spn with credit := s.spn.credit.put m (max (s.spn.credit.getD m 0) h.credit) }
    spanAct s type h body flash fetched

/-- Header fields of a plaintext (R553); the receiver's consumed offset comes as `credit`. -/
def spanHeader (p : List Byte) (credit : Nat) : SpanHdr :=
  let f := bAt p 2
  { sender := ⟨bAt p 1 % 8, by omega⟩, fua := f.testBit 0, degraded := f.testBit 1, unrecoverable := f.testBit 2, role := BitVec.ofNat 8 (bAt p 3)
    gen := BitVec.ofNat 64 (leAt p 4 8), stripe := BitVec.ofNat 64 (leAt p 12 8), first := BitVec.ofNat 32 (leAt p 20 4), units := BitVec.ofNat 16 (leAt p 24 2)
    ref := BitVec.ofNat 32 (leAt p 28 4), credit := credit }

/-- A message in ring `ring` as its bytes: sender, generation part, replay floor and tag are checked before anything acts (R552, R553). What R553 gives no layout for comes as `body`. -/
def spanReceive (s : State) (ring : Nat) (frame : List Byte) (credit : Nat) (body : SpanBody) (flash : List (Option FlashUnit)) (fetched : List Byte) : State :=
  if !inGroup s then s
  else
    let s := putSpn s { s.spn with consumed := s.spn.consumed.modify ring 0 (· + frame.length) }
    let sender := bAt frame 4
    let sealed := frame.drop 16
    let nonce := sealed.take 12
    let ct := (sealed.drop 12).take (sealed.length - 28)
    let tag := sealed.drop (sealed.length - 16)
    let ctr := ofBytesLE (nonce.drop 4)
    let s := (unwrapSlot s spanSlot true).1
    let key := (slotOf s spanSlot).key
    if sender ≠ ring ∨ frame.length < 76 ∨ leAt frame 0 4 ≠ frame.length then spanDrop s
    else if (slotRefusal s spanSlot 2 1 false 0xFFFF false none).isSome then spanDrop s
    else if ctr < (s.spn.floor.get? ring).elim 0 (· + 1) ∨ fit 16 (Config.gcmTag key nonce ct) ≠ tag then spanDrop s
    else
      let s := putSpn s { s.spn with floor := s.spn.floor.put ring ctr }
      let p := gcmXor key nonce 0 ct
      let h := spanHeader p credit
      let n := h.units.toNat
      let b := match bAt p 0 with
        | 0x01 => .units (cutUnits (spanDesc s).unit n (p.drop 32))
        | 0x03 => .units (cutUnits (spanDesc s).unit n (p.drop 32))
        | 0x06 => .units (cutUnits (spanDesc s).unit n (p.drop 32))
        | 0x05 => .ask n
        | 0x02 => .ack
        | 0x04 => .ack
        | 0x08 => .ack
        | _ => body
      if h.sender.val ≠ ring then spanDrop s else spanSettle (spanOn s (bAt p 0) h b flash fetched)

/-- The GATHER deadline of a stripe (R556). -/
def gatherDeadline (s : State) (t : Nat) (flash : List (Option FlashUnit)) : State :=
  match flightOf? s t with
  | some f => if decide (inF s pSPN SPN_GATHER 13 0 * 1000 ≤ (s.com.time - f.since).toNat) then spanSettle (endGather s t flash) else s
  | none => s

/-- A peer message unanswered for PEER_TIMEOUT is sent once more, and after the same time again its member is suspected (R568). -/
def peerTimedOut (s : State) (ref : Nat) : State :=
  match s.spn.waits.find? fun w => w.msg.hdr.ref.toNat == ref with
  | none => s
  | some w =>
    if decide ((s.com.time - w.since).toNat < peerTimeout s) then s
    else
      let upd (s : State) (f : SpanWait → SpanWait) : State := putSpn s { s.spn with waits := s.spn.waits.map fun x => if x.msg.hdr.ref.toNat == ref then f x else x }
      if !w.retried then
        let s := upd s fun x => { x with retried := true, since := s.com.time }
        spanSettle (putSpn s { s.spn with queue := s.spn.queue ++ [w.msg] })
      else
        let s := upd s fun x => { x with since := s.com.time }
        let k : Fin 8 := ⟨w.msg.dest % 8, by omega⟩
        if isCoord s then spanSettle (proposeState s w.msg.dest 2)
        else match coordinator s with
          | some c => spanSettle (spanSend s c 0x11 (spanHdr s (spanDesc s).gen 0 0 0 0 0 false) (.suspect k))
          | none => s

/-- Journal a counter mark 2^32 above the counter once the reserved one is reached; messages that waited for it go out (R554). -/
def nonceReserve (s : State) : State :=
  let c := (slotOf s spanSlot).counter
  if !inGroup s || decide (c < s.spn.nonceMark) then s
  else
    let mark := max c s.spn.nonceMark + 2 ^ 32
    spanSettle (putSpn (spanJournal s (.nonceReserve mark)) { (spanJournal s (.nonceReserve mark)).spn with nonceMark := mark })

/-! ### Resync and rebuild (R560, R569) -/

/-- Members' chunks of a stripe as they were read: role and units, none unreadable. -/
abbrev ChunkReads := List (BitVec 8 × Option (List (List Byte)))

/-- The chunks of a read, as a gather holds them. -/
def readsGather (s : State) (t : Nat) (l : ChunkReads) : SpanGather :=
  ⟨.flight t, t, 0, (spanDesc s).chunk, [], l.map fun e => (e.1.toNat, e.2)⟩

/-- Write a role's whole chunk where it lies. -/
def writeRole (s : State) (t role : Nat) (us : List (List Byte)) : State :=
  let d := spanDesc s
  let m := d.holder t role
  if m = spanMe s then chunkStore s t 0 us false
  else if d.takes m then
    let (s, r) := spanRef s
    spanAsk s m 0x03 (spanHdr s d.gen t role (localUnit d t 0) us.length r false) (.units us)
  else s

/-- Units of jobs that waited for a resync are reconstructed from what it read: `chunk` gives a data role's bytes (R558). -/
def unblockJobs (s : State) (t : Nat) (chunk : Nat → Option (List Byte)) : State :=
  s.spn.jobs.foldl (fun s j =>
    let (go, stay) := j.blocked.partition fun u => ((spanDesc s).locate u).1 == t
    let s := match jobOf? s j.cmd with
      | some k => putJob s { k with blocked := stay }
      | none => s
    go.foldl (fun s u =>
      let (_, role, off) := (spanDesc s).locate u
      match chunk role with
      | some b => jobUnit (bump s pSPN SPN_DEGRADED_READS 1) j.cmd u ((b.drop (off * (spanDesc s).unit)).take (spanDesc s).unit)
      | none => jobFail s j.cmd .unrecoveredRead) s) s

/-- A lead resyncs a stripe: parity is recomputed from the data, copies from the lead's copy, and what differs is rewritten; a data chunk that cannot be read and that the stripe cannot give back is outcome 2 (R560). -/
def spanResync (s : State) (t : Nat) (l : ChunkReads) : State :=
  let d := spanDesc s
  if !leadsStripe s t || !(s.spn.unresync.contains t || s.spn.resyncAll) || decide (d.stripes ≤ t) || inF s pSPN SPN_RESYNC_SHARE 6 0 == 0 then s
  else
    let g := readsGather s t l
    let n := d.chunk * d.unit
    let data := (List.range d.width).map fun j => (j, if d.layout = 0 then (g.got.find? fun e => e.1 == spanMe s).bind fun e => e.2.map List.flatten else gathered d g j)
    let finish (s : State) (o : Nat) : State :=
      let s := spanJournal s (.resyncDone t o)
      let left := s.spn.unresync.filter (· != t)
      let above := s.spn.resyncAll && decide (d.stripes ≤ t + d.members)
      let s := putSpn s { s.spn with unresync := left, resyncAll := s.spn.resyncAll && !above }
      let s := if left.isEmpty ∧ s.spn.resyncAll = false then irq s pSPN 6 else s
      spanSettle (unblockJobs s t fun j => (data.find? fun e => e.1 == j).bind (·.2))
    if data.any fun e => e.2.isNone then finish ((List.range d.chunk).foldl (fun s i => mediaError s s.spn.handle (localUnit d t i)) s) 2
    else
      let ds := data.map fun e => (e.1, e.2.getD [])
      let want : List (Nat × List Byte) :=
        if d.layout = 0 then (List.range d.members).map fun m => (m, ((ds.head?).map (·.2)).getD [])
        else ds ++ [(0xFE, sumP n ds)] ++ (if d.layout = 2 then [(0xFF, sumQ n ds)] else [])
      let bad := want.filter fun w => d.takes (d.holder t w.1) && ((g.got.find? fun e => e.1 == w.1).bind (·.2)).map List.flatten != some w.2
      finish (bad.foldl (fun s w => writeRole s t w.1 (cutUnits d.unit d.chunk w.2)) s) (if bad.isEmpty then 0 else 1)

/-- A lead rebuilds a returning member's chunk of a dirty stripe from the others (R569). -/
def spanRebuild (s : State) (m t : Nat) (l : ChunkReads) : State :=
  let d := spanDesc s
  let isDirty := (s.spn.dirty.getD m []).contains t || s.spn.dirtyAll.contains m
  if d.st m ≠ 3 ∨ leadsStripe s t = false ∨ isDirty = false ∨ d.stripes ≤ t ∨ inF s pSPN SPN_RESYNC_SHARE 6 0 = 0 then s
  else
    let g := readsGather s t (l.filter fun e => d.holder t e.1.toNat != m)
    let s := (d.roles.filter fun r => d.holder t r == m).foldl (fun s r =>
      let b := if d.layout = 0 then (g.got.findSome? fun e => e.2.map List.flatten) else gathered d g r
      match b with
      | some b => writeRole s t r (cutUnits d.unit d.chunk b)
      | none => s) s
    let rest := (s.spn.dirty.getD m []).filter (· != t)
    let all := s.spn.dirtyAll.contains m && !decide (d.stripes ≤ t + d.members)
    let s := putSpn s { s.spn with dirty := if rest.isEmpty then s.spn.dirty.del m else s.spn.dirty.put m rest, dirtyAll := if all then s.spn.dirtyAll else s.spn.dirtyAll.filter (· != m) }
    let s := if rest.isEmpty ∧ all = false ∧ s.spn.finished.contains m = false then putSpn s { s.spn with finished := s.spn.finished ++ [m] } else s
    spanSettle s

/-! ### Host commands (R132, R547 to R549, R554, R566 to R569) -/

/-- Refuse a Span Control command. -/
def refuseSpan (s : State) (member reason : Nat) : State × Reply := (spanRefuse s member reason, .done .spanRefused reason [])

/-- Is the span key installed? -/
def spanKeyed (s : State) : Bool := (slotOf s spanSlot).state == .valid

/-- FIXED of slot 0xFFF1 follows the member's INDEX (R554). -/
def fixSpanSlot (s : State) : State := putSlot s spanSlot { slotOf s spanSlot with fixed := 0x53500000 + spanMe s }

/-- Make the hidden member namespace and the span namespace; none when they do not fit (R549). -/
def makeMember (s : State) (d : SpanDesc) : Option State :=
  let free := (List.range 1024).filter fun h => (s.hst.ns.get? h).isNone
  let vol := d.nsid - 1
  match (free.filter (· != vol)).head? with
  | none => none
  | some h =>
    if d.nsid = 0 ∨ 1024 < d.nsid ∨ free.contains vol = false ∨ tnvmcap s < nsAllocated s + d.memberUnits * d.unit then none
    else
      let x : Namespace :=
        { kind := .nvm, size := d.memberUnits * d.unit / d.lba, lba := d.lba, meta_ := 0, pi := 0, mu16 := d.mu16, compress := true, du4k := d.lba4k, shared := false
          attached := [], tenant := 0, span := 2, resv := ⟨[], none, 0, 0⟩, streams := 0, open_ := [] }
      let s := putNs (putNs s h x) vol { x with size := d.capacity, span := 1, shared := true, compress := false }
      let s := { s with map := { s.map with mu := s.map.mu.put h (d.unit / 64) } }
      some (setSpares (putSpn s { s.spn with handle := h }))

/-- What CREATE and JOIN check first: no group yet, a valid descriptor, the key. -/
def spanEntryCheck (s : State) (data : List Byte) : Option Nat :=
  if !spanValid data || inGroup s || ((spanParse data).entry (spanParse data).index).serial != s.bot.fuses.serial then some 9
  else if !spanKeyed s then some 0xB else none

/-- QUERY. -/
def spanQuery (s : State) (_c : HostCmd) : State × Reply :=
  (s, .done .success 0 (if inGroup s then (spanDesc s).bytes else List.replicate 384 0))

/-- CREATE: a group of generation 1 with this device as member 0 in service (R132). -/
def spanCreate (data : List Byte) (s : State) (_c : HostCmd) : State × Reply :=
  let d := spanParse data
  match spanEntryCheck s data with
  | some r => refuseSpan s 0 r
  | none =>
    if d.index ≠ 0 ∨ d.gen ≠ 0 then refuseSpan s 0 9
    else match makeMember s d with
      | none => refuseSpan s 0 0xA
      | some s =>
        let d := { d.setSt 0 1 with gen := 1 }
        let s := spanJournal s (.commit 1 d.bytes)
        (spanSettle (fixSpanSlot (spanApply { s with spn := { s.spn with heard := [] } } d)), .ok)

/-- JOIN: the checks of R567 in order against what the group answers; then the joiner asks on the bus (R567, R569). With no answer the group is not known to hold quorum. -/
def spanJoin (data : List Byte) (peer : Option SpanPeer) (s : State) (_c : HostCmd) : State × Reply :=
  let d := spanParse data
  match spanEntryCheck s data with
  | some r => refuseSpan s d.index r
  | none => match peer with
    | none => refuseSpan s d.index 5
    | some p =>
      let g := spanParse p.desc
      let higher := decide (d.gen < g.gen)
      let use := if higher then { g with index := d.index } else d
      if p.group.toNat ≠ d.group then refuseSpan s d.index 1
      else if !higher ∧ g.digest ≠ d.digest then refuseSpan s d.index 2
      else if mainVersion s < use.fwMin ∨ use.fwMax < mainVersion s then refuseSpan s d.index 3
      else if (g.entry d.index).serial ≠ s.bot.fuses.serial ∧ g.st d.index ≠ 2 ∧ g.st d.index ≠ 4 then refuseSpan s d.index 6
      else if !p.quorum then refuseSpan s d.index 5
      else if p.proposing then refuseSpan s d.index 8
      else match makeMember s use with
        | none => refuseSpan s d.index 0xA
        | some s =>
          let s := spanJournal s (.commit use.gen use.bytes)
          (spanSettle (fixSpanSlot (putSpn s { s.spn with desc := some use, lastGen := max s.spn.lastGen use.gen, own := some 1, joins := some s.bot.fuses.serial })), .ok)

/-- LEAVE: the coordinator is asked to set this member LEAVING; a coordinator proposes it itself (R569). -/
def spanLeave (s : State) (_c : HostCmd) : State × Reply :=
  if !inGroup s then refuseSpan s 0 4
  else if isCoord s then (spanSettle (proposeState s (spanMe s) 4), .ok)
  else (spanSettle (putSpn s { s.spn with own := some 5 }), .ok)

/-- WITNESS: the vote is recorded and relayed (R566). -/
def spanWitness (s : State) (c : HostCmd) : State × Reply :=
  if !inGroup s then refuseSpan s 0 4
  else
    let v := cdwF c.sqe 11 0 0 == 1
    let g := cdw c.sqe 12
    let d := spanDesc s
    let full := if genLow d.gen = g then d.gen else g
    let s := putSpn s { s.spn with witness := if v then some (d.index, full) else s.spn.witness.filter fun w => w.1 != d.index }
    let s := ((List.range d.members).filter (· != d.index)).foldl (fun s i => spanSend s i 0x15 (spanHdr s full 0 0 0 0 0 false) (.witness v)) s
    (spanSettle s, .ok)

/-- FENCE: the coordinator proposes the member FENCED; another member reports it (R568). -/
def spanFence (s : State) (c : HostCmd) : State × Reply :=
  let i := cdwF c.sqe 11 2 0
  if !inGroup s then refuseSpan s 0 4
  else if (spanDesc s).members ≤ i then (s, .err .invalidField)
  else if isCoord s then (spanSettle (proposeState s i 2), .ok)
  else match coordinator s with
    | some k => (spanSettle (spanSend s k 0x11 (spanHdr s (spanDesc s).gen 0 0 0 0 0 false) (.suspect ⟨i % 8, by omega⟩)), .ok)
    | none => (s, .ok)

/-- Security Send SPSP 0x0020: the span key, inside a Secured SPDM session only (R554). The data is the key, then the GROUP_ID. -/
def spanKeyInstall (data : List Byte) (secured : Bool) (s : State) (_c : HostCmd) : State × Reply :=
  if !secured then (s, .err .accessDenied)
  else if data.length ≠ 40 then (s, .err .sglLength)
  else
    let x := slotOf s spanSlot
    let index := if inGroup s then spanMe s else 0
    let y : KeySlot :=
      { state := .valid, persist := true, locked := false, pin := false, type := 2, use := 3, klen := 32, tenant := 0xFFFF, gen := nextGen x, fixed := 0x53500000 + index
        counter := s.spn.nonceMark, key := data.take 32, dirty := true, broken := false }
    (putSlot s spanSlot y, .ok)

/-! ### Group time (R562, R563, R635) -/

/-- The code of a SPAN_SYNC pulse by its width in ns (R635). -/
def pulseCode (width : Nat) : Nat := if width < 250 then 100 else if width ≤ 550 then 400 else 700

/-- A SPAN_SYNC edge disciplines the sandglass; the snapshot code fires a snapshot at the next whole millisecond on a member whose time is good (R84, R562, R563). The epoch code marks a T that the launch entry already holds. -/
def spanEdge (s : State) (width : Nat) : State :=
  let s := syncEdge s
  if discSrc s = 3 ∧ pulseCode width = 700 ∧ inGroup s = true ∧ bit (rd s pSPN SPN_VIEW) 18 = true then
    (orderSnapshot s (ceilMs (s.com.time.toNat + 1)) (w32 (genLow (spanDesc s).gen))).1
  else s

/-! ### Faults and checks (R570, R571) -/

/-- `SPN.ERR_INJECT` (R570). -/
def spanInject (s : State) (v : Word) : State :=
  match fld v 3 0 with
  | 1 => putSpn s { s.spn with inject := s.spn.inject ++ [1] }
  | 2 => putSpn s { s.spn with inject := s.spn.inject ++ [2] }
  | 3 => putSpn s { s.spn with inject := s.spn.inject ++ [3] }
  | 4 => putSpn s { s.spn with skew := 10 }
  | _ => s

/-- Commit checks of `SPN` (R571). -/
def checkSpn (s : State) : List (Nat × Nat) :=
  let f (o hi : Nat) := rdF s pSPN o hi 0
  (if f SPN_GATHER 13 < 10 ∨ 10000 < f SPN_GATHER 13 then [(SPN_GATHER, 1)] else [])
  ++ (if f SPN_PEER_TIMEOUT 6 < 1 ∨ 100 < f SPN_PEER_TIMEOUT 6 then [(SPN_PEER_TIMEOUT, 1)] else [])
  ++ (if f SPN_HB_MISS 3 < 2 ∨ 10 < f SPN_HB_MISS 3 then [(SPN_HB_MISS, 1)] else [])
  ++ (if 100 < f SPN_RESYNC_SHARE 6 then [(SPN_RESYNC_SHARE, 1)] else [])
  ++ (if f SPN_PEER_TIMEOUT 6 * 1000 ≤ 2 * f SPN_GATHER 13 then [(SPN_GATHER, 3)] else [])

end Sys2Proof.Machine
end

