-- ==== Sys2Proof/Machine/Commit.lean ====
section
/-! DEFINITION. Staged sets: the commit check of every page, the three apply modes, the apply, and the drain of an epoch (R59 to R72). -/

namespace Sys2Proof.Machine

/-! ### The staged set (R60, R61) -/

/-- Offsets of a row's registers. -/
def RegRow.offs (r : RegRow) : List Nat := (List.range r.count).map fun i => r.off + i * r.stride

/-- Offsets of the class S registers of a page kind, ascending within each row. -/
def stagedOffs (k : PageKind) : List Nat := ((rowsOf k).filter fun r => r.cls == .staged).flatMap RegRow.offs

/-- STAGE_STATUS.PENDING or ARMED is 1 (R62). -/
def commitHeld (s : State) (p : Nat) : Bool := bit (rd s p rSTAGE_STATUS) 31 || bit (rd s p rSTAGE_STATUS) 30

/-- APPLY_TIME (R48, R53). -/
def applyTime (s : State) (p : Nat) : Nat := (join64 (rd s p rAPPLY_HI) (rd s p rAPPLY_LO)).toNat

/-- DISCARD: every staged copy returns to its in-force value and DIRTY clears; no effect while PENDING or ARMED (R61). -/
def stageDiscard (s : State) (p : Nat) : State :=
  match pageKind? s.com.chip p with
  | none => s
  | some k =>
    if !hasStaged k || commitHeld s p then s
    else wrB ((stagedOffs k).foldl (fun s o => wr s p o (inForce s p o)) s) p rSTAGE_STATUS 28 false

/-- CANCEL: a commit that is PENDING or ARMED is withdrawn; the staged copies and DIRTY stay (R68). -/
def stageCancel (s : State) (p : Nat) : State := if commitHeld s p then cancelCommit s p else s

/-! ### The check (R65, R66) -/

/-- The page's island is in reset (R66). -/
def islandHalted (s : State) (p : Nat) : Bool :=
  s.flt.resets.any fun c => decide (c < 256) && (islandPage? s c == some p || (c == 1 && !s.com.chip.split && p == 0x013))

/-- Every failing condition of a page's own rules: offending offset and REJECT_CODE. -/
def ownChecks (s : State) (p mode : Nat) : List (Nat × Nat) :=
  match pageKind? s.com.chip p with
  | some .sgl => checkSgl s
  | some .hf => checkHf s (p == 0x013)
  | some .nqe => checkNqe s mode
  | some .fch => checkFch s (p - 0x100)
  | some .lds => checkLds s
  | some .map => checkMap s mode
  | some .str => checkStr s
  | some .dmc => checkDmc s p
  | some .lnd => checkLnd s
  | some .mec => checkMec s
  | some .ncl => checkNcl s ⟨(p - 0x030) % 6, Nat.mod_lt _ (by decide)⟩
  | some .dis => checkDis s
  | some .cvn => checkCvn s (p - 0x040)
  | some .mte => checkMte s
  | some .key => checkKey s
  | some .spn => checkSpn s
  | some .pmu => checkPmu s
  | some .cle => checkCle s
  | some .flt => checkFlt s
  | _ => []

/-- The condition a commit is rejected for: REJECT_CODE and UNIT. HALTED and a page that is absent name no register, and their UNIT is free; otherwise the lowest offending offset, and on equal offsets the lowest code (R65, R66). -/
def commitReject (s : State) (p mode : Nat) : Option (Nat × Nat) :=
  if ferryRunning s || islandHalted s p then some (7, Config.blockCause 27)
  else
    let time := if mode = 2 ∧ applyTime s p ≤ s.com.time.toNat then [(rAPPLY_LO, 6)] else []
    match minBy? (fun c : Nat × Nat => c.1 * 16 + c.2) (time ++ ownChecks s p mode) with
    | none => none
    | some (off, code) => some (code, if off = 0 then Config.blockCause 27 else off)

/-! ### The apply (R67, R68) -/

/-- What an apply does on a page beside the copy. -/
def applied (old s : State) (p : Nat) : State :=
  match pageKind? s.com.chip p with
  | some .sgl => applySgl s
  | some .nqe => showNqe s
  | some .map => applyMap s
  | some .str => applyStr s
  | some .ncl => showCores s ⟨(p - 0x030) % 6, Nat.mod_lt _ (by decide)⟩
  | some .dis => showDis s
  | some .cvn => applyCvn old s (p - 0x040)
  | some .cle => applyCle old s
  | some .spn => showSpan s
  | _ => s

/-- Set the crossings and timed instants. -/
def putBus (s : State) (b : Bus) : State := { s with com := { s.com with bus := b } }

/-- Apply a page's staged set: the in-force values, the epoch, the status bits and COMMIT_DONE; units in flight now belong to the older epoch, whose drain is timed (R64, R67, R68, R70, R71). -/
def stageApply (s : State) (p : Nat) (late : Bool) : State :=
  match pageKind? s.com.chip p with
  | none => s
  | some k =>
    let old := s
    let s := (stagedOffs k).foldl (fun s o => wrForce s p o (rd s p o)) s
    let e := epochsOf s p
    let live := e.older + e.newest
    let s := setEpochs s p ⟨live, 0⟩
    let s := putBus s { s.com.bus with timed := s.com.bus.timed.filter (· != p), drains := if live = 0 then s.com.bus.drains.del p else s.com.bus.drains.put p s.com.time }
    let st := rd s p rSTAGE_STATUS &&& 0x2BFFFFFF
    let st := setFld st 15 0 (fld st 15 0 + 1)
    let s := wr s p rSTAGE_STATUS (if late then setBit st 27 true else st)
    applied old (lbRearm (irq s p 30) p) p

/-- STAGE_STATUS takes PENDING, and in epoch-drain mode ADMIT_HELD with it (R67). -/
def stagePend (s : State) (p : Nat) (hold : Bool) : State :=
  let s := wrB (wrB s p rSTAGE_STATUS 30 false) p rSTAGE_STATUS 31 true
  if hold then wrB s p rSTAGE_STATUS 26 true else s

/-- Units in flight of the older epoch, and of both. -/
def olderLive (s : State) (p : Nat) : Bool := decide ((epochsOf s p).older ≠ 0)
/-- Work is in flight on the page. -/
def anyLive (s : State) (p : Nat) : Bool := decide ((epochsOf s p).older + (epochsOf s p).newest ≠ 0)

/-- A commit under an apply mode (R65 to R67). One made while another waits has no effect and is logged with STAGE_BUSY. The second result is its launch outcome × 16 + detail: OK, COMMIT_PENDING, COMMIT_REJECTED, COMMIT_BUSY (R90). -/
def stageCommit (s : State) (who : Initiator) (p mode : Nat) : State × Nat :=
  if commitHeld s p then
    (logEvent s { kind := kREFUSAL, cls := FClass.access.code, page := p, cause := cSTAGE_BUSY, initiator := who.num, access := 1, address := 0xF0000000 + p * 4096 + rSTAGE_CTRL, initPage := who.initPage }, 3 * 16)
  else
    let s := wr s p rSTAGE_STATUS (setFld (rd s p rSTAGE_STATUS &&& 0xDFFFFFFF) 19 16 0)
    match commitReject s p mode with
    | some (code, unit) =>
      let s := wr s p rSTAGE_STATUS (setFld (setBit (rd s p rSTAGE_STATUS) 29 true) 19 16 code)
      (irq (setFault s p .config code unit) p 29, 2 * 16 + code)
    | none =>
      if !bit (rd s p rSTAGE_STATUS) 28 then (s, 0)
      else
        let s := putBus s { s.com.bus with timed := s.com.bus.timed.filter (· != p) }
        match mode with
        | 0 => if olderLive s p then (stagePend s p false, 16) else (stageApply s p false, 0)
        | 1 => if anyLive s p then (stagePend s p true, 16) else (stageApply (stagePend s p true) p false, 0)
        | _ => (wrB s p rSTAGE_STATUS 30 true, 16)

/-- A write of STAGE_CTRL: a reserved APPLY_MODE, or more than one action, does nothing else (R63). A page without staged fields has no such register (R49). -/
def stageCtrl (s : State) (who : Initiator) (p : Nat) (v : Word) : State :=
  if fld v 1 0 = 3 then s
  else
    let s := wr s p rSTAGE_CTRL (v &&& 3)
    match fld v 31 29 with
    | 1 => stageDiscard s p
    | 2 => stageCancel s p
    | 4 => (stageCommit s who p (fld v 1 0)).1
    | _ => s

/-! ### Epochs and time -/

/-- The last unit of an epoch completes: a PENDING commit applies, in epoch-drain mode when no epoch has work left (R67). -/
def epochDrained (s : State) (p : Nat) : State :=
  let st := rd s p rSTAGE_STATUS
  if !bit st 31 || (if bit st 26 then anyLive s p else olderLive s p) then s
  else stageApply s p (s.com.bus.timed.contains p)

/-- The distributed time of an ARMED commit is reached: it applies, LATE when a forward step passed it, or moves to PENDING with two epochs live (R67, R85). -/
def applyTimeReached (s : State) (p : Nat) : State :=
  let t := round8 (applyTime s p)
  if !bit (rd s p rSTAGE_STATUS) 30 || decide (s.com.time.toNat < t) then s
  else if olderLive s p then
    let s := stagePend s p false
    putBus s { s.com.bus with timed := p :: s.com.bus.timed }
  else stageApply s p (decide (t + 8 ≤ s.com.time.toNat))

/-- Bound in ns within which a page drains an epoch; none for a job, whose bound its length sets (R71). -/
def drainBound (s : State) (p : Nat) : Option Nat :=
  match pageKind? s.com.chip p with
  | none => none
  | some .nqe => some 4000
  | some .dmc => some 2000
  | some .map => some 2000
  | some .lds => some 100000
  | some .hf => some (inF s p HF_CPL_TIMEOUT 23 0 * 1000)
  | some .fch => some 40000000
  | some .str => some 50000000
  | some .spn => some 50000000
  | some .cvn => none
  | some .dge => none
  | some _ => some 1000

/-- An epoch has not drained within its bound: CLASS DRAIN_OVERRUN; the commit keeps waiting (R72). Of a job's bound this event itself is the expiry. -/
def drainOverrun (s : State) (p : Nat) : State :=
  let due := match drainBound s p, s.com.bus.drains.get? p with
    | some b, some t => decide (b ≤ (s.com.time - t).toNat)
    | _, _ => true
  if olderLive s p && due then
    setFault (putBus s { s.com.bus with drains := s.com.bus.drains.del p }) p .drainOverrun (Config.blockCause 28) 0
  else s

/-! ### Launched commits and checkpoints (R90, R96, R99, R195, R243, R559) -/

/-- Initiator of a launched action: the launch unit's page. -/
def launchWho : Initiator := .block 0x003

/-- COMMIT_STAGE: an immediate-mode commit at the page (R67, R90). -/
def commitStage (s : State) (p : Nat) : State × Nat :=
  match pageKind? s.com.chip p with
  | none => (s, 0)
  | some k => if hasStaged k then stageCommit s launchWho p 0 else (s, 0)

/-- CHECKPOINT_BEGIN at `MAP`, `STR` or `SPN` with its ARG (R195, R243, R559). -/
def checkpointAt (s : State) (p : Nat) (arg : Word) : State :=
  if p = pMAP then mapCheckpoint s arg
  else if p = pSTR then strCheckpoint s arg
  else if p = pSPN ∧ bit arg 31 then spanMark s
  else s

/-- What begins a checkpoint: an action delivered, or a journal at its threshold (R195, R243). -/
def checkpointBegin (s : State) (src : CheckpointSource) : State :=
  match src with
  | .launch e => deliver s e.val 3 (fun s e => (checkpointAt s e.page e.arg, 0)) (fun e => e.page)
  | .mapFill => if jHigh s && s.map.ckpt.isNone then mapCheckpoint s 0x80000000 else s
  | .strFill => if sHigh s then strCheckpoint (irq s pSTR 6) 0x80000000 else s
  | .spnFill => spanMark s

/-- REFRESH_ALIGN: the refresh anchor becomes the action's TIME (R99). -/
def refreshAlign (s : State) (e : LaunchEntry) : State × Nat := ({ s with sgl := { s.sgl with anchor := e.time } }, 0)

end Sys2Proof.Machine
end

