-- ==== Sys2Proof/Machine/Scrub.lean ====
section
/-! DEFINITION. The patrol scrubbers and the merge buffers' own write-backs (R317, R330, R338). -/

namespace Sys2Proof.Machine

/-- The scrubber of a site runs: its interval is not 0 (R330, R338). -/
def scrubOn (s : State) (site : ScrubSite) : Bool :=
  match site with
  | .dram => inF s pMEC MEC_SCRUB_DRAM 7 0 != 0
  | .mramDie _ => inF s pMEC MEC_SCRUB_MRAM 7 0 != 0
  | _ => inF s pMEC MEC_SCRUB_SRAM 11 0 != 0

/-- The error mark of the word that holds an offset of a site. For a die the offset is physical, so that the pool is scrubbed too. -/
def scrubMark (s : State) (site : ScrubSite) (off : Nat) : Option WordErr :=
  match site with
  | .dram => if off < dramTop s then s.mem.dErr.get? (off / 8) else none
  | .landing => s.mem.lndErr.get? (off / 8)
  | .mramDie d => if dieUp s d.val then (dieMem s d.val).err.get? (off / 8) else none
  | .store c => (cluOf s c).storeErr.get? (off / 8)
  | .itcm c k => (coreOf s (coreNo c k)).itcmErr.get? (off / 4)
  | .dtcm c k => (coreOf s (coreNo c k)).dtcmErr.get? (off / 4)

/-- The page whose domain holds the memory. -/
def scrubPage (s : State) (site : ScrubSite) (off : Nat) : Nat :=
  match site with
  | .dram => pDMC (dramChannel s off)
  | .landing => pLND
  | .mramDie _ => pMRM
  | .store c => pNCL c.val
  | .itcm c _ => pNCL c.val
  | .dtcm c _ => pNCL c.val

/-- A scrub read of one MRAM die's word, by physical offset: a correction is written back; an uncorrectable word is repaired from the other die, or lost with both (R320, R330). -/
def scrubDie (s : State) (d off : Nat) : State :=
  let w := off / 8
  let frame := if 0x0800000 ≤ off ∧ off < 0x0800000 + 1920 * 65536 then some ((off - 0x0800000) / 65536) else none
  match wmRead (dieMem s d) w with
  | (m, some _, met) => let s := dieSet s d m; if met.ce = 0 then s else mrmCorrectedAt s frame
  | (_, none, _) =>
    let o := 1 - d
    let other := if dieUp s o then (wmRead (dieMem s o) w).2.1 else none
    match other with
    | some b => bump (dieSet s d (wmStore (dieMem s d) w b)) pMRM MRM_MIRROR_READS 1
    | none => irq (wr (bumpF s pMRM MRM_ECC_UE 15 0 1) pMRM MRM_UE_ADDR (w32 (8 * w))) pMRM 4

/-- A scrub read of one word: it corrects and counts like any read (R330). -/
def scrubWord (s : State) (site : ScrubSite) (off : Nat) : State :=
  match site with
  | .dram => if off < dramTop s then (dramWordRead s (off / 8)).1 else s
  | .landing => (lndRead s (off % 0x4000000 / 8 * 8) 8).1
  | .mramDie d => if dieUp s d.val then scrubDie s d.val off else s
  | .store c => nclEscalate s (storeRead s c 0 (off / 8 * 8) 8).1 c
  | .itcm c k => nclEscalate s (tcmWord s (coreNo c k) .itcm (off / 4 * 4)).1 c
  | .dtcm c k => nclEscalate s (tcmWord s (coreNo c k) .dtcm (off / 4 * 4)).1 c

/-- A patrol scrubber reads a word, and may end its pass with it: SCRUB_CE, SCRUB_UE and its interrupt, PASS_DONE (R330, R338). -/
def patrolRead (s : State) (site : ScrubSite) (off : Nat) (ends : Bool) : State :=
  if !pageUp s pMEC || !pageUp s (scrubPage s site off) || !scrubOn s site then s
  else
    let mark := scrubMark s site off
    let s := scrubWord s site off
    let s := match mark with
      | none => s
      | some .single => bump s pMEC MEC_SCRUB_CE 1
      | some _ => irq (bump s pMEC MEC_SCRUB_UE 1) pMEC 0
    let lo := match site with
      | .dram => 0
      | .mramDie _ => 16
      | _ => 8
    if ends then wrF s pMEC MEC_PASS_DONE (lo + 7) lo (rdF s pMEC MEC_PASS_DONE (lo + 7) lo + 1) else s

/-- A merge entry has waited MERGE_CTRL of its page: the oldest of its buffer goes to the array (R317). -/
def mergeDue (s : State) (site : MergeSite) : State :=
  match site with
  | .landing b => whenUp pLND (fun s => lndFlush s b.val) s
  | .store c => whenUp (pNCL c.val) (fun s => nclEscalate s (storeFlush s c) c) s
  | .mram => whenUp pMRM (fun s => match s.mem.mrmMerge with
    | e :: _ => mrmFlush s e
    | [] => s) s

end Sys2Proof.Machine
end

