-- ==== Sys2Proof/Machine/Bus.lean ====
section
/-! DEFINITION. Accesses on the fabric: crossings and arbiters, what the fabric and a page refuse, the expert gate, and the effect of each register's write and read (R8, R16, R17, R44, R53 to R58, R607, R613, R642). -/

namespace Sys2Proof.Machine

/-! ### Islands, crossings and arbitration (R12, R13, R16, R17, R642) -/

/-- The island of a register page; in x16 both ports are port A's (R12, R13). -/
def pageIsland (s : State) (p : Nat) : Island :=
  match pageKind? s.com.chip p with
  | some .sys => .control
  | some .pmu => .control
  | some .cle => .control
  | some .flt => .sandglass
  | some .sgl => .sandglass
  | some .lch => .sandglass
  | some .scp => .security
  | some .hf => .hostPort (s.com.chip.split && p == 0x013)
  | some .nqe => .queueEngine
  | some .dmc => .dram ⟨(p - 0x020) % 8, Nat.mod_lt _ (by decide)⟩
  | some .ncl => .cluster ⟨(p - 0x030) % 6, Nat.mod_lt _ (by decide)⟩
  | some .fch => .channel ⟨(p - 0x100) % 64, Nat.mod_lt _ (by decide)⟩
  | _ => .fabric

/-- The island an initiator's access leaves from. -/
def sourceIsland (s : State) : Initiator → Island
  | .sp _ => .security
  | .crew c _ => .cluster c
  | .passenger c _ => .cluster c
  | .block p => pageIsland s p.toNat
  | .host => .hostPort false

/-- The island that serves a target. -/
def targetIsland (s : State) : Target → Island
  | .page p _ => pageIsland s p
  | .dram off => .dram ⟨dramChannel s off % 8, Nat.mod_lt _ (by decide)⟩
  | .hmb _ => .hostPort false
  | .window port _ => .hostPort port
  | .rom _ => .security
  | _ => .fabric

/-- Arbitration key of an initiator (R642). -/
def arbKey : Initiator → Nat
  | .block p => 0x100 + p.toNat
  | w => w.num

/-- The arbiter at a target: a page, a Landing bank, an MRAM bank's die pair, a DRAM channel or a port (R642). -/
def arbiterOf (s : State) : Target → Nat
  | .page p _ => p
  | .landing off => 0x1000 + lndBank off
  | .mram off => 0x1100 + off / 8 % 16
  | .dram off => 0x1200 + dramChannel s off
  | .hmb _ => 0x1300
  | .window port _ => if port then 0x1301 else 0x1300
  | .rom _ => 0x1400
  | .unmapped => 0x1401

/-- The crossings of an access: into the fabric, and out to its target (R12). -/
def crossingsOf (s : State) (who : Initiator) (t : Target) : List (Island × Island) :=
  let a := sourceIsland s who
  let b := targetIsland s t
  (if a = .fabric then [] else [(a, .fabric)]) ++ (if b = .fabric then [] else [(.fabric, b)])

/-- What the crossings still hold: an entry's acknowledge is back 32 ns after its transfer at the latest (R15, R16). -/
def inFlight (s : State) : List Transit := s.com.bus.flight.filter fun t => decide ((s.com.time - t.time).toNat < 32)

/-- The first crossing of an access that holds it: its 12 entries are taken, or it leads to an island in reset. An initiator's own earlier access is acknowledged before its next (R16, R17, R22, R610). -/
def heldAt (s : State) (who : Initiator) (t : Target) : Option (Island × Island) :=
  (crossingsOf s who t).find? fun c =>
    islandHeld s c.2 || decide (12 ≤ ((inFlight s).filter fun x => x.src == c.1 && x.dst == c.2 && x.key != arbKey who).length)

/-- An access passes: its crossings hold an entry each, and the target's arbiter has granted its key (R16, R642). -/
def passes (s : State) (who : Initiator) (t : Target) : State :=
  let b := s.com.bus
  let k := arbKey who
  putBus s { b with
    flight := (inFlight s).filter (fun x => x.key != k) ++ (crossingsOf s who t).map fun c => ⟨c.1, c.2, k, s.com.time⟩
    pointer := b.pointer.put (arbiterOf s t) k }

/-- The next of some keys in an arbiter's round-robin order: the lowest above the pointer, else the lowest of all (R642). -/
def roundRobin (s : State) (arb : Nat) (keys : List Nat) : Option Nat :=
  match s.com.bus.pointer.get? arb with
  | none => minBy? id keys
  | some p => match minBy? id (keys.filter fun k => decide (p < k)) with
    | some k => some k
    | none => minBy? id keys

/-! ### Refusals (R44, R607) -/

/-- Offset of a page's ERR_INJECT, or of `PMU.FERRY_INJECT` (R613). -/
def injectOffs : PageKind → List Nat
  | .hf => [HF_ERR_INJECT] | .nqe => [NQE_ERR_INJECT] | .fch => [FCH_ERR_INJECT] | .lds => [LDS_ERR_INJECT] | .map => [MAP_ERR_INJECT]
  | .str => [STR_ERR_INJECT] | .pmu => [PMU_FERRY_INJECT, PMU_ERR_INJECT] | .dmc => [DMC_ERR_INJECT] | .lnd => [LND_ERR_INJECT] | .mrm => [MRM_ERR_INJECT]
  | .ncl => [NCL_ERR_INJECT] | .dis => [DIS_ERR_INJECT] | .cvn => [CVN_ERR_INJECT] | .mte => [MTE_ERR_INJECT] | .dge => [DGE_ERR_INJECT]
  | .key => [KEY_ERR_INJECT] | .scp => [SCP_ERR_INJECT] | .spn => [SPN_ERR_INJECT] | .cle => [CLE_ERR_INJECT] | .flt => [FLT_ERR_INJECT]
  | _ => []

/-- Registers that only crew and the security processor may write (R57, R100, R614). -/
def crewOnly (k : PageKind) (off : Nat) : Bool :=
  off == rUNLOCK || (k == .sgl && off == SGL_SNAP_FIRE) || (k == .flt && (off == FLT_IRESET || off == FLT_LOG_WRITE))

/-- Fields that only the security processor may write: the load engine's source and START, and the block fields of `SCP` (R370, R534). -/
def spOnly (k : PageKind) (off : Nat) : Bool :=
  (k == .ncl && (off == NCL_LOAD_SRC_LO || off == NCL_LOAD_SRC_HI || off == NCL_LOAD_CTRL)) || (k == .scp && decide (0x100 ≤ off))

/-- Pages a passenger has no access to, whatever crew grants: `LCH` and the digest engines (R93, R485). -/
def passengerBarred (k : PageKind) : Bool := k == .lch || k == .dge

/-- The page is unlocked for this writer (R55). -/
def unlockedFor (s : State) (who : Initiator) (p : Nat) : Bool :=
  let u := rd s p rUNLOCK
  bit u 0 && who.isCrewOrSp && fld u 31 24 == who.num

/-- Why a page refuses a write of one of its registers; the lowest cause (R55, R57, R62, R607, R613). -/
def pageCause (s : State) (who : Initiator) (p : Nat) (k : PageKind) (r : RegRow) (off : Nat) : Option Nat :=
  if r.acc == .ro || r.acc == .rc || (r.acc == .rw0 && p != pDMC 0) then none
  else if crewOnly k off && !who.isCrewOrSp then some cNOT_PERMITTED
  else if decide (0x800 ≤ off) && decide (off < 0xF00) && !unlockedFor s who p then some cEXPERT_LOCKED
  else if (r.cls == .staged || (hasStaged k && (off == rAPPLY_LO || off == rAPPLY_HI))) && commitHeld s p then some cSTAGE_BUSY
  else if spOnly k off && !who.isSp then some cSP_ONLY
  else if (injectOffs k).contains off && !bit (rd s pFLT FLT_INJECT_EN) 0 then some cINJECT_OFF
  else none

/-- Why the fabric refuses an access to a page region address: the lowest cause (R44, R53, R607). -/
def fabricPageCause (s : State) (who : Initiator) (p off width : Nat) : Option Nat :=
  match pageKind? s.com.chip p with
  | none => some cNO_PAGE
  | some k =>
    if !permitted who 1 (.page p off) || (passengerBarred k && who.isPassenger) then some cNOT_PERMITTED
    else if !pageUp s p then some cDOMAIN_OFF
    else if width ≠ 4 ∨ off % 4 ≠ 0 then some cWIDTH
    else none

/-- A refusal that a page makes itself: FAULT takes CLASS ACCESS, the cause and the offset, and nothing else of the page changes; the access is recorded (R44, R52, R606). -/
def refuseAtPage (s : State) (who : Initiator) (p off cause : Nat) : State × Answer :=
  let s := wr s p rFAULT (w32 (FClass.access.code * 2 ^ 28 + cause * 65536 + off))
  (recordRefusal s who p (0xF0000000 + p * 4096 + off) cause 1, .refused cause)

/-! ### The expert gate (R55 to R58) -/

/-- Frequency of an island in MHz; a cluster's is its clock now (R12, R14). -/
def islandMhz (s : State) : Island → Nat
  | .hostPort _ => 1000 | .queueEngine => 1200 | .fabric => 1000 | .channel _ => 450 | .dram _ => 1600 | .control => 800 | .sandglass => 1000
  | .security => 400 | .cluster c => 100 * max 1 (rdF s (pNCL c.val) NCL_CLK_NOW 4 0)

/-- Have the 256 cycles of the page's island after the first key run out? (R57) -/
def armExpired (s : State) (p : Nat) : Bool :=
  match s.com.bus.arms.get? p with
  | none => true
  | some t => decide (256000 < (s.com.time - t).toNat * islandMhz s (pageIsland s p))

/-- ARMED ends and the page stays locked. -/
def unlockClear (s : State) (p : Nat) : State := putBus (wr s p rUNLOCK 0) { s.com.bus with arms := s.com.bus.arms.del p }

/-- A write of EXPERT_UNLOCK by crew or the security processor: the two keys, and the owner's 0 (R57, R58). -/
def unlockWrite (s : State) (who : Initiator) (p : Nat) (v : Word) : State :=
  let s := if bit (rd s p rUNLOCK) 1 && armExpired s p then unlockClear s p else s
  let u := rd s p rUNLOCK
  let mine := fld u 31 24 == who.num
  if bit u 0 then
    if !mine then logEvent s { kind := kREFUSAL, cls := FClass.access.code, page := p, cause := cEXPERT_LOCKED, initiator := who.num, access := 1, address := 0xF0000000 + p * 4096 + rUNLOCK }
    else if v = 0 then unlockClear s p
    else s
  else if bit u 1 then
    if mine && v == w32 (0x61E20000 + p) then putBus (wr s p rUNLOCK (w32 (who.num * 2 ^ 24 + 1))) { s.com.bus with arms := s.com.bus.arms.del p }
    else unlockClear s p
  else if v = w32 (0x9E1D0000 + p) then
    putBus (wr s p rUNLOCK (w32 (who.num * 2 ^ 24 + 2))) { s.com.bus with arms := s.com.bus.arms.put p s.com.time }
  else s

/-- The 256 cycles pass without the second key (R57). -/
def unlockExpiry (s : State) (p : Nat) : State := if bit (rd s p rUNLOCK) 1 && armExpired s p then unlockClear s p else s

/-! ### What a write does (R8, R51, R60, R63, R75) -/

/-- May the initiator use a window of `MTE`? A passenger only under the environment that owns the partition (R460). -/
def mteAllowed (s : State) (who : Initiator) (w : Nat) : Bool :=
  match who with
  | .passenger c _ =>
    let cfg := inForce s pMTE (partCfgOff w)
    bit cfg 15 && fld cfg 14 12 == c.val && (match whoItem s who with
      | some me => me.env == fld cfg 11 6
      | none => false)
  | _ => who.isCrewOrSp

/-- `DGE.CMD`: each command bit, lowest first (R485 to R488). -/
def dgeCommand (s : State) (n : Nat) (v : Word) : State :=
  let s := if bit v 0 then dgeStart s n else s
  let s := if bit v 1 then dgeFinishCmd s n else s
  let s := if bit v 2 then dgePause s n else s
  let s := if bit v 3 then dgeResume s n else s
  if bit v 4 then dgeAbort s n else s

/-- `SCP.SN_CMD`: each command bit, lowest first (R534). -/
def snCommand (s : State) (v : Word) : State :=
  let s := if bit v 0 then snStart s else s
  let s := if bit v 1 then snFinish s else s
  if bit v 4 then snAbort s else s

/-- `CLE.ERR_INJECT`: code 3 is a fault of the port in PHASE [2:0] (R597). -/
def cleInjectAll (s : State) (v : Word) : State :=
  if fld v 3 0 = 3 then injected s fun s => extPortFault s (fld v 10 8) else cleInject s v

/-- What writing a block register does beside setting its field. `v` is the value with reserved bits 0; `micros` is for how long a ferry that the write starts may run. -/
def blockWrite (s : State) (who : Initiator) (p : Nat) (k : PageKind) (off : Nat) (v : Word) (micros : Nat) : State :=
  match k with
  | .sgl => if off = SGL_SNAP_FIRE then (if bit v 0 then (fireSnapshot s).1 else s) else s
  | .lch => if off = LCH_ENTRY_OP then entryOp s (fld v 2 0) else s
  | .hf => if off = HF_ERR_INJECT then hfInject s (p == 0x013) v else s
  | .nqe => if off = NQE_ERR_INJECT then nqeInject s v else s
  | .fch =>
    if off = FCH_RETIRE_REQ then retireReq s (p - 0x100) v
    else if off = FCH_ERR_INJECT then fchInject s (p - 0x100) v else s
  | .lds => if off = LDS_ERR_INJECT then ldsInject s v else s
  | .map =>
    if off = MAP_BST_SEL then bstSelect s v
    else if off = MAP_ERR_INJECT then mapInject s (fld v 3 0) else s
  | .str =>
    if off = STR_RB_SEL then rbSelect s v
    else if off = STR_ERR_INJECT then strInject s (fld v 3 0) else s
  | .pmu =>
    if off = PMU_FERRY_INJECT then ferryInject s v micros
    else if off = PMU_ERR_INJECT then pmuInject s v else s
  | .dmc => if off = DMC_ERR_INJECT then dmcInject s (p - 0x020) v else s
  | .lnd => if off = LND_ERR_INJECT then lndInject s v else s
  | .mrm => if off = MRM_ERR_INJECT then mrmInject s v else s
  | .ncl =>
    let c : Clu := ⟨(p - 0x030) % 6, Nat.mod_lt _ (by decide)⟩
    if off = NCL_LOAD_CTRL then loadStart s c v
    else if off = NCL_CORE_RESET then coreResetWrite s c v
    else if off = NCL_CORE_RETIRE then retireCores s c (fld v 7 0)
    else if off = NCL_ERR_INJECT then nclInject s c v else s
  | .dis =>
    if off = DIS_WI_OP then wiOp s who (fld v 2 0)
    else if off = DIS_HIST_CLEAR then histClear s v
    else if off = DIS_ERR_INJECT then disInject s v
    else if off = DIS_QSEL ∨ off = DIS_CORE_SEL ∨ off = DIS_SBANK_SEL then showDis s else s
  | .cvn =>
    let n := p - 0x040
    if CVN_RING_TAIL ≤ off ∧ (off - CVN_RING_TAIL) % 32 = 0 ∧ off < 0x300 then ringTail s n ((off - 0x200) / 32) v
    else if CVN_RING_CPL_HEAD ≤ off ∧ (off - CVN_RING_CPL_HEAD) % 32 = 0 ∧ off < 0x300 then ringCplHead s n ((off - 0x200) / 32) v
    else if off = CVN_RETIRE then (if bit v 0 then retireCvn s n false else s)
    else if off = CVN_CTX_SEL then showCvn s n
    else if off = CVN_ERR_INJECT then cvnInject s n v else s
  | .mte =>
    if MTE_W_OP ≤ off ∧ (off - MTE_W_OP) % 64 = 0 ∧ off < MTE_W_OP + 16 * 64 then mteOp s ((off - MTE_W_OP) / 64) (fld v 2 0) (mteAllowed s who ((off - MTE_W_OP) / 64))
    else if off = MTE_ERR_INJECT then mteInject s v else s
  | .dge =>
    let n := p - 0x050
    if off = DGE_CMD then dgeCommand s n v
    else if off = DGE_DATA_HI then dgeWord s n v
    else if off = DGE_STATE_SEL then dgeSelect s n (fld v 5 0)
    else if off = DGE_STATE_DATA then dgeStateWrite s n v
    else if off = DGE_ERR_INJECT then dgeInject s n (fld v 3 0) else s
  | .key =>
    if off = KEY_KOP then kop s who (fld v 3 0)
    else if off = KEY_ERR_INJECT then keyInject s (fld v 3 0) else s
  | .scp =>
    if off = SCP_CTR_SEL then showCounters s
    else if off = SCP_SN_CMD then snCommand s v
    else if off = SCP_ERR_INJECT then scpInject s v else s
  | .spn => if off = SPN_ERR_INJECT then spanInject s v else s
  | .cle =>
    if off = CLE_TOKEN_CEIL then setCeiling s (fld v 10 0)
    else if off = CLE_ERR_INJECT then cleInjectAll s v else s
  | .flt =>
    if off = FLT_IRESET then islandRequest s (fld v 7 0)
    else if off = FLT_LOG_WRITE then logWrite s who v
    else if off = FLT_ERR_INJECT then fltInject s v else s
  | _ => s

/-- Registers whose own operation sets them, not the write. -/
def selfSet (k : PageKind) (off : Nat) : Bool :=
  (k == .cvn && decide (0x260 ≤ off) && decide (off < 0x300) && (decide (off % 32 = 0x14) || decide (off % 32 = 0x1C)))
    || (k == .dge && off == DGE_STATE_DATA) || (k == .cle && off == CLE_TOKEN_CEIL)

/-- Write-only registers that keep what was written for a later operation: the key data (R489). -/
def keptWo (k : PageKind) (off : Nat) : Bool := k == .key && decide (KEY_KDATA0 ≤ off) && decide (off < KEY_KDATA0 + 64)

/-- The effect of an accepted write of a register that exists. -/
def rowWrite (s : State) (who : Initiator) (p : Nat) (k : PageKind) (r : RegRow) (off : Nat) (v : Word) (micros : Nat) : State :=
  let w := v &&& r.mask
  if r.acc = .ro then s
  else if off = rIRQ_STATUS then wr s p off (rd s p off &&& ~~~v)
  else if off = rIRQ_FORCE then irqMask s p v
  else if off = rSTAGE_CTRL then stageCtrl s who p v
  else if off = rSTAGE_STATUS then wr s p off (rd s p off &&& ~~~(v &&& 0x28000000))
  else if off = rLB_COUNT then lbRearm (wr s p off w) p
  else if off = rUNLOCK then unlockWrite s who p v
  else match r.acc with
    | .ro => s
    | .rc => s
    | .w1c => wr s p off (rd s p off &&& ~~~w)
    | .wo => blockWrite (if keptWo k off then wr s p off w else s) who p k off w micros
    | _ =>
      if r.acc = .rw0 ∧ p ≠ pDMC 0 then s
      else if r.cls = .staged then wrB (wr s p off w) p rSTAGE_STATUS 28 true
      else blockWrite (if selfSet k off then s else wr s p off w) who p k off w micros

/-- A write that has passed the fabric reaches its page: refused there, ignored where there is no register, or carried out (R54, R607). -/
def pageWrite (s : State) (who : Initiator) (p off : Nat) (v : Word) (micros : Nat) : State × Answer :=
  match pageKind? s.com.chip p with
  | none => (s, .none)
  | some k => match rowAt? k off with
    | none => (s, .ack)
    | some r => match pageCause s who p k r off with
      | some c => refuseAtPage s who p off c
      | none => (rowWrite s who p k r off v micros, .ack)

/-! ### The leak of the bucket (R73) -/

/-- Grid instants of a period in (a, b]. -/
def gridPasses (period a b : Nat) : Nat := if period = 0 then 0 else b / period - a / period

/-- Time passes and a page's LB_COUNT loses 1 at each slot whose number is a multiple of LB_LEAK, down to 0 (R73); a pass over the grid leaks the block's own counts with it where it keeps them per unit (R178, R310, R370). -/
def lbLeak (s : State) (p elapsed : Nat) : State :=
  let from_ := s.com.time.toNat
  let s := advance s elapsed
  match pageKind? s.com.chip p with
  | none => s
  | some k =>
    let n := gridPasses ((inForce s p rLB_LEAK).toNat * 1000) from_ s.com.time.toNat
    if !hasBucket k || n = 0 then s
    else
      let less (s : State) (off hi lo : Nat) : State := wrF s p off hi lo (rdF s p off hi lo - n)
      let s := lbRearm (less s rLB_COUNT 15 0) p
      match k with
      | .dmc => less (less s DMC_ECC_CE 31 16) DMC_ECC_CE 15 0
      | .fch => (List.range 16).foldl (fun s i => less s (FCH_DIE_EVT + 4 * i) 7 0) s
      | .ncl => (List.range 8).foldl (fun s i => less s (NCL_TCM_CE + 4 * i) 15 0) s
      | _ => s

/-! ### What a read answers (R8, R54, R60, R79) -/

/-- Registers whose read has an effect or a value of its own; CFG.ENABLE of a path ring mirrors PATH_CTRL (R421). -/
def blockRead (s : State) (who : Initiator) (p : Nat) (k : PageKind) (off : Nat) : State × Word :=
  match k with
  | .sgl =>
    if off = SGL_TIME_LO then ({ s with sgl := { s.sgl with hiHold := s.sgl.hiHold.put (arbKey who) (hi32 s.com.time) } }, lo32 s.com.time)
    else if off = SGL_TIME_HI then (s, s.sgl.hiHold.getD (arbKey who) 0)
    else (s, rd s p off)
  | .dis =>
    if off = DIS_FAIL_NEXT then failNext s
    else if off = DIS_CORE_BUSY_LO then coreBusyRead s
    else if off = DIS_Q_MAXDEPTH then maxDepthRead s
    else (s, rd s p off)
  | .key => if off = KEY_RNG_OUT then rngOut s else (s, rd s p off)
  | .cvn =>
    if off = rgOff 0 0x08 ∨ off = rgOff 1 0x08 ∨ off = rgOff 2 0x08 then (s, setBit (rd s p off) 31 (inF s p CVN_PATH_CTRL ((off - 0x200) / 32) ((off - 0x200) / 32) == 1))
    else (s, rd s p off)
  | _ => (s, rd s p off)

/-- A read that has passed the fabric: a write-only register and an undefined offset read 0, a register cleared by its read is cleared to its reset value, 0 but for `KEY.ROTATE_NEXT` (R489); the shared fields of `DMC1` to `DMC7` copy those of `DMC0` (R8, R54, R310). -/
def pageRead (s : State) (who : Initiator) (p off : Nat) : State × Word :=
  match pageKind? s.com.chip p with
  | none => (s, 0)
  | some k => match rowAt? k off with
    | none => (s, 0)
    | some r => match r.acc with
      | .wo => (s, 0)
      | .rc =>
        let (t, v) := blockRead s who p k off
        (if k = .dis ∧ off = DIS_FAIL_NEXT then t else wr t p off r.reset, v)
      | .rw0 => (s, if p = pDMC 0 then rd s p off else inForce s (pDMC 0) off)
      | _ => blockRead s who p k off

/-! ### Accesses -/

/-- An access that nothing holds is carried out at its target. -/
def serve (s : State) (a : HeldAccess) (host : List Byte) (micros : Nat) : State × Answer :=
  let t := targetOf s a.addr
  match t with
  | .page p off =>
    if a.write then pageWrite s a.who p off (w32 (ofBytesLE a.data)) micros
    else
      let (s, v) := pageRead s a.who p off
      (s, .data (bytesLE 4 v.toNat))
  | _ => if a.write then memWriteAt s t a.data else memReadAt s t a.width host

/-- Why the fabric refuses an access, if it does (R44, R607). A page's own reservation of a register counts among the causes, and the lowest is reported. -/
def fabricCause (s : State) (a : HeldAccess) : Option Nat :=
  match targetOf s a.addr with
  | .page p off =>
    match fabricPageCause s a.who p off a.width with
    | none => none
    | some c =>
      let own := match pageKind? s.com.chip p with
        | none => none
        | some k => match rowAt? k off with
          | none => none
          | some r => if a.write then pageCause s a.who p k r off else none
      match own with
      | some d => some (if c = cNO_PAGE then c else min c d)
      | none => some c
  | _ => memRefusal s a.who (if a.write then 1 else 0) a.addr a.width

/-- One access of an initiator: refused at the fabric, held at a crossing, or served (R17, R20, R22, R44). -/
def access (s : State) (a : HeldAccess) (host : List Byte) (micros : Nat) : State × Answer :=
  match fabricCause s a with
  | some c => refuse s a.who (if a.write then 1 else 0) a.addr c
  | none =>
    if (heldAt s a.who (targetOf s a.addr)).isSome then (putBus s { s.com.bus with held := s.com.bus.held ++ [a] }, .held)
    else serve (passes s a.who (targetOf s a.addr)) a host micros

/-- Run an access and record its answer. -/
def runAccess (s : State) (a : HeldAccess) (host : List Byte) (micros : Nat) : State :=
  let (s, r) := access s a host micros
  answer s r

/-- A 32-bit write of a register by page and offset. -/
def regWrite (s : State) (who : Initiator) (p off : Nat) (v : Word) (micros : Nat := 0) : State :=
  runAccess s ⟨who, true, 0xF0000000 + p * 4096 + off, 4, bytesLE 4 v.toNat⟩ [] micros

/-- A 32-bit read of a register by page and offset. -/
def regRead (s : State) (who : Initiator) (p off : Nat) : State := runAccess s ⟨who, false, 0xF0000000 + p * 4096 + off, 4, []⟩ [] 0

/-- A write to any address: a narrow one takes the low bytes of the value, a burst repeats it. -/
def anyWrite (s : State) (who : Initiator) (addr : Nat) (w : Width) (v : Word) : State :=
  let n := w.bytes
  let data := (List.range n).map fun i => BitVec.ofNat 8 (v.toNat / 2 ^ (8 * (i % 4)))
  if n = 0 then s else runAccess s ⟨who, true, addr, n, data⟩ [] 0

/-- A write of memory by region base and offset. -/
def storeAt (s : State) (who : Initiator) (addr : Nat) (data : List Byte) : State :=
  if data.isEmpty then s else runAccess s ⟨who, true, addr, data.length, data⟩ [] 0

/-- A read of memory by region base and offset. -/
def loadAt (s : State) (who : Initiator) (addr n : Nat) : State := if n = 0 then s else runAccess s ⟨who, false, addr, n, []⟩ [] 0

/-- Held accesses that may pass now go, in the round-robin order of their targets' arbiters (R17, R642). `fuel` bounds them. -/
def busRelease (s : State) : Nat → State
  | 0 => s
  | fuel + 1 =>
    match s.com.bus.held.find? fun a => (heldAt s a.who (targetOf s a.addr)).isNone with
    | none => s
    | some first =>
      let t := targetOf s first.addr
      let arb := arbiterOf s t
      let free := s.com.bus.held.filter fun a => arbiterOf s (targetOf s a.addr) == arb && (heldAt s a.who (targetOf s a.addr)).isNone
      let key := (roundRobin s arb (free.map fun a => arbKey a.who)).getD (arbKey first.who)
      let a := (free.find? fun a => arbKey a.who == key).getD first
      let s := putBus s { s.com.bus with held := removeFirst (· == a) s.com.bus.held }
      let (s, r) := match fabricCause s a with
        | some c => refuse s a.who (if a.write then 1 else 0) a.addr c
        | none => serve (passes s a.who (targetOf s a.addr)) a [] 0
      busRelease (answer s r) fuel

/-- An acknowledge returns over a crossing: its oldest entry is free, and what the crossing held goes (R16, R17). -/
def crossingAck (s : State) (src dst : Island) : State :=
  let s := putBus s { s.com.bus with flight := removeFirst (fun x => x.src == src && x.dst == dst) (inFlight s) }
  busRelease s s.com.bus.held.length

/-- An island is re-admitted and its crossings release, or it is gone (R611). -/
def readmitIsland (s : State) (code : Nat) (passed : Bool) : State :=
  let t := islandReadmit s code passed
  busRelease t t.com.bus.held.length

end Sys2Proof.Machine
end

