-- ==== Sys2Proof/Machine/BusRows.lean ====
section
/-! DEFINITION. Meanings of the commands of the fabric, the common register frame, the memories and the launched commits (R16 to R44, R53 to R76, R88 to R100, R195, R312 to R330). -/

namespace Sys2Proof.Machine

/-- A write to a register that has no row of its own sets the field at its page, subject to the fabric and page checks (R20). -/
def execRegisterWrite (who : Initiator) (addr : BitVec 48) (width : Width) (value : Word) (s : State) : Host.Outcome State Fault Refusal :=
  touching allParts (fun s => anyWrite s who addr.toNat width value) s

/-- A read of an RC register returns its value and then clears it (R8). -/
def execRcRegisterRead (who : Initiator) (page : BitVec 12) (off : BitVec 12) (s : State) : Host.Outcome State Fault Refusal :=
  touching [.sglP, .disP, .keyP] (fun s => regRead s who page.toNat off.toNat) s

/-- A W1C write clears the chosen interrupt cause bits (R51). -/
def execIrqStatusWrite (who : Initiator) (page : BitVec 12) (value : Word) (s : State) : Host.Outcome State Fault Refusal :=
  touching [] (fun s => regWrite s who page.toNat rIRQ_STATUS value) s

/-- A write to IRQ_FORCE sets the matching IRQ_STATUS bits as if their cause had occurred (R51). -/
def execIrqForce (who : Initiator) (page : BitVec 12) (value : Word) (s : State) : Host.Outcome State Fault Refusal :=
  touching [] (fun s => regWrite s who page.toNat rIRQ_FORCE value) s

/-- A COMMIT write checks the staged set and applies it, or holds it PENDING or ARMED, under APPLY_MODE (R65). -/
def execStageCommit (who : Initiator) (page : BitVec 12) (mode : BitVec 2) (s : State) : Host.Outcome State Fault Refusal :=
  touching allParts (fun s => regWrite s who page.toNat rSTAGE_CTRL (0x80000000#32 + mode.setWidth 32)) s

/-- A CANCEL write withdraws a PENDING or ARMED commit and releases held admission (R68). -/
def execStageCancel (who : Initiator) (page : BitVec 12) (s : State) : Host.Outcome State Fault Refusal :=
  touching [] (fun s => regWrite s who page.toNat rSTAGE_CTRL (0x40000000#32 + (rd s page.toNat rSTAGE_CTRL &&& 3#32))) s

/-- A DISCARD write copies in-force values back into the staged copies and clears DIRTY (R61). -/
def execStageDiscard (who : Initiator) (page : BitVec 12) (s : State) : Host.Outcome State Fault Refusal :=
  touching [] (fun s => regWrite s who page.toNat rSTAGE_CTRL (0x20000000#32 + (rd s page.toNat rSTAGE_CTRL &&& 3#32))) s

/-- The last work unit of an older epoch completes, and a pending commit applies (R67). -/
def execEpochDrained (page : BitVec 12) (s : State) : Host.Outcome State Fault Refusal :=
  touching allParts (fun s => whenUp page.toNat (fun s => epochDrained s page.toNat) s) s

/-- Local time reaches APPLY_TIME of an ARMED commit, which applies or moves to PENDING with LATE (R67). -/
def execApplyTimeReached (page : BitVec 12) (elapsed : Nat) (s : State) : Host.Outcome State Fault Refusal :=
  touching allParts (fun s => whenUp page.toNat (fun s => applyTimeReached s page.toNat) (advance s elapsed)) s

/-- An epoch's drain bound expires before it drains, and the page records DRAIN_OVERRUN (R72). -/
def execDrainOverrun (page : BitVec 12) (elapsed : Nat) (s : State) : Host.Outcome State Fault Refusal :=
  touching [] (fun s => whenUp page.toNat (fun s => drainOverrun s page.toNat) (advance s elapsed)) s

/-- A write to LB_COUNT sets the count without firing an overflow (R75). -/
def execLbCountWrite (who : Initiator) (page : BitVec 12) (value : Word) (s : State) : Host.Outcome State Fault Refusal :=
  touching [] (fun s => regWrite s who page.toNat rLB_COUNT value) s

/-- At each leak grid instant the leaky bucket count falls by 1, down to 0 (R73). -/
def execLbLeak (page : BitVec 12) (elapsed : Nat) (s : State) : Host.Outcome State Fault Refusal :=
  touching [] (fun s => lbLeak s page.toNat elapsed) s

/-- Writing the first unlock key arms the page's expert gate for the writer (R57). -/
def execExpertUnlockArm (who : Initiator) (page : BitVec 12) (s : State) : Host.Outcome State Fault Refusal :=
  touching [] (fun s => regWrite s who page.toNat rUNLOCK (w32 (0x9E1D0000 + page.toNat))) s

/-- Writing the second key from the arming initiator within 256 cycles opens expert writes (R57). -/
def execExpertUnlockOpen (who : Initiator) (page : BitVec 12) (s : State) : Host.Outcome State Fault Refusal :=
  touching [] (fun s => regWrite s who page.toNat rUNLOCK (w32 (0x61E20000 + page.toNat))) s

/-- The 256-cycle window after the first key expires and ARMED clears (R57). -/
def execExpertUnlockExpiry (page : BitVec 12) (elapsed : Nat) (s : State) : Host.Outcome State Fault Refusal :=
  touching [] (fun s => unlockExpiry (advance s elapsed) page.toNat) s

/-- The owner writes 0 to EXPERT_UNLOCK and the unlock ends (R58). -/
def execExpertUnlockEnd (who : Initiator) (page : BitVec 12) (s : State) : Host.Outcome State Fault Refusal :=
  touching [] (fun s => regWrite s who page.toNat rUNLOCK 0) s

/-- An acknowledge returns to a source whose crossing buffer was full, and its held transfer goes (R17). -/
def execCrossingAck (src dst : Island) (s : State) : Host.Outcome State Fault Refusal :=
  touching allParts (fun s => crossingAck s src dst) s

/-- A Landing bank accepts a read and delivers the data, correcting or flagging ECC errors (R313). -/
def execLandingRead (who : Initiator) (off : BitVec 26) (n : Nat) (s : State) : Host.Outcome State Fault Refusal :=
  touching [.memP] (fun s => loadAt s who (0x4000000 + off.toNat) n) s

/-- A Landing bank accepts a write, full words directly and narrow writes into the merge buffer (R313). -/
def execLandingWrite (who : Initiator) (off : BitVec 26) (data : List Byte) (s : State) : Host.Outcome State Fault Refusal :=
  touching [.memP] (fun s => storeAt s who (0x4000000 + off.toNat) data) s

/-- A Landing, cluster-store or MRAM merge entry is written to the array when its mask fills, its time expires or room is needed (R317). -/
def execMergeEntryFlush (site : MergeSite) (s : State) : Host.Outcome State Fault Refusal :=
  touching allParts (fun s => mergeDue s site) s

/-- The MRAM controller reads a word from one die, falling back to the other die when uncorrectable (R321). -/
def execMramRead (who : Initiator) (off : BitVec 27) (n : Nat) (s : State) : Host.Outcome State Fault Refusal :=
  touching [.memP] (fun s => loadAt s who (0x100000000 + off.toNat) n) s

/-- The MRAM controller writes a word to both dies and acknowledges it when durable (R321). -/
def execMramWrite (who : Initiator) (off : BitVec 27) (data : List Byte) (s : State) : Host.Outcome State Fault Refusal :=
  touching [.memP] (fun s => storeAt s who (0x100000000 + off.toNat) data) s

/-- A DRAM controller serves a read with its row hit, closed or conflict count and ECC check (R305). -/
def execDramRead (who : Initiator) (off : BitVec 39) (n : Nat) (s : State) : Host.Outcome State Fault Refusal :=
  touching [.memP] (fun s => loadAt s who (0x1000000000 + off.toNat) n) s

/-- A DRAM controller accepts a write, or a partial write into its merge buffer (R305). -/
def execDramWrite (who : Initiator) (off : BitVec 39) (data : List Byte) (s : State) : Host.Outcome State Fault Refusal :=
  touching [.memP] (fun s => storeAt s who (0x1000000000 + off.toNat) data) s

/-- A scrubber reads a word in its interval, correcting or reporting it (R330). -/
def execPatrolScrubRead (site : ScrubSite) (offset : Nat) (passEnds : Bool) (s : State) : Host.Outcome State Fault Refusal :=
  touching allParts (fun s => patrolRead s site offset passEnds) s

/-- A read of SGL.TIME_LO returns the low count and latches the high half for that initiator (R79). -/
def execTimeLoRead (who : Initiator) (s : State) : Host.Outcome State Fault Refusal :=
  touching [.sglP] (fun s => regRead s who pSGL SGL_TIME_LO) s

/-- A crew or security-processor write to SNAP_FIRE orders a snapshot 64 ns ahead (R104). -/
def execSnapFire (who : Initiator) (value : Word) (s : State) : Host.Outcome State Fault Refusal :=
  touching [.sglP] (fun s => regWrite s who pSGL SGL_SNAP_FIRE value) s

/-- LCH ENTRY_OP READ copies the selected launch entry into the window registers (R91). -/
def execEntryOpRead (who : Initiator) (s : State) : Host.Outcome State Fault Refusal :=
  touching [.sglP] (fun s => regWrite s who pLCH LCH_ENTRY_OP 1) s

/-- LCH ENTRY_OP ARM checks and copies the window into the entry and sets it ARMED (R91). -/
def execEntryOpArm (who : Initiator) (s : State) : Host.Outcome State Fault Refusal :=
  touching [.sglP] (fun s => regWrite s who pLCH LCH_ENTRY_OP 2) s

/-- LCH ENTRY_OP CANCEL sets an ARMED entry to CANCELLED (R91). -/
def execEntryOpCancel (who : Initiator) (s : State) : Host.Outcome State Fault Refusal :=
  touching [.sglP] (fun s => regWrite s who pLCH LCH_ENTRY_OP 3) s

/-- LCH ENTRY_OP RELEASE sets a FIRED, FAILED or CANCELLED entry to FREE (R91). -/
def execEntryOpRelease (who : Initiator) (s : State) : Host.Outcome State Fault Refusal :=
  touching [.sglP] (fun s => regWrite s who pLCH LCH_ENTRY_OP 4) s

/-- A COMMIT_STAGE action reaches its page and performs an immediate-mode commit (R90). -/
def execCommitStage (entry : Fin 1024) (s : State) : Host.Outcome State Fault Refusal :=
  touching allParts (fun s => deliver s entry.val 1 (fun s e => commitStage s e.page) (fun e => e.page)) s

/-- A CHECKPOINT_BEGIN action, or a journal fill threshold, starts a checkpoint pass of MAP, STR or SPN (R195). -/
def execCheckpointBegin (source : CheckpointSource) (s : State) : Host.Outcome State Fault Refusal :=
  touching [.sglP, .mapP, .strP, .spnP, .memP] (fun s => checkpointBegin s source) s

/-- A REFRESH_ALIGN action sets the DRAM refresh anchor to its time (R99). -/
def execRefreshAlign (entry : Fin 1024) (s : State) : Host.Outcome State Fault Refusal :=
  touching [.sglP] (fun s => deliver s entry.val 4 refreshAlign (fun _ => pSGL)) s

end Sys2Proof.Machine
end

