-- ==== Sys2Proof/Machine/CaravanRows.lean ====
section
/-! DEFINITION. Meanings of the caravan commands that reach the block without a register access (R394 to R416). -/

namespace Sys2Proof.Machine

/-- An admissible ring head is fetched, validated and tagged with the epoch (R394). -/
def execCaravanJobAdmit (n : CvnIx) (r : RingIx) (s : State) : Host.Outcome State Fault Refusal :=
  touching [.cvnP, .memP, .keyP, .mteP, .fchP, .mapP, .strP] (fun s => whenUp (pCVN n.val) (fun s => cvnAdmit s n.val r.val) s) s

/-- An idle caravan starts its highest-priority candidate (R395). -/
def execCaravanJobStart (n : CvnIx) (hostData : List Byte) (elapsed : Nat) (s : State) : Host.Outcome State Fault Refusal :=
  touching [.cvnP, .memP, .keyP, .mteP, .fchP, .mapP, .strP] (fun s => whenUp (pCVN n.val) (fun s => if caravanHeld s then s else cvnStart s n.val hostData) (advance s elapsed)) s

/-- A job ends and its completion record is written (R402). -/
def execCaravanJobEnd (n : CvnIx) (extra elapsed : Nat) (s : State) : Host.Outcome State Fault Refusal :=
  touching [.cvnP, .memP, .keyP, .mteP, .fchP, .mapP, .strP] (fun s => whenUp (pCVN n.val) (fun s => cvnEnd s n.val extra) (advance s elapsed)) s

/-- A higher-priority candidate stops the feed at a suspension point and the job is saved (R407). -/
def execCaravanSuspend (n : CvnIx) (elapsed : Nat) (s : State) : Host.Outcome State Fault Refusal :=
  touching [.cvnP, .memP, .keyP, .mteP, .fchP, .mapP, .strP] (fun s => whenUp (pCVN n.val) (fun s => cvnSuspend s n.val) (advance s elapsed)) s

/-- A read, write or scan path posts a job to a path ring, waiting when all are full (R413). -/
def execPathJobPost (path : Fin 3) (desc : BitVec 512) (tenant : BitVec 16) (handle : Fin 1024) (unit : BitVec 48) (s : State) : Host.Outcome State Fault Refusal :=
  touching [.cvnP] (fun s => pathPost s path.val ⟨bytesLE 64 desc.toNat, tenant.toNat, handle.val, unit.toNat, false⟩ false) s

end Sys2Proof.Machine
end

