-- ==== Sys2Proof/Machine/DispatcherRows.lean ====
section
/-! DEFINITION. Meanings of the dispatcher commands that reach the block without a register access, and of a snapshot latch (R101, R378 to R388). -/

namespace Sys2Proof.Machine

/-- An island reaches the latch time T and every page latches its snapshot registers (R101). -/
def execSnapshotLatch (island : Island) (elapsed : Nat) (s : State) : Host.Outcome State Fault Refusal :=
  touching [.sglP, .disP] (fun s => let t := latchIsland (advance s elapsed) island; if rd t pDIS rSNAP_SEQ = rd s pDIS rSNAP_SEQ then t else disLatch t) s

/-- A raised page interrupt makes its WAITING interrupt slot READY or sets PENDING (R378). -/
def execPageInterrupt (page : BitVec 12) (s : State) : Host.Outcome State Fault Refusal :=
  touching [.disP] (fun s => whenUp pDIS (fun s => pageInterrupt s page.toNat) s) s

/-- At each TICK due DELAYED items leave their lists and become READY (R380). -/
def execDispatcherTick (elapsed : Nat) (s : State) : Host.Outcome State Fault Refusal :=
  touching [.disP] (fun s => whenUp pDIS dispatcherTick (advance s elapsed)) s

/-- An idle core takes the highest-priority eligible READY item and starts it (R382). -/
def execItemDispatch (c : Clu) (elapsed : Nat) (s : State) : Host.Outcome State Fault Refusal :=
  touching [.nelP, .disP] (fun s => whenUp pDIS (fun s => dispatchCluster s c) (advance s elapsed)) s

/-- A READY item pre-empts a lower-threshold running item, whose context is saved (R383). -/
def execItemPreempt (c : Clu) (elapsed : Nat) (s : State) : Host.Outcome State Fault Refusal :=
  touching [.nelP, .disP, .memP, .keyP, .botP] (fun s => whenUp pDIS (fun s => loadProceed (preemptCluster s c) c) (advance s elapsed)) s

end Sys2Proof.Machine
end

