-- ==== Sys2Proof/Machine/FaultRows.lean ====
section
/-! DEFINITION. Meanings of retirement, fatal faults, the fault log and island resets (R600 to R614). -/

namespace Sys2Proof.Machine

/-- A unit classified permanent is fenced, its work moved and service resumed within 40 µs (R602). -/
def execUnitRetirement (page : BitVec 12) (unit : BitVec 16) (s : State) : Host.Outcome State Fault Refusal :=
  touching allParts (fun s => retireUnit s page.toNat unit.toNat) s

/-- A permanent fault in a non-retirable block stops fetch and sets CFS (R601). -/
def execFatalFault (page cause : BitVec 12) (unit : BitVec 16) (s : State) : Host.Outcome State Fault Refusal :=
  touching [.fltP, .hstP, .pwrP] (fun s => if fatalPage s page.toNat then fatalFault s page.toNat cause.toNat unit.toNat else s) s

/-- The fault manager writes the next queued log entry or COUNT update to MRAM (R606). -/
def execFaultLogWrite (elapsed : Nat) (s : State) : Host.Outcome State Fault Refusal :=
  touching [.fltP, .memP] (fun s => logWriteNext (advance s elapsed)) s

/-- An island holds its crossings, moves work, resets and retrains (R610). -/
def execIslandReset (island : BitVec 8) (s : State) : Host.Outcome State Fault Refusal :=
  touching allParts (fun s => islandReset s island.toNat) s

/-- An island passes retraining and is re-admitted, or is retired (R611). -/
def execIslandReadmit (island : BitVec 8) (passed : Bool) (elapsed : Nat) (s : State) : Host.Outcome State Fault Refusal :=
  touching allParts (fun s => readmitIsland (advance s elapsed) island.toNat passed) s

/-- Every TRAIN_CTRL ms the controller tracks DQS drift and retrains on loss (R296). -/
def execDqsTracking (n : DmcIx) (elapsed : Nat) (lost : Bool) (s : State) : Host.Outcome State Fault Refusal :=
  touching allParts (fun s => whenUp (pDMC n.val) (fun s => dqsTracking s n.val lost) (advance s elapsed)) s

end Sys2Proof.Machine
end

