-- ==== Sys2Proof/Machine/FlashRows.lean ====
section
/-! DEFINITION. Meanings of the flash channel commands (R157 to R180). -/

namespace Sys2Proof.Machine

/-- A channel island leaving reset resets, addresses and identifies its dies (R157). -/
def execChannelStart (c : Chan) (answers : List DieAnswer) (s : State) : Host.Outcome State Fault Refusal :=
  touching [.memP, .fchP, .mapP, .strP] (fun s => channelStart s c.val answers) s

/-- At a commit's apply the channel switches enabled dies to the configured mode and trains them (R157). -/
def execChannelTraining (c : Chan) (eyes : BitVec 16) (s : State) : Host.Outcome State Fault Refusal :=
  touching [.memP, .fchP, .mapP, .strP] (fun s => whenUp (pFCH c.val) (fun s => channelTraining s c.val eyes.toNat) s) s

/-- Every CHECK_INTERVAL the channel re-reads a training pattern and may declare training loss (R158). -/
def execTrainingCheck (c : Chan) (elapsed : Nat) (drift : List (Pos × Nat)) (s : State) : Host.Outcome State Fault Refusal :=
  touching [.memP, .fchP, .mapP, .strP] (fun s => whenUp (pFCH c.val) (fun s => trainingCheck s c.val drift) (advance s elapsed)) s

/-- A retraining attempt of a degraded channel passes or fails (R159). -/
def execRetrainAttempt (c : Chan) (elapsed : Nat) (passed : Bool) (s : State) : Host.Outcome State Fault Refusal :=
  touching [.memP, .fchP, .mapP, .strP] (fun s => whenUp (pFCH c.val) (fun s => retrainAttempt s c.val passed) (advance s elapsed)) s

/-- An idle die takes the next read, program or erase in class order (R163). -/
def execDieReadIssue (c : Chan) (p : Pos) (elapsed : Nat) (s : State) : Host.Outcome State Fault Refusal :=
  touching [.memP, .fchP, .mapP, .strP] (fun s => whenUp (pFCH c.val) (fun s => dieIssue s (16 * c.val + p.val)) (advance s elapsed)) s

/-- A read waiting longer than READ_AGE moves to class A (R163). -/
def execReadAgePromotion (c : Chan) (p : Pos) (elapsed : Nat) (s : State) : Host.Outcome State Fault Refusal :=
  touching [.memP, .fchP, .mapP, .strP] (fun s => whenUp (pFCH c.val) (fun s => agePromotion s (16 * c.val + p.val)) (advance s elapsed)) s

/-- The channel checks FREEABLE atomically and issues or refuses an ERASE (R165). -/
def execEraseIssue (c : Chan) (p : Pos) (s : State) : Host.Outcome State Fault Refusal :=
  touching [.memP, .fchP, .mapP, .strP] (fun s => whenUp (pFCH c.val) (fun s => eraseIssue s (16 * c.val + p.val)) s) s

/-- A waiting class A or B read suspends a running program or erase when PMIN/EMIN has passed (R166). -/
def execDieSuspend (c : Chan) (p : Pos) (elapsed : Nat) (s : State) : Host.Outcome State Fault Refusal :=
  touching [.memP, .fchP, .mapP, .strP] (fun s => whenUp (pFCH c.val) (fun s => dieSuspend s (16 * c.val + p.val)) (advance s elapsed)) s

/-- After the read batch the suspended operation resumes once it holds a token (R166). -/
def execDieResume (c : Chan) (p : Pos) (elapsed : Nat) (s : State) : Host.Outcome State Fault Refusal :=
  touching [.memP, .fchP, .mapP, .strP] (fun s => whenUp (pFCH c.val) (fun s => dieResume s (16 * c.val + p.val)) (advance s elapsed)) s

/-- A status poll finds a busy die ready, ending its read, program, erase or reset (R168). -/
def execDieOpComplete (c : Chan) (p : Pos) (elapsed : Nat) (pass : Bool) (s : State) : Host.Outcome State Fault Refusal :=
  touching [.memP, .fchP, .mapP, .strP] (fun s => whenUp (pFCH c.val) (fun s => dieOpComplete s (16 * c.val + p.val) pass) (advance s elapsed)) s

/-- A channel's hard decoder delivers the result of a codeword (R170). -/
def execHardDecodeDone (c : Chan) (job : Nat) (pass : Bool) (weight : Nat) (bytes : List Byte) (s : State) : Host.Outcome State Fault Refusal :=
  touching [.memP, .fchP, .mapP, .strP] (fun s => whenUp (pFCH c.val) (fun s => hardDecodeDone s c.val job pass weight bytes) s) s

/-- A soft decoder in the pool finishes a soft or hard-mode job (R172). -/
def execSoftDecodeJobDone (dec : Fin 8) (pass : Bool) (weight : Nat) (bytes : List Byte) (s : State) : Host.Outcome State Fault Refusal :=
  touching [.memP, .fchP, .mapP, .strP] (fun s => whenUp pLDS (fun s => softDecodeDone s dec.val pass weight bytes) s) s

/-- A codeword's ladder time reaches LADDER_BUDGET and it goes to reconstruction (R176). -/
def execLadderBudgetExpiry (c : Chan) (job : Nat) (elapsed : Nat) (s : State) : Host.Outcome State Fault Refusal :=
  touching [.memP, .fchP, .mapP, .strP] (fun s => whenUp (pFCH c.val) (fun s => budgetExpiry s c.val job) (advance s elapsed)) s

/-- Each SELF_CHECK interval a decoder decodes a stored codeword and is retired on mismatch (R175). -/
def execDecoderSelfCheck (dec : DecoderId) (good : Bool) (s : State) : Host.Outcome State Fault Refusal :=
  touching [.memP, .fchP, .mapP, .strP] (fun s => selfCheck s dec good) s

/-- A die stays busy past TIMEOUT_MULT + 2 times its descriptor time, a transient fault (R178). -/
def execDieTimeout (c : Chan) (p : Pos) (s : State) : Host.Outcome State Fault Refusal :=
  touching [.memP, .fchP, .mapP, .strP] (fun s => whenUp (pFCH c.val) (fun s => dieTimeout s (16 * c.val + p.val)) s) s

/-- After its backoff a transient die fault retry polls or resets and reissues the operation (R180). -/
def execFchTransientRetry (c : Chan) (p : Pos) (elapsed : Nat) (ready : Bool) (s : State) : Host.Outcome State Fault Refusal :=
  touching [.memP, .fchP, .mapP, .strP] (fun s => whenUp (pFCH c.val) (fun s => transientRetry s (16 * c.val + p.val) ready) (advance s elapsed)) s

end Sys2Proof.Machine
end

