-- ==== Sys2Proof/Machine/HostRows.lean ====
section
/-! DEFINITION. Meanings of the port, queue and plain admin commands of the host interface (R105 to R144). -/

namespace Sys2Proof.Machine

/-- A host port trains its link to the highest common rate and width (R106). -/
def execLinkUp (p : Port) (rate : Fin 7) (width : Fin 17) (s : State) : Host.Outcome State Fault Refusal :=
  touching [.hstP, .mapP, .fltP] (fun s => linkUp s p rate.val width.val) s

/-- A host port loses its link and, in x8 + x8, ends its outstanding commands (R109). -/
def execLinkDown (p : Port) (s : State) : Host.Outcome State Fault Refusal :=
  touching [.hstP, .mapP, .fltP] (fun s => linkDown s p) s

/-- In x8 + x8 mode a port whose link stays down for 1 s after retraining is retired (R600). -/
def execLinkDownExpiry (p : Port) (elapsed : Nat) (s : State) : Host.Outcome State Fault Refusal :=
  touching [.hstP, .mapP, .fltP] (fun s => linkExpiry (advance s elapsed) p) s

/-- A PCIe transaction issued by a host port gets no completion within CPL_TIMEOUT, setting CPL_TIMEOUT and counting in the bucket (R110). -/
def execCompletionTimeout (p : Port) (s : State) : Host.Outcome State Fault Refusal :=
  touching [.hstP, .mapP, .fltP] (fun s => completionTimeout s p) s

/-- A replay timeout, correctable receiver error or IDE integrity failure on a port is counted in the bucket and may end a partition's commands (R110). -/
def execLinkError (p : Port) (e : LinkErr) (s : State) : Host.Outcome State Fault Refusal :=
  touching [.hstP, .mapP, .fltP] (fun s => linkError s p e) s

/-- The host writes a submission queue tail doorbell (R116). -/
def execSqDoorbellWrite (ctl : CtlId) (q value : BitVec 16) (s : State) : Host.Outcome State Fault Refusal :=
  touching [.hstP, .mapP, .fltP] (fun s => sqDoorbell s ctl.val q.toNat value.toNat) s

/-- The host writes a completion queue head doorbell (R116). -/
def execCqDoorbellWrite (ctl : CtlId) (q value : BitVec 16) (s : State) : Host.Outcome State Fault Refusal :=
  touching [.hstP, .mapP, .fltP] (fun s => cqDoorbell s ctl.val q.toNat value.toNat) s

/-- The queue engine fetches commands under weighted round robin and checks their data-pointer length (R116). -/
def execCommandFetch (sqe : BitVec 512) (dataLen : Nat) (prpShort : Bool) (s : State) : Host.Outcome State Fault Refusal :=
  touching [.hstP, .mapP, .fltP, .keyP, .mteP, .memP] (fun s => fetchCommand s (bytesLE 64 sqe.toNat) dataLen prpShort) s

/-- Write-buffer room frees and a held write command proceeds to its data transfer (R32). -/
def execWbHoldRelease (cmd : Nat) (s : State) : Host.Outcome State Fault Refusal :=
  touching [.hstP, .mapP, .fltP] (fun s => holdRelease s cmd) s

/-- The queue engine posts a completion entry and interrupt after the command's last data write (R27). -/
def execCompletionPost (cmd : Nat) (elapsed : Nat) (s : State) : Host.Outcome State Fault Refusal :=
  touching [.hstP, .mapP, .fltP] (fun s => postCmd (advance s elapsed) cmd) s

/-- The host sets CC.EN to 1 and the controller reports CSTS.RDY once I/O-ready holds (R286). -/
def execControllerEnable (ctl : CtlId) (ams : Fin 2) (asq acq : BitVec 13) (s : State) : Host.Outcome State Fault Refusal :=
  touching [.hstP, .mapP, .fltP] (fun s => enableCtl s ctl.val ams.val asq.toNat acq.toNat) s

/-- A PCIe configuration read or write, such as NumVFs, reaches a function and is served or answered with Configuration Request Retry Status (R634). -/
def execConfigurationRequest (p : Port) (r : ConfigReq) (s : State) : Host.Outcome State Fault Refusal :=
  touching [.hstP, .mapP, .fltP] (fun s => configRequest s p (decide (2 ≤ rdF s pSCP SCP_BOOT_STAGE 3 0)) r) s

/-- Admin command Delete I/O Submission Queue (R120). -/
def execDeleteIoSq (cmd : Nat) (s : State) : Host.Outcome State Fault Refusal :=
  touching [.hstP, .mapP, .fltP] (fun s => onCmd s true 0x00 cmd deleteSq) s

/-- Admin command Create I/O Submission Queue (R120). -/
def execCreateIoSq (cmd : Nat) (s : State) : Host.Outcome State Fault Refusal :=
  touching [.hstP, .mapP, .fltP] (fun s => onCmd s true 0x01 cmd createSq) s

/-- Admin command Delete I/O Completion Queue (R120). -/
def execDeleteIoCq (cmd : Nat) (s : State) : Host.Outcome State Fault Refusal :=
  touching [.hstP, .mapP, .fltP] (fun s => onCmd s true 0x04 cmd deleteCq) s

/-- Admin command Create I/O Completion Queue (R120). -/
def execCreateIoCq (cmd : Nat) (s : State) : Host.Outcome State Fault Refusal :=
  touching [.hstP, .mapP, .fltP] (fun s => onCmd s true 0x05 cmd createCq) s

/-- Admin command Abort cancels an outstanding command not yet on a channel (R120). -/
def execAbort (cmd : Nat) (s : State) : Host.Outcome State Fault Refusal :=
  touching [.hstP, .mapP, .fltP, .prgP, .disP] (fun s => onCmd s true 0x08 cmd abortAny) s

/-- Admin command Set Features sets a supported feature, power state and Host Memory Buffer included (R120). -/
def execSetFeatures (cmd : Nat) (hostData : List Byte) (s : State) : Host.Outcome State Fault Refusal :=
  touching [.hstP, .mapP, .fltP, .memP, .keyP] (fun s => onCmd s true 0x09 cmd (setFeatures hostData)) s

/-- Admin command Get Features returns a feature value (R120). -/
def execGetFeatures (cmd : Nat) (s : State) : Host.Outcome State Fault Refusal :=
  touching [.hstP, .mapP, .fltP] (fun s => onCmd s true 0x0A cmd getFeatures) s

/-- Admin command Asynchronous Event Request waits for an event to report (R120). -/
def execAsyncEventRequest (cmd : Nat) (s : State) : Host.Outcome State Fault Refusal :=
  touching [.hstP, .mapP, .fltP] (fun s => onCmd s true 0x0C cmd asyncRequest) s

/-- Admin command Namespace Management creates or deletes a namespace (R122). -/
def execNamespaceManagement (cmd : Nat) (hostData : List Byte) (s : State) : Host.Outcome State Fault Refusal :=
  touching [.hstP, .mapP, .strP, .fchP, .memP, .mteP, .prgP, .ferP] (fun s => onCmd s true 0x0D cmd (nsManage hostData)) s

/-- Admin command Namespace Attachment attaches or detaches a namespace (R120). -/
def execNamespaceAttachment (cmd : Nat) (hostData : List Byte) (s : State) : Host.Outcome State Fault Refusal :=
  touching [.hstP, .mapP, .fltP] (fun s => onCmd s true 0x15 cmd (nsAttach hostData)) s

/-- Admin command Device Self-test runs a short or extended self-test (R120). -/
def execDeviceSelfTest (cmd : Nat) (s : State) : Host.Outcome State Fault Refusal :=
  touching [.hstP, .mapP, .fltP] (fun s => onCmd s true 0x14 cmd selfTest) s

/-- Admin command Directive Send for Identify and Streams directives (R120). -/
def execDirectiveSend (cmd : Nat) (s : State) : Host.Outcome State Fault Refusal :=
  touching [.hstP, .mapP, .fltP] (fun s => onCmd s true 0x19 cmd directiveSend) s

/-- Admin command Directive Receive for Identify and Streams directives (R120). -/
def execDirectiveReceive (cmd : Nat) (s : State) : Host.Outcome State Fault Refusal :=
  touching [.hstP, .mapP, .fltP] (fun s => onCmd s true 0x1A cmd directiveReceive) s

/-- Admin command Virtualization Management assigns flexible queue and interrupt resources to VFs (R114). -/
def execVirtualizationManagement (cmd : Nat) (s : State) : Host.Outcome State Fault Refusal :=
  touching [.hstP, .mapP, .fltP] (fun s => onCmd s true 0x1C cmd virtManage) s

/-- Admin command Format NVM trims every entry of the namespaces and sets spare shares (R186). -/
def execFormatNvm (cmd : Nat) (s : State) : Host.Outcome State Fault Refusal :=
  touching [.hstP, .mapP, .strP, .fchP, .memP, .keyP, .mteP, .ferP] (fun s => onCmd s true 0x80 cmd formatNvm) s

/-- Admin command Sanitize runs block or crypto erase (R475). -/
def execSanitize (cmd : Nat) (s : State) : Host.Outcome State Fault Refusal :=
  touching [.hstP, .mapP, .strP, .fchP, .memP, .keyP, .mteP, .ferP] (fun s => onCmd s true 0x84 cmd sanitize) s

/-- Admin command Get LBA Status reports mapped and deallocated LBAs (R183). -/
def execGetLbaStatus (cmd : Nat) (s : State) : Host.Outcome State Fault Refusal :=
  touching [.hstP, .mapP, .fltP] (fun s => onCmd s true 0x86 cmd getLbaStatus) s

/-- Snapshot Trigger ACTION 00h fires a snapshot and completes when its latch order is out (R134). -/
def execSnapshotTriggerIssue (cmd : Nat) (s : State) : Host.Outcome State Fault Refusal :=
  touching [.hstP, .mapP, .sglP] (fun s => onVendor s 0xC3 0 cmd snapIssue) s

/-- Snapshot Trigger ACTION 01h fires a snapshot and completes after its latch time (R134). -/
def execSnapshotTriggerWait (cmd : Nat) (s : State) : Host.Outcome State Fault Refusal :=
  touching [.hstP, .mapP, .sglP] (fun s => onVendor s 0xC3 1 cmd snapWait) s

/-- Launch Table Access READ returns a host-reachable entry image (R135). -/
def execLaunchTableRead (cmd : Nat) (s : State) : Host.Outcome State Fault Refusal :=
  touching [.hstP, .mapP, .sglP] (fun s => onVendor s 0xC4 1 cmd launchRead) s

/-- Launch Table Access ARM arms a host-reachable entry for a permitted action (R135). -/
def execLaunchTableArm (cmd : Nat) (hostData : List Byte) (s : State) : Host.Outcome State Fault Refusal :=
  touching [.hstP, .mapP, .sglP] (fun s => onVendor s 0xC4 2 cmd (launchArm hostData)) s

/-- Launch Table Access CANCEL cancels a host-reachable entry (R135). -/
def execLaunchTableCancel (cmd : Nat) (s : State) : Host.Outcome State Fault Refusal :=
  touching [.hstP, .mapP, .sglP] (fun s => onVendor s 0xC4 3 cmd launchCancel) s

/-- Launch Table Access RELEASE frees a host-reachable entry (R135). -/
def execLaunchTableRelease (cmd : Nat) (s : State) : Host.Outcome State Fault Refusal :=
  touching [.hstP, .mapP, .sglP] (fun s => onVendor s 0xC4 4 cmd launchRelease) s

/-- Retention Range Set CREATE adds a retention range after its conflict checks (R136). -/
def execRetentionCreate (cmd : Nat) (hostData : List Byte) (s : State) : Host.Outcome State Fault Refusal :=
  touching [.hstP, .mapP, .mteP, .memP] (fun s => onVendor s 0xC5 0 cmd (retCreate hostData)) s

/-- Retention Range Set QUERY returns a range descriptor (R136). -/
def execRetentionQuery (cmd : Nat) (hostData : List Byte) (s : State) : Host.Outcome State Fault Refusal :=
  touching [.hstP, .mapP, .fltP] (fun s => onVendor s 0xC5 1 cmd (retQuery hostData)) s

/-- Retention Range Set EXTEND moves a range's expiry later (R136). -/
def execRetentionExtend (cmd : Nat) (hostData : List Byte) (s : State) : Host.Outcome State Fault Refusal :=
  touching [.hstP, .mapP, .fltP] (fun s => onVendor s 0xC5 2 cmd (retExtend hostData)) s

/-- The Timestamp passes a range's EXPIRY and the range leaves the table (R137). -/
def execRetentionExpiry (elapsed : Nat) (s : State) : Host.Outcome State Fault Refusal :=
  touching [.hstP, .mteP, .memP] (fun s => retExpire (advance s elapsed)) s

/-- An atomic step of PS3 or PS4 entry runs, at most 200 µs (R141). -/
def execPowerStateEntryStep (last : Bool) (elapsed : Nat) (s : State) : Host.Outcome State Fault Refusal :=
  touching [.hstP, .mapP, .fltP] (fun s => powerStep (advance s elapsed) last) s

/-- A command or wake during or after entry returns the device to PS0 by the exit sequence (R141). -/
def execPowerStateExit (s : State) : Host.Outcome State Fault Refusal :=
  touching [.hstP, .mapP, .fltP] (fun s => powerExit s) s

/-- The APST idle time of the current power state runs out and entry to a non-operational state begins (R140). -/
def execApstTransition (elapsed : Nat) (s : State) : Host.Outcome State Fault Refusal :=
  touching [.hstP, .mapP, .fltP] (fun s => apst (advance s elapsed)) s

/-- FLR of a partition VF ends that partition's commands and deletes its queues (R144). -/
def execPartitionReset (fn : Fin 64) (s : State) : Host.Outcome State Fault Refusal :=
  touching [.hstP, .mapP, .fltP, .prgP, .disP, .nelP, .cvnP, .memP] (fun s => partitionReset s fn.val) s

end Sys2Proof.Machine
end

