-- ==== Sys2Proof/Machine/IoRows.lean ====
section
/-! DEFINITION. Meanings of the NVM I/O commands (R25 to R32, R117, R121 to R124, R137, R182, R183). -/

namespace Sys2Proof.Machine

/-- I/O command Flush completes once earlier writes pass step 4, or R31 with FLUSH_DRAIN (R123). -/
def execFlush (cmd : Nat) (s : State) : Host.Outcome State Fault Refusal :=
  touching [.hstP, .mapP, .memP, .keyP, .spnP] (fun s => onCmd s false 0x00 cmd ioFlush) s

/-- I/O command Write runs the write path, merging partial units (R28). -/
def execWrite (cmd : Nat) (hostData : List Byte) (flash : List (Option FlashUnit)) (s : State) : Host.Outcome State Fault Refusal :=
  touching [.hstP, .mapP, .strP, .fchP, .memP, .keyP, .mteP, .ferP, .spnP] (fun s => onCmd s false 0x01 cmd (ioWrite hostData flash)) s

/-- I/O command Read runs the read path (R25). -/
def execRead (cmd : Nat) (flash : List (Option FlashUnit)) (s : State) : Host.Outcome State Fault Refusal :=
  touching [.hstP, .mapP, .strP, .fchP, .memP, .keyP, .mteP, .ferP, .spnP] (fun s => onCmd s false 0x02 cmd (ioRead flash)) s

/-- I/O command Compare reads and compares data (R121). -/
def execCompare (cmd : Nat) (hostData : List Byte) (flash : List (Option FlashUnit)) (s : State) : Host.Outcome State Fault Refusal :=
  touching [.hstP, .mapP, .strP, .fchP, .memP, .keyP, .mteP, .ferP, .spnP] (fun s => onCmd s false 0x05 cmd (ioCompare hostData flash)) s

/-- I/O command Write Zeroes zero-fills or deallocates the range (R183). -/
def execWriteZeroes (cmd : Nat) (flash : List (Option FlashUnit)) (s : State) : Host.Outcome State Fault Refusal :=
  touching [.hstP, .mapP, .strP, .fchP, .memP, .keyP, .mteP, .ferP, .spnP] (fun s => onCmd s false 0x08 cmd (ioWriteZeroes flash)) s

/-- I/O command Dataset Management deallocates whole units of its ranges (R183). -/
def execDatasetManagement (cmd : Nat) (ranges : List Byte) (s : State) : Host.Outcome State Fault Refusal :=
  touching [.hstP, .mapP, .strP, .fchP, .memP, .keyP, .mteP, .ferP, .spnP] (fun s => onCmd s false 0x09 cmd (ioDsm ranges)) s

/-- I/O command Verify reads through recovery and reconstruction and transfers nothing (R121). -/
def execVerify (cmd : Nat) (flash : List (Option FlashUnit)) (s : State) : Host.Outcome State Fault Refusal :=
  touching [.hstP, .mapP, .strP, .fchP, .memP, .keyP, .mteP, .ferP, .spnP] (fun s => onCmd s false 0x0C cmd (ioVerify flash)) s

/-- I/O command Reservation Register (R121). -/
def execReservationRegister (cmd : Nat) (hostData : List Byte) (s : State) : Host.Outcome State Fault Refusal :=
  touching [.hstP, .mapP] (fun s => onCmd s false 0x0D cmd (resvRegister hostData)) s

/-- I/O command Reservation Report (R121). -/
def execReservationReport (cmd : Nat) (s : State) : Host.Outcome State Fault Refusal :=
  touching [.hstP, .mapP] (fun s => onCmd s false 0x0E cmd resvReport) s

/-- I/O command Reservation Acquire (R121). -/
def execReservationAcquire (cmd : Nat) (hostData : List Byte) (s : State) : Host.Outcome State Fault Refusal :=
  touching [.hstP, .mapP] (fun s => onCmd s false 0x11 cmd (resvAcquire hostData)) s

/-- I/O command Reservation Release (R121). -/
def execReservationRelease (cmd : Nat) (hostData : List Byte) (s : State) : Host.Outcome State Fault Refusal :=
  touching [.hstP, .mapP] (fun s => onCmd s false 0x15 cmd (resvRelease hostData)) s

/-- I/O command Copy moves source ranges to a destination (R121). -/
def execCopy (cmd : Nat) (entries : List Byte) (flash : List (Option FlashUnit)) (s : State) : Host.Outcome State Fault Refusal :=
  touching [.hstP, .mapP, .strP, .fchP, .memP, .keyP, .mteP, .ferP, .spnP] (fun s => onCmd s false 0x19 cmd (ioCopy entries flash)) s

end Sys2Proof.Machine
end

