-- ==== Sys2Proof/Machine/KeyRows.lean ====
section
/-! DEFINITION. Meanings of the key store, entropy and digest commands that reach the block without a register access, and of match lookups and the sweep (R457 to R486). -/

namespace Sys2Proof.Machine

/-- A non-resident key slot is unwrapped from DRAM, evicting and rewrapping an LRU slot (R467). -/
def execKeyUnwrap (slot : BitVec 16) (intact : Bool) (s : State) : Host.Outcome State Fault Refusal :=
  touching [.keyP, .memP] (fun s => whenUp pKEY (fun s => keyUnwrap s slot.toNat intact) s) s

/-- Before PD09 goes off the key store wraps every slot and fills the key keep (R469). -/
def execKeyStoreSuspend (s : State) : Host.Outcome State Fault Refusal :=
  touching [.keyP, .memP] (fun s => whenUp pKEY keySuspend s) s

/-- When PD09 returns the key store reloads from the key keep and unwraps pinned slots (R469). -/
def execKeyStoreRestore (s : State) : Host.Outcome State Fault Refusal :=
  touching [.keyP, .memP] (fun s => whenUp pKEY keyRestore s) s

/-- An entropy sample fails its health tests (R481). -/
def execEntropyHealthFail (s : State) : Host.Outcome State Fault Refusal :=
  touching [.keyP] (fun s => whenUp pKEY entropyFail s) s

/-- Every RESEED_INTERVAL or 2^20 requests the DRBG reseeds, or becomes unseeded (R480). -/
def execDrbgReseed (elapsed : Nat) (s : State) : Host.Outcome State Fault Refusal :=
  touching [.keyP] (fun s => whenUp pKEY drbgReseed (advance s elapsed)) s

/-- After 1,024 passing samples the source recovers and the DRBG reseeds (R481). -/
def execEntropyRecovery (s : State) : Host.Outcome State Fault Refusal :=
  touching [.keyP] (fun s => whenUp pKEY entropyRecover s) s

/-- A DMA-mode digest finishes by itself after LEN bytes (R486). -/
def execDgeDmaDone (n : DgeIx) (hostBytes : List Byte) (s : State) : Host.Outcome State Fault Refusal :=
  touching [.keyP, .memP] (fun s => whenUp (pDGE n.val) (fun s => dgeDmaDone s n.val hostBytes) s) s

/-- The match engine resolves a lookup in 12 cycles within its partition (R457). -/
def execMatchLookup (part : Fin 16) (key : BitVec 160) (s : State) : Host.Outcome State Fault Refusal :=
  touching [.mteP] (fun s => whenUp pMTE (fun s => (matchLookup s part.val key).1) s) s

/-- Every SWEEP ms each entry's row and shadow are checked and repaired (R462). -/
def execMteSweep (elapsed : Nat) (s : State) : Host.Outcome State Fault Refusal :=
  touching [.mteP] (fun s => whenUp pMTE mteSweep (advance s elapsed)) s

end Sys2Proof.Machine
end

