-- ==== Sys2Proof/Machine/LaunchRows.lean ====
section
/-! DEFINITION. Launch actions delivered to the dispatcher (R90, R96, R379). -/

namespace Sys2Proof.Machine

/-- A PROGRAM_START action makes the named WAITING run slot READY (R379). -/
def execProgramStart (entry : Fin 1024) (s : State) : Host.Outcome State Fault Refusal :=
  touching [.sglP, .disP, .prgP] (fun s => deliver s entry.val 7 (fun s e => (runStarted (programStart s (fld e.arg 15 0)) (fld e.arg 15 0), 0)) (fun _ => pDIS)) s

/-- A USER_EVENT action copies the template slot into a free general slot and queues it (R379). -/
def execUserEvent (entry : Fin 1024) (s : State) : Host.Outcome State Fault Refusal :=
  touching [.sglP, .disP] (fun s => deliver s entry.val 8 (fun s e => (userEvent s e.arg, 0)) (fun _ => pDIS)) s

end Sys2Proof.Machine
end

