-- ==== Sys2Proof/Machine/MapRows.lean ====
section
/-! DEFINITION. Meanings of the map walker and block state table commands (R192 to R224). -/

namespace Sys2Proof.Machine

/-- The map walker resolves a unit through the write-buffer index, cache, host window and flash (R192). -/
def execMapLookup (handle : Fin 1024) (unit : BitVec 48) (s : State) : Host.Outcome State Fault Refusal :=
  touching [.memP, .fchP, .mapP, .strP] (fun s => whenUp pMAP (fun s => mapLookup s handle.val unit.toNat) s) s

/-- A map page read from flash fills its cache segment and refreshes its window slot (R192). -/
def execMapPageFill (handle : Fin 1024) (page : BitVec 37) (recovered : Bool) (s : State) : Host.Outcome State Fault Refusal :=
  touching [.memP, .fchP, .mapP, .strP] (fun s => whenUp pMAP (fun s => pageFill s handle.val page.toNat recovered) s) s

/-- A dirty map page is written back and journaled with DIR_UPDATE (R195). -/
def execMapWriteBack (handle : Fin 1024) (page : BitVec 37) (loc : BitVec 64) (s : State) : Host.Outcome State Fault Refusal :=
  touching [.memP, .fchP, .mapP, .strP] (fun s => whenUp pMAP (fun s => writeBack s handle.val page.toNat loc) s) s

/-- Enabling the Host Memory Buffer draws a fresh window key and starts the window empty (R196). -/
def execHmwEnable (granted : Nat) (s : State) : Host.Outcome State Fault Refusal :=
  touching [.memP, .fchP, .mapP, .strP, .keyP] (fun s => whenUp pMAP (fun s => hmwOpen s granted) s) s

/-- The map walker locks, journals and updates a map entry and its block counts (R203). -/
def execMapChange (change : MapChange) (s : State) : Host.Outcome State Fault Refusal :=
  touching [.memP, .fchP, .mapP, .strP] (fun s => whenUp pMAP (fun s => mapChange s change) s) s

/-- A map journal record becomes durable, releasing write-buffer space (R201). -/
def execJournalRecordDurable (s : State) : Host.Outcome State Fault Refusal :=
  touching [.memP, .fchP, .mapP, .strP] (fun s => whenUp pMAP journalDurable s) s

/-- Map changes held by a full journal ring resume when a checkpoint frees room (R205). -/
def execJournalRingFullHold (s : State) : Host.Outcome State Fault Refusal :=
  touching [.memP, .fchP, .mapP, .strP] (fun s => whenUp pMAP releaseHeld s) s

/-- A block changes state after its BLOCK_STATE record is durable (R212). -/
def execBlockStateChange (die : Fin 1024) (block : Fin 16384) (s : State) : Host.Outcome State Fault Refusal :=
  touching [.memP, .fchP, .mapP, .strP] (fun s => whenUp pMAP (fun s => blockStateChange s die.val block.val) s) s

/-- The oasis host part or a band fall starts migration to native blocks (R210). -/
def execMigrationStart (s : State) : Host.Outcome State Fault Refusal :=
  touching [.memP, .fchP, .mapP, .strP] (fun s => whenUp pMAP migrationStart s) s

/-- GC selects a victim block and moves its live units (R218). -/
def execGcVictimSelect (s : State) : Host.Outcome State Fault Refusal :=
  touching [.memP, .fchP, .mapP, .strP] (fun s => whenUp pMAP gcSelect s) s

/-- An erase-count spread above WL_DELTA makes the oldest closed block a victim (R222). -/
def execStaticWearLevel (die : Fin 1024) (s : State) : Host.Outcome State Fault Refusal :=
  touching [.memP, .fchP, .mapP, .strP] (fun s => whenUp pMAP (fun s => staticWear s die.val) s) s

/-- Each 1 ms in Throttle the host write admission rate is set from GC returns (R224). -/
def execThrottleWindow (elapsed : Nat) (s : State) : Host.Outcome State Fault Refusal :=
  touching [.memP, .fchP, .mapP, .strP] (fun s => whenUp pMAP throttleWindow (advance s elapsed)) s

end Sys2Proof.Machine
end

