-- ==== Sys2Proof/Machine/MemoryRows.lean ====
section
/-! DEFINITION. Meanings of the memory commands that reach a memory without an access on the fabric (R295 to R329). -/

namespace Sys2Proof.Machine

/-- A DRAM merge-buffer entry is read, merged and written back after its gather time or eviction (R304). -/
def execDramMergeRmw (n : DmcIx) (s : State) : Host.Outcome State Fault Refusal :=
  touching [.memP] (fun s => whenUp (pDMC n.val) (fun s => dramMergeDue s n.val) s) s

/-- An MRAM die stops answering or errs too often and is marked failed (R322). -/
def execMramDieFail (die : Fin 2) (s : State) : Host.Outcome State Fault Refusal :=
  touching [.memP] (fun s => whenUp pMRM (fun s => mrmDieFail s die.val) s) s

/-- A ring head entering a logical frame assigns it a fresh pool frame (R325). -/
def execMramFrameAssign (lframe : Fin 1552) (s : State) : Host.Outcome State Fault Refusal :=
  touching [.memP] (fun s => whenUp pMRM (fun s => frameEnter s lframe.val) s) s

/-- A cold frame too far below the pool is copied into the hottest pool frame (R326). -/
def execMramFrameSwap (s : State) : Host.Outcome State Fault Refusal :=
  touching [.memP] (fun s => whenUp pMRM frameSwap s) s

/-- A frame is retired from the pool, copying its contents first (R327). -/
def execMramFrameRetire (frame : Fin 1920) (s : State) : Host.Outcome State Fault Refusal :=
  touching [.memP] (fun s => whenUp pMRM (fun s => frameRetire s frame.val) s) s

/-- Wear credit returns and held MRAM writes proceed (R329). -/
def execWearMeterRelease (elapsed : Nat) (s : State) : Host.Outcome State Fault Refusal :=
  touching [.memP] (fun s => whenUp pMRM (fun s => wearRelease s elapsed) (advance s elapsed)) s

/-- Each DRAM controller trains its channel and retires failing ranks (R295). -/
def execDramTraining (n : DmcIx) (failed : BitVec 2) (s : State) : Host.Outcome State Fault Refusal :=
  touching [.memP] (fun s => whenUp (pDMC n.val) (fun s => dramTrain s n.val failed.toNat) s) s

/-- Each 1 ms the controllers read MR4 and switch the refresh interval (R297). -/
def execMr4TempRead (n : DmcIx) (elapsed : Nat) (code0 code1 : BitVec 4) (temp0 temp1 : Int) (s : State) : Host.Outcome State Fault Refusal :=
  touching [.memP] (fun s => whenUp (pDMC n.val) (fun s => mr4Read s n.val code0.toNat code1.toNat temp0 temp1) (advance s elapsed)) s

/-- ALERT_n signals a CA parity error; commands are reissued and the rank retired (R306). -/
def execCaParityAlert (n : DmcIx) (rank : Fin 2) (s : State) : Host.Outcome State Fault Refusal :=
  touching [.memP] (fun s => whenUp (pDMC n.val) (fun s => caParity s n.val rank.val) s) s

/-- The controller copies MIG_RATE lines per µs from the retired rank into the spare (R307). -/
def execRankMigrationStep (micros : Nat) (s : State) : Host.Outcome State Fault Refusal :=
  touching [.memP] (fun s => migrate s micros) s

/-- Before PD18 or PD19 goes off each rank enters self-refresh (R299). -/
def execSelfRefreshEntry (upper : Bool) (s : State) : Host.Outcome State Fault Refusal :=
  touching [.memP] (fun s => whenUp (pDMC (if upper then 4 else 0)) (fun s => if s.map.wb.isEmpty then selfRefreshEntry s upper else s) s) s

/-- On domain return each rank leaves self-refresh (R299). -/
def execSelfRefreshExit (upper : Bool) (s : State) : Host.Outcome State Fault Refusal :=
  touching [.memP] (fun s => whenUp (pDMC (if upper then 4 else 0)) (fun s => selfRefreshExit s upper) s) s

/-- At a refresh grid instant each DRAM controller closes its banks and issues REFab to every rank (R298). -/
def execRefreshInstant (elapsed : Nat) (s : State) : Host.Outcome State Fault Refusal :=
  touching [.memP] (fun s => refreshInstant (advance s elapsed)) s

end Sys2Proof.Machine
end

