-- ==== Sys2Proof/Machine/HostLogs.lean ====
section
/-! DEFINITION. Identify data structures and log pages (R113 to R115, R121, R122, R128 to R130, R139, R264). What the NVMe standard places in them is the standard's; what the spec does not state there is a free value. -/

namespace Sys2Proof.Machine

/-! ### Bytes -/

/-- Lay fields over a block of bytes; each is an offset and its bytes. -/
def layFields (l : List Byte) (fs : List (Nat × List Byte)) : List Byte :=
  fs.foldl (fun l f => l.take f.1 ++ f.2 ++ l.drop (f.1 + f.2.length)) l

/-- A structure of `n` bytes whose unstated bytes are free. -/
def openStruct (s : State) (n : Nat) (fs : List (Nat × List Byte)) : State × List Byte :=
  let (s, b) := takeBytes s n
  (s, layFields b fs)

/-- A list structure of `n` bytes: entries, then zeros. -/
def listStruct (n : Nat) (es : List (List Byte)) : List Byte := fit n es.flatten

/-! ### Identify (R120, R122, R128) -/

/-- The vendor bytes 3072 to 4095 of Identify Controller (R128). -/
def identifyVendor (s : State) (ctl : Nat) : List Byte :=
  let ch := s.com.chip
  let part := partitionMode s && !isPf ctl
  bytesLE 2 1 ++ bytesLE 1 (if ch.half then 0x55 else 0xFF) ++ bytesLE 1 (if ch.half then 0x0F else 0x3F)
    ++ bytesLE 1 ((if ch.slow then 4 else 8) + (if ch.gradeI then 16 else 0)) ++ bytesLE 1 (if ch.split then 1 else 0)
    ++ bytesLE 1 (if part then 1 else 0) ++ bytesLE 1 (if part then ctlFn ctl - 1 else 0xFF)
    ++ bytesLE 8 Config.tollVersion.toNat ++ bytesLE 4 (rd s pSCP SCP_REC_SEQ).toNat
    ++ bytesLE 4 (rd s pSPN SPN_GROUP_ID_LO).toNat
    ++ bytesLE 2 (rdF s pLCH LCH_HOST_FIRST 10 0) ++ bytesLE 2 1023 ++ bytesLE 4 0
    ++ fit 64 (match s.bot.meas.get? 3 with
      | some m => m.digest
      | none => []) ++ List.replicate 928 0

/-- Identify Controller (R113 to R115, R120, R121, R123, R128, R206, R588). -/
def identifyCtl (s : State) (ctl : Nat) : State × List Byte :=
  let cap := tnvmcap s
  openStruct s 4096 [(77, bytesLE 1 9), (78, bytesLE 2 ctl), (258, bytesLE 1 7), (259, bytesLE 1 15), (266, bytesLE 2 368), (268, bytesLE 2 378)
    , (280, bytesLE 16 cap), (296, bytesLE 16 (cap - nsAllocated s)), (512, [0x66, 0x44]), (516, bytesLE 4 1024), (525, [0]), (3072, identifyVendor s ctl)]

/-- Identify Namespace (R117, R121, R122). -/
def identifyNs (s : State) (x : Namespace) : State × List Byte :=
  let fmt := (if x.lba = 512 then 0 else 2) + (if x.meta_ = 0 then 0 else 1)
  let unit := x.unit / max 1 x.lba - 1
  openStruct s 4096 ([(0, bytesLE 8 x.size), (8, bytesLE 8 x.size), (16, bytesLE 8 x.size), (25, [3]), (26, bytesLE 1 fmt), (29, bytesLE 1 x.pi), (30, bytesLE 1 (if x.shared then 1 else 0))
    , (33, [1]), (34, bytesLE 2 unit), (36, bytesLE 2 unit), (74, bytesLE 2 65535), (76, bytesLE 4 262143), (80, [127])]
    ++ [(128, [0, 0, 9, 0, 8, 0, 9, 0, 0, 0, 12, 0, 8, 0, 12, 0])]
    ++ [(3072, bytesLE 1 (if x.mu16 then 1 else 0) ++ bytesLE 1 (if x.compress then 1 else 0) ++ bytesLE 1 (if x.du4k then 1 else 0) ++ List.replicate 1021 0)])

/-- NSIDs above one, ascending, that satisfy a test: up to 1,024. -/
def nsidList (s : State) (above : Nat) (p : Namespace → Bool) : List Byte :=
  listStruct 4096 ((((s.hst.ns.filter fun e => decide (above < e.1 + 1) && p e.2).map fun e => bytesLE 4 (e.1 + 1))).take 1024)

/-- A controller list: the count, then identifiers from one on. -/
def ctlList (l : List Nat) : List Byte := listStruct 4096 (bytesLE 2 (min 2047 l.length) :: (l.take 2047).map (bytesLE 2))

/-- The secondary controllers of a primary: the count, then 32-byte entries (R114). -/
def secondaries (s : State) (ctl first : Nat) : List Byte :=
  let l := (allCtls s).filter fun k => !isPf k && ctlPort k == ctlPort ctl && decide (first ≤ k)
  let entry (k : Nat) : List Byte :=
    let x := ctlOf s k
    bytesLE 2 k ++ bytesLE 2 (if ctlPort k then 64 else 0) ++ bytesLE 1 (if x.online then 1 else 0) ++ [0, 0, 0] ++ bytesLE 2 (ctlFn k) ++ bytesLE 2 x.vq ++ bytesLE 2 x.vi ++ List.replicate 18 0
  listStruct 4096 ((bytesLE 1 (min 127 l.length) ++ List.replicate 31 0) :: (l.take 127).map entry)

/-- Identify: the structure CNS names; the others end with Invalid Field (R120). -/
def identify (s : State) (c : HostCmd) : State × Reply :=
  let cns := cdwF c.sqe 10 7 0
  let cntid := cdwF c.sqe 10 31 16
  let nsid := sqeNsid c.sqe
  let give (r : State × List Byte) : State × Reply := (r.1, .done .success 0 r.2)
  let same (b : List Byte) : State × Reply := (s, .done .success 0 b)
  let here (x : Namespace) : Bool := x.attached.contains c.ctl
  match cns with
  | 0x00 => match nsAt? s nsid with
    | some x => if here x then give (identifyNs s x) else same (List.replicate 4096 0)
    | none => (s, .err .invalidNamespace)
  | 0x01 => give (identifyCtl s c.ctl)
  | 0x02 => same (nsidList s nsid here)
  | 0x07 => same (nsidList s nsid fun x => here x && kindOfCsi (cdwF c.sqe 11 31 24) == some x.kind)
  | 0x10 => same (nsidList s nsid fun _ => true)
  | 0x11 => match nsAt? s nsid with
    | some x => give (identifyNs s x)
    | none => (s, .err .invalidNamespace)
  | 0x12 => match nsAt? s nsid with
    | some x => same (ctlList (x.attached.filter fun k => decide (cntid ≤ k)))
    | none => (s, .err .invalidNamespace)
  | 0x13 => same (ctlList ((allCtls s).filter fun k => decide (cntid ≤ k)))
  | 0x15 => same (secondaries s c.ctl cntid)
  | 0x03 => if (nsAt? s nsid).isNone then (s, .err .invalidNamespace) else give (openStruct s 4096 [])
  | 0x04 => give (openStruct s 4096 [])
  | 0x05 => if (nsAt? s nsid).isNone then (s, .err .invalidNamespace) else give (openStruct s 4096 [])
  | 0x06 => give (openStruct s 4096 [])
  | 0x08 => if (nsAt? s nsid).isNone then (s, .err .invalidNamespace) else give (openStruct s 4096 [])
  | 0x14 => give (openStruct s 4096 [(0, bytesLE 2 c.ctl)])
  | 0x1C => give (openStruct s 4096 [])
  | 0x1F => give (openStruct s 4096 [])
  | _ => (s, .err .invalidField)
where
  /-- The kind a command set identifier stands for. -/
  kindOfCsi : Nat → Option NsKind
    | 0 => some .nvm | 1 => some .kv | 3 => some .memory | 4 => some .compute | _ => none

/-! ### Standard log pages (R129) -/

/-- SMART / Health Information: critical warnings, composite temperature in kelvin, Available Spare and its threshold (R223, R225, R588). -/
def smartPage (s : State) : State × List Byte :=
  let t := sgn 12 (rdF s pCLE CLE_TEMP_MAX 11 0) / 16 + 273
  let init := (rd s pMAP MAP_SPARE_INITIAL).toNat
  openStruct s 512 [(0, bytesLE 1 s.com.smart), (1, bytesLE 2 t.toNat), (3, bytesLE 1 (if init = 0 then 100 else min 100 (100 * (rd s pMAP MAP_SPARE_LEFT).toNat / init))), (4, [10])]

/-- Error Information: 256 entries, the newest first. -/
def errorPage (s : State) : State × List Byte :=
  let n := s.hst.errors.length
  let es := s.hst.errors.zipIdx.flatMap fun e =>
    [(64 * e.2, bytesLE 8 (n - e.2) ++ bytesLE 2 e.1.1 ++ bytesLE 2 e.1.2.1 ++ bytesLE 2 (2 * e.1.2.2.1.code)), (64 * e.2 + 32, bytesLE 8 e.1.2.2.2)]
  let (s, b) := openStruct s (64 * n) es
  (s, fit 16384 b)

/-- Firmware Slot Information: active and next slots, and a revision for each of 4 slots. -/
def slotPage (s : State) : State × List Byte :=
  openStruct s 512 [(0, bytesLE 1 (s.bot.active + 16 * s.bot.nextSlot.getD 0)), (1, List.replicate 7 0), (40, List.replicate 472 0)]

/-- Commands Supported and Effects: bit 0 of each admin and I/O opcode's dword. -/
def effectsPage (s : State) (k : NsKind) : State × List Byte :=
  let (s, b) := takeBytes s 2048
  let supp (i : Nat) : Bool := if i < 256 then adminOpcodes.contains i else (ioOpcodes k).contains (i - 256)
  (s, fit 4096 ((List.range 512).flatMap fun i => if supp i then bytesLE 4 (leAt b (4 * i) 4 / 2 * 2 + 1) else [0, 0, 0, 0]))

/-- A standard log page's bytes; reading the Changed Namespace List clears it. -/
def standardPage (s : State) (lid : Nat) (csi : Nat) : Option (State × List Byte) :=
  match lid with
  | 0x01 => some (errorPage s)
  | 0x02 => some (smartPage s)
  | 0x03 => some (slotPage s)
  | 0x04 =>
    let l := (List.range 1025).filter fun n => s.hst.changedNs.contains n
    some ({ s with hst := { s.hst with changedNs := [] } }, listStruct 4096 (l.map (bytesLE 4)))
  | 0x05 => some (effectsPage s (match csi with
    | 1 => .kv
    | 3 => .memory
    | 4 => .compute
    | _ => .nvm))
  | 0x06 => some (openStruct s 564 [(0, bytesLE 1 (match s.hst.selfTest with
    | some (k, t) => if k = 1 ∧ 120000000000 ≤ (s.com.time - t).toNat then 0 else k
    | none => 0))])
  | 0x07 => some (openStruct s 4096 [(0, [7])])
  | 0x08 => some (openStruct s 4096 [(0, [8])])
  | 0x09 => some (openStruct s 512 [(0, bytesLE 1 (s.com.smart / 8 % 2 * 8))])
  | 0x0D =>
    let es := s.fer.events.zipIdx.map fun e => (512 + 16 * e.2, bytesLE 4 e.1.code ++ bytesLE 4 e.1.a ++ bytesLE 8 e.1.b)
    some (openStruct s (512 + 16 * s.fer.events.length) ((0, [0x0D]) :: (4, bytesLE 4 s.fer.events.length) :: es))
  | 0x81 => some (openStruct s 512 [(0, bytesLE 2 65535), (2, bytesLE 2 (if s.hst.sanitized.1 = 0 then 0 else 1))])
  | _ => none

/-! ### Vendor log pages (R130, R139, R264) -/

/-- GEN of a page: it rises when the content differs from what was read last. `key` tells the pages of one LID apart. -/
def logGen (s : State) (key : Nat) (body : List Byte) : State × Nat :=
  let seen := ofBytesLE (body ++ [1])
  let g := s.hst.gens.getD (2 * key) 1
  if s.hst.gens.getD (2 * key + 1) 1 = seen then (s, g)
  else ({ s with hst := { s.hst with gens := (s.hst.gens.put (2 * key) (g + 1)).put (2 * key + 1) seen } }, g + 1)

/-- A vendor log page: the 64-byte header, then the entries (R130). -/
def vendorLog (s : State) (lid key size first flags : Nat) (es : List (List Byte)) : State × List Byte :=
  let body := es.flatten
  let (s, g) := logGen s key body
  (s, bytesLE 4 0x4C575151 ++ bytesLE 2 lid ++ bytesLE 2 1 ++ bytesLE 8 (64 + body.length) ++ bytesLE 8 g ++ bytesLE 4 es.length ++ bytesLE 4 size ++ bytesLE 4 first
    ++ bytesLE 4 flags ++ List.replicate 24 0 ++ body)

/-- Boot records kept, oldest first (R532). -/
def keptRecords (s : State) : List BootRecord := sortBy (fun a b => decide (a.seq ≤ b.seq)) ((s.bot.ring.map (·.2)).filter (·.intact))

/-- Rebuild reads a die still has to issue, in bytes: W − 1 for each page restored, one for a copy (R255, R256, R264). -/
def rebuildLeft (s : State) (d : Nat) : Nat :=
  let r := rebuildOf s d
  let pages := (r.todo.map fun b => match setOf? s d b with
    | some (_, e) => e.pages * (if r.state = .copyOut ∨ (r.state = .paused ∧ r.prev = .copyOut) then 1 else e.width - 1)
    | none => diePages s d).sum
  match r.state with
  | .none => 0
  | .done => 0
  | _ => pages * 16384

/-- The C1h summary entry (R264). -/
def arraySummary (s : State) : List Byte :=
  let dies := List.range 1024
  let left := (s.str.rebuilds.map fun e => rebuildLeft s e.1).sum
  let paused := s.str.rebuilds.any fun e => e.2.state == .paused
  let share := rebuildShare s
  let eta := if paused ∨ (left ≠ 0 ∧ share = 0) then 0xFFFFFFFF else if left = 0 then 0 else min 0xFFFFFFFE (cdiv left (share * 1000000000))
  bytesLE 1 (layoutWidth s) ++ bytesLE 1 (layoutProt s) ++ bytesLE 2 (rdF s pSTR STR_STATE 15 0) ++ bytesLE 8 (layoutSeed s) ++ bytesLE 4 (rdF s pSTR STR_SETS_OPEN 15 0)
    ++ bytesLE 4 s.str.stripes.length ++ bytesLE 8 s.str.unresync.length ++ bytesLE 1 share ++ bytesLE 1 (inF s pSTR STR_SHARE 15 8)
    ++ bytesLE 2 (dies.filter (hotSpare s)).length ++ bytesLE 8 (rd s pSTR STR_UNRECOVERABLE).toNat ++ bytesLE 8 left ++ bytesLE 4 eta ++ List.replicate 12 0

/-- A C1h die entry (R264). -/
def dieEntry (s : State) (d : Nat) : List Byte :=
  let r := rebuildOf s d
  let role := if dieRetired s d then 4 else if s.str.evacuating.contains d then 3 else if hotSpare s d then 2 else 1
  bytesLE 2 d ++ bytesLE 1 role ++ bytesLE 1 r.state.code ++ bytesLE 4 (if dieRetired s d then r.total else heldOn s d) ++ bytesLE 4 (s.str.reserve.getD d 0)
    ++ bytesLE 4 (s.str.substitutes.filter fun k => k / 16384 == d).length ++ bytesLE 4 r.done ++ bytesLE 4 r.total ++ bytesLE 4 r.unrecoverable
    ++ bytesLE 8 (if dieRetired s d then r.retiredAt else 0) ++ List.replicate 28 0

/-- A C4h record of a page: its index, LATCHED, and its offsets 0xF00 to 0xFFF as read (R139). -/
def snapRecord (s : State) (p : Nat) : List Byte :=
  bytesLE 2 p ++ bytesLE 1 (if rd s p rSNAP_SEQ = rd s pSGL SGL_SNAP_SEQ_CUR then 1 else 0) ++ List.replicate 13 0
    ++ (List.range 64).flatMap fun i => bytesLE 4 (rd s p (0xF00 + 4 * i)).toNat

/-- A stored statement's extract for a tenant (R543, R544). -/
def storedExtract (b : List Byte) (tenant : Nat) : List Byte :=
  (Statement.mk (leAt b 8 4) (b.take 4096) ((List.range 1024).map fun i => (b.drop (4096 + 64 * i)).take 64)).extract tenant

/-- A vendor log page's bytes; a VF reads C2h alone, as extracts for its tenant (R130, R544). -/
def vendorPage (s : State) (ctl lid : Nat) : Option (State × List Byte) :=
  if !isPf ctl then
    (if lid = 0xC2 then some (vendorLog s lid (0x1000 + ctl) 4864 0 0 (s.tol.stored.map fun b => storedExtract b (tenantOfCtl s ctl))) else none)
  else match lid with
    | 0xC0 =>
      let rs := keptRecords s
      some (vendorLog s lid lid 8192 ((rs.head?.map (·.seq)).getD 0) 0 (rs.map bootRecordBytes))
    | 0xC1 => some (vendorLog s lid lid 64 0 (if bit (rd s pSTR STR_STATE) 5 then 2 else 0) (arraySummary s :: ((List.range 1024).filter (diePresent s)).map (dieEntry s)))
    | 0xC2 => some (vendorLog s lid lid 69632 0 0 s.tol.stored)
    | 0xC3 => some (vendorLog s lid lid 64 0 0 (s.com.log.ring.map LogEntry.shown))
    | 0xC4 => some (vendorLog s lid lid 272 0 0 ((allPages.filter fun p => (pageKind? s.com.chip p).isSome).map (snapRecord s)))
    | _ => none

/-- Get Log Page: a piece of a page by byte offset (R120, R129, R130). -/
def getLogPage (s : State) (c : HostCmd) : State × Reply :=
  let lid := cdwF c.sqe 10 7 0
  let n := 4 * (cdwF c.sqe 11 15 0 * 65536 + cdwF c.sqe 10 31 16 + 1)
  let off := cdw c.sqe 12 + cdw c.sqe 13 * 2 ^ 32
  match (standardPage s lid (cdwF c.sqe 14 31 24)).orElse fun _ => vendorPage s c.ctl lid with
  | none => (s, .err .logPage)
  | some (t, b) => if off % 4 ≠ 0 ∨ b.length < off then (s, .err .invalidField) else (t, .done .success 0 (fit n (b.drop off)))

end Sys2Proof.Machine
end

