-- ==== Sys2Proof/Machine/HostMi.lean ====
section
/-! DEFINITION. Barchan Control, the management port, the NVMe-MI commands and the admin commands tunnelled through it (R131, R138, R145 to R147, R259, R263). -/

namespace Sys2Proof.Machine

/-! ### Barchan Control (R138, R263) -/

/-- Main firmware stages fields of `STR` and commits them at once; a rejection ends with Stage Rejected and leaves the staged copies as they were (R127, R138, R262). -/
def strCommit (s : State) (action : Nat) (fs : List (Nat × Word)) : State × Reply :=
  if commitHeld s pSTR then (s, .done .barchanBusy action [])
  else
    let old := fs.map fun f => (f.1, rd s pSTR f.1)
    let t := wrB (fs.foldl (fun s f => wr s pSTR f.1 f.2) s) pSTR rSTAGE_STATUS 28 true
    let r := stageCommit t (.crew 0 0) pSTR 0
    if r.2 / 16 = 2 then (old.foldl (fun s f => wr s pSTR f.1 f.2) r.1, .done .stageRejected (r.2 % 16 + pSTR * 65536) [])
    else (r.1, .ok)

/-- QUERY returns the C1h summary entry. -/
def barchanQuery (s : State) (_c : HostCmd) : State × Reply := (s, .done .success 0 (arraySummary s))

/-- SET_LAYOUT, before any namespace exists: WIDTH, PROT and SEED from a 16-byte buffer (R138, R263). -/
def barchanLayout (data : List Byte) (s : State) (_c : HostCmd) : State × Reply :=
  if !s.hst.ns.isEmpty then (s, .err .sequenceError)
  else if data.length ≠ 16 then (s, .err .sglLength)
  else if bAt data 1 > 1 ∨ !zerosAt data 2 6 then (s, .err .invalidField)
  else if bAt data 0 > 63 then (s, .done .stageRejected (1 + pSTR * 65536) [])
  else strCommit s 1 [(STR_LAYOUT, w32 (bAt data 1 * 256 + bAt data 0)), (STR_SEED_LO, w32 (leAt data 8 4)), (STR_SEED_HI, w32 (leAt data 12 4))]

/-- SET_SHARE: the rebuild share in per cent (R263). -/
def barchanShare (s : State) (c : HostCmd) : State × Reply :=
  strCommit s 2 [(STR_SHARE, setFld (rd s pSTR STR_SHARE) 7 0 (cdwF c.sqe 11 7 0))]

/-- SPARE_DIE sets the die's HOT_SPARE bit (R250, R263). -/
def barchanSpare (s : State) (c : HostCmd) : State × Reply :=
  let d := cdwF c.sqe 11 9 0
  let off := STR_HOT_SPARE + 4 * (d / 32)
  strCommit s 3 [(off, setBit (rd s pSTR off) (d % 32) true)]

/-- REBUILD requests a rebuild or copy-out of a die; one that runs for it already is a conflict (R256, R259, R263). -/
def barchanRebuild (s : State) (c : HostCmd) : State × Reply :=
  let d := cdwF c.sqe 11 9 0
  let busy := match (rebuildOf s d).state with
    | .fenced => true
    | .census => true
    | .restore => true
    | .copyOut => true
    | _ => false
  if busy then (s, .done .barchanBusy 4 []) else strCommit s 4 [(STR_REQUEST, w32 (2 ^ 30 + d))]

/-- RESYNC starts a whole-array pass, unless one runs (R246, R263). -/
def barchanResync (s : State) (_c : HostCmd) : State × Reply :=
  if bit (rd s pSTR STR_STATE) 4 then (s, .done .barchanBusy 5 []) else strCommit s 5 [(STR_REQUEST, w32 (2 ^ 31))]

/-! ### NVMe-MI commands (R147) -/

/-- What an NVMe-MI command answers: its status, 0 for success and 4 for a parameter the device does not take, and its data. -/
structure MiAnswer where
  status : Nat
  data : List Byte

/-- Success with data. -/
def MiAnswer.ok (d : List Byte) : MiAnswer := ⟨0, d⟩
/-- Invalid Parameter. -/
def MiAnswer.bad : MiAnswer := ⟨4, []⟩

/-- Read NVMe-MI Data Structure: 0 subsystem, 1 port, 2 controller list, 3 controller, 4 supported commands. -/
def miDataStructure (dtyp ctl : Nat) (s : State) : State × MiAnswer :=
  match dtyp with
  | 2 => (s, .ok (ctlList ((allCtls s).filter fun k => decide (ctl ≤ k))))
  | 3 => if ctlExists s ctl then (let r := openStruct s 32 []; (r.1, .ok r.2)) else (s, .bad)
  | 0 => let r := openStruct s 32 []; (r.1, .ok r.2)
  | 1 => let r := openStruct s 32 []; (r.1, .ok r.2)
  | 4 => (s, .ok (bytesLE 2 8 ++ (List.range 8).flatMap fun i => [8, BitVec.ofNat 8 i]))
  | _ => (s, .bad)

/-- Composite temperature in °C. -/
def miTemp (s : State) : Nat := (sgn 12 (rdF s pCLE CLE_TEMP_MAX 11 0) / 16).toNat

/-- Subsystem Health Status Poll: SMART warnings inverted, temperature, and the composite controller status, which `clear` clears. -/
def miSubsystemPoll (clear : Bool) (s : State) : State × MiAnswer :=
  let ccs := s.hst.mi.getD 0x100 0
  let (s, d) := openStruct s 8 [(1, bytesLE 1 (255 - s.com.smart % 256)), (2, bytesLE 1 (miTemp s)), (4, bytesLE 2 ccs)]
  ((if clear then { s with hst := { s.hst with mi := s.hst.mi.put 0x100 0 } } else s), .ok d)

/-- Controller Health Status Poll: 16 bytes for each controller from one on. -/
def miControllerPoll (first : Nat) (s : State) : State × MiAnswer :=
  let l := (allCtls s).filter fun k => decide (first ≤ k)
  let entry (k : Nat) : List Byte :=
    let x := ctlOf s k
    bytesLE 2 k ++ bytesLE 2 ((if x.ready then 1 else 0) + (if x.cfs then 2 else 0)) ++ bytesLE 2 (miTemp s + 273) ++ bytesLE 1 0 ++ bytesLE 1 0 ++ bytesLE 1 s.com.smart ++ List.replicate 7 0
  (s, .ok (l.take 255 |>.flatMap entry))

/-- Configuration identifiers: 1 SMBus/I2C frequency, 2 health status change, 3 MCTP transmission unit. -/
def miConfigIds : List Nat := [1, 2, 3]

/-- Configuration Set. -/
def miConfigSet (id v : Nat) (s : State) : State × MiAnswer :=
  if !miConfigIds.contains id then (s, .bad)
  else if id = 2 then ({ s with hst := { s.hst with mi := s.hst.mi.put 0x100 (s.hst.mi.getD 0x100 0 &&& (0xFFFF - v % 65536)) } }, .ok [])
  else ({ s with hst := { s.hst with mi := s.hst.mi.put id v } }, .ok [])

/-- Configuration Get: a value never set is a free one. -/
def miConfigGet (id : Nat) (s : State) : State × MiAnswer :=
  if !miConfigIds.contains id then (s, .bad)
  else match s.hst.mi.get? id with
    | some v => (s, .ok (bytesLE 4 v))
    | none => let r := takeBytes s 4; (r.1, .ok r.2)

/-- VPD Read; the VPD is the bytes written, zeros elsewhere, in 64 KiB. -/
def miVpdRead (off len : Nat) (s : State) : State × MiAnswer :=
  if 65536 < off + len then (s, .bad) else (s, .ok (fit len (s.hst.vpd.drop off)))

/-- VPD Write. -/
def miVpdWrite (off : Nat) (b : List Byte) (s : State) : State × MiAnswer :=
  if 65536 < off + b.length then (s, .bad)
  else
    let v := fit (max s.hst.vpd.length (off + b.length)) s.hst.vpd
    ({ s with hst := { s.hst with vpd := v.take off ++ b ++ v.drop (off + b.length) } }, .ok [])

/-- Reset: type 0 is the NVM Subsystem Reset; its ferry may run `micros`. -/
def miReset (kind micros : Nat) (s : State) : State × MiAnswer :=
  if kind = 0 then (subsystemReset s micros, .ok []) else (s, .bad)

/-! ### The management port (R145, R146) -/

/-- A request on the management port while PD01 is off wakes the device, source 3 (R146, R578). -/
def mgmtWake (s : State) : State := wake s 3

/-- A request arrives (R146). -/
def mgmtRequest (msg : List Byte) (s : State) : State :=
  mgmtWake { s with hst := { s.hst with mctpIn := s.hst.mctpIn ++ [msg] } }

/-- Opcode of an NVMe-MI Send or Receive's command, in dword 11. -/
def miOpcode (d : List Byte) : Nat := cdwF d 11 7 0

/-- An NVMe-MI command: in band, for the Send or Receive that carries its opcode, or on the management port (R146, R147). -/
def miRun (s : State) (inBand : Option Nat) (send : Bool) (op : Nat) (f : State → State × MiAnswer) : State :=
  match inBand with
  | some id => onCmd s true (if send then 0x1D else 0x1E) id fun s c =>
      if miOpcode c.sqe ≠ op then (s, .later)
      else
        let (s, a) := f s
        (s, .done (if a.status = 0 then .success else .invalidField) a.status a.data)
  | none =>
    let (s, a) := f (mgmtWake s)
    mgmtRespond s (bytesLE 1 a.status ++ [0, 0, 0] ++ a.data)

/-- NVMe-MI Send: Configuration Set, VPD Write and Reset, with dwords 12 and 13 as their request dwords (R147). -/
def miSend (data : List Byte) (micros : Nat) (s : State) (c : HostCmd) : State × Reply :=
  let d0 := cdw c.sqe 12
  let d1 := cdw c.sqe 13
  let fin (r : State × MiAnswer) : State × Reply := (r.1, .done (if r.2.status = 0 then .success else .invalidField) r.2.status r.2.data)
  match miOpcode c.sqe with
  | 3 => fin (miConfigSet (d0 % 256) d1 s)
  | 6 => fin (miVpdWrite (d0 % 65536) (data.take (d1 % 65536)) s)
  | 7 => fin (miReset (d0 / 2 ^ 24) micros s)
  | _ => (s, .err .invalidField)

/-- NVMe-MI Receive: the commands that return data (R147). -/
def miReceive (s : State) (c : HostCmd) : State × Reply :=
  let d0 := cdw c.sqe 12
  let d1 := cdw c.sqe 13
  let fin (r : State × MiAnswer) : State × Reply := (r.1, .done (if r.2.status = 0 then .success else .invalidField) r.2.status r.2.data)
  match miOpcode c.sqe with
  | 0 => fin (miDataStructure (d0 / 2 ^ 24) (d0 % 65536) s)
  | 1 => fin (miSubsystemPoll (d1 / 2 ^ 31 == 1) s)
  | 2 => fin (miControllerPoll (d0 % 65536) s)
  | 4 => fin (miConfigGet (d0 % 256) s)
  | 5 => fin (miVpdRead (d0 % 65536) (d1 % 65536) s)
  | _ => (s, .err .invalidField)

/-! ### Tunnelled admin commands (R147) -/

/-- What a tunnelled command runs; none for one that is refused with Invalid Command Opcode. -/
def tunnelled (data : List Byte) (d : List Byte) : Option (State → HostCmd → State × Reply) :=
  match sqeOp d with
  | 0x02 => some getLogPage
  | 0x06 => some identify
  | 0x0A => some getFeatures
  | 0x10 => some (firmwareCommit [])
  | 0x11 => some (firmwareDownload data)
  | 0x81 => some (if secProtocol d = 0xF0 then (match secSpsp d with
      | 0x10 => policyInstall data
      | 0x11 => counterSend data
      | 0x12 => boardWrite data
      | 0x20 => spanKeyInstall data false
      | _ => fun s _ => (s, .err .invalidField)) else securitySend .none)
  | 0x82 => some (if secProtocol d = 0xF0 then (match secSpsp d with
      | 0x01 => fun s _ => (s, .done .success 0 chainBytes)
      | 0x02 => fun s _ => (s, .done .success 0 s.bot.policy)
      | 0x03 => fun s _ => (s, .done .success 0 (counterBytes s))
      | 0x04 => fun s _ => (s, .done .success 0 s.bot.board)
      | _ => fun s _ => (s, .err .invalidField)) else securityReceive)
  | 0xC2 => some tollStatement
  | _ => none

/-- A tunnelled admin command is carried out as the PF of port A would carry it out; one that waits answers when its completion is posted (R147). -/
def tunnelAdmin (sqe data : List Byte) (s : State) : State :=
  let s := mgmtWake s
  let c : HostCmd :=
    { id := s.hst.nextId, ctl := 0, q := mgmtQueue, cid := sqeCid sqe, sqe := sqe, dataLen := data.length, keySlot := none, room := 0, state := .fetched
      reply := [], units := [], until_ := 0 }
  match tunnelled data sqe with
  | none => mgmtRespond s (tunnelReply .invalidOpcode 0 [])
  | some f =>
    let s := { s with hst := { s.hst with cmds := s.hst.cmds ++ [c], nextId := s.hst.nextId + 1 } }
    match f s c with
    | (s, .done st dw0 d) => mgmtRespond { s with hst := { s.hst with cmds := s.hst.cmds.filter fun y => y.id != c.id } } (tunnelReply st dw0 d)
    | (s, .wait) => showNqe (putCmd s { (cmdOf? s c.id).getD c with state := .waiting })
    | (s, .later) => mgmtRespond { s with hst := { s.hst with cmds := s.hst.cmds.filter fun y => y.id != c.id } } (tunnelReply .invalidField 0 [])

end Sys2Proof.Machine
end

