-- ==== Sys2Proof/Machine/MiRows.lean ====
section
/-! DEFINITION. Meanings of Identify, Get Log Page, Barchan Control, the NVMe-MI commands and the management port (R128 to R131, R138, R139, R145 to R147, R263). -/

namespace Sys2Proof.Machine

/-- Admin command Get Log Page returns a standard or vendor log page piece (R130). -/
def execGetLogPage (cmd : Nat) (s : State) : Host.Outcome State Fault Refusal :=
  touching [.hstP, .mapP] (fun s => onCmd s true 0x02 cmd getLogPage) s

/-- Admin command Identify returns the selected data structure with the device's own fields (R128). -/
def execIdentify (cmd : Nat) (s : State) : Host.Outcome State Fault Refusal :=
  touching [.hstP, .mapP] (fun s => onCmd s true 0x06 cmd identify) s

/-- Admin command NVMe-MI Send carries an NVMe-MI command in band (R147). -/
def execNvmeMiSend (cmd : Nat) (hostData : List Byte) (micros : Nat) (s : State) : Host.Outcome State Fault Refusal :=
  touching allParts (fun s => onCmd s true 0x1D cmd (miSend hostData micros)) s

/-- Admin command NVMe-MI Receive carries an NVMe-MI command in band (R147). -/
def execNvmeMiReceive (cmd : Nat) (s : State) : Host.Outcome State Fault Refusal :=
  touching [.hstP, .mapP] (fun s => onCmd s true 0x1E cmd miReceive) s

/-- Barchan Control QUERY returns the C1h summary entry (R263). -/
def execBarchanQuery (cmd : Nat) (s : State) : Host.Outcome State Fault Refusal :=
  touching [.hstP, .mapP] (fun s => onVendor s 0xC6 0 cmd barchanQuery) s

/-- Barchan Control SET_LAYOUT commits width, protection and seed (R263). -/
def execBarchanSetLayout (cmd : Nat) (hostData : List Byte) (s : State) : Host.Outcome State Fault Refusal :=
  touching allParts (fun s => onVendor s 0xC6 1 cmd (barchanLayout hostData)) s

/-- Barchan Control SET_SHARE commits the rebuild share (R263). -/
def execBarchanSetShare (cmd : Nat) (s : State) : Host.Outcome State Fault Refusal :=
  touching allParts (fun s => onVendor s 0xC6 2 cmd barchanShare) s

/-- Barchan Control SPARE_DIE sets a die's HOT_SPARE bit (R263). -/
def execBarchanSpareDie (cmd : Nat) (s : State) : Host.Outcome State Fault Refusal :=
  touching allParts (fun s => onVendor s 0xC6 3 cmd barchanSpare) s

/-- Barchan Control REBUILD requests a rebuild or copy-out of a die (R263). -/
def execBarchanRebuild (cmd : Nat) (s : State) : Host.Outcome State Fault Refusal :=
  touching allParts (fun s => onVendor s 0xC6 4 cmd barchanRebuild) s

/-- Barchan Control RESYNC starts a whole-array resynchronisation (R263). -/
def execBarchanResync (cmd : Nat) (s : State) : Host.Outcome State Fault Refusal :=
  touching allParts (fun s => onVendor s 0xC6 5 cmd barchanResync) s

/-- A side-band MCTP request arrives on the management port and may wake PD01 (R146). -/
def execMgmtRequest (msg : List Byte) (elapsed : Nat) (s : State) : Host.Outcome State Fault Refusal :=
  touching [.hstP, .pwrP] (fun s => mgmtRequest msg (advance s elapsed)) s

/-- NVMe-MI command Read NVMe-MI Data Structure (R147). -/
def execReadNvmeMiDataStructure (dtyp : BitVec 8) (ctl : BitVec 16) (inBand : Option Nat) (s : State) : Host.Outcome State Fault Refusal :=
  touching [.hstP, .mapP, .pwrP] (fun s => miRun s inBand false 0 (miDataStructure dtyp.toNat ctl.toNat)) s

/-- NVMe-MI command Subsystem Health Status Poll (R147). -/
def execSubsystemHealthStatusPoll (clear : Bool) (inBand : Option Nat) (s : State) : Host.Outcome State Fault Refusal :=
  touching [.hstP, .mapP, .pwrP] (fun s => miRun s inBand false 1 (miSubsystemPoll clear)) s

/-- NVMe-MI command Controller Health Status Poll (R147). -/
def execControllerHealthStatusPoll (first : BitVec 16) (inBand : Option Nat) (s : State) : Host.Outcome State Fault Refusal :=
  touching [.hstP, .mapP, .pwrP] (fun s => miRun s inBand false 2 (miControllerPoll first.toNat)) s

/-- NVMe-MI command Configuration Set (R147). -/
def execConfigurationSet (id : BitVec 8) (value : Word) (inBand : Option Nat) (s : State) : Host.Outcome State Fault Refusal :=
  touching [.hstP, .mapP, .pwrP] (fun s => miRun s inBand true 3 (miConfigSet id.toNat value.toNat)) s

/-- NVMe-MI command Configuration Get (R147). -/
def execConfigurationGet (id : BitVec 8) (inBand : Option Nat) (s : State) : Host.Outcome State Fault Refusal :=
  touching [.hstP, .mapP, .pwrP] (fun s => miRun s inBand false 4 (miConfigGet id.toNat)) s

/-- NVMe-MI command VPD Read (R147). -/
def execVpdRead (off len : BitVec 16) (inBand : Option Nat) (s : State) : Host.Outcome State Fault Refusal :=
  touching [.hstP, .mapP, .pwrP] (fun s => miRun s inBand false 5 (miVpdRead off.toNat len.toNat)) s

/-- NVMe-MI command VPD Write (R147). -/
def execVpdWrite (off : BitVec 16) (bytes : List Byte) (inBand : Option Nat) (s : State) : Host.Outcome State Fault Refusal :=
  touching [.hstP, .mapP, .pwrP] (fun s => miRun s inBand true 6 (miVpdWrite off.toNat bytes)) s

/-- NVMe-MI command Reset (R147). -/
def execNvmeMiReset (kind : BitVec 8) (inBand : Option Nat) (micros : Nat) (s : State) : Host.Outcome State Fault Refusal :=
  touching allParts (fun s => miRun s inBand true 7 (miReset kind.toNat micros)) s

/-- A side-band tunnelled admin command is run or refused (R147). -/
def execTunnelledAdminCommand (sqe : BitVec 512) (hostData : List Byte) (s : State) : Host.Outcome State Fault Refusal :=
  touching allParts (fun s => tunnelAdmin (bytesLE 64 sqe.toNat) hostData s) s

end Sys2Proof.Machine
end

