-- ==== Sys2Proof/Machine/Nelius.lean ====
section
/-! DEFINITION. The Nelius instruction set: fetch, operand and special registers, local windows and bank registers, loads and stores, jumps, atomics and custom instructions (R340 to R366). -/

namespace Sys2Proof.Machine

/-! ### Fetch and issue (R340, R346, R359) -/

/-- Does a window of `ITW`, `DTW` or `CSW` cover unit `u`? `hi` is the top bit of its LIMIT (R348). -/
def inWindow (w : Word) (hi u : Nat) : Bool := decide (fld w 9 0 ≤ u) && decide (u < fld w hi 16)

/-- Mark the log entries of what follows as injected, or no longer (R613). -/
def setInjecting (s : State) (b : Bool) : State := { s with com := { s.com with injecting := b } }

/-- A TCM word as an access reads it: an armed injection strikes it first; a bucket overflow retires a core (R314, R370, R372). The result says whether it is readable. -/
def tcmAccess (s : State) (n : Fin 48) (m : LocalMem) (off : Nat) (codes : List Nat) : State × Bool :=
  let was := s.com.injecting
  let (s, a) := nclArmed s n codes
  let x := coreOf s n
  let s := match a with
    | none => s
    | some code =>
      let e : WordErr := if code = 1 then .single else .double
      setInjecting (putCore s n (if m = .itcm then { x with itcmErr := x.itcmErr.put (off / 4) e } else { x with dtcmErr := x.dtcmErr.put (off / 4) e })) true
  let (t, ok, _) := tcmWord s n m off
  (setInjecting (nclEscalate s t (cluNo n)) was, ok)

/-- A fetch at PC: the trap code it meets, or none. An address that may not be fetched is not read (R340, R346, R359). -/
def fetch (s : State) (n : Fin 48) : State × Option Nat :=
  let x := coreOf s n
  let p := x.pc.toNat
  if 0x10000 ≤ p ∨ p % 4 ≠ 0 ∨ (x.psg && !inWindow x.itw 26 (p / 64)) = true then (s, some 2)
  else
    let (s, ok) := tcmAccess s n .itcm p [3]
    (s, if ok then none else some 1)

/-- One instruction of a running core: fetched, then `body`; a load that waits for the core goes on when its item has ended (R354, R368). -/
def issue (s : State) (c : Clu) (k : CoreIx) (body : State → Fin 48 → State) : State :=
  let n := coreNo c k
  if (coreOf s n).mode ≠ .run ∨ pageUp s (pNCL c.val) = false then s
  else
    let pc := (coreOf s n).pc
    let s := match fetch s n with
      | (s, some 2) => trap s n 2 0 (some pc) pc
      | (s, some code) => trap s n code 0 none pc
      | (s, none) => if (coreOf s n).mode = .run then body s n else s
    loadProceed s c

/-- A trap at the instruction that runs: TRAP_RET is its address (R357). -/
def trapHere (s : State) (n : Fin 48) (code sub : Nat) (addr : Option Word) : State := trap s n code sub addr (coreOf s n).pc

/-- An instruction completes: its registers, and PC + 4. A core that its own access stopped keeps its PC. -/
def finish (s : State) (n : Fin 48) (f : Core → Core) : State :=
  let x := coreOf s n
  if x.mode = .run then setCore s n { f x with pc := x.pc + 4 } else s

/-- A jump: registers, then the target, which traps when it is misaligned or outside I-TCM (R352). -/
def jumpTo (s : State) (n : Fin 48) (f : Core → Core) (target : Word) : State :=
  let x := f (coreOf s n)
  if 0x10000 ≤ target.toNat ∨ target.toNat % 4 ≠ 0 then trap (putCore s n x) n 2 0 (some target) target
  else setCore s n { x with pc := target }

/-- An instruction with a reserved field that must be 0 (R349). -/
def reservedZero (s : State) (n : Fin 48) (resv : Nat) (f : State → State) : State :=
  if resv = 0 then f s else trapHere s n 3 0 none

/-! ### Arithmetic (R350, R351) -/

/-- The ALU functions of R351 up to 0x0B, by code. -/
def aluOp (fn : Nat) (a b : Word) : Word :=
  match fn with
  | 0x00 => a + b
  | 0x01 => a - b
  | 0x02 => a &&& b
  | 0x03 => a ||| b
  | 0x04 => a ^^^ b
  | 0x05 => ~~~(a ||| b)
  | 0x06 => a <<< (b.toNat % 32)
  | 0x07 => a >>> (b.toNat % 32)
  | 0x08 => a.sshiftRight (b.toNat % 32)
  | 0x09 => if a.slt b then 1 else 0
  | 0x0A => if a.ult b then 1 else 0
  | _ => a.rotateRight (b.toNat % 32)

/-- Multiplication: 0 the low word, 1 the signed and 2 the unsigned high word (R351, R363). -/
def mulOp (fn : Nat) (a b : Word) : Word :=
  match fn with
  | 0 => a * b
  | 1 => BitVec.ofInt 32 (a.toInt * b.toInt / 2 ^ 32)
  | _ => BitVec.ofNat 32 (a.toNat * b.toNat / 2 ^ 32)

/-- DIV: rounds toward zero; by 0 it gives all ones (R351). -/
def divOp (a b : Word) : Word := if b = 0 then 0xFFFFFFFF else a.sdiv b

/-- DIVU (R351). -/
def divuOp (a b : Word) : Word := if b = 0 then 0xFFFFFFFF else a.udiv b

/-- REM: the sign of the dividend; by 0 it gives the dividend (R351). -/
def remOp (a b : Word) : Word := if b = 0 then a else a.srem b

/-- REMU (R351). -/
def remuOp (a b : Word) : Word := if b = 0 then a else a.umod b

/-- The comparisons of R350 and R363: EQ, NE, LT, GE, LTU, GEU. -/
def condOp (fn : Nat) (a b : Word) : Bool :=
  match fn with
  | 0 => a == b
  | 1 => a != b
  | 2 => a.slt b
  | 3 => !a.slt b
  | 4 => a.ult b
  | _ => !a.ult b

/-- An R-format ALU instruction (R350, R351). -/
def aluR (s : State) (n : Fin 48) (f : Word → Word → Word) (rd rs1 rs2 : RegIx) (resv : BitVec 5) : State :=
  reservedZero s n resv.toNat fun s => finish s n fun x : Core => x.setReg rd (f (x.reg rs1) (x.reg rs2))

/-- An I-format ALU instruction with its extended immediate (R350). -/
def aluI (s : State) (n : Fin 48) (f : Word → Word → Word) (rd rs1 : RegIx) (imm : Word) : State :=
  finish s n fun x : Core => x.setReg rd (f (x.reg rs1) imm)

/-! ### Where an access goes (R344 to R347) -/

/-- What a core address reaches: local memory, a device address, or the SUB of a data-access trap. -/
inductive Reach where
  | itcm (off : Nat)
  | dtcm (off : Nat)
  | store (off : Nat)
  | device (addr : Nat)
  | bad (sub : Nat)
  deriving DecidableEq, Repr

/-- May a passenger use a register page? A write needs the W bit of an entry that names it (R346, R348). -/
def pageGranted (x : Core) (page : Nat) (write : Bool) : Bool :=
  x.pg.toList.any fun e => bit e 31 && fld e 11 0 == page && (!write || bit e 30)

/-- A core address resolved through its bank register, with the passenger's grants; of several subcauses the lowest (R344 to R347, R360). -/
def reach (x : Core) (a : Word) (width : Nat) (write : Bool) : Reach :=
  let v := a.toNat
  let bank := v / 2 ^ 30
  if bank = 0 then
    if v < 0x10000 then (if x.psg then .bad 6 else .itcm v)
    else if v < 0x20000 then (if x.psg && !inWindow x.dtw 26 ((v - 0x10000) / 64) then .bad 6 else .dtcm (v - 0x10000))
    else if 0x100000 ≤ v ∧ v < 0x300000 then (if x.psg && !inWindow x.csw 25 ((v - 0x100000) / 4096) then .bad 6 else .store (v - 0x100000))
    else if 0x10000000 ≤ v ∧ v < 0x11000000 then
      (if x.psg && !pageGranted x ((v - 0x10000000) / 4096) write then .bad 5
       else if width ≠ 4 then .bad 7
       else .device (0xF0000000 + (v - 0x10000000)))
    else .bad 6
  else
    let bk := x.bk[bank % 4]
    let off := v % 2 ^ 30
    if x.psg && !bit bk 31 then .bad 2
    else if x.psg && write && !bit bk 30 then .bad 3
    else if x.psg && decide (fld x.bl[bank % 4] 18 0 * 4096 ≤ off) then .bad 4
    else .device (fld bk 17 0 * 2 ^ 30 + off)

/-- A core as the initiator of an access: tagged with its mode (R346). -/
def coreWho (s : State) (n : Fin 48) : Initiator :=
  if (coreOf s n).psg then .passenger (cluNo n) (coreIx n) else .crew (cluNo n) (coreIx n)

/-- What an access of a core met: the value, a trap, or a crossing that holds it, which stalls the core (R16, R355). -/
inductive CoreMet where
  | ok (v : Word)
  | trap (code sub : Nat)
  | stall
  deriving DecidableEq, Repr

/-- An access of a core to the fabric; one that a crossing holds is not issued (R16, R355, R359). -/
def deviceAccess (s : State) (n : Fin 48) (a : HeldAccess) (host : List Byte) : State × CoreMet :=
  let who := coreWho s n
  let a := { a with who := who }
  if (fabricCause s a).isNone && (heldAt s who (targetOf s a.addr)).isSome then (s, .stall)
  else match access s a host 0 with
    | (s, .data b) => (s, .ok (w32 (ofBytesLE b)))
    | (s, .refused _) => (s, .trap 6 1)
    | (s, .uncorrectable) => (s, if a.write then .ok 0 else .trap 7 0)
    | (s, _) => (s, .ok 0)

/-- A cluster-store word is read; an armed injection strikes it first (R314, R340, R370). -/
def storeAccess (s : State) (n : Fin 48) (off width : Nat) : State × CoreMet :=
  let c := cluNo n
  let was := s.com.injecting
  let (s, a) := nclArmed s n [5]
  let s := if a.isSome then setInjecting (putClu s c { cluOf s c with storeErr := (cluOf s c).storeErr.put (off / 8) .double }) true else s
  let (t, b) := storeRead s c (coreIx n) off width
  let t := setInjecting (nclEscalate s t c) was
  match b with
  | some b => (t, .ok (w32 (ofBytesLE b)))
  | none => (t, .trap 7 0)

/-- A load of `width` bytes, zero-extended (R344 to R347, R359). -/
def loadFrom (s : State) (n : Fin 48) (r : Reach) (width : Nat) (host : List Byte) : State × CoreMet :=
  match r with
  | .bad sub => (s, .trap 6 sub)
  | .itcm off =>
    let (s, ok) := tcmAccess s n .itcm off []
    (s, if ok then .ok (w32 (ofBytesLE (tcmBytes s n .itcm off width))) else .trap 7 0)
  | .dtcm off =>
    let (s, ok) := tcmAccess s n .dtcm off [1, 2]
    (s, if ok then .ok (w32 (ofBytesLE (tcmBytes s n .dtcm off width))) else .trap 7 0)
  | .store off => storeAccess s n off width
  | .device a => deviceAccess s n ⟨coreWho s n, false, a, width, []⟩ host

/-- A store of bytes; a store that is refused traps as well (R344 to R347, R359). -/
def storeTo (s : State) (n : Fin 48) (r : Reach) (b : List Byte) : State × CoreMet :=
  match r with
  | .bad sub => (s, .trap 6 sub)
  | .itcm off => (tcmWrite s n .itcm off b, .ok 0)
  | .dtcm off => (tcmWrite s n .dtcm off b, .ok 0)
  | .store off => (nclEscalate s (storeWrite s (cluNo n) (coreIx n) off b) (cluNo n), .ok 0)
  | .device a => deviceAccess s n ⟨coreWho s n, true, a, b.length, b⟩ []

/-! ### Loads and stores (R350) -/

/-- A narrow value sign-extended to a word. -/
def signExtend (width : Nat) (v : Word) : Word := BitVec.ofInt 32 (sgn (8 * width) v.toNat)

/-- A load: `base` is what a post-increment form does to its registers (R350, R357). -/
def loadInto (s : State) (n : Fin 48) (a : Word) (width : Nat) (signed : Bool) (rd : RegIx) (host : Word) (base : Core → Core) : State :=
  if a.toNat % width ≠ 0 then trapHere s n 5 0 (some a)
  else match loadFrom s n (reach (coreOf s n) a width false) width (bytesLE 4 host.toNat) with
    | (s, .ok v) => finish s n fun x : Core => (base x).setReg rd (if signed then signExtend width v else v)
    | (s, .trap code sub) => trapHere s n code sub (if code = 6 then some a else none)
    | (_, .stall) => answer s .held

/-- A load with an offset (R350). -/
def load (s : State) (n : Fin 48) (width : Nat) (signed : Bool) (rd rs1 : RegIx) (imm : BitVec 16) (host : Word) : State :=
  loadInto s n ((coreOf s n).reg rs1 + imm.signExtend 32) width signed rd host id

/-- A post-increment load; `rd` equal to `rs1` is reserved (R350). -/
def loadPost (s : State) (n : Fin 48) (width : Nat) (signed : Bool) (rd rs1 : RegIx) (imm : BitVec 16) (host : Word) : State :=
  if rd = rs1 then trapHere s n 3 0 none
  else loadInto s n ((coreOf s n).reg rs1) width signed rd host fun x : Core => x.setReg rs1 (x.reg rs1 + imm.signExtend 32)

/-- A store; `base` as for a load (R350). -/
def storeFrom (s : State) (n : Fin 48) (a : Word) (width : Nat) (rt : RegIx) (base : Core → Core) : State :=
  if a.toNat % width ≠ 0 then trapHere s n 5 0 (some a)
  else match storeTo s n (reach (coreOf s n) a width true) (bytesLE width ((coreOf s n).reg rt).toNat) with
    | (s, .ok _) => finish s n base
    | (s, .trap code sub) => trapHere s n code sub (if code = 6 then some a else none)
    | (_, .stall) => answer s .held

/-- A store with an offset (R350). -/
def store (s : State) (n : Fin 48) (width : Nat) (rt rs1 : RegIx) (imm : BitVec 16) : State :=
  storeFrom s n ((coreOf s n).reg rs1 + imm.signExtend 32) width rt id

/-- A post-increment store (R350). -/
def storePost (s : State) (n : Fin 48) (width : Nat) (rt rs1 : RegIx) (imm : BitVec 16) : State :=
  storeFrom s n ((coreOf s n).reg rs1) width rt fun x : Core => x.setReg rs1 (x.reg rs1 + imm.signExtend 32)

/-- An atomic on an aligned word of the cluster store: rd receives the old value, `f` of the old value, rs2 and rd's old value is the new one (R353). -/
def atomic (s : State) (n : Fin 48) (f : Word → Word → Word → Word) (rd rs1 rs2 : RegIx) (resv : BitVec 5) : State :=
  reservedZero s n resv.toNat fun s =>
    let x := coreOf s n
    let a := x.reg rs1
    if a.toNat % 4 ≠ 0 then trapHere s n 5 0 (some a)
    else if a.toNat < 0x100000 ∨ 0x300000 ≤ a.toNat then trapHere s n 6 8 (some a)
    else match reach x a 4 true with
      | .store off => match storeAccess s n off 4 with
        | (s, .ok old) =>
          let (s, _) := storeTo s n (.store off) (bytesLE 4 (f old (x.reg rs2) (x.reg rd)).toNat)
          finish s n fun x : Core => x.setReg rd old
        | (s, _) => trapHere s n 7 0 none
      | _ => trapHere s n 6 6 (some a)

/-! ### Branches and jumps (R349, R350, R352) -/

/-- A branch, taken or not. -/
def branch (s : State) (n : Fin 48) (taken : Core → Bool) (off : BitVec 16) : State :=
  let x := coreOf s n
  if taken x then jumpTo s n id (x.pc + off.signExtend 32 * 4) else finish s n id

/-- Compare two registers and branch. -/
def cb (s : State) (n : Fin 48) (fn : Nat) (rs1 rs2 : RegIx) (off : BitVec 16) : State :=
  branch s n (fun x : Core => condOp fn (x.reg rs1) (x.reg rs2)) off

/-- Compare a register with a 5-bit immediate, signed but for the unsigned comparisons, and branch (R350). -/
def cbi (s : State) (n : Fin 48) (fn : Nat) (rs1 : RegIx) (imm : BitVec 5) (off : BitVec 16) : State :=
  branch s n (fun x : Core => condOp fn (x.reg rs1) (if fn < 4 then imm.signExtend 32 else imm.setWidth 32)) off

/-- A jump to a target computed from the core; a call writes lk with the address + 4 (R342, R350, R352). -/
def jump (s : State) (n : Fin 48) (call : Bool) (target : Core → Word) : State :=
  let x := coreOf s n
  jumpTo s n (fun x : Core => if call then { x with lk := x.pc + 4 } else x) (target x)

/-- TRET: crew only (R352, R356). -/
def tret (s : State) (n : Fin 48) : State :=
  let x := coreOf s n
  if x.psg then trapHere s n 4 0 none else jumpTo s n (fun x : Core => { x with runmode := x.trapMode }) x.trapRet

/-- TRAP: vector 8, with the address + 4 in TRAP_RET (R352, R357). -/
def trapInstr (s : State) (n : Fin 48) (code : BitVec 5) : State := trap s n 8 code.toNat none ((coreOf s n).pc + 4)

/-- ENDW: the current work item ends (R352, R386). -/
def endw (s : State) (n : Fin 48) : State := endItem s n

/-! ### Special registers (R348) -/

/-- Is a special register number listed? (R348) -/
def specialListed (i : Nat) : Bool := i != 0x0C && i != 0x1B && i != 0x1F

/-- May a passenger read it? (R348) -/
def passengerReads (i : Nat) : Bool := i == 6 || (decide (8 ≤ i) && decide (i ≤ 0xB)) || (decide (0x1C ≤ i) && decide (i ≤ 0x1E))

/-- What a special register reads (R345, R348). -/
def readSpecial (s : State) (n : Fin 48) (i : Nat) : Word :=
  let x := coreOf s n
  match i with
  | 0x00 => x.runmode
  | 0x01 => x.trapRet
  | 0x02 => x.trapMode
  | 0x03 => x.trapInfo
  | 0x04 => x.trapAddr
  | 0x05 => x.trapBase
  | 0x06 => x.lk
  | 0x07 => x.scratch
  | 0x08 => 0x80000000
  | 0x18 => x.itw
  | 0x19 => x.dtw
  | 0x1A => x.csw
  | 0x1C => lo32 (cyclesNow s n)
  | 0x1D => x.cycleHi
  | 0x1E => w32 (n.val / 8 * 16 + n.val % 8)
  | i => if i < 0x0C then x.bk[(i - 8) % 4] else if i < 0x10 then x.bl[(i - 0xC) % 4] else x.pg[(i - 0x10) % 8]

/-- A write of a special register: reserved bits are not kept, counters and CORE_ID ignore it; PSG of RUNMODE is not written, for crew enters passenger mode by TRET and by an item only (R345, R348, R356). -/
def writeSpecial (x : Core) (i : Nat) (v : Word) : Core :=
  match i with
  | 0x00 => { x with runmode := (x.runmode &&& 1) ||| (v &&& 2) }
  | 0x01 => { x with trapRet := v }
  | 0x02 => { x with trapMode := v &&& 3 }
  | 0x03 => { x with trapInfo := v &&& 0xFFF }
  | 0x04 => { x with trapAddr := v }
  | 0x05 => { x with trapBase := v &&& 0xFC00 }
  | 0x06 => { x with lk := v }
  | 0x07 => { x with scratch := v }
  | 0x18 => { x with itw := v &&& 0x07FF03FF }
  | 0x19 => { x with dtw := v &&& 0x07FF03FF }
  | 0x1A => { x with csw := v &&& 0x03FF03FF }
  | 0x1C => x
  | 0x1D => x
  | 0x1E => x
  | i =>
    if i < 0x0C then { x with bk := x.bk.set ((i - 8) % 4) (v &&& 0xC003FFFF) }
    else if i < 0x10 then { x with bl := x.bl.set ((i - 0xC) % 4) (v &&& 0x7FFFF) }
    else { x with pg := x.pg.set ((i - 0x10) % 8) (v &&& 0xC0000FFF) }

/-- MFS; reading CYCLE_LO latches CYCLE_HI (R348, R352). -/
def mfs (s : State) (n : Fin 48) (rd : RegIx) (sr : BitVec 5) : State :=
  let i := sr.toNat
  if !specialListed i then trapHere s n 3 0 none
  else if (coreOf s n).psg && !passengerReads i then trapHere s n 4 0 none
  else
    let v := readSpecial s n i
    let hi := hi32 (cyclesNow s n)
    finish s n fun x : Core => (if i = 0x1C then { x with cycleHi := hi } else x).setReg rd v

/-- MTS; BK0 is illegal in either mode, and a passenger writes LK only (R345, R348, R352). -/
def mts (s : State) (n : Fin 48) (sr : BitVec 5) (rs1 : RegIx) : State :=
  let i := sr.toNat
  if !specialListed i || i == 8 then trapHere s n 3 0 none
  else if (coreOf s n).psg && i != 6 then trapHere s n 4 0 none
  else finish s n fun x : Core => writeSpecial x i (x.reg rs1)

/-! ### Custom instructions (R362 to R364) -/

/-- A UNARY micro-op: POPCNT, CLZ, CTZ, BSWAP (R363). -/
def unaryOp (fn : Nat) (a : Word) : Word :=
  match fn with
  | 0 => w32 (popCount 32 a.toNat)
  | 1 => w32 (((List.range 32).find? fun i => a.getLsbD (31 - i)).getD 32)
  | 2 => w32 (((List.range 32).find? fun i => a.getLsbD i).getD 32)
  | _ => w32 (ofBytesLE (bytesLE 4 a.toNat).reverse)

/-- A sequence in progress: the state, u0 to u7, the microcode buffer with each store's micro-op index, and the host's answers still to come. -/
structure Mcx where
  st : State
  u : Vector Word 8
  buffer : List (Reach × Word × Nat)
  host : List Word

/-- How a sequence stands. -/
inductive McxEnd where
  /-- END reached, with SRCA's value. -/
  | done (v : Word)
  /-- The micro-op of this index faulted. -/
  | fault (i : Nat)
  /-- A crossing holds an access. -/
  | stall
  deriving DecidableEq, Repr

/-- The operands an MCX gives its sequence: rs1, rs2, rd before, imm7. -/
structure McxArgs where
  rs1 : Word
  rs2 : Word
  rd : Word
  imm : Word

/-- A micro-op source (R363). -/
def uSource (g : McxArgs) (u : Vector Word 8) (d : Nat) : Word :=
  match d with
  | 0 => 0
  | 1 => g.rs1
  | 2 => g.rs2
  | 3 => g.rd
  | 4 => g.imm
  | d => u[d % 8]

/-- A micro-op destination: u0 to u7, or discarded (R363). -/
def uDest (u : Vector Word 8) (d : Nat) (v : Word) : Vector Word 8 := if d < 8 then u else u.set (d % 8) v

/-- Does a core access reach memory that the host answers? -/
def reachesHost (s : State) (r : Reach) : Bool :=
  match r with
  | .device a => match targetOf s a with
    | .hmb _ => true
    | .window _ _ => true
    | _ => false
  | _ => false

/-- A LOAD micro-op: a buffered word is returned from the buffer (R364). -/
def uLoad (m : Mcx) (n : Fin 48) (a : Word) (dst : Nat) : Mcx × Option CoreMet :=
  if a.toNat % 4 ≠ 0 then (m, some (.trap 5 0))
  else
    let r := reach (coreOf m.st n) a 4 false
    match m.buffer.reverse.find? fun e => decide (e.1 = r) with
    | some e => ({ m with u := uDest m.u dst e.2.1 }, none)
    | none =>
      let h := (m.host.head?.getD 0).toNat
      let rest := if reachesHost m.st r then m.host.drop 1 else m.host
      match loadFrom m.st n r 4 (bytesLE 4 h) with
      | (s, .ok v) => ({ m with st := s, u := uDest m.u dst v, host := rest }, none)
      | (s, x) => ({ m with st := s }, some x)

/-- A STORE micro-op goes to the microcode buffer (R364). -/
def uStore (m : Mcx) (n : Fin 48) (a v : Word) (i : Nat) : Mcx × Option CoreMet :=
  if a.toNat % 4 ≠ 0 then (m, some (.trap 5 0))
  else match reach (coreOf m.st n) a 4 true with
    | .bad sub => (m, some (.trap 6 sub))
    | r => ({ m with buffer := m.buffer ++ [(r, v, i)] }, none)

/-- Run a sequence from micro-op `i` of it; `fuel` is its length (R362, R363). -/
def runMcx (n : Fin 48) (g : McxArgs) (uc : Nat → Word) : Nat → Nat → Mcx → Mcx × McxEnd
  | 0, i, m => (m, .fault i)
  | fuel + 1, i, m =>
    let w := uc i
    let dst := fld w 27 24
    let a := uSource g m.u (fld w 23 20)
    let b := uSource g m.u (fld w 19 16)
    let fn := fld w 15 10
    let next (u : Vector Word 8) := runMcx n g uc fuel (i + 1) { m with u := u }
    let after (r : Mcx × Option CoreMet) := match r with
      | (m, none) => runMcx n g uc fuel (i + 1) m
      | (m, some .stall) => (m, .stall)
      | (m, some _) => (m, .fault i)
    let addr := a + (w.setWidth 10).signExtend 32
    match fld w 31 28 with
    | 0 => next (uDest m.u dst (aluOp fn a b))
    | 1 => next (uDest m.u dst (aluOp fn a (w32 (fld w 9 0))))
    | 2 => after (uLoad m n addr dst)
    | 3 => after (uStore m n addr b i)
    | 4 => runMcx n g uc fuel (i + 1 + (if condOp fn a b then fld w 9 0 else 0)) m
    | 5 => next (uDest m.u dst (unaryOp fn a))
    | 6 => next (uDest m.u dst (mulOp fn a b))
    | 15 => (m, .done a)
    | _ => (m, .fault i)

/-- The refusal that a store would meet after the stores before it, recorded in the state in which no store took effect (R44, R364). -/
def refusedStore (before s : State) (n : Fin 48) (a : Nat) (v : Word) : State :=
  let who := coreWho s n
  match fabricCause before ⟨who, true, a, 4, bytesLE 4 v.toNat⟩ with
  | some c => (refuse s who 1 a c).1
  | none => match targetOf s a with
    | .page p off => match pageKind? s.com.chip p with
      | none => s
      | some k => match rowAt? k off with
        | none => s
        | some r => match pageCause before who p k r off with
          | some c => (refuseAtPage s who p off c).1
          | none => s
    | _ => s

/-- END writes the buffer in order; the index of the first store that is refused, with the state in which no store took effect and the refusal is recorded (R364). -/
def drainMcx (s : State) (n : Fin 48) (l : List (Reach × Word × Nat)) : State × McxEnd :=
  l.foldl (fun acc e =>
    match acc.2 with
    | .done _ => match storeTo acc.1 n e.1 (bytesLE 4 e.2.1.toNat) with
      | (t, .ok _) => (t, .done 0)
      | (_, .stall) => (s, .stall)
      | (_, .trap _ _) =>
        match e.1 with
        | .device a => (refusedStore acc.1 s n a e.2.1, .fault e.2.2)
        | _ => (s, .fault e.2.2)
    | _ => acc) (s, .done 0)

/-- MCX: the sequence of the slot's decode entry runs with u0 to u7 zeroed; a fault leaves rd and memory as they were (R362 to R364). -/
def mcx (s : State) (n : Fin 48) (rd rs1 rs2 : RegIx) (imm : BitVec 7) (slot : BitVec 4) (host : List Word) : State :=
  let x := coreOf s n
  let t := cluOf s (cluNo n)
  let e := t.table[slot.toNat]
  if !bit e 31 then trapHere s n 3 0 none
  else if x.psg && !bit e 30 then trapHere s n 4 0 none
  else
    let g : McxArgs := ⟨x.reg rs1, x.reg rs2, x.reg rd, imm.setWidth 32⟩
    let start := fld e 11 0
    match runMcx n g (fun i => t.ucode.getD (start + i) 0) (fld e 27 20 + 1) 0 ⟨s, Vector.replicate 8 0, [], host⟩ with
    | (m, .done v) => match drainMcx m.st n m.buffer with
      | (t, .done _) => finish t n fun x : Core => { (if bit e 29 then x.setReg rd v else x) with u := m.u }
      | (t, .fault i) => trapHere t n 9 i none
      | (_, .stall) => answer s .held
    | (m, .fault i) => trapHere m.st n 9 i none
    | (_, .stall) => answer s .held

end Sys2Proof.Machine
end

