-- ==== Sys2Proof/Machine/NeliusRows.lean ====
section
/-! DEFINITION. The Nelius instructions, one command each: an instruction that a core of a cluster issues. -/

namespace Sys2Proof.Machine

/-- ALU ADD (R351). -/
def execAdd (c : Clu) (k : CoreIx) (rd rs1 rs2 : RegIx) (resv : BitVec 5) (s : State) : Host.Outcome State Fault Refusal :=
  touching allParts (fun s => issue s c k fun s n => aluR s n (aluOp 0) rd rs1 rs2 resv) s

/-- ALU SUB (R351). -/
def execSub (c : Clu) (k : CoreIx) (rd rs1 rs2 : RegIx) (resv : BitVec 5) (s : State) : Host.Outcome State Fault Refusal :=
  touching allParts (fun s => issue s c k fun s n => aluR s n (aluOp 1) rd rs1 rs2 resv) s

/-- ALU AND (R351). -/
def execAnd (c : Clu) (k : CoreIx) (rd rs1 rs2 : RegIx) (resv : BitVec 5) (s : State) : Host.Outcome State Fault Refusal :=
  touching allParts (fun s => issue s c k fun s n => aluR s n (aluOp 2) rd rs1 rs2 resv) s

/-- ALU OR (R351). -/
def execOr (c : Clu) (k : CoreIx) (rd rs1 rs2 : RegIx) (resv : BitVec 5) (s : State) : Host.Outcome State Fault Refusal :=
  touching allParts (fun s => issue s c k fun s n => aluR s n (aluOp 3) rd rs1 rs2 resv) s

/-- ALU XOR (R351). -/
def execXor (c : Clu) (k : CoreIx) (rd rs1 rs2 : RegIx) (resv : BitVec 5) (s : State) : Host.Outcome State Fault Refusal :=
  touching allParts (fun s => issue s c k fun s n => aluR s n (aluOp 4) rd rs1 rs2 resv) s

/-- ALU NOR (R351). -/
def execNor (c : Clu) (k : CoreIx) (rd rs1 rs2 : RegIx) (resv : BitVec 5) (s : State) : Host.Outcome State Fault Refusal :=
  touching allParts (fun s => issue s c k fun s n => aluR s n (aluOp 5) rd rs1 rs2 resv) s

/-- ALU shift left logical (R351). -/
def execSll (c : Clu) (k : CoreIx) (rd rs1 rs2 : RegIx) (resv : BitVec 5) (s : State) : Host.Outcome State Fault Refusal :=
  touching allParts (fun s => issue s c k fun s n => aluR s n (aluOp 6) rd rs1 rs2 resv) s

/-- ALU shift right logical (R351). -/
def execSrl (c : Clu) (k : CoreIx) (rd rs1 rs2 : RegIx) (resv : BitVec 5) (s : State) : Host.Outcome State Fault Refusal :=
  touching allParts (fun s => issue s c k fun s n => aluR s n (aluOp 7) rd rs1 rs2 resv) s

/-- ALU shift right arithmetic (R351). -/
def execSra (c : Clu) (k : CoreIx) (rd rs1 rs2 : RegIx) (resv : BitVec 5) (s : State) : Host.Outcome State Fault Refusal :=
  touching allParts (fun s => issue s c k fun s n => aluR s n (aluOp 8) rd rs1 rs2 resv) s

/-- ALU set less than, signed (R351). -/
def execSlt (c : Clu) (k : CoreIx) (rd rs1 rs2 : RegIx) (resv : BitVec 5) (s : State) : Host.Outcome State Fault Refusal :=
  touching allParts (fun s => issue s c k fun s n => aluR s n (aluOp 9) rd rs1 rs2 resv) s

/-- ALU set less than, unsigned (R351). -/
def execSltu (c : Clu) (k : CoreIx) (rd rs1 rs2 : RegIx) (resv : BitVec 5) (s : State) : Host.Outcome State Fault Refusal :=
  touching allParts (fun s => issue s c k fun s n => aluR s n (aluOp 10) rd rs1 rs2 resv) s

/-- ALU rotate right (R351). -/
def execRotr (c : Clu) (k : CoreIx) (rd rs1 rs2 : RegIx) (resv : BitVec 5) (s : State) : Host.Outcome State Fault Refusal :=
  touching allParts (fun s => issue s c k fun s n => aluR s n (aluOp 11) rd rs1 rs2 resv) s

/-- ALU multiply, low 32 bits (R351). -/
def execMul (c : Clu) (k : CoreIx) (rd rs1 rs2 : RegIx) (resv : BitVec 5) (s : State) : Host.Outcome State Fault Refusal :=
  touching allParts (fun s => issue s c k fun s n => aluR s n (mulOp 0) rd rs1 rs2 resv) s

/-- ALU multiply, signed high 32 bits (R351). -/
def execMulh (c : Clu) (k : CoreIx) (rd rs1 rs2 : RegIx) (resv : BitVec 5) (s : State) : Host.Outcome State Fault Refusal :=
  touching allParts (fun s => issue s c k fun s n => aluR s n (mulOp 1) rd rs1 rs2 resv) s

/-- ALU multiply, unsigned high 32 bits (R351). -/
def execMulhu (c : Clu) (k : CoreIx) (rd rs1 rs2 : RegIx) (resv : BitVec 5) (s : State) : Host.Outcome State Fault Refusal :=
  touching allParts (fun s => issue s c k fun s n => aluR s n (mulOp 2) rd rs1 rs2 resv) s

/-- ALU signed divide, never trapping (R351). -/
def execDiv (c : Clu) (k : CoreIx) (rd rs1 rs2 : RegIx) (resv : BitVec 5) (s : State) : Host.Outcome State Fault Refusal :=
  touching allParts (fun s => issue s c k fun s n => aluR s n divOp rd rs1 rs2 resv) s

/-- ALU unsigned divide (R351). -/
def execDivu (c : Clu) (k : CoreIx) (rd rs1 rs2 : RegIx) (resv : BitVec 5) (s : State) : Host.Outcome State Fault Refusal :=
  touching allParts (fun s => issue s c k fun s n => aluR s n divuOp rd rs1 rs2 resv) s

/-- ALU signed remainder (R351). -/
def execRem (c : Clu) (k : CoreIx) (rd rs1 rs2 : RegIx) (resv : BitVec 5) (s : State) : Host.Outcome State Fault Refusal :=
  touching allParts (fun s => issue s c k fun s n => aluR s n remOp rd rs1 rs2 resv) s

/-- ALU unsigned remainder (R351). -/
def execRemu (c : Clu) (k : CoreIx) (rd rs1 rs2 : RegIx) (resv : BitVec 5) (s : State) : Host.Outcome State Fault Refusal :=
  touching allParts (fun s => issue s c k fun s n => aluR s n remuOp rd rs1 rs2 resv) s

/-- Add sign-extended immediate (R350). -/
def execAddi (c : Clu) (k : CoreIx) (rd rs1 : RegIx) (imm : BitVec 16) (s : State) : Host.Outcome State Fault Refusal :=
  touching allParts (fun s => issue s c k fun s n => aluI s n (aluOp 0) rd rs1 (imm.signExtend 32)) s

/-- AND zero-extended immediate (R350). -/
def execAndi (c : Clu) (k : CoreIx) (rd rs1 : RegIx) (imm : BitVec 16) (s : State) : Host.Outcome State Fault Refusal :=
  touching allParts (fun s => issue s c k fun s n => aluI s n (aluOp 2) rd rs1 (imm.setWidth 32)) s

/-- OR zero-extended immediate (R350). -/
def execOri (c : Clu) (k : CoreIx) (rd rs1 : RegIx) (imm : BitVec 16) (s : State) : Host.Outcome State Fault Refusal :=
  touching allParts (fun s => issue s c k fun s n => aluI s n (aluOp 3) rd rs1 (imm.setWidth 32)) s

/-- XOR zero-extended immediate (R350). -/
def execXori (c : Clu) (k : CoreIx) (rd rs1 : RegIx) (imm : BitVec 16) (s : State) : Host.Outcome State Fault Refusal :=
  touching allParts (fun s => issue s c k fun s n => aluI s n (aluOp 4) rd rs1 (imm.setWidth 32)) s

/-- Set if less than immediate, signed (R350). -/
def execSlti (c : Clu) (k : CoreIx) (rd rs1 : RegIx) (imm : BitVec 16) (s : State) : Host.Outcome State Fault Refusal :=
  touching allParts (fun s => issue s c k fun s n => aluI s n (aluOp 9) rd rs1 (imm.signExtend 32)) s

/-- Set if less than immediate, unsigned (R350). -/
def execSltiu (c : Clu) (k : CoreIx) (rd rs1 : RegIx) (imm : BitVec 16) (s : State) : Host.Outcome State Fault Refusal :=
  touching allParts (fun s => issue s c k fun s n => aluI s n (aluOp 10) rd rs1 (imm.signExtend 32)) s

/-- Load upper immediate (R350). -/
def execLui (c : Clu) (k : CoreIx) (rd : RegIx) (resv : BitVec 5) (imm : BitVec 16) (s : State) : Host.Outcome State Fault Refusal :=
  touching allParts (fun s => issue s c k fun s n => reservedZero s n resv.toNat fun s => aluI s n (fun _ b => b) rd 0 (imm.setWidth 32 <<< 16)) s

/-- Shift left logical by immediate (R350). -/
def execSlli (c : Clu) (k : CoreIx) (rd rs1 : RegIx) (resv : BitVec 9) (amount : BitVec 5) (s : State) : Host.Outcome State Fault Refusal :=
  touching allParts (fun s => issue s c k fun s n => reservedZero s n resv.toNat fun s => aluI s n (aluOp 6) rd rs1 (amount.setWidth 32)) s

/-- Shift right logical by immediate (R350). -/
def execSrli (c : Clu) (k : CoreIx) (rd rs1 : RegIx) (resv : BitVec 9) (amount : BitVec 5) (s : State) : Host.Outcome State Fault Refusal :=
  touching allParts (fun s => issue s c k fun s n => reservedZero s n resv.toNat fun s => aluI s n (aluOp 7) rd rs1 (amount.setWidth 32)) s

/-- Shift right arithmetic by immediate (R350). -/
def execSrai (c : Clu) (k : CoreIx) (rd rs1 : RegIx) (resv : BitVec 9) (amount : BitVec 5) (s : State) : Host.Outcome State Fault Refusal :=
  touching allParts (fun s => issue s c k fun s n => reservedZero s n resv.toNat fun s => aluI s n (aluOp 8) rd rs1 (amount.setWidth 32)) s

/-- Rotate right by immediate (R350). -/
def execRotri (c : Clu) (k : CoreIx) (rd rs1 : RegIx) (resv : BitVec 9) (amount : BitVec 5) (s : State) : Host.Outcome State Fault Refusal :=
  touching allParts (fun s => issue s c k fun s n => reservedZero s n resv.toNat fun s => aluI s n (aluOp 11) rd rs1 (amount.setWidth 32)) s

/-- Load byte, sign-extended (R350). -/
def execLb (c : Clu) (k : CoreIx) (rd rs1 : RegIx) (imm : BitVec 16) (host : Word) (s : State) : Host.Outcome State Fault Refusal :=
  touching allParts (fun s => issue s c k fun s n => load s n 1 true rd rs1 imm host) s

/-- Load byte, zero-extended (R350). -/
def execLbu (c : Clu) (k : CoreIx) (rd rs1 : RegIx) (imm : BitVec 16) (host : Word) (s : State) : Host.Outcome State Fault Refusal :=
  touching allParts (fun s => issue s c k fun s n => load s n 1 false rd rs1 imm host) s

/-- Load half-word, sign-extended (R350). -/
def execLh (c : Clu) (k : CoreIx) (rd rs1 : RegIx) (imm : BitVec 16) (host : Word) (s : State) : Host.Outcome State Fault Refusal :=
  touching allParts (fun s => issue s c k fun s n => load s n 2 true rd rs1 imm host) s

/-- Load half-word, zero-extended (R350). -/
def execLhu (c : Clu) (k : CoreIx) (rd rs1 : RegIx) (imm : BitVec 16) (host : Word) (s : State) : Host.Outcome State Fault Refusal :=
  touching allParts (fun s => issue s c k fun s n => load s n 2 false rd rs1 imm host) s

/-- Load word (R350). -/
def execLw (c : Clu) (k : CoreIx) (rd rs1 : RegIx) (imm : BitVec 16) (host : Word) (s : State) : Host.Outcome State Fault Refusal :=
  touching allParts (fun s => issue s c k fun s n => load s n 4 false rd rs1 imm host) s

/-- Load byte with post-increment (R350). -/
def execLbP (c : Clu) (k : CoreIx) (rd rs1 : RegIx) (imm : BitVec 16) (host : Word) (s : State) : Host.Outcome State Fault Refusal :=
  touching allParts (fun s => issue s c k fun s n => loadPost s n 1 true rd rs1 imm host) s

/-- Load byte unsigned with post-increment (R350). -/
def execLbuP (c : Clu) (k : CoreIx) (rd rs1 : RegIx) (imm : BitVec 16) (host : Word) (s : State) : Host.Outcome State Fault Refusal :=
  touching allParts (fun s => issue s c k fun s n => loadPost s n 1 false rd rs1 imm host) s

/-- Load half-word with post-increment (R350). -/
def execLhP (c : Clu) (k : CoreIx) (rd rs1 : RegIx) (imm : BitVec 16) (host : Word) (s : State) : Host.Outcome State Fault Refusal :=
  touching allParts (fun s => issue s c k fun s n => loadPost s n 2 true rd rs1 imm host) s

/-- Load half-word unsigned with post-increment (R350). -/
def execLhuP (c : Clu) (k : CoreIx) (rd rs1 : RegIx) (imm : BitVec 16) (host : Word) (s : State) : Host.Outcome State Fault Refusal :=
  touching allParts (fun s => issue s c k fun s n => loadPost s n 2 false rd rs1 imm host) s

/-- Load word with post-increment (R350). -/
def execLwP (c : Clu) (k : CoreIx) (rd rs1 : RegIx) (imm : BitVec 16) (host : Word) (s : State) : Host.Outcome State Fault Refusal :=
  touching allParts (fun s => issue s c k fun s n => loadPost s n 4 false rd rs1 imm host) s

/-- Store byte (R350). -/
def execSb (c : Clu) (k : CoreIx) (rt rs1 : RegIx) (imm : BitVec 16) (s : State) : Host.Outcome State Fault Refusal :=
  touching allParts (fun s => issue s c k fun s n => store s n 1 rt rs1 imm) s

/-- Store half-word (R350). -/
def execSh (c : Clu) (k : CoreIx) (rt rs1 : RegIx) (imm : BitVec 16) (s : State) : Host.Outcome State Fault Refusal :=
  touching allParts (fun s => issue s c k fun s n => store s n 2 rt rs1 imm) s

/-- Store word (R350). -/
def execSw (c : Clu) (k : CoreIx) (rt rs1 : RegIx) (imm : BitVec 16) (s : State) : Host.Outcome State Fault Refusal :=
  touching allParts (fun s => issue s c k fun s n => store s n 4 rt rs1 imm) s

/-- Store byte with post-increment (R350). -/
def execSbP (c : Clu) (k : CoreIx) (rt rs1 : RegIx) (imm : BitVec 16) (s : State) : Host.Outcome State Fault Refusal :=
  touching allParts (fun s => issue s c k fun s n => storePost s n 1 rt rs1 imm) s

/-- Store half-word with post-increment (R350). -/
def execShP (c : Clu) (k : CoreIx) (rt rs1 : RegIx) (imm : BitVec 16) (s : State) : Host.Outcome State Fault Refusal :=
  touching allParts (fun s => issue s c k fun s n => storePost s n 2 rt rs1 imm) s

/-- Store word with post-increment (R350). -/
def execSwP (c : Clu) (k : CoreIx) (rt rs1 : RegIx) (imm : BitVec 16) (s : State) : Host.Outcome State Fault Refusal :=
  touching allParts (fun s => issue s c k fun s n => storePost s n 4 rt rs1 imm) s

/-- Branch if registers equal (R350). -/
def execCbEq (c : Clu) (k : CoreIx) (rs1 rs2 : RegIx) (off : BitVec 16) (s : State) : Host.Outcome State Fault Refusal :=
  touching allParts (fun s => issue s c k fun s n => cb s n 0 rs1 rs2 off) s

/-- Branch if registers differ (R350). -/
def execCbNe (c : Clu) (k : CoreIx) (rs1 rs2 : RegIx) (off : BitVec 16) (s : State) : Host.Outcome State Fault Refusal :=
  touching allParts (fun s => issue s c k fun s n => cb s n 1 rs1 rs2 off) s

/-- Branch if less, signed (R350). -/
def execCbLt (c : Clu) (k : CoreIx) (rs1 rs2 : RegIx) (off : BitVec 16) (s : State) : Host.Outcome State Fault Refusal :=
  touching allParts (fun s => issue s c k fun s n => cb s n 2 rs1 rs2 off) s

/-- Branch if greater or equal, signed (R350). -/
def execCbGe (c : Clu) (k : CoreIx) (rs1 rs2 : RegIx) (off : BitVec 16) (s : State) : Host.Outcome State Fault Refusal :=
  touching allParts (fun s => issue s c k fun s n => cb s n 3 rs1 rs2 off) s

/-- Branch if less, unsigned (R350). -/
def execCbLtu (c : Clu) (k : CoreIx) (rs1 rs2 : RegIx) (off : BitVec 16) (s : State) : Host.Outcome State Fault Refusal :=
  touching allParts (fun s => issue s c k fun s n => cb s n 4 rs1 rs2 off) s

/-- Branch if greater or equal, unsigned (R350). -/
def execCbGeu (c : Clu) (k : CoreIx) (rs1 rs2 : RegIx) (off : BitVec 16) (s : State) : Host.Outcome State Fault Refusal :=
  touching allParts (fun s => issue s c k fun s n => cb s n 5 rs1 rs2 off) s

/-- Branch if bit set (R350). -/
def execBts (c : Clu) (k : CoreIx) (rs1 : RegIx) (bitNo : BitVec 5) (off : BitVec 16) (s : State) : Host.Outcome State Fault Refusal :=
  touching allParts (fun s => issue s c k fun s n => branch s n (fun x : Core => bit (x.reg rs1) bitNo.toNat) off) s

/-- Branch if bit clear (R350). -/
def execBtc (c : Clu) (k : CoreIx) (rs1 : RegIx) (bitNo : BitVec 5) (off : BitVec 16) (s : State) : Host.Outcome State Fault Refusal :=
  touching allParts (fun s => issue s c k fun s n => branch s n (fun x : Core => !bit (x.reg rs1) bitNo.toNat) off) s

/-- Branch if equal to immediate (R350). -/
def execCbiEq (c : Clu) (k : CoreIx) (rs1 : RegIx) (imm : BitVec 5) (off : BitVec 16) (s : State) : Host.Outcome State Fault Refusal :=
  touching allParts (fun s => issue s c k fun s n => cbi s n 0 rs1 imm off) s

/-- Branch if not equal to immediate (R350). -/
def execCbiNe (c : Clu) (k : CoreIx) (rs1 : RegIx) (imm : BitVec 5) (off : BitVec 16) (s : State) : Host.Outcome State Fault Refusal :=
  touching allParts (fun s => issue s c k fun s n => cbi s n 1 rs1 imm off) s

/-- Branch if less than immediate, signed (R350). -/
def execCbiLt (c : Clu) (k : CoreIx) (rs1 : RegIx) (imm : BitVec 5) (off : BitVec 16) (s : State) : Host.Outcome State Fault Refusal :=
  touching allParts (fun s => issue s c k fun s n => cbi s n 2 rs1 imm off) s

/-- Branch if greater or equal to immediate, signed (R350). -/
def execCbiGe (c : Clu) (k : CoreIx) (rs1 : RegIx) (imm : BitVec 5) (off : BitVec 16) (s : State) : Host.Outcome State Fault Refusal :=
  touching allParts (fun s => issue s c k fun s n => cbi s n 3 rs1 imm off) s

/-- Branch if less than immediate, unsigned (R350). -/
def execCbiLtu (c : Clu) (k : CoreIx) (rs1 : RegIx) (imm : BitVec 5) (off : BitVec 16) (s : State) : Host.Outcome State Fault Refusal :=
  touching allParts (fun s => issue s c k fun s n => cbi s n 4 rs1 imm off) s

/-- Branch if greater or equal to immediate, unsigned (R350). -/
def execCbiGeu (c : Clu) (k : CoreIx) (rs1 : RegIx) (imm : BitVec 5) (off : BitVec 16) (s : State) : Host.Outcome State Fault Refusal :=
  touching allParts (fun s => issue s c k fun s n => cbi s n 5 rs1 imm off) s

/-- Jump (R350). -/
def execJ (c : Clu) (k : CoreIx) (off : BitVec 26) (s : State) : Host.Outcome State Fault Refusal :=
  touching allParts (fun s => issue s c k fun s n => jump s n false fun x : Core => x.pc + off.signExtend 32 * 4) s

/-- Jump and write the link register (R350). -/
def execCall (c : Clu) (k : CoreIx) (off : BitVec 26) (s : State) : Host.Outcome State Fault Refusal :=
  touching allParts (fun s => issue s c k fun s n => jump s n true fun x : Core => x.pc + off.signExtend 32 * 4) s

/-- Jump to lk (R352). -/
def execRet (c : Clu) (k : CoreIx) (resv : BitVec 5) (s : State) : Host.Outcome State Fault Refusal :=
  touching allParts (fun s => issue s c k fun s n => reservedZero s n resv.toNat fun s => jump s n false fun x : Core => x.lk) s

/-- Jump to register (R352). -/
def execJr (c : Clu) (k : CoreIx) (rs1 : RegIx) (resv : BitVec 5) (s : State) : Host.Outcome State Fault Refusal :=
  touching allParts (fun s => issue s c k fun s n => reservedZero s n resv.toNat fun s => jump s n false fun x : Core => x.reg rs1) s

/-- Call through register (R352). -/
def execCallr (c : Clu) (k : CoreIx) (rs1 : RegIx) (resv : BitVec 5) (s : State) : Host.Outcome State Fault Refusal :=
  touching allParts (fun s => issue s c k fun s n => reservedZero s n resv.toNat fun s => jump s n true fun x : Core => x.reg rs1) s

/-- Move from special register (R348). -/
def execMfs (c : Clu) (k : CoreIx) (rd : RegIx) (sr : BitVec 5) (resv : BitVec 5) (s : State) : Host.Outcome State Fault Refusal :=
  touching allParts (fun s => issue s c k fun s n => reservedZero s n resv.toNat fun s => mfs s n rd sr) s

/-- Move to special register (R348). -/
def execMts (c : Clu) (k : CoreIx) (sr : BitVec 5) (rs1 : RegIx) (resv : BitVec 5) (s : State) : Host.Outcome State Fault Refusal :=
  touching allParts (fun s => issue s c k fun s n => reservedZero s n resv.toNat fun s => mts s n sr rs1) s

/-- TRAP instruction takes vector 8 with its code (R352). -/
def execTrap (c : Clu) (k : CoreIx) (code : BitVec 5) (resv : BitVec 5) (s : State) : Host.Outcome State Fault Refusal :=
  touching allParts (fun s => issue s c k fun s n => reservedZero s n resv.toNat fun s => trapInstr s n code) s

/-- Crew return from trap restores RUNMODE and jumps to TRAP_RET (R352). -/
def execTret (c : Clu) (k : CoreIx) (resv : BitVec 5) (s : State) : Host.Outcome State Fault Refusal :=
  touching allParts (fun s => issue s c k fun s n => reservedZero s n resv.toNat fun s => tret s n) s

/-- Wait until every earlier store is acknowledged (R352). -/
def execFence (c : Clu) (k : CoreIx) (resv : BitVec 5) (s : State) : Host.Outcome State Fault Refusal :=
  touching allParts (fun s => issue s c k fun s n => reservedZero s n resv.toNat fun s => finish s n id) s

/-- End the current work item; the slot follows END_ACTION (R386). -/
def execEndw (c : Clu) (k : CoreIx) (resv : BitVec 5) (s : State) : Host.Outcome State Fault Refusal :=
  touching allParts (fun s => issue s c k fun s n => reservedZero s n resv.toNat fun s => endw s n) s

/-- Atomic swap in the cluster store (R353). -/
def execSwap (c : Clu) (k : CoreIx) (rd rs1 rs2 : RegIx) (resv : BitVec 5) (s : State) : Host.Outcome State Fault Refusal :=
  touching allParts (fun s => issue s c k fun s n => atomic s n (fun _ b _ => b) rd rs1 rs2 resv) s

/-- Atomic add in the cluster store (R353). -/
def execAadd (c : Clu) (k : CoreIx) (rd rs1 rs2 : RegIx) (resv : BitVec 5) (s : State) : Host.Outcome State Fault Refusal :=
  touching allParts (fun s => issue s c k fun s n => atomic s n (fun old b _ => old + b) rd rs1 rs2 resv) s

/-- Atomic AND in the cluster store (R353). -/
def execAand (c : Clu) (k : CoreIx) (rd rs1 rs2 : RegIx) (resv : BitVec 5) (s : State) : Host.Outcome State Fault Refusal :=
  touching allParts (fun s => issue s c k fun s n => atomic s n (fun old b _ => old &&& b) rd rs1 rs2 resv) s

/-- Atomic OR in the cluster store (R353). -/
def execAor (c : Clu) (k : CoreIx) (rd rs1 rs2 : RegIx) (resv : BitVec 5) (s : State) : Host.Outcome State Fault Refusal :=
  touching allParts (fun s => issue s c k fun s n => atomic s n (fun old b _ => old ||| b) rd rs1 rs2 resv) s

/-- Atomic compare and swap in the cluster store (R353). -/
def execCas (c : Clu) (k : CoreIx) (rd rs1 rs2 : RegIx) (resv : BitVec 5) (s : State) : Host.Outcome State Fault Refusal :=
  touching allParts (fun s => issue s c k fun s n => atomic s n (fun old b d => if old = d then b else old) rd rs1 rs2 resv) s

/-- Custom instruction runs the micro-op sequence of its decode slot (R362). -/
def execMcx (c : Clu) (k : CoreIx) (rd rs1 rs2 : RegIx) (imm : BitVec 7) (slot : BitVec 4) (host : List Word) (s : State) : Host.Outcome State Fault Refusal :=
  touching allParts (fun s => issue s c k fun s n => mcx s n rd rs1 rs2 imm slot host) s

end Sys2Proof.Machine
end

