-- ==== Sys2Proof/Machine/PowerRows.lean ====
section
/-! DEFINITION. Meanings of the power, regulator, control engine and pin commands (R265 to R288, R572 to R599, R623 to R631). -/

namespace Sys2Proof.Machine

/-- A TOKEN_RATE_SET action sets the token ceiling, clamped to TOKEN_MIN to TOKEN_MAX (R593). -/
def execTokenRateSet (entry : Fin 1024) (s : State) : Host.Outcome State Fault Refusal :=
  touching [.sglP] (fun s => deliver s entry.val 5 (fun s e => tokenRateSet s e.arg) (fun e => e.page)) s

/-- At each 1 µs slot start the token loop issues the slot's tokens and lapses the last slot's (R592). -/
def execTokenSlotStart (elapsed : Nat) (current : BitVec 16) (s : State) : Host.Outcome State Fault Refusal :=
  touching [.pwrP, .fchP] (fun s => tokenSlot (advance s elapsed) current.toNat) s

/-- A channel's token request is granted or refused in the current slot (R594). -/
def execTokenRequest (elapsed : Nat) (group : List (Chan × Pos)) (s : State) : Host.Outcome State Fault Refusal :=
  touching [.pwrP, .fchP] (fun s => tokenRequests (advance s elapsed) (group.map fun e => (e.1.val, e.2.val))) s

/-- With its holds clear, a domain drains, shadows, clamps and powers off (R575). -/
def execDomainOff (d : Dom) (s : State) : Host.Outcome State Fault Refusal :=
  touching allParts (fun s => domainOff s d.val) s

/-- A domain powers on, restores its shadow and leaves reset, or fails (R576). -/
def execDomainOn (d : Dom) (good retryGood : Bool) (s : State) : Host.Outcome State Fault Refusal :=
  touching allParts (fun s => domainOn s d.val good retryGood) s

/-- A wake source starts an exit from PS3 or PS4 (R578). -/
def execWake (src : BitVec 4) (s : State) : Host.Outcome State Fault Refusal :=
  touching [.hstP, .pwrP] (fun s => wake s src.toNat) s

/-- VIN holds above 3.1 V for 100 ms and the always-on rails start, giving power-good (R580). -/
def execPowerGood (elapsed : Nat) (vin : BitVec 13) (refclk testEn : Bool) (s : State) : Host.Outcome State Fault Refusal :=
  touching [.pwrP, .ferP, .tolP] (fun s => powerGood (advance s elapsed) elapsed vin.toNat refclk testEn) s

/-- A control engine issue slot evaluates a rail or port compensator and sets its duty (R583). -/
def execLoopEvaluation (k : Fin 20) (sample : BitVec 16) (s : State) : Host.Outcome State Fault Refusal :=
  touching [.pwrP] (fun s => loopEval s k.val sample.toNat) s

/-- A rail overvoltage or undervoltage raises PWR_FAIL (R581). -/
def execRailOvUv (rail : Fin 14) (above : Bool) (vmin : BitVec 13) (micros : Nat) (s : State) : Host.Outcome State Fault Refusal :=
  touching allParts (fun s => railTrip s rail.val above vmin.toNat micros) s

/-- A misbehaving regulator phase is retired and the rail re-spread (R581). -/
def execPhaseRetire (phase : Fin 40) (trips : Fin 16) (s : State) : Host.Outcome State Fault Refusal :=
  touching [.pwrP] (fun s => phaseRetire s phase.val trips.val) s

/-- An external port not good for 100 µs retires channels or browns out the device (R587). -/
def execExtPortFault (port : Fin 6) (s : State) : Host.Outcome State Fault Refusal :=
  touching allParts (fun s => extPortFault s port.val) s

/-- A sensor at 115 °C in two samples raises PWR_FAIL (R588). -/
def execThermalTrip (micros : Nat) (s : State) : Host.Outcome State Fault Refusal :=
  touching allParts (fun s => thermalTrip s micros) s

/-- At 10 kHz the junction sensors are sampled into TEMP_MAX (R588). -/
def execThermalSample (elapsed : Nat) (temps : List Int) (s : State) : Host.Outcome State Fault Refusal :=
  touching [.pwrP] (fun s => thermalSample (advance s elapsed) temps) s

/-- Every 100 µs the thermal and cap throttle levels are updated (R589). -/
def execThrottleUpdate (elapsed vinPower : Nat) (ports : List (Nat × Nat)) (s : State) : Host.Outcome State Fault Refusal :=
  touching [.pwrP] (fun s => throttleUpdate (advance s elapsed) vinPower ports) s

/-- A cluster changes clock via its second PLL and rail slew (R591). -/
def execDvfsChange (c : Clu) (elapsed : Nat) (s : State) : Host.Outcome State Fault Refusal :=
  touching [.pwrP, .nelP, .disP] (fun s => dvfsChange (advance s elapsed) c) s

/-- VIN above 5.8 V in two samples raises PWR_FAIL (R631). -/
def execVinOvervoltage (vin : BitVec 13) (micros : Nat) (s : State) : Host.Outcome State Fault Refusal :=
  touching allParts (fun s => vinHigh s vin.toNat micros) s

/-- VIN below VTRIP in two samples raises PWR_FAIL and starts the last ferry (R265). -/
def execPwrFail (vin vmin : BitVec 13) (micros : Nat) (cut : Option Nat) (s : State) : Host.Outcome State Fault Refusal :=
  touching allParts (fun s => vinLow s vin.toNat vmin.toNat micros cut) s

/-- VIN stays above VTRIP + HYST for RESTART_HOLD and the parked device restarts (R276). -/
def execRestartHoldExpiry (elapsed : Nat) (vin : BitVec 13) (s : State) : Host.Outcome State Fault Refusal :=
  touching allParts (fun s => restartHold (advance s elapsed) elapsed vin.toNat) s

/-- After boot the device replays journals, reloads the ferry and reaches I/O-ready (R282). -/
def execRestartRecovery (survey : Survey) (s : State) : Host.Outcome State Fault Refusal :=
  touching allParts (fun s => restartRecovery s survey) s

/-- VIN rising from below 2.7 V resets everything and starts power-on (R608). -/
def execPowerOnReset (vin : BitVec 13) (portMode mgmtMode : Bool) (s : State) : Host.Outcome State Fault Refusal :=
  touching allParts (fun s => powerOn s vin.toNat portMode mgmtMode) s

/-- VIN below 2.7 V takes the brownout reset scope at once (R266). -/
def execBrownout (vin : BitVec 13) (s : State) : Host.Outcome State Fault Refusal :=
  touching allParts (fun s => vinLost s vin.toNat) s

/-- PERST# assertion starts a reset ferry and reboot, or retrains one port in x8 + x8 (R623). -/
def execPerst (port : Port) (micros : Nat) (s : State) : Host.Outcome State Fault Refusal :=
  touching allParts (fun s => perst s port micros) s

/-- PERST# deasserts and the boot restarts from R522 step 1 after a PERST scope (R608). -/
def execPerstDeassert (port : Port) (elapsed : Nat) (s : State) : Host.Outcome State Fault Refusal :=
  touching [.pwrP] (fun s => perstOff (advance s elapsed) port) s

/-- An NVM Subsystem Reset write starts a reset ferry and restart (R608). -/
def execNssr (ctl : CtlId) (micros : Nat) (s : State) : Host.Outcome State Fault Refusal :=
  touching allParts (fun s => if ctlExists s ctl.val then subsystemReset s micros else s) s

/-- CC.EN going 1 to 0 resets one controller (R608). -/
def execControllerReset (ctl : CtlId) (s : State) : Host.Outcome State Fault Refusal :=
  touching [.hstP, .mapP, .prgP, .disP, .nelP, .cvnP, .memP] (fun s => if (ctlOf s ctl.val).enabled then controllerReset s ctl.val 4 else s) s

/-- A function-level reset resets a function's controller and configuration (R608). -/
def execFlr (ctl : CtlId) (s : State) : Host.Outcome State Fault Refusal :=
  touching [.hstP, .mapP, .prgP, .disP, .nelP, .cvnP, .memP] (fun s => functionReset s ctl.val) s

/-- CLKREQ_A_n deasserted in L1.2 switches the sandglass to its internal oscillator (R624). -/
def execClkreqL12 (deasserted : Bool) (s : State) : Host.Outcome State Fault Refusal :=
  touching [.pwrP] (fun s => clkreq s deasserted) s

end Sys2Proof.Machine
end

