-- ==== Sys2Proof/Machine/ProgramRows.lean ====
section
/-! DEFINITION. Meanings of the program, memory and built-in service commands (R491 to R512). -/

namespace Sys2Proof.Machine

/-- Load Program receives an image piece and, at the last, checks, measures and records it (R495). -/
def execLoadProgram (cmd : Nat) (hostData : List Byte) (s : State) : Host.Outcome State Fault Refusal :=
  touching [.hstP, .mapP, .prgP, .disP, .nelP, .cvnP, .mteP, .memP, .keyP, .botP] (fun s => onCmd s true 0x85 cmd (loadProgram hostData)) s

/-- Program Activation Management activate binds a program to a place and grants its environment (R496). -/
def execProgramActivate (cmd : Nat) (s : State) : Host.Outcome State Fault Refusal :=
  touching [.hstP, .mapP, .prgP, .disP, .nelP, .cvnP, .mteP, .memP, .keyP, .botP] (fun s => onCmd s true 0x88 cmd activate) s

/-- Program Activation Management deactivate frees the place once the run ends (R496). -/
def execProgramDeactivate (cmd : Nat) (s : State) : Host.Outcome State Fault Refusal :=
  touching [.hstP, .mapP, .prgP, .disP, .nelP, .cvnP, .mteP, .memP, .keyP, .botP] (fun s => onCmd s true 0x88 cmd deactivate) s

/-- Memory Range Set Management create defines up to three ranges (R493). -/
def execMemoryRangeSetCreate (cmd : Nat) (hostData : List Byte) (s : State) : Host.Outcome State Fault Refusal :=
  touching [.hstP, .mapP, .prgP, .disP, .nelP, .cvnP, .mteP, .memP, .keyP, .botP] (fun s => onCmd s true 0x89 cmd fun s c => if cdwF c.sqe 10 7 0 = 0 then rangeSetCreate hostData s c else (s, .later)) s

/-- Memory Range Set Management delete removes a set (R493). -/
def execMemoryRangeSetDelete (cmd : Nat) (s : State) : Host.Outcome State Fault Refusal :=
  touching [.hstP, .mapP, .prgP, .disP, .nelP, .cvnP, .mteP, .memP, .keyP, .botP] (fun s => onCmd s true 0x89 cmd fun s c => if cdwF c.sqe 10 7 0 = 1 then rangeSetDelete s c else (s, .later)) s

/-- Execute Program checks the parameter header and starts or defers a run (R499). -/
def execExecuteProgram (cmd : Nat) (hostData : List Byte) (s : State) : Host.Outcome State Fault Refusal :=
  touching [.hstP, .mapP, .prgP, .disP, .nelP, .cvnP, .mteP, .memP, .keyP, .botP] (fun s => onCmd s false 0x01 cmd (executeProgram hostData)) s

/-- I/O command Memory Read on a memory namespace (R491). -/
def execMemoryRead (cmd : Nat) (s : State) : Host.Outcome State Fault Refusal :=
  touching [.hstP, .mapP, .prgP, .disP, .nelP, .cvnP, .mteP, .memP, .keyP, .botP] (fun s => onCmd s false 0x02 cmd fun s c => if (nsAt? s (sqeNsid c.sqe)).any fun x => x.kind == .memory then memoryRead s c else (s, .later)) s

/-- I/O command Memory Write on a memory namespace (R491). -/
def execMemoryWrite (cmd : Nat) (hostData : List Byte) (s : State) : Host.Outcome State Fault Refusal :=
  touching [.hstP, .mapP, .prgP, .disP, .nelP, .cvnP, .mteP, .memP, .keyP, .botP] (fun s => onCmd s false 0x05 cmd fun s c => if (nsAt? s (sqeNsid c.sqe)).any fun x => x.kind == .memory then memoryWrite hostData s c else (s, .later)) s

/-- I/O command Memory Copy from NVM ranges into SLM (R491). -/
def execMemoryCopy (cmd : Nat) (entries : List Byte) (flash : List (Option FlashUnit)) (s : State) : Host.Outcome State Fault Refusal :=
  touching [.hstP, .mapP, .strP, .fchP, .memP, .keyP, .mteP, .ferP, .prgP] (fun s => onCmd s false 0x01 cmd fun s c => if (nsAt? s (sqeNsid c.sqe)).any fun x => x.kind == .memory then memoryCopy entries flash s c else (s, .later)) s

/-- Program TRAP RING_POST makes crew write the ring's TAIL (R498). -/
def execRingPost (c : Clu) (k : CoreIx) (s : State) : Host.Outcome State Fault Refusal :=
  touching [.hstP, .mapP, .prgP, .disP, .nelP, .cvnP, .mteP, .memP, .keyP, .botP] (fun s => ringPost s (coreNo c k)) s

/-- Program TRAP RING_ACK makes crew write CPL_HEAD (R498). -/
def execRingAck (c : Clu) (k : CoreIx) (s : State) : Host.Outcome State Fault Refusal :=
  touching [.hstP, .mapP, .prgP, .disP, .nelP, .cvnP, .mteP, .memP, .keyP, .botP] (fun s => ringAck s (coreNo c k)) s

/-- Program TRAP MATCH_OP makes crew run a window OP in the program's partition (R498). -/
def execMatchOp (c : Clu) (k : CoreIx) (s : State) : Host.Outcome State Fault Refusal :=
  touching [.hstP, .mapP, .prgP, .disP, .nelP, .cvnP, .mteP, .memP, .keyP, .botP] (fun s => matchCall s (coreNo c k)) s

/-- Program TRAP TIME returns the sandglass count (R498). -/
def execTime (c : Clu) (k : CoreIx) (s : State) : Host.Outcome State Fault Refusal :=
  touching [.nelP] (fun s => timeCall s (coreNo c k)) s

/-- LIMIT_MS passes and a crew item ends the run with Program Fault (R501). -/
def execRunLimitExpiry (slot : BitVec 16) (elapsed : Nat) (s : State) : Host.Outcome State Fault Refusal :=
  touching [.hstP, .mapP, .prgP, .disP, .nelP, .cvnP, .mteP, .memP, .keyP, .botP] (fun s => runLimit (advance s elapsed) slot.toNat) s

/-- A program run ends and its Execute Program command completes (R501). -/
def execRunEnd (slot : BitVec 16) (s : State) : Host.Outcome State Fault Refusal :=
  touching [.hstP, .mapP, .prgP, .disP, .nelP, .cvnP, .mteP, .memP, .keyP, .botP] (fun s => runEnd s slot.toNat) s

/-- Execute Program index 0 scans a range in segments through the caravans (R503). -/
def execScanService (cmd : Nat) (hostData : List Byte) (s : State) : Host.Outcome State Fault Refusal :=
  touching [.hstP, .mapP, .strP, .fchP, .memP, .keyP, .mteP, .ferP, .prgP] (fun s => onCmd s false 0x01 cmd (scanService hostData)) s

/-- A bad unit fails its segment, whose stream and output are discarded (R504). -/
def execScanSegmentFail (cmd : Nat) (segment unit : Nat) (stream : Bool) (s : State) : Host.Outcome State Fault Refusal :=
  touching [.hstP, .mapP, .strP, .fchP, .memP, .keyP, .mteP, .ferP, .prgP] (fun s => segmentFail s cmd segment unit (if stream then 2 else 1)) s

/-- A finished segment's staged output is copied to DEST in order (R505). -/
def execScanOutputCopy (cmd : Nat) (flash : List (Option FlashUnit)) (s : State) : Host.Outcome State Fault Refusal :=
  touching [.hstP, .mapP, .strP, .fchP, .memP, .keyP, .mteP, .ferP, .prgP] (fun s => scanCopy s cmd flash) s

/-- Key Value Store writes the value half and flips the bucket entry (R509). -/
def execKvStore (cmd : Nat) (hostData : List Byte) (s : State) : Host.Outcome State Fault Refusal :=
  touching [.hstP, .mapP, .strP, .fchP, .memP, .keyP, .mteP, .ferP, .prgP] (fun s => onCmd s false 0x01 cmd (kvStore hostData)) s

/-- Key Value Retrieve returns the value through the hot index, cache or flash (R509). -/
def execKvRetrieve (cmd : Nat) (flash : List (Option FlashUnit)) (s : State) : Host.Outcome State Fault Refusal :=
  touching [.hstP, .mapP, .strP, .fchP, .memP, .keyP, .mteP, .ferP, .prgP] (fun s => onCmd s false 0x02 cmd (kvRetrieve flash)) s

/-- Key Value Delete clears the entry and trims its halves (R509). -/
def execKvDelete (cmd : Nat) (s : State) : Host.Outcome State Fault Refusal :=
  touching [.hstP, .mapP, .strP, .fchP, .memP, .keyP, .mteP, .ferP, .prgP] (fun s => onCmd s false 0x10 cmd kvDelete) s

/-- Key Value Exist looks the key up (R509). -/
def execKvExist (cmd : Nat) (s : State) : Host.Outcome State Fault Refusal :=
  touching [.hstP, .mapP, .strP, .fchP, .memP, .keyP, .mteP, .ferP, .prgP] (fun s => onCmd s false 0x14 cmd kvExist) s

/-- Key Value List returns keys in bucket and entry order (R509). -/
def execKvList (cmd : Nat) (s : State) : Host.Outcome State Fault Refusal :=
  touching [.hstP, .mapP, .strP, .fchP, .memP, .keyP, .mteP, .ferP, .prgP] (fun s => onCmd s false 0x06 cmd kvList) s

/-- Secondary-index CREATE builds an index in background (R511). -/
def execIndexCreate (cmd : Nat) (hostData : List Byte) (s : State) : Host.Outcome State Fault Refusal :=
  touching [.hstP, .mapP, .prgP] (fun s => onCmd s false 0x01 cmd (indexCreate hostData)) s

/-- Secondary-index DROP removes an index (R511). -/
def execIndexDrop (cmd : Nat) (hostData : List Byte) (s : State) : Host.Outcome State Fault Refusal :=
  touching [.hstP, .mapP, .prgP] (fun s => onCmd s false 0x01 cmd (indexDrop hostData)) s

/-- Secondary-index RANGE writes records in index order (R512). -/
def execIndexRange (cmd : Nat) (hostData : List Byte) (s : State) : Host.Outcome State Fault Refusal :=
  touching [.hstP, .mapP, .prgP, .memP] (fun s => onCmd s false 0x01 cmd (indexRange hostData)) s

/-- Secondary-index STATE reports an index's state (R511). -/
def execIndexState (cmd : Nat) (hostData : List Byte) (s : State) : Host.Outcome State Fault Refusal :=
  touching [.hstP, .mapP, .prgP] (fun s => onCmd s false 0x01 cmd (indexState hostData)) s

/-- The background build of a secondary index reads its last bucket and the index leaves INDEX_BUILDING (R512). -/
def execIndexBuildDone (index : Fin 8) (found : List (List Byte × List Byte)) (s : State) : Host.Outcome State Fault Refusal :=
  touching [.prgP] (fun s => indexBuilt s index.val found) s

end Sys2Proof.Machine
end

