-- ==== Sys2Proof/Machine/RegisterRows.lean ====
section
/-! DEFINITION. Meanings of the commands that write or read one register of a block, its operation registers and ERR_INJECT among them (R91, R110, R118, R160, R174, R227, R261, R267, R310, R336, R337, R370, R376, R389, R393, R420, R460, R463, R470, R485 to R489, R534, R570, R593, R595, R597, R614). -/

namespace Sys2Proof.Machine

/-- HFA/HFB ERR_INJECT injects a bad LCRC, poisoned TLP, timeout or IDE failure (R110). -/
def execHfaErrInject (who : Initiator) (p : Port) (value : Word) (s : State) : Host.Outcome State Fault Refusal :=
  touching allParts (fun s => regWrite s who (pHF p) HF_ERR_INJECT value) s

/-- A write to MARGIN_CTRL requests lane margining (R110). -/
def execMarginCtrlWrite (who : Initiator) (p : Port) (value : Word) (s : State) : Host.Outcome State Fault Refusal :=
  touching [] (fun s => regWrite s who (pHF p) HF_MARGIN_CTRL value) s

/-- NQE ERR_INJECT corrupts a fetched entry or drops a doorbell (R118). -/
def execNqeErrInject (who : Initiator) (value : Word) (s : State) : Host.Outcome State Fault Refusal :=
  touching [.hstP] (fun s => regWrite s who pNQE NQE_ERR_INJECT value) s

/-- A crew write to RETIRE_REQ retires the named die or the channel (R179). -/
def execRetireReq (who : Initiator) (c : Chan) (value : Word) (s : State) : Host.Outcome State Fault Refusal :=
  touching allParts (fun s => regWrite s who (pFCH c.val) FCH_RETIRE_REQ value) s

/-- FCH ERR_INJECT injects decode, timeout, training, status or self-check faults (R160). -/
def execFchErrInject (who : Initiator) (c : Chan) (value : Word) (s : State) : Host.Outcome State Fault Refusal :=
  touching allParts (fun s => regWrite s who (pFCH c.val) FCH_ERR_INJECT value) s

/-- LDS ERR_INJECT fails a soft job or a decoder self-check (R174). -/
def execLdsErrInject (who : Initiator) (value : Word) (s : State) : Host.Outcome State Fault Refusal :=
  touching allParts (fun s => regWrite s who pLDS LDS_ERR_INJECT value) s

/-- A write to MAP.BST_SEL loads the block's entry into BST_W0 to BST_W3 (R211). -/
def execBstSelWrite (who : Initiator) (value : Word) (s : State) : Host.Outcome State Fault Refusal :=
  touching [] (fun s => regWrite s who pMAP MAP_BST_SEL value) s

/-- MAP ERR_INJECT corrupts a window check, issues an ERASE or sets a reserved flag (R227). -/
def execMapErrInject (who : Initiator) (value : Word) (s : State) : Host.Outcome State Fault Refusal :=
  touching allParts (fun s => regWrite s who pMAP MAP_ERR_INJECT value) s

/-- A write to STR.RB_SEL loads a die's rebuild state registers (R261). -/
def execRbSelWrite (who : Initiator) (value : Word) (s : State) : Host.Outcome State Fault Refusal :=
  touching [] (fun s => regWrite s who pSTR STR_RB_SEL value) s

/-- STR ERR_INJECT flips parity, fails verify, loses a survivor or tears a record (R261). -/
def execStrErrInject (who : Initiator) (value : Word) (s : State) : Host.Outcome State Fault Refusal :=
  touching [.strP] (fun s => regWrite s who pSTR STR_ERR_INJECT value) s

/-- PMU.FERRY_INJECT raises PWR_FAIL with VIN unchanged, optionally with a brownout (R267). -/
def execFerryInject (who : Initiator) (value : Word) (micros : Nat) (s : State) : Host.Outcome State Fault Refusal :=
  touching allParts (fun s => regWrite s who pPMU PMU_FERRY_INJECT value micros) s

/-- PMU ERR_INJECT fails a domain switch-on or shadow image (R595). -/
def execPmuErrInject (who : Initiator) (value : Word) (s : State) : Host.Outcome State Fault Refusal :=
  touching [.pwrP] (fun s => regWrite s who pPMU PMU_ERR_INJECT value) s

/-- DMC ERR_INJECT injects a data, address or CA parity error (R310). -/
def execDmcErrInject (who : Initiator) (n : DmcIx) (value : Word) (s : State) : Host.Outcome State Fault Refusal :=
  touching [.memP] (fun s => regWrite s who (pDMC n.val) DMC_ERR_INJECT value) s

/-- LND ERR_INJECT injects a single or double error in a bank (R336). -/
def execLndErrInject (who : Initiator) (value : Word) (s : State) : Host.Outcome State Fault Refusal :=
  touching [.memP] (fun s => regWrite s who pLND LND_ERR_INJECT value) s

/-- MRM ERR_INJECT injects errors, a die failure or a corrupt header (R337). -/
def execMrmErrInject (who : Initiator) (value : Word) (s : State) : Host.Outcome State Fault Refusal :=
  touching [.memP] (fun s => regWrite s who pMRM MRM_ERR_INJECT value) s

/-- A START to LOAD_CTRL checks, holds, writes and releases a cluster image load (R368). -/
def execClusterLoadStart (who : Initiator) (c : Clu) (value : Word) (s : State) : Host.Outcome State Fault Refusal :=
  touching allParts (fun s => regWrite s who (pNCL c.val) NCL_LOAD_CTRL value) s

/-- A write to CORE_RESET resets an idle or halted core (R370). -/
def execCoreReset (who : Initiator) (c : Clu) (value : Word) (s : State) : Host.Outcome State Fault Refusal :=
  touching [.nelP, .disP] (fun s => regWrite s who (pNCL c.val) NCL_CORE_RESET value) s

/-- A write to CORE_RETIRE or a bucket overflow retires a core (R372). -/
def execCoreRetire (who : Initiator) (c : Clu) (value : Word) (s : State) : Host.Outcome State Fault Refusal :=
  touching allParts (fun s => regWrite s who (pNCL c.val) NCL_CORE_RETIRE value) s

/-- NCL ERR_INJECT injects memory errors or a double trap (R370). -/
def execNclErrInject (who : Initiator) (c : Clu) (value : Word) (s : State) : Host.Outcome State Fault Refusal :=
  touching allParts (fun s => regWrite s who (pNCL c.val) NCL_ERR_INJECT value) s

/-- WI_OP READ copies a slot into the window (R376). -/
def execWiRead (who : Initiator) (s : State) : Host.Outcome State Fault Refusal :=
  touching [.disP] (fun s => regWrite s who pDIS DIS_WI_OP 1) s

/-- WI_OP SUBMIT_NEW takes the lowest free general slot and queues it (R376). -/
def execWiSubmitNew (who : Initiator) (s : State) : Host.Outcome State Fault Refusal :=
  touching [.disP] (fun s => regWrite s who pDIS DIS_WI_OP 2) s

/-- WI_OP SUBMIT queues the named slot (R376). -/
def execWiSubmit (who : Initiator) (s : State) : Host.Outcome State Fault Refusal :=
  touching [.disP] (fun s => regWrite s who pDIS DIS_WI_OP 3) s

/-- WI_OP ARM makes the named slot WAITING (R376). -/
def execWiArm (who : Initiator) (s : State) : Host.Outcome State Fault Refusal :=
  touching [.disP] (fun s => regWrite s who pDIS DIS_WI_OP 4) s

/-- WI_OP CANCEL frees a waiting, delayed or ready slot (R376). -/
def execWiCancel (who : Initiator) (s : State) : Host.Outcome State Fault Refusal :=
  touching [.disP] (fun s => regWrite s who pDIS DIS_WI_OP 5) s

/-- WI_OP RELEASE frees a DONE or FAILED slot (R376). -/
def execWiRelease (who : Initiator) (s : State) : Host.Outcome State Fault Refusal :=
  touching [.disP] (fun s => regWrite s who pDIS DIS_WI_OP 6) s

/-- A read of FAIL_NEXT pops the oldest failed slot (R389). -/
def execFailNextRead (who : Initiator) (s : State) : Host.Outcome State Fault Refusal :=
  touching [.disP] (fun s => regRead s who pDIS DIS_FAIL_NEXT) s

/-- A write to HIST_CLEAR clears every queue histogram (R389). -/
def execHistClear (who : Initiator) (value : Word) (s : State) : Host.Outcome State Fault Refusal :=
  touching [.disP] (fun s => regWrite s who pDIS DIS_HIST_CLEAR value) s

/-- A read of CORE_BUSY_LO latches CORE_BUSY_HI (R389). -/
def execCoreBusyLoRead (who : Initiator) (s : State) : Host.Outcome State Fault Refusal :=
  touching [.disP] (fun s => regRead s who pDIS DIS_CORE_BUSY_LO) s

/-- DIS ERR_INJECT corrupts a restore or doubles an interrupt event (R389). -/
def execDisErrInject (who : Initiator) (value : Word) (s : State) : Host.Outcome State Fault Refusal :=
  touching [.disP] (fun s => regWrite s who pDIS DIS_ERR_INJECT value) s

/-- The owner writes a general ring's TAIL, posting descriptors (R393). -/
def execRingTailWrite (who : Initiator) (n : CvnIx) (r : RingIx) (value : Word) (s : State) : Host.Outcome State Fault Refusal :=
  touching allParts (fun s => regWrite s who (pCVN n.val) (rgOff r.val 0x14) value) s

/-- The owner writes a ring's CPL_HEAD, consuming completions (R393). -/
def execRingCplHeadWrite (who : Initiator) (n : CvnIx) (r : RingIx) (value : Word) (s : State) : Host.Outcome State Fault Refusal :=
  touching allParts (fun s => regWrite s who (pCVN n.val) (rgOff r.val 0x1C) value) s

/-- A write to RETIRE, a self-check failure or overflow fences the caravan (R417). -/
def execCaravanRetire (who : Initiator) (n : CvnIx) (value : Word) (s : State) : Host.Outcome State Fault Refusal :=
  touching allParts (fun s => regWrite s who (pCVN n.val) CVN_RETIRE value) s

/-- CVN ERR_INJECT injects restore, self-check, descriptor or output check faults (R420). -/
def execCvnErrInject (who : Initiator) (n : CvnIx) (value : Word) (s : State) : Host.Outcome State Fault Refusal :=
  touching allParts (fun s => regWrite s who (pCVN n.val) CVN_ERR_INJECT value) s

/-- Window OP READ copies a partition entry into the window (R460). -/
def execMteRead (who : Initiator) (window : Fin 16) (s : State) : Host.Outcome State Fault Refusal :=
  touching [.mteP] (fun s => regWrite s who pMTE (winOff window.val MTE_W_OP) 1) s

/-- Window OP UPDATE writes the window into an entry in three steps (R459). -/
def execMteUpdate (who : Initiator) (window : Fin 16) (s : State) : Host.Outcome State Fault Refusal :=
  touching [.mteP] (fun s => regWrite s who pMTE (winOff window.val MTE_W_OP) 2) s

/-- Window OP INVALIDATE invalidates an entry (R460). -/
def execMteInvalidate (who : Initiator) (window : Fin 16) (s : State) : Host.Outcome State Fault Refusal :=
  touching [.mteP] (fun s => regWrite s who pMTE (winOff window.val MTE_W_OP) 3) s

/-- Window OP INSERT shifts entries up to a hole and writes the window at INDEX (R461). -/
def execMteInsert (who : Initiator) (window : Fin 16) (s : State) : Host.Outcome State Fault Refusal :=
  touching [.mteP] (fun s => regWrite s who pMTE (winOff window.val MTE_W_OP) 4) s

/-- Window OP LOOKUP looks up the window key and returns the result (R460). -/
def execMteLookup (who : Initiator) (window : Fin 16) (s : State) : Host.Outcome State Fault Refusal :=
  touching [.mteP] (fun s => regWrite s who pMTE (winOff window.val MTE_W_OP) 5) s

/-- MTE ERR_INJECT corrupts an entry's array bit, row or shadow (R463). -/
def execMteErrInject (who : Initiator) (value : Word) (s : State) : Host.Outcome State Fault Refusal :=
  touching [.mteP] (fun s => regWrite s who pMTE MTE_ERR_INJECT value) s

/-- KOP READ returns a slot's attributes and counter (R470). -/
def execKopRead (who : Initiator) (s : State) : Host.Outcome State Fault Refusal :=
  touching [.keyP, .memP] (fun s => regWrite s who pKEY KEY_KOP 1) s

/-- KOP LOAD loads attributes, counter and key into a slot (R470). -/
def execKopLoad (who : Initiator) (s : State) : Host.Outcome State Fault Refusal :=
  touching [.keyP, .memP] (fun s => regWrite s who pKEY KEY_KOP 2) s

/-- KOP GENERATE loads a slot with DRBG key and FIXED (R470). -/
def execKopGenerate (who : Initiator) (s : State) : Host.Outcome State Fault Refusal :=
  touching [.keyP, .memP] (fun s => regWrite s who pKEY KEY_KOP 3) s

/-- KOP CLEAR zeroises a slot (R470). -/
def execKopClear (who : Initiator) (s : State) : Host.Outcome State Fault Refusal :=
  touching [.keyP, .memP] (fun s => regWrite s who pKEY KEY_KOP 4) s

/-- KOP PIN keeps a slot resident (R470). -/
def execKopPin (who : Initiator) (s : State) : Host.Outcome State Fault Refusal :=
  touching [.keyP, .memP] (fun s => regWrite s who pKEY KEY_KOP 5) s

/-- KOP UNPIN releases a slot's pin (R470). -/
def execKopUnpin (who : Initiator) (s : State) : Host.Outcome State Fault Refusal :=
  touching [.keyP, .memP] (fun s => regWrite s who pKEY KEY_KOP 6) s

/-- KOP LOCK locks a slot (R470). -/
def execKopLock (who : Initiator) (s : State) : Host.Outcome State Fault Refusal :=
  touching [.keyP, .memP] (fun s => regWrite s who pKEY KEY_KOP 7) s

/-- KOP UNLOCK unlocks a slot (R470). -/
def execKopUnlock (who : Initiator) (s : State) : Host.Outcome State Fault Refusal :=
  touching [.keyP, .memP] (fun s => regWrite s who pKEY KEY_KOP 8) s

/-- KOP ROTATE sets a VALID slot to ROTATE (R470). -/
def execKopRotate (who : Initiator) (s : State) : Host.Outcome State Fault Refusal :=
  touching [.keyP, .memP] (fun s => regWrite s who pKEY KEY_KOP 9) s

/-- KEY ERR_INJECT fails an unwrap, a health test or sets a counter near wrap (R489). -/
def execKeyErrInject (who : Initiator) (value : Word) (s : State) : Host.Outcome State Fault Refusal :=
  touching [.keyP] (fun s => regWrite s who pKEY KEY_ERR_INJECT value) s

/-- DGE CMD START begins a digest job from DMA, snoop tap or word writes (R485). -/
def execDgeStart (who : Initiator) (n : DgeIx) (s : State) : Host.Outcome State Fault Refusal :=
  touching [.keyP, .memP] (fun s => regWrite s who (pDGE n.val) DGE_CMD 1) s

/-- DGE CMD FINISH pads and writes the result in SNOOP or WORD mode (R486). -/
def execDgeFinish (who : Initiator) (n : DgeIx) (s : State) : Host.Outcome State Fault Refusal :=
  touching [.keyP, .memP] (fun s => regWrite s who (pDGE n.val) DGE_CMD 2) s

/-- DGE CMD PAUSE stops a job at its next block boundary (R487). -/
def execDgePause (who : Initiator) (n : DgeIx) (s : State) : Host.Outcome State Fault Refusal :=
  touching [.keyP, .memP] (fun s => regWrite s who (pDGE n.val) DGE_CMD 4) s

/-- DGE CMD RESUME checks the state window and continues the job (R487). -/
def execDgeResume (who : Initiator) (n : DgeIx) (s : State) : Host.Outcome State Fault Refusal :=
  touching [.keyP, .memP] (fun s => regWrite s who (pDGE n.val) DGE_CMD 8) s

/-- DGE CMD ABORT returns the engine to IDLE (R487). -/
def execDgeAbort (who : Initiator) (n : DgeIx) (s : State) : Host.Outcome State Fault Refusal :=
  touching [.keyP, .memP] (fun s => regWrite s who (pDGE n.val) DGE_CMD 16) s

/-- A write of DATA_HI in WORD mode hashes 8 bytes (R485). -/
def execDgeDataHiWrite (who : Initiator) (n : DgeIx) (value : Word) (s : State) : Host.Outcome State Fault Refusal :=
  touching [.keyP] (fun s => regWrite s who (pDGE n.val) DGE_DATA_HI value) s

/-- DGE ERR_INJECT fails self-check or corrupts SCHECK (R488). -/
def execDgeErrInject (who : Initiator) (n : DgeIx) (value : Word) (s : State) : Host.Outcome State Fault Refusal :=
  touching allParts (fun s => regWrite s who (pDGE n.val) DGE_ERR_INJECT value) s

/-- SN_CMD START begins the security processor's snoop digest (R534). -/
def execSnStart (who : Initiator) (s : State) : Host.Outcome State Fault Refusal :=
  touching [.keyP, .memP] (fun s => regWrite s who pSCP SCP_SN_CMD 1) s

/-- SN_CMD FINISH completes the snoop digest (R534). -/
def execSnFinish (who : Initiator) (s : State) : Host.Outcome State Fault Refusal :=
  touching [.keyP, .memP] (fun s => regWrite s who pSCP SCP_SN_CMD 2) s

/-- SN_CMD ABORT stops the snoop digest (R534). -/
def execSnAbort (who : Initiator) (s : State) : Host.Outcome State Fault Refusal :=
  touching [.keyP, .memP] (fun s => regWrite s who pSCP SCP_SN_CMD 16) s

/-- SCP ERR_INJECT tears an append or fails an image or ring check (R534). -/
def execScpErrInject (who : Initiator) (value : Word) (s : State) : Host.Outcome State Fault Refusal :=
  touching allParts (fun s => regWrite s who pSCP SCP_ERR_INJECT value) s

/-- SPN ERR_INJECT skips heartbeats, withholds acks, corrupts tags or skews time (R570). -/
def execSpnErrInject (who : Initiator) (value : Word) (s : State) : Host.Outcome State Fault Refusal :=
  touching allParts (fun s => regWrite s who pSPN SPN_ERR_INJECT value) s

/-- A write to TOKEN_CEIL sets the clamped token ceiling (R593). -/
def execTokenCeilWrite (who : Initiator) (value : Word) (s : State) : Host.Outcome State Fault Refusal :=
  touching [] (fun s => regWrite s who pCLE CLE_TOKEN_CEIL value) s

/-- CLE ERR_INJECT retires a phase, heats a sensor, faults a port or drops N (R597). -/
def execCleErrInject (who : Initiator) (value : Word) (s : State) : Host.Outcome State Fault Refusal :=
  touching allParts (fun s => regWrite s who pCLE CLE_ERR_INJECT value) s

/-- A write to FLT.IRESET requests reset of an island (R611). -/
def execIreset (who : Initiator) (value : Word) (s : State) : Host.Outcome State Fault Refusal :=
  touching [.fltP] (fun s => regWrite s who pFLT FLT_IRESET value) s

/-- A write to FLT.LOG_WRITE appends a FIRMWARE entry (R614). -/
def execLogWrite (who : Initiator) (value : Word) (s : State) : Host.Outcome State Fault Refusal :=
  touching [] (fun s => regWrite s who pFLT FLT_LOG_WRITE value) s

/-- FLT ERR_INJECT corrupts a log entry or fills the queue (R614). -/
def execFltErrInject (who : Initiator) (value : Word) (s : State) : Host.Outcome State Fault Refusal :=
  touching [.fltP] (fun s => regWrite s who pFLT FLT_ERR_INJECT value) s

end Sys2Proof.Machine
end

