-- ==== Sys2Proof/Machine/SandglassRows.lean ====
section
/-! DEFINITION. Meanings of the sandglass, launch and snapshot commands that reach the block without a register access (R83 to R101). -/

namespace Sys2Proof.Machine

/-- Every PTM_PERIOD the sandglass runs a PTM dialogue and corrects its count (R83). -/
def execPtmDialogue (port : Port) (elapsed : Nat) (offset : Option Int) (linkOut : Bool) (s : State) : Host.Outcome State Fault Refusal :=
  touching [.sglP] (fun s => whenUp pSGL (fun s => ptmDialogue s port offset linkOut) (advance s elapsed)) s

/-- Three expected SPAN_SYNC edges do not come and SRC_LOST is set (R84). -/
def execSpanSyncMissing (elapsed : Nat) (s : State) : Host.Outcome State Fault Refusal :=
  touching [.sglP] (fun s => whenUp pSGL syncMissing (advance s elapsed)) s

/-- The launch unit dispatches the next due ARMED entry, setting TIE and LATE, and sends its action (R94). -/
def execLaunchDispatch (elapsed : Nat) (s : State) : Host.Outcome State Fault Refusal :=
  touching [.sglP] (fun s => whenUp pLCH launchDispatch (advance s elapsed)) s

/-- 64 ns before its time a SNAP_LATCH entry sends the latch order and becomes FIRED (R95). -/
def execSnapLatchEarlySend (elapsed : Nat) (s : State) : Host.Outcome State Fault Refusal :=
  touching [.sglP] (fun s => whenUp pLCH snapEarlySend (advance s elapsed)) s

/-- A delivered action's outcome returns and the entry becomes FIRED or FAILED (R96). -/
def execLaunchOutcomeReturn (entry : Fin 1024) (s : State) : Host.Outcome State Fault Refusal :=
  touching [.sglP] (fun s => whenUp pLCH (fun s => outcomeReturn s entry.val) s) s

end Sys2Proof.Machine
end

