-- ==== Sys2Proof/Machine/SpanRows.lean ====
section
/-! DEFINITION. Meanings of the span group commands (R84, R132, R547 to R571). -/

namespace Sys2Proof.Machine

/-- A rising SPAN_SYNC edge is captured as a whole millisecond of group time and its pulse code read (R84). -/
def execSpanSyncEdge (elapsed : Nat) (width : Nat) (s : State) : Host.Outcome State Fault Refusal :=
  touching [.sglP] (fun s => spanEdge (advance s elapsed) width) s

/-- A SPAN_EPOCH action applies a committed span generation at its time (R564). -/
def execSpanEpoch (entry : Fin 1024) (s : State) : Host.Outcome State Fault Refusal :=
  touching [.spnP, .memP, .mapP, .keyP, .hstP, .strP, .fchP, .ferP, .sglP] (fun s => deliver s entry.val 6 (fun s e => (spanEpoch s e.arg, 0)) (fun e => e.page)) s

/-- Span Control QUERY returns the group descriptor (R132). -/
def execSpanQuery (cmd : Nat) (s : State) : Host.Outcome State Fault Refusal :=
  touching [.spnP, .memP, .mapP, .keyP, .hstP, .strP, .fchP, .ferP, .sglP] (fun s => onVendor s 0xC1 0 cmd spanQuery) s

/-- Span Control CREATE forms a group with this device as member 0 (R132). -/
def execSpanCreate (cmd : Nat) (hostData : List Byte) (s : State) : Host.Outcome State Fault Refusal :=
  touching [.spnP, .memP, .mapP, .keyP, .hstP, .strP, .fchP, .ferP, .sglP] (fun s => onVendor s 0xC1 1 cmd (spanCreate hostData)) s

/-- Span Control JOIN checks and joins an existing group (R567). -/
def execSpanJoin (cmd : Nat) (hostData : List Byte) (peer : Option SpanPeer) (s : State) : Host.Outcome State Fault Refusal :=
  touching [.spnP, .memP, .mapP, .keyP, .hstP, .strP, .fchP, .ferP, .sglP] (fun s => onVendor s 0xC1 2 cmd (spanJoin hostData peer)) s

/-- Span Control LEAVE sets the member LEAVING until replaced (R569). -/
def execSpanLeave (cmd : Nat) (s : State) : Host.Outcome State Fault Refusal :=
  touching [.spnP, .memP, .mapP, .keyP, .hstP, .strP, .fchP, .ferP, .sglP] (fun s => onVendor s 0xC1 3 cmd spanLeave) s

/-- Span Control WITNESS grants or withdraws the host agent's witness vote (R566). -/
def execSpanWitness (cmd : Nat) (s : State) : Host.Outcome State Fault Refusal :=
  touching [.spnP, .memP, .mapP, .keyP, .hstP, .strP, .fchP, .ferP, .sglP] (fun s => onVendor s 0xC1 4 cmd spanWitness) s

/-- Span Control FENCE asks the coordinator to fence a member (R568). -/
def execSpanFence (cmd : Nat) (s : State) : Host.Outcome State Fault Refusal :=
  touching [.spnP, .memP, .mapP, .keyP, .hstP, .strP, .fchP, .ferP, .sglP] (fun s => onVendor s 0xC1 5 cmd spanFence) s

/-- Security Send 0x0020 loads the span transport key in a Secured SPDM session (R554). -/
def execSpanKeyInstall (cmd : Nat) (hostData : List Byte) (secured : Bool) (s : State) : Host.Outcome State Fault Refusal :=
  touching [.hstP, .mapP, .keyP] (fun s => onSecurity s 0x81 0x20 cmd (spanKeyInstall hostData secured)) s

/-- Span message DATA brings a front's units to the stripe's lead (R555). -/
def execData (h : SpanHdr) (units : List (List Byte)) (s : State) : Host.Outcome State Fault Refusal :=
  touching [.spnP, .memP, .mapP, .keyP, .hstP, .strP, .fchP, .ferP, .sglP] (fun s => whenUp pSPN (fun s => spanOn s 0x01 h (.units units) [] []) s) s

/-- Span message DATA_ACK acknowledges DATA to the front (R555). -/
def execDataAck (h : SpanHdr) (s : State) : Host.Outcome State Fault Refusal :=
  touching [.spnP, .memP, .mapP, .keyP, .hstP, .strP, .fchP, .ferP, .sglP] (fun s => whenUp pSPN (fun s => spanOn s 0x02 h (.ack) [] []) s) s

/-- Span message CHUNK carries units or parity to a holding member (R555). -/
def execChunk (h : SpanHdr) (units : List (List Byte)) (s : State) : Host.Outcome State Fault Refusal :=
  touching [.spnP, .memP, .mapP, .keyP, .hstP, .strP, .fchP, .ferP, .sglP] (fun s => whenUp pSPN (fun s => spanOn s 0x03 h (.units units) [] []) s) s

/-- Span message CHUNK_ACK reports a chunk written (R555). -/
def execChunkAck (h : SpanHdr) (s : State) : Host.Outcome State Fault Refusal :=
  touching [.spnP, .memP, .mapP, .keyP, .hstP, .strP, .fchP, .ferP, .sglP] (fun s => whenUp pSPN (fun s => spanOn s 0x04 h (.ack) [] []) s) s

/-- Span message READ_REQ asks a member for units (R558). -/
def execReadReq (h : SpanHdr) (count : BitVec 16) (flash : List (Option FlashUnit)) (s : State) : Host.Outcome State Fault Refusal :=
  touching [.spnP, .memP, .mapP, .keyP, .hstP, .strP, .fchP, .ferP, .sglP] (fun s => whenUp pSPN (fun s => spanOn s 0x05 h (.ask count.toNat) flash []) s) s

/-- Span message READ_DATA returns units or UNRECOVERABLE (R558). -/
def execReadData (h : SpanHdr) (units : List (List Byte)) (flash : List (Option FlashUnit)) (s : State) : Host.Outcome State Fault Refusal :=
  touching [.spnP, .memP, .mapP, .keyP, .hstP, .strP, .fchP, .ferP, .sglP] (fun s => whenUp pSPN (fun s => spanOn s 0x06 h (.units units) flash []) s) s

/-- Span message REPLICA copies an INTENT to the journal partner (R560). -/
def execReplica (h : SpanHdr) (mask : BitVec 16) (rmw : Bool) (s : State) : Host.Outcome State Fault Refusal :=
  touching [.spnP, .memP, .mapP, .keyP, .hstP, .strP, .fchP, .ferP, .sglP] (fun s => whenUp pSPN (fun s => spanOn s 0x07 h (.replica mask rmw) [] []) s) s

/-- Span message REPLICA_ACK makes the INTENT durable (R560). -/
def execReplicaAck (h : SpanHdr) (s : State) : Host.Outcome State Fault Refusal :=
  touching [.spnP, .memP, .mapP, .keyP, .hstP, .strP, .fchP, .ferP, .sglP] (fun s => whenUp pSPN (fun s => spanOn s 0x08 h (.ack) [] []) s) s

/-- Span message HEARTBEAT carries a member's state and is checked against the group (R567). -/
def execHeartbeat (h : SpanHdr) (beat : SpanBeat) (fetched : List Byte) (s : State) : Host.Outcome State Fault Refusal :=
  touching [.spnP, .memP, .mapP, .keyP, .hstP, .strP, .fchP, .ferP, .sglP] (fun s => whenUp pSPN (fun s => spanOn s 0x10 h (.beat beat) [] fetched) s) s

/-- Every 10 ms a member sends its heartbeat (R561). -/
def execHeartbeatSend (elapsed : Nat) (s : State) : Host.Outcome State Fault Refusal :=
  touching [.spnP, .memP, .mapP, .keyP, .hstP, .strP, .fchP, .ferP, .sglP] (fun s => whenUp pSPN sendBeat (advance s elapsed)) s

/-- Span message SUSPECT reports an unanswered peer to the coordinator (R568). -/
def execSuspect (h : SpanHdr) (m : Fin 8) (s : State) : Host.Outcome State Fault Refusal :=
  touching [.spnP, .memP, .mapP, .keyP, .hstP, .strP, .fchP, .ferP, .sglP] (fun s => whenUp pSPN (fun s => spanOn s 0x11 h (.suspect m) [] []) s) s

/-- Span message PROPOSE offers a new generation for votes (R564). -/
def execPropose (h : SpanHdr) (desc : List Byte) (s : State) : Host.Outcome State Fault Refusal :=
  touching [.spnP, .memP, .mapP, .keyP, .hstP, .strP, .fchP, .ferP, .sglP] (fun s => whenUp pSPN (fun s => spanOn s 0x12 h (.propose desc) [] []) s) s

/-- Span message VOTE answers a proposal (R564). -/
def execVote (h : SpanHdr) (digest : List Byte) (s : State) : Host.Outcome State Fault Refusal :=
  touching [.spnP, .memP, .mapP, .keyP, .hstP, .strP, .fchP, .ferP, .sglP] (fun s => whenUp pSPN (fun s => spanOn s 0x13 h (.vote digest) [] []) s) s

/-- Span message COMMIT fixes a generation and its apply time (R564). -/
def execCommit (h : SpanHdr) (desc : List Byte) (time : BitVec 64) (s : State) : Host.Outcome State Fault Refusal :=
  touching [.spnP, .memP, .mapP, .keyP, .hstP, .strP, .fchP, .ferP, .sglP] (fun s => whenUp pSPN (fun s => spanOn s 0x14 h (.commit desc time) [] []) s) s

/-- Span message WITNESS relays the host's witness vote (R566). -/
def execWitness (h : SpanHdr) (vote : Bool) (s : State) : Host.Outcome State Fault Refusal :=
  touching [.spnP, .memP, .mapP, .keyP, .hstP, .strP, .fchP, .ferP, .sglP] (fun s => whenUp pSPN (fun s => spanOn s 0x15 h (.witness vote) [] []) s) s

/-- Span message GROUP_ACTION gives epoch boundaries and snapshots to members without TIME_OK (R563). -/
def execGroupAction (h : SpanHdr) (act : SpanSync) (s : State) : Host.Outcome State Fault Refusal :=
  touching [.spnP, .memP, .mapP, .keyP, .hstP, .strP, .fchP, .ferP, .sglP] (fun s => whenUp pSPN (fun s => spanOn s 0x16 h (.action act) [] []) s) s

/-- A received span message is decrypted and checked, and dropped on failure (R553). -/
def execSpanMessageReceive (ring : Fin 8) (frame : List Byte) (credit : Nat) (body : SpanBody) (flash : List (Option FlashUnit)) (fetched : List Byte) (s : State) : Host.Outcome State Fault Refusal :=
  touching [.spnP, .memP, .mapP, .keyP, .hstP, .strP, .fchP, .ferP, .sglP] (fun s => whenUp pSPN (fun s => spanReceive s ring.val frame credit body flash fetched) s) s

/-- The GATHER deadline passes and the lead runs read-modify-write parity (R556). -/
def execGatherDeadline (stripe : BitVec 64) (elapsed : Nat) (flash : List (Option FlashUnit)) (s : State) : Host.Outcome State Fault Refusal :=
  touching [.spnP, .memP, .mapP, .keyP, .hstP, .strP, .fchP, .ferP, .sglP] (fun s => gatherDeadline (advance s elapsed) stripe.toNat flash) s

/-- A proposal misses the quorum threshold within 5 ms and is abandoned (R564). -/
def execProposalTimeout (elapsed : Nat) (s : State) : Host.Outcome State Fault Refusal :=
  touching [.spnP, .memP, .mapP, .keyP, .hstP, .strP, .fchP, .ferP, .sglP] (fun s => proposalTimeout (advance s elapsed)) s

/-- A peer message goes unanswered for PEER_TIMEOUT, retried, then SUSPECT sent (R568). -/
def execPeerTimeout (ref : BitVec 32) (elapsed : Nat) (s : State) : Host.Outcome State Fault Refusal :=
  touching [.spnP, .memP, .mapP, .keyP, .hstP, .strP, .fchP, .ferP, .sglP] (fun s => peerTimedOut (advance s elapsed) ref.toNat) s

/-- A member's heartbeats are missing for HB_MISS periods and it is proposed FENCED (R568). -/
def execHbMissExpiry (m : Fin 8) (elapsed : Nat) (s : State) : Host.Outcome State Fault Refusal :=
  touching [.spnP, .memP, .mapP, .keyP, .hstP, .strP, .fchP, .ferP, .sglP] (fun s => beatMissed (advance s elapsed) m.val) s

/-- The I3C controller role passes to the lowest in-service member holding quorum (R561). -/
def execCoordinatorHandoff (elapsed : Nat) (s : State) : Host.Outcome State Fault Refusal :=
  touching [.spnP, .memP, .mapP, .keyP, .hstP, .strP, .fchP, .ferP, .sglP] (fun s => handoff (advance s elapsed)) s

/-- A member journals a new nonce mark before using counters beyond the old one (R554). -/
def execNonceReserve (s : State) : Host.Outcome State Fault Refusal :=
  touching [.spnP, .memP, .mapP, .keyP, .hstP, .strP, .fchP, .ferP, .sglP] (fun s => nonceReserve s) s

/-- A lead resyncs unresynchronised or dirty span stripes (R560). -/
def execSpanResync (stripe : BitVec 64) (chunks : List (BitVec 8 × Option (List (List Byte)))) (s : State) : Host.Outcome State Fault Refusal :=
  touching [.spnP, .memP, .mapP, .keyP, .hstP, .strP, .fchP, .ferP, .sglP] (fun s => whenUp pSPN (fun s => spanResync s stripe.toNat chunks) s) s

/-- Leads rebuild a returning member's dirty stripes (R569). -/
def execSpanRebuild (m : Fin 8) (stripe : BitVec 64) (chunks : List (BitVec 8 × Option (List (List Byte)))) (s : State) : Host.Outcome State Fault Refusal :=
  touching [.spnP, .memP, .mapP, .keyP, .hstP, .strP, .fchP, .ferP, .sglP] (fun s => whenUp pSPN (fun s => spanRebuild s m.val stripe.toNat chunks) s) s

end Sys2Proof.Machine
end

