-- ==== Sys2Proof/Machine/StripeRows.lean ====
section
/-! DEFINITION. Meanings of the stripe engine commands (R235 to R256, R319). -/

namespace Sys2Proof.Machine

/-- The stripe engine opens a block set, placing members and journaling SET_OPEN or SET_SKIP (R235). -/
def execSetOpen (slc : Bool) (s : State) : Host.Outcome State Fault Refusal :=
  touching [.memP, .fchP, .mapP, .strP] (fun s => whenUp pSTR (fun s => openSet s slc) s) s

/-- A data page's program passes, is added to the accumulator and STRIPE_PROG journaled (R237). -/
def execStripeMemberProgram (set : BitVec 32) (units : List PackedUnit) (s : State) : Host.Outcome State Fault Refusal :=
  touching [.memP, .fchP, .mapP, .strP] (fun s => whenUp pSTR (fun s => memberProgram s set.toNat units) s) s

/-- With every data member passed, the engine programs P and Q (R238). -/
def execStripeParityProgram (set : BitVec 32) (s : State) : Host.Outcome State Fault Refusal :=
  touching [.memP, .fchP, .mapP, .strP] (fun s => whenUp pSTR (fun s => parityProgram s set.toNat) s) s

/-- A stripe open for CLOSE_AGE is padded or closed by the fallback (R238). -/
def execStripeCloseAge (set : BitVec 32) (elapsed : Nat) (s : State) : Host.Outcome State Fault Refusal :=
  touching [.memP, .fchP, .mapP, .strP] (fun s => whenUp pSTR (fun s => closeAge s set.toNat) (advance s elapsed)) s

/-- The engine verifies a stripe, journals STRIPE_CLOSE and releases the accumulator (R239). -/
def execStripeVerify (set : BitVec 32) (rungs : List (Fin 32 × Fin 4)) (s : State) : Host.Outcome State Fault Refusal :=
  touching [.memP, .fchP, .mapP, .strP] (fun s => whenUp pSTR (fun s => stripeVerify s set.toNat rungs) s) s

/-- A member program failure closes the set early and moves passed pages to a new set (R240). -/
def execStripeProgramFail (set : BitVec 32) (member : Fin 32) (s : State) : Host.Outcome State Fault Refusal :=
  touching [.memP, .fchP, .mapP, .strP] (fun s => whenUp pSTR (fun s => programFail s set.toNat member.val) s) s

/-- A later data page of a provisional stripe updates its provisional parity (R241). -/
def execRmwParityUpdate (set : BitVec 32) (units : List PackedUnit) (s : State) : Host.Outcome State Fault Refusal :=
  touching [.memP, .fchP, .mapP, .strP] (fun s => whenUp pSTR (fun s => rmwUpdate s set.toNat units) s) s

/-- An uncorrectable accumulator read closes its stripe's set and moves passed pages (R319). -/
def execAccumulatorUe (set : BitVec 32) (s : State) : Host.Outcome State Fault Refusal :=
  touching [.memP, .fchP, .mapP, .strP] (fun s => whenUp pSTR (fun s => accumulatorUe s set.toNat) s) s

/-- An unresynchronised stripe is read, checked and closed or moved (R244). -/
def execStripeResync (outcome : Fin 3) (lost : List (Fin 1024 × BitVec 48)) (s : State) : Host.Outcome State Fault Refusal :=
  touching [.memP, .fchP, .mapP, .strP] (fun s => whenUp pSTR (fun s => stripeResync s outcome.val (lost.map fun u => (u.1.val, u.2.toNat))) s) s

/-- A codeword at rung 4 is reconstructed from its stripe's survivors (R247). -/
def execStripeReconstruct (job : Nat) (survivors : List (Fin 32 × List Byte)) (s : State) : Host.Outcome State Fault Refusal :=
  touching [.memP, .fchP, .mapP, .strP] (fun s => whenUp pSTR (fun s => reconstruct s job survivors) s) s

/-- A die retirement or REBUILD request fences the die and starts its rebuild (R253). -/
def execRebuildStart (die : Fin 1024) (s : State) : Host.Outcome State Fault Refusal :=
  touching [.memP, .fchP, .mapP, .strP] (fun s => whenUp pSTR (fun s => rebuildStart s die.val) s) s

/-- The engine walks the map to list every live unit on the lost die (R254). -/
def execRebuildCensus (die : Fin 1024) (s : State) : Host.Outcome State Fault Refusal :=
  touching [.memP, .fchP, .mapP, .strP] (fun s => whenUp pSTR (fun s => rebuildCensus s die.val) s) s

/-- The engine restores one block of the lost die into a substitute and redirects its units (R255). -/
def execRebuildRestoreBlock (die : Fin 1024) (qMismatch : Nat) (solutions : Nat) (s : State) : Host.Outcome State Fault Refusal :=
  touching [.memP, .fchP, .mapP, .strP] (fun s => whenUp pSTR (fun s => rebuildRestore s die.val qMismatch solutions) s) s

/-- No substitute or a zero share sends a rebuilding die to PAUSED (R253). -/
def execRebuildPause (die : Fin 1024) (s : State) : Host.Outcome State Fault Refusal :=
  touching [.memP, .fchP, .mapP, .strP] (fun s => whenUp pSTR (fun s => rebuildPause s die.val) s) s

/-- A REBUILD of an in-service die copies its held blocks out and retires it (R256). -/
def execCopyOut (die : Fin 1024) (s : State) : Host.Outcome State Fault Refusal :=
  touching [.memP, .fchP, .mapP, .strP] (fun s => whenUp pSTR (fun s => copyOut s die.val) s) s

end Sys2Proof.Machine
end

