-- ==== Sys2Proof/Machine/TollRows.lean ====
section
/-! DEFINITION. Meanings of the collectors, the toll meter, its port and Toll Statement Request (R133, R537 to R546). -/

namespace Sys2Proof.Machine

/-- A source event adds to a coalescing entry of its tap collector, waiting when full (R538). -/
def execCollectorEvent (tap : Fin 4) (kind : BitVec 4) (tenant : BitVec 16) (amount : BitVec 44) (s : State) : Host.Outcome State Fault Refusal :=
  touching [.tolP] (fun s => whenUp pTOL (fun s => collectorEvent s tap.val ⟨kind.toNat, tenant.toNat, amount.toNat⟩) s) s

/-- A collector sends its oldest or overflowing entry as a tap word (R538). -/
def execTapWordSend (tap : Fin 4) (elapsed : Nat) (s : State) : Host.Outcome State Fault Refusal :=
  touching [.tolP] (fun s => whenUp pTOL (fun s => tapSend s tap.val) (advance s elapsed)) s

/-- The meter checks a tap word's CRC and SEQ and applies it to tenant records (R538). -/
def execTapWordReceive (tap : Fin 4) (elapsed : Nat) (noise : BitVec 80) (s : State) : Host.Outcome State Fault Refusal :=
  touching [.tolP] (fun s => tapReceive (advance s elapsed) tap.val noise) s

/-- Each meter second every used record accrues capacity-seconds (R539). -/
def execMeterSecond (elapsed : Nat) (s : State) : Host.Outcome State Fault Refusal :=
  touching [.tolP] (fun s => meterSecond (advance s elapsed)) s

/-- Every 1 s the meter writes its records to the other MRAM copy (R540). -/
def execMeterRecordsCommit (elapsed : Nat) (s : State) : Host.Outcome State Fault Refusal :=
  touching [.tolP] (fun s => meterCommit (meterSecond (advance s elapsed))) s

/-- At PWR_FAIL the collectors send every entry and FLUSHED, and the meter commits (R541). -/
def execTollFlush (s : State) : Host.Outcome State Fault Refusal :=
  touching [.tolP] (fun s => if s.fer.powerFail then tollFlush s else s) s

/-- Toll parameter command INSTALL_AUDITOR installs new auditor keys (R542). -/
def execInstallAuditor (pseq : BitVec 64) (args : List Byte) (oldEd oldMl newEd newMl : List Byte) (s : State) : Host.Outcome State Fault Refusal :=
  touching [.tolP] (fun s => paramCommand s ⟨1, pseq.toNat, args, (oldEd, oldMl), (newEd, newMl)⟩) s

/-- Toll parameter command PERIOD_ALIGN sets the statement minute (R542). -/
def execPeriodAlign (pseq : BitVec 64) (minute : Byte) (sigEd sigMl : List Byte) (s : State) : Host.Outcome State Fault Refusal :=
  touching [.tolP] (fun s => paramCommand s ⟨2, pseq.toNat, [minute], (sigEd, sigMl), ([], [])⟩) s

/-- Toll parameter command TENANT_CLOSE forms a FINAL statement and frees the tenant (R542). -/
def execTenantClose (pseq : BitVec 64) (tenant : BitVec 16) (sigEd sigMl : List Byte) (s : State) : Host.Outcome State Fault Refusal :=
  touching [.tolP] (fun s => paramCommand s ⟨3, pseq.toNat, bytesLE 2 tenant.toNat, (sigEd, sigMl), ([], [])⟩) s

/-- At each hour's PERIOD_ALIGN minute the meter forms and signs a statement (R543). -/
def execScheduledStatement (elapsed : Nat) (s : State) : Host.Outcome State Fault Refusal :=
  touching [.tolP] (fun s => scheduledStatement (advance s elapsed)) s

/-- A REQUEST tap word of TYPE 0 to 5 queues a statement, extract or chain request (R543). -/
def execTollRequest (s : State) : Host.Outcome State Fault Refusal :=
  touching [.tolP] (fun s => tollRequest s) s

/-- The meter finishes signing a statement and presents it as an item (R543). -/
def execStatementFormed (elapsed : Nat) (s : State) : Host.Outcome State Fault Refusal :=
  touching [.tolP] (fun s => statementFormed (advance s elapsed)) s

/-- Every 20 µs the meter presents the next chunk of the current item in the TOL mirror (R545). -/
def execTolChunkSend (elapsed : Nat) (s : State) : Host.Outcome State Fault Refusal :=
  touching [.tolP] (fun s => chunkSend (advance s elapsed)) s

/-- Every 10 ms main firmware polls ITEM_HDR and collects the item's chunks (R545). -/
def execTolPoll (elapsed : Nat) (s : State) : Host.Outcome State Fault Refusal :=
  touching [.tolP, .hstP, .mapP] (fun s => tolPoll (advance s elapsed)) s

/-- Once a second while the Timestamp is set a TIME_MARK word is sent (R537). -/
def execTimeMark (elapsed : Nat) (s : State) : Host.Outcome State Fault Refusal :=
  touching [.tolP] (fun s => whenUp pTOL timeMark (advance s elapsed)) s

/-- Toll port command GET_INFO (R546). -/
def execGetInfo (s : State) : Host.Outcome State Fault Refusal :=
  touching [.tolP] (fun s => portAnswer (meterSync s) 1 (infoBytes (meterSync s))) s

/-- Toll port command GET_CERTS (R546). -/
def execGetCerts (s : State) : Host.Outcome State Fault Refusal :=
  touching [.tolP] (fun s => portAnswer s 2 (Config.tollChain 0 ++ Config.tollChain 1)) s

/-- Toll port command GET_STATEMENT (R546). -/
def execGetStatement (stseq : Word) (s : State) : Host.Outcome State Fault Refusal :=
  touching [.tolP] (fun s => portStatement (meterSync s) stseq.toNat) s

/-- Toll port command GET_EXTRACT (R546). -/
def execGetExtract (stseq : Word) (tenant : BitVec 16) (s : State) : Host.Outcome State Fault Refusal :=
  touching [.tolP] (fun s => portAnswer s 4 (((statementAt? s stseq.toNat).map fun x => x.extract tenant.toNat).getD [])) s

/-- Toll port command GET_AUDIT (R546). -/
def execGetAudit (first last : Word) (s : State) : Host.Outcome State Fault Refusal :=
  touching [.tolP] (fun s => portAudit s first.toNat last.toNat) s

/-- Toll port command PARAM carries a signed parameter command (R542). -/
def execParam (op : Byte) (pseq : BitVec 64) (args : List Byte) (oldEd oldMl newEd newMl : List Byte) (s : State) : Host.Outcome State Fault Refusal :=
  touching [.tolP] (fun s => paramCommand s ⟨op.toNat, pseq.toNat, args, (oldEd, oldMl), (newEd, newMl)⟩) s

/-- Vendor command Toll Statement Request obtains a meter statement or extract (R544). -/
def execTollStatementRequest (cmd : Nat) (s : State) : Host.Outcome State Fault Refusal :=
  touching [.tolP, .hstP, .mapP] (fun s => onVendor s 0xC2 0 cmd tollStatement) s

/-- A Toll Statement Request whose meter has not answered within 2 s ends with Meter Unavailable (R133). -/
def execTollStatementTimeout (cmd : Nat) (elapsed : Nat) (s : State) : Host.Outcome State Fault Refusal :=
  touching [.hstP, .mapP] (fun s => tollTimeout (advance s elapsed) cmd) s

end Sys2Proof.Machine
end

