-- ==== Sys2Proof/Machine/Dispatch.lean ====
section
/-! DEFINITION. One arm per command: each calls its own meaning. -/

namespace Sys2Proof.Machine

/-- The effect of a command on everything but the queue of waiting commands. -/
def exec (i : Instr) (s : State) : Host.Outcome State Fault Refusal :=
  match i with
  | .registerWrite who addr width value => Sys2Proof.Machine.execRegisterWrite who addr width value s
  | .rcRegisterRead who page off => Sys2Proof.Machine.execRcRegisterRead who page off s
  | .irqStatusWrite who page value => Sys2Proof.Machine.execIrqStatusWrite who page value s
  | .irqForce who page value => Sys2Proof.Machine.execIrqForce who page value s
  | .stageCommit who page mode => Sys2Proof.Machine.execStageCommit who page mode s
  | .stageCancel who page => Sys2Proof.Machine.execStageCancel who page s
  | .stageDiscard who page => Sys2Proof.Machine.execStageDiscard who page s
  | .epochDrained page => Sys2Proof.Machine.execEpochDrained page s
  | .applyTimeReached page elapsed => Sys2Proof.Machine.execApplyTimeReached page elapsed s
  | .drainOverrun page elapsed => Sys2Proof.Machine.execDrainOverrun page elapsed s
  | .lbCountWrite who page value => Sys2Proof.Machine.execLbCountWrite who page value s
  | .lbLeak page elapsed => Sys2Proof.Machine.execLbLeak page elapsed s
  | .expertUnlockArm who page => Sys2Proof.Machine.execExpertUnlockArm who page s
  | .expertUnlockOpen who page => Sys2Proof.Machine.execExpertUnlockOpen who page s
  | .expertUnlockExpiry page elapsed => Sys2Proof.Machine.execExpertUnlockExpiry page elapsed s
  | .expertUnlockEnd who page => Sys2Proof.Machine.execExpertUnlockEnd who page s
  | .crossingAck src dst => Sys2Proof.Machine.execCrossingAck src dst s
  | .landingRead who off n => Sys2Proof.Machine.execLandingRead who off n s
  | .landingWrite who off data => Sys2Proof.Machine.execLandingWrite who off data s
  | .mergeEntryFlush site => Sys2Proof.Machine.execMergeEntryFlush site s
  | .mramRead who off n => Sys2Proof.Machine.execMramRead who off n s
  | .mramWrite who off data => Sys2Proof.Machine.execMramWrite who off data s
  | .dramRead who off n => Sys2Proof.Machine.execDramRead who off n s
  | .dramWrite who off data => Sys2Proof.Machine.execDramWrite who off data s
  | .dramMergeRmw n => Sys2Proof.Machine.execDramMergeRmw n s
  | .timeLoRead who => Sys2Proof.Machine.execTimeLoRead who s
  | .ptmDialogue port elapsed offset linkOut => Sys2Proof.Machine.execPtmDialogue port elapsed offset linkOut s
  | .spanSyncEdge elapsed width => Sys2Proof.Machine.execSpanSyncEdge elapsed width s
  | .spanSyncMissing elapsed => Sys2Proof.Machine.execSpanSyncMissing elapsed s
  | .snapFire who value => Sys2Proof.Machine.execSnapFire who value s
  | .snapshotLatch island elapsed => Sys2Proof.Machine.execSnapshotLatch island elapsed s
  | .entryOpRead who => Sys2Proof.Machine.execEntryOpRead who s
  | .entryOpArm who => Sys2Proof.Machine.execEntryOpArm who s
  | .entryOpCancel who => Sys2Proof.Machine.execEntryOpCancel who s
  | .entryOpRelease who => Sys2Proof.Machine.execEntryOpRelease who s
  | .launchDispatch elapsed => Sys2Proof.Machine.execLaunchDispatch elapsed s
  | .snapLatchEarlySend elapsed => Sys2Proof.Machine.execSnapLatchEarlySend elapsed s
  | .launchOutcomeReturn entry => Sys2Proof.Machine.execLaunchOutcomeReturn entry s
  | .commitStage entry => Sys2Proof.Machine.execCommitStage entry s
  | .checkpointBegin source => Sys2Proof.Machine.execCheckpointBegin source s
  | .refreshAlign entry => Sys2Proof.Machine.execRefreshAlign entry s
  | .tokenRateSet entry => Sys2Proof.Machine.execTokenRateSet entry s
  | .spanEpoch entry => Sys2Proof.Machine.execSpanEpoch entry s
  | .programStart entry => Sys2Proof.Machine.execProgramStart entry s
  | .userEvent entry => Sys2Proof.Machine.execUserEvent entry s
  | .tokenSlotStart elapsed current => Sys2Proof.Machine.execTokenSlotStart elapsed current s
  | .refreshInstant elapsed => Sys2Proof.Machine.execRefreshInstant elapsed s
  | .linkUp p rate width => Sys2Proof.Machine.execLinkUp p rate width s
  | .linkDown p => Sys2Proof.Machine.execLinkDown p s
  | .sqDoorbellWrite ctl q value => Sys2Proof.Machine.execSqDoorbellWrite ctl q value s
  | .cqDoorbellWrite ctl q value => Sys2Proof.Machine.execCqDoorbellWrite ctl q value s
  | .commandFetch sqe dataLen prpShort => Sys2Proof.Machine.execCommandFetch sqe dataLen prpShort s
  | .wbHoldRelease cmd => Sys2Proof.Machine.execWbHoldRelease cmd s
  | .completionPost cmd elapsed => Sys2Proof.Machine.execCompletionPost cmd elapsed s
  | .deleteIoSq cmd => Sys2Proof.Machine.execDeleteIoSq cmd s
  | .createIoSq cmd => Sys2Proof.Machine.execCreateIoSq cmd s
  | .deleteIoCq cmd => Sys2Proof.Machine.execDeleteIoCq cmd s
  | .createIoCq cmd => Sys2Proof.Machine.execCreateIoCq cmd s
  | .getLogPage cmd => Sys2Proof.Machine.execGetLogPage cmd s
  | .identify cmd => Sys2Proof.Machine.execIdentify cmd s
  | .abort cmd => Sys2Proof.Machine.execAbort cmd s
  | .setFeatures cmd hostData => Sys2Proof.Machine.execSetFeatures cmd hostData s
  | .getFeatures cmd => Sys2Proof.Machine.execGetFeatures cmd s
  | .asyncEventRequest cmd => Sys2Proof.Machine.execAsyncEventRequest cmd s
  | .namespaceManagement cmd hostData => Sys2Proof.Machine.execNamespaceManagement cmd hostData s
  | .namespaceAttachment cmd hostData => Sys2Proof.Machine.execNamespaceAttachment cmd hostData s
  | .firmwareImageDownload cmd hostData => Sys2Proof.Machine.execFirmwareImageDownload cmd hostData s
  | .firmwareCommit cmd unreadable => Sys2Proof.Machine.execFirmwareCommit cmd unreadable s
  | .deviceSelfTest cmd => Sys2Proof.Machine.execDeviceSelfTest cmd s
  | .directiveSend cmd => Sys2Proof.Machine.execDirectiveSend cmd s
  | .directiveReceive cmd => Sys2Proof.Machine.execDirectiveReceive cmd s
  | .virtualizationManagement cmd => Sys2Proof.Machine.execVirtualizationManagement cmd s
  | .nvmeMiSend cmd hostData micros => Sys2Proof.Machine.execNvmeMiSend cmd hostData micros s
  | .nvmeMiReceive cmd => Sys2Proof.Machine.execNvmeMiReceive cmd s
  | .formatNvm cmd => Sys2Proof.Machine.execFormatNvm cmd s
  | .securitySend cmd hostData act => Sys2Proof.Machine.execSecuritySend cmd hostData act s
  | .securityReceive cmd => Sys2Proof.Machine.execSecurityReceive cmd s
  | .sanitize cmd => Sys2Proof.Machine.execSanitize cmd s
  | .getLbaStatus cmd => Sys2Proof.Machine.execGetLbaStatus cmd s
  | .flush cmd => Sys2Proof.Machine.execFlush cmd s
  | .write cmd hostData flash => Sys2Proof.Machine.execWrite cmd hostData flash s
  | .read cmd flash => Sys2Proof.Machine.execRead cmd flash s
  | .compare cmd hostData flash => Sys2Proof.Machine.execCompare cmd hostData flash s
  | .writeZeroes cmd flash => Sys2Proof.Machine.execWriteZeroes cmd flash s
  | .datasetManagement cmd ranges => Sys2Proof.Machine.execDatasetManagement cmd ranges s
  | .verify cmd flash => Sys2Proof.Machine.execVerify cmd flash s
  | .reservationRegister cmd hostData => Sys2Proof.Machine.execReservationRegister cmd hostData s
  | .reservationReport cmd => Sys2Proof.Machine.execReservationReport cmd s
  | .reservationAcquire cmd hostData => Sys2Proof.Machine.execReservationAcquire cmd hostData s
  | .reservationRelease cmd hostData => Sys2Proof.Machine.execReservationRelease cmd hostData s
  | .copy cmd entries flash => Sys2Proof.Machine.execCopy cmd entries flash s
  | .spanQuery cmd => Sys2Proof.Machine.execSpanQuery cmd s
  | .spanCreate cmd hostData => Sys2Proof.Machine.execSpanCreate cmd hostData s
  | .spanJoin cmd hostData peer => Sys2Proof.Machine.execSpanJoin cmd hostData peer s
  | .spanLeave cmd => Sys2Proof.Machine.execSpanLeave cmd s
  | .spanWitness cmd => Sys2Proof.Machine.execSpanWitness cmd s
  | .spanFence cmd => Sys2Proof.Machine.execSpanFence cmd s
  | .tollStatementRequest cmd => Sys2Proof.Machine.execTollStatementRequest cmd s
  | .snapshotTriggerIssue cmd => Sys2Proof.Machine.execSnapshotTriggerIssue cmd s
  | .snapshotTriggerWait cmd => Sys2Proof.Machine.execSnapshotTriggerWait cmd s
  | .launchTableRead cmd => Sys2Proof.Machine.execLaunchTableRead cmd s
  | .launchTableArm cmd hostData => Sys2Proof.Machine.execLaunchTableArm cmd hostData s
  | .launchTableCancel cmd => Sys2Proof.Machine.execLaunchTableCancel cmd s
  | .launchTableRelease cmd => Sys2Proof.Machine.execLaunchTableRelease cmd s
  | .retentionCreate cmd hostData => Sys2Proof.Machine.execRetentionCreate cmd hostData s
  | .retentionQuery cmd hostData => Sys2Proof.Machine.execRetentionQuery cmd hostData s
  | .retentionExtend cmd hostData => Sys2Proof.Machine.execRetentionExtend cmd hostData s
  | .retentionExpiry elapsed => Sys2Proof.Machine.execRetentionExpiry elapsed s
  | .barchanQuery cmd => Sys2Proof.Machine.execBarchanQuery cmd s
  | .barchanSetLayout cmd hostData => Sys2Proof.Machine.execBarchanSetLayout cmd hostData s
  | .barchanSetShare cmd => Sys2Proof.Machine.execBarchanSetShare cmd s
  | .barchanSpareDie cmd => Sys2Proof.Machine.execBarchanSpareDie cmd s
  | .barchanRebuild cmd => Sys2Proof.Machine.execBarchanRebuild cmd s
  | .barchanResync cmd => Sys2Proof.Machine.execBarchanResync cmd s
  | .powerStateEntryStep last elapsed => Sys2Proof.Machine.execPowerStateEntryStep last elapsed s
  | .powerStateExit => Sys2Proof.Machine.execPowerStateExit s
  | .partitionReset fn => Sys2Proof.Machine.execPartitionReset fn s
  | .mgmtRequest msg elapsed => Sys2Proof.Machine.execMgmtRequest msg elapsed s
  | .readNvmeMiDataStructure dtyp ctl inBand => Sys2Proof.Machine.execReadNvmeMiDataStructure dtyp ctl inBand s
  | .subsystemHealthStatusPoll clear inBand => Sys2Proof.Machine.execSubsystemHealthStatusPoll clear inBand s
  | .controllerHealthStatusPoll first inBand => Sys2Proof.Machine.execControllerHealthStatusPoll first inBand s
  | .configurationSet id value inBand => Sys2Proof.Machine.execConfigurationSet id value inBand s
  | .configurationGet id inBand => Sys2Proof.Machine.execConfigurationGet id inBand s
  | .vpdRead off len inBand => Sys2Proof.Machine.execVpdRead off len inBand s
  | .vpdWrite off bytes inBand => Sys2Proof.Machine.execVpdWrite off bytes inBand s
  | .nvmeMiReset kind inBand micros => Sys2Proof.Machine.execNvmeMiReset kind inBand micros s
  | .tunnelledAdminCommand sqe hostData => Sys2Proof.Machine.execTunnelledAdminCommand sqe hostData s
  | .spdmRequest port req => Sys2Proof.Machine.execSpdmRequest port req s
  | .channelStart c answers => Sys2Proof.Machine.execChannelStart c answers s
  | .channelTraining c eyes => Sys2Proof.Machine.execChannelTraining c eyes s
  | .trainingCheck c elapsed drift => Sys2Proof.Machine.execTrainingCheck c elapsed drift s
  | .retrainAttempt c elapsed passed => Sys2Proof.Machine.execRetrainAttempt c elapsed passed s
  | .dieReadIssue c p elapsed => Sys2Proof.Machine.execDieReadIssue c p elapsed s
  | .readAgePromotion c p elapsed => Sys2Proof.Machine.execReadAgePromotion c p elapsed s
  | .tokenRequest elapsed group => Sys2Proof.Machine.execTokenRequest elapsed group s
  | .eraseIssue c p => Sys2Proof.Machine.execEraseIssue c p s
  | .dieSuspend c p elapsed => Sys2Proof.Machine.execDieSuspend c p elapsed s
  | .dieResume c p elapsed => Sys2Proof.Machine.execDieResume c p elapsed s
  | .dieOpComplete c p elapsed pass => Sys2Proof.Machine.execDieOpComplete c p elapsed pass s
  | .hardDecodeDone c job pass weight bytes => Sys2Proof.Machine.execHardDecodeDone c job pass weight bytes s
  | .softDecodeJobDone dec pass weight bytes => Sys2Proof.Machine.execSoftDecodeJobDone dec pass weight bytes s
  | .ladderBudgetExpiry c job elapsed => Sys2Proof.Machine.execLadderBudgetExpiry c job elapsed s
  | .decoderSelfCheck dec good => Sys2Proof.Machine.execDecoderSelfCheck dec good s
  | .dieTimeout c p => Sys2Proof.Machine.execDieTimeout c p s
  | .fchTransientRetry c p elapsed ready => Sys2Proof.Machine.execFchTransientRetry c p elapsed ready s
  | .retireReq who c value => Sys2Proof.Machine.execRetireReq who c value s
  | .mapLookup handle unit => Sys2Proof.Machine.execMapLookup handle unit s
  | .mapPageFill handle page recovered => Sys2Proof.Machine.execMapPageFill handle page recovered s
  | .mapWriteBack handle page loc => Sys2Proof.Machine.execMapWriteBack handle page loc s
  | .hmwEnable granted => Sys2Proof.Machine.execHmwEnable granted s
  | .mapChange change => Sys2Proof.Machine.execMapChange change s
  | .journalRecordDurable => Sys2Proof.Machine.execJournalRecordDurable s
  | .journalRingFullHold => Sys2Proof.Machine.execJournalRingFullHold s
  | .blockStateChange die block => Sys2Proof.Machine.execBlockStateChange die block s
  | .migrationStart => Sys2Proof.Machine.execMigrationStart s
  | .gcVictimSelect => Sys2Proof.Machine.execGcVictimSelect s
  | .staticWearLevel die => Sys2Proof.Machine.execStaticWearLevel die s
  | .throttleWindow elapsed => Sys2Proof.Machine.execThrottleWindow elapsed s
  | .bstSelWrite who value => Sys2Proof.Machine.execBstSelWrite who value s
  | .mapErrInject who value => Sys2Proof.Machine.execMapErrInject who value s
  | .setOpen slc => Sys2Proof.Machine.execSetOpen slc s
  | .stripeMemberProgram set units => Sys2Proof.Machine.execStripeMemberProgram set units s
  | .stripeParityProgram set => Sys2Proof.Machine.execStripeParityProgram set s
  | .stripeCloseAge set elapsed => Sys2Proof.Machine.execStripeCloseAge set elapsed s
  | .stripeVerify set rungs => Sys2Proof.Machine.execStripeVerify set rungs s
  | .stripeProgramFail set member => Sys2Proof.Machine.execStripeProgramFail set member s
  | .rmwParityUpdate set units => Sys2Proof.Machine.execRmwParityUpdate set units s
  | .accumulatorUe set => Sys2Proof.Machine.execAccumulatorUe set s
  | .stripeResync outcome lost => Sys2Proof.Machine.execStripeResync outcome lost s
  | .stripeReconstruct job survivors => Sys2Proof.Machine.execStripeReconstruct job survivors s
  | .rebuildStart die => Sys2Proof.Machine.execRebuildStart die s
  | .rebuildCensus die => Sys2Proof.Machine.execRebuildCensus die s
  | .rebuildRestoreBlock die qMismatch solutions => Sys2Proof.Machine.execRebuildRestoreBlock die qMismatch solutions s
  | .rebuildPause die => Sys2Proof.Machine.execRebuildPause die s
  | .copyOut die => Sys2Proof.Machine.execCopyOut die s
  | .rbSelWrite who value => Sys2Proof.Machine.execRbSelWrite who value s
  | .strErrInject who value => Sys2Proof.Machine.execStrErrInject who value s
  | .pwrFail vin vmin micros cut => Sys2Proof.Machine.execPwrFail vin vmin micros cut s
  | .restartHoldExpiry elapsed vin => Sys2Proof.Machine.execRestartHoldExpiry elapsed vin s
  | .ferryInject who value micros => Sys2Proof.Machine.execFerryInject who value micros s
  | .restartRecovery survey => Sys2Proof.Machine.execRestartRecovery survey s
  | .dramTraining n failed => Sys2Proof.Machine.execDramTraining n failed s
  | .dqsTracking n elapsed lost => Sys2Proof.Machine.execDqsTracking n elapsed lost s
  | .mr4TempRead n elapsed code0 code1 temp0 temp1 => Sys2Proof.Machine.execMr4TempRead n elapsed code0 code1 temp0 temp1 s
  | .caParityAlert n rank => Sys2Proof.Machine.execCaParityAlert n rank s
  | .rankMigrationStep micros => Sys2Proof.Machine.execRankMigrationStep micros s
  | .selfRefreshEntry upper => Sys2Proof.Machine.execSelfRefreshEntry upper s
  | .selfRefreshExit upper => Sys2Proof.Machine.execSelfRefreshExit upper s
  | .dmcErrInject who n value => Sys2Proof.Machine.execDmcErrInject who n value s
  | .mramDieFail die => Sys2Proof.Machine.execMramDieFail die s
  | .mramFrameAssign lframe => Sys2Proof.Machine.execMramFrameAssign lframe s
  | .mramFrameSwap => Sys2Proof.Machine.execMramFrameSwap s
  | .mramFrameRetire frame => Sys2Proof.Machine.execMramFrameRetire frame s
  | .wearMeterRelease elapsed => Sys2Proof.Machine.execWearMeterRelease elapsed s
  | .patrolScrubRead site offset passEnds => Sys2Proof.Machine.execPatrolScrubRead site offset passEnds s
  | .lndErrInject who value => Sys2Proof.Machine.execLndErrInject who value s
  | .mrmErrInject who value => Sys2Proof.Machine.execMrmErrInject who value s
  | .add c k rd rs1 rs2 resv => Sys2Proof.Machine.execAdd c k rd rs1 rs2 resv s
  | .sub c k rd rs1 rs2 resv => Sys2Proof.Machine.execSub c k rd rs1 rs2 resv s
  | .and c k rd rs1 rs2 resv => Sys2Proof.Machine.execAnd c k rd rs1 rs2 resv s
  | .or c k rd rs1 rs2 resv => Sys2Proof.Machine.execOr c k rd rs1 rs2 resv s
  | .xor c k rd rs1 rs2 resv => Sys2Proof.Machine.execXor c k rd rs1 rs2 resv s
  | .nor c k rd rs1 rs2 resv => Sys2Proof.Machine.execNor c k rd rs1 rs2 resv s
  | .sll c k rd rs1 rs2 resv => Sys2Proof.Machine.execSll c k rd rs1 rs2 resv s
  | .srl c k rd rs1 rs2 resv => Sys2Proof.Machine.execSrl c k rd rs1 rs2 resv s
  | .sra c k rd rs1 rs2 resv => Sys2Proof.Machine.execSra c k rd rs1 rs2 resv s
  | .slt c k rd rs1 rs2 resv => Sys2Proof.Machine.execSlt c k rd rs1 rs2 resv s
  | .sltu c k rd rs1 rs2 resv => Sys2Proof.Machine.execSltu c k rd rs1 rs2 resv s
  | .rotr c k rd rs1 rs2 resv => Sys2Proof.Machine.execRotr c k rd rs1 rs2 resv s
  | .mul c k rd rs1 rs2 resv => Sys2Proof.Machine.execMul c k rd rs1 rs2 resv s
  | .mulh c k rd rs1 rs2 resv => Sys2Proof.Machine.execMulh c k rd rs1 rs2 resv s
  | .mulhu c k rd rs1 rs2 resv => Sys2Proof.Machine.execMulhu c k rd rs1 rs2 resv s
  | .div c k rd rs1 rs2 resv => Sys2Proof.Machine.execDiv c k rd rs1 rs2 resv s
  | .divu c k rd rs1 rs2 resv => Sys2Proof.Machine.execDivu c k rd rs1 rs2 resv s
  | .rem c k rd rs1 rs2 resv => Sys2Proof.Machine.execRem c k rd rs1 rs2 resv s
  | .remu c k rd rs1 rs2 resv => Sys2Proof.Machine.execRemu c k rd rs1 rs2 resv s
  | .addi c k rd rs1 imm => Sys2Proof.Machine.execAddi c k rd rs1 imm s
  | .andi c k rd rs1 imm => Sys2Proof.Machine.execAndi c k rd rs1 imm s
  | .ori c k rd rs1 imm => Sys2Proof.Machine.execOri c k rd rs1 imm s
  | .xori c k rd rs1 imm => Sys2Proof.Machine.execXori c k rd rs1 imm s
  | .slti c k rd rs1 imm => Sys2Proof.Machine.execSlti c k rd rs1 imm s
  | .sltiu c k rd rs1 imm => Sys2Proof.Machine.execSltiu c k rd rs1 imm s
  | .lui c k rd resv imm => Sys2Proof.Machine.execLui c k rd resv imm s
  | .slli c k rd rs1 resv amount => Sys2Proof.Machine.execSlli c k rd rs1 resv amount s
  | .srli c k rd rs1 resv amount => Sys2Proof.Machine.execSrli c k rd rs1 resv amount s
  | .srai c k rd rs1 resv amount => Sys2Proof.Machine.execSrai c k rd rs1 resv amount s
  | .rotri c k rd rs1 resv amount => Sys2Proof.Machine.execRotri c k rd rs1 resv amount s
  | .lb c k rd rs1 imm host => Sys2Proof.Machine.execLb c k rd rs1 imm host s
  | .lbu c k rd rs1 imm host => Sys2Proof.Machine.execLbu c k rd rs1 imm host s
  | .lh c k rd rs1 imm host => Sys2Proof.Machine.execLh c k rd rs1 imm host s
  | .lhu c k rd rs1 imm host => Sys2Proof.Machine.execLhu c k rd rs1 imm host s
  | .lw c k rd rs1 imm host => Sys2Proof.Machine.execLw c k rd rs1 imm host s
  | .lbP c k rd rs1 imm host => Sys2Proof.Machine.execLbP c k rd rs1 imm host s
  | .lbuP c k rd rs1 imm host => Sys2Proof.Machine.execLbuP c k rd rs1 imm host s
  | .lhP c k rd rs1 imm host => Sys2Proof.Machine.execLhP c k rd rs1 imm host s
  | .lhuP c k rd rs1 imm host => Sys2Proof.Machine.execLhuP c k rd rs1 imm host s
  | .lwP c k rd rs1 imm host => Sys2Proof.Machine.execLwP c k rd rs1 imm host s
  | .sb c k rt rs1 imm => Sys2Proof.Machine.execSb c k rt rs1 imm s
  | .sh c k rt rs1 imm => Sys2Proof.Machine.execSh c k rt rs1 imm s
  | .sw c k rt rs1 imm => Sys2Proof.Machine.execSw c k rt rs1 imm s
  | .sbP c k rt rs1 imm => Sys2Proof.Machine.execSbP c k rt rs1 imm s
  | .shP c k rt rs1 imm => Sys2Proof.Machine.execShP c k rt rs1 imm s
  | .swP c k rt rs1 imm => Sys2Proof.Machine.execSwP c k rt rs1 imm s
  | .cbEq c k rs1 rs2 off => Sys2Proof.Machine.execCbEq c k rs1 rs2 off s
  | .cbNe c k rs1 rs2 off => Sys2Proof.Machine.execCbNe c k rs1 rs2 off s
  | .cbLt c k rs1 rs2 off => Sys2Proof.Machine.execCbLt c k rs1 rs2 off s
  | .cbGe c k rs1 rs2 off => Sys2Proof.Machine.execCbGe c k rs1 rs2 off s
  | .cbLtu c k rs1 rs2 off => Sys2Proof.Machine.execCbLtu c k rs1 rs2 off s
  | .cbGeu c k rs1 rs2 off => Sys2Proof.Machine.execCbGeu c k rs1 rs2 off s
  | .bts c k rs1 bitNo off => Sys2Proof.Machine.execBts c k rs1 bitNo off s
  | .btc c k rs1 bitNo off => Sys2Proof.Machine.execBtc c k rs1 bitNo off s
  | .cbiEq c k rs1 imm off => Sys2Proof.Machine.execCbiEq c k rs1 imm off s
  | .cbiNe c k rs1 imm off => Sys2Proof.Machine.execCbiNe c k rs1 imm off s
  | .cbiLt c k rs1 imm off => Sys2Proof.Machine.execCbiLt c k rs1 imm off s
  | .cbiGe c k rs1 imm off => Sys2Proof.Machine.execCbiGe c k rs1 imm off s
  | .cbiLtu c k rs1 imm off => Sys2Proof.Machine.execCbiLtu c k rs1 imm off s
  | .cbiGeu c k rs1 imm off => Sys2Proof.Machine.execCbiGeu c k rs1 imm off s
  | .j c k off => Sys2Proof.Machine.execJ c k off s
  | .call c k off => Sys2Proof.Machine.execCall c k off s
  | .ret c k resv => Sys2Proof.Machine.execRet c k resv s
  | .jr c k rs1 resv => Sys2Proof.Machine.execJr c k rs1 resv s
  | .callr c k rs1 resv => Sys2Proof.Machine.execCallr c k rs1 resv s
  | .mfs c k rd sr resv => Sys2Proof.Machine.execMfs c k rd sr resv s
  | .mts c k sr rs1 resv => Sys2Proof.Machine.execMts c k sr rs1 resv s
  | .trap c k code resv => Sys2Proof.Machine.execTrap c k code resv s
  | .tret c k resv => Sys2Proof.Machine.execTret c k resv s
  | .fence c k resv => Sys2Proof.Machine.execFence c k resv s
  | .endw c k resv => Sys2Proof.Machine.execEndw c k resv s
  | .swap c k rd rs1 rs2 resv => Sys2Proof.Machine.execSwap c k rd rs1 rs2 resv s
  | .aadd c k rd rs1 rs2 resv => Sys2Proof.Machine.execAadd c k rd rs1 rs2 resv s
  | .aand c k rd rs1 rs2 resv => Sys2Proof.Machine.execAand c k rd rs1 rs2 resv s
  | .aor c k rd rs1 rs2 resv => Sys2Proof.Machine.execAor c k rd rs1 rs2 resv s
  | .cas c k rd rs1 rs2 resv => Sys2Proof.Machine.execCas c k rd rs1 rs2 resv s
  | .mcx c k rd rs1 rs2 imm slot host => Sys2Proof.Machine.execMcx c k rd rs1 rs2 imm slot host s
  | .clusterLoadStart who c value => Sys2Proof.Machine.execClusterLoadStart who c value s
  | .coreReset who c value => Sys2Proof.Machine.execCoreReset who c value s
  | .coreRetire who c value => Sys2Proof.Machine.execCoreRetire who c value s
  | .nclErrInject who c value => Sys2Proof.Machine.execNclErrInject who c value s
  | .wiRead who => Sys2Proof.Machine.execWiRead who s
  | .wiSubmitNew who => Sys2Proof.Machine.execWiSubmitNew who s
  | .wiSubmit who => Sys2Proof.Machine.execWiSubmit who s
  | .wiArm who => Sys2Proof.Machine.execWiArm who s
  | .wiCancel who => Sys2Proof.Machine.execWiCancel who s
  | .wiRelease who => Sys2Proof.Machine.execWiRelease who s
  | .pageInterrupt page => Sys2Proof.Machine.execPageInterrupt page s
  | .dispatcherTick elapsed => Sys2Proof.Machine.execDispatcherTick elapsed s
  | .itemDispatch c elapsed => Sys2Proof.Machine.execItemDispatch c elapsed s
  | .itemPreempt c elapsed => Sys2Proof.Machine.execItemPreempt c elapsed s
  | .failNextRead who => Sys2Proof.Machine.execFailNextRead who s
  | .histClear who value => Sys2Proof.Machine.execHistClear who value s
  | .coreBusyLoRead who => Sys2Proof.Machine.execCoreBusyLoRead who s
  | .disErrInject who value => Sys2Proof.Machine.execDisErrInject who value s
  | .ringTailWrite who n r value => Sys2Proof.Machine.execRingTailWrite who n r value s
  | .ringCplHeadWrite who n r value => Sys2Proof.Machine.execRingCplHeadWrite who n r value s
  | .caravanJobAdmit n r => Sys2Proof.Machine.execCaravanJobAdmit n r s
  | .caravanJobStart n hostData elapsed => Sys2Proof.Machine.execCaravanJobStart n hostData elapsed s
  | .caravanJobEnd n extra elapsed => Sys2Proof.Machine.execCaravanJobEnd n extra elapsed s
  | .caravanSuspend n elapsed => Sys2Proof.Machine.execCaravanSuspend n elapsed s
  | .pathJobPost path desc tenant handle unit => Sys2Proof.Machine.execPathJobPost path desc tenant handle unit s
  | .caravanRetire who n value => Sys2Proof.Machine.execCaravanRetire who n value s
  | .cvnErrInject who n value => Sys2Proof.Machine.execCvnErrInject who n value s
  | .matchLookup part key => Sys2Proof.Machine.execMatchLookup part key s
  | .mteRead who window => Sys2Proof.Machine.execMteRead who window s
  | .mteUpdate who window => Sys2Proof.Machine.execMteUpdate who window s
  | .mteInvalidate who window => Sys2Proof.Machine.execMteInvalidate who window s
  | .mteInsert who window => Sys2Proof.Machine.execMteInsert who window s
  | .mteLookup who window => Sys2Proof.Machine.execMteLookup who window s
  | .mteSweep elapsed => Sys2Proof.Machine.execMteSweep elapsed s
  | .mteErrInject who value => Sys2Proof.Machine.execMteErrInject who value s
  | .keyUnwrap slot intact => Sys2Proof.Machine.execKeyUnwrap slot intact s
  | .keyStoreSuspend => Sys2Proof.Machine.execKeyStoreSuspend s
  | .keyStoreRestore => Sys2Proof.Machine.execKeyStoreRestore s
  | .kopRead who => Sys2Proof.Machine.execKopRead who s
  | .kopLoad who => Sys2Proof.Machine.execKopLoad who s
  | .kopGenerate who => Sys2Proof.Machine.execKopGenerate who s
  | .kopClear who => Sys2Proof.Machine.execKopClear who s
  | .kopPin who => Sys2Proof.Machine.execKopPin who s
  | .kopUnpin who => Sys2Proof.Machine.execKopUnpin who s
  | .kopLock who => Sys2Proof.Machine.execKopLock who s
  | .kopUnlock who => Sys2Proof.Machine.execKopUnlock who s
  | .kopRotate who => Sys2Proof.Machine.execKopRotate who s
  | .entropyHealthFail => Sys2Proof.Machine.execEntropyHealthFail s
  | .drbgReseed elapsed => Sys2Proof.Machine.execDrbgReseed elapsed s
  | .entropyRecovery => Sys2Proof.Machine.execEntropyRecovery s
  | .keyErrInject who value => Sys2Proof.Machine.execKeyErrInject who value s
  | .dgeStart who n => Sys2Proof.Machine.execDgeStart who n s
  | .dgeFinish who n => Sys2Proof.Machine.execDgeFinish who n s
  | .dgePause who n => Sys2Proof.Machine.execDgePause who n s
  | .dgeResume who n => Sys2Proof.Machine.execDgeResume who n s
  | .dgeAbort who n => Sys2Proof.Machine.execDgeAbort who n s
  | .dgeDataHiWrite who n value => Sys2Proof.Machine.execDgeDataHiWrite who n value s
  | .dgeDmaDone n hostBytes => Sys2Proof.Machine.execDgeDmaDone n hostBytes s
  | .dgeErrInject who n value => Sys2Proof.Machine.execDgeErrInject who n value s
  | .loadProgram cmd hostData => Sys2Proof.Machine.execLoadProgram cmd hostData s
  | .programActivate cmd => Sys2Proof.Machine.execProgramActivate cmd s
  | .programDeactivate cmd => Sys2Proof.Machine.execProgramDeactivate cmd s
  | .memoryRangeSetCreate cmd hostData => Sys2Proof.Machine.execMemoryRangeSetCreate cmd hostData s
  | .memoryRangeSetDelete cmd => Sys2Proof.Machine.execMemoryRangeSetDelete cmd s
  | .executeProgram cmd hostData => Sys2Proof.Machine.execExecuteProgram cmd hostData s
  | .memoryRead cmd => Sys2Proof.Machine.execMemoryRead cmd s
  | .memoryWrite cmd hostData => Sys2Proof.Machine.execMemoryWrite cmd hostData s
  | .memoryCopy cmd entries flash => Sys2Proof.Machine.execMemoryCopy cmd entries flash s
  | .ringPost c k => Sys2Proof.Machine.execRingPost c k s
  | .ringAck c k => Sys2Proof.Machine.execRingAck c k s
  | .matchOp c k => Sys2Proof.Machine.execMatchOp c k s
  | .time c k => Sys2Proof.Machine.execTime c k s
  | .runLimitExpiry slot elapsed => Sys2Proof.Machine.execRunLimitExpiry slot elapsed s
  | .runEnd slot => Sys2Proof.Machine.execRunEnd slot s
  | .scanService cmd hostData => Sys2Proof.Machine.execScanService cmd hostData s
  | .scanSegmentFail cmd segment unit stream => Sys2Proof.Machine.execScanSegmentFail cmd segment unit stream s
  | .scanOutputCopy cmd flash => Sys2Proof.Machine.execScanOutputCopy cmd flash s
  | .kvStore cmd hostData => Sys2Proof.Machine.execKvStore cmd hostData s
  | .kvRetrieve cmd flash => Sys2Proof.Machine.execKvRetrieve cmd flash s
  | .kvDelete cmd => Sys2Proof.Machine.execKvDelete cmd s
  | .kvExist cmd => Sys2Proof.Machine.execKvExist cmd s
  | .kvList cmd => Sys2Proof.Machine.execKvList cmd s
  | .indexCreate cmd hostData => Sys2Proof.Machine.execIndexCreate cmd hostData s
  | .indexDrop cmd hostData => Sys2Proof.Machine.execIndexDrop cmd hostData s
  | .indexRange cmd hostData => Sys2Proof.Machine.execIndexRange cmd hostData s
  | .indexState cmd hostData => Sys2Proof.Machine.execIndexState cmd hostData s
  | .bootSequence elapsed nor unreadable badSlots => Sys2Proof.Machine.execBootSequence elapsed nor unreadable badSlots s
  | .replicaCheck elapsed unreadable => Sys2Proof.Machine.execReplicaCheck elapsed unreadable s
  | .counterAdvance elapsed => Sys2Proof.Machine.execCounterAdvance elapsed s
  | .policyInstall cmd hostData => Sys2Proof.Machine.execPolicyInstall cmd hostData s
  | .counterAdvanceSend cmd hostData => Sys2Proof.Machine.execCounterAdvanceSend cmd hostData s
  | .boardRecordWrite cmd hostData => Sys2Proof.Machine.execBoardRecordWrite cmd hostData s
  | .spanKeyInstall cmd hostData secured => Sys2Proof.Machine.execSpanKeyInstall cmd hostData secured s
  | .certificateChainsReceive cmd => Sys2Proof.Machine.execCertificateChainsReceive cmd s
  | .policyReceive cmd => Sys2Proof.Machine.execPolicyReceive cmd s
  | .countersReceive cmd => Sys2Proof.Machine.execCountersReceive cmd s
  | .boardRecordReceive cmd => Sys2Proof.Machine.execBoardRecordReceive cmd s
  | .bootRecordAppend elapsed norLocked => Sys2Proof.Machine.execBootRecordAppend elapsed norLocked s
  | .snStart who => Sys2Proof.Machine.execSnStart who s
  | .snFinish who => Sys2Proof.Machine.execSnFinish who s
  | .snAbort who => Sys2Proof.Machine.execSnAbort who s
  | .scpErrInject who value => Sys2Proof.Machine.execScpErrInject who value s
  | .collectorEvent tap kind tenant amount => Sys2Proof.Machine.execCollectorEvent tap kind tenant amount s
  | .tapWordSend tap elapsed => Sys2Proof.Machine.execTapWordSend tap elapsed s
  | .tapWordReceive tap elapsed noise => Sys2Proof.Machine.execTapWordReceive tap elapsed noise s
  | .meterSecond elapsed => Sys2Proof.Machine.execMeterSecond elapsed s
  | .meterRecordsCommit elapsed => Sys2Proof.Machine.execMeterRecordsCommit elapsed s
  | .tollFlush => Sys2Proof.Machine.execTollFlush s
  | .installAuditor pseq args oldEd oldMl newEd newMl => Sys2Proof.Machine.execInstallAuditor pseq args oldEd oldMl newEd newMl s
  | .periodAlign pseq minute sigEd sigMl => Sys2Proof.Machine.execPeriodAlign pseq minute sigEd sigMl s
  | .tenantClose pseq tenant sigEd sigMl => Sys2Proof.Machine.execTenantClose pseq tenant sigEd sigMl s
  | .scheduledStatement elapsed => Sys2Proof.Machine.execScheduledStatement elapsed s
  | .tollRequest => Sys2Proof.Machine.execTollRequest s
  | .statementFormed elapsed => Sys2Proof.Machine.execStatementFormed elapsed s
  | .tolChunkSend elapsed => Sys2Proof.Machine.execTolChunkSend elapsed s
  | .tolPoll elapsed => Sys2Proof.Machine.execTolPoll elapsed s
  | .timeMark elapsed => Sys2Proof.Machine.execTimeMark elapsed s
  | .getInfo => Sys2Proof.Machine.execGetInfo s
  | .getCerts => Sys2Proof.Machine.execGetCerts s
  | .getStatement stseq => Sys2Proof.Machine.execGetStatement stseq s
  | .getExtract stseq tenant => Sys2Proof.Machine.execGetExtract stseq tenant s
  | .getAudit first last => Sys2Proof.Machine.execGetAudit first last s
  | .param op pseq args oldEd oldMl newEd newMl => Sys2Proof.Machine.execParam op pseq args oldEd oldMl newEd newMl s
  | .data h units => Sys2Proof.Machine.execData h units s
  | .dataAck h => Sys2Proof.Machine.execDataAck h s
  | .chunk h units => Sys2Proof.Machine.execChunk h units s
  | .chunkAck h => Sys2Proof.Machine.execChunkAck h s
  | .readReq h count flash => Sys2Proof.Machine.execReadReq h count flash s
  | .readData h units flash => Sys2Proof.Machine.execReadData h units flash s
  | .replica h mask rmw => Sys2Proof.Machine.execReplica h mask rmw s
  | .replicaAck h => Sys2Proof.Machine.execReplicaAck h s
  | .heartbeat h beat fetched => Sys2Proof.Machine.execHeartbeat h beat fetched s
  | .heartbeatSend elapsed => Sys2Proof.Machine.execHeartbeatSend elapsed s
  | .suspect h m => Sys2Proof.Machine.execSuspect h m s
  | .propose h desc => Sys2Proof.Machine.execPropose h desc s
  | .vote h digest => Sys2Proof.Machine.execVote h digest s
  | .commit h desc time => Sys2Proof.Machine.execCommit h desc time s
  | .witness h vote => Sys2Proof.Machine.execWitness h vote s
  | .groupAction h act => Sys2Proof.Machine.execGroupAction h act s
  | .spanMessageReceive ring frame credit body flash fetched => Sys2Proof.Machine.execSpanMessageReceive ring frame credit body flash fetched s
  | .gatherDeadline stripe elapsed flash => Sys2Proof.Machine.execGatherDeadline stripe elapsed flash s
  | .proposalTimeout elapsed => Sys2Proof.Machine.execProposalTimeout elapsed s
  | .peerTimeout ref elapsed => Sys2Proof.Machine.execPeerTimeout ref elapsed s
  | .hbMissExpiry m elapsed => Sys2Proof.Machine.execHbMissExpiry m elapsed s
  | .coordinatorHandoff elapsed => Sys2Proof.Machine.execCoordinatorHandoff elapsed s
  | .nonceReserve => Sys2Proof.Machine.execNonceReserve s
  | .spanResync stripe chunks => Sys2Proof.Machine.execSpanResync stripe chunks s
  | .spanRebuild m stripe chunks => Sys2Proof.Machine.execSpanRebuild m stripe chunks s
  | .spnErrInject who value => Sys2Proof.Machine.execSpnErrInject who value s
  | .domainOff d => Sys2Proof.Machine.execDomainOff d s
  | .domainOn d good retryGood => Sys2Proof.Machine.execDomainOn d good retryGood s
  | .wake src => Sys2Proof.Machine.execWake src s
  | .pmuErrInject who value => Sys2Proof.Machine.execPmuErrInject who value s
  | .powerGood elapsed vin refclk testEn => Sys2Proof.Machine.execPowerGood elapsed vin refclk testEn s
  | .loopEvaluation k sample => Sys2Proof.Machine.execLoopEvaluation k sample s
  | .railOvUv rail above vmin micros => Sys2Proof.Machine.execRailOvUv rail above vmin micros s
  | .phaseRetire phase trips => Sys2Proof.Machine.execPhaseRetire phase trips s
  | .extPortFault port => Sys2Proof.Machine.execExtPortFault port s
  | .thermalTrip micros => Sys2Proof.Machine.execThermalTrip micros s
  | .thermalSample elapsed temps => Sys2Proof.Machine.execThermalSample elapsed temps s
  | .throttleUpdate elapsed vinPower ports => Sys2Proof.Machine.execThrottleUpdate elapsed vinPower ports s
  | .dvfsChange c elapsed => Sys2Proof.Machine.execDvfsChange c elapsed s
  | .tokenCeilWrite who value => Sys2Proof.Machine.execTokenCeilWrite who value s
  | .cleErrInject who value => Sys2Proof.Machine.execCleErrInject who value s
  | .vinOvervoltage vin micros => Sys2Proof.Machine.execVinOvervoltage vin micros s
  | .unitRetirement page unit => Sys2Proof.Machine.execUnitRetirement page unit s
  | .fatalFault page cause unit => Sys2Proof.Machine.execFatalFault page cause unit s
  | .faultLogWrite elapsed => Sys2Proof.Machine.execFaultLogWrite elapsed s
  | .ireset who value => Sys2Proof.Machine.execIreset who value s
  | .islandReset island => Sys2Proof.Machine.execIslandReset island s
  | .islandReadmit island passed elapsed => Sys2Proof.Machine.execIslandReadmit island passed elapsed s
  | .logWrite who value => Sys2Proof.Machine.execLogWrite who value s
  | .fltErrInject who value => Sys2Proof.Machine.execFltErrInject who value s
  | .liveActivation elapsed => Sys2Proof.Machine.execLiveActivation elapsed s
  | .handoverSlow elapsed => Sys2Proof.Machine.execHandoverSlow elapsed s
  | .powerOnReset vin portMode mgmtMode => Sys2Proof.Machine.execPowerOnReset vin portMode mgmtMode s
  | .brownout vin => Sys2Proof.Machine.execBrownout vin s
  | .perst port micros => Sys2Proof.Machine.execPerst port micros s
  | .nssr ctl micros => Sys2Proof.Machine.execNssr ctl micros s
  | .controllerReset ctl => Sys2Proof.Machine.execControllerReset ctl s
  | .flr ctl => Sys2Proof.Machine.execFlr ctl s
  | .clkreqL12 deasserted => Sys2Proof.Machine.execClkreqL12 deasserted s
  | .hfaErrInject who p value => Sys2Proof.Machine.execHfaErrInject who p value s
  | .marginCtrlWrite who p value => Sys2Proof.Machine.execMarginCtrlWrite who p value s
  | .nqeErrInject who value => Sys2Proof.Machine.execNqeErrInject who value s
  | .fchErrInject who c value => Sys2Proof.Machine.execFchErrInject who c value s
  | .ldsErrInject who value => Sys2Proof.Machine.execLdsErrInject who value s
  | .controllerEnable ctl ams asq acq => Sys2Proof.Machine.execControllerEnable ctl ams asq acq s
  | .configurationRequest p r => Sys2Proof.Machine.execConfigurationRequest p r s
  | .perstDeassert port elapsed => Sys2Proof.Machine.execPerstDeassert port elapsed s
  | .completionTimeout p => Sys2Proof.Machine.execCompletionTimeout p s
  | .linkError p e => Sys2Proof.Machine.execLinkError p e s
  | .linkDownExpiry p elapsed => Sys2Proof.Machine.execLinkDownExpiry p elapsed s
  | .indexBuildDone index found => Sys2Proof.Machine.execIndexBuildDone index found s
  | .tollStatementTimeout cmd elapsed => Sys2Proof.Machine.execTollStatementTimeout cmd elapsed s
  | .apstTransition elapsed => Sys2Proof.Machine.execApstTransition elapsed s

end Sys2Proof.Machine
end

