-- ==== Sys2Proof/Machine/Step.lean ====
section
/-! DEFINITION. One step: the command at the front of the queue, or one nanosecond of the sandglass on an empty one. -/

namespace Sys2Proof.Machine

/-- Put a command at the front of the queue. -/
def State.push (s : State) (c : Instr) : State := { s with pending := c :: s.pending }

/-- Take the command at the front of the queue and carry it out; with none waiting, one nanosecond passes (R77). -/
def step (s : State) : Host.Outcome State Fault Refusal :=
  match s.pending with
  | [] => .next (advance s 1)
  | c :: rest => exec c { s with pending := rest }

/-- The command that a word spells, put at the front of the queue; none does. -/
def State.withFetchWord (s : State) (nbits w : Nat) : State :=
  match decodeTableWord nbits w with
  | some c => s.push c
  | none => s

end Sys2Proof.Machine
end

