-- ==== Sys2Proof/Safety.lean ====
section
/-! DEFINITION. The terms that statements use: what a command answers, the invariant of the memories, when a page takes a write or a read, when a core can issue an instruction, and what a command leaves as it was. -/

namespace Sys2Proof.Machine

/-- The command answers a next state, and `P` holds of it. -/
def Runs (c : Instr) (s : State) (P : State → Prop) : Prop := ∃ t, exec c s = .next t ∧ P t

/-! ### Memories in canonical form -/

/-- Landing, both MRAM dies and DRAM are in their canonical form. -/
def Memory.wf (m : Memory) : Bool := m.landing.wf && m.mram0.wf && m.mram1.wf && m.dram.wf

/-- Every TCM and every cluster store is in its canonical form. -/
def Nelius.wf (x : Nelius) : Bool := (x.cores.toList.all fun k => k.itcm.wf && k.dtcm.wf) && x.clusters.toList.all fun c => c.store.wf

/-- Every byte memory of the device is in its canonical form. -/
def State.memWf (s : State) : Bool := s.mem.wf && s.nel.wf

/-! ### What a command leaves as it was -/

/-- `t` agrees with `s` on every part that is neither shared nor listed, and on the waiting commands. -/
structure State.AgreeOutside (ps : List Part) (s t : State) : Prop where
  sgl : Part.sglP ∉ ps → t.sgl = s.sgl
  mem : Part.memP ∉ ps → t.mem = s.mem
  flt : Part.fltP ∉ ps → t.flt = s.flt
  fch : Part.fchP ∉ ps → t.fch = s.fch
  map : Part.mapP ∉ ps → t.map = s.map
  str : Part.strP ∉ ps → t.str = s.str
  fer : Part.ferP ∉ ps → t.fer = s.fer
  key : Part.keyP ∉ ps → t.key = s.key
  mte : Part.mteP ∉ ps → t.mte = s.mte
  nel : Part.nelP ∉ ps → t.nel = s.nel
  dis : Part.disP ∉ ps → t.dis = s.dis
  cvn : Part.cvnP ∉ ps → t.cvn = s.cvn
  hst : Part.hstP ∉ ps → t.hst = s.hst
  bot : Part.botP ∉ ps → t.bot = s.bot
  prg : Part.prgP ∉ ps → t.prg = s.prg
  tol : Part.tolP ∉ ps → t.tol = s.tol
  pwr : Part.pwrP ∉ ps → t.pwr = s.pwr
  spn : Part.spnP ∉ ps → t.spn = s.spn
  pending : t.pending = s.pending

/-- Every register but those of the list, by page and offset, reads as before and stays in force as before. -/
def RegsKept (except : List (Nat × Nat)) (s t : State) : Prop :=
  ∀ p off, p < 4096 → off < 4096 → (p, off) ∉ except → rd t p off = rd s p off ∧ inForce t p off = inForce s p off

/-- The parts a command may touch beside the shared one: the units that the rules name for it. -/
def footprint : Instr → List Part
  | .registerWrite .. | .stageCommit .. | .epochDrained .. | .applyTimeReached .. | .crossingAck .. | .mergeEntryFlush .. | .commitStage ..
  | .nvmeMiSend .. | .barchanSetLayout .. | .barchanSetShare .. | .barchanSpareDie .. | .barchanRebuild .. | .barchanResync .. | .nvmeMiReset ..
  | .tunnelledAdminCommand .. | .retireReq .. | .mapErrInject .. | .pwrFail .. | .restartHoldExpiry .. | .ferryInject .. | .restartRecovery ..
  | .dqsTracking .. | .patrolScrubRead .. | .add .. | .sub .. | .and .. | .or .. | .xor .. | .nor .. | .sll .. | .srl .. | .sra .. | .slt .. | .sltu ..
  | .rotr .. | .mul .. | .mulh .. | .mulhu .. | .div .. | .divu .. | .rem .. | .remu .. | .addi .. | .andi .. | .ori .. | .xori .. | .slti ..
  | .sltiu .. | .lui .. | .slli .. | .srli .. | .srai .. | .rotri .. | .lb .. | .lbu .. | .lh .. | .lhu .. | .lw .. | .lbP .. | .lbuP .. | .lhP ..
  | .lhuP .. | .lwP .. | .sb .. | .sh .. | .sw .. | .sbP .. | .shP .. | .swP .. | .cbEq .. | .cbNe .. | .cbLt .. | .cbGe .. | .cbLtu .. | .cbGeu ..
  | .bts .. | .btc .. | .cbiEq .. | .cbiNe .. | .cbiLt .. | .cbiGe .. | .cbiLtu .. | .cbiGeu .. | .j .. | .call .. | .ret .. | .jr .. | .callr ..
  | .mfs .. | .mts .. | .trap .. | .tret .. | .fence .. | .endw .. | .swap .. | .aadd .. | .aand .. | .aor .. | .cas .. | .mcx .. | .clusterLoadStart ..
  | .coreRetire .. | .nclErrInject .. | .ringTailWrite .. | .ringCplHeadWrite .. | .caravanRetire .. | .cvnErrInject .. | .dgeErrInject ..
  | .bootSequence .. | .bootRecordAppend .. | .scpErrInject .. | .spnErrInject .. | .domainOff .. | .domainOn .. | .railOvUv .. | .extPortFault ..
  | .thermalTrip .. | .cleErrInject .. | .vinOvervoltage .. | .unitRetirement .. | .islandReset .. | .islandReadmit .. | .liveActivation ..
  | .powerOnReset .. | .brownout .. | .perst .. | .nssr .. | .hfaErrInject .. | .fchErrInject .. | .ldsErrInject .. => allParts
  | .rcRegisterRead .. => [.sglP, .disP, .keyP]
  | .irqStatusWrite .. | .irqForce .. | .stageCancel .. | .stageDiscard .. | .drainOverrun .. | .lbCountWrite .. | .lbLeak .. | .expertUnlockArm ..
  | .expertUnlockOpen .. | .expertUnlockExpiry .. | .expertUnlockEnd .. | .bstSelWrite .. | .rbSelWrite .. | .tokenCeilWrite .. | .logWrite ..
  | .marginCtrlWrite .. => []
  | .landingRead .. | .landingWrite .. | .mramRead .. | .mramWrite .. | .dramRead .. | .dramWrite .. | .dramMergeRmw .. | .refreshInstant ..
  | .dramTraining .. | .mr4TempRead .. | .caParityAlert .. | .rankMigrationStep .. | .selfRefreshEntry .. | .selfRefreshExit .. | .dmcErrInject ..
  | .mramDieFail .. | .mramFrameAssign .. | .mramFrameSwap | .mramFrameRetire .. | .wearMeterRelease .. | .lndErrInject .. | .mrmErrInject .. => [.memP]
  | .timeLoRead .. | .ptmDialogue .. | .spanSyncEdge .. | .spanSyncMissing .. | .snapFire .. | .entryOpRead .. | .entryOpArm .. | .entryOpCancel ..
  | .entryOpRelease .. | .launchDispatch .. | .snapLatchEarlySend .. | .launchOutcomeReturn .. | .refreshAlign .. | .tokenRateSet .. => [.sglP]
  | .snapshotLatch .. | .userEvent .. => [.sglP, .disP]
  | .checkpointBegin .. => [.sglP, .mapP, .strP, .spnP, .memP]
  | .spanEpoch .. | .spanQuery .. | .spanCreate .. | .spanJoin .. | .spanLeave .. | .spanWitness .. | .spanFence .. | .data .. | .dataAck .. | .chunk ..
  | .chunkAck .. | .readReq .. | .readData .. | .replica .. | .replicaAck .. | .heartbeat .. | .heartbeatSend .. | .suspect .. | .propose .. | .vote ..
  | .commit .. | .witness .. | .groupAction .. | .spanMessageReceive .. | .gatherDeadline .. | .proposalTimeout .. | .peerTimeout .. | .hbMissExpiry ..
  | .coordinatorHandoff .. | .nonceReserve | .spanResync .. | .spanRebuild .. => [.spnP, .memP, .mapP, .keyP, .hstP, .strP, .fchP, .ferP, .sglP]
  | .programStart .. => [.sglP, .disP, .prgP]
  | .tokenSlotStart .. | .tokenRequest .. => [.pwrP, .fchP]
  | .linkUp .. | .linkDown .. | .sqDoorbellWrite .. | .cqDoorbellWrite .. | .wbHoldRelease .. | .completionPost .. | .deleteIoSq .. | .createIoSq ..
  | .deleteIoCq .. | .createIoCq .. | .getFeatures .. | .asyncEventRequest .. | .namespaceAttachment .. | .deviceSelfTest .. | .directiveSend ..
  | .directiveReceive .. | .virtualizationManagement .. | .getLbaStatus .. | .retentionQuery .. | .retentionExtend .. | .powerStateEntryStep ..
  | .powerStateExit | .controllerEnable .. | .configurationRequest .. | .completionTimeout .. | .linkError .. | .linkDownExpiry .. | .apstTransition .. => [.hstP, .mapP, .fltP]
  | .commandFetch .. => [.hstP, .mapP, .fltP, .keyP, .mteP, .memP]
  | .getLogPage .. | .identify .. | .nvmeMiReceive .. | .reservationRegister .. | .reservationReport .. | .reservationAcquire ..
  | .reservationRelease .. | .barchanQuery .. | .tollStatementTimeout .. => [.hstP, .mapP]
  | .abort .. => [.hstP, .mapP, .fltP, .prgP, .disP]
  | .setFeatures .. => [.hstP, .mapP, .fltP, .memP, .keyP]
  | .namespaceManagement .. => [.hstP, .mapP, .strP, .fchP, .memP, .mteP, .prgP, .ferP]
  | .firmwareImageDownload .. | .spanKeyInstall .. => [.hstP, .mapP, .keyP]
  | .firmwareCommit .. => [.hstP, .mapP, .keyP, .botP, .fltP]
  | .formatNvm .. | .sanitize .. => [.hstP, .mapP, .strP, .fchP, .memP, .keyP, .mteP, .ferP]
  | .securitySend .. => [.hstP, .mapP, .keyP, .memP]
  | .securityReceive .. | .counterAdvanceSend .. | .certificateChainsReceive .. | .policyReceive .. | .countersReceive .. | .boardRecordReceive .. => [.botP, .hstP, .mapP]
  | .flush .. => [.hstP, .mapP, .memP, .keyP, .spnP]
  | .write .. | .read .. | .compare .. | .writeZeroes .. | .datasetManagement .. | .verify .. | .copy .. => [.hstP, .mapP, .strP, .fchP, .memP, .keyP, .mteP, .ferP, .spnP]
  | .tollStatementRequest .. | .tolPoll .. => [.tolP, .hstP, .mapP]
  | .snapshotTriggerIssue .. | .snapshotTriggerWait .. | .launchTableRead .. | .launchTableArm .. | .launchTableCancel .. | .launchTableRelease .. => [.hstP, .mapP, .sglP]
  | .retentionCreate .. => [.hstP, .mapP, .mteP, .memP]
  | .retentionExpiry .. => [.hstP, .mteP, .memP]
  | .partitionReset .. => [.hstP, .mapP, .fltP, .prgP, .disP, .nelP, .cvnP, .memP]
  | .mgmtRequest .. | .wake .. => [.hstP, .pwrP]
  | .readNvmeMiDataStructure .. | .subsystemHealthStatusPoll .. | .controllerHealthStatusPoll .. | .configurationSet .. | .configurationGet ..
  | .vpdRead .. | .vpdWrite .. => [.hstP, .mapP, .pwrP]
  | .spdmRequest .. | .replicaCheck .. | .counterAdvance .. => [.botP]
  | .channelStart .. | .channelTraining .. | .trainingCheck .. | .retrainAttempt .. | .dieReadIssue .. | .readAgePromotion .. | .eraseIssue ..
  | .dieSuspend .. | .dieResume .. | .dieOpComplete .. | .hardDecodeDone .. | .softDecodeJobDone .. | .ladderBudgetExpiry .. | .decoderSelfCheck ..
  | .dieTimeout .. | .fchTransientRetry .. | .mapLookup .. | .mapPageFill .. | .mapWriteBack .. | .mapChange .. | .journalRecordDurable
  | .journalRingFullHold | .blockStateChange .. | .migrationStart | .gcVictimSelect | .staticWearLevel .. | .throttleWindow .. | .setOpen ..
  | .stripeMemberProgram .. | .stripeParityProgram .. | .stripeCloseAge .. | .stripeVerify .. | .stripeProgramFail .. | .rmwParityUpdate ..
  | .accumulatorUe .. | .stripeResync .. | .stripeReconstruct .. | .rebuildStart .. | .rebuildCensus .. | .rebuildRestoreBlock .. | .rebuildPause ..
  | .copyOut .. => [.memP, .fchP, .mapP, .strP]
  | .hmwEnable .. => [.memP, .fchP, .mapP, .strP, .keyP]
  | .strErrInject .. => [.strP]
  | .coreReset .. | .itemDispatch .. => [.nelP, .disP]
  | .wiRead .. | .wiSubmitNew .. | .wiSubmit .. | .wiArm .. | .wiCancel .. | .wiRelease .. | .pageInterrupt .. | .dispatcherTick .. | .failNextRead ..
  | .histClear .. | .coreBusyLoRead .. | .disErrInject .. => [.disP]
  | .itemPreempt .. => [.nelP, .disP, .memP, .keyP, .botP]
  | .caravanJobAdmit .. | .caravanJobStart .. | .caravanJobEnd .. | .caravanSuspend .. => [.cvnP, .memP, .keyP, .mteP, .fchP, .mapP, .strP]
  | .pathJobPost .. => [.cvnP]
  | .matchLookup .. | .mteRead .. | .mteUpdate .. | .mteInvalidate .. | .mteInsert .. | .mteLookup .. | .mteSweep .. | .mteErrInject .. => [.mteP]
  | .keyUnwrap .. | .keyStoreSuspend | .keyStoreRestore | .kopRead .. | .kopLoad .. | .kopGenerate .. | .kopClear .. | .kopPin .. | .kopUnpin ..
  | .kopLock .. | .kopUnlock .. | .kopRotate .. | .dgeStart .. | .dgeFinish .. | .dgePause .. | .dgeResume .. | .dgeAbort .. | .dgeDmaDone ..
  | .snStart .. | .snFinish .. | .snAbort .. => [.keyP, .memP]
  | .entropyHealthFail | .drbgReseed .. | .entropyRecovery | .keyErrInject .. | .dgeDataHiWrite .. => [.keyP]
  | .loadProgram .. | .programActivate .. | .programDeactivate .. | .memoryRangeSetCreate .. | .memoryRangeSetDelete .. | .executeProgram ..
  | .memoryRead .. | .memoryWrite .. | .ringPost .. | .ringAck .. | .matchOp .. | .runLimitExpiry .. | .runEnd .. => [.hstP, .mapP, .prgP, .disP, .nelP, .cvnP, .mteP, .memP, .keyP, .botP]
  | .memoryCopy .. | .scanService .. | .scanSegmentFail .. | .scanOutputCopy .. | .kvStore .. | .kvRetrieve .. | .kvDelete .. | .kvExist .. | .kvList .. => [.hstP, .mapP, .strP, .fchP, .memP, .keyP, .mteP, .ferP, .prgP]
  | .time .. => [.nelP]
  | .indexCreate .. | .indexDrop .. | .indexState .. => [.hstP, .mapP, .prgP]
  | .indexRange .. => [.hstP, .mapP, .prgP, .memP]
  | .policyInstall .. => [.botP, .hstP, .mapP, .keyP]
  | .boardRecordWrite .. => [.botP, .hstP, .mapP, .memP]
  | .collectorEvent .. | .tapWordSend .. | .tapWordReceive .. | .meterSecond .. | .meterRecordsCommit .. | .tollFlush | .installAuditor ..
  | .periodAlign .. | .tenantClose .. | .scheduledStatement .. | .tollRequest | .statementFormed .. | .tolChunkSend .. | .timeMark .. | .getInfo
  | .getCerts | .getStatement .. | .getExtract .. | .getAudit .. | .param .. => [.tolP]
  | .pmuErrInject .. | .loopEvaluation .. | .phaseRetire .. | .thermalSample .. | .throttleUpdate .. | .clkreqL12 .. | .perstDeassert .. => [.pwrP]
  | .powerGood .. => [.pwrP, .ferP, .tolP]
  | .dvfsChange .. => [.pwrP, .nelP, .disP]
  | .fatalFault .. => [.fltP, .hstP, .pwrP]
  | .faultLogWrite .. => [.fltP, .memP]
  | .ireset .. | .fltErrInject .. | .handoverSlow .. => [.fltP]
  | .controllerReset .. | .flr .. => [.hstP, .mapP, .prgP, .disP, .nelP, .cvnP, .memP]
  | .nqeErrInject .. => [.hstP]
  | .indexBuildDone .. => [.prgP]

/-! ### Accesses -/

/-- A 32-bit write of a register by page and offset, as the fabric sees it. -/
def regStore (who : Initiator) (p off : Nat) (v : Word) : HeldAccess := ⟨who, true, 0xF0000000 + p * 4096 + off, 4, bytesLE 4 v.toNat⟩

/-- A 32-bit read of a register by page and offset, as the fabric sees it. -/
def regLoad (who : Initiator) (p off : Nat) : HeldAccess := ⟨who, false, 0xF0000000 + p * 4096 + off, 4, []⟩

/-- No crossing holds an access of this initiator to the page (R16, R17). -/
def pathFree (s : State) (who : Initiator) (p off : Nat) : Bool := (heldAt s who (.page p off)).isNone

/-- The fabric takes an access of a page: the page is there, its domain is up, the initiator may use it, and no crossing holds the access (R17, R43, R44). -/
def reaches (s : State) (who : Initiator) (p off : Nat) : Bool := (fabricPageCause s who p off 4).isNone && pathFree s who p off

/-- The page takes a write of the register: it is reached, has the register, and does not refuse the write (R44, R55, R57, R62, R613). -/
def takesWrite (s : State) (who : Initiator) (p off : Nat) : Bool :=
  reaches s who p off && match pageKind? s.com.chip p with
    | none => false
    | some k => match rowAt? k off with
      | none => false
      | some r => (pageCause s who p k r off).isNone

/-- A page refuses nothing of a passenger or crew member that reads it: the row is there and the fabric takes the read (R8, R44). -/
def takesRead (s : State) (who : Initiator) (p off : Nat) : Bool :=
  reaches s who p off && match pageKind? s.com.chip p with
    | none => false
    | some k => (rowAt? k off).isSome

/-- The fabric takes a memory access of `n` bytes: not refused, and no crossing holds it (R17, R43, R44). `op` is 0 for a read and 1 for a write. -/
def memReaches (s : State) (who : Initiator) (op addr n : Nat) : Bool := (memRefusal s who op addr n).isNone && (heldAt s who (targetOf s addr)).isNone

/-- The MRAM die that serves a read of a view offset: its own while it is in service, else the other (R320, R322). -/
def servingDie (s : State) (off : Nat) : Nat := if dieUp s (readDie s off) then readDie s off else 1 - readDie s off

/-! ### Staged sets -/

/-- Pages on which an apply does nothing beside R67 and R68: ports, flash channels, `LDS`, `DMC`s, `LND`, `MEC`, `MTE`, `KEY`, `PMU` and `FLT`. -/
def plainApply : PageKind → Bool
  | .hf => true | .fch => true | .lds => true | .dmc => true | .lnd => true | .mec => true | .mte => true | .key => true | .pmu => true | .flt => true
  | _ => false

/-- The state in which a commit is checked: APPLY_MODE written, REJECT and REJECT_CODE clear (R63, R65). -/
def checking (s : State) (who : Initiator) (p mode : Nat) : State :=
  let s := wr (passes s who (.page p rSTAGE_CTRL)) p rSTAGE_CTRL (w32 mode)
  wr s p rSTAGE_STATUS (setFld (rd s p rSTAGE_STATUS &&& 0xDFFFFFFF) 19 16 0)

/-- The staged set of page p is in force in `t`, under the next epoch, with nothing waiting and COMMIT_DONE set (R67, R68). -/
def SetApplied (s t : State) (p : Nat) (k : PageKind) : Prop :=
  (∀ off ∈ stagedOffs k, inForce t p off = rd s p off ∧ rd t p off = rd s p off)
    ∧ epochNow t p = (epochNow s p + 1) % 65536
    ∧ bit (rd t p rSTAGE_STATUS) 31 = false ∧ bit (rd t p rSTAGE_STATUS) 30 = false ∧ bit (rd t p rSTAGE_STATUS) 28 = false
    ∧ bit (rd t p rSTAGE_STATUS) 26 = false ∧ bit (rd t p rIRQ_STATUS) 30 = true

/-- `STR` takes staged values in an immediate commit: no commit waits, no older epoch has work left, and the set passes its check (R65, R67, R262). -/
def strTakes (s : State) (fs : List (Nat × Word)) : Bool :=
  !commitHeld s pSTR && !olderLive s pSTR
    && (stageCommit (wrB (fs.foldl (fun s f => wr s pSTR f.1 f.2) s) pSTR rSTAGE_STATUS 28 true) (.crew 0 0) pSTR 0).2 / 16 != 2

/-! ### Buckets, blocks -/

/-- One more counted event of the page's bucket does not overflow it (R73, R74). -/
def lbQuiet (s : State) (p : Nat) : Bool :=
  let lim := inF s p rLB_LIMIT 15 0
  let n := rdF s p rLB_COUNT 15 0
  lim == 0 || decide (lim ≤ n) || decide (n + 1 < lim) || s.com.lbFired.contains p

/-- The spread of the erase counts of a die's good blocks; a block not listed has none (R222). -/
def eraseSpread (s : State) (d : Nat) : Nat :=
  let counts := ((listedBlocks s d).filter fun e => goodBlock e.2).map (fun e => e.2.eraseCount) ++ (if (listedBlocks s d).length < dieBlocks s d then [0] else [])
  counts.foldl max 0 - counts.foldl min (counts.headD 0)

/-! ### Launched actions -/

/-- A SENT entry of an action reaches its page: no ferry runs, the page is up and its unit is not fenced (R96). -/
def delivers (s : State) (i action p : Nat) : Bool :=
  (entryOf s i).state == .sent && (entryOf s i).action == action && !ferryRunning s && pageUp s p && !bit (rd s p rSTATUS) 1

/-! ### Work items -/

/-- The registers of the dispatcher that show its slots, queues and failures: WI_STATUS, the counters, IRQ_STATUS and the selected views (R389). -/
def disShown : List (Nat × Nat) :=
  ([DIS_WI_STATUS, DIS_FREE_SLOTS, DIS_FAIL_COUNT, DIS_FAIL_NEXT, DIS_TIE_COUNT, DIS_EVENT_MISS, DIS_LATE_COUNT, rIRQ_STATUS, DIS_Q_DEPTH, DIS_Q_MAXDEPTH,
    DIS_CORE_BUSY_LO, DIS_CORE_ITEMS, DIS_CORE_PREEMPT, DIS_CORE_ITEM, DIS_SBANK_DATA] ++ (List.range 8).map fun m => DIS_Q_HIST + 4 * m).map fun o => (pDIS, o)

/-- A slot is READY in a queue, as `x` otherwise; TIE may have been set (R382). -/
def Queued (t : State) (n c : Nat) (x : Item) : Prop :=
  itemOf t n = { x with state := .ready, cluster := c, entered := t.com.time, tie := (itemOf t n).tie } ∧ n ∈ queueOf t (16 * c + x.prio)

/-! ### Caravans -/

/-- A caravan takes a job of a path: it serves, the path ring is on and has room (R413). -/
def pathFits (s : State) (path n : Nat) : Bool := cvnServes s n && rgOn s n path && decide (((cvnOf s n).paths.getD path []).length < 64)

/-- Landing holds no error, no waiting merge entry and no armed injection, and its domain is up. -/
def landingSound (s : State) : Bool := s.mem.lndErr.isEmpty && s.mem.lndMerge.isEmpty && s.mem.lndInject.isEmpty && domainUp s 7

/-! ### Host commands -/

/-- The command has not ended. -/
def unended (c : HostCmd) : Bool := match c.state with
  | .done _ _ => false
  | _ => true

/-- Command `id` has been fetched and not begun: `c`, of an admin or an I/O queue, with this opcode. -/
def Fetched (s : State) (id : Nat) (admin : Bool) (op : Nat) (c : HostCmd) : Prop := cmdOf? s id = some c ∧ c.state = .fetched ∧ sqeOp c.sqe = op ∧ (c.q = 0) = admin

/-- Carrying out command `id` ends it with a status, DW0 and data, and `P` holds of the state it leaves. -/
def Ends (i : Instr) (s : State) (id : Nat) (st : NvStatus) (dw0 : Nat) (data : List Byte) (P : State → Prop) : Prop :=
  Runs i s fun t => (∃ x, cmdOf? t id = some x ∧ x.state = .done st dw0 ∧ x.reply = data) ∧ P t

/-- Carrying out command `id` begins it, and it waits. -/
def Waits (i : Instr) (s : State) (id : Nat) (P : State → Prop) : Prop :=
  Runs i s fun t => (∃ x, cmdOf? t id = some x ∧ x.state = .waiting) ∧ P t

/-! ### The span group -/

/-- No stripe is in flight at this lead, no host command is under way, and no answer waits for flash: a message has its own effect only. -/
def spanCalm (s : State) : Bool := s.spn.flights.isEmpty && s.spn.jobs.isEmpty && s.spn.late.isEmpty

/-- What has been said to other members, sent or in line, in order: destination, TYPE, header without the credit that sending puts in, and body. -/
def said (s : State) : List (Nat × Nat × SpanHdr × SpanBody) :=
  (s.spn.out ++ s.spn.queue).map fun m => (m.dest, m.type, { m.hdr with credit := 0 }, m.body)

/-! ### Cores -/

/-- Core k of cluster c issues the instruction at its PC: it runs, its domain is up, the address may be fetched and its word is sound, no injection waits for the cluster, and no load waits for its cores (R340, R346, R359, R368). -/
def canIssue (s : State) (c : Clu) (k : CoreIx) : Bool :=
  let x := coreOf s (coreNo c k)
  x.mode == .run && pageUp s (pNCL c.val) && decide (x.pc.toNat < 0x10000) && decide (x.pc.toNat % 4 = 0) && (!x.psg || inWindow x.itw 26 (x.pc.toNat / 64))
    && (x.itcmErr.get? (x.pc.toNat / 4)).isNone && (cluOf s c).inject.isEmpty && (cluOf s c).load.isNone

/-- The instruction after the one at PC is next (R350). -/
def Core.advance (x : Core) : Core := { x with pc := x.pc + 4 }

/-- A core that has taken a trap: return address, saved mode, crew mode under a handler, cause, faulting address where the cause gives one, and the vector (R357). -/
def Core.trapped (x : Core) (code sub : Nat) (addr : Option Word) (ret : Word) : Core :=
  { x with
      trapRet := ret, trapMode := x.runmode, runmode := 2, trapInfo := w32 (16 * sub + code)
      trapAddr := addr.getD x.trapAddr, pc := x.trapBase + w32 (64 * code) }

/-- Core k of cluster c takes a trap in one step: its registers as R357 says, and the trap counters of its page; no other core, cluster or part changes. -/
def TrapTaken (s t : State) (c : Clu) (k : CoreIx) (code sub : Nat) (addr : Option Word) (ret : Word) : Prop :=
  t.nel = { s.nel with cores := s.nel.cores.set (coreNo c k).val ((coreOf s (coreNo c k)).trapped code sub addr ret) (coreNo c k).isLt }
    ∧ rd t (pNCL c.val) NCL_TRAP_COUNT = w32 (satAdd 0xFFFFFFFF (rd s (pNCL c.val) NCL_TRAP_COUNT).toNat 1)
    ∧ RegsKept [(pNCL c.val, NCL_TRAP_COUNT), (pNCL c.val, NCL_CORE_STATE)] s t
    ∧ t.mem = s.mem ∧ t.dis = s.dis ∧ t.pending = s.pending

/-- The state in which a core has new contents and CORE_STATE of its page shows them; nothing else differs. -/
def coreTakes (s : State) (n : Fin 48) (x : Core) : State := setCore s n x

end Sys2Proof.Machine
end

