-- ==== Sys2Proof/Certificates/Slice0/Obligations.lean ====
section
/-! DEFINITION. The statements about the model, for the provers. -/

open Sys2Proof Sys2Proof.Machine

/-! ### The queue, the outcome and the footprint of every command -/

/-- A step runs the command at the front of the queue, with the queue's rest. -/
def Obligations.StepRunsFront : Prop :=
  ∀ (c : Instr) (rest : List Instr) (s : State), step { s with pending := c :: rest } = exec c { s with pending := rest }

/-- With no command waiting, a step adds 1 ns to the count (R77) and changes nothing else; that an idle step is 1 ns is the model's choice (log entry 2). -/
def Obligations.IdleStepTicks : Prop :=
  ∀ s : State, s.pending = [] → step s = .next { s with com := { s.com with time := s.com.time + 1 } }

/-- No command stops the model, and none touches the queue. -/
def Obligations.EveryCommandAnswers : Prop :=
  ∀ (c : Instr) (s : State), Runs c s fun t => t.pending = s.pending

/-- The frame of every command: a part of the state outside its footprint stays as it was. -/
def Obligations.FootprintFrame : Prop :=
  ∀ (c : Instr) (s t : State), exec c s = .next t → State.AgreeOutside (footprint c) s t

/-- Equal memories stay equal data: the canonical form of Landing, both MRAM dies, DRAM, every TCM and every cluster store is kept by every step. -/
def Obligations.StepKeepsMemoriesCanonical : Prop :=
  ∀ s t : State, s.memWf = true → step s = .next t → t.memWf = true

/-- The canonical form holds at reset. -/
def Obligations.ResetMemoriesCanonical : Prop := State.reset.memWf = true ∧ State.reset.pending = []


/-! ### Register pages, staged sets, buckets, expert gates and crossings -/

/-- What a register write that the page takes does, and its frame (R51, R60, R75); nothing written to `TOL` changes it (R50). -/
def Obligations.RegisterWriteEffects : Prop :=
  ∀ (s : State) (who : Initiator) (page off : BitVec 12) (v : Word),
    let p := page.toNat
    let addr := BitVec.ofNat 48 (0xF0000000 + p * 4096 + off.toNat)
    (∀ k r, pageKind? s.com.chip p = some k → rowAt? k off.toNat = some r → r.cls = .staged → r.acc = .rw → takesWrite s who p off.toNat = true →
      Runs (.registerWrite who addr .b4 v) s fun t =>
        rd t p off.toNat = v &&& r.mask ∧ inForce t p off.toNat = inForce s p off.toNat ∧ bit (rd t p rSTAGE_STATUS) 28 = true
        ∧ RegsKept [(p, off.toNat), (p, rSTAGE_STATUS)] s t ∧ t.com.answer = .ack)
    ∧ (p ≠ pTOL → takesWrite s who p rIRQ_ENABLE = true →
      Runs (.registerWrite who (BitVec.ofNat 48 (0xF0000000 + p * 4096 + rIRQ_ENABLE)) .b4 v) s fun t => rd t p rIRQ_ENABLE = v ∧ RegsKept [(p, rIRQ_ENABLE)] s t)
    ∧ (p ≠ pTOL → takesWrite s who p rIRQ_STATUS = true →
      Runs (.irqStatusWrite who page v) s fun t => rd t p rIRQ_STATUS = rd s p rIRQ_STATUS &&& ~~~v ∧ RegsKept [(p, rIRQ_STATUS)] s t)
    ∧ (takesWrite s who p rIRQ_FORCE = true →
      Runs (.irqForce who page v) s fun t => rd t p rIRQ_STATUS = rd s p rIRQ_STATUS ||| v ∧ RegsKept [(p, rIRQ_STATUS)] s t)
    ∧ (takesWrite s who p rLB_COUNT = true →
      Runs (.lbCountWrite who page v) s fun t => rd t p rLB_COUNT = v &&& 0xFFFF ∧ RegsKept [(p, rLB_COUNT)] s t)
    ∧ (p = pTOL → Runs (.registerWrite who addr .b4 v) s fun t => t.tol = s.tol ∧ ∀ o < 4096, rd t pTOL o = rd s pTOL o)

/-- The read that clears (R8) and the pop of the failure list (R389). -/
def Obligations.ReadClearsCounter : Prop :=
  ∀ (s : State) (who : Initiator) (page off : BitVec 12) (k : PageKind), pageKind? s.com.chip page.toNat = some k →
    reaches s who page.toNat off.toNat = true → off.toNat % 4 = 0 →
    (∀ r, rowAt? k off.toNat = some r → r.acc = .rc → ¬ (k = .dis ∧ off.toNat = DIS_FAIL_NEXT) → ¬ (k = .key ∧ off.toNat = KEY_RNG_OUT) →
      Runs (.rcRegisterRead who page off) s fun t =>
        t.com.answer = .data (bytesLE 4 (rd s page.toNat off.toNat).toNat) ∧ rd t page.toNat off.toNat = r.reset ∧ RegsKept [(page.toNat, off.toNat)] s t)
    ∧ (∀ n l, k = .dis → off.toNat = DIS_FAIL_NEXT → s.dis.failures = n :: l →
      Runs (.rcRegisterRead who page off) s fun t => t.com.answer = .data (bytesLE 4 (w32 n).toNat) ∧ t.dis.failures = l ∧ rd t pDIS DIS_FAIL_COUNT = w32 l.length)

/-- The commit of a staged set (R65), its waiting and its apply (R67, R68). -/
def Obligations.CommitAndApply : Prop :=
  ∀ (s : State) (who : Initiator) (page : BitVec 12) (k : PageKind) (elapsed : Nat),
    let p := page.toNat
    pageKind? s.com.chip p = some k →
    (takesWrite s who p rSTAGE_CTRL = true → commitHeld s p = false →
      (∀ (mode : BitVec 2) (code unit : Nat), mode ≠ 3 → commitReject (checking s who p mode.toNat) p mode.toNat = some (code, unit) → 1 ≤ code → code ≤ 7 →
        Runs (.stageCommit who page mode) s fun t =>
          bit (rd t p rSTAGE_STATUS) 29 = true ∧ rdF t p rSTAGE_STATUS 19 16 = code ∧ bit (rd t p rIRQ_STATUS) 29 = true ∧ epochNow t p = epochNow s p
          ∧ ∀ q o, inForce t q o = inForce s q o)
      ∧ (plainApply k = true → commitReject (checking s who p 0) p 0 = none → bit (rd s p rSTAGE_STATUS) 28 = true →
        (olderLive s p = false → Runs (.stageCommit who page 0) s fun t => SetApplied s t p k)
        ∧ (olderLive s p = true → Runs (.stageCommit who page 0) s fun t => bit (rd t p rSTAGE_STATUS) 31 = true ∧ ∀ q o, inForce t q o = inForce s q o))
      ∧ (commitReject (checking s who p 2) p 2 = none → bit (rd s p rSTAGE_STATUS) 28 = true →
        Runs (.stageCommit who page 2) s fun t => bit (rd t p rSTAGE_STATUS) 30 = true ∧ ∀ q o, inForce t q o = inForce s q o))
    ∧ (plainApply k = true → pageUp s p = true → olderLive s p = false →
      (bit (rd s p rSTAGE_STATUS) 31 = true → bit (rd s p rSTAGE_STATUS) 26 = false → Runs (.epochDrained page) s fun t => SetApplied s t p k)
      ∧ (bit (rd s p rSTAGE_STATUS) 30 = true → round8 (applyTime s p) ≤ (advance s elapsed).com.time.toNat →
        Runs (.applyTimeReached page elapsed) s fun t => SetApplied s t p k))

/-- Withdrawing and discarding staged sets (R61, R68), and an epoch that does not drain in time (R72). -/
def Obligations.CancelDiscardOverrun : Prop :=
  ∀ (s : State) (who : Initiator) (page : BitVec 12) (k : PageKind) (elapsed : Nat),
    let p := page.toNat
    pageKind? s.com.chip p = some k →
    (takesWrite s who p rSTAGE_CTRL = true → commitHeld s p = true → fld (rd s p rSTAGE_CTRL) 1 0 ≠ 3 →
      Runs (.stageCancel who page) s fun t =>
        rd t p rSTAGE_STATUS = rd s p rSTAGE_STATUS &&& 0x3BFFFFFF ∧ RegsKept [(p, rSTAGE_STATUS), (p, rSTAGE_CTRL)] s t)
    ∧ (takesWrite s who p rSTAGE_CTRL = true → commitHeld s p = false → fld (rd s p rSTAGE_CTRL) 1 0 ≠ 3 →
      Runs (.stageDiscard who page) s fun t =>
        (∀ off ∈ stagedOffs k, rd t p off = inForce s p off) ∧ bit (rd t p rSTAGE_STATUS) 28 = false ∧ ∀ q o, inForce t q o = inForce s q o)
    ∧ (∀ b since, pageUp s p = true → olderLive s p = true → drainBound s p = some b → s.com.bus.drains.get? p = some since →
      b ≤ ((advance s elapsed).com.time - since).toNat →
      Runs (.drainOverrun page elapsed) s fun t =>
        fld (rd t p rFAULT) 31 28 = 7 ∧ bit (rd t p rIRQ_STATUS) 28 = true ∧ rd t p rSTAGE_STATUS = rd s p rSTAGE_STATUS)

/-- The two keys, their expiry, and the end of an unlock (R57, R58). -/
def Obligations.ExpertGateAndBucketLeak : Prop :=
  (∀ (s : State) (who : Initiator) (page : BitVec 12) (elapsed : Nat),
      let p := page.toNat
      let gate (i : Instr) (v : Word) := Runs i s fun t => rd t p rUNLOCK = v ∧ RegsKept [(p, rUNLOCK)] s t
      (takesWrite s who p rUNLOCK = true →
        (rd s p rUNLOCK = 0 → gate (.expertUnlockArm who page) (w32 (who.num * 2 ^ 24 + 2)))
        ∧ (rd s p rUNLOCK = w32 (who.num * 2 ^ 24 + 2) → armExpired s p = false → gate (.expertUnlockOpen who page) (w32 (who.num * 2 ^ 24 + 1)))
        ∧ (rd s p rUNLOCK = w32 (who.num * 2 ^ 24 + 1) → gate (.expertUnlockEnd who page) 0))
      ∧ (bit (rd s p rUNLOCK) 1 = true → armExpired (advance s elapsed) p = true → gate (.expertUnlockExpiry page elapsed) 0))
  ∧ (∀ (s : State) (page : BitVec 12) (k : PageKind) (elapsed : Nat),
      let p := page.toNat
      let leak := (inForce s p rLB_LEAK).toNat * 1000
      let passed := if leak = 0 then 0 else (advance s elapsed).com.time.toNat / leak - s.com.time.toNat / leak
      pageKind? s.com.chip p = some k → hasBucket k = true →
      Runs (.lbLeak page elapsed) s fun t =>
        rdF t p rLB_COUNT 15 0 = rdF s p rLB_COUNT 15 0 - passed ∧ t.com.time = (advance s elapsed).com.time
        ∧ rd t p rLB_LIMIT = rd s p rLB_LIMIT ∧ rd t p rLB_LEAK = rd s p rLB_LEAK)

/-- CROSSING_ACK: the entry is free, and the held transfer goes (R17). -/
def Obligations.CrossingsAndRefusals : Prop :=
  (∀ (s : State) (src dst : Island),
      let freed := putBus s { s.com.bus with flight := removeFirst (fun x => x.src == src && x.dst == dst) (inFlight s) }
      (s.com.bus.held = [] → Runs (.crossingAck src dst) s fun t => t.com.bus = freed.com.bus ∧ RegsKept [] s t)
      ∧ (∀ (who : Initiator) (off : Nat) (data : List Byte), off < 0x4000000 → s.com.bus.held = [⟨who, true, 0x4000000 + off, data.length, data⟩] →
        fabricCause freed ⟨who, true, 0x4000000 + off, data.length, data⟩ = none → heldAt freed who (.landing off) = none →
        Runs (.crossingAck src dst) s fun t => t.com.bus.held = [] ∧ t.com.answer = .ack))
  ∧ (∀ (s : State) (who : Initiator) (page off : BitVec 12) (v : Word), pageKind? s.com.chip page.toNat = none →
      Runs (.registerWrite who (BitVec.ofNat 48 (0xF0000000 + page.toNat * 4096 + off.toNat)) .b4 v) s fun t =>
        t.com.answer = .refused cNO_PAGE
        ∧ rd t pFLT FLT_REFUSALS = w32 (satAdd 0xFFFFFFFF (rd s pFLT FLT_REFUSALS).toNat 1)
        ∧ rd t pFLT FLT_LAST_REF_LO = w32 (0xF0000000 + page.toNat * 4096 + off.toNat)
        ∧ (∀ p o, p ≠ pFLT → p < 4096 → o < 4096 → rd t p o = rd s p o ∧ inForce t p o = inForce s p o))

/-- Undefined offsets (R54): a read returns 0 and a write is ignored. -/
def Obligations.UndefinedOffsets : Prop :=
  ∀ (s : State) (who : Initiator) (page off : BitVec 12) (k : PageKind) (v : Word), pageKind? s.com.chip page.toNat = some k → rowAt? k off.toNat = none →
    reaches s who page.toNat off.toNat = true → off.toNat % 4 = 0 → s.memWf = true →
    let same (t : State) : Prop := RegsKept [] s t ∧ State.AgreeOutside [] s t
    (Runs (.rcRegisterRead who page off) s fun t => t.com.answer = .data [0, 0, 0, 0] ∧ same t)
    ∧ (Runs (.registerWrite who (BitVec.ofNat 48 (0xF0000000 + page.toNat * 4096 + off.toNat)) .b4 v) s fun t => t.com.answer = .ack ∧ same t)

/-! ### Sandglass, launch table and snapshots -/

/-- TIME_LO (R79), the PTM dialogue (R83), the SPAN_SYNC edge and its loss (R84). -/
def Obligations.SandglassDiscipline : Prop :=
  ∀ (s : State) (who : Initiator) (port : Port) (elapsed : Nat) (o : Int) (linkOut : Bool),
    let now := advance s elapsed
    let thresh : Int := (inF s pSGL SGL_STEP_THRESH 19 0 * 1000 : Nat)
    (takesRead s who pSGL SGL_TIME_LO = true →
      Runs (.timeLoRead who) s fun t => t.com.answer = .data (bytesLE 4 (lo32 s.com.time).toNat) ∧ t.sgl.hiHold.get? (arbKey who) = some (hi32 s.com.time)
        ∧ t.com.time = s.com.time)
    ∧ (pageUp s pSGL = true → discSrc s = (if port then 2 else 1) →
      (-thresh ≤ o → o ≤ thresh → -(2 ^ 31 : Int) < o → o < 2 ^ 31 → Runs (.ptmDialogue port elapsed (some o) linkOut) s fun t =>
        t.com.slew = o ∧ t.com.time = now.com.time ∧ rd t pSGL SGL_OFFSET = w32 (toField 32 o)
        ∧ bit (rd t pSGL SGL_DISC_STATUS) 0 = true ∧ bit (rd t pSGL SGL_DISC_STATUS) 3 = false ∧ bit (rd t pSGL SGL_DISC_STATUS) 2 = false ∧ t.sgl.ptmFailed = 0)
      ∧ (thresh ≠ 0 → o < -thresh → Runs (.ptmDialogue port elapsed (some o) linkOut) s fun t =>
        t.com.time = now.com.time + BitVec.ofNat 64 (-o).toNat ∧ t.com.slew = 0 ∧ bit (rd t pSGL SGL_DISC_STATUS) 1 = true ∧ bit (rd t pSGL rIRQ_STATUS) 0 = true))
    ∧ (∀ width : Nat, let off := msOffset ((now.com.time.toNat : Int) - sgn 16 (inF s pSGL SGL_SYNC_COMP 15 0))
      discSrc s = 3 → -thresh ≤ off → off ≤ thresh → Runs (.spanSyncEdge elapsed width) s fun t =>
        t.com.slew = off ∧ t.com.time = now.com.time ∧ bit (rd t pSGL SGL_DISC_STATUS) 0 = true ∧ t.sgl.syncMissed = 0)
    ∧ (pageUp s pSGL = true → discSrc s = 3 → s.sgl.syncMissed = 2 → Runs (.spanSyncMissing elapsed) s fun t =>
      bit (rd t pSGL SGL_DISC_STATUS) 3 = true ∧ bit (rd t pSGL SGL_DISC_STATUS) 0 = false ∧ bit (rd t pSGL rIRQ_STATUS) 1 = true ∧ t.sgl.syncMissed = 3)

/-- READ, ARM, CANCEL and RELEASE of the launch window (R91). -/
def Obligations.LaunchWindowOperations : Prop :=
  ∀ (s : State) (who : Initiator), takesWrite s who pLCH LCH_ENTRY_OP = true →
    let i := rdF s pLCH LCH_ENTRY_SEL 9 0
    let e := entryOf s i
    let leaves (c : Instr) (e' : LaunchEntry) := Runs c s fun t =>
      entryOf t i = e' ∧ rdF t pLCH LCH_ENTRY_STATE 3 0 = 0 ∧ (∀ j, j ≠ i → entryOf t j = entryOf s j)
    (Runs (.entryOpRead who) s fun t =>
      rd t pLCH LCH_ENTRY_TIME_LO = lo32 e.time ∧ rd t pLCH LCH_ENTRY_TIME_HI = hi32 e.time ∧ rdF t pLCH LCH_ENTRY_CTRL 19 16 = e.action % 16
      ∧ rdF t pLCH LCH_ENTRY_CTRL 11 0 = e.page % 4096 ∧ rd t pLCH LCH_ENTRY_ARG = e.arg ∧ t.sgl = s.sgl)
    ∧ (armStatus s e.state (windowEntry s) false = 0 → leaves (.entryOpArm who) { windowEntry s with state := .armed })
    ∧ (e.state = .armed → leaves (.entryOpCancel who) { e with state := .cancelled })
    ∧ (e.state = .fired ∨ e.state = .failed ∨ e.state = .cancelled → leaves (.entryOpRelease who) { e with state := .free })

/-- From ARMED to SENT, FIRED and FAILED (R94 to R96), SNAP_FIRE (R104) and the latch of a page (R76, R101). -/
def Obligations.LaunchDispatchAndSnapshots : Prop :=
  ∀ (s : State) (who : Initiator) (value : Word) (c : Chan) (elapsed : Nat),
    let now := advance s elapsed
    (pageUp s pLCH = true → ferryRunning s = false →
      (∀ i e, dueEntry? now = some (i, e) → Runs (.launchDispatch elapsed) s fun t =>
        (entryOf t i).state = .sent ∧ rd t pLCH LCH_FIRED_COUNT = w32 (satAdd 0xFFFFFFFF (rd s pLCH LCH_FIRED_COUNT).toNat 1))
      ∧ (∀ i e, (armedEntries now).find? (fun e => e.2.action == 2 && decide (round8 e.2.time.toNat ≤ now.com.time.toNat + 64)) = some (i, e) →
        Runs (.snapLatchEarlySend elapsed) s fun t =>
          (entryOf t i).state = .fired ∧ (entryOf t i).outcome = 0 ∧ rd t pSGL SGL_SNAP_SEQ_CUR = rd s pSGL SGL_SNAP_SEQ_CUR + 1 ∧ rd t pSGL SGL_SNAP_TAG = e.arg))
    ∧ (∀ (i : Fin 1024) o, pageUp s pLCH = true → s.sgl.returns.get? i.val = some o → (entryOf s i.val).state = .sent → Runs (.launchOutcomeReturn i) s fun t =>
      entryOf t i.val = { entryOf s i.val with state := if o / 16 ≤ 1 then .fired else .failed, outcome := o / 16, detail := o % 16 }
      ∧ t.sgl.returns.get? i.val = none ∧ ∀ j, j ≠ i.val → entryOf t j = entryOf s j)
    ∧ (takesWrite s who pSGL SGL_SNAP_FIRE = true → bit value 0 = true → Runs (.snapFire who value) s fun t =>
      let due : Count := BitVec.ofNat 64 (round8 (s.com.time.toNat + 64))
      rd t pSGL SGL_SNAP_SEQ_CUR = rd s pSGL SGL_SNAP_SEQ_CUR + 1 ∧ rd t pSGL SGL_SNAP_T_LO = lo32 due ∧ rd t pSGL SGL_SNAP_T_HI = hi32 due)
    ∧ (∀ o : SnapOrder, pageUp s (pFCH c.val) = true → islandHeld s (.channel c) = false → s.sgl.orders = [o] → o.time.toNat ≤ (advance s elapsed).com.time.toNat →
      (rd s (pFCH c.val) rSNAP_SEQ).toNat ≠ o.seq → Runs (.snapshotLatch (.channel c) elapsed) s fun t =>
        rd t (pFCH c.val) rSNAP_SEQ = w32 o.seq ∧ rd t (pFCH c.val) rSNAP_LO = lo32 o.time ∧ rd t (pFCH c.val) rSNAP_HI = hi32 o.time
        ∧ rd t (pFCH c.val) rSNAP_STAGE = rd s (pFCH c.val) rSTAGE_STATUS ∧ rd t (pFCH c.val) FCH_SNAP_BUSY = rd s (pFCH c.val) FCH_BUSY_MASK
        ∧ ∀ p off, inForce t p off = inForce s p off)

/-- What each launched action does when it is delivered (R90). -/
def Obligations.LaunchedActions : Prop :=
  ∀ (s : State) (entry : Fin 1024),
    let i := entry.val
    let e := entryOf s i
    let returns (t : State) (o : Nat) := t.sgl.returns.get? i = some o
    (∀ k, delivers s i 1 e.page = true → pageKind? s.com.chip e.page = some k → plainApply k = true → commitHeld s e.page = false → olderLive s e.page = false →
      bit (rd s e.page rSTAGE_STATUS) 28 = true →
      commitReject (wr s e.page rSTAGE_STATUS (setFld (rd s e.page rSTAGE_STATUS &&& 0xDFFFFFFF) 19 16 0)) e.page 0 = none →
      Runs (.commitStage entry) s fun t => SetApplied s t e.page k ∧ returns t 0)
    ∧ (delivers s i 4 pSGL = true → Runs (.refreshAlign entry) s fun t => t.sgl.anchor = e.time ∧ returns t 0)
    ∧ (delivers s i 5 e.page = true → Runs (.tokenRateSet entry) s fun t =>
      rdF t pCLE CLE_TOKEN_CEIL 10 0 = max (inF s pCLE CLE_TOKEN_MIN 10 0) (min (inF s pCLE CLE_TOKEN_MAX 10 0) (fld e.arg 15 0)) ∧ returns t 0)
    ∧ (delivers s i 7 pDIS = true → s.dis.stopped = false → (itemOf s (fld e.arg 15 0)).state = .waiting → Runs (.programStart entry) s fun t =>
      (itemOf t (fld e.arg 15 0)).state = .ready ∧ returns t 0)
    ∧ (∀ n, delivers s i 8 pDIS = true → lowestFree s = some n → Runs (.userEvent entry) s fun t =>
      (itemOf t n).arg0 = e.arg ∧ (s.dis.stopped = false → (itemOf t n).state = .ready ∨ (itemOf t n).state = .delayed) ∧ returns t 0)
    ∧ (e.state = .sent → ferryRunning s = false → (pageUp s pDIS = false ∨ bit (rd s pDIS rSTATUS) 1 = true) →
      (e.action = 8 → Runs (.userEvent entry) s fun t => returns t (4 * 16)) ∧ (e.action = 7 → Runs (.programStart entry) s fun t => returns t (4 * 16)))

/-! ### Landing, MRAM and DRAM -/

/-- Landing accesses (R313 to R315) and the write-back of a merge entry (R317). -/
def Obligations.LandingAccess : Prop :=
  ∀ (s : State) (who : Initiator) (off : BitVec 26) (n : Nat) (data : List Byte) (bank : Fin 32) (c : Clu) (e : MergeEntry),
    let o := off.toNat
    let w := o / 8
    let room := (s.mem.lndMerge.find? fun x : MergeEntry => x.index == w) = none
    (memReaches s who 0 (0x4000000 + o) n = true → 0 < n → o % 8 + n ≤ 8 → s.mem.lndInject.get? (lndBank o) = none → room →
      (s.mem.lndErr.get? w = none → Runs (.landingRead who off n) s fun t =>
        t.com.answer = .data (s.mem.landing.readN o n) ∧ (s.mem.wf = true → t.mem = s.mem) ∧ RegsKept [] s t)
      ∧ (s.mem.lndErr.get? w = some .single → Runs (.landingRead who off n) s fun t =>
        t.com.answer = .data (s.mem.landing.readN o n) ∧ t.mem.lndErr.get? w = none ∧ rd t pLND LND_ECC_CE = w32 (satAdd 0xFFFFFFFF (rd s pLND LND_ECC_CE).toNat 1))
      ∧ (∀ k, s.mem.lndErr.get? w = some k → k ≠ .single → Runs (.landingRead who off n) s fun t =>
        t.com.answer = .uncorrectable ∧ rd t pLND LND_UE_ADDR = w32 (w * 8) ∧ rdF t pLND LND_ECC_UE 15 0 = satAdd 0xFFFF (rdF s pLND LND_ECC_UE 15 0) 1
        ∧ bit (rd t pLND rIRQ_STATUS) 0 = true ∧ (s.mem.wf = true → t.mem = s.mem)))
    ∧ (memReaches s who 1 (0x4000000 + o) data.length = true →
      (o % 8 = 0 → data.length = 8 → Runs (.landingWrite who off data) s fun t =>
        t.mem.landing.readN o 8 = data ∧ t.mem.lndErr.get? w = none ∧ (∀ a, a < o ∨ o + 8 ≤ a → t.mem.landing.read a = s.mem.landing.read a)
        ∧ t.com.answer = .ack ∧ RegsKept [] s t)
      ∧ (0 < data.length → data.length < 8 → o % 8 + data.length ≤ 8 → room → (s.mem.lndMerge.filter fun x => lndBank (8 * x.index) == lndBank (8 * w)).length < 4 →
        inF s pLND LND_MERGE_CTRL 7 0 ≠ 0 → Runs (.landingWrite who off data) s fun t =>
          t.mem.lndMerge = s.mem.lndMerge ++ [⟨w, (2 ^ data.length - 1) <<< (o % 8), List.replicate (o % 8) 0 ++ data ++ List.replicate (8 - o % 8 - data.length) 0⟩]
          ∧ (∀ a, t.mem.landing.read a = s.mem.landing.read a) ∧ t.com.answer = .ack ∧ RegsKept [] s t))
    ∧ (e.data.length = 8 →
      (pageUp s pLND = true → (s.mem.lndMerge.find? fun x => lndBank (8 * x.index) == bank.val) = some e → s.mem.lndErr.get? e.index = none →
        Runs (.mergeEntryFlush (.landing bank)) s fun t =>
          t.mem.landing.readN (8 * e.index) 8 = overlay 0 e.mask (s.mem.landing.readN (8 * e.index) 8) e.data
          ∧ (∀ a, a < 8 * e.index ∨ 8 * e.index + 8 ≤ a → t.mem.landing.read a = s.mem.landing.read a)
          ∧ t.mem.lndMerge = removeFirst (fun x : MergeEntry => x.index == e.index) s.mem.lndMerge)
      ∧ (∀ rest, pageUp s (pNCL c.val) = true → (cluOf s c).storeMerge = e :: rest → (cluOf s c).storeErr.get? e.index = none →
        Runs (.mergeEntryFlush (.store c)) s fun t =>
          (cluOf t c).store.readN (8 * e.index) 8 = overlay 0 e.mask ((cluOf s c).store.readN (8 * e.index) 8) e.data
          ∧ (∀ a, a < 8 * e.index ∨ 8 * e.index + 8 ≤ a → (cluOf t c).store.read a = (cluOf s c).store.read a) ∧ (cluOf t c).storeMerge = rest)
      ∧ (∀ rest, pageUp s pMRM = true → s.mem.mrmMerge = e :: rest → (rest.find? fun x : MergeEntry => x.index == e.index) = none → mrmReserved (8 * e.index) = false →
        let d := servingDie s (8 * e.index)
        let q := physOff s (8 * e.index)
        dieUp s d = true → s.mem.mrmInject = [] → (dieMem s d).err.get? (q / 8) = none → Runs (.mergeEntryFlush .mram) s fun t =>
          t.mem.mrmMerge = rest
          ∧ ∀ x, x < 2 → dieUp s x = true → (dieMem t x).mem.readN q 8 = overlay 0 e.mask ((dieMem s d).mem.readN q 8) e.data
            ∧ ∀ a, a < q ∨ q + 8 ≤ a → (dieMem t x).mem.read a = (dieMem s x).mem.read a))

/-- MRAM accesses (R320, R321), frames (R324) and the wear meter (R329). -/
def Obligations.MramAccess : Prop :=
  ∀ (s : State) (who : Initiator) (off : BitVec 27) (n : Nat) (data : List Byte),
    let o := off.toNat
    let w := o / 8
    let d := servingDie s (8 * w)
    let q := physOff s (8 * w)
    let none_ := (s.mem.mrmMerge.find? fun x : MergeEntry => x.index == w) = none
    (memReaches s who 0 (0x100000000 + o) n = true → 0 < n → o % 8 + n ≤ 8 →
      (mrmReserved (8 * w) = true → Runs (.mramRead who off n) s fun t => t.com.answer = .data (List.replicate n 0))
      ∧ (mrmReserved (8 * w) = false → (s.mem.mrmInject.find? fun i => i.2 == 1 || i.2 == 2) = none → none_ → dieUp s d = true →
        ((dieMem s d).err.get? (q / 8) = none → Runs (.mramRead who off n) s fun t =>
          t.com.answer = .data ((dieMem s d).mem.readN (q + o % 8) n) ∧ (s.mem.wf = true → t.mem = s.mem) ∧ RegsKept [] s t)
        ∧ (∀ k, (dieMem s d).err.get? (q / 8) = some k → k ≠ .single →
          (dieUp s (1 - d) = true → (dieMem s (1 - d)).err.get? (q / 8) = none → Runs (.mramRead who off n) s fun t =>
            t.com.answer = .data ((dieMem s (1 - d)).mem.readN (q + o % 8) n) ∧ (dieMem t d).mem.readN q 8 = (dieMem s (1 - d)).mem.readN q 8
            ∧ (dieMem t d).err.get? (q / 8) = none ∧ rd t pMRM MRM_MIRROR_READS = w32 (satAdd 0xFFFFFFFF (rd s pMRM MRM_MIRROR_READS).toNat 1))
          ∧ (dieUp s (1 - d) = false → Runs (.mramRead who off n) s fun t =>
            t.com.answer = .uncorrectable ∧ rd t pMRM MRM_UE_ADDR = w32 (8 * w) ∧ bit (rd t pMRM rIRQ_STATUS) 4 = true))))
    ∧ (memReaches s who 1 (0x100000000 + o) data.length = true →
      (o % 8 = 0 → data.length = 8 → mrmReserved o = false → wearHolds s o = false → Runs (.mramWrite who off data) s fun t =>
        t.com.answer = .ack ∧ t.mem.credit = s.mem.credit - (if inRotated o then 8 else 0)
        ∧ ∀ x, x < 2 → (dieUp s x = true → (dieMem t x).mem.readN q 8 = data) ∧ (∀ a, a < q ∨ q + 8 ≤ a ∨ dieUp s x = false → (dieMem t x).mem.read a = (dieMem s x).mem.read a))
      ∧ (0 < data.length → wearHolds s o = true → Runs (.mramWrite who off data) s fun t =>
        t.com.answer = .held ∧ t.mem.wearHeld = s.mem.wearHeld ++ [(o, data)] ∧ bit (rd t pMRM rIRQ_STATUS) 0 = true
        ∧ ∀ x a, x < 2 → (dieMem t x).mem.read a = (dieMem s x).mem.read a)
      ∧ (0 < data.length → data.length < 8 → o % 8 + data.length ≤ 8 → wearHolds s o = false → none_ → s.mem.mrmMerge.length < 8 → inF s pMRM MRM_MERGE_CTRL 7 0 ≠ 0 →
        Runs (.mramWrite who off data) s fun t =>
          t.mem.mrmMerge = s.mem.mrmMerge ++ [⟨w, (2 ^ data.length - 1) <<< (o % 8), List.replicate (o % 8) 0 ++ data ++ List.replicate (8 - o % 8 - data.length) 0⟩]
          ∧ t.com.answer = .ack ∧ ∀ x a, x < 2 → (dieMem t x).mem.read a = (dieMem s x).mem.read a))

/-- Dies (R322), frames (R325 to R327) and the wear meter (R329). -/
def Obligations.MramUpkeep : Prop :=
  ∀ (s : State) (die : Fin 2) (l : Fin 1552) (f : Fin 1920) (elapsed : Nat), pageUp s pMRM = true →
    let frame (g a : Nat) := 0x0800000 + g * 65536 + a
    let c : Int := min 504000000000 (s.mem.credit + (elapsed * 14 / 100 : Nat))
    (Runs (.mramDieFail die) s fun t =>
      mrmDie t die.val = 2 ∧ mrmDie t (1 - die.val) = mrmDie s (1 - die.val) ∧ bit (rd t pMRM rIRQ_STATUS) 1 = true ∧ t.com.smart.testBit 2 = true
      ∧ (mrmDie s (1 - die.val) ≠ 1 → bit (rd t pMAP MAP_MEDIA_STATE) 3 = true ∧ bit (rd t pMRM rIRQ_STATUS) 5 = true ∧ t.com.smart.testBit 3 = true))
    ∧ (∀ g, coolestPool? s = some g → Runs (.mramFrameAssign l) s fun t =>
      physFrame t l.val = g ∧ passOf t g = passOf s g + 1 ∧ t.mem.aseq.getD g 0 = s.mem.nextAseq ∧ (∀ m, m ≠ l.val → physFrame t m = physFrame s m)
      ∧ ∀ x a, x < 2 → (dieMem t x).mem.read a = (dieMem s x).mem.read a)
    ∧ (∀ hot cold m, s.mem.wf = true → minBy? (fun g => 2 ^ 40 - passOf s g) (poolFrames s) = some hot → minBy? (passOf s) (assignedFrames s) = some cold →
      passOf s cold + 65536 < passOf s hot → servedBy? s cold = some m → Runs .mramFrameSwap s fun t =>
        physFrame t m = hot ∧ rd t pMRM MRM_SWAPS = w32 (satAdd 0xFFFFFFFF (rd s pMRM MRM_SWAPS).toNat 1)
        ∧ ∀ x a, x < 2 → a < 65536 → (dieMem t x).mem.read (frame hot a) = (dieMem s x).mem.read (frame cold a))
    ∧ (s.mem.frameRetired.contains f.val = false → Runs (.mramFrameRetire f) s fun t =>
      t.mem.frameRetired = f.val :: s.mem.frameRetired ∧ bit (rd t pMRM rIRQ_STATUS) 2 = true
      ∧ ∀ m g, servedBy? s f.val = some m → coolestPool? s = some g → physFrame t m = g)
    ∧ (s.mem.wearHeld = [] → Runs (.wearMeterRelease elapsed) s fun t =>
      t.mem.credit = c ∧ rd t pMRM MRM_WEAR_CREDIT = w32 (c.toNat / 1000000) ∧ t.mem.wearHeld = [])
    ∧ (∀ o data, s.mem.wearHeld = [(o, data)] → 0 < c → inRotated o = true → o % 8 = 0 → data.length = 8 → Runs (.wearMeterRelease elapsed) s fun t =>
      t.mem.wearHeld = [] ∧ t.mem.credit = c - 8 ∧ ∀ x, x < 2 → dieUp s x = true → (dieMem t x).mem.readN (physOff s o) 8 = data)

/-- DRAM accesses (R303, R305), open rows (R300) and the merge buffer (R304). -/
def Obligations.DramAccess : Prop :=
  ∀ (s : State) (who : Initiator) (off : BitVec 39) (n : Nat) (data : List Byte) (ctl : DmcIx) (e : MergeEntry),
    let o := off.toNat
    let w := o / 8
    let line := o / 64
    let cr := dramRank s (64 * line)
    let br := dramBankOf s (dramDecode s (64 * line)) cr.1 cr.2
    let none_ := (s.mem.dMerge.find? fun x : MergeEntry => x.index == line) = none
    (memReaches s who 0 (0x1000000000 + o) n = true → 0 < n → o % 8 + n ≤ 8 → none_ → s.mem.dmcInject = [] →
      (s.mem.dErr.get? w = none → Runs (.dramRead who off n) s fun t =>
        t.com.answer = .data (s.mem.dram.readN o n) ∧ (∀ a, t.mem.dram.read a = s.mem.dram.read a) ∧ RegsKept [] s t
        ∧ (∀ t0 p, s.mem.banks.get? br.1 = some ⟨some (br.2, t0), p⟩ → t.mem.lastDram = some (.hit, 22 + tCL s))
        ∧ (∀ p, s.mem.banks.get? br.1 = some ⟨none, p⟩ → t.mem.lastDram = some (.closed, 22 + tRCD s + tCL s)))
      ∧ (s.mem.dErr.get? w = some .single → Runs (.dramRead who off n) s fun t =>
        t.com.answer = .data (s.mem.dram.readN o n) ∧ t.mem.dErr.get? w = none
        ∧ (let hi := if (dramRank s (8 * w)).2 = 0 then 15 else 31
           rdF t (pDMC (dramRank s (8 * w)).1) DMC_ECC_CE hi (hi - 15) = satAdd 0xFFFF (rdF s (pDMC (dramRank s (8 * w)).1) DMC_ECC_CE hi (hi - 15)) 1))
      ∧ (∀ k, s.mem.dErr.get? w = some k → k ≠ .single → Runs (.dramRead who off n) s fun t =>
        let p := pDMC (dramRank s (8 * w)).1
        t.com.answer = .uncorrectable ∧ rd t p DMC_UE_ADDR_LO = w32 (8 * w / 64 * 64) ∧ bit (rd t p rIRQ_STATUS) 3 = true
        ∧ rdF t p DMC_ECC_UE 15 0 = satAdd 0xFFFF (rdF s p DMC_ECC_UE 15 0) 1))
    ∧ (memReaches s who 1 (0x1000000000 + o) data.length = true →
      (o % 64 = 0 → data.length = 64 → Runs (.dramWrite who off data) s fun t =>
        t.mem.dram.readN o 64 = data ∧ (∀ j, j < 8 → t.mem.dErr.get? (w + j) = none) ∧ (∀ a, a < o ∨ o + 64 ≤ a → t.mem.dram.read a = s.mem.dram.read a)
        ∧ t.com.answer = .ack ∧ RegsKept [] s t)
      ∧ (0 < data.length → o % 64 + data.length ≤ 64 → data.length < 64 → none_ → (s.mem.dMerge.filter fun x => lineDmc s x.index == lineDmc s line).length < 8 →
        inF s (pDMC (lineDmc s line)) DMC_MERGE_CTRL 7 0 ≠ 0 → Runs (.dramWrite who off data) s fun t =>
          t.mem.dMerge = s.mem.dMerge ++ [⟨line, (2 ^ data.length - 1) <<< (o % 64), List.replicate (o % 64) 0 ++ data ++ List.replicate (64 - o % 64 - data.length) 0⟩]
          ∧ (∀ a, t.mem.dram.read a = s.mem.dram.read a) ∧ t.com.answer = .ack))
    ∧ (pageUp s (pDMC ctl.val) = true → (s.mem.dMerge.find? fun x => lineDmc s x.index == ctl.val) = some e → e.data.length = 64 →
      (∀ j, j < 8 → s.mem.dErr.get? (8 * e.index + j) = none) → Runs (.dramMergeRmw ctl) s fun t =>
        t.mem.dram.readN (64 * e.index) 64 = overlay 0 e.mask (s.mem.dram.readN (64 * e.index) 64) e.data
        ∧ (∀ a, a < 64 * e.index ∨ 64 * e.index + 64 ≤ a → t.mem.dram.read a = s.mem.dram.read a)
        ∧ t.mem.dMerge = removeFirst (fun x : MergeEntry => x.index == e.index) s.mem.dMerge)

/-- What the DRAM controllers do of themselves (R295 to R299, R306, R307). -/
def Obligations.DramUpkeep : Prop :=
  (∀ (s : State) (n : DmcIx) (elapsed : Nat) (rank : Fin 2) (upper : Bool) (c0 c1 : BitVec 4) (t0 t1 : Int),
      let p := pDMC n.val
      let now := advance s elapsed
      (pageUp s p = true → bit (rd s p rCTRL) 0 = true →
        (Runs (.dramTraining n 0) s fun t => bit (rd t p rSTATUS) 0 = true ∧ rankState t n.val 0 = rankState s n.val 0
          ∧ (twoRanks s = true → rankState s n.val 1 = 0 → rankState t n.val 1 = if spareCh? s = some n.val then 2 else 1))
        ∧ (spareCh? s = none → rankState s n.val 0 = 1 → Runs (.dramTraining n 1) s fun t =>
          bit (rd t p rSTATUS) 0 = true ∧ rankState t n.val 0 = 6 ∧ bit (rd t p rIRQ_STATUS) 5 = true))
      ∧ (∀ i, refreshDue? now = some i → Runs (.refreshInstant elapsed) s fun t =>
        t.mem.lastRefresh = BitVec.ofNat 64 i
        ∧ (∀ m, m < 8 → inSelfRefresh s m = false → pageUp s (pDMC m) = true →
          rd t (pDMC m) DMC_REF_COUNT = w32 (satAdd 0xFFFFFFFF (rd s (pDMC m) DMC_REF_COUNT).toNat (if twoRanks s then 2 else 1)))
        ∧ ∀ b k, t.mem.banks.get? b = some k → inSelfRefresh s (b / 128) = false → k.open_ = none)
      ∧ (Runs (.dqsTracking n elapsed false) s fun t => t.com.time = now.com.time ∧ RegsKept [] s t)
      ∧ (pageUp s p = true → bit (rd s p rSTATUS) 0 = true → s.flt.resets = [] → islandRetired s (0x20 + n.val) = false → (recentResets now (0x20 + n.val)).length < 2 →
        Runs (.dqsTracking n elapsed true) s fun t => t.flt.resets.contains (0x20 + n.val) = true ∧ bit (rd t p rSTATUS) 0 = false)
      ∧ (pageUp s p = true →
        (Runs (.mr4TempRead n elapsed c0 c1 t0 t1) s fun t =>
          rdF t p DMC_TEMP 3 0 = c0.toNat ∧ rdF t p DMC_TEMP 7 4 = c1.toNat ∧ t.mem.rankTemp.get? (2 * n.val) = some t0
          ∧ (85 < t0 → ∀ m, m < 8 → bit (rd t (pDMC m) DMC_TEMP) 31 = true)
          ∧ (t0 ≤ 80 → t1 ≤ 80 → (∀ x ∈ s.mem.rankTemp, x.2 ≤ 80) →
            (s.mem.coolSince = none → t.mem.coolSince = some now.com.time)
            ∧ ∀ since, s.mem.coolSince = some since → 1000000000 ≤ (now.com.time - since).toNat → ∀ m, m < 8 → bit (rd t (pDMC m) DMC_TEMP) 31 = false))
        ∧ (rankState s n.val rank.val = 1 → spareIdle? s = none → Runs (.caParityAlert n rank) s fun t =>
          rdF t p DMC_ECC_UE 31 16 = satAdd 0xFFFF (rdF s p DMC_ECC_UE 31 16) 1 ∧ bit (rd t p rIRQ_STATUS) 4 = true ∧ rankState t n.val rank.val = 6))
      ∧ (∀ r sp, s.mem.migrating = some (n.val, r) → spareCh? s = some sp → s.mem.dErr = [] → (n.val ≠ sp ∨ r = 0) →
        let hi := min (rankLines s) ((rd s p DMC_MIG_PTR).toNat + elapsed * inF s p DMC_MIG_RATE 7 0)
        Runs (.rankMigrationStep elapsed) s fun t =>
          rd t p DMC_MIG_PTR = w32 hi
          ∧ (if hi = rankLines s then t.mem.migrating = none ∧ rankState t n.val r = 4 ∧ rankState t sp 1 = 5 ∧ bit (rd t p rIRQ_STATUS) 1 = true
            else t.mem.migrating = s.mem.migrating))
      ∧ (pageUp s (pDMC (if upper then 4 else 0)) = true →
        (s.map.wb = [] → Runs (.selfRefreshEntry upper) s fun t => ∀ m, m < 8 → inSelfRefresh t m = (inSelfRefresh s m || (decide (4 ≤ m) == upper)))
        ∧ (Runs (.selfRefreshExit upper) s fun t => ∀ m, m < 8 → inSelfRefresh t m = (inSelfRefresh s m && (decide (4 ≤ m) != upper)))))
  ∧ (∀ (s : State) (site : ScrubSite) (off : Nat) (ends : Bool),
      pageUp s pMEC = true → pageUp s (scrubPage s site off) = true → scrubOn s site = true → (site = .landing → off < 0x4000000 ∧ s.mem.lndInject = []) →
      let lo := match site with
        | .dram => 0
        | .mramDie _ => 16
        | _ => 8
      (scrubMark s site off = none → Runs (.patrolScrubRead site off ends) s fun t =>
        rdF t pMEC MEC_PASS_DONE (lo + 7) lo = (rdF s pMEC MEC_PASS_DONE (lo + 7) lo + (if ends then 1 else 0)) % 256 ∧ RegsKept [(pMEC, MEC_PASS_DONE)] s t)
      ∧ (site = .landing → s.mem.lndErr.get? (off / 8) = some .single → Runs (.patrolScrubRead site off ends) s fun t =>
        t.mem.lndErr.get? (off / 8) = none ∧ rd t pMEC MEC_SCRUB_CE = w32 (satAdd 0xFFFFFFFF (rd s pMEC MEC_SCRUB_CE).toNat 1))
      ∧ (∀ k, site = .landing → s.mem.lndErr.get? (off / 8) = some k → k ≠ .single → Runs (.patrolScrubRead site off ends) s fun t =>
        rd t pMEC MEC_SCRUB_UE = w32 (satAdd 0xFFFFFFFF (rd s pMEC MEC_SCRUB_UE).toNat 1) ∧ bit (rd t pMEC rIRQ_STATUS) 0 = true))

/-! ### Flash channels -/

/-- From start-up to a trained channel, and out of training loss (R157 to R159). -/
def Obligations.FlashTraining : Prop :=
  ∀ (s : State) (c : Chan) (answers : List DieAnswer) (eyes : BitVec 16) (drift : List (Pos × Nat)) (elapsed : Nat),
    let p := pFCH c.val
    let lim := inF s p FCH_TRAIN_CTRL 23 16
    let lossy := ∃ d ∈ drift, (livePositions s c.val).testBit d.1.val = true ∧ lim < d.2
    let n := rdF s p FCH_IF_STATUS 10 8
    pageUp s p = true → chanFenced s c.val = false →
    (Runs (.channelStart c answers) s fun t =>
      (∀ i : Pos, bit (rd t p FCH_DIE_PRESENT) i.val = answers.any fun a => a.pos == i) ∧ rd t p FCH_IF_STATUS = 0x40
      ∧ (chanOf t c.val).started = true ∧ bit (rd t p rSTATUS) 3 = false)
    ∧ ((chanOf s c.val).started = true → (∀ i, i < 16 → (livePositions s c.val).testBit i = true → eyes.toNat.testBit i = true) →
      Runs (.channelTraining c eyes) s fun t =>
        rd t p FCH_IF_STATUS = w32 (inF s p FCH_IF_CFG 17 16 * 16 + inF s p FCH_IF_CFG 3 0) ∧ bit (rd t p rSTATUS) 3 = true ∧ bit (rd t p rSTATUS) 4 = false
        ∧ (chanOf t c.val).wpHigh = true)
    ∧ (¬ lossy → Runs (.trainingCheck c elapsed drift) s fun t => t.com.time = (advance s elapsed).com.time ∧ t.fch = s.fch ∧ RegsKept [] s t)
    ∧ (lossy → inF s p FCH_TRAIN_CTRL 15 0 ≠ 0 → lim ≠ 0 → bit (rd s p rSTATUS) 3 = true → bit (rd s p rSTATUS) 4 = false → Runs (.trainingCheck c elapsed drift) s fun t =>
      bit (rd t p rSTATUS) 3 = false ∧ bit (rd t p rIRQ_STATUS) 1 = true)
    ∧ (bit (rd s p rSTATUS) 4 = true → transientMax s c.val ≠ 0 → lbQuiet s p = true →
      (Runs (.retrainAttempt c elapsed true) s fun t =>
        bit (rd t p rSTATUS) 3 = true ∧ bit (rd t p rSTATUS) 4 = false ∧ bit (rd t p rIRQ_STATUS) 2 = true ∧ rdF t p FCH_IF_STATUS 10 8 = 0)
      ∧ (n + 1 < transientMax s c.val → Runs (.retrainAttempt c elapsed false) s fun t => rdF t p FCH_IF_STATUS 10 8 = n + 1 ∧ bit (rd t p rSTATUS) 4 = true)
      ∧ (transientMax s c.val ≤ n + 1 → Runs (.retrainAttempt c elapsed false) s fun t => chanFenced t c.val = true))

/-- Die scheduling (R163 to R168), status failures and retries (R178, R180). -/
def Obligations.FlashDieScheduling : Prop :=
  ∀ (s : State) (c : Chan) (pos : Pos) (elapsed : Nat),
    let d := 16 * c.val + pos.val
    let p := pFCH c.val
    let x := dieOf s d
    let now := (advance s elapsed).com.time
    let evt (s : State) (hi lo : Nat) := rdF s p (FCH_DIE_EVT + 4 * pos.val) hi lo
    let old (j : ReadJob) : Bool := decide ((now - j.arrived).toNat > inF s p FCH_READ_AGE 15 0 * 1000)
    pageUp s p = true → dieRetired s d = false → chanFenced s c.val = false → bit (rd s p rSTATUS) 3 = true → bit (rd s p rSTATUS) 4 = false →
    (chanOf s c.val).inject = [] →
    (x.running = none → x.suspended = none → x.retry = 0 →
      (∀ j y, nextRead? x = some (j, y) → Runs (.dieReadIssue c pos elapsed) s fun t =>
        (∃ j', (dieOf t d).running = some ⟨.read j', now, 0⟩ ∧ j'.id = j.id) ∧ (dieOf t d).readsA = y.readsA ∧ (dieOf t d).readsB = y.readsB ∧ (dieOf t d).readsC = y.readsC)
      ∧ (∀ b pg n m rest, nextRead? x = none → x.work = .program b pg n m :: rest → x.token = true → Runs (.dieReadIssue c pos elapsed) s fun t =>
        (dieOf t d).running = some ⟨.work (.program b pg n m), now, 0⟩ ∧ (dieOf t d).work = rest ∧ (dieOf t d).token = false)
      ∧ (∀ b who rest, x.work = .erase b who :: rest → x.token = true →
        ((bstOf s d b).state = .freeable → (bstOf s d b).eraseIssued = false → Runs (.eraseIssue c pos) s fun t =>
          (dieOf t d).running = some ⟨.work (.erase b who), s.com.time, 0⟩ ∧ (dieOf t d).work = rest ∧ (bstOf t d b).eraseIssued = true)
        ∧ ((bstOf s d b).state ≠ .freeable → Runs (.eraseIssue c pos) s fun t =>
          (dieOf t d).running = none ∧ (dieOf t d).work = rest ∧ bit (rd t p rIRQ_STATUS) 5 = true
          ∧ rd t pMAP MAP_ERASE_REFUSED = w32 (satAdd 0xFFFFFFFF (rd s pMAP MAP_ERASE_REFUSED).toNat 1))))
    ∧ (inF s p FCH_READ_AGE 15 0 ≠ 0 → Runs (.readAgePromotion c pos elapsed) s fun t =>
      (dieOf t d).readsA = x.readsA ++ (x.readsB.filter old ++ x.readsC.filter old).map (fun j : ReadJob => { j with promoted := true })
      ∧ (dieOf t d).readsB = x.readsB.filter (fun j => !old j) ∧ (dieOf t d).readsC = x.readsC.filter (fun j => !old j))
    ∧ (∀ w since n, x.running = some ⟨.work w, since, n⟩ → x.retry = 0 → (x.readsA ++ x.readsB ++ x.readsC).any suspendsOps = true → inF s p FCH_SCHED_CTRL 12 9 ≠ 0 →
      (match w with
        | .erase _ _ => n < inF s p FCH_SCHED_CTRL 8 4 ∧ inF s p FCH_SCHED_MIN_RUN 31 16 * 1000 ≤ (now - since).toNat
        | .program _ _ _ _ => n < inF s p FCH_SCHED_CTRL 3 0 ∧ inF s p FCH_SCHED_MIN_RUN 15 0 * 1000 ≤ (now - since).toNat) →
      Runs (.dieSuspend c pos elapsed) s fun t =>
        (dieOf t d).running = none ∧ (dieOf t d).suspended = some ⟨.work w, now, n + 1⟩ ∧ (dieOf t d).batch = inF s p FCH_SCHED_CTRL 12 9)
    ∧ (∀ o, x.suspended = some o → x.running = none → (x.batch = 0 ∨ nextRead? x = none) →
      (x.token = true → Runs (.dieResume c pos elapsed) s fun t =>
        (dieOf t d).running = some { o with since := now } ∧ (dieOf t d).suspended = none ∧ (dieOf t d).token = false)
      ∧ (x.token = false → Runs (.dieResume c pos elapsed) s fun t => (dieOf t d).suspended = some o ∧ (dieOf t d).asking = true))
    ∧ (∀ o, x.running = some o →
      (∀ j, o.job = .read j → j.die = d → j.rung < 3 → bit (rd s p rSTATUS) 5 = false → Runs (.dieOpComplete c pos elapsed true) s fun t =>
        (dieOf t d).running = none ∧ (chanOf t c.val).decoding = (chanOf s c.val).decoding ++ [j])
      ∧ (∀ b pg n m, o.job = .work (.program b pg n m) →
        (Runs (.dieOpComplete c pos elapsed true) s fun t => (dieOf t d).running = none ∧ evt t 23 16 = evt s 23 16)
        ∧ (Runs (.dieOpComplete c pos elapsed false) s fun t => evt t 23 16 = satAdd 255 (evt s 23 16) 1 ∧ bit (rd t p rIRQ_STATUS) 3 = true))
      ∧ (∀ b who, o.job = .work (.erase b who) →
        (Runs (.dieOpComplete c pos elapsed true) s fun t =>
          (dieOf t d).running = none ∧ (bstRaw t d b).changing = some (.free, ((rd s pMAP MAP_JSEQ_ISSUED).toNat + 1) % 2 ^ 32)
          ∧ (bstRaw t d b).eraseCount = min 0xFFFFF ((bstOf s d b).eraseCount + 1))
        ∧ (Runs (.dieOpComplete c pos elapsed false) s fun t => evt t 15 8 = satAdd 255 (evt s 15 8) 1 ∧ bit (rd t p rIRQ_STATUS) 4 = true))
      ∧ (x.retry = 0 → transientMax s c.val ≠ 0 → Runs (.dieTimeout c pos) s fun t =>
        (dieOf t d).retry = 1 ∧ (dieOf t d).readsA = [] ∧ (dieOf t d).readsB = [] ∧ (dieOf t d).readsC = [] ∧ fld (rd t p rFAULT) 31 28 = 3 ∧ fld (rd t p rFAULT) 15 0 = pos.val))
    ∧ (x.retry = 1 → lbQuiet s p = true →
      (Runs (.fchTransientRetry c pos elapsed true) s fun t => (dieOf t d).retry = 0 ∧ evt t 7 0 = satAdd 255 (evt s 7 0) 1)
      ∧ (1 < transientMax s c.val → Runs (.fchTransientRetry c pos elapsed false) s fun t => (dieOf t d).retry = 2)
      ∧ (transientMax s c.val ≤ 1 → Runs (.fchTransientRetry c pos elapsed false) s fun t => dieRetired t d = true))

/-- The ladder of R176, the decoders (R170, R172) and their self-check (R175). -/
def Obligations.FlashLadder : Prop :=
  ∀ (s : State) (c : Chan) (dec : Fin 8) (id elapsed weight : Nat) (bytes : List Byte) (j : ReadJob),
    let p := pFCH c.val
    let counts (t : State) (pg r : Nat) := rd t pg r = w32 (satAdd 0xFFFFFFFF (rd s pg r).toNat 1)
    let handed (t : State) := t.fch.recon = s.fch.recon ++ [{ j with rung := 4 }]
    j.die / 16 = c.val → (chanOf s c.val).inject = [] →
    (pageUp s p = true → ((chanOf s c.val).decoding.find? fun x => x.id == id) = some j →
      (j.rung = 1 → Runs (.hardDecodeDone c id true weight bytes) s fun t =>
        t.fch.ready = s.fch.ready ++ [(j, some bytes)] ∧ counts t p FCH_LADDER_HARD ∧ (chanOf t c.val).decoding = (chanOf s c.val).decoding.filter fun x => x.id != id)
      ∧ (j.rung = 2 → Runs (.hardDecodeDone c id true weight bytes) s fun t =>
        t.fch.ready = s.fch.ready ++ [(j, some bytes)] ∧ counts t p FCH_LADDER_RETRY ∧ (dieOf t j.die).hint = j.set)
      ∧ (∀ k, j.rung = 1 → j.cls = .a → (chanOf s c.val).streak.length < 3 → dieRetired s j.die = false → bit (rd s p rSTATUS) 4 = false → nextSet? s j = some k →
        Runs (.hardDecodeDone c id false weight bytes) s fun t =>
          (dieOf t j.die).readsA = { j with best := betterOf j weight, rung := 2, set := some k } :: (dieOf s j.die).readsA)
      ∧ (inF s p FCH_LADDER_CTRL 31 16 ≠ 0 → inF s p FCH_LADDER_CTRL 31 16 * 1000 ≤ ((advance s elapsed).com.time - j.arrived).toNat →
        Runs (.ladderBudgetExpiry c id elapsed) s fun t => handed t ∧ counts t p FCH_LADDER_RECON))
    ∧ (pageUp s pLDS = true → s.fch.soft.get? dec.val = some ⟨j, false⟩ → s.fch.ldsInject.get? dec.val = none → j.rung = 3 →
      (Runs (.softDecodeJobDone dec true weight bytes) s fun t =>
        t.fch.ready = s.fch.ready ++ [(j, some bytes)] ∧ counts t pLDS LDS_SOFT_OK ∧ counts t p FCH_LADDER_SOFT)
      ∧ (j.threeBits = true → Runs (.softDecodeJobDone dec false weight bytes) s fun t => handed t ∧ counts t pLDS LDS_SOFT_FAIL))
    ∧ (∀ who, Runs (.decoderSelfCheck who true) s fun t => t.fch = s.fch ∧ RegsKept [] s t)
    ∧ (inF s p FCH_TRAIN_CTRL 15 0 ≠ 0 → bit (rd s p rSTATUS) 5 = false → (chanOf s c.val).decoding = [] → pageUp s p = true → chanFenced s c.val = false →
      Runs (.decoderSelfCheck (.hard c) false) s fun t => bit (rd t p rSTATUS) 5 = true ∧ fld (rd t p rFAULT) 31 28 = 4 ∧ fld (rd t p rFAULT) 15 0 = 0x11)
    ∧ (inF s pLDS LDS_SELF_CHECK 15 0 ≠ 0 → bit (rd s pLDS LDS_DEC_RETIRED) dec.val = false → s.fch.soft.get? dec.val = none → pageUp s pLDS = true →
      Runs (.decoderSelfCheck (.soft dec) false) s fun t => bit (rd t pLDS LDS_DEC_RETIRED) dec.val = true ∧ bit (rd t pLDS rIRQ_STATUS) 0 = true)

/-! ### The map walker and the block state table -/

/-- Tiers of the map (R192), map pages (R193, R195) and the host window (R196). -/
def Obligations.MapTiers : Prop :=
  ∀ (s : State) (h : Fin 1024) (u : BitVec 48) (pg : BitVec 37) (loc : BitVec 64) (granted : Nat),
    let e := entryAt s h.val u.toNat
    let seq := ((rd s pMAP MAP_JSEQ_ISSUED).toNat + 1) % 2 ^ 32
    let ends (t : State) (how : LookupEnd) (e : BitVec 64) := t.map.lastLookup = some (h.val, u.toNat, how, e)
    let buffered := s.map.wb.find? fun w => w.handle == h.val && w.unit == u.toNat && w.redirect.isNone
    (pageUp s pMAP = true →
      (∀ mu, s.map.mu.get? h.val = some mu →
        (∀ w, buffered = some w → Runs (.mapLookup h u) s fun t => ends t .writeBuffer 0 ∧ RegsKept [] s t)
        ∧ (buffered = none → s.map.cached.contains (segKey h.val u.toNat) = true → s.map.inject = [] →
          (e = trimmed → Runs (.mapLookup h u) s fun t => ends t .trimmed trimmed ∧ RegsKept [] s t)
          ∧ (validEntry s h.val e = true → entT e = false → (bstOf s (entDie e) (entBlock e)).pins < 0xFFFF → Runs (.mapLookup h u) s fun t =>
            ends t .cache e ∧ (bstOf t (entDie e) (entBlock e)).pins = (bstOf s (entDie e) (entBlock e)).pins + 1))
        ∧ (buffered = none → s.map.cached.contains (segKey h.val u.toNat) = false → hmwActive s = false → dirAt s h.val (u.toNat / 2048) = trimmed →
          Runs (.mapLookup h u) s fun t => ends t .trimmed trimmed ∧ RegsKept [] s t))
      ∧ (s.map.filling.contains (pageKey h.val pg.toNat) = true →
        (s.map.cached.length + 4 ≤ cacheMax s → Runs (.mapPageFill h pg true) s fun t =>
          t.map.filling.contains (pageKey h.val pg.toNat) = false ∧ ∀ i, i < 4 → t.map.cached.contains (h.val * 2 ^ 40 + 4 * pg.toNat + i) = true)
        ∧ (Runs (.mapPageFill h pg false) s fun t => t.map.filling.contains (pageKey h.val pg.toNat) = false ∧ fld (rd t pMAP rFAULT) 31 28 = 5))
      ∧ (dirtyOf s h.val pg.toNat ≠ [] → mapStopped s = false → copyCovered s loc = true → s.map.ckpt = none → Runs (.mapWriteBack h pg loc) s fun t =>
        let e := mkEntry (entDie loc) (entBlock loc) (entPage loc) 0 256 0
        t.map.journal = s.map.journal ++ [⟨seq, .dirUpdate h.val pg.toNat e, false⟩] ∧ dirAt t h.val pg.toNat = e ∧ rd t pMAP MAP_JSEQ_ISSUED = w32 seq)
      ∧ (drbgSeeded s = true → Runs (.hmwEnable granted) s fun t =>
        t.map.window = [] ∧ t.map.slots = granted / 8192 ∧ t.map.windowKey = s.com.free ∧ t.com.free = s.com.free + 1
        ∧ bit (rd t pMAP MAP_HMW_STATUS) 0 = (bit (inForce s pMAP MAP_MAP_CFG) 0 && decide (granted / 8192 ≠ 0)) ∧ bit (rd t pMAP MAP_HMW_STATUS) 1 = false
        ∧ (slotOf t 0xFFF0).state = .valid ∧ (slotOf t 0xFFF0).type = 4 ∧ (slotOf t 0xFFF0).gen = nextGen (slotOf s 0xFFF0)))
    ∧ (jHigh s = true → s.map.ckpt = none → dirtyPages s ≠ [] → Runs (.checkpointBegin .mapFill) s fun t => t.map.ckpt = some (dirtyPages s))
    ∧ (sHigh s = true → Runs (.checkpointBegin .strFill) s fun t => (t.str.journal.getLast?.map fun r => r.payload) = some .mark)
    ∧ (∀ i : Fin 1024, delivers s i.val 3 pMAP = true → (entryOf s i.val).page = pMAP → bit (entryOf s i.val).arg 31 = true → dirtyPages s ≠ [] →
      Runs (.checkpointBegin (.launch i)) s fun t => t.map.ckpt = some (dirtyPages s) ∧ t.sgl.returns.get? i.val = some 0)

/-- The journaled change of a map entry (R203), a full ring (R205) and durability (R201). -/
def Obligations.MapChanges : Prop :=
  ∀ (s : State) (h : Fin 1024) (u : BitVec 48) (new seen : BitVec 64) (first : BitVec 48) (n : Nat) (ch : MapChange), pageUp s pMAP = true →
    let old := entryAt s h.val u.toNat
    let others (t : State) := ∀ key, key ≠ unitKey h.val u.toNat → t.map.entries.get? key = s.map.entries.get? key
    let seq := ((rd s pMAP MAP_JSEQ_ISSUED).toNat + 1) % 2 ^ 32
    (mapStopped s = false → jRoom s 32 = true →
      (copyCovered s new = true →
        (Runs (.mapChange (.redirect .host h u new seen)) s fun t =>
          entryAt t h.val u.toNat = redirectEntry s .host (hostLock s h.val u.toNat) old new ∧ others t ∧ rd t pMAP MAP_JSEQ_ISSUED = w32 seq
          ∧ t.map.journal = s.map.journal ++ [⟨seq, .redirect .host h.val u.toNat (redirectEntry s .host (hostLock s h.val u.toNat) old new), false⟩])
        ∧ (∀ k, k ≠ .host →
          (sameLocation old seen = true → Runs (.mapChange (.redirect k h u new seen)) s fun t =>
            entryAt t h.val u.toNat = redirectEntry s k false old new ∧ others t ∧ rd t pMAP MAP_JSEQ_ISSUED = w32 seq)
          ∧ (sameLocation old seen = false → Runs (.mapChange (.redirect k h u new seen)) s fun t =>
            t.map.entries = s.map.entries ∧ rd t pMAP MAP_REDIRECT_DROP = w32 (satAdd 0xFFFFFFFF (rd s pMAP MAP_REDIRECT_DROP).toNat 1))))
      ∧ (Runs (.mapChange (.trim h first n)) s fun t =>
        (∀ v, first.toNat ≤ v → v < first.toNat + n → v < 2 ^ 48 → entryAt t h.val v = trimmed)
        ∧ (∀ v, v < first.toNat ∨ first.toNat + n ≤ v → v < 2 ^ 48 → entryAt t h.val v = entryAt s h.val v))
      ∧ (hasLocation old = true → Runs (.mapChange (.lock h u)) s fun t => entryAt t h.val u.toNat = old ||| 0x100 ∧ others t)
      ∧ (s.map.held = [.redirect .host h u new seen] → copyCovered s new = true → Runs .journalRingFullHold s fun t =>
        t.map.held = [] ∧ entryAt t h.val u.toNat = redirectEntry s .host (hostLock s h.val u.toNat) old new ∧ others t))
    ∧ (mapStopped s = false → jRoom s 32 = false → Runs (.mapChange ch) s fun t => t.map.held = s.map.held ++ [ch] ∧ t.map.entries = s.map.entries)
    ∧ (∀ r, (s.map.journal.find? fun r => !seqLe r.seq (jDurable s)) = some r → wearHolds s 0x0800000 = false → Runs .journalRecordDurable s fun t =>
      rd t pMAP MAP_JSEQ_DURABLE = w32 r.seq ∧ t.map.wb = s.map.wb.filter (fun w => w.redirect != some r.seq) ∧ t.map.entries = s.map.entries)

/-- What the block state table does of itself (R210 to R224). -/
def Obligations.BlockStatesAndCollection : Prop :=
  ∀ (s : State) (die : Fin 1024) (block : Fin 16384) (elapsed : Nat), pageUp s pMAP = true →
    let b := bstOf s die.val block.val
    let seq := ((rd s pMAP MAP_JSEQ_ISSUED).toNat + 1) % 2 ^ 32
    let victim (t : State) (d b : Nat) (m : Bool) := t.map.gc = s.map.gc ++ [⟨d, b, .copy, m⟩] ∧ (bstRaw t d b).changing = some (.victim, seq)
    (b.state ≠ .freeable → Runs (.blockStateChange die block) s fun t => bstRaw t die.val block.val = b ∧ t.fch = s.fch)
    ∧ (b.state = .freeable → b.eraseIssued = false → eraseQueued s die.val block.val = false → ferryRunning s = false → dieInService s die.val = true →
      (wornOut s die.val b = false ∨ b.floor = true) → Runs (.blockStateChange die block) s fun t =>
        (dieOf t die.val).work = (dieOf s die.val).work ++ [.erase block.val (.block 0x00C)])
    ∧ (ferryRunning s = false → jRoom s 32 = true →
      (∀ d b e, gcPick? s = some (d, b, e) → (wornOut s d e = false ∨ e.live ≠ 0) → Runs .gcVictimSelect s fun t => victim t d b false)
      ∧ (∀ d b e, oasisOver s = true → inF s pMAP MAP_MIGRATE_START 6 0 ≠ 0 → coldest? s ((gcCandidates s).filter fun c => c.2.2.slc) = some (d, b, e) →
        Runs .migrationStart s fun t => victim t d b true)
      ∧ (∀ b e, inF s pMAP MAP_WL_DELTA 15 0 ≠ 0 → inF s pMAP MAP_WL_DELTA 15 0 < eraseSpread s die.val →
        minBy? (fun c : Nat × Nat × Bst => c.2.2.closeStamp) ((gcCandidates s).filter fun c => c.1 == die.val) = some (die.val, b, e) →
        Runs (.staticWearLevel die) s fun t => victim t die.val b false))
    ∧ (Runs (.throttleWindow elapsed) s fun t => t.map.lastReturned = s.map.returned ∧ t.map.returned = 0 ∧ t.map.admitted = 0 ∧ t.map.entries = s.map.entries)

/-! ### The stripe engine -/

/-- Reconstruction from P (R231, R232). -/
def Obligations.StripeParityRecovers : Prop :=
  ∀ (n x : Nat) (ds : List (List Byte)), (∀ d ∈ ds, d.length = n) → x < ds.length →
    let numbered := (List.range ds.length).zip ds
    recoverMember ds.length 0 n x ((numbered.filter fun m => m.1 != x) ++ [(ds.length, sumP n numbered)]) = some (ds.getD x [])
    ∧ recoverMember ds.length 0 n ds.length numbered = some (sumP n numbered)

/-- The life of a stripe (R235 to R241, R319). -/
def Obligations.StripeLife : Prop :=
  ∀ (s : State) (slc : Bool) (set : BitVec 32) (units : List PackedUnit) (elapsed : Nat) (member : Fin 32) (e : SetEntry) (o : OpenStripe), pageUp s pSTR = true →
    let n := set.toNat
    let i := nextMember e o
    let closed (t : State) := stripeOf? t n = none ∧ setAt? t n = some { e with open_ := false, pages := o.page, next := o.page, collect := true }
    (∀ ms, layoutProt s + 2 ≤ eligibleChannels s → ferryRunning s = false → sFull s = false → jRoom s 4096 = true → s.str.stripes.length < inF s pSTR STR_OPEN_MAX 7 0 →
      (slc = true → oasisUsed s + layoutWidth s ≤ oasisShare s) → stripeOf? s s.str.nextSet = none →
      ((place s.str.nextSet (layoutSeed s) (layoutWidth s) (chanMask (posMasks s)) (posMasks s)).mapM fun d => (allocBlock? s d).map fun b => (d, b)) = some ms →
      Runs (.setOpen slc) s fun t =>
        t.str.nextSet = s.str.nextSet + 1
        ∧ (∃ e', setAt? t s.str.nextSet = some e' ∧ e'.members = ms.map (fun m => ⟨false, m.1, m.2⟩) ∧ e'.slc = slc ∧ e'.open_ = true ∧ e'.next = 0)
        ∧ ∃ o', stripeOf? t s.str.nextSet = some o' ∧ o'.page = 0 ∧ o'.phase = .filling ∧ o'.mask = 0)
    ∧ (setAt? s n = some e → stripeOf? s n = some o →
      (o.phase = .filling →
        (i < e.k → setReady s e = true → sFull s = false → Runs (.stripeMemberProgram set units) s fun t =>
          (∃ o', stripeOf? t n = some o' ∧ o'.mask = o.mask + 2 ^ i ∧ o'.acc = true ∧ o'.units = o.units ++ pageUnits (e.member i) o.page e.slc units)
          ∧ t.map.stamp = (s.map.stamp + 1) % 2 ^ 48
          ∧ ∃ torn, t.str.journal = s.str.journal ++ [⟨((rd s pSTR STR_SSEQ_ISSUED).toNat + 1) % 2 ^ 32, .stripeProg (stripeNo n o.page) (o.mask + 2 ^ i), torn⟩])
        ∧ (e.k ≤ i → Runs (.stripeParityProgram set) s fun t => stripeOf? t n = some { o with phase := .verifying })
        ∧ (o.mask ≠ 0 → inF s pSTR STR_CLOSE_AGE 15 0 ≠ 0 → inF s pSTR STR_CLOSE_AGE 15 0 * 1000000 ≤ ((advance s elapsed).com.time - o.firstAt).toNat → sFull s = false →
          bit (rd s pMAP MAP_MEDIA_STATE) 2 = false → Runs (.stripeCloseAge set elapsed) s fun t =>
            stripeOf? t n = some { o with mask := 2 ^ e.k - 1, pads := o.pads + (e.k - popCount e.k o.mask), phase := .verifying }))
      ∧ (o.phase = .verifying → sFull s = false → s.str.inject = [] →
        (o.page + 1 < e.pages → Runs (.stripeVerify set []) s fun t =>
          setAt? t n = some { e with next := o.page + 1, provisional := false } ∧ ∃ o', stripeOf? t n = some o' ∧ o'.page = o.page + 1 ∧ o'.phase = .filling ∧ o'.mask = 0)
        ∧ ((verifyMembers s e).contains member.val = true → Runs (.stripeVerify set [(member, 3)]) s fun t =>
          stripeOf? t n = some { o with phase := .collecting } ∧ setAt? t n = some { e with collect := true } ∧ bit (rd t pSTR rIRQ_STATUS) 5 = true))
      ∧ (member.val < e.width → Runs (.stripeProgramFail set member) s closed)
      ∧ (o.acc = true → Runs (.accumulatorUe set) s closed)
      ∧ (o.phase = .provisional → i < e.k → sFull s = false → Runs (.rmwParityUpdate set units) s fun t =>
        ∃ o', stripeOf? t n = some o' ∧ o'.mask = o.mask + 2 ^ i ∧ o'.units = o.units ++ pageUnits (e.member i) o.page e.slc units))

/-- Resynchronisation (R244) and rung 4 (R247). -/
def Obligations.StripeResyncAndReconstruct : Prop :=
  ∀ (s : State) (lost : List (Fin 1024 × BitVec 48)) (job : Nat) (survivors : List (Fin 32 × List Byte)), pageUp s pSTR = true →
    let counts (t : State) (r : Nat) := rd t pSTR r = w32 (satAdd 0xFFFFFFFF (rd s pSTR r).toNat 1)
    (∀ st rest, s.str.unresync = st :: rest → inF s pSTR STR_SHARE 15 8 ≠ 0 → ferryRunning s = false →
      (Runs (.stripeResync 0 lost) s fun t =>
        t.str.unresync = rest ∧ rd t pSTR STR_RESYNC_LEFT = w32 rest.length ∧ (t.str.journal.getLast?.map fun r => r.payload) = some (.resyncDone st 0))
      ∧ (∀ (k : Fin 3) e, k ≠ 0 → setAt? s (st / 4096) = some e → e.open_ = false → Runs (.stripeResync k lost) s fun t =>
        t.str.unresync = rest ∧ rd t pSTR STR_RESYNC_LEFT = w32 rest.length ∧ setAt? t (st / 4096) = some { e with collect := true }
        ∧ (k = 2 → counts t STR_UNRECOVERABLE ∧ bit (rd t pSTR rIRQ_STATUS) 3 = true)))
    ∧ (∀ j, (s.fch.recon.find? fun x => x.id == job) = some j → s.str.inject = [] →
      (setOf? s j.die j.block = none → Runs (.stripeReconstruct job survivors) s fun t =>
        t.fch.recon = s.fch.recon.filter (fun x => x.id != job) ∧ t.fch.ready = s.fch.ready ++ [(j, none)] ∧ counts t STR_RECON_FAIL)
      ∧ (∀ n e b, setOf? s j.die j.block = some (n, e) → stripeOf? s n = none →
        recoverMember e.k e.prot 4096 ((e.members.zipIdx.find? fun m : Member × Nat => m.1.die == j.die && m.1.block == j.block).elim 0 (·.2))
          ((survivors.map fun m => (m.1.val, m.2)).filter fun m => m.1 != (e.members.zipIdx.find? fun m : Member × Nat => m.1.die == j.die && m.1.block == j.block).elim 0 (·.2)) = some b →
        Runs (.stripeReconstruct job survivors) s fun t =>
          t.fch.recon = s.fch.recon.filter (fun x => x.id != job) ∧ t.fch.ready = s.fch.ready ++ [(j, some b)] ∧ counts t STR_RECON_COUNT))

/-- Rebuild (R253 to R255) and copy-out (R256). -/
def Obligations.RebuildOfADie : Prop :=
  ∀ (s : State) (die : Fin 1024), pageUp s pSTR = true →
    let d := die.val
    let r := rebuildOf s d
    (dieRetired s d = true → r.state = .none → Runs (.rebuildStart die) s fun t => (rebuildOf t d).state = .fenced ∧ bit (rd t pSTR rIRQ_STATUS) 0 = true)
    ∧ (r.state = .paused → Runs (.rebuildStart die) s fun t => (rebuildOf t d).state = r.prev)
    ∧ (r.state = .fenced ∨ r.state = .census → ferryRunning s = false →
      (rebuildShare s = 0 → Runs (.rebuildCensus die) s fun t => (rebuildOf t d).state = .paused ∧ (rebuildOf t d).prev = .census)
      ∧ (rebuildShare s ≠ 0 → rebuildTodo s d = [] → Runs (.rebuildCensus die) s fun t => (rebuildOf t d).state = .done ∧ bit (rd t pSTR rIRQ_STATUS) 1 = true)
      ∧ (rebuildShare s ≠ 0 → rebuildTodo s d ≠ [] → Runs (.rebuildCensus die) s fun t =>
        (rebuildOf t d).state = .restore ∧ (rebuildOf t d).todo = rebuildTodo s d ∧ (rebuildOf t d).total = r.done + (rebuildTodo s d).length))
    ∧ (r.state = .restore →
      (∀ b rest n e nd nb, ferryRunning s = false → jRoom s 65536 = true → sFull s = false → rebuildShare s ≠ 0 → r.todo = b :: rest → b ∉ rest → setOf? s d b = some (n, e) →
        substituteDie? s e = some nd → allocBlock? s nd = some nb → Runs (.rebuildRestoreBlock die 0 1) s fun t =>
          (∃ e', setAt? t n = some e' ∧ e'.substituted = true ∧ e'.members = e.members.map fun m : Member => if m.die == d && m.block == b then ⟨true, nd, nb⟩ else m)
          ∧ (rebuildOf t d).done = r.done + 1 ∧ (rebuildOf t d).todo = rest ∧ t.str.substitutes = s.str.substitutes ++ [bstKey nd nb])
      ∧ (rebuildShare s = 0 → Runs (.rebuildPause die) s fun t => (rebuildOf t d).state = .paused ∧ (rebuildOf t d).prev = .restore))
    ∧ (dieInService s d = true → r.state = .none → ferryRunning s = false → heldBlocksOf s d = [] → Runs (.copyOut die) s fun t =>
      dieRetired t d = true ∧ bit (rd t pSTR rIRQ_STATUS) 1 = true)

/-! ### The dispatcher, the load engine and core resets -/

/-- `WI_OP` (R376): each operation on a slot that allows it, its result and its frame. -/
def Obligations.WorkItemOperations : Prop :=
  ∀ (s : State) (who : Initiator), takesWrite s who pDIS DIS_WI_OP = true → s.dis.stopped = false →
    let sel := rdF s pDIS DIS_WI_SEL 15 0
    let x := itemOf s sel
    let w := windowItem s
    let filled : Item := if sel < 0x1FF then { x with w0 := w.w0, arg0 := w.arg0, arg1 := w.arg1, w3 := w.w3 } else w
    let sound : Prop := badFields s w = false ∧ absentItem s w = false
    let settled : Prop := x.state = .free ∨ x.state = .done ∨ x.state = .failed
    let status (t : State) (n : Nat) : Prop := rd t pDIS DIS_WI_STATUS = w32 (n * 65536 + (itemOf t n).state.code * 16) ∧ RegsKept disShown s t
    let others (t : State) (n : Nat) : Prop := ∀ m, m ≠ n → itemOf t m = { itemOf s m with tie := (itemOf t m).tie }
    let becomes (t : State) (y : Item) : Prop := itemOf t sel = y ∧ (∀ m, m ≠ sel → itemOf t m = itemOf s m) ∧ status t sel
    (wiDenied s who 1 sel = false → Runs (.wiRead who) s fun t =>
      ((List.range 8).map fun i => rd t pDIS (DIS_WI_W0 + 4 * i)) = [x.w0, x.arg0, x.arg1, x.w3, lo32 x.due, hi32 x.due, x.w6, x.w7]
      ∧ rd t pDIS DIS_WI_STATUS = w32 (sel * 65536 + x.state.code * 16) ∧ t.dis = s.dis)
    ∧ (∀ n, wiDenied s who 2 sel = false → sound → lowestFree s = some n → w.clusterField ≤ 5 →
      (w.due.toNat ≤ s.com.time.toNat → Runs (.wiSubmitNew who) s fun t => Queued t n w.clusterField w ∧ others t n ∧ status t n)
      ∧ (s.com.time.toNat < w.due.toNat → Runs (.wiSubmitNew who) s fun t =>
        itemOf t n = { w with state := .delayed, cluster := w.clusterField, entered := s.com.time } ∧ t.dis.delayed = s.dis.delayed ++ [n] ∧ others t n ∧ status t n))
    ∧ (wiDenied s who 3 sel = false → sound → settled →
      (sel < 0x1FF → Runs (.wiSubmit who) s fun t => becomes t { filled with state := .waiting })
      ∧ (0x201 ≤ sel → w.clusterField ≤ 5 → w.due.toNat ≤ s.com.time.toNat → Runs (.wiSubmit who) s fun t => Queued t sel w.clusterField w ∧ others t sel ∧ status t sel))
    ∧ (wiDenied s who 4 sel = false → sound → settled → sel ≠ 0x1FF → sel ≠ 0x200 → Runs (.wiArm who) s fun t => becomes t { filled with state := .waiting })
    ∧ (wiDenied s who 5 sel = false → sel ≠ 0x1FF → sel ≠ 0x200 → x.state = .waiting ∨ x.state = .delayed ∨ x.state = .ready → Runs (.wiCancel who) s fun t =>
      becomes t { x with state := .free } ∧ sel ∉ t.dis.delayed ∧ sel ∉ queueOf t (16 * x.cluster + x.prio))
    ∧ (wiDenied s who 6 sel = false → x.state = .done ∨ x.state = .failed → Runs (.wiRelease who) s fun t =>
      becomes t { x with state := .free } ∧ t.dis.failures = s.dis.failures.filter (· != sel) ∧ rd t pDIS DIS_FAIL_COUNT = w32 t.dis.failures.length)

/-- Events (R378, R380), dispatch (R382), pre-emption (R383, R384), and the reads and writes of R389 that change something. -/
def Obligations.WorkItemScheduling : Prop :=
  ∀ (s : State) (who : Initiator) (page : BitVec 12) (c : Clu) (n : Fin 48) (i : Nat) (value : Word) (elapsed : Nat),
    let p := page.toNat
    let u := advance s elapsed
    let x := itemOf s i
    let busy := busyNow s (rdF s pDIS DIS_CORE_SEL 5 0)
    (pageUp s pDIS = true → s.dis.stopped = false →
      (p < 0x1FF → irqRaised s p = true → s.dis.inject = [] →
        ((itemOf s p).state = .waiting → Runs (.pageInterrupt page) s fun t => Queued t p (queueCluster s (itemOf s p)) (itemOf s p))
        ∧ ((itemOf s p).state = .free → Runs (.pageInterrupt page) s fun t =>
          rd t pDIS DIS_EVENT_MISS = w32 (satAdd 0xFFFFFFFF (rd s pDIS DIS_EVENT_MISS).toNat 1) ∧ t.dis = s.dis)
        ∧ ((itemOf s p).state ≠ .waiting → (itemOf s p).state ≠ .free → Runs (.pageInterrupt page) s fun t => itemOf t p = { itemOf s p with pending := true }))
      ∧ (inF s pDIS DIS_TICK 13 0 ≠ 0 → u.com.time.toNat % inF s pDIS DIS_TICK 13 0 = 0 → s.dis.delayed = [i] → x.due.toNat ≤ u.com.time.toNat →
        Runs (.dispatcherTick elapsed) s fun t => t.dis.delayed = [] ∧ t.com.time = u.com.time ∧ (itemOf t i).state = .ready ∧ i ∈ queueOf t (16 * queueCluster s x + x.prio))
      ∧ ((∀ m ∈ coresOf c, coreFree s m = (m == n)) → n ∈ coresOf c → nextFor s n = some i → x.state = .ready → x.env = 0x3F →
        Runs (.itemDispatch c elapsed) s fun t =>
          let k := coreOf t n
          k.mode = .run ∧ k.pc = w32 (fld x.w0 15 0) ∧ k.runmode = (if x.passenger then 1 else 0)
          ∧ (∀ r : RegIx, k.reg r = if r = 4 then x.arg0 else if r = 5 then x.arg1 else 0) ∧ k.trapBase = (coreOf s n).trapBase
          ∧ t.dis.running.get? n.val = some i ∧ (itemOf t i).state = .running ∧ i ∉ queueOf t (16 * x.cluster + x.prio))
      ∧ (∀ r slot, preemptPick u c = some (i, n) → u.dis.running.get? n.val = some r → r ≠ i → ctxCount u c.val ≠ 0 → freeContext u c.val = some slot →
        (cluOf s c).load = none → x.env = 0x3F → pageUp s (pNCL c.val) = true → Runs (.itemPreempt c elapsed) s fun t =>
          itemOf t r = { itemOf s r with state := .preempted, ctx := slot, entered := u.com.time }
          ∧ t.dis.contexts.get? (1024 * c.val + slot) = some r ∧ r ∈ queueOf t (16 * c.val + (itemOf s r).prio)
          ∧ t.dis.running.get? n.val = some i ∧ (itemOf t i).state = .running ∧ (coreOf t n).mode = .run ∧ (coreOf t n).pc = w32 (fld x.w0 15 0)))
    ∧ (takesRead s who pDIS DIS_FAIL_NEXT = true →
      (s.dis.failures = [] → Runs (.failNextRead who) s fun t => t.com.answer = .data (bytesLE 4 0xFFFF) ∧ t.dis = s.dis)
      ∧ (∀ f rest, s.dis.failures = f :: rest → Runs (.failNextRead who) s fun t =>
        t.com.answer = .data (bytesLE 4 (w32 f).toNat) ∧ t.dis.failures = rest ∧ rd t pDIS DIS_FAIL_NEXT = w32 (rest.headD 0xFFFF)))
    ∧ (takesWrite s who pDIS DIS_HIST_CLEAR = true → bit value 0 = true → Runs (.histClear who value) s fun t =>
      t.dis.hist = [] ∧ ∀ m < 8, rd t pDIS (DIS_Q_HIST + 4 * m) = 0)
    ∧ (takesRead s who pDIS DIS_CORE_BUSY_LO = true → Runs (.coreBusyLoRead who) s fun t =>
      t.com.answer = .data (bytesLE 4 (w32 busy).toNat) ∧ rd t pDIS DIS_CORE_BUSY_HI = w32 (busy / 2 ^ 32)
      ∧ RegsKept [(pDIS, DIS_CORE_BUSY_LO), (pDIS, DIS_CORE_BUSY_HI)] s t ∧ t.dis = s.dis)

/-- The load engine (R367 to R369), CORE_RESET (R370) and CORE_RETIRE (R372). -/
def Obligations.ClusterLoadResetRetire : Prop :=
  ∀ (s : State) (who : Initiator) (c : Clu) (value : Word),
    let p := pNCL c.val
    (∀ (o mask dest : Nat), takesWrite s who p NCL_LOAD_CTRL = true → bit value 0 = true → fld value 15 8 = 1 → bit (rd s p NCL_LOAD_STATUS) 31 = false →
      rdF s p NCL_LOAD_SRC_HI 15 0 * 2 ^ 32 + (rd s p NCL_LOAD_SRC_LO).toNat = 0x4000000 + o → o % 64 = 0 → o + 128 ≤ 0x4000000 → domainUp s 7 = true →
      s.mem.lndErr = [] → s.mem.lndMerge = [] → s.mem.lndInject = [] → sectionOf (s.mem.landing.readN o 16) = ⟨2, mask, dest, 8, 64⟩ → dest + 8 ≤ 0x10000 →
      (cluOf s c).load = none → s.com.chip.hasCluster c.val = true → (∀ k : CoreIx, mask.testBit k.val = true → (coreOf s (coreNo c k)).mode = .idle ∧ coreRetired s (coreNo c k) = false) →
      Runs (.clusterLoadStart who c value) s fun t =>
        (∀ k : CoreIx, let x := coreOf t (coreNo c k)
          (mask.testBit k.val = true → x.dtcm.readN dest 8 = s.mem.landing.readN (o + 64) 8 ∧ x.mode = .run ∧ x.pc = x.trapBase ∧ x.runmode = 0)
          ∧ (mask.testBit k.val = false → x = (coreOf s (coreNo c k)).canon))
        ∧ rd t p NCL_LOAD_STATUS = 0 ∧ bit (rd t p rIRQ_STATUS) 2 = true ∧ (cluOf t c).load = none)
    ∧ (takesWrite s who p NCL_CORE_RESET = true → Runs (.coreReset who c value) s fun t =>
      (∀ k : CoreIx, let x := coreOf s (coreNo c k)
        let y := coreOf t (coreNo c k)
        (bit value k.val = true → x.mode = .idle ∨ x.mode = .halted → coreRetired s (coreNo c k) = false →
          y.pc = x.trapBase ∧ y.runmode = 0 ∧ y.cycle = 0 ∧ y.mode = restMode s (coreNo c k) ∧ y.regs = x.regs)
        ∧ (bit value k.val = false → y = x.canon))
      ∧ t.dis = s.dis ∧ RegsKept [(p, NCL_CORE_STATE)] s t)
    ∧ (∀ k m : CoreIx, takesWrite s who p NCL_CORE_RETIRE = true → fld value 7 0 = 2 ^ k.val → s.com.chip.hasCluster c.val = true → coreRetired s (coreNo c k) = false →
      m ≠ k → coreInService s (coreNo c m) = true → Runs (.coreRetire who c value) s fun t =>
        bit (rd t p NCL_CORE_RETIRED) k.val = true ∧ (coreOf t (coreNo c k)).mode = .halted ∧ bit (rd t p rIRQ_STATUS) 0 = true
        ∧ t.dis.running.get? (coreNo c k).val = none ∧ (∀ i, s.dis.running.get? (coreNo c k).val = some i → (itemOf t i).state = .failed ∧ (itemOf t i).cause = 2))

/-! ### Error injection and the registers whose write is a command -/

/-- Error injection (R613): what each page's ERR_INJECT arms, or does at once. -/
def Obligations.ErrInjectArms : Prop :=
  ∀ (s : State) (who : Initiator) (value : Word) (p : Port) (ch : Chan) (n : DmcIx) (c : Clu) (v : CvnIx) (d : DgeIx),
    let code := fld value 3 0
    let arms (i : Instr) (P : State → Prop) : Prop := Runs i s fun t => P t ∧ RegsKept [] s t
    (takesWrite s who (pHF p) HF_ERR_INJECT = true → code = 2 → Runs (.hfaErrInject who p value) s fun t => bit (rd t (pHF p) HF_AER_SUMMARY) 12 = true ∧ RegsKept [(pHF p, HF_AER_SUMMARY)] s t)
    ∧ (takesWrite s who pNQE NQE_ERR_INJECT = true → code = 1 ∨ code = 2 → arms (.nqeErrInject who value) fun t => t.hst.nqeInject = s.hst.nqeInject ++ [code])
    ∧ (takesWrite s who (pFCH ch.val) FCH_ERR_INJECT = true → code ∈ [1, 2, 3, 5, 6] → arms (.fchErrInject who ch value) fun t => (chanOf t ch.val).inject.get? (fld value 11 8) = some code)
    ∧ (takesWrite s who pLDS LDS_ERR_INJECT = true → code = 1 → arms (.ldsErrInject who value) fun t => t.fch.ldsInject.get? (fld value 6 4) = some 1)
    ∧ (takesWrite s who pMAP MAP_ERR_INJECT = true → code = 1 ∨ code = 3 → arms (.mapErrInject who value) fun t => t.map.inject = s.map.inject ++ [code])
    ∧ (takesWrite s who pSTR STR_ERR_INJECT = true → code ∈ [1, 2, 3, 4] → arms (.strErrInject who value) fun t => t.str.inject = s.str.inject ++ [code])
    ∧ (takesWrite s who pPMU PMU_ERR_INJECT = true → code ∈ [1, 2, 3] → arms (.pmuErrInject who value) fun t => t.pwr.inject = s.pwr.inject ++ [(fld value 12 8, code)])
    ∧ (takesWrite s who (pDMC n.val) DMC_ERR_INJECT = true → code ∈ [1, 2, 4] → arms (.dmcErrInject who n value) fun t => t.mem.dmcInject = s.mem.dmcInject ++ [(n.val, fld value 4 4, code)])
    ∧ (takesWrite s who pLND LND_ERR_INJECT = true → code = 1 ∨ code = 2 → arms (.lndErrInject who value) fun t => t.mem.lndInject.get? (fld value 12 8) = some code)
    ∧ (takesWrite s who pMRM MRM_ERR_INJECT = true → code ∈ [1, 2, 4] → arms (.mrmErrInject who value) fun t => t.mem.mrmInject = s.mem.mrmInject ++ [(fld value 4 4, code)])
    ∧ (takesWrite s who (pNCL c.val) NCL_ERR_INJECT = true → code ∈ [1, 2, 3, 5] → arms (.nclErrInject who c value) fun t => (cluOf t c).inject = (cluOf s c).inject ++ [(fld value 6 4, code)])
    ∧ (takesWrite s who pDIS DIS_ERR_INJECT = true → code = 1 ∨ code = 2 → arms (.disErrInject who value) fun t => t.dis.inject = s.dis.inject ++ [(fld value 6 4, code)])
    ∧ (takesWrite s who (pCVN v.val) CVN_ERR_INJECT = true → code ∈ [1, 3, 4] → Runs (.cvnErrInject who v value) s fun t => (cvnOf t v.val).inject = (cvnOf s v.val).inject ++ [code])
    ∧ (takesWrite s who pMTE MTE_ERR_INJECT = true → code ∈ [1, 2, 3] → arms (.mteErrInject who value) fun t =>
      let b := badOf t (fld value 31 16)
      (code = 1 → b.array = true) ∧ (code ≠ 1 → b.row = true) ∧ (code = 3 → b.shadow = true))
    ∧ (takesWrite s who (pDGE d.val) DGE_ERR_INJECT = true → code = 2 → Runs (.dgeErrInject who d value) s fun t => (dgeOf t d.val).corrupt = true)
    ∧ (takesWrite s who pKEY KEY_ERR_INJECT = true →
      (code = 1 → arms (.keyErrInject who value) fun t => t.key.failUnwrap = true)
      ∧ (code = 3 → Runs (.keyErrInject who value) s fun t => (slotOf t (rdF s pKEY KEY_KSEL 15 0)).counter = 2 ^ 64 - 2))
    ∧ (takesWrite s who pSCP SCP_ERR_INJECT = true → code ∈ [1, 2, 3] → arms (.scpErrInject who value) fun t => t.bot.inject = s.bot.inject ++ [(code, fld value 5 4)])
    ∧ (takesWrite s who pSPN SPN_ERR_INJECT = true →
      (code ∈ [1, 2, 3] → arms (.spnErrInject who value) fun t => t.spn.inject = s.spn.inject ++ [code])
      ∧ (code = 4 → arms (.spnErrInject who value) fun t => t.spn.skew = 10))
    ∧ (takesWrite s who pCLE CLE_ERR_INJECT = true →
      (code = 2 → arms (.cleErrInject who value) fun t => t.pwr.heated = some (0, s.com.time + 1000000))
      ∧ (code = 4 → Runs (.cleErrInject who value) s fun t => rdF t pCLE CLE_TOKEN_NOW 26 16 = inF s pCLE CLE_TOKEN_MIN 10 0))
    ∧ (takesWrite s who pFLT FLT_ERR_INJECT = true →
      (code = 1 → arms (.fltErrInject who value) fun t => t.com.log.badNext = true)
      ∧ (code = 2 → arms (.fltErrInject who value) fun t => t.flt.holdQueue = true))

/-- The writes of registers that the opcode table lists as commands of their own. -/
def Obligations.RegisterCommandWrites : Prop :=
  ∀ (s : State) (who : Initiator) (value : Word) (p : Port) (ch : Chan) (v : CvnIx) (r : RingIx),
    let pc := pCVN v.val
    let size := rgSize s v.val r.val
    let tail := fld value 12 0 % 2 ^ (size + 1)
    let e := bstOf s (fld value 25 16) (fld value 13 0)
    let b := rebuildOf s (fld value 9 0)
    let code := fld value 7 0
    (takesWrite s who (pHF p) HF_MARGIN_CTRL = true → Runs (.marginCtrlWrite who p value) s fun t => rd t (pHF p) HF_MARGIN_CTRL = value ∧ RegsKept [(pHF p, HF_MARGIN_CTRL)] s t)
    ∧ (takesWrite s who (pFCH ch.val) FCH_RETIRE_REQ = true → bit value 31 = false → dieInService s (16 * ch.val + fld value 3 0) = true →
      Runs (.retireReq who ch value) s fun t => dieRetired t (16 * ch.val + fld value 3 0) = true ∧ bit (rd t pFLT rIRQ_STATUS) 1 = true)
    ∧ (takesWrite s who pMAP MAP_BST_SEL = true → Runs (.bstSelWrite who value) s fun t =>
      rd t pMAP MAP_BST_W0 = w32 (bstW0 e) ∧ rd t pMAP (MAP_BST_W0 + 4) = w32 (e.live % 2 ^ 21) ∧ rd t pMAP (MAP_BST_W0 + 8) = w32 e.jseqLast
      ∧ rd t pMAP (MAP_BST_W0 + 12) = w32 (e.pins * 65536 + e.closeStamp)
      ∧ RegsKept [(pMAP, MAP_BST_SEL), (pMAP, MAP_BST_W0), (pMAP, MAP_BST_W0 + 4), (pMAP, MAP_BST_W0 + 8), (pMAP, MAP_BST_W0 + 12)] s t)
    ∧ (takesWrite s who pSTR STR_RB_SEL = true → Runs (.rbSelWrite who value) s fun t =>
      rdF t pSTR STR_RB_STATE 7 0 = b.state.code ∧ rd t pSTR STR_RB_DONE = w32 b.done ∧ rd t pSTR STR_RB_TOTAL = w32 b.total
      ∧ RegsKept [(pSTR, STR_RB_SEL), (pSTR, STR_RB_STATE), (pSTR, STR_RB_DONE), (pSTR, STR_RB_TOTAL)] s t)
    ∧ (takesWrite s who pCLE CLE_TOKEN_CEIL = true → Runs (.tokenCeilWrite who value) s fun t =>
      rd t pCLE CLE_TOKEN_CEIL = w32 (max (inF s pCLE CLE_TOKEN_MIN 10 0) (min (inF s pCLE CLE_TOKEN_MAX 10 0) (fld value 10 0))) ∧ RegsKept [(pCLE, CLE_TOKEN_CEIL)] s t)
    ∧ (takesWrite s who pFLT FLT_IRESET = true → (islandPage? s code).isSome = true → islandRetired s code = false → s.flt.resets = [] → Runs (.ireset who value) s fun t =>
      t.flt.resets = [256 + code] ∧ rd t pFLT FLT_IRESET_STATUS = w32 (2 ^ 31 + code * 256) ∧ RegsKept [(pFLT, FLT_IRESET_STATUS)] s t)
    ∧ (takesWrite s who pFLT FLT_LOG_WRITE = true → s.com.log.queue.length < 256 → s.flt.holdQueue = false → Runs (.logWrite who value) s fun t =>
      (∃ x, t.com.log.queue = s.com.log.queue ++ [.entry x] ∧ x.kind = 7 ∧ x.cause = fld value 11 0 ∧ x.initiator = who.num
        ∧ x.detail = (rd s pFLT FLT_LOG_D0).toNat + (rd s pFLT FLT_LOG_D1).toNat * 2 ^ 32 ∧ x.fseq = (s.com.log.issued + 1) % 2 ^ 32)
      ∧ RegsKept [] s t)
    ∧ (3 ≤ r.val →
      (takesWrite s who pc (rgOff r.val 0x14) = true → ringDist size (rgHead s v.val r.val) tail ≤ 2 ^ size → Runs (.ringTailWrite who v r value) s fun t =>
        rd t pc (rgOff r.val 0x14) = w32 tail ∧ RegsKept [(pc, rgOff r.val 0x14), (pc, CVN_ACTIVE), (pc, CVN_CTX_STATE)] s t)
      ∧ (takesWrite s who pc (rgOff r.val 0x1C) = true → Runs (.ringCplHeadWrite who v r value) s fun t =>
        rd t pc (rgOff r.val 0x1C) = w32 tail ∧ RegsKept [(pc, rgOff r.val 0x1C), (pc, CVN_ACTIVE), (pc, CVN_CTX_STATE)] s t))
    ∧ (takesWrite s who pc CVN_RETIRE = true → bit value 0 = true → bit (rd s pc rSTATUS) 1 = false → cvnOf s v.val = Caravan.idle → (∀ q, 3 ≤ q → q < 8 → rgOn s v.val q = false) →
      Runs (.caravanRetire who v value) s fun t => bit (rd t pc rSTATUS) 1 = true ∧ bit (rd t pFLT rIRQ_STATUS) 1 = true ∧ cvnOf t v.val = Caravan.idle)

/-! ### Caravans -/

/-- Path posting (R413), admission (R394, R397), start (R395), end (R402) and suspension (R407). -/
def Obligations.CaravanJobLife : Prop :=
  ∀ (s : State) (v : CvnIx) (r : RingIx) (path : Fin 3) (desc : BitVec 512) (tenant : BitVec 16) (handle : Fin 1024) (unit : BitVec 48) (j : CvnJob) (a b elapsed extra : Nat),
    let n := v.val
    let p := pCVN n
    let c := cvnOf s n
    let u := advance s elapsed
    let job : PathJob := ⟨bytesLE 64 desc.toNat, tenant.toNat, handle.val, unit.toNat, false⟩
    let size := rgSize s n r.val
    let first := inF s p (rgOff r.val 0x10) 7 0
    let count := inF s p (rgOff r.val 0x10) 16 8
    let held (d : List Byte) := (c.slots.get? (jCtx d)).filter fun x => x.ring == r.val && x.state == .held
    (∀ m, (pathOrder s path.val).find? (pathFits s path.val) = some m → Runs (.pathJobPost path desc tenant handle unit) s fun t =>
      (cvnOf t m).paths.getD path.val [] = (cvnOf s m).paths.getD path.val [] ++ [job] ∧ t.cvn.turn.get? path.val = some m ∧ t.cvn.waiting = s.cvn.waiting)
    ∧ ((pathOrder s path.val).find? (pathFits s path.val) = none → Runs (.pathJobPost path desc tenant handle unit) s fun t =>
      t.cvn.waiting = s.cvn.waiting ++ [(path.val, job)] ∧ RegsKept [] s t)
    ∧ (cvnServes s n = true → admissible s n r.val = true → admitHeld s p = false →
      (3 ≤ r.val → size ≤ 12 → c.inject = [] → landingSound s = true → rgBase s n r.val = 0x4000000 + b → b + 80 * 2 ^ size ≤ 0x4000000 →
        let d := s.mem.landing.readN (b + 64 * (rgHead s n r.val % 2 ^ size)) 64
        stageOn d 3 = false → validateDesc d r.val first count (jobFrom s n r.val d none).saveBase false (held d) = none →
        Runs (.caravanJobAdmit v r) s fun t =>
          (cvnOf t n).heads.get? r.val = some (jobFrom s n r.val d none) ∧ rgHead t n r.val = (rgHead s n r.val + 1) % 2 ^ (size + 1)
          ∧ (epochsOf t p).newest = (epochsOf s p).newest + 1)
      ∧ (∀ x xs, r.val < 3 → c.paths.getD r.val [] = x :: xs → s.cvn.waiting = [] → stageOn x.desc 3 = false →
        validateDesc x.desc r.val first count (jobFrom s n r.val x.desc (some x)).saveBase false (held x.desc) = none →
        Runs (.caravanJobAdmit v r) s fun t =>
          (cvnOf t n).heads.get? r.val = some (jobFrom s n r.val x.desc (some x)) ∧ (cvnOf t n).paths.getD r.val [] = xs))
    ∧ (cvnServes s n = true → c.running = none → c.suspended = [] → c.inject = [] → caravanHeld u = false → chosen? (candidates c) = some j → landingSound s = true →
      jStages j.desc = 0 → jFirst j.desc = true → jLast j.desc = true → j.owner = none → jInAddr j.desc = 0x4000000 + a → jOutAddr j.desc = 0x4000000 + b → a % 64 = 0 → b % 64 = 0 →
      a + 64 ≤ 0x4000000 → b + 64 ≤ 0x4000000 → 0 < jInLen j.desc → jInLen j.desc ≤ 64 → jInLen j.desc % 8 = 0 → jInLen j.desc ≤ jOutLen j.desc →
      Runs (.caravanJobStart v [] elapsed) s fun t =>
        t.mem.landing.readN b (jInLen j.desc) = s.mem.landing.readN a (jInLen j.desc) ∧ (cvnOf t n).heads = c.heads.del j.ring
        ∧ ∃ res, (cvnOf t n).running = some { j with started := u.com.time, result := some res } ∧ res.status = 0 ∧ res.outBytes = jInLen j.desc)
    ∧ (∀ res, pageUp s p = true → c.running = some j → j.result = some res → cyclesLeft { u with com := { u.com with time := u.com.time - BitVec.ofNat 64 extra } } j = 0 →
      res.status = 0 → res.results = [] → j.path = none → j.hasSlots = false → landingSound s = true → j.base = 0x4000000 + b → b % 64 = 0 → b + 80 * 2 ^ j.size ≤ 0x4000000 →
      Runs (.caravanJobEnd v extra elapsed) s fun t =>
        let k := rgProd s n j.ring
        t.mem.landing.readN (b + 64 * 2 ^ j.size + 16 * (k % 2 ^ j.size)) 16 =
          [0, BitVec.ofNat 8 res.detail] ++ bytesLE 2 j.epoch ++ bytesLE 4 (jTag j.desc) ++ bytesLE 4 res.outBytes ++ bytesLE 2 res.chainUsed
            ++ [BitVec.ofNat 8 (min 255 j.susp), BitVec.ofNat 8 (if k / 2 ^ j.size % 2 = 0 then 1 else 0)]
        ∧ rgProd t n j.ring = (k + 1) % 2 ^ (j.size + 1) ∧ (cvnOf t n).running = none ∧ rd t p CVN_JOBS_DONE = w32 (satAdd 0xFFFFFFFF (rd s p CVN_JOBS_DONE).toNat 1)
        ∧ (jIrq j.desc = true → j.ring < 8 → bit (rd t p rIRQ_STATUS) j.ring = true))
    ∧ (∀ k, pageUp s p = true → c.running = some j → chosen? (candidates c) = some k → inF s p CVN_SUSP_MARGIN 3 0 ≠ 0 → j.prio + inF s p CVN_SUSP_MARGIN 3 0 ≤ k.prio →
      suspendable j = true → cyclesLeft u j ≠ 0 → Runs (.caravanSuspend v elapsed) s fun t =>
        (cvnOf t n).running = none
        ∧ (cvnOf t n).suspended = c.suspended ++ [{ j with susp := min 255 (j.susp + 1), ran := j.ran + (u.com.time - j.started).toNat }]
        ∧ ((cvnOf t n).slots.get? (jCtx j.desc)).map (·.state) = some .suspended
        ∧ rd t p CVN_SUSP_COUNT = w32 (satAdd 0xFFFFFFFF (rd s p CVN_SUSP_COUNT).toNat 1))

/-! ### The match engine and the digest engines -/

/-- The match engine (R457 to R462). -/
def Obligations.MatchEngine : Prop :=
  ∀ (s : State) (who : Initiator) (w : Fin 16) (key : BitVec 160) (elapsed : Nat),
    let n := w.val
    let base := partBase s n
    let idx := rdF s pMTE (winOff n MTE_W_INDEX) 15 0
    let e := matchEntry s (base + idx)
    let counts (t : State) (r : Nat) : Prop := rd t pMTE r = w32 (satAdd 0xFFFFFFFF (rd s pMTE r).toNat 1)
    (pageUp s pMTE = true → s.mte.bad = [] → Runs (.matchLookup w key) s fun t =>
      counts t MTE_LOOKUPS ∧ t.mte.entries = s.mte.entries
      ∧ (winner (matching s n key) = none → t.mte.last = some (false, false, 0, 0, 0))
      ∧ ∀ i x multi, winner (matching s n key) = some (i, x, multi) → t.mte.last = some (true, multi, i - base, x.prio, x.result) ∧ counts t MTE_HITS)
    ∧ (takesWrite s who pMTE (winOff n MTE_W_OP) = true → mteAllowed s who n = true → ferryRunning s = false → partOn s n = true →
      (∀ i x multi, s.mte.bad = [] → winner (matching s n (winKey s n MTE_VALUE0)) = some (i, x, multi) → Runs (.mteLookup who w) s fun t =>
        bit (rd t pMTE (winOff n MTE_WSTATUS)) 8 = true ∧ bit (rd t pMTE (winOff n MTE_WSTATUS)) 9 = multi ∧ rd t pMTE (winOff n MTE_W_RESULT) = x.result
        ∧ rd t pMTE (winOff n MTE_W_PRIO) = w32 x.prio ∧ rd t pMTE (winOff n MTE_W_INDEX) = w32 (i - base) ∧ t.mte.entries = s.mte.entries)
      ∧ (idx < partSize s n →
        (Runs (.mteRead who w) s fun t =>
          winKey t n MTE_VALUE0 = e.value ∧ winKey t n MTE_MASK0 = e.mask ∧ rd t pMTE (winOff n MTE_W_PRIO) = w32 e.prio
          ∧ rd t pMTE (winOff n MTE_W_RESULT) = e.result ∧ bit (rd t pMTE (winOff n MTE_WSTATUS)) 10 = e.valid ∧ t.mte = s.mte)
        ∧ (Runs (.mteUpdate who w) s fun t =>
          matchEntry t (base + idx) = winEntry s n ∧ (∀ i, i ≠ base + idx → matchEntry t i = matchEntry s i) ∧ counts t MTE_UPDATES)
        ∧ (Runs (.mteInvalidate who w) s fun t =>
          matchEntry t (base + idx) = { e with valid := false } ∧ (∀ i, i ≠ base + idx → matchEntry t i = matchEntry s i) ∧ counts t MTE_UPDATES)
        ∧ (∀ h, holeFrom s n idx = some h → Runs (.mteInsert who w) s fun t =>
          matchEntry t (base + idx) = winEntry s n ∧ (∀ i, idx < i → i ≤ h → matchEntry t (base + i) = matchEntry s (base + i - 1))
          ∧ ∀ i, i < base + idx ∨ base + h < i → matchEntry t i = matchEntry s i)))
    ∧ (∀ i b, pageUp s pMTE = true → inF s pMTE MTE_SWEEP 15 0 ≠ 0 → s.mte.bad = [(i, b)] → b.row = true → Runs (.mteSweep elapsed) s fun t =>
      t.mte.bad = [] ∧ (∀ j, j ≠ i → matchEntry t j = matchEntry s j)
      ∧ (b.shadow = false → matchEntry t i = matchEntry s i ∧ counts t MTE_REPAIRS ∧ bit (rd t pMTE rIRQ_STATUS) 0 = true)
      ∧ (b.shadow = true → matchEntry t i = { matchEntry s i with valid := false } ∧ bit (rd t pMTE rIRQ_STATUS) 1 = true))

/-- Digest jobs (R485 to R488) and the snoop digest (R534). -/
def Obligations.DigestJobs : Prop :=
  ∀ (s : State) (who : Initiator) (d : DgeIx) (value : Word) (j : DigestJob) (o : Nat),
    let n := d.val
    let p := pDGE n
    let cfg := rd s p DGE_JOB_CFG
    let alg := fld cfg 7 0
    let len := (join64 (rd s p DGE_LEN_HI) (rd s p DGE_LEN_LO)).toNat
    let jobOf (t : State) := (dgeOf t n).job
    let plain (a : Nat) : Prop := digestBlock a ≠ 0 ∧ isHmac a = false
    let words (t : State) (q at_ : Nat) (r : List Byte) : Prop := ∀ i, i < 16 → rd t q (at_ + 4 * i) = w32 (ofBytesLE (((fit 64 r).drop (4 * i)).take 4))
    let finished (t : State) (r : List Byte) : Prop :=
      words t p DGE_RESULT0 r ∧ jobOf t = none ∧ dgeState t n = 3 ∧ bit (rd t p rIRQ_STATUS) 0 = true ∧ rd t p DGE_JOBS = w32 (satAdd 0xFFFFFFFF (rd s p DGE_JOBS).toNat 1)
    (takesWrite s who p DGE_CMD = true →
      (dgeState s n ≠ 1 → dgeState s n ≠ 2 → bit (rd s p rSTATUS) 1 = false → plain alg → fld cfg 9 8 = 0 ∨ fld cfg 9 8 = 2 →
        rdF s p DGE_LAST_VALID 3 0 ≤ 8 → rdF s p DGE_XOF_LEN 6 0 ≤ 64 → Runs (.dgeStart who d) s fun t =>
          dgeState t n = 1 ∧ ∃ x, jobOf t = some x ∧ x.alg = alg ∧ x.feed = fld cfg 9 8 ∧ x.h = fit 200 (Config.digestInit alg) ∧ x.count = 0 ∧ x.carry = [] ∧ x.left = len ∧ x.src = dgeSrc s n)
      ∧ (jobOf s = some j → dgeState s n = 1 →
        (j.feed = 2 → plain j.alg → j.alg ≠ 7 → j.alg ≠ 8 → j.carry.length < digestBlock j.alg → rdF s p DGE_LAST_VALID 3 0 = 0 → Runs (.dgeFinish who d) s fun t =>
          finished t (fit (digestLen j.alg) (Config.digestFinish j.alg j.h j.count j.carry (digestLen j.alg))))
        ∧ (Runs (.dgePause who d) s fun t => (dgeOf t n).window = windowOf j ∧ jobOf t = some j ∧ dgeState t n = 2 ∧ bit (rd t p rIRQ_STATUS) 1 = true))
      ∧ (jobOf s = some j → dgeState s n = 2 → (dgeOf s n).window = windowOf j → plain j.alg → alg = j.alg → j.h.length = 200 → j.count < 2 ^ 128 → j.count % digestBlock j.alg = 0 →
        Runs (.dgeResume who d) s fun t =>
          dgeState t n = 1 ∧ ∃ x, jobOf t = some x ∧ x.alg = j.alg ∧ x.h = j.h ∧ x.count = j.count ∧ x.carry = j.carry ∧ x.nextOff = j.nextOff ∧ x.left = len)
      ∧ (Runs (.dgeAbort who d) s fun t => jobOf t = none ∧ dgeState t n = 0 ∧ rdF t p DGE_DSTATUS 7 0 = 0))
    ∧ (takesWrite s who p DGE_DATA_HI = true → jobOf s = some j → dgeState s n = 1 → j.feed = 2 → plain j.alg → Runs (.dgeDataHiWrite who d value) s fun t =>
      let bytes := bytesLE 4 (rd s p DGE_DATA_LO).toNat ++ bytesLE 4 value.toNat
      let a := absorbBlocks j.alg (j.carry.length + 8) j.h j.count (j.carry ++ bytes)
      jobOf t = some { j with h := a.1, count := a.2.1, carry := a.2.2, message := [], nextOff := j.nextOff + 8 })
    ∧ (pageUp s p = true → jobOf s = some j → dgeState s n = 1 → j.feed = 0 → plain j.alg → j.alg ≠ 7 → j.alg ≠ 8 → j.h = fit 200 (Config.digestInit j.alg) → j.count = 0 → j.carry = [] →
      rdF s p DGE_LAST_VALID 3 0 = 0 → landingSound s = true → j.src = 0x4000000 + o → o % 64 = 0 → o + 64 ≤ 0x4000000 → j.left ≤ 64 →
      Runs (.dgeDmaDone d []) s fun t => finished t (digestOf j.alg (s.mem.landing.readN o j.left) (digestLen j.alg)))
    ∧ (takesWrite s who pSCP SCP_SN_CMD = true →
      (rdF s pSCP SCP_SN_STATUS 18 16 ≠ 1 → plain (rdF s pSCP SCP_SN_CFG 7 0) → rdF s pSCP SCP_SN_CFG 11 8 ≠ 0 → rdF s pSCP SCP_SN_CFG 11 8 ≤ 4 → Runs (.snStart who) s fun t =>
        rdF t pSCP SCP_SN_STATUS 18 16 = 1 ∧ ∃ x, t.key.sn.job = some x ∧ x.alg = rdF s pSCP SCP_SN_CFG 7 0 ∧ x.snoop = rdF s pSCP SCP_SN_CFG 11 8
          ∧ x.h = fit 200 (Config.digestInit x.alg) ∧ x.count = 0 ∧ x.carry = [])
      ∧ (s.key.sn.job = some j → Runs (.snFinish who) s fun t =>
        words t pSCP SCP_SN_RESULT0 (fit (digestLen j.alg) (Config.digestFinish j.alg j.h j.count j.carry (digestLen j.alg)))
        ∧ t.key.sn.job = none ∧ rdF t pSCP SCP_SN_STATUS 18 16 = 3 ∧ bit (rd t pSCP rIRQ_STATUS) 4 = true)
      ∧ (Runs (.snAbort who) s fun t => t.key.sn.job = none ∧ rd t pSCP SCP_SN_STATUS = 0))

/-! ### The key store and the random generator -/

/-- KOP (R470), residency (R467, R469), and the generator's state (R480, R481). -/
def Obligations.KeyStore : Prop :=
  ∀ (s : State) (who : Initiator) (slot : BitVec 16) (elapsed : Nat),
    let k := rdF s pKEY KEY_KSEL 15 0
    let x := slotOf s k
    let w := windowSlot s
    let word (i : Nat) : Word := w32 (ofBytesLE (((recordOf x).drop (4 * i)).take 4))
    let fits : Prop := recordFits k (rdF s pKEY KEY_KATTR0 1 0) w = true ∧ x.state ≠ .valid
    let leaves (i : Instr) (y : KeySlot) : Prop := Runs i s fun t =>
      slotOf t k = y ∧ (∀ m, m ≠ k → slotOf t m = slotOf s m) ∧ rd t pKEY KEY_KSTATUS = w32 256 ∧ (y.state = .rotate → x.state = .valid → bit (rd t pKEY rIRQ_STATUS) 0 = true)
    let status (t : State) (i : Nat) : Bool := bit (rd t pKEY KEY_RNG_STATUS) i
    (takesWrite s who pKEY KEY_KOP = true → isResident s k = true → ferryRunning s = false →
      (Runs (.kopRead who) s fun t =>
        (∀ i, i < 4 → rd t pKEY (KEY_KATTR0 + 4 * i) = word i) ∧ rd t pKEY KEY_KCTR_LO = word 4 ∧ rd t pKEY KEY_KCTR_HI = word 5 ∧ t.key.slots = s.key.slots)
      ∧ (reservedSlot k = false ∨ who.isSp = true →
        (fits → xtsHalvesEqual w = false →
          leaves (.kopLoad who) { w with key := w.key.take w.klen, gen := nextGen x, pin := x.pin, dirty := true }
          ∧ Runs (.kopLoad who) s fun t => ∀ i, i < 16 → rd t pKEY (KEY_KDATA0 + 4 * i) = 0)
        ∧ (fits → drbgSeeded s = true → ∃ kb fb, kb.length = w.klen ∧ leaves (.kopGenerate who) { w with key := kb, fixed := fb, gen := nextGen x, pin := x.pin, dirty := true })
        ∧ leaves (.kopClear who) { x with state := .empty, key := [], locked := false, pin := false, gen := nextGen x, dirty := true }
        ∧ (x.state ≠ .empty →
          (pinnedCount s < 3840 → leaves (.kopPin who) { x with pin := true, dirty := true })
          ∧ leaves (.kopUnpin who) { x with pin := false, dirty := true }
          ∧ leaves (.kopLock who) { x with locked := true, dirty := true }
          ∧ leaves (.kopUnlock who) { x with locked := false, dirty := true })
        ∧ (x.state = .valid → leaves (.kopRotate who) { x with state := .rotate, dirty := true })))
    ∧ (pageUp s pKEY = true →
      (isResident s slot.toNat = false → wrapBase s ≠ 0 → s.key.resident.length < 4080 → s.key.failUnwrap = false → (slotOf s slot.toNat).broken = false →
        (dramRead (bump s pKEY KEY_UNWRAPS 1) (wrapOff s slot.toNat) 96).2.isSome = true →
        (Runs (.keyUnwrap slot true) s fun t =>
          t.key.resident = s.key.resident ++ [slot.toNat] ∧ t.key.slots = s.key.slots ∧ rd t pKEY KEY_UNWRAPS = w32 (satAdd 0xFFFFFFFF (rd s pKEY KEY_UNWRAPS).toNat 1))
        ∧ (Runs (.keyUnwrap slot false) s fun t => (slotOf t slot.toNat).broken = true ∧ bit (rd t pKEY rIRQ_STATUS) 2 = true ∧ t.key.resident = s.key.resident))
      ∧ (wrapBase s ≠ 0 → Runs .keyStoreSuspend s fun t =>
        t.key.keep = some s.key.resident ∧ ∀ m, isResident s m = true → (slotOf s m).state ≠ .empty → slotOf t m = { slotOf s m with dirty := false })
      ∧ (∀ res, s.key.keep = some res → Runs .keyStoreRestore s fun t =>
        t.key.resident = res.filter (fun m => (slotOf s m).pin) ∧ t.key.keep = none ∧ t.key.slots = s.key.slots)
      ∧ (s.key.keep = none → Runs .keyStoreRestore s fun t => t.key.slots = [] ∧ t.key.resident = [])
      ∧ (Runs .entropyHealthFail s fun t =>
        status t 0 = false ∧ bit (rd t pKEY rIRQ_STATUS) 3 = true ∧ rdF t pKEY KEY_RNG_STATUS 31 16 = satAdd 0xFFFF (rdF s pKEY KEY_RNG_STATUS 31 16) 1)
      ∧ (status s 0 = true → Runs (.drbgReseed elapsed) s fun t => status t 1 = true ∧ status t 2 = false ∧ t.key.requests = 0)
      ∧ (status s 0 = false → Runs (.drbgReseed elapsed) s fun t => status t 1 = false ∧ status t 2 = true ∧ bit (rd t pKEY rIRQ_STATUS) 4 = true)
      ∧ (Runs .entropyRecovery s fun t => status t 0 = true ∧ status t 1 = true ∧ status t 2 = false))

/-! ### Nelius instructions -/

/-- The nineteen ALU functions (R351) and the eleven immediate forms (R350): rd takes the result, PC moves on, and nothing else changes. A register shift uses rs2 [4:0]; division by 0 gives all ones, a remainder by 0 the dividend; ADDI, SLTI and SLTIU extend by sign, the logic forms by zeros. -/
def Obligations.AluResults : Prop :=
  ∀ (s : State) (c : Clu) (k : CoreIx) (rd rs1 rs2 : RegIx) (imm : BitVec 16) (amount : BitVec 5), s.memWf = true → canIssue s c k = true →
    let n := coreNo c k
    let x := coreOf s n
    let a := x.reg rs1
    let b := x.reg rs2
    let gives (v : Word) := Host.Outcome.next (φ := Fault) (ρ := Refusal) (coreTakes s n (x.setReg rd v).advance)
    exec (.add c k rd rs1 rs2 0) s = gives (a + b) ∧ exec (.sub c k rd rs1 rs2 0) s = gives (a - b)
    ∧ exec (.and c k rd rs1 rs2 0) s = gives (a &&& b) ∧ exec (.or c k rd rs1 rs2 0) s = gives (a ||| b)
    ∧ exec (.xor c k rd rs1 rs2 0) s = gives (a ^^^ b) ∧ exec (.nor c k rd rs1 rs2 0) s = gives (~~~(a ||| b))
    ∧ exec (.sll c k rd rs1 rs2 0) s = gives (a <<< (b.toNat % 32)) ∧ exec (.srl c k rd rs1 rs2 0) s = gives (a >>> (b.toNat % 32))
    ∧ exec (.sra c k rd rs1 rs2 0) s = gives (a.sshiftRight (b.toNat % 32)) ∧ exec (.rotr c k rd rs1 rs2 0) s = gives (a.rotateRight (b.toNat % 32))
    ∧ exec (.slt c k rd rs1 rs2 0) s = gives (if a.toInt < b.toInt then 1 else 0)
    ∧ exec (.sltu c k rd rs1 rs2 0) s = gives (if a.toNat < b.toNat then 1 else 0)
    ∧ exec (.mul c k rd rs1 rs2 0) s = gives (a * b)
    ∧ exec (.mulh c k rd rs1 rs2 0) s = gives (BitVec.ofInt 32 (a.toInt * b.toInt / 2 ^ 32))
    ∧ exec (.mulhu c k rd rs1 rs2 0) s = gives (BitVec.ofNat 32 (a.toNat * b.toNat / 2 ^ 32))
    ∧ exec (.div c k rd rs1 rs2 0) s = gives (if b = 0 then 0xFFFFFFFF else BitVec.ofInt 32 (a.toInt.tdiv b.toInt))
    ∧ exec (.divu c k rd rs1 rs2 0) s = gives (if b = 0 then 0xFFFFFFFF else BitVec.ofNat 32 (a.toNat / b.toNat))
    ∧ exec (.rem c k rd rs1 rs2 0) s = gives (if b = 0 then a else BitVec.ofInt 32 (a.toInt.tmod b.toInt))
    ∧ exec (.remu c k rd rs1 rs2 0) s = gives (if b = 0 then a else BitVec.ofNat 32 (a.toNat % b.toNat))
    ∧ exec (.addi c k rd rs1 imm) s = gives (a + imm.signExtend 32) ∧ exec (.andi c k rd rs1 imm) s = gives (a &&& imm.setWidth 32)
    ∧ exec (.ori c k rd rs1 imm) s = gives (a ||| imm.setWidth 32) ∧ exec (.xori c k rd rs1 imm) s = gives (a ^^^ imm.setWidth 32)
    ∧ exec (.slti c k rd rs1 imm) s = gives (if a.toInt < imm.toInt then 1 else 0)
    ∧ exec (.sltiu c k rd rs1 imm) s = gives (if a.toNat < (imm.signExtend 32).toNat then 1 else 0)
    ∧ exec (.lui c k rd 0 imm) s = gives (imm.setWidth 32 <<< 16)
    ∧ exec (.slli c k rd rs1 0 amount) s = gives (a <<< amount.toNat) ∧ exec (.srli c k rd rs1 0 amount) s = gives (a >>> amount.toNat)
    ∧ exec (.srai c k rd rs1 0 amount) s = gives (a.sshiftRight amount.toNat) ∧ exec (.rotri c k rd rs1 0 amount) s = gives (a.rotateRight amount.toNat)

/-- Loads of a sound D-TCM word: the value, the extension, the base update and PC; nothing else changes. -/
def Obligations.LoadsFromTcm : Prop :=
  ∀ (s : State) (c : Clu) (k : CoreIx) (rd rs1 : RegIx) (imm : BitVec 16) (host : Word) (off : Nat), s.memWf = true → canIssue s c k = true →
    let n := coreNo c k
    let x := coreOf s n
    let bytes (w : Nat) : Word := w32 (x.dtcm.readNat off w)
    let gives (y : Core) (v : Word) := Host.Outcome.next (φ := Fault) (ρ := Refusal) (coreTakes s n (y.setReg rd v).advance)
    let bumped := x.setReg rs1 (x.reg rs1 + imm.signExtend 32)
    let fits (a : Word) (w : Nat) := a.toNat % w = 0 ∧ reach x a w false = .dtcm off
    let a := x.reg rs1 + imm.signExtend 32
    let p := x.reg rs1
    x.dtcmErr.get? (off / 4) = none →
    (fits a 1 → exec (.lb c k rd rs1 imm host) s = gives x ((x.dtcm.read off).signExtend 32)
      ∧ exec (.lbu c k rd rs1 imm host) s = gives x ((x.dtcm.read off).setWidth 32))
    ∧ (fits a 2 → exec (.lh c k rd rs1 imm host) s = gives x (((bytes 2).setWidth 16).signExtend 32) ∧ exec (.lhu c k rd rs1 imm host) s = gives x (bytes 2))
    ∧ (fits a 4 → exec (.lw c k rd rs1 imm host) s = gives x (bytes 4))
    ∧ (rd ≠ rs1 →
      (fits p 1 → exec (.lbP c k rd rs1 imm host) s = gives bumped ((x.dtcm.read off).signExtend 32)
        ∧ exec (.lbuP c k rd rs1 imm host) s = gives bumped ((x.dtcm.read off).setWidth 32))
      ∧ (fits p 2 → exec (.lhP c k rd rs1 imm host) s = gives bumped (((bytes 2).setWidth 16).signExtend 32) ∧ exec (.lhuP c k rd rs1 imm host) s = gives bumped (bytes 2))
      ∧ (fits p 4 → exec (.lwP c k rd rs1 imm host) s = gives bumped (bytes 4)))

/-- Stores to D-TCM: the bytes stored at the address that the instruction computes, and every other byte of memory and every other register as before. -/
def Obligations.StoresToTcm : Prop :=
  ∀ (s : State) (c : Clu) (k : CoreIx) (rt rs1 : RegIx) (imm : BitVec 16) (off : Nat), s.memWf = true → canIssue s c k = true →
    let n := coreNo c k
    let x := coreOf s n
    let stores (i : Instr) (y : Core) (w : Nat) := Runs i s fun t =>
      (coreOf t n).dtcm.readN off w = bytesLE w (x.reg rt).toNat
      ∧ (∀ a, a < off ∨ off + w ≤ a → (coreOf t n).dtcm.read a = x.dtcm.read a)
      ∧ coreOf t n = { y with pc := x.pc + 4, dtcm := (coreOf t n).dtcm, dtcmErr := (coreOf t n).dtcmErr }
      ∧ (∀ m, m ≠ n → coreOf t m = coreOf s m) ∧ t.nel.clusters = s.nel.clusters ∧ t.mem = s.mem ∧ RegsKept [(pNCL c.val, NCL_CORE_STATE)] s t
    let bumped := x.setReg rs1 (x.reg rs1 + imm.signExtend 32)
    let fits (a : Word) (w : Nat) := a.toNat % w = 0 ∧ reach x a w true = .dtcm off
    let a := x.reg rs1 + imm.signExtend 32
    let p := x.reg rs1
    (fits a 1 → stores (.sb c k rt rs1 imm) x 1) ∧ (fits a 2 → stores (.sh c k rt rs1 imm) x 2) ∧ (fits a 4 → stores (.sw c k rt rs1 imm) x 4)
    ∧ (fits p 1 → stores (.sbP c k rt rs1 imm) bumped 1) ∧ (fits p 2 → stores (.shP c k rt rs1 imm) bumped 2) ∧ (fits p 4 → stores (.swP c k rt rs1 imm) bumped 4)

/-- The fourteen branches: taken exactly when the comparison holds, to the address of the branch plus 4 times the offset. -/
def Obligations.ConditionalBranches : Prop :=
  ∀ (s : State) (c : Clu) (k : CoreIx) (rs1 rs2 : RegIx) (imm bitNo : BitVec 5) (off : BitVec 16), s.memWf = true → canIssue s c k = true →
    let n := coreNo c k
    let x := coreOf s n
    let a := x.reg rs1
    let b := x.reg rs2
    let dest := x.pc + off.signExtend 32 * 4
    dest.toNat < 0x10000 →
    let goes (taken : Bool) := Host.Outcome.next (φ := Fault) (ρ := Refusal) (coreTakes s n { x with pc := if taken then dest else x.pc + 4 })
    exec (.cbEq c k rs1 rs2 off) s = goes (decide (a = b)) ∧ exec (.cbNe c k rs1 rs2 off) s = goes (decide (a ≠ b))
    ∧ exec (.cbLt c k rs1 rs2 off) s = goes (decide (a.toInt < b.toInt)) ∧ exec (.cbGe c k rs1 rs2 off) s = goes (decide (b.toInt ≤ a.toInt))
    ∧ exec (.cbLtu c k rs1 rs2 off) s = goes (decide (a.toNat < b.toNat)) ∧ exec (.cbGeu c k rs1 rs2 off) s = goes (decide (b.toNat ≤ a.toNat))
    ∧ exec (.bts c k rs1 bitNo off) s = goes (a.getLsbD bitNo.toNat) ∧ exec (.btc c k rs1 bitNo off) s = goes (!a.getLsbD bitNo.toNat)
    ∧ exec (.cbiEq c k rs1 imm off) s = goes (decide (a.toInt = imm.toInt)) ∧ exec (.cbiNe c k rs1 imm off) s = goes (decide (a.toInt ≠ imm.toInt))
    ∧ exec (.cbiLt c k rs1 imm off) s = goes (decide (a.toInt < imm.toInt)) ∧ exec (.cbiGe c k rs1 imm off) s = goes (decide (imm.toInt ≤ a.toInt))
    ∧ exec (.cbiLtu c k rs1 imm off) s = goes (decide (a.toNat < imm.toNat)) ∧ exec (.cbiGeu c k rs1 imm off) s = goes (decide (imm.toNat ≤ a.toNat))

/-- The SYS functions that move control and special registers. -/
def Obligations.JumpsAndSpecialMoves : Prop :=
  (∀ (s : State) (c : Clu) (k : CoreIx) (rd rs1 : RegIx) (off : BitVec 26), s.memWf = true → canIssue s c k = true →
      let n := coreNo c k
      let x := coreOf s n
      let gives (y : Core) := Host.Outcome.next (φ := Fault) (ρ := Refusal) (coreTakes s n y)
      let inTcm (a : Word) := a.toNat < 0x10000 ∧ a.toNat % 4 = 0
      let near := x.pc + off.signExtend 32 * 4
      let linked := { x with lk := x.pc + 4 }
      (inTcm near → exec (.j c k off) s = gives { x with pc := near } ∧ exec (.call c k off) s = gives { linked with pc := near })
      ∧ (inTcm x.lk → exec (.ret c k 0) s = gives { x with pc := x.lk })
      ∧ (inTcm (x.reg rs1) → exec (.jr c k rs1 0) s = gives { x with pc := x.reg rs1 } ∧ exec (.callr c k rs1 0) s = gives { linked with pc := x.reg rs1 })
      ∧ (¬ inTcm (x.reg rs1) → x.handler = false → Runs (.jr c k rs1 0) s fun t => TrapTaken s t c k 2 0 (some (x.reg rs1)) (x.reg rs1))
      ∧ (x.psg = false → inTcm x.trapRet → exec (.tret c k 0) s = gives { x with runmode := x.trapMode, pc := x.trapRet })
      ∧ exec (.fence c k 0) s = gives x.advance
      ∧ exec (.mfs c k rd 0x06 0) s = gives (x.setReg rd x.lk).advance
      ∧ exec (.mfs c k rd 0x08 0) s = gives (x.setReg rd 0x80000000).advance
      ∧ exec (.mfs c k rd 0x1E 0) s = gives (x.setReg rd (w32 (16 * c.val + k.val))).advance
      ∧ (x.psg = false → exec (.mfs c k rd 0x03 0) s = gives (x.setReg rd x.trapInfo).advance)
      ∧ exec (.mts c k 0x06 rs1 0) s = gives { x.advance with lk := x.reg rs1 }
      ∧ (x.psg = false → exec (.mts c k 0x07 rs1 0) s = gives { x.advance with scratch := x.reg rs1 }
        ∧ exec (.mts c k 0x01 rs1 0) s = gives { x.advance with trapRet := x.reg rs1 }
        ∧ exec (.mts c k 0x05 rs1 0) s = gives { x.advance with trapBase := x.reg rs1 &&& 0xFC00 }))
  ∧ (∀ (s : State) (c : Clu) (k : CoreIx) (i : Nat), canIssue s c k = true →
      let n := coreNo c k
      s.dis.running.get? n.val = some i → 0x200 < i →
      let x := itemOf s i
      Runs (.endw c k 0) s fun t =>
        (coreOf t n).mode = .idle ∧ t.dis.running.get? n.val = none
        ∧ (x.endAction = 1 → itemOf t i = { x with state := .done, arg0 := (coreOf s n).reg 4 })
        ∧ (x.endAction = 0 → itemOf t i = { x with state := .free }))

/-- A trap in one step (R357): TRAP_RET, TRAP_MODE, RUNMODE, TRAP_INFO, TRAP_ADDR for an alignment fault, and the jump; the instruction that traps has no effect. -/
def Obligations.TrapsInOneStep : Prop :=
  ∀ (s : State) (c : Clu) (k : CoreIx) (rd rs1 rs2 : RegIx) (code resv : BitVec 5) (imm : BitVec 16) (host : Word), s.memWf = true → canIssue s c k = true →
    let x := coreOf s (coreNo c k)
    x.handler = false →
    (Runs (.trap c k code 0) s fun t => TrapTaken s t c k 8 code.toNat none (x.pc + 4))
    ∧ (resv ≠ 0 → Runs (.add c k rd rs1 rs2 resv) s fun t => TrapTaken s t c k 3 0 none x.pc)
    ∧ (x.psg = true → Runs (.tret c k 0) s fun t => TrapTaken s t c k 4 0 none x.pc)
    ∧ (x.psg = true → Runs (.mts c k 0x07 rs1 0) s fun t => TrapTaken s t c k 4 0 none x.pc)
    ∧ ((x.reg rs1 + imm.signExtend 32).toNat % 4 ≠ 0 →
      Runs (.lw c k rd rs1 imm host) s fun t => TrapTaken s t c k 5 0 (some (x.reg rs1 + imm.signExtend 32)) x.pc)

/-- The five atomics (R353): the word's new value, rd's old value, and no other byte of the store. -/
def Obligations.AtomicsOnClusterStore : Prop :=
  ∀ (s : State) (c : Clu) (k : CoreIx) (rd rs1 rs2 : RegIx) (off : Nat), s.memWf = true → canIssue s c k = true →
    let n := coreNo c k
    let x := coreOf s n
    let m := cluOf s c
    let a := x.reg rs1
    a.toNat % 4 = 0 → reach x a 4 true = .store off → m.storeErr = [] → m.storeMerge = [] → storeGathers s c = false →
    let old := w32 (m.store.readNat off 4)
    let leaves (i : Instr) (v : Word) := Runs i s fun t =>
      (cluOf t c).store.readN off 4 = bytesLE 4 v.toNat ∧ coreOf t n = (x.setReg rd old).advance
      ∧ (∀ b, b < off ∨ off + 4 ≤ b → (cluOf t c).store.read b = m.store.read b)
    leaves (.swap c k rd rs1 rs2 0) (x.reg rs2) ∧ leaves (.aadd c k rd rs1 rs2 0) (old + x.reg rs2) ∧ leaves (.aand c k rd rs1 rs2 0) (old &&& x.reg rs2)
    ∧ leaves (.aor c k rd rs1 rs2 0) (old ||| x.reg rs2) ∧ leaves (.cas c k rd rs1 rs2 0) (if old = x.reg rd then x.reg rs2 else old)

/-- MCX: the sequence that the decode entry names runs with u0 to u7 zeroed, and END writes rd (R362, R363). -/
def Obligations.CustomInstructionRuns : Prop :=
  ∀ (s : State) (c : Clu) (k : CoreIx) (rd rs1 rs2 : RegIx) (imm : BitVec 7) (slot : BitVec 4) (host : List Word), s.memWf = true → canIssue s c k = true →
    let n := coreNo c k
    let x := coreOf s n
    let e := (cluOf s c).table[slot.toNat]
    let start := fld e 11 0
    let sum := x.reg rs1 + x.reg rs2
    (bit e 31 = true → bit e 29 = true → (x.psg = true → bit e 30 = true) → fld e 27 20 = 1 →
      (cluOf s c).ucode.getD start 0 = 0x08120000 → (cluOf s c).ucode.getD (start + 1) 0 = 0xF0800000 →
      exec (.mcx c k rd rs1 rs2 imm slot host) s
        = .next (coreTakes s n { (x.setReg rd sum).advance with u := (Vector.replicate 8 0).set 0 sum }))
    ∧ (bit e 31 = false → x.handler = false → Runs (.mcx c k rd rs1 rs2 imm slot host) s fun t => TrapTaken s t c k 3 0 none x.pc)

/-! ### Ports, queues and the life of a host command -/

/-- Ports (R106 to R110, R600), doorbells and fetch (R116), completion (R27), controllers (R113, R286) and queues (R120). -/
def Obligations.HostLinksAndQueues : Prop :=
  ∀ (s : State) (p : Port) (rate : Fin 7) (width : Fin 17) (elapsed : Nat) (ctl : CtlId) (q value : BitVec 16) (sqe : BitVec 512) (dataLen id : Nat) (ams : Fin 2) (asq acq : BitVec 13) (n : Fin 64) (cmd : HostCmd),
    let pg := pHF p
    let l := linkOf s p
    let r := min rate.val (inF s pg HF_LINK_CTRL 3 0)
    let w := min width.val (portLanes s)
    let x := ctlOf s ctl.val
    let count (t : State) : Prop := rdF t pg rLB_COUNT 15 0 = satAdd 0xFFFF (rdF s pg rLB_COUNT 15 0) 1
    (portHere s p = true → bit (rd s pg rSTATUS) 1 = false → 4 ≤ r → r ≤ 6 → 0 < w → Runs (.linkUp p rate width) s fun t =>
      linkOf t p = ⟨true, r, w, r, none⟩ ∧ rdF t pg HF_LINK_STATUS 3 0 = r ∧ bit (rd t pg rIRQ_STATUS) 1 = true)
    ∧ (portHere s p = true → l.up = true → Runs (.linkDown p) s fun t =>
      linkOf t p = { l with up := false, rate := 0, width := 0, downSince := some s.com.time } ∧ rd t pg HF_LINK_STATUS = 0 ∧ bit (rd t pg rIRQ_STATUS) 0 = true
      ∧ (s.com.chip.split = false → t.hst.cmds = s.hst.cmds))
    ∧ (∀ since, s.com.chip.split = true → bit (rd s pg rSTATUS) 1 = false → l.up = false → l.downSince = some since → 1000000000 ≤ ((advance s elapsed).com.time - since).toNat →
      Runs (.linkDownExpiry p elapsed) s fun t => bit (rd t pg rSTATUS) 1 = true ∧ bit (rd t pFLT rIRQ_STATUS) 1 = true)
    ∧ (lbQuiet s pg = true → (Runs (.completionTimeout p) s fun t => count t ∧ bit (rd t pg rIRQ_STATUS) 3 = true)
      ∧ (Runs (.linkError p .replayTimeout) s count) ∧ (Runs (.linkError p .receiverError) s count))
    ∧ (partitionMode s = false → Runs (.linkError p (.ideFailure n)) s fun t =>
      rdF t pg HF_IDE_STATUS 23 8 = satAdd 0xFFFF (rdF s pg HF_IDE_STATUS 23 8) 1 ∧ bit (rd t pg rIRQ_STATUS) 4 = true)
    ∧ (ctlExists s ctl.val = true → x.enabled = true → s.hst.nqeInject.contains 2 = false →
      (∀ y, x.sqs.get? q.toNat = some y → value.toNat < y.size → Runs (.sqDoorbellWrite ctl q value) s fun t =>
        ctlOf t ctl.val = { x with sqs := x.sqs.put q.toNat { y with tail := value.toNat } })
      ∧ (∀ y, x.cqs.get? q.toNat = some y → value.toNat < y.size → Runs (.cqDoorbellWrite ctl q value) s fun t =>
        ctlOf t ctl.val = { x with cqs := x.cqs.put q.toNat { y with head := value.toNat } }))
    ∧ (∀ c left k y sq, s.flt.fetchStopped = false → s.hst.nqeInject.contains 1 = false → pickCtl s = some (c, left) → pickQueue (inF s pNQE NQE_FETCH_BURST 6 0) (ctlOf s c) = some (k, y) →
      y.sqs.get? k = some sq → (∀ z ∈ s.hst.cmds, z.id ≠ s.hst.nextId) →
      let d := bytesLE 64 sqe.toNat
      let fetched : Prop := Runs (.commandFetch sqe dataLen false) s fun t =>
        t.hst.cmds = s.hst.cmds ++ [⟨s.hst.nextId, c, k, sqeCid d, d, dataLen, none, 0, .fetched, [], [], 0⟩]
        ∧ (ctlOf t c).sqs.get? k = some { sq with head := (sq.head + 1) % sq.size } ∧ rd t pNQE NQE_CMD_COUNT = w32 (satAdd 0xFFFFFFFF (rd s pNQE NQE_CMD_COUNT).toNat 1)
      ((k = 0 → adminOpcodes.contains (sqeOp d) = true → (isPf c = true ∨ pfOnly.contains (sqeOp d) = false) → (vendorActions (sqeOp d)).contains (cdwF d 10 7 0) = true →
        (wantedBytes s 0 d).any (· != dataLen) = false → fetched)
      ∧ (∀ ns, k ≠ 0 → nsAt? s (sqeNsid d) = some ns → ns.kind = .nvm → ns.span = 0 → ns.attached.contains c = true → sqeOp d = 0x02 → partOfClass? s 2 = none → sqeTag d = none →
        (slotOf s (sqeNsid d - 1)).locked = false → dataLen = sqeBlocks d * (ns.lba + ns.meta_) → fetched)))
    ∧ (cmdOf? s id = some cmd →
      (cmd.state = .held → roomNow s (cmd.units.headD 0) = true → Runs (.wbHoldRelease id) s fun t =>
        cmdOf? t id = some { cmd with state := .fetched, room := cmd.units.headD 0, units := [] } ∧ t.map.reserved = s.map.reserved + cmd.units.headD 0)
      ∧ (∀ st dw0 sq cq, cmd.state = .done st dw0 → cmd.q ≠ mgmtQueue → (ctlOf s cmd.ctl).sqs.get? cmd.q = some sq → (ctlOf s cmd.ctl).cqs.get? sq.cq = some cq →
        s.flt.fetchStopped = false → (linkOf s (ctlPort cmd.ctl)).up = true → (cq.tail + 1) % cq.size ≠ cq.head → Runs (.completionPost id elapsed) s fun t =>
          t.hst.posted = s.hst.posted ++ [⟨cmd.ctl, cmd.q, cmd.cid, st, dw0, sq.head, cq.phase, cmd.reply⟩] ∧ t.hst.cmds = s.hst.cmds.filter (fun z => z.id != id)
          ∧ ((ctlOf t cmd.ctl).cqs.get? sq.cq).map (·.tail) = some ((cq.tail + 1) % cq.size)
          ∧ t.hst.vectors = s.hst.vectors ++ (if cq.ien then [(cmd.ctl, cq.vector)] else [])))
    ∧ (ctlExists s ctl.val = true → (isPf ctl.val = true ∨ x.online = true) → x.enabled = false → (linkOf s (ctlPort ctl.val)).up = true → 2 ≤ asq.toNat → 2 ≤ acq.toNat →
      Runs (.controllerEnable ctl ams asq acq) s fun t =>
        let z := ctlOf t ctl.val
        z.enabled = true ∧ z.ready = s.fer.ioReady ∧ z.ams = ams.val ∧ (z.sqs.get? 0).map (·.size) = some (min 4096 asq.toNat) ∧ (z.cqs.get? 0).map (·.size) = some (min 4096 acq.toNat))
    ∧ (rdF s pSCP SCP_BOOT_STAGE 3 0 < 2 → Runs (.configurationRequest p .read) s fun t => t.com.answer = .held)
    ∧ (2 ≤ rdF s pSCP SCP_BOOT_STAGE 3 0 → (partitionMode s = false ∨ n.val ≤ inF s pNQE NQE_TENANCY 20 16) → Runs (.configurationRequest p (.numVfs n)) s fun t =>
      numVfs t p = n.val ∧ t.com.answer = .ack)
    ∧ (let d := cmd.sqe
      let k := cdwF d 10 15 0
      let size := cdwF d 10 31 16 + 1
      let z := ctlOf s cmd.ctl
      k ≠ 0 →
      (Fetched s id true 0x05 cmd → k ≤ ioQueues s cmd.ctl → z.cqs.get? k = none → 2 ≤ size → (cdwF d 11 1 1 = 0 ∨ cdwF d 11 31 16 < vectorsOf s cmd.ctl) →
        Ends (.createIoCq id) s id .success 0 [] fun t => (ctlOf t cmd.ctl).cqs.get? k = some ⟨size, cdwF d 11 31 16, cdwF d 11 1 1 == 1, sqeF d 24 8, 0, 0, true⟩)
      ∧ (Fetched s id true 0x01 cmd → k ≤ ioQueues s cmd.ctl → z.sqs.get? k = none → 2 ≤ size → cdwF d 11 31 16 ≠ 0 → (z.cqs.get? (cdwF d 11 31 16)).isSome = true →
        Ends (.createIoSq id) s id .success 0 [] fun t => (ctlOf t cmd.ctl).sqs.get? k = some ⟨size, cdwF d 11 31 16, cdwF d 11 2 1, sqeF d 24 8, 0, 0⟩)
      ∧ (Fetched s id true 0x00 cmd → (z.sqs.get? k).isSome = true → Ends (.deleteIoSq id) s id .success 0 [] fun t =>
        (ctlOf t cmd.ctl).sqs.get? k = none ∧ ∀ y ∈ t.hst.cmds, ¬ (y.ctl = cmd.ctl ∧ y.q = k))
      ∧ (Fetched s id true 0x04 cmd → (z.cqs.get? k).isSome = true → (z.sqs.any fun y => y.2.cq == k) = false → Ends (.deleteIoCq id) s id .success 0 [] fun t =>
        (ctlOf t cmd.ctl).cqs.get? k = none))

/-! ### Admin commands -/

/-- Each admin command under conditions on the state and its fields alone (R120). Field places that the spec leaves to NVMe are the model's (log entry 60). -/
def Obligations.AdminCommands : Prop :=
  ∀ (s : State) (id : Nat) (cmd y : HostCmd) (hd : List Byte) (unreadable : List Nat) (x : Namespace) (h : Fin 1024) (b : BootSet),
    let d := cmd.sqe
    let k := cmd.ctl
    let z := ctlOf s k
    let nsid := sqeNsid d
    let fid := cdwF d 10 7 0
    let v := cdw d 11
    let act := cdwF d 10 3 0
    let l := (List.range (min 2047 (sqeF hd 0 2))).map fun i => sqeF hd (2 + 2 * i) 2
    let victim := s.hst.cmds.find? fun c => c.ctl == k && c.q == cdwF d 10 15 0 && c.cid == cdwF d 10 31 16 && c.id != cmd.id && unended c
    let img := downloaded s
    let vf := cdwF d 10 31 16
    let w := ctlOf s vf
    let lba := (lbaFormat (bAt hd 26 % 16)).getD (1, 0)
    let fmt := (lbaFormat act).getD (1, 0)
    let n := min (cdwF d 13 15 0) (x.size - sqeF d 40 8)
    let held (u : Nat) : Bool := entryAt s (nsid - 1) u != trimmed || (wbNewest? s (nsid - 1) u).isSome
    (Fetched s id true 0x08 cmd → (s.hst.cmds.filter fun c => c.ctl == k && c.q == 0 && sqeOp c.sqe == 8).length ≤ 8 →
      (∀ r ∈ s.prg.runs, ∀ c ∈ s.hst.cmds, c.id = r.cmd → c.ctl ≠ k) →
      (victim = some y → Ends (.abort id) s id .success 0 [] fun t => (cmdOf? t y.id).map (·.state) = some (.done .abortRequested 0))
      ∧ (victim = none → Ends (.abort id) s id .success 1 [] fun t => t.map.reserved = s.map.reserved - cmd.room))
    ∧ (Fetched s id true 0x09 cmd →
      (fid ∈ [0x01, 0x04, 0x08, 0x09, 0x0A, 0x0B] → Ends (.setFeatures id hd) s id .success 0 [] fun t => (ctlOf t k).feats.get? fid = some v)
      ∧ (fid = 0x02 → v % 32 ≤ 2 → Ends (.setFeatures id hd) s id .success 0 [] fun t => t.hst.power.cur = v % 32 ∧ t.hst.power.target = none)
      ∧ (fid = 0x02 → (v % 32 = 3 ∨ v % 32 = 4) → ferryRunning s = false → Ends (.setFeatures id hd) s id .success 0 [] fun t => t.hst.power.target = some (v % 32))
      ∧ (fid = 0x07 → ioQueues s k ≠ 0 → Ends (.setFeatures id hd) s id .success ((ioQueues s k - 1) * 65537) [] fun _ => True)
      ∧ (fid = 0x0D → v % 2 = 1 → Ends (.setFeatures id hd) s id .success 0 [] fun t => t.com.hmb = hmbList hd (cdw d 15))
      ∧ (fid = 0x0E → Ends (.setFeatures id hd) s id .success 0 [] fun t => stampNow t = sqeF hd 0 6))
    ∧ (Fetched s id true 0x0A cmd →
      (fid ∈ [0x01, 0x04, 0x08, 0x09, 0x0A, 0x0B] → Ends (.getFeatures id) s id .success (z.feats.getD fid 0) [] fun t => ctlOf t k = z)
      ∧ (fid = 0x02 → Ends (.getFeatures id) s id .success s.hst.power.cur [] fun t => t.hst.power = s.hst.power)
      ∧ (fid = 0x0E → Ends (.getFeatures id) s id .success 0 (bytesLE 6 (stampNow s) ++ [0, 0]) fun t => t.com.stamp = s.com.stamp))
    ∧ (Fetched s id true 0x0C cmd → (s.hst.cmds.filter fun c => c.ctl == k && c.q == 0 && sqeOp c.sqe == 0x0C && c.state == .waiting).length < 16 →
      Waits (.asyncEventRequest id) s id fun t => t.hst.posted = s.hst.posted)
    ∧ (Fetched s id true 0x0D cmd → mapStopped s = false →
      (act = 0 → cdwF d 11 31 24 = 0 → (List.range 1024).find? (fun i => (s.hst.ns.get? i).isNone) = some h.val → hd.length = 4096 → bAt hd 3072 ≤ 1 → bAt hd 3073 ≤ 1 →
        bAt hd 3074 ≤ 1 → zerosAt hd 3075 1021 = true → bAt hd 26 % 16 < 4 → bAt hd 29 % 8 ≤ 3 → (bAt hd 29 % 8 = 0 ∨ lba.2 ≠ 0) → 0 < leAt hd 0 8 →
        leAt hd 0 8 * lba.1 + nsAllocated s ≤ tnvmcap s →
        Ends (.namespaceManagement id hd) s id .success (h.val + 1) [] fun t => nsAt? t (h.val + 1) = some (nsFrom .nvm hd lba.1 lba.2))
      ∧ (act = 1 → nsid ≠ 0xFFFFFFFF → nsAt? s nsid = some x → rangesOf s nsid = [] → inLiveSet s (nsid - 1) = false → (∀ a ∈ s.prg.acts, a.ns ≠ nsid - 1) →
        draining s cmd [nsid - 1] = false → Ends (.namespaceManagement id hd) s id .success 0 [] fun t => nsAt? t nsid = none ∧ nsid ∈ t.hst.changedNs))
    ∧ (Fetched s id true 0x15 cmd → nsAt? s nsid = some x → (∀ c ∈ l, ctlExists s c = true) →
      (act = 0 → (∀ c ∈ l, c ∉ x.attached) → (x.shared = true ∧ partitionMode s = false ∨ (x.attached ++ l).length ≤ 1) →
        Ends (.namespaceAttachment id hd) s id .success 0 [] fun t => nsAt? t nsid = some { x with attached := x.attached ++ l })
      ∧ (act = 1 → (∀ c ∈ l, c ∈ x.attached) →
        Ends (.namespaceAttachment id hd) s id .success 0 [] fun t => nsAt? t nsid = some { x with attached := x.attached.filter fun c => !l.contains c }))
    ∧ (Fetched s id true 0x11 cmd → Ends (.firmwareImageDownload id hd) s id .success 0 [] fun t =>
      t.hst.download = s.hst.download ++ [(4 * v, hd.take (4 * (cdw d 10 + 1)))])
    ∧ (Fetched s id true 0x10 cmd → 1 ≤ cdwF d 10 2 0 → cdwF d 10 2 0 ≤ 4 →
      let slot := cdwF d 10 2 0
      (cdwF d 10 5 3 = 0 → (checkImage s false 9 (some img)).2 = none → 1 ≤ imgKind img → imgKind img ≤ 3 → Ends (.firmwareCommit id unreadable) s id .success 0 [] fun t =>
        t.hst.download = [] ∧ ∀ r : Fin 4, replicaLost s r.val = false → replicaOf t r.val = (replicaOf s r.val).store slot img)
      ∧ (slotSet s unreadable slot = some b → spanBars s (imgVersion (b.main slot)) = false → noRing s = false →
        (cdwF d 10 5 3 = 2 → Ends (.firmwareCommit id unreadable) s id .success 0 [] fun t => t.bot.nextSlot = some slot)
        ∧ (cdwF d 10 5 3 = 3 → (checkImage s false 9 (some (b.main slot))).2 = none → overlapsPlace s (b.main slot) = false → s.flt.activating = none →
          Waits (.firmwareCommit id unreadable) s id fun t => t.bot.queue.length = s.bot.queue.length + 1 ∧ rdF t pFLT FLT_ACT_STATUS 31 28 = 1)))
    ∧ (Fetched s id true 0x14 cmd →
      ((act = 1 ∨ act = 2) → s.hst.selfTest = none → Ends (.deviceSelfTest id) s id .success 0 [] fun t => t.hst.selfTest = some (act, s.com.time))
      ∧ (act = 0xF → Ends (.deviceSelfTest id) s id .success 0 [] fun t => t.hst.selfTest = none))
    ∧ (nsAt? s nsid = some x → cdwF d 11 15 8 = 1 →
      (Fetched s id true 0x19 cmd → cdwF d 11 7 0 = 2 → Ends (.directiveSend id) s id .success 0 [] fun t => nsAt? t nsid = some { x with open_ := [], streams := 0 })
      ∧ (Fetched s id true 0x1A cmd → cdwF d 11 7 0 = 3 → Ends (.directiveReceive id) s id .success (min 16 (cdwF d 12 15 0)) [] fun t =>
        nsAt? t nsid = some { x with streams := min 16 (cdwF d 12 15 0) }))
    ∧ (Fetched s id true 0x1C cmd → ctlExists s vf = true → isPf vf = false → ctlPort vf = ctlPort k →
      (act = 7 → Ends (.virtualizationManagement id) s id .success 0 [] fun t => (ctlOf t vf).online = false ∧ (ctlOf t vf).enabled = false)
      ∧ (act = 8 → w.online = false → partitionMode s = false →
        let r := cdwF d 11 15 0
        (cdwF d 10 10 8 = 0 → r ≤ rdF s pNQE NQE_QP_FREE 13 0 + w.vq → Ends (.virtualizationManagement id) s id .success r [] fun t =>
          (ctlOf t vf).vq = r ∧ rd t pNQE NQE_QP_FREE = w32 (rdF s pNQE NQE_QP_FREE 13 0 + w.vq - r))
        ∧ (cdwF d 10 10 8 = 1 → r ≤ rdF s pNQE NQE_VEC_FREE 11 0 + w.vi → Ends (.virtualizationManagement id) s id .success r [] fun t =>
          (ctlOf t vf).vi = r ∧ rd t pNQE NQE_VEC_FREE = w32 (rdF s pNQE NQE_VEC_FREE 11 0 + w.vi - r)))
      ∧ (act = 9 → 2 ≤ w.vq → 1 ≤ w.vi → Ends (.virtualizationManagement id) s id .success 0 [] fun t => (ctlOf t vf).online = true))
    ∧ (Fetched s id true 0x80 cmd → nsAt? s nsid = some x → nsid ≠ 0xFFFFFFFF → act < 4 → cdwF d 10 11 9 ≤ 2 → cdwF d 10 7 5 ≤ 3 → (cdwF d 10 7 5 = 0 ∨ fmt.2 ≠ 0) →
      rangesOf s nsid = [] → mapStopped s = false → draining s cmd [nsid - 1] = false → Ends (.formatNvm id) s id .success 0 [] fun t =>
        nsAt? t nsid = some { x with size := x.size * x.lba / fmt.1, lba := fmt.1, meta_ := fmt.2, pi := cdwF d 10 7 5 })
    ∧ (Fetched s id true 0x84 cmd → (cdwF d 10 2 0 = 2 ∨ cdwF d 10 2 0 = 4) → anyRetained s (s.hst.ns.map (·.1)) = false → mapStopped s = false →
      draining s cmd (s.hst.ns.map (·.1)) = false → Ends (.sanitize id) s id .success 0 [] fun t => t.hst.sanitized = (s.hst.sanitized.1 + 1, cdwF d 10 2 0))
    ∧ (Fetched s id true 0x81 cmd → secProtocol d ≠ 0xF0 →
      (Ends (.securitySend id hd .none) s id .success 0 [] fun t => t.key = s.key)
      ∧ ((slotOf s h.val).state ≠ .empty →
        (draining s cmd [h.val] = false → Ends (.securitySend id hd (.lock h)) s id .success 0 [] fun t => (slotOf t h.val).locked = true)
        ∧ (Ends (.securitySend id hd (.unlock h)) s id .success 0 [] fun t => (slotOf t h.val).locked = false)))
    ∧ (Fetched s id true 0x82 cmd → secProtocol d ≠ 0xF0 → ∃ r, r.length = v ∧ Ends (.securityReceive id) s id .success 0 r fun t => t.bot = s.bot)
    ∧ (Fetched s id true 0x86 cmd → nsAt? s nsid = some x → sqeF d 40 8 < x.size → 5 ≤ cdw d 12 →
      ((∀ u ∈ x.units (sqeF d 40 8) n, held u = false) → Ends (.getLbaStatus id) s id .success 0 [0, 0, 0, 0, 1, 0, 0, 0] fun t => t.map.reserved = s.map.reserved - cmd.room)
      ∧ (∀ u, x.units (sqeF d 40 8) n = [u] → held u = true →
        let a := max (sqeF d 40 8) (u * x.unit / x.lba)
        Ends (.getLbaStatus id) s id .success 0 ([1, 0, 0, 0, 1, 0, 0, 0] ++ bytesLE 8 a ++ bytesLE 4 (min (sqeF d 40 8 + n) ((u + 1) * x.unit / x.lba) - a) ++ [0, 0, 0, 0])
          fun t => t.map.reserved = s.map.reserved - cmd.room))
    ∧ (Fetched s id true 0x06 cmd →
      (fid = 0x10 → Ends (.identify id) s id .success 0 (nsidList s nsid fun _ => true) fun t => t.hst.ns = s.hst.ns)
      ∧ (fid = 0x01 → ∃ r, r.length = 4096 ∧ (r.drop 78).take 2 = bytesLE 2 k ∧ (r.drop 280).take 16 = bytesLE 16 (tnvmcap s) ∧ (r.drop 512).take 2 = [0x66, 0x44]
        ∧ (r.drop 3072).take 2 = bytesLE 2 1 ∧ Ends (.identify id) s id .success 0 r fun t => t.hst.ns = s.hst.ns))
    ∧ (Fetched s id true 0x02 cmd → cdw d 12 = 0 → cdw d 13 = 0 → cdwF d 11 15 0 = 0 →
      (fid = 0x02 → ∃ r, r.take 1 = bytesLE 1 s.com.smart ∧ Ends (.getLogPage id) s id .success 0 r fun t => t.hst.ns = s.hst.ns)
      ∧ (fid = 0x04 → ∃ r, Ends (.getLogPage id) s id .success 0 r fun t => t.hst.changedNs = [])
      ∧ (fid = 0xC3 → isPf k = true → cdwF d 10 31 16 = 15 →
        let body := (s.com.log.ring.map LogEntry.shown).flatten
        ∃ gen, Ends (.getLogPage id) s id .success 0 (bytesLE 4 0x4C575151 ++ bytesLE 2 0xC3 ++ bytesLE 2 1 ++ bytesLE 8 (64 + body.length) ++ bytesLE 8 gen
          ++ bytesLE 4 s.com.log.ring.length ++ bytesLE 4 64 ++ List.replicate 32 0) fun t => t.com.log = s.com.log))

/-! ### The management port, NVMe-MI, power states and SPDM -/

/-- NVMe-MI (R146, R147), power states (R140, R141), partition reset (R144), SPDM (R533). -/
def Obligations.ManagementAndPowerStates : Prop :=
  ∀ (s : State) (msg bytes chain : List Byte) (elapsed micros id : Nat) (ctl first off len : BitVec 16) (cfg idx : BitVec 8) (value : Word) (cmd : HostCmd) (sqe : BitVec 512) (fn : Fin 64),
    let ok (t : State) (b : List Byte) : Prop := t.hst.mctpOut = s.hst.mctpOut ++ [[0, 0, 0, 0] ++ b]
    let d := bytesLE 64 sqe.toNat
    let c := cmd.sqe
    let p := s.hst.power
    let now := advance s elapsed
    let ctls := (allCtls s).filter fun k => decide (first.toNat ≤ k)
    (Runs (.mgmtRequest msg elapsed) s fun t => t.hst.mctpIn = s.hst.mctpIn ++ [msg])
    ∧ (Runs (.readNvmeMiDataStructure 2 first none) s fun t => ok t (ctlList ctls))
    ∧ (Runs (.readNvmeMiDataStructure 4 ctl none) s fun t => ok t (bytesLE 2 8 ++ (List.range 8).flatMap fun i => [8, BitVec.ofNat 8 i]))
    ∧ (∀ clear, Runs (.subsystemHealthStatusPoll clear none) s fun t => ∃ r, ok t r ∧ r.length = 8 ∧ (r.drop 1).take 1 = bytesLE 1 (255 - s.com.smart % 256)
      ∧ t.hst.mi.getD 0x100 0 = if clear then 0 else s.hst.mi.getD 0x100 0)
    ∧ (Runs (.controllerHealthStatusPoll first none) s fun t => ∃ r, ok t r ∧ r.length = 16 * min 255 ctls.length)
    ∧ ((cfg = 1 ∨ cfg = 3) → (Runs (.configurationSet cfg value none) s fun t => ok t [] ∧ t.hst.mi.get? cfg.toNat = some value.toNat)
      ∧ (∀ v, s.hst.mi.get? cfg.toNat = some v → Runs (.configurationGet cfg none) s fun t => ok t (bytesLE 4 v)))
    ∧ (off.toNat + len.toNat ≤ 65536 → Runs (.vpdRead off len none) s fun t => ok t (fit len.toNat (s.hst.vpd.drop off.toNat)))
    ∧ (off.toNat + bytes.length ≤ 65536 → Runs (.vpdWrite off bytes none) s fun t => ok t [] ∧ (t.hst.vpd.drop off.toNat).take bytes.length = bytes
      ∧ (∀ i, i < off.toNat ∨ off.toNat + bytes.length ≤ i → bAt t.hst.vpd i = bAt s.hst.vpd i))
    ∧ (Runs (.nvmeMiReset 0 none micros) s fun t => t.hst.mctpOut.getLast? = some [0, 0, 0, 0] ∧ (ferryMay (mgmtWake s) = true → ∀ k, (ctlOf t k).enabled = false))
    ∧ (Fetched s id true 0x1D cmd →
      (miOpcode c = 3 → (cdw c 12 % 256 = 1 ∨ cdw c 12 % 256 = 3) → Ends (.nvmeMiSend id bytes micros) s id .success 0 [] fun t => t.hst.mi.get? (cdw c 12 % 256) = some (cdw c 13))
      ∧ (miOpcode c = 6 → cdw c 12 % 65536 + bytes.length ≤ 65536 → cdw c 13 % 65536 = bytes.length → Ends (.nvmeMiSend id bytes micros) s id .success 0 [] fun t =>
        (t.hst.vpd.drop (cdw c 12 % 65536)).take bytes.length = bytes))
    ∧ (Fetched s id true 0x1E cmd →
      (miOpcode c = 5 → cdw c 12 % 65536 + cdw c 13 % 65536 ≤ 65536 →
        Ends (.nvmeMiReceive id) s id .success 0 (fit (cdw c 13 % 65536) (s.hst.vpd.drop (cdw c 12 % 65536))) fun t => t.hst.vpd = s.hst.vpd)
      ∧ (miOpcode c = 4 → ∀ v, s.hst.mi.get? cfg.toNat = some v → (cfg = 1 ∨ cfg = 3) → Ends (.configurationGet cfg (some id)) s id .success 0 (bytesLE 4 v) fun t => t.hst.mi = s.hst.mi))
    ∧ ((∀ y ∈ s.hst.cmds, y.id ≠ s.hst.nextId) →
      (sqeOp d = 0x0A → cdwF d 10 7 0 = 0x02 → Runs (.tunnelledAdminCommand sqe bytes) s fun t => t.hst.mctpOut = s.hst.mctpOut ++ [tunnelReply .success t.hst.power.cur []] ∧ t.hst.cmds = s.hst.cmds)
      ∧ (sqeOp d ∉ [0x02, 0x06, 0x0A, 0x10, 0x11, 0x81, 0x82, 0xC2] → Runs (.tunnelledAdminCommand sqe bytes) s fun t =>
        t.hst.mctpOut = s.hst.mctpOut ++ [tunnelReply .invalidOpcode 0 []]))
    ∧ (∀ g, p.target = some g → ferryRunning now = false →
      (Runs (.powerStateEntryStep true elapsed) s fun t => t.hst.power = { p with cur := g, target := none, steps := p.steps + 1 } ∧ bit (rd t pNQE rIRQ_STATUS) 1 = true)
      ∧ (Runs (.powerStateEntryStep false elapsed) s fun t => t.hst.power = { p with steps := p.steps + 1 }))
    ∧ ((p.target.isSome = true ∨ 3 ≤ p.cur) → Runs .powerStateExit s fun t => t.hst.power = ⟨0, none, 0, s.com.time⟩ ∧ bit (rd t pNQE rIRQ_STATUS) 1 = true)
    ∧ (let v := (ctlOf s 0).feats.getD 0x0C 0
      let e := v / 2 / 2 ^ (64 * p.cur) % 2 ^ 64
      v % 2 = 1 → (e / 8 % 32 = 3 ∨ e / 8 % 32 = 4) → e / 256 % 2 ^ 24 ≠ 0 → p.target = none → p.cur < e / 8 % 32 → s.hst.cmds = [] → ferryRunning now = false →
      e / 256 % 2 ^ 24 * 1000000 ≤ (now.com.time - p.idleSince).toNat → Runs (.apstTransition elapsed) s fun t => t.hst.power = { p with target := some (e / 8 % 32), steps := 0 })
    ∧ (partitionMode s = true → fn.val ≠ 0 → Runs (.partitionReset fn) s fun t =>
      let z := ctlOf s fn.val
      (∀ y ∈ t.hst.cmds, y.ctl ≠ fn.val) ∧ ctlOf t fn.val = { Ctrl.fresh with online := z.online, vq := z.vq, vi := z.vi } ∧ bit (rd t pNQE rIRQ_STATUS) 2 = true)
    ∧ (2 ≤ rdF s pSCP SCP_BOOT_STAGE 3 0 →
      (Runs (.spdmRequest 2 (.measurements (some idx))) s fun t =>
        let b := measureBlock s idx.toNat
        t.bot.spdmOut = s.bot.spdmOut ++ [(2, b ++ Config.sign 0 (ofBytesLE s.bot.edSeed) b)])
      ∧ (Runs (.spdmRequest 2 (.setCertificate chain)) s fun t => t.bot.chain1 = chain))

/-! ### I/O commands -/

/-- The NVM commands (R25, R28, R31, R121, R123, R182, R183) and the reservations of R121. -/
def Obligations.NvmCommands : Prop :=
  ∀ (s t0 t1 : State) (id : Nat) (cmd : HostCmd) (x : Namespace) (hd entries b : List Byte) (flash : List (Option FlashUnit)) (l : List (Nat × List Byte)) (u : Nat) (cf : Bool),
    let d := cmd.sqe
    let nsid := sqeNsid d
    let h := nsid - 1
    let slba := sqeSlba d
    let n := sqeBlocks d
    let got := readUnits s x h (cmdSlot cmd) (cmdTag cmd) (x.units slba n) flash
    let bytes := sliceUnits x l slba n
    let kept (t : State) : Prop := (wbNewest? t h u).map (fun w => (w.data, w.compressed)) = some (b, cf)
      ∧ ∀ h' u', (h' ≠ h ∨ u' ≠ u) → wbNewest? t h' u' = wbNewest? s h' u'
    let whole := x.units slba n = [u] ∧ slba * x.lba = u * x.unit ∧ n * x.lba = x.unit
    let r := x.resv
    let resv (t : State) (r' : Reservation) : Prop := (nsAt? t nsid).map (·.resv) = some r'
    let ty := cdwF d 10 15 8
    nsAt? s nsid = some x →
    (x.span = 0 → x.meta_ = 0 → x.pi = 0 → blockChecks s cmd slba n false = .ok x → got = (t0, .ok l) →
      (Fetched s id false 0x02 cmd → Ends (.read id flash) s id .success 0 bytes fun t => t.map.wb = s.map.wb)
      ∧ (Fetched s id false 0x0C cmd → Ends (.verify id flash) s id .success 0 [] fun t => t.map.wb = s.map.wb)
      ∧ (Fetched s id false 0x05 cmd → (hd = bytes → Ends (.compare id hd flash) s id .success 0 [] fun t => t.map.wb = s.map.wb)
        ∧ (hd.length = bytes.length → hd ≠ bytes → Ends (.compare id hd flash) s id .compareFailure 0 [] fun t => t.map.wb = s.map.wb)))
    ∧ (x.span = 0 → x.meta_ = 0 → x.pi = 0 → blockChecks s cmd slba n true = .ok x → retentionRefuses s x nsid slba n = false → whole →
      (Fetched s id false 0x01 cmd → hd.length = x.unit → storeUnit s x h u (cmdSlot cmd) (cmdTag cmd) hd = (t1, some (b, cf)) →
        (cdwF d 12 30 30 = 0 → Ends (.write id hd flash) s id .success 0 [] kept) ∧ (cdwF d 12 30 30 = 1 → Waits (.write id hd flash) s id kept))
      ∧ (Fetched s id false 0x08 cmd → cdwF d 12 25 25 = 0 → cdwF d 12 30 30 = 0 →
        storeUnit s x h u (cmdSlot cmd) (cmdTag cmd) (List.replicate x.unit 0) = (t1, some (b, cf)) → Ends (.writeZeroes id flash) s id .success 0 [] kept)
      ∧ (Fetched s id false 0x19 cmd → cdwF d 12 7 0 = 0 → cdwF d 12 11 8 = 0 → cdwF d 12 30 30 = 0 → entries.length = 32 → sqeF entries 16 2 + 1 = n → n ≤ 65535 →
        sqeF entries 8 8 + n ≤ x.size → resvConflict x cmd.ctl false = false → roomNow s x.unit = true →
        readUnits s x h (cmdSlot cmd) (cmdTag cmd) (x.units (sqeF entries 8 8) n) flash = (t0, .ok l) →
        storeUnit t0 x h u (cmdSlot cmd) (cmdTag cmd) (sliceUnits x l (sqeF entries 8 8) n) = (t1, some (b, cf)) → Ends (.copy id entries flash) s id .success 0 [] kept))
    ∧ (x.span = 0 → nsid ≤ 1024 → x.size * x.lba ≤ x.unit * 2 ^ 48 → mapStopped s = false → jRoom s 32 = true →
      (Fetched s id false 0x08 cmd → cdwF d 12 25 25 = 1 → 0 < x.lba → blockChecks s cmd slba n true = .ok x → retentionRefuses s x nsid slba n = false →
        (∀ v ∈ x.units slba n, coversUnit x v slba n = true) → Ends (.writeZeroes id flash) s id .success 0 [] fun t => ∀ v ∈ x.units slba n, entryAt t h v = trimmed)
      ∧ (Fetched s id false 0x09 cmd → cdwF d 10 7 0 = 0 → cdwF d 11 2 2 = 1 → entries.length = 16 → resvConflict x cmd.ctl true = false →
        let a := sqeF entries 8 8
        let k := sqeF entries 4 4
        mustWait s cmd a k true = false → a + k ≤ x.size → retentionRefuses s x nsid a k = false → Ends (.datasetManagement id entries) s id .success 0 [] fun t =>
          ∀ v ∈ x.units a k, coversUnit x v a k = true → entryAt t h v = trimmed))
    ∧ (Fetched s id false 0x00 cmd → x.span = 0 →
      let open_ := (s.map.wb.filter fun w => w.handle == h && w.redirect.isNone).map (·.unit)
      ((bit (rd s pNQE NQE_FLUSH_DRAIN) 0 = false ∨ open_ = []) → Ends (.flush id) s id .success 0 [] fun t => t.map.wb = s.map.wb)
      ∧ (bit (rd s pNQE NQE_FLUSH_DRAIN) 0 = true → open_ ≠ [] → Waits (.flush id) s id fun t => (cmdOf? t id).map (·.units) = some open_))
    ∧ (Fetched s id false 0x0D cmd → cdwF d 10 2 0 = 0 → keyOf x cmd.ctl = none → Ends (.reservationRegister id hd) s id .success 0 [] fun t =>
      resv t { r with keys := (r.keys.filter fun k => k.1 != cmd.ctl) ++ [(cmd.ctl, sqeF hd 8 8)], gen := r.gen + 1 })
    ∧ (keyOf x cmd.ctl = some (sqeF hd 0 8) →
      (Fetched s id false 0x11 cmd → cdwF d 10 2 0 = 0 → 1 ≤ ty → ty ≤ 6 → r.holder = none → Ends (.reservationAcquire id hd) s id .success 0 [] fun t =>
        resv t { r with holder := some cmd.ctl, rtype := ty })
      ∧ (Fetched s id false 0x15 cmd → (cdwF d 10 2 0 = 0 → r.holder = some cmd.ctl → ty = r.rtype → Ends (.reservationRelease id hd) s id .success 0 [] fun t =>
          resv t { r with holder := none, rtype := 0 })
        ∧ (cdwF d 10 2 0 = 1 → Ends (.reservationRelease id hd) s id .success 0 [] fun t => resv t ⟨[], none, 0, r.gen + 1⟩)))
    ∧ (Fetched s id false 0x0E cmd → cdw d 10 = 5 → Ends (.reservationReport id) s id .success 0
      (bytesLE 4 r.gen ++ [BitVec.ofNat 8 r.rtype] ++ bytesLE 2 r.keys.length ++ List.replicate 17 0) fun t => t.hst.ns = s.hst.ns)

/-! ### Vendor commands -/

/-- The vendor commands of R131 to R138 that do not concern the span. -/
def Obligations.VendorCommands : Prop :=
  ∀ (s : State) (id elapsed : Nat) (cmd : HostCmd) (x : Namespace) (hd : List Byte) (r : RetRange),
    let d := cmd.sqe
    let nsid := sqeNsid d
    let call (op action : Nat) : Prop := Fetched s id true op cmd ∧ cdwF d 10 7 0 = action
    let seq := ((rd s pSGL SGL_SNAP_SEQ_CUR).toNat + 1) % 2 ^ 32
    let due := round8 (s.com.time.toNat + 64)
    let ix := launchIx cmd
    let e := entryOf s ix
    let armed : LaunchEntry := { LaunchEntry.empty with time := BitVec.ofNat 64 (leAt hd 0 8), page := leAt hd 8 2 % 4096, action := bAt hd 10 % 16, arg := w32 (leAt hd 12 4) }
    let new : RetRange := ⟨nsid, sqeF hd 0 8, sqeF hd 8 8, sqeF hd 16 8, sqeF hd 24 1 == 1⟩
    let at_ := sqeF hd 28 4
    let die := cdwF d 11 9 0
    let share := setFld (rd s pSTR STR_SHARE) 7 0 (cdwF d 11 7 0)
    let spare := STR_HOT_SPARE + 4 * (die / 32)
    let lay := w32 (bAt hd 1 * 256 + bAt hd 0)
    (call 0xC3 0 → Ends (.snapshotTriggerIssue id) s id .success seq [] fun t => rd t pSGL SGL_SNAP_SEQ_CUR = w32 seq ∧ rd t pSGL SGL_SNAP_T_LO = lo32 (BitVec.ofNat 64 due))
    ∧ (call 0xC3 1 → Waits (.snapshotTriggerWait id) s id fun t => rd t pSGL SGL_SNAP_SEQ_CUR = w32 seq ∧ (cmdOf? t id).map (fun c => (c.units, c.until_)) = some ([seq], due))
    ∧ (belowHost s cmd = false →
      (call 0xC4 1 → Ends (.launchTableRead id) s id .success (entryStateWord e 0).toNat
        (bytesLE 8 e.time.toNat ++ bytesLE 2 (e.page % 4096) ++ bytesLE 1 (e.action % 16) ++ [0] ++ bytesLE 4 e.arg.toNat ++ bytesLE 4 (entryStateWord e 0).toNat ++ List.replicate 12 0)
        fun t => t.sgl = s.sgl)
      ∧ (call 0xC4 2 → hd.length = 32 → (armed.action = 7 → ∃ a ∈ s.prg.acts, a.slot = armed.arg.toNat ∧ a.ctl = cmd.ctl) → armStatus s e.state armed true = 0 →
        Ends (.launchTableArm id hd) s id .success (entryStateWord { armed with state := .armed } 0).toNat [] fun t => entryOf t ix = { armed with state := .armed })
      ∧ (call 0xC4 3 → e.state = .armed → Ends (.launchTableCancel id) s id .success (entryStateWord { e with state := .cancelled } 0).toNat [] fun t =>
        entryOf t ix = { e with state := .cancelled })
      ∧ (call 0xC4 4 → (e.state = .fired ∨ e.state = .failed ∨ e.state = .cancelled) → Ends (.launchTableRelease id) s id .success (entryStateWord { e with state := .free } 0).toNat []
        fun t => entryOf t ix = { e with state := .free }))
    ∧ (nsAt? s nsid = some x → (isPf cmd.ctl = true ∨ x.attached.contains cmd.ctl = true) →
      (∀ i, call 0xC5 0 → (List.range 8192).find? (fun i => (s.hst.ranges.get? i).isNone) = some i → 0 < new.count → sqeF hd 24 1 ≤ 1 → stampNow s < new.expiry →
        new.slba + new.count ≤ x.size → (∀ q ∈ s.hst.ranges, q.2.nsid = nsid → q.2.slba + q.2.count ≤ new.slba ∨ new.slba + new.count ≤ q.2.slba) →
        (enterRange s (rangeEntries x (nsid - 1) i new.slba new.count)).isSome = true →
        Ends (.retentionCreate id hd) s id .success 0 (rangeDesc i new) fun t => t.hst.ranges.get? i = some new)
      ∧ (s.hst.ranges.get? at_ = some r → r.nsid = nsid →
        (call 0xC5 1 → Ends (.retentionQuery id hd) s id .success 0 (rangeDesc at_ r) fun t => t.hst.ranges = s.hst.ranges)
        ∧ (call 0xC5 2 → r.expiry ≤ sqeF hd 16 8 → Ends (.retentionExtend id hd) s id .success 0 (rangeDesc at_ { r with expiry := sqeF hd 16 8 }) fun t =>
          t.hst.ranges.get? at_ = some { r with expiry := sqeF hd 16 8 })))
    ∧ (∀ i, s.hst.ranges.get? i = some r → rangeExpired (advance s elapsed) r = true → Runs (.retentionExpiry elapsed) s fun t => t.hst.ranges.get? i = none)
    ∧ (call 0xC6 0 → Ends (.barchanQuery id) s id .success 0 (arraySummary s) fun t => t.str = s.str)
    ∧ (call 0xC6 1 → s.hst.ns = [] → hd.length = 16 → bAt hd 1 ≤ 1 → zerosAt hd 2 6 = true → bAt hd 0 ≤ 63 →
      strTakes s [(STR_LAYOUT, lay), (STR_SEED_LO, w32 (leAt hd 8 4)), (STR_SEED_HI, w32 (leAt hd 12 4))] = true → Ends (.barchanSetLayout id hd) s id .success 0 [] fun t =>
        inForce t pSTR STR_LAYOUT = lay ∧ inForce t pSTR STR_SEED_LO = w32 (leAt hd 8 4) ∧ inForce t pSTR STR_SEED_HI = w32 (leAt hd 12 4))
    ∧ (call 0xC6 2 → strTakes s [(STR_SHARE, share)] = true → Ends (.barchanSetShare id) s id .success 0 [] fun t => inForce t pSTR STR_SHARE = share)
    ∧ (call 0xC6 3 → strTakes s [(spare, setBit (rd s pSTR spare) (die % 32) true)] = true → Ends (.barchanSpareDie id) s id .success 0 [] fun t => hotSpare t die = true)
    ∧ (call 0xC6 4 → dieInService s die = true → (rebuildOf s die).state = .none → strTakes s [(STR_REQUEST, w32 (2 ^ 30 + die))] = true →
      Ends (.barchanRebuild id) s id .success 0 [] fun t => (rebuildOf t die).state = .copyOut)
    ∧ (call 0xC6 5 → bit (rd s pSTR STR_STATE) 4 = false → strTakes s [(STR_REQUEST, w32 (2 ^ 31))] = true →
      Ends (.barchanResync id) s id .success 0 [] fun t => t.str.unresync = allStripes s)
    ∧ (call 0xC2 0 → (isPf cmd.ctl = true ∨ cdwF d 11 15 0 = tenantOfCtl s cmd.ctl) → Waits (.tollStatementRequest id) s id fun t =>
      (cmdOf? t id).map (fun c => (c.units.headD 0, c.until_)) = some (0xC2, s.com.time.toNat + 2000000000))
    ∧ (cmdOf? s id = some cmd → cmd.state = .waiting → cmd.units.head? = some 0xC2 → cmd.until_ ≤ (advance s elapsed).com.time.toNat →
      Ends (.tollStatementTimeout id elapsed) s id .meterUnavailable 0 [] fun t => t.hst.ns = s.hst.ns)

/-! ### Programs and services -/

/-- Programs (R495 to R501), memory commands (R491, R493), scans (R502 to R506), KV (R509) and indexes (R511, R512). Field places that the spec leaves to NVMe are the model's (log entry 60). -/
def Obligations.ProgramsAndServices : Prop :=
  ∀ (s t0 u : State) (id elapsed : Nat) (cmd : HostCmd) (x y : Namespace) (hd data prog : List Byte) (flash : List (Option FlashUnit)) (h slot : Nat) (a : Activation) (r : Run)
    (c : Clu) (k : CoreIx) (sc : Scan) (ix : SecIndex) (ph : ParamHeader),
    let d := cmd.sqe
    let nsid := sqeNsid d
    let pind := cdwF d 10 15 0
    let pieces := (((s.prg.loading.find? fun l => l.ns == h && l.index == pind).filter fun l => l.size == cdw d 11).elim [] (·.pieces)) ++ [(cdw d 15, hd)]
    let img := assemble (cdw d 11) pieces
    let n := coreNo c k
    let core := coreOf s n
    let back := { core with runmode := core.trapMode, pc := core.trapRet }
    let ring := a.rings[(core.reg 4).toNat]?
    let val := core.reg 5
    let index := fld val 12 0
    let ends (t : State) (id : Nat) (st : NvStatus) (dw0 : Nat) : Prop := (cmdOf? t id).map (·.state) = some (.done st dw0)
    let off := sqeF d 40 8
    let line := slmAddr s (nsid - 1) off
    let stored (t : State) (b : List Byte) : Prop := t.mem.dram.readN line 64 = b ∧ ∀ i, i < line ∨ line + 64 ≤ i → t.mem.dram.read i = s.mem.dram.read i
    let sets := execSet d
    (Fetched s id true 0x85 cmd → computeNs? s cmd = some h → 3 ≤ pind → pind ≤ 63 → cdwF d 10 23 16 = 0xC0 → hd.length = cmd.dataLen → cdw d 11 ≤ 524288 → cdw d 15 + hd.length ≤ cdw d 11 →
      (∀ z ∈ s.prg.acts, ¬ (z.ns = h ∧ z.index = pind)) →
      (allArrived (cdw d 11) pieces = false → Ends (.loadProgram id hd) s id .success 0 [] fun t => ⟨h, pind, cdw d 11, pieces⟩ ∈ t.prg.loading)
      ∧ (allArrived (cdw d 11) pieces = true → imgFormatOk s img = true → imgKind img = 4 → manifestOk img = true → (checkImage (tap s 3 0 img) false 5 (some img)).2 = none → noRing s = false →
        Waits (.loadProgram id hd) s id fun t => programOf t h pind = some ⟨h, pind, img⟩ ∧ ∃ e ∈ t.bot.queue, e.after = .loaded id))
    ∧ (Fetched s id true 0x88 cmd → computeNs? s cmd = some h → noRing s = false →
      (∀ g cl p env rings, cdwF d 11 7 0 = 1 → programOf s h pind = some g → (∀ z ∈ s.prg.acts, ¬ (z.ns = h ∧ z.index = pind)) → pickCluster s = some (cl, p) → cl = c.val → pickEnv s cl = some env →
        mfMatch (manifest g.image) = 0 → pickRings s (mfRings (manifest g.image)) = some rings → lowestFree s = some slot →
        placeLoadOk s c (imgPayload g.image) (placedSections s c p (imgSecs g.image)) = true → handoverNow s c = some u → Waits (.programActivate id) s id fun t =>
          (∃ z ∈ t.prg.acts, z.ns = h ∧ z.index = pind ∧ z.cluster = cl ∧ z.place = p ∧ z.env = env ∧ z.rings = rings ∧ z.slot = slot ∧ z.live = false)
          ∧ ∃ e ∈ t.bot.queue, e.after = .activated id slot)
      ∧ (cdwF d 11 7 0 = 0 → (s.prg.acts.find? fun z => z.ns == h && z.index == pind) = some a → a.live = true → a.closing = none → runOf? s a.slot = none →
        Waits (.programDeactivate id) s id fun t => { a with closing := some id } ∈ t.prg.acts ∧ ∃ e ∈ t.bot.queue, e.after = .deactivated id a.slot))
    ∧ (Fetched s id true 0x89 cmd → computeNs? s cmd = some h →
      (∀ (l : List MemRange) key, cdwF d 10 7 0 = 0 → hd.length = cmd.dataLen → hd.length = 32 * l.length → 1 ≤ l.length → l.length ≤ 3 →
        (List.range l.length).map (fun i => rangeFrom? s cmd ((hd.drop (32 * i)).take 32)) = l.map some → ((List.range 256).map (256 * h + ·)).find? (fun q => (s.prg.sets.get? q).isNone) = some key →
        Ends (.memoryRangeSetCreate id hd) s id .success (key % 256) [] fun t => t.prg.sets.get? key = some l)
      ∧ (cdwF d 10 7 0 = 1 → let key := 256 * h + cdwF d 11 7 0
        (s.prg.sets.get? key).isSome = true → (∀ z ∈ s.prg.runs, z.rset ≠ key) → (∀ z ∈ s.prg.scans, z.rset ≠ key) →
        Ends (.memoryRangeSetDelete id) s id .success 0 [] fun t => t.prg.sets.get? key = none))
    ∧ (∀ ranges, Fetched s id false 0x01 cmd → nsAt? s nsid = some x → x.kind = .compute → 3 ≤ execIndex d →
      (s.prg.acts.find? fun z => z.ns == nsid - 1 && z.index == execIndex d && z.live && z.closing.isNone) = some a → paramHeader cmd hd a.ceiling = .ok ph → s.prg.sets.get? sets = some ranges →
      runOf? s a.slot = none → earlierRun s cmd = false → ringsDrained s a = true → s.dis.stopped = false → Waits (.executeProgram id hd) s id fun t =>
        runOf? t a.slot = some ⟨id, a.slot, sets, if ph.defer then none else some s.com.time, ph.limitMs⟩
        ∧ (itemOf t a.slot).state = (if ph.defer then .waiting else .ready) ∧ (itemOf t a.slot).arg1 = w32 ph.params.length)
    ∧ (nsAt? s nsid = some x → x.kind = .memory →
      (Fetched s id false 0x02 cmd → off + cdw d 12 ≤ x.size → cmd.dataLen = cdw d 12 → slmRead s (nsid - 1) off (cdw d 12) = (t0, some data) →
        Ends (.memoryRead id) s id .success 0 data fun t => t.hst.ns = s.hst.ns)
      ∧ (off % 64 = 0 → off + 64 ≤ x.size →
        (Fetched s id false 0x05 cmd → cdw d 12 = 64 → hd.length = 64 → Ends (.memoryWrite id hd) s id .success 0 [] fun t => stored t hd)
        ∧ (∀ l, Fetched s id false 0x01 cmd → cdwF d 12 7 0 = 0 → hd.length = 32 → nsAt? s (sqeF hd 0 4) = some y → y.kind = .nvm → y.attached.contains cmd.ctl = true →
          sqeF hd 8 8 + (sqeF hd 16 2 + 1) ≤ y.size → readUnits s y (sqeF hd 0 4 - 1) (sqeF hd 0 4 - 1) none (y.units (sqeF hd 8 8) (sqeF hd 16 2 + 1)) flash = (t0, .ok l) → t0.mem.dram = s.mem.dram →
          sliceUnits y l (sqeF hd 8 8) (sqeF hd 16 2 + 1) = data → data.length = 64 → Ends (.memoryCopy id hd flash) s id .success 0 [] fun t => stored t data)))
    ∧ (∀ q r', s.memWf = true → callOf? s n 1 = some a → ring = some (q, r') → q < 16 → 3 ≤ r' → r' < 8 → rgOn s q r' = true → index < 2 ^ (rgSize s q r' + 1) → ringDist (rgSize s q r') (rgHead s q r') index ≤ 2 ^ rgSize s q r' →
      Runs (.ringPost c k) s fun t => rgTail t q r' = index ∧ coreOf t n = back.setReg 4 0)
    ∧ (∀ q r', s.memWf = true → callOf? s n 2 = some a → ring = some (q, r') → q < 16 → 3 ≤ r' → r' < 8 → rgOn s q r' = true → index < 2 ^ (rgSize s q r' + 1) →
      Runs (.ringAck c k) s fun t => rgCpl t q r' = index ∧ coreOf t n = back.setReg 4 0)
    ∧ (s.memWf = true → callOf? s n 1 = some a → ring = none → Runs (.ringPost c k) s fun t => coreOf t n = back.setReg 4 1)
    ∧ (s.memWf = true → callOf? s n 3 = some a →
      (a.part = none → Runs (.matchOp c k) s fun t => coreOf t n = back.setReg 4 1)
      ∧ (∀ w, a.part = some w → a.place < 3 → core.reg 4 = w32 (0x10000 + 0xA000 + 0x2000 * a.place) → 1 ≤ val.toNat → val.toNat ≤ 5 → Runs (.matchOp c k) s fun t =>
        let st := fld (rd t pMTE (winOff w MTE_WSTATUS)) 7 0
        (coreOf t n).pc = core.trapRet ∧ (coreOf t n).runmode = core.trapMode ∧ (coreOf t n).reg 4 = (if st = 0 then 0 else 2) ∧ (st ≠ 0 → (coreOf t n).reg 5 = w32 st)))
    ∧ (s.memWf = true → callOf? s n 4 = some a → Runs (.time c k) s fun t => coreOf t n = (back.setReg 4 (lo32 s.com.time)).setReg 5 (hi32 s.com.time))
    ∧ (∀ sl : BitVec 16, runOf? s sl.toNat = some r → cmdOf? s r.cmd = some cmd →
      let it := itemOf s sl.toNat
      (it.state = .done → Runs (.runEnd sl) s fun t => ends t r.cmd .success it.arg0.toNat ∧ runOf? t sl.toNat = none)
      ∧ (it.state = .failed → Runs (.runEnd sl) s fun t => ends t r.cmd .programFault (0x80000000 + it.cause) ∧ runOf? t sl.toNat = none)
      ∧ (∀ since, r.ready = some since → r.limitMs * 1000000 ≤ ((advance s elapsed).com.time - since).toNat → (it.state = .running ∨ it.state = .ready ∨ it.state = .preempted) →
        Runs (.runLimitExpiry sl elapsed) s fun t => ends t r.cmd .programFault 0xFFFFFFFF ∧ runOf? t sl.toNat = none))
    ∧ (∀ p, Fetched s id false 0x01 cmd → serviceParams s cmd hd 0 = some (.ok p) → p.length = 64 → nsAt? s (leAt p 0 4) = some y → y.kind = .nvm → y.attached.contains cmd.ctl = true →
      let per := leAt p 4 4
      let first := leAt p 8 8
      let nlb := leAt p 16 8
      let bpu := y.unit / max 1 y.lba
      let segs := cutSegments (first / max 1 bpu) per (nlb + 1) (nlb / max 1 bpu)
      1 ≤ per → per ≤ 1024 → first % bpu = 0 → nlb % bpu = 0 → 0 < nlb → first + nlb ≤ y.size → zerosAt p 27 5 = true → leAt p 56 8 % 64 = 0 → insideRange s sets (bAt p 24) (leAt p 32 8) 2048 = true →
      insideRange s sets (bAt p 25) (leAt p 40 8) (leAt p 48 8) = true → insideRange s sets (bAt p 26) (leAt p 56 8) (608 + 16 * segs.length) = true →
      (∀ q, rangeOf? s sets (bAt p 24) = some q → slmRead s q.ns (q.off + leAt p 32 8) 2048 = (t0, some prog)) → checkProg prog (inSetOk t0 none) = none →
      Waits (.scanService id hd) s id fun t => ∃ z ∈ t.prg.scans, z.cmd = id ∧ z.segs = segs ∧ z.prog = prog)
    ∧ (∀ i g, (s.prg.scans.find? fun z => z.cmd == id) = some sc → sc.full = none → sc.segs[i]? = some g → g.status = none → (∃ j g', j ≠ i ∧ sc.segs[j]? = some g' ∧ g'.status = none) →
      let segOf (t : State) : Option (Nat × Segment) := (t.prg.scans.find? fun z => z.cmd == id).bind fun z => (z.segs[i]?).map fun q => (z.trimmed, q)
      (∀ f, f < g.units → Runs (.scanSegmentFail id i f false) s fun t => segOf t = some (sc.trimmed, { g with status := some 1, failing := f }))
      ∧ (sc.segs.findIdx? (·.status.isNone) = some i → nsAt? s sc.nsid = some y → sc.out ≤ sc.destLen →
        (∀ v, g.first ≤ v → v < g.first + g.units → wbNewest? s (sc.nsid - 1) v = none ∧ entryAt s (sc.nsid - 1) v = trimmed) →
        Runs (.scanOutputCopy id flash) s fun t => segOf t = some (sc.trimmed + g.units, { g with status := some 0, outBytes := 0 })))
    ∧ (∀ kv, kvChecks s cmd = .ok (x, kv) →
      let key := kvKey d
      let b := bucketOf kv key
      let hn := nsid - 1
      (∀ free, Fetched s id false 0x01 cmd → entryOfKey? kv key = none → (List.range 127).find? (fun i => !((bucketEntries kv b).any fun e => e.slot == i)) = some free → hd.length = cdw d 10 →
        cdw d 10 ≤ 262144 → kvOpt d 0 = false →
        kvUnits { kv with buckets := kv.buckets.putD b (bucketEntries kv b ++ [⟨free, key, false, hd.length⟩]) [], gens := kv.gens.put b 1 } ≤ kv.capacity / 4096 →
        roomNow s ((cdiv hd.length 4096 + 1) * 4096) = true → isResident s hn = true → slotRefusal s hn 1 2 false x.tenant false none = none → Ends (.kvStore id hd) s id .success 0 [] fun t =>
          (entryOfKey? (kvOf t hn) key).map (·.vlen) = some hd.length ∧ ∀ o, o ≠ key → entryOfKey? (kvOf t hn) o = entryOfKey? kv o)
      ∧ (∀ e l, Fetched s id false 0x02 cmd → entryOfKey? kv key = some e → partOfClass? s 4 = none →
        readUnits s x hn hn none (valueUnits kv b e e.half (cdiv (min e.vlen (cdw d 10)) 4096)) flash = (t0, .ok l) →
        Ends (.kvRetrieve id flash) s id .success e.vlen ((l.flatMap (·.2)).take (min e.vlen (cdw d 10))) fun t => t.prg.kv = s.prg.kv)
      ∧ (∀ e, Fetched s id false 0x10 cmd → entryOfKey? kv key = some e → (∀ o ∈ bucketEntries kv b, o.key = key → o.slot = e.slot) → roomNow s 4096 = true → isResident s hn = true →
        slotRefusal s hn 1 2 false x.tenant false none = none → Ends (.kvDelete id) s id .success 0 [] fun t => entryOfKey? (kvOf t hn) key = none)
      ∧ (Fetched s id false 0x14 cmd → Ends (.kvExist id) s id (if (entryOfKey? kv key).isSome then .success else .keyMissing) 0 [] fun t => t.prg = s.prg))
    ∧ (Fetched s id false 0x06 cmd → nsAt? s nsid = some x → x.kind = .kv → kvKeyLen d = 0 → Ends (.kvList id) s id .success 0 (keyList (cdw d 10) (kvOrder (kvOf s (nsid - 1)))) fun t => t.prg = s.prg)
    ∧ (Fetched s id false 0x01 cmd →
      (∀ p, indexParams s cmd hd 0 = some (.ok p) → nsAt? s (leAt p 4 4) = some y → y.kind = .kv → y.attached.contains cmd.ctl = true → (bAt p 2 = 0 ∧ 1 ≤ bAt p 3 ∧ bAt p 3 ≤ 16 ∨ bAt p 2 ≤ 4 ∧ bAt p 3 ∈ [1, 2, 4, 8]) →
        s.prg.indexes.get? (bAt p 1) = none → Ends (.indexCreate id hd) s id .success 0 [] fun t =>
          t.prg.indexes.get? (bAt p 1) = some ⟨leAt p 4 4 - 1, bAt p 2, bAt p 3, leAt p 8 4, true, false, []⟩)
      ∧ (∀ p, s.prg.indexes.get? (bAt p 1) = some ix →
        (indexParams s cmd hd 1 = some (.ok p) → Ends (.indexDrop id hd) s id .success 0 [] fun t => t.prg.indexes.get? (bAt p 1) = none)
        ∧ (indexParams s cmd hd 3 = some (.ok p) → Ends (.indexState id hd) s id .success (if ix.above then 7 else if ix.building then 5 else 0) [] fun t => t.prg = s.prg)
        ∧ (indexParams s cmd hd 2 = some (.ok p) → ix.above = false → ix.building = false → bAt p 13 = 0 → leAt p 72 8 ≠ 0 →
          let hits := (ix.entries.filter fun e => decide (0 ≤ fieldCmp ix.type e.1 ((p.drop 16).take ix.width)) && decide (fieldCmp ix.type e.1 ((p.drop 32).take ix.width) ≤ 0)).take (leAt p 72 8)
          insideRange s sets (bAt p 12) (leAt p 64 8) (40 * hits.length) = true → Ends (.indexRange id hd) s id .success hits.length [] fun t => t.prg = s.prg)))
    ∧ (∀ i : Fin 8, s.prg.indexes.get? i.val = some ix → ix.building = true → (indexTotal s - ix.entries.length + ix.entries.length) * 48 ≤ 8 * 2 ^ 30 → Runs (.indexBuildDone i []) s fun t =>
      (t.prg.indexes.get? i.val).map (fun z => (z.building, z.above, z.entries.length)) = some (false, false, ix.entries.length))

/-! ### Boot, security commands and live activation -/

/-- Boot (R522, R523), replicas (R520), counters (R524), Security commands (R526, R527), records (R531) and live activation (R612). -/
def Obligations.BootAndAttestation : Prop :=
  ∀ (s u : State) (id elapsed g : Nat) (cmd : HostCmd) (hd : List Byte) (nor : Option (List (List Byte))) (unreadable badSlots : List Nat) (locked : Bool) (e : BootEvent) (rest : List BootEvent) (n : Fin 3) (cl : Clu),
    let now := advance s elapsed
    let d := cmd.sqe
    let call (op spsp : Nat) : Prop := Fetched s id true op cmd ∧ secProtocol d = 0xF0 ∧ secSpsp d = spsp ∧ isPf cmd.ctl = true
    let queued (t : State) (a : AfterRecord) : Prop := ∃ x ∈ t.bot.queue, x.after = a
    let img := (replicaOf s 0).main s.bot.active
    let v := runningSvn s n.val
    let seq := rdF s pSCP SCP_REC_SEQ 31 0 + 1
    (s.bot.due.isSome = true → s.pwr.pins.pwrgd = true → s.pwr.pins.testEn = false → s.fer.parked = false → perstHeld s = false →
      (s.pwr.pins.refclk = false → Runs (.bootSequence elapsed nor unreadable badSlots) s fun t => t.bot.due = none ∧ t.pwr.pins.devFault = true)
      ∧ (s.pwr.pins.refclk = true → nor = none → unreadable = [] → s.bot.inject = [] → s.pwr.inject = [] → ownerInForce? s = none → replicaLost s 0 = false →
        imageCause s false (some (replicaOf s 0).stage1) = none → imageCause s false (some img) = none → Runs (.bootSequence elapsed nor unreadable badSlots) s fun t =>
          t.bot.due = none ∧ rd t pSCP SCP_BOOT_STAGE = 2 ∧ t.bot.policy = [] ∧ t.bot.fuses.seedLocked = true ∧ (noRing t = false → queued t .boot)))
    ∧ (2 ≤ rdF s pSCP SCP_BOOT_STAGE 3 0 → (List.range 4).find? (replicaPasses s unreadable) = some g → Runs (.replicaCheck elapsed unreadable) s fun t =>
      ∀ k, k < 4 → (replicaPasses s unreadable k = false → replicaLost s k = false → replicaOf t k = replicaOf s g) ∧ (replicaPasses s unreadable k = true → replicaOf t k = replicaOf s k))
    ∧ (s.fer.ioReady = true → (policyFlags s).testBit 2 = false → noRing s = false → counterOf s n.val < v → Runs (.counterAdvance elapsed) s fun t => queued t (.counter none n.val v))
    ∧ (call 0x81 0x10 → (checkImage s true 9 (some hd)).2 = none → imgKind hd = 5 → noRing s = false →
      (ownerDigest s = policyOwner (imgPayload hd) ∧ (ownerInForce? s).isSome = true ∨ ∃ k, k < 4 ∧ s.bot.fuses.ownerState.testBit (2 * k) = false) →
      Waits (.policyInstall id hd) s id fun t => queued t (.policy id hd))
    ∧ (call 0x81 0x11 → 8 ≤ hd.length → bAt hd 0 ≤ 2 → counterOf s (bAt hd 0) ≤ leAt hd 4 4 → leAt hd 4 4 ≤ runningSvn s (bAt hd 0) → noRing s = false →
      Waits (.counterAdvanceSend id hd) s id fun t => queued t (.counter (some id) (bAt hd 0) (leAt hd 4 4)))
    ∧ (call 0x81 0x12 → boardOk hd = true → Ends (.boardRecordWrite id hd) s id .success 0 [] fun t => t.bot.board = hd)
    ∧ (call 0x82 0x01 → Ends (.certificateChainsReceive id) s id .success 0 chainBytes fun t => t.bot = s.bot)
    ∧ (call 0x82 0x02 → Ends (.policyReceive id) s id .success 0 s.bot.policy fun t => t.bot = s.bot)
    ∧ (call 0x82 0x03 → Ends (.countersReceive id) s id .success 0 ((List.range 16).flatMap fun c => bytesLE 4 (counterOf s c) ++ bytesLE 4 (floorOf s c)) fun t => t.bot = s.bot)
    ∧ (call 0x82 0x04 → Ends (.boardRecordReceive id) s id .success 0 s.bot.board fun t => t.bot = s.bot)
    ∧ (s.bot.queue = e :: rest → wearHolds now 0x5800000 = false → noRing s = false → s.bot.inject = [] → seq < 2 ^ 32 → Runs (.bootRecordAppend elapsed locked) s fun t =>
      rdF t pSCP SCP_REC_SEQ 31 0 = seq ∧ bit (rd t pSCP rIRQ_STATUS) 0 = true
      ∧ (t.bot.ring.get? (seq % 1024)).map (fun r => (r.event, r.seq, r.arg, r.intact)) = some (e.event, seq, e.arg, true)
      ∧ (e.after = .none → t.bot.queue = rest)
      ∧ (e.after = .loaded id → cmdOf? s id = some cmd → (cmdOf? t id).map (·.state) = some (.done .success 0))
      ∧ (∀ slot, e.after = .activated id slot → cmdOf? s id = some cmd → (cmdOf? t id).map (·.state) = some (.done .success slot) ∧ ∀ a ∈ t.prg.acts, a.slot = slot → a.live = true)
      ∧ (∀ w, e.after = .counter none n.val w → counterOf s n.val ≤ w → s.bot.countersLost = false → counterOf t n.val = max w (16 * max (s.bot.fuses.floors.getD n.val 0) (min 32 (w / 16)))))
    ∧ (∀ slot, s.flt.activating = some slot →
      (nextHandover now = none → Runs (.liveActivation elapsed) s fun t => t.flt.activating = none ∧ rdF t pFLT FLT_ACT_STATUS 31 28 = 4
        ∧ ((s.hst.cmds.find? fun c => c.units == [0xF1, slot] && c.state == .waiting) = some cmd → (cmdOf? t cmd.id).map (·.state) = some (.done .success 0)))
      ∧ (nextHandover now = some cl.val →
        let w := wrF (wrF now pFLT FLT_ACT_STATUS 31 28 3) pFLT FLT_ACT_STATUS 22 20 cl.val
        (∀ since, s.flt.handoverFrom = some since → handoverNow w cl = some u → Runs (.liveActivation elapsed) s fun t => bit (rd t pFLT FLT_ACT_STATUS) cl.val = true)
        ∧ (handoverNow { w with flt := { w.flt with handoverFrom := some (s.flt.handoverFrom.getD now.com.time) } } cl = none → Runs (.liveActivation elapsed) s fun t =>
          t.flt.activating = some slot ∧ t.flt.handoverFrom = some (s.flt.handoverFrom.getD now.com.time))))
    ∧ (∀ since, s.flt.handoverFrom = some since → inF s pFLT FLT_HANDOVER_MAX 13 0 * 1000000 < (now.com.time - since).toNat → Runs (.handoverSlow elapsed) s fun t =>
      bit (rd t pFLT rIRQ_STATUS) 3 = true)

/-! ### The toll -/

/-- Taps (R537, R538), records (R539, R540), flush (R541), parameters (R542), statements (R543 to R545) and the port (R546). -/
def Obligations.TollMeter : Prop :=
  ∀ (s : State) (tap : Fin 4) (kind : BitVec 4) (tenant : BitVec 16) (amount : BitVec 44) (noise : BitVec 80) (elapsed : Nat) (rest : List (BitVec 80)) (e : TapEntry) (es : List TapEntry)
    (pseq : BitVec 64) (minute op : Byte) (args sig1 sig2 sig3 sig4 : List Byte) (stseq last : Word) (x : Statement) (i : TollItem),
    let c := tapOf s tap.val
    let new : TapEntry := ⟨kind.toNat, tenant.toNat, amount.toNat⟩
    let now := advance s elapsed
    let m := meterSync now
    let due := meterSecond now
    let here := meterSync s
    let slot := tenantSlot due tenant.toNat
    let rec_ := due.tol.records.getD slot (if slot = 1023 then TenantRecord.fresh 0xFFFF true else TenantRecord.fresh tenant.toNat false)
    let word := tapWord new c.expect
    let commits (t : State) (recs : Tab TenantRecord) : Prop :=
      (if s.tol.copyA.gen < s.tol.copyB.gen then t.tol.copyA else t.tol.copyB) = ⟨max s.tol.copyA.gen s.tol.copyB.gen + 1, true, recs, t.tol.mtime, t.tol.tapErr, t.tol.refused⟩
    let port (t : State) (code : Nat) (b : List Byte) : Prop := t.tol.port = s.tol.port ++ [(code, b)]
    let taken (p : ParamCmd) (t : State) : Prop := t.tol.pseq = p.pseq ∧ t.tol.aseq = s.tol.aseq + 1 ∧ port t 6 [1]
    (pageUp s pTOL = true → tapCarries tap.val new.kind = true → c.waiting = [] →
      (c.entries.length < 256 → (∀ y ∈ c.entries, ¬ (y.kind = new.kind ∧ y.tenant = new.tenant)) → Runs (.collectorEvent tap kind tenant amount) s fun t =>
        tapOf t tap.val = { c with entries := c.entries ++ [new] })
      ∧ (c.entries = e :: es → e.kind = new.kind → e.tenant = new.tenant → e ∉ es → tapCoalesces new.kind = true → e.amount + new.amount < 2 ^ 44 → Runs (.collectorEvent tap kind tenant amount) s fun t =>
        tapOf t tap.val = { c with entries := { e with amount := e.amount + new.amount } :: es }))
    ∧ (pageUp s pTOL = true → c.waiting = [] → c.entries = e :: es → Runs (.tapWordSend tap elapsed) s fun t =>
      tapOf t tap.val = { c with entries := es, wire := c.wire ++ [tapWord e c.seq], seq := (c.seq + 1) % 256 })
    ∧ (pageUp s pTOL = true → s.com.stamp.isSome = true → (tapOf s 3).waiting = [] → (tapOf s 3).entries.length < 256 → Runs (.timeMark elapsed) s fun t =>
      (tapOf t 3).entries = (tapOf s 3).entries ++ [⟨8, 0, stampNow now⟩])
    ∧ (s.tol.running = true →
      (c.expect < 256 →
        (c.wire = word :: rest → noise = 0 → (new.kind = 1 → Runs (.tapWordReceive tap elapsed noise) s fun t =>
            t.tol.records.get? slot = some { rec_ with bytesRead := rec_.bytesRead + amount.toNat } ∧ (tapOf t tap.val).expect = (c.expect + 1) % 256 ∧ t.tol.tapErr = s.tol.tapErr)
          ∧ (new.kind = 5 → Runs (.tapWordReceive tap elapsed noise) s fun t => t.tol.records.get? slot = some { rec_ with capMib := rec_.capMib + amount.toNat } ∧ t.tol.tapErr = s.tol.tapErr))
        ∧ (∀ w, c.wire = w :: rest → tapCrc (w ^^^ noise) ≠ tapF (w ^^^ noise) 7 0 → Runs (.tapWordReceive tap elapsed noise) s fun t =>
          t.tol.tapErr = s.tol.tapErr + 1 ∧ t.tol.records = s.tol.records ∧ tapOf t tap.val = { c with wire := rest }))
      ∧ (let n := m.tol.mtime / 1000000 - s.tol.second
        0 < n → Runs (.meterSecond elapsed) s fun t => t.tol.records = s.tol.records.map (fun e => (e.1, { e.2 with capMibS := e.2.capMibS + n * e.2.capMib })) ∧ t.tol.second = s.tol.second + n)
      ∧ (Runs (.meterRecordsCommit elapsed) s fun t => commits t due.tol.records)
      ∧ (s.fer.powerFail = true → Runs .tollFlush s fun t => t.tol.running = false ∧ commits t t.tol.records)
      ∧ (let p : ParamCmd := ⟨1, pseq.toNat, args, (sig1, sig2), (sig3, sig4)⟩
        (paramAccepted here p = true → Runs (.installAuditor pseq args sig1 sig2 sig3 sig4) s fun t => t.tol.auditor = some (args.take 32, (args.drop 32).take 1952) ∧ taken p t)
        ∧ (paramAccepted here p = false → Runs (.installAuditor pseq args sig1 sig2 sig3 sig4) s fun t => t.tol.auditor = s.tol.auditor ∧ t.tol.refused = s.tol.refused + 1 ∧ port t 6 [0]))
      ∧ (let p : ParamCmd := ⟨2, pseq.toNat, [minute], (sig1, sig2), ([], [])⟩
        paramAccepted here p = true → Runs (.periodAlign pseq minute sig1 sig2) s fun t => t.tol.align = minute.toNat ∧ taken p t)
      ∧ (let p : ParamCmd := ⟨3, pseq.toNat, bytesLE 2 tenant.toNat, (sig1, sig2), ([], [])⟩
        paramAccepted here p = true → s.tol.forming = none → Runs (.tenantClose pseq tenant sig1 sig2) s fun t =>
          (t.tol.forming.map (·.seq)) = some (s.tol.stseq + 1) ∧ (∀ r ∈ t.tol.records, r.2.tenant = tenant.toNat → r.2.closed = true) ∧ taken p t)
      ∧ (let p : ParamCmd := ⟨op.toNat, pseq.toNat, args, (sig1, sig2), (sig3, sig4)⟩
        (op = 2 → paramAccepted here p = true → Runs (.param op pseq args sig1 sig2 sig3 sig4) s fun t => t.tol.align = leAt args 0 1 ∧ taken p t)
        ∧ (paramAccepted here p = false → Runs (.param op pseq args sig1 sig2 sig3 sig4) s fun t => t.tol.refused = s.tol.refused + 1 ∧ port t 6 [0]))
      ∧ (let h := alignHour s.tol.align m.tol.mtime
        s.tol.forming = none → s.tol.hour < h → Runs (.scheduledStatement elapsed) s fun t => t.tol.hour = h ∧ (t.tol.forming.map (·.seq)) = some (s.tol.stseq + 1))
      ∧ (s.tol.forming = some x → s.tol.toClose = [] → Runs (.statementFormed elapsed) s fun t =>
        t.tol.stseq = x.seq ∧ t.tol.statements.getLast? = some { x with head := signedHead x.head })
      ∧ ((tapOf s 3).expect < 256 → (tapOf s 3).wire = tapWord ⟨9, tenant.toNat, 0⟩ (tapOf s 3).expect :: rest → s.tol.queue = [] → s.tol.item = none → newestStatement? here = some x → Runs .tollRequest s fun t =>
        t.tol.item.map (fun y => (y.kind, y.bytes)) = some (1, x.bytes) ∧ t.tol.queue = [])
      ∧ (pageUp s pTOL = true → s.tol.queue = [] → s.tol.item = some i → Runs (.tolChunkSend elapsed) s fun t =>
        let b := fit 1792 ((i.bytes.drop (1792 * i.chunk)).take 1792)
        rd t pTOL TOL_CHUNK_TAG = w32 (i.seq * 65536 + i.chunk) ∧ rd t pTOL TOL_CHUNK_CRC = w32 (crc32c b) ∧ rd t pTOL TOL_CHUNK_DATA = w32 (leAt b 0 4)
        ∧ t.tol.item = some { i with chunk := if i.chunk + 1 < cdiv i.bytes.length 1792 then i.chunk + 1 else 0 })
      ∧ (Runs .getInfo s fun t => port t 1 (bytesLE 8 Config.tollVersion.toNat ++ bytesLE 8 s.bot.fuses.serial ++ bytesLE 4 s.tol.stseq ++ bytesLE 4 s.tol.aseq ++ bytesLE 8 here.tol.mtime
        ++ (s.tol.auditor.elim (List.replicate 64 0) fun k => sha512 (k.1 ++ k.2))))
      ∧ (Runs .getCerts s fun t => port t 2 (Config.tollChain 0 ++ Config.tollChain 1))
      ∧ (newestStatement? s = some x → Runs (.getStatement 0) s fun t => port t 3 x.bytes)
      ∧ (statementAt? s stseq.toNat = some x → Runs (.getExtract stseq tenant) s fun t => port t 4 (x.extract tenant.toNat))
      ∧ (Runs (.getAudit stseq last) s fun t => port t 5 ((s.tol.audit.filter fun a => decide (stseq.toNat ≤ leAt a 0 4) && decide (leAt a 0 4 ≤ last.toNat)).flatten)))
    ∧ (pageUp s pTOL = true → s.tol.item = some i → i.seq ≠ s.tol.collected → i.kind = 1 → s.hst.cmds = [] → Runs (.tolPoll elapsed) s fun t =>
      t.tol.collected = i.seq ∧ t.tol.stored = (i.bytes :: s.tol.stored).take 24)

/-! ### The span group -/

/-- Messages and journal (R552 to R560), generations (R561 to R566), checks and rebuild (R567 to R569), commands (R132). Message bodies that R553 does not lay out, sizes, and the order of messages in line are the model's choice (log entry 81). -/
def Obligations.SpanGroup : Prop :=
  ∀ (s : State) (id elapsed : Nat) (cmd : HostCmd) (hd : List Byte) (h : SpanHdr) (us : List (List Byte)) (fl : List (Option FlashUnit)) (n mask : BitVec 16) (rmw : Bool) (f : SpanFlight)
    (w : SpanWait) (g : SpanGather) (p : SpanPiece) (b : SpanBeat) (raw key : List Byte) (time : BitVec 64) (k : Fin 8) (d' : SpanDesc) (votes : List Nat) (t0 : Count) (entry : Fin 1024),
    let d := spanDesc s
    let me := spanMe s
    let now := advance s elapsed
    let m := h.sender.val
    let st := h.stripe.toNat
    let off := h.first.toNat - st * d.chunk
    let ref := h.ref.toNat
    let c := putSpn s { s.spn with credit := s.spn.credit.put m (max (s.spn.credit.getD m 0) h.credit) }
    let seq := (s.spn.pseq + 1) % 2 ^ 32
    let re (b : Bool) : SpanHdr := { spanHdr s h.gen.toNat st h.role.toNat h.first.toNat h.units.toNat ref h.fua with unrecoverable := b }
    let bare (g : Nat) : SpanHdr := spanHdr s g 0 0 0 0 0 false
    let tells (t : State) (l : List (Nat × Nat × SpanHdr × SpanBody)) : Prop := said t = said s ++ l
    let notes (t : State) (r : SpanRecord) : Prop := t.spn.journal = s.spn.journal ++ [(seq, r)]
    let heard := putSpn s { s.spn with heard := s.spn.heard.put m ⟨0, s.com.time, b⟩ }
    let free : Prop := 4 ≤ d.members ∧ s.spn.proposal = none ∧ s.spn.next = none
    let proposes (t : State) (i x : Nat) : Prop :=
      let nd := { d.setSt i x with gen := max s.spn.lastGen d.gen + 1 }
      t.spn.proposal = some (nd, [me], t.com.time) ∧ t.spn.voted = some (nd.gen, nd.digest)
        ∧ tells t (((List.range 8).filter fun i => i != me && (nd.st i != 0 || d.st i != 0)).map fun i => (i, 0x12, bare nd.gen, .propose { nd with index := i }.bytes))
    (pageUp s pSPN = true → inGroup s = true →
      (spanShut s m = false → genServed s h.gen.toNat = true →
        (spanCalm s = true →
          (let new : SpanFlight := ⟨st, d.gen, s.com.time, .gather, [⟨m, ref, h.role.toNat, off, us, h.fua⟩], false, [], []⟩
           leadsStripe s st = true → d.layout ≠ 0 → fullStripe d new = false → Runs (.data h us) s fun t =>
              t.spn.flights = [new] ∧ tells t [(m, 0x02, spanHdr s d.gen st h.role.toNat off 0 ref h.fua, .ack)])
          ∧ (Runs (.dataAck h) s fun t => t.spn.waits = (s.spn.waits.filter fun w => !(w.msg.type == 1 && w.msg.hdr.ref.toNat == ref)) ∧ tells t [])
          ∧ (us ≠ [] → h.fua = false → Runs (.chunk h us) s fun t =>
            t.map = (chunkStore c st off us false).map ∧ tells t [(m, 0x04, spanHdr s h.gen.toNat st h.role.toNat h.first.toNat us.length ref false, .ack)])
          ∧ (let r := (chunkLoad c st off n.toNat fl).2.1
            Runs (.readReq h n fl) s fun t => tells t [(m, 0x06, re r.isNone, .units (r.getD []))])
          ∧ (∀ role r2 role2, h.unrecoverable = false → s.spn.gathers = [g] → g.waits = [(ref, role), (r2, role2)] → r2 ≠ ref → Runs (.readData h us fl) s fun t =>
            t.spn.gathers = [{ g with waits := [(r2, role2)], got := g.got ++ [(role, some us)] }])
          ∧ (mask ≠ 0 → s.spn.inject.contains 2 = false → Runs (.replica h mask rmw) s fun t => notes t (.replica st (genLow h.gen.toNat) mask.toNat rmw m) ∧ tells t [(m, 0x08, re false, .ack)])
          ∧ (Runs (.replica h 0 rmw) s fun t => notes t (.done st) ∧ tells t []))
        ∧ (∀ (j : SpanJob) (u u2 role : Nat) (rest : List Nat) (b : List Byte), s.spn.flights = [] → s.spn.late = [] → s.spn.jobs = [j] → j.fail = none → j.writing = false →
          j.units = [(u, none), (u2, none)] → u2 ≠ u → h.unrecoverable = false → s.spn.gathers = [g] → g.waits = [(ref, role)] → g.owner = .job j.cmd u rest → Runs (.readData h [b] fl) s fun t =>
            t.spn.jobs = [{ j with units := [(u, some b), (u2, none)] }] ∧ t.spn.gathers = [])
        ∧ (s.spn.flights = [f] → s.spn.jobs = [] → s.spn.late = [] → s.spn.later = [] →
          (∀ role first, f.stripe = st → f.phase = .intent → (∀ p ∈ f.pieces, p.fua = false) → f.out = [(role, first, us)] → 0 < us.length → us.length ≤ 16 → d.holder st role ≠ me → (∀ i < d.members, d.serves i = true) →
            d.holder st role < d.members → Runs (.replicaAck h) s fun t =>
              t.spn.flights = [{ f with phase := .chunks, own := [] }]
                ∧ tells t [(d.holder st role, 0x03, spanHdr s f.gen st role (localUnit d st first) us.length s.spn.nextRef false, .units us)])
          ∧ (f.phase = .chunks → f.own = [] → f.pieces = [p] → p.front ≠ me → s.spn.waits = [w] → w.msg.type = 3 → w.msg.hdr.ref = h.ref → h.unrecoverable = false → Runs (.chunkAck h) s fun t =>
            t.spn.flights = [] ∧ notes t (.done f.stripe)
              ∧ tells t ((p.front, 0x04, spanHdr s f.gen f.stripe p.role p.first 0 p.ref p.fua, .ack)
                :: ((d.partner me).map fun k => (k, 0x07, spanHdr s f.gen f.stripe 0 0 0 0 false, SpanBody.replica 0 false)).toList))))
      ∧ (spanShut s m = true → Runs (.dataAck h) s fun t => t.spn = s.spn)
      ∧ (spanCalm s = true →
        (b.group.toNat = d.group → b.gen.toNat ≤ d.gen → Runs (.heartbeat h b raw) s fun t => t.spn.heard = s.spn.heard.put m ⟨0, s.com.time, b⟩)
        ∧ (b.group.toNat = d.group → b.gen.toNat = d.gen → b.digest = d.digest → b.joins = none → d.fwMin ≤ b.version.toNat → b.version.toNat ≤ d.fwMax → d.st m = 2 → free → isCoord heard = true →
          Runs (.heartbeat h b raw) s fun t => proposes t m 3)
        ∧ (b.group.toNat ≠ d.group → Runs (.heartbeat h b raw) s fun t => t.spn.heard = s.spn.heard)
        ∧ (s.spn.inject.contains 1 = false → Runs (.heartbeatSend elapsed) s fun t => rd t pSPN SPN_OFFSET_MAX = 0
          ∧ ∃ b : SpanBeat, b.group = BitVec.ofNat 64 d.group ∧ b.gen = BitVec.ofNat 64 d.gen ∧ b.digest = d.digest ∧ b.version = BitVec.ofNat 64 (mainVersion s)
            ∧ tells t (((List.range d.members).filter (· != me)).map fun i => (i, 0x10, bare d.gen, .beat b)))
        ∧ (spanShut s m = false →
          (isCoord s = true → d.takes k.val = true → k.val ≠ me → free → Runs (.suspect h k) s fun t => proposes t k.val 2)
          ∧ (let nd := spanParse raw
            spanValid raw = true → nd.group = d.group → d.gen < nd.gen →
              ((∀ v, s.spn.voted = some v → v.1 < nd.gen) → Runs (.propose h raw) s fun t =>
                t.spn.voted = some (nd.gen, nd.digest) ∧ notes t (.vote nd.gen me nd.digest) ∧ tells t [(m, 0x13, bare nd.gen, .vote (nd.digest.take 16))])
              ∧ (∀ x, s.spn.voted = some (nd.gen, x) → x ≠ nd.digest → Runs (.propose h raw) s fun t => t.spn.voted = s.spn.voted ∧ tells t [])
              ∧ (Runs (.commit h raw time) s fun t => t.spn.next = some ({ nd with index := me }, time) ∧ notes t (.commit nd.gen { nd with index := me }.bytes)))
          ∧ (s.spn.proposal = some (d', votes, t0) → h.gen.toNat = d'.gen → votes.contains m = false →
            (votes.length + 2 < d.threshold → Runs (.vote h (d'.digest.take 16)) s fun t => t.spn.proposal = some (d', votes ++ [m], t0))
            ∧ (d.threshold ≤ votes.length + 1 → Runs (.vote h (d'.digest.take 16)) s fun t =>
              t.spn.proposal = none ∧ t.spn.next = some (d', BitVec.ofNat 64 (ceilMs (s.com.time.toNat + 2000000))) ∧ notes t (.commit d'.gen d'.bytes)))
          ∧ (Runs (.witness h true) s fun t => t.spn.witness = some (m, h.gen.toNat))
          ∧ (bit (rd s pSPN SPN_VIEW) 18 = false → coordinator s = some m → s.spn.waits = [] → s.spn.next = some (d', t0) → d'.gen = h.gen.toNat → Runs (.groupAction h .epoch) s fun t =>
            t.spn.desc = some { d' with index := me } ∧ t.spn.next = none ∧ bit (rd t pSPN rSTAGE_STATUS) 27 = true))
        ∧ (let s0 := putSpn s { s.spn with consumed := s.spn.consumed.modify m 0 (· + raw.length) }
          let s1 := (unwrapSlot s0 spanSlot true).1
          let nonce := (raw.drop 16).take 12
          let ct := (raw.drop 28).take (raw.length - 44)
          let ctr := ofBytesLE (nonce.drop 4)
          let x := spanHeader (gcmXor (slotOf s1 spanSlot).key nonce 0 ct) h.credit
          (bAt raw 4 ≠ m → Runs (.spanMessageReceive h.sender raw h.credit .ack fl []) s fun t => t.spn = s0.spn)
          ∧ (bAt raw 4 = m → 76 ≤ raw.length → leAt raw 0 4 = raw.length → slotRefusal s1 spanSlot 2 1 false 0xFFFF false none = none → (∀ y, s.spn.floor.get? m = some y → y < ctr) →
            fit 16 (Config.gcmTag (slotOf s1 spanSlot).key nonce ct) = raw.drop (raw.length - 16) → bAt (gcmXor (slotOf s1 spanSlot).key nonce 0 ct) 0 = 2 → x.sender = h.sender →
            spanShut s m = false → genServed s x.gen.toNat = true → Runs (.spanMessageReceive h.sender raw h.credit .ack fl []) s fun t =>
              t.spn.floor.get? m = some ctr ∧ t.spn.waits = s.spn.waits.filter fun w => !(w.msg.type == 1 && w.msg.hdr.ref.toNat == x.ref.toNat)))
        ∧ (inF s pSPN SPN_RESYNC_SHARE 6 0 ≠ 0 → d.layout = 1 → d.members ≤ 8 → leadsStripe s st = true → st < d.stripes →
          (∀ (old : Nat → List (List Byte)) (par : List (List Byte)) (holder : Nat), s.spn.unresync.contains st = true → s.spn.resyncAll = false → holder = d.holder st 0xFE → holder ≠ me → d.takes holder = true →
            let reads := ((List.range d.width).map fun j => (BitVec.ofNat 8 j, some (old j))) ++ [((0xFE : BitVec 8), some par)]
            let sum := sumP (d.chunk * d.unit) ((List.range d.width).map fun j => (j, (old j).flatten))
            (par.flatten = sum → Runs (.spanResync h.stripe reads) s fun t => notes t (.resyncDone st 0) ∧ tells t [] ∧ t.spn.unresync = s.spn.unresync.filter (· != st))
            ∧ (par.flatten ≠ sum → Runs (.spanResync h.stripe reads) s fun t =>
              let l := cutUnits d.unit d.chunk sum
              notes t (.resyncDone st 1) ∧ t.spn.unresync = (s.spn.unresync.filter (· != st))
                ∧ tells t [(holder, 0x03, spanHdr s d.gen st 0xFE (localUnit d st 0) l.length s.spn.nextRef false, .units l)]))
          ∧ (∀ (reads : List (BitVec 8 × Option (List (List Byte)))) (r : Nat) (b : List Byte), d.st k.val = 3 → k.val < d.members → k.val ≠ me → (s.spn.dirty.getD k.val []).contains st = true →
            s.spn.dirtyAll.contains k.val = false → (d.roles.filter fun r => d.holder st r == k.val) = [r] → gathered d (readsGather s st (reads.filter fun e => d.holder st e.1.toNat != k.val)) r = some b →
            Runs (.spanRebuild k h.stripe reads) s fun t =>
              let l := cutUnits d.unit d.chunk b
              t.spn.dirty.getD k.val [] = ((s.spn.dirty.getD k.val []).filter (· != st))
                ∧ tells t [(k.val, 0x03, spanHdr s d.gen st r (localUnit d st 0) l.length s.spn.nextRef false, .units l)]))))
    ∧ (inGroup s = true → s.spn.flights = [f] → s.spn.jobs = [] → s.spn.late = [] → f.stripe = st → f.phase = .gather → inF now pSPN SPN_GATHER 13 0 * 1000 ≤ (now.com.time - f.since).toNat →
      (∀ partner, (d.layout = 0 ∨ fullStripe d f = true) → d.partner me = some partner → Runs (.gatherDeadline h.stripe elapsed fl) s fun t =>
        let mask := ((List.range 8).map fun j => if f.pieces.any (fun p => p.role == j) then 2 ^ j else 0).sum
        t.spn.flights.map (·.phase) = [.intent] ∧ notes t (.intent st (f.gen % 2 ^ 32) mask false me)
          ∧ tells t [(partner, 0x07, spanHdr s f.gen st 0 0 0 s.spn.nextRef false, .replica (BitVec.ofNat 16 mask) false)])
      ∧ (∀ role, d.layout = 1 → fullStripe d f = false → ((List.range d.width).filter fun j => f.pieces.any fun p => p.role == j) = [role] → (∀ r, (r = role ∨ r = 0xFE) → goodRole s st r = true ∧ d.holder st r ≠ me) →
        Runs (.gatherDeadline h.stripe elapsed fl) s fun t => t.spn.flights = [{ f with phase := .read }]
          ∧ (said t).map (fun e => (e.1, e.2.1)) = (said s).map (fun e => (e.1, e.2.1)) ++ [(d.holder st role, 0x05), (d.holder st 0xFE, 0x05)]))
    ∧ (spanCalm s = true → inGroup s = true →
      (s.spn.proposal = some (d', votes, t0) → 5000000 ≤ (now.com.time - t0).toNat → Runs (.proposalTimeout elapsed) s fun t => t.spn.proposal = none)
      ∧ (s.spn.waits = [w] → w.msg.hdr.ref = h.ref → peerTimeout now ≤ (now.com.time - w.since).toNat →
        (w.retried = false → Runs (.peerTimeout h.ref elapsed) s fun t =>
          t.spn.waits = [{ w with retried := true, since := now.com.time }] ∧ tells t [(w.msg.dest, w.msg.type, { w.msg.hdr with credit := 0 }, w.msg.body)])
        ∧ (w.retried = true → isCoord now = false → ∀ lead, coordinator now = some lead → Runs (.peerTimeout h.ref elapsed) s fun t =>
          t.spn.waits = [{ w with since := now.com.time }] ∧ ∃ x : Fin 8, x.val = w.msg.dest % 8 ∧ tells t [(lead, 0x11, bare d.gen, .suspect x)]))
      ∧ (let aged := showSpan (ageHeard now)
        (hears aged k.val = false → isCoord aged = true → d.takes k.val = true → free → Runs (.hbMissExpiry k elapsed) s fun t => proposes t k.val 2)
        ∧ (isCoord aged = true → 3 ≤ aged.sgl.syncMissed → Runs (.coordinatorHandoff elapsed) s fun t => t.spn.driver = true)
        ∧ (isCoord aged = false → Runs (.coordinatorHandoff elapsed) s fun t => t.spn.driver = false))
      ∧ (s.spn.nonceMark ≤ (slotOf s spanSlot).counter → Runs .nonceReserve s fun t =>
        t.spn.nonceMark = (slotOf s spanSlot).counter + 2 ^ 32 ∧ notes t (.nonceReserve ((slotOf s spanSlot).counter + 2 ^ 32)))
      ∧ (let e := entryOf s entry.val
        delivers s entry.val 6 e.page = true → s.spn.waits = [] → s.spn.next = some (d', t0) →
          (e.arg = w32 (genLow d'.gen) → Runs (.spanEpoch entry) s fun t => t.spn.desc = some { d' with index := me } ∧ t.sgl.returns.get? entry.val = some 0)
          ∧ (e.arg ≠ w32 (genLow d'.gen) → Runs (.spanEpoch entry) s fun t => t.spn = s.spn)))
    ∧ (Runs (.checkpointBegin .spnFill) s fun t => t.spn.journal.getLast? = some (seq, .mark))
    ∧ (Fetched s id true 0x81 cmd → secProtocol cmd.sqe = 0xF0 → secSpsp cmd.sqe = 0x20 → isPf cmd.ctl = true →
      (key.length = 40 → Ends (.spanKeyInstall id key true) s id .success 0 [] fun t =>
        let x := slotOf t spanSlot
        x.state = .valid ∧ x.key = key.take 32 ∧ x.type = 2 ∧ x.use = 3 ∧ x.persist = true ∧ x.fixed = 0x53500000 + (if inGroup s then me else 0))
      ∧ (Ends (.spanKeyInstall id key false) s id .accessDenied 0 [] fun t => t.key = s.key))
    ∧ (let call (action : Nat) : Prop := Fetched s id true 0xC1 cmd ∧ cdwF cmd.sqe 10 7 0 = action
      let refused (i : Instr) (member reason : Nat) : Prop := Ends i s id .spanRefused reason [] fun t => t.spn = s.spn ∧ rd t pSPN SPN_LAST_REFUSE = w32 (member % 8 * 256 + reason)
      let nd := spanParse hd
      let serial := s.bot.fuses.serial
      let i := cdwF cmd.sqe 11 2 0
      let full := if genLow d.gen = cdw cmd.sqe 12 then d.gen else cdw cmd.sqe 12
      (call 0 → Ends (.spanQuery id) s id .success 0 (if inGroup s then d.bytes else List.replicate 384 0) fun t => t.spn = s.spn)
      ∧ (inGroup s = false → spanCalm s = true → s.spn.waits = [] →
        (spanValid hd = true → (nd.entry nd.index).serial = serial →
          (spanKeyed s = false → (call 1 → refused (.spanCreate id hd) 0 0xB) ∧ (call 2 → refused (.spanJoin id hd none) nd.index 0xB))
          ∧ (spanKeyed s = true →
            (call 1 → nd.index = 0 → nd.gen = 0 → (makeMember s nd).isSome = true → Ends (.spanCreate id hd) s id .success 0 [] fun t =>
              t.spn.desc = some { nd.setSt 0 1 with gen := 1 } ∧ (t.hst.ns.get? (nd.nsid - 1)).map (fun x => (x.span, x.size)) = some (1, nd.capacity))
            ∧ (∀ a : SpanPeer, call 2 →
              (a.group.toNat ≠ nd.group → refused (.spanJoin id hd (some a)) nd.index 1)
              ∧ (a.group.toNat = nd.group → (spanParse a.desc).gen ≤ nd.gen → (spanParse a.desc).digest = nd.digest → nd.fwMin ≤ mainVersion s → mainVersion s ≤ nd.fwMax →
                ((spanParse a.desc).entry nd.index).serial = serial →
                (a.quorum = false → refused (.spanJoin id hd (some a)) nd.index 5)
                ∧ (a.quorum = true → a.proposing = false → (makeMember s nd).isSome = true → Ends (.spanJoin id hd (some a)) s id .success 0 [] fun t =>
                  t.spn.desc = some nd ∧ t.spn.own = some 1 ∧ t.spn.joins = some serial)))))
        ∧ (call 3 → refused (.spanLeave id) 0 4) ∧ (call 4 → refused (.spanWitness id) 0 4) ∧ (call 5 → refused (.spanFence id) 0 4))
      ∧ (inGroup s = true → spanCalm s = true →
        (call 3 → isCoord s = false → Ends (.spanLeave id) s id .success 0 [] fun t => t.spn.own = some 5)
        ∧ (call 3 → isCoord s = true → free → d.st me ≠ 4 → Ends (.spanLeave id) s id .success 0 [] fun t => proposes t me 4)
        ∧ (call 4 → cdwF cmd.sqe 11 0 0 = 1 → Ends (.spanWitness id) s id .success 0 [] fun t => t.spn.witness = some (me, full)
          ∧ tells t (((List.range d.members).filter (· != me)).map fun i => (i, 0x15, bare full, .witness true)))
        ∧ (call 5 → i < d.members →
          (isCoord s = true → free → d.setSt i 2 ≠ d → Ends (.spanFence id) s id .success 0 [] fun t => proposes t i 2)
          ∧ (isCoord s = false → ∀ lead, coordinator s = some lead → Ends (.spanFence id) s id .success 0 [] fun t => ∃ x : Fin 8, x.val = i % 8 ∧ tells t [(lead, 0x11, bare d.gen, .suspect x)]))))

/-! ### Power, control loops and the last ferry -/

/-- Domains (R573 to R578), power-good (R580), rails (R581), loops (R583 to R585), ports (R587), temperature (R588), throttle (R589, R590), clocks (R591), tokens (R592 to R594), ferry (R265 to R276), restart (R282, R283, R286), pins (R608, R624, R631). -/
def Obligations.PowerAndLastFerry : Prop :=
  ∀ (s : State) (elapsed micros : Nat) (d : Dom) (src : BitVec 4) (current sample : BitVec 16) (c : Chan) (pos : Pos) (k : Fin 20) (rail : Fin 14) (above refclk testEn cut : Bool) (vin vmin : BitVec 13) (ph : Fin 40)
    (trips : Fin 16) (port : Fin 6) (temps : List Int) (vinPower : Nat) (ports : List (Nat × Nat)) (cl : Clu) (survey : Survey) (who : Initiator) (value : Word) (b good : Bool) (x : Nat),
    let now := advance s elapsed
    let fresh : Prop := s.fer.record.state = .none ∨ s.fer.record.state = .replayed
    let parks (t : State) (v : Nat) : Prop :=
      t.fer.parked = true ∧ t.pwr.pins.pwrgd = false ∧ (∀ x, 1 ≤ x → x < 28 → domainUp t x = false) ∧ rdF t pPMU PMU_FERRY_STATUS 3 0 = 8 ∧ ferryRunning t = false
        ∧ (fresh → rdF t pPMU PMU_FERRY_STATUS 9 8 = 1 ∧ t.fer.record.state = .done ∧ t.fer.record.fseq = (s.fer.record.fseq + 1) % 2 ^ 32 ∧ t.fer.record.vmin = v)
    let browned (t : State) : Prop := t.bot.due = some 1 ∧ t.fer.parked = false ∧ t.com.time = 0 ∧ t.hst.cmds = [] ∧ rd t pPMU PMU_ISO_STATE = 0x0FFFFFFE
    let fer (t : State) : Prop := rd t pPMU PMU_FERRY_COUNT = w32 (satAdd 0xFFFFFFFF (rd s pPMU PMU_FERRY_COUNT).toNat 1)
    let die := 16 * c.val + pos.val
    let off := if d.val = 7 then collectorsSend s else s
    let calm : Prop := ferryRunning s = false ∧ s.fer.parked = false
    (domainUp s d.val = true → d.val ≠ 0 → d.val ≠ 2 → domainWantedOff s d.val = true → ferryRunning s = false → domainHeld off d.val = false → Runs (.domainOff d) s fun t =>
      domainUp t d.val = false ∧ (t.pwr.images.get? d.val).map (·.iseq) = some (s.pwr.nextIseq + 1) ∧ t.pwr.iseq.get? d.val = some (s.pwr.nextIseq + 1)
        ∧ rd t pPMU PMU_SWITCHES = w32 (satAdd 0xFFFFFFFF (rd s pPMU PMU_SWITCHES).toNat 1))
    ∧ (domainUp s d.val = false → d.val ≠ 0 → d.val ≠ 2 → (binDomains s.com.chip).testBit d.val = true → domainFenced s d.val = false → domainWantedOff s d.val = false → calm → s.pwr.pins.pwrgd = true →
      s.pwr.pins.testEn = false → s.pwr.inject = [] →
        ((good || b) = true → Runs (.domainOn d good b) s fun t => domainUp t d.val = true
          ∧ ∀ (i : ShadowImage) (p : Nat) (w : Word), s.pwr.iseq.get? d.val = some i.iseq → s.pwr.images.get? d.val = some i → i.bad = false → p ∈ domainPages s d.val →
            (i.live.filter fun e => e.1 == regKey p rCTRL) = [(regKey p rCTRL, w)] → rd t p rCTRL = w)
        ∧ (20 ≤ d.val → d.val ≤ 25 → Runs (.domainOn d false false) s fun t => bit (rd t (pNCL (d.val - 20)) rSTATUS) 1 = true ∧ bit (rd t pPMU rIRQ_STATUS) 0 = true ∧ domainUp t d.val = false))
    ∧ ((s.hst.power.target.isSome = true ∨ 2 < s.hst.power.cur) → src.toNat ≤ 4 → calm → Runs (.wake src) s fun t =>
      rd t pPMU PMU_WAKE = w32 ((rdF s pPMU PMU_WAKE 31 16 + 1) % 65536 * 65536 + s.pwr.entryOff.headD 0 * 256 + src.toNat) ∧ t.hst.power = ⟨0, none, 0, s.com.time⟩)
    ∧ (let n := rdF s pCLE CLE_TOKEN_NOW 26 16
      let lim := inF now pCLE CLE_FLASH_ILIM 15 0
      let ceil := rdF now pCLE CLE_TOKEN_CEIL 10 0
      let step := if lim = 0 then ceil else if lim < current.toNat then n - 4 else if 10 * current.toNat < 9 * lim then n + 1 else n
      let v := max (inF now pCLE CLE_TOKEN_MIN 10 0) (min ceil step)
      let issue := if s.fer.powerFail then inF now pCLE CLE_FERRY_TOKENS 6 0 else min v (tokenLimit now)
      s.pwr.slot ≠ some (now.com.time.toNat / 1000) → s.pwr.refused = [] → Runs (.tokenSlotStart elapsed current) s fun t =>
        t.pwr.tokens = issue ∧ t.pwr.slot = some (now.com.time.toNat / 1000) ∧ rd t pCLE CLE_TOKEN_NOW = w32 (v * 65536 + issue)
          ∧ rd t pCLE CLE_TOKEN_LAPSED = w32 (satAdd 0xFFFFFFFF (rd s pCLE CLE_TOKEN_LAPSED).toNat s.pwr.tokens))
    ∧ (wantsToken (dieOf s die) = true → s.pwr.refused.contains die = false →
      (0 < s.pwr.tokens → Runs (.tokenRequest elapsed [(c, pos)]) s fun t => t.pwr.tokens = s.pwr.tokens - 1 ∧ dieOf t die = { dieOf s die with token := true, asking := false })
      ∧ (s.pwr.tokens = 0 → Runs (.tokenRequest elapsed [(c, pos)]) s fun t => t.pwr.refused = s.pwr.refused ++ [die] ∧ dieOf t die = { dieOf s die with asking := true }
        ∧ rd t pCLE CLE_TOKEN_WAITS = w32 (satAdd 0xFFFFFFFF (rd s pCLE CLE_TOKEN_WAITS).toNat 1)))
    ∧ (let o := 32 * k.val
      let co (reg hi lo : Nat) : Int := sgn 16 (inF s pCLE (reg + o) hi lo)
      let flag (i : Nat) : Bool := inF s pCLE (CLE_CTRL_A3 + o) i i == 1
      let h := s.pwr.loops.getD k.val LoopHist.zero
      let e : Int := (2 * loopVset s k.val : Nat) - (sample.toNat : Nat)
      let acc := co CLE_COEF_B01 15 0 * e + co CLE_COEF_B01 31 16 * h.e1 + co CLE_COEF_B23 15 0 * h.e2 + (if flag 24 then co CLE_COEF_B23 31 16 else 0) * h.e3
        + co CLE_COEF_A12 15 0 * h.y1 + co CLE_COEF_A12 31 16 * h.y2 + (if flag 24 then co CLE_CTRL_A3 15 0 else 0) * h.y3
      let clampTo (v : Int) : Int := clampInt (inF s pCLE (CLE_LIMITS + o) 15 0) (inF s pCLE (CLE_LIMITS + o) 31 16) v
      let y := clampTo (sat16 (acc / (2 ^ (15 - inF s pCLE (CLE_CTRL_A3 + o) 18 16) : Nat)))
      let notch := (co CLE_NOTCH_N01 15 0 * y + co CLE_NOTCH_N01 31 16 * h.y1 + co CLE_NOTCH_N2D1 15 0 * h.y2 + co CLE_NOTCH_N2D1 31 16 * h.v1 + co CLE_NOTCH_D2 15 0 * h.v2) / 16384
      (loopRuns s k.val = true → Runs (.loopEvaluation k sample) s fun t =>
        let l := t.pwr.loops.getD k.val LoopHist.zero
        l.duty = (if flag 25 then clampTo notch else y) ∧ (l.e1, l.e2, l.e3) = (e, h.e1, h.e2) ∧ (l.y1, l.y2, l.y3) = (y, h.y1, h.y2) ∧ (l.v1, l.v2) = (l.duty, h.v1) ∧ t.com = s.com)
      ∧ (loopRuns s k.val = false → Runs (.loopEvaluation k sample) s fun t => t.pwr = s.pwr))
    ∧ (temps.length = 32 → s.pwr.heated = none → Runs (.thermalSample elapsed temps) s fun t =>
      (∃ i y, temps[i]? = some y ∧ (∀ z ∈ temps, z ≤ y) ∧ rd t pCLE CLE_TEMP_MAX = w32 (i * 65536 + toField 12 y))
        ∧ ∀ i y, temps[i]? = some y → t.pwr.hot.getD i 0 = if 1840 ≤ y then s.pwr.hot.getD i 0 + 1 else 0)
    ∧ (let deg := sgn 12 (rdF now pCLE CLE_TEMP_MAX 11 0) / 16
      let goal : Int := inF now pCLE CLE_TJ_TARGET 6 0
      let th := rdF s pCLE CLE_THROTTLE 7 0
      let cp := rdF s pCLE CLE_THROTTLE 15 8
      let th' := if goal < deg then min 255 (th + 4 * (deg - goal).toNat) else th - 1
      let p := vinPower + portPower now ports
      let cap := capNow now
      let cp' := if cap < p then min 255 (cp + inF now pCLE CLE_CAP_GAIN 7 0 * cdiv (p - cap) 100) else if p + 100 < cap then cp - 1 else cp
      s.hst.power.cur ≤ 2 → Runs (.throttleUpdate elapsed vinPower ports) s fun t =>
        rd t pCLE CLE_THROTTLE = w32 (max th' cp' * 65536 + cp' * 256 + th') ∧ rd t pCLE CLE_NODE_POWER = w32 (min 0xFFFF p) ∧ rd t pCLE CLE_POWER_CAP = w32 cap)
    ∧ (let target := min (inF now (pNCL cl.val) NCL_CLK_REQ 4 0) (clockLimit now)
      domainUp s (20 + cl.val) = true → clkNow s cl.val ≠ target → Runs (.dvfsChange cl elapsed) s fun t =>
        clkNow t cl.val = target ∧ clockVolts target ≤ inF t pCLE (if cl.val < 3 then CLE_RAIL_VSET_11 else CLE_RAIL_VSET_12) 11 0)
    ∧ (phaseRetired s ph.val = false →
      (2 ≤ livePhases s (railOfPhase ph.val) → Runs (.phaseRetire ph trips) s fun t => phaseRetired t ph.val = true ∧ bit (rd t pFLT rIRQ_STATUS) 1 = true)
      ∧ (livePhases s (railOfPhase ph.val) ≤ 1 → Runs (.phaseRetire ph trips) s fun t => phaseRetired t ph.val = false ∧ fld (rd t pCLE rFAULT) 31 28 = 4))
    ∧ (bit (inForce s pCLE CLE_EXT_ENABLE) port.val = true →
      (port.val < 2 → Runs (.extPortFault port) s fun t => bit (rd t pCLE CLE_EXT_STATUS) (8 + port.val) = true
        ∧ ∀ i, i < 32 → s.com.chip.hasChannel (32 * port.val + i) = true → bit (rd t (pFCH (32 * port.val + i)) rSTATUS) 1 = true)
      ∧ (2 ≤ port.val → Runs (.extPortFault port) s browned))
    ∧ (ferryMay s = true →
      (s.pwr.rails.testBit rail.val = true → Runs (.railOvUv rail above vmin micros) s fun t => parks t vmin.toNat ∧ fer t)
      ∧ (thermalTripDue s = true → Runs (.thermalTrip micros) s fun t => parks t s.fer.vin ∧ fer t ∧ t.pwr.hotPark = true)
      ∧ (5800 < vin.toNat → Runs (.vinOvervoltage vin micros) s fun t => parks t vin.toNat ∧ fer t ∧ t.pwr.overPark = true)
      ∧ (vin.toNat < vTrip s → (Runs (.pwrFail vin vmin micros none) s fun t => parks t vmin.toNat ∧ fer t) ∧ (Runs (.pwrFail vin vmin micros (some x)) s browned))
      ∧ (takesWrite s who pPMU PMU_FERRY_INJECT = true →
        (fld value 3 0 = 1 → Runs (.ferryInject who value micros) s fun t => parks t s.fer.vin ∧ fer t) ∧ (fld value 3 0 = 2 → Runs (.ferryInject who value micros) s browned)))
    ∧ (s.fer.parked = true → 2700 ≤ vin.toNat → vStart now ≤ vin.toNat → (s.pwr.overPark = true → vin.toNat ≤ 5500) →
      let held := s.fer.hold + elapsed
      (held < inF now pPMU PMU_RESTART_HOLD 15 0 * 1000000 → Runs (.restartHoldExpiry elapsed vin) s fun t => t.fer.hold = held ∧ t.fer.parked = true)
      ∧ (inF now pPMU PMU_RESTART_HOLD 15 0 * 1000000 ≤ held → (s.pwr.hotPark = true → sgn 12 (rdF now pCLE CLE_TEMP_MAX 11 0) ≤ 1440) → Runs (.restartHoldExpiry elapsed vin) s browned))
    ∧ (s.pwr.pins.pwrgd = false → s.fer.parked = false → 2700 ≤ s.pwr.vin → 2700 ≤ vin.toNat → vStart now ≤ vin.toNat →
      let held := s.fer.hold + elapsed
      (held < inF now pPMU PMU_RESTART_HOLD 15 0 * 1000000 → Runs (.powerGood elapsed vin refclk testEn) s fun t => t.fer.hold = held ∧ t.pwr.pins.pwrgd = false)
      ∧ (inF now pPMU PMU_RESTART_HOLD 15 0 * 1000000 ≤ held → Runs (.powerGood elapsed vin refclk testEn) s fun t =>
        t.pwr.pins.pwrgd = true ∧ t.pwr.pins.refclk = refclk ∧ t.pwr.pins.devFault = testEn ∧ t.tol.running = true ∧ ∀ r ∈ [0, 1, 2, 3, 4], t.pwr.rails.testBit r = true))
    ∧ (s.bot.due = none → 2 ≤ rdF s pSCP SCP_BOOT_STAGE 3 0 → calm → domainUp s 8 = true →
      (s.fer.replayed = true → s.fer.adminReady = true → s.fer.ioReady = false → (s.map.wb.any (·.reloaded)) = false → Runs (.restartRecovery survey) s fun t =>
        t.fer.ioReady = true ∧ ((s.fer.record.state = .begun ∨ s.fer.record.state = .done) → t.fer.record.state = .replayed ∧ t.fer.dump = []))
      ∧ (s.fer.replayed = false → Runs (.restartRecovery survey) s fun t => t.fer.replayed = true)
      ∧ (s.fer.replayed = false → survey.mapJournal = true → survey.stripeJournal = true → survey.ferryArea = true → survey.lostUnits = [] → survey.goneUnits = [] → s.str.stripes = [] →
        (s.str.journal.find? (·.torn)) = none → s.fer.record.state = .done → s.fer.dump ≠ [] → Runs (.restartRecovery survey) s fun t =>
          t.map.wb = s.map.wb ++ s.fer.dump.map fun w => { w with reloaded := true, redirect := none, packed := false }))
    ∧ (Runs (.clkreqL12 cut) s fun t => t.pwr = { s.pwr with pins := { s.pwr.pins with clkreqOff := cut } } ∧ t.com = s.com ∧ t.sgl = s.sgl)
    ∧ (Runs (.perstDeassert b elapsed) s fun t => if b then t.pwr.pins.perstB = false ∧ t.pwr.pins.perstA = s.pwr.pins.perstA else t.pwr.pins.perstA = false ∧ t.pwr.pins.perstB = s.pwr.pins.perstB)

/-! ### Faults, island resets and reset scopes -/

/-- Retirement (R600 to R602), fatal faults (R601), the log (R606), island resets (R604, R610, R611), scopes (R266, R608, R609, R623). -/
def Obligations.FaultsAndResets : Prop :=
  ∀ (s : State) (elapsed micros : Nat) (page cause : BitVec 12) (unit : BitVec 16) (c : Chan) (pos : Pos) (cl : Clu) (k : CoreIx) (n : CvnIx) (dmc : DmcIx) (r : Fin 2) (l : Fin 8) (port : Port) (ctl : CtlId) (vin : BitVec 13)
    (split i3c : Bool) (code : BitVec 8) (p : Nat) (e : LogEntry) (rest : List LogItem) (fseq count : Nat),
    let now := advance s elapsed
    let id := code.toNat
    let raised (t : State) : Prop := bit (rd t pFLT rIRQ_STATUS) 1 = true
    let isFenced (t : State) (p : Nat) : Prop := bit (rd t p rSTATUS) 1 = true
    let numbered (x w : Nat) : BitVec w := BitVec.ofNat w x
    let cleared (t : State) (scope : Nat) : Prop :=
      t.bot.due = some scope ∧ t.fer.parked = false ∧ t.fer.ioReady = false ∧ t.hst.cmds = [] ∧ t.hst.ctls = [] ∧ t.nel = Nelius.reset ∧ t.dis = Dispatch.reset ∧ t.key.slots = Keys.reset.slots ∧ t.mem.landing = [] ∧ t.mem.dram = []
        ∧ t.com.log.ring = s.com.log.ring ∧ t.bot.replicas = s.bot.replicas ∧ t.bot.counters = s.bot.counters ∧ t.tol.statements = s.tol.statements ∧ t.com.stamp = (if scope ≤ 1 then none else s.com.stamp)
        ∧ t.com.time = (if scope ≤ 1 then 0 else s.com.time) ∧ rd t pPMU PMU_ISO_STATE = (if scope ≤ 1 then 0x0FFFFFFE else 0x0FFFFFF2) ∧ t.pending = s.pending ∧ ∀ p, isFenced s p → pageKind? s.com.chip p = some .fch → isFenced t p
    (chanFenced s c.val = false → s.com.chip.hasChannel c.val = true →
      (dieRetired s (16 * c.val + pos.val) = false → Runs (.unitRetirement (numbered (pFCH c.val) 12) (numbered pos.val 16)) s fun t => dieRetired t (16 * c.val + pos.val) = true ∧ raised t)
      ∧ (Runs (.unitRetirement (numbered (pFCH c.val) 12) 0x10) s fun t => isFenced t (pFCH c.val) ∧ raised t))
    ∧ (s.com.chip.hasCluster cl.val = true →
      (coreRetired s (coreNo cl k) = false → Runs (.unitRetirement (numbered (pNCL cl.val) 12) (numbered k.val 16)) s fun t => coreRetired t (coreNo cl k) = true ∧ (coreOf t (coreNo cl k)).mode = .halted ∧ raised t)
      ∧ (Runs (.unitRetirement (numbered (pNCL cl.val) 12) 0x20) s fun t => isFenced t (pNCL cl.val) ∧ domainUp t (20 + cl.val) = false ∧ raised t))
    ∧ (¬ isFenced s (pCVN n.val) → Runs (.unitRetirement (numbered (pCVN n.val) 12) unit) s fun t => isFenced t (pCVN n.val) ∧ raised t)
    ∧ (rankState s dmc.val r.val = 1 → (spareIdle? s).isSome = true → Runs (.unitRetirement (numbered (pDMC dmc.val) 12) (numbered r.val 16)) s fun t =>
      rankState t dmc.val r.val = 3 ∧ t.mem.migrating = some (dmc.val, r.val) ∧ raised t)
    ∧ (Runs (.unitRetirement (numbered pLDS 12) (numbered l.val 16)) s fun t => bit (rd t pLDS LDS_DEC_RETIRED) l.val = true ∧ raised t)
    ∧ (s.com.chip.split = true → ¬ isFenced s (pHF port) → Runs (.unitRetirement (numbered (pHF port) 12) unit) s fun t => isFenced t (pHF port) ∧ (linkOf t port).up = false ∧ raised t)
    ∧ (fatalPage s page.toNat = true → Runs (.fatalFault page cause unit) s fun t =>
      rd t pFLT FLT_FATAL = w32 (2 ^ 31 + page.toNat * 65536 + cause.toNat) ∧ bit (rd t pFLT rIRQ_STATUS) 0 = true ∧ t.flt.fetchStopped = true ∧ t.pwr.pins.devFault = true
        ∧ ∀ x ∈ t.hst.ctls, x.2.cfs = true)
    ∧ (wearHolds { now with flt := { now.flt with holdQueue := false } } 0x6000000 = false →
      (s.com.log.queue = .entry e :: rest → s.com.log.ring.length < 65536 → Runs (.faultLogWrite elapsed) s fun t =>
        t.com.log.queue = rest ∧ t.com.log.ring = s.com.log.ring ++ [{ e with bad := s.com.log.badNext }] ∧ rd t pFLT FLT_LOG_WSEQ = w32 e.fseq ∧ t.flt.holdQueue = false)
      ∧ (s.com.log.queue = .count fseq count :: rest → Runs (.faultLogWrite elapsed) s fun t =>
        t.com.log.queue = rest ∧ t.com.log.ring = s.com.log.ring.map fun e : LogEntry => if e.fseq = fseq then { e with count := count } else e))
    ∧ (islandPage? s id = some p →
      (s.flt.resets.contains id = false → islandRetired s id = false → (s.flt.resets = [] ∨ s.flt.resets = [256 + id]) →
        ((recentResets s id).length < 2 → Runs (.islandReset code) s fun t =>
          t.flt.resets = [id] ∧ bit (rd t p rSTATUS) 0 = false ∧ rd t p rUNLOCK = 0 ∧ rd t pFLT FLT_IRESET_STATUS = w32 (2 ^ 31 + id * 256) ∧ (recentResets t id).length = (recentResets s id).length + 1)
        ∧ (2 ≤ (recentResets s id).length → Runs (.islandReset code) s fun t => id ∈ t.flt.retired ∧ rd t pFLT FLT_IRESET_STATUS = w32 (id * 256 + 2)))
      ∧ (s.flt.resets.contains id = true → s.com.bus.held = [] →
        (Runs (.islandReadmit code true elapsed) s fun t => t.flt.resets.contains id = false ∧ bit (rd t p rSTATUS) 0 = true ∧ rd t pFLT FLT_IRESET_STATUS = w32 (id * 256))
        ∧ (Runs (.islandReadmit code false elapsed) s fun t => id ∈ t.flt.retired ∧ rd t pFLT FLT_IRESET_STATUS = w32 (id * 256 + 2))))
    ∧ (s.pwr.vin < 2700 → 2700 ≤ vin.toNat → Runs (.powerOnReset vin split i3c) s fun t =>
      t.bot.due = some 0 ∧ t.com.chip = { s.com.chip with split := split } ∧ t.pwr.pins.mgmtI3c = i3c ∧ t.pwr.vin = vin.toNat ∧ (s.com.chip.split = split → cleared t 0))
    ∧ (vin.toNat < 2700 → Runs (.brownout vin) s fun t => cleared t 1)
    ∧ (ferryMay s = true →
      (s.com.chip.split = false → Runs (.perst false micros) s fun t => t.bot.due = some 2 ∧ t.pwr.pins.perstA = true ∧ t.fer.parked = false ∧ t.com.time = s.com.time ∧ t.hst.cmds = [] ∧ t.hst.ctls = []
        ∧ rd t pPMU PMU_ISO_STATE = 0x0FFFFFF2 ∧ ((s.fer.record.state = .none ∨ s.fer.record.state = .replayed) → t.fer.record.state = .done))
      ∧ (ctlExists s ctl.val = true → Runs (.nssr ctl micros) s fun t => t.bot.due = some 3 ∧ t.fer.parked = false ∧ t.com.time = s.com.time ∧ t.hst.cmds = [] ∧ t.hst.ctls = []
        ∧ rd t pPMU PMU_ISO_STATE = 0x0FFFFFF2 ∧ ((s.fer.record.state = .none ∨ s.fer.record.state = .replayed) → t.fer.record.state = .done)))
    ∧ (s.com.chip.split = true → s.pwr.pins.pwrgd = true → s.pwr.pins.perstA = false → Runs (.perst true micros) s fun t =>
      t.pwr.pins.perstB = true ∧ t.bot.due = s.bot.due ∧ ∀ x, ctlExists s x = true → ctlPort x = true → (ctlOf t x).enabled = false)
    ∧ (let dropped (t : State) : Prop := (ctlOf t ctl.val).enabled = false ∧ ∀ y ∈ t.hst.cmds, y.ctl ≠ ctl.val
      ctlExists s ctl.val = true →
        ((ctlOf s ctl.val).enabled = true → Runs (.controllerReset ctl) s dropped)
        ∧ (Runs (.flr ctl) s fun t => dropped t ∧ (isPf ctl.val = true → rdF t (pHF (ctlPort ctl.val)) HF_FN_STATUS 5 0 = 0)))
end

