-- ==== Sys2Proof/Laws/Tables.lean ====
section
/-! SUPPORT. Laws of sorted tables and byte memories: a read after a write, and the canonical form that every memory operation keeps. -/

namespace Sys2Proof.Machine

namespace Tab

variable {α : Type}

theorem get?_replace_same {t : Tab α} {k : Nat} (v : α) (h : (get? t k).isSome = true) : get? (replace t k v) k = some v := by
  induction t with
  | nil => simp [get?] at h
  | cons e t ih =>
    obtain ⟨k', v'⟩ := e
    by_cases hk : k' = k
    · simp [replace, get?, hk]
    · simp only [get?, if_neg hk] at h
      simp [replace, get?, hk, ih h]

theorem get?_replace_ne (t : Tab α) {k j : Nat} (v : α) (h : j ≠ k) : get? (replace t k v) j = get? t j := by
  induction t with
  | nil => rfl
  | cons e t ih =>
    obtain ⟨k', v'⟩ := e
    by_cases hk : k' = k
    · subst hk; simp [replace, get?, h.symm]
    · simp [replace, get?, hk, ih]

theorem get?_insert_same {t : Tab α} {k : Nat} (v : α) (h : get? t k = none) : get? (insert t k v) k = some v := by
  induction t with
  | nil => simp [insert, get?]
  | cons e t ih =>
    obtain ⟨k', v'⟩ := e
    by_cases hk : k' = k
    · simp [get?, hk] at h
    · simp only [get?, if_neg hk] at h
      simp only [insert]
      split
      · simp [get?]
      · simp [get?, hk, ih h]

theorem get?_insert_ne (t : Tab α) {k j : Nat} (v : α) (h : j ≠ k) : get? (insert t k v) j = get? t j := by
  induction t with
  | nil => simp [insert, get?, h.symm]
  | cons e t ih =>
    obtain ⟨k', v'⟩ := e
    simp only [insert]
    split
    · simp [get?, h.symm]
    · simp [get?, ih]

/-- A read after a write to the same key gives the value written. -/
@[simp] theorem get?_put_same (t : Tab α) (k : Nat) (v : α) : get? (put t k v) k = some v := by
  unfold put; split
  · exact get?_replace_same v (by assumption)
  · exact get?_insert_same v (by rename_i hn; simpa using hn)

/-- A write leaves every other key alone. -/
theorem get?_put_ne (t : Tab α) {k j : Nat} (v : α) (h : j ≠ k) : get? (put t k v) j = get? t j := by
  unfold put; split
  · exact get?_replace_ne t v h
  · exact get?_insert_ne t v h

@[simp] theorem get?_del_same (t : Tab α) (k : Nat) : get? (del t k) k = none := by
  induction t with
  | nil => rfl
  | cons e t ih =>
    obtain ⟨k', v'⟩ := e
    by_cases hk : k' = k
    · simp only [del] at ih; simp [del, hk, ih]
    · simp only [del] at ih; simp [del, get?, hk, ih]

theorem get?_del_ne (t : Tab α) {k j : Nat} (h : j ≠ k) : get? (del t k) j = get? t j := by
  induction t with
  | nil => rfl
  | cons e t ih =>
    obtain ⟨k', v'⟩ := e
    by_cases hk : k' = k
    · subst hk; simp only [del] at ih; simp [del, get?, ih, h.symm]
    · simp only [del] at ih; simp [del, get?, hk, ih]

/-- A read after a canonical write to the same key gives the value written. -/
@[simp] theorem getD_putD_same [DecidableEq α] (t : Tab α) (k : Nat) (v d : α) : getD (putD t k v d) k d = v := by
  unfold getD putD; split
  · rw [get?_del_same]; subst v; rfl
  · rw [get?_put_same]; rfl

/-- A canonical write leaves every other key alone. -/
theorem get?_putD_ne [DecidableEq α] (t : Tab α) {k j : Nat} (v d : α) (h : j ≠ k) : get? (putD t k v d) j = get? t j := by
  unfold putD; split
  · exact get?_del_ne t h
  · exact get?_put_ne t v h

theorem getD_putD_ne [DecidableEq α] (t : Tab α) {k j : Nat} (v d e : α) (h : j ≠ k) : getD (putD t k v d) j e = getD t j e := by
  unfold getD; rw [get?_putD_ne t v d h]

/-! ### The order of keys -/

theorem sortedFrom_mono {lo lo' : Nat} (h : lo' ≤ lo) {t : Tab α} (hs : sortedFrom lo t = true) : sortedFrom lo' t = true := by
  cases t with
  | nil => rfl
  | cons e t =>
    simp only [sortedFrom, Bool.and_eq_true, decide_eq_true_eq] at hs ⊢
    exact ⟨by omega, hs.2⟩

theorem get?_below {lo j : Nat} (h : j < lo) {t : Tab α} (hs : sortedFrom lo t = true) : get? t j = none := by
  induction t generalizing lo with
  | nil => rfl
  | cons e t ih =>
    simp only [sortedFrom, Bool.and_eq_true, decide_eq_true_eq] at hs
    rw [get?, if_neg (by omega)]
    exact ih (by omega) hs.2

theorem sortedFrom_replace {lo k : Nat} (t : Tab α) (v : α) (hs : sortedFrom lo t = true) : sortedFrom lo (replace t k v) = true := by
  induction t generalizing lo with
  | nil => rfl
  | cons e t ih =>
    simp only [sortedFrom, Bool.and_eq_true, decide_eq_true_eq] at hs
    simp only [replace]
    split
    · subst k; simp [sortedFrom, hs.1, hs.2]
    · simp [sortedFrom, hs.1, ih hs.2]

theorem sortedFrom_insert {lo k : Nat} {t : Tab α} (v : α) (hk : lo ≤ k) (hn : get? t k = none) (hs : sortedFrom lo t = true) :
    sortedFrom lo (insert t k v) = true := by
  induction t generalizing lo with
  | nil => simp [insert, sortedFrom, hk]
  | cons e t ih =>
    obtain ⟨k', v'⟩ := e
    simp only [sortedFrom, Bool.and_eq_true, decide_eq_true_eq] at hs
    have hne : k' ≠ k := by intro h; simp [get?, h] at hn
    simp only [get?, if_neg hne] at hn
    simp only [insert]
    split
    · simp only [sortedFrom, Bool.and_eq_true, decide_eq_true_eq]; exact ⟨hk, by omega, hs.2⟩
    · simp only [sortedFrom, Bool.and_eq_true, decide_eq_true_eq]; exact ⟨hs.1, ih (by omega) hn hs.2⟩

theorem sorted_put (t : Tab α) (k : Nat) (v : α) (hs : sorted t = true) : sorted (put t k v) = true := by
  unfold put; split
  · exact sortedFrom_replace t v hs
  · exact sortedFrom_insert v (Nat.zero_le k) (by rename_i hn; simpa using hn) hs

theorem sortedFrom_filter {lo : Nat} (t : Tab α) (f : Nat × α → Bool) (hs : sortedFrom lo t = true) : sortedFrom lo (t.filter f) = true := by
  induction t generalizing lo with
  | nil => rfl
  | cons e t ih =>
    simp only [sortedFrom, Bool.and_eq_true, decide_eq_true_eq] at hs
    simp only [List.filter_cons]
    split
    · simp [sortedFrom, hs.1, ih hs.2]
    · exact sortedFrom_mono (by omega) (ih hs.2)

theorem sorted_putD [DecidableEq α] (t : Tab α) (k : Nat) (v d : α) (hs : sorted t = true) : sorted (putD t k v d) = true := by
  unfold putD; split
  · exact sortedFrom_filter t _ hs
  · exact sorted_put t k v hs

theorem all_replace (t : Tab α) (k : Nat) (v : α) (f : Nat × α → Bool) (hv : f (k, v) = true) (ht : t.all f = true) : (replace t k v).all f = true := by
  induction t with
  | nil => rfl
  | cons e t ih =>
    simp only [List.all_cons, Bool.and_eq_true] at ht
    simp only [replace]
    split
    · simp [hv, ht.2]
    · simp [ht.1, ih ht.2]

theorem all_insert (t : Tab α) (k : Nat) (v : α) (f : Nat × α → Bool) (hv : f (k, v) = true) (ht : t.all f = true) : (insert t k v).all f = true := by
  induction t with
  | nil => simp [insert, hv]
  | cons e t ih =>
    have ht' := ht
    simp only [List.all_cons, Bool.and_eq_true] at ht
    simp only [insert]
    split
    · simp only [List.all_cons, hv, Bool.true_and]; simpa using ht'
    · simp [ht.1, ih ht.2]

theorem all_put (t : Tab α) (k : Nat) (v : α) (f : Nat × α → Bool) (hv : f (k, v) = true) (ht : t.all f = true) : (put t k v).all f = true := by
  unfold put; split
  · exact all_replace t k v f hv ht
  · exact all_insert t k v f hv ht

theorem all_del (t : Tab α) (k : Nat) (f : Nat × α → Bool) (ht : t.all f = true) : (del t k).all f = true := by
  simp only [List.all_eq_true, del, List.mem_filter] at ht ⊢
  exact fun x hx => ht x hx.1

theorem put_head {t : Tab α} {k : Nat} (v : α) (h : sortedFrom (k + 1) t = true) : put t k v = (k, v) :: t := by
  rw [put, if_neg (by rw [get?_below (Nat.lt_succ_self k) h]; simp)]
  cases t with
  | nil => rfl
  | cons e t =>
    obtain ⟨k', v'⟩ := e
    simp only [sortedFrom, Bool.and_eq_true, decide_eq_true_eq] at h
    simp only [insert]
    rw [if_pos (by omega)]

end Tab

namespace Mem

/-- Writing one byte keeps the canonical form. -/
theorem write_wf (m : Mem) (a : Nat) (b : Byte) (h : m.wf = true) : (m.write a b).wf = true := by
  simp only [wf, Bool.and_eq_true] at h ⊢
  refine ⟨Tab.sorted_putD m a b 0 h.1, ?_⟩
  unfold write Tab.putD; split
  · exact Tab.all_del m a _ h.2
  · rename_i hb; exact Tab.all_put m a b _ (by simpa using hb) h.2

/-- Writing bytes keeps the canonical form. -/
theorem writeN_wf (m : Mem) (a : Nat) (bs : List Byte) (h : m.wf = true) : (m.writeN a bs).wf = true := by
  induction bs generalizing m a with
  | nil => exact h
  | cons b bs ih => exact ih _ _ (write_wf m a b h)

/-- Bringing a memory to its canonical form gives it that form. -/
theorem canon_wf (m : Mem) : m.canon.wf = true := by
  induction m with
  | nil => rfl
  | cons e m ih => exact write_wf _ _ _ ih

/-- A memory in canonical form stays as it is. -/
theorem canon_of_wf (m : Mem) (h : m.wf = true) : m.canon = m := by
  suffices ∀ lo, Tab.sortedFrom lo m = true → (m.all fun e => e.2 != 0) = true → m.canon = m by
    simp only [wf, Bool.and_eq_true] at h
    exact this 0 h.1 h.2
  clear h
  induction m with
  | nil => intros; rfl
  | cons e m ih =>
    obtain ⟨k, v⟩ := e
    intro lo hs ha
    simp only [Tab.sortedFrom, Bool.and_eq_true, decide_eq_true_eq] at hs
    simp only [List.all_cons, Bool.and_eq_true, bne_iff_ne] at ha
    have hm := ih (k + 1) hs.2 ha.2
    show Tab.putD (canon m) k v 0 = _
    rw [hm, Tab.putD, if_neg ha.1, Tab.put_head v hs.2]

/-- A byte reads back as written. -/
@[simp] theorem read_write_same (m : Mem) (a : Nat) (b : Byte) : (m.write a b).read a = b := Tab.getD_putD_same m a b 0

/-- Writing a byte leaves every other byte alone. -/
theorem read_write_ne (m : Mem) {a c : Nat} (b : Byte) (hc : c ≠ a) : (m.write a b).read c = m.read c := Tab.getD_putD_ne m b 0 0 hc

/-- Bringing a memory to its canonical form changes no byte. -/
@[simp] theorem read_canon (m : Mem) (a : Nat) : m.canon.read a = m.read a := by
  induction m with
  | nil => rfl
  | cons e m ih =>
    obtain ⟨k, v⟩ := e
    show Mem.read (Mem.write (canon m) k v) a = _
    by_cases h : a = k
    · subst h; rw [read_write_same]; simp [read, Tab.getD, Tab.get?]
    · rw [read_write_ne _ v h, ih]; simp [read, Tab.getD, Tab.get?, Ne.symm h]

@[simp] theorem readN_canon (m : Mem) (a n : Nat) : m.canon.readN a n = m.readN a n := by
  induction n generalizing a with
  | zero => rfl
  | succ n ih => simp [readN, ih]

/-- Bytes outside the written ones stay as they were. -/
theorem read_writeN_out (m : Mem) (a : Nat) (bs : List Byte) (c : Nat) (hc : c < a ∨ a + bs.length ≤ c) : (m.writeN a bs).read c = m.read c := by
  induction bs generalizing m a with
  | nil => rfl
  | cons b bs ih =>
    simp only [List.length_cons] at hc
    rw [writeN, ih _ _ (by omega), read_write_ne m b (by omega)]

/-- Written bytes read back. -/
theorem readN_writeN (m : Mem) (a : Nat) (bs : List Byte) : (m.writeN a bs).readN a bs.length = bs := by
  induction bs generalizing m a with
  | nil => rfl
  | cons b bs ih =>
    have hb : (m.writeN a (b :: bs)).read a = b := by
      rw [writeN, read_writeN_out _ _ _ _ (by omega), read_write_same]
    simp only [List.length_cons, readN, hb]
    rw [writeN, ih]

end Mem

end Sys2Proof.Machine
end

