-- ==== Sys2Proof/Laws/State.lean ====
section
/-! SUPPORT. Laws of the state: what each named update leaves alone, and what a register reads after a write. -/

namespace Sys2Proof.Machine

/-! ### What each update of the shared part leaves alone -/

@[simp] theorem wr_frame (s : State) (p off : Nat) (v : Word) :
    (wr s p off v).sgl = s.sgl ∧ (wr s p off v).mem = s.mem ∧ (wr s p off v).flt = s.flt ∧ (wr s p off v).fch = s.fch ∧
    (wr s p off v).map = s.map ∧ (wr s p off v).str = s.str ∧ (wr s p off v).fer = s.fer ∧ (wr s p off v).key = s.key ∧
    (wr s p off v).mte = s.mte ∧ (wr s p off v).nel = s.nel ∧ (wr s p off v).dis = s.dis ∧ (wr s p off v).cvn = s.cvn ∧
    (wr s p off v).hst = s.hst ∧ (wr s p off v).bot = s.bot ∧ (wr s p off v).prg = s.prg ∧ (wr s p off v).tol = s.tol ∧
    (wr s p off v).pwr = s.pwr ∧ (wr s p off v).spn = s.spn ∧ (wr s p off v).pending = s.pending ∧ (wr s p off v).com.chip = s.com.chip ∧
    (wr s p off v).com.time = s.com.time ∧ (wr s p off v).com.slew = s.com.slew ∧ (wr s p off v).com.lbFired = s.com.lbFired ∧ (wr s p off v).com.epochs = s.com.epochs ∧
    (wr s p off v).com.log = s.com.log ∧ (wr s p off v).com.since = s.com.since ∧ (wr s p off v).com.stamp = s.com.stamp ∧ (wr s p off v).com.smart = s.com.smart ∧
    (wr s p off v).com.async = s.com.async ∧ (wr s p off v).com.injecting = s.com.injecting ∧ (wr s p off v).com.hmb = s.com.hmb ∧ (wr s p off v).com.outbox = s.com.outbox ∧
    (wr s p off v).com.bus = s.com.bus ∧ (wr s p off v).com.answer = s.com.answer ∧ (wr s p off v).com.free = s.com.free :=
  ⟨rfl, rfl, rfl, rfl, rfl, rfl, rfl, rfl, rfl, rfl, rfl, rfl, rfl, rfl, rfl, rfl, rfl, rfl, rfl, rfl, rfl, rfl, rfl, rfl, rfl, rfl, rfl, rfl, rfl, rfl, rfl, rfl, rfl, rfl, rfl⟩

@[simp] theorem wrForce_frame (s : State) (p off : Nat) (v : Word) :
    (wrForce s p off v).sgl = s.sgl ∧ (wrForce s p off v).mem = s.mem ∧ (wrForce s p off v).flt = s.flt ∧ (wrForce s p off v).fch = s.fch ∧
    (wrForce s p off v).map = s.map ∧ (wrForce s p off v).str = s.str ∧ (wrForce s p off v).fer = s.fer ∧ (wrForce s p off v).key = s.key ∧
    (wrForce s p off v).mte = s.mte ∧ (wrForce s p off v).nel = s.nel ∧ (wrForce s p off v).dis = s.dis ∧ (wrForce s p off v).cvn = s.cvn ∧
    (wrForce s p off v).hst = s.hst ∧ (wrForce s p off v).bot = s.bot ∧ (wrForce s p off v).prg = s.prg ∧ (wrForce s p off v).tol = s.tol ∧
    (wrForce s p off v).pwr = s.pwr ∧ (wrForce s p off v).spn = s.spn ∧ (wrForce s p off v).pending = s.pending ∧ (wrForce s p off v).com.chip = s.com.chip ∧
    (wrForce s p off v).com.time = s.com.time ∧ (wrForce s p off v).com.slew = s.com.slew ∧ (wrForce s p off v).com.lbFired = s.com.lbFired ∧ (wrForce s p off v).com.epochs = s.com.epochs ∧
    (wrForce s p off v).com.log = s.com.log ∧ (wrForce s p off v).com.since = s.com.since ∧ (wrForce s p off v).com.stamp = s.com.stamp ∧ (wrForce s p off v).com.smart = s.com.smart ∧
    (wrForce s p off v).com.async = s.com.async ∧ (wrForce s p off v).com.injecting = s.com.injecting ∧ (wrForce s p off v).com.hmb = s.com.hmb ∧ (wrForce s p off v).com.outbox = s.com.outbox ∧
    (wrForce s p off v).com.bus = s.com.bus ∧ (wrForce s p off v).com.answer = s.com.answer ∧ (wrForce s p off v).com.free = s.com.free :=
  ⟨rfl, rfl, rfl, rfl, rfl, rfl, rfl, rfl, rfl, rfl, rfl, rfl, rfl, rfl, rfl, rfl, rfl, rfl, rfl, rfl, rfl, rfl, rfl, rfl, rfl, rfl, rfl, rfl, rfl, rfl, rfl, rfl, rfl, rfl, rfl⟩

@[simp] theorem wrF_frame (s : State) (p off hi lo v : Nat) :
    (wrF s p off hi lo v).sgl = s.sgl ∧ (wrF s p off hi lo v).mem = s.mem ∧ (wrF s p off hi lo v).flt = s.flt ∧ (wrF s p off hi lo v).fch = s.fch ∧
    (wrF s p off hi lo v).map = s.map ∧ (wrF s p off hi lo v).str = s.str ∧ (wrF s p off hi lo v).fer = s.fer ∧ (wrF s p off hi lo v).key = s.key ∧
    (wrF s p off hi lo v).mte = s.mte ∧ (wrF s p off hi lo v).nel = s.nel ∧ (wrF s p off hi lo v).dis = s.dis ∧ (wrF s p off hi lo v).cvn = s.cvn ∧
    (wrF s p off hi lo v).hst = s.hst ∧ (wrF s p off hi lo v).bot = s.bot ∧ (wrF s p off hi lo v).prg = s.prg ∧ (wrF s p off hi lo v).tol = s.tol ∧
    (wrF s p off hi lo v).pwr = s.pwr ∧ (wrF s p off hi lo v).spn = s.spn ∧ (wrF s p off hi lo v).pending = s.pending ∧ (wrF s p off hi lo v).com.chip = s.com.chip ∧
    (wrF s p off hi lo v).com.time = s.com.time ∧ (wrF s p off hi lo v).com.slew = s.com.slew ∧ (wrF s p off hi lo v).com.lbFired = s.com.lbFired ∧ (wrF s p off hi lo v).com.epochs = s.com.epochs ∧
    (wrF s p off hi lo v).com.log = s.com.log ∧ (wrF s p off hi lo v).com.since = s.com.since ∧ (wrF s p off hi lo v).com.stamp = s.com.stamp ∧ (wrF s p off hi lo v).com.smart = s.com.smart ∧
    (wrF s p off hi lo v).com.async = s.com.async ∧ (wrF s p off hi lo v).com.injecting = s.com.injecting ∧ (wrF s p off hi lo v).com.hmb = s.com.hmb ∧ (wrF s p off hi lo v).com.outbox = s.com.outbox ∧
    (wrF s p off hi lo v).com.bus = s.com.bus ∧ (wrF s p off hi lo v).com.answer = s.com.answer ∧ (wrF s p off hi lo v).com.free = s.com.free :=
  ⟨rfl, rfl, rfl, rfl, rfl, rfl, rfl, rfl, rfl, rfl, rfl, rfl, rfl, rfl, rfl, rfl, rfl, rfl, rfl, rfl, rfl, rfl, rfl, rfl, rfl, rfl, rfl, rfl, rfl, rfl, rfl, rfl, rfl, rfl, rfl⟩

@[simp] theorem wrB_frame (s : State) (p off i : Nat) (b : Bool) :
    (wrB s p off i b).sgl = s.sgl ∧ (wrB s p off i b).mem = s.mem ∧ (wrB s p off i b).flt = s.flt ∧ (wrB s p off i b).fch = s.fch ∧
    (wrB s p off i b).map = s.map ∧ (wrB s p off i b).str = s.str ∧ (wrB s p off i b).fer = s.fer ∧ (wrB s p off i b).key = s.key ∧
    (wrB s p off i b).mte = s.mte ∧ (wrB s p off i b).nel = s.nel ∧ (wrB s p off i b).dis = s.dis ∧ (wrB s p off i b).cvn = s.cvn ∧
    (wrB s p off i b).hst = s.hst ∧ (wrB s p off i b).bot = s.bot ∧ (wrB s p off i b).prg = s.prg ∧ (wrB s p off i b).tol = s.tol ∧
    (wrB s p off i b).pwr = s.pwr ∧ (wrB s p off i b).spn = s.spn ∧ (wrB s p off i b).pending = s.pending ∧ (wrB s p off i b).com.chip = s.com.chip ∧
    (wrB s p off i b).com.time = s.com.time ∧ (wrB s p off i b).com.slew = s.com.slew ∧ (wrB s p off i b).com.lbFired = s.com.lbFired ∧ (wrB s p off i b).com.epochs = s.com.epochs ∧
    (wrB s p off i b).com.log = s.com.log ∧ (wrB s p off i b).com.since = s.com.since ∧ (wrB s p off i b).com.stamp = s.com.stamp ∧ (wrB s p off i b).com.smart = s.com.smart ∧
    (wrB s p off i b).com.async = s.com.async ∧ (wrB s p off i b).com.injecting = s.com.injecting ∧ (wrB s p off i b).com.hmb = s.com.hmb ∧ (wrB s p off i b).com.outbox = s.com.outbox ∧
    (wrB s p off i b).com.bus = s.com.bus ∧ (wrB s p off i b).com.answer = s.com.answer ∧ (wrB s p off i b).com.free = s.com.free :=
  ⟨rfl, rfl, rfl, rfl, rfl, rfl, rfl, rfl, rfl, rfl, rfl, rfl, rfl, rfl, rfl, rfl, rfl, rfl, rfl, rfl, rfl, rfl, rfl, rfl, rfl, rfl, rfl, rfl, rfl, rfl, rfl, rfl, rfl, rfl, rfl⟩

@[simp] theorem bump_frame (s : State) (p off n : Nat) :
    (bump s p off n).sgl = s.sgl ∧ (bump s p off n).mem = s.mem ∧ (bump s p off n).flt = s.flt ∧ (bump s p off n).fch = s.fch ∧
    (bump s p off n).map = s.map ∧ (bump s p off n).str = s.str ∧ (bump s p off n).fer = s.fer ∧ (bump s p off n).key = s.key ∧
    (bump s p off n).mte = s.mte ∧ (bump s p off n).nel = s.nel ∧ (bump s p off n).dis = s.dis ∧ (bump s p off n).cvn = s.cvn ∧
    (bump s p off n).hst = s.hst ∧ (bump s p off n).bot = s.bot ∧ (bump s p off n).prg = s.prg ∧ (bump s p off n).tol = s.tol ∧
    (bump s p off n).pwr = s.pwr ∧ (bump s p off n).spn = s.spn ∧ (bump s p off n).pending = s.pending ∧ (bump s p off n).com.chip = s.com.chip ∧
    (bump s p off n).com.time = s.com.time ∧ (bump s p off n).com.slew = s.com.slew ∧ (bump s p off n).com.lbFired = s.com.lbFired ∧ (bump s p off n).com.epochs = s.com.epochs ∧
    (bump s p off n).com.log = s.com.log ∧ (bump s p off n).com.since = s.com.since ∧ (bump s p off n).com.stamp = s.com.stamp ∧ (bump s p off n).com.smart = s.com.smart ∧
    (bump s p off n).com.async = s.com.async ∧ (bump s p off n).com.injecting = s.com.injecting ∧ (bump s p off n).com.hmb = s.com.hmb ∧ (bump s p off n).com.outbox = s.com.outbox ∧
    (bump s p off n).com.bus = s.com.bus ∧ (bump s p off n).com.answer = s.com.answer ∧ (bump s p off n).com.free = s.com.free :=
  ⟨rfl, rfl, rfl, rfl, rfl, rfl, rfl, rfl, rfl, rfl, rfl, rfl, rfl, rfl, rfl, rfl, rfl, rfl, rfl, rfl, rfl, rfl, rfl, rfl, rfl, rfl, rfl, rfl, rfl, rfl, rfl, rfl, rfl, rfl, rfl⟩

@[simp] theorem bumpF_frame (s : State) (p off hi lo n : Nat) :
    (bumpF s p off hi lo n).sgl = s.sgl ∧ (bumpF s p off hi lo n).mem = s.mem ∧ (bumpF s p off hi lo n).flt = s.flt ∧ (bumpF s p off hi lo n).fch = s.fch ∧
    (bumpF s p off hi lo n).map = s.map ∧ (bumpF s p off hi lo n).str = s.str ∧ (bumpF s p off hi lo n).fer = s.fer ∧ (bumpF s p off hi lo n).key = s.key ∧
    (bumpF s p off hi lo n).mte = s.mte ∧ (bumpF s p off hi lo n).nel = s.nel ∧ (bumpF s p off hi lo n).dis = s.dis ∧ (bumpF s p off hi lo n).cvn = s.cvn ∧
    (bumpF s p off hi lo n).hst = s.hst ∧ (bumpF s p off hi lo n).bot = s.bot ∧ (bumpF s p off hi lo n).prg = s.prg ∧ (bumpF s p off hi lo n).tol = s.tol ∧
    (bumpF s p off hi lo n).pwr = s.pwr ∧ (bumpF s p off hi lo n).spn = s.spn ∧ (bumpF s p off hi lo n).pending = s.pending ∧ (bumpF s p off hi lo n).com.chip = s.com.chip ∧
    (bumpF s p off hi lo n).com.time = s.com.time ∧ (bumpF s p off hi lo n).com.slew = s.com.slew ∧ (bumpF s p off hi lo n).com.lbFired = s.com.lbFired ∧ (bumpF s p off hi lo n).com.epochs = s.com.epochs ∧
    (bumpF s p off hi lo n).com.log = s.com.log ∧ (bumpF s p off hi lo n).com.since = s.com.since ∧ (bumpF s p off hi lo n).com.stamp = s.com.stamp ∧ (bumpF s p off hi lo n).com.smart = s.com.smart ∧
    (bumpF s p off hi lo n).com.async = s.com.async ∧ (bumpF s p off hi lo n).com.injecting = s.com.injecting ∧ (bumpF s p off hi lo n).com.hmb = s.com.hmb ∧ (bumpF s p off hi lo n).com.outbox = s.com.outbox ∧
    (bumpF s p off hi lo n).com.bus = s.com.bus ∧ (bumpF s p off hi lo n).com.answer = s.com.answer ∧ (bumpF s p off hi lo n).com.free = s.com.free :=
  ⟨rfl, rfl, rfl, rfl, rfl, rfl, rfl, rfl, rfl, rfl, rfl, rfl, rfl, rfl, rfl, rfl, rfl, rfl, rfl, rfl, rfl, rfl, rfl, rfl, rfl, rfl, rfl, rfl, rfl, rfl, rfl, rfl, rfl, rfl, rfl⟩

@[simp] theorem drop_frame (s : State) (p off n : Nat) :
    (drop s p off n).sgl = s.sgl ∧ (drop s p off n).mem = s.mem ∧ (drop s p off n).flt = s.flt ∧ (drop s p off n).fch = s.fch ∧
    (drop s p off n).map = s.map ∧ (drop s p off n).str = s.str ∧ (drop s p off n).fer = s.fer ∧ (drop s p off n).key = s.key ∧
    (drop s p off n).mte = s.mte ∧ (drop s p off n).nel = s.nel ∧ (drop s p off n).dis = s.dis ∧ (drop s p off n).cvn = s.cvn ∧
    (drop s p off n).hst = s.hst ∧ (drop s p off n).bot = s.bot ∧ (drop s p off n).prg = s.prg ∧ (drop s p off n).tol = s.tol ∧
    (drop s p off n).pwr = s.pwr ∧ (drop s p off n).spn = s.spn ∧ (drop s p off n).pending = s.pending ∧ (drop s p off n).com.chip = s.com.chip ∧
    (drop s p off n).com.time = s.com.time ∧ (drop s p off n).com.slew = s.com.slew ∧ (drop s p off n).com.lbFired = s.com.lbFired ∧ (drop s p off n).com.epochs = s.com.epochs ∧
    (drop s p off n).com.log = s.com.log ∧ (drop s p off n).com.since = s.com.since ∧ (drop s p off n).com.stamp = s.com.stamp ∧ (drop s p off n).com.smart = s.com.smart ∧
    (drop s p off n).com.async = s.com.async ∧ (drop s p off n).com.injecting = s.com.injecting ∧ (drop s p off n).com.hmb = s.com.hmb ∧ (drop s p off n).com.outbox = s.com.outbox ∧
    (drop s p off n).com.bus = s.com.bus ∧ (drop s p off n).com.answer = s.com.answer ∧ (drop s p off n).com.free = s.com.free :=
  ⟨rfl, rfl, rfl, rfl, rfl, rfl, rfl, rfl, rfl, rfl, rfl, rfl, rfl, rfl, rfl, rfl, rfl, rfl, rfl, rfl, rfl, rfl, rfl, rfl, rfl, rfl, rfl, rfl, rfl, rfl, rfl, rfl, rfl, rfl, rfl⟩

@[simp] theorem irq_frame (s : State) (p i : Nat) :
    (irq s p i).sgl = s.sgl ∧ (irq s p i).mem = s.mem ∧ (irq s p i).flt = s.flt ∧ (irq s p i).fch = s.fch ∧
    (irq s p i).map = s.map ∧ (irq s p i).str = s.str ∧ (irq s p i).fer = s.fer ∧ (irq s p i).key = s.key ∧
    (irq s p i).mte = s.mte ∧ (irq s p i).nel = s.nel ∧ (irq s p i).dis = s.dis ∧ (irq s p i).cvn = s.cvn ∧
    (irq s p i).hst = s.hst ∧ (irq s p i).bot = s.bot ∧ (irq s p i).prg = s.prg ∧ (irq s p i).tol = s.tol ∧
    (irq s p i).pwr = s.pwr ∧ (irq s p i).spn = s.spn ∧ (irq s p i).pending = s.pending ∧ (irq s p i).com.chip = s.com.chip ∧
    (irq s p i).com.time = s.com.time ∧ (irq s p i).com.slew = s.com.slew ∧ (irq s p i).com.lbFired = s.com.lbFired ∧ (irq s p i).com.epochs = s.com.epochs ∧
    (irq s p i).com.log = s.com.log ∧ (irq s p i).com.since = s.com.since ∧ (irq s p i).com.stamp = s.com.stamp ∧ (irq s p i).com.smart = s.com.smart ∧
    (irq s p i).com.async = s.com.async ∧ (irq s p i).com.injecting = s.com.injecting ∧ (irq s p i).com.hmb = s.com.hmb ∧ (irq s p i).com.outbox = s.com.outbox ∧
    (irq s p i).com.bus = s.com.bus ∧ (irq s p i).com.answer = s.com.answer ∧ (irq s p i).com.free = s.com.free :=
  ⟨rfl, rfl, rfl, rfl, rfl, rfl, rfl, rfl, rfl, rfl, rfl, rfl, rfl, rfl, rfl, rfl, rfl, rfl, rfl, rfl, rfl, rfl, rfl, rfl, rfl, rfl, rfl, rfl, rfl, rfl, rfl, rfl, rfl, rfl, rfl⟩

@[simp] theorem irqMask_frame (s : State) (p : Nat) (m : Word) :
    (irqMask s p m).sgl = s.sgl ∧ (irqMask s p m).mem = s.mem ∧ (irqMask s p m).flt = s.flt ∧ (irqMask s p m).fch = s.fch ∧
    (irqMask s p m).map = s.map ∧ (irqMask s p m).str = s.str ∧ (irqMask s p m).fer = s.fer ∧ (irqMask s p m).key = s.key ∧
    (irqMask s p m).mte = s.mte ∧ (irqMask s p m).nel = s.nel ∧ (irqMask s p m).dis = s.dis ∧ (irqMask s p m).cvn = s.cvn ∧
    (irqMask s p m).hst = s.hst ∧ (irqMask s p m).bot = s.bot ∧ (irqMask s p m).prg = s.prg ∧ (irqMask s p m).tol = s.tol ∧
    (irqMask s p m).pwr = s.pwr ∧ (irqMask s p m).spn = s.spn ∧ (irqMask s p m).pending = s.pending ∧ (irqMask s p m).com.chip = s.com.chip ∧
    (irqMask s p m).com.time = s.com.time ∧ (irqMask s p m).com.slew = s.com.slew ∧ (irqMask s p m).com.lbFired = s.com.lbFired ∧ (irqMask s p m).com.epochs = s.com.epochs ∧
    (irqMask s p m).com.log = s.com.log ∧ (irqMask s p m).com.since = s.com.since ∧ (irqMask s p m).com.stamp = s.com.stamp ∧ (irqMask s p m).com.smart = s.com.smart ∧
    (irqMask s p m).com.async = s.com.async ∧ (irqMask s p m).com.injecting = s.com.injecting ∧ (irqMask s p m).com.hmb = s.com.hmb ∧ (irqMask s p m).com.outbox = s.com.outbox ∧
    (irqMask s p m).com.bus = s.com.bus ∧ (irqMask s p m).com.answer = s.com.answer ∧ (irqMask s p m).com.free = s.com.free :=
  ⟨rfl, rfl, rfl, rfl, rfl, rfl, rfl, rfl, rfl, rfl, rfl, rfl, rfl, rfl, rfl, rfl, rfl, rfl, rfl, rfl, rfl, rfl, rfl, rfl, rfl, rfl, rfl, rfl, rfl, rfl, rfl, rfl, rfl, rfl, rfl⟩

@[simp] theorem bumpSince_frame (s : State) (p off n : Nat) :
    (bumpSince s p off n).sgl = s.sgl ∧ (bumpSince s p off n).mem = s.mem ∧ (bumpSince s p off n).flt = s.flt ∧ (bumpSince s p off n).fch = s.fch ∧
    (bumpSince s p off n).map = s.map ∧ (bumpSince s p off n).str = s.str ∧ (bumpSince s p off n).fer = s.fer ∧ (bumpSince s p off n).key = s.key ∧
    (bumpSince s p off n).mte = s.mte ∧ (bumpSince s p off n).nel = s.nel ∧ (bumpSince s p off n).dis = s.dis ∧ (bumpSince s p off n).cvn = s.cvn ∧
    (bumpSince s p off n).hst = s.hst ∧ (bumpSince s p off n).bot = s.bot ∧ (bumpSince s p off n).prg = s.prg ∧ (bumpSince s p off n).tol = s.tol ∧
    (bumpSince s p off n).pwr = s.pwr ∧ (bumpSince s p off n).spn = s.spn ∧ (bumpSince s p off n).pending = s.pending ∧ (bumpSince s p off n).com.chip = s.com.chip ∧
    (bumpSince s p off n).com.time = s.com.time ∧ (bumpSince s p off n).com.slew = s.com.slew ∧ (bumpSince s p off n).com.regs = s.com.regs ∧ (bumpSince s p off n).com.lbFired = s.com.lbFired ∧
    (bumpSince s p off n).com.epochs = s.com.epochs ∧ (bumpSince s p off n).com.log = s.com.log ∧ (bumpSince s p off n).com.stamp = s.com.stamp ∧ (bumpSince s p off n).com.smart = s.com.smart ∧
    (bumpSince s p off n).com.async = s.com.async ∧ (bumpSince s p off n).com.injecting = s.com.injecting ∧ (bumpSince s p off n).com.hmb = s.com.hmb ∧ (bumpSince s p off n).com.outbox = s.com.outbox ∧
    (bumpSince s p off n).com.bus = s.com.bus ∧ (bumpSince s p off n).com.answer = s.com.answer ∧ (bumpSince s p off n).com.free = s.com.free :=
  ⟨rfl, rfl, rfl, rfl, rfl, rfl, rfl, rfl, rfl, rfl, rfl, rfl, rfl, rfl, rfl, rfl, rfl, rfl, rfl, rfl, rfl, rfl, rfl, rfl, rfl, rfl, rfl, rfl, rfl, rfl, rfl, rfl, rfl, rfl, rfl⟩

@[simp] theorem takeFree_frame (s : State) :
    (takeFree s).sgl = s.sgl ∧ (takeFree s).mem = s.mem ∧ (takeFree s).flt = s.flt ∧ (takeFree s).fch = s.fch ∧
    (takeFree s).map = s.map ∧ (takeFree s).str = s.str ∧ (takeFree s).fer = s.fer ∧ (takeFree s).key = s.key ∧
    (takeFree s).mte = s.mte ∧ (takeFree s).nel = s.nel ∧ (takeFree s).dis = s.dis ∧ (takeFree s).cvn = s.cvn ∧
    (takeFree s).hst = s.hst ∧ (takeFree s).bot = s.bot ∧ (takeFree s).prg = s.prg ∧ (takeFree s).tol = s.tol ∧
    (takeFree s).pwr = s.pwr ∧ (takeFree s).spn = s.spn ∧ (takeFree s).pending = s.pending ∧ (takeFree s).com.chip = s.com.chip ∧
    (takeFree s).com.time = s.com.time ∧ (takeFree s).com.slew = s.com.slew ∧ (takeFree s).com.regs = s.com.regs ∧ (takeFree s).com.lbFired = s.com.lbFired ∧
    (takeFree s).com.epochs = s.com.epochs ∧ (takeFree s).com.log = s.com.log ∧ (takeFree s).com.since = s.com.since ∧ (takeFree s).com.stamp = s.com.stamp ∧
    (takeFree s).com.smart = s.com.smart ∧ (takeFree s).com.async = s.com.async ∧ (takeFree s).com.injecting = s.com.injecting ∧ (takeFree s).com.hmb = s.com.hmb ∧
    (takeFree s).com.outbox = s.com.outbox ∧ (takeFree s).com.bus = s.com.bus ∧ (takeFree s).com.answer = s.com.answer :=
  ⟨rfl, rfl, rfl, rfl, rfl, rfl, rfl, rfl, rfl, rfl, rfl, rfl, rfl, rfl, rfl, rfl, rfl, rfl, rfl, rfl, rfl, rfl, rfl, rfl, rfl, rfl, rfl, rfl, rfl, rfl, rfl, rfl, rfl, rfl, rfl⟩

@[simp] theorem smartSet_frame (s : State) (i : Nat) :
    (smartSet s i).sgl = s.sgl ∧ (smartSet s i).mem = s.mem ∧ (smartSet s i).flt = s.flt ∧ (smartSet s i).fch = s.fch ∧
    (smartSet s i).map = s.map ∧ (smartSet s i).str = s.str ∧ (smartSet s i).fer = s.fer ∧ (smartSet s i).key = s.key ∧
    (smartSet s i).mte = s.mte ∧ (smartSet s i).nel = s.nel ∧ (smartSet s i).dis = s.dis ∧ (smartSet s i).cvn = s.cvn ∧
    (smartSet s i).hst = s.hst ∧ (smartSet s i).bot = s.bot ∧ (smartSet s i).prg = s.prg ∧ (smartSet s i).tol = s.tol ∧
    (smartSet s i).pwr = s.pwr ∧ (smartSet s i).spn = s.spn ∧ (smartSet s i).pending = s.pending ∧ (smartSet s i).com.chip = s.com.chip ∧
    (smartSet s i).com.time = s.com.time ∧ (smartSet s i).com.slew = s.com.slew ∧ (smartSet s i).com.regs = s.com.regs ∧ (smartSet s i).com.lbFired = s.com.lbFired ∧
    (smartSet s i).com.epochs = s.com.epochs ∧ (smartSet s i).com.log = s.com.log ∧ (smartSet s i).com.since = s.com.since ∧ (smartSet s i).com.stamp = s.com.stamp ∧
    (smartSet s i).com.async = s.com.async ∧ (smartSet s i).com.injecting = s.com.injecting ∧ (smartSet s i).com.hmb = s.com.hmb ∧ (smartSet s i).com.outbox = s.com.outbox ∧
    (smartSet s i).com.bus = s.com.bus ∧ (smartSet s i).com.answer = s.com.answer ∧ (smartSet s i).com.free = s.com.free :=
  ⟨rfl, rfl, rfl, rfl, rfl, rfl, rfl, rfl, rfl, rfl, rfl, rfl, rfl, rfl, rfl, rfl, rfl, rfl, rfl, rfl, rfl, rfl, rfl, rfl, rfl, rfl, rfl, rfl, rfl, rfl, rfl, rfl, rfl, rfl, rfl⟩

@[simp] theorem smartClear_frame (s : State) (i : Nat) :
    (smartClear s i).sgl = s.sgl ∧ (smartClear s i).mem = s.mem ∧ (smartClear s i).flt = s.flt ∧ (smartClear s i).fch = s.fch ∧
    (smartClear s i).map = s.map ∧ (smartClear s i).str = s.str ∧ (smartClear s i).fer = s.fer ∧ (smartClear s i).key = s.key ∧
    (smartClear s i).mte = s.mte ∧ (smartClear s i).nel = s.nel ∧ (smartClear s i).dis = s.dis ∧ (smartClear s i).cvn = s.cvn ∧
    (smartClear s i).hst = s.hst ∧ (smartClear s i).bot = s.bot ∧ (smartClear s i).prg = s.prg ∧ (smartClear s i).tol = s.tol ∧
    (smartClear s i).pwr = s.pwr ∧ (smartClear s i).spn = s.spn ∧ (smartClear s i).pending = s.pending ∧ (smartClear s i).com.chip = s.com.chip ∧
    (smartClear s i).com.time = s.com.time ∧ (smartClear s i).com.slew = s.com.slew ∧ (smartClear s i).com.regs = s.com.regs ∧ (smartClear s i).com.lbFired = s.com.lbFired ∧
    (smartClear s i).com.epochs = s.com.epochs ∧ (smartClear s i).com.log = s.com.log ∧ (smartClear s i).com.since = s.com.since ∧ (smartClear s i).com.stamp = s.com.stamp ∧
    (smartClear s i).com.async = s.com.async ∧ (smartClear s i).com.injecting = s.com.injecting ∧ (smartClear s i).com.hmb = s.com.hmb ∧ (smartClear s i).com.outbox = s.com.outbox ∧
    (smartClear s i).com.bus = s.com.bus ∧ (smartClear s i).com.answer = s.com.answer ∧ (smartClear s i).com.free = s.com.free :=
  ⟨rfl, rfl, rfl, rfl, rfl, rfl, rfl, rfl, rfl, rfl, rfl, rfl, rfl, rfl, rfl, rfl, rfl, rfl, rfl, rfl, rfl, rfl, rfl, rfl, rfl, rfl, rfl, rfl, rfl, rfl, rfl, rfl, rfl, rfl, rfl⟩

@[simp] theorem answer_frame (s : State) (a : Answer) :
    (answer s a).sgl = s.sgl ∧ (answer s a).mem = s.mem ∧ (answer s a).flt = s.flt ∧ (answer s a).fch = s.fch ∧
    (answer s a).map = s.map ∧ (answer s a).str = s.str ∧ (answer s a).fer = s.fer ∧ (answer s a).key = s.key ∧
    (answer s a).mte = s.mte ∧ (answer s a).nel = s.nel ∧ (answer s a).dis = s.dis ∧ (answer s a).cvn = s.cvn ∧
    (answer s a).hst = s.hst ∧ (answer s a).bot = s.bot ∧ (answer s a).prg = s.prg ∧ (answer s a).tol = s.tol ∧
    (answer s a).pwr = s.pwr ∧ (answer s a).spn = s.spn ∧ (answer s a).pending = s.pending ∧ (answer s a).com.chip = s.com.chip ∧
    (answer s a).com.time = s.com.time ∧ (answer s a).com.slew = s.com.slew ∧ (answer s a).com.regs = s.com.regs ∧ (answer s a).com.lbFired = s.com.lbFired ∧
    (answer s a).com.epochs = s.com.epochs ∧ (answer s a).com.log = s.com.log ∧ (answer s a).com.since = s.com.since ∧ (answer s a).com.stamp = s.com.stamp ∧
    (answer s a).com.smart = s.com.smart ∧ (answer s a).com.async = s.com.async ∧ (answer s a).com.injecting = s.com.injecting ∧ (answer s a).com.hmb = s.com.hmb ∧
    (answer s a).com.outbox = s.com.outbox ∧ (answer s a).com.bus = s.com.bus ∧ (answer s a).com.free = s.com.free :=
  ⟨rfl, rfl, rfl, rfl, rfl, rfl, rfl, rfl, rfl, rfl, rfl, rfl, rfl, rfl, rfl, rfl, rfl, rfl, rfl, rfl, rfl, rfl, rfl, rfl, rfl, rfl, rfl, rfl, rfl, rfl, rfl, rfl, rfl, rfl, rfl⟩

@[simp] theorem putBus_frame (s : State) (b : Bus) :
    (putBus s b).sgl = s.sgl ∧ (putBus s b).mem = s.mem ∧ (putBus s b).flt = s.flt ∧ (putBus s b).fch = s.fch ∧
    (putBus s b).map = s.map ∧ (putBus s b).str = s.str ∧ (putBus s b).fer = s.fer ∧ (putBus s b).key = s.key ∧
    (putBus s b).mte = s.mte ∧ (putBus s b).nel = s.nel ∧ (putBus s b).dis = s.dis ∧ (putBus s b).cvn = s.cvn ∧
    (putBus s b).hst = s.hst ∧ (putBus s b).bot = s.bot ∧ (putBus s b).prg = s.prg ∧ (putBus s b).tol = s.tol ∧
    (putBus s b).pwr = s.pwr ∧ (putBus s b).spn = s.spn ∧ (putBus s b).pending = s.pending ∧ (putBus s b).com.chip = s.com.chip ∧
    (putBus s b).com.time = s.com.time ∧ (putBus s b).com.slew = s.com.slew ∧ (putBus s b).com.regs = s.com.regs ∧ (putBus s b).com.lbFired = s.com.lbFired ∧
    (putBus s b).com.epochs = s.com.epochs ∧ (putBus s b).com.log = s.com.log ∧ (putBus s b).com.since = s.com.since ∧ (putBus s b).com.stamp = s.com.stamp ∧
    (putBus s b).com.smart = s.com.smart ∧ (putBus s b).com.async = s.com.async ∧ (putBus s b).com.injecting = s.com.injecting ∧ (putBus s b).com.hmb = s.com.hmb ∧
    (putBus s b).com.outbox = s.com.outbox ∧ (putBus s b).com.answer = s.com.answer ∧ (putBus s b).com.free = s.com.free :=
  ⟨rfl, rfl, rfl, rfl, rfl, rfl, rfl, rfl, rfl, rfl, rfl, rfl, rfl, rfl, rfl, rfl, rfl, rfl, rfl, rfl, rfl, rfl, rfl, rfl, rfl, rfl, rfl, rfl, rfl, rfl, rfl, rfl, rfl, rfl, rfl⟩

@[simp] theorem advance_frame (s : State) (ns : Nat) :
    (advance s ns).sgl = s.sgl ∧ (advance s ns).mem = s.mem ∧ (advance s ns).flt = s.flt ∧ (advance s ns).fch = s.fch ∧
    (advance s ns).map = s.map ∧ (advance s ns).str = s.str ∧ (advance s ns).fer = s.fer ∧ (advance s ns).key = s.key ∧
    (advance s ns).mte = s.mte ∧ (advance s ns).nel = s.nel ∧ (advance s ns).dis = s.dis ∧ (advance s ns).cvn = s.cvn ∧
    (advance s ns).hst = s.hst ∧ (advance s ns).bot = s.bot ∧ (advance s ns).prg = s.prg ∧ (advance s ns).tol = s.tol ∧
    (advance s ns).pwr = s.pwr ∧ (advance s ns).spn = s.spn ∧ (advance s ns).pending = s.pending ∧ (advance s ns).com.chip = s.com.chip ∧
    (advance s ns).com.regs = s.com.regs ∧ (advance s ns).com.lbFired = s.com.lbFired ∧ (advance s ns).com.epochs = s.com.epochs ∧ (advance s ns).com.log = s.com.log ∧
    (advance s ns).com.since = s.com.since ∧ (advance s ns).com.stamp = s.com.stamp ∧ (advance s ns).com.smart = s.com.smart ∧ (advance s ns).com.async = s.com.async ∧
    (advance s ns).com.injecting = s.com.injecting ∧ (advance s ns).com.hmb = s.com.hmb ∧ (advance s ns).com.outbox = s.com.outbox ∧ (advance s ns).com.bus = s.com.bus ∧
    (advance s ns).com.answer = s.com.answer ∧ (advance s ns).com.free = s.com.free :=
  ⟨rfl, rfl, rfl, rfl, rfl, rfl, rfl, rfl, rfl, rfl, rfl, rfl, rfl, rfl, rfl, rfl, rfl, rfl, rfl, rfl, rfl, rfl, rfl, rfl, rfl, rfl, rfl, rfl, rfl, rfl, rfl, rfl, rfl, rfl⟩

@[simp] theorem stepForward_frame (s : State) (ns : Nat) :
    (stepForward s ns).sgl = s.sgl ∧ (stepForward s ns).mem = s.mem ∧ (stepForward s ns).flt = s.flt ∧ (stepForward s ns).fch = s.fch ∧
    (stepForward s ns).map = s.map ∧ (stepForward s ns).str = s.str ∧ (stepForward s ns).fer = s.fer ∧ (stepForward s ns).key = s.key ∧
    (stepForward s ns).mte = s.mte ∧ (stepForward s ns).nel = s.nel ∧ (stepForward s ns).dis = s.dis ∧ (stepForward s ns).cvn = s.cvn ∧
    (stepForward s ns).hst = s.hst ∧ (stepForward s ns).bot = s.bot ∧ (stepForward s ns).prg = s.prg ∧ (stepForward s ns).tol = s.tol ∧
    (stepForward s ns).pwr = s.pwr ∧ (stepForward s ns).spn = s.spn ∧ (stepForward s ns).pending = s.pending ∧ (stepForward s ns).com.chip = s.com.chip ∧
    (stepForward s ns).com.slew = s.com.slew ∧ (stepForward s ns).com.regs = s.com.regs ∧ (stepForward s ns).com.lbFired = s.com.lbFired ∧ (stepForward s ns).com.epochs = s.com.epochs ∧
    (stepForward s ns).com.log = s.com.log ∧ (stepForward s ns).com.since = s.com.since ∧ (stepForward s ns).com.stamp = s.com.stamp ∧ (stepForward s ns).com.smart = s.com.smart ∧
    (stepForward s ns).com.async = s.com.async ∧ (stepForward s ns).com.injecting = s.com.injecting ∧ (stepForward s ns).com.hmb = s.com.hmb ∧ (stepForward s ns).com.outbox = s.com.outbox ∧
    (stepForward s ns).com.bus = s.com.bus ∧ (stepForward s ns).com.answer = s.com.answer ∧ (stepForward s ns).com.free = s.com.free :=
  ⟨rfl, rfl, rfl, rfl, rfl, rfl, rfl, rfl, rfl, rfl, rfl, rfl, rfl, rfl, rfl, rfl, rfl, rfl, rfl, rfl, rfl, rfl, rfl, rfl, rfl, rfl, rfl, rfl, rfl, rfl, rfl, rfl, rfl, rfl, rfl⟩

@[simp] theorem setInjecting_frame (s : State) (b : Bool) :
    (setInjecting s b).sgl = s.sgl ∧ (setInjecting s b).mem = s.mem ∧ (setInjecting s b).flt = s.flt ∧ (setInjecting s b).fch = s.fch ∧
    (setInjecting s b).map = s.map ∧ (setInjecting s b).str = s.str ∧ (setInjecting s b).fer = s.fer ∧ (setInjecting s b).key = s.key ∧
    (setInjecting s b).mte = s.mte ∧ (setInjecting s b).nel = s.nel ∧ (setInjecting s b).dis = s.dis ∧ (setInjecting s b).cvn = s.cvn ∧
    (setInjecting s b).hst = s.hst ∧ (setInjecting s b).bot = s.bot ∧ (setInjecting s b).prg = s.prg ∧ (setInjecting s b).tol = s.tol ∧
    (setInjecting s b).pwr = s.pwr ∧ (setInjecting s b).spn = s.spn ∧ (setInjecting s b).pending = s.pending ∧ (setInjecting s b).com.chip = s.com.chip ∧
    (setInjecting s b).com.time = s.com.time ∧ (setInjecting s b).com.slew = s.com.slew ∧ (setInjecting s b).com.regs = s.com.regs ∧ (setInjecting s b).com.lbFired = s.com.lbFired ∧
    (setInjecting s b).com.epochs = s.com.epochs ∧ (setInjecting s b).com.log = s.com.log ∧ (setInjecting s b).com.since = s.com.since ∧ (setInjecting s b).com.stamp = s.com.stamp ∧
    (setInjecting s b).com.smart = s.com.smart ∧ (setInjecting s b).com.async = s.com.async ∧ (setInjecting s b).com.hmb = s.com.hmb ∧ (setInjecting s b).com.outbox = s.com.outbox ∧
    (setInjecting s b).com.bus = s.com.bus ∧ (setInjecting s b).com.answer = s.com.answer ∧ (setInjecting s b).com.free = s.com.free :=
  ⟨rfl, rfl, rfl, rfl, rfl, rfl, rfl, rfl, rfl, rfl, rfl, rfl, rfl, rfl, rfl, rfl, rfl, rfl, rfl, rfl, rfl, rfl, rfl, rfl, rfl, rfl, rfl, rfl, rfl, rfl, rfl, rfl, rfl, rfl, rfl⟩

@[simp] theorem setEpochs_frame (s : State) (p : Nat) (e : Epochs) :
    (setEpochs s p e).sgl = s.sgl ∧ (setEpochs s p e).mem = s.mem ∧ (setEpochs s p e).flt = s.flt ∧ (setEpochs s p e).fch = s.fch ∧
    (setEpochs s p e).map = s.map ∧ (setEpochs s p e).str = s.str ∧ (setEpochs s p e).fer = s.fer ∧ (setEpochs s p e).key = s.key ∧
    (setEpochs s p e).mte = s.mte ∧ (setEpochs s p e).nel = s.nel ∧ (setEpochs s p e).dis = s.dis ∧ (setEpochs s p e).cvn = s.cvn ∧
    (setEpochs s p e).hst = s.hst ∧ (setEpochs s p e).bot = s.bot ∧ (setEpochs s p e).prg = s.prg ∧ (setEpochs s p e).tol = s.tol ∧
    (setEpochs s p e).pwr = s.pwr ∧ (setEpochs s p e).spn = s.spn ∧ (setEpochs s p e).pending = s.pending ∧ (setEpochs s p e).com.chip = s.com.chip ∧
    (setEpochs s p e).com.time = s.com.time ∧ (setEpochs s p e).com.slew = s.com.slew ∧ (setEpochs s p e).com.lbFired = s.com.lbFired ∧ (setEpochs s p e).com.log = s.com.log ∧
    (setEpochs s p e).com.since = s.com.since ∧ (setEpochs s p e).com.stamp = s.com.stamp ∧ (setEpochs s p e).com.smart = s.com.smart ∧ (setEpochs s p e).com.async = s.com.async ∧
    (setEpochs s p e).com.injecting = s.com.injecting ∧ (setEpochs s p e).com.hmb = s.com.hmb ∧ (setEpochs s p e).com.outbox = s.com.outbox ∧ (setEpochs s p e).com.bus = s.com.bus ∧
    (setEpochs s p e).com.answer = s.com.answer ∧ (setEpochs s p e).com.free = s.com.free :=
  ⟨rfl, rfl, rfl, rfl, rfl, rfl, rfl, rfl, rfl, rfl, rfl, rfl, rfl, rfl, rfl, rfl, rfl, rfl, rfl, rfl, rfl, rfl, rfl, rfl, rfl, rfl, rfl, rfl, rfl, rfl, rfl, rfl, rfl, rfl⟩

@[simp] theorem passes_frame (s : State) (w : Initiator) (t : Target) :
    (passes s w t).sgl = s.sgl ∧ (passes s w t).mem = s.mem ∧ (passes s w t).flt = s.flt ∧ (passes s w t).fch = s.fch ∧
    (passes s w t).map = s.map ∧ (passes s w t).str = s.str ∧ (passes s w t).fer = s.fer ∧ (passes s w t).key = s.key ∧
    (passes s w t).mte = s.mte ∧ (passes s w t).nel = s.nel ∧ (passes s w t).dis = s.dis ∧ (passes s w t).cvn = s.cvn ∧
    (passes s w t).hst = s.hst ∧ (passes s w t).bot = s.bot ∧ (passes s w t).prg = s.prg ∧ (passes s w t).tol = s.tol ∧
    (passes s w t).pwr = s.pwr ∧ (passes s w t).spn = s.spn ∧ (passes s w t).pending = s.pending ∧ (passes s w t).com.chip = s.com.chip ∧
    (passes s w t).com.time = s.com.time ∧ (passes s w t).com.slew = s.com.slew ∧ (passes s w t).com.regs = s.com.regs ∧ (passes s w t).com.lbFired = s.com.lbFired ∧
    (passes s w t).com.epochs = s.com.epochs ∧ (passes s w t).com.log = s.com.log ∧ (passes s w t).com.since = s.com.since ∧ (passes s w t).com.stamp = s.com.stamp ∧
    (passes s w t).com.smart = s.com.smart ∧ (passes s w t).com.async = s.com.async ∧ (passes s w t).com.injecting = s.com.injecting ∧ (passes s w t).com.hmb = s.com.hmb ∧
    (passes s w t).com.outbox = s.com.outbox ∧ (passes s w t).com.answer = s.com.answer ∧ (passes s w t).com.free = s.com.free :=
  ⟨rfl, rfl, rfl, rfl, rfl, rfl, rfl, rfl, rfl, rfl, rfl, rfl, rfl, rfl, rfl, rfl, rfl, rfl, rfl, rfl, rfl, rfl, rfl, rfl, rfl, rfl, rfl, rfl, rfl, rfl, rfl, rfl, rfl, rfl, rfl⟩

@[simp] theorem sendOut_frame (s : State) (a : Nat) (b : List Byte) :
    (sendOut s a b).sgl = s.sgl ∧ (sendOut s a b).mem = s.mem ∧ (sendOut s a b).flt = s.flt ∧ (sendOut s a b).fch = s.fch ∧
    (sendOut s a b).map = s.map ∧ (sendOut s a b).str = s.str ∧ (sendOut s a b).fer = s.fer ∧ (sendOut s a b).key = s.key ∧
    (sendOut s a b).mte = s.mte ∧ (sendOut s a b).nel = s.nel ∧ (sendOut s a b).dis = s.dis ∧ (sendOut s a b).cvn = s.cvn ∧
    (sendOut s a b).hst = s.hst ∧ (sendOut s a b).bot = s.bot ∧ (sendOut s a b).prg = s.prg ∧ (sendOut s a b).tol = s.tol ∧
    (sendOut s a b).pwr = s.pwr ∧ (sendOut s a b).spn = s.spn ∧ (sendOut s a b).pending = s.pending ∧ (sendOut s a b).com.chip = s.com.chip ∧
    (sendOut s a b).com.time = s.com.time ∧ (sendOut s a b).com.slew = s.com.slew ∧ (sendOut s a b).com.regs = s.com.regs ∧ (sendOut s a b).com.lbFired = s.com.lbFired ∧
    (sendOut s a b).com.epochs = s.com.epochs ∧ (sendOut s a b).com.log = s.com.log ∧ (sendOut s a b).com.since = s.com.since ∧ (sendOut s a b).com.stamp = s.com.stamp ∧
    (sendOut s a b).com.smart = s.com.smart ∧ (sendOut s a b).com.async = s.com.async ∧ (sendOut s a b).com.injecting = s.com.injecting ∧ (sendOut s a b).com.hmb = s.com.hmb ∧
    (sendOut s a b).com.bus = s.com.bus ∧ (sendOut s a b).com.answer = s.com.answer ∧ (sendOut s a b).com.free = s.com.free :=
  ⟨rfl, rfl, rfl, rfl, rfl, rfl, rfl, rfl, rfl, rfl, rfl, rfl, rfl, rfl, rfl, rfl, rfl, rfl, rfl, rfl, rfl, rfl, rfl, rfl, rfl, rfl, rfl, rfl, rfl, rfl, rfl, rfl, rfl, rfl, rfl⟩

@[simp] theorem putCore_frame (s : State) (n : Fin 48) (x : Core) :
    (putCore s n x).sgl = s.sgl ∧ (putCore s n x).mem = s.mem ∧ (putCore s n x).flt = s.flt ∧ (putCore s n x).fch = s.fch ∧
    (putCore s n x).map = s.map ∧ (putCore s n x).str = s.str ∧ (putCore s n x).fer = s.fer ∧ (putCore s n x).key = s.key ∧
    (putCore s n x).mte = s.mte ∧ (putCore s n x).dis = s.dis ∧ (putCore s n x).cvn = s.cvn ∧ (putCore s n x).hst = s.hst ∧
    (putCore s n x).bot = s.bot ∧ (putCore s n x).prg = s.prg ∧ (putCore s n x).tol = s.tol ∧ (putCore s n x).pwr = s.pwr ∧
    (putCore s n x).spn = s.spn ∧ (putCore s n x).pending = s.pending :=
  ⟨rfl, rfl, rfl, rfl, rfl, rfl, rfl, rfl, rfl, rfl, rfl, rfl, rfl, rfl, rfl, rfl, rfl, rfl⟩

@[simp] theorem putClu_frame (s : State) (c : Clu) (x : Cluster) :
    (putClu s c x).sgl = s.sgl ∧ (putClu s c x).mem = s.mem ∧ (putClu s c x).flt = s.flt ∧ (putClu s c x).fch = s.fch ∧
    (putClu s c x).map = s.map ∧ (putClu s c x).str = s.str ∧ (putClu s c x).fer = s.fer ∧ (putClu s c x).key = s.key ∧
    (putClu s c x).mte = s.mte ∧ (putClu s c x).dis = s.dis ∧ (putClu s c x).cvn = s.cvn ∧ (putClu s c x).hst = s.hst ∧
    (putClu s c x).bot = s.bot ∧ (putClu s c x).prg = s.prg ∧ (putClu s c x).tol = s.tol ∧ (putClu s c x).pwr = s.pwr ∧
    (putClu s c x).spn = s.spn ∧ (putClu s c x).pending = s.pending :=
  ⟨rfl, rfl, rfl, rfl, rfl, rfl, rfl, rfl, rfl, rfl, rfl, rfl, rfl, rfl, rfl, rfl, rfl, rfl⟩

@[simp] theorem putCore_com (s : State) (n : Fin 48) (x : Core) : (putCore s n x).com = s.com ∧ (putCore s n x).nel.clusters = s.nel.clusters := ⟨rfl, rfl⟩

@[simp] theorem putClu_com (s : State) (c : Clu) (x : Cluster) : (putClu s c x).com = s.com ∧ (putClu s c x).nel.cores = s.nel.cores := ⟨rfl, rfl⟩

@[simp] theorem rd_bumpSince (s : State) (p' o n : Nat) (p off : Nat) : rd (bumpSince s p' o n) p off = rd s p off ∧ inForce (bumpSince s p' o n) p off = inForce s p off := ⟨rfl, rfl⟩

@[simp] theorem rd_takeFree (s : State)  (p off : Nat) : rd (takeFree s) p off = rd s p off ∧ inForce (takeFree s) p off = inForce s p off := ⟨rfl, rfl⟩

@[simp] theorem rd_smartSet (s : State) (i : Nat) (p off : Nat) : rd (smartSet s i) p off = rd s p off ∧ inForce (smartSet s i) p off = inForce s p off := ⟨rfl, rfl⟩

@[simp] theorem rd_smartClear (s : State) (i : Nat) (p off : Nat) : rd (smartClear s i) p off = rd s p off ∧ inForce (smartClear s i) p off = inForce s p off := ⟨rfl, rfl⟩

@[simp] theorem rd_answer (s : State) (a : Answer) (p off : Nat) : rd (answer s a) p off = rd s p off ∧ inForce (answer s a) p off = inForce s p off := ⟨rfl, rfl⟩

@[simp] theorem rd_putBus (s : State) (b : Bus) (p off : Nat) : rd (putBus s b) p off = rd s p off ∧ inForce (putBus s b) p off = inForce s p off := ⟨rfl, rfl⟩

@[simp] theorem rd_advance (s : State) (n : Nat) (p off : Nat) : rd (advance s n) p off = rd s p off ∧ inForce (advance s n) p off = inForce s p off := ⟨rfl, rfl⟩

@[simp] theorem rd_stepForward (s : State) (n : Nat) (p off : Nat) : rd (stepForward s n) p off = rd s p off ∧ inForce (stepForward s n) p off = inForce s p off := ⟨rfl, rfl⟩

@[simp] theorem rd_setInjecting (s : State) (b : Bool) (p off : Nat) : rd (setInjecting s b) p off = rd s p off ∧ inForce (setInjecting s b) p off = inForce s p off := ⟨rfl, rfl⟩

@[simp] theorem rd_passes (s : State) (w : Initiator) (t : Target) (p off : Nat) : rd (passes s w t) p off = rd s p off ∧ inForce (passes s w t) p off = inForce s p off := ⟨rfl, rfl⟩

@[simp] theorem rd_sendOut (s : State) (a : Nat) (b : List Byte) (p off : Nat) : rd (sendOut s a b) p off = rd s p off ∧ inForce (sendOut s a b) p off = inForce s p off := ⟨rfl, rfl⟩

@[simp] theorem rd_putCore (s : State) (n : Fin 48) (x : Core) (p off : Nat) : rd (putCore s n x) p off = rd s p off ∧ inForce (putCore s n x) p off = inForce s p off := ⟨rfl, rfl⟩

@[simp] theorem rd_putClu (s : State) (c : Clu) (x : Cluster) (p off : Nat) : rd (putClu s c x) p off = rd s p off ∧ inForce (putClu s c x) p off = inForce s p off := ⟨rfl, rfl⟩

/-! ### Registers -/

theorem rd_congr {s t : State} (hr : t.com.regs = s.com.regs) (hc : t.com.chip = s.com.chip) (p off : Nat) : rd t p off = rd s p off := by
  unfold rd; rw [hr, hc]

theorem inForce_congr {s t : State} (hr : t.com.regs = s.com.regs) (hc : t.com.chip = s.com.chip) (p off : Nat) : inForce t p off = inForce s p off := by
  unfold inForce; rw [hr, hc]

theorem regKey_inj {p off p' off' : Nat} (h : regKey p' off' = regKey p off) (ho : off < 4096) (ho' : off' < 4096) : p' = p ∧ off' = off := by
  unfold regKey at h; omega

/-- A register reads back as written. -/
@[simp] theorem rd_wr_same (s : State) (p off : Nat) (v : Word) : rd (wr s p off v) p off = v := by
  simp only [rd, wr]
  by_cases h : v = resetAt s.com.chip p off
  · simp [Tab.putD, h]
  · simp [Tab.putD, h]

/-- A write leaves every other register alone. -/
theorem rd_wr_ne (s : State) {p off p' off' : Nat} (v : Word) (h : regKey p' off' ≠ regKey p off) : rd (wr s p off v) p' off' = rd s p' off' := by
  simp only [rd, wr, Tab.get?_putD_ne _ _ _ h]

/-- What a register reads after a write of a register whose offset lies in its page. -/
theorem rd_wr (s : State) {p off p' off' : Nat} (v : Word) (ho : off < 4096) (ho' : off' < 4096) :
    rd (wr s p off v) p' off' = if p' = p ∧ off' = off then v else rd s p' off' := by
  split
  · rename_i h; rw [h.1, h.2, rd_wr_same]
  · rename_i h; exact rd_wr_ne s v fun hk => h (regKey_inj hk ho ho')

@[simp] theorem inForce_wr (s : State) (p off p' off' : Nat) (v : Word) : inForce (wr s p off v) p' off' = inForce s p' off' := rfl

@[simp] theorem rd_wrForce (s : State) (p off p' off' : Nat) (v : Word) : rd (wrForce s p off v) p' off' = rd s p' off' := rfl

@[simp] theorem inForce_wrF (s : State) (q off hi lo v : Nat) (p o : Nat) : inForce (wrF s q off hi lo v) p o = inForce s p o := by simp [wrF]

@[simp] theorem inForce_wrB (s : State) (q off i : Nat) (b : Bool) (p o : Nat) : inForce (wrB s q off i b) p o = inForce s p o := by simp [wrB]

@[simp] theorem inForce_bump (s : State) (q off n : Nat) (p o : Nat) : inForce (bump s q off n) p o = inForce s p o := by simp [bump]

@[simp] theorem inForce_bumpF (s : State) (q off hi lo n : Nat) (p o : Nat) : inForce (bumpF s q off hi lo n) p o = inForce s p o := by simp [bumpF]

@[simp] theorem inForce_drop (s : State) (q off n : Nat) (p o : Nat) : inForce (drop s q off n) p o = inForce s p o := by simp [drop]

@[simp] theorem inForce_irqMask (s : State) (q : Nat) (m : Word) (p o : Nat) : inForce (irqMask s q m) p o = inForce s p o := by simp [irqMask]

@[simp] theorem inForce_irq (s : State) (q i : Nat) (p o : Nat) : inForce (irq s q i) p o = inForce s p o := by simp [irq]

/-- Setting interrupt bits keeps those that were set (R51). -/
@[simp] theorem rd_irqMask (s : State) (p : Nat) (m : Word) : rd (irqMask s p m) p rIRQ_STATUS = rd s p rIRQ_STATUS ||| m := rd_wr_same _ _ _ _

@[simp] theorem rd_irq (s : State) (p i : Nat) : rd (irq s p i) p rIRQ_STATUS = rd s p rIRQ_STATUS ||| oneBit i := rd_wr_same _ _ _ _

@[simp] theorem rd_bump (s : State) (p off n : Nat) : rd (bump s p off n) p off = w32 (satAdd 0xFFFFFFFF (rd s p off).toNat n) := rd_wr_same _ _ _ _

/-! ### The parts a command may touch -/

/-- A command touches the parts it lists, the shared part, and nothing else. -/
theorem confine_agree (ps : List Part) (s t : State) : State.AgreeOutside ps s (confine ps s t) := by
  constructor <;> intros <;> simp_all [confine]

theorem touching_next (ps : List Part) (f : State → State) (s : State) : touching ps f s = .next (confine ps s (f s)) := rfl

theorem confine_com (ps : List Part) (s t : State) : (confine ps s t).com = t.com := rfl

theorem confine_pending (ps : List Part) (s t : State) : (confine ps s t).pending = s.pending := rfl

@[simp] theorem rd_confine (ps : List Part) (s t : State) (p off : Nat) : rd (confine ps s t) p off = rd t p off ∧ inForce (confine ps s t) p off = inForce t p off := ⟨rfl, rfl⟩

theorem Memory.canon_of_wf (m : Memory) (h : m.wf = true) : m.canon = m := by
  simp only [Memory.wf, Bool.and_eq_true] at h
  simp only [Memory.canon, Mem.canon_of_wf _ h.1.1.1, Mem.canon_of_wf _ h.1.1.2, Mem.canon_of_wf _ h.1.2, Mem.canon_of_wf _ h.2]

theorem Memory.canon_wf (m : Memory) : m.canon.wf = true := by simp [Memory.wf, Memory.canon, Mem.canon_wf]

theorem Nelius.canon_wf (x : Nelius) : x.canon.wf = true := by
  simp [Nelius.wf, Nelius.canon, Core.canon, Cluster.canon, Mem.canon_wf]

theorem Nelius.canon_of_wf (x : Nelius) (h : x.wf = true) : x.canon = x := by
  obtain ⟨cs, cl⟩ := x
  simp only [Nelius.wf, Bool.and_eq_true, List.all_eq_true, Vector.mem_toList_iff] at h
  have h1 : cs.map Core.canon = cs := by
    apply Vector.ext; intro i hi
    have := h.1 (cs[i]) (Vector.getElem_mem hi)
    simp [Core.canon, Mem.canon_of_wf _ this.1, Mem.canon_of_wf _ this.2]
  have h2 : cl.map Cluster.canon = cl := by
    apply Vector.ext; intro i hi
    have := h.2 (cl[i]) (Vector.getElem_mem hi)
    simp [Cluster.canon, Mem.canon_of_wf _ this]
  simp [Nelius.canon, h1, h2]

/-- Confining keeps every memory in its canonical form. -/
theorem confine_memWf (ps : List Part) (s t : State) (h : s.memWf = true) : (confine ps s t).memWf = true := by
  simp only [State.memWf, Bool.and_eq_true] at h ⊢
  constructor
  · show Memory.wf (if ps.contains .memP then t.mem.canon else s.mem) = true
    split
    · exact Memory.canon_wf _
    · exact h.1
  · show Nelius.wf (if ps.contains .nelP then t.nel.canon else s.nel) = true
    split
    · exact Nelius.canon_wf _
    · exact h.2

/-- A command that may touch every part gives the effect's own state, when that keeps the queue and the canonical forms. -/
theorem confine_allParts (s t : State) (hp : t.pending = s.pending) (hw : t.memWf = true) : confine allParts s t = t := by
  simp only [State.memWf, Bool.and_eq_true] at hw
  have h1 := Memory.canon_of_wf _ hw.1
  have h2 := Nelius.canon_of_wf _ hw.2
  cases t
  simp_all [confine, allParts]

/-! ### Cores -/

@[simp] theorem coreOf_putCore_same (s : State) (n : Fin 48) (x : Core) : coreOf (putCore s n x) n = x := by simp [coreOf, putCore]

theorem coreOf_putCore_ne (s : State) {n m : Fin 48} (x : Core) (h : m ≠ n) : coreOf (putCore s n x) m = coreOf s m := by
  have : n.val ≠ m.val := fun e => h (Fin.ext e.symm)
  simp [coreOf, putCore, this]

@[simp] theorem cluOf_putClu_same (s : State) (c : Clu) (x : Cluster) : cluOf (putClu s c x) c = x := by simp [cluOf, putClu]

@[simp] theorem cluNo_coreNo (c : Clu) (k : CoreIx) : cluNo (coreNo c k) = c := by
  apply Fin.ext; simp [cluNo, coreNo]; omega

@[simp] theorem coreIx_coreNo (c : Clu) (k : CoreIx) : coreIx (coreNo c k) = k := by
  apply Fin.ext; simp [coreIx, coreNo]

@[simp] theorem coreNo_div (c : Clu) (k : CoreIx) : (coreNo c k).val / 8 = c.val := by simp [coreNo]; omega

@[simp] theorem reg_setReg_same (x : Core) {i : RegIx} (v : Word) (h : i ≠ 0) : (x.setReg i v).reg i = v := by simp [Core.setReg, Core.reg, h]

/-- A write to w0 is discarded (R342). -/
@[simp] theorem setReg_zero (x : Core) (v : Word) : x.setReg 0 v = x := rfl

theorem reg_setReg_ne (x : Core) {i j : RegIx} (v : Word) (h : j ≠ i) : (x.setReg i v).reg j = x.reg j := by
  have : i.val ≠ j.val := fun e => h (Fin.ext e.symm)
  unfold Core.setReg
  split
  · rfl
  · simp [Core.reg, this]

/-- w0 reads as 0 (R342). -/
@[simp] theorem reg_zero (x : Core) : x.reg 0 = 0 := rfl

end Sys2Proof.Machine
end

