-- ==== Sys2Proof/Laws/Step.lean ====
section
/-! SUPPORT. What every command can do: one next state, confined to its footprint. -/

namespace Sys2Proof.Machine

/-- Every command answers one next state, confined to its footprint. -/
theorem exec_confined (c : Instr) (s : State) : ∃ u, exec c s = .next (confine (footprint c) s u) := by
  cases c <;> exact ⟨_, rfl⟩

/-- A command that may touch every part answers its effect's own state, when the effect keeps the queue and the canonical forms. -/
theorem touching_allParts (f : State → State) (s : State) (hp : (f s).pending = s.pending) (hw : (f s).memWf = true) :
    touching allParts f s = .next (f s) := by rw [touching_next, confine_allParts s (f s) hp hw]

end Sys2Proof.Machine
end

