-- ==== Sys2Proof/Laws/Nelius.lean ====
section
/-! SUPPORT. Laws of the Nelius cores: when an instruction issues, what completing it changes, and what a trap changes. -/

namespace Sys2Proof.Machine

theorem setInjecting_self (s : State) : setInjecting s s.com.injecting = s := rfl

theorem nclEscalate_self (s : State) (c : Clu) : nclEscalate s s c = s := by
  unfold nclEscalate; split
  · rename_i h; simp at h
  · rfl

theorem nclArmed_none (s : State) (n : Fin 48) (codes : List Nat) (h : (cluOf s (cluNo n)).inject = []) : nclArmed s n codes = (s, none) := by
  simp [nclArmed, h]

theorem tcmWord_sound (s : State) (n : Fin 48) (m : LocalMem) (off : Nat)
    (h : (if m = .itcm then (coreOf s n).itcmErr else (coreOf s n).dtcmErr).get? (off / 4) = none) : tcmWord s n m off = (s, true, false) := by
  simp only [tcmWord, h]

/-- An access of a sound TCM word of a cluster without armed injections changes nothing. -/
theorem tcmAccess_sound (s : State) (n : Fin 48) (m : LocalMem) (off : Nat) (codes : List Nat) (hi : (cluOf s (cluNo n)).inject = [])
    (h : (if m = .itcm then (coreOf s n).itcmErr else (coreOf s n).dtcmErr).get? (off / 4) = none) : tcmAccess s n m off codes = (s, true) := by
  unfold tcmAccess
  simp only [nclArmed_none s n codes hi, tcmWord_sound s n m off h, nclEscalate_self, setInjecting_self]

/-- What a core that can issue is. -/
theorem canIssue_iff (s : State) (c : Clu) (k : CoreIx) : canIssue s c k = true ↔
    (coreOf s (coreNo c k)).mode = .run ∧ pageUp s (pNCL c.val) = true ∧ (coreOf s (coreNo c k)).pc.toNat < 0x10000 ∧ (coreOf s (coreNo c k)).pc.toNat % 4 = 0
      ∧ ((coreOf s (coreNo c k)).psg = false ∨ inWindow (coreOf s (coreNo c k)).itw 26 ((coreOf s (coreNo c k)).pc.toNat / 64) = true)
      ∧ (coreOf s (coreNo c k)).itcmErr.get? ((coreOf s (coreNo c k)).pc.toNat / 4) = none ∧ (cluOf s c).inject = [] ∧ (cluOf s c).load = none := by
  simp [canIssue, and_assoc]

/-- A core that can issue fetches without a trap and without changing the state. -/
theorem fetch_ok {s : State} {c : Clu} {k : CoreIx} (h : canIssue s c k = true) : fetch s (coreNo c k) = (s, none) := by
  obtain ⟨_, _, hp, ha, hw, he, hi, _⟩ := (canIssue_iff s c k).mp h
  unfold fetch
  have : ((coreOf s (coreNo c k)).psg && !inWindow (coreOf s (coreNo c k)).itw 26 ((coreOf s (coreNo c k)).pc.toNat / 64)) = false := by
    rcases hw with hw | hw <;> simp [hw]
  simp only [this]
  rw [if_neg (by simp; omega), tcmAccess_sound s _ .itcm _ _ (by simpa using hi) (by simpa using he)]
  rfl

/-- A core that can issue runs its instruction. -/
theorem issue_ok {s : State} {c : Clu} {k : CoreIx} (h : canIssue s c k = true) (body : State → Fin 48 → State) :
    issue s c k body = loadProceed (body s (coreNo c k)) c := by
  obtain ⟨hm, hu, _⟩ := (canIssue_iff s c k).mp h
  unfold issue
  simp only [fetch_ok h, hm, hu]
  simp

theorem loadProceed_none {s : State} {c : Clu} (h : (cluOf s c).load = none) : loadProceed s c = s := by simp [loadProceed, h]

theorem canIssue_load {s : State} {c : Clu} {k : CoreIx} (h : canIssue s c k = true) : (cluOf s c).load = none := ((canIssue_iff s c k).mp h).2.2.2.2.2.2.2

theorem canIssue_run {s : State} {c : Clu} {k : CoreIx} (h : canIssue s c k = true) : (coreOf s (coreNo c k)).mode = .run := ((canIssue_iff s c k).mp h).1

theorem canIssue_inject {s : State} {c : Clu} {k : CoreIx} (h : canIssue s c k = true) : (cluOf s c).inject = [] := ((canIssue_iff s c k).mp h).2.2.2.2.2.2.1

/-- What setting a core and showing CORE_STATE leaves alone. -/
@[simp] theorem setCore_frame (s : State) (n : Fin 48) (x : Core) :
    (setCore s n x).mem = s.mem ∧ (setCore s n x).dis = s.dis ∧ (setCore s n x).pending = s.pending ∧ (setCore s n x).nel = (putCore s n x).nel
      ∧ (setCore s n x).com.chip = s.com.chip ∧ (setCore s n x).com.time = s.com.time ∧ (setCore s n x).com.injecting = s.com.injecting := ⟨rfl, rfl, rfl, rfl, rfl, rfl, rfl⟩

@[simp] theorem coreOf_setCore_same (s : State) (n : Fin 48) (x : Core) : coreOf (setCore s n x) n = x := coreOf_putCore_same s n x

@[simp] theorem cluOf_setCore (s : State) (n : Fin 48) (x : Core) (c : Clu) : cluOf (setCore s n x) c = cluOf s c := rfl

theorem setCore_memWf (s : State) (n : Fin 48) (x : Core) (h : s.memWf = true) (hi : x.itcm.wf = true) (hd : x.dtcm.wf = true) : (setCore s n x).memWf = true := by
  simp only [State.memWf, Nelius.wf, Bool.and_eq_true, List.all_eq_true, Vector.mem_toList_iff] at h ⊢
  refine ⟨h.1, ?_, h.2.2⟩
  intro y hy
  rcases Vector.mem_or_eq_of_mem_set (hi := n.isLt) hy with hy | hy
  · exact h.2.1 y hy
  · subst hy; exact ⟨hi, hd⟩

theorem coreOf_wf {s : State} (h : s.memWf = true) (n : Fin 48) : (coreOf s n).itcm.wf = true ∧ (coreOf s n).dtcm.wf = true := by
  simp only [State.memWf, Nelius.wf, Bool.and_eq_true, List.all_eq_true, Vector.mem_toList_iff] at h
  exact h.2.1 _ (Vector.getElem_mem _)

theorem finish_run (s : State) (n : Fin 48) (f : Core → Core) (h : (coreOf s n).mode = .run) :
    finish s n f = setCore s n { f (coreOf s n) with pc := (coreOf s n).pc + 4 } := by simp [finish, h]

@[simp] theorem setReg_frame (x : Core) (i : RegIx) (v : Word) :
    (x.setReg i v).pc = x.pc ∧ (x.setReg i v).itcm = x.itcm ∧ (x.setReg i v).dtcm = x.dtcm ∧ (x.setReg i v).mode = x.mode ∧ (x.setReg i v).runmode = x.runmode := by
  unfold Core.setReg; split <;> exact ⟨rfl, rfl, rfl, rfl, rfl⟩

/-- A command that only gives the issuing core new registers answers that state. -/
theorem issue_setCore {s : State} {c : Clu} {k : CoreIx} (hw : s.memWf = true) (h : canIssue s c k = true) (body : State → Fin 48 → State) (x : Core)
    (hb : body s (coreNo c k) = setCore s (coreNo c k) x) (hi : x.itcm = (coreOf s (coreNo c k)).itcm) (hd : x.dtcm = (coreOf s (coreNo c k)).dtcm) :
    touching allParts (fun s => issue s c k body) s = .next (setCore s (coreNo c k) x) := by
  have hr : issue s c k body = setCore s (coreNo c k) x := by
    rw [issue_ok h, hb, loadProceed_none (by rw [cluOf_setCore]; exact canIssue_load h)]
  have h2 := coreOf_wf hw (coreNo c k)
  rw [touching_allParts, hr]
  · rw [hr]; exact (setCore_frame _ _ _).2.2.1
  · rw [hr]; exact setCore_memWf s _ x hw (hi ▸ h2.1) (hd ▸ h2.2)

/-- What a trap leaves, when no handler runs (R357). -/
theorem trap_taken (s : State) (c : Clu) (k : CoreIx) (code sub : Nat) (addr : Option Word) (ret : Word) (hs : sub < 256) (h : (coreOf s (coreNo c k)).handler = false) :
    TrapTaken s (trap s (coreNo c k) code sub addr ret) c k code sub addr ret := by
  have hx : trap s (coreNo c k) code sub addr ret =
      bumpSince (bump (setCore s (coreNo c k) ((coreOf s (coreNo c k)).trapped code sub addr ret)) (pNCL c.val) NCL_TRAP_COUNT 1) (pNCL c.val) NCL_SNAP_TRAPS 1 := by
    unfold trap
    simp only [h, Bool.false_eq_true, if_false, coreNo_div, Core.trapped, Nat.mod_eq_of_lt hs, Nat.mul_comm sub 16]
  rw [hx]
  refine ⟨?_, ?_, ?_, by simp, by simp, by simp⟩
  · simp [putCore]
  · rw [(rd_bumpSince _ _ _ _ _ _).1, rd_bump]
    have : rd (setCore s (coreNo c k) ((coreOf s (coreNo c k)).trapped code sub addr ret)) (pNCL c.val) NCL_TRAP_COUNT = rd s (pNCL c.val) NCL_TRAP_COUNT := by
      unfold setCore showCores; rw [rd_wr _ _ (by decide) (by decide), if_neg (by simp [NCL_TRAP_COUNT, NCL_CORE_STATE])]; rfl
    rw [this]
  · intro p off hp ho hn
    simp only [List.mem_cons, Prod.mk.injEq, List.not_mem_nil, or_false, not_or] at hn
    constructor
    · rw [(rd_bumpSince _ _ _ _ _ _).1]
      unfold bump setCore showCores
      rw [rd_wr _ _ (by decide) ho, if_neg hn.1, rd_wr _ _ (by decide) ho, cluNo_coreNo, if_neg hn.2]; rfl
    · rw [(rd_bumpSince _ _ _ _ _ _).2]; simp [setCore, showCores]

end Sys2Proof.Machine
end

