-- ==== Sys2Proof/WellFormed.lean ====
section
/-! DEFINITION. Which commands are well formed: the bounds that the operands' types do not hold (R36, R120, R121, R166, R362). A command that is not well formed still has a meaning; no claim speaks of it as one a sender may send. -/

namespace Sys2Proof

/-- The bounds of a command's operands. -/
def Instr.wf : Instr → Bool
  | .registerWrite _ _ _ _ => true
  | .rcRegisterRead _ _ _ => true
  | .irqStatusWrite _ _ _ => true
  | .irqForce _ _ _ => true
  | .stageCommit _ _ _ => true
  | .stageCancel _ _ => true
  | .stageDiscard _ _ => true
  | .epochDrained _ => true
  | .applyTimeReached _ _ => true
  | .drainOverrun _ _ => true
  | .lbCountWrite _ _ _ => true
  | .lbLeak _ _ => true
  | .expertUnlockArm _ _ => true
  | .expertUnlockOpen _ _ => true
  | .expertUnlockExpiry _ _ => true
  | .expertUnlockEnd _ _ => true
  | .crossingAck _ _ => true
  | .landingRead _ off n => decide (0 < n) && decide (off.toNat + n ≤ 0x4000000)
  | .landingWrite _ off b => decide (0 < b.length) && decide (off.toNat + b.length ≤ 0x4000000)
  | .mergeEntryFlush _ => true
  | .mramRead _ off n => decide (0 < n) && decide (off.toNat + n ≤ 0x8000000)
  | .mramWrite _ off b => decide (0 < b.length) && decide (off.toNat + b.length ≤ 0x8000000)
  | .dramRead _ off n => decide (0 < n) && decide (off.toNat + n ≤ 0x8000000000)
  | .dramWrite _ off b => decide (0 < b.length) && decide (off.toNat + b.length ≤ 0x8000000000)
  | .dramMergeRmw _ => true
  | .timeLoRead _ => true
  | .ptmDialogue _ _ _ _ => true
  | .spanSyncEdge _ _ => true
  | .spanSyncMissing _ => true
  | .snapFire _ _ => true
  | .snapshotLatch _ _ => true
  | .entryOpRead _ => true
  | .entryOpArm _ => true
  | .entryOpCancel _ => true
  | .entryOpRelease _ => true
  | .launchDispatch _ => true
  | .snapLatchEarlySend _ => true
  | .launchOutcomeReturn _ => true
  | .commitStage _ => true
  | .checkpointBegin _ => true
  | .refreshAlign _ => true
  | .tokenRateSet _ => true
  | .spanEpoch _ => true
  | .programStart _ => true
  | .userEvent _ => true
  | .tokenSlotStart _ _ => true
  | .refreshInstant _ => true
  | .linkUp _ _ _ => true
  | .linkDown _ => true
  | .sqDoorbellWrite _ _ _ => true
  | .cqDoorbellWrite _ _ _ => true
  | .commandFetch _ _ _ => true
  | .wbHoldRelease _ => true
  | .completionPost _ _ => true
  | .deleteIoSq _ => true
  | .createIoSq _ => true
  | .deleteIoCq _ => true
  | .createIoCq _ => true
  | .getLogPage _ => true
  | .identify _ => true
  | .abort _ => true
  | .setFeatures _ _ => true
  | .getFeatures _ => true
  | .asyncEventRequest _ => true
  | .namespaceManagement _ _ => true
  | .namespaceAttachment _ _ => true
  | .firmwareImageDownload _ _ => true
  | .firmwareCommit _ _ => true
  | .deviceSelfTest _ => true
  | .directiveSend _ => true
  | .directiveReceive _ => true
  | .virtualizationManagement _ => true
  | .nvmeMiSend _ _ _ => true
  | .nvmeMiReceive _ => true
  | .formatNvm _ => true
  | .securitySend _ _ _ => true
  | .securityReceive _ => true
  | .sanitize _ => true
  | .getLbaStatus _ => true
  | .flush _ => true
  | .write _ _ _ => true
  | .read _ _ => true
  | .compare _ _ _ => true
  | .writeZeroes _ _ => true
  | .datasetManagement _ ranges => decide (ranges.length ≤ 4096) && ranges.length % 16 == 0
  | .verify _ _ => true
  | .reservationRegister _ _ => true
  | .reservationReport _ => true
  | .reservationAcquire _ _ => true
  | .reservationRelease _ _ => true
  | .copy _ _ _ => true
  | .spanQuery _ => true
  | .spanCreate _ _ => true
  | .spanJoin _ _ _ => true
  | .spanLeave _ => true
  | .spanWitness _ => true
  | .spanFence _ => true
  | .tollStatementRequest _ => true
  | .snapshotTriggerIssue _ => true
  | .snapshotTriggerWait _ => true
  | .launchTableRead _ => true
  | .launchTableArm _ _ => true
  | .launchTableCancel _ => true
  | .launchTableRelease _ => true
  | .retentionCreate _ _ => true
  | .retentionQuery _ _ => true
  | .retentionExtend _ _ => true
  | .retentionExpiry _ => true
  | .barchanQuery _ => true
  | .barchanSetLayout _ _ => true
  | .barchanSetShare _ => true
  | .barchanSpareDie _ => true
  | .barchanRebuild _ => true
  | .barchanResync _ => true
  | .powerStateEntryStep _ _ => true
  | .powerStateExit => true
  | .partitionReset _ => true
  | .mgmtRequest _ _ => true
  | .readNvmeMiDataStructure _ _ _ => true
  | .subsystemHealthStatusPoll _ _ => true
  | .controllerHealthStatusPoll _ _ => true
  | .configurationSet _ _ _ => true
  | .configurationGet _ _ => true
  | .vpdRead _ _ _ => true
  | .vpdWrite off bytes _ => decide (off.toNat + bytes.length ≤ 65536)
  | .nvmeMiReset _ _ _ => true
  | .tunnelledAdminCommand _ _ => true
  | .spdmRequest _ _ => true
  | .channelStart _ _ => true
  | .channelTraining _ _ => true
  | .trainingCheck _ _ drift => decide (drift.length ≤ 16)
  | .retrainAttempt _ _ _ => true
  | .dieReadIssue _ _ _ => true
  | .readAgePromotion _ _ _ => true
  | .tokenRequest _ _ => true
  | .eraseIssue _ _ => true
  | .dieSuspend _ _ _ => true
  | .dieResume _ _ _ => true
  | .dieOpComplete _ _ _ _ => true
  | .hardDecodeDone _ _ pass _ bytes => !pass || bytes.length == 4096
  | .softDecodeJobDone _ pass _ bytes => !pass || bytes.length == 4096
  | .ladderBudgetExpiry _ _ _ => true
  | .decoderSelfCheck _ _ => true
  | .dieTimeout _ _ => true
  | .fchTransientRetry _ _ _ _ => true
  | .retireReq _ _ _ => true
  | .mapLookup _ _ => true
  | .mapPageFill _ _ _ => true
  | .mapWriteBack _ _ _ => true
  | .hmwEnable _ => true
  | .mapChange _ => true
  | .journalRecordDurable => true
  | .journalRingFullHold => true
  | .blockStateChange _ _ => true
  | .migrationStart => true
  | .gcVictimSelect => true
  | .staticWearLevel _ => true
  | .throttleWindow _ => true
  | .bstSelWrite _ _ => true
  | .mapErrInject _ _ => true
  | .setOpen _ => true
  | .stripeMemberProgram _ _ => true
  | .stripeParityProgram _ => true
  | .stripeCloseAge _ _ => true
  | .stripeVerify _ _ => true
  | .stripeProgramFail _ _ => true
  | .rmwParityUpdate _ _ => true
  | .accumulatorUe _ => true
  | .stripeResync _ _ => true
  | .stripeReconstruct _ _ => true
  | .rebuildStart _ => true
  | .rebuildCensus _ => true
  | .rebuildRestoreBlock _ _ solutions => decide (solutions ≤ 32)
  | .rebuildPause _ => true
  | .copyOut _ => true
  | .rbSelWrite _ _ => true
  | .strErrInject _ _ => true
  | .pwrFail _ _ _ _ => true
  | .restartHoldExpiry _ _ => true
  | .ferryInject _ _ _ => true
  | .restartRecovery _ => true
  | .dramTraining _ _ => true
  | .dqsTracking _ _ _ => true
  | .mr4TempRead _ _ _ _ _ _ => true
  | .caParityAlert _ _ => true
  | .rankMigrationStep _ => true
  | .selfRefreshEntry _ => true
  | .selfRefreshExit _ => true
  | .dmcErrInject _ _ _ => true
  | .mramDieFail _ => true
  | .mramFrameAssign _ => true
  | .mramFrameSwap => true
  | .mramFrameRetire _ => true
  | .wearMeterRelease _ => true
  | .patrolScrubRead _ _ _ => true
  | .lndErrInject _ _ => true
  | .mrmErrInject _ _ => true
  | .add _ _ _ _ _ _ => true
  | .sub _ _ _ _ _ _ => true
  | .and _ _ _ _ _ _ => true
  | .or _ _ _ _ _ _ => true
  | .xor _ _ _ _ _ _ => true
  | .nor _ _ _ _ _ _ => true
  | .sll _ _ _ _ _ _ => true
  | .srl _ _ _ _ _ _ => true
  | .sra _ _ _ _ _ _ => true
  | .slt _ _ _ _ _ _ => true
  | .sltu _ _ _ _ _ _ => true
  | .rotr _ _ _ _ _ _ => true
  | .mul _ _ _ _ _ _ => true
  | .mulh _ _ _ _ _ _ => true
  | .mulhu _ _ _ _ _ _ => true
  | .div _ _ _ _ _ _ => true
  | .divu _ _ _ _ _ _ => true
  | .rem _ _ _ _ _ _ => true
  | .remu _ _ _ _ _ _ => true
  | .addi _ _ _ _ _ => true
  | .andi _ _ _ _ _ => true
  | .ori _ _ _ _ _ => true
  | .xori _ _ _ _ _ => true
  | .slti _ _ _ _ _ => true
  | .sltiu _ _ _ _ _ => true
  | .lui _ _ _ _ _ => true
  | .slli _ _ _ _ _ _ => true
  | .srli _ _ _ _ _ _ => true
  | .srai _ _ _ _ _ _ => true
  | .rotri _ _ _ _ _ _ => true
  | .lb _ _ _ _ _ _ => true
  | .lbu _ _ _ _ _ _ => true
  | .lh _ _ _ _ _ _ => true
  | .lhu _ _ _ _ _ _ => true
  | .lw _ _ _ _ _ _ => true
  | .lbP _ _ _ _ _ _ => true
  | .lbuP _ _ _ _ _ _ => true
  | .lhP _ _ _ _ _ _ => true
  | .lhuP _ _ _ _ _ _ => true
  | .lwP _ _ _ _ _ _ => true
  | .sb _ _ _ _ _ => true
  | .sh _ _ _ _ _ => true
  | .sw _ _ _ _ _ => true
  | .sbP _ _ _ _ _ => true
  | .shP _ _ _ _ _ => true
  | .swP _ _ _ _ _ => true
  | .cbEq _ _ _ _ _ => true
  | .cbNe _ _ _ _ _ => true
  | .cbLt _ _ _ _ _ => true
  | .cbGe _ _ _ _ _ => true
  | .cbLtu _ _ _ _ _ => true
  | .cbGeu _ _ _ _ _ => true
  | .bts _ _ _ _ _ => true
  | .btc _ _ _ _ _ => true
  | .cbiEq _ _ _ _ _ => true
  | .cbiNe _ _ _ _ _ => true
  | .cbiLt _ _ _ _ _ => true
  | .cbiGe _ _ _ _ _ => true
  | .cbiLtu _ _ _ _ _ => true
  | .cbiGeu _ _ _ _ _ => true
  | .j _ _ _ => true
  | .call _ _ _ => true
  | .ret _ _ _ => true
  | .jr _ _ _ _ => true
  | .callr _ _ _ _ => true
  | .mfs _ _ _ _ _ => true
  | .mts _ _ _ _ _ => true
  | .trap _ _ _ _ => true
  | .tret _ _ _ => true
  | .fence _ _ _ => true
  | .endw _ _ _ => true
  | .swap _ _ _ _ _ _ => true
  | .aadd _ _ _ _ _ _ => true
  | .aand _ _ _ _ _ _ => true
  | .aor _ _ _ _ _ _ => true
  | .cas _ _ _ _ _ _ => true
  | .mcx _ _ _ _ _ _ _ host => decide (host.length ≤ 256)
  | .clusterLoadStart _ _ _ => true
  | .coreReset _ _ _ => true
  | .coreRetire _ _ _ => true
  | .nclErrInject _ _ _ => true
  | .wiRead _ => true
  | .wiSubmitNew _ => true
  | .wiSubmit _ => true
  | .wiArm _ => true
  | .wiCancel _ => true
  | .wiRelease _ => true
  | .pageInterrupt _ => true
  | .dispatcherTick _ => true
  | .itemDispatch _ _ => true
  | .itemPreempt _ _ => true
  | .failNextRead _ => true
  | .histClear _ _ => true
  | .coreBusyLoRead _ => true
  | .disErrInject _ _ => true
  | .ringTailWrite _ _ _ _ => true
  | .ringCplHeadWrite _ _ _ _ => true
  | .caravanJobAdmit _ _ => true
  | .caravanJobStart _ _ _ => true
  | .caravanJobEnd _ _ _ => true
  | .caravanSuspend _ _ => true
  | .pathJobPost _ _ _ _ _ => true
  | .caravanRetire _ _ _ => true
  | .cvnErrInject _ _ _ => true
  | .matchLookup _ _ => true
  | .mteRead _ _ => true
  | .mteUpdate _ _ => true
  | .mteInvalidate _ _ => true
  | .mteInsert _ _ => true
  | .mteLookup _ _ => true
  | .mteSweep _ => true
  | .mteErrInject _ _ => true
  | .keyUnwrap _ _ => true
  | .keyStoreSuspend => true
  | .keyStoreRestore => true
  | .kopRead _ => true
  | .kopLoad _ => true
  | .kopGenerate _ => true
  | .kopClear _ => true
  | .kopPin _ => true
  | .kopUnpin _ => true
  | .kopLock _ => true
  | .kopUnlock _ => true
  | .kopRotate _ => true
  | .entropyHealthFail => true
  | .drbgReseed _ => true
  | .entropyRecovery => true
  | .keyErrInject _ _ => true
  | .dgeStart _ _ => true
  | .dgeFinish _ _ => true
  | .dgePause _ _ => true
  | .dgeResume _ _ => true
  | .dgeAbort _ _ => true
  | .dgeDataHiWrite _ _ _ => true
  | .dgeDmaDone _ _ => true
  | .dgeErrInject _ _ _ => true
  | .loadProgram _ _ => true
  | .programActivate _ => true
  | .programDeactivate _ => true
  | .memoryRangeSetCreate _ _ => true
  | .memoryRangeSetDelete _ => true
  | .executeProgram _ _ => true
  | .memoryRead _ => true
  | .memoryWrite _ _ => true
  | .memoryCopy _ _ _ => true
  | .ringPost _ _ => true
  | .ringAck _ _ => true
  | .matchOp _ _ => true
  | .time _ _ => true
  | .runLimitExpiry _ _ => true
  | .runEnd _ => true
  | .scanService _ _ => true
  | .scanSegmentFail _ _ _ _ => true
  | .scanOutputCopy _ _ => true
  | .kvStore _ _ => true
  | .kvRetrieve _ _ => true
  | .kvDelete _ => true
  | .kvExist _ => true
  | .kvList _ => true
  | .indexCreate _ _ => true
  | .indexDrop _ _ => true
  | .indexRange _ _ => true
  | .indexState _ _ => true
  | .bootSequence _ _ _ _ => true
  | .replicaCheck _ _ => true
  | .counterAdvance _ => true
  | .policyInstall _ _ => true
  | .counterAdvanceSend _ _ => true
  | .boardRecordWrite _ _ => true
  | .spanKeyInstall _ _ _ => true
  | .certificateChainsReceive _ => true
  | .policyReceive _ => true
  | .countersReceive _ => true
  | .boardRecordReceive _ => true
  | .bootRecordAppend _ _ => true
  | .snStart _ => true
  | .snFinish _ => true
  | .snAbort _ => true
  | .scpErrInject _ _ => true
  | .collectorEvent _ _ _ _ => true
  | .tapWordSend _ _ => true
  | .tapWordReceive _ _ _ => true
  | .meterSecond _ => true
  | .meterRecordsCommit _ => true
  | .tollFlush => true
  | .installAuditor _ _ _ _ _ _ => true
  | .periodAlign _ _ _ _ => true
  | .tenantClose _ _ _ _ => true
  | .scheduledStatement _ => true
  | .tollRequest => true
  | .statementFormed _ => true
  | .tolChunkSend _ => true
  | .tolPoll _ => true
  | .timeMark _ => true
  | .getInfo => true
  | .getCerts => true
  | .getStatement _ => true
  | .getExtract _ _ => true
  | .getAudit _ _ => true
  | .param _ _ _ _ _ _ _ => true
  | .data _ _ => true
  | .dataAck _ => true
  | .chunk _ _ => true
  | .chunkAck _ => true
  | .readReq _ _ _ => true
  | .readData _ _ _ => true
  | .replica _ _ _ => true
  | .replicaAck _ => true
  | .heartbeat _ _ _ => true
  | .heartbeatSend _ => true
  | .suspect _ _ => true
  | .propose _ _ => true
  | .vote _ _ => true
  | .commit _ _ _ => true
  | .witness _ _ => true
  | .groupAction _ _ => true
  | .spanMessageReceive _ _ _ _ _ _ => true
  | .gatherDeadline _ _ _ => true
  | .proposalTimeout _ => true
  | .peerTimeout _ _ => true
  | .hbMissExpiry _ _ => true
  | .coordinatorHandoff _ => true
  | .nonceReserve => true
  | .spanResync _ _ => true
  | .spanRebuild _ _ _ => true
  | .spnErrInject _ _ => true
  | .domainOff _ => true
  | .domainOn _ _ _ => true
  | .wake _ => true
  | .pmuErrInject _ _ => true
  | .powerGood _ _ _ _ => true
  | .loopEvaluation _ _ => true
  | .railOvUv _ _ _ _ => true
  | .phaseRetire _ _ => true
  | .extPortFault _ => true
  | .thermalTrip _ => true
  | .thermalSample _ _ => true
  | .throttleUpdate _ _ _ => true
  | .dvfsChange _ _ => true
  | .tokenCeilWrite _ _ => true
  | .cleErrInject _ _ => true
  | .vinOvervoltage _ _ => true
  | .unitRetirement _ _ => true
  | .fatalFault _ _ _ => true
  | .faultLogWrite _ => true
  | .ireset _ _ => true
  | .islandReset _ => true
  | .islandReadmit _ _ _ => true
  | .logWrite _ _ => true
  | .fltErrInject _ _ => true
  | .liveActivation _ => true
  | .handoverSlow _ => true
  | .powerOnReset _ _ _ => true
  | .brownout _ => true
  | .perst _ _ => true
  | .nssr _ _ => true
  | .controllerReset _ => true
  | .flr _ => true
  | .clkreqL12 _ => true
  | .hfaErrInject _ _ _ => true
  | .marginCtrlWrite _ _ _ => true
  | .nqeErrInject _ _ => true
  | .fchErrInject _ _ _ => true
  | .ldsErrInject _ _ => true
  | .controllerEnable _ _ _ _ => true
  | .configurationRequest _ _ => true
  | .perstDeassert _ _ => true
  | .completionTimeout _ => true
  | .linkError _ _ => true
  | .linkDownExpiry _ _ => true
  | .indexBuildDone _ _ => true
  | .tollStatementTimeout _ _ => true
  | .apstTransition _ => true

end Sys2Proof
end

