-- ==== Sys2Proof/Tests/Slice0.lean ====
section
/-! SUPPORT. Tests: an ill-formed command for each check of WellFormed, and for each statement of Obligations states and operands that meet the hypotheses of its clauses, most with what the command then leaves. Expected values come from the rules that each statement cites. -/

namespace Sys2Proof.Tests

open Sys2Proof.Machine

set_option Elab.async false

/-- The command answers a next state of which `f` is true. -/
def after (c : Instr) (s : State) (f : State → Bool) : Bool := match exec c s with
  | .next t => f t
  | _ => false

/-- The device after reset with every domain unclamped (R572). -/
def ready : State := wr State.reset pPMU PMU_ISO_STATE 0

/-- A security-processor core. -/
def sp0 : Initiator := .sp 0

/-! ### WellFormed refuses what the types do not -/

theorem test_wf_landing_read : Instr.wf (.landingRead sp0 0x3FFFFFF 2) = false := by decide
theorem test_wf_landing_write : Instr.wf (.landingWrite sp0 0 []) = false := by decide
theorem test_wf_mram_read : Instr.wf (.mramRead sp0 0x7FFFFFF 2) = false := by decide
theorem test_wf_mram_write : Instr.wf (.mramWrite sp0 0x7FFFFFF [0, 0]) = false := by decide
theorem test_wf_dram_read : Instr.wf (.dramRead sp0 0 0) = false := by decide
theorem test_wf_dram_write : Instr.wf (.dramWrite sp0 0x7FFFFFFFFF [0, 0]) = false := by decide
theorem test_wf_dataset_management : Instr.wf (.datasetManagement 0 (List.replicate 17 0)) = false := by decide
theorem test_wf_vpd_write : ∀ m, Instr.wf (.vpdWrite 0xFFFF [0, 0] m) = false := by intro m; rfl
theorem test_wf_training_check : Instr.wf (.trainingCheck 0 0 (List.replicate 17 0)) = false := by decide
theorem test_wf_hard_decode : ∀ f l, Instr.wf (.hardDecodeDone 0 f true l [0]) = false := by intro f l; rfl
theorem test_wf_soft_decode : ∀ f l, Instr.wf (.softDecodeJobDone f true l [0]) = false := by intro f l; rfl
theorem test_wf_rebuild_restore : ∀ d b, Instr.wf (.rebuildRestoreBlock d b 33) = false := by intro d b; rfl
theorem test_wf_mcx : Instr.wf (.mcx 0 0 0 0 0 0 0 (List.replicate 257 0)) = false := by decide +kernel

/-! ### Registers -/

theorem test_RegisterWriteEffects_staged : takesWrite ready sp0 pFLT FLT_HANDOVER_MAX = true
    ∧ after (.registerWrite sp0 (BitVec.ofNat 48 (0xF0000000 + pFLT * 4096 + FLT_HANDOVER_MAX)) .b4 0xFFFF0007) ready (fun t =>
      rd t pFLT FLT_HANDOVER_MAX == 7 && inForce t pFLT FLT_HANDOVER_MAX == inForce ready pFLT FLT_HANDOVER_MAX && bit (rd t pFLT rSTAGE_STATUS) 28) = true := by decide +kernel
theorem test_RegisterWriteEffects_live : takesWrite ready sp0 pLND rIRQ_ENABLE = true ∧ takesWrite ready sp0 pLND rIRQ_STATUS = true
    ∧ after (.registerWrite sp0 (BitVec.ofNat 48 (0xF0000000 + pLND * 4096 + rIRQ_ENABLE)) .b4 5) ready (fun t => rd t pLND rIRQ_ENABLE == 5) = true
    ∧ after (.irqStatusWrite sp0 (BitVec.ofNat 12 pLND) 0x80000000) (wr ready pLND rIRQ_STATUS 0x80000001) (fun t => rd t pLND rIRQ_STATUS == 1) = true := by decide +kernel
theorem test_RegisterWriteEffects_force : takesWrite ready sp0 pLND rIRQ_FORCE = true ∧ takesWrite ready sp0 pLND rLB_COUNT = true
    ∧ after (.irqForce sp0 (BitVec.ofNat 12 pLND) 0x80000000) ready (fun t => rd t pLND rIRQ_STATUS == 0x80000000) = true
    ∧ after (.lbCountWrite sp0 (BitVec.ofNat 12 pLND) 0x1FFFF) ready (fun t => rd t pLND rLB_COUNT == 0xFFFF && rd t pLND rFAULT == 0) = true := by decide +kernel
theorem test_RegisterWriteEffects_toll :
    after (.registerWrite sp0 (BitVec.ofNat 48 (0xF0000000 + pTOL * 4096 + rIRQ_ENABLE)) .b4 5) ready (fun t => rd t pTOL rIRQ_ENABLE == rd ready pTOL rIRQ_ENABLE && decide (t.tol = ready.tol)) = true := by
  decide +kernel

/-- A counter of `PMU` that has counted. -/
def counted : State := wr ready pPMU PMU_SWITCHES 0x01020304
theorem test_ReadClearsCounter : pageKind? counted.com.chip pPMU = some .pmu ∧ reaches counted sp0 pPMU PMU_SWITCHES = true ∧ (rowAt? .pmu PMU_SWITCHES).map (·.acc) = some .rc
    ∧ after (.rcRegisterRead sp0 (BitVec.ofNat 12 pPMU) (BitVec.ofNat 12 PMU_SWITCHES)) counted (fun t => t.com.answer == .data [4, 3, 2, 1] && rd t pPMU PMU_SWITCHES == 0) = true := by decide +kernel
theorem test_ReadClearsCounter_failures : reaches ready sp0 pDIS DIS_FAIL_NEXT = true
    ∧ after (.rcRegisterRead sp0 (BitVec.ofNat 12 pDIS) (BitVec.ofNat 12 DIS_FAIL_NEXT)) { ready with dis := { ready.dis with failures := [7, 9] } } (fun t =>
      t.com.answer == .data [7, 0, 0, 0] && t.dis.failures == [9] && rd t pDIS DIS_FAIL_COUNT == 1) = true := by decide +kernel

/-- HANDOVER_MAX of `FLT` staged. -/
def staged (v : Word) : State := wrB (wr ready pFLT FLT_HANDOVER_MAX v) pFLT rSTAGE_STATUS 28 true
/-- Work of an older epoch in flight on `FLT`. -/
def draining : State := setEpochs (staged 8) pFLT ⟨1, 0⟩
theorem test_CommitAndApply_rejected : takesWrite (staged 0) sp0 pFLT rSTAGE_CTRL = true ∧ commitHeld (staged 0) pFLT = false
    ∧ commitReject (checking (staged 0) sp0 pFLT 0) pFLT 0 = some (1, FLT_HANDOVER_MAX)
    ∧ after (.stageCommit sp0 (BitVec.ofNat 12 pFLT) 0) (staged 0) (fun t =>
      bit (rd t pFLT rSTAGE_STATUS) 29 && rdF t pFLT rSTAGE_STATUS 19 16 == 1 && bit (rd t pFLT rIRQ_STATUS) 29 && epochNow t pFLT == 0) = true := by decide +kernel
theorem test_CommitAndApply_at_once : commitReject (checking (staged 8) sp0 pFLT 0) pFLT 0 = none ∧ bit (rd (staged 8) pFLT rSTAGE_STATUS) 28 = true ∧ olderLive (staged 8) pFLT = false
    ∧ after (.stageCommit sp0 (BitVec.ofNat 12 pFLT) 0) (staged 8) (fun t =>
      inForce t pFLT FLT_HANDOVER_MAX == 8 && epochNow t pFLT == 1 && !bit (rd t pFLT rSTAGE_STATUS) 28 && bit (rd t pFLT rIRQ_STATUS) 30) = true := by decide +kernel
theorem test_CommitAndApply_waits : takesWrite draining sp0 pFLT rSTAGE_CTRL = true ∧ commitReject (checking draining sp0 pFLT 0) pFLT 0 = none ∧ olderLive draining pFLT = true
    ∧ after (.stageCommit sp0 (BitVec.ofNat 12 pFLT) 0) draining (fun t => bit (rd t pFLT rSTAGE_STATUS) 31 && inForce t pFLT FLT_HANDOVER_MAX != 8) = true := by decide +kernel
/-- A time of 1,000 ns for a timed commit. -/
def timedSet : State := wr (staged 8) pFLT rAPPLY_LO 1000
theorem test_CommitAndApply_armed : commitReject (checking timedSet sp0 pFLT 2) pFLT 2 = none ∧ bit (rd timedSet pFLT rSTAGE_STATUS) 28 = true
    ∧ after (.stageCommit sp0 (BitVec.ofNat 12 pFLT) 2) timedSet (fun t => bit (rd t pFLT rSTAGE_STATUS) 30 && inForce t pFLT FLT_HANDOVER_MAX != 8) = true := by decide +kernel
theorem test_CommitAndApply_applies :
    (let s := wrB (staged 8) pFLT rSTAGE_STATUS 31 true;
      pageUp s pFLT = true ∧ olderLive s pFLT = false ∧ bit (rd s pFLT rSTAGE_STATUS) 26 = false ∧ after (.epochDrained (BitVec.ofNat 12 pFLT)) s (fun t => inForce t pFLT FLT_HANDOVER_MAX == 8 && epochNow t pFLT == 1) = true)
    ∧ (let s := wrB timedSet pFLT rSTAGE_STATUS 30 true;
      round8 (applyTime s pFLT) ≤ (advance s 1000).com.time.toNat ∧ after (.applyTimeReached (BitVec.ofNat 12 pFLT) 1000) s (fun t => inForce t pFLT FLT_HANDOVER_MAX == 8 && !bit (rd t pFLT rSTAGE_STATUS) 30) = true) := by
  decide +kernel
theorem test_CancelDiscardOverrun : (let s := wrB draining pFLT rSTAGE_STATUS 31 true;
      takesWrite s sp0 pFLT rSTAGE_CTRL = true ∧ commitHeld s pFLT = true ∧ fld (rd s pFLT rSTAGE_CTRL) 1 0 ≠ 3
      ∧ after (.stageCancel sp0 (BitVec.ofNat 12 pFLT)) s (fun t => !bit (rd t pFLT rSTAGE_STATUS) 31 && bit (rd t pFLT rSTAGE_STATUS) 28 && rd t pFLT FLT_HANDOVER_MAX == 8) = true)
    ∧ (commitHeld (staged 8) pFLT = false ∧ after (.stageDiscard sp0 (BitVec.ofNat 12 pFLT)) (staged 8) (fun t => rd t pFLT FLT_HANDOVER_MAX == inForce ready pFLT FLT_HANDOVER_MAX && !bit (rd t pFLT rSTAGE_STATUS) 28) = true) := by
  decide +kernel
/-- An apply of channel 0's set took place at time 0 and its older epoch still has work. -/
def lateDrain : State := let s := setEpochs ready (pFCH 0) ⟨1, 1⟩
  { s with com := { s.com with bus := { s.com.bus with drains := [(pFCH 0, 0)] } } }
theorem test_CancelDiscardOverrun_late : pageUp lateDrain (pFCH 0) = true ∧ olderLive lateDrain (pFCH 0) = true ∧ (drainBound lateDrain (pFCH 0)).any (fun b => decide (b ≤ 10 ^ 12)) = true
    ∧ lateDrain.com.bus.drains.get? (pFCH 0) = some 0 := by decide +kernel

theorem test_ExpertGateAndBucketLeak_arm : takesWrite ready sp0 pLND rUNLOCK = true ∧ rd ready pLND rUNLOCK = 0
    ∧ after (.expertUnlockArm sp0 (BitVec.ofNat 12 pLND)) ready (fun t => rd t pLND rUNLOCK == w32 (sp0.num * 2 ^ 24 + 2)) = true := by decide +kernel
/-- LND's gate is armed for core 0 of the security processor. -/
def armedGate : State := let s := wr ready pLND rUNLOCK (w32 (sp0.num * 2 ^ 24 + 2))
  { s with com := { s.com with bus := { s.com.bus with arms := [(pLND, 0)] } } }
theorem test_ExpertGateAndBucketLeak_open : takesWrite armedGate sp0 pLND rUNLOCK = true ∧ armExpired armedGate pLND = false
    ∧ after (.expertUnlockOpen sp0 (BitVec.ofNat 12 pLND)) armedGate (fun t => rd t pLND rUNLOCK == w32 (sp0.num * 2 ^ 24 + 1)) = true
    ∧ bit (rd armedGate pLND rUNLOCK) 1 = true ∧ armExpired (advance armedGate 257) pLND = true ∧ armExpired (advance armedGate 256) pLND = false
    ∧ after (.expertUnlockExpiry (BitVec.ofNat 12 pLND) 257) armedGate (fun t => rd t pLND rUNLOCK == 0) = true := by decide +kernel
theorem test_ExpertGateAndBucketLeak_end : (let s := wr ready pLND rUNLOCK (w32 (sp0.num * 2 ^ 24 + 1));
      takesWrite s sp0 pLND rUNLOCK = true ∧ after (.expertUnlockEnd sp0 (BitVec.ofNat 12 pLND)) s (fun t => rd t pLND rUNLOCK == 0) = true) := by decide +kernel
theorem test_ExpertGateAndBucketLeak_leak : hasBucket .lnd = true
    ∧ after (.lbLeak (BitVec.ofNat 12 pLND) 5000) (wrForce (wr (wr ready pLND rLB_COUNT 9) pLND rLB_LEAK 2) pLND rLB_LEAK 2) (fun t => rdF t pLND rLB_COUNT 15 0 == 7) = true := by decide +kernel

theorem test_CrossingsAndRefusals_free : after (.crossingAck .fabric .control) ready (fun t => decide (t.com.bus = { ready.com.bus with flight := removeFirst (fun x => x.src == .fabric && x.dst == .control) (inFlight ready) })) = true := by
  decide +kernel
/-- A write to Landing that waits at its source. -/
def heldWrite : State := { ready with com := { ready.com with bus := { ready.com.bus with held := [⟨sp0, true, 0x4000000, 8, [1, 2, 3, 4, 5, 6, 7, 8]⟩] } } }
theorem test_CrossingsAndRefusals_held : fabricCause heldWrite ⟨sp0, true, 0x4000000, 8, [1, 2, 3, 4, 5, 6, 7, 8]⟩ = none ∧ heldAt heldWrite sp0 (.landing 0) = none
    ∧ after (.crossingAck .fabric .security) heldWrite (fun t => t.com.bus.held.isEmpty && t.com.answer == .ack && t.mem.landing.readN 0 8 == [1, 2, 3, 4, 5, 6, 7, 8]) = true := by decide +kernel
theorem test_CrossingsAndRefusals_absent : pageKind? ready.com.chip 0xFFF = none
    ∧ after (.registerWrite sp0 0xF0FFF010 .b4 1) ready (fun t => t.com.answer == .refused cNO_PAGE && rd t pFLT FLT_REFUSALS == 1 && rd t pFLT FLT_LAST_REF_LO == 0xF0FFF010) = true := by decide +kernel
theorem test_UndefinedOffsets : pageKind? ready.com.chip pLND = some .lnd ∧ rowAt? .lnd 0xEFC = none ∧ reaches ready sp0 pLND 0xEFC = true ∧ ready.memWf = true
    ∧ after (.rcRegisterRead sp0 (BitVec.ofNat 12 pLND) 0xEFC) ready (fun t => t.com.answer == .data [0, 0, 0, 0]) = true
    ∧ after (.registerWrite sp0 (BitVec.ofNat 48 (0xF0000000 + pLND * 4096 + 0xEFC)) .b4 1) ready (fun t => t.com.answer == .ack && rd t pLND 0xEFC == 0) = true := by decide +kernel

/-! ### Sandglass, launch table, snapshots -/

/-- Discipline source `src` in force, at 1,000,000,100 ns. -/
def ruled (src : Word) : State := let s := wrForce (wr ready pSGL SGL_DISC_CTRL src) pSGL SGL_DISC_CTRL src
  { s with com := { s.com with time := 1000000100 } }
theorem test_SandglassDiscipline_read : takesRead (ruled 0) sp0 pSGL SGL_TIME_LO = true
    ∧ after (.timeLoRead sp0) (ruled 0) (fun t => t.com.answer == .data (bytesLE 4 1000000100) && t.sgl.hiHold.get? (arbKey sp0) == some 0) = true := by decide +kernel
theorem test_SandglassDiscipline_ptm : discSrc (ruled 1) = 1 ∧ discSrc (ruled 2) = 2 ∧ pageUp (ruled 1) pSGL = true ∧ inF (ruled 1) pSGL SGL_STEP_THRESH 19 0 = 1000
    ∧ after (.ptmDialogue false 0 (some 10000) true) (ruled 1) (fun t => t.com.slew == 10000 && rd t pSGL SGL_OFFSET == 10000 && bit (rd t pSGL SGL_DISC_STATUS) 0) = true
    ∧ after (.ptmDialogue true 0 (some (-10000)) true) (ruled 2) (fun t => t.com.slew == -10000 && rd t pSGL SGL_OFFSET == 0xFFFFD8F0) = true
    ∧ after (.ptmDialogue false 0 (some (-1000001)) true) (ruled 1) (fun t => t.com.time == 1001000101 && bit (rd t pSGL SGL_DISC_STATUS) 1 && bit (rd t pSGL rIRQ_STATUS) 0) = true := by decide +kernel
theorem test_SandglassDiscipline_edge : discSrc (ruled 3) = 3
    ∧ after (.spanSyncEdge 0 100) (ruled 3) (fun t => t.com.slew == 100 && bit (rd t pSGL SGL_DISC_STATUS) 0) = true
    ∧ after (.spanSyncMissing 0) { ruled 3 with sgl := { ready.sgl with syncMissed := 2 } } (fun t => bit (rd t pSGL SGL_DISC_STATUS) 3 && bit (rd t pSGL rIRQ_STATUS) 1 && t.sgl.syncMissed == 3) = true := by
  decide +kernel

/-- The launch window names entry 5, USER_EVENT at 1 s to `DIS` with ARG 77. -/
def window : State := wr (wr (wr (wr ready pLCH LCH_ENTRY_SEL 5) pLCH LCH_ENTRY_TIME_LO 1000000000) pLCH LCH_ENTRY_CTRL (w32 (8 * 65536 + pDIS))) pLCH LCH_ENTRY_ARG 77
/-- The entry of that window, ARMED. -/
def event : LaunchEntry := { windowEntry window with state := .armed }
theorem test_LaunchWindowOperations : takesWrite window sp0 pLCH LCH_ENTRY_OP = true ∧ armStatus window (entryOf window 5).state (windowEntry window) false = 0
    ∧ after (.entryOpArm sp0) window (fun t => entryOf t 5 == event && rdF t pLCH LCH_ENTRY_STATE 3 0 == 0) = true
    ∧ after (.entryOpRead sp0) (putEntry window 5 { event with time := 0x200000001 }) (fun t => rd t pLCH LCH_ENTRY_TIME_LO == 1 && rd t pLCH LCH_ENTRY_TIME_HI == 2) = true := by decide +kernel
theorem test_LaunchWindowOperations_end : takesWrite (putEntry window 5 event) sp0 pLCH LCH_ENTRY_OP = true
    ∧ after (.entryOpCancel sp0) (putEntry window 5 event) (fun t => (entryOf t 5).state == .cancelled) = true
    ∧ after (.entryOpRelease sp0) (putEntry window 5 { event with state := .failed }) (fun t => (entryOf t 5).state == .free) = true := by decide +kernel

/-- Entry 5 due, and one of the same TIME above it. -/
def dueTwo : State := putEntry (putEntry window 5 event) 6 event
theorem test_LaunchDispatchAndSnapshots_due : pageUp dueTwo pLCH = true ∧ ferryRunning dueTwo = false ∧ dueEntry? (advance dueTwo 1000000000) = some (5, event)
    ∧ after (.launchDispatch 1000000000) dueTwo (fun t => (entryOf t 5).state == .sent && (entryOf t 6).state == .armed && rd t pLCH LCH_FIRED_COUNT == 1) = true := by decide +kernel
/-- A SNAP_LATCH entry at 64 ns. -/
def snapEntry : LaunchEntry := { LaunchEntry.empty with time := 64, page := pSGL, action := 2, arg := 0xABCD, state := .armed }
theorem test_LaunchDispatchAndSnapshots_snap :
    (armedEntries (putEntry ready 9 snapEntry)).find? (fun e => e.2.action == 2 && decide (round8 e.2.time.toNat ≤ (putEntry ready 9 snapEntry).com.time.toNat + 64)) = some (9, snapEntry)
    ∧ after (.snapLatchEarlySend 0) (putEntry ready 9 snapEntry) (fun t => (entryOf t 9).state == .fired && rd t pSGL SGL_SNAP_SEQ_CUR == 1 && rd t pSGL SGL_SNAP_TAG == 0xABCD) = true
    ∧ takesWrite ready sp0 pSGL SGL_SNAP_FIRE = true
    ∧ after (.snapFire sp0 1) { ready with com := { ready.com with time := 1 } } (fun t => rd t pSGL SGL_SNAP_SEQ_CUR == 1 && rd t pSGL SGL_SNAP_T_LO == 72) = true := by decide +kernel
/-- Entry 5 SENT, and its outcome 4, detail 0 on the way back. -/
def returning : State := let s := putEntry ready 5 { event with state := .sent }
  { s with sgl := { s.sgl with returns := [(5, 64)] } }
theorem test_LaunchDispatchAndSnapshots_return : pageUp returning pLCH = true ∧ returning.sgl.returns.get? 5 = some 64
    ∧ after (.launchOutcomeReturn 5) returning (fun t => (entryOf t 5).state == .failed && (entryOf t 5).outcome == 4 && t.sgl.returns.isEmpty) = true := by decide +kernel
/-- One snapshot order that no island has latched. -/
def ordered : State := { ready with sgl := { ready.sgl with orders := [⟨96, 4⟩] } }
theorem test_LaunchDispatchAndSnapshots_latch : pageUp ordered (pFCH 2) = true ∧ islandHeld ordered (.channel 2) = false
    ∧ after (.snapshotLatch (.channel 2) 96) ordered (fun t => rd t (pFCH 2) rSNAP_SEQ == 4 && rd t (pFCH 2) rSNAP_LO == 96) = true := by decide +kernel

/-- Entry 5 SENT with an action. -/
def sentAs (s : State) (action page : Nat) (arg : Word) : State := putEntry s 5 { LaunchEntry.empty with time := 640, page := page, action := action, arg := arg, state := .sent }
theorem test_LaunchedActions_commit : (let s := sentAs (staged 8) 1 pFLT 0; delivers s 5 1 pFLT = true ∧ commitHeld s pFLT = false ∧ olderLive s pFLT = false ∧ bit (rd s pFLT rSTAGE_STATUS) 28 = true
      ∧ commitReject (wr s pFLT rSTAGE_STATUS (setFld (rd s pFLT rSTAGE_STATUS &&& 0xDFFFFFFF) 19 16 0)) pFLT 0 = none
      ∧ after (.commitStage 5) s (fun t => inForce t pFLT FLT_HANDOVER_MAX == 8 && t.sgl.returns.get? 5 == some 0) = true) := by decide +kernel
theorem test_LaunchedActions_shared : (let s := sentAs ready 4 pSGL 0; delivers s 5 4 pSGL = true ∧ after (.refreshAlign 5) s (fun t => t.sgl.anchor == 640) = true)
    ∧ (let s := sentAs ready 5 pCLE 0xFFFF; delivers s 5 5 pCLE = true ∧ after (.tokenRateSet 5) s (fun t => rdF t pCLE CLE_TOKEN_CEIL 10 0 == 0x100) = true) := by decide +kernel
theorem test_LaunchedActions_items :
    (let s := putItem (sentAs ready 7 pDIS 3) 3 { itemOf ready 3 with state := .waiting }; delivers s 5 7 pDIS = true ∧ s.dis.stopped = false ∧ after (.programStart 5) s (fun t => (itemOf t 3).state == .ready) = true)
    ∧ (let s := sentAs ready 8 pDIS 99; delivers s 5 8 pDIS = true ∧ lowestFree s = some 0x201 ∧ after (.userEvent 5) s (fun t => (itemOf t 0x201).arg0 == 99 && (itemOf t 0x201).state == .ready) = true)
    ∧ (let s := wrB (sentAs ready 8 pDIS 99) pDIS rSTATUS 1 true; bit (rd s pDIS rSTATUS) 1 = true ∧ after (.userEvent 5) s (fun t => t.sgl.returns.get? 5 == some 64) = true) := by decide +kernel

/-! ### Landing, MRAM, DRAM -/

/-- The device with its memories in a given state. -/
def memories (f : Memory → Memory) : State := { ready with mem := f ready.mem }
/-- Eight bytes. -/
def eight : List Byte := [1, 2, 3, 4, 5, 6, 7, 8]
/-- Word 3 of Landing holds eight bytes, with an error. -/
def landed (k : Option WordErr) : State := memories fun m : Memory => { m with landing := m.landing.writeN 24 eight, lndErr := match k with | none => [] | some k => [(3, k)] }
theorem test_LandingAccess_read : memReaches (landed none) sp0 0 0x400001A 6 = true ∧ (landed none).mem.lndInject.get? (lndBank 26) = none ∧ (landed none).mem.wf = true
    ∧ after (.landingRead sp0 26 6) (landed none) (fun t => t.com.answer == .data [3, 4, 5, 6, 7, 8]) = true
    ∧ after (.landingRead sp0 26 6) (landed (some .single)) (fun t => t.com.answer == .data [3, 4, 5, 6, 7, 8] && t.mem.lndErr.isEmpty && rd t pLND LND_ECC_CE == 1) = true
    ∧ after (.landingRead sp0 26 6) (landed (some .double)) (fun t => t.com.answer == .uncorrectable && rd t pLND LND_UE_ADDR == 24 && rd t pLND LND_ECC_UE == 1) = true := by decide +kernel
theorem test_LandingAccess_write : memReaches (landed (some .double)) sp0 1 0x4000018 8 = true ∧ inF ready pLND LND_MERGE_CTRL 7 0 ≠ 0
    ∧ after (.landingWrite sp0 24 [9, 9, 9, 9, 9, 9, 9, 9]) (landed (some .double)) (fun t => t.mem.landing.readN 24 8 == [9, 9, 9, 9, 9, 9, 9, 9] && t.mem.lndErr.isEmpty && t.com.answer == .ack) = true
    ∧ after (.landingWrite sp0 26 [9, 8]) (landed none) (fun t => t.mem.lndMerge == [⟨3, 12, [0, 0, 9, 8, 0, 0, 0, 0]⟩] && t.mem.landing == (landed none).mem.landing) = true := by decide +kernel
/-- The entry of that narrow write. -/
def narrow : MergeEntry := ⟨3, 12, [0, 0, 9, 8, 0, 0, 0, 0]⟩
/-- It waits in Landing, in cluster 0's store and at the MRAM. -/
def gathering : State := let s := { landed none with mem := { (landed none).mem with lndMerge := [narrow], mrmMerge := [narrow], mram0 := Mem.writeN [] 24 eight } }
  putClu s 0 { cluOf s 0 with storeMerge := [narrow], store := Mem.writeN [] 24 eight }
theorem test_LandingAccess_flush : pageUp gathering pLND = true ∧ pageUp gathering (pNCL 0) = true ∧ pageUp gathering pMRM = true ∧ mrmReserved 24 = false ∧ servingDie gathering 24 = 0 ∧ physOff gathering 24 = 24
    ∧ after (.mergeEntryFlush (.landing 0)) gathering (fun t => t.mem.landing.readN 24 8 == [1, 2, 9, 8, 5, 6, 7, 8] && t.mem.lndMerge.isEmpty) = true
    ∧ after (.mergeEntryFlush (.store 0)) gathering (fun t => (cluOf t 0).store.readN 24 8 == [1, 2, 9, 8, 5, 6, 7, 8] && (cluOf t 0).storeMerge.isEmpty) = true
    ∧ after (.mergeEntryFlush .mram) gathering (fun t => t.mem.mram0.readN 24 8 == [1, 2, 9, 8, 5, 6, 7, 8] && t.mem.mram1.readN 24 8 == [1, 2, 9, 8, 5, 6, 7, 8] && t.mem.mrmMerge.isEmpty) = true := by
  decide +kernel

/-- A word of the rotated area, 0x0800018, on both MRAM dies. -/
def mrammed (f : Memory → Memory) : State := memories fun m => f { m with mram0 := Mem.writeN [] 0x0800018 eight, mram1 := Mem.writeN [] 0x0800018 eight }
/-- Die 1 has failed. -/
def oneDie (s : State) : State := wr s pMRM MRM_DIE_STATE 0x21
theorem test_MramAccess_read : (let s := mrammed id; memReaches s sp0 0 0x10080001A 2 = true ∧ mrmReserved 0x0800018 = false ∧ dieUp s (servingDie s 0x0800018) = true ∧ physOff s 0x0800018 = 0x0800018
      ∧ after (.mramRead sp0 0x080001A 2) s (fun t => t.com.answer == .data [3, 4]) = true)
    ∧ (let s := mrammed fun m => { m with mErr0 := [(0x100003, .double)] }; servingDie s 0x0800018 = 0 ∧ dieUp s 1 = true
      ∧ after (.mramRead sp0 0x080001A 2) s (fun t => t.com.answer == .data [3, 4] && t.mem.mErr0.isEmpty && rd t pMRM MRM_MIRROR_READS == 1) = true
      ∧ dieUp (oneDie s) 1 = false ∧ after (.mramRead sp0 0x080001A 2) (oneDie s) (fun t => t.com.answer == .uncorrectable && rd t pMRM MRM_UE_ADDR == 0x0800018 && bit (rd t pMRM rIRQ_STATUS) 4) = true)
    ∧ mrmReserved 0x003E000 = true ∧ memReaches ready sp0 0 0x10003E000 8 = true ∧ after (.mramRead sp0 0x003E000 8) ready (fun t => t.com.answer == .data [0, 0, 0, 0, 0, 0, 0, 0]) = true := by decide +kernel
theorem test_MramAccess_write : (let s := mrammed id; memReaches s sp0 1 0x100800018 8 = true ∧ wearHolds s 0x0800018 = false ∧ inRotated 0x0800018 = true ∧ inF s pMRM MRM_MERGE_CTRL 7 0 ≠ 0
      ∧ after (.mramWrite sp0 0x0800018 [9, 9, 9, 9, 9, 9, 9, 9]) s (fun t => t.com.answer == .ack && t.mem.credit == s.mem.credit - 8 && t.mem.mram0.readN 0x0800018 8 == [9, 9, 9, 9, 9, 9, 9, 9] && t.mem.mram1 == t.mem.mram0) = true
      ∧ after (.mramWrite sp0 0x080001A [9]) s (fun t => t.mem.mrmMerge == [⟨0x100003, 4, [0, 0, 9, 0, 0, 0, 0, 0]⟩] && t.mem.mram0 == s.mem.mram0 && t.com.answer == .ack) = true)
    ∧ (let s := mrammed fun m => { m with credit := 0 }; wearHolds s 0x0800018 = true
      ∧ after (.mramWrite sp0 0x0800018 [9]) s (fun t => t.com.answer == .held && t.mem.wearHeld == [(0x0800018, [9])] && bit (rd t pMRM rIRQ_STATUS) 0 && t.mem.mram0 == s.mem.mram0) = true) := by decide +kernel

theorem test_MramUpkeep_dies : pageUp ready pMRM = true
    ∧ after (.mramDieFail 0) ready (fun t => mrmDie t 0 == 2 && mrmDie t 1 == 1 && bit (rd t pMRM rIRQ_STATUS) 1 && t.com.smart.testBit 2 && !t.com.smart.testBit 3) = true
    ∧ after (.mramDieFail 0) (oneDie ready) (fun t => bit (rd t pMAP MAP_MEDIA_STATE) 3 && bit (rd t pMRM rIRQ_STATUS) 5 && t.com.smart.testBit 3) = true := by decide +kernel
/-- The first of the smallest is in the list and no key is smaller. -/
theorem minBy_least {α : Type} (key : α → Nat) : ∀ (l : List α) (b : α), minBy? key l = some b → b ∈ l ∧ ∀ a ∈ l, key b ≤ key a
  | [], b, h => by simp [minBy?] at h
  | a :: as, b, h => by
    cases e : minBy? key as with
    | none =>
      have : as = [] := by cases as with
        | nil => rfl
        | cons c cs => simp only [minBy?] at e; split at e <;> first | contradiction | (split at e <;> contradiction)
      simp only [minBy?, e, Option.some.injEq] at h; subst h; subst this; simp
    | some c =>
      have ih := minBy_least key as c e
      simp only [minBy?, e] at h
      split at h
      · rename_i hk; cases h
        refine ⟨List.mem_cons_of_mem _ ih.1, fun x hx => ?_⟩
        rcases List.mem_cons.1 hx with rfl | hx
        · omega
        · exact ih.2 x hx
      · rename_i hk; cases h
        refine ⟨List.mem_cons_self, fun x hx => ?_⟩
        rcases List.mem_cons.1 hx with rfl | hx
        · exact Nat.le_refl _
        · have := ih.2 x hx; omega
theorem minBy_some {α : Type} (key : α → Nat) (a : α) (as : List α) : ∃ b, minBy? key (a :: as) = some b := by
  cases e : minBy? key as with
  | none => exact ⟨a, by simp only [minBy?, e]⟩
  | some c => by_cases hk : key c < key a
              · exact ⟨c, by simp only [minBy?, e, hk, if_true]⟩
              · exact ⟨a, by simp only [minBy?, e, hk, if_false]⟩
/-- Pool frame 1552 has 65,537 passes. -/
def worn : State := memories fun m => { m with pass := [(1552, 65537)] }
theorem worn_frames (l : Nat) : physFrame worn l = l := rfl
theorem worn_pool : 1552 ∈ poolFrames worn := by
  simp only [poolFrames, assignedFrames, List.mem_filter, List.mem_range, Bool.and_eq_true, Bool.not_eq_true', List.contains_eq_mem, decide_eq_false_iff_not, List.mem_map, worn_frames]
  exact ⟨by decide, by rintro ⟨a, ha, rfl⟩; exact absurd ha (by decide), by decide⟩
theorem test_MramUpkeep_assign : ∃ g, coolestPool? worn = some g := by
  unfold coolestPool?
  cases h : poolFrames worn with
  | nil => exact absurd worn_pool (by rw [h]; simp)
  | cons a as => exact minBy_some _ a as
theorem test_MramUpkeep_swap : ∃ hot cold m, worn.mem.wf = true ∧ minBy? (fun g => 2 ^ 40 - passOf worn g) (poolFrames worn) = some hot ∧ minBy? (passOf worn) (assignedFrames worn) = some cold
    ∧ passOf worn cold + 65536 < passOf worn hot ∧ servedBy? worn cold = some m := by
  have h1 : ∃ b, minBy? (fun g => 2 ^ 40 - passOf worn g) (poolFrames worn) = some b := by
    cases h : poolFrames worn with
    | nil => exact absurd worn_pool (by rw [h]; simp)
    | cons a as => exact minBy_some _ a as
  have hz : 0 ∈ assignedFrames worn := List.mem_map.2 ⟨0, by simp, rfl⟩
  have h2 : ∃ b, minBy? (passOf worn) (assignedFrames worn) = some b := by
    cases h : assignedFrames worn with
    | nil => exact absurd hz (by rw [h]; simp)
    | cons a as => exact minBy_some _ a as
  obtain ⟨hot, hh⟩ := h1
  obtain ⟨cold, hc⟩ := h2
  have lh := (minBy_least _ _ _ hh).2 1552 worn_pool
  have lc := minBy_least _ _ _ hc
  have l0 := lc.2 0 hz
  have p0 : passOf worn 0 = 0 := by decide
  have p1 : passOf worn 1552 = 65537 := by decide
  have hs : ∃ m, servedBy? worn cold = some m := by
    obtain ⟨l, hl, rfl⟩ := List.mem_map.1 lc.1
    cases e : servedBy? worn (physFrame worn l) with
    | some m => exact ⟨m, rfl⟩
    | none => exact absurd (List.find?_eq_none.1 e l hl) (by simp)
  obtain ⟨m, hm⟩ := hs
  exact ⟨hot, cold, m, by decide +kernel, hh, hc, by simp only [p1, p0] at lh l0; omega, hm⟩
theorem test_MramUpkeep_retire : ready.mem.frameRetired.contains 3 = false := by decide
theorem test_MramUpkeep_credit : (let s := memories fun m => { m with credit := -139 }; after (.wearMeterRelease 1000) s (fun t => t.mem.credit == 1) = true)
    ∧ (let s := memories fun m => { m with credit := -139, wearHeld := [(0x0800018, eight)] }
      dieUp s 0 = true ∧ after (.wearMeterRelease 1000) s (fun t => t.mem.credit == -7 && t.mem.wearHeld.isEmpty && t.mem.mram0.readN 0x0800018 8 == eight) = true) := by decide +kernel

/-- Word 3 of DRAM holds eight bytes, with an error. -/
def drammed (k : Option WordErr) (b : Option (Option (Nat × Count))) : State := memories fun m : Memory =>
  { m with dram := m.dram.writeN 24 eight, dErr := match k with | none => [] | some k => [(3, k)]
           banks := match b with | none => [] | some r => [((dramBankOf ready (dramDecode ready 0) (dramRank ready 0).1 (dramRank ready 0).2).1, ⟨r, 0⟩)] }
theorem test_DramAccess_read : memReaches (drammed none none) sp0 0 0x100000001A 2 = true
    ∧ after (.dramRead sp0 26 2) (drammed none none) (fun t => t.com.answer == .data [3, 4]) = true
    ∧ after (.dramRead sp0 26 2) (drammed none (some none)) (fun t => t.mem.lastDram == some (.closed, 22 + tRCD ready + tCL ready)) = true
    ∧ after (.dramRead sp0 26 2) (drammed none (some (some ((dramBankOf ready (dramDecode ready 0) (dramRank ready 0).1 (dramRank ready 0).2).2, 0)))) (fun t => t.mem.lastDram == some (.hit, 22 + tCL ready)) = true
    ∧ after (.dramRead sp0 26 2) (drammed (some .single) none) (fun t => t.com.answer == .data [3, 4] && t.mem.dErr.isEmpty && rd t (pDMC 0) DMC_ECC_CE == 1) = true
    ∧ after (.dramRead sp0 26 2) (drammed (some .double) none) (fun t => t.com.answer == .uncorrectable && bit (rd t (pDMC 0) rIRQ_STATUS) 3 && rd t (pDMC 0) DMC_ECC_UE == 1) = true := by decide +kernel
theorem test_DramAccess_write : memReaches (drammed (some .double) none) sp0 1 0x1000000000 64 = true ∧ inF ready (pDMC (lineDmc ready 0)) DMC_MERGE_CTRL 7 0 ≠ 0
    ∧ after (.dramWrite sp0 0 (List.replicate 64 5)) (drammed (some .double) none) (fun t => t.mem.dram.readN 0 64 == List.replicate 64 5 && t.mem.dErr.isEmpty && t.com.answer == .ack) = true
    ∧ after (.dramWrite sp0 62 [9, 8]) (drammed none none) (fun t => t.mem.dMerge == [⟨0, 3 * 2 ^ 62, List.replicate 62 0 ++ [9, 8]⟩] && t.com.answer == .ack) = true := by decide +kernel
/-- Line 0 has an entry of its second word. -/
def lineGathers : State := { drammed none none with mem := { (drammed none none).mem with dMerge := [⟨0, 2 ^ 25, List.replicate 25 0 ++ [9] ++ List.replicate 38 0⟩] } }
theorem test_DramAccess_merge : pageUp lineGathers (pDMC 0) = true ∧ lineDmc lineGathers 0 = 0
    ∧ after (.dramMergeRmw 0) lineGathers (fun t => t.mem.dram.readN 24 8 == [1, 9, 3, 4, 5, 6, 7, 8] && t.mem.dMerge.isEmpty) = true := by decide +kernel

/-- Controller 2 enabled, rank 1 not yet in use. -/
def trainable : State := wr ready (pDMC 2) rCTRL 1
theorem test_DramUpkeep_training : pageUp trainable (pDMC 2) = true ∧ bit (rd trainable (pDMC 2) rCTRL) 0 = true ∧ rankState trainable 2 0 = 1
    ∧ after (.dramTraining 2 0) trainable (fun t => bit (rd t (pDMC 2) rSTATUS) 0 && rankState t 2 0 == 1) = true
    ∧ spareCh? trainable = none ∧ after (.dramTraining 2 1) trainable (fun t => rankState t 2 0 == 6 && bit (rd t (pDMC 2) rIRQ_STATUS) 5) = true := by decide +kernel
theorem test_DramUpkeep_refresh : refreshDue? (advance ready 4000) = some 3900
    ∧ after (.refreshInstant 4000) ready (fun t => t.mem.lastRefresh == 3900 && rd t (pDMC 3) DMC_REF_COUNT == if twoRanks ready then 2 else 1) = true := by decide +kernel
/-- Channel 2 trained. -/
def trained : State := wr trainable (pDMC 2) rSTATUS 1
theorem test_DramUpkeep_dqs : trained.flt.resets = [] ∧ islandRetired trained 0x22 = false ∧ recentResets (advance trained 50) 0x22 = []
    ∧ after (.dqsTracking 2 50 false) trained (fun t => t.com.time == 50 && bit (rd t (pDMC 2) rSTATUS) 0) = true := by decide +kernel
theorem test_DramUpkeep_mr4 :
    after (.mr4TempRead 2 1 3 4 90 40) ready (fun t => rdF t (pDMC 2) DMC_TEMP 7 0 == 0x43 && t.mem.rankTemp.get? 4 == some 90 && bit (rd t (pDMC 7) DMC_TEMP) 31) = true
    ∧ after (.mr4TempRead 2 1 3 4 80 40) ready (fun t => t.mem.coolSince == some 1) = true
    ∧ after (.mr4TempRead 2 1000000000 3 4 80 40) { setHot ready true with mem := { ready.mem with coolSince := some 0 } } (fun t => !bit (rd t (pDMC 7) DMC_TEMP) 31) = true := by decide +kernel
theorem test_DramUpkeep_parity : spareIdle? ready = none ∧ rankState ready 2 0 = 1
    ∧ after (.caParityAlert 2 0) ready (fun t => rdF t (pDMC 2) DMC_ECC_UE 31 16 == 1 && bit (rd t (pDMC 2) rIRQ_STATUS) 4 && rankState t 2 0 == 6) = true := by decide +kernel
/-- Two ranks, the spare on channel 7; rank 0 of channel 2 moves into it. -/
def moving (ptr : Word) : State :=
  let g := rd ready (pDMC 0) DMC_GEOM ||| 0x10
  let s := wrForce (wr ready (pDMC 0) DMC_GEOM g) (pDMC 0) DMC_GEOM g
  let s := wr (wrForce (wr s (pDMC 0) DMC_SPARE 0x87) (pDMC 0) DMC_SPARE 0x87) (pDMC 2) DMC_MIG_PTR ptr
  { s with mem := { s.mem with migrating := some (2, 0) } }
theorem test_DramUpkeep_migrate : (spareCh? (moving 0)).isSome = true ∧ inF (moving 0) (pDMC 2) DMC_MIG_RATE 7 0 ≠ 0 ∧ (moving 0).mem.dErr = []
    ∧ after (.rankMigrationStep 1) (moving 0) (fun t => rd t (pDMC 2) DMC_MIG_PTR == w32 (inF ready (pDMC 2) DMC_MIG_RATE 7 0) && t.mem.migrating == some (2, 0)) = true
    ∧ after (.rankMigrationStep 1) (moving (w32 (rankLines (moving 0) - 1))) (fun t => t.mem.migrating == none && rankState t 2 0 == 4 && bit (rd t (pDMC 2) rIRQ_STATUS) 1) = true := by decide +kernel
theorem test_DramUpkeep_self_refresh : pageUp ready (pDMC 4) = true ∧ ready.map.wb = []
    ∧ after (.selfRefreshEntry true) ready (fun t => t.mem.selfRefresh == 0xF0) = true
    ∧ after (.selfRefreshExit true) (memories fun m => { m with selfRefresh := 0xF1 }) (fun t => t.mem.selfRefresh == 1) = true := by decide +kernel
theorem test_DramUpkeep_scrub : pageUp (landed none) pMEC = true ∧ scrubOn (landed none) .landing = true
    ∧ scrubMark (landed none) .landing 24 = none ∧ after (.patrolScrubRead .landing 24 true) (landed none) (fun t => rd t pMEC MEC_PASS_DONE == 0x100) = true
    ∧ after (.patrolScrubRead .landing 24 false) (landed (some .single)) (fun t => t.mem.lndErr.isEmpty && rd t pMEC MEC_SCRUB_CE == 1) = true
    ∧ after (.patrolScrubRead .landing 24 false) (landed (some .double)) (fun t => rd t pMEC MEC_SCRUB_UE == 1 && bit (rd t pMEC rIRQ_STATUS) 0) = true := by decide +kernel

/-! ### Flash channels -/

/-- A staged register as written and in force. -/
def both (s : State) (p off : Nat) (v : Word) : State := wrForce (wr s p off v) p off v
/-- Channel 0 trained, position 0 enabled and present, of 1,000 blocks with 64 pages, 3 bits a cell. -/
def chan0 : State :=
  let s := wr (wr (both ready (pFCH 0) FCH_DIE_ENABLE 1) (pFCH 0) FCH_DIE_PRESENT 1) (pFCH 0) rSTATUS 8
  let s := both (both s (pFCH 0) FCH_TRAIN_CTRL 0x00100064) (pFCH 0) FCH_DT_GEOM (w32 (999 * 2 ^ 18 + 63 * 64 + 32))
  { s with fch := { s.fch with chans := [(0, { Channel.cold with started := true })] } }
/-- Channel 0 degraded after a training loss. -/
def degraded : State := wr chan0 (pFCH 0) rSTATUS 16
theorem test_FlashTraining_start : pageUp ready (pFCH 0) = true ∧ chanFenced ready 0 = false
    ∧ after (.channelStart 0 [⟨3, 7, 1⟩]) ready (fun t => rd t (pFCH 0) FCH_DIE_PRESENT == 8 && rd t (pFCH 0) FCH_IF_STATUS == 0x40 && (chanOf t 0).started && !bit (rd t (pFCH 0) rSTATUS) 3) = true := by decide +kernel
theorem test_FlashTraining_train : livePositions chan0 0 = 1
    ∧ after (.channelTraining 0 1) chan0 (fun t => rd t (pFCH 0) FCH_IF_STATUS == w32 (inF chan0 (pFCH 0) FCH_IF_CFG 17 16 * 16 + inF chan0 (pFCH 0) FCH_IF_CFG 3 0) && bit (rd t (pFCH 0) rSTATUS) 3 && (chanOf t 0).wpHigh) = true := by
  decide +kernel
theorem test_FlashTraining_check : inF chan0 (pFCH 0) FCH_TRAIN_CTRL 23 16 = 16 ∧ bit (rd chan0 (pFCH 0) rSTATUS) 3 = true ∧ bit (rd chan0 (pFCH 0) rSTATUS) 4 = false
    ∧ after (.trainingCheck 0 100 [(0, 16), (1, 200)]) chan0 (fun t => bit (rd t (pFCH 0) rSTATUS) 3 && t.com.time == 100) = true
    ∧ (livePositions chan0 0).testBit (0 : Pos).val = true ∧ inF chan0 (pFCH 0) FCH_TRAIN_CTRL 15 0 ≠ 0 := by decide +kernel
theorem test_FlashTraining_retrain : bit (rd degraded (pFCH 0) rSTATUS) 4 = true ∧ transientMax degraded 0 = 4 ∧ lbQuiet degraded (pFCH 0) = true
    ∧ after (.retrainAttempt 0 9 true) degraded (fun t => bit (rd t (pFCH 0) rSTATUS) 3 && !bit (rd t (pFCH 0) rSTATUS) 4 && bit (rd t (pFCH 0) rIRQ_STATUS) 2) = true
    ∧ after (.retrainAttempt 0 9 false) degraded (fun t => rdF t (pFCH 0) FCH_IF_STATUS 10 8 == 1 && bit (rd t (pFCH 0) rSTATUS) 4) = true
    ∧ transientMax degraded 0 ≤ rdF (wr degraded (pFCH 0) FCH_IF_STATUS 0x300) (pFCH 0) FCH_IF_STATUS 10 8 + 1 := by decide +kernel

/-- A codeword read of die 0, block 5, page 2. -/
def rjob (cls : ReadClass) : ReadJob := ⟨9, 0, 5, 2, 1, cls, false, 0, .patrol, 1, none, none, none, 0, false, 0⟩
/-- Die 0 as given, on channel 0. -/
def die0 (x : Die) : State := { chan0 with fch := { chan0.fch with dies := [(0, x)] } }
/-- A block of die 0. -/
def blockIs (s : State) (b : Nat) (e : Bst) : State := putBst s 0 b e
theorem test_FlashDieScheduling_issue : (let s := die0 { Die.idle with readsB := [rjob .b], work := [.program 1 2 3 4] }
      pageUp s (pFCH 0) = true ∧ dieRetired s 0 = false ∧ chanFenced s 0 = false ∧ bit (rd s (pFCH 0) rSTATUS) 3 = true ∧ bit (rd s (pFCH 0) rSTATUS) 4 = false ∧ (chanOf s 0).inject = []
      ∧ after (.dieReadIssue 0 0 7) s (fun t => (dieOf t 0).running.any (fun o => o.since == 7) && (dieOf t 0).readsB.isEmpty && (dieOf t 0).work == [.program 1 2 3 4]) = true)
    ∧ after (.dieReadIssue 0 0 7) (die0 { Die.idle with work := [.program 1 2 3 4], token := true }) (fun t => (dieOf t 0).running == some ⟨.work (.program 1 2 3 4), 7, 0⟩ && !(dieOf t 0).token) = true := by decide +kernel
theorem test_FlashDieScheduling_erase : (let s := blockIs (die0 { Die.idle with work := [.erase 5 sp0], token := true }) 5 { Bst.fresh with state := .freeable }
      (bstOf s 0 5).state = .freeable ∧ after (.eraseIssue 0 0) s (fun t => (dieOf t 0).running == some ⟨.work (.erase 5 sp0), 0, 0⟩ && (bstOf t 0 5).eraseIssued) = true)
    ∧ after (.eraseIssue 0 0) (die0 { Die.idle with work := [.erase 5 sp0], token := true }) (fun t => (dieOf t 0).running == none && (dieOf t 0).work == [] && bit (rd t (pFCH 0) rIRQ_STATUS) 5 && rd t pMAP MAP_ERASE_REFUSED == 1) = true := by
  decide +kernel
theorem test_FlashDieScheduling_age : inF chan0 (pFCH 0) FCH_READ_AGE 15 0 ≠ 0
    ∧ after (.readAgePromotion 0 0 (70000 * 1000)) (die0 { Die.idle with readsA := [rjob .a], readsC := [rjob .c] }) (fun t => (dieOf t 0).readsC.isEmpty && (dieOf t 0).readsA == [rjob .a, { rjob .c with promoted := true }]) = true := by
  decide +kernel
theorem test_FlashDieScheduling_suspend : (let s := die0 { Die.idle with readsA := [rjob .a], running := some ⟨.work (.erase 5 sp0), 0, 0⟩ }
      inF s (pFCH 0) FCH_SCHED_CTRL 12 9 ≠ 0 ∧ 0 < inF s (pFCH 0) FCH_SCHED_CTRL 8 4 ∧ inF s (pFCH 0) FCH_SCHED_MIN_RUN 31 16 * 1000 ≤ 70000000
      ∧ after (.dieSuspend 0 0 70000000) s (fun t => (dieOf t 0).running == none && (dieOf t 0).suspended == some ⟨.work (.erase 5 sp0), 70000000, 1⟩) = true)
    ∧ (let s := die0 { Die.idle with readsA := [rjob .a], running := some ⟨.work (.program 1 2 3 4), 0, 0⟩ }
      0 < inF s (pFCH 0) FCH_SCHED_CTRL 3 0 ∧ inF s (pFCH 0) FCH_SCHED_MIN_RUN 15 0 * 1000 ≤ 70000000
      ∧ after (.dieSuspend 0 0 70000000) s (fun t => (dieOf t 0).suspended == some ⟨.work (.program 1 2 3 4), 70000000, 1⟩) = true) := by decide +kernel
theorem test_FlashDieScheduling_resume :
    after (.dieResume 0 0 4) (die0 { Die.idle with suspended := some ⟨.work (.program 1 2 3 4), 1, 1⟩, token := true }) (fun t => (dieOf t 0).running == some ⟨.work (.program 1 2 3 4), 4, 1⟩ && !(dieOf t 0).token) = true
    ∧ after (.dieResume 0 0 4) (die0 { Die.idle with suspended := some ⟨.work (.program 1 2 3 4), 1, 1⟩ }) (fun t => (dieOf t 0).asking && (dieOf t 0).running == none) = true := by decide +kernel
theorem test_FlashDieScheduling_end :
    after (.dieOpComplete 0 0 4 true) (die0 { Die.idle with running := some ⟨.read (rjob .a), 0, 0⟩ }) (fun t => (dieOf t 0).running == none && (chanOf t 0).decoding == [rjob .a]) = true
    ∧ after (.dieOpComplete 0 0 4 true) (die0 { Die.idle with running := some ⟨.work (.program 1 2 3 4), 0, 0⟩ }) (fun t => (dieOf t 0).running == none && rd t (pFCH 0) FCH_DIE_EVT == 0) = true
    ∧ after (.dieOpComplete 0 0 4 false) (die0 { Die.idle with running := some ⟨.work (.program 1 2 3 4), 0, 0⟩ }) (fun t => rd t (pFCH 0) FCH_DIE_EVT == 0x10000 && bit (rd t (pFCH 0) rIRQ_STATUS) 3) = true
    ∧ after (.dieOpComplete 0 0 4 true) (die0 { Die.idle with running := some ⟨.work (.erase 5 sp0), 0, 0⟩ }) (fun t => (bstRaw t 0 5).changing == some (.free, 1) && (bstRaw t 0 5).eraseCount == 1) = true
    ∧ after (.dieOpComplete 0 0 4 false) (die0 { Die.idle with running := some ⟨.work (.erase 5 sp0), 0, 0⟩ }) (fun t => rd t (pFCH 0) FCH_DIE_EVT == 0x100 && bit (rd t (pFCH 0) rIRQ_STATUS) 4) = true := by decide +kernel
theorem test_FlashDieScheduling_retry : transientMax chan0 0 ≠ 0
    ∧ after (.fchTransientRetry 0 0 9 true) (die0 { Die.idle with retry := 1 }) (fun t => (dieOf t 0).retry == 0 && rd t (pFCH 0) FCH_DIE_EVT == 1) = true
    ∧ 1 < transientMax chan0 0 ∧ after (.fchTransientRetry 0 0 9 false) (die0 { Die.idle with retry := 1 }) (fun t => (dieOf t 0).retry == 2) = true
    ∧ transientMax (both chan0 (pFCH 0) FCH_RETRY_CTRL 1) 0 ≤ 1 := by decide +kernel

/-- One codeword of channel 0 waits for its decoder. -/
def coded (j : ReadJob) : State := { both (both chan0 (pFCH 0) FCH_LADDER_CTRL 0x00207814) (pFCH 0) FCH_RETRY_FEAT 0x89 with fch := { chan0.fch with chans := [(0, { Channel.cold with started := true, decoding := [j] })] } }
theorem test_FlashLadder_hard : (rjob .a).die / 16 = 0
    ∧ after (.hardDecodeDone 0 9 true 0 [1, 2]) (coded (rjob .a)) (fun t => t.fch.ready == [(rjob .a, some [1, 2])] && rd t (pFCH 0) FCH_LADDER_HARD == 1 && (chanOf t 0).decoding.isEmpty) = true
    ∧ after (.hardDecodeDone 0 9 true 0 [1, 2]) (coded { rjob .a with rung := 2, set := some 4 }) (fun t => rd t (pFCH 0) FCH_LADDER_RETRY == 1 && (dieOf t 0).hint == some 4) = true
    ∧ nextSet? (coded (rjob .a)) (rjob .a) = some 0
    ∧ after (.hardDecodeDone 0 9 false 77 []) (coded (rjob .a)) (fun t => (dieOf t 0).readsA == [{ rjob .a with best := some (77, none), rung := 2, set := some 0 }]) = true := by decide +kernel
theorem test_FlashLadder_budget : inF (coded (rjob .a)) (pFCH 0) FCH_LADDER_CTRL 31 16 = 32
    ∧ after (.ladderBudgetExpiry 0 9 70000000) (coded (rjob .a)) (fun t => t.fch.recon == [{ rjob .a with rung := 4 }] && rd t (pFCH 0) FCH_LADDER_RECON == 1) = true := by decide +kernel
/-- Soft decoder 2 works on a codeword. -/
def soft (three : Bool) : State := { chan0 with fch := { chan0.fch with soft := [(2, ⟨{ rjob .a with rung := 3, threeBits := three }, false⟩)] } }
theorem test_FlashLadder_soft : pageUp (soft true) pLDS = true
    ∧ after (.softDecodeJobDone 2 true 0 [1]) (soft false) (fun t => t.fch.ready.length == 1 && rd t pLDS LDS_SOFT_OK == 1 && rd t (pFCH 0) FCH_LADDER_SOFT == 1) = true
    ∧ after (.softDecodeJobDone 2 false 0 []) (soft true) (fun t => t.fch.recon.length == 1 && rd t pLDS LDS_SOFT_FAIL == 1) = true := by decide +kernel
theorem test_FlashLadder_self_check : inF chan0 pLDS LDS_SELF_CHECK 15 0 ≠ 0 ∧ bit (rd chan0 pLDS LDS_DEC_RETIRED) 2 = false ∧ pageUp chan0 (pFCH 0) = true ∧ chanFenced chan0 0 = false ∧ pageUp chan0 pLDS = true ∧ bit (rd chan0 (pFCH 0) rSTATUS) 5 = false
    ∧ after (.decoderSelfCheck (.soft 2) true) chan0 (fun t => decide (t.fch = chan0.fch)) = true := by decide +kernel

/-! ### The map -/

/-- The device with its map in a given state. -/
def mapped (f : MapState → MapState) : State := { ready with map := f ready.map }
/-- An entry of die 0, block 5, page 2, slots 64 to 127. -/
def copy5 : BitVec 64 := mkEntry 0 5 2 64 64 0
/-- Namespace 3 of 4 KiB units, its first segment cached, unit 7 at that copy. -/
def located : State := { chan0 with map := { ready.map with mu := [(3, 64)], cached := [segKey 3 7], entries := [(unitKey 3 7, copy5)] } }
/-- Unit 7 of namespace 3 in the write buffer. -/
def wb7 : WbUnit := ⟨3, 7, [], false, false, false, 0, false, false, none, false⟩
theorem test_MapTiers_lookup : pageUp located pMAP = true ∧ validEntry located 3 copy5 = true ∧ entT copy5 = false ∧ hmwActive located = false ∧ dirAt located 3 0 = trimmed
    ∧ after (.mapLookup 3 7) located (fun t => t.map.lastLookup == some (3, 7, .cache, copy5) && (bstOf t 0 5).pins == 1) = true
    ∧ after (.mapLookup 3 8) located (fun t => t.map.lastLookup == some (3, 8, .trimmed, trimmed)) = true
    ∧ after (.mapLookup 3 600) located (fun t => t.map.lastLookup == some (3, 600, .trimmed, trimmed)) = true
    ∧ after (.mapLookup 3 7) { located with map := { located.map with wb := [wb7] } } (fun t => t.map.lastLookup == some (3, 7, .writeBuffer, 0)) = true := by decide +kernel
theorem test_MapTiers_fill : (let s := mapped fun m => { m with mu := [(3, 64)], filling := [pageKey 3 1] }
      s.map.cached.length + 4 ≤ cacheMax s ∧ after (.mapPageFill 3 1 true) s (fun t => t.map.filling.isEmpty && t.map.cached == [segKey 3 2048, segKey 3 2560, segKey 3 3072, segKey 3 3584]) = true) := by decide +kernel
/-- Unit 7's segment is dirty. -/
def dirty7 : State := { located with map := { located.map with dirty := [segKey 3 7] } }
theorem test_MapTiers_write_back : dirtyOf dirty7 3 0 ≠ [] ∧ mapStopped dirty7 = false ∧ copyCovered dirty7 (mkEntry 1 6 3 0 256 0) = true
    ∧ after (.mapWriteBack 3 0 (mkEntry 1 6 3 0 256 0)) dirty7 (fun t => dirAt t 3 0 == mkEntry 1 6 3 0 256 0 && t.map.journal == [⟨1, .dirUpdate 3 0 (mkEntry 1 6 3 0 256 0), false⟩] && rd t pMAP MAP_JSEQ_ISSUED == 1) = true := by
  decide +kernel
theorem test_MapTiers_window : drbgSeeded (wr ready pKEY KEY_RNG_STATUS 3) = true ∧ after (.hmwEnable 20000) (wr ready pKEY KEY_RNG_STATUS 3) (fun t => t.map.slots == 2 && t.map.windowKey == 0 && t.com.free == 1 && (slotOf t 0xFFF0).type == 4 && bit (rd t pMAP MAP_HMW_STATUS) 0 == bit (inForce ready pMAP MAP_MAP_CFG) 0) = true := by
  decide +kernel
/-- A long sum of one number. -/
theorem sum_replicate (n c a : Nat) : (List.replicate n c).foldl (· + ·) a = a + n * c := by
  induction n generalizing a with
  | zero => simp
  | succ n ih => rw [List.replicate_succ, List.foldl_cons, ih, Nat.succ_mul]; omega
/-- The map journal holds n records of 32 bytes. -/
def records (n : Nat) : State := { both dirty7 pMAP MAP_JOURNAL_HIGH 1 with map := { dirty7.map with journal := List.replicate n ⟨1, .dirUpdate 0 0 0, false⟩ } }
theorem jUsed_records (n : Nat) : jUsed (records n) = n * 32 := by
  show ((List.replicate n _).map _).foldl _ _ = _
  rw [List.map_replicate, sum_replicate, Nat.zero_add]; rfl
theorem test_MapTiers_checkpoint_map : jHigh (records 20972) = true ∧ (records 20972).map.ckpt = none ∧ dirtyPages (records 20972) ≠ [] := by
  refine ⟨?_, rfl, by show dirtyPages dirty7 ≠ []; decide +kernel⟩
  have h : inF (records 20972) pMAP MAP_JOURNAL_HIGH 6 0 = 1 := by show inF (both dirty7 pMAP MAP_JOURNAL_HIGH 1) pMAP MAP_JOURNAL_HIGH 6 0 = 1; decide +kernel
  simp [jHigh, jUsed_records, h, jRingSize]
theorem test_MapChanges_full : jRoom (records 2097152) 32 = false ∧ mapStopped (records 2097152) = false := by
  refine ⟨by simp [jRoom, jUsed_records, jRingSize], by show mapStopped (both dirty7 pMAP MAP_JOURNAL_HIGH 1) = false; decide +kernel⟩
/-- Entry 5 of the launch table, a checkpoint of the whole map. -/
def toCheckpoint : State := putEntry dirty7 5 { LaunchEntry.empty with time := 640, page := pMAP, action := 3, arg := 0x80000000, state := .sent }
theorem test_MapTiers_checkpoint_launch : delivers toCheckpoint 5 3 pMAP = true
    ∧ after (.checkpointBegin (.launch 5)) toCheckpoint (fun t => t.map.ckpt == some [pageKey 3 0] && t.sgl.returns.get? 5 == some 0) = true := by decide +kernel
/-- The stripe journal holds n records of 32 bytes. -/
def sRecords (n : Nat) : State := { ready with str := { ready.str with journal := List.replicate n ⟨1, .setSkip 0 0, false⟩ } }
theorem test_MapTiers_checkpoint_stripes : sHigh (sRecords 209716) = true := by
  have h : sUsed (sRecords 209716) = 209716 * 32 := by
    show ((List.replicate _ _).map _).foldl _ _ = _
    rw [List.map_replicate, sum_replicate, Nat.zero_add]; rfl
  simp [sHigh, h, sRingSize]

theorem test_MapChanges_host : mapStopped located = false ∧ jRoom located 32 = true ∧ copyCovered located (mkEntry 1 6 3 0 64 0) = true
    ∧ after (.mapChange (.redirect .host 3 7 (mkEntry 1 6 3 0 64 0) 0)) located (fun t => entryAt t 3 7 == mkEntry 1 6 3 0 64 0 && rd t pMAP MAP_JSEQ_ISSUED == 1) = true := by decide +kernel
theorem test_MapChanges_move : sameLocation copy5 copy5 = true ∧ sameLocation copy5 (mkEntry 0 5 2 65 64 0) = false
    ∧ after (.mapChange (.redirect .gc 3 7 (mkEntry 1 6 3 0 64 0) copy5)) located (fun t => entryAt t 3 7 == redirectEntry located .gc false copy5 (mkEntry 1 6 3 0 64 0)) = true
    ∧ after (.mapChange (.redirect .gc 3 7 (mkEntry 1 6 3 0 64 0) (mkEntry 0 5 2 65 64 0))) located (fun t => entryAt t 3 7 == copy5 && rd t pMAP MAP_REDIRECT_DROP == 1) = true := by decide +kernel
theorem test_MapChanges_trim_lock : hasLocation copy5 = true
    ∧ after (.mapChange (.trim 3 7 1)) located (fun t => entryAt t 3 7 == trimmed) = true
    ∧ after (.mapChange (.trim 3 8 1)) located (fun t => entryAt t 3 7 == copy5) = true
    ∧ after (.mapChange (.lock 3 7)) located (fun t => entryAt t 3 7 == copy5 ||| 0x100) = true := by decide +kernel
theorem test_MapChanges_held : (let s := { located with map := { located.map with held := [.redirect .host 3 7 (mkEntry 1 6 3 0 64 0) 0] } }
      after .journalRingFullHold s (fun t => t.map.held == [] && entryAt t 3 7 == mkEntry 1 6 3 0 64 0) = true) := by decide +kernel
theorem test_MapChanges_durable : (let s := { located with map := { located.map with journal := [⟨1, .redirect .host 3 7 copy5, false⟩], wb := [{ wb7 with redirect := some 1 }] } }
      (s.map.journal.find? fun r => !seqLe r.seq (jDurable s)) = some ⟨1, .redirect .host 3 7 copy5, false⟩ ∧ wearHolds s 0x0800000 = false
      ∧ after .journalRecordDurable s (fun t => rd t pMAP MAP_JSEQ_DURABLE == 1 && t.map.wb == []) = true) := by decide +kernel

/-- Block 5 of die 0, with channel 0 serving. -/
def block5 (e : Bst) : State := putBst chan0 0 5 e
theorem test_BlockStatesAndCollection_settle : dieInService chan0 0 = true
    ∧ after (.blockStateChange 0 5) (block5 { Bst.fresh with state := .victim, live := 3 }) (fun t => (bstRaw t 0 5).state == .victim) = true
    ∧ wornOut (block5 { Bst.fresh with state := .freeable }) 0 { Bst.fresh with state := .freeable } = false
    ∧ after (.blockStateChange 0 5) (block5 { Bst.fresh with state := .freeable }) (fun t => (dieOf t 0).work == [.erase 5 (.block 0x00C)]) = true := by decide +kernel
/-- A CLOSED block with 200 live slots. -/
def closed5 (slc : Bool) : Bst := { Bst.fresh with state := .closed, live := 200, slc := slc, closeStamp := 4 }
theorem test_BlockStatesAndCollection_gc : gcPick? (block5 (closed5 false)) = some (0, 5, closed5 false) ∧ ferryRunning (block5 (closed5 false)) = false
    ∧ after .gcVictimSelect (block5 (closed5 false)) (fun t => t.map.gc == [⟨0, 5, .copy, false⟩] && (bstRaw t 0 5).changing == some (.victim, 1)) = true := by decide +kernel
theorem test_BlockStatesAndCollection_migration : oasisOver (block5 (closed5 true)) = true ∧ inF chan0 pMAP MAP_MIGRATE_START 6 0 ≠ 0 ∧ coldest? (block5 (closed5 true)) ((gcCandidates (block5 (closed5 true))).filter fun c => c.2.2.slc) = some (0, 5, closed5 true)
    ∧ after .migrationStart (block5 (closed5 true)) (fun t => t.map.gc == [⟨0, 5, .copy, true⟩]) = true := by decide +kernel
theorem test_BlockStatesAndCollection_wear : (let s := putBst (block5 (closed5 false)) 0 6 { Bst.fresh with eraseCount := 60000 }
      inF s pMAP MAP_WL_DELTA 15 0 ≠ 0 ∧ inF s pMAP MAP_WL_DELTA 15 0 < eraseSpread s 0
      ∧ after (.staticWearLevel 0) s (fun t => t.map.gc == [⟨0, 5, .copy, false⟩]) = true) := by decide +kernel
theorem test_BlockStatesAndCollection_window :
    after (.throttleWindow 1000000) (mapped fun m => { m with returned := 70, admitted := 9, lastReturned := 1 }) (fun t => t.map.lastReturned == 70 && t.map.returned == 0 && t.map.admitted == 0) = true := by decide +kernel

/-! ### The stripe engine -/

theorem test_StripeParityRecovers :
    recoverMember 3 0 2 1 [(0, [1, 2]), (2, [4, 8]), (3, [5, 9])] = some [0, 3] ∧ recoverMember 3 0 2 3 [(0, [1, 2]), (1, [0, 3]), (2, [4, 8])] = some [5, 9] := by decide +kernel

/-- Channels 0 to n − 1 trained, position 0 of each enabled and present, of 2,000 blocks with 512 pages. -/
def trainedTo (n : Nat) : State :=
  (List.range n).foldl (fun s c => both (both (wr (wr s (pFCH c) FCH_DIE_PRESENT 1) (pFCH c) rSTATUS 8) (pFCH c) FCH_DIE_ENABLE 1) (pFCH c) FCH_DT_GEOM (w32 (1999 * 2 ^ 18 + 511 * 64 + 32))) ready
/-- Four channels, and sets three members wide with P only. -/
def four : State := both (trainedTo 4) pSTR STR_LAYOUT 3
/-- The first set, when it is opened in four. -/
def places4 : Option (List (Nat × Nat)) := (place 0 (layoutSeed four) 3 (chanMask (posMasks four)) (posMasks four)).mapM fun d => (allocBlock? four d).map fun b => (d, b)
theorem test_StripeLife_open : pageUp four pSTR = true ∧ layoutWidth four = 3 ∧ layoutProt four + 2 ≤ eligibleChannels four ∧ ferryRunning four = false ∧ sFull four = false ∧ jRoom four 4096 = true
    ∧ four.str.stripes.length < inF four pSTR STR_OPEN_MAX 7 0 ∧ oasisUsed four + layoutWidth four ≤ oasisShare four ∧ places4.isSome = true := by
  decide +kernel

/-- A set of dies 0, 16 and 32, blocks 5; and its stripe on page 0. -/
def set3 : SetEntry := ⟨3, 0, false, true, false, false, false, 64, 0, [⟨false, 0, 5⟩, ⟨false, 16, 5⟩, ⟨false, 32, 5⟩]⟩
def stripe3 (phase : StripePhase) (mask : Nat) : OpenStripe := ⟨7, 0, phase, mask, 0, decide (mask ≠ 0), 0, none, []⟩
/-- Set 7 is open with a stripe in a phase. -/
def open7 (phase : StripePhase) (mask : Nat) : State :=
  let s := [0, 16, 32].foldl (fun s d => putBst s d 5 { Bst.fresh with state := .open_ }) four
  { s with str := { s.str with sets := [(7, set3)], stripes := [stripe3 phase mask] } }
theorem test_StripeLife_fill : nextMember set3 (stripe3 .filling 0) < set3.k ∧ setReady (open7 .filling 0) set3 = true
    ∧ after (.stripeMemberProgram 7 [⟨3, 9, 0, 64, false⟩]) (open7 .filling 0) (fun t => (stripeOf? t 7).any (fun o => o.mask == 1 && o.acc && o.units == [(3, 9, mkEntry 0 5 0 0 64 0)]) && t.map.stamp == 1 && t.str.journal.length == 1) = true
    ∧ set3.k ≤ nextMember set3 (stripe3 .filling 3) ∧ after (.stripeParityProgram 7) (open7 .filling 3) (fun t => stripeOf? t 7 == some (stripe3 .verifying 3)) = true := by decide +kernel
theorem test_StripeLife_age : inF four pSTR STR_CLOSE_AGE 15 0 ≠ 0 ∧ inF four pSTR STR_CLOSE_AGE 15 0 * 1000000 ≤ 10 ^ 12 ∧ bit (rd four pMAP MAP_MEDIA_STATE) 2 = false
    ∧ after (.stripeCloseAge 7 (10 ^ 12)) (open7 .filling 1) (fun t => stripeOf? t 7 == some { stripe3 .verifying 3 with pads := 1 }) = true := by decide +kernel
theorem test_StripeLife_verify :
    after (.stripeVerify 7 []) (open7 .verifying 3) (fun t => setAt? t 7 == some { set3 with next := 1 } && (stripeOf? t 7).any (fun o => o.page == 1 && o.mask == 0)) = true
    ∧ (verifyMembers (open7 .verifying 3) set3).contains 0 = true
    ∧ after (.stripeVerify 7 [(0, 3)]) (open7 .verifying 3) (fun t => stripeOf? t 7 == some (stripe3 .collecting 3) && bit (rd t pSTR rIRQ_STATUS) 5) = true := by decide +kernel
theorem test_StripeLife_fail : (let gone (t : State) := stripeOf? t 7 == none && setAt? t 7 == some { set3 with open_ := false, pages := 0, next := 0, collect := true };
    after (.stripeProgramFail 7 1) (open7 .filling 1) gone = true ∧ after (.accumulatorUe 7) (open7 .filling 1) gone = true)
    ∧ after (.rmwParityUpdate 7 []) (open7 .provisional 1) (fun t => (stripeOf? t 7).any fun o => o.mask == 3) = true := by decide +kernel

/-- Stripe 0 of set 7, which is closed, waits to be resynchronised. -/
def unsynced : State := let s := both (open7 .filling 0) pSTR STR_SHARE 0x101
  { s with str := { s.str with sets := [(7, { set3 with open_ := false })], stripes := [], unresync := [7 * 4096, 9] } }
theorem test_StripeResyncAndReconstruct_resync : inF unsynced pSTR STR_SHARE 15 8 ≠ 0
    ∧ after (.stripeResync 0 []) unsynced (fun t => t.str.unresync == [9] && rd t pSTR STR_RESYNC_LEFT == 1 && (t.str.journal.getLast?.map fun r => r.payload) == some (.resyncDone (7 * 4096) 0)) = true
    ∧ after (.stripeResync 2 []) unsynced (fun t => (setAt? t 7).any (fun e => e.collect) && rd t pSTR STR_UNRECOVERABLE == 1 && bit (rd t pSTR rIRQ_STATUS) 3) = true := by decide +kernel
/-- A codeword of die 16, block b, at rung 4. -/
def rung4 (b : Nat) : ReadJob := { rjob .a with die := 16, block := b, rung := 4 }
theorem test_StripeResyncAndReconstruct_reconstruct :
    (let s := { unsynced with fch := { unsynced.fch with recon := [rung4 6] } }; setOf? s 16 6 = none
      ∧ after (.stripeReconstruct 9 []) s (fun t => t.fch.recon == [] && t.fch.ready == [(rung4 6, none)] && rd t pSTR STR_RECON_FAIL == 1) = true)
    ∧ (let s := { unsynced with fch := { unsynced.fch with recon := [rung4 5] } }; setOf? s 16 5 = some (7, { set3 with open_ := false }) ∧ stripeOf? s 7 = none) := by decide +kernel
/-- Data members of equal bytes a, and P of bytes b, give the other data member its bytes. -/
theorem test_StripeResyncAndReconstruct_recovers (n : Nat) : recoverMember 2 0 n 1 [(0, List.replicate n 5), (2, List.replicate n 3)] = some (List.replicate n 6) := by
  simp [recoverMember, sumP, xorBytes, List.range, List.range.loop]

/-- Die 0 is retired; its rebuild stands as given. -/
def rebuilding (r : Rebuild) : State := let s := wr unsynced (pFCH 0) FCH_DIE_RETIRED 1
  { s with str := { s.str with rebuilds := if r = Rebuild.idle then [] else [(0, r)], reserve := [(48, 10)] } }
theorem test_RebuildOfADie_start : dieRetired (rebuilding Rebuild.idle) 0 = true
    ∧ after (.rebuildStart 0) (rebuilding Rebuild.idle) (fun t => (rebuildOf t 0).state == .fenced && bit (rd t pSTR rIRQ_STATUS) 0) = true
    ∧ after (.rebuildStart 0) (rebuilding { Rebuild.idle with state := .paused, prev := .census }) (fun t => (rebuildOf t 0).state == .census) = true := by decide +kernel
/-- Its rebuild is in CENSUS; block 5 of it has live slots, or none. -/
def census0 (live : Nat) : State := putBst (rebuilding { Rebuild.idle with state := .census }) 0 5 { Bst.fresh with state := .closed, live := live }
theorem test_RebuildOfADie_census : rebuildShare (census0 9) ≠ 0 ∧ rebuildTodo (census0 9) 0 = [5] ∧ rebuildTodo (census0 0) 0 = []
    ∧ after (.rebuildCensus 0) (census0 9) (fun t => (rebuildOf t 0).state == .restore && (rebuildOf t 0).todo == [5] && (rebuildOf t 0).total == 1) = true
    ∧ after (.rebuildCensus 0) (census0 0) (fun t => (rebuildOf t 0).state == .done && bit (rd t pSTR rIRQ_STATUS) 1) = true
    ∧ after (.rebuildCensus 0) (both (census0 9) pSTR STR_SHARE 0) (fun t => (rebuildOf t 0).state == .paused && (rebuildOf t 0).prev == .census) = true := by decide +kernel
/-- Block 5 of die 0 is to be restored. -/
def restoring : State := rebuilding { Rebuild.idle with state := .restore, todo := [5], total := 1 }
theorem test_RebuildOfADie_restore : jRoom restoring 65536 = true ∧ setOf? restoring 0 5 = some (7, { set3 with open_ := false }) ∧ substituteDie? restoring set3 = some 48 ∧ (allocBlock? restoring 48).isSome = true
    ∧ after (.rebuildRestoreBlock 0 0 1) restoring (fun t => (setAt? t 7).any (fun e => e.substituted && (e.member 0).die == 48 && (e.member 0).sub) && (rebuildOf t 0).done == 1 && (rebuildOf t 0).todo == []) = true
    ∧ after (.rebuildPause 0) (both restoring pSTR STR_SHARE 0) (fun t => (rebuildOf t 0).state == .paused && (rebuildOf t 0).prev == .restore) = true := by decide +kernel
theorem test_RebuildOfADie_copy_out : dieInService unsynced 32 = true ∧ (rebuildOf unsynced 32).state = .none ∧ heldBlocksOf unsynced 32 = [] ∧ ferryRunning unsynced = false := by decide +kernel

/-! ### Work items -/

/-- W3 of an item of cluster 0: environment none, the cores of a mask, level n for PRIO and THRESH. -/
def w3Of (mask n : Nat) : Word := w32 (0x3F000000 + mask * 65536 + n * 17)
/-- An item that starts at 0x100 on core 0, level 3, with arguments 11 and 12. -/
def job : Item := { Item.fresh with w0 := 0x100, arg0 := 11, arg1 := 12, w3 := w3Of 1 3 }
/-- That item in the window, a slot named. -/
def asked (slot : Nat) : State :=
  wr (wr (wr (wr (wr ready pDIS DIS_WI_SEL (w32 slot)) pDIS DIS_WI_W0 0x100) pDIS (DIS_WI_W0 + 4) 11) pDIS (DIS_WI_W0 + 8) 12) pDIS (DIS_WI_W0 + 12) (w3Of 1 3)
theorem test_WorkItemOperations_new : takesWrite (asked 0) sp0 pDIS DIS_WI_OP = true ∧ (asked 0).dis.stopped = false ∧ wiDenied (asked 0) sp0 2 0 = false ∧ windowItem (asked 0) = job
    ∧ badFields (asked 0) job = false ∧ absentItem (asked 0) job = false ∧ lowestFree (asked 0) = some 0x201
    ∧ after (.wiSubmitNew sp0) (asked 0) (fun t => itemOf t 0x201 == { job with state := .ready } && queueOf t 3 == [0x201] && rd t pDIS DIS_WI_STATUS == 0x02010030) = true
    ∧ after (.wiSubmitNew sp0) (wr (asked 0) pDIS (DIS_WI_W0 + 16) 500) (fun t => (itemOf t 0x201).state == .delayed && t.dis.delayed == [0x201]) = true := by decide +kernel
theorem test_WorkItemOperations_fill : wiDenied (asked 7) sp0 3 7 = false ∧ (itemOf (asked 7) 7).state = .free
    ∧ after (.wiSubmit sp0) (asked 7) (fun t => itemOf t 7 == { job with state := .waiting }) = true
    ∧ after (.wiSubmit sp0) (asked 0x201) (fun t => (itemOf t 0x201).state == .ready && queueOf t 3 == [0x201]) = true
    ∧ after (.wiArm sp0) (asked 0x300) (fun t => itemOf t 0x300 == { job with state := .waiting }) = true := by decide +kernel
/-- The named slot holds the item, READY or in another state. -/
def holding (n : Nat) (st : ItemState) : State := { putItem (asked n) n { job with state := st } with dis := { (putItem (asked n) n { job with state := st }).dis with queues := if st = .ready then [(3, [n])] else [] } }
theorem test_WorkItemOperations_end :
    after (.wiRead sp0) (holding 0x201 .ready) (fun t => rd t pDIS DIS_WI_W0 == 0x100 && rd t pDIS (DIS_WI_W0 + 28) == 3 && rd t pDIS DIS_WI_STATUS == 0x02010030) = true
    ∧ after (.wiCancel sp0) (holding 0x201 .ready) (fun t => (itemOf t 0x201).state == .free && queueOf t 3 == []) = true
    ∧ after (.wiCancel sp0) (holding 7 .waiting) (fun t => (itemOf t 7).state == .free) = true
    ∧ after (.wiRelease sp0) { holding 0x201 .failed with dis := { (holding 0x201 .failed).dis with failures := [0x201, 9] } } (fun t => (itemOf t 0x201).state == .free && t.dis.failures == [9]) = true := by decide +kernel

/-- The interrupt slot of `LND` in a state, the page's interrupt raised. -/
def ringing (st : ItemState) : State := wr (wr (putItem ready pLND { job with state := st }) pLND rIRQ_STATUS 1) pLND rIRQ_ENABLE 1
theorem test_WorkItemScheduling_interrupt : pageUp (ringing .waiting) pDIS = true ∧ irqRaised (ringing .waiting) pLND = true ∧ (ringing .waiting).dis.inject = []
    ∧ after (.pageInterrupt (BitVec.ofNat 12 pLND)) (ringing .waiting) (fun t => (itemOf t pLND).state == .ready && queueOf t 3 == [pLND]) = true
    ∧ after (.pageInterrupt (BitVec.ofNat 12 pLND)) (ringing .free) (fun t => rd t pDIS DIS_EVENT_MISS == 1) = true
    ∧ after (.pageInterrupt (BitVec.ofNat 12 pLND)) (ringing .running) (fun t => (itemOf t pLND).pending) = true := by decide +kernel
/-- A delayed item due at 5 ms. -/
def delayedOne : State := let s := putItem ready 0x201 { job with state := .delayed, due := 5000000 }
  { s with dis := { s.dis with delayed := [0x201] } }
theorem test_WorkItemScheduling_tick : inF delayedOne pDIS DIS_TICK 13 0 ≠ 0 ∧ 8000000 % inF delayedOne pDIS DIS_TICK 13 0 = 0
    ∧ after (.dispatcherTick 8000000) delayedOne (fun t => t.dis.delayed == [] && (itemOf t 0x201).state == .ready && queueOf t 3 == [0x201]) = true := by decide +kernel
/-- Core 0 of cluster 0 is idle and a READY item waits for it. -/
def waiting1 : State := setCore (holding 0x201 .ready) 0 { Core.fresh with mode := .idle }
theorem test_WorkItemScheduling_dispatch : ((coresOf 0).all fun m => coreFree waiting1 m == (m == 0)) = true ∧ nextFor waiting1 0 = some 0x201 ∧ (itemOf waiting1 0x201).env = 0x3F
    ∧ after (.itemDispatch 0 0) waiting1 (fun t => (coreOf t 0).mode == .run && (coreOf t 0).pc == 0x100 && (coreOf t 0).reg 4 == 11 && (coreOf t 0).reg 5 == 12
      && t.dis.running.get? 0 == some 0x201 && (itemOf t 0x201).state == .running && queueOf t 3 == []) = true := by decide +kernel
/-- Core 0 runs an item of THRESH 3 in slot 0x201; an item of level 4 in slot 0x202 is READY; 16 context slots at 0. -/
def crowded : State :=
  let s := putItem (putItem (setCore ready 0 { Core.fresh with mode := .run, pc := 0x340 }) 0x201 { job with state := .running }) 0x202 { job with w0 := 0x200, w3 := w3Of 1 4, state := .ready }
  let s := wrForce (wr s pDIS DIS_CTX_AREA 0x00100000) pDIS DIS_CTX_AREA 0x00100000
  { s with dis := { s.dis with queues := [(4, [0x202])], running := [(0, 0x201)] } }
theorem test_WorkItemScheduling_preempt : preemptPick crowded 0 = some (0x202, 0) ∧ ctxCount crowded 0 = 16 ∧ (freeContext crowded 0).isSome = true ∧ (cluOf crowded 0).load = none
    ∧ pageUp crowded (pNCL 0) = true
    ∧ after (.itemPreempt 0 0) crowded (fun t => (itemOf t 0x201).state == .preempted && queueOf t 3 == [0x201] && t.dis.running.get? 0 == some 0x202 && (coreOf t 0).pc == 0x200 && (coreOf t 0).mode == .run) = true := by
  decide +kernel
theorem test_WorkItemScheduling_reads : takesRead ready sp0 pDIS DIS_FAIL_NEXT = true ∧ takesRead ready sp0 pDIS DIS_CORE_BUSY_LO = true ∧ takesWrite ready sp0 pDIS DIS_HIST_CLEAR = true
    ∧ after (.failNextRead sp0) ready (fun t => t.com.answer == .data [0xFF, 0xFF, 0, 0]) = true
    ∧ after (.failNextRead sp0) { ready with dis := { ready.dis with failures := [0x201, 0x202] } } (fun t => t.com.answer == .data [1, 2, 0, 0] && t.dis.failures == [0x202] && rd t pDIS DIS_FAIL_NEXT == 0x202) = true
    ∧ after (.histClear sp0 1) { ready with dis := { ready.dis with hist := [(3, 9)] } } (fun t => t.dis.hist == []) = true
    ∧ after (.coreBusyLoRead sp0) { ready with dis := { ready.dis with busy := [(0, 0x300000005)] } } (fun t => t.com.answer == .data [5, 0, 0, 0] && rd t pDIS DIS_CORE_BUSY_HI == 3) = true := by decide +kernel

/-- Landing holds at 0 an image of one D-TCM section: mask 1, destination 0x40, 8 bytes at 64; cluster 0's cores are idle and the page names it. -/
def image : State :=
  let s := (coresOf 0).foldl (fun s n => setCore s n { Core.fresh with mode := .idle, trapBase := 0x800 }) ready
  let s := wr (wr s (pNCL 0) NCL_LOAD_SRC_LO 0x4000000) (pNCL 0) NCL_LOAD_SRC_HI 0
  { s with mem := { s.mem with landing := (s.mem.landing.writeN 0 ([2, 1, 0, 0] ++ bytesLE 4 0x40 ++ bytesLE 4 8 ++ bytesLE 4 64)).writeN 64 [1, 2, 3, 4, 5, 6, 7, 8] } }
theorem test_ClusterLoadResetRetire_load : takesWrite image sp0 (pNCL 0) NCL_LOAD_CTRL = true ∧ bit (rd image (pNCL 0) NCL_LOAD_STATUS) 31 = false
    ∧ sectionOf (image.mem.landing.readN 0 16) = ⟨2, 1, 0x40, 8, 64⟩ ∧ domainUp image 7 = true ∧ (cluOf image 0).load = none ∧ image.com.chip.hasCluster 0 = true
    ∧ (coreOf image 0).mode = .idle ∧ coreRetired image 0 = false
    ∧ after (.clusterLoadStart sp0 0 0x101) image (fun t => (coreOf t 0).dtcm.readN 0x40 8 == [1, 2, 3, 4, 5, 6, 7, 8] && (coreOf t 0).mode == .run && (coreOf t 0).pc == 0x800
      && coreOf t 1 == coreOf image 1 && rd t (pNCL 0) NCL_LOAD_STATUS == 0 && bit (rd t (pNCL 0) rIRQ_STATUS) 2) = true := by decide +kernel
/-- Core 1 of cluster 0 runs an item. -/
def oneRuns : State := let s := putItem (setCore image 1 { Core.fresh with mode := .run }) 0x201 { job with state := .running }
  { s with dis := { s.dis with running := [(1, 0x201)] } }
theorem test_ClusterLoadResetRetire_reset : takesWrite image sp0 (pNCL 0) NCL_CORE_RESET = true
    ∧ after (.coreReset sp0 0 1) (setCore image 0 { Core.fresh with mode := .halted, trapBase := 0x900, pc := 4, runmode := 2 }) (fun t => (coreOf t 0).pc == 0x900 && (coreOf t 0).runmode == 0 && coreOf t 1 == coreOf image 1) = true := by
  decide +kernel
theorem test_ClusterLoadResetRetire_retire : takesWrite oneRuns sp0 (pNCL 0) NCL_CORE_RETIRE = true ∧ fld 2 7 0 = 2 ^ 1 ∧ coreRetired oneRuns 1 = false ∧ coreInService oneRuns 0 = true := by decide +kernel

/-! ### Error injection and register commands -/

/-- A page's expert gate is open for core 0 of the security processor. -/
def unlocked (s : State) (p : Nat) : State := wr s p rUNLOCK (w32 (sp0.num * 2 ^ 24 + 1))
/-- INJECT_EN is set and the gates of the pages below are open. -/
def injectable : State := [pHF false, pNQE, pFCH 2, pLDS, pMAP, pSTR, pPMU, pDMC 1, pLND, pMRM, pNCL 2, pDIS, pCVN 3, pMTE, pDGE 1, pKEY, pSCP, pSPN, pCLE, pFLT].foldl unlocked (wr ready pFLT FLT_INJECT_EN 1)
theorem test_ErrInjectArms_pages : (let s := injectable;
    takesWrite s sp0 (pHF false) HF_ERR_INJECT = true ∧ takesWrite s sp0 pNQE NQE_ERR_INJECT = true ∧ takesWrite s sp0 (pFCH 2) FCH_ERR_INJECT = true ∧ takesWrite s sp0 pLDS LDS_ERR_INJECT = true
    ∧ takesWrite s sp0 pMAP MAP_ERR_INJECT = true ∧ takesWrite s sp0 pSTR STR_ERR_INJECT = true ∧ takesWrite s sp0 pPMU PMU_ERR_INJECT = true ∧ takesWrite s sp0 (pDMC 1) DMC_ERR_INJECT = true
    ∧ takesWrite s sp0 pLND LND_ERR_INJECT = true ∧ takesWrite s sp0 pMRM MRM_ERR_INJECT = true ∧ takesWrite s sp0 (pNCL 2) NCL_ERR_INJECT = true ∧ takesWrite s sp0 pDIS DIS_ERR_INJECT = true
    ∧ takesWrite s sp0 (pCVN 3) CVN_ERR_INJECT = true ∧ takesWrite s sp0 pMTE MTE_ERR_INJECT = true ∧ takesWrite s sp0 (pDGE 1) DGE_ERR_INJECT = true ∧ takesWrite s sp0 pKEY KEY_ERR_INJECT = true
    ∧ takesWrite s sp0 pSCP SCP_ERR_INJECT = true ∧ takesWrite s sp0 pSPN SPN_ERR_INJECT = true ∧ takesWrite s sp0 pCLE CLE_ERR_INJECT = true ∧ takesWrite s sp0 pFLT FLT_ERR_INJECT = true) := by decide +kernel
theorem test_ErrInjectArms_port : after (.hfaErrInject sp0 false 2) injectable (fun t => bit (rd t (pHF false) HF_AER_SUMMARY) 12) = true := by decide +kernel
theorem test_ErrInjectArms_nqe : after (.nqeErrInject sp0 2) injectable (fun t => t.hst.nqeInject == [2]) = true := by decide +kernel
theorem test_ErrInjectArms_flash : after (.fchErrInject sp0 2 0x305) injectable (fun t => (chanOf t 2).inject == [(3, 5)]) = true ∧ after (.ldsErrInject sp0 0x41) injectable (fun t => t.fch.ldsInject == [(4, 1)]) = true := by decide +kernel
theorem test_ErrInjectArms_map : after (.mapErrInject sp0 3) injectable (fun t => t.map.inject == [3]) = true ∧ after (.strErrInject sp0 4) injectable (fun t => t.str.inject == [4]) = true := by decide +kernel
theorem test_ErrInjectArms_memory : after (.dmcErrInject sp0 1 0x12) injectable (fun t => t.mem.dmcInject == [(1, 1, 2)]) = true ∧ after (.lndErrInject sp0 0x701) injectable (fun t => t.mem.lndInject == [(7, 1)]) = true
    ∧ after (.mrmErrInject sp0 0x14) injectable (fun t => t.mem.mrmInject == [(1, 4)]) = true := by decide +kernel
theorem test_ErrInjectArms_cores : after (.nclErrInject sp0 2 0x35) injectable (fun t => (cluOf t 2).inject == [(3, 5)]) = true ∧ after (.disErrInject sp0 0x21) injectable (fun t => t.dis.inject == [(2, 1)]) = true
    ∧ after (.cvnErrInject sp0 3 4) injectable (fun t => (cvnOf t 3).inject == [4]) = true := by decide +kernel
theorem test_ErrInjectArms_keys : after (.mteErrInject sp0 0x50003) injectable (fun t => (badOf t 5).shadow && (badOf t 5).row && !(badOf t 5).array) = true ∧ after (.dgeErrInject sp0 1 2) injectable (fun t => (dgeOf t 1).corrupt) = true
    ∧ after (.keyErrInject sp0 1) injectable (fun t => t.key.failUnwrap) = true ∧ after (.keyErrInject sp0 3) (wr injectable pKEY KEY_KSEL 9) (fun t => (slotOf t 9).counter == 2 ^ 64 - 2) = true
    ∧ after (.scpErrInject sp0 0x12) injectable (fun t => t.bot.inject == [(2, 1)]) = true := by decide +kernel
theorem test_ErrInjectArms_power : after (.pmuErrInject sp0 0x203) injectable (fun t => t.pwr.inject == [(2, 3)]) = true ∧ after (.cleErrInject sp0 2) injectable (fun t => t.pwr.heated == some (0, 1000000)) = true
    ∧ after (.cleErrInject sp0 4) injectable (fun t => rdF t pCLE CLE_TOKEN_NOW 26 16 == inF ready pCLE CLE_TOKEN_MIN 10 0) = true := by decide +kernel
theorem test_ErrInjectArms_span : after (.spnErrInject sp0 4) injectable (fun t => t.spn.skew == 10) = true ∧ after (.spnErrInject sp0 1) injectable (fun t => t.spn.inject == [1]) = true
    ∧ after (.fltErrInject sp0 1) injectable (fun t => t.com.log.badNext) = true ∧ after (.fltErrInject sp0 2) injectable (fun t => t.flt.holdQueue) = true := by decide +kernel

theorem test_RegisterCommandWrites_margin : takesWrite (unlocked ready (pHF true)) sp0 (pHF true) HF_MARGIN_CTRL = true ∧ after (.marginCtrlWrite sp0 true 5) (unlocked ready (pHF true)) (fun t => rd t (pHF true) HF_MARGIN_CTRL == 5) = true := by decide +kernel
theorem test_RegisterCommandWrites_retire : takesWrite chan0 sp0 (pFCH 0) FCH_RETIRE_REQ = true ∧ bit 0 31 = false ∧ dieInService chan0 0 = true := by decide +kernel
theorem test_RegisterCommandWrites_views : takesWrite ready sp0 pMAP MAP_BST_SEL = true ∧ takesWrite ready sp0 pSTR STR_RB_SEL = true
    ∧ after (.bstSelWrite sp0 0x10005) (putBst ready 1 5 { Bst.fresh with live := 300, jseqLast := 7, pins := 2, closeStamp := 9 }) (fun t =>
      rd t pMAP (MAP_BST_W0 + 4) == 300 && rd t pMAP (MAP_BST_W0 + 8) == 7 && rd t pMAP (MAP_BST_W0 + 12) == 0x20009) = true
    ∧ after (.rbSelWrite sp0 33) { ready with str := { ready.str with rebuilds := [(33, { Rebuild.idle with state := .restore, done := 4, total := 6 })] } } (fun t =>
      rdF t pSTR STR_RB_STATE 7 0 == RbState.restore.code && rd t pSTR STR_RB_DONE == 4 && rd t pSTR STR_RB_TOTAL == 6) = true := by decide +kernel
theorem test_RegisterCommandWrites_tokens : takesWrite ready sp0 pCLE CLE_TOKEN_CEIL = true ∧ after (.tokenCeilWrite sp0 0x7FF) ready (fun t => rd t pCLE CLE_TOKEN_CEIL == w32 (max (inF ready pCLE CLE_TOKEN_MIN 10 0) (inF ready pCLE CLE_TOKEN_MAX 10 0))) = true := by decide +kernel
theorem test_RegisterCommandWrites_ireset : takesWrite ready sp0 pFLT FLT_IRESET = true ∧ (islandPage? ready 0x22).isSome = true ∧ islandRetired ready 0x22 = false
    ∧ after (.ireset sp0 0x22) ready (fun t => t.flt.resets == [0x122] && rd t pFLT FLT_IRESET_STATUS == 0x80002200) = true := by decide +kernel
theorem test_RegisterCommandWrites_log : takesWrite ready sp0 pFLT FLT_LOG_WRITE = true ∧ ready.com.log.queue.length < 256 ∧ ready.flt.holdQueue = false
    ∧ after (.logWrite sp0 0x123) (wr (wr ready pFLT FLT_LOG_D0 5) pFLT FLT_LOG_D1 6) (fun t => t.com.log.queue.any fun q => match q with
      | .entry x => x.kind == 7 && x.cause == 0x123 && x.detail == 0x600000005
      | _ => false) = true := by decide +kernel
/-- Ring 3 of caravan 0, enabled, of 8 entries at 0x0400_0000. -/
def ring3 : State := [(0x00, 0x04000000), (0x04, 0), (0x08, 0x80000F03)].foldl (fun s f => both s (pCVN 0) (rgOff 3 f.1) (w32 f.2)) ready
theorem test_RegisterCommandWrites_rings : takesWrite ring3 sp0 (pCVN 0) (rgOff 3 0x14) = true ∧ takesWrite ring3 sp0 (pCVN 0) (rgOff 3 0x1C) = true ∧ rgSize ring3 0 3 = 3 ∧ ringDist 3 (rgHead ring3 0 3) 8 ≤ 2 ^ 3
    ∧ after (.ringTailWrite sp0 0 3 8) ring3 (fun t => rd t (pCVN 0) (rgOff 3 0x14) == 8) = true ∧ after (.ringCplHeadWrite sp0 0 3 17) ring3 (fun t => rd t (pCVN 0) (rgOff 3 0x1C) == 1) = true := by decide +kernel
theorem test_RegisterCommandWrites_caravan : takesWrite ready sp0 (pCVN 5) CVN_RETIRE = true ∧ bit (rd ready (pCVN 5) rSTATUS) 1 = false ∧ cvnOf ready 5 = Caravan.idle
    ∧ ((List.range 8).all fun q => decide (q < 3) || !rgOn ready 5 q) = true := by decide +kernel

/-! ### Caravans -/

/-- A job with no stage: 16 bytes at 0x0400_1000 to 0x0400_2000, interrupt asked, TAG 77. -/
def moveJob : List Byte := [0, 35, 3, 0] ++ List.replicate 12 0 ++ bytesLE 6 0x4001000 ++ [0, 0] ++ bytesLE 4 16 ++ bytesLE 4 64 ++ bytesLE 6 0x4002000 ++ List.replicate 22 0 ++ bytesLE 4 77
/-- It is in ring 3, TAIL past it; its input is 1 to 16. -/
def posted : State := let s := wr ring3 (pCVN 0) (rgOff 3 0x14) 1
  { s with mem := { s.mem with landing := Mem.writeN (Mem.writeN [] 0 moveJob) 0x1000 ((List.range 16).map fun i => BitVec.ofNat 8 (i + 1)) } }
/-- No caravan takes path jobs. -/
def noPaths : State := (List.range 16).foldl (fun s n => both s (pCVN n) CVN_PATH_CTRL 0) ready
theorem test_CaravanJobLife_path : (pathOrder noPaths 0).find? (pathFits noPaths 0) = none ∧ after (.pathJobPost 0 0 5 6 7) noPaths (fun t => t.cvn.waiting == [(0, ⟨List.replicate 64 0, 5, 6, 7, false⟩)]) = true
    ∧ (let s := both noPaths (pCVN 4) CVN_PATH_CTRL 1; (pathOrder s 0).find? (pathFits s 0) = some 4
      ∧ after (.pathJobPost 0 0 5 6 7) s (fun t => (cvnOf t 4).paths.getD 0 [] == [⟨List.replicate 64 0, 5, 6, 7, false⟩] && t.cvn.turn.get? 0 == some 4) = true) := by decide +kernel
theorem test_CaravanJobLife_admit : cvnServes posted 0 = true ∧ admissible posted 0 3 = true ∧ admitHeld posted (pCVN 0) = false ∧ landingSound posted = true ∧ rgBase posted 0 3 = 0x4000000 + 0
    ∧ posted.mem.landing.readN 0 64 = moveJob ∧ stageOn moveJob 3 = false ∧ validateDesc moveJob 3 0 0 (jobFrom posted 0 3 moveJob none).saveBase false none = none
    ∧ after (.caravanJobAdmit 0 3) posted (fun t => (cvnOf t 0).heads.get? 3 == some (jobFrom posted 0 3 moveJob none) && rgHead t 0 3 == 1) = true := by decide +kernel
/-- The same descriptor as a path job of path 0. -/
def pathMove : PathJob := ⟨moveJob, 5, 6, 7, false⟩
theorem test_CaravanJobLife_admit_path : (let s := putCvn (both ready (pCVN 0) CVN_PATH_CTRL 1) 0 { Caravan.idle with paths := [(0, [pathMove])] }
      cvnServes s 0 = true ∧ admissible s 0 0 = true ∧ admitHeld s (pCVN 0) = false ∧ validateDesc moveJob 0 (inF s (pCVN 0) (rgOff 0 0x10) 7 0) (inF s (pCVN 0) (rgOff 0 0x10) 16 8) (jobFrom s 0 0 moveJob (some pathMove)).saveBase false none = none
      ∧ after (.caravanJobAdmit 0 0) s (fun t => (cvnOf t 0).heads.get? 0 == some (jobFrom s 0 0 moveJob (some pathMove)) && (cvnOf t 0).paths.getD 0 [] == []) = true) := by decide +kernel
/-- The admitted job. -/
def move3 : CvnJob := jobFrom posted 0 3 moveJob none
/-- Caravan 0 in a state. -/
def caravan0 (c : Caravan) : State := putCvn posted 0 c
theorem test_CaravanJobLife_start : (let s := caravan0 { Caravan.idle with heads := [(3, move3)] }
      caravanHeld (advance s 5) = false ∧ chosen? (candidates (cvnOf s 0)) = some move3 ∧ landingSound s = true ∧ jStages moveJob = 0 ∧ jFirst moveJob = true ∧ jLast moveJob = true ∧ move3.owner = none
      ∧ jInAddr moveJob = 0x4000000 + 0x1000 ∧ jOutAddr moveJob = 0x4000000 + 0x2000 ∧ jInLen moveJob = 16 ∧ jOutLen moveJob = 64
      ∧ after (.caravanJobStart 0 [] 5) s (fun t => t.mem.landing.readN 0x2000 16 == s.mem.landing.readN 0x1000 16 && (cvnOf t 0).heads == []
        && (cvnOf t 0).running.any (fun j => j.started == 5 && j.result.any (fun r => r.status == 0 && r.outBytes == 16))) = true) := by decide +kernel
/-- It runs, its work done. -/
def running3 : CvnJob := { move3 with started := 5, result := some ⟨0, 0, 16, 0, [], Streams.fresh, 0⟩ }
theorem test_CaravanJobLife_end : (let s := caravan0 { Caravan.idle with running := some running3 }
      cyclesLeft { advance s 9 with com := { (advance s 9).com with time := (advance s 9).com.time - BitVec.ofNat 64 0 } } running3 = 0 ∧ running3.base = 0x4000000 + 0 ∧ move3.hasSlots = false
      ∧ after (.caravanJobEnd 0 0 9) s (fun t => t.mem.landing.readN (64 * 8) 16 == [0, 0, 0, 0, 77, 0, 0, 0, 16, 0, 0, 0, 0, 0, 0, 1] && rgProd t 0 3 == 1 && (cvnOf t 0).running == none
        && rd t (pCVN 0) CVN_JOBS_DONE == 1 && bit (rd t (pCVN 0) rIRQ_STATUS) 3) = true) := by decide +kernel
/-- A job of ring 4 at priority 15 against the running one with much to do. -/
def slow3 : CvnJob := { running3 with hasSlots := true, result := some ⟨0, 0, 16, 0, [], Streams.fresh, 1000000⟩ }
def urgent : CvnJob := { move3 with ring := 4, prio := 15 }
theorem test_CaravanJobLife_suspend : (let s := caravan0 { Caravan.idle with running := some slow3, heads := [(4, urgent)] }
      chosen? (candidates (cvnOf s 0)) = some urgent ∧ inF s (pCVN 0) CVN_SUSP_MARGIN 3 0 ≠ 0 ∧ slow3.prio + inF s (pCVN 0) CVN_SUSP_MARGIN 3 0 ≤ urgent.prio ∧ suspendable slow3 = true ∧ cyclesLeft (advance s 9) slow3 ≠ 0
      ∧ after (.caravanSuspend 0 9) s (fun t => (cvnOf t 0).running == none && (cvnOf t 0).suspended == [{ slow3 with susp := 1, ran := 4 }] && rd t (pCVN 0) CVN_SUSP_COUNT == 1) = true) := by decide +kernel

/-! ### Match engine, digests, keys -/

/-- A match entry for key 0xAB of a priority. -/
def entryAB (prio : Nat) : MatchEntry := ⟨0xAB, 0xFF, prio, 0x77, true⟩
/-- Two entries of partition 0 match 0x1AB: 4 and 6. -/
def matches2 : State := wr { ready with mte := { ready.mte with entries := [(4, entryAB 5), (6, entryAB 9)] } } pMTE MTE_VALUE0 0x1AB
theorem test_MatchEngine_lookup : pageUp matches2 pMTE = true ∧ winner (matching matches2 0 0x1AB) = some (6, entryAB 9, false) ∧ winner (matching matches2 0 0) = none
    ∧ after (.matchLookup 0 0x1AB) matches2 (fun t => t.mte.last == some (true, false, 6, 9, 0x77) && rd t pMTE MTE_LOOKUPS == 1 && rd t pMTE MTE_HITS == 1) = true
    ∧ after (.matchLookup 0 0) matches2 (fun t => t.mte.last == some (false, false, 0, 0, 0)) = true := by decide +kernel
/-- The window of partition 0 holds 0xCD under mask 0xFF, priority 3, result 8, index 4. -/
def window0 : State := [(MTE_VALUE0, 0xCD), (MTE_MASK0, 0xFF), (MTE_W_PRIO, 3), (MTE_W_RESULT, 8), (MTE_W_INDEX, 4)].foldl (fun s f => wr s pMTE f.1 (w32 f.2)) matches2
theorem test_MatchEngine_window : takesWrite window0 sp0 pMTE MTE_W_OP = true ∧ mteAllowed window0 sp0 0 = true ∧ partOn window0 0 = true ∧ 4 < partSize window0 0 ∧ winEntry window0 0 = ⟨0xCD, 0xFF, 3, 8, true⟩
    ∧ after (.mteLookup sp0 0) matches2 (fun t => rd t pMTE MTE_W_INDEX == 6 && rd t pMTE MTE_W_PRIO == 9 && rd t pMTE MTE_W_RESULT == 0x77 && bit (rd t pMTE MTE_WSTATUS) 8) = true
    ∧ after (.mteRead sp0 0) window0 (fun t => winEntry t 0 == entryAB 5 && bit (rd t pMTE MTE_WSTATUS) 10) = true
    ∧ after (.mteUpdate sp0 0) window0 (fun t => matchEntry t 4 == ⟨0xCD, 0xFF, 3, 8, true⟩ && matchEntry t 6 == entryAB 9 && rd t pMTE MTE_UPDATES == 1) = true
    ∧ after (.mteInvalidate sp0 0) window0 (fun t => matchEntry t 4 == { entryAB 5 with valid := false }) = true
    ∧ holeFrom window0 0 4 = some 5 ∧ after (.mteInsert sp0 0) window0 (fun t => matchEntry t 4 == ⟨0xCD, 0xFF, 3, 8, true⟩ && matchEntry t 5 == entryAB 5 && matchEntry t 6 == entryAB 9) = true := by decide +kernel
theorem test_MatchEngine_sweep : inF ready pMTE MTE_SWEEP 15 0 ≠ 0
    ∧ after (.mteSweep (10 ^ 12)) { matches2 with mte := { matches2.mte with bad := [(4, ⟨false, true, false⟩)] } } (fun t => t.mte.bad.isEmpty && matchEntry t 4 == entryAB 5 && rd t pMTE MTE_REPAIRS == 1 && bit (rd t pMTE rIRQ_STATUS) 0) = true := by
  decide +kernel

/-- Engine 1 is set for SHA-256 words. -/
def sha : State := wr ready (pDGE 1) DGE_JOB_CFG 0x201
/-- A job of SHA-256 with three bytes absorbed. -/
def job1 (feed : Nat) : DigestJob := ⟨1, feed, 0, 3, List.replicate 200 9, 0, [1, 2, 3], 0, 0, 0, [], 0, 32⟩
/-- Engine 1 runs or pauses it. -/
def digesting (st : Word) (feed : Nat) : State := putDge (wr sha (pDGE 1) DGE_DSTATUS (st * 65536)) 1 { Digest.idle with job := some (job1 feed), window := windowOf (job1 feed) }
theorem test_DigestJobs_start : takesWrite sha sp0 (pDGE 1) DGE_CMD = true ∧ dgeState sha 1 = 0 ∧ bit (rd sha (pDGE 1) rSTATUS) 1 = false ∧ digestBlock 1 = 64 ∧ isHmac 1 = false ∧ rdF sha (pDGE 1) DGE_LAST_VALID 3 0 = 0
    ∧ rdF sha (pDGE 1) DGE_XOF_LEN 6 0 = 32 ∧ after (.dgeStart sp0 1) sha (fun t => dgeState t 1 == 1 && (dgeOf t 1).job.any (fun j => j.alg == 1 && j.feed == 2 && j.count == 0)) = true := by decide +kernel
theorem test_DigestJobs_run : takesWrite (digesting 1 2) sp0 (pDGE 1) DGE_CMD = true ∧ takesWrite (digesting 1 2) sp0 (pDGE 1) DGE_DATA_HI = true ∧ dgeState (digesting 1 2) 1 = 1
    ∧ after (.dgeDataHiWrite sp0 1 0x0B0A0908) (wr (digesting 1 2) (pDGE 1) DGE_DATA_LO 0x07060504) (fun t => (dgeOf t 1).job == some { job1 2 with carry := [1, 2, 3, 4, 5, 6, 7, 8, 9, 10, 11], nextOff := 11 }) = true
    ∧ after (.dgePause sp0 1) (digesting 1 2) (fun t => dgeState t 1 == 2 && bit (rd t (pDGE 1) rIRQ_STATUS) 1) = true
    ∧ dgeState (digesting 2 2) 1 = 2 ∧ after (.dgeResume sp0 1) (digesting 2 2) (fun t => dgeState t 1 == 1 && (dgeOf t 1).job.any (fun j => j.h == (job1 2).h && j.carry == [1, 2, 3])) = true
    ∧ after (.dgeAbort sp0 1) (digesting 1 2) (fun t => (dgeOf t 1).job == none && dgeState t 1 == 0) = true := by decide +kernel
/-- Engine 1 has read nothing yet of 64 bytes at 0x0400_0040. -/
def dmaJob : DigestJob := ⟨1, 0, 0, 0, fit 200 (Config.digestInit 1), 0, [], 64, 0, 0, [], 0x4000040, 32⟩
def dma : State := putDge (wr (wr sha (pDGE 1) DGE_DSTATUS 0x10000) (pDGE 1) DGE_SRC_LO 0x4000040) 1 { Digest.idle with job := some dmaJob }
theorem test_DigestJobs_dma : (dgeOf dma 1).job = some dmaJob ∧ dmaJob.h = fit 200 (Config.digestInit dmaJob.alg) := ⟨rfl, rfl⟩
theorem test_DigestJobs_dma_place : pageUp dma (pDGE 1) = true ∧ dgeState dma 1 = 1 ∧ landingSound dma = true ∧ dmaJob.src = 0x4000000 + 64 ∧ rdF dma (pDGE 1) DGE_LAST_VALID 3 0 = 0 := by decide +kernel
/-- The snoop digest is set for SHA-384 of stream 2, and runs a job. -/
def snoop : State := wr ready pSCP SCP_SN_CFG 0x202
theorem test_DigestJobs_snoop : takesWrite snoop sp0 pSCP SCP_SN_CMD = true ∧ rdF snoop pSCP SCP_SN_STATUS 18 16 = 0 ∧ rdF snoop pSCP SCP_SN_CFG 7 0 = 2 ∧ digestBlock 2 = 128 ∧ rdF snoop pSCP SCP_SN_CFG 11 8 = 2
    ∧ after (.snStart sp0) snoop (fun t => rdF t pSCP SCP_SN_STATUS 18 16 == 1 && t.key.sn.job.any (fun j => j.alg == 2 && j.snoop == 2)) = true
    ∧ after (.snAbort sp0) { snoop with key := { snoop.key with sn := { Digest.idle with job := some (job1 3) } } } (fun t => t.key.sn.job == none) = true := by decide +kernel

/-- Slot 0x500, resident, holds an AES-GCM key of generation 4. -/
def gcm : KeySlot := { KeySlot.fresh with state := .valid, type := 2, use := 3, klen := 32, tenant := 7, gen := 4, key := List.replicate 32 5 }
/-- It is selected, with a slot record in the window: VALID, type 2, use 3, 32 bytes of 0x11. -/
def keyed (x : KeySlot) : State :=
  let s := putSlot { ready with key := { ready.key with resident := [0x500] } } 0x500 x
  (List.range 8).foldl (fun s i => wr s pKEY (KEY_KDATA0 + 4 * i) 0x11111111) (wr (wr (wr s pKEY KEY_KSEL 0x500) pKEY KEY_KATTR0 0x20030201) pKEY KEY_RNG_STATUS 3)
theorem test_KeyStore_slot : takesWrite (keyed gcm) sp0 pKEY KEY_KOP = true ∧ isResident (keyed gcm) 0x500 = true ∧ reservedSlot 0x500 = false ∧ pinnedCount (keyed gcm) < 3840
    ∧ after (.kopRead sp0) (keyed gcm) (fun t => rd t pKEY KEY_KATTR0 == 0x20030201 && rd t pKEY (KEY_KATTR0 + 4) == 0x40007) = true
    ∧ after (.kopClear sp0) (keyed gcm) (fun t => slotOf t 0x500 == { gcm with state := .empty, key := [], gen := 5, dirty := true } && rd t pKEY KEY_KSTATUS == 256) = true
    ∧ after (.kopPin sp0) (keyed gcm) (fun t => slotOf t 0x500 == { gcm with pin := true, dirty := true }) = true
    ∧ after (.kopUnpin sp0) (keyed { gcm with pin := true }) (fun t => slotOf t 0x500 == { gcm with dirty := true }) = true
    ∧ after (.kopLock sp0) (keyed gcm) (fun t => slotOf t 0x500 == { gcm with locked := true, dirty := true }) = true
    ∧ after (.kopUnlock sp0) (keyed { gcm with locked := true }) (fun t => slotOf t 0x500 == { gcm with dirty := true }) = true
    ∧ after (.kopRotate sp0) (keyed gcm) (fun t => slotOf t 0x500 == { gcm with state := .rotate, dirty := true } && bit (rd t pKEY rIRQ_STATUS) 0) = true := by decide +kernel
theorem test_KeyStore_load : recordFits 0x500 1 (windowSlot (keyed KeySlot.fresh)) = true ∧ xtsHalvesEqual (windowSlot (keyed KeySlot.fresh)) = false ∧ drbgSeeded (keyed KeySlot.fresh) = true
    ∧ after (.kopLoad sp0) (keyed KeySlot.fresh) (fun t => (slotOf t 0x500).key == List.replicate 32 0x11 && (slotOf t 0x500).gen == 1 && (slotOf t 0x500).state == .valid && rd t pKEY KEY_KDATA0 == 0) = true
    ∧ after (.kopGenerate sp0) (keyed KeySlot.fresh) (fun t => (slotOf t 0x500).gen == 1 && (slotOf t 0x500).key.length == 32) = true := by decide +kernel
/-- A wrap area at the bottom of DRAM, the slot not resident. -/
def wrapped : State := { both (keyed gcm) pKEY KEY_WRAP_BASE 0x10000 with key := { (keyed gcm).key with resident := [] } }
theorem test_KeyStore_unwrap : pageUp wrapped pKEY = true ∧ isResident wrapped 0x500 = false ∧ wrapBase wrapped ≠ 0 ∧ (slotOf wrapped 0x500).broken = false
    ∧ (dramRead (bump wrapped pKEY KEY_UNWRAPS 1) (wrapOff wrapped 0x500) 96).2.isSome = true
    ∧ after (.keyUnwrap 0x500 true) wrapped (fun t => t.key.resident == [0x500] && rd t pKEY KEY_UNWRAPS == 1) = true := by decide +kernel
theorem test_KeyStore_suspend : wrapBase (both (keyed gcm) pKEY KEY_WRAP_BASE 0x10000) ≠ 0
    ∧ after .keyStoreRestore { wrapped with key := { wrapped.key with keep := some [0x500] } } (fun t => t.key.resident == [] && t.key.keep == none && slotOf t 0x500 == gcm) = true
    ∧ after .keyStoreRestore { keyed { gcm with pin := true } with key := { (keyed { gcm with pin := true }).key with keep := some [0x500] } } (fun t => t.key.resident == [0x500]) = true
    ∧ after .keyStoreRestore (keyed gcm) (fun t => t.key.resident == [] && slotOf t 0x500 == KeySlot.fresh) = true := by decide +kernel
theorem test_KeyStore_generator :
    pageUp (keyed gcm) pKEY = true
    ∧ after (.drbgReseed 5) (keyed gcm) (fun t => bit (rd t pKEY KEY_RNG_STATUS) 1) = true
    ∧ after (.drbgReseed 5) (wr (keyed gcm) pKEY KEY_RNG_STATUS 2) (fun t => rd t pKEY KEY_RNG_STATUS == 4 && bit (rd t pKEY rIRQ_STATUS) 4) = true
    ∧ after .entropyRecovery (wr (keyed gcm) pKEY KEY_RNG_STATUS 4) (fun t => rd t pKEY KEY_RNG_STATUS == 3) = true := by decide +kernel

/-! ### Nelius -/

/-- Core 1 of cluster 0 runs in crew mode at 0x100: w1 = 0x10004, w2 = −7, w3 = 5, w5 = 0x100008, w6 = 0x9E. -/
def c1 : Core := { Core.fresh with mode := .run, pc := 0x100, trapBase := 0x1000, trapRet := 0x220, trapMode := 1, lk := 0x40
                                   regs := #v[0, 0x10004, 0xFFFFFFF9, 5, 0, 0x100008, 0x9E, 0, 0, 0, 0, 0, 0, 0, 0, 0, 0, 0, 0, 0, 0, 0, 0, 0, 0, 0, 0, 0, 0, 0, 0, 0] }
/-- The device with that core. -/
def nel (x : Core) : State := setCore ready 1 x
/-- The instruction leaves the core with `f`. -/
def then1 (i : Instr) (x : Core) (f : Core → Bool) : Bool := after i (nel x) fun t => f (coreOf t 1)
theorem test_AluResults_premises : (nel c1).memWf = true ∧ canIssue (nel c1) 0 1 = true := by decide +kernel
theorem test_AluResults_arith :
    then1 (.add 0 1 4 2 3 0) c1 (fun x => x.reg 4 == 0xFFFFFFFE && x.pc == 0x104) = true ∧ then1 (.sub 0 1 4 3 2 0) c1 (fun x => x.reg 4 == 12) = true
    ∧ then1 (.nor 0 1 4 2 3 0) c1 (fun x => x.reg 4 == 2) = true ∧ then1 (.sra 0 1 4 2 3 0) c1 (fun x => x.reg 4 == 0xFFFFFFFF) = true ∧ then1 (.srl 0 1 4 2 3 0) c1 (fun x => x.reg 4 == 0x07FFFFFF) = true
    ∧ then1 (.rotr 0 1 4 3 3 0) c1 (fun x => x.reg 4 == 0x28000000) = true ∧ then1 (.slt 0 1 4 2 3 0) c1 (fun x => x.reg 4 == 1) = true ∧ then1 (.sltu 0 1 4 2 3 0) c1 (fun x => x.reg 4 == 0) = true
    ∧ then1 (.mulh 0 1 4 2 3 0) c1 (fun x => x.reg 4 == 0xFFFFFFFF) = true ∧ then1 (.mulhu 0 1 4 2 3 0) c1 (fun x => x.reg 4 == 4) = true
    ∧ then1 (.div 0 1 4 2 3 0) c1 (fun x => x.reg 4 == 0xFFFFFFFF) = true ∧ then1 (.rem 0 1 4 2 3 0) c1 (fun x => x.reg 4 == 0xFFFFFFFE) = true
    ∧ then1 (.div 0 1 4 2 0 0) c1 (fun x => x.reg 4 == 0xFFFFFFFF) = true ∧ then1 (.remu 0 1 4 2 0 0) c1 (fun x => x.reg 4 == 0xFFFFFFF9) = true
    ∧ then1 (.add 0 1 0 2 3 0) c1 (fun x => x.reg 0 == 0 && x.pc == 0x104) = true := by decide +kernel
theorem test_AluResults_immediate :
    then1 (.addi 0 1 4 3 0xFFFF) c1 (fun x => x.reg 4 == 4) = true ∧ then1 (.ori 0 1 4 3 0xFFF0) c1 (fun x => x.reg 4 == 0xFFF5) = true ∧ then1 (.slti 0 1 4 3 0xFFFF) c1 (fun x => x.reg 4 == 0) = true
    ∧ then1 (.sltiu 0 1 4 3 0xFFFF) c1 (fun x => x.reg 4 == 1) = true ∧ then1 (.lui 0 1 4 0 0x8001) c1 (fun x => x.reg 4 == 0x80010000) = true ∧ then1 (.srai 0 1 4 2 0 31) c1 (fun x => x.reg 4 == 0xFFFFFFFF) = true := by decide +kernel
/-- Its D-TCM holds 0x80, 0xFF, 1, 2 at offset 4. -/
def tcm : Core := { c1 with dtcm := Mem.writeN [] 4 [0x80, 0xFF, 1, 2] }
theorem test_LoadsFromTcm : (nel tcm).memWf = true ∧ canIssue (nel tcm) 0 1 = true ∧ reach tcm 0x10004 4 false = .dtcm 4
    ∧ then1 (.lb 0 1 4 1 0 0) tcm (fun x => x.reg 4 == 0xFFFFFF80) = true ∧ then1 (.lbu 0 1 4 1 1 0) tcm (fun x => x.reg 4 == 0xFF) = true ∧ then1 (.lh 0 1 4 1 0 0) tcm (fun x => x.reg 4 == 0xFFFFFF80) = true
    ∧ then1 (.lw 0 1 4 1 0 0) tcm (fun x => x.reg 4 == 0x0201FF80) = true ∧ then1 (.lwP 0 1 4 1 0xFFFC 0) tcm (fun x => x.reg 4 == 0x0201FF80 && x.reg 1 == 0x10000 && x.pc == 0x104) = true := by decide +kernel
theorem test_StoresToTcm : reach tcm 0x10004 4 true = .dtcm 4
    ∧ then1 (.sb 0 1 6 1 1) tcm (fun x => x.dtcm.readN 4 4 == [0x80, 0x9E, 1, 2]) = true ∧ then1 (.sh 0 1 2 1 2) tcm (fun x => x.dtcm.readN 4 4 == [0x80, 0xFF, 0xF9, 0xFF]) = true
    ∧ then1 (.swP 0 1 2 1 8) tcm (fun x => x.dtcm.readN 4 4 == [0xF9, 0xFF, 0xFF, 0xFF] && x.reg 1 == 0x1000C) = true := by decide +kernel
theorem test_ConditionalBranches : ((0x100 : Word) + (0xFFFE : BitVec 16).signExtend 32 * 4).toNat < 0x10000
    ∧ then1 (.cbLt 0 1 2 3 0xFFFE) c1 (fun x => x.pc == 0xF8) = true ∧ then1 (.cbLtu 0 1 2 3 0xFFFE) c1 (fun x => x.pc == 0x104) = true ∧ then1 (.cbEq 0 1 3 3 2) c1 (fun x => x.pc == 0x108) = true
    ∧ then1 (.bts 0 1 3 2 2) c1 (fun x => x.pc == 0x108) = true ∧ then1 (.btc 0 1 3 2 2) c1 (fun x => x.pc == 0x104) = true
    ∧ then1 (.cbiEq 0 1 2 25 2) c1 (fun x => x.pc == 0x108) = true ∧ then1 (.cbiGeu 0 1 3 31 2) c1 (fun x => x.pc == 0x104) = true := by decide +kernel
theorem test_JumpsAndSpecialMoves :
    then1 (.call 0 1 4) c1 (fun x => x.pc == 0x110 && x.lk == 0x104) = true ∧ then1 (.ret 0 1 0) c1 (fun x => x.pc == 0x40) = true ∧ then1 (.tret 0 1 0) c1 (fun x => x.pc == 0x220 && x.runmode == 1) = true
    ∧ then1 (.mfs 0 1 4 0x1E 0) c1 (fun x => x.reg 4 == 1) = true ∧ then1 (.mts 0 1 0x05 2 0) c1 (fun x => x.trapBase == 0xFC00) = true ∧ then1 (.mts 0 1 0x06 3 0) c1 (fun x => x.lk == 5) = true := by decide +kernel
theorem test_JumpsAndSpecialMoves_outside : ¬ ((c1.reg 2).toNat < 0x10000 ∧ (c1.reg 2).toNat % 4 = 0) ∧ c1.handler = false ∧ c1.psg = false
    ∧ then1 (.jr 0 1 2 0) c1 (fun x => x.pc == 0x1080 && x.trapRet == 0xFFFFFFF9 && x.trapInfo == 2 && x.trapAddr == 0xFFFFFFF9 && x.runmode == 2) = true := by decide +kernel
/-- That core runs the item of slot 0x201 with an END_ACTION. -/
def ending (action : Nat) : State := let s := putItem (nel c1) 0x201 { job with state := .running, w3 := job.w3 + w32 (4096 * action) }
  { s with dis := { s.dis with running := [(1, 0x201)] } }
theorem test_JumpsAndSpecialMoves_end : canIssue (ending 1) 0 1 = true ∧ (ending 1).dis.running.get? 1 = some 0x201 ∧ (itemOf (ending 1) 0x201).endAction = 1 ∧ (itemOf (ending 0) 0x201).endAction = 0
    ∧ after (.endw 0 1 0) (ending 1) (fun t => (coreOf t 1).mode == .idle && (itemOf t 0x201).state == .done && t.dis.running == []) = true
    ∧ after (.endw 0 1 0) (ending 0) (fun t => (itemOf t 0x201).state == .free) = true := by decide +kernel
theorem test_TrapsInOneStep :
    then1 (.trap 0 1 9 0) c1 (fun x => x.pc == 0x1200 && x.trapRet == 0x104 && x.trapInfo == 0x98 && x.runmode == 2 && x.trapMode == 0) = true
    ∧ then1 (.add 0 1 4 2 3 1) c1 (fun x => x.pc == 0x10C0 && x.trapRet == 0x100 && x.reg 4 == 0) = true
    ∧ (c1.reg 6).toNat % 4 ≠ 0 ∧ then1 (.lw 0 1 4 6 0 0) c1 (fun x => x.pc == 0x1140 && x.trapAddr == 0x9E) = true := by decide +kernel
/-- It runs in passenger mode with all of I-TCM granted. -/
def passenger1 : Core := { c1 with runmode := 1, itw := 0x03FF0000 }
theorem test_TrapsInOneStep_passenger : (nel passenger1).memWf = true ∧ canIssue (nel { passenger1 with itw := 0x04000000 }) 0 1 = true ∧ passenger1.psg = true := by decide +kernel
/-- The cluster store holds 9 at 8; entry 2 of the decode table names micro-ops 3 and 4. -/
def stored : State := both (putClu (nel c1) 0 { cluOf ready 0 with store := Mem.writeN [] 8 [9, 0, 0, 0], table := (cluOf ready 0).table.set 2 0xA0100003, ucode := [(3, 0x08120000), (4, 0xF0800000)] }) (pNCL 0) NCL_CS_MERGE 0
theorem test_AtomicsOnClusterStore : canIssue stored 0 1 = true ∧ stored.memWf = true ∧ reach c1 0x100008 4 true = .store 8 ∧ storeGathers stored 0 = false
    ∧ after (.aadd 0 1 4 5 3 0) stored (fun t => (cluOf t 0).store.readN 8 4 == [14, 0, 0, 0] && (coreOf t 1).reg 4 == 9) = true
    ∧ after (.cas 0 1 4 5 3 0) stored (fun t => (cluOf t 0).store.readN 8 4 == [9, 0, 0, 0]) = true ∧ after (.swap 0 1 4 5 3 0) stored (fun t => (cluOf t 0).store.readN 8 4 == [5, 0, 0, 0]) = true := by decide +kernel
theorem test_CustomInstructionRuns : (let e := (cluOf stored 0).table[2]; bit e 31 = true ∧ bit e 29 = true ∧ fld e 27 20 = 1 ∧ fld e 11 0 = 3) ∧ (cluOf stored 0).ucode.getD 3 0 = 0x08120000 ∧ (cluOf stored 0).ucode.getD 4 0 = 0xF0800000
    ∧ after (.mcx 0 1 4 2 3 0 2 []) stored (fun t => (coreOf t 1).reg 4 == 0xFFFFFFFE && (coreOf t 1).pc == 0x104) = true
    ∧ bit ((cluOf stored 0).table[5]) 31 = false ∧ after (.mcx 0 1 4 2 3 0 5 []) stored (fun t => (coreOf t 1).pc == 0x10C0) = true := by decide +kernel

/-! ### Host queues -/

/-- A command entry: opcode, NSID and some dwords. -/
def entry (op nsid : Nat) (cdws : List (Nat × Nat)) : List Byte :=
  (List.range 16).flatMap fun i => bytesLE 4 (if i = 0 then op + 9 * 65536 else if i = 1 then nsid else ((cdws.find? fun c => c.1 == i).map (·.2)).getD 0)
/-- That command, fetched under number 1 from a queue of controller 0. -/
def asked1 (q op nsid : Nat) (cdws : List (Nat × Nat)) (len : Nat) : HostCmd := ⟨1, 0, q, 9, entry op nsid cdws, len, none, 0, .fetched, [], [], 0⟩
/-- The host side in a given state. -/
def hosted (s : State) (f : HostSide → HostSide) : State := { s with hst := f s.hst }
/-- Command 1 waits to be carried out. -/
def fetched (s : State) (c : HostCmd) : State := hosted s fun h => { h with cmds := [c], nextId := 2 }
/-- The command ends with a status, DW0 and data, and `f` holds. -/
def ends (i : Instr) (s : State) (st : NvStatus) (dw0 : Nat) (data : List Byte) (f : State → Bool) : Bool :=
  after i s fun t => (cmdOf? t 1).any (fun c => c.state == .done st dw0 && c.reply == data) && f t
/-- The command waits, and `f` holds. -/
def waits (i : Instr) (s : State) (f : State → Bool) : Bool := after i s fun t => (cmdOf? t 1).any (fun c => c.state == .waiting) && f t
/-- Port A's link is up, controller 0 is enabled, with queue pairs 0 and 1 of 8 entries. -/
def linked : State := hosted ready fun h => { h with
  linkA := ⟨true, 6, 16, 6, none⟩
  ctls := [(0, { Ctrl.fresh with enabled := true, ready := true, sqs := [(0, ⟨8, 0, 0, 0, 1, 0⟩), (1, ⟨8, 1, 0, 0, 0, 0⟩)], cqs := [(0, ⟨8, 0, true, 0, 0, 0, true⟩), (1, ⟨8, 1, false, 0, 0, 0, true⟩)] })] }
theorem test_HostLinksAndQueues_link : portHere ready false = true ∧ bit (rd ready (pHF false) rSTATUS) 1 = false ∧ 4 ≤ min 6 (inF ready (pHF false) HF_LINK_CTRL 3 0) ∧ min 16 (portLanes ready) = 16
    ∧ portHere linked false = true ∧ (linkOf linked false).up = true
    ∧ after (.linkDown false) linked (fun t => linkOf t false == ⟨false, 0, 0, 6, some 0⟩ && bit (rd t (pHF false) rIRQ_STATUS) 0) = true := by decide +kernel
/-- Port A of two x8 ports has been down since time 0. -/
def split : State := { hosted ready fun h => { h with linkA := ⟨false, 0, 0, 6, some 0⟩ } with com := { ready.com with chip := { ready.com.chip with split := true } } }
theorem test_HostLinksAndQueues_expiry : split.com.chip.split = true ∧ bit (rd split (pHF false) rSTATUS) 1 = false ∧ (linkOf split false).downSince = some 0 ∧ 1000000000 ≤ ((advance split (10 ^ 9)).com.time - 0).toNat := by decide +kernel
theorem test_HostLinksAndQueues_errors : lbQuiet ready (pHF false) = true ∧ partitionMode ready = false
    ∧ after (.completionTimeout false) ready (fun t => rdF t (pHF false) rLB_COUNT 15 0 == 1 && bit (rd t (pHF false) rIRQ_STATUS) 3) = true
    ∧ after (.linkError false .receiverError) ready (fun t => rdF t (pHF false) rLB_COUNT 15 0 == 1) = true
    ∧ after (.linkError false (.ideFailure 0)) ready (fun t => rdF t (pHF false) HF_IDE_STATUS 23 8 == 1 && bit (rd t (pHF false) rIRQ_STATUS) 4) = true := by decide +kernel
theorem test_HostLinksAndQueues_doorbells : ctlExists linked 0 = true
    ∧ after (.sqDoorbellWrite 0 1 7) linked (fun t => ((ctlOf t 0).sqs.get? 1).any (fun y => y.tail == 7)) = true ∧ after (.cqDoorbellWrite 0 1 7) linked (fun t => ((ctlOf t 0).cqs.get? 1).any (fun y => y.head == 7)) = true := by decide +kernel
theorem test_HostLinksAndQueues_fetch : linked.flt.fetchStopped = false ∧ (∃ left y, pickCtl linked = some (0, left) ∧ pickQueue (inF linked pNQE NQE_FETCH_BURST 6 0) (ctlOf linked 0) = some (0, y) ∧ y.sqs.get? 0 = some ⟨8, 0, 0, 0, 1, 0⟩)
    ∧ adminOpcodes.contains 0x0A = true ∧ (vendorActions 0x0A).contains 2 = true ∧ (wantedBytes linked 0 (entry 0x0A 0 [(10, 2)])).any (· != 0) = false
    ∧ after (.commandFetch (BitVec.ofNat 512 (ofBytesLE (entry 0x0A 0 [(10, 2)]))) 0 false) linked (fun t => t.hst.cmds == [⟨0, 0, 0, 9, entry 0x0A 0 [(10, 2)], 0, none, 0, .fetched, [], [], 0⟩] && rd t pNQE NQE_CMD_COUNT == 1) = true := by
  refine ⟨by decide +kernel, ⟨_, _, rfl, rfl, by decide +kernel⟩, by decide +kernel, by decide +kernel, by decide +kernel, by decide +kernel⟩
theorem test_HostLinksAndQueues_hold : (let s := fetched linked { asked1 1 1 1 [] 4096 with state := .held, units := [4096] }
      roomNow s 4096 = true ∧ after (.wbHoldRelease 1) s (fun t => (cmdOf? t 1).any (fun c => c.state == .fetched && c.room == 4096) && t.map.reserved == 4096) = true) := by decide +kernel
theorem test_HostLinksAndQueues_post : (let s := fetched linked { asked1 1 2 1 [] 4096 with state := .done .success 5 }
      after (.completionPost 1 0) s (fun t => t.hst.posted == [⟨0, 1, 9, .success, 5, 0, true, []⟩] && t.hst.cmds == [] && t.hst.vectors == []) = true) := by decide +kernel
theorem test_HostLinksAndQueues_enable : isPf 0 = true ∧ (linkOf linked (ctlPort 0)).up = true
    ∧ after (.controllerEnable 0 1 4096 2) (hosted linked fun h => { h with ctls := [] }) (fun t => (ctlOf t 0).enabled && (ctlOf t 0).ams == 1 && ((ctlOf t 0).sqs.get? 0).map (·.size) == some 4096) = true
    ∧ rdF ready pSCP SCP_BOOT_STAGE 3 0 < 2 ∧ after (.configurationRequest false .read) ready (fun t => t.com.answer == .held) = true
    ∧ after (.configurationRequest false (.numVfs 5)) (wr ready pSCP SCP_BOOT_STAGE 2) (fun t => numVfs t false == 5 && t.com.answer == .ack) = true := by decide +kernel
theorem test_HostLinksAndQueues_create : (2 ≤ ioQueues linked 0)
    ∧ ends (.createIoCq 1) (fetched linked (asked1 0 5 0 [(10, 0x000F0002), (11, 1)] 0)) .success 0 [] (fun t => (ctlOf t 0).cqs.get? 2 == some ⟨16, 0, false, 0, 0, 0, true⟩) = true
    ∧ ends (.createIoSq 1) (fetched linked (asked1 0 1 0 [(10, 0x000F0002), (11, 0x00010001)] 0)) .success 0 [] (fun t => (ctlOf t 0).sqs.get? 2 == some ⟨16, 1, 0, 0, 0, 0⟩) = true
    ∧ ends (.deleteIoSq 1) (fetched linked (asked1 0 0 0 [(10, 1)] 0)) .success 0 [] (fun t => (ctlOf t 0).sqs.get? 1 == none) = true
    ∧ ends (.deleteIoCq 1) (fetched (hosted linked fun h => { h with ctls := [(0, { Ctrl.fresh with enabled := true, cqs := [(1, ⟨8, 1, false, 0, 0, 0, true⟩)] })] }) (asked1 0 4 0 [(10, 1)] 0)) .success 0 [] (fun t => (ctlOf t 0).cqs.get? 1 == none) = true := by decide +kernel

/-! ### Admin commands -/

/-- Admin command 1 of controller 0 in the device as ready. -/
def admin (op nsid : Nat) (cdws : List (Nat × Nat)) (len : Nat) : State := fetched ready (asked1 0 op nsid cdws len)
theorem test_AdminCommands_fetched : cmdOf? (admin 9 0 [(10, 4)] 0) 1 = some (asked1 0 9 0 [(10, 4)] 0) ∧ sqeOp (entry 9 0 [(10, 4)]) = 9 := by decide +kernel
theorem test_AdminCommands_abort : (let s := hosted ready fun h => { h with cmds := [asked1 0 8 0 [(10, 0x00070001)] 0, { asked1 1 2 1 [] 4096 with id := 5, cid := 7 }] }
      ends (.abort 1) s .success 0 [] (fun t => (cmdOf? t 5).any fun c => c.state == .done .abortRequested 0) = true)
    ∧ ends (.abort 1) (admin 8 0 [(10, 0x00070001)] 0) .success 1 [] (fun _ => true) = true := by decide +kernel
theorem test_AdminCommands_features : ends (.setFeatures 1 []) (admin 9 0 [(10, 4), (11, 350)] 0) .success 0 [] (fun t => (ctlOf t 0).feats.get? 4 == some 350) = true
    ∧ ends (.setFeatures 1 []) (admin 9 0 [(10, 2), (11, 2)] 0) .success 0 [] (fun t => t.hst.power.cur == 2) = true
    ∧ ends (.setFeatures 1 []) (admin 9 0 [(10, 2), (11, 4)] 0) .success 0 [] (fun t => t.hst.power.target == some 4) = true
    ∧ ioQueues ready 0 ≠ 0 ∧ ends (.setFeatures 1 []) (admin 9 0 [(10, 7)] 0) .success ((ioQueues ready 0 - 1) * 65537) [] (fun _ => true) = true
    ∧ ends (.setFeatures 1 (bytesLE 8 0x10000000 ++ bytesLE 4 16 ++ [0, 0, 0, 0])) (admin 9 0 [(10, 13), (11, 1), (15, 1)] 16) .success 0 [] (fun t => t.com.hmb == hmbList (bytesLE 8 0x10000000 ++ bytesLE 4 16 ++ [0, 0, 0, 0]) 1) = true
    ∧ ends (.setFeatures 1 [1, 2, 3, 4, 5, 6, 0, 0]) (admin 9 0 [(10, 14)] 8) .success 0 [] (fun t => stampNow t == 0x060504030201) = true := by decide +kernel
theorem test_AdminCommands_get : ends (.getFeatures 1) (admin 10 0 [(10, 4)] 0) .success 0 [] (fun _ => true) = true ∧ ends (.getFeatures 1) (admin 10 0 [(10, 2)] 0) .success 0 [] (fun _ => true) = true
    ∧ ends (.getFeatures 1) (admin 10 0 [(10, 14)] 8) .success 0 (bytesLE 6 (stampNow ready) ++ [0, 0]) (fun _ => true) = true ∧ waits (.asyncEventRequest 1) (admin 12 0 [] 0) (fun t => t.hst.posted == []) = true := by decide +kernel

/-- A namespace of 64 LBAs of 4 KiB in 4 KiB units, attached to controller 0. -/
def ns64 : Namespace := ⟨.nvm, 64, 4096, 0, 0, false, false, false, true, [0], 0, 0, ⟨[], none, 0, 0⟩, 0, []⟩
/-- The device with that namespace under NSID 4. -/
def withNs (x : Namespace) : State := { hosted ready fun h => { h with ns := [(3, x)] } with map := { ready.map with mu := [(3, 64)] } }
/-- The descriptor of a namespace of 8 LBAs. -/
def nsDesc : List Byte := bytesLE 8 8 ++ bytesLE 8 8 ++ List.replicate 4080 0
theorem test_AdminCommands_create : mapStopped ready = false ∧ (List.range 1024).find? (fun i => (ready.hst.ns.get? i).isNone) = some 0 ∧ nsDesc.length = 4096 ∧ zerosAt nsDesc 3075 1021 = true
    ∧ 0 < leAt nsDesc 0 8 ∧ leAt nsDesc 0 8 * ((lbaFormat 0).getD (1, 0)).1 + nsAllocated four ≤ tnvmcap four := by decide +kernel
theorem test_AdminCommands_delete : nsAt? (withNs ns64) 4 = some ns64 ∧ rangesOf (withNs ns64) 4 = [] ∧ inLiveSet (withNs ns64) 3 = false ∧ Machine.draining (fetched (withNs ns64) (asked1 0 13 4 [(10, 1)] 0)) (asked1 0 13 4 [(10, 1)] 0) [3] = false
    ∧ ends (.namespaceManagement 1 []) (fetched (withNs ns64) (asked1 0 13 4 [(10, 1)] 0)) .success 0 [] (fun t => nsAt? t 4 == none && t.hst.changedNs.contains 4) = true := by decide +kernel
theorem test_AdminCommands_attach : ctlExists ready 0 = true
    ∧ ends (.namespaceAttachment 1 [1, 0, 0, 0]) (fetched (withNs { ns64 with attached := [] }) (asked1 0 21 4 [(10, 0)] 4096)) .success 0 [] (fun t => (nsAt? t 4).any fun x => x.attached == [0]) = true
    ∧ ends (.namespaceAttachment 1 [1, 0, 0, 0]) (fetched (withNs ns64) (asked1 0 21 4 [(10, 1)] 4096)) .success 0 [] (fun t => (nsAt? t 4).any fun x => x.attached == []) = true := by decide +kernel
theorem test_AdminCommands_download : ends (.firmwareImageDownload 1 [1, 2, 3, 4]) (admin 17 0 [(10, 0), (11, 5)] 4) .success 0 [] (fun t => t.hst.download == [(20, [1, 2, 3, 4])]) = true
    ∧ ends (.deviceSelfTest 1) (admin 20 0 [(10, 2)] 0) .success 0 [] (fun t => t.hst.selfTest == some (2, 0)) = true ∧ ends (.deviceSelfTest 1) (admin 20 0 [(10, 15)] 0) .success 0 [] (fun t => t.hst.selfTest == none) = true := by decide +kernel
/-- The check of an image (R518) rests on the signature and digest functions, which the spec takes from elsewhere: where they accept it, the premises of the commits hold. -/
theorem test_AdminCommands_commit (img : List Byte) (h : imageCause ready false (some img) = none) :
    let s := { ready with bot := { ready.bot with replicas := [(0, ⟨[], [(2, img)], [], []⟩)] } }
    img ≠ [] → spanBars s (imgVersion img) = false ∧ noRing s = false ∧ overlapsPlace s img = false ∧ s.flt.activating = none ∧ imageCause ready false (some img) = none := by
  intro s _
  exact ⟨rfl, by show noRing ready = false; decide +kernel, rfl, rfl, h⟩
theorem test_AdminCommands_streams : (let s := fetched (withNs ns64) (asked1 0 0x1A 4 [(11, 0x103), (12, 20)] 0); ends (.directiveReceive 1) s .success 16 [] (fun t => (nsAt? t 4).any fun x => x.streams == 16) = true)
    ∧ (let s := fetched (withNs { ns64 with streams := 4, open_ := [1] }) (asked1 0 0x19 4 [(11, 0x102)] 0); ends (.directiveSend 1) s .success 0 [] (fun t => nsAt? t 4 == some ns64) = true) := by decide +kernel
/-- A VF of port A exists. -/
def vf1 (x : Ctrl) : State := hosted (both ready (pHF false) HF_ERR_INJECT 0) fun h => { h with ctls := [(1, x)] }
theorem test_AdminCommands_virtual : (let s := fetched (vf1 Ctrl.fresh) (asked1 0 0x1C 0 [(10, 0x00010008), (11, 3)] 0);
      (ctlExists s 1 = true → ends (.virtualizationManagement 1) s .success 3 [] (fun t => (ctlOf t 1).vq == 3) = true)) := by decide +kernel
theorem test_AdminCommands_format : (let s := fetched (withNs ns64) (asked1 0 0x80 4 [(10, 0)] 0);
      ends (.formatNvm 1) s .success 0 [] (fun t => (nsAt? t 4).any fun x => x.lba == ((lbaFormat 0).getD (1, 0)).1 && x.size * x.lba == 64 * 4096) = true)
    ∧ ends (.sanitize 1) (admin 0x84 0 [(10, 4)] 0) .success 0 [] (fun t => t.hst.sanitized == (1, 4)) = true := by decide +kernel
theorem test_AdminCommands_security : (let s := fetched { withNs ns64 with key := { ready.key with slots := [(3, gcm)], resident := [3] } } (asked1 0 0x81 0 [(10, 0x01000000)] 0);
      secProtocol (entry 0x81 0 [(10, 0x01000000)]) = 1
      ∧ ends (.securitySend 1 [] (.lock 3)) s .success 0 [] (fun t => (slotOf t 3).locked) = true ∧ ends (.securitySend 1 [] (.unlock 3)) s .success 0 [] (fun t => !(slotOf t 3).locked) = true)
    ∧ ends (.securitySend 1 [] .none) (admin 0x81 0 [(10, 0x01000000)] 0) .success 0 [] (fun _ => true) = true := by decide +kernel
theorem test_AdminCommands_lba_status : (let s := fetched (withNs ns64) (asked1 0 0x86 4 [(10, 7), (12, 5), (13, 1)] 32);
      ends (.getLbaStatus 1) s .success 0 [0, 0, 0, 0, 1, 0, 0, 0] (fun _ => true) = true)
    ∧ (let s := fetched { withNs ns64 with map := { ready.map with mu := [(3, 64)], entries := [(unitKey 3 7, copy5)] } } (asked1 0 0x86 4 [(10, 7), (12, 5), (13, 1)] 32);
      ends (.getLbaStatus 1) s .success 0 ([1, 0, 0, 0, 1, 0, 0, 0] ++ bytesLE 8 7 ++ bytesLE 4 1 ++ [0, 0, 0, 0]) (fun _ => true) = true) := by decide +kernel
theorem test_AdminCommands_identify : ends (.identify 1) (fetched (withNs ns64) (asked1 0 6 0 [(10, 0x10)] 4096)) .success 0 (bytesLE 4 4 ++ List.replicate 4092 0) (fun _ => true) = true := by decide +kernel
theorem test_AdminCommands_log : cdwF (entry 2 0 [(10, 0x000F00C3)]) 10 7 0 = 0xC3 ∧ cdwF (entry 2 0 [(10, 0x000F00C3)]) 10 31 16 = 15 ∧ isPf 0 = true ∧ cdw (entry 2 0 [(10, 0x000F00C3)]) 12 = 0 ∧ cdwF (entry 2 0 [(10, 0x000F00C3)]) 11 15 0 = 0 := by decide +kernel

/-! ### Management port, power states -/

/-- The last response is status 0 with these bytes. -/
def answered (t : State) (b : List Byte) : Bool := t.hst.mctpOut == [[0, 0, 0, 0] ++ b]
theorem test_ManagementAndPowerStates_mi :
    after (.mgmtRequest [1] 5) ready (fun t => t.hst.mctpIn == [[1]]) = true ∧ after (.readNvmeMiDataStructure 2 0 none) ready (fun t => answered t (ctlList (allCtls ready))) = true
    ∧ after (.readNvmeMiDataStructure 4 0 none) ready (fun t => answered t [8, 0, 8, 0, 8, 1, 8, 2, 8, 3, 8, 4, 8, 5, 8, 6, 8, 7]) = true
    ∧ after (.subsystemHealthStatusPoll true none) ready (fun t => t.hst.mctpOut.length == 1) = true ∧ after (.controllerHealthStatusPoll 0 none) ready (fun t => t.hst.mctpOut.length == 1) = true
    ∧ after (.configurationSet 3 7 none) ready (fun t => answered t [] && t.hst.mi.get? 3 == some 7) = true ∧ after (.configurationGet 3 none) (hosted ready fun h => { h with mi := [(3, 7)] }) (fun t => answered t [7, 0, 0, 0]) = true
    ∧ after (.vpdWrite 2 [8, 9] none) ready (fun t => answered t [] && t.hst.vpd.take 4 == [0, 0, 8, 9]) = true ∧ after (.vpdRead 1 2 none) (hosted ready fun h => { h with vpd := [5, 6, 7] }) (fun t => answered t [6, 7]) = true := by decide +kernel
theorem test_ManagementAndPowerStates_in_band : miOpcode (entry 0x1D 0 [(11, 3), (12, 3), (13, 9)]) = 3
    ∧ ends (.nvmeMiSend 1 [] 0) (fetched ready (asked1 0 0x1D 0 [(11, 3), (12, 3), (13, 9)] 0)) .success 0 [] (fun t => t.hst.mi.get? 3 == some 9) = true
    ∧ ends (.nvmeMiSend 1 [5] 0) (fetched ready (asked1 0 0x1D 0 [(11, 6), (12, 1), (13, 1)] 1)) .success 0 [] (fun t => t.hst.vpd.take 2 == [0, 5]) = true
    ∧ ends (.nvmeMiReceive 1) (fetched (hosted ready fun h => { h with vpd := [5, 6, 7] }) (asked1 0 0x1E 0 [(11, 5), (12, 1), (13, 2)] 2)) .success 0 [6, 7] (fun _ => true) = true
    ∧ ends (.configurationGet 3 (some 1)) (fetched (hosted ready fun h => { h with mi := [(3, 7)] }) (asked1 0 0x1E 0 [(11, 4), (12, 3)] 4)) .success 0 [7, 0, 0, 0] (fun _ => true) = true := by decide +kernel
theorem test_ManagementAndPowerStates_tunnel :
    after (.tunnelledAdminCommand (BitVec.ofNat 512 (ofBytesLE (entry 10 0 [(10, 2)]))) []) ready (fun t => t.hst.mctpOut == [tunnelReply .success 0 []] && t.hst.cmds == []) = true
    ∧ after (.tunnelledAdminCommand (BitVec.ofNat 512 (ofBytesLE (entry 0x80 0 []))) []) ready (fun t => t.hst.mctpOut == [tunnelReply .invalidOpcode 0 []]) = true := by decide +kernel
/-- The device goes to PS4. -/
def toPs4 : State := hosted ready fun h => { h with power := ⟨0, some 4, 1, 0⟩ }
theorem test_ManagementAndPowerStates_power : ferryRunning (advance toPs4 9) = false
    ∧ after (.powerStateEntryStep true 9) toPs4 (fun t => t.hst.power == ⟨4, none, 2, 0⟩ && bit (rd t pNQE rIRQ_STATUS) 1) = true ∧ after (.powerStateEntryStep false 9) toPs4 (fun t => t.hst.power == ⟨0, some 4, 2, 0⟩) = true
    ∧ after .powerStateExit toPs4 (fun t => t.hst.power == ⟨0, none, 0, 0⟩) = true
    ∧ (let s := hosted ready fun h => { h with ctls := [(0, { Ctrl.fresh with feats := [(12, 1 + 2 * (100 * 256 + 3 * 8))] })] }
      after (.apstTransition 100000000) s (fun t => t.hst.power == ⟨0, some 3, 0, 0⟩) = true) := by decide +kernel
/-- Partitions are on, and partition 2 has a command. -/
def partitioned : State := hosted (both ready pNQE NQE_TENANCY 0x00050001) fun h => { h with cmds := [{ asked1 1 2 1 [] 512 with ctl := 2 }], ctls := [(2, { Ctrl.fresh with enabled := true, online := true, vq := 2, vi := 1 })] }
theorem test_ManagementAndPowerStates_partition : partitionMode partitioned = true
    ∧ after (.partitionReset 2) partitioned (fun t => t.hst.cmds == [] && ctlOf t 2 == { Ctrl.fresh with online := true, vq := 2, vi := 1 } && bit (rd t pNQE rIRQ_STATUS) 2) = true
    ∧ 2 ≤ rdF (wr ready pSCP SCP_BOOT_STAGE 2) pSCP SCP_BOOT_STAGE 3 0 ∧ after (.spdmRequest 2 (.setCertificate [1, 2])) (wr ready pSCP SCP_BOOT_STAGE 2) (fun t => t.bot.chain1 == [1, 2]) = true := by decide +kernel

/-! ### I/O commands -/

/-- A namespace of 512-byte LBAs in 4 KiB units. -/
def ns512 : Namespace := { ns64 with size := 64, lba := 512 }
/-- I/O command 1 on that namespace under NSID 4; key slot 3 holds an XTS key. -/
def io (op : Nat) (cdws : List (Nat × Nat)) (len : Nat) (x : Namespace) : State :=
  fetched { withNs x with key := { ready.key with slots := [(3, { gcm with type := 1, klen := 64, tenant := 0, key := List.replicate 64 5 })], resident := [3] } } (asked1 1 op 4 cdws len)
theorem test_NvmCommands_read : (let s := io 2 [(10, 9)] 512 ns512; let c := asked1 1 2 4 [(10, 9)] 512;
      (match blockChecks s c 9 1 false with | .ok x => x == ns512 | .error _ => false) = true ∧ (match (readUnits s ns512 3 (cmdSlot c) (cmdTag c) (ns512.units 9 1) []).2 with | .ok l => l.map (·.1) == [1] | .error _ => false) = true
      ∧ ends (.read 1 []) s .success 0 (List.replicate 512 0) (fun _ => true) = true)
    ∧ ends (.verify 1 []) (io 12 [(10, 9)] 0 ns512) .success 0 [] (fun _ => true) = true
    ∧ ends (.compare 1 (List.replicate 512 0) []) (io 5 [(10, 9)] 512 ns512) .success 0 [] (fun _ => true) = true
    ∧ ends (.compare 1 (List.replicate 512 1) []) (io 5 [(10, 9)] 512 ns512) .compareFailure 0 [] (fun _ => true) = true := by decide +kernel
/-- A whole unit is written, with FUA or without, or zeroed. -/
def wr8 (fua : Nat) : List (Nat × Nat) := [(10, 8), (12, 7 + fua * 2 ^ 30)]
theorem test_NvmCommands_write : (let s := io 1 (wr8 0) 4096 ns512; let c := asked1 1 1 4 (wr8 0) 4096;
      (match blockChecks s c 8 8 true with | .ok x => x == ns512 | .error _ => false) = true ∧ retentionRefuses s ns512 4 8 8 = false ∧ ns512.units 8 8 = [1] ∧ 8 * ns512.lba = 1 * ns512.unit ∧ 8 * ns512.lba = ns512.unit
      ∧ (storeUnit s ns512 3 1 (cmdSlot c) (cmdTag c) (List.replicate 4096 0)).2.isSome = true)
    ∧ cdwF (entry 1 4 (wr8 1)) 12 30 30 = 1 ∧ cdwF (entry 1 4 (wr8 0)) 12 30 30 = 0 := by decide +kernel
/-- One unit is copied from LBA 16 to LBA 8. -/
def source : List Byte := List.replicate 8 0 ++ bytesLE 8 16 ++ bytesLE 2 7 ++ List.replicate 14 0
theorem test_NvmCommands_copy : (let s := io 0x19 [(10, 8)] 32 ns512; let c := asked1 1 0x19 4 [(10, 8)] 32;
      source.length = 32 ∧ sqeF source 16 2 = 7 ∧ sqeF source 8 8 = 16 ∧ resvConflict ns512 0 false = false ∧ roomNow s ns512.unit = true
      ∧ (match (readUnits s ns512 3 (cmdSlot c) (cmdTag c) (ns512.units 16 8) []).2 with | .ok l => l.map (·.1) == [2] | .error _ => false) = true) := by decide +kernel
theorem test_NvmCommands_deallocate : (let s := io 8 [(10, 8), (12, 7 + 2 ^ 25)] 0 ns512; mapStopped s = false ∧ jRoom s 32 = true ∧ coversUnit ns512 1 8 8 = true ∧ ends (.writeZeroes 1 []) s .success 0 [] (fun t => entryAt t 3 1 == trimmed) = true)
    ∧ (let s := io 9 [(10, 0), (11, 4)] 16 ns512; let r := bytesLE 4 0 ++ bytesLE 4 8 ++ bytesLE 8 8; resvConflict ns512 0 true = false
      ∧ mustWait s (asked1 1 9 4 [(10, 0), (11, 4)] 16) 8 8 true = false
      ∧ ends (.datasetManagement 1 r) { s with map := { s.map with entries := [(unitKey 3 1, copy5)] } } .success 0 [] (fun t => entryAt t 3 1 == trimmed) = true) := by decide +kernel
theorem test_NvmCommands_flush : ends (.flush 1) (io 0 [] 0 ns512) .success 0 [] (fun _ => true) = true
    ∧ (let s := both (io 0 [] 0 ns512) pNQE NQE_FLUSH_DRAIN 1; bit (rd s pNQE NQE_FLUSH_DRAIN) 0 = true ∧ waits (.flush 1) { s with map := { s.map with wb := [wb7] } } (fun t => (cmdOf? t 1).any fun c => c.units == [7]) = true) := by decide +kernel
/-- Controller 0 is registered with key 0xAB, and holds a reservation of a type or none. -/
def registered (holder : Option Nat) (ty : Nat) : Namespace := { ns512 with resv := ⟨[(0, 0xAB)], holder, ty, 1⟩ }
theorem test_NvmCommands_reservations :
    ends (.reservationRegister 1 (bytesLE 8 0 ++ bytesLE 8 0xAB)) (io 0x0D [(10, 0)] 16 ns512) .success 0 [] (fun t => (nsAt? t 4).any fun x => x.resv == ⟨[(0, 0xAB)], none, 0, 1⟩) = true
    ∧ keyOf (registered none 0) 0 = some 0xAB ∧ ends (.reservationAcquire 1 (bytesLE 8 0xAB ++ bytesLE 8 0)) (io 0x11 [(10, 0x100)] 16 (registered none 0)) .success 0 [] (fun t => (nsAt? t 4).any fun x => x.resv == ⟨[(0, 0xAB)], some 0, 1, 1⟩) = true
    ∧ ends (.reservationRelease 1 (bytesLE 8 0xAB)) (io 0x15 [(10, 0x100)] 8 (registered (some 0) 1)) .success 0 [] (fun t => (nsAt? t 4).any fun x => x.resv == ⟨[(0, 0xAB)], none, 0, 1⟩) = true
    ∧ ends (.reservationRelease 1 (bytesLE 8 0xAB)) (io 0x15 [(10, 0x101)] 8 (registered (some 0) 1)) .success 0 [] (fun t => (nsAt? t 4).any fun x => x.resv == ⟨[], none, 0, 2⟩) = true
    ∧ ends (.reservationReport 1) (io 0x0E [(10, 5)] 24 (registered none 0)) .success 0 (bytesLE 4 1 ++ [0] ++ bytesLE 2 1 ++ List.replicate 17 0) (fun _ => true) = true := by decide +kernel

/-! ### Vendor commands -/

/-- DW11 names launch entry 1000; HOST_FIRST in force. -/
def lta (action len : Nat) (e : LaunchEntry) : State := putEntry (admin 0xC4 0 [(10, action), (11, 1000)] len) 1000 e
/-- USER_EVENT to DIS at 5 µs, as the host writes it. -/
def hostEntry : List Byte := bytesLE 8 5000 ++ bytesLE 2 pDIS ++ [8, 0] ++ bytesLE 4 77 ++ List.replicate 16 0
def hostEvent : LaunchEntry := { LaunchEntry.empty with time := 5000, page := pDIS, action := 8, arg := 77 }
theorem test_VendorCommands_snapshot : ends (.snapshotTriggerIssue 1) (admin 0xC3 0 [(10, 0)] 0) .success 1 [] (fun t => rd t pSGL SGL_SNAP_T_LO == 64) = true
    ∧ waits (.snapshotTriggerWait 1) (admin 0xC3 0 [(10, 1)] 0) (fun t => (cmdOf? t 1).any fun c => c.units == [1] && c.until_ == 64) = true := by decide +kernel
theorem test_VendorCommands_launch : belowHost (lta 1 32 hostEvent) (asked1 0 0xC4 0 [(10, 1), (11, 1000)] 32) = false
    ∧ ends (.launchTableRead 1) (lta 1 32 hostEvent) .success 0 (bytesLE 8 5000 ++ bytesLE 2 pDIS ++ [8, 0] ++ bytesLE 4 77 ++ List.replicate 16 0) (fun _ => true) = true
    ∧ hostEntry.length = 32 ∧ armStatus (lta 2 32 LaunchEntry.empty) .free hostEvent true = 0
    ∧ ends (.launchTableArm 1 hostEntry) (lta 2 32 LaunchEntry.empty) .success (entryStateWord { hostEvent with state := .armed } 0).toNat [] (fun t => entryOf t 1000 == { hostEvent with state := .armed }) = true
    ∧ ends (.launchTableCancel 1) (lta 3 0 { hostEvent with state := .armed }) .success (entryStateWord { hostEvent with state := .cancelled } 0).toNat [] (fun _ => true) = true
    ∧ ends (.launchTableRelease 1) (lta 4 0 { hostEvent with state := .failed }) .success (entryStateWord hostEvent 0).toNat [] (fun t => entryOf t 1000 == hostEvent) = true := by decide +kernel
/-- A retention range over LBAs 8 to 15 until 100,000 ms. -/
def range8 : RetRange := ⟨4, 8, 8, 100000, false⟩
def rangeBytes : List Byte := bytesLE 8 8 ++ bytesLE 8 8 ++ bytesLE 8 100000 ++ List.replicate 8 0
def retains (action : Nat) (ranges : Tab RetRange) : State := hosted (fetched (withNs ns512) (asked1 0 0xC5 4 [(10, action)] 32)) fun h => { h with ranges := ranges }
theorem test_VendorCommands_retention :
    (enterRange (retains 0 []) (rangeEntries ns512 3 0 8 8)).isSome = true ∧ ends (.retentionCreate 1 rangeBytes) (retains 0 []) .success 0 (rangeDesc 0 range8) (fun t => t.hst.ranges.get? 0 == some range8) = true
    ∧ ends (.retentionQuery 1 rangeBytes) (retains 1 [(0, range8)]) .success 0 (rangeDesc 0 range8) (fun _ => true) = true
    ∧ ends (.retentionExtend 1 rangeBytes) (retains 2 [(0, { range8 with expiry := 9 })]) .success 0 (rangeDesc 0 range8) (fun t => t.hst.ranges.get? 0 == some range8) = true := by decide +kernel
theorem test_VendorCommands_expiry : (let s := { retains 0 [(0, range8)] with com := { ready.com with stamp := some (100000, 0) } }
      rangeExpired (advance s 5000000) range8 = true ∧ after (.retentionExpiry 5000000) s (fun t => t.hst.ranges.get? 0 == none) = true) := by decide +kernel
/-- Barchan Control on an array of ten channels. -/
def barchan (cdws : List (Nat × Nat)) (len : Nat) : State := fetched (trainedTo 10) (asked1 0 0xC6 0 cdws len)
theorem test_VendorCommands_barchan_layout : strTakes (barchan [(10, 1)] 16) [(STR_LAYOUT, w32 8), (STR_SEED_LO, w32 9), (STR_SEED_HI, w32 0)] = true := by decide +kernel
def barchan3 (cdws : List (Nat × Nat)) (len : Nat) : State := fetched (trainedTo 3) (asked1 0 0xC6 0 cdws len)
theorem test_VendorCommands_barchan_runs : dieInService (barchan3 [(10, 4), (11, 32)] 0) 32 = true ∧ bit (rd (barchan3 [(10, 5)] 0) pSTR STR_STATE) 4 = false := by decide +kernel
theorem test_VendorCommands_toll : waits (.tollStatementRequest 1) (admin 0xC2 0 [(10, 0)] 4096) (fun t => (cmdOf? t 1).any fun c => c.units.headD 0 == 0xC2 && c.until_ == 2000000000) = true
    ∧ (let s := fetched ready { asked1 0 0xC2 0 [(10, 0)] 4096 with state := .waiting, units := [0xC2, 0], until_ := 2000000000 }
      ends (.tollStatementTimeout 1 2000000000) s .meterUnavailable 0 [] (fun _ => true) = true) := by decide +kernel

/-! ### Programs and services -/

/-- A compute namespace under NSID 4, and a memory namespace of 1 GiB under NSID 6 in frame 20. -/
def computeNs (s : State) : State := { s with
  hst := { s.hst with ns := [(3, { ns64 with kind := .compute }), (5, { ns64 with kind := .memory, size := 2 ^ 30 })] }
  prg := { s.prg with frames := [(5, [20])] } }
/-- Command 1 on that compute namespace: an admin command of queue 0 or an I/O command of queue 1. -/
def comp (q op : Nat) (cdws : List (Nat × Nat)) (len : Nat) : State := computeNs (fetched ready (asked1 q op 4 cdws len))
/-- Activation of program 3 in cluster 1, place 0, with run slot 40. -/
def act3 : Activation := ⟨3, 3, 0, 1, 0, 0, [], none, 40, 0, 11, 0, true, none⟩
def withAct (s : State) : State := { s with prg := { s.prg with acts := [act3] } }
/-- A set of one range of a GiB, as the host names it and as kept. -/
def gibRange : List Byte := bytesLE 4 6 ++ [0, 0, 0, 0] ++ bytesLE 8 0 ++ bytesLE 8 (2 ^ 30) ++ List.replicate 8 0
def withSet (s : State) : State := { s with prg := { s.prg with sets := [(768, [⟨5, 0, 2 ^ 30⟩])] } }
theorem test_Programs_load : (let s := comp 0 0x85 [(10, 0xC00003), (11, 8), (15, 4)] 4; computeNs? s (asked1 0 0x85 4 [(10, 0xC00003), (11, 8), (15, 4)] 4) = some 3
      ∧ ends (.loadProgram 1 [1, 2, 3, 4]) s .success 0 [] (fun t => t.prg.loading == [⟨3, 3, 8, [(4, [1, 2, 3, 4])]⟩]) = true)
    ∧ allArrived 8 [(4, [1, 2, 3, 4]), (0, [5, 6, 7, 8])] = true ∧ noRing ready = false := by decide +kernel
theorem test_Programs_deactivate : noRing (withAct (comp 0 0x88 [(10, 3), (11, 0)] 0)) = false
    ∧ waits (.programDeactivate 1) (withAct (comp 0 0x88 [(10, 3), (11, 0)] 0)) (fun t => t.prg.acts == [{ act3 with closing := some 1 }] && t.bot.queue.any fun e => e.after == .deactivated 1 40) = true := by decide +kernel
theorem test_Programs_sets : ends (.memoryRangeSetCreate 1 gibRange) (comp 0 0x89 [(10, 0)] 32) .success 0 [] (fun t => t.prg.sets.get? 768 == some [⟨5, 0, 2 ^ 30⟩]) = true
    ∧ ends (.memoryRangeSetDelete 1) (withSet (comp 0 0x89 [(10, 1), (11, 0)] 0)) .success 0 [] (fun t => t.prg.sets.get? 768 == none) = true := by decide +kernel
/-- Execute Program of program 3 with set 0: DEFER, priority 2, LIMIT_MS 5, 4 bytes of parameters. -/
def header (defer prio limit : Nat) (p : List Byte) : List Byte := bytesLE 1 1 ++ bytesLE 1 defer ++ bytesLE 1 prio ++ [0] ++ bytesLE 4 limit ++ bytesLE 4 p.length ++ [0, 0, 0, 0] ++ p
theorem test_Programs_execute : (let s := withSet (withAct (comp 1 1 [(2, 3)] 20))
      earlierRun s (asked1 1 1 4 [(2, 3)] 20) = false ∧ ringsDrained s act3 = true ∧ s.dis.stopped = false
      ∧ waits (.executeProgram 1 (header 0 2 5 [9, 9, 9, 9])) s (fun t => t.prg.runs == [⟨1, 40, 768, some 0, 5⟩] && (itemOf t 40).state == .ready && (itemOf t 40).arg1 == 4) = true
      ∧ waits (.executeProgram 1 (header 1 2 5 [9, 9, 9, 9])) s (fun t => t.prg.runs == [⟨1, 40, 768, none, 5⟩] && (itemOf t 40).state == .waiting) = true) := by decide +kernel
/-- Memory command 1 on NSID 6. -/
def memo (op : Nat) (cdws : List (Nat × Nat)) (len : Nat) : State :=
  let s := computeNs (fetched ready (asked1 1 op 6 cdws len))
  { s with hst := { s.hst with ns := (1, { ns64 with lba := 64, size := 64 }) :: s.hst.ns } }
def copy64 : List Byte := bytesLE 4 2 ++ [0, 0, 0, 0] ++ bytesLE 8 1 ++ bytesLE 8 0 ++ List.replicate 8 0
theorem test_Programs_memory : ends (.memoryRead 1) (memo 2 [(10, 128), (12, 4)] 4) .success 0 [0, 0, 0, 0] (fun _ => true) = true
    ∧ ends (.memoryWrite 1 (List.replicate 64 7)) (memo 5 [(10, 128), (12, 64)] 64) .success 0 [] (fun t => t.mem.dram.readN (20 * 2 ^ 30 + 128) 64 == List.replicate 64 7) = true
    ∧ copy64.length = 32 ∧ ends (.memoryCopy 1 copy64 []) (memo 1 [(10, 128), (12, 0)] 32) .success 0 [] (fun _ => true) = true := by decide +kernel

/-! ### Program calls -/

/-- Core 8 runs item 40, and its handler serves a TRAP of a code with w4 and w5. -/
def called (a : Activation) (code w4 w5 : Nat) : State :=
  let s := both (both ready (pCVN 2) 0x138 0x80000404) (pCVN 2) 0x13C 0
  let s := setCore s 8 { (coreOf s 8).setReg 4 (w32 w4) |>.setReg 5 (w32 w5) with mode := .run, runmode := w32 2, trapMode := 1, trapRet := 0x4010, trapInfo := w32 (code * 16 + 8) }
  { s with prg := { s.prg with acts := [a] }, dis := { s.dis with running := [(8, 40)] } }
theorem test_Programs_calls : (let s := called { act3 with rings := [(2, 3)] } 1 0 3; callOf? s 8 1 = some { act3 with rings := [(2, 3)] } ∧ s.memWf = true) := by decide +kernel
theorem test_Programs_call_none : (let s := called act3 1 0 3; callOf? s 8 1 = some act3 ∧ after (.ringPost 1 0) s (fun t => (coreOf t 8).reg 4 == 1 && (coreOf t 8).pc == 0x4010 && (coreOf t 8).runmode == 1) = true)
    ∧ (let s := called act3 3 0x1A000 1; callOf? s 8 3 = some act3 ∧ after (.matchOp 1 0) s (fun t => (coreOf t 8).reg 4 == 1) = true)
    ∧ (let s := called { act3 with part := some 0 } 3 0x1A000 2; callOf? s 8 3 = some { act3 with part := some 0 } ∧ after (.matchOp 1 0) s (fun t => (coreOf t 8).pc == 0x4010) = true)
    ∧ (let s := called act3 4 0 0; callOf? s 8 4 = some act3 ∧ after (.time 1 0) s (fun t => (coreOf t 8).reg 4 == 0 && (coreOf t 8).pc == 0x4010) = true) := by decide +kernel
/-- Run 1 of slot 40, whose item is in a state. -/
def run40 (it : Item) (ready_ : Option Count) : State :=
  let s := withSet (withAct (comp 1 1 [(2, 3)] 20))
  let s := { putItem s 40 it with prg := { s.prg with runs := [⟨1, 40, 768, ready_, 5⟩] } }
  hosted s fun h => { h with cmds := [{ asked1 1 1 4 [(2, 3)] 20 with state := .waiting }] }
theorem test_Programs_ends : ends (.runEnd 40) (run40 { Item.fresh with state := .done, arg0 := 77 } (some 0)) .success 77 [] (fun t => t.prg.runs == []) = true
    ∧ ends (.runEnd 40) (run40 { Item.fresh with state := .failed, cause := 3 } (some 0)) .programFault 0x80000003 [] (fun t => t.prg.runs == []) = true
    ∧ ends (.runLimitExpiry 40 5000000) (run40 { Item.fresh with state := .running } (some 0)) .programFault 0xFFFFFFFF [] (fun t => t.prg.runs == []) = true
    ∧ ends (.runLimitExpiry 40 5000000) (run40 { Item.fresh with state := .ready } (some 0)) .programFault 0xFFFFFFFF [] (fun t => t.prg.runs == []) = true := by decide +kernel

/-! ### Scans -/

/-- A scan of one segment of one unit of NSID 2, or of two segments. -/
def scan1 (segs : List Segment) : Scan := ⟨1, 2, 0, 8, 768, 0, 4096, 4096, 0, 0, [], segs, 0, none, 0, 0, []⟩
def scanning (segs : List Segment) : State :=
  let s := withSet (comp 1 1 [(2, 0)] 80)
  hosted { s with prg := { s.prg with scans := [scan1 segs] }, map := { s.map with mu := [(1, 64)] } } fun h => { h with ns := (1, ns512) :: h.ns, cmds := [{ asked1 1 1 4 [(2, 0)] 80 with state := .waiting }] }
def seg (i : Nat) : Segment := ⟨i, 1, none, 0, 0⟩
theorem test_Programs_segments : after (.scanSegmentFail 1 1 0 false) (scanning [seg 0, seg 1]) (fun t => t.prg.scans.any fun z => z.segs == [seg 0, { seg 1 with status := some 1 }]) = true
    ∧ wbNewest? (scanning [seg 0, seg 1]) 1 0 = none ∧ entryAt (scanning [seg 0, seg 1]) 1 0 = trimmed
    ∧ after (.scanOutputCopy 1 []) (scanning [seg 0, seg 1]) (fun t => t.prg.scans.any fun z => z.trimmed == 1 && z.segs == [{ seg 0 with status := some 0 }, seg 1]) = true := by decide +kernel
/-- The scan's parameters: NSID 2, one unit a segment, LBAs 0 to 7; program at 0, output at 4096, summary at 8192 of range 0. -/
def scanParams : List Byte := bytesLE 4 2 ++ bytesLE 4 1 ++ bytesLE 8 0 ++ bytesLE 8 8 ++ List.replicate 8 0 ++ bytesLE 8 0 ++ bytesLE 8 4096 ++ bytesLE 8 4096 ++ bytesLE 8 8192
theorem test_Programs_scan : (let s := withSet (comp 1 1 [(2, 0)] 80); let s := hosted s fun h => { h with ns := (1, ns512) :: h.ns }; let c := asked1 1 1 4 [(2, 0)] 80; let p := scanParams;
      (match serviceParams s c (header 0 2 5 p) 0 with | some (.ok q) => q == p | _ => false) = true ∧ p.length = 64 ∧ leAt p 4 4 = 1 ∧ cutSegments 0 1 9 1 = [seg 0]
      ∧ insideRange s (execSet c.sqe) (bAt p 24) (leAt p 32 8) 2048 = true ∧ insideRange s (execSet c.sqe) (bAt p 25) (leAt p 40 8) (leAt p 48 8) = true ∧ insideRange s (execSet c.sqe) (bAt p 26) (leAt p 56 8) (608 + 16) = true
      ∧ rangeOf? s (execSet c.sqe) (bAt p 24) = some ⟨5, 0, 2 ^ 30⟩) := by decide +kernel

/-! ### Key-value commands and indexes -/

/-- A key-value namespace under NSID 4 with one bucket. -/
def kvNs : Namespace := { ns64 with kind := .kv, size := 262144 }
def space (l : List KvEntry) : KvSpace := ⟨262144, 1, [(0, 1)], if l = [] then [] else [(0, l)]⟩
/-- KV command 1 with the key 61 62 63. -/
def kv (op len : Nat) (l : List KvEntry) : State :=
  let s := fetched (withNs kvNs) (asked1 1 op 4 [(2, 0x636261), (10, len), (11, 3)] len)
  { s with prg := { s.prg with kv := [(3, space l)] }, key := { ready.key with slots := [(3, { gcm with type := 1, klen := 64, tenant := 0, key := List.replicate 64 5 })], resident := [3] } }
def abc : List Byte := [0x61, 0x62, 0x63]
theorem test_Programs_kv : kvKey (entry 1 4 [(2, 0x636261), (10, 0), (11, 3)]) = abc ∧ (match kvChecks (kv 1 0 []) (asked1 1 1 4 [(2, 0x636261), (10, 0), (11, 3)] 0) with | .ok r => r == (kvNs, space []) | .error _ => false) = true
    ∧ entryOfKey? (space []) abc = none ∧ roomNow (kv 1 0 []) 4096 = true ∧ isResident (kv 1 0 []) 3 = true ∧ slotRefusal (kv 1 0 []) 3 1 2 false kvNs.tenant false none = none
    ∧ (List.range 127).find? (fun i => !((bucketEntries (space []) 0).any fun e => e.slot == i)) = some 0 ∧ kvUnits { space [] with buckets := [(0, [⟨0, abc, false, 0⟩])] } ≤ 262144 / 4096 := by decide +kernel
theorem test_Programs_kv_retrieve : entryOfKey? (space [⟨0, abc, false, 8⟩]) abc = some ⟨0, abc, false, 8⟩
    ∧ (match (readUnits (kv 2 8 [⟨0, abc, false, 8⟩]) kvNs 3 3 none (valueUnits (space []) 0 ⟨0, abc, false, 8⟩ false 1) []).2 with | .ok l => l.map (·.1) == [1] | .error _ => false) = true
    ∧ ends (.kvExist 1) (kv 0x14 0 [⟨0, abc, false, 8⟩]) .success 0 [] (fun _ => true) = true ∧ ends (.kvExist 1) (kv 0x14 0 []) .keyMissing 0 [] (fun _ => true) = true
    ∧ (let s := fetched (withNs kvNs) (asked1 1 6 4 [(10, 64)] 64); ends (.kvList 1) { s with prg := { s.prg with kv := [(3, space [⟨0, abc, false, 8⟩])] } } .success 0 (bytesLE 4 1 ++ bytesLE 2 3 ++ abc ++ [0, 0, 0]) (fun _ => true) = true) := by decide +kernel
/-- Index command 1: OP, index 2 over byte 0 of NSID 2. -/
def index (ix : Tab SecIndex) : State :=
  let s := withSet (comp 1 1 [(2, 2)] 96)
  hosted { s with prg := { s.prg with indexes := ix, kv := [(1, space [])] } } fun h => { h with ns := (1, kvNs) :: h.ns }
def indexP (op : Nat) : List Byte := header 0 2 5 (bytesLE 1 op ++ [2, 1, 1] ++ bytesLE 4 2 ++ bytesLE 4 0 ++ List.replicate 4 0 ++ (3 :: List.replicate 15 0) ++ (5 :: List.replicate 15 0) ++ List.replicate 24 0 ++ bytesLE 8 10)
def ix2 (b : Bool) : SecIndex := ⟨1, 1, 1, 0, b, false, [([2], abc), ([4], abc)]⟩
theorem test_Programs_index : ends (.indexCreate 1 (indexP 0)) (index []) .success 0 [] (fun t => t.prg.indexes.get? 2 == some ⟨1, 1, 1, 0, true, false, []⟩) = true
    ∧ ends (.indexDrop 1 (indexP 1)) (index [(2, ix2 false)]) .success 0 [] (fun t => t.prg.indexes.get? 2 == none) = true
    ∧ ends (.indexState 1 (indexP 3)) (index [(2, ix2 true)]) .success 5 [] (fun _ => true) = true
    ∧ ends (.indexRange 1 (indexP 2)) (index [(2, ix2 false)]) .success 1 [] (fun t => (dramRead t (20 * 2 ^ 30) 40).2 == some (4 :: List.replicate 15 0 ++ (3 :: List.replicate 7 0) ++ fit 16 abc)) = true
    ∧ after (.indexBuildDone 2 []) (index [(2, ix2 true)]) (fun t => t.prg.indexes.get? 2 == some (ix2 false)) = true := by decide +kernel
/-- Program 3 is loaded and not activated. -/
def loaded3 : State := let s := both (comp 0 0x88 [(10, 3), (11, 1)] 0) pDIS (DIS_CTX_AREA + 8) (w32 (3 * 2 ^ 26)); { s with prg := { s.prg with images := [⟨3, 3, []⟩] } }
theorem test_Programs_activate : noRing loaded3 = false ∧ cdwF (entry 0x88 4 [(10, 3), (11, 1)]) 11 7 0 = 1 ∧ programOf loaded3 3 3 = some ⟨3, 3, []⟩ ∧ pickCluster loaded3 = some (1, 0) ∧ pickEnv loaded3 1 = some 0 ∧ mfMatch (manifest []) = 0
    ∧ pickRings loaded3 (mfRings (manifest [])) = some [] ∧ (lowestFree loaded3).isSome = true ∧ placeLoadOk loaded3 1 (imgPayload []) (placedSections loaded3 1 0 (imgSecs [])) = true ∧ (handoverNow loaded3 1).isSome = true := by decide +kernel

/-! ### Boot, security commands and live activation -/

/-- Power is good; the reference clock runs or not; the boot reached main firmware or not. -/
def powered (clk : Bool) (stage : Nat) : State :=
  let s := { ready with pwr := { ready.pwr with pins := { ready.pwr.pins with pwrgd := true, refclk := clk } } }
  if stage = 0 then s else wr s pSCP SCP_BOOT_STAGE (w32 stage)
theorem test_Boot_no_clock : (let s := powered false 0; s.bot.due = some 0 ∧ s.pwr.pins.testEn = false ∧ s.fer.parked = false ∧ perstHeld s = false
      ∧ after (.bootSequence 0 none [] []) s (fun t => t.bot.due == none && t.pwr.pins.devFault) = true) := by decide +kernel
/-- The check of an image (R518) rests on the signature and digest functions, which the spec takes from elsewhere: where they accept STAGE1 and MAIN, the premises of the boot hold. -/
theorem test_Boot_clock (st img : List Byte) (h1 : imageCause { powered true 0 with bot := { Boot.reset with replicas := [(0, ⟨st, [(1, img)], [], []⟩)] } } false (some st) = none)
    (h2 : imageCause { powered true 0 with bot := { Boot.reset with replicas := [(0, ⟨st, [(1, img)], [], []⟩)] } } false (some img) = none) :
    let s := { powered true 0 with bot := { Boot.reset with replicas := [(0, ⟨st, [(1, img)], [], []⟩)] } }
    s.bot.due.isSome = true ∧ s.pwr.pins.refclk = true ∧ s.bot.inject = [] ∧ s.pwr.inject = [] ∧ ownerInForce? s = none ∧ replicaLost s 0 = false
      ∧ imageCause s false (some (replicaOf s 0).stage1) = none ∧ imageCause s false (some ((replicaOf s 0).main s.bot.active)) = none := by
  intro s
  exact ⟨rfl, rfl, rfl, rfl, by show ownerInForce? ready = none; decide +kernel, by show replicaLost (powered true 0) 0 = false; decide +kernel, h1, h2⟩
/-- A replica passes as a whole where its STAGE1 does and it holds no other image; then the premise of the repair holds. -/
theorem test_Boot_replicas (st : List Byte) (h : imageCause { powered true 2 with bot := { Boot.reset with replicas := [(0, ⟨st, [], [], []⟩)] } } false (some st) = none) :
    let s := { powered true 2 with bot := { Boot.reset with replicas := [(0, ⟨st, [], [], []⟩)] } }
    2 ≤ rdF s pSCP SCP_BOOT_STAGE 3 0 ∧ (List.range 4).find? (replicaPasses s []) = some 0 := by
  intro s
  have hl : replicaLost s 0 = false := by show replicaLost (powered true 2) 0 = false; decide +kernel
  have hp : replicaPasses s [] 0 = true := by
    have hr : readReplica s [] 0 roleStage1 st = some st := by simp [readReplica, hl, roleStage1]
    have hi : imageCause s false (some st) = none := h
    have ho : ownerInForce? s = none := by show ownerInForce? ready = none; decide +kernel
    show ((imageCause s false (readReplica s [] 0 roleStage1 st)).isNone && true && true && (true && (ownerInForce? s).isNone || _)) = true
    rw [hr, hi, ho]; rfl
  exact ⟨by show 2 ≤ rdF (powered true 2) pSCP SCP_BOOT_STAGE 3 0; decide +kernel, by simp [List.range, List.range.loop, hp]⟩
/-- MAIN runs with SVN 20. -/
def running20 (s : State) : State := { s with fer := { s.fer with ioReady := true }, bot := { s.bot with meas := [(3, ⟨2, 0, 0, 20, 1, []⟩)] } }
/-- Security command 1 of protocol F0h. -/
def secure (op spsp len : Nat) : State := running20 (fetched ready (asked1 0 op 0 [(10, 0xF0000000 + spsp * 256), (11, len)] len))
theorem test_Boot_counters : (let s := running20 ready; (policyFlags s).testBit 2 = false ∧ noRing s = false ∧ counterOf s 1 < runningSvn s 1
      ∧ after (.counterAdvance 0) s (fun t => t.bot.queue.any fun x => x.after == .counter none 1 20) = true)
    ∧ waits (.counterAdvanceSend 1 (bytesLE 4 1 ++ bytesLE 4 20)) (secure 0x81 0x11 8) (fun t => t.bot.queue.any fun x => x.after == .counter (some 1) 1 20) = true
    ∧ ends (.countersReceive 1) (secure 0x82 3 128) .success 0 (List.replicate 128 0) (fun _ => true) = true := by decide +kernel
theorem test_Boot_policy (p : List Byte) (h : (checkImage (secure 0x81 0x10 0) true 9 (some p)).2 = none) (hk : imgKind p = 5) :
    secProtocol (entry 0x81 0 [(10, 0xF0001000)]) = 0xF0 ∧ secSpsp (entry 0x81 0 [(10, 0xF0001000)]) = 0x10 ∧ (checkImage (secure 0x81 0x10 0) true 9 (some p)).2 = none ∧ imgKind p = 5
      ∧ noRing (secure 0x81 0x10 0) = false ∧ (secure 0x81 0x10 0).bot.fuses.ownerState.testBit (2 * 0) = false :=
  ⟨by decide +kernel, by decide +kernel, h, hk, by decide +kernel, by decide +kernel⟩
theorem test_Boot_board : boardOk shippedBoard = true ∧ ends (.boardRecordWrite 1 shippedBoard) (secure 0x81 0x12 64) .success 0 [] (fun t => t.bot.board == shippedBoard) = true
    ∧ ends (.boardRecordReceive 1) (secure 0x82 4 64) .success 0 shippedBoard (fun _ => true) = true ∧ ends (.policyReceive 1) (secure 0x82 2 64) .success 0 [] (fun _ => true) = true
    ∧ secSpsp (entry 0x82 0 [(10, 0xF0000100)]) = 1 := by decide +kernel
/-- One event waits for its record. -/
def recording (a : AfterRecord) : State := let s := secure 0x82 1 0; { s with bot := { s.bot with queue := [⟨4, [1, 2, 3], [], a⟩] } }
theorem test_Boot_append : wearHolds (advance (recording .none) 10) 0x5800000 = false ∧ noRing (recording .none) = false ∧ rdF (recording .none) pSCP SCP_REC_SEQ 31 0 + 1 < 2 ^ 32 ∧ (recording .none).bot.inject = []
    ∧ cmdOf? (recording (.loaded 1)) 1 = some (asked1 0 0x82 0 [(10, 0xF0000100), (11, 0)] 0) ∧ counterOf (recording (.counter none 1 20)) 1 ≤ 20 ∧ (recording .none).bot.countersLost = false := by decide +kernel
/-- A live activation of slot 2 runs; some clusters are done. -/
def handing (done : Nat) : State :=
  let s := wr (recording .none) pFLT FLT_ACT_STATUS (w32 (3 * 2 ^ 28 + done))
  let s := (List.range 28).foldl (fun s d => domainOn s d true true) s
  { s with flt := { s.flt with activating := some 2 }, hst := { s.hst with cmds := [{ asked1 0 0x10 0 [] 0 with state := .waiting, units := [0xF1, 2] }] } }
theorem test_Boot_live_end : nextHandover (advance (handing 63) 10) = none
    ∧ ends (.liveActivation 10) (handing 63) .success 0 [] (fun t => t.flt.activating == none && rdF t pFLT FLT_ACT_STATUS 31 28 == 4) = true := by decide +kernel
/-- Core 40 of cluster 5 runs crew item 7, so that the handover waits. -/
def crewRuns : State := let s := handing 0; { setCore s 40 { coreOf s 40 with mode := .run } with dis := { s.dis with running := [(40, 7)] }, flt := { s.flt with handoverFrom := some 0 } }
theorem test_Boot_live_wait : nextHandover (advance (handing 0) 10) = some 5 ∧ (handoverNow (advance (handing 0) 10) 5).isSome = true ∧ (handoverNow (advance crewRuns 10) 5).isNone = true
    ∧ after (.liveActivation 10) crewRuns (fun t => t.flt.activating == some 2 && t.flt.handoverFrom == some 0) = true
    ∧ inF crewRuns pFLT FLT_HANDOVER_MAX 13 0 * 1000000 < (advance crewRuns (10 ^ 9)).com.time.toNat ∧ after (.handoverSlow (10 ^ 9)) crewRuns (fun t => bit (rd t pFLT rIRQ_STATUS) 3) = true := by decide +kernel

/-! ### The toll -/

/-- The meter runs; its taps and more. -/
def meter (f : Toll → Toll) : State := { ready with tol := f { ready.tol with running := true } }
def ev (kind tenant amount : Nat) : TapEntry := ⟨kind, tenant, amount⟩
/-- A statement, and tenant 5's record. -/
def stmt : Statement := ⟨3, [1, 2, 3], [[4]]⟩
def rec5 : TenantRecord := { TenantRecord.fresh 5 false with capMib := 10 }
theorem test_Toll_collect : pageUp ready pTOL = true
    ∧ after (.collectorEvent 0 1 5 4096) ready (fun t => (tapOf t 0).entries == [ev 1 5 4096]) = true
    ∧ after (.collectorEvent 0 1 5 4096) (meter fun t => { t with taps := [(0, ⟨[ev 1 5 1, ev 2 5 7], [], 0, 0, []⟩)] }) (fun t => (tapOf t 0).entries == [ev 1 5 4097, ev 2 5 7]) = true
    ∧ after (.collectorEvent 0 3 5 4096) ready (fun t => (tapOf t 0).entries == []) = true
    ∧ after (.tapWordSend 0 10) (meter fun t => { t with taps := [(0, ⟨[ev 1 5 4096], [], 255, 0, []⟩)] }) (fun t => tapOf t 0 == ⟨[], [], 0, 0, [tapWord (ev 1 5 4096) 255]⟩) = true
    ∧ after (.timeMark 10) { ready with com := { ready.com with stamp := some (1000, 0) } } (fun t => (tapOf t 3).entries == [ev 8 0 1000]) = true := by decide +kernel
/-- A word of tap 0 waits for the meter. -/
def wired (w : BitVec 80) : State := meter fun t => { t with taps := [(0, ⟨[], [], 1, 0, [w]⟩)] }
theorem test_Toll_words : (tapOf (wired (tapWord (ev 1 5 4096) 0)) 0).wire = [tapWord (ev 1 5 4096) 0] ∧ tapWord (ev 1 5 4096) 0 = 0x100050000000100000B1 ∧ (tapOf (wired 0) 0).expect < 256
    ∧ tapCrc (tapWord (ev 1 5 4096) 0 ^^^ 1) ≠ tapF (tapWord (ev 1 5 4096) 0 ^^^ 1) 7 0 := by decide +kernel
theorem test_Toll_seconds : after (.meterSecond 2000000000) (meter fun t => { t with records := [(0, rec5)] }) (fun t => t.tol.records == [(0, { rec5 with capMibS := 20 })] && t.tol.second == 2) = true
    ∧ after (.meterRecordsCommit 0) (meter fun t => { t with records := [(0, rec5)], copyA := ⟨4, true, [], 0, 0, 0⟩, copyB := ⟨3, true, [], 0, 0, 0⟩ }) (fun t => t.tol.copyB == ⟨5, true, [(0, rec5)], 0, 0, 0⟩ && t.tol.copyA.gen == 4) = true
    ∧ (let s := meter fun t => { t with records := [(0, rec5)] }; let s := { s with fer := { s.fer with powerFail := true } }; s.fer.powerFail = true ∧ s.tol.running = true) := by decide +kernel
/-- A parameter with no auditor, or of a PSEQ that is not above the newest, is refused; acceptance rests on the verification of a signature. -/
theorem test_Toll_params : after (.periodAlign 1 59 [] []) (meter id) (fun t => t.tol.refused == 1 && t.tol.align == 0 && t.tol.port == [(6, [0])]) = true
    ∧ after (.installAuditor 0 [] [] [] [] []) (meter id) (fun t => t.tol.refused == 1 && t.tol.auditor == none) = true ∧ after (.param 2 1 [59] [] [] [] []) (meter id) (fun t => t.tol.refused == 1 && t.tol.port == [(6, [0])]) = true
    ∧ (meter id).tol.pseq < 1 := by decide +kernel
theorem test_Toll_accepted (k : List Byte × List Byte) (sig : List Byte × List Byte) (m : Byte) (hm : m.toNat ≤ 59) (h : bothVerify k (ParamCmd.signed ⟨2, 1, [m], sig, ([], [])⟩) sig = true) :
    paramAccepted (meterSync (meter fun t => { t with auditor := some k })) ⟨2, 1, [m], sig, ([], [])⟩ = true := by
  have hp : (meterSync (meter fun t => { t with auditor := some k })).tol.pseq = 0 := rfl
  have ha : (meterSync (meter fun t => { t with auditor := some k })).tol.auditor = some k := rfl
  have hl : leAt [m] 0 1 = m.toNat := by simp [leAt, ofBytesLE]
  simp only [paramAccepted, hp, ha, Option.any, h, hl]
  simp [hm]
theorem test_Toll_close (k : List Byte × List Byte) (sig : List Byte × List Byte) (h : bothVerify k (ParamCmd.signed ⟨3, 1, bytesLE 2 5, sig, ([], [])⟩) sig = true) :
    let s := meter fun t => { t with auditor := some k, records := [(0, TenantRecord.fresh 5 false)] }
    paramAccepted (meterSync s) ⟨3, 1, bytesLE 2 5, sig, ([], [])⟩ = true ∧ s.tol.forming = none := by
  intro s
  have hp : (meterSync s).tol.pseq = 0 := rfl
  have ha : (meterSync s).tol.auditor = some k := rfl
  have hr : (meterSync s).tol.records = [(0, TenantRecord.fresh 5 false)] := rfl
  have hl : (meterSync s).tol.lastEvent = [] := rfl
  have h5 : leAt (bytesLE 2 5) 0 2 = 5 := by decide +kernel
  refine ⟨?_, rfl⟩
  simp only [paramAccepted, hp, ha, hr, hl, h5, Option.any, h]
  rfl
theorem test_Toll_statements : (meterSync (advance (meter id) 3600000000000)).tol.mtime / 60000000 = 60 ∧ after (.scheduledStatement 3600000000000) (meter id) (fun t => t.tol.hour == 2 && (t.tol.forming.map (·.seq)) == some 1) = true
    ∧ (let s := meter fun t => { t with forming := some stmt }; s.tol.toClose = [] ∧ s.tol.forming = some stmt)
    ∧ (let s := meter fun t => { t with statements := [stmt], taps := [(3, ⟨[], [], 1, 0, [tapWord (ev 9 0 0) 0]⟩)] }; newestStatement? (meterSync s) = some stmt
      ∧ after .tollRequest s (fun t => (t.tol.item.map fun y => (y.kind, y.bytes)) == some (1, [1, 2, 3, 4]) && t.tol.queue == []) = true) := by decide +kernel
theorem test_Toll_chunks : (let s := meter fun t => { t with item := some ⟨6, 1, List.replicate 8 9, 0, 0⟩ }
      s.tol.queue = [] ∧ s.tol.item = some ⟨6, 1, List.replicate 8 9, 0, 0⟩ ∧ s.hst.cmds = []
      ∧ after (.tolPoll 0) s (fun t => t.tol.collected == 6 && t.tol.stored == [List.replicate 8 9]) = true) := by decide +kernel
theorem test_Toll_port : after (.getStatement 0) (meter fun t => { t with statements := [stmt] }) (fun t => t.tol.port == [(3, [1, 2, 3, 4])]) = true
    ∧ after (.getAudit 1 1) (meter fun t => { t with audit := [[1, 0, 0, 0, 9], [2, 0, 0, 0, 8]] }) (fun t => t.tol.port == [(5, [1, 0, 0, 0, 9])]) = true
    ∧ statementAt? (meter fun t => { t with statements := [stmt] }) 3 = some stmt := by decide +kernel

/-! ### The span group -/

/-- A group of four with one parity: generation 1, 16 stripes of three data units, this device at an index. -/
def group4 (me : Nat) : SpanDesc := ⟨7, 1, 4, 1, 1, false, me, false, false, 2, 384, 0, 2 ^ 64 - 1, [⟨11, 0, 1, 0⟩, ⟨12, 0, 1, 0⟩, ⟨13, 0, 1, 0⟩, ⟨14, 0, 1, 0⟩] ++ List.replicate 4 ⟨0, 0, 0, 0⟩⟩
/-- The heartbeat of a member that agrees, with what it hears. -/
def agrees (d : SpanDesc) : SpanBeat := ⟨7, 3, 1, 0, d.digest, 0, 0, 15, false, none, 0⟩
/-- The device as a member that has heard members 1 and 2. -/
def grouped (d : SpanDesc) (f : Span → Span) : State := { ready with spn := f { Span.reset with desc := some d, heard := [(1, ⟨0, 0, agrees d⟩), (2, ⟨0, 0, agrees d⟩)] } }
def four0 : State := grouped (group4 0) id
/-- A header from member 1 for stripe 0. -/
def hdr1 (role ref : Nat) : SpanHdr := ⟨1, false, false, false, BitVec.ofNat 8 role, 1, 0, 0, 1, BitVec.ofNat 32 ref, 0⟩
/-- Members that agree in their digest do not split the group. The digests stand as the opaque function gives them. -/
theorem test_Span_agree (s : State) (h : ∀ e ∈ s.spn.heard, e.2.beat.digest = (spanDesc s).digest) : digestSplit s = false := by
  simp only [digestSplit, Bool.and_eq_false_iff]
  left
  by_cases hg : inGroup s = true
  · simp only [hg, if_true, List.any_eq_false, List.mem_append, List.mem_map, List.mem_filter, List.mem_singleton, bne_iff_ne, ne_eq, Decidable.not_not]
    intro x hx
    rcases hx with ⟨e, he, hx⟩ | hx
    · rw [← hx, h e he.1]
    · exact hx
  · simp [hg]
theorem test_Span_quorum : isCoord four0 = true := by
  have h : digestSplit four0 = false := by
    apply test_Span_agree; intro e he
    have he : e = (1, ⟨0, 0, agrees (group4 0)⟩) ∨ e = (2, ⟨0, 0, agrees (group4 0)⟩) := by simpa [four0, grouped] using he
    rcases he with rfl | rfl <;> simp only [agrees, spanDesc, four0, grouped, id, Option.getD]
  have q : quorumNow four0 = true := by simp only [quorumNow, h]; decide +kernel
  simp only [isCoord, coordinator, q]; decide +kernel
theorem test_Span_messages : pageUp four0 pSPN = true ∧ inGroup four0 = true ∧ spanShut four0 1 = false ∧ genServed four0 1 = true ∧ spanCalm four0 = true ∧ leadsStripe four0 0 = true ∧ (group4 0).layout ≠ 0
    ∧ fullStripe (group4 0) ⟨0, 1, 0, .gather, [⟨1, 5, 0, 0, [[9]], false⟩], false, [], []⟩ = false ∧ four0.spn.inject.contains 2 = false
    ∧ spanShut (grouped { group4 0 with entries := (group4 0).entries.set 1 ⟨12, 0, 2, 0⟩ } id) 1 = true := by decide +kernel
/-- A gather, a wait, a flight and a proposal as the clauses name them. -/
def flight0 (ph : SpanPhase) : SpanFlight := ⟨0, 1, 0, ph, [⟨1, 5, 0, 0, [[9]], false⟩], false, [(0, 0, [[9]])], []⟩
def span1 (ty : Nat) (again : Bool) : SpanWait := ⟨⟨1, ty, hdr1 0 5, .ack, 0, false⟩, 0, again⟩
theorem test_Span_gathers : (let s := grouped (group4 0) fun p => { p with gathers := [⟨.job 1 0 [], 0, 0, 1, [(5, 0), (6, 1)], []⟩] }; spanCalm s = true ∧ s.spn.gathers.map (·.waits) = [[(5, 0), (6, 1)]])
    ∧ (let s := grouped (group4 0) fun p => { p with jobs := [⟨1, [(0, none), (1, none)], [], 0, [], 16, [], none, false, false, [], none⟩], gathers := [⟨.job 1 0 [2], 0, 0, 1, [(5, 0)], []⟩] }; s.spn.flights = [] ∧ s.spn.late = [] ∧ s.spn.jobs.map (·.writing) = [false])
    ∧ (let s := grouped (group4 0) fun p => { p with flights := [flight0 .intent] }; s.spn.jobs = [] ∧ s.spn.later = [] ∧ (group4 0).holder 0 0 ≠ 0 ∧ (∀ i < 4, (group4 0).serves i = true) ∧ (group4 0).holder 0 0 < 4)
    ∧ (let s := grouped (group4 0) fun p => { p with flights := [flight0 .chunks], waits := [span1 3 false] }; s.spn.flights = [flight0 .chunks] ∧ s.spn.waits = [span1 3 false] ∧ (span1 3 false).msg.hdr.ref = (hdr1 0 5).ref) := by decide +kernel
theorem test_Span_beats : (agrees (group4 0)).group.toNat = (group4 0).group ∧ (agrees (group4 0)).gen.toNat ≤ (group4 0).gen ∧ (agrees (group4 0)).digest = (group4 0).digest ∧ (agrees (group4 0)).joins = none
    ∧ (group4 0).fwMin ≤ (agrees (group4 0)).version.toNat ∧ (agrees (group4 0)).version.toNat ≤ (group4 0).fwMax ∧ { agrees (group4 0) with group := 8 }.group.toNat ≠ (group4 0).group ∧ four0.spn.inject.contains 1 = false :=
  ⟨by decide +kernel, by decide +kernel, by simp only [agrees], by simp only [agrees], by decide +kernel, by decide +kernel, by decide +kernel, by decide +kernel⟩
/-- Member 3 is FENCED and is heard again. -/
def fenced3 : SpanDesc := { group4 0 with entries := (group4 0).entries.set 3 ⟨14, 0, 2, 0⟩ }
theorem test_Span_returns : (let s := grouped fenced3 id; fenced3.st 3 = 2 ∧ 4 ≤ fenced3.members ∧ s.spn.proposal = none ∧ s.spn.next = none ∧ (fenced3.setSt 3 3).st 3 = 3)
    ∧ (group4 0).takes 3 = true ∧ (group4 0).setSt 3 2 ≠ group4 0 := by decide +kernel
/-- The bytes of generation 2, in which member 3 is FENCED. -/
def gen2 : List Byte := { fenced3 with gen := 2 }.bytes
theorem test_Span_votes : spanValid gen2 = true ∧ (spanParse gen2).group = (group4 0).group ∧ (group4 0).gen < (spanParse gen2).gen ∧ (group4 0).threshold = 3
    ∧ (let s := grouped (group4 0) fun p => { p with proposal := some (spanParse gen2, [0, 2], 0) }; spanCalm s = true ∧ [0, 2].contains 1 = false ∧ (group4 0).threshold ≤ [0, 2].length + 1)
    ∧ [0].length + 1 < (group4 0).threshold := by decide +kernel
theorem test_Span_votes_one : ([0] : List Nat).length + 2 < { group4 0 with members := 6, entries := List.replicate 6 ⟨9, 0, 1, 0⟩ }.threshold := by decide +kernel
/-- Member 1 of a group whose coordinator is member 0. -/
def follower (f : Span → Span) : State := { ready with spn := f { Span.reset with desc := some (group4 1), heard := [(0, ⟨0, 0, agrees (group4 1)⟩), (2, ⟨0, 0, agrees (group4 1)⟩)] } }
theorem test_Span_follower : coordinator (follower id) = some 0 ∧ isCoord (follower id) = false := by
  have h : digestSplit (follower id) = false := by
    apply test_Span_agree; intro e he
    have he : e = (0, ⟨0, 0, agrees (group4 1)⟩) ∨ e = (2, ⟨0, 0, agrees (group4 1)⟩) := by simpa [follower] using he
    rcases he with rfl | rfl <;> simp only [agrees, spanDesc, follower, id, Option.getD]
  have q : quorumNow (follower id) = true := by simp only [quorumNow, h]; decide +kernel
  simp only [isCoord, coordinator, q]; decide +kernel
theorem test_Span_actions : bit (rd (follower id) pSPN SPN_VIEW) 18 = false
    ∧ (let s := follower fun p => { p with next := some ({ group4 1 with gen := 2 }, 0) }; s.spn.waits = [] ∧ s.spn.next = some ({ group4 1 with gen := 2 }, 0)) := by decide +kernel
theorem test_Span_resync : inF four0 pSPN SPN_RESYNC_SHARE 6 0 ≠ 0 ∧ (group4 0).layout = 1 ∧ leadsStripe four0 0 = true ∧ 0 < (group4 0).stripes ∧ (group4 0).holder 0 0xFE = 0
    ∧ (let d := { group4 0 with entries := (group4 0).entries.set 0 ⟨11, 0, 2, 0⟩, index := 1 }; leadsStripe (grouped d id) 0 = true ∧ leadsStripe (grouped d id) 4 = true) := by decide +kernel
/-- Member 1 leads stripe 4, whose P is at member 0 that is being rebuilt. -/
def rebuilding0 : State := grouped { group4 0 with index := 1, entries := (group4 0).entries.set 0 ⟨11, 0, 3, 0⟩ } fun p => { p with unresync := [4], dirty := [(0, [4])] }
theorem test_Span_resync_parity : (let d := spanDesc rebuilding0; leadsStripe rebuilding0 4 = true ∧ 4 < d.stripes ∧ d.holder 4 0xFE = 0 ∧ d.holder 4 0xFE ≠ 1 ∧ d.takes (d.holder 4 0xFE) = true
    ∧ d.st 0 = 3 ∧ (rebuilding0.spn.dirty.getD 0 []).contains 4 = true ∧ rebuilding0.spn.dirtyAll.contains 0 = false ∧ (d.roles.filter fun r => d.holder 4 r == 0) = [0xFE]
    ∧ gathered d (readsGather rebuilding0 4 (([(0, some [[]]), (1, some [[]]), (2, some [[]])] : List (BitVec 8 × Option (List (List Byte)))).filter fun e => d.holder 4 e.1.toNat != 0)) 0xFE = some []) := by decide +kernel
/-- Stripe 4 is being gathered at member 0 since time 0, with or without every unit. -/
def gatheringAt (roles : List Nat) : State := grouped (group4 0) fun p => { p with flights := [⟨4, 1, 0, .gather, roles.map fun j => ⟨1, j, j, 0, [[9]], false⟩, false, [], []⟩] }
theorem test_Span_gather : inF (advance (gatheringAt [0]) 16383000) pSPN SPN_GATHER 13 0 * 1000 ≤ (advance (gatheringAt [0]) 16383000).com.time.toNat ∧ (group4 0).partner 0 = some 1
    ∧ fullStripe (group4 0) ⟨4, 1, 0, .gather, [0, 1, 2].map fun j => ⟨1, j, j, 0, [[9]], false⟩, false, [], []⟩ = true
    ∧ fullStripe (group4 0) ⟨4, 1, 0, .gather, [1].map fun j => ⟨1, j, j, 0, [[9]], false⟩, false, [], []⟩ = false := by decide +kernel
theorem test_Span_read : (let d := { group4 0 with index := 1, entries := (group4 0).entries.set 0 ⟨11, 0, 3, 0⟩ }; let s := grouped d id;
      goodRole s 4 1 = true ∧ d.holder 4 1 ≠ 1 ∧ goodRole s 4 0xFE = true ∧ d.holder 4 0xFE ≠ 1) := by decide +kernel
theorem test_Span_deadlines : (let s := grouped (group4 0) fun p => { p with proposal := some (spanParse gen2, [0], 0), waits := [span1 5 false] }
      5000000 ≤ ((advance s 5000000).com.time - 0).toNat ∧ peerTimeout (advance s 127000000) ≤ ((advance s 127000000).com.time - 0).toNat ∧ s.spn.waits = [span1 5 false] ∧ (span1 5 false).msg.hdr.ref = (hdr1 0 5).ref)
    ∧ hears (ageHeard (advance four0 200000000)) 3 = false ∧ four0.spn.nonceMark ≤ (slotOf four0 spanSlot).counter := by decide +kernel
/-- SPAN_EPOCH of generation 2 is delivered. -/
def epoch2 (arg : Nat) : State := putEntry (grouped (group4 0) fun p => { p with next := some ({ group4 0 with gen := 2 }, 0) }) 9 { LaunchEntry.empty with time := 640, page := pSPN, action := 6, arg := w32 arg, state := .sent }
theorem test_Span_epoch : delivers (epoch2 2) 9 6 pSPN = true ∧ (entryOf (epoch2 2) 9).arg = w32 (genLow 2) ∧ (entryOf (epoch2 3) 9).arg ≠ w32 (genLow 2) ∧ (epoch2 2).spn.waits = [] := by decide +kernel
/-- The span key arrives by Security Send of protocol F0h. -/
def spanKeyed1 : State := fetched ready (asked1 0 0x81 0 [(10, 0xF0002000)] 40)
theorem test_Span_key : secSpsp (entry 0x81 0 [(10, 0xF0002000)]) = 0x20
    ∧ ends (.spanKeyInstall 1 (List.replicate 40 3) true) spanKeyed1 .success 0 [] (fun t => (slotOf t spanSlot).state == .valid && (slotOf t spanSlot).key == List.replicate 32 3) = true
    ∧ ends (.spanKeyInstall 1 (List.replicate 40 3) false) spanKeyed1 .accessDenied 0 [] (fun _ => true) = true := by decide +kernel
/-- Span Control with an ACTION, outside a group or in it. -/
def control (s : State) (cdws : List (Nat × Nat)) : State := fetched s (asked1 0 0xC1 0 cdws 384)
/-- The device with serial 11 and the key of the span slot. -/
def keyed11 (k : Bool) : State := { ready with bot := { ready.bot with fuses := { ready.bot.fuses with serial := 11 } }, key := { ready.key with slots := if k then [(spanSlot, { gcm with type := 2 })] else [] } }
theorem test_Span_control : ends (.spanQuery 1) (control ready [(10, 0)]) .success 0 (List.replicate 384 0) (fun _ => true) = true
    ∧ ends (.spanQuery 1) (control four0 [(10, 0)]) .success 0 (group4 0).bytes (fun _ => true) = true
    ∧ spanValid { group4 0 with gen := 0 }.bytes = true ∧ (spanParse { group4 0 with gen := 0 }.bytes).entry 0 = ⟨11, 0, 1, 0⟩ ∧ spanKeyed (keyed11 false) = false ∧ spanKeyed (keyed11 true) = true
    ∧ ends (.spanCreate 1 { group4 0 with gen := 0 }.bytes) (control (keyed11 false) [(10, 1)]) .spanRefused 0xB [] (fun t => rd t pSPN SPN_LAST_REFUSE == 0xB) = true
    ∧ ends (.spanJoin 1 { group4 0 with gen := 0 }.bytes none) (control (keyed11 false) [(10, 2)]) .spanRefused 0xB [] (fun _ => true) = true
    ∧ ends (.spanLeave 1) (control ready [(10, 3)]) .spanRefused 4 [] (fun _ => true) = true ∧ ends (.spanWitness 1) (control ready [(10, 4), (11, 1)]) .spanRefused 4 [] (fun _ => true) = true
    ∧ ends (.spanFence 1) (control ready [(10, 5)]) .spanRefused 4 [] (fun _ => true) = true := by decide +kernel
/-- Ten channels serve, so that the member namespace fits. -/
theorem test_Span_room : (makeMember { trainedTo 10 with key := (keyed11 true).key } { group4 0 with gen := 0 }).isSome = true
    ∧ (let a : SpanPeer := ⟨7, (group4 0).bytes, true, false⟩; a.group.toNat = 7 ∧ (spanParse a.desc).gen ≤ 1 ∧ ((spanParse a.desc).entry 0).serial = 11 ∧ (⟨8, [], true, false⟩ : SpanPeer).group.toNat ≠ 7) := by decide +kernel

/-! ### Power, control loops and the last ferry -/

/-- Power is good and every domain is up. -/
def live : State := powered true 2
def pwrd (f : Power → Power) : State := { live with pwr := f live.pwr }
theorem test_Power_off : (let s := both live pPMU PMU_DOMAIN_OFF_REQ (w32 (2 ^ 20));
      domainUp s 20 = true ∧ domainWantedOff s 20 = true ∧ ferryRunning s = false ∧ domainHeld s 20 = false
      ∧ after (.domainOff 20) s (fun t => !domainUp t 20 && (t.pwr.iseq.get? 20 == some 1) && rd t pPMU PMU_SWITCHES == 1) = true) := by decide +kernel
/-- Domain 20 is clamped, with an image or none. -/
def off20 : State := wr live pPMU PMU_ISO_STATE (w32 (2 ^ 20))
theorem test_Power_on : domainUp off20 20 = false ∧ (binDomains off20.com.chip).testBit 20 = true ∧ domainFenced off20 20 = false ∧ domainWantedOff off20 20 = false ∧ off20.pwr.inject = []
    ∧ after (.domainOn 20 false true) off20 (fun t => domainUp t 20) = true
    ∧ (let s := { off20 with pwr := { off20.pwr with iseq := [(20, 4)], images := [(20, ⟨4, [(regKey (pNCL 0) rCTRL, 1)], [], false⟩)] } }; after (.domainOn 20 true false) s (fun t => rd t (pNCL 0) rCTRL == 1) = true) := by decide +kernel
theorem test_Power_wake : (let s := hosted live fun h => { h with power := { h.power with target := some 4 } }; after (.wake 3) s (fun t => rd t pPMU PMU_WAKE == 0x10003 && t.hst.power == ⟨0, none, 0, 0⟩) = true) := by decide +kernel
/-- A slot with 3 tokens left; a die that wants one. -/
def slotted (n : Nat) : State :=
  let s := { live with pwr := { live.pwr with tokens := n, slot := some 0 } }
  { s with fch := { s.fch with dies := s.fch.dies.put 32 { dieOf s 32 with work := [.program 1 2 3 4] } } }
theorem test_Power_tokens : wantsToken (dieOf (slotted 3) 32) = true
    ∧ after (.tokenSlotStart 1000 0) (slotted 3) (fun t => rd t pCLE CLE_TOKEN_LAPSED == 3 && t.pwr.slot == some 1) = true
    ∧ after (.tokenRequest 0 [(2, 0)]) (slotted 3) (fun t => t.pwr.tokens == 2 && (dieOf t 32).token) = true
    ∧ after (.tokenRequest 0 [(2, 0)]) (slotted 0) (fun t => t.pwr.refused == [32] && (dieOf t 32).asking && rd t pCLE CLE_TOKEN_WAITS == 1) = true := by decide +kernel
/-- Loop 0 at a set point of 1,000 mV with b0 = 1/4, limits 0 to 32,767. -/
def loop0 : State :=
  let s := pwrd fun p => { p with rails := 1 }
  [(CLE_COEF_B01, 0x2000), (CLE_COEF_B23, 0), (CLE_COEF_A12, 0), (CLE_CTRL_A3, 0), (CLE_LIMITS, 0x7FFF0000), (CLE_NOTCH_N01, 0), (CLE_RAIL_VSET_0, 1000)].foldl (fun s e => both s pCLE e.1 (w32 e.2)) s
theorem test_Power_loop : loopRuns loop0 0 = true ∧ after (.loopEvaluation 0 1000) loop0 (fun t => (t.pwr.loops.getD 0 LoopHist.zero).duty == 250 && (t.pwr.loops.getD 0 LoopHist.zero).e1 == 1000) = true
    ∧ loopRuns live 0 = false := by decide +kernel
theorem test_Power_thermal : live.pwr.heated = none ∧ after (.thermalSample 0 (List.replicate 31 400 ++ [1840])) live (fun t => rd t pCLE CLE_TEMP_MAX == 0x1F0730 && t.pwr.hot.getD 31 0 == 1 && t.pwr.hot.getD 0 0 == 0) = true
    ∧ live.hst.power.cur ≤ 2 ∧ after (.throttleUpdate 0 9000 []) live (fun t => fld (rd t pCLE CLE_NODE_POWER) 15 0 == 9000 && rd t pCLE CLE_POWER_CAP == 6500) = true := by decide +kernel
theorem test_Power_clock : (let s := both live (pNCL 0) NCL_CLK_REQ 8; clkNow s 0 ≠ min (inF s (pNCL 0) NCL_CLK_REQ 4 0) (clockLimit s) ∧ after (.dvfsChange 0 10) s (fun t => clkNow t 0 == 8) = true) := by decide +kernel
theorem test_Power_phases : phaseRetired live 4 = false ∧ 2 ≤ livePhases live (railOfPhase 4) ∧ phaseRetired live 39 = false ∧ railOfPhase 39 = 13
    ∧ ((List.range 40).any fun p => decide (livePhases live (railOfPhase p) ≤ 1)) = true := by decide +kernel
theorem test_Power_ports : (let s := both live pCLE CLE_EXT_ENABLE 0x3F; bit (inForce s pCLE CLE_EXT_ENABLE) 0 = true ∧ bit (inForce s pCLE CLE_EXT_ENABLE) 5 = true) := by decide +kernel
theorem test_Power_ferry : ferryMay live = true ∧ live.fer.record.state = .none ∧ (pwrd fun p => { p with rails := 1 }).pwr.rails.testBit 0 = true ∧ thermalTripDue (pwrd fun p => { p with hot := [(5, 2)] }) = true
    ∧ 2700 < vTrip live ∧ takesWrite (unlocked (wr live pFLT FLT_INJECT_EN 1) pPMU) sp0 pPMU PMU_FERRY_INJECT = true := by decide +kernel
theorem test_Power_brownout : after (.pwrFail 2700 2650 80 (some 0)) live (fun t => t.bot.due == some 1 && t.com.time == 0 && !t.fer.parked) = true := by decide +kernel
/-- The device is parked, or off and waits for power-good. -/
def parked : State := { live with fer := { live.fer with parked := true } }
def off : State := { ready with pwr := { ready.pwr with vin := 5000 } }
theorem test_Power_restart : 2700 ≤ 5000 ∧ vStart (advance parked 10) ≤ 5000 ∧ parked.pwr.overPark = false ∧ parked.pwr.hotPark = false ∧ 0 < inF (advance parked 10) pPMU PMU_RESTART_HOLD 15 0
    ∧ after (.restartHoldExpiry 10 5000) parked (fun t => t.fer.hold == 10 && t.fer.parked) = true
    ∧ after (.powerGood 10 5000 true false) off (fun t => t.fer.hold == 10 && !t.pwr.pins.pwrgd) = true
    ∧ after (.powerGood (inF off pPMU PMU_RESTART_HOLD 15 0 * 1000000) 5000 true false) off (fun t => t.pwr.pins.pwrgd && t.tol.running) = true := by decide +kernel
/-- Main firmware runs after a ferry whose dump holds unit 7. -/
def booted (f : Ferry → Ferry) : State := { live with bot := { live.bot with due := none }, fer := f live.fer }
theorem test_Power_recovery : (let s := booted fun f => { f with record := { f.record with state := .done }, dump := [wb7] }; s.bot.due = none ∧ 2 ≤ rdF s pSCP SCP_BOOT_STAGE 3 0 ∧ domainUp s 8 = true ∧ s.fer.replayed = false ∧ s.str.stripes = []
      ∧ (s.str.journal.find? (·.torn)) = none ∧ s.fer.dump ≠ [] ∧ s.fer.record.state = .done)
    ∧ (let s := booted fun f => { f with record := { f.record with state := .done }, replayed := true, adminReady := true, ioReady := false }
      after (.restartRecovery ⟨true, true, true, true, [], [], []⟩) s (fun t => t.fer.ioReady && t.fer.record.state == .replayed) = true) := by decide +kernel
theorem test_Power_pins : after (.clkreqL12 true) live (fun t => t.pwr.pins.clkreqOff) = true
    ∧ after (.perstDeassert true 10) (pwrd fun p => { p with pins := { p.pins with perstA := true, perstB := true } }) (fun t => !t.pwr.pins.perstB && t.pwr.pins.perstA) = true := by decide +kernel

/-! ### Faults, island resets and reset scopes -/

theorem test_Faults_units : chanFenced ready 2 = false ∧ ready.com.chip.hasChannel 2 = true ∧ dieRetired ready 32 = false ∧ ready.com.chip.hasCluster 1 = true ∧ coreRetired ready 9 = false
    ∧ bit (rd ready (pCVN 3) rSTATUS) 1 = false ∧ fatalPage ready pMAP = true ∧ fatalPage ready pCLE = false
    ∧ (let s := { ready with com := { ready.com with chip := { ready.com.chip with split := true } } }; s.com.chip.split = true ∧ bit (rd s (pHF true) rSTATUS) 1 = false) := by decide +kernel
/-- Rank 0 of channel 2 is in service and the spare idles on channel 7. -/
def spared : State := both (both (wr (wr ready (pDMC 7) DMC_RANK_STATE 0x21) (pDMC 2) DMC_RANK_STATE 0x11) (pDMC 0) DMC_SPARE 0x87) (pDMC 0) DMC_GEOM 0x12
theorem test_Faults_rank : rankState spared 2 0 = 1 := by decide +kernel
/-- An entry waits for the log, or an update of its COUNT. -/
def entry7 : LogEntry := ⟨7, 1, 1, 5, 0, 0, 3, 0, 0, 0, 1, 0, 0, 0, 0, 0, 0, false⟩
def logging (q : List LogItem) : State := { ready with com := { ready.com with log := { ready.com.log with ring := [{ entry7 with fseq := 6 }], queue := q } } }
theorem test_Faults_log : wearHolds { advance (logging []) 10 with flt := { (advance (logging []) 10).flt with holdQueue := false } } 0x6000000 = false
    ∧ after (.faultLogWrite 10) (logging [.entry entry7]) (fun t => t.com.log.ring == [{ entry7 with fseq := 6 }, entry7] && rd t pFLT FLT_LOG_WSEQ == 7 && t.com.log.queue == []) = true
    ∧ after (.faultLogWrite 10) (logging [.count 6 9]) (fun t => t.com.log.ring == [{ entry7 with fseq := 6, count := 9 }]) = true := by decide +kernel
/-- Channel 2's island has been reset a number of times at time 0; one is in reset. -/
def resetOf (n : Nat) (l : List Nat) : State := { ready with flt := { ready.flt with resets := l, readmits := [(0x42, List.replicate n 0)] } }
theorem test_Faults_island : islandPage? ready 0x42 = some (pFCH 2) ∧ islandRetired (resetOf 1 []) 0x42 = false ∧ (recentResets (resetOf 1 []) 0x42).length = 1 ∧ (recentResets (resetOf 2 []) 0x42).length = 2
    ∧ after (.islandReset 0x42) (resetOf 1 [0x142]) (fun t => t.flt.resets == [0x42] && !bit (rd t (pFCH 2) rSTATUS) 0 && rd t pFLT FLT_IRESET_STATUS == 0x80004200 && (recentResets t 0x42).length == 2) = true
    ∧ (resetOf 1 [0x42]).com.bus.held = [] ∧ after (.islandReadmit 0x42 true 10) (resetOf 1 [0x42]) (fun t => t.flt.resets == [] && bit (rd t (pFCH 2) rSTATUS) 0 && rd t pFLT FLT_IRESET_STATUS == 0x4200) = true := by decide +kernel
theorem test_Faults_power_on : ready.pwr.vin < 2700 ∧ after (.powerOnReset 5000 false true) ready (fun t => t.bot.due == some 0 && t.pwr.vin == 5000 && t.pwr.pins.mgmtI3c && rd t pPMU PMU_ISO_STATE == 0x0FFFFFFE) = true := by decide +kernel
theorem test_Faults_brownout : after (.brownout 2000) live (fun t => t.bot.due == some 1 && t.com.time == 0 && t.hst.cmds == []) = true := by decide +kernel
theorem test_Faults_perst : ferryMay live = true ∧ live.com.chip.split = false ∧ ctlExists live 0 = true := by decide +kernel
theorem test_Faults_perst_port : (let s := { live with com := { live.com with chip := { live.com.chip with split := true } } }; after (.perst true 80) s (fun t => t.pwr.pins.perstB && t.bot.due == some 0) = true) := by decide +kernel
theorem test_Faults_controller : ctlExists linked 0 = true ∧ (ctlOf linked 0).enabled = true
    ∧ after (.controllerReset 0) (hosted linked fun h => { h with cmds := [asked1 1 2 4 [] 0, { asked1 1 2 4 [] 0 with id := 2, ctl := 5 }] }) (fun t => !(ctlOf t 0).enabled && t.hst.cmds.map (·.ctl) == [5]) = true
    ∧ after (.flr 0) linked (fun t => !(ctlOf t 0).enabled && rdF t (pHF false) HF_FN_STATUS 5 0 == 0) = true := by decide +kernel
/-- A spare rank is idle where the layout names one. -/
theorem test_Faults_spare : (spareIdle? spared).isSome = true := by decide +kernel

/-! ### Steps -/

theorem test_Steps : after (.timeMark 0) ready (fun t => t.pending == []) = true ∧ ({ ready with pending := [.timeMark 0] } : State).pending = [.timeMark 0] ∧ ready.pending = [] ∧ ready.memWf = true := by decide +kernel

end Sys2Proof.Tests
end

/-! Reads of registers: an access that the fabric takes, a read of an RC register, and the pop of the failure list (R8, R389). -/

namespace Sys2Proof.Machine

/-! ### A read that the fabric takes -/

/-- The address of a page's register reaches that register (R36). -/
theorem targetOf_page (s : State) {p off : Nat} (hp : p < 4096) (ho : off < 4096) : targetOf s (0xF0000000 + p * 4096 + off) = .page p off := by
  unfold targetOf
  rw [if_neg (by omega), if_neg (by omega), if_pos (by omega), Target.page.injEq]
  omega

theorem reaches_iff (s : State) (who : Initiator) (p off : Nat) :
    reaches s who p off = true ↔ fabricPageCause s who p off 4 = none ∧ heldAt s who (.page p off) = none := by
  simp [reaches, pathFree]

/-- An access that the fabric refuses nothing of and no crossing holds is served. -/
theorem access_served {s : State} {a : HeldAccess} (host : List Byte) (micros : Nat) (hc : fabricCause s a = none) (hh : heldAt s a.who (targetOf s a.addr) = none) :
    access s a host micros = serve (passes s a.who (targetOf s a.addr)) a host micros := by
  simp [access, hc, hh]

/-- A register read that the fabric takes answers what the page answers. -/
theorem regRead_of_reaches {s : State} {who : Initiator} {p off : Nat} (hp : p < 4096) (ho : off < 4096) (h : reaches s who p off = true) :
    regRead s who p off = answer (pageRead (passes s who (.page p off)) who p off).1
      (.data (bytesLE 4 (pageRead (passes s who (.page p off)) who p off).2.toNat)) := by
  obtain ⟨hc, hh⟩ := (reaches_iff s who p off).mp h
  have ht (s' : State) : targetOf s' (0xF0000000 + p * 4096 + off) = .page p off := targetOf_page s' hp ho
  have hf : fabricCause s ⟨who, false, 0xF0000000 + p * 4096 + off, 4, []⟩ = none := by simp [fabricCause, ht, hc]
  unfold regRead runAccess
  rw [access_served [] 0 hf (by rw [ht]; exact hh)]
  simp [serve, ht]

/-! ### What a page answers to a read of an RC register -/

/-- There is one `DIS` page (R45). -/
theorem page_of_dis {ch : Chip} {p : Nat} (h : pageKind? ch p = some .dis) : p = pDIS := by
  simp only [pageKind?, ite_eq_iff, Option.some.injEq, reduceCtorEq, and_false, false_or, and_true, or_false] at h
  unfold pDIS
  omega

/-- An RC register is not one whose row has another access code. -/
theorem off_ne_of_rc {k : PageKind} {off o : Nat} {r : RegRow} (hr : rowAt? k off = some r) (ha : r.acc = .rc) (ho : (rowAt? k o).map (·.acc) ≠ some .rc) : off ≠ o := by
  rintro rfl; exact ho (by simp [hr, ha])

/-- A read of Q_MAXDEPTH answers the register; the maximum that starts again is the dispatcher's own (R388, R389). -/
theorem maxDepthRead_shows (s : State) : (maxDepthRead s).1.com = s.com ∧ (maxDepthRead s).2 = rd s pDIS DIS_Q_MAXDEPTH := ⟨rfl, rfl⟩

/-- What a page's own logic does at a read of an RC register, before the clear: its value, and no change of the shared part. `FAIL_NEXT` and `RNG_OUT` have reads of their own. -/
theorem blockRead_of_rc {s : State} (who : Initiator) {p off : Nat} {k : PageKind} {r : RegRow} (hp : pageKind? s.com.chip p = some k) (hr : rowAt? k off = some r) (ha : r.acc = .rc)
    (hd : ¬(k = .dis ∧ off = DIS_FAIL_NEXT)) (hk : ¬(k = .key ∧ off = KEY_RNG_OUT)) :
    (blockRead s who p k off).1.com = s.com ∧ (blockRead s who p k off).2 = rd s p off := by
  have hne {o : Nat} := off_ne_of_rc (o := o) hr ha
  cases k with
  | sgl => simp [blockRead, hne (o := SGL_TIME_LO) (by decide), hne (o := SGL_TIME_HI) (by decide)]
  | dis =>
    have hn : off ≠ DIS_FAIL_NEXT := fun h => hd ⟨rfl, h⟩
    have hb : off ≠ DIS_CORE_BUSY_LO := hne (by decide)
    by_cases hq : off = DIS_Q_MAXDEPTH
    · have hm := maxDepthRead_shows s
      rw [← page_of_dis hp, ← hq] at hm
      simpa only [blockRead, if_neg hn, if_neg hb, if_pos hq] using hm
    · simp only [blockRead, if_neg hn, if_neg hb, if_neg hq, and_self]
  | key =>
    have hn : off ≠ KEY_RNG_OUT := fun h => hk ⟨rfl, h⟩
    simp [blockRead, hn]
  | cvn => simp [blockRead, hne (o := rgOff 0 0x08) (by decide), hne (o := rgOff 1 0x08) (by decide), hne (o := rgOff 2 0x08) (by decide)]
  | _ => exact ⟨rfl, rfl⟩

/-- The page clears an RC register that it has read to its reset value (R8). -/
theorem pageRead_of_rc {s : State} (who : Initiator) {p off : Nat} {k : PageKind} {r : RegRow} (hp : pageKind? s.com.chip p = some k) (hr : rowAt? k off = some r)
    (ha : r.acc = .rc) (hd : ¬(k = .dis ∧ off = DIS_FAIL_NEXT)) :
    pageRead s who p off = (wr (blockRead s who p k off).1 p off r.reset, (blockRead s who p k off).2) := by
  simp [pageRead, hp, hr, ha, hd]

/-- A read of `FAIL_NEXT` pops the failure list, and nothing more clears it (R389). -/
theorem pageRead_failNext {s : State} (who : Initiator) {p : Nat} (hp : pageKind? s.com.chip p = some .dis) : pageRead s who p DIS_FAIL_NEXT = failNext s := by
  have hr : rowAt? .dis DIS_FAIL_NEXT = some ⟨DIS_FAIL_NEXT, 1, 4, .rc, .none, 0xFFFFFFFF, 0xFFFF, false⟩ := rfl
  simp [pageRead, hp, hr, blockRead]

/-- Setting the failure list shows its length in `FAIL_COUNT`. -/
theorem putFailures_shows (s : State) (l : List Nat) : (putFailures s l).dis.failures = l ∧ rd (putFailures s l) pDIS DIS_FAIL_COUNT = w32 l.length := by
  unfold putFailures
  refine ⟨by simp, ?_⟩
  rw [rd_wr _ _ (by decide) (by decide), if_neg (by decide), rd_wr_same]

/-! ### RC_REGISTER_READ -/

theorem exec_rcRegisterRead (who : Initiator) (page off : BitVec 12) (s : State) :
    exec (.rcRegisterRead who page off) s = .next (confine [.sglP, .disP, .keyP] s (regRead s who page.toNat off.toNat)) := rfl

/-- A read of an RC register answers its value and clears it, and no other register changes (R8). -/
theorem rcRegisterRead_clears {s : State} {who : Initiator} {page off : BitVec 12} {k : PageKind} {r : RegRow} (hp : pageKind? s.com.chip page.toNat = some k)
    (h : reaches s who page.toNat off.toNat = true) (hr : rowAt? k off.toNat = some r) (ha : r.acc = .rc)
    (hd : ¬(k = .dis ∧ off.toNat = DIS_FAIL_NEXT)) (hk : ¬(k = .key ∧ off.toNat = KEY_RNG_OUT)) :
    Runs (.rcRegisterRead who page off) s fun t =>
      t.com.answer = .data (bytesLE 4 (rd s page.toNat off.toNat).toNat) ∧ rd t page.toNat off.toNat = r.reset ∧ RegsKept [(page.toNat, off.toNat)] s t := by
  refine ⟨_, exec_rcRegisterRead who page off s, ?_⟩
  generalize hu : passes s who (.page page.toNat off.toNat) = u
  have hpu : pageKind? u.com.chip page.toNat = some k := by simp [← hu, hp]
  have hkept (p o : Nat) : rd u p o = rd s p o ∧ inForce u p o = inForce s p o := by simp [← hu]
  obtain ⟨hcom, hval⟩ := blockRead_of_rc who hpu hr ha hd hk
  rw [regRead_of_reaches page.isLt off.isLt h, hu, pageRead_of_rc who hpu hr ha hd, hval, (hkept _ _).1]
  refine ⟨rfl, by simp, fun p o _ ho hn => ?_⟩
  have hne : ¬(p = page.toNat ∧ o = off.toNat) := by simpa using hn
  have hr' : rd (blockRead u who page.toNat k off.toNat).1 p o = rd u p o := rd_congr (by rw [hcom]) (by rw [hcom]) p o
  have hf' : inForce (blockRead u who page.toNat k off.toNat).1 p o = inForce u p o := inForce_congr (by rw [hcom]) (by rw [hcom]) p o
  simp [rd_wr _ _ off.isLt ho, hne, hr', hf', hkept]

/-- A read of `FAIL_NEXT` answers the oldest failed slot and removes it (R389). -/
theorem rcRegisterRead_failNext {s : State} {who : Initiator} {page off : BitVec 12} {n : Nat} {l : List Nat} (hp : pageKind? s.com.chip page.toNat = some .dis)
    (h : reaches s who page.toNat off.toNat = true) (ho : off.toNat = DIS_FAIL_NEXT) (hl : s.dis.failures = n :: l) :
    Runs (.rcRegisterRead who page off) s fun t =>
      t.com.answer = .data (bytesLE 4 (w32 n).toNat) ∧ t.dis.failures = l ∧ rd t pDIS DIS_FAIL_COUNT = w32 l.length := by
  refine ⟨_, exec_rcRegisterRead who page off s, ?_⟩
  generalize hu : passes s who (.page page.toNat off.toNat) = u
  have hpop : pageRead u who page.toNat off.toNat = (putFailures u l, w32 n) := by
    rw [ho, pageRead_failNext who (by simp [← hu, hp])]
    simp [failNext, ← hu, hl]
  rw [regRead_of_reaches page.isLt off.isLt h, hu, hpop]
  obtain ⟨hfail, hcount⟩ := putFailures_shows u l
  exact ⟨rfl, by simp [confine, hfail], by simpa using hcount⟩

/-- Settles O8: the fabric passes the read on unchanged, the page's own logic leaves the register file to the clear, and only `FAIL_NEXT` changes a list instead of being cleared. -/
theorem readClearsCounter : Obligations.ReadClearsCounter := by
  intro s who page off k hp h _
  refine ⟨fun r hr ha hd hk => rcRegisterRead_clears hp h hr ha hd hk, fun n l hk ho hl => ?_⟩
  subst hk
  exact rcRegisterRead_failNext hp h ho hl

end Sys2Proof.Machine

/-! The frame of every command: what its footprint leaves alone (R12). -/

namespace Sys2Proof.Machine

/-- Settles O4: every command answers its effect confined to its footprint, and confining keeps every part outside it. -/
theorem footprintFrame : Obligations.FootprintFrame := by
  intro c s t h
  obtain ⟨u, hu⟩ := exec_confined c s
  obtain rfl := Host.Outcome.next.inj (hu.symm.trans h)
  exact confine_agree (footprint c) s u

end Sys2Proof.Machine

/-! Crossings and refusals: an acknowledge frees an entry and lets a held access go, and the fabric's record of a refusal (R16, R17, R44, R607). -/

namespace Sys2Proof.Machine

/-! ### Which registers an update of the shared part changes -/

theorem RegsKept.trans {l : List (Nat × Nat)} {s t u : State} (h : RegsKept l s t) (h' : RegsKept l t u) : RegsKept l s u := fun p off hp ho hn =>
  ⟨(h' p off hp ho hn).1.trans (h p off hp ho hn).1, (h' p off hp ho hn).2.trans (h p off hp ho hn).2⟩

theorem RegsKept.mono {l l' : List (Nat × Nat)} {s t : State} (h : RegsKept l s t) (hl : l ⊆ l') : RegsKept l' s t := fun p off hp ho hn => h p off hp ho fun hm => hn (hl hm)

theorem regsKept_of_eq (l : List (Nat × Nat)) {s t : State} (hr : t.com.regs = s.com.regs) (hc : t.com.chip = s.com.chip) : RegsKept l s t := fun p off _ _ _ =>
  ⟨rd_congr hr hc p off, inForce_congr hr hc p off⟩

theorem regsKept_wr {l : List (Nat × Nat)} (s : State) {p off : Nat} (v : Word) (ho : off < 4096) (hm : (p, off) ∈ l) : RegsKept l s (wr s p off v) := fun p' off' _ ho' hn => by
  have hne : ¬(p' = p ∧ off' = off) := by rintro ⟨rfl, rfl⟩; exact hn hm
  exact ⟨by rw [rd_wr s v ho ho', if_neg hne], rfl⟩

/-- The registers in which the fault manager shows that its log is full (R606). -/
def logRegs : List (Nat × Nat) := [(pFLT, FLT_LOG_LOST), (pFLT, rIRQ_STATUS)]

/-- The registers that a counted event of a page may change: its count, its interrupt, its FAULT, and those of the log (R73, R74). -/
def bucketRegs (p : Nat) : List (Nat × Nat) := (p, rLB_COUNT) :: (p, rIRQ_STATUS) :: (p, rFAULT) :: logRegs

theorem logPush_regs (s : State) (q : LogItem) : RegsKept logRegs s (logPush s q) := by
  unfold logPush
  split
  · exact regsKept_of_eq _ rfl rfl
  · exact (regsKept_wr s _ (by decide) (by decide)).trans (regsKept_wr _ _ (by decide) (by decide))

theorem logPush_bus (s : State) (q : LogItem) : (logPush s q).com.bus = s.com.bus := by
  unfold logPush
  split
  · rfl
  · simp

/-- Logging an event changes no register but those of the log. -/
theorem logEvent_regs (s : State) (v : LogEvent) : RegsKept logRegs s (logEvent s v) := by
  unfold logEvent
  split <;> exact logPush_regs s _

theorem logEvent_bus (s : State) (v : LogEvent) : (logEvent s v).com.bus = s.com.bus := by
  unfold logEvent
  split <;> exact logPush_bus s _

/-- A bucket fault changes the page's interrupt and FAULT, and the registers of the log. -/
theorem setFault_regs (s : State) (p : Nat) (c : FClass) (cause unit : Nat) : RegsKept (bucketRegs p) s (setFault s p c cause unit) := by
  have hlog := fun u v => (logEvent_regs u v).mono (l' := bucketRegs p) (by intro x; simp [bucketRegs]; tauto)
  refine RegsKept.trans (t := writeFault s p c cause unit) ?_ (hlog _ _)
  have hfault := regsKept_wr (l := bucketRegs p) s (w32 (c.code * 2 ^ 28 + (cause % 4096) * 65536 + unit % 65536)) (p := p) (off := rFAULT) (by decide) (by simp [bucketRegs])
  unfold writeFault
  split
  · exact hfault
  · exact hfault.trans (regsKept_wr _ _ (by decide) (by simp [bucketRegs]))

theorem setFault_bus (s : State) (p : Nat) (c : FClass) (cause unit : Nat) : (setFault s p c cause unit).com.bus = s.com.bus := by
  unfold setFault writeFault
  rw [logEvent_bus]
  split <;> simp

/-- A counted event of a page changes no register but its bucket's, its interrupt, its FAULT and those of the log. -/
theorem lbEventAt_regs (s : State) (p unit : Nat) : RegsKept (bucketRegs p) s (lbEventAt s p unit).1 := by
  have hcount (v : Word) : RegsKept (bucketRegs p) s (wr s p rLB_COUNT v) := regsKept_wr s v (by decide) (by simp [bucketRegs])
  unfold lbEventAt
  dsimp only
  split
  · refine RegsKept.trans ?_ (setFault_regs _ p _ _ unit)
    refine RegsKept.trans ?_ (regsKept_wr _ _ (by decide) (by simp [bucketRegs]))
    exact (hcount _).trans (regsKept_of_eq _ rfl rfl)
  · exact hcount _

theorem lbEventAt_bus (s : State) (p unit : Nat) : (lbEventAt s p unit).1.com.bus = s.com.bus := by
  unfold lbEventAt
  dsimp only
  split
  · rw [setFault_bus]; simp
  · simp

/-! ### A refusal at the fabric -/

/-- The registers in which the fault manager records a refusal (R44). -/
def refusalRegs : List (Nat × Nat) := (pFLT, FLT_REFUSALS) :: (pFLT, FLT_LAST_REF_LO) :: (pFLT, FLT_LAST_REF_HI) :: bucketRegs pFLT

theorem recordRefusal_regs (s : State) (who : Initiator) (page addr cause access : Nat) : RegsKept refusalRegs s (recordRefusal s who page addr cause access) := by
  unfold recordRefusal
  refine RegsKept.trans ?_ ((lbEventAt_regs _ pFLT _).mono (by decide))
  refine RegsKept.trans ?_ (regsKept_wr _ _ (by decide) (by decide))
  refine RegsKept.trans ?_ (regsKept_wr _ _ (by decide) (by decide))
  refine RegsKept.trans ?_ (regsKept_wr _ _ (by decide) (by decide))
  exact ((logEvent_regs s _).mono (by decide)).trans (regsKept_wr _ _ (by decide) (by decide))

/-- A refusal raises REFUSALS by one and shows its address. -/
theorem rd_recordRefusal (s : State) (who : Initiator) (page addr cause access : Nat) :
    rd (recordRefusal s who page addr cause access) pFLT FLT_REFUSALS = w32 (satAdd 0xFFFFFFFF (rd s pFLT FLT_REFUSALS).toNat 1)
      ∧ rd (recordRefusal s who page addr cause access) pFLT FLT_LAST_REF_LO = w32 addr := by
  have hbucket (t : State) : rd (lbEvent t pFLT).1 pFLT FLT_REFUSALS = rd t pFLT FLT_REFUSALS ∧ rd (lbEvent t pFLT).1 pFLT FLT_LAST_REF_LO = rd t pFLT FLT_LAST_REF_LO :=
    ⟨(lbEventAt_regs t pFLT _ pFLT FLT_REFUSALS (by decide) (by decide) (by decide)).1,
      (lbEventAt_regs t pFLT _ pFLT FLT_LAST_REF_LO (by decide) (by decide) (by decide)).1⟩
  have hlog := fun v => (logEvent_regs s v pFLT FLT_REFUSALS (by decide) (by decide) (by decide)).1
  unfold recordRefusal
  dsimp only
  rw [(hbucket _).1, (hbucket _).2]
  constructor
  · rw [irq, irqMask, rd_wr _ _ (by decide) (by decide), if_neg (by decide), rd_wr _ _ (by decide) (by decide), if_neg (by decide),
      rd_wr _ _ (by decide) (by decide), if_neg (by decide), rd_bump, hlog]
  · rw [irq, irqMask, rd_wr _ _ (by decide) (by decide), if_neg (by decide), rd_wr _ _ (by decide) (by decide), if_neg (by decide), rd_wr_same]

/-- A refusal changes no register of another page than the fault manager's. -/
theorem recordRefusal_otherPage (s : State) (who : Initiator) (page addr cause access : Nat) {p o : Nat} (hp : p ≠ pFLT) (hp' : p < 4096) (ho : o < 4096) :
    rd (recordRefusal s who page addr cause access) p o = rd s p o ∧ inForce (recordRefusal s who page addr cause access) p o = inForce s p o :=
  recordRefusal_regs s who page addr cause access p o hp' ho (by simp [refusalRegs, bucketRegs, logRegs, hp])

/-- The fabric refuses an access of a slot that holds no page with NO_PAGE (R44). -/
theorem fabricCause_absent {s : State} {p off : Nat} (who : Initiator) (write : Bool) (width : Nat) (data : List Byte) (hp : p < 4096) (ho : off < 4096)
    (h : pageKind? s.com.chip p = none) : fabricCause s ⟨who, write, 0xF0000000 + p * 4096 + off, width, data⟩ = some cNO_PAGE := by
  simp [fabricCause, targetOf_page s hp ho, fabricPageCause, h]

/-- A write that the fabric refuses is recorded and answered. -/
theorem runAccess_refused {s : State} {who : Initiator} {addr n : Nat} {data : List Byte} (host : List Byte) (micros : Nat) {c : Nat}
    (h : fabricCause s ⟨who, true, addr, n, data⟩ = some c) :
    runAccess s ⟨who, true, addr, n, data⟩ host micros = answer (recordRefusal s who (refusalPage addr) addr c 1) (.refused c) := by
  simp [runAccess, access, h, refuse]

theorem exec_registerWrite (who : Initiator) (addr : BitVec 48) (width : Width) (v : Word) (s : State) :
    exec (.registerWrite who addr width v) s = .next (confine allParts s (anyWrite s who addr.toNat width v)) := rfl

/-- A write to a slot that holds no page is refused and recorded, and no other page's register changes. -/
theorem registerWrite_absent {s : State} (who : Initiator) {page off : BitVec 12} (v : Word) (h : pageKind? s.com.chip page.toNat = none) :
    Runs (.registerWrite who (BitVec.ofNat 48 (0xF0000000 + page.toNat * 4096 + off.toNat)) .b4 v) s fun t =>
      t.com.answer = .refused cNO_PAGE
      ∧ rd t pFLT FLT_REFUSALS = w32 (satAdd 0xFFFFFFFF (rd s pFLT FLT_REFUSALS).toNat 1)
      ∧ rd t pFLT FLT_LAST_REF_LO = w32 (0xF0000000 + page.toNat * 4096 + off.toNat)
      ∧ (∀ p o, p ≠ pFLT → p < 4096 → o < 4096 → rd t p o = rd s p o ∧ inForce t p o = inForce s p o) := by
  refine ⟨_, exec_registerWrite .., ?_⟩
  have haddr : (BitVec.ofNat 48 (0xF0000000 + page.toNat * 4096 + off.toNat)).toNat = 0xF0000000 + page.toNat * 4096 + off.toNat := by
    rw [BitVec.toNat_ofNat]
    have := page.isLt
    have := off.isLt
    omega
  rw [haddr, anyWrite]
  dsimp only
  rw [if_neg (by decide), runAccess_refused [] 0 (fabricCause_absent who true _ _ page.isLt off.isLt h)]
  have hshow (u : State) (a : Answer) (p o : Nat) : rd (confine allParts s (answer u a)) p o = rd u p o ∧ inForce (confine allParts s (answer u a)) p o = inForce u p o := ⟨rfl, rfl⟩
  simp only [hshow]
  exact ⟨rfl, (rd_recordRefusal ..).1, (rd_recordRefusal ..).2, fun p o hp hp' ho => recordRefusal_otherPage s who _ _ _ _ hp hp' ho⟩

/-! ### An acknowledge that lets a held access go -/

/-- An address of the Landing region reaches Landing (R36). -/
theorem targetOf_landing (s : State) {off : Nat} (h : off < 0x4000000) : targetOf s (0x4000000 + off) = .landing off := by
  unfold targetOf
  rw [if_neg (by omega), if_pos (by omega), Target.landing.injEq]
  omega

theorem lndPut_bus (s : State) (m : WordMem) (met : Met) (bank : Nat) : (lndPut s m met bank).com.bus = s.com.bus := by
  have hbucket (l : List Nat) (u : State) : (l.foldl (fun u _ => (lbEventAt u pLND bank).1) u).com.bus = u.com.bus := by
    induction l generalizing u with
    | nil => rfl
    | cons _ l ih => rw [List.foldl_cons, ih, lbEventAt_bus]
  unfold lndPut
  dsimp only
  split <;> split <;> simp [hbucket]

/-- A write to Landing leaves crossings and arbiters alone. -/
theorem lndWrite_bus (s : State) (off : Nat) (bytes : List Byte) : (lndWrite s off bytes).com.bus = s.com.bus := lndPut_bus s _ _ _

/-- With one access held that no crossing holds any more and the fabric takes, the release serves it. -/
theorem busRelease_one {s : State} {a : HeldAccess} (hl : s.com.bus.held = [a]) (hh : heldAt s a.who (targetOf s a.addr) = none) (hc : fabricCause s a = none) :
    let u := putBus s { s.com.bus with held := [] }
    let r := serve (passes u a.who (targetOf s a.addr)) a [] 0
    busRelease s 1 = answer r.1 r.2 := by
  have hc' (b : Bus) : fabricCause (putBus s b) a = none := hc
  have ht (b : Bus) : targetOf (putBus s b) a.addr = targetOf s a.addr := rfl
  have hpick (q : Prop) [Decidable q] : (if q then some a else none).getD a = a := by split <;> rfl
  simp [busRelease, hl, hh, removeFirst, hc', ht, hpick]

theorem exec_crossingAck (src dst : Island) (s : State) : exec (.crossingAck src dst) s = .next (confine allParts s (crossingAck s src dst)) := rfl

/-- With nothing held, an acknowledge frees the oldest entry of its crossing and changes nothing else of the bus and no register (R16). -/
theorem crossingAck_frees {s : State} (src dst : Island) (h : s.com.bus.held = []) :
    crossingAck s src dst = putBus s { s.com.bus with flight := removeFirst (fun x => x.src == src && x.dst == dst) (inFlight s) } := by
  simp [crossingAck, putBus, h, busRelease]

/-- A write to Landing that no crossing holds any more and the fabric takes is carried out when the acknowledge returns (R17). -/
theorem busRelease_landing {s : State} {who : Initiator} {off : Nat} {data : List Byte} (ho : off < 0x4000000)
    (hl : s.com.bus.held = [⟨who, true, 0x4000000 + off, data.length, data⟩]) (hc : fabricCause s ⟨who, true, 0x4000000 + off, data.length, data⟩ = none)
    (hh : heldAt s who (.landing off) = none) : (busRelease s 1).com.bus.held = [] ∧ (busRelease s 1).com.answer = .ack := by
  have ht (u : State) : targetOf u (0x4000000 + off) = .landing off := targetOf_landing u ho
  rw [busRelease_one hl (by rw [ht]; exact hh) hc]
  simp [serve, ht, memWriteAt, lndWrite_bus, answer, passes, putBus]

/-- Settles O12: an acknowledge only frees an entry and releases what is held, and an access of an absent page ends in the fault manager's record. -/
theorem crossingsAndRefusals : Obligations.CrossingsAndRefusals := by
  refine ⟨fun s src dst => ⟨fun hl => ?_, fun who off data ho hl hc hh => ?_⟩, fun s who page off v h => registerWrite_absent who v h⟩
  · refine ⟨_, exec_crossingAck src dst s, ?_⟩
    rw [crossingAck_frees src dst hl]
    exact ⟨rfl, regsKept_of_eq [] rfl rfl⟩
  · refine ⟨_, exec_crossingAck src dst s, ?_⟩
    have hone : (crossingAck s src dst) = busRelease (putBus s { s.com.bus with flight := removeFirst (fun x => x.src == src && x.dst == dst) (inFlight s) }) 1 := by
      simp [crossingAck, putBus, hl]
    rw [hone]
    exact busRelease_landing ho hl hc hh

end Sys2Proof.Machine

/-! What the state's operations leave alone: agreement outside a footprint, for register updates, DRAM accesses and the key store. -/

namespace Sys2Proof.Machine

/-! ### Agreement outside some parts -/

namespace State.AgreeOutside

variable {ps : List Part} {s t u : State}

theorem refl (ps : List Part) (s : State) : State.AgreeOutside ps s s := by constructor <;> intros <;> rfl

theorem trans (h : State.AgreeOutside ps s t) (h' : State.AgreeOutside ps t u) : State.AgreeOutside ps s u where
  sgl hn := (h'.sgl hn).trans (h.sgl hn)
  mem hn := (h'.mem hn).trans (h.mem hn)
  flt hn := (h'.flt hn).trans (h.flt hn)
  fch hn := (h'.fch hn).trans (h.fch hn)
  map hn := (h'.map hn).trans (h.map hn)
  str hn := (h'.str hn).trans (h.str hn)
  fer hn := (h'.fer hn).trans (h.fer hn)
  key hn := (h'.key hn).trans (h.key hn)
  mte hn := (h'.mte hn).trans (h.mte hn)
  nel hn := (h'.nel hn).trans (h.nel hn)
  dis hn := (h'.dis hn).trans (h.dis hn)
  cvn hn := (h'.cvn hn).trans (h.cvn hn)
  hst hn := (h'.hst hn).trans (h.hst hn)
  bot hn := (h'.bot hn).trans (h.bot hn)
  prg hn := (h'.prg hn).trans (h.prg hn)
  tol hn := (h'.tol hn).trans (h.tol hn)
  pwr hn := (h'.pwr hn).trans (h.pwr hn)
  spn hn := (h'.spn hn).trans (h.spn hn)
  pending := h'.pending.trans h.pending

/-- Both branches of a choice. -/
theorem ite {c : Prop} [Decidable c] (ht : State.AgreeOutside ps s t) (hu : State.AgreeOutside ps s u) : State.AgreeOutside ps s (if c then t else u) := by
  split
  · exact ht
  · exact hu

/-- A fold of steps that each agree outside some parts agrees outside them. -/
theorem foldl {α : Type} {f : State → α → State} (hf : ∀ s a, State.AgreeOutside ps s (f s a)) (l : List α) (s : State) : State.AgreeOutside ps s (l.foldl f s) := by
  induction l generalizing s with
  | nil => exact refl ps s
  | cons a l ih => exact (hf s a).trans (ih (f s a))

/-- The same for a fold that carries a value beside the state. -/
theorem foldlPair {α β : Type} {f : State × β → α → State × β} (hf : ∀ r a, State.AgreeOutside ps r.1 (f r a).1) (l : List α) (r : State × β) :
    State.AgreeOutside ps r.1 (l.foldl f r).1 := by
  induction l generalizing r with
  | nil => exact refl ps r.1
  | cons a l ih => exact (hf r a).trans (ih (f r a))

/-- An update of the shared part alone. -/
theorem com (h : State.AgreeOutside ps s t) (c : Common) : State.AgreeOutside ps s { t with com := c } := h.trans (by constructor <;> intros <;> rfl)

/-- An update of the memories and the shared part alone. -/
theorem memory (hm : Part.memP ∈ ps) (h : State.AgreeOutside ps s t) (c : Common) (m : Memory) : State.AgreeOutside ps s { t with com := c, mem := m } :=
  { h.com c with mem := fun hn => absurd hm hn }

/-- An update of the key store and the shared part alone. -/
theorem keys (hk : Part.keyP ∈ ps) (h : State.AgreeOutside ps s t) (c : Common) (k : Keys) : State.AgreeOutside ps s { t with com := c, key := k } :=
  { h.com c with key := fun hn => absurd hk hn }

/-- An update of the map and the shared part alone. -/
theorem mapTables (hm : Part.mapP ∈ ps) (h : State.AgreeOutside ps s t) (c : Common) (m : MapState) : State.AgreeOutside ps s { t with com := c, map := m } :=
  { h.com c with map := fun hn => absurd hm hn }

/-! #### Registers, counted events and retirements touch the shared part alone -/

theorem wr (h : State.AgreeOutside ps s t) (p off : Nat) (v : Word) : State.AgreeOutside ps s (wr t p off v) := h.com _

theorem irq (h : State.AgreeOutside ps s t) (p i : Nat) : State.AgreeOutside ps s (irq t p i) := h.com _

theorem bump (h : State.AgreeOutside ps s t) (p off n : Nat) : State.AgreeOutside ps s (bump t p off n) := h.com _

theorem bumpF (h : State.AgreeOutside ps s t) (p off hi lo n : Nat) : State.AgreeOutside ps s (bumpF t p off hi lo n) := h.com _

theorem smartSet (h : State.AgreeOutside ps s t) (i : Nat) : State.AgreeOutside ps s (smartSet t i) := h.com _

theorem logPush (h : State.AgreeOutside ps s t) (q : LogItem) : State.AgreeOutside ps s (logPush t q) := .ite (h.com _) (.irq (h.bump _ _ _) _ _)

theorem logEvent (h : State.AgreeOutside ps s t) (v : LogEvent) : State.AgreeOutside ps s (logEvent t v) := by
  unfold Machine.logEvent
  split <;> exact h.logPush _

theorem setFault (h : State.AgreeOutside ps s t) (p : Nat) (c : FClass) (cause unit : Nat) : State.AgreeOutside ps s (setFault t p c cause unit) :=
  .logEvent (.ite (h.wr _ _ _) (.irq (h.wr _ _ _) _ _)) _

theorem lbEventAt (h : State.AgreeOutside ps s t) (p unit : Nat) : State.AgreeOutside ps s (lbEventAt t p unit).1 := by
  have hcount (n : Nat) : State.AgreeOutside ps s (wrF t p rLB_COUNT 15 0 n) := h.wr _ _ _
  unfold Machine.lbEventAt
  dsimp only
  split
  · exact .setFault (.irq (.com (hcount _) _) _ _) _ _ _ _
  · exact hcount _

theorem logRetire (h : State.AgreeOutside ps s t) (page cause unit : Nat) : State.AgreeOutside ps s (logRetire t page cause unit) := .irq (h.logEvent _) _ _

/-- An injected event touches the parts that the event touches. -/
theorem injected {f : State → State} (h : State.AgreeOutside ps s t) (hf : ∀ {u}, State.AgreeOutside ps s u → State.AgreeOutside ps s (f u)) :
    State.AgreeOutside ps s (injected t f) := .com (hf (h.com _)) _

/-! #### Accesses of DRAM touch the memories and the shared part alone -/

theorem setRankState (h : State.AgreeOutside ps s t) (ch r v : Nat) : State.AgreeOutside ps s (setRankState t ch r v) := .ite (h.wr _ _ _) (h.wr _ _ _)

section
variable (hm : Part.memP ∈ ps)
include hm

theorem retireRank (h : State.AgreeOutside ps s t) (ch r : Nat) (empty : Bool) : State.AgreeOutside ps s (retireRank t ch r empty) := by
  have hlog := h.logRetire (pDMC ch) (Config.blockCause 29) r
  unfold Machine.retireRank
  split
  · exact hlog.setRankState _ _ _
  · dsimp only
    split
    · exact .ite (.memory hm (.wr (.setRankState (.setRankState (hlog.irq _ _) _ _ _) _ _ _) _ _ _) _ _) (.memory hm (.wr (.setRankState (hlog.irq _ _) _ _ _) _ _ _) _ _)
    · exact .smartSet (.irq (.setRankState (hlog.irq _ _) _ _ _) _ _) _
  · exact .smartSet (.irq (hlog.setRankState _ _ _) _ _) _
  · exact h

theorem dmcCorrected (h : State.AgreeOutside ps s t) (ch r : Nat) : State.AgreeOutside ps s (dmcCorrected t ch r) := by
  have hcount : State.AgreeOutside ps s (if r = 0 then Machine.bumpF t (pDMC ch) DMC_ECC_CE 15 0 1 else Machine.bumpF t (pDMC ch) DMC_ECC_CE 31 16 1) := .ite (h.bumpF _ _ _ _ _) (h.bumpF _ _ _ _ _)
  exact .ite (.retireRank hm (hcount.lbEventAt _ _) _ _ _) (hcount.lbEventAt _ _)

theorem dmcUncorrectable (h : State.AgreeOutside ps s t) (ch r o : Nat) (poison : Bool) : State.AgreeOutside ps s (dmcUncorrectable t ch r o poison) := by
  have hshow (lo hi : Word) : State.AgreeOutside ps s (Machine.irq (Machine.wr (Machine.wr (Machine.bumpF t (pDMC ch) DMC_ECC_UE 15 0 1) (pDMC ch) DMC_UE_ADDR_LO lo) (pDMC ch) DMC_UE_ADDR_HI hi) (pDMC ch) 3) :=
    .irq (.wr (.wr (h.bumpF _ _ _ _ _) _ _ _) _ _ _) _ _
  exact .ite (hshow _ _) (.retireRank hm (hshow _ _) _ _ _)

theorem touchBank (h : State.AgreeOutside ps s t) (o : Nat) : State.AgreeOutside ps s (touchBank t o) := h.memory hm _ _

theorem dmcArm (h : State.AgreeOutside ps s t) (o : Nat) : State.AgreeOutside ps s (dmcArm t o) := by
  unfold Machine.dmcArm
  dsimp only
  split
  · exact h
  · exact h.memory hm _ _

theorem dramWordRead (h : State.AgreeOutside ps s t) (w : Nat) : State.AgreeOutside ps s (dramWordRead t w).1 := by
  unfold Machine.dramWordRead
  dsimp only
  split
  · exact h
  · exact .dmcCorrected hm (h.memory hm _ _) _ _
  · exact h.dmcUncorrectable hm _ _ _ _

theorem dramLineRead (h : State.AgreeOutside ps s t) (line : Nat) : State.AgreeOutside ps s (dramLineRead t line).1 := by
  refine h.trans (foldlPair ?_ _ (t, false))
  rintro ⟨u, bad⟩ i
  exact (refl ps u).dramWordRead hm _

theorem dramLineStore (h : State.AgreeOutside ps s t) (line : Nat) (bytes : List Byte) : State.AgreeOutside ps s (dramLineStore t line bytes) := h.memory hm _ _

theorem dramFlush (h : State.AgreeOutside ps s t) (e : MergeEntry) : State.AgreeOutside ps s (dramFlush t e) := by
  have hline {u : State} (hu : State.AgreeOutside ps s u) :
      State.AgreeOutside ps s (Machine.dramLineRead (Machine.touchBank (Machine.bump u (pDMC (lineDmc u e.index)) DMC_MERGE_RMW 1) (64 * e.index)) e.index).1 :=
    .dramLineRead hm (.touchBank hm (hu.bump _ _ _) _) _
  unfold Machine.dramFlush
  dsimp only
  refine .ite (.dramLineStore hm (h.memory hm _ _) _ _) (.ite (.memory hm (.bumpF (.dramLineStore hm (hline ?_) _ _) _ _ _ _ _) _ _) (.dramLineStore hm (hline ?_) _ _))
  · exact h.memory hm _ _
  · exact h.memory hm _ _

theorem dramWriteLine (h : State.AgreeOutside ps s t) (line lo : Nat) (bytes : List Byte) : State.AgreeOutside ps s (dramWriteLine t line lo bytes) := by
  have hu := h.touchBank hm (64 * line)
  unfold Machine.dramWriteLine
  generalize Machine.touchBank t (64 * line) = u at hu
  refine .ite (.dramLineStore hm (hu.memory hm _ _) _ _) ?_
  have hlast {v : State} (hv : State.AgreeOutside ps s v) (c : Prop) [Decidable c] (m : Memory) (e : MergeEntry) :
      State.AgreeOutside ps s (if c then Machine.dramFlush { v with mem := m } e else { v with mem := m }) := .ite (.dramFlush hm (hv.memory hm _ _) _) (hv.memory hm _ _)
  dsimp only
  refine hlast ?_ _ _ _
  split
  · exact hu
  · refine .memory hm ?_ _ _
    split
    · exact .ite (hu.dramFlush hm _) hu
    · exact hu

theorem dramWrite (h : State.AgreeOutside ps s t) (off : Nat) (bytes : List Byte) : State.AgreeOutside ps s (dramWrite t off bytes) := by
  refine h.trans (foldlPair ?_ _ (t, bytes))
  rintro ⟨u, rest⟩ p
  exact (refl ps u).dramWriteLine hm _ _ _

theorem dramSettle (h : State.AgreeOutside ps s t) (line : Nat) : State.AgreeOutside ps s (dramSettle t line) := by
  unfold Machine.dramSettle
  split
  · exact h
  · exact .bump (h.dramFlush hm _) _ _ _

theorem dramRead (h : State.AgreeOutside ps s t) (off n : Nat) : State.AgreeOutside ps s (dramRead t off n).1 := by
  have hsettle := h.trans (foldl (f := fun u (p : Nat × Nat × Nat) => Machine.touchBank (Machine.dramSettle u p.1) (64 * p.1)) (fun u p => .touchBank hm (.dramSettle hm (refl ps u) _) _)
    (wordPieces 64 (n + 1) off n) t)
  refine (hsettle.dmcArm hm off).trans (foldlPair ?_ _ (_, some []))
  rintro ⟨u, out⟩ p
  exact (refl ps u).dramWordRead hm _

end

/-! #### The key store fetches a slot with DRAM, the store and the shared part alone -/

section
variable (hm : Part.memP ∈ ps) (hk : Part.keyP ∈ ps)
include hk

theorem putSlot (h : State.AgreeOutside ps s t) (k : Nat) (x : KeySlot) : State.AgreeOutside ps s (putSlot t k x) := .wr (h.keys hk _ _) _ _ _

theorem wrapFail (h : State.AgreeOutside ps s t) (k : Nat) : State.AgreeOutside ps s (wrapFail t k) := .lbEventAt (.irq (h.putSlot hk _ _) _ _) _ _

include hm

theorem wrapSlot (h : State.AgreeOutside ps s t) (k : Nat) : State.AgreeOutside ps s (wrapSlot t k) := .keys hk (h.dramWrite hm _ _) _ _

theorem evictSlot (h : State.AgreeOutside ps s t) : State.AgreeOutside ps s (evictSlot t) := by
  unfold Machine.evictSlot
  refine .ite h ?_
  split
  · exact h
  · exact .keys hk (.ite (h.wrapSlot hm hk _) h) _ _

theorem unwrapSlot (h : State.AgreeOutside ps s t) (k : Nat) (intact : Bool) : State.AgreeOutside ps s (unwrapSlot t k intact).1 := by
  unfold Machine.unwrapSlot
  split
  · exact h
  split
  · exact h.keys hk _ _
  split
  · exact h
  have hread {u : State} (hu : State.AgreeOutside ps s u) : State.AgreeOutside ps s (if slotOf u k = KeySlot.fresh then (u, some []) else Machine.dramRead u (wrapOff u k) 96).1 := by
    split
    · exact hu
    · exact hu.dramRead hm _ _
  have hroom : State.AgreeOutside ps s (Machine.bump (Machine.evictSlot t) pKEY KEY_UNWRAPS 1) := .bump (h.evictSlot hm hk) _ _ _
  have hend {u : State} (hu : State.AgreeOutside ps s u) (inj : Bool) (c : Prop) [Decidable c] (x : Keys) :
      State.AgreeOutside ps s (if inj then (Machine.injected u fun v => Machine.wrapFail v k, 6) else if c then (Machine.wrapFail u k, 6) else (refreshKeys { u with key := x }, 0)).1 := by
    split
    · exact hu.injected fun hv => hv.wrapFail hk _
    split
    · exact hu.wrapFail hk _
    · exact .wr (hu.keys hk _ _) _ _ _
  dsimp only
  refine hend (hread ?_) _ _ _
  exact hroom.keys hk _ _

end

end State.AgreeOutside

end Sys2Proof.Machine

/-! Units of a namespace: opening, storing and reading them, and the length of what a read gives. -/

namespace Sys2Proof.Machine

/-! ### Units: reading, slicing, storing (R25, R182, R414) -/

/-- A list cut or filled has the length asked for. -/
@[simp] theorem length_fit (n : Nat) (l : List Byte) : (fit n l).length = n := by
  simp only [fit, List.length_take, List.length_append, List.length_replicate]
  omega

theorem unit_pos (x : Namespace) : 0 < x.unit := by
  unfold Namespace.unit
  split <;> decide

section
variable {ps : List Part} (hm : Part.memP ∈ ps) (hk : Part.keyP ∈ ps)
include hm hk

theorem openUnit_agree (s : State) (x : Namespace) (h u slot : Nat) (tag : Option Nat) (stored : List Byte) (compressed : Bool) (mHandle mUnit mTag : Nat) :
    State.AgreeOutside ps s (openUnit s x h u slot tag stored compressed mHandle mUnit mTag).1 := by
  have hs := (State.AgreeOutside.refl ps s).unwrapSlot hm hk slot true
  unfold openUnit
  dsimp only
  split
  · exact hs.com _
  split
  · split
    · exact hs
    split
    · exact hs
    split
    · split <;> exact hs
    · exact hs
  · split
    · exact hs
    split <;> exact hs

end

/-- Storing a unit changes the memories and the key store alone. -/
theorem storeUnit_agree {s t : State} {x : Namespace} {h u slot : Nat} {tag : Option Nat} {data : List Byte} {r : Option (List Byte × Bool)}
    (hst : storeUnit s x h u slot tag data = (t, r)) : State.AgreeOutside [.memP, .keyP] s t := by
  have hs := (State.AgreeOutside.refl [.memP, .keyP] s).unwrapSlot (by simp) (by simp) slot true
  unfold storeUnit at hst
  dsimp only at hst
  split at hst
  · obtain rfl := (Prod.mk.inj hst).1
    exact hs.com _
  · obtain rfl := (Prod.mk.inj hst).1
    exact hs

/-- An opened unit has the unit's length. -/
theorem openUnit_length {s t : State} {x : Namespace} {h u slot : Nat} {tag : Option Nat} {stored b : List Byte} {compressed : Bool} {mHandle mUnit mTag : Nat}
    (ho : openUnit s x h u slot tag stored compressed mHandle mUnit mTag = (t, .ok b)) : b.length = x.unit := by
  unfold openUnit at ho
  grind [length_fit]

/-- A unit read without a fault: the read changes the memories and the key store alone, and gives as many bytes as the unit has. -/
theorem readUnit_ok {s t : State} {x : Namespace} {h u slot : Nat} {tag : Option Nat} {flash : Option FlashUnit} {b : List Byte}
    (hr : readUnit s x h u slot tag flash = (t, .ok b)) : State.AgreeOutside [.memP, .keyP] s t ∧ b.length = x.unit := by
  have hopen {stored : List Byte} {c : Bool} {m1 m2 m3 : Nat} {v : State} {b' : List Byte} (ho : openUnit s x h u slot tag stored c m1 m2 m3 = (v, .ok b'))
      (hok : ((v, .ok b') : State × Except NvStatus (List Byte)) = (t, .ok b)) : State.AgreeOutside [.memP, .keyP] s t ∧ b.length = x.unit := by
    simp only [Prod.mk.injEq, Except.ok.injEq] at hok
    obtain ⟨rfl, rfl⟩ := hok
    have ha := openUnit_agree (ps := [.memP, .keyP]) (by simp) (by simp) s x h u slot tag stored c m1 m2 m3
    rw [ho] at ha
    exact ⟨ha, openUnit_length ho⟩
  unfold readUnit at hr
  dsimp only at hr
  split at hr
  · split at hr
    · rename_i ho
      exact hopen ho hr
    · simp at hr
  split at hr
  · simp only [Prod.mk.injEq, Except.ok.injEq] at hr
    obtain ⟨rfl, rfl⟩ := hr
    exact ⟨.refl _ s, by simp⟩
  split at hr
  · simp at hr
  split at hr
  · simp at hr
  split at hr
  · simp at hr
  split at hr
  · rename_i ho
    exact hopen ho hr
  · simp at hr

/-- Units read without a fault, one after another. -/
theorem readUnits_ok {s t : State} {x : Namespace} {h slot : Nat} {tag : Option Nat} {us : List Nat} {flash : List (Option FlashUnit)} {l : List (Nat × List Byte)}
    (hr : readUnits s x h slot tag us flash = (t, .ok l)) :
    State.AgreeOutside [.memP, .keyP] s t ∧ l.map (·.1) = us ∧ ∀ p ∈ l, p.2.length = x.unit := by
  induction us generalizing s flash l with
  | nil =>
    simp only [readUnits, Prod.mk.injEq, Except.ok.injEq] at hr
    obtain ⟨rfl, rfl⟩ := hr
    exact ⟨.refl _ s, rfl, by simp⟩
  | cons u us ih =>
    simp only [readUnits] at hr
    split at hr
    · simp at hr
    · rename_i v b hu
      split at hr
      · rename_i w l' hl
        simp only [Prod.mk.injEq, Except.ok.injEq] at hr
        obtain ⟨rfl, rfl⟩ := hr
        obtain ⟨hv, hb⟩ := readUnit_ok hu
        obtain ⟨hw, hus, hlen⟩ := ih hl
        exact ⟨hv.trans hw, by simp [hus], by simpa [hb] using hlen⟩
      · simp at hr

/-- The units of an LBA range, from the one that holds its first byte to the one that holds its last. -/
theorem units_eq (x : Namespace) (slba : Nat) {n : Nat} (hn : n ≠ 0) :
    x.units slba n = (List.range (((slba + n) * x.lba - 1) / x.unit + 1 - slba * x.lba / x.unit)).map (slba * x.lba / x.unit + ·) := by
  simp [Namespace.units, hn]

/-- The units of a range that is not empty begin with the one that holds its first byte, and reach past its last byte. -/
theorem units_span (x : Namespace) (slba : Nat) {n : Nat} (hn : n ≠ 0) (hl : x.lba ≠ 0) :
    (x.units slba n).head? = some (slba * x.lba / x.unit) ∧ slba * x.lba / x.unit * x.unit ≤ slba * x.lba
      ∧ (slba + n) * x.lba ≤ (slba * x.lba / x.unit + (x.units slba n).length) * x.unit := by
  have hpos : slba * x.lba < (slba + n) * x.lba := Nat.mul_lt_mul_of_pos_right (by omega) (by omega)
  have hle : slba * x.lba / x.unit ≤ ((slba + n) * x.lba - 1) / x.unit := Nat.div_le_div_right (by omega)
  have hlast : (slba + n) * x.lba - 1 < (((slba + n) * x.lba - 1) / x.unit + 1) * x.unit := by
    rw [Nat.mul_comm _ x.unit]; exact Nat.lt_mul_div_succ _ (unit_pos x)
  rw [units_eq x slba hn]
  refine ⟨?_, Nat.div_mul_le_self _ _, ?_⟩
  · rw [List.head?_map, List.head?_range, if_neg (by omega)]
    simp
  · rw [List.length_map, List.length_range, Nat.add_sub_cancel' (by omega)]
    omega

/-- The bytes of a range that was read have the range's length. -/
theorem length_sliceUnits {x : Namespace} {l : List (Nat × List Byte)} {slba n : Nat} (hn : n ≠ 0) (hl : l.map (·.1) = x.units slba n) (hb : ∀ p ∈ l, p.2.length = x.unit) :
    (sliceUnits x l slba n).length = n * x.lba := by
  by_cases h0 : x.lba = 0
  · simp [sliceUnits, h0]
  obtain ⟨hfirst, hlo, hhi⟩ := units_span x slba hn h0
  have hall : (l.flatMap (·.2)).length = (x.units slba n).length * x.unit := by
    rw [List.length_flatMap, List.sum_eq_card_nsmul _ x.unit (by simpa only [List.mem_map, forall_exists_index, and_imp, forall_apply_eq_imp_iff₂] using hb), ← hl]
    simp
  have hhead : l.head?.map (·.1) = some (slba * x.lba / x.unit) := by rw [← List.head?_map, hl, hfirst]
  simp only [sliceUnits, List.length_take, List.length_drop, hall, hhead, Option.getD_some]
  rw [Nat.add_mul, Nat.add_mul] at hhi
  omega

end Sys2Proof.Machine

/-! How carrying out a host command ends it or lets it wait, as the footprint's row shows it. -/

namespace Sys2Proof.Machine

/-! ### How a host command ends or waits (R117, R129) -/

@[simp] theorem map_putCmd (s : State) (c : HostCmd) : (putCmd s c).map = s.map := rfl

theorem id_of_cmdOf? {s : State} {id : Nat} {c : HostCmd} (h : cmdOf? s id = some c) : c.id = id := by
  simpa using List.find?_some h

theorem cmdOf?_congr {s t : State} (h : t.hst.cmds = s.hst.cmds) (id : Nat) : cmdOf? t id = cmdOf? s id := by rw [cmdOf?, h, cmdOf?]

/-- A command that is listed and set reads back as set. -/
theorem cmdOf?_putCmd {s : State} {id : Nat} {c c' : HostCmd} (h : cmdOf? s id = some c) (hid : c'.id = id) : cmdOf? (putCmd s c') id = some c' := by
  subst hid
  have hl : (putCmd s c').hst.cmds = s.hst.cmds.map fun x => if x.id == c'.id then c' else x := rfl
  rw [cmdOf?] at h ⊢
  rw [hl]
  generalize s.hst.cmds = l at h
  induction l with
  | nil => simp at h
  | cons y l ih =>
    by_cases hy : y.id = c'.id
    · simp [hy]
    · have hny : (y.id == c'.id) = false := by simpa using hy
      simp only [List.find?_cons, hny, List.map_cons, Bool.false_eq_true, if_false] at h ⊢
      exact ih h

/-- What ending a command leaves alone: the write buffer, the map entries and the namespaces. -/
theorem endCmd_frame (s : State) (c : HostCmd) (st : NvStatus) (dw0 : Nat) (data : List Byte) :
    (endCmd s c st dw0 data).map.wb = s.map.wb ∧ (endCmd s c st dw0 data).map.entries = s.map.entries ∧ (endCmd s c st dw0 data).hst.ns = s.hst.ns := by
  unfold endCmd
  dsimp only
  split <;> exact ⟨rfl, rfl, rfl⟩

theorem cmdOf?_endCmd {s : State} {id : Nat} {c : HostCmd} (st : NvStatus) (dw0 : Nat) (data : List Byte) (h : cmdOf? s id = some c) :
    cmdOf? (endCmd s c st dw0 data) id = some { c with state := .done st dw0, reply := data, room := 0 } := by
  have hid := id_of_cmdOf? h
  unfold endCmd
  dsimp only
  split
  · exact cmdOf?_putCmd (c := c) h hid
  · exact cmdOf?_putCmd (c := c) h hid

/-- A fetched command that its carrying out ends. -/
theorem onCmd_done {s u : State} {admin : Bool} {op id : Nat} {c c' : HostCmd} {f : State → HostCmd → State × Reply} {st : NvStatus} {dw0 : Nat} {data : List Byte}
    (hf : Fetched s id admin op c) (hu : f s c = (u, .done st dw0 data)) (hc : cmdOf? u id = some c') : onCmd s admin op id f = endCmd u c' st dw0 data := by
  obtain ⟨hcmd, hs, hop, hq⟩ := hf
  simp [onCmd, hcmd, hs, hop, hq, hu, hc]

/-- A fetched command that its carrying out leaves waiting. -/
theorem onCmd_wait {s u : State} {admin : Bool} {op id : Nat} {c c' : HostCmd} {f : State → HostCmd → State × Reply}
    (hf : Fetched s id admin op c) (hu : f s c = (u, .wait)) (hc : cmdOf? u id = some c') : onCmd s admin op id f = putCmd u { c' with state := .waiting } := by
  obtain ⟨hcmd, hs, hop, hq⟩ := hf
  simp [onCmd, hcmd, hs, hop, hq, hu, hc]

section
variable {ps : List Part} {i : Instr} {s u : State} {admin : Bool} {op id : Nat} {cmd : HostCmd} {f : State → HostCmd → State × Reply} {P : State → Prop}
  (hexec : exec i s = .next (confine ps s (onCmd s admin op id f))) (hps : Part.hstP ∈ ps ∧ Part.mapP ∈ ps) (hf : Fetched s id admin op cmd)
include hexec hps hf

/-- A row whose command ends gives it its status, and leaves the write buffer, the entries and the namespaces as the carrying out left them. -/
theorem ends_of_done {st : NvStatus} {dw0 : Nat} {data : List Byte} (hu : f s cmd = (u, .done st dw0 data)) (hc : u.hst.cmds = s.hst.cmds)
    (hP : ∀ t : State, t.map.wb = u.map.wb → t.map.entries = u.map.entries → t.hst.ns = u.hst.ns → P t) : Ends i s id st dw0 data P := by
  have hcmd : cmdOf? u id = some cmd := (cmdOf?_congr hc id).trans hf.1
  have hon : onCmd s admin op id f = endCmd u cmd st dw0 data := onCmd_done hf hu hcmd
  have hconf : (confine ps s (onCmd s admin op id f)).hst = (endCmd u cmd st dw0 data).hst ∧ (confine ps s (onCmd s admin op id f)).map = (endCmd u cmd st dw0 data).map := by
    simp [confine, hps.1, hps.2, hon]
  obtain ⟨hwb, hent, hns⟩ := endCmd_frame u cmd st dw0 data
  refine ⟨_, hexec, ⟨_, (cmdOf?_congr (by rw [hconf.1]) id).trans (cmdOf?_endCmd st dw0 data hcmd), rfl, rfl⟩, hP _ ?_ ?_ ?_⟩
  · rw [hconf.2, hwb]
  · rw [hconf.2, hent]
  · rw [hconf.1, hns]

/-- A row whose command waits lists it as waiting, and leaves the write buffer as the carrying out left it. -/
theorem waits_of_wait {c : HostCmd} (hu : f s cmd = (u, .wait)) (hc : cmdOf? u id = some c)
    (hP : ∀ t : State, t.map.wb = u.map.wb → cmdOf? t id = some { c with state := .waiting } → P t) : Waits i s id P := by
  have hon : onCmd s admin op id f = putCmd u { c with state := .waiting } := onCmd_wait hf hu hc
  have hconf : (confine ps s (onCmd s admin op id f)).hst = (putCmd u { c with state := .waiting }).hst ∧ (confine ps s (onCmd s admin op id f)).map = u.map := by
    simp [confine, hps.1, hps.2, hon]
  have hget : cmdOf? (confine ps s (onCmd s admin op id f)) id = some { c with state := .waiting } :=
    (cmdOf?_congr (by rw [hconf.1]) id).trans (cmdOf?_putCmd hc (show c.id = id from id_of_cmdOf? hc))
  exact ⟨_, hexec, ⟨_, hget, rfl⟩, hP _ (by rw [hconf.2]) hget⟩

end

end Sys2Proof.Machine

/-! Reading the blocks of a namespace without metadata: Read, Verify and Compare. -/

namespace Sys2Proof.Machine

/-! ### Blocks of a namespace without metadata (R121, R122) -/

/-- Blocks split from bytes are those bytes again, where there is no metadata. -/
theorem flatMap_splitBlocks {x : Namespace} (hx : x.meta_ = 0) (slba n : Nat) (b : List Byte) :
    (splitBlocks x slba n b).flatMap (·.2.1) = b.take (n * x.lba) := by
  induction n generalizing slba b with
  | zero => simp [splitBlocks]
  | succ n ih => rw [splitBlocks, List.flatMap_cons, ih, hx, Nat.add_zero, Nat.add_comm n 1, Nat.add_mul, Nat.one_mul, List.take_add]

/-- No block fails its protection check on a namespace that has none. -/
theorem piFailure_none {x : Namespace} (hx : x.pi = 0) (d : List Byte) (l : List (Nat × List Byte × List Byte)) : piFailure x d l = none := by
  simp [piFailure, checkPi, hx]

/-- A namespace without metadata: the blocks of a range that is read are the bytes of its units, and the metadata of each is empty. -/
theorem readBlocks_ok {s t : State} {c : HostCmd} {x : Namespace} {slba n : Nat} {flash : List (Option FlashUnit)} {l : List (Nat × List Byte)}
    (hx : x.meta_ = 0) (hn : n ≠ 0) (hr : readUnits s x (sqeNsid c.sqe - 1) (cmdSlot c) (cmdTag c) (x.units slba n) flash = (t, .ok l)) :
    ∃ bs : List (Nat × List Byte × List Byte), readBlocks s c x slba n flash = (t, .ok bs) ∧ bs.flatMap (·.2.1) = sliceUnits x l slba n ∧ ∀ b ∈ bs, b.2.2 = [] := by
  obtain ⟨_, hus, hlen⟩ := readUnits_ok hr
  refine ⟨_, by simp only [readBlocks, hr]; rfl, ?_, ?_⟩
  · rw [List.flatMap_map, flatMap_splitBlocks rfl, ← length_sliceUnits hn hus hlen, List.take_length]
  · simp [hx]

/-- Blocks with empty metadata transfer their data alone. -/
theorem flatMap_data {bs : List (Nat × List Byte × List Byte)} (h : ∀ b ∈ bs, b.2.2 = []) : (bs.flatMap fun b => b.2.1 ++ b.2.2) = bs.flatMap (·.2.1) :=
  List.flatMap_congr fun b hb => by simp [h b hb]

theorem sqeBlocks_ne_zero (d : List Byte) : sqeBlocks d ≠ 0 := by simp [sqeBlocks]

/-- A command that passes the checks of blocks names a namespace that holds its range. -/
theorem range_of_blockChecks {s : State} {c : HostCmd} {slba n : Nat} {w : Bool} {x : Namespace} (h : blockChecks s c slba n w = .ok x) : slba + n ≤ x.size := by
  unfold blockChecks at h
  split at h
  · simp at h
  split at h
  · simp at h
  split at h
  · simp at h
  split at h
  · simp at h
  · obtain rfl := Except.ok.inj h
    omega

section
variable {s t : State} {cmd : HostCmd} {x : Namespace} {flash : List (Option FlashUnit)} {l : List (Nat × List Byte)} {id : Nat}
  (hspan : x.span = 0) (hmeta : x.meta_ = 0) (hpi : x.pi = 0)
  (hchecks : blockChecks s cmd (sqeSlba cmd.sqe) (sqeBlocks cmd.sqe) false = .ok x)
  (hread : readUnits s x (sqeNsid cmd.sqe - 1) (cmdSlot cmd) (cmdTag cmd) (x.units (sqeSlba cmd.sqe) (sqeBlocks cmd.sqe)) flash = (t, .ok l))
include hspan hmeta hpi hchecks hread

/-- Read gives the bytes of its blocks from their units (R25). -/
theorem ioRead_ok : ioRead flash s cmd = (t, .done .success 0 (sliceUnits x l (sqeSlba cmd.sqe) (sqeBlocks cmd.sqe))) := by
  obtain ⟨bs, hbs, hdata, hempty⟩ := readBlocks_ok hmeta (sqeBlocks_ne_zero _) hread
  simp only [ioRead, hchecks, hspan, hbs, piFailure_none hpi, hpi, ← hdata, ← flatMap_data hempty]
  simp

theorem ioVerify_ok : ioVerify flash s cmd = (t, .ok) := by
  simp only [ioVerify, ioRead_ok hspan hmeta hpi hchecks hread]

omit hpi in
/-- Compare tells whether the host's bytes are those of its blocks (R121). -/
theorem ioCompare_ok {hd : List Byte} (hlen : hd.length = sqeBlocks cmd.sqe * x.lba) :
    ioCompare hd flash s cmd = (t, if sliceUnits x l (sqeSlba cmd.sqe) (sqeBlocks cmd.sqe) = hd then .ok else .err .compareFailure) := by
  obtain ⟨bs, hbs, hdata, hempty⟩ := readBlocks_ok hmeta (sqeBlocks_ne_zero _) hread
  simp only [ioCompare, hchecks, hlen, hspan, hmeta, hbs, ← hdata, flatMap_data hempty]
  simp
  split <;> rfl

end

end Sys2Proof.Machine

/-! Writing one whole unit into the write buffer, and the rows that do so. -/

namespace Sys2Proof.Machine

/-! ### A write of one whole unit (R28, R182) -/

theorem wbNewest?_congr {s t : State} (h : t.map.wb = s.map.wb) (hd u : Nat) : wbNewest? t hd u = wbNewest? s hd u := by rw [wbNewest?, h, wbNewest?]

/-- A unit entered in the write buffer is its newest data. -/
theorem wbNewest?_wbEnter_same (s : State) {w : WbUnit} (hw : w.redirect = none) : wbNewest? (wbEnter s w) w.handle w.unit = some w := by
  simp [wbNewest?, wbEnter, hw]

/-- A unit entered in the write buffer leaves every other unit alone. -/
theorem wbNewest?_wbEnter_ne (s : State) (w : WbUnit) {h u : Nat} (hne : h ≠ w.handle ∨ u ≠ w.unit) : wbNewest? (wbEnter s w) h u = wbNewest? s h u := by
  have hw : (w.handle == h && w.unit == u && w.redirect.isNone) = false := by
    rcases hne with hne | hne <;> simp [Ne.symm hne]
  simp only [wbNewest?, wbEnter, List.filter_append, List.filter_singleton, hw, cond_false, List.append_nil, List.filter_filter]
  congr 1
  refine List.filter_congr fun y _ => ?_
  rcases hne with hne | hne <;> by_cases hy : y.handle = h <;> by_cases hu : y.unit = u <;> simp [hy, hu, hne]

/-- New bytes over a whole unit are the unit. -/
theorem overUnit_whole {x : Namespace} {u slba : Nat} {data : List Byte} (hd : data.length = x.unit) (hs : slba * x.lba = u * x.unit) : overUnit x u [] slba data = data := by
  refine List.ext_getElem (by simp [overUnit, hd]) fun i hi hi' => ?_
  simp [overUnit, hs, hd, hd ▸ hi']

/-- `data` covers unit `u` of the namespace whole, from block `slba` on. -/
structure WholeUnit (x : Namespace) (slba n u : Nat) (data : List Byte) : Prop where
  units : x.units slba n = [u]
  first : slba * x.lba = u * x.unit
  blocks : n * x.lba = x.unit
  length : data.length = x.unit

namespace WholeUnit

variable {x : Namespace} {slba n u : Nat} {data : List Byte}

theorem lba_pos (h : WholeUnit x slba n u data) : 0 < x.lba := by
  rcases Nat.eq_zero_or_pos x.lba with h0 | h0
  · have := unit_pos x
    rw [← h.blocks, h0] at this
    omega
  · exact h0

theorem length_div (h : WholeUnit x slba n u data) : data.length / max 1 x.lba = n := by
  rw [h.length, ← h.blocks, max_eq_right h.lba_pos, Nat.mul_div_cancel _ h.lba_pos]

theorem covers (h : WholeUnit x slba n u data) : coversUnit x u slba n = true := by
  simp [coversUnit, Nat.add_mul, h.first, h.blocks]

/-- Nothing is read for a unit that is written whole. -/
theorem mergeUnits_eq (h : WholeUnit x slba n u data) (s : State) (c : HostCmd) (flash : List (Option FlashUnit)) :
    mergeUnits s c x slba data flash = (s, .ok [(u, data)]) := by
  simp [mergeUnits, h.length_div, h.units, h.covers, overUnit_whole h.length h.first]

end WholeUnit

/-- The write-buffer entry that a write of one unit makes. -/
def storedUnit (s : State) (c : HostCmd) (x : Namespace) (slba n u : Nat) (b : List Byte) (cf fua : Bool) : WbUnit :=
  let nsid := sqeNsid c.sqe
  { handle := nsid - 1, unit := u, data := b, compressed := cf, locked := locksUnit s x nsid slba n u || (unitLocked s (nsid - 1) u && onceUnit s x nsid u)
    tagged := (cmdTag c).isSome, tag := (cmdTag c).getD 0, fua := fua, packed := false, redirect := none, reloaded := false }

/-- Blocks that are one whole unit go into the write buffer in its stored form, and nothing else changes there. -/
theorem writeBlocks_whole {s t : State} {c : HostCmd} {x : Namespace} {slba n u : Nat} {data b : List Byte} {cf : Bool} (hw : WholeUnit x slba n u data) (hspan : x.span = 0)
    (hst : storeUnit s x (sqeNsid c.sqe - 1) u (cmdSlot c) (cmdTag c) data = (t, some (b, cf))) (fua : Bool) (flash : List (Option FlashUnit)) :
    let v := clearMediaError (wbEnter t (storedUnit s c x slba n u b cf fua)) (sqeNsid c.sqe - 1) u
    writeBlocks s c x slba data [] fua flash = if fua then (putCmd v { (cmdOf? v c.id).getD c with units := [u] }, .wait) else (v, .ok) := by
  simp [writeBlocks, hspan, hw.mergeUnits_eq, enterUnits, storeAll, hst, hw.length_div, storedUnit]

/-- In `t` the unit's newest data is this stored form, and every other unit's is as in `s`. -/
def UnitWritten (s : State) (h u : Nat) (b : List Byte) (cf : Bool) (t : State) : Prop :=
  (wbNewest? t h u).map (fun w => (w.data, w.compressed)) = some (b, cf) ∧ ∀ h' u', (h' ≠ h ∨ u' ≠ u) → wbNewest? t h' u' = wbNewest? s h' u'

theorem unitWritten_of_wbEnter {s t v : State} {w : WbUnit} (hw : w.redirect = none) (hv : v.map.wb = s.map.wb) (ht : t.map.wb = (wbEnter v w).map.wb) :
    UnitWritten s w.handle w.unit w.data w.compressed t := by
  refine ⟨?_, fun h' u' hne => ?_⟩
  · rw [wbNewest?_congr ht, wbNewest?_wbEnter_same v hw, Option.map_some]
  · rw [wbNewest?_congr ht, wbNewest?_wbEnter_ne v w hne, wbNewest?_congr hv]

section
variable {ps : List Part} {i : Instr} {s v t : State} {op id slba n u : Nat} {cmd : HostCmd} {f : State → HostCmd → State × Reply} {x : Namespace} {data b : List Byte} {cf fua : Bool}
  {flash : List (Option FlashUnit)}
  (hexec : exec i s = .next (confine ps s (onCmd s false op id f))) (hps : Part.hstP ∈ ps ∧ Part.mapP ∈ ps) (hf : Fetched s id false op cmd)
  (hu : f s cmd = writeBlocks v cmd x slba data [] fua flash) (hv : State.AgreeOutside [.memP, .keyP] s v) (hw : WholeUnit x slba n u data) (hspan : x.span = 0)
  (hst : storeUnit v x (sqeNsid cmd.sqe - 1) u (cmdSlot cmd) (cmdTag cmd) data = (t, some (b, cf)))
include hexec hps hf hu hv hw hspan hst

/-- A row that writes one whole unit: without FUA the command completes. -/
theorem ends_of_wholeUnit (hfua : fua = false) : Ends i s id .success 0 [] (UnitWritten s (sqeNsid cmd.sqe - 1) u b cf) := by
  have ht : State.AgreeOutside [.memP, .keyP] s t := hv.trans (storeUnit_agree hst)
  rw [writeBlocks_whole hw hspan hst, hfua] at hu
  have hcmds : t.hst.cmds = s.hst.cmds := by rw [ht.hst (by decide)]
  exact ends_of_done hexec hps hf hu hcmds fun r hr _ _ => unitWritten_of_wbEnter rfl (by rw [ht.map (by decide)]) hr

/-- A row that writes one whole unit: with FUA the command waits for it. -/
theorem waits_of_wholeUnit (hfua : fua = true) : Waits i s id (UnitWritten s (sqeNsid cmd.sqe - 1) u b cf) := by
  have ht : State.AgreeOutside [.memP, .keyP] s t := hv.trans (storeUnit_agree hst)
  rw [writeBlocks_whole hw hspan hst, hfua, if_pos rfl] at hu
  have hcmd : cmdOf? (clearMediaError (wbEnter t (storedUnit v cmd x slba n u b cf true)) (sqeNsid cmd.sqe - 1) u) id = some cmd :=
    (cmdOf?_congr (show t.hst.cmds = s.hst.cmds by rw [ht.hst (by decide)]) id).trans hf.1
  rw [id_of_cmdOf? hf.1, hcmd] at hu
  refine waits_of_wait hexec hps hf hu (cmdOf?_putCmd hcmd (show cmd.id = id from id_of_cmdOf? hf.1)) fun r hr _ => ?_
  exact unitWritten_of_wbEnter rfl (by rw [ht.map (by decide)]) hr

end

end Sys2Proof.Machine

/-! What a trim does to the map entries. -/

namespace Sys2Proof.Machine

/-! ### A trim of whole units (R183, R186, R203) -/

theorem Tab.mem_of_get? {α : Type} {t : Tab α} {k : Nat} {v : α} (h : Tab.get? t k = some v) : (k, v) ∈ t := by
  induction t with
  | nil => simp [Tab.get?] at h
  | cons e t ih =>
    obtain ⟨k', v'⟩ := e
    simp only [Tab.get?] at h
    split at h
    · obtain rfl := Option.some.inj h
      simp [*]
    · exact List.mem_cons_of_mem _ (ih h)

/-- Only the map part and the shared part differ, and the map entries stay. -/
def EntriesKept (s t : State) : Prop := State.AgreeOutside [.mapP] s t ∧ t.map.entries = s.map.entries

namespace EntriesKept

theorem refl (s : State) : EntriesKept s s := ⟨.refl _ s, rfl⟩

theorem trans {s t u : State} (h : EntriesKept s t) (h' : EntriesKept t u) : EntriesKept s u := ⟨h.1.trans h'.1, h'.2.trans h.2⟩

theorem com {s t : State} (h : EntriesKept s t) (c : Common) : EntriesKept s { t with com := c } := ⟨h.1.com c, h.2⟩

theorem map {s t : State} (h : EntriesKept s t) (c : Common) (m : MapState) (hm : m.entries = t.map.entries := by rfl) : EntriesKept s { t with com := c, map := m } :=
  ⟨h.1.mapTables (by simp) c m, hm.trans h.2⟩

theorem ite {c : Prop} [Decidable c] {s t u : State} (ht : EntriesKept s t) (hu : EntriesKept s u) : EntriesKept s (if c then t else u) := by
  split
  · exact ht
  · exact hu

theorem foldl {α : Type} {f : State → α → State} (hf : ∀ s a, EntriesKept s (f s a)) (l : List α) (s : State) : EntriesKept s (l.foldl f s) := by
  induction l generalizing s with
  | nil => exact refl s
  | cons a l ih => exact (hf s a).trans (ih (f s a))

end EntriesKept

theorem jIssue_entries (s : State) (p : JPayload) : EntriesKept s (jIssue s p).1 := by
  have hseq (v : Word) (c : Prop) [Decidable c] : EntriesKept s (if c then wr (wr s pMAP MAP_JSEQ_ISSUED v) pMAP MAP_JSEQ_TAIL v else wr s pMAP MAP_JSEQ_ISSUED v) :=
    .ite (.com (.com (.refl s) _) _) (.com (.refl s) _)
  have hlisted {u : State} (hu : EntriesKept s u) (j : List JRecord) (c : Prop) [Decidable c] :
      EntriesKept s (if c then irq { u with map := { u.map with journal := j } } pMAP 6 else { u with map := { u.map with journal := j } }) :=
    .ite (.com (hu.map _ _) _) (hu.map _ _)
  exact hlisted (hseq _ _) _ _

theorem putBst_entries (s : State) (d b : Nat) (e : Bst) : EntriesKept s (putBst s d b e) := (EntriesKept.refl s).map _ _

theorem raiseLive_entries (s : State) (d b : Nat) : EntriesKept s (raiseLive s d b) := putBst_entries s d b _

theorem lowerLive_entries (s : State) (d b seq : Nat) : EntriesKept s (lowerLive s d b seq) := putBst_entries s d b _

/-- The steps of LIVE that follow a changed reference leave the entries alone. -/
theorem replaceRef_entries (s : State) (old new : BitVec 64) (seq : Nat) (put : State → State) : EntriesKept (put s) (replaceRef s old new seq put) := by
  have hraise (l : List (Nat × Nat)) (u : State) : EntriesKept u (l.foldl (fun u b => raiseLive u b.1 b.2) u) := by
    refine .foldl ?_ l u
    exact fun u b => raiseLive_entries u b.1 b.2
  have hlower (l : List (Nat × Nat)) (u : State) : EntriesKept u (l.foldl (fun u b => lowerLive u b.1 b.2 seq) u) := by
    refine .foldl ?_ l u
    exact fun u b => lowerLive_entries u b.1 b.2 seq
  refine EntriesKept.trans ?_ (.foldl (fun u _ => hlower _ u) _ _)
  exact .foldl (fun u _ => hraise _ u) _ (put s)

theorem dirtySegment_entries (s : State) (h u : Nat) : EntriesKept s (dirtySegment s h u) :=
  .ite ((EntriesKept.refl s).map _ _) ((EntriesKept.refl s).map _ _)

theorem refreshFill_entries (s : State) : EntriesKept s (refreshFill s) := (EntriesKept.refl s).map _ _

theorem clearMediaWarning_entries (s : State) : EntriesKept s (clearMediaWarning s) := .ite (.refl s) (.com (.refl s) _)

theorem enterReadOnly_entries (s : State) : EntriesKept s (enterReadOnly s) := .com (.com (.com (.com (.refl s) _) _) _) _

theorem leaveReadOnly_entries (s : State) : EntriesKept s (leaveReadOnly s) := .com (.trans (.com (.com (.refl s) _) _) (clearMediaWarning_entries _)) _

theorem refreshPool_entries (s : State) : EntriesKept s (refreshPool s) := by
  have hspare {u : State} (hu : EntriesKept s u) (c d : Prop) [Decidable c] [Decidable d] : EntriesKept s (if c then (if d then u else smartSet (irq u pMAP 4) 0) else u) :=
    .ite (.ite hu (.com (.com hu _) _)) hu
  have hmode {u : State} (hu : EntriesKept s u) (c d e : Prop) [Decidable c] [Decidable d] [Decidable e] :
      EntriesKept s (if c then u else if d then enterReadOnly u else if e then leaveReadOnly u else u) :=
    .ite hu (.ite (hu.trans (enterReadOnly_entries u)) (.ite (hu.trans (leaveReadOnly_entries u)) hu))
  have hthrottle {u : State} (hu : EntriesKept s u) (c : Prop) [Decidable c] (a b : Bool) :
      EntriesKept s (wrB (wrB (if c then irq u pMAP 5 else u) pMAP MAP_MEDIA_STATE 1 a) pMAP MAP_MEDIA_STATE 2 b) := .com (.com (.ite (.com hu _) hu) _) _
  exact hthrottle (hmode (hspare (.com (.com (.com (.refl s) _) _) _) _ _) _ _ _) _ _ _

/-- One unit takes the trimmed entry. -/
def trimUnit (h seq : Nat) (s : State) (u : Nat) : State := dirtySegment (setEntry s h u trimmed seq) h u

theorem trimUnit_agree (h seq : Nat) (s : State) (u : Nat) : State.AgreeOutside [.mapP] s (trimUnit h seq s u) := by
  refine .trans ?_ (dirtySegment_entries _ h u).1
  refine .trans ?_ (replaceRef_entries s _ _ _ _).1
  exact .mapTables (by simp) (.refl _ s) _ _

theorem entries_trimUnit (h seq : Nat) (s : State) (u : Nat) : (trimUnit h seq s u).map.entries = s.map.entries.putD (unitKey h u) trimmed trimmed := by
  rw [trimUnit, (dirtySegment_entries _ h u).2, setEntry, (replaceRef_entries _ _ _ _ _).2]

theorem unitKey_inj {h u v : Nat} (hk : unitKey h v = unitKey h u) : v = u := by
  unfold unitKey at hk
  omega

/-- After units of a namespace took the trimmed entry one after another, each of them reads trimmed, and so does any unit that did. -/
theorem entryAt_trimmed_fold (h seq : Nat) (us : List Nat) (s : State) {v : Nat} (hv : v ∈ us ∨ entryAt s h v = trimmed) :
    entryAt (us.foldl (trimUnit h seq) s) h v = trimmed := by
  induction us generalizing s with
  | nil => simpa using hv
  | cons u us ih =>
    refine ih _ ?_
    by_cases huv : v = u
    · right
      rw [entryAt, entries_trimUnit, huv, Tab.getD_putD_same]
    · refine hv.imp (fun hm => by simpa [huv] using hm) fun ht => ?_
      rwa [entryAt, entries_trimUnit, Tab.getD_putD_ne _ _ _ _ fun hk => huv (unitKey_inj hk)]

/-- Every mapped unit of a namespace has its key in the map. -/
theorem mem_entries_of_mapped {s : State} {h v : Nat} (he : entryAt s h v ≠ trimmed) : ∃ e, (unitKey h v, e) ∈ s.map.entries := by
  unfold entryAt Tab.getD at he
  cases hg : s.map.entries.get? (unitKey h v) with
  | none => simp [hg] at he
  | some e => exact ⟨e, Tab.mem_of_get? hg⟩

theorem unitKey_div {h v : Nat} (hv : v < 2 ^ 48) : unitKey h v / 2 ^ 48 = h ∧ unitKey h v % 2 ^ 48 = v := by
  unfold unitKey
  omega

/-- A trim changes the map alone, and every unit of its range reads trimmed. -/
theorem doTrim_trims (s : State) (h first count : Nat) :
    State.AgreeOutside [.mapP] s (doTrim s h first count) ∧ ∀ v, first ≤ v → v < first + count → v < 2 ^ 48 → entryAt (doTrim s h first count) h v = trimmed := by
  have hj := jIssue_entries s (.trim h first count)
  unfold doTrim
  dsimp only
  generalize jIssue s (.trim h first count) = j at hj
  constructor
  · exact .mapTables (by simp) (hj.1.trans (.foldl (trimUnit_agree h j.2) _ _)) _ _
  · intro v hlo hhi hv
    refine entryAt_trimmed_fold h j.2 _ j.1 ?_
    by_cases ht : entryAt j.1 h v = trimmed
    · exact .inr ht
    · obtain ⟨e, he⟩ := mem_entries_of_mapped ht
      obtain ⟨hdiv, hmod⟩ := unitKey_div (h := h) hv
      refine .inl (List.mem_map.mpr ⟨(unitKey h v, e), List.mem_filter.mpr ⟨he, ?_⟩, hmod⟩)
      simp only [hdiv, hmod, hlo, hhi]
      simp

end Sys2Proof.Machine

/-! Trimming the units that a range of blocks covers whole. -/

namespace Sys2Proof.Machine

/-- A map that takes changes and has room for the record carries a trim out. -/
theorem mapChange_trim {s : State} (hstop : mapStopped s = false) (hroom : jRoom s 32 = true) (h : Fin 1024) (first : BitVec 48) (count : Nat) :
    State.AgreeOutside [.mapP] s (mapChange s (.trim h first count))
      ∧ ∀ v, first.toNat ≤ v → v < first.toNat + count → v < 2 ^ 48 → entryAt (mapChange s (.trim h first count)) h.val v = trimmed := by
  have hc : mapChange s (.trim h first count) = refreshPool (refreshFill (doTrim s h.val first.toNat count)) := by
    unfold mapChange
    dsimp only
    split
    next h => simp [hstop] at h
    split
    next h => simp [hroom] at h
    next => rfl
  obtain ⟨hagree, htrim⟩ := doTrim_trims s h.val first.toNat count
  have hshow := (refreshFill_entries (doTrim s h.val first.toNat count)).trans (refreshPool_entries _)
  rw [hc]
  refine ⟨hagree.trans hshow.1, fun v hlo hhi hv => ?_⟩
  rw [entryAt, hshow.2]
  exact htrim v hlo hhi hv

/-- A listing of strictly rising numbers that holds every number between two of its own: each of its numbers lies as far from the first as the list is long. -/
theorem lt_head_add_length {u : Nat} {us : List Nat} (hsorted : (u :: us).Pairwise (· < ·)) (hconvex : ∀ v ∈ u :: us, ∀ w, u ≤ w → w ≤ v → w ∈ u :: us) :
    ∀ v ∈ u :: us, u ≤ v ∧ v < u + (u :: us).length := by
  intro v hv
  have hle : u ≤ v := by
    rcases List.mem_cons.mp hv with rfl | hv'
    · exact le_rfl
    · exact (List.rel_of_pairwise_cons hsorted hv').le
  have hsub : List.range' u (v + 1 - u) ⊆ u :: us := fun w hw => by
    rw [List.mem_range'_1] at hw
    exact hconvex v hv w hw.1 (by omega)
  have hlen := (List.subperm_of_subset List.nodup_range' hsub).length_le
  rw [List.length_range'] at hlen
  omega

/-- The units of a range that it covers whole, ascending and without a gap. -/
theorem coveredUnits_contiguous (x : Namespace) (slba n : Nat) :
    ((x.units slba n).filter fun v => coversUnit x v slba n).Pairwise (· < ·)
      ∧ ∀ u ∈ (x.units slba n).filter (fun v => coversUnit x v slba n), ∀ v ∈ (x.units slba n).filter (fun v => coversUnit x v slba n),
        ∀ w, u ≤ w → w ≤ v → w ∈ (x.units slba n).filter fun v => coversUnit x v slba n := by
  by_cases hn : n = 0
  · simp [Namespace.units, hn]
  rw [units_eq x slba hn]
  constructor
  · exact (List.pairwise_lt_range.map _ fun a b hab => by omega).filter _
  · intro u hu v hv w huw hwv
    have h1 : u * x.unit ≤ w * x.unit := Nat.mul_le_mul_right _ huw
    have h2 : (w + 1) * x.unit ≤ (v + 1) * x.unit := Nat.mul_le_mul_right _ (by omega)
    simp only [List.mem_filter, List.mem_map, List.mem_range, coversUnit, Bool.and_eq_true, decide_eq_true_eq] at hu hv ⊢
    obtain ⟨⟨i, hi, rfl⟩, hu', _⟩ := hu
    obtain ⟨⟨j, hj, rfl⟩, _, hv'⟩ := hv
    exact ⟨⟨w - slba * x.lba / x.unit, by omega, by omega⟩, by omega, by omega⟩

/-- A unit that a range of the namespace covers whole has a number of the map. -/
theorem coveredUnit_lt {x : Namespace} {slba n v : Nat} (hsize : x.size * x.lba ≤ x.unit * 2 ^ 48) (hrange : slba + n ≤ x.size) (hv : coversUnit x v slba n = true) : v < 2 ^ 48 := by
  simp only [coversUnit, Bool.and_eq_true, decide_eq_true_eq] at hv
  have h1 : (slba + n) * x.lba ≤ x.size * x.lba := Nat.mul_le_mul_right _ hrange
  have h2 : x.unit * (v + 1) ≤ x.unit * 2 ^ 48 := by rw [Nat.mul_comm]; omega
  have := Nat.le_of_mul_le_mul_left h2 (unit_pos x)
  omega

/-- Trimming the units that a range covers whole makes each of them read trimmed, and changes the map alone. -/
theorem trimUnits_covered {s : State} {x : Namespace} {h slba n : Nat} (hstop : mapStopped s = false) (hroom : jRoom s 32 = true) (hh : h < 1024)
    (hsize : x.size * x.lba ≤ x.unit * 2 ^ 48) (hrange : slba + n ≤ x.size) :
    let t := trimUnits s h ((x.units slba n).filter fun v => coversUnit x v slba n)
    State.AgreeOutside [.mapP] s t ∧ ∀ v ∈ x.units slba n, coversUnit x v slba n = true → entryAt t h v = trimmed := by
  obtain ⟨hsorted, hconvex⟩ := coveredUnits_contiguous x slba n
  have hlt : ∀ v ∈ (x.units slba n).filter (fun v => coversUnit x v slba n), v < 2 ^ 48 := fun v hv => coveredUnit_lt hsize hrange (List.mem_filter.mp hv).2
  have hmem : ∀ v ∈ x.units slba n, coversUnit x v slba n = true → v ∈ (x.units slba n).filter fun v => coversUnit x v slba n := fun v hv hc => List.mem_filter.mpr ⟨hv, hc⟩
  generalize (x.units slba n).filter (fun v => coversUnit x v slba n) = us at hsorted hconvex hlt hmem
  cases us with
  | nil => exact ⟨.refl _ s, fun v hv hc => absurd (hmem v hv hc) List.not_mem_nil⟩
  | cons u us =>
    have hu : (BitVec.ofNat 48 u).toNat = u := by rw [BitVec.toNat_ofNat, Nat.mod_eq_of_lt (hlt u List.mem_cons_self)]
    obtain ⟨hagree, htrim⟩ := mapChange_trim hstop hroom ⟨h % 1024, by omega⟩ (BitVec.ofNat 48 u) (u :: us).length
    rw [hu] at htrim
    simp only [trimUnits, hh, if_true]
    refine ⟨hagree, fun v hv hc => ?_⟩
    obtain ⟨hlo, hhi⟩ := lt_head_add_length hsorted (hconvex u List.mem_cons_self) v (hmem v hv hc)
    simpa only [Nat.mod_eq_of_lt hh] using htrim v hlo hhi (hlt v (hmem v hv hc))

end Sys2Proof.Machine

/-! Write Zeroes with deallocation and Dataset Management. -/

namespace Sys2Proof.Machine

/-! ### Deallocation (R183) -/

/-- Write Zeroes that deallocates a range made of whole units trims them and zero-fills nothing. -/
theorem ioWriteZeroes_trims {s : State} {cmd : HostCmd} {x : Namespace} (hspan : x.span = 0) (hdeac : cdwF cmd.sqe 12 25 25 = 1) (hlba : 0 < x.lba)
    (hchecks : blockChecks s cmd (sqeSlba cmd.sqe) (sqeBlocks cmd.sqe) true = .ok x) (hret : retentionRefuses s x (sqeNsid cmd.sqe) (sqeSlba cmd.sqe) (sqeBlocks cmd.sqe) = false)
    (hcov : ∀ v ∈ x.units (sqeSlba cmd.sqe) (sqeBlocks cmd.sqe), coversUnit x v (sqeSlba cmd.sqe) (sqeBlocks cmd.sqe) = true) (flash : List (Option FlashUnit)) :
    ioWriteZeroes flash s cmd = (trimUnits s (sqeNsid cmd.sqe - 1)
      ((x.units (sqeSlba cmd.sqe) (sqeBlocks cmd.sqe)).filter fun v => coversUnit x v (sqeSlba cmd.sqe) (sqeBlocks cmd.sqe)), .ok) := by
  obtain ⟨hhead, hlo, hhi⟩ := units_span x (sqeSlba cmd.sqe) (sqeBlocks_ne_zero cmd.sqe) hlba.ne'
  have hall := List.filter_eq_self.mpr hcov
  have hempty : (x.units (sqeSlba cmd.sqe) (sqeBlocks cmd.sqe)).isEmpty = false :=
    List.isEmpty_eq_false_iff_exists_mem.mpr ⟨_, List.mem_of_mem_head? hhead⟩
  have hbefore : sqeSlba cmd.sqe ≥ sqeSlba cmd.sqe * x.lba / x.unit * x.unit / x.lba := Nat.div_le_of_le_mul (Nat.mul_comm x.lba _ ▸ hlo)
  have hafter := (Nat.le_div_iff_mul_le hlba).mpr hhi
  simp only [ioWriteZeroes, cmdRange, hchecks, hret, hdeac, hspan, hall, hempty, List.headD_eq_head?_getD, hhead, Option.getD_some, hbefore, hafter, if_true]
  rfl

/-- Dataset Management that deallocates one range trims the units that it covers whole. -/
theorem ioDsm_trims {s : State} {cmd : HostCmd} {x : Namespace} {ranges : List Byte} (hx : nsAt? s (sqeNsid cmd.sqe) = some x) (hspan : x.span = 0) (hone : cdwF cmd.sqe 10 7 0 = 0)
    (had : cdwF cmd.sqe 11 2 2 = 1) (hlen : ranges.length = 16) (hresv : resvConflict x cmd.ctl true = false) (hwait : mustWait s cmd (sqeF ranges 8 8) (sqeF ranges 4 4) true = false)
    (hrange : sqeF ranges 8 8 + sqeF ranges 4 4 ≤ x.size) (hret : retentionRefuses s x (sqeNsid cmd.sqe) (sqeF ranges 8 8) (sqeF ranges 4 4) = false) :
    ioDsm ranges s cmd = (trimUnits s (sqeNsid cmd.sqe - 1)
      ((x.units (sqeF ranges 8 8) (sqeF ranges 4 4)).filter fun v => coversUnit x v (sqeF ranges 8 8) (sqeF ranges 4 4)), .ok) := by
  simp [ioDsm, hx, hone, hlen, hresv, hwait, had, hspan, hret, Nat.not_lt.mpr hrange]

section
variable {i : Instr} {s : State} {op id slba n : Nat} {cmd : HostCmd} {f : State → HostCmd → State × Reply} {x : Namespace}
  (hexec : exec i s = .next (confine [.hstP, .mapP, .strP, .fchP, .memP, .keyP, .mteP, .ferP, .spnP] s (onCmd s false op id f))) (hf : Fetched s id false op cmd)
  (hx : nsAt? s (sqeNsid cmd.sqe) = some x) (hns : sqeNsid cmd.sqe ≤ 1024) (hsize : x.size * x.lba ≤ x.unit * 2 ^ 48) (hstop : mapStopped s = false) (hroom : jRoom s 32 = true)
  (hrange : slba + n ≤ x.size) (hu : f s cmd = (trimUnits s (sqeNsid cmd.sqe - 1) ((x.units slba n).filter fun v => coversUnit x v slba n), .ok))
include hexec hf hx hns hsize hstop hroom hrange hu

/-- A row that trims the units which a range covers whole completes, and each of them reads trimmed. -/
theorem ends_of_trimUnits : Ends i s id .success 0 [] fun t => ∀ v ∈ x.units slba n, coversUnit x v slba n = true → entryAt t (sqeNsid cmd.sqe - 1) v = trimmed := by
  have hpos : sqeNsid cmd.sqe ≠ 0 := fun h0 => by simp [nsAt?, h0] at hx
  obtain ⟨hagree, htrim⟩ := trimUnits_covered (h := sqeNsid cmd.sqe - 1) hstop hroom (by omega) hsize hrange
  refine ends_of_done hexec (by decide) hf hu (by rw [hagree.hst (by decide)]) fun t _ hent _ v hv hc => ?_
  rw [entryAt, hent]
  exact htrim v hv hc

end

end Sys2Proof.Machine

/-! Write, Write Zeroes and Copy as writes of blocks. -/

namespace Sys2Proof.Machine

/-! ### Commands that write (R28, R121) -/

/-- Write on a namespace without metadata or protection hands the host's bytes to the write buffer. -/
theorem ioWrite_eq {s : State} {cmd : HostCmd} {x : Namespace} {hd : List Byte} (hmeta : x.meta_ = 0) (hpi : x.pi = 0)
    (hchecks : blockChecks s cmd (sqeSlba cmd.sqe) (sqeBlocks cmd.sqe) true = .ok x) (hret : retentionRefuses s x (sqeNsid cmd.sqe) (sqeSlba cmd.sqe) (sqeBlocks cmd.sqe) = false)
    (hlen : hd.length = sqeBlocks cmd.sqe * x.lba) (flash : List (Option FlashUnit)) :
    ioWrite hd flash s cmd = writeBlocks s cmd x (sqeSlba cmd.sqe) hd [] (cdwF cmd.sqe 12 30 30 == 1) flash := by
  simp [ioWrite, hchecks, hret, hpi, hmeta, hlen, piFailure_none, flatMap_splitBlocks, List.take_of_length_le]

/-- Write Zeroes that does not deallocate hands zeros to the write buffer. -/
theorem ioWriteZeroes_eq {s : State} {cmd : HostCmd} {x : Namespace} (hmeta : x.meta_ = 0) (hkeep : cdwF cmd.sqe 12 25 25 = 0)
    (hchecks : blockChecks s cmd (sqeSlba cmd.sqe) (sqeBlocks cmd.sqe) true = .ok x) (hret : retentionRefuses s x (sqeNsid cmd.sqe) (sqeSlba cmd.sqe) (sqeBlocks cmd.sqe) = false)
    (flash : List (Option FlashUnit)) :
    ioWriteZeroes flash s cmd = writeBlocks s cmd x (sqeSlba cmd.sqe) (List.replicate (sqeBlocks cmd.sqe * x.lba) 0) [] (cdwF cmd.sqe 12 30 30 == 1) flash := by
  simp [ioWriteZeroes, cmdRange, hchecks, hret, hkeep, hmeta]

/-- Copy of one range hands the source's bytes to the write buffer. -/
theorem ioCopy_eq {s t : State} {cmd : HostCmd} {x : Namespace} {entries : List Byte} {n : Nat} {flash : List (Option FlashUnit)} {l : List (Nat × List Byte)}
    (hspan : x.span = 0) (hmeta : x.meta_ = 0) (hone : cdwF cmd.sqe 12 7 0 = 0) (hfmt : cdwF cmd.sqe 12 11 8 = 0) (hlen : entries.length = 32) (hn : sqeF entries 16 2 + 1 = n)
    (hmax : n ≤ 65535) (hchecks : blockChecks s cmd (sqeSlba cmd.sqe) n true = .ok x) (hsrc : sqeF entries 8 8 + n ≤ x.size) (hresv : resvConflict x cmd.ctl false = false)
    (hret : retentionRefuses s x (sqeNsid cmd.sqe) (sqeSlba cmd.sqe) n = false) (hroom : roomNow s ((x.units (sqeSlba cmd.sqe) n).length * x.unit) = true)
    (hread : readUnits s x (sqeNsid cmd.sqe - 1) (cmdSlot cmd) (cmdTag cmd) (x.units (sqeF entries 8 8) n) flash = (t, .ok l)) :
    ioCopy entries flash s cmd = writeBlocks t cmd x (sqeSlba cmd.sqe) (sliceUnits x l (sqeF entries 8 8) n) [] (cdwF cmd.sqe 12 30 30 == 1)
      (flash.drop (x.units (sqeF entries 8 8) n).length) := by
  obtain ⟨bs, hbs, hdata, _⟩ := readBlocks_ok hmeta (by omega) hread
  have h1 : ¬ 65535 < n := by omega
  have h2 : ¬ 262143 < n := by omega
  simp [ioCopy, hone, hfmt, hlen, hn, h1, h2, hchecks, Nat.not_lt.mpr hsrc, hresv, hret, hroom, hspan, hmeta, hbs, hdata]

end Sys2Proof.Machine

/-! Flush and the reservation commands. -/

namespace Sys2Proof.Machine

/-! ### Flush (R123) -/

/-- The units of a namespace that the write buffer holds for flash. -/
def bufferedUnits (s : State) (h : Nat) : List Nat := (s.map.wb.filter fun w => w.handle == h && w.redirect.isNone).map (·.unit)

section
variable {s : State} {cmd : HostCmd} {x : Namespace} (hx : nsAt? s (sqeNsid cmd.sqe) = some x) (hspan : x.span = 0)
include hx hspan

/-- Flush with nothing to drain does nothing. -/
theorem ioFlush_ok (h : bit (rd s pNQE NQE_FLUSH_DRAIN) 0 = false ∨ bufferedUnits s (sqeNsid cmd.sqe - 1) = []) : ioFlush s cmd = (s, .ok) := by
  rcases h with h | h
  · simp [ioFlush, hx, hspan, h]
  · rw [bufferedUnits] at h
    simp [ioFlush, hx, hspan, h]

/-- Flush waits for the units that the write buffer holds. -/
theorem ioFlush_wait (hdrain : bit (rd s pNQE NQE_FLUSH_DRAIN) 0 = true) (hopen : bufferedUnits s (sqeNsid cmd.sqe - 1) ≠ []) :
    ioFlush s cmd = (putCmd s { cmd with units := bufferedUnits s (sqeNsid cmd.sqe - 1) }, .wait) := by
  have hne : (bufferedUnits s (sqeNsid cmd.sqe - 1)).isEmpty = false := List.isEmpty_eq_false_iff.mpr hopen
  unfold bufferedUnits at hne ⊢
  simp only [ioFlush, hx, Option.any_some, hspan, Nat.reduceBEq, hdrain, if_true, hne, Bool.false_eq_true, if_false]

end

/-! ### Reservations (R121) -/

/-- A namespace that is set reads back as set. -/
theorem nsAt?_putNs {s : State} {nsid : Nat} {x y : Namespace} (h : nsAt? s nsid = some x) : nsAt? (putNs s (nsid - 1) y) nsid = some y := by
  have h0 : nsid ≠ 0 := fun h0 => by simp [nsAt?, h0] at h
  simp [nsAt?, putNs, h0]

section
variable {s : State} {cmd : HostCmd} {x : Namespace} {hd : List Byte} (hx : nsAt? s (sqeNsid cmd.sqe) = some x)
include hx

/-- Register with no key yet adds the registrant. -/
theorem resvRegister_new (hact : cdwF cmd.sqe 10 2 0 = 0) (hnone : keyOf x cmd.ctl = none) :
    resvRegister hd s cmd = (putResv s (sqeNsid cmd.sqe - 1) x
      { x.resv with keys := (x.resv.keys.filter fun k => k.1 != cmd.ctl) ++ [(cmd.ctl, sqeF hd 8 8)], gen := x.resv.gen + 1 }, .ok) := by
  simp [resvRegister, hx, hact, hnone]

/-- Acquire takes a reservation that nobody holds. -/
theorem resvAcquire_free (hkey : keyOf x cmd.ctl = some (sqeF hd 0 8)) (hact : cdwF cmd.sqe 10 2 0 = 0) (hlo : 1 ≤ cdwF cmd.sqe 10 15 8) (hhi : cdwF cmd.sqe 10 15 8 ≤ 6)
    (hfree : x.resv.holder = none) :
    resvAcquire hd s cmd = (putResv s (sqeNsid cmd.sqe - 1) x { x.resv with holder := some cmd.ctl, rtype := cdwF cmd.sqe 10 15 8 }, .ok) := by
  have htype : ¬ (cdwF cmd.sqe 10 15 8 < 1 ∨ 6 < cdwF cmd.sqe 10 15 8) := by omega
  simp only [resvAcquire, hx, hkey, hact, hfree, htype, ne_eq, not_true_eq_false, if_false]

/-- Release by the holder frees the reservation. -/
theorem resvRelease_held (hkey : keyOf x cmd.ctl = some (sqeF hd 0 8)) (hact : cdwF cmd.sqe 10 2 0 = 0) (hheld : x.resv.holder = some cmd.ctl)
    (htype : cdwF cmd.sqe 10 15 8 = x.resv.rtype) :
    resvRelease hd s cmd = (putResv s (sqeNsid cmd.sqe - 1) x { x.resv with holder := none, rtype := 0 }, .ok) := by
  simp [resvRelease, hx, hkey, hact, hheld, htype]

/-- Clear drops every registrant. -/
theorem resvRelease_clear (hkey : keyOf x cmd.ctl = some (sqeF hd 0 8)) (hact : cdwF cmd.sqe 10 2 0 = 1) :
    resvRelease hd s cmd = (putResv s (sqeNsid cmd.sqe - 1) x ⟨[], none, 0, x.resv.gen + 1⟩, .ok) := by
  simp [resvRelease, hx, hkey, hact]

/-- Report of six dwords is its header. -/
theorem resvReport_header (hlen : cdw cmd.sqe 10 = 5) :
    resvReport s cmd = (s, .done .success 0 (bytesLE 4 x.resv.gen ++ [BitVec.ofNat 8 x.resv.rtype] ++ bytesLE 2 x.resv.keys.length ++ List.replicate 17 0)) := by
  simp only [resvReport, hx, hlen]
  rw [List.take_left' (by simp [bytesLE])]

end

section
variable {i : Instr} {s : State} {op id : Nat} {cmd : HostCmd} {f : State → HostCmd → State × Reply} {x : Namespace} {r : Reservation}
  (hexec : exec i s = .next (confine [.hstP, .mapP] s (onCmd s false op id f))) (hf : Fetched s id false op cmd) (hx : nsAt? s (sqeNsid cmd.sqe) = some x)
  (hu : f s cmd = (putResv s (sqeNsid cmd.sqe - 1) x r, .ok))
include hexec hf hx hu

/-- A row that sets the namespace's reservation completes. -/
theorem ends_of_putResv : Ends i s id .success 0 [] fun t => (nsAt? t (sqeNsid cmd.sqe)).map (·.resv) = some r := by
  refine ends_of_done hexec (by decide) hf hu rfl fun t _ _ hns => ?_
  have hput := nsAt?_putNs (y := { x with resv := r }) hx
  rw [nsAt?] at hput ⊢
  rw [hns, putResv, hput, Option.map_some]

end

end Sys2Proof.Machine

/-! O53: the rows of the NVM commands, and the obligation assembled from them. -/

namespace Sys2Proof.Machine

/-! ### The NVM commands together (R121, R123, R182, R183) -/

section
variable {s t0 t1 : State} {id : Nat} {cmd : HostCmd} {x : Namespace} {hd entries b : List Byte} {flash : List (Option FlashUnit)} {l : List (Nat × List Byte)} {u : Nat} {cf : Bool}

section
variable (hspan : x.span = 0) (hmeta : x.meta_ = 0) (hpi : x.pi = 0)
  (hchecks : blockChecks s cmd (sqeSlba cmd.sqe) (sqeBlocks cmd.sqe) false = .ok x)
  (hread : readUnits s x (sqeNsid cmd.sqe - 1) (cmdSlot cmd) (cmdTag cmd) (x.units (sqeSlba cmd.sqe) (sqeBlocks cmd.sqe)) flash = (t0, .ok l))
include hspan hmeta hpi hchecks hread

omit hspan hmeta hpi hchecks in
/-- A row that only reads the units of its blocks ends as the carrying out says, and leaves the write buffer alone. -/
theorem ends_of_readUnits {i : Instr} {op dw0 : Nat} {f : State → HostCmd → State × Reply} {st : NvStatus} {data : List Byte}
    (hexec : exec i s = .next (confine [.hstP, .mapP, .strP, .fchP, .memP, .keyP, .mteP, .ferP, .spnP] s (onCmd s false op id f))) (hf : Fetched s id false op cmd)
    (hu : f s cmd = (t0, .done st dw0 data)) : Ends i s id st dw0 data fun t => t.map.wb = s.map.wb := by
  have hagree := (readUnits_ok hread).1
  exact ends_of_done hexec (by decide) hf hu (by rw [hagree.hst (by decide)]) fun t hwb _ _ => by rw [hwb, hagree.map (by decide)]

/-- Read gives the bytes of its blocks. -/
theorem ends_read (hf : Fetched s id false 0x02 cmd) :
    Ends (.read id flash) s id .success 0 (sliceUnits x l (sqeSlba cmd.sqe) (sqeBlocks cmd.sqe)) fun t => t.map.wb = s.map.wb :=
  ends_of_readUnits hread rfl hf (ioRead_ok hspan hmeta hpi hchecks hread)

/-- Verify reads and transfers nothing. -/
theorem ends_verify (hf : Fetched s id false 0x0C cmd) : Ends (.verify id flash) s id .success 0 [] fun t => t.map.wb = s.map.wb :=
  ends_of_readUnits hread rfl hf (ioVerify_ok hspan hmeta hpi hchecks hread)

omit hpi in
/-- Compare ends by whether the host's bytes are those of its blocks. -/
theorem ends_compare (hf : Fetched s id false 0x05 cmd) (hlen : hd.length = (sliceUnits x l (sqeSlba cmd.sqe) (sqeBlocks cmd.sqe)).length) :
    Ends (.compare id hd flash) s id (if hd = sliceUnits x l (sqeSlba cmd.sqe) (sqeBlocks cmd.sqe) then .success else .compareFailure) 0 [] fun t => t.map.wb = s.map.wb := by
  obtain ⟨_, hus, hlens⟩ := readUnits_ok hread
  have hcmp := ioCompare_ok hspan hmeta hchecks hread (hlen.trans (length_sliceUnits (sqeBlocks_ne_zero _) hus hlens))
  by_cases heq : hd = sliceUnits x l (sqeSlba cmd.sqe) (sqeBlocks cmd.sqe)
  · rw [if_pos heq.symm] at hcmp
    rw [if_pos heq]
    exact ends_of_readUnits hread rfl hf hcmp
  · rw [if_neg (Ne.symm heq)] at hcmp
    rw [if_neg heq]
    exact ends_of_readUnits hread rfl hf hcmp

end

section
variable (hspan : x.span = 0) (hmeta : x.meta_ = 0) (hpi : x.pi = 0)
  (hchecks : blockChecks s cmd (sqeSlba cmd.sqe) (sqeBlocks cmd.sqe) true = .ok x)
  (hret : retentionRefuses s x (sqeNsid cmd.sqe) (sqeSlba cmd.sqe) (sqeBlocks cmd.sqe) = false)
  (hwhole : x.units (sqeSlba cmd.sqe) (sqeBlocks cmd.sqe) = [u] ∧ sqeSlba cmd.sqe * x.lba = u * x.unit ∧ sqeBlocks cmd.sqe * x.lba = x.unit)
include hspan hmeta hpi hchecks hret hwhole

/-- Write of one whole unit completes without FUA, and waits with it. -/
theorem ends_write (hf : Fetched s id false 0x01 cmd) (hlen : hd.length = x.unit)
    (hst : storeUnit s x (sqeNsid cmd.sqe - 1) u (cmdSlot cmd) (cmdTag cmd) hd = (t1, some (b, cf))) :
    (cdwF cmd.sqe 12 30 30 = 0 → Ends (.write id hd flash) s id .success 0 [] (UnitWritten s (sqeNsid cmd.sqe - 1) u b cf))
      ∧ (cdwF cmd.sqe 12 30 30 = 1 → Waits (.write id hd flash) s id (UnitWritten s (sqeNsid cmd.sqe - 1) u b cf)) := by
  obtain ⟨hunits, hfirst, hblocks⟩ := hwhole
  have hw : WholeUnit x (sqeSlba cmd.sqe) (sqeBlocks cmd.sqe) u hd := ⟨hunits, hfirst, hblocks, hlen⟩
  have hu := ioWrite_eq (hd := hd) hmeta hpi hchecks hret (hlen.trans hblocks.symm) flash
  exact ⟨fun hfua => ends_of_wholeUnit rfl (by decide) hf hu (.refl _ s) hw hspan hst (by rw [hfua]; rfl),
    fun hfua => waits_of_wholeUnit rfl (by decide) hf hu (.refl _ s) hw hspan hst (by rw [hfua]; rfl)⟩

omit hpi in
/-- Write Zeroes of one whole unit without deallocation. -/
theorem ends_writeZeroes (hf : Fetched s id false 0x08 cmd) (hkeep : cdwF cmd.sqe 12 25 25 = 0) (hfua : cdwF cmd.sqe 12 30 30 = 0)
    (hst : storeUnit s x (sqeNsid cmd.sqe - 1) u (cmdSlot cmd) (cmdTag cmd) (List.replicate x.unit 0) = (t1, some (b, cf))) :
    Ends (.writeZeroes id flash) s id .success 0 [] (UnitWritten s (sqeNsid cmd.sqe - 1) u b cf) := by
  obtain ⟨hunits, hfirst, hblocks⟩ := hwhole
  have hw : WholeUnit x (sqeSlba cmd.sqe) (sqeBlocks cmd.sqe) u (List.replicate x.unit 0) := ⟨hunits, hfirst, hblocks, List.length_replicate⟩
  have hu := ioWriteZeroes_eq hmeta hkeep hchecks hret flash
  rw [hblocks] at hu
  exact ends_of_wholeUnit rfl (by decide) hf hu (.refl _ s) hw hspan hst (by rw [hfua]; rfl)

omit hpi in
/-- Copy of one range to one whole unit. -/
theorem ends_copy (hf : Fetched s id false 0x19 cmd) (hone : cdwF cmd.sqe 12 7 0 = 0) (hfmt : cdwF cmd.sqe 12 11 8 = 0) (hfua : cdwF cmd.sqe 12 30 30 = 0) (hlen : entries.length = 32)
    (hn : sqeF entries 16 2 + 1 = sqeBlocks cmd.sqe) (hmax : sqeBlocks cmd.sqe ≤ 65535) (hsrc : sqeF entries 8 8 + sqeBlocks cmd.sqe ≤ x.size) (hresv : resvConflict x cmd.ctl false = false)
    (hroom : roomNow s x.unit = true)
    (hread : readUnits s x (sqeNsid cmd.sqe - 1) (cmdSlot cmd) (cmdTag cmd) (x.units (sqeF entries 8 8) (sqeBlocks cmd.sqe)) flash = (t0, .ok l))
    (hst : storeUnit t0 x (sqeNsid cmd.sqe - 1) u (cmdSlot cmd) (cmdTag cmd) (sliceUnits x l (sqeF entries 8 8) (sqeBlocks cmd.sqe)) = (t1, some (b, cf))) :
    Ends (.copy id entries flash) s id .success 0 [] (UnitWritten s (sqeNsid cmd.sqe - 1) u b cf) := by
  obtain ⟨hunits, hfirst, hblocks⟩ := hwhole
  obtain ⟨hagree, hus, hlens⟩ := readUnits_ok hread
  have hw : WholeUnit x (sqeSlba cmd.sqe) (sqeBlocks cmd.sqe) u (sliceUnits x l (sqeF entries 8 8) (sqeBlocks cmd.sqe)) :=
    ⟨hunits, hfirst, hblocks, (length_sliceUnits (sqeBlocks_ne_zero _) hus hlens).trans hblocks⟩
  have hu := ioCopy_eq hspan hmeta hone hfmt hlen hn hmax hchecks hsrc hresv hret (by simpa [hunits] using hroom) hread
  exact ends_of_wholeUnit rfl (by decide) hf hu hagree hw hspan hst (by rw [hfua]; rfl)

end

section
variable (hx : nsAt? s (sqeNsid cmd.sqe) = some x) (hspan : x.span = 0)
include hx hspan

section
variable (hns : sqeNsid cmd.sqe ≤ 1024) (hsize : x.size * x.lba ≤ x.unit * 2 ^ 48) (hstop : mapStopped s = false) (hroom : jRoom s 32 = true)
include hns hsize hstop hroom

/-- Write Zeroes that deallocates leaves every unit of a range made of whole units trimmed. -/
theorem ends_writeZeroes_deallocate (hf : Fetched s id false 0x08 cmd) (hdeac : cdwF cmd.sqe 12 25 25 = 1) (hlba : 0 < x.lba)
    (hchecks : blockChecks s cmd (sqeSlba cmd.sqe) (sqeBlocks cmd.sqe) true = .ok x) (hret : retentionRefuses s x (sqeNsid cmd.sqe) (sqeSlba cmd.sqe) (sqeBlocks cmd.sqe) = false)
    (hcov : ∀ v ∈ x.units (sqeSlba cmd.sqe) (sqeBlocks cmd.sqe), coversUnit x v (sqeSlba cmd.sqe) (sqeBlocks cmd.sqe) = true) :
    Ends (.writeZeroes id flash) s id .success 0 [] fun t => ∀ v ∈ x.units (sqeSlba cmd.sqe) (sqeBlocks cmd.sqe), entryAt t (sqeNsid cmd.sqe - 1) v = trimmed := by
  obtain ⟨t, hexec, hends, htrim⟩ : Ends (.writeZeroes id flash) s id .success 0 [] _ :=
    ends_of_trimUnits rfl hf hx hns hsize hstop hroom (range_of_blockChecks hchecks) (ioWriteZeroes_trims hspan hdeac hlba hchecks hret hcov flash)
  exact ⟨t, hexec, hends, fun v hv => htrim v hv (hcov v hv)⟩

/-- Dataset Management leaves every unit that its range covers whole trimmed. -/
theorem ends_datasetManagement (hf : Fetched s id false 0x09 cmd) (hone : cdwF cmd.sqe 10 7 0 = 0) (had : cdwF cmd.sqe 11 2 2 = 1) (hlen : entries.length = 16)
    (hresv : resvConflict x cmd.ctl true = false) (hwait : mustWait s cmd (sqeF entries 8 8) (sqeF entries 4 4) true = false)
    (hrange : sqeF entries 8 8 + sqeF entries 4 4 ≤ x.size) (hret : retentionRefuses s x (sqeNsid cmd.sqe) (sqeF entries 8 8) (sqeF entries 4 4) = false) :
    Ends (.datasetManagement id entries) s id .success 0 [] fun t => ∀ v ∈ x.units (sqeF entries 8 8) (sqeF entries 4 4),
      coversUnit x v (sqeF entries 8 8) (sqeF entries 4 4) = true → entryAt t (sqeNsid cmd.sqe - 1) v = trimmed :=
  ends_of_trimUnits rfl hf hx hns hsize hstop hroom hrange (ioDsm_trims hx hspan hone had hlen hresv hwait hrange hret)

end

/-- Flush completes when nothing is to drain. -/
theorem ends_flush (hf : Fetched s id false 0x00 cmd) (h : bit (rd s pNQE NQE_FLUSH_DRAIN) 0 = false ∨ bufferedUnits s (sqeNsid cmd.sqe - 1) = []) :
    Ends (.flush id) s id .success 0 [] fun t => t.map.wb = s.map.wb :=
  ends_of_done (ps := [.hstP, .mapP, .memP, .keyP, .spnP]) rfl (by decide) hf (ioFlush_ok hx hspan h) rfl fun _ hwb _ _ => hwb

/-- Flush waits for the namespace's units. -/
theorem waits_flush (hf : Fetched s id false 0x00 cmd) (hdrain : bit (rd s pNQE NQE_FLUSH_DRAIN) 0 = true) (hopen : bufferedUnits s (sqeNsid cmd.sqe - 1) ≠ []) :
    Waits (.flush id) s id fun t => (cmdOf? t id).map (·.units) = some (bufferedUnits s (sqeNsid cmd.sqe - 1)) := by
  refine waits_of_wait (ps := [.hstP, .mapP, .memP, .keyP, .spnP]) rfl (by decide) hf (ioFlush_wait hx hspan hdrain hopen) (cmdOf?_putCmd hf.1 (show cmd.id = id from id_of_cmdOf? hf.1))
    fun t _ hget => ?_
  rw [hget, Option.map_some]

end

end

/-- Settles O53: each command's carrying out is followed to its end — the read path to the bytes of the units, a whole unit to its write-buffer entry, a trim to the entries of the units covered, and a reservation command to the namespace's record. -/
theorem nvmCommands : Obligations.NvmCommands := by
  unfold Obligations.NvmCommands
  intro s t0 t1 id cmd x hd entries b flash l u cf
  dsimp only
  intro hx
  refine ⟨fun hspan hmeta hpi hchecks hread => ⟨ends_read hspan hmeta hpi hchecks hread, ends_verify hspan hmeta hpi hchecks hread, fun hf => ⟨fun heq => ?_, fun hlen hne => ?_⟩⟩,
    fun hspan hmeta hpi hchecks hret hwhole => ⟨fun hf hlen hst => ends_write hspan hmeta hpi hchecks hret hwhole hf hlen hst,
      fun hf hkeep hfua hst => ends_writeZeroes hspan hmeta hchecks hret hwhole hf hkeep hfua hst,
      fun hf hone hfmt hfua hlen hn hmax hsrc hresv hroom hread hst => ends_copy hspan hmeta hchecks hret hwhole hf hone hfmt hfua hlen hn hmax hsrc hresv hroom hread hst⟩,
    fun hspan hns hsize hstop hroom => ⟨fun hf hdeac hlba hchecks hret hcov => ends_writeZeroes_deallocate hx hspan hns hsize hstop hroom hf hdeac hlba hchecks hret hcov,
      fun hf hone had hlen hresv hwait hrange hret => ends_datasetManagement hx hspan hns hsize hstop hroom hf hone had hlen hresv hwait hrange hret⟩,
    fun hf hspan => ⟨ends_flush hx hspan hf, waits_flush hx hspan hf⟩,
    fun hf hact hnone => ends_of_putResv rfl hf hx (resvRegister_new hx hact hnone),
    fun hkey => ⟨fun hf hact hlo hhi hfree => ends_of_putResv rfl hf hx (resvAcquire_free hx hkey hact hlo hhi hfree),
      fun hf => ⟨fun hact hheld htype => ends_of_putResv rfl hf hx (resvRelease_held hx hkey hact hheld htype), fun hact => ends_of_putResv rfl hf hx (resvRelease_clear hx hkey hact)⟩⟩,
    fun hf hlen => ends_of_done (ps := [.hstP, .mapP]) rfl (by decide) hf (resvReport_header hx hlen) rfl fun _ _ _ hns => hns⟩
  case refine_1 => simpa only [heq, if_true] using ends_compare hspan hmeta hchecks hread hf (hd := hd) (by rw [heq])
  case refine_2 => simpa only [hne, if_false] using ends_compare hspan hmeta hchecks hread hf hlen

end Sys2Proof.Machine

/-! Bit fields of a word: which bits a field holds, and what setting it leaves alone (R6). -/

namespace Sys2Proof.Machine

/-! ### Bits -/

theorem bit_and (w m : Word) (i : Nat) : bit (w &&& m) i = (bit w i && bit m i) := BitVec.getLsbD_and

theorem bit_or (w m : Word) (i : Nat) : bit (w ||| m) i = (bit w i || bit m i) := BitVec.getLsbD_or

theorem bit_oneBit {i : Nat} (h : i < 32) : bit (oneBit i) i = true := by
  rw [bit, oneBit, BitVec.getLsbD_ofNat, Nat.testBit_two_pow_self, decide_eq_true h, Bool.true_and]

/-- The bits of a word after a field is set: those of the value inside the field, the old ones outside. -/
theorem bit_setFld (w : Word) {hi lo : Nat} (v i : Nat) (hh : hi < 32) :
    bit (setFld w hi lo v) i = if lo ≤ i ∧ i ≤ hi then v.testBit (i - lo) else bit w i := by
  have hw : 32 ≤ i → w.getLsbD i = false := fun h => BitVec.getLsbD_of_ge w i h
  simp only [setFld, bit, BitVec.getLsbD_or, BitVec.getLsbD_and, BitVec.getLsbD_not, BitVec.getLsbD_ofNat, Nat.testBit_shiftLeft, Nat.testBit_two_pow_sub_one,
    Nat.testBit_mod_two_pow]
  by_cases hin : lo ≤ i ∧ i ≤ hi
  · have : i < 32 ∧ i - lo < hi + 1 - lo := by omega
    simp [hin, this]
  · have hout : (decide (i ≥ lo) && decide (i - lo < hi + 1 - lo)) = false := by simp; omega
    rw [if_neg hin, ← Bool.and_assoc (decide (i ≥ lo)), hout]
    by_cases hi' : i < 32
    · simp [hi']
    · simp [hi', hw (by omega)]

theorem bit_setFld_out (w : Word) {hi lo i : Nat} (v : Nat) (hh : hi < 32) (h : i < lo ∨ hi < i) : bit (setFld w hi lo v) i = bit w i := by
  rw [bit_setFld w v i hh, if_neg (by omega)]

theorem bit_setBit_same (w : Word) {i : Nat} (b : Bool) (h : i < 32) : bit (setBit w i b) i = b := by
  rw [setBit, bit_setFld w _ i h, if_pos ⟨le_rfl, le_rfl⟩, Nat.sub_self]
  cases b <;> rfl

/-! ### Fields -/

theorem testBit_fld (w : Word) (hi lo j : Nat) : (fld w hi lo).testBit j = (decide (j < hi + 1 - lo) && bit w (lo + j)) := by
  simp [fld, bit, BitVec.getLsbD, Nat.testBit_mod_two_pow, Nat.testBit_shiftRight]

theorem fld_lt (w : Word) (hi lo : Nat) : fld w hi lo < 2 ^ (hi + 1 - lo) := Nat.mod_lt _ (Nat.two_pow_pos _)

/-- Words that agree in the bits of a field have the same field. -/
theorem fld_congr {w w' : Word} {hi lo : Nat} (h : ∀ i, lo ≤ i → i ≤ hi → bit w i = bit w' i) : fld w hi lo = fld w' hi lo := by
  refine Nat.eq_of_testBit_eq fun j => ?_
  rw [testBit_fld, testBit_fld]
  by_cases hj : j < hi + 1 - lo
  · rw [h (lo + j) (by omega) (by omega)]
  · simp [hj]

theorem fld_setFld_same (w : Word) {hi lo : Nat} (v : Nat) (hh : hi < 32) : fld (setFld w hi lo v) hi lo = v % 2 ^ (hi + 1 - lo) := by
  refine Nat.eq_of_testBit_eq fun j => ?_
  rw [testBit_fld, Nat.testBit_mod_two_pow, bit_setFld w v _ hh]
  by_cases hj : j < hi + 1 - lo
  · rw [if_pos (by omega), Nat.add_sub_cancel_left]
  · simp [hj]

theorem fld_setFld_out (w : Word) {hi lo hi' lo' : Nat} (v : Nat) (hh : hi < 32) (h : hi' < lo ∨ hi < lo') : fld (setFld w hi lo v) hi' lo' = fld w hi' lo' :=
  fld_congr fun _ _ _ => bit_setFld_out w v hh (by omega)

/-- A field survives a mask that has all its bits. -/
theorem fld_and {w m : Word} {hi lo : Nat} (h : ∀ i, lo ≤ i → i ≤ hi → bit m i = true) : fld (w &&& m) hi lo = fld w hi lo :=
  fld_congr fun i hl hh => by rw [bit_and, h i hl hh, Bool.and_true]

end Sys2Proof.Machine

/-! Writes of registers: a write that the fabric and the page take, the offsets that hold no register, the common frame and the staged fields (R48, R50, R51, R54, R60, R75). -/

namespace Sys2Proof.Machine

/-! ### A write that the fabric takes -/

/-- The number that a word's four bytes spell is the word. -/
theorem ofBytesLE_bytesLE (v : Word) : w32 (ofBytesLE (bytesLE 4 v.toNat)) = v := by
  have hv := v.isLt
  apply BitVec.eq_of_toNat_eq
  simp only [w32, bytesLE, ofBytesLE, BitVec.toNat_ofNat]
  omega

/-- A 32-bit write by address is a write of the register at that address. -/
theorem exec_registerWrite_page (s : State) (who : Initiator) {p off : Nat} (v : Word) (hp : p < 4096) (ho : off < 4096) :
    exec (.registerWrite who (BitVec.ofNat 48 (0xF0000000 + p * 4096 + off)) .b4 v) s = .next (confine allParts s (regWrite s who p off v)) := by
  have haddr : (BitVec.ofNat 48 (0xF0000000 + p * 4096 + off)).toNat = 0xF0000000 + p * 4096 + off := by
    rw [BitVec.toNat_ofNat]
    omega
  have hbytes : (List.range 4).map (fun i => BitVec.ofNat 8 (v.toNat / 2 ^ (8 * (i % 4)))) = bytesLE 4 v.toNat := by
    simp [List.range, List.range.loop, bytesLE, Nat.div_div_eq_div_mul]
  rw [exec_registerWrite, haddr]
  simp only [anyWrite, regWrite, Width.bytes, hbytes]
  rfl

/-- A register write that the fabric takes does what the page does with it. -/
theorem regWrite_of_reaches {s : State} {who : Initiator} {p off : Nat} (v : Word) (micros : Nat) (hp : p < 4096) (ho : off < 4096) (h : reaches s who p off = true) :
    regWrite s who p off v micros = answer (pageWrite (passes s who (.page p off)) who p off v micros).1 (pageWrite (passes s who (.page p off)) who p off v micros).2 := by
  obtain ⟨hc, hh⟩ := (reaches_iff s who p off).mp h
  have ht (s' : State) : targetOf s' (0xF0000000 + p * 4096 + off) = .page p off := targetOf_page s' hp ho
  have hf : fabricCause s ⟨who, true, 0xF0000000 + p * 4096 + off, 4, bytesLE 4 v.toNat⟩ = none := by simp [fabricCause, ht, hc]
  unfold regWrite runAccess
  rw [access_served [] micros hf (by rw [ht]; exact hh)]
  simp [serve, ht, ofBytesLE_bytesLE]

/-- A page takes a write of a register it has: the fabric takes it and the page refuses nothing. -/
theorem takesWrite_iff (s : State) (who : Initiator) (p off : Nat) :
    takesWrite s who p off = true ↔
      reaches s who p off = true ∧ ∃ k r, pageKind? s.com.chip p = some k ∧ rowAt? k off = some r ∧ pageCause s who p k r off = none := by
  unfold takesWrite
  cases pageKind? s.com.chip p with
  | none => simp
  | some k => cases hr : rowAt? k off with
    | none => simp [hr]
    | some r => simp [hr]

/-- A register write that the page takes has the effect of its row. -/
theorem regWrite_of_takes {s : State} {who : Initiator} {p off : Nat} (v : Word) (micros : Nat) (hp : p < 4096) (ho : off < 4096) (h : takesWrite s who p off = true) :
    ∃ k r, pageKind? s.com.chip p = some k ∧ rowAt? k off = some r ∧ pageCause s who p k r off = none
      ∧ regWrite s who p off v micros = answer (rowWrite (passes s who (.page p off)) who p k r off v micros) .ack := by
  obtain ⟨hreach, k, r, hk, hr, hc⟩ := (takesWrite_iff s who p off).mp h
  have hk' : pageKind? (passes s who (.page p off)).com.chip p = some k := hk
  have hc' : pageCause (passes s who (.page p off)) who p k r off = none := hc
  refine ⟨k, r, hk, hr, hc, ?_⟩
  rw [regWrite_of_reaches v micros hp ho hreach, pageWrite]
  simp only [hk', hr, hc']

/-- Passing the fabric changes no register (R16). -/
theorem regsKept_passes (l : List (Nat × Nat)) (s : State) (who : Initiator) (t : Target) : RegsKept l s (passes s who t) := regsKept_of_eq l rfl rfl

/-- A command runs to what its effect gives. -/
theorem runs_of_effect {c : Instr} {ps : List Part} {s w u : State} {P : State → Prop} (he : exec c s = .next (confine ps s w)) (hw : w = u) (h : P (confine ps s u)) :
    Runs c s P := by
  subst hw
  exact ⟨_, he, h⟩

/-- What a command answers keeps the registers that its effect keeps. -/
theorem regsKept_answer {l : List (Nat × Nat)} {s u : State} (ps : List Part) (a : Answer) (h : RegsKept l s u) : RegsKept l s (confine ps s (answer u a)) := h

/-! ### Offsets that hold no register (R54) -/

/-- A read of an offset without a register answers four zero bytes, and the fabric's record of the transfer is all that changes. -/
theorem regRead_undefined {s : State} {who : Initiator} {p off : Nat} {k : PageKind} (hp : p < 4096) (ho : off < 4096) (hk : pageKind? s.com.chip p = some k)
    (hr : rowAt? k off = none) (h : reaches s who p off = true) : regRead s who p off = answer (passes s who (.page p off)) (.data [0, 0, 0, 0]) := by
  have hk' : pageKind? (passes s who (.page p off)).com.chip p = some k := hk
  rw [regRead_of_reaches hp ho h, pageRead]
  simp only [hk', hr]
  rfl

/-- A write to an offset without a register is acknowledged, and the fabric's record of the transfer is all that changes. -/
theorem regWrite_undefined {s : State} {who : Initiator} {p off : Nat} {k : PageKind} (v : Word) (micros : Nat) (hp : p < 4096) (ho : off < 4096)
    (hk : pageKind? s.com.chip p = some k) (hr : rowAt? k off = none) (h : reaches s who p off = true) :
    regWrite s who p off v micros = answer (passes s who (.page p off)) .ack := by
  have hk' : pageKind? (passes s who (.page p off)).com.chip p = some k := hk
  rw [regWrite_of_reaches v micros hp ho h, pageWrite]
  simp only [hk', hr]

/-- A command whose effect changes the shared part alone answers the effect's own state. -/
theorem confine_com_only (ps : List Part) (s : State) (c : Common) (h : s.memWf = true) : confine ps s { s with com := c } = { s with com := c } := by
  simp only [State.memWf, Bool.and_eq_true] at h
  simp only [confine, Memory.canon_of_wf _ h.1, Nelius.canon_of_wf _ h.2, ite_self]

/-- What the fabric keeps of a transfer is all that a command changes which only passes it and answers. -/
theorem same_confine_passes (ps : List Part) {s : State} (who : Initiator) (t : Target) (a : Answer) (h : s.memWf = true) :
    RegsKept [] s (confine ps s (answer (passes s who t) a)) ∧ State.AgreeOutside [] s (confine ps s (answer (passes s who t) a)) := by
  refine ⟨regsKept_answer ps a (regsKept_passes [] s who t), ?_⟩
  rw [show answer (passes s who t) a = { s with com := (answer (passes s who t) a).com } from rfl, confine_com_only ps s _ h]
  exact (State.AgreeOutside.refl [] s).com _

/-- Settles O13: neither access reaches a register, so only the fabric's record of the transfer differs. -/
theorem undefinedOffsets : Obligations.UndefinedOffsets := by
  intro s who page off k v hk hr h _ hw
  refine ⟨⟨_, exec_rcRegisterRead who page off s, ?_⟩, ⟨_, exec_registerWrite_page s who v page.isLt off.isLt, ?_⟩⟩
  · rw [regRead_undefined page.isLt off.isLt hk hr h]
    exact ⟨rfl, same_confine_passes _ who _ _ hw⟩
  · rw [regWrite_undefined v 0 page.isLt off.isLt hk hr h]
    exact ⟨rfl, same_confine_passes _ who _ _ hw⟩

end Sys2Proof.Machine

/-! The common frame and the staged fields: what a write of one of their registers does (R48, R50, R51, R60, R75). -/

namespace Sys2Proof.Machine

/-! ### Setting a field of a register -/

theorem rd_wrF (s : State) {p off p' off' : Nat} (hi lo v : Nat) (ho : off < 4096) (ho' : off' < 4096) :
    rd (wrF s p off hi lo v) p' off' = if p' = p ∧ off' = off then setFld (rd s p off) hi lo v else rd s p' off' := rd_wr s _ ho ho'

theorem rd_wrB_same (s : State) (p off i : Nat) (b : Bool) : rd (wrB s p off i b) p off = setBit (rd s p off) i b := rd_wr_same _ _ _ _

theorem rd_wrB_ne (s : State) {p off p' off' : Nat} (i : Nat) (b : Bool) (ho : off < 4096) (ho' : off' < 4096) (h : ¬(p' = p ∧ off' = off)) :
    rd (wrB s p off i b) p' off' = rd s p' off' := by rw [wrB, rd_wrF s i i _ ho ho', if_neg h]

/-- Re-arming the bucket's overflow changes no register (R74). -/
theorem lbRearm_regs (s : State) (p : Nat) : (lbRearm s p).com.regs = s.com.regs ∧ (lbRearm s p).com.chip = s.com.chip := by
  unfold lbRearm
  split <;> exact ⟨rfl, rfl⟩

@[simp] theorem rd_lbRearm (s : State) (p q o : Nat) : rd (lbRearm s p) q o = rd s q o := rd_congr (lbRearm_regs s p).1 (lbRearm_regs s p).2 q o

@[simp] theorem inForce_lbRearm (s : State) (p q o : Nat) : inForce (lbRearm s p) q o = inForce s q o := inForce_congr (lbRearm_regs s p).1 (lbRearm_regs s p).2 q o

/-! ### Where the rows stand -/

/-- The class S registers of a page are LB_LIMIT, LB_LEAK and registers of the block (R48). -/
theorem staged_place (k : PageKind) :
    ∀ r ∈ rowsOf k, r.cls = .staged →
      0 < r.stride ∧ (rLB_LIMIT ≤ r.off ∧ r.off + r.count * r.stride ≤ rUNLOCK ∨ 0x100 ≤ r.off ∧ r.off + r.count * r.stride ≤ 4096) := by
  cases k <;> decide

/-- The offset of a class S register. -/
theorem staged_off {k : PageKind} {off : Nat} {r : RegRow} (hr : rowAt? k off = some r) (hs : r.cls = .staged) :
    rLB_LIMIT ≤ off ∧ off < rUNLOCK ∨ 0x100 ≤ off ∧ off < 4096 := by
  have hcov := List.find?_some hr
  have hplace := staged_place k r (List.mem_of_find?_eq_some hr) hs
  simp only [RegRow.covers, Bool.and_eq_true, decide_eq_true_eq] at hcov
  omega

/-- There is one `TOL` page (R45). -/
theorem page_of_tol {ch : Chip} {p : Nat} (h : pageKind? ch p = some .tol) : p = pTOL := by
  simp only [pageKind?, ite_eq_iff, Option.some.injEq, reduceCtorEq, and_false, false_or, and_true, or_false] at h
  unfold pTOL
  omega

theorem row_irqEnable {k : PageKind} (h : k ≠ .tol) : rowAt? k rIRQ_ENABLE = some ⟨rIRQ_ENABLE, 1, 4, .rw, .live, 0xFFFFFFFF, 0, false⟩ := by
  cases k with
  | tol => exact absurd rfl h
  | _ => rfl

theorem row_irqStatus {k : PageKind} (h : k ≠ .tol) : rowAt? k rIRQ_STATUS = some ⟨rIRQ_STATUS, 1, 4, .w1c, .live, 0xFFFFFFFF, 0, false⟩ := by
  cases k with
  | tol => exact absurd rfl h
  | _ => rfl

theorem row_irqForce_writable (k : PageKind) : ∀ r ∈ rowAt? k rIRQ_FORCE, r.acc ≠ .ro := by
  cases k <;> decide

/-- Only a page with staged fields has STAGE_CTRL (R49). -/
theorem row_stageCtrl_writable (k : PageKind) : ∀ r ∈ rowAt? k rSTAGE_CTRL, r.acc ≠ .ro ∧ hasStaged k = true := by
  cases k <;> decide

theorem row_lbCount_writable (k : PageKind) : ∀ r ∈ rowAt? k rLB_COUNT, r.acc ≠ .ro ∧ r.mask = 0xFFFF := by
  cases k <;> decide

theorem row_unlock_writable (k : PageKind) : ∀ r ∈ rowAt? k rUNLOCK, r.acc ≠ .ro := by
  cases k <;> decide

/-- Every register of the `TOL` page is read-only (R50). -/
theorem rows_tol : ∀ r ∈ rowsOf .tol, r.acc = .ro := by decide

/-- The block's own logic has no part in a write of IRQ_ENABLE. -/
theorem blockWrite_irqEnable (s : State) (who : Initiator) (p : Nat) (k : PageKind) (v : Word) (micros : Nat) : blockWrite s who p k rIRQ_ENABLE v micros = s := by
  cases k <;> rfl

/-! ### The effect of a row's write -/

section
variable (s : State) (who : Initiator) (p : Nat) (k : PageKind) (v : Word) (micros : Nat) {r : RegRow}

/-- A write of a class S field changes its staged copy and sets DIRTY (R60). -/
theorem rowWrite_staged {off : Nat} (ha : r.acc = .rw) (hs : r.cls = .staged) (ho : rLB_LIMIT ≤ off ∧ off < rUNLOCK ∨ 0x100 ≤ off ∧ off < 4096) :
    rowWrite s who p k r off v micros = wrB (wr s p off (v &&& r.mask)) p rSTAGE_STATUS 28 true := by
  have hne {o : Nat} (h : o < rLB_LIMIT ∨ o = rUNLOCK) : off ≠ o := by unfold rLB_LIMIT rUNLOCK at *; omega
  simp [rowWrite, ha, hs, hne (o := rIRQ_STATUS) (by decide), hne (o := rIRQ_FORCE) (by decide), hne (o := rSTAGE_CTRL) (by decide), hne (o := rSTAGE_STATUS) (by decide),
    hne (o := rLB_COUNT) (by decide), hne (o := rUNLOCK) (by decide)]

theorem rowWrite_irqEnable : rowWrite s who p k ⟨rIRQ_ENABLE, 1, 4, .rw, .live, 0xFFFFFFFF, 0, false⟩ rIRQ_ENABLE v micros = wr s p rIRQ_ENABLE v := by
  have hself : selfSet k rIRQ_ENABLE = false := by cases k <;> rfl
  have hmask : v &&& 0xFFFFFFFF = v := BitVec.and_allOnes
  have hrow : rowWrite s who p k ⟨rIRQ_ENABLE, 1, 4, .rw, .live, 0xFFFFFFFF, 0, false⟩ rIRQ_ENABLE v micros =
      blockWrite (if selfSet k rIRQ_ENABLE then s else wr s p rIRQ_ENABLE (v &&& 0xFFFFFFFF)) who p k rIRQ_ENABLE (v &&& 0xFFFFFFFF) micros := rfl
  rw [hrow, blockWrite_irqEnable, hself, hmask]
  rfl

/-- A 1 clears its bit of IRQ_STATUS (R51). -/
theorem rowWrite_irqStatus (ha : r.acc ≠ .ro) : rowWrite s who p k r rIRQ_STATUS v micros = wr s p rIRQ_STATUS (rd s p rIRQ_STATUS &&& ~~~v) := by
  simp [rowWrite, ha]

/-- A 1 to IRQ_FORCE sets its bit of IRQ_STATUS (R51). -/
theorem rowWrite_irqForce (ha : r.acc ≠ .ro) : rowWrite s who p k r rIRQ_FORCE v micros = irqMask s p v := by
  simp [rowWrite, ha, rIRQ_STATUS, rIRQ_FORCE]

theorem rowWrite_stageCtrl (ha : r.acc ≠ .ro) : rowWrite s who p k r rSTAGE_CTRL v micros = stageCtrl s who p v := by
  simp [rowWrite, ha, rIRQ_STATUS, rIRQ_FORCE, rSTAGE_CTRL]

theorem rowWrite_lbCount (ha : r.acc ≠ .ro) : rowWrite s who p k r rLB_COUNT v micros = lbRearm (wr s p rLB_COUNT (v &&& r.mask)) p := by
  simp [rowWrite, ha, rIRQ_STATUS, rIRQ_FORCE, rSTAGE_CTRL, rSTAGE_STATUS, rLB_COUNT]

theorem rowWrite_unlock (ha : r.acc ≠ .ro) : rowWrite s who p k r rUNLOCK v micros = unlockWrite s who p v := by
  simp [rowWrite, ha, rIRQ_STATUS, rIRQ_FORCE, rSTAGE_CTRL, rSTAGE_STATUS, rLB_COUNT, rUNLOCK]

/-- A write of a read-only register changes nothing. -/
theorem rowWrite_readOnly {off : Nat} (ha : r.acc = .ro) : rowWrite s who p k r off v micros = s := by simp [rowWrite, ha]

end

/-! ### Writes of the frame's registers that a page takes -/

section
variable {s : State} {who : Initiator} {p : Nat} (v : Word) (hp : p < 4096)
include hp

theorem regWrite_irqEnable (h : takesWrite s who p rIRQ_ENABLE = true) (hn : p ≠ pTOL) :
    regWrite s who p rIRQ_ENABLE v = answer (wr (passes s who (.page p rIRQ_ENABLE)) p rIRQ_ENABLE v) .ack := by
  obtain ⟨k, r, hk, hr, _, heff⟩ := regWrite_of_takes v 0 hp (by decide) h
  have hrow := row_irqEnable (k := k) fun hk' => hn (page_of_tol (hk' ▸ hk))
  rw [heff, Option.some.inj (hr.symm.trans hrow), rowWrite_irqEnable]

theorem regWrite_irqStatus (h : takesWrite s who p rIRQ_STATUS = true) (hn : p ≠ pTOL) :
    regWrite s who p rIRQ_STATUS v = answer (wr (passes s who (.page p rIRQ_STATUS)) p rIRQ_STATUS (rd s p rIRQ_STATUS &&& ~~~v)) .ack := by
  obtain ⟨k, r, hk, hr, _, heff⟩ := regWrite_of_takes v 0 hp (by decide) h
  have hrow := row_irqStatus (k := k) fun hk' => hn (page_of_tol (hk' ▸ hk))
  rw [heff, rowWrite_irqStatus _ _ _ _ _ _ (by rw [Option.some.inj (hr.symm.trans hrow)]; decide), (rd_passes _ _ _ _ _).1]

theorem regWrite_irqForce (h : takesWrite s who p rIRQ_FORCE = true) : regWrite s who p rIRQ_FORCE v = answer (irqMask (passes s who (.page p rIRQ_FORCE)) p v) .ack := by
  obtain ⟨k, r, _, hr, _, heff⟩ := regWrite_of_takes v 0 hp (by decide) h
  rw [heff, rowWrite_irqForce _ _ _ _ _ _ (row_irqForce_writable k r hr)]

theorem regWrite_stageCtrl (h : takesWrite s who p rSTAGE_CTRL = true) : regWrite s who p rSTAGE_CTRL v = answer (stageCtrl (passes s who (.page p rSTAGE_CTRL)) who p v) .ack := by
  obtain ⟨k, r, _, hr, _, heff⟩ := regWrite_of_takes v 0 hp (by decide) h
  rw [heff, rowWrite_stageCtrl _ _ _ _ _ _ (row_stageCtrl_writable k r hr).1]

theorem regWrite_lbCount (h : takesWrite s who p rLB_COUNT = true) :
    regWrite s who p rLB_COUNT v = answer (lbRearm (wr (passes s who (.page p rLB_COUNT)) p rLB_COUNT (v &&& 0xFFFF)) p) .ack := by
  obtain ⟨k, r, _, hr, _, heff⟩ := regWrite_of_takes v 0 hp (by decide) h
  obtain ⟨hacc, hmask⟩ := row_lbCount_writable k r hr
  rw [heff, rowWrite_lbCount _ _ _ _ _ _ hacc, hmask]

theorem regWrite_unlock (h : takesWrite s who p rUNLOCK = true) : regWrite s who p rUNLOCK v = answer (unlockWrite (passes s who (.page p rUNLOCK)) who p v) .ack := by
  obtain ⟨k, r, _, hr, _, heff⟩ := regWrite_of_takes v 0 hp (by decide) h
  rw [heff, rowWrite_unlock _ _ _ _ _ _ (row_unlock_writable k r hr)]

end

/-! ### Writes to the `TOL` page (R50) -/

/-- The page ignores every write: its registers are read-only, and other offsets hold none. -/
theorem pageWrite_tol (s : State) (who : Initiator) (off : Nat) (v : Word) (micros : Nat) : pageWrite s who pTOL off v micros = (s, .ack) := by
  have hk : pageKind? s.com.chip pTOL = some .tol := rfl
  cases hr : rowAt? .tol off with
  | none => simp only [pageWrite, hk, hr]
  | some r =>
    have hro : r.acc = .ro := rows_tol r (List.mem_of_find?_eq_some hr)
    have hcause : pageCause s who pTOL .tol r off = none := by simp [pageCause, hro]
    simp only [pageWrite, hk, hr, hcause, rowWrite_readOnly _ _ _ _ _ _ hro]

/-- Recording a refusal touches the shared part alone. -/
theorem State.AgreeOutside.recordRefusal {ps : List Part} {s t : State} (h : State.AgreeOutside ps s t) (who : Initiator) (page addr cause access : Nat) :
    State.AgreeOutside ps s (recordRefusal t who page addr cause access) :=
  .lbEventAt (.irq (.wr (.wr (.bump (h.logEvent _) _ _ _) _ _ _) _ _ _) _ _) _ _

/-- A write to the `TOL` page changes no register of the page and nothing of the toll meter, whether it is refused, held or carried out (R50). -/
theorem regWrite_tol (s : State) (who : Initiator) {off : Nat} (v : Word) (ho : off < 4096) :
    (regWrite s who pTOL off v).tol = s.tol ∧ ∀ o < 4096, rd (regWrite s who pTOL off v) pTOL o = rd s pTOL o := by
  have ht (s' : State) : targetOf s' (0xF0000000 + pTOL * 4096 + off) = .page pTOL off := targetOf_page s' (by decide) ho
  cases hc : fabricCause s ⟨who, true, 0xF0000000 + pTOL * 4096 + off, 4, bytesLE 4 v.toNat⟩ with
  | some c =>
    rw [regWrite, runAccess_refused [] 0 hc]
    simp only [answer_frame, rd_answer]
    exact ⟨((State.AgreeOutside.refl [] s).recordRefusal who _ _ c 1).tol (by simp),
      fun o ho => (recordRefusal_otherPage s who _ _ c 1 (p := pTOL) (by decide) (by decide) ho).1⟩
  | none =>
    by_cases hh : heldAt s who (.page pTOL off) = none
    · have hserved : regWrite s who pTOL off v = answer (passes s who (.page pTOL off)) .ack := by
        rw [regWrite, runAccess, access_served [] 0 hc (by rw [ht]; exact hh)]
        simp only [ht, serve, pageWrite_tol, if_true]
      rw [hserved]
      exact ⟨rfl, fun _ _ => rfl⟩
    · have hheld : ((heldAt s who (.page pTOL off)).isSome) = true := Option.isSome_iff_ne_none.mpr hh
      simp only [regWrite, runAccess, access, hc, ht, hheld, if_true]
      exact ⟨rfl, fun _ _ => rfl⟩

/-! ### The statement -/

/-- A command that sets one register of a page and no other: the register holds the value and every other one stays. -/
theorem runs_wr {c : Instr} {ps : List Part} {s s' w u : State} {p off : Nat} {v : Word} (he : exec c s = .next (confine ps s w)) (hw : w = u)
    (hs : RegsKept [(p, off)] s s') (hu : u.com.regs = (wr s' p off v).com.regs ∧ u.com.chip = (wr s' p off v).com.chip) (ho : off < 4096) :
    Runs c s fun t => rd t p off = v ∧ RegsKept [(p, off)] s t := by
  obtain ⟨hregs, hchip⟩ := hu
  exact runs_of_effect he hw ⟨(rd_congr hregs hchip p off).trans (rd_wr_same s' p off v), (hs.trans (regsKept_wr s' v ho (by simp))).trans (regsKept_of_eq _ hregs hchip)⟩

/-- A write of a class S field that the page takes sets its staged copy and DIRTY, and nothing else (R60). -/
theorem regWrite_staged {s : State} {who : Initiator} {p off : Nat} {k : PageKind} {r : RegRow} (v : Word) (hp : p < 4096) (ho : off < 4096) (hk : pageKind? s.com.chip p = some k)
    (hr : rowAt? k off = some r) (hs : r.cls = .staged) (ha : r.acc = .rw) (h : takesWrite s who p off = true) :
    regWrite s who p off v = answer (wrB (wr (passes s who (.page p off)) p off (v &&& r.mask)) p rSTAGE_STATUS 28 true) .ack := by
  obtain ⟨k', r', hk', hr', _, heff⟩ := regWrite_of_takes v 0 hp ho h
  obtain rfl := Option.some.inj (hk.symm.trans hk')
  obtain rfl := Option.some.inj (hr.symm.trans hr')
  rw [heff, rowWrite_staged _ _ _ _ _ _ ha hs (staged_off hr hs)]

/-- A write of a class S field that the page takes changes its staged copy and DIRTY, not what is in force (R60). -/
theorem runs_registerWrite_staged {s : State} {who : Initiator} {p off : Nat} {k : PageKind} {r : RegRow} (v : Word) (hp : p < 4096) (hk : pageKind? s.com.chip p = some k)
    (hr : rowAt? k off = some r) (hs : r.cls = .staged) (ha : r.acc = .rw) (h : takesWrite s who p off = true) :
    Runs (.registerWrite who (BitVec.ofNat 48 (0xF0000000 + p * 4096 + off)) .b4 v) s fun t =>
      rd t p off = v &&& r.mask ∧ inForce t p off = inForce s p off ∧ bit (rd t p rSTAGE_STATUS) 28 = true
      ∧ RegsKept [(p, off), (p, rSTAGE_STATUS)] s t ∧ t.com.answer = .ack := by
  have hplace := staged_off hr hs
  have ho : off < 4096 := by unfold rUNLOCK at hplace; omega
  have hne : off ≠ rSTAGE_STATUS := by unfold rLB_LIMIT at hplace; unfold rSTAGE_STATUS; omega
  refine runs_of_effect (exec_registerWrite_page s who v hp ho) (regWrite_staged v hp ho hk hr hs ha h) ?_
  generalize hu : wr (passes s who (.page p off)) p off (v &&& r.mask) = u
  have hkept : RegsKept [(p, off), (p, rSTAGE_STATUS)] s u := by
    rw [← hu]
    exact (regsKept_passes _ s who _).trans (regsKept_wr _ _ ho (by simp))
  refine ⟨?_, ?_, ?_, regsKept_answer _ _ (hkept.trans (regsKept_wr u _ (by decide) (by simp))), rfl⟩
  · rw [(rd_confine ..).1, (rd_answer ..).1, rd_wrB_ne u 28 true (by decide) ho fun h => hne h.2, ← hu, rd_wr_same]
  · rw [(rd_confine ..).2, (rd_answer ..).2, inForce_wrB, ← hu, inForce_wr, (rd_passes ..).2]
  · rw [(rd_confine ..).1, (rd_answer ..).1, rd_wrB_same, bit_setBit_same _ _ (by decide)]

/-- Settles O7: a write that the page takes has the effect of its row alone, and the `TOL` page's rows are read-only. -/
theorem registerWriteEffects : Obligations.RegisterWriteEffects := by
  intro s who page off v
  have hp := page.isLt
  refine ⟨fun k r hk hr hs ha h => runs_registerWrite_staged v hp hk hr hs ha h, fun hn h => ?_, fun hn h => ?_, fun h => ?_, fun h => ?_, fun hn => ?_⟩
  · exact runs_wr (exec_registerWrite_page s who v hp (by decide)) (regWrite_irqEnable v hp h hn) (regsKept_passes _ s who _) ⟨rfl, rfl⟩ (by decide)
  · exact runs_wr rfl (regWrite_irqStatus v hp h hn) (regsKept_passes _ s who _) ⟨rfl, rfl⟩ (by decide)
  · exact runs_wr rfl (regWrite_irqForce v hp h) (regsKept_passes _ s who _) ⟨rfl, rfl⟩ (by decide)
  · exact runs_wr rfl (regWrite_lbCount v hp h) (regsKept_passes _ s who _) (lbRearm_regs _ _) (by decide)
  · refine ⟨_, exec_registerWrite_page s who v hp off.isLt, ?_⟩
    rw [hn]
    exact regWrite_tol s who v off.isLt

end Sys2Proof.Machine

/-! The expert gate and the leak of the bucket: what the two keys, the expiry and the owner's 0 do, and what the leak instants take from LB_COUNT (R56 to R58, R73). -/

namespace Sys2Proof.Machine

/-! ### EXPERT_UNLOCK -/

/-- An initiator number has eight bits (R56, R606). -/
theorem num_lt (who : Initiator) : who.num < 256 := by
  cases who <;> simp only [Initiator.num] <;> omega

/-- The bits of EXPERT_UNLOCK below OWNER (R56). -/
theorem bit_unlock (n : Nat) {b i : Nat} (hb : b < 2 ^ 24) (hi : i < 24) : bit (w32 (n * 2 ^ 24 + b)) i = b.testBit i := by
  rw [bit, w32, BitVec.getLsbD_ofNat, Nat.mul_comm, Nat.testBit_two_pow_mul_add n hb, if_pos hi, decide_eq_true (by omega), Bool.true_and]

/-- OWNER of EXPERT_UNLOCK (R56). -/
theorem fld_unlock {n b : Nat} (hn : n < 256) (hb : b < 2 ^ 24) : fld (w32 (n * 2 ^ 24 + b)) 31 24 = n := by
  rw [fld, w32, BitVec.toNat_ofNat, Nat.mod_eq_of_lt (by omega), Nat.shiftRight_eq_div_pow]
  omega

section
variable {s : State} {who : Initiator} {p : Nat}

/-- The first key arms a locked page for its writer (R57). -/
theorem unlockWrite_arm (h : rd s p rUNLOCK = 0) : unlockWrite s who p (w32 (0x9E1D0000 + p)) =
    putBus (wr s p rUNLOCK (w32 (who.num * 2 ^ 24 + 2))) { s.com.bus with arms := s.com.bus.arms.put p s.com.time } := by
  have h0 : bit (rd s p rUNLOCK) 0 = false := by rw [h]; decide
  have h1 : bit (rd s p rUNLOCK) 1 = false := by rw [h]; decide
  simp [unlockWrite, h0, h1]

/-- The second key in time from the same initiator unlocks the page (R57). -/
theorem unlockWrite_open (h : rd s p rUNLOCK = w32 (who.num * 2 ^ 24 + 2)) (ht : armExpired s p = false) : unlockWrite s who p (w32 (0x61E20000 + p)) =
    putBus (wr s p rUNLOCK (w32 (who.num * 2 ^ 24 + 1))) { s.com.bus with arms := s.com.bus.arms.del p } := by
  have h0 : bit (rd s p rUNLOCK) 0 = false := by rw [h, bit_unlock _ (by decide) (by decide)]; rfl
  have h1 : bit (rd s p rUNLOCK) 1 = true := by rw [h, bit_unlock _ (by decide) (by decide)]; rfl
  have hown : fld (rd s p rUNLOCK) 31 24 = who.num := by rw [h, fld_unlock (num_lt who) (by decide)]
  simp [unlockWrite, hown, h0, h1, ht]

/-- The owner's 0 ends the unlock (R58). -/
theorem unlockWrite_end (h : rd s p rUNLOCK = w32 (who.num * 2 ^ 24 + 1)) : unlockWrite s who p 0 = unlockClear s p := by
  have h0 : bit (rd s p rUNLOCK) 0 = true := by rw [h, bit_unlock _ (by decide) (by decide)]; rfl
  have h1 : bit (rd s p rUNLOCK) 1 = false := by rw [h, bit_unlock _ (by decide) (by decide)]; rfl
  have hown : fld (rd s p rUNLOCK) 31 24 = who.num := by rw [h, fld_unlock (num_lt who) (by decide)]
  simp [unlockWrite, hown, h0, h1]

theorem unlockExpiry_due (h : bit (rd s p rUNLOCK) 1 = true) (ht : armExpired s p = true) : unlockExpiry s p = unlockClear s p := by simp [unlockExpiry, h, ht]

end

/-! ### The leak -/

/-- A write of another register of the page leaves a register alone. -/
theorem rd_wr_otherOff (s : State) (p : Nat) {off o : Nat} (v : Word) (h : o ≠ off) : rd (wr s p off v) p o = rd s p o :=
  rd_wr_ne s v fun hk => h (by unfold regKey at hk; omega)

/-- A leak of a block's own counts, held outside the frame, leaves the frame's registers and the time alone. -/
theorem foldl_wrF_frame (p : Nat) {o : Nat} (hi lo : Nat) (off : Nat → Nat) (v : State → Nat → Nat) (h : ∀ i, o ≠ off i) (l : List Nat) (s : State) :
    rd (l.foldl (fun s i => wrF s p (off i) hi lo (v s i)) s) p o = rd s p o ∧ (l.foldl (fun s i => wrF s p (off i) hi lo (v s i)) s).com.time = s.com.time := by
  induction l generalizing s with
  | nil => exact ⟨rfl, rfl⟩
  | cons i l ih =>
    obtain ⟨hrd, htime⟩ := ih (wrF s p (off i) hi lo (v s i))
    exact ⟨hrd.trans (rd_wr_otherOff s p _ (h i)), htime⟩

section
variable {s a : State} {p n : Nat} {k : PageKind} {elapsed : Nat} (ha : advance s elapsed = a) (hk : pageKind? a.com.chip p = some k) (hb : hasBucket k = true)
    (hn : gridPasses ((inForce a p rLB_LEAK).toNat * 1000) s.com.time.toNat a.com.time.toNat = n)
include ha hk hb hn

/-- The leak of a page's bucket when `n` grid instants have passed and the time is that of `a`: LB_COUNT loses `n`, and the other registers of the frame stay (R73). -/
theorem lbLeak_frame {o : Nat} (ho : o < 0x100) :
    rd (lbLeak s p elapsed) p o = rd (if n = 0 then a else wrF a p rLB_COUNT 15 0 (rdF a p rLB_COUNT 15 0 - n)) p o ∧ (lbLeak s p elapsed).com.time = a.com.time := by
  simp only [lbLeak, ha, hk, hn, hb, Bool.not_true, Bool.false_or, decide_eq_true_eq]
  split
  · exact ⟨rfl, rfl⟩
  · generalize hu : lbRearm (wrF a p rLB_COUNT 15 0 (rdF a p rLB_COUNT 15 0 - n)) p = u
    have hrd : rd u p o = rd (wrF a p rLB_COUNT 15 0 (rdF a p rLB_COUNT 15 0 - n)) p o := by rw [← hu, rd_lbRearm]
    have htime : u.com.time = a.com.time := by rw [← hu, lbRearm]; split <;> rfl
    rw [← hrd, ← htime]
    have hoff {f : Nat} (hf : 0x100 ≤ f) : o ≠ f := by omega
    cases k with
    | dmc => exact ⟨(rd_wr_otherOff _ p _ (hoff (by decide))).trans (rd_wr_otherOff u p _ (hoff (by decide))), rfl⟩
    | fch => exact foldl_wrF_frame p 7 0 _ _ (fun i => hoff (Nat.le_trans (by decide) (Nat.le_add_right FCH_DIE_EVT _))) _ u
    | ncl => exact foldl_wrF_frame p 15 0 _ _ (fun i => hoff (Nat.le_trans (by decide) (Nat.le_add_right NCL_TCM_CE _))) _ u
    | _ => exact ⟨rfl, rfl⟩

/-- The other registers of the frame stay. -/
theorem lbLeak_other {o : Nat} (ho : o < 0x100) (hne : o ≠ rLB_COUNT) : rd (lbLeak s p elapsed) p o = rd a p o := by
  rw [(lbLeak_frame ha hk hb hn ho).1]
  split
  · rfl
  · exact rd_wr_otherOff a p _ hne

/-- LB_COUNT loses one for each grid instant passed, down to 0. -/
theorem lbLeak_count : rdF (lbLeak s p elapsed) p rLB_COUNT 15 0 = rdF a p rLB_COUNT 15 0 - n := by
  have hlt := fld_lt (rd a p rLB_COUNT) 15 0
  unfold rdF
  rw [(lbLeak_frame ha hk hb hn (by decide)).1]
  split
  · omega
  · rw [wrF, rd_wr_same, fld_setFld_same _ _ (by decide), Nat.mod_eq_of_lt (by unfold rdF; omega), rdF]

end

/-! ### The statement -/

/-- What the crossings keep and what is answered are no registers. -/
theorem regs_answer_putBus (s : State) (b : Bus) (a : Answer) : (answer (putBus s b) a).com.regs = s.com.regs ∧ (answer (putBus s b) a).com.chip = s.com.chip := ⟨rfl, rfl⟩

section
variable {s : State} {who : Initiator} {page : BitVec 12} (h : takesWrite s who page.toNat rUNLOCK = true)
include h

theorem runs_expertUnlockArm (hu : rd s page.toNat rUNLOCK = 0) :
    Runs (.expertUnlockArm who page) s fun t => rd t page.toNat rUNLOCK = w32 (who.num * 2 ^ 24 + 2) ∧ RegsKept [(page.toNat, rUNLOCK)] s t := by
  have hw := regWrite_unlock (w32 (0x9E1D0000 + page.toNat)) page.isLt h
  rw [unlockWrite_arm (by rw [(rd_passes ..).1, hu])] at hw
  exact runs_wr rfl hw (regsKept_passes _ s who _) (regs_answer_putBus ..) (by decide)

theorem runs_expertUnlockOpen (hu : rd s page.toNat rUNLOCK = w32 (who.num * 2 ^ 24 + 2)) (ht : armExpired s page.toNat = false) :
    Runs (.expertUnlockOpen who page) s fun t => rd t page.toNat rUNLOCK = w32 (who.num * 2 ^ 24 + 1) ∧ RegsKept [(page.toNat, rUNLOCK)] s t := by
  have hw := regWrite_unlock (w32 (0x61E20000 + page.toNat)) page.isLt h
  rw [unlockWrite_open (by rw [(rd_passes ..).1, hu]) (show armExpired (passes s who _) page.toNat = false from ht)] at hw
  exact runs_wr rfl hw (regsKept_passes _ s who _) (regs_answer_putBus ..) (by decide)

theorem runs_expertUnlockEnd (hu : rd s page.toNat rUNLOCK = w32 (who.num * 2 ^ 24 + 1)) :
    Runs (.expertUnlockEnd who page) s fun t => rd t page.toNat rUNLOCK = 0 ∧ RegsKept [(page.toNat, rUNLOCK)] s t := by
  have hw := regWrite_unlock 0 page.isLt h
  rw [unlockWrite_end (by rw [(rd_passes ..).1, hu]), unlockClear] at hw
  exact runs_wr rfl hw (regsKept_passes _ s who _) (regs_answer_putBus ..) (by decide)

end

theorem runs_expertUnlockExpiry {s : State} {page : BitVec 12} {elapsed : Nat} (hu : bit (rd s page.toNat rUNLOCK) 1 = true)
    (ht : armExpired (advance s elapsed) page.toNat = true) :
    Runs (.expertUnlockExpiry page elapsed) s fun t => rd t page.toNat rUNLOCK = 0 ∧ RegsKept [(page.toNat, rUNLOCK)] s t := by
  have hw := unlockExpiry_due (s := advance s elapsed) (by rw [(rd_advance ..).1, hu]) ht
  exact runs_wr rfl hw (regsKept_of_eq _ (s := s) (t := advance s elapsed) rfl rfl) ⟨rfl, rfl⟩ (by decide)

/-- Settles O11: each case of a write to EXPERT_UNLOCK sets that register alone, and the leak takes the grid instants passed from LB_COUNT alone of the frame. -/
theorem expertGateAndBucketLeak : Obligations.ExpertGateAndBucketLeak := by
  refine ⟨fun s who page elapsed => ?_, fun s page k elapsed => ?_⟩
  · exact ⟨fun h => ⟨runs_expertUnlockArm h, runs_expertUnlockOpen h, runs_expertUnlockEnd h⟩, runs_expertUnlockExpiry⟩
  · intro p leak passed hk hb
    have hread (o : Nat) : rd (advance s elapsed) p o = rd s p o := (rd_advance ..).1
    have hother {o : Nat} (ho : o < 0x100) (hne : o ≠ rLB_COUNT) : rd (lbLeak s p elapsed) p o = rd s p o := (lbLeak_other rfl hk hb rfl ho hne).trans (hread o)
    have hcount : rdF (lbLeak s p elapsed) p rLB_COUNT 15 0 = rdF s p rLB_COUNT 15 0 - passed := (lbLeak_count rfl hk hb rfl).trans (by rw [rdF, hread]; rfl)
    exact ⟨_, rfl, hcount, (lbLeak_frame (o := 0) rfl hk hb rfl (by decide)).2, hother (by decide) (by decide), hother (by decide) (by decide)⟩

end Sys2Proof.Machine

/-! Staged sets: CANCEL, DISCARD, the commit check's outcomes, the apply, and an epoch that does not drain (R60 to R72). -/

namespace Sys2Proof.Machine

/-! ### Writes of STAGE_CTRL -/

theorem toNat_and_three (w : Word) : (w &&& 3#32).toNat = w.toNat % 4 := by
  rw [BitVec.toNat_and]
  exact Nat.and_two_pow_sub_one_eq_mod w.toNat 2

/-- The fields of a STAGE_CTRL value made of one action and an APPLY_MODE (R63). -/
theorem stageCtrl_fields {v w : Word} {n : Nat} (_ : n < 8) (hv : v.toNat = n * 536870912 + w.toNat % 4) : fld v 31 29 = n ∧ fld v 1 0 = fld w 1 0 ∧ v &&& 3 = w &&& 3#32 := by
  refine ⟨?_, ?_, BitVec.eq_of_toNat_eq ?_⟩
  · rw [fld, hv, Nat.shiftRight_eq_div_pow]
    omega
  · rw [fld, fld, hv, Nat.shiftRight_zero, Nat.shiftRight_zero]
    omega
  · rw [toNat_and_three w]
    refine (toNat_and_three v).trans ?_
    omega

/-- An action's bit and an APPLY_MODE do not overlap. -/
theorem toNat_action_add {a w : Word} {n : Nat} (_ : n < 8) (ha : a.toNat = n * 536870912) : (a + (w &&& 3#32)).toNat = n * 536870912 + w.toNat % 4 := by
  rw [BitVec.toNat_add, toNat_and_three, ha]
  omega

/-- The state in which a page carries out an action of a STAGE_CTRL write: the fabric has passed it, and APPLY_MODE is written. -/
def ctrlWritten (s : State) (who : Initiator) (p : Nat) (w : Word) : State := wr (passes s who (.page p rSTAGE_CTRL)) p rSTAGE_CTRL w

/-- The action of a STAGE_CTRL write by its bits [31:29]; more than one at once is ignored (R63). -/
def stageAct (s : State) (who : Initiator) (p mode : Nat) : Nat → State
  | 1 => stageDiscard s p
  | 2 => stageCancel s p
  | 4 => (stageCommit s who p mode).1
  | _ => s

theorem stageCtrl_acts (s : State) (who : Initiator) (p : Nat) {v : Word} (hm : fld v 1 0 ≠ 3) :
    stageCtrl s who p v = stageAct (wr s p rSTAGE_CTRL (v &&& 3)) who p (fld v 1 0) (fld v 31 29) := by
  rw [stageCtrl, if_neg hm]
  rfl

/-- A write of one action, under a mode other than the reserved one, sets APPLY_MODE and acts (R63). -/
theorem regWrite_action {s : State} {who : Initiator} {p n : Nat} {a w : Word} (hp : p < 4096) (h : takesWrite s who p rSTAGE_CTRL = true) (hm : fld w 1 0 ≠ 3)
    (hn : n < 8) (ha : a.toNat = n * 536870912) :
    regWrite s who p rSTAGE_CTRL (a + (w &&& 3#32)) = answer (stageAct (ctrlWritten s who p (w &&& 3#32)) who p (fld w 1 0) n) .ack := by
  obtain ⟨hact, hmode, hlow⟩ := stageCtrl_fields hn (toNat_action_add (w := w) hn ha)
  rw [regWrite_stageCtrl _ hp h, stageCtrl_acts _ _ _ (by rw [hmode]; exact hm), hact, hmode, hlow, ctrlWritten]

theorem ctrlWritten_regs (s : State) (who : Initiator) (p : Nat) (w : Word) : RegsKept [(p, rSTAGE_CTRL)] s (ctrlWritten s who p w) :=
  (regsKept_passes _ s who _).trans (regsKept_wr _ w (by decide) (by simp))

/-- Writing APPLY_MODE leaves STAGE_STATUS alone. -/
theorem rd_ctrlWritten_status (s : State) (who : Initiator) (p : Nat) (w : Word) : rd (ctrlWritten s who p w) p rSTAGE_STATUS = rd s p rSTAGE_STATUS :=
  (rd_wr_otherOff _ p w (by decide)).trans (rd_passes ..).1

@[simp] theorem commitHeld_ctrlWritten (s : State) (who : Initiator) (p : Nat) (w : Word) : commitHeld (ctrlWritten s who p w) p = commitHeld s p := by
  unfold commitHeld
  rw [rd_ctrlWritten_status]

/-! ### CANCEL -/

/-- CANCEL of a waiting commit clears PENDING, ARMED and ADMIT_HELD, and nothing else of the registers but APPLY_MODE is written (R68). -/
theorem runs_stageCancel {s : State} {who : Initiator} {page : BitVec 12} (h : takesWrite s who page.toNat rSTAGE_CTRL = true) (hheld : commitHeld s page.toNat = true)
    (hm : fld (rd s page.toNat rSTAGE_CTRL) 1 0 ≠ 3) :
    Runs (.stageCancel who page) s fun t => rd t page.toNat rSTAGE_STATUS = rd s page.toNat rSTAGE_STATUS &&& 0x3BFFFFFF
      ∧ RegsKept [(page.toNat, rSTAGE_STATUS), (page.toNat, rSTAGE_CTRL)] s t := by
  have hw : _ = answer (stageCancel (ctrlWritten s who page.toNat (rd s page.toNat rSTAGE_CTRL &&& 3#32)) page.toNat) .ack :=
    regWrite_action (n := 2) (a := 0x40000000#32) page.isLt h hm (by decide) rfl
  rw [stageCancel, commitHeld_ctrlWritten, if_pos hheld, cancelCommit, rd_ctrlWritten_status] at hw
  refine runs_of_effect rfl hw ⟨?_, regsKept_answer _ _ ?_⟩
  · rw [(rd_confine ..).1, (rd_answer ..).1, rd_wr_same]
  · exact ((ctrlWritten_regs s who _ _).mono (by simp)).trans (regsKept_wr _ _ (by decide) (by simp))

/-! ### The staged set of a page -/

/-- The class S registers lie inside the page and are none of the frame's registers below LB_LIMIT (R48). -/
theorem stagedOffs_place {k : PageKind} {o : Nat} (h : o ∈ stagedOffs k) : rLB_LIMIT ≤ o ∧ o < 4096 := by
  simp only [stagedOffs, List.mem_flatMap, List.mem_filter, beq_iff_eq, RegRow.offs, List.mem_map, List.mem_range] at h
  obtain ⟨r, ⟨hr, hs⟩, i, hi, rfl⟩ := h
  obtain ⟨hpos, hplace⟩ := staged_place k r hr hs
  have hstep : (i + 1) * r.stride ≤ r.count * r.stride := Nat.mul_le_mul_right _ hi
  rw [Nat.add_mul, Nat.one_mul] at hstep
  unfold rLB_LIMIT rUNLOCK at *
  omega

/-- A class S register is not a register of the frame below LB_LIMIT. -/
theorem stagedOffs_ne {k : PageKind} {o o' : Nat} (h : o ∈ stagedOffs k) (ho : o' < rLB_LIMIT) : o ≠ o' := by
  have := stagedOffs_place h
  omega

theorem inForce_wrForce (s : State) {p off p' off' : Nat} (v : Word) (ho : off < 4096) (ho' : off' < 4096) :
    inForce (wrForce s p off v) p' off' = if p' = p ∧ off' = off then v else inForce s p' off' := by
  by_cases h : p' = p ∧ off' = off
  · obtain ⟨rfl, rfl⟩ := h
    by_cases hv : v = resetAt s.com.chip p' off' <;> simp [inForce, wrForce, Tab.putD, hv]
  · simp only [inForce, wrForce, if_neg h, Tab.get?_putD_ne _ _ _ fun hk => h (regKey_inj hk ho ho')]

/-- Putting staged copies in force changes no staged copy. -/
theorem rd_foldl_wrForce (p q o : Nat) (l : List Nat) (s : State) : rd (l.foldl (fun s o => wrForce s p o (rd s p o)) s) q o = rd s q o := by
  induction l generalizing s with
  | nil => rfl
  | cons a l ih => rw [List.foldl_cons, ih, rd_wrForce]

/-- Each staged copy of a list is put in force (R67). -/
theorem inForce_foldl_wrForce (p : Nat) {l : List Nat} (hl : ∀ o ∈ l, o < 4096) {o : Nat} (ho : o < 4096) (s : State) :
    inForce (l.foldl (fun s o => wrForce s p o (rd s p o)) s) p o = if o ∈ l then rd s p o else inForce s p o := by
  induction l generalizing s with
  | nil => rfl
  | cons a l ih =>
    rw [List.foldl_cons, ih (fun o h => hl o (List.mem_cons_of_mem a h)), rd_wrForce, inForce_wrForce s _ (hl a List.mem_cons_self) ho]
    by_cases hm : o ∈ l
    · simp [hm]
    · by_cases ha : o = a <;> simp [hm, ha]

/-- Each staged copy of a list returns to its in-force value (R61). -/
theorem rd_foldl_wr (p : Nat) {l : List Nat} (hl : ∀ o ∈ l, o < 4096) {o : Nat} (ho : o < 4096) (s : State) :
    rd (l.foldl (fun s o => wr s p o (inForce s p o)) s) p o = if o ∈ l then inForce s p o else rd s p o := by
  induction l generalizing s with
  | nil => rfl
  | cons a l ih =>
    rw [List.foldl_cons, ih (fun o h => hl o (List.mem_cons_of_mem a h)), inForce_wr, rd_wr s _ (hl a List.mem_cons_self) ho]
    by_cases hm : o ∈ l
    · simp [hm]
    · by_cases ha : o = a <;> simp [hm, ha]

theorem inForce_foldl_wr (p q o : Nat) (l : List Nat) (s : State) : inForce (l.foldl (fun s o => wr s p o (inForce s p o)) s) q o = inForce s q o := by
  induction l generalizing s with
  | nil => rfl
  | cons a l ih => rw [List.foldl_cons, ih, inForce_wr]

/-! ### DISCARD -/

/-- A page that takes a write of STAGE_CTRL has staged fields (R49). -/
theorem hasStaged_of_takes {s : State} {who : Initiator} {p : Nat} {k : PageKind} (hk : pageKind? s.com.chip p = some k)
    (h : takesWrite s who p rSTAGE_CTRL = true) : hasStaged k = true := by
  obtain ⟨_, k', r, hk', hr, _⟩ := (takesWrite_iff s who p rSTAGE_CTRL).mp h
  obtain rfl := Option.some.inj (hk.symm.trans hk')
  exact (row_stageCtrl_writable k r hr).2

/-- DISCARD returns every staged copy to its in-force value and clears DIRTY (R61). -/
theorem runs_stageDiscard {s : State} {who : Initiator} {page : BitVec 12} {k : PageKind} (hk : pageKind? s.com.chip page.toNat = some k)
    (h : takesWrite s who page.toNat rSTAGE_CTRL = true) (hfree : commitHeld s page.toNat = false) (hm : fld (rd s page.toNat rSTAGE_CTRL) 1 0 ≠ 3) :
    Runs (.stageDiscard who page) s fun t => (∀ off ∈ stagedOffs k, rd t page.toNat off = inForce s page.toNat off)
      ∧ bit (rd t page.toNat rSTAGE_STATUS) 28 = false ∧ ∀ q o, inForce t q o = inForce s q o := by
  have hw : _ = answer (stageDiscard (ctrlWritten s who page.toNat (rd s page.toNat rSTAGE_CTRL &&& 3#32)) page.toNat) .ack :=
    regWrite_action (n := 1) (a := 0x20000000#32) page.isLt h hm (by decide) rfl
  generalize hu : ctrlWritten s who page.toNat (rd s page.toNat rSTAGE_CTRL &&& 3#32) = u at hw
  have hku : pageKind? u.com.chip page.toNat = some k := by rw [← hu]; exact hk
  have hforce (q o : Nat) : inForce u q o = inForce s q o := by rw [← hu, ctrlWritten, inForce_wr, (rd_passes ..).2]
  have hnot : (!hasStaged k || commitHeld u page.toNat) = false := by rw [hasStaged_of_takes hk h, ← hu, commitHeld_ctrlWritten, hfree]; rfl
  simp only [stageDiscard, hku, hnot, Bool.false_eq_true, if_false] at hw
  refine runs_of_effect rfl hw ⟨fun off ho => ?_, ?_, fun q o => ?_⟩
  · have hlt := (stagedOffs_place ho).2
    rw [(rd_confine ..).1, (rd_answer ..).1, rd_wrB_ne _ 28 false (by decide) hlt fun hne => stagedOffs_ne ho (by decide) hne.2,
      rd_foldl_wr _ (fun o h => (stagedOffs_place h).2) hlt, if_pos ho, hforce]
  · rw [(rd_confine ..).1, (rd_answer ..).1, rd_wrB_same, bit_setBit_same _ _ (by decide)]
  · rw [(rd_confine ..).2, (rd_answer ..).2, inForce_wrB, inForce_foldl_wr, hforce]

/-! ### FAULT and the page's interrupt -/

/-- Setting an interrupt bit clears none (R51). -/
theorem bit_irqStatus_irq {s : State} {p i : Nat} (q j : Nat) (h : bit (rd s p rIRQ_STATUS) i = true) : bit (rd (irq s q j) p rIRQ_STATUS) i = true := by
  by_cases hq : p = q
  · subst hq
    rw [rd_irq, bit_or, h, Bool.true_or]
  · rw [irq, irqMask, rd_wr _ _ (by decide) (by decide), if_neg fun hn => hq hn.1, h]

/-- Logging an event clears no interrupt bit. -/
theorem bit_irqStatus_logEvent {s : State} {p i : Nat} (v : LogEvent) (h : bit (rd s p rIRQ_STATUS) i = true) : bit (rd (logEvent s v) p rIRQ_STATUS) i = true := by
  have hpush (q : LogItem) : bit (rd (logPush s q) p rIRQ_STATUS) i = true := by
    unfold logPush
    split
    · exact h
    · refine bit_irqStatus_irq pFLT 4 ?_
      rw [bump, rd_wr _ _ (by decide) (by decide), if_neg fun hn => absurd hn.2 (by decide), h]
  unfold logEvent
  split <;> exact hpush _

/-- A fault of a page shows its class, and one of another class than CONFIG sets IRQ_STATUS.FAULT (R51, R52). -/
theorem setFault_shows (s : State) {p : Nat} (hp : p < 4096) (c : FClass) (cause unit : Nat) :
    rdF (setFault s p c cause unit) p rFAULT 31 28 = c.code ∧ (c ≠ .config → bit (rd (setFault s p c cause unit) p rIRQ_STATUS) 28 = true) := by
  have hcode : c.code < 16 := by cases c <;> decide
  constructor
  · have hlog := (logEvent_regs (writeFault s p c cause unit) { kind := kFAULT, cls := c.code, page := p, cause := cause, unit := unit } p rFAULT hp (by decide)
      (by simp [logRegs, rFAULT, FLT_LOG_LOST, rIRQ_STATUS])).1
    have hval : rd (writeFault s p c cause unit) p rFAULT = w32 (c.code * 2 ^ 28 + (cause % 4096) * 65536 + unit % 65536) := by
      unfold writeFault
      split
      · exact rd_wr_same _ _ _ _
      · rw [irq, irqMask, rd_wr_otherOff _ _ _ (by decide), rd_wr_same]
    rw [rdF, setFault, hlog, hval, fld, w32, BitVec.toNat_ofNat, Nat.shiftRight_eq_div_pow]
    omega
  · intro hc
    refine bit_irqStatus_logEvent _ ?_
    rw [writeFault, if_neg hc, rd_irq, bit_or, bit_oneBit (by decide), Bool.or_true]

/-- A fault of a page leaves a register alone that is not FAULT, IRQ_STATUS or LOG_LOST. -/
theorem rd_setFault_status (s : State) {p : Nat} (hp : p < 4096) (c : FClass) (cause unit : Nat) : rd (setFault s p c cause unit) p rSTAGE_STATUS = rd s p rSTAGE_STATUS :=
  (setFault_regs s p c cause unit p rSTAGE_STATUS hp (by decide) (by simp [bucketRegs, logRegs, rSTAGE_STATUS, rLB_COUNT, rIRQ_STATUS, rFAULT, FLT_LOG_LOST])).1

/-! ### The drain bound -/

theorem drainBound_advance (s : State) (p ns : Nat) : drainBound (advance s ns) p = drainBound s p := rfl

theorem drainOverrun_late {s : State} {p b : Nat} {since : Count} (hlive : olderLive s p = true) (hb : drainBound s p = some b) (hd : s.com.bus.drains.get? p = some since)
    (h : b ≤ (s.com.time - since).toNat) :
    drainOverrun s p = setFault (putBus s { s.com.bus with drains := s.com.bus.drains.del p }) p .drainOverrun (Config.blockCause 28) 0 := by
  simp only [drainOverrun, hb, hd, hlive, decide_eq_true h, Bool.and_self, if_true]

/-- An epoch that has not drained in time leaves CLASS DRAIN_OVERRUN and its interrupt, and STAGE_STATUS stays (R72). -/
theorem runs_drainOverrun {s : State} {page : BitVec 12} {elapsed b : Nat} {since : Count} (hup : pageUp s page.toNat = true) (hlive : olderLive s page.toNat = true)
    (hb : drainBound s page.toNat = some b) (hd : s.com.bus.drains.get? page.toNat = some since) (h : b ≤ ((advance s elapsed).com.time - since).toNat) :
    Runs (.drainOverrun page elapsed) s fun t =>
      fld (rd t page.toNat rFAULT) 31 28 = 7 ∧ bit (rd t page.toNat rIRQ_STATUS) 28 = true ∧ rd t page.toNat rSTAGE_STATUS = rd s page.toNat rSTAGE_STATUS := by
  have hw : whenUp page.toNat (fun s => drainOverrun s page.toNat) (advance s elapsed) = _ :=
    (if_pos hup).trans (drainOverrun_late (s := advance s elapsed) hlive ((drainBound_advance ..).trans hb) hd h)
  obtain ⟨hclass, hirq⟩ := setFault_shows (putBus (advance s elapsed) { s.com.bus with drains := s.com.bus.drains.del page.toNat }) page.isLt .drainOverrun (Config.blockCause 28) 0
  refine runs_of_effect rfl hw ⟨hclass, hirq (by decide), ?_⟩
  exact (rd_setFault_status _ page.isLt .drainOverrun _ 0).trans (rd_advance s elapsed _ _).1

/-- Settles O10: CANCEL writes STAGE_STATUS alone, DISCARD the staged copies, and an overrun is a fault that leaves the waiting commit alone. -/
theorem cancelDiscardOverrun : Obligations.CancelDiscardOverrun := by
  intro s who page k elapsed p hk
  exact ⟨fun h hheld hm => runs_stageCancel h hheld hm, fun h hfree hm => runs_stageDiscard hk h hfree hm, fun b since hup hlive hb hd h => runs_drainOverrun hup hlive hb hd h⟩

end Sys2Proof.Machine

/-! The commit: what a COMMIT that fails its check leaves, what an apply puts in force, and when a waiting set applies (R65 to R68). -/

namespace Sys2Proof.Machine

/-! ### The apply (R67, R68) -/

/-- STAGE_STATUS after an apply: the next epoch, nothing waiting, the set clean, and LATE when the apply was late. -/
def appliedStatus (w : Word) (late : Bool) : Word :=
  let st := setFld (w &&& 0x2BFFFFFF) 15 0 (fld (w &&& 0x2BFFFFFF) 15 0 + 1)
  if late then setBit st 27 true else st

theorem fld_appliedStatus (w : Word) (late : Bool) : fld (appliedStatus w late) 15 0 = (fld w 15 0 + 1) % 65536 := by
  have hmask : fld (w &&& 0x2BFFFFFF) 15 0 = fld w 15 0 := fld_and (by decide)
  have hst : fld (setFld (w &&& 0x2BFFFFFF) 15 0 (fld w 15 0 + 1)) 15 0 = (fld w 15 0 + 1) % 65536 := fld_setFld_same _ _ (by decide)
  simp only [appliedStatus, hmask]
  split
  · exact (fld_setFld_out _ _ (by decide) (by decide)).trans hst
  · exact hst

/-- A bit above the epoch that the apply clears. -/
theorem bit_appliedStatus (w : Word) (late : Bool) {i : Nat} (h : 15 < i) (h' : i ≠ 27) (hm : bit 0x2BFFFFFF i = false) : bit (appliedStatus w late) i = false := by
  have hst (n : Nat) : bit (setFld (w &&& 0x2BFFFFFF) 15 0 n) i = false := by rw [bit_setFld_out _ _ (by decide) (by omega), bit_and, hm, Bool.and_false]
  simp only [appliedStatus]
  split
  · exact (bit_setFld_out _ _ (by decide) (by omega)).trans (hst _)
  · exact hst _

/-- Every staged copy of the page is put in force. -/
def copiedInForce (s : State) (p : Nat) (k : PageKind) : State := (stagedOffs k).foldl (fun s o => wrForce s p o (rd s p o)) s

/-- The units in flight belong to the older epoch, whose drain is timed (R70, R71). -/
def epochTurned (s : State) (p : Nat) : State :=
  let live := (epochsOf s p).older + (epochsOf s p).newest
  let t := setEpochs s p ⟨live, 0⟩
  putBus t { t.com.bus with
    timed := t.com.bus.timed.filter (· != p), drains := if live = 0 then t.com.bus.drains.del p else t.com.bus.drains.put p t.com.time }

/-- Pages of R67 and R68 alone have no effect of their own at an apply. -/
theorem applied_plain {old s : State} {p : Nat} {k : PageKind} (hk : pageKind? s.com.chip p = some k) (hplain : plainApply k = true) : applied old s p = s := by
  rw [applied, hk]
  cases k with
  | sgl | nqe | map | str | ncl | dis | cvn | cle | spn => exact absurd hplain (by decide)
  | _ => rfl

theorem chip_copiedInForce (s : State) (p : Nat) (k : PageKind) : (copiedInForce s p k).com.chip = s.com.chip := by
  unfold copiedInForce
  induction stagedOffs k generalizing s with
  | nil => rfl
  | cons a l ih => exact ih _

theorem chip_epochTurned (s : State) (p : Nat) : (epochTurned s p).com.chip = s.com.chip := by simp only [epochTurned, putBus_frame, setEpochs_frame]

/-- An apply on a page without effects of its own, in the order of R67 and R68: the copies, the epochs, STAGE_STATUS and the interrupt. -/
theorem stageApply_plain {s : State} {p : Nat} {k : PageKind} (late : Bool) (hk : pageKind? s.com.chip p = some k) (hplain : plainApply k = true) :
    let u := epochTurned (copiedInForce s p k) p
    stageApply s p late = lbRearm (irq (wr u p rSTAGE_STATUS (appliedStatus (rd u p rSTAGE_STATUS) late)) p 30) p := by
  intro u
  have hchip : u.com.chip = s.com.chip := (chip_epochTurned ..).trans (chip_copiedInForce s p k)
  have heq : stageApply s p late = applied s (lbRearm (irq (wr u p rSTAGE_STATUS (appliedStatus (rd u p rSTAGE_STATUS) late)) p 30) p) p := by
    simp only [stageApply, hk]
    rfl
  rw [heq, applied_plain (k := k) ?_ hplain]
  rw [(lbRearm_regs ..).2]
  exact (congrArg (fun c => pageKind? c p) hchip).trans hk

/-- Counting work units changes DRAINING and LIVE_EPOCHS alone of the registers (R64). -/
theorem setEpochs_regs (s : State) (p : Nat) (e : Epochs) : RegsKept [(p, rSTATUS), (p, rSTAGE_STATUS)] s (setEpochs s p e) := by
  refine RegsKept.trans ?_ (regsKept_wr _ _ (by decide) (by simp))
  exact RegsKept.trans (regsKept_of_eq _ rfl rfl) (regsKept_wr _ _ (by decide) (by simp))

theorem regsKept_putBus (l : List (Nat × Nat)) (s : State) (b : Bus) : RegsKept l s (putBus s b) := regsKept_of_eq l rfl rfl

theorem epochTurned_regs (s : State) (p : Nat) : RegsKept [(p, rSTATUS), (p, rSTAGE_STATUS)] s (epochTurned s p) := (setEpochs_regs s p _).trans (regsKept_putBus _ _ _)

/-- Turning the epoch leaves APPLIED_EPOCH to the apply. -/
theorem epochNow_epochTurned (s : State) (p : Nat) : epochNow (epochTurned s p) p = epochNow s p := by
  unfold epochNow rdF epochTurned setEpochs
  dsimp only
  rw [(rd_putBus ..).1, wrF, rd_wr_same, fld_setFld_out _ _ (by decide) (by decide), wrB, wrF, rd_wr_otherOff _ _ _ (by decide)]
  rfl

/-- After an apply on a page without effects of its own, the staged set is in force under the next epoch (R67, R68). -/
theorem setApplied_stageApply {s : State} {p : Nat} {k : PageKind} (late : Bool) (hp : p < 4096) (hk : pageKind? s.com.chip p = some k) (hplain : plainApply k = true) :
    SetApplied s (stageApply s p late) p k := by
  rw [stageApply_plain late hk hplain]
  generalize hc : copiedInForce s p k = c
  have hcopy (o : Nat) : rd c p o = rd s p o := by rw [← hc, copiedInForce, rd_foldl_wrForce]
  generalize hu : epochTurned c p = u
  have hkept : RegsKept [(p, rSTATUS), (p, rSTAGE_STATUS)] c u := hu ▸ epochTurned_regs c p
  have hepoch : epochNow u p = epochNow s p := by
    rw [← hu, epochNow_epochTurned]
    exact congrArg (fld · 15 0) (hcopy rSTAGE_STATUS)
  generalize ht : lbRearm (irq (wr u p rSTAGE_STATUS (appliedStatus (rd u p rSTAGE_STATUS) late)) p 30) p = t
  have hstatus : rd t p rSTAGE_STATUS = appliedStatus (rd u p rSTAGE_STATUS) late := by
    rw [← ht, rd_lbRearm, irq, irqMask, rd_wr_otherOff _ _ _ (by decide), rd_wr_same]
  have hclear {i : Nat} (h : 15 < i) (h' : i ≠ 27) (hm : bit 0x2BFFFFFF i = false) : bit (rd t p rSTAGE_STATUS) i = false := hstatus ▸ bit_appliedStatus _ late h h' hm
  refine ⟨fun off ho => ?_, ?_, hclear (by decide) (by decide) (by decide), hclear (by decide) (by decide) (by decide), hclear (by decide) (by decide) (by decide),
    hclear (by decide) (by decide) (by decide), ?_⟩
  · have hlt := (stagedOffs_place ho).2
    have hne {o : Nat} (h : o < rLB_LIMIT) := stagedOffs_ne ho h
    obtain ⟨hrd, hforce⟩ := hkept p off hp hlt (by simp [hne (o := rSTATUS) (by decide), hne (o := rSTAGE_STATUS) (by decide)])
    constructor
    · rw [← ht, inForce_lbRearm, inForce_irq, inForce_wr, hforce, ← hc, copiedInForce, inForce_foldl_wrForce p (fun o h => (stagedOffs_place h).2) hlt, if_pos ho]
    · rw [← ht, rd_lbRearm, irq, irqMask, rd_wr_otherOff _ _ _ (hne (by decide)), rd_wr_otherOff _ _ _ (hne (by decide)), hrd, hcopy]
  · rw [epochNow, rdF, hstatus, fld_appliedStatus]
    exact congrArg (fun n => (n + 1) % 65536) hepoch
  · rw [← ht, rd_lbRearm, rd_irq, bit_or, bit_oneBit (by decide), Bool.or_true]

/-- The same set and the same epoch are in force, from whichever state before the apply they are taken. -/
theorem SetApplied.of_agree {s u t : State} {p : Nat} {k : PageKind} (h : SetApplied u t p k) (hset : ∀ off ∈ stagedOffs k, rd u p off = rd s p off)
    (hepoch : epochNow u p = epochNow s p) : SetApplied s t p k := by
  obtain ⟨hforce, hnext, hbits⟩ := h
  exact ⟨fun off ho => hset off ho ▸ hforce off ho, hepoch ▸ hnext, hbits⟩

/-- What a command answers holds an applied set as its effect does. -/
theorem SetApplied.confine {s t u : State} {p : Nat} {k : PageKind} (ps : List Part) (h : SetApplied s t p k) : SetApplied s (confine ps u t) p k := h

theorem SetApplied.answer {s t : State} {p : Nat} {k : PageKind} (a : Answer) (h : SetApplied s t p k) : SetApplied s (answer t a) p k := h

end Sys2Proof.Machine

/-! COMMIT and the instants at which a waiting set applies: each outcome of the check and of the apply mode (R65 to R68). -/

namespace Sys2Proof.Machine

/-! ### The outcomes of a COMMIT -/

/-- REJECT and REJECT_CODE clear before the check (R65). -/
def rejectCleared (s : State) (p : Nat) : State := wr s p rSTAGE_STATUS (setFld (rd s p rSTAGE_STATUS &&& 0xDFFFFFFF) 19 16 0)

theorem checking_eq (s : State) (who : Initiator) (p mode : Nat) : checking s who p mode = rejectCleared (ctrlWritten s who p (w32 mode)) p := rfl

/-- The instant of a timed set that has applied is forgotten. -/
def untimed (s : State) (p : Nat) : State := putBus s { s.com.bus with timed := s.com.bus.timed.filter (· != p) }

section
variable {s : State} (who : Initiator) {p mode : Nat} (hfree : commitHeld s p = false)
include hfree

theorem stageCommit_rejected {code unit : Nat} (h : commitReject (rejectCleared s p) p mode = some (code, unit)) :
    (stageCommit s who p mode).1 =
      irq (setFault (wr (rejectCleared s p) p rSTAGE_STATUS (setFld (setBit (rd (rejectCleared s p) p rSTAGE_STATUS) 29 true) 19 16 code)) p .config code unit) p 29 := by
  unfold rejectCleared at *
  simp only [stageCommit, hfree, h, Bool.false_eq_true, if_false]

/-- In immediate mode a set that passes its check applies, or waits for the older epoch (R67). -/
theorem stageCommit_immediate (h : commitReject (rejectCleared s p) p 0 = none) (hdirty : bit (rd (rejectCleared s p) p rSTAGE_STATUS) 28 = true) :
    (stageCommit s who p 0).1 = if olderLive s p then stagePend (untimed (rejectCleared s p) p) p false else stageApply (untimed (rejectCleared s p) p) p false := by
  have hlive : olderLive (untimed (rejectCleared s p) p) p = olderLive s p := rfl
  unfold rejectCleared at *
  unfold untimed at *
  simp only [stageCommit, hfree, h, hdirty, hlive, Bool.false_eq_true, if_false, Bool.not_true]
  split <;> rfl

/-- At a time a set that passes its check waits as ARMED (R67). -/
theorem stageCommit_timed (h : commitReject (rejectCleared s p) p 2 = none) (hdirty : bit (rd (rejectCleared s p) p rSTAGE_STATUS) 28 = true) :
    (stageCommit s who p 2).1 = wrB (untimed (rejectCleared s p) p) p rSTAGE_STATUS 30 true := by
  unfold rejectCleared at *
  simp only [stageCommit, hfree, h, hdirty, Bool.false_eq_true, if_false, Bool.not_true]
  rfl

end

/-- A COMMIT under a mode other than the reserved one is a commit at the page. -/
theorem exec_stageCommit {s : State} {who : Initiator} {page : BitVec 12} {mode : BitVec 2} (h : takesWrite s who page.toNat rSTAGE_CTRL = true) (hm : mode ≠ 3) :
    exec (.stageCommit who page mode) s =
      .next (confine allParts s (answer (stageCommit (ctrlWritten s who page.toNat (w32 mode.toNat)) who page.toNat mode.toNat).1 .ack)) := by
  have hword : mode.setWidth 32 &&& 3#32 = mode.setWidth 32 ∧ mode.setWidth 32 = w32 mode.toNat ∧ fld (mode.setWidth 32) 1 0 = mode.toNat := by
    revert mode
    decide
  obtain ⟨hmask, hw, hmode⟩ := hword
  have hwrite := regWrite_action (n := 4) (a := 0x80000000#32) (w := mode.setWidth 32) page.isLt h (by rw [hmode]; exact fun h3 => hm (BitVec.eq_of_toNat_eq h3)) (by decide) rfl
  rw [hmode, hmask] at hwrite
  rw [← hw]
  exact congrArg (fun u => Host.Outcome.next (confine allParts s u)) hwrite

/-! ### What the check leaves alone -/

/-- The check writes APPLY_MODE and STAGE_STATUS alone (R63, R65). -/
theorem checking_regs (s : State) (who : Initiator) (p mode : Nat) : RegsKept [(p, rSTAGE_CTRL), (p, rSTAGE_STATUS)] s (checking s who p mode) :=
  ((ctrlWritten_regs s who p (w32 mode)).mono (by simp)).trans (regsKept_wr _ _ (by decide) (by simp))

theorem rd_checking_status (s : State) (who : Initiator) (p mode : Nat) : rd (checking s who p mode) p rSTAGE_STATUS = setFld (rd s p rSTAGE_STATUS &&& 0xDFFFFFFF) 19 16 0 := by
  rw [checking_eq, rejectCleared, rd_wr_same, rd_ctrlWritten_status]

/-- Clearing REJECT_CODE leaves every bit outside it and REJECT alone. -/
theorem bit_checking_status (s : State) (who : Initiator) (p mode : Nat) {i : Nat} (h : i < 16 ∨ 19 < i) (hm : bit 0xDFFFFFFF i = true) :
    bit (rd (checking s who p mode) p rSTAGE_STATUS) i = bit (rd s p rSTAGE_STATUS) i := by
  rw [rd_checking_status, bit_setFld_out _ _ (by decide) (by omega), bit_and, hm, Bool.and_true]

theorem epochNow_checking (s : State) (who : Initiator) (p mode : Nat) : epochNow (checking s who p mode) p = epochNow s p := by
  rw [epochNow, rdF, rd_checking_status, fld_setFld_out _ _ (by decide) (by decide), fld_and (by decide)]
  rfl

theorem inForce_checking (s : State) (who : Initiator) (p mode q o : Nat) : inForce (checking s who p mode) q o = inForce s q o := by
  rw [checking_eq, rejectCleared, inForce_wr, ctrlWritten, inForce_wr, (rd_passes ..).2]

/-- A fault puts nothing in force. -/
theorem inForce_setFault (s : State) (p : Nat) (c : FClass) (cause unit q o : Nat) : inForce (setFault s p c cause unit) q o = inForce s q o := by
  have hpush (u : State) (e : LogItem) : inForce (logPush u e) q o = inForce u q o := by
    unfold logPush
    split
    · rfl
    · rw [inForce_irq, inForce_bump]
  have hlog (u : State) (v : LogEvent) : inForce (logEvent u v) q o = inForce u q o := by
    unfold logEvent
    split <;> exact hpush u _
  rw [setFault, hlog, writeFault]
  split
  · exact inForce_wr ..
  · rw [inForce_irq, inForce_wr]

/-! ### Each outcome of STAGE_COMMIT -/

section
variable {s : State} {who : Initiator} {page : BitVec 12} {k : PageKind} (h : takesWrite s who page.toNat rSTAGE_CTRL = true) (hfree : commitHeld s page.toNat = false)
include h hfree

/-- A set that fails its check leaves its code and the interrupt, and what is in force stays (R65). -/
theorem runs_stageCommit_rejected {mode : BitVec 2} {code unit : Nat} (hm : mode ≠ 3)
    (hrej : commitReject (checking s who page.toNat mode.toNat) page.toNat mode.toNat = some (code, unit)) (hcode : code ≤ 7) :
    Runs (.stageCommit who page mode) s fun t =>
      bit (rd t page.toNat rSTAGE_STATUS) 29 = true ∧ rdF t page.toNat rSTAGE_STATUS 19 16 = code ∧ bit (rd t page.toNat rIRQ_STATUS) 29 = true
      ∧ epochNow t page.toNat = epochNow s page.toNat ∧ ∀ q o, inForce t q o = inForce s q o := by
  refine ⟨_, exec_stageCommit h hm, ?_⟩
  rw [stageCommit_rejected (s := ctrlWritten s who page.toNat (w32 mode.toNat)) who (by rw [commitHeld_ctrlWritten, hfree]) hrej, ← checking_eq]
  have hepoch := epochNow_checking s who page.toNat mode.toNat
  have hforce := inForce_checking s who page.toNat mode.toNat
  generalize checking s who page.toNat mode.toNat = c at hepoch hforce
  generalize ht : irq (setFault (wr c page.toNat rSTAGE_STATUS (setFld (setBit (rd c page.toNat rSTAGE_STATUS) 29 true) 19 16 code)) page.toNat .config code unit) page.toNat 29 = t
  have hstatus : rd t page.toNat rSTAGE_STATUS = setFld (setBit (rd c page.toNat rSTAGE_STATUS) 29 true) 19 16 code := by
    rw [← ht, irq, irqMask, rd_wr_otherOff _ _ _ (by decide), rd_setFault_status _ page.isLt, rd_wr_same]
  have hbit : bit (rd t page.toNat rSTAGE_STATUS) 29 = true := by rw [hstatus, bit_setFld_out _ _ (by decide) (by decide), bit_setBit_same _ _ (by decide)]
  have hfld : rdF t page.toNat rSTAGE_STATUS 19 16 = code := by
    rw [rdF, hstatus, fld_setFld_same _ _ (by decide)]
    omega
  have hirq : bit (rd t page.toNat rIRQ_STATUS) 29 = true := by rw [← ht, rd_irq, bit_or, bit_oneBit (by decide), Bool.or_true]
  have hnow : epochNow t page.toNat = epochNow s page.toNat := by
    rw [← hepoch, epochNow, rdF, hstatus, fld_setFld_out _ _ (by decide) (by decide), setBit, fld_setFld_out _ _ (by decide) (by decide)]
    rfl
  have hsame (q o : Nat) : inForce t q o = inForce s q o := by rw [← ht, inForce_irq, inForce_setFault, inForce_wr, hforce]
  exact ⟨hbit, hfld, hirq, hnow, hsame⟩

section
variable (hok : commitReject (checking s who page.toNat 0) page.toNat 0 = none) (hdirty : bit (rd s page.toNat rSTAGE_STATUS) 28 = true)
include hok hdirty

/-- A dirty set that passes its check in immediate mode applies, or waits for the older epoch. -/
theorem exec_stageCommit_immediate :
    let u := untimed (checking s who page.toNat 0) page.toNat
    exec (.stageCommit who page 0) s =
      .next (confine allParts s (answer (if olderLive s page.toNat then stagePend u page.toNat false else stageApply u page.toNat false) .ack)) := by
  have hdirty' := (bit_checking_status s who page.toNat 0 (i := 28) (by decide) (by decide)).trans hdirty
  have heq := stageCommit_immediate (s := ctrlWritten s who page.toNat (w32 0)) who (by rw [commitHeld_ctrlWritten, hfree]) hok hdirty'
  exact (exec_stageCommit h (by decide)).trans (congrArg (fun u => Host.Outcome.next (confine allParts s (answer u .ack))) heq)

/-- With no older epoch in flight, a dirty set that passes its check applies at once (R67). -/
theorem runs_stageCommit_now (hk : pageKind? s.com.chip page.toNat = some k) (hplain : plainApply k = true) (hlive : olderLive s page.toNat = false) :
    Runs (.stageCommit who page 0) s fun t => SetApplied s t page.toNat k := by
  refine ⟨_, exec_stageCommit_immediate h hfree hok hdirty, ?_⟩
  rw [hlive, if_neg (by decide)]
  refine SetApplied.confine allParts (SetApplied.answer .ack ?_)
  refine (setApplied_stageApply (s := untimed (checking s who page.toNat 0) page.toNat) false page.isLt hk hplain).of_agree (fun off ho => ?_) ?_
  · have hne {o : Nat} (h : o < rLB_LIMIT) := stagedOffs_ne ho h
    exact (checking_regs s who page.toNat 0 page.toNat off page.isLt (stagedOffs_place ho).2 (by simp [hne (o := rSTAGE_CTRL) (by decide), hne (o := rSTAGE_STATUS) (by decide)])).1
  · exact epochNow_checking s who page.toNat 0

/-- While the older epoch has work, a dirty set that passes its check waits as PENDING (R67). -/
theorem runs_stageCommit_pending (hlive : olderLive s page.toNat = true) :
    Runs (.stageCommit who page 0) s fun t => bit (rd t page.toNat rSTAGE_STATUS) 31 = true ∧ ∀ q o, inForce t q o = inForce s q o := by
  refine ⟨_, exec_stageCommit_immediate h hfree hok hdirty, ?_⟩
  rw [hlive, if_pos rfl]
  have hforce := inForce_checking s who page.toNat 0
  generalize checking s who page.toNat 0 = c at hforce
  refine ⟨?_, fun q o => ?_⟩
  · rw [(rd_confine ..).1, (rd_answer ..).1, stagePend, if_neg (by decide), rd_wrB_same, bit_setBit_same _ _ (by decide)]
  · rw [(rd_confine ..).2, (rd_answer ..).2, stagePend, if_neg (by decide), inForce_wrB, inForce_wrB, untimed, (rd_putBus ..).2, hforce]

end

/-- A timed set that passes its check waits as ARMED (R67). -/
theorem runs_stageCommit_armed (hok : commitReject (checking s who page.toNat 2) page.toNat 2 = none) (hdirty : bit (rd s page.toNat rSTAGE_STATUS) 28 = true) :
    Runs (.stageCommit who page 2) s fun t => bit (rd t page.toNat rSTAGE_STATUS) 30 = true ∧ ∀ q o, inForce t q o = inForce s q o := by
  refine ⟨_, exec_stageCommit h (by decide), ?_⟩
  have hdirty' := (bit_checking_status s who page.toNat 2 (i := 28) (by decide) (by decide)).trans hdirty
  rw [show (2 : BitVec 2).toNat = 2 from rfl, stageCommit_timed (s := ctrlWritten s who page.toNat (w32 2)) who (by rw [commitHeld_ctrlWritten, hfree]) hok hdirty', ← checking_eq]
  refine ⟨?_, fun q o => ?_⟩
  · rw [(rd_confine ..).1, (rd_answer ..).1, rd_wrB_same, bit_setBit_same _ _ (by decide)]
  · rw [(rd_confine ..).2, (rd_answer ..).2, inForce_wrB, untimed, (rd_putBus ..).2, inForce_checking]

end

/-! ### When a waiting set applies -/

/-- A PENDING set applies when the older epoch has drained (R67). -/
theorem runs_epochDrained {s : State} {page : BitVec 12} {k : PageKind} (hk : pageKind? s.com.chip page.toNat = some k) (hplain : plainApply k = true)
    (hup : pageUp s page.toNat = true) (hlive : olderLive s page.toNat = false) (hpend : bit (rd s page.toNat rSTAGE_STATUS) 31 = true)
    (hheld : bit (rd s page.toNat rSTAGE_STATUS) 26 = false) : Runs (.epochDrained page) s fun t => SetApplied s t page.toNat k := by
  have hw : whenUp page.toNat (fun s => epochDrained s page.toNat) s = stageApply s page.toNat (s.com.bus.timed.contains page.toNat) := by
    simp only [whenUp, hup, if_true, epochDrained, hpend, hheld, hlive, Bool.not_true, Bool.false_or, Bool.false_eq_true, if_false]
  exact runs_of_effect rfl hw (.confine allParts (setApplied_stageApply _ page.isLt hk hplain))

/-- An ARMED set applies when the count has reached APPLY_TIME, rounded up to 8 ns (R67, R81). -/
theorem runs_applyTimeReached {s : State} {page : BitVec 12} {k : PageKind} {elapsed : Nat} (hk : pageKind? s.com.chip page.toNat = some k) (hplain : plainApply k = true)
    (hup : pageUp s page.toNat = true) (hlive : olderLive s page.toNat = false) (harmed : bit (rd s page.toNat rSTAGE_STATUS) 30 = true)
    (htime : round8 (applyTime s page.toNat) ≤ (advance s elapsed).com.time.toNat) : Runs (.applyTimeReached page elapsed) s fun t => SetApplied s t page.toNat k := by
  generalize ha : advance s elapsed = a at htime
  have hread (o : Nat) : rd a page.toNat o = rd s page.toNat o := by rw [← ha, (rd_advance ..).1]
  have hup' : pageUp a page.toNat = true := by rw [← ha]; exact hup
  have hlive' : olderLive a page.toNat = false := by rw [← ha]; exact hlive
  have hk' : pageKind? a.com.chip page.toNat = some k := by rw [← ha]; exact hk
  have hreached : applyTime a page.toNat = applyTime s page.toNat := by rw [applyTime, hread, hread, applyTime]
  have hw : whenUp page.toNat (fun s => applyTimeReached s page.toNat) a = stageApply a page.toNat (decide (round8 (applyTime s page.toNat) + 8 ≤ a.com.time.toNat)) := by
    have hdue : decide (a.com.time.toNat < round8 (applyTime s page.toNat)) = false := decide_eq_false (Nat.not_lt.mpr htime)
    simp only [whenUp, hup', if_true, applyTimeReached, hreached, hread, harmed, hlive', hdue, Bool.not_true, Bool.or_self, Bool.false_eq_true, if_false]
  subst ha
  refine runs_of_effect rfl hw (.confine allParts ?_)
  exact (setApplied_stageApply _ page.isLt hk' hplain).of_agree (fun off _ => hread off) (congrArg (fld · 15 0) (hread rSTAGE_STATUS))

/-- Settles O9: the check leaves the staged set and what is in force alone, so a rejected or waiting set puts nothing in force and an apply puts the staged copies in force. -/
theorem commitAndApply : Obligations.CommitAndApply := by
  intro s who page k elapsed p hk
  refine ⟨fun h hfree => ⟨fun mode code unit hm hrej _ hcode => runs_stageCommit_rejected h hfree hm hrej hcode, fun hplain hok hdirty => ?_, runs_stageCommit_armed h hfree⟩,
    fun hplain hup hlive => ⟨runs_epochDrained hk hplain hup hlive, runs_applyTimeReached hk hplain hup hlive⟩⟩
  exact ⟨runs_stageCommit_now h hfree hok hdirty hk hplain, runs_stageCommit_pending h hfree hok hdirty⟩

end Sys2Proof.Machine

/-! One idle nanosecond of the sandglass (R77). -/

namespace Sys2Proof.Machine

/-- Within one nanosecond no part of an offset is slewed away: SLEW_LIMIT is a nine-bit number of parts per million (R82). -/
theorem advance_one (s : State) : advance s 1 = { s with com := { s.com with time := s.com.time + 1 } } := by
  have hlimit := fld_lt (inForce s pSGL SGL_SLEW_LIMIT) 8 0
  have hroom : 1 * inF s pSGL SGL_SLEW_LIMIT 8 0 / 1000000 = 0 := Nat.div_eq_of_lt (by unfold inF; omega)
  have hslew : clampInt (-((0 : Nat) : Int)) ((0 : Nat) : Int) s.com.slew = 0 := by unfold clampInt; omega
  have htime : BitVec.ofNat 64 ((s.com.time.toNat : Int) + (1 : Nat) - 0).toNat = s.com.time + 1 := by
    apply BitVec.eq_of_toNat_eq
    rw [BitVec.toNat_ofNat, BitVec.toNat_add]
    simp
  simp only [advance, hroom, hslew, htime]
  rw [Int.sub_zero]

/-- Settles O2: a step on an empty queue advances the sandglass by one nanosecond, in which nothing is slewed. -/
theorem idleStepTicks : Obligations.IdleStepTicks := by
  intro s h
  have hidle : step s = .next (advance s 1) := by simp only [step, h]
  rw [hidle, advance_one]

end Sys2Proof.Machine

/-! Snapshot orders: what an order shows in the registers of the sandglass and what it leaves alone (R95, R100, R104). -/

namespace Sys2Proof.Machine

/-- The registers in which the sandglass shows the newest snapshot order (R86). -/
def orderRegs : List (Nat × Nat) := [(pSGL, SGL_SNAP_SEQ_CUR), (pSGL, SGL_SNAP_TAG), (pSGL, SGL_SNAP_T_LO), (pSGL, SGL_SNAP_T_HI)]

theorem orderSnapshot_regs (s : State) (t : Nat) (tag : Word) : RegsKept orderRegs s (orderSnapshot s t tag).1 := by
  have hseq (v : Word) : RegsKept orderRegs s (wr s pSGL SGL_SNAP_SEQ_CUR v) := regsKept_wr _ _ (by decide) (by decide)
  have htag := (hseq (w32 (((rd s pSGL SGL_SNAP_SEQ_CUR).toNat + 1) % 2 ^ 32))).trans (regsKept_wr (off := SGL_SNAP_TAG) (p := pSGL) _ tag (by decide) (by decide))
  have hlo := htag.trans (regsKept_wr (off := SGL_SNAP_T_LO) (p := pSGL) _ (lo32 (BitVec.ofNat 64 t)) (by decide) (by decide))
  exact hlo.trans (regsKept_wr (off := SGL_SNAP_T_HI) (p := pSGL) _ (hi32 (BitVec.ofNat 64 t)) (by decide) (by decide))

/-- An order leaves the count, its slewing, the edges missed and the launch table alone. -/
theorem orderSnapshot_frame (s : State) (t : Nat) (tag : Word) :
    (orderSnapshot s t tag).1.com.slew = s.com.slew ∧ (orderSnapshot s t tag).1.com.time = s.com.time
      ∧ (orderSnapshot s t tag).1.sgl.syncMissed = s.sgl.syncMissed ∧ (orderSnapshot s t tag).1.sgl.entries = s.sgl.entries := by
  simp only [orderSnapshot, wr_frame, and_self]

/-- An order takes the next SNAP_SEQ and shows its tag and its time. -/
theorem orderSnapshot_shows (s : State) (t : Nat) (tag : Word) :
    rd (orderSnapshot s t tag).1 pSGL SGL_SNAP_SEQ_CUR = rd s pSGL SGL_SNAP_SEQ_CUR + 1 ∧ rd (orderSnapshot s t tag).1 pSGL SGL_SNAP_TAG = tag
      ∧ rd (orderSnapshot s t tag).1 pSGL SGL_SNAP_T_LO = lo32 (BitVec.ofNat 64 t) ∧ rd (orderSnapshot s t tag).1 pSGL SGL_SNAP_T_HI = hi32 (BitVec.ofNat 64 t) := by
  have hnext : w32 (((rd s pSGL SGL_SNAP_SEQ_CUR).toNat + 1) % 2 ^ 32) = rd s pSGL SGL_SNAP_SEQ_CUR + 1 := by
    apply BitVec.eq_of_toNat_eq
    simp [w32, BitVec.toNat_add]
  have hread (o : Nat) : rd (orderSnapshot s t tag).1 pSGL o =
      rd (wr (wr (wr (wr s pSGL SGL_SNAP_SEQ_CUR (rd s pSGL SGL_SNAP_SEQ_CUR + 1)) pSGL SGL_SNAP_TAG tag) pSGL SGL_SNAP_T_LO (lo32 (BitVec.ofNat 64 t))) pSGL SGL_SNAP_T_HI
        (hi32 (BitVec.ofNat 64 t))) pSGL o := by
    rw [← hnext]
    rfl
  simp (disch := decide) only [hread, rd_wr_otherOff, rd_wr_same, and_self]

end Sys2Proof.Machine

/-! Disciplining the sandglass: reads of TIME_LO, the correction of a measured offset, and the loss of the source (R79, R82 to R84). -/

namespace Sys2Proof.Machine

/-! ### TIME_LO (R79) -/

theorem takesRead_reaches {s : State} {who : Initiator} {p off : Nat} (h : takesRead s who p off = true) : reaches s who p off = true := by
  unfold takesRead at h
  exact (Bool.and_eq_true .. ▸ h).1

/-- A read of TIME_LO answers the low count and keeps the high half for its initiator. -/
theorem pageRead_timeLo (s : State) (who : Initiator) :
    pageRead s who pSGL SGL_TIME_LO = ({ s with sgl := { s.sgl with hiHold := s.sgl.hiHold.put (arbKey who) (hi32 s.com.time) } }, lo32 s.com.time) := by
  have hk : pageKind? s.com.chip pSGL = some .sgl := rfl
  have hr : rowAt? .sgl SGL_TIME_LO = some ⟨SGL_TIME_LO, 1, 4, .ro, .none, 0xFFFFFFFF, 0, false⟩ := rfl
  simp only [pageRead, hk, hr, blockRead, if_true]

theorem runs_timeLoRead {s : State} {who : Initiator} (h : takesRead s who pSGL SGL_TIME_LO = true) :
    Runs (.timeLoRead who) s fun t =>
      t.com.answer = .data (bytesLE 4 (lo32 s.com.time).toNat) ∧ t.sgl.hiHold.get? (arbKey who) = some (hi32 s.com.time) ∧ t.com.time = s.com.time := by
  refine runs_of_effect rfl (regRead_of_reaches (by decide) (by decide) (takesRead_reaches h)) ?_
  rw [pageRead_timeLo]
  exact ⟨rfl, Tab.get?_put_same _ _ _, rfl⟩

/-! ### One measured offset (R82) -/

/-- The bits of a word after one of them is set. -/
theorem bit_setBit (w : Word) {i : Nat} (j : Nat) (b : Bool) (h : i < 32) : bit (setBit w i b) j = if j = i then b else bit w j := by
  split
  next hj => subst hj; exact bit_setBit_same w b h
  next hj => exact bit_setFld_out w _ h (by omega)

/-- STEP_THRESH in force, in ns. -/
def stepThresh (s : State) : Int := (inF s pSGL SGL_STEP_THRESH 19 0 * 1000 : Nat)

/-- What a measured offset writes before it corrects the count: OFFSET, and in DISC_STATUS a source that is not lost and LOCKED. -/
def measured (s : State) (off : Int) : State :=
  wrB (wrB (wr s pSGL SGL_OFFSET (w32 (toField 32 (clampInt (-(2 ^ 31 - 1)) (2 ^ 31 - 1) off)))) pSGL SGL_DISC_STATUS 3 false) pSGL SGL_DISC_STATUS 0 true

theorem rd_measured (s : State) (off : Int) :
    rd (measured s off) pSGL SGL_OFFSET = w32 (toField 32 (clampInt (-(2 ^ 31 - 1)) (2 ^ 31 - 1) off))
      ∧ rd (measured s off) pSGL SGL_DISC_STATUS = setBit (setBit (rd s pSGL SGL_DISC_STATUS) 3 false) 0 true := by
  unfold measured
  constructor
  · rw [rd_wrB_ne _ _ _ (by decide) (by decide) (by decide), rd_wrB_ne _ _ _ (by decide) (by decide) (by decide), rd_wr_same]
  · rw [rd_wrB_same, rd_wrB_same, rd_wr_otherOff _ _ _ (by decide)]

/-- An offset within the threshold is slewed away. -/
theorem discipline_within {s : State} {off : Int} (hlo : -stepThresh s ≤ off) (hhi : off ≤ stepThresh s) :
    discipline s off = wrB { measured s off with com := { (measured s off).com with slew := off } } pSGL SGL_DISC_STATUS 2 false := by
  have hstep : ¬(stepThresh s ≠ 0 ∧ off < -stepThresh s) := fun h => absurd hlo (by omega)
  have hahead : ¬(stepThresh s < off) := by omega
  unfold stepThresh at hstep hahead
  unfold discipline
  dsimp only
  rw [if_neg hstep, if_neg hahead]
  rfl

/-- A sandglass behind its source by more than the threshold steps forward. -/
theorem discipline_behind {s : State} {off : Int} (hne : stepThresh s ≠ 0) (hlt : off < -stepThresh s) :
    discipline s off =
      irq (wrB (wrB { stepForward (measured s off) (-off).toNat with com := { (stepForward (measured s off) (-off).toNat).com with slew := 0 } }
        pSGL SGL_DISC_STATUS 1 true) pSGL SGL_DISC_STATUS 2 false) pSGL 0 := by
  unfold discipline
  dsimp only
  rw [if_pos ⟨hne, hlt⟩]
  rfl

/-- After an offset within the threshold: it is stored and slewed away, the sandglass is locked to its source, and the count does not step (R82). -/
theorem discipline_slews {s : State} {off : Int} (hlo : -stepThresh s ≤ off) (hhi : off ≤ stepThresh s) :
    (discipline s off).com.slew = off ∧ (discipline s off).com.time = s.com.time ∧ (discipline s off).sgl = s.sgl
      ∧ rd (discipline s off) pSGL SGL_OFFSET = w32 (toField 32 (clampInt (-(2 ^ 31 - 1)) (2 ^ 31 - 1) off))
      ∧ bit (rd (discipline s off) pSGL SGL_DISC_STATUS) 0 = true ∧ bit (rd (discipline s off) pSGL SGL_DISC_STATUS) 3 = false
      ∧ bit (rd (discipline s off) pSGL SGL_DISC_STATUS) 2 = false := by
  obtain ⟨hoff, hdisc⟩ := rd_measured s off
  rw [discipline_within hlo hhi]
  generalize hm : measured s off = m at hoff hdisc
  have hstatus : rd (wrB { m with com := { m.com with slew := off } } pSGL SGL_DISC_STATUS 2 false) pSGL SGL_DISC_STATUS =
      setBit (setBit (setBit (rd s pSGL SGL_DISC_STATUS) 3 false) 0 true) 2 false := by
    rw [rd_wrB_same, ← hdisc]
    rfl
  rw [hstatus, rd_wrB_ne _ _ _ (by decide) (by decide) (by decide)]
  refine ⟨rfl, by rw [← hm]; rfl, by rw [← hm]; rfl, hoff, ?_, ?_, ?_⟩ <;> simp [bit_setBit]

/-- After a step: the count is forward by the offset, nothing is slewed, STEPPED and its interrupt are set (R82). -/
theorem discipline_steps {s : State} {off : Int} (hne : stepThresh s ≠ 0) (hlt : off < -stepThresh s) :
    (discipline s off).com.time = s.com.time + BitVec.ofNat 64 (-off).toNat ∧ (discipline s off).com.slew = 0
      ∧ bit (rd (discipline s off) pSGL SGL_DISC_STATUS) 1 = true ∧ bit (rd (discipline s off) pSGL rIRQ_STATUS) 0 = true := by
  rw [discipline_behind hne hlt]
  refine ⟨rfl, rfl, ?_, ?_⟩
  · rw [irq, irqMask, rd_wr_otherOff _ _ _ (by decide), rd_wrB_same, rd_wrB_same]
    simp [bit_setBit]
  · rw [rd_irq, bit_or, bit_oneBit (by decide), Bool.or_true]

/-- With its source lost the sandglass runs free: SRC_LOST and its interrupt are set and LOCKED is clear (R83, R84). -/
theorem sourceLost_shows (s : State) :
    bit (rd (sourceLost s) pSGL SGL_DISC_STATUS) 3 = true ∧ bit (rd (sourceLost s) pSGL SGL_DISC_STATUS) 0 = false
      ∧ bit (rd (sourceLost s) pSGL rIRQ_STATUS) 1 = true ∧ (sourceLost s).sgl = s.sgl := by
  have hstatus : rd (sourceLost s) pSGL SGL_DISC_STATUS = setBit (setBit (rd s pSGL SGL_DISC_STATUS) 3 true) 0 false := by
    rw [sourceLost, irq, irqMask, rd_wr_otherOff _ _ _ (by decide), rd_wrB_same, rd_wrB_same]
    rfl
  rw [hstatus]
  refine ⟨by simp [bit_setBit], by simp [bit_setBit], ?_, rfl⟩
  rw [sourceLost, rd_irq, bit_or, bit_oneBit (by decide), Bool.or_true]

/-! ### The PTM dialogue (R83) -/

/-- A dialogue that measures an offset notes it at the port and ends the count of failures. -/
def ptmNoted (s : State) (port : Port) : State :=
  { wrB s (pHF port) HF_PTM_STATUS 1 true with sgl := { (wrB s (pHF port) HF_PTM_STATUS 1 true).sgl with ptmFailed := 0 } }

/-- A dialogue of the selected port that measures an offset disciplines the sandglass by it. -/
theorem ptmDialogue_measures {s : State} {port : Port} (o : Int) (linkOut : Bool) (hsrc : discSrc s = if port then 2 else 1) :
    ptmDialogue s port (some o) linkOut = discipline (ptmNoted s port) o := by
  unfold ptmDialogue
  rw [if_neg (not_not.mpr hsrc)]
  rfl

section
variable {s : State} {port : Port} {elapsed : Nat} {o : Int} {linkOut : Bool} (hup : pageUp s pSGL = true) (hsrc : discSrc s = if port then 2 else 1)
include hup hsrc

theorem effect_ptmDialogue :
    whenUp pSGL (fun s => ptmDialogue s port (some o) linkOut) (advance s elapsed) = discipline (ptmNoted (advance s elapsed) port) o :=
  (if_pos hup).trans (ptmDialogue_measures o linkOut hsrc)

theorem runs_ptmDialogue_slews (hlo : -stepThresh s ≤ o) (hhi : o ≤ stepThresh s) (hmin : -(2 ^ 31 : Int) < o) (hmax : o < 2 ^ 31) :
    Runs (.ptmDialogue port elapsed (some o) linkOut) s fun t =>
      t.com.slew = o ∧ t.com.time = (advance s elapsed).com.time ∧ rd t pSGL SGL_OFFSET = w32 (toField 32 o)
      ∧ bit (rd t pSGL SGL_DISC_STATUS) 0 = true ∧ bit (rd t pSGL SGL_DISC_STATUS) 3 = false ∧ bit (rd t pSGL SGL_DISC_STATUS) 2 = false ∧ t.sgl.ptmFailed = 0 := by
  obtain ⟨hslew, htime, hsgl, hoff, hlocked, hlost, hahead⟩ := discipline_slews (s := ptmNoted (advance s elapsed) port) hlo hhi
  have hsat : clampInt (-(2 ^ 31 - 1)) (2 ^ 31 - 1) o = o := by unfold clampInt; omega
  rw [hsat] at hoff
  exact runs_of_effect rfl (effect_ptmDialogue hup hsrc) ⟨hslew, htime, hoff, hlocked, hlost, hahead, congrArg Sandglass.ptmFailed hsgl⟩

theorem runs_ptmDialogue_steps (hne : stepThresh s ≠ 0) (hlt : o < -stepThresh s) :
    Runs (.ptmDialogue port elapsed (some o) linkOut) s fun t =>
      t.com.time = (advance s elapsed).com.time + BitVec.ofNat 64 (-o).toNat ∧ t.com.slew = 0
      ∧ bit (rd t pSGL SGL_DISC_STATUS) 1 = true ∧ bit (rd t pSGL rIRQ_STATUS) 0 = true :=
  runs_of_effect rfl (effect_ptmDialogue hup hsrc) (discipline_steps (s := ptmNoted (advance s elapsed) port) hne hlt)

end

/-! ### SPAN_SYNC (R84) -/

/-- What an edge of the selected input measures: the distance of the captured count from the nearest whole millisecond. -/
def syncOffset (s : State) : Int := msOffset ((s.com.time.toNat : Int) - sgn 16 (inF s pSGL SGL_SYNC_COMP 15 0))

/-- An edge of the selected input ends the count of missing edges and disciplines the sandglass. -/
theorem syncEdge_measures {s : State} (hsrc : discSrc s = 3) : syncEdge s = discipline { s with sgl := { s.sgl with syncMissed := 0 } } (syncOffset s) := by
  unfold syncEdge
  rw [if_neg (not_not.mpr hsrc)]
  rfl

/-- An edge orders a snapshot or none; an order leaves the discipline of the sandglass alone (R562). -/
theorem spanEdge_discipline (s : State) (width : Nat) :
    (spanEdge s width).com.slew = (syncEdge s).com.slew ∧ (spanEdge s width).com.time = (syncEdge s).com.time
      ∧ rd (spanEdge s width) pSGL SGL_DISC_STATUS = rd (syncEdge s) pSGL SGL_DISC_STATUS ∧ (spanEdge s width).sgl.syncMissed = (syncEdge s).sgl.syncMissed := by
  unfold spanEdge
  generalize syncEdge s = u
  dsimp only
  split
  · obtain ⟨hslew, htime, hmissed, _⟩ := orderSnapshot_frame u (ceilMs (u.com.time.toNat + 1)) (w32 (genLow (spanDesc u).gen))
    exact ⟨hslew, htime, (orderSnapshot_regs u _ _ pSGL SGL_DISC_STATUS (by decide) (by decide) (by decide)).1, hmissed⟩
  · exact ⟨rfl, rfl, rfl, rfl⟩

theorem runs_spanSyncEdge {s : State} {elapsed : Nat} (width : Nat) (hsrc : discSrc s = 3) (hlo : -stepThresh s ≤ syncOffset (advance s elapsed))
    (hhi : syncOffset (advance s elapsed) ≤ stepThresh s) :
    Runs (.spanSyncEdge elapsed width) s fun t =>
      t.com.slew = syncOffset (advance s elapsed) ∧ t.com.time = (advance s elapsed).com.time ∧ bit (rd t pSGL SGL_DISC_STATUS) 0 = true ∧ t.sgl.syncMissed = 0 := by
  obtain ⟨hslew, htime, hsgl, _, hlocked, _, _⟩ := discipline_slews (s := { advance s elapsed with sgl := { s.sgl with syncMissed := 0 } }) hlo hhi
  have hedge := syncEdge_measures (s := advance s elapsed) hsrc
  rw [show (advance s elapsed).sgl = s.sgl from rfl] at hedge
  rw [← hedge] at hslew htime hsgl hlocked
  obtain ⟨hslew', htime', hstatus', hmissed'⟩ := spanEdge_discipline (advance s elapsed) width
  refine ⟨_, rfl, hslew'.trans hslew, htime'.trans htime, ?_, hmissed'.trans (congrArg Sandglass.syncMissed hsgl)⟩
  rw [(rd_confine ..).1, hstatus', hlocked]

theorem runs_spanSyncMissing {s : State} {elapsed : Nat} (hup : pageUp s pSGL = true) (hsrc : discSrc s = 3) (hmissed : s.sgl.syncMissed = 2) :
    Runs (.spanSyncMissing elapsed) s fun t =>
      bit (rd t pSGL SGL_DISC_STATUS) 3 = true ∧ bit (rd t pSGL SGL_DISC_STATUS) 0 = false ∧ bit (rd t pSGL rIRQ_STATUS) 1 = true ∧ t.sgl.syncMissed = 3 := by
  have hlost : syncMissing (advance s elapsed) = sourceLost { advance s elapsed with sgl := { s.sgl with syncMissed := 3 } } := by
    unfold syncMissing
    rw [if_neg (not_not.mpr (show discSrc (advance s elapsed) = 3 from hsrc))]
    simp [hmissed]
  obtain ⟨hsrcLost, hlocked, hirq, hsgl⟩ := sourceLost_shows { advance s elapsed with sgl := { s.sgl with syncMissed := 3 } }
  exact runs_of_effect rfl ((if_pos hup).trans hlost) ⟨hsrcLost, hlocked, hirq, congrArg Sandglass.syncMissed hsgl⟩

/-- Settles O14: a measured offset is slewed away or stepped by its size alone, whichever source measures it. -/
theorem sandglassDiscipline : Obligations.SandglassDiscipline := by
  intro s who port elapsed o linkOut now thresh
  exact ⟨runs_timeLoRead, fun hup hsrc => ⟨runs_ptmDialogue_slews hup hsrc, runs_ptmDialogue_steps hup hsrc⟩, fun width => runs_spanSyncEdge width, runs_spanSyncMissing⟩

end Sys2Proof.Machine

/-! The launch window: what a write of ENTRY_OP leaves in the launch table and in the window (R88, R91). -/

namespace Sys2Proof.Machine

/-! ### Writes of a write-only register of a block -/

/-- A write of a write-only register that keeps nothing does what the block does with the defined bits (R8, R9). -/
theorem rowWrite_operation (s : State) (who : Initiator) {p off : Nat} {k : PageKind} {r : RegRow} (v : Word) (micros : Nat) (ha : r.acc = .wo)
    (hkept : keptWo k off = false) (ho : 0x100 ≤ off) : rowWrite s who p k r off v micros = blockWrite s who p k off (v &&& r.mask) micros := by
  have hne {o : Nat} (h : o < 0x100) : off ≠ o := by omega
  simp [rowWrite, ha, hkept, hne (o := rIRQ_STATUS) (by decide), hne (o := rIRQ_FORCE) (by decide), hne (o := rSTAGE_CTRL) (by decide), hne (o := rSTAGE_STATUS) (by decide),
    hne (o := rLB_COUNT) (by decide), hne (o := rUNLOCK) (by decide)]

/-- The same of a write that the page takes. -/
theorem regWrite_operation {s : State} {who : Initiator} {p off : Nat} {k : PageKind} {r : RegRow} (v : Word) (hp : p < 4096) (ho : 0x100 ≤ off) (ho' : off < 4096)
    (hk : pageKind? s.com.chip p = some k) (hr : rowAt? k off = some r) (ha : r.acc = .wo) (hkept : keptWo k off = false) (h : takesWrite s who p off = true) :
    regWrite s who p off v = answer (blockWrite (passes s who (.page p off)) who p k off (v &&& r.mask) 0) .ack := by
  obtain ⟨k', r', hk', hr', _, heff⟩ := regWrite_of_takes v 0 hp ho' h
  obtain rfl := Option.some.inj (hk.symm.trans hk')
  obtain rfl := Option.some.inj (hr.symm.trans hr')
  rw [heff, rowWrite_operation _ who v 0 ha hkept ho]

/-- A write of ENTRY_OP that the page takes is the operation of its low three bits. -/
theorem regWrite_entryOp {s : State} {who : Initiator} (v : Word) (h : takesWrite s who pLCH LCH_ENTRY_OP = true) :
    regWrite s who pLCH LCH_ENTRY_OP v = answer (entryOp (passes s who (.page pLCH LCH_ENTRY_OP)) (fld v 2 0)) .ack := by
  have hop : fld (v &&& 7) 2 0 = fld v 2 0 := fld_and (by decide)
  have hwrite := regWrite_operation v (k := .lch) (r := ⟨LCH_ENTRY_OP, 1, 4, .wo, .live, 7, 0, false⟩) (by decide) (by decide) (by decide) rfl rfl rfl rfl h
  rw [hwrite, ← hop]
  rfl

/-! ### The launch table -/

@[simp] theorem entryOf_putEntry_same (s : State) (i : Nat) (e : LaunchEntry) : entryOf (putEntry s i e) i = e := Tab.getD_putD_same _ _ _ _

theorem entryOf_putEntry_ne (s : State) {i j : Nat} (e : LaunchEntry) (h : j ≠ i) : entryOf (putEntry s i e) j = entryOf s j := Tab.getD_putD_ne _ _ _ _ h

/-- The registers that follow the launch table (R89). -/
def launchRegs : List (Nat × Nat) := [(pLCH, LCH_ARMED_COUNT), (pLCH, LCH_NEXT_LO), (pLCH, LCH_NEXT_HI)]

/-- Showing the table in its registers changes the table and every other register not at all. -/
theorem refreshLaunch_keeps (s : State) : (refreshLaunch s).sgl = s.sgl ∧ RegsKept launchRegs s (refreshLaunch s) := by
  have hnext (u : State) (lo hi : Word) : RegsKept launchRegs u (wr (wr u pLCH LCH_NEXT_LO lo) pLCH LCH_NEXT_HI hi) :=
    (regsKept_wr _ _ (by decide) (by decide)).trans (regsKept_wr _ _ (by decide) (by decide))
  have hcount : RegsKept launchRegs s (wr s pLCH LCH_ARMED_COUNT (w32 (armedEntries s).length)) := regsKept_wr _ _ (by decide) (by decide)
  unfold refreshLaunch
  dsimp only
  split <;> exact ⟨rfl, hcount.trans (hnext _ _ _)⟩

/-! ### The operations -/

/-- ENTRY_STATE shows an entry with an OP_STATUS (R89). -/
def opShown (s : State) (i st : Nat) : State := wr s pLCH LCH_ENTRY_STATE (entryStateWord (entryOf s i) st)

/-- OP_STATUS of an operation that is carried out reads 0 (R91). -/
theorem fld_entryStateWord_zero (e : LaunchEntry) : fld (entryStateWord e 0) 3 0 = 0 := by
  unfold entryStateWord fld w32
  rw [BitVec.toNat_ofNat, Nat.shiftRight_zero]
  split <;> split <;> omega

section
variable (s : State) {i : Nat} (hi : rdF s pLCH LCH_ENTRY_SEL 9 0 = i)
include hi

/-- READ shows the entry in the window, and the table stays. -/
theorem entryOp_read : entryOp s 1 =
    opShown (wr (wr (wr (wr s pLCH LCH_ENTRY_TIME_LO (lo32 (entryOf s i).time)) pLCH LCH_ENTRY_TIME_HI (hi32 (entryOf s i).time))
      pLCH LCH_ENTRY_CTRL (w32 ((entryOf s i).action % 16 * 65536 + (entryOf s i).page % 4096))) pLCH LCH_ENTRY_ARG (entryOf s i).arg) i 0 := by
  subst hi
  rfl

/-- ARM under the conditions of R91 puts the window into the table. -/
theorem entryOp_arm (h : armStatus s (entryOf s i).state (windowEntry s) false = 0) :
    entryOp s 2 = opShown (refreshLaunch (putEntry s i { windowEntry s with state := .armed })) i 0 := by
  have harm : armEntry s i (windowEntry s) false = (refreshLaunch (putEntry s i { windowEntry s with state := .armed }), 0) := if_pos h
  subst hi
  simp only [entryOp, harm]
  rfl

theorem entryOp_cancel (h : (entryOf s i).state = .armed) :
    entryOp s 3 = opShown (refreshLaunch (putEntry s i { entryOf s i with state := .cancelled })) i 0 := by
  have hcancel : cancelEntry s i = (refreshLaunch (putEntry s i { entryOf s i with state := .cancelled }), 0) := if_pos h
  subst hi
  simp only [entryOp, hcancel]
  rfl

theorem entryOp_release (h : (entryOf s i).state = .fired ∨ (entryOf s i).state = .failed ∨ (entryOf s i).state = .cancelled) :
    entryOp s 4 = opShown (putEntry s i { entryOf s i with state := .free }) i 0 := by
  have hrelease : releaseEntry s i = (putEntry s i { entryOf s i with state := .free }, 0) := by
    rcases h with h | h | h <;> simp only [releaseEntry, h]
  subst hi
  simp only [entryOp, hrelease]
  rfl

end

/-! ### The commands -/

/-- A command that may touch the sandglass leaves there what its effect does. -/
theorem confine_sgl {ps : List Part} {s t : State} (h : Part.sglP ∈ ps) : (confine ps s t).sgl = t.sgl := if_pos (List.contains_iff_mem.mpr h)

/-- A command that sets entry `i` by an operation carried out: the entry is as given, OP_STATUS reads 0 and every other entry stays. -/
theorem runs_entryOp {c : Instr} {s u w : State} {i : Nat} {e : LaunchEntry} (he : exec c s = .next (confine [.sglP] s w)) (hw : w = answer (opShown u i 0) .ack)
    (hu : u.sgl.entries = s.sgl.entries.putD i e LaunchEntry.empty) :
    Runs c s fun t => entryOf t i = e ∧ rdF t pLCH LCH_ENTRY_STATE 3 0 = 0 ∧ ∀ j, j ≠ i → entryOf t j = entryOf s j := by
  have hentry (j : Nat) : entryOf (confine [.sglP] s (answer (opShown u i 0) .ack)) j = entryOf (putEntry s i e) j := by
    rw [entryOf, confine_sgl (by decide), (answer_frame ..).1, opShown, (wr_frame ..).1, hu]
    rfl
  refine runs_of_effect he hw ⟨?_, ?_, fun j hj => ?_⟩
  · rw [hentry, entryOf_putEntry_same]
  · rw [rdF, (rd_confine ..).1, (rd_answer ..).1, opShown, rd_wr_same, fld_entryStateWord_zero]
  · rw [hentry, entryOf_putEntry_ne s e hj]

section
variable {s : State} {who : Initiator} (h : takesWrite s who pLCH LCH_ENTRY_OP = true)
include h

theorem runs_entryOpRead {i : Nat} {e : LaunchEntry} (hi : rdF s pLCH LCH_ENTRY_SEL 9 0 = i) (he : entryOf s i = e) :
    Runs (.entryOpRead who) s fun t =>
      rd t pLCH LCH_ENTRY_TIME_LO = lo32 e.time ∧ rd t pLCH LCH_ENTRY_TIME_HI = hi32 e.time ∧ rdF t pLCH LCH_ENTRY_CTRL 19 16 = e.action % 16
      ∧ rdF t pLCH LCH_ENTRY_CTRL 11 0 = e.page % 4096 ∧ rd t pLCH LCH_ENTRY_ARG = e.arg ∧ t.sgl = s.sgl := by
  have hw := regWrite_entryOp 1 h
  have hread := entryOp_read (passes s who (.page pLCH LCH_ENTRY_OP)) hi
  rw [show entryOf (passes s who (.page pLCH LCH_ENTRY_OP)) i = e from he] at hread
  rw [show fld 1 2 0 = 1 from rfl, hread] at hw
  have hctrl : fld (w32 (e.action % 16 * 65536 + e.page % 4096)) 19 16 = e.action % 16 ∧ fld (w32 (e.action % 16 * 65536 + e.page % 4096)) 11 0 = e.page % 4096 := by
    unfold fld w32
    rw [BitVec.toNat_ofNat, Nat.shiftRight_eq_div_pow, Nat.shiftRight_eq_div_pow]
    omega
  refine runs_of_effect rfl hw ?_
  refine ⟨?_, ?_, ?_, ?_, ?_, by simp [confine_sgl, opShown]⟩ <;>
    simp (disch := decide) only [rdF, rd_confine, rd_answer, opShown, rd_wr_otherOff, rd_wr_same, hctrl]

theorem runs_entryOpArm {i : Nat} (hi : rdF s pLCH LCH_ENTRY_SEL 9 0 = i) (harm : armStatus s (entryOf s i).state (windowEntry s) false = 0) :
    Runs (.entryOpArm who) s fun t =>
      entryOf t i = { windowEntry s with state := .armed } ∧ rdF t pLCH LCH_ENTRY_STATE 3 0 = 0 ∧ ∀ j, j ≠ i → entryOf t j = entryOf s j := by
  have hw := regWrite_entryOp 2 h
  rw [show fld 2 2 0 = 2 from rfl, entryOp_arm (passes s who (.page pLCH LCH_ENTRY_OP)) hi harm] at hw
  exact runs_entryOp rfl hw (congrArg Sandglass.entries (refreshLaunch_keeps _).1)

theorem runs_entryOpCancel {i : Nat} (hi : rdF s pLCH LCH_ENTRY_SEL 9 0 = i) (harmed : (entryOf s i).state = .armed) :
    Runs (.entryOpCancel who) s fun t =>
      entryOf t i = { entryOf s i with state := .cancelled } ∧ rdF t pLCH LCH_ENTRY_STATE 3 0 = 0 ∧ ∀ j, j ≠ i → entryOf t j = entryOf s j := by
  have hw := regWrite_entryOp 3 h
  rw [show fld 3 2 0 = 3 from rfl, entryOp_cancel (passes s who (.page pLCH LCH_ENTRY_OP)) hi harmed] at hw
  exact runs_entryOp rfl hw (congrArg Sandglass.entries (refreshLaunch_keeps _).1)

theorem runs_entryOpRelease {i : Nat} (hi : rdF s pLCH LCH_ENTRY_SEL 9 0 = i)
    (hover : (entryOf s i).state = .fired ∨ (entryOf s i).state = .failed ∨ (entryOf s i).state = .cancelled) :
    Runs (.entryOpRelease who) s fun t =>
      entryOf t i = { entryOf s i with state := .free } ∧ rdF t pLCH LCH_ENTRY_STATE 3 0 = 0 ∧ ∀ j, j ≠ i → entryOf t j = entryOf s j := by
  have hw := regWrite_entryOp 4 h
  rw [show fld 4 2 0 = 4 from rfl, entryOp_release (passes s who (.page pLCH LCH_ENTRY_OP)) hi hover] at hw
  exact runs_entryOp rfl hw rfl

end

/-- Settles O15: each operation that is carried out sets the selected entry alone, and READ sets the window alone. -/
theorem launchWindowOperations : Obligations.LaunchWindowOperations := by
  intro s who h
  exact ⟨runs_entryOpRead h rfl rfl, runs_entryOpArm h rfl, runs_entryOpCancel h rfl, runs_entryOpRelease h rfl⟩

end Sys2Proof.Machine

/-! The launch unit: dispatch, the early send of a snapshot, the return of an outcome, and SNAP_FIRE (R94 to R96, R104). -/

namespace Sys2Proof.Machine

/-! ### What a dispatch shows -/

/-- The state in which the entries that share a time with entry `i` carry TIE (R94). -/
def tiesMarked (s : State) (i : Nat) (t : Count) : State := if sharesTime s i t then markTies s t else s

/-- Marking ties counts in TIE_COUNT and changes no other register, and no time passes. -/
theorem tiesMarked_keeps (s : State) (i : Nat) (t : Count) : RegsKept [(pLCH, LCH_TIE_COUNT)] s (tiesMarked s i t) ∧ (tiesMarked s i t).com.time = s.com.time := by
  unfold tiesMarked markTies
  dsimp only
  split
  · split
    · exact ⟨(regsKept_of_eq _ rfl rfl).trans (regsKept_wr _ _ (by decide) (by decide)), rfl⟩
    · exact ⟨regsKept_of_eq _ rfl rfl, rfl⟩
  · exact ⟨regsKept_of_eq _ rfl rfl, rfl⟩

/-- The launch unit counts an action sent and shows the table. -/
def launched (s : State) : State := refreshLaunch (bump s pLCH LCH_FIRED_COUNT 1)

/-- Counting an action sent leaves the table alone, and of the registers all but its count and those that follow the table. -/
theorem launched_keeps (s : State) : (launched s).sgl = s.sgl ∧ RegsKept ((pLCH, LCH_FIRED_COUNT) :: launchRegs) s (launched s)
    ∧ rd (launched s) pLCH LCH_FIRED_COUNT = w32 (satAdd 0xFFFFFFFF (rd s pLCH LCH_FIRED_COUNT).toNat 1) := by
  obtain ⟨hsgl, hregs⟩ := refreshLaunch_keeps (bump s pLCH LCH_FIRED_COUNT 1)
  refine ⟨hsgl, (regsKept_wr _ _ (by decide) (by decide)).trans (hregs.mono (by simp)), ?_⟩
  rw [launched, (hregs pLCH LCH_FIRED_COUNT (by decide) (by decide) (by decide)).1, rd_bump]

/-! ### Dispatch (R94, R96) -/

theorem launchDispatch_due {s : State} {i : Nat} {e : LaunchEntry} (hf : ferryRunning s = false) (hd : dueEntry? s = some (i, e)) :
    ∃ late, launchDispatch s = launched (putEntry (tiesMarked s i e.time) i { entryOf (tiesMarked s i e.time) i with state := .sent, late := late }) := by
  simp only [launchDispatch, hf, hd, Bool.false_eq_true, if_false]
  exact ⟨_, rfl⟩

/-- The due entry is SENT and counted. -/
theorem runs_launchDispatch {s : State} {elapsed i : Nat} {e : LaunchEntry} (hup : pageUp s pLCH = true) (hf : ferryRunning s = false)
    (hd : dueEntry? (advance s elapsed) = some (i, e)) :
    Runs (.launchDispatch elapsed) s fun t =>
      (entryOf t i).state = .sent ∧ rd t pLCH LCH_FIRED_COUNT = w32 (satAdd 0xFFFFFFFF (rd s pLCH LCH_FIRED_COUNT).toNat 1) := by
  obtain ⟨late, hw⟩ := launchDispatch_due (s := advance s elapsed) hf hd
  have hties := (tiesMarked_keeps (advance s elapsed) i e.time).1 pLCH LCH_FIRED_COUNT (by decide) (by decide) (by decide)
  refine runs_of_effect rfl ((if_pos hup).trans hw) ?_
  generalize tiesMarked (advance s elapsed) i e.time = u at hties
  obtain ⟨hsgl, _, hcount⟩ := launched_keeps (putEntry u i { entryOf u i with state := .sent, late := late })
  constructor
  · rw [entryOf, confine_sgl (by decide), hsgl]
    exact congrArg LaunchEntry.state (entryOf_putEntry_same u i _)
  · rw [(rd_confine ..).1, hcount, ← (rd_advance s elapsed pLCH LCH_FIRED_COUNT).1, ← hties.1]
    rfl

/-! ### The early send of a snapshot (R95) -/

/-- The SNAP_LATCH entry whose order goes out: the earliest ARMED one at most 64 ns ahead. -/
def earlyEntry? (s : State) : Option (Nat × LaunchEntry) := (armedEntries s).find? fun e => e.2.action == 2 && decide (round8 e.2.time.toNat ≤ s.com.time.toNat + 64)

theorem snapEarlySend_due {s : State} {i : Nat} {e : LaunchEntry} (hf : ferryRunning s = false) (hd : earlyEntry? s = some (i, e)) :
    ∃ late, snapEarlySend s = launched (orderSnapshot
      (putEntry (tiesMarked s i e.time) i { entryOf (tiesMarked s i e.time) i with state := .fired, late := late, outcome := 0 }) (round8 e.time.toNat) e.arg).1 := by
  unfold earlyEntry? at hd
  simp only [snapEarlySend, hf, hd, Bool.false_eq_true, if_false]
  exact ⟨_, rfl⟩

/-- The entry is FIRED, and its snapshot takes the next SNAP_SEQ with the entry's ARG as its tag. -/
theorem runs_snapLatchEarlySend {s : State} {elapsed i : Nat} {e : LaunchEntry} (hup : pageUp s pLCH = true) (hf : ferryRunning s = false)
    (hd : earlyEntry? (advance s elapsed) = some (i, e)) :
    Runs (.snapLatchEarlySend elapsed) s fun t =>
      (entryOf t i).state = .fired ∧ (entryOf t i).outcome = 0 ∧ rd t pSGL SGL_SNAP_SEQ_CUR = rd s pSGL SGL_SNAP_SEQ_CUR + 1 ∧ rd t pSGL SGL_SNAP_TAG = e.arg := by
  obtain ⟨late, hw⟩ := snapEarlySend_due (s := advance s elapsed) hf hd
  have hties := (tiesMarked_keeps (advance s elapsed) i e.time).1 pSGL SGL_SNAP_SEQ_CUR (by decide) (by decide) (by decide)
  refine runs_of_effect rfl ((if_pos hup).trans hw) ?_
  generalize tiesMarked (advance s elapsed) i e.time = u at hties
  generalize hx : { entryOf u i with state := .fired, late := late, outcome := 0 } = x
  obtain ⟨_, _, _, hentries⟩ := orderSnapshot_frame (putEntry u i x) (round8 e.time.toNat) e.arg
  obtain ⟨hseq, htag, _, _⟩ := orderSnapshot_shows (putEntry u i x) (round8 e.time.toNat) e.arg
  obtain ⟨hsgl, hkept, _⟩ := launched_keeps (orderSnapshot (putEntry u i x) (round8 e.time.toNat) e.arg).1
  have hentry : entryOf (confine [.sglP] s (launched (orderSnapshot (putEntry u i x) (round8 e.time.toNat) e.arg).1)) i = x := by
    rw [entryOf, confine_sgl (by decide), hsgl, hentries]
    exact entryOf_putEntry_same u i x
  refine ⟨?_, ?_, ?_, ?_⟩
  · rw [hentry, ← hx]
  · rw [hentry, ← hx]
  · rw [(rd_confine ..).1, (hkept pSGL SGL_SNAP_SEQ_CUR (by decide) (by decide) (by decide)).1, hseq, ← (rd_advance s elapsed pSGL SGL_SNAP_SEQ_CUR).1, ← hties.1]
    rfl
  · rw [(rd_confine ..).1, (hkept pSGL SGL_SNAP_TAG (by decide) (by decide) (by decide)).1, htag]

/-! ### The return of an outcome (R96) -/

/-- A returned outcome ends its SENT entry: FIRED for OK and COMMIT_PENDING, else FAILED. -/
theorem runs_launchOutcomeReturn {s : State} {i : Fin 1024} {o : Nat} (hup : pageUp s pLCH = true) (ho : s.sgl.returns.get? i.val = some o)
    (hsent : (entryOf s i.val).state = .sent) :
    Runs (.launchOutcomeReturn i) s fun t =>
      entryOf t i.val = { entryOf s i.val with state := if o / 16 ≤ 1 then .fired else .failed, outcome := o / 16, detail := o % 16 }
      ∧ t.sgl.returns.get? i.val = none ∧ ∀ j, j ≠ i.val → entryOf t j = entryOf s j := by
  have hw : outcomeReturn s i.val = putEntry { s with sgl := { s.sgl with returns := s.sgl.returns.del i.val } } i.val
      { entryOf s i.val with state := if o / 16 ≤ 1 then .fired else .failed, outcome := o / 16, detail := o % 16 } := by
    simp only [outcomeReturn, ho, hsent, if_true]
  refine runs_of_effect rfl ((if_pos hup).trans hw) ⟨?_, ?_, fun j hj => ?_⟩
  · exact entryOf_putEntry_same _ _ _
  · exact Tab.get?_del_same _ _
  · exact entryOf_putEntry_ne _ _ hj

/-! ### SNAP_FIRE (R104) -/

theorem regWrite_snapFire {s : State} {who : Initiator} {v : Word} (h : takesWrite s who pSGL SGL_SNAP_FIRE = true) (hv : bit v 0 = true) :
    regWrite s who pSGL SGL_SNAP_FIRE v = answer (orderSnapshot (passes s who (.page pSGL SGL_SNAP_FIRE)) (round8 (s.com.time.toNat + 64)) 0).1 .ack := by
  have hfire : bit (v &&& 1) 0 = true := by rw [bit_and, hv]; rfl
  have hwrite := regWrite_operation v (k := .sgl) (r := ⟨SGL_SNAP_FIRE, 1, 4, .wo, .live, 1, 0, false⟩) (by decide) (by decide) (by decide) rfl rfl rfl rfl h
  rw [hwrite]
  simp only [blockWrite, hfire, if_true]
  rfl

theorem runs_snapFire {s : State} {who : Initiator} {value : Word} (h : takesWrite s who pSGL SGL_SNAP_FIRE = true) (hv : bit value 0 = true) :
    Runs (.snapFire who value) s fun t =>
      let due : Count := BitVec.ofNat 64 (round8 (s.com.time.toNat + 64))
      rd t pSGL SGL_SNAP_SEQ_CUR = rd s pSGL SGL_SNAP_SEQ_CUR + 1 ∧ rd t pSGL SGL_SNAP_T_LO = lo32 due ∧ rd t pSGL SGL_SNAP_T_HI = hi32 due := by
  obtain ⟨hseq, _, hlo, hhi⟩ := orderSnapshot_shows (passes s who (.page pSGL SGL_SNAP_FIRE)) (round8 (s.com.time.toNat + 64)) 0
  exact runs_of_effect rfl (regWrite_snapFire h hv) ⟨hseq, hlo, hhi⟩

end Sys2Proof.Machine

/-! The latch of a snapshot: what a page copies, and the latch of a flash channel (R76, R101). -/

namespace Sys2Proof.Machine

/-! ### One page (R76) -/

/-- One copy of a block: the register it copies, or the accumulator since the last snapshot, which starts again. -/
def latchCopy (k : PageKind) (p : Nat) (s : State) (c : Nat × Option Nat) : State :=
  match c.2 with
  | some src => wr s p c.1 (rd s p src)
  | none =>
    let n := s.com.since.getD (regKey p c.1) 0
    let s := wr s p c.1 (w32 (min 0xFFFFFFFF (if k = .fch then packLadder n else n)))
    if levelCopy k c.1 then s
    else { s with com := { s.com with since := s.com.since.del (regKey p c.1) } }

/-- The common part of a page's latch: SNAP_SEQ, SNAP_TIME and SNAP_STAGE. -/
def latchFrame (o : SnapOrder) (k : PageKind) (s : State) (p : Nat) : State :=
  let t := wr (wr (wr s p rSNAP_SEQ (w32 o.seq)) p rSNAP_LO (lo32 o.time)) p rSNAP_HI (hi32 o.time)
  wr t p rSNAP_STAGE (if hasStaged k then rd t p rSTAGE_STATUS else 0)

theorem latchPage_eq (o : SnapOrder) {s : State} {p : Nat} {k : PageKind} (hk : pageKind? s.com.chip p = some k) (hcopy : hasSnapCopy k = true) :
    latchPage o s p = (snapCopies k).foldl (latchCopy k p) (latchFrame o k s p) := by
  simp only [latchPage, hk, hcopy, if_true]
  rfl

/-- A copy changes the register it goes to alone. -/
theorem rd_latchCopy_ne (k : PageKind) (p : Nat) (s : State) (c : Nat × Option Nat) {q o : Nat} (h : regKey q o ≠ regKey p c.1) :
    rd (latchCopy k p s c) q o = rd s q o := by
  unfold latchCopy
  split
  · exact rd_wr_ne s _ h
  · dsimp only
    split <;> exact rd_wr_ne s _ h

theorem inForce_latchCopy (k : PageKind) (p : Nat) (s : State) (c : Nat × Option Nat) (q o : Nat) : inForce (latchCopy k p s c) q o = inForce s q o := by
  unfold latchCopy
  split
  · rfl
  · dsimp only
    split <;> rfl

/-- Copies change the registers they go to alone. -/
theorem rd_foldl_latchCopy (k : PageKind) (p : Nat) {l : List (Nat × Option Nat)} {q o : Nat} (h : ∀ c ∈ l, regKey q o ≠ regKey p c.1) (s : State) :
    rd (l.foldl (latchCopy k p) s) q o = rd s q o := by
  induction l generalizing s with
  | nil => rfl
  | cons c l ih => rw [List.foldl_cons, ih fun d hd => h d (List.mem_cons_of_mem c hd), rd_latchCopy_ne k p s c (h c List.mem_cons_self)]

theorem inForce_foldl_latchCopy (k : PageKind) (p : Nat) (l : List (Nat × Option Nat)) (s : State) (q o : Nat) :
    inForce (l.foldl (latchCopy k p) s) q o = inForce s q o := by
  induction l generalizing s with
  | nil => rfl
  | cons c l ih => rw [List.foldl_cons, ih, inForce_latchCopy]

/-- A block's copies lie in its page, above the common part of the snapshot area. -/
theorem snapCopies_place (k : PageKind) : ∀ c ∈ snapCopies k, rSNAP_STAGE < c.1 ∧ c.1 < 4096 := by
  cases k <;> decide

section
variable {s : State} {p : Nat} {k : PageKind} (o : SnapOrder) (hk : pageKind? s.com.chip p = some k) (hcopy : hasSnapCopy k = true)
include hk hcopy

/-- The frame of a page that has latched is that of the order. -/
theorem latchPage_frame : rd (latchPage o s p) p rSNAP_SEQ = w32 o.seq ∧ rd (latchPage o s p) p rSNAP_LO = lo32 o.time ∧ rd (latchPage o s p) p rSNAP_HI = hi32 o.time
    ∧ rd (latchPage o s p) p rSNAP_STAGE = if hasStaged k then rd s p rSTAGE_STATUS else 0 := by
  have hframe {off : Nat} (h : off ≤ rSNAP_STAGE) : rd (latchPage o s p) p off = rd (latchFrame o k s p) p off := by
    rw [latchPage_eq o hk hcopy]
    refine rd_foldl_latchCopy k p (fun c hc he => ?_) _
    have := snapCopies_place k c hc
    unfold regKey at he
    omega
  rw [hframe (by decide), hframe (by decide), hframe (by decide), hframe (by decide)]
  simp (disch := decide) only [latchFrame, rd_wr_otherOff, rd_wr_same, and_self]

/-- A latch changes no register of another page. -/
theorem rd_latchPage_otherPage {q off : Nat} (h : q ≠ p) (hoff : off < 4096) : rd (latchPage o s p) q off = rd s q off := by
  have hne {c : Nat} (hc : c < 4096) : regKey q off ≠ regKey p c := fun he => h (regKey_inj he hc hoff).1
  rw [latchPage_eq o hk hcopy, rd_foldl_latchCopy k p fun c hc => hne (snapCopies_place k c hc).2]
  unfold latchFrame
  rw [rd_wr_ne _ _ (hne (by decide)), rd_wr_ne _ _ (hne (by decide)), rd_wr_ne _ _ (hne (by decide)), rd_wr_ne _ _ (hne (by decide))]

theorem inForce_latchPage (q off : Nat) : inForce (latchPage o s p) q off = inForce s q off := by
  rw [latchPage_eq o hk hcopy, inForce_foldl_latchCopy]
  rfl

end

/-- SNAP_BUSY of a channel copies BUSY_MASK. -/
theorem rd_latchPage_snapBusy {s : State} {p : Nat} (o : SnapOrder) (hk : pageKind? s.com.chip p = some .fch) :
    rd (latchPage o s p) p FCH_SNAP_BUSY = rd s p FCH_BUSY_MASK := by
  have hne {a b : Nat} (h : a ≠ b) : regKey p a ≠ regKey p b := fun he => h (by unfold regKey at he; omega)
  have hcopies : latchPage o s p = latchCopy .fch p (latchCopy .fch p (latchCopy .fch p (latchFrame o .fch s p) (FCH_SNAP_QUEUE, some FCH_QUEUE_STATUS))
      (FCH_SNAP_BUSY, some FCH_BUSY_MASK)) (FCH_SNAP_LADDER, none) := latchPage_eq o hk rfl
  rw [hcopies, rd_latchCopy_ne _ _ _ _ (hne (by decide))]
  refine (rd_wr_same _ _ _ _).trans ?_
  rw [rd_latchCopy_ne _ _ _ _ (hne (by decide))]
  simp (disch := decide) only [latchFrame, rd_wr_otherOff]

/-! ### A flash channel (R101) -/

/-- A page of the channels' slots is a flash channel. -/
theorem kind_of_channel {ch : Chip} {c : Chan} {k : PageKind} (h : pageKind? ch (pFCH c.val) = some k) : k = .fch := by
  have hc := c.isLt
  unfold pageKind? pFCH at h
  simp (disch := omega) only [if_neg, if_pos] at h
  split at h
  · exact (Option.some.inj h).symm
  · cases h

/-- The one order out that has come due and that the page has not latched. -/
theorem dueOrders_one {s : State} {p : Nat} {o : SnapOrder} (ho : s.sgl.orders = [o]) (htime : o.time.toNat ≤ s.com.time.toNat) (hnew : (rd s p rSNAP_SEQ).toNat ≠ o.seq) :
    dueOrders s p = [o] := by
  simp [dueOrders, ho, htime, Ne.symm hnew]

/-- A channel outside a reset latches that order on its page. -/
theorem latchIsland_channel {s : State} {c : Chan} {o : SnapOrder} (hup : pageUp s (pFCH c.val) = true) (hheld : islandHeld s (.channel c) = false)
    (ho : s.sgl.orders = [o]) (htime : o.time.toNat ≤ s.com.time.toNat) (hnew : (rd s (pFCH c.val) rSNAP_SEQ).toNat ≠ o.seq) :
    latchIsland s (.channel c) = latchPage o s (pFCH c.val) := by
  simp only [latchIsland, hheld, islandPages, List.foldl_cons, List.foldl_nil, hup, dueOrders_one ho htime hnew, if_true, Bool.false_eq_true, if_false]

/-- A channel's latch takes its copies together, and nothing staged or in force changes. -/
theorem runs_snapshotLatch_channel {s : State} {c : Chan} {elapsed : Nat} {o : SnapOrder} (hup : pageUp s (pFCH c.val) = true) (hheld : islandHeld s (.channel c) = false)
    (ho : s.sgl.orders = [o]) (htime : o.time.toNat ≤ (advance s elapsed).com.time.toNat) (hnew : (rd s (pFCH c.val) rSNAP_SEQ).toNat ≠ o.seq) :
    Runs (.snapshotLatch (.channel c) elapsed) s fun t =>
      rd t (pFCH c.val) rSNAP_SEQ = w32 o.seq ∧ rd t (pFCH c.val) rSNAP_LO = lo32 o.time ∧ rd t (pFCH c.val) rSNAP_HI = hi32 o.time
      ∧ rd t (pFCH c.val) rSNAP_STAGE = rd s (pFCH c.val) rSTAGE_STATUS ∧ rd t (pFCH c.val) FCH_SNAP_BUSY = rd s (pFCH c.val) FCH_BUSY_MASK
      ∧ ∀ p off, inForce t p off = inForce s p off := by
  have hkind : pageKind? (advance s elapsed).com.chip (pFCH c.val) = some .fch := by
    cases hk : pageKind? s.com.chip (pFCH c.val) with
    | none => simp [pageUp, hk] at hup
    | some k => rw [← kind_of_channel hk]; exact hk
  have hlatch := latchIsland_channel (s := advance s elapsed) hup hheld ho htime hnew
  obtain ⟨hseq, hlo, hhi, hstage⟩ := latchPage_frame o hkind rfl
  have hbusy := rd_latchPage_snapBusy o hkind
  have hdis : rd (latchPage o (advance s elapsed) (pFCH c.val)) pDIS rSNAP_SEQ = rd s pDIS rSNAP_SEQ :=
    (rd_latchPage_otherPage o hkind rfl (by unfold pDIS pFCH; omega) (by decide)).trans (rd_advance ..).1
  have hforce := inForce_latchPage o hkind rfl
  refine runs_of_effect (u := latchPage o (advance s elapsed) (pFCH c.val)) rfl ?_ ⟨hseq, hlo, hhi, hstage, hbusy, hforce⟩
  simp only [hlatch]
  exact if_pos hdis

/-- Settles O16: a dispatch or a return sets its entry alone of the table, an order shows in the sandglass's registers, and a latch writes a page's copies alone. -/
theorem launchDispatchAndSnapshots : Obligations.LaunchDispatchAndSnapshots := by
  intro s who value c elapsed now
  exact ⟨fun hup hf => ⟨fun i e hd => runs_launchDispatch hup hf hd, fun i e hd => runs_snapLatchEarlySend hup hf hd⟩,
    fun i o hup ho hsent => runs_launchOutcomeReturn hup ho hsent, runs_snapFire,
    fun o hup hheld ho htime hnew => runs_snapshotLatch_channel hup hheld ho htime hnew⟩

end Sys2Proof.Machine

/-! The delivery of a launched action, and the actions of the sandglass, the power loops and a page's commit (R90, R96, R99, R593). -/

namespace Sys2Proof.Machine

/-! ### Delivery (R96) -/

/-- The outcome of a delivered entry waits for its return. -/
def outcomeSent (s : State) (i o : Nat) : State := { s with sgl := { s.sgl with returns := s.sgl.returns.put i o } }

theorem delivers_iff (s : State) (i action p : Nat) : delivers s i action p = true ↔
    (entryOf s i).state = .sent ∧ (entryOf s i).action = action ∧ ferryRunning s = false ∧ pageUp s p = true ∧ bit (rd s p rSTATUS) 1 = false := by
  simp [delivers, and_assoc]

section
variable {s : State} {i action : Nat} (act : State → LaunchEntry → State × Nat) (page? : LaunchEntry → Nat)

/-- An entry that reaches its page does its action, and the action's outcome waits. -/
theorem deliver_of_delivers (h : delivers s i action (page? (entryOf s i)) = true) :
    deliver s i action act page? = outcomeSent (act s (entryOf s i)).1 i (act s (entryOf s i)).2 := by
  obtain ⟨hstate, haction, hferry, hup, hfence⟩ := (delivers_iff ..).mp h
  simp only [deliver, hstate, haction, hferry, hup, hfence, ne_eq, not_true_eq_false, or_self, Bool.not_true, Bool.false_eq_true, if_false]
  rfl

/-- An entry whose page is down, or whose unit is fenced, is refused: the outcome that waits is TARGET_REFUSED. -/
theorem deliver_refused (hstate : (entryOf s i).state = .sent) (haction : (entryOf s i).action = action) (hferry : ferryRunning s = false)
    (hdown : pageUp s (page? (entryOf s i)) = false ∨ bit (rd s (page? (entryOf s i)) rSTATUS) 1 = true) :
    ∃ u, deliver s i action act page? = outcomeSent u i (4 * 16) := by
  have hrefuse : (!pageUp s (page? (entryOf s i)) || bit (rd s (page? (entryOf s i)) rSTATUS) 1) = true := by
    rcases hdown with h | h <;> simp [h]
  simp only [deliver, hstate, haction, hferry, hrefuse, ne_eq, not_true_eq_false, or_self, Bool.false_eq_true, if_false, if_true]
  exact ⟨_, rfl⟩

end

theorem returns_outcomeSent {ps : List Part} (s u : State) (i o : Nat) (h : Part.sglP ∈ ps) : (confine ps s (outcomeSent u i o)).sgl.returns.get? i = some o := by
  rw [confine_sgl h, outcomeSent, Tab.get?_put_same]

/-! ### COMMIT_STAGE (R67, R90) -/

/-- A page lies in the 4096 slots of the page region (R45). -/
theorem page_lt {ch : Chip} {p : Nat} {k : PageKind} (h : pageKind? ch p = some k) : p < 4096 := by
  by_contra hp
  unfold pageKind? at h
  simp (disch := omega) only [if_neg, reduceCtorEq] at h

theorem hasStaged_of_plain {k : PageKind} (h : plainApply k = true) : hasStaged k = true := by
  revert h
  cases k <;> decide

/-- A dirty set that passes its check, with no older epoch in flight, applies at once with outcome OK. -/
theorem stageCommit_now {s : State} (who : Initiator) {p : Nat} (hfree : commitHeld s p = false) (hlive : olderLive s p = false)
    (hok : commitReject (rejectCleared s p) p 0 = none) (hdirty : bit (rd s p rSTAGE_STATUS) 28 = true) :
    stageCommit s who p 0 = (stageApply (untimed (rejectCleared s p) p) p false, 0) := by
  have hdirty' : bit (rd (rejectCleared s p) p rSTAGE_STATUS) 28 = true := by
    rw [rejectCleared, rd_wr_same, bit_setFld_out _ _ (by decide) (by decide), bit_and, hdirty]
    rfl
  have hlive' : olderLive (untimed (rejectCleared s p) p) p = false := hlive
  unfold rejectCleared at *
  unfold untimed at *
  simp only [stageCommit, hfree, hok, hdirty', hlive', Bool.not_true, Bool.false_eq_true, if_false]

/-- The check leaves the staged copies and the epoch alone. -/
theorem setApplied_of_rejectCleared {s t : State} {p : Nat} {k : PageKind} (h : SetApplied (untimed (rejectCleared s p) p) t p k) : SetApplied s t p k := by
  refine h.of_agree (fun off ho => ?_) ?_
  · exact rd_wr_otherOff s p _ (stagedOffs_ne ho (by decide))
  · have hstatus : rd (untimed (rejectCleared s p) p) p rSTAGE_STATUS = setFld (rd s p rSTAGE_STATUS &&& 0xDFFFFFFF) 19 16 0 := rd_wr_same _ _ _ _
    rw [epochNow, rdF, hstatus, fld_setFld_out _ _ (by decide) (by decide), fld_and (by decide)]
    rfl

theorem runs_commitStage {s : State} {entry : Fin 1024} {k : PageKind} (h : delivers s entry.val 1 (entryOf s entry.val).page = true)
    (hk : pageKind? s.com.chip (entryOf s entry.val).page = some k) (hplain : plainApply k = true) (hfree : commitHeld s (entryOf s entry.val).page = false)
    (hlive : olderLive s (entryOf s entry.val).page = false) (hdirty : bit (rd s (entryOf s entry.val).page rSTAGE_STATUS) 28 = true)
    (hok : commitReject (rejectCleared s (entryOf s entry.val).page) (entryOf s entry.val).page 0 = none) :
    Runs (.commitStage entry) s fun t => SetApplied s t (entryOf s entry.val).page k ∧ t.sgl.returns.get? entry.val = some 0 := by
  have hw := deliver_of_delivers (fun s e => commitStage s e.page) (fun e => e.page) h
  generalize (entryOf s entry.val).page = p at *
  have hact : commitStage s p = (stageApply (untimed (rejectCleared s p) p) p false, 0) := by
    simp only [commitStage, hk, hasStaged_of_plain hplain, if_true, stageCommit_now launchWho hfree hlive hok hdirty]
  simp only [hact] at hw
  refine runs_of_effect rfl hw ⟨?_, returns_outcomeSent _ _ _ _ (by decide)⟩
  exact .confine allParts (setApplied_of_rejectCleared (setApplied_stageApply false (page_lt hk) hk hplain))

/-! ### REFRESH_ALIGN and TOKEN_RATE_SET (R99, R593) -/

theorem runs_refreshAlign {s : State} {entry : Fin 1024} (h : delivers s entry.val 4 pSGL = true) :
    Runs (.refreshAlign entry) s fun t => t.sgl.anchor = (entryOf s entry.val).time ∧ t.sgl.returns.get? entry.val = some 0 := by
  refine runs_of_effect rfl (deliver_of_delivers refreshAlign (fun _ => pSGL) h) ⟨?_, returns_outcomeSent _ _ _ _ (by decide)⟩
  rw [confine_sgl (by decide)]
  rfl

/-- The ceiling set is the rate clamped to TOKEN_MIN and TOKEN_MAX: both have its eleven bits. -/
theorem setCeiling_shows (s : State) (v : Nat) :
    rdF (setCeiling s v) pCLE CLE_TOKEN_CEIL 10 0 = max (inF s pCLE CLE_TOKEN_MIN 10 0) (min (inF s pCLE CLE_TOKEN_MAX 10 0) v) := by
  have hmin := fld_lt (inForce s pCLE CLE_TOKEN_MIN) 10 0
  have hmax := fld_lt (inForce s pCLE CLE_TOKEN_MAX) 10 0
  rw [setCeiling, rdF, rd_wr_same, fld, w32, BitVec.toNat_ofNat, Nat.shiftRight_zero]
  unfold inF
  omega

theorem runs_tokenRateSet {s : State} {entry : Fin 1024} (h : delivers s entry.val 5 (entryOf s entry.val).page = true) :
    Runs (.tokenRateSet entry) s fun t =>
      rdF t pCLE CLE_TOKEN_CEIL 10 0 = max (inF s pCLE CLE_TOKEN_MIN 10 0) (min (inF s pCLE CLE_TOKEN_MAX 10 0) (fld (entryOf s entry.val).arg 15 0))
      ∧ t.sgl.returns.get? entry.val = some 0 :=
  runs_of_effect rfl (deliver_of_delivers (fun s e => tokenRateSet s e.arg) (fun e => e.page) h)
    ⟨setCeiling_shows s (fld (entryOf s entry.val).arg 15 0), returns_outcomeSent _ _ _ _ (by decide)⟩

end Sys2Proof.Machine

/-! Launched actions at the dispatcher: what queueing a slot does to its item (R376, R379, R382). -/

namespace Sys2Proof.Machine

/-! ### Items -/

theorem itemOf_congr {s t : State} (h : t.dis = s.dis) (n : Nat) : itemOf t n = itemOf s n := by rw [itemOf, h, itemOf]

theorem refreshFree_dis (s : State) : (refreshFree s).dis = s.dis := by
  unfold refreshFree
  dsimp only
  split <;> rfl

theorem putItem_dis (s : State) (n : Nat) (x : Item) : (putItem s n x).dis = { s.dis with items := s.dis.items.putD n x Item.fresh } := refreshFree_dis _

@[simp] theorem itemOf_putItem_same (s : State) (n : Nat) (x : Item) : itemOf (putItem s n x) n = x := by rw [itemOf, putItem_dis, Tab.getD_putD_same]

theorem itemOf_putItem_ne (s : State) {n m : Nat} (x : Item) (h : m ≠ n) : itemOf (putItem s n x) m = itemOf s m := by
  rw [itemOf, putItem_dis, Tab.getD_putD_ne _ _ _ _ h, itemOf]

/-- Writes of registers leave the dispatcher's own state alone. -/
theorem foldl_wr_dis {α : Type} (p : Nat) (off : α → Nat) (v : State → α → Word) (l : List α) (s : State) : (l.foldl (fun s a => wr s p (off a) (v s a)) s).dis = s.dis := by
  induction l generalizing s with
  | nil => rfl
  | cons a l ih => simp only [List.foldl_cons, ih, wr_frame]

/-- The selected views show the dispatcher's state and do not change it. -/
theorem showDis_dis (s : State) : (showDis s).dis = s.dis := by
  simp only [showDis, wr_frame, foldl_wr_dis]

/-! ### Entering a queue (R382) -/

/-- TIE is the one field that entering a queue in the same cycle may change of an item. -/
theorem itemOf_foldl_tie (l : List Nat) (s : State) (m : Nat) :
    itemOf (l.foldl (fun s i => putItem s i { itemOf s i with tie := true }) s) m =
      { itemOf s m with tie := (itemOf (l.foldl (fun s i => putItem s i { itemOf s i with tie := true }) s) m).tie } := by
  induction l generalizing s with
  | nil => rfl
  | cons i l ih =>
    rw [List.foldl_cons]
    refine (ih _).trans ?_
    by_cases hm : m = i
    · rw [hm, itemOf_putItem_same]
    · rw [itemOf_putItem_ne _ _ hm]

@[simp] theorem itemOf_putQueue (s : State) (q : Nat) (l : List Nat) (m : Nat) : itemOf (putQueue s q l) m = itemOf s m := rfl

@[simp] theorem itemOf_bump (s : State) (p off n m : Nat) : itemOf (bump s p off n) m = itemOf s m := rfl

/-- Entering a queue changes no item but in TIE. -/
theorem itemOf_enterQueue (s : State) (q n : Nat) (t : Count) (m : Nat) :
    itemOf (enterQueue s q n t) m = { itemOf s m with tie := (itemOf (enterQueue s q n t) m).tie } := by
  unfold enterQueue
  dsimp only
  split
  · rfl
  · simp only [itemOf_bump, itemOf_putQueue]
    exact itemOf_foldl_tie _ s m

/-- A slot that becomes READY is queued at its cluster from that cycle on, and keeps every other field but TIE. -/
theorem itemOf_makeReadyAt {s : State} {n : Nat} (t : Count) (h : (s.dis.stopped && n != 0x1FF) = false) :
    itemOf (makeReadyAt s n t) n =
      { itemOf s n with state := .ready, cluster := queueCluster s (itemOf s n), entered := t, tie := (itemOf (makeReadyAt s n t) n).tie } := by
  simp only [makeReadyAt, h, Bool.false_eq_true, if_false, itemOf_congr (showDis_dis _)]
  exact (itemOf_enterQueue _ _ n t n).trans (by rw [itemOf_putItem_same])

theorem makeReadyAt_stopped {s : State} {n : Nat} (t : Count) (h : (s.dis.stopped && n != 0x1FF) = true) : makeReadyAt s n t = s := by simp only [makeReadyAt, h, if_true]

/-- Queueing a slot keeps the argument of its item. -/
theorem arg0_queueItem (s : State) (n : Nat) : (itemOf (queueItem s n) n).arg0 = (itemOf s n).arg0 := by
  unfold queueItem
  dsimp only
  split
  · unfold makeReady
    cases h : s.dis.stopped && n != 0x1FF with
    | false => rw [itemOf_makeReadyAt _ h]
    | true => rw [makeReadyAt_stopped _ h]
  · rw [itemOf_putItem_same]

/-- A slot queued while the dispatcher runs is READY or DELAYED. -/
theorem state_queueItem {s : State} {n : Nat} (h : s.dis.stopped = false) : (itemOf (queueItem s n) n).state = .ready ∨ (itemOf (queueItem s n) n).state = .delayed := by
  unfold queueItem
  dsimp only
  split
  · left
    rw [makeReady, itemOf_makeReadyAt _ (by rw [h]; rfl)]
  · right
    rw [itemOf_putItem_same]

/-! ### PROGRAM_START and USER_EVENT (R379) -/

/-- A WAITING slot that is started is READY. -/
theorem state_programStart {s : State} {n : Nat} (h : s.dis.stopped = false) (hwait : (itemOf s n).state = .waiting) : (itemOf (programStart s n) n).state = .ready := by
  rw [programStart, if_pos hwait, makeReady, itemOf_makeReadyAt _ (by rw [h]; rfl)]

/-- A user event queues the lowest FREE slot with its ARG. -/
theorem userEvent_queues {s : State} {n : Nat} (arg : Word) (h : lowestFree s = some n) :
    (itemOf (userEvent s arg) n).arg0 = arg
      ∧ (s.dis.stopped = false → (itemOf (userEvent s arg) n).state = .ready ∨ (itemOf (userEvent s arg) n).state = .delayed) := by
  simp only [userEvent, h]
  refine ⟨?_, fun hrun => state_queueItem ?_⟩
  · rw [arg0_queueItem, itemOf_putItem_same]
  · rw [putItem_dis, hrun]

/-- A command that may touch the dispatcher leaves there what its effect does. -/
theorem confine_dis {ps : List Part} {s t : State} (h : Part.disP ∈ ps) : (confine ps s t).dis = t.dis := if_pos (List.contains_iff_mem.mpr h)

theorem runs_programStart {s : State} {entry : Fin 1024} (h : delivers s entry.val 7 pDIS = true) (hrun : s.dis.stopped = false)
    (hwait : (itemOf s (fld (entryOf s entry.val).arg 15 0)).state = .waiting) :
    Runs (.programStart entry) s fun t => (itemOf t (fld (entryOf s entry.val).arg 15 0)).state = .ready ∧ t.sgl.returns.get? entry.val = some 0 := by
  refine runs_of_effect rfl (deliver_of_delivers (fun s e => (runStarted (programStart s (fld e.arg 15 0)) (fld e.arg 15 0), 0)) (fun _ => pDIS) h)
    ⟨?_, returns_outcomeSent _ _ _ _ (by decide)⟩
  rw [itemOf_congr (confine_dis (by decide))]
  exact state_programStart hrun hwait

theorem runs_userEvent {s : State} {entry : Fin 1024} {n : Nat} (h : delivers s entry.val 8 pDIS = true) (hn : lowestFree s = some n) :
    Runs (.userEvent entry) s fun t => (itemOf t n).arg0 = (entryOf s entry.val).arg
      ∧ (s.dis.stopped = false → (itemOf t n).state = .ready ∨ (itemOf t n).state = .delayed) ∧ t.sgl.returns.get? entry.val = some 0 := by
  obtain ⟨harg, hstate⟩ := userEvent_queues (entryOf s entry.val).arg hn
  refine runs_of_effect rfl (deliver_of_delivers (fun s e => (userEvent s e.arg, 0)) (fun _ => pDIS) h) ?_
  rw [itemOf_congr (confine_dis (by decide))]
  exact ⟨harg, hstate, returns_outcomeSent _ _ _ _ (by decide)⟩

/-- A row that delivers to a dispatcher that is down or fenced returns TARGET_REFUSED. -/
theorem runs_deliver_refused {c : Instr} {ps : List Part} {s : State} {i action : Nat} {act : State → LaunchEntry → State × Nat}
    (he : exec c s = .next (confine ps s (deliver s i action act fun _ => pDIS))) (hps : Part.sglP ∈ ps) (hstate : (entryOf s i).state = .sent)
    (haction : (entryOf s i).action = action) (hferry : ferryRunning s = false) (hdown : pageUp s pDIS = false ∨ bit (rd s pDIS rSTATUS) 1 = true) :
    Runs c s fun t => t.sgl.returns.get? i = some (4 * 16) := by
  obtain ⟨u, hu⟩ := deliver_refused act (fun _ => pDIS) hstate haction hferry hdown
  exact runs_of_effect he hu (returns_outcomeSent _ _ _ _ hps)

/-- Settles O17: a delivered entry does its action with its outcome waiting, and each action changes its own block. -/
theorem launchedActions : Obligations.LaunchedActions := by
  intro s entry i e returns
  refine ⟨fun k h hk hplain hfree hlive hdirty hok => runs_commitStage h hk hplain hfree hlive hdirty hok, runs_refreshAlign, runs_tokenRateSet, runs_programStart,
    fun n h hn => runs_userEvent h hn, fun hstate hferry hdown => ⟨fun hevent => ?_, fun hstart => ?_⟩⟩
  · exact runs_deliver_refused (ps := [.sglP, .disP]) rfl (by decide) hstate hevent hferry hdown
  · exact runs_deliver_refused (ps := [.sglP, .disP, .prgP]) rfl (by decide) hstate hstart hferry hdown

end Sys2Proof.Machine

/-! Doorbells, queues and their deletion: Delete I/O Submission Queue on a list of commands whose fetch numbers are not distinct (R116, R120). -/

namespace Sys2Proof.Machine

/-! ### Two commands with one fetch number -/

/-- A submission entry of Delete I/O Submission Queue for queue 1. -/
def deleteQueue1 : List Byte := List.replicate 40 0 ++ [1]

/-- A fetched command of controller 0 with fetch number 0. -/
def fetchedOn (q : Nat) : HostCmd := ⟨0, 0, q, 0, deleteQueue1, 0, none, 0, .fetched, [], [], 0⟩

/-- Controller 0 has submission queue 1, and a command of the admin queue and one of queue 1 stand under the same fetch number. No run of the model reaches this state, and the statement asks for no more than a listed command. -/
def sharedNumber : State :=
  { State.reset with hst := { HostSide.reset with ctls := [(0, { Ctrl.fresh with sqs := [(1, ⟨2, 1, 0, 0, 0, 0⟩)] })], cmds := [fetchedOn 0, fetchedOn 1] } }

theorem fetched_sharedNumber : Fetched sharedNumber 0 true 0x00 (fetchedOn 0) := ⟨rfl, rfl, rfl, by decide⟩

/-- The deletion ends the command of queue 1 under the number that the deleting command has too, and with the queue's commands the deleting one leaves the list. -/
theorem deleteSq_sharedNumber : (onCmd sharedNumber true 0x00 0 deleteSq).hst.cmds = [] := by decide

/-- Refutes O50: where a command of the deleted queue shares the fetch number of the Delete I/O Submission Queue command, the deletion drops the deleting command too, and it does not end. -/
theorem not_hostLinksAndQueues : ¬ Obligations.HostLinksAndQueues := by
  unfold Obligations.HostLinksAndQueues
  intro h
  obtain ⟨-, -, -, -, -, -, -, -, -, -, -, hqueues⟩ := h sharedNumber false 0 0 0 0 0 0 0 0 0 0 0 0 0 (fetchedOn 0)
  obtain ⟨-, -, hdelete, -⟩ := hqueues (by decide)
  obtain ⟨t, hexec, ⟨x, hx, -⟩, -⟩ := hdelete fetched_sharedNumber (by decide)
  have hcmds : t.hst.cmds = [] := by
    rw [← Host.Outcome.next.inj hexec]
    exact deleteSq_sharedNumber
  simp [cmdOf?, hcmds] at hx

end Sys2Proof.Machine

/-! Background work of the memories, the flash channels, the map and the stripe engine: what it leaves alone while it closes sets, journals and shows its counts (R212, R224, R236, R240, R242, R253). -/

namespace Sys2Proof.Machine

-- The proofs are elaborated one after another: run side by side, each that waits for another holds a thread, whose stack counts against the check's memory.
set_option Elab.async false

/-! ### What background work keeps -/

/-- Only the memories, the flash channels, the map, the stripe engine and the shared part differ; no in-force value changes; interrupt bits that are set and dies that are retired stay so. -/
structure Background (s t : State) : Prop where
  agree : State.AgreeOutside [.memP, .fchP, .mapP, .strP] s t
  force : ∀ p o, inForce t p o = inForce s p o
  raised : ∀ p i, bit (rd s p rIRQ_STATUS) i = true → bit (rd t p rIRQ_STATUS) i = true
  retired : ∀ d, dieRetired s d = true → dieRetired t d = true

namespace Background

variable {s t u : State}

theorem refl (s : State) : Background s s := ⟨.refl _ s, fun _ _ => rfl, fun _ _ h => h, fun _ h => h⟩

theorem trans (h : Background s t) (h' : Background t u) : Background s u :=
  ⟨h.agree.trans h'.agree, fun p o => (h'.force p o).trans (h.force p o), fun p i hb => h'.raised p i (h.raised p i hb), fun d hb => h'.retired d (h.retired d hb)⟩

theorem ite {c : Prop} [Decidable c] (ht : Background s t) (hu : Background s u) : Background s (if c then t else u) := by
  split
  · exact ht
  · exact hu

theorem foldl {α : Type} {f : State → α → State} (hf : ∀ s a, Background s (f s a)) (l : List α) (s : State) : Background s (l.foldl f s) := by
  induction l generalizing s with
  | nil => exact refl s
  | cons a l ih => exact (hf s a).trans (ih (f s a))

/-- The same for a fold that carries a value beside the state. -/
theorem foldlPair {α β : Type} {f : State × β → α → State × β} (hf : ∀ r a, Background r.1 (f r a).1) (l : List α) (r : State × β) : Background r.1 (l.foldl f r).1 := by
  induction l generalizing r with
  | nil => exact refl r.1
  | cons a l ih => exact (hf r a).trans (ih (f r a))

/-- An update of the parts of background work that leaves the registers alone. -/
theorem parts (h : Background s t) (c : Common) (m : Memory) (f : Flash) (mp : MapState) (st : Stripe) (hr : c.regs = t.com.regs := by rfl) (hc : c.chip = t.com.chip := by rfl) :
    Background s { t with com := c, mem := m, fch := f, map := mp, str := st } := by
  have hrd (p o : Nat) : rd { t with com := c, mem := m, fch := f, map := mp, str := st } p o = rd t p o := rd_congr hr hc p o
  refine h.trans ⟨?_, fun p o => inForce_congr hr hc p o, fun p i hb => by rwa [hrd], fun d hb => by rwa [dieRetired, hrd]⟩
  constructor <;> intros <;> simp_all

/-- A register that is neither IRQ_STATUS nor, on a page of a channel, DIE_RETIRED. -/
theorem write (h : Background s t) (p o : Nat) (v : Word) (ho : o < 4096) (hirq : o ≠ rIRQ_STATUS) (hdie : ∀ d, ¬(diePage d = p ∧ FCH_DIE_RETIRED = o)) : Background s (wr t p o v) := by
  refine h.trans ⟨(State.AgreeOutside.refl _ t).wr p o v, fun _ _ => rfl, fun q i hb => ?_, fun d hb => ?_⟩
  · rwa [rd_wr _ _ ho (by decide), if_neg fun hn => hirq hn.2.symm]
  · rwa [dieRetired, rd_wr _ _ ho (by decide), if_neg (hdie d)]

/-- A register at another offset than theirs. -/
theorem wr (h : Background s t) (p o : Nat) (v : Word) (ho : o < 4096 ∧ rIRQ_STATUS ≠ o ∧ FCH_DIE_RETIRED ≠ o := by decide) : Background s (wr t p o v) :=
  h.write p o v ho.1 ho.2.1.symm fun _ hn => ho.2.2 hn.2

/-- A register of `MRM`. -/
theorem wrMrm (h : Background s t) (o : Nat) (v : Word) (ho : o < 4096 ∧ o ≠ rIRQ_STATUS := by decide) : Background s (Machine.wr t pMRM o v) :=
  h.write pMRM o v ho.1 ho.2 fun d hn => by
    have hp : 0x100 ≤ diePage d := Nat.le_add_right _ _
    exact absurd hn.1 (by unfold pMRM; omega)

theorem irq (h : Background s t) (p i : Nat) : Background s (irq t p i) := by
  refine h.trans ⟨(State.AgreeOutside.refl _ t).irq p i, fun q o => inForce_irq t p i q o, fun q j hb => bit_irqStatus_irq p i hb, fun d hb => ?_⟩
  rwa [dieRetired, Machine.irq, irqMask, rd_wr _ _ (by decide) (by decide), if_neg fun hn => absurd hn.2 (by decide)]

/-- An update of the shared part beside the registers. -/
theorem shared (h : Background s t) (c : Common) (hr : c.regs = t.com.regs := by rfl) (hc : c.chip = t.com.chip := by rfl) : Background s { t with com := c } :=
  h.parts c t.mem t.fch t.map t.str hr hc

end Background

/-! ### Logs and counted events -/

theorem logPush_background (s : State) (q : LogItem) : Background s (logPush s q) :=
  .ite (.shared (.refl s) _) (.irq (.wr (.refl s) _ _ _) _ _)

theorem logEvent_background (s : State) (v : LogEvent) : Background s (logEvent s v) := by
  unfold logEvent
  split <;> exact logPush_background s _

theorem setFault_background (s : State) (p : Nat) (c : FClass) (cause unit : Nat) : Background s (setFault s p c cause unit) := by
  refine .trans (t := writeFault s p c cause unit) ?_ (logEvent_background _ _)
  exact .ite (.wr (.refl s) _ _ _) (.irq (.wr (.refl s) _ _ _) _ _)

theorem lbEvent_background (s : State) (p : Nat) : Background s (lbEvent s p).1 := by
  have hcount (n : Nat) : Background s (wrF s p rLB_COUNT 15 0 n) := .wr (.refl s) _ _ _
  unfold lbEvent lbEventAt
  dsimp only
  split
  · exact .trans (.irq (.shared (hcount _) _) _ _) (setFault_background _ _ _ _ _)
  · exact hcount _

theorem logRetire_background (s : State) (page cause unit : Nat) : Background s (logRetire s page cause unit) := .irq (logEvent_background s _) _ _

/-! ### The MRAM -/

theorem dieSet_background (s : State) (d : Nat) (m : WordMem) : Background s (dieSet s d m) := .ite (.parts (.refl s) _ _ _ _ _) (.parts (.refl s) _ _ _ _ _)

theorem refreshFrames_background (s : State) : Background s (refreshFrames s) := by
  have hshow (a b c : Word) : Background s (wr (wr (wr s pMRM MRM_FRAMES a) pMRM MRM_PASS_MAX b) pMRM MRM_PASS_MIN c) := .wrMrm (.wr (.wr (.refl s) _ _ _) _ _ _) _ _
  exact .ite (.shared (.irq (hshow _ _ _) _ _) _) (hshow _ _ _)

theorem copyFrame_background (s : State) (src dst : Nat) : Background s (copyFrame s src dst) := (dieSet_background s _ _).trans (dieSet_background _ _ _)

theorem assignFrame_background (s : State) (l f : Nat) : Background s (assignFrame s l f) := .parts (.refl s) _ _ _ _ _

theorem frameRetire_background (s : State) (f : Nat) : Background s (frameRetire s f) := by
  unfold frameRetire
  dsimp only
  refine .ite (.refl s) (.trans (.irq (.parts ?_ _ _ _ _ _) _ _) (refreshFrames_background _))
  split
  · exact (copyFrame_background s _ _).trans (assignFrame_background _ _ _)
  · exact .refl s

theorem mrmCorrectedAt_background (s : State) (frame : Option Nat) : Background s (mrmCorrectedAt s frame) := by
  unfold mrmCorrectedAt
  extract_lets kept u m v
  have hv : Background s v := by
    have hu : Background s u := .wr (.refl s) _ _ _
    cases frame <;> exact .parts hu _ _ _ _ _
  clear_value v
  have hevent := hv.trans (lbEvent_background v pMRM)
  split
  rename_i w fired hw
  rw [hw] at hevent
  refine .ite ?_ hevent
  split
  · exact hevent.trans (frameRetire_background _ _)
  · exact hevent

theorem mrmArm_background (s : State) (off : Nat) : Background s (mrmArm s off) := by
  unfold mrmArm
  split
  · exact .refl s
  · exact .parts (dieSet_background s _ _) _ _ _ _ _

theorem mrmWordRead_background (s : State) (w : Nat) : Background s (mrmWordRead s w).1 := by
  have hlost {u : State} (hu : Background s u) (off : Nat) : Background s (irq (wr (bumpF u pMRM MRM_ECC_UE 15 0 1) pMRM MRM_UE_ADDR (w32 off)) pMRM 4) := .irq (.wr (.wr hu _ _ _) _ _ _) _ _
  have hmet {u : State} (hu : Background s u) (c : Prop) [Decidable c] (off : Nat) : Background s (if c then u else mrmCorrected u off) :=
    .ite hu (hu.trans (mrmCorrectedAt_background _ _))
  unfold mrmWordRead
  extract_lets off
  split
  · exact .refl s
  rename_i u p d0 d o above lost _
  have hu : Background s u := mrmArm_background s off
  clear_value u
  split
  · exact hlost hu off
  split
  extract_lets v v'
  have hv : Background s v' := hmet (hu.trans (dieSet_background _ _ _)) _ off
  clear_value v'
  split
  · exact hv
  split
  · exact hlost hv off
  split
  extract_lets x x'
  have hx : Background s x' := hmet (hv.trans (dieSet_background _ _ _)) _ off
  clear_value x'
  split
  · exact hlost hx off
  · exact .wr (hx.trans (dieSet_background _ _ _)) _ _ _

theorem mrmWordStore_background (s : State) (w : Nat) (bytes : List Byte) : Background s (mrmWordStore s w bytes) := by
  have hset {u : State} (hu : Background s u) (d : Nat) (m : WordMem) (c : Prop) [Decidable c] : Background s (if c then dieSet u d m else u) :=
    .ite (hu.trans (dieSet_background u d m)) hu
  exact .ite (.refl s) (hset (hset (.refl s) _ _ _) _ _ _)

theorem mrmMark_background (s : State) (w : Nat) (k : WordErr) : Background s (mrmMark s w k) := by
  have hset {u : State} (hu : Background s u) (d : Nat) (m : WordMem) (c : Prop) [Decidable c] : Background s (if c then dieSet u d m else u) :=
    .ite (hu.trans (dieSet_background u d m)) hu
  exact hset (hset (.refl s) _ _ _) _ _ _

theorem mrmFlush_background (s : State) (e : MergeEntry) : Background s (mrmFlush s e) := by
  have hread (u : State) (hu : Background s u) (w : Nat) {v : State} {b : Option (List Byte)} (hv : mrmWordRead u w = (v, b)) : Background s v := by
    have := mrmWordRead_background u w
    rw [hv] at this
    exact hu.trans this
  have hu : Background s { s with mem := { s.mem with mrmMerge := removeFirst (fun x : MergeEntry => x.index == e.index) s.mem.mrmMerge } } := .parts (.refl s) _ _ _ _ _
  unfold mrmFlush
  dsimp only
  refine .ite (hu.trans (mrmWordStore_background _ _ _)) ?_
  split
  · rename_i hv
    exact (hread _ hu _ hv).trans (mrmWordStore_background _ _ _)
  · rename_i hv
    exact (hread _ hu _ hv).trans ((mrmWordStore_background _ _ _).trans (mrmMark_background _ _ _))

theorem mrmMergeWrite_background (s : State) (w lo : Nat) (bytes : List Byte) : Background s (mrmMergeWrite s w lo bytes) := by
  unfold mrmMergeWrite
  split
  · exact .trans (.parts (.refl s) _ _ _ _ _) (mrmWordStore_background _ _ _)
  have hflush {u : State} (hu : Background s u) (m : Memory) (c : Prop) [Decidable c] (e : MergeEntry) :
      Background s (if c then mrmFlush { u with mem := m } e else { u with mem := m }) :=
    .ite (.trans (.parts hu _ _ _ _ _) (mrmFlush_background _ _)) (.parts hu _ _ _ _ _)
  split
  rename_i v e hv
  refine hflush ?_ _ _ _
  split at hv
  · obtain ⟨rfl, -⟩ := Prod.mk.inj hv
    exact .refl s
  · obtain ⟨rfl, -⟩ := Prod.mk.inj hv
    refine .parts ?_ _ _ _ _ _
    split
    · exact .ite (mrmFlush_background s _) (.refl s)
    · exact .refl s

theorem mramPut_background (s : State) (off : Nat) (bytes : List Byte) : Background s (mramPut s off bytes) := by
  have hwords := Background.foldlPair (f := fun (acc : State × List Byte) (p : Nat × Nat × Nat) => (mrmMergeWrite acc.1 p.1 p.2.1 (acc.2.take p.2.2), acc.2.drop p.2.2))
    (fun r p => mrmMergeWrite_background r.1 _ _ _) (pieces8 off bytes.length) (s, bytes)
  exact .ite (.wr (.wr (.parts hwords _ _ _ _ _) _ _ _) _ _ _) hwords

theorem ringWrite_background (s : State) (base size head : Nat) (bytes : List Byte) : Background s (ringWrite s base size head bytes) :=
  .ite ((mramPut_background s _ _).trans (mramPut_background _ _ _)) (mramPut_background s _ _)

/-! ### Dies and blocks -/

theorem putBst_background (s : State) (d b : Nat) (e : Bst) : Background s (putBst s d b e) := .parts (.refl s) _ _ _ _ _

theorem putDie_background (s : State) (d : Nat) (x : Die) : Background s (putDie s d x) := .wr (.wr (.parts (.refl s) _ _ _ _ _) _ _ _) _ _ _

theorem setEpochs_background (s : State) (p : Nat) (e : Epochs) : Background s (setEpochs s p e) := .wr (.wr (.shared (.refl s) _) _ _ _) _ _ _

theorem takeProgram_background (s : State) (die block page : Nat) : Background s (takeProgram s die block page) :=
  .ite (.trans (putDie_background s _ _) (.ite (setEpochs_background _ _ _) (setEpochs_background _ _ _))) (.refl s)

theorem jIssue_background (s : State) (p : JPayload) : Background s (jIssue s p).1 := by
  have hseq (v : Word) (c : Prop) [Decidable c] : Background s (if c then wr (wr s pMAP MAP_JSEQ_ISSUED v) pMAP MAP_JSEQ_TAIL v else wr s pMAP MAP_JSEQ_ISSUED v) :=
    .ite (.wr (.wr (.refl s) _ _ _) _ _ _) (.wr (.refl s) _ _ _)
  have hlisted {u : State} (hu : Background s u) (j : List JRecord) (c : Prop) [Decidable c] :
      Background s (if c then irq { u with map := { u.map with journal := j } } pMAP 6 else { u with map := { u.map with journal := j } }) :=
    .ite (.irq (.parts hu _ _ _ _ _) _ _) (.parts hu _ _ _ _ _)
  exact hlisted (hseq _ _) _ _

theorem issueBlockState_background (s : State) (d b : Nat) (st : BlockState) (upd : Bst → Bst) : Background s (issueBlockState s d b st upd) :=
  (jIssue_background s _).trans (putBst_background _ _ _ _)

theorem clearMediaWarning_background (s : State) : Background s (clearMediaWarning s) := .ite (.refl s) (.shared (.refl s) _)

theorem refreshPool_background (s : State) : Background s (refreshPool s) := by
  have hspare {u : State} (hu : Background s u) (c d : Prop) [Decidable c] [Decidable d] : Background s (if c then (if d then u else smartSet (irq u pMAP 4) 0) else u) :=
    .ite (.ite hu (.shared (.irq hu _ _) _)) hu
  have hmode {u : State} (hu : Background s u) (c d e : Prop) [Decidable c] [Decidable d] [Decidable e] :
      Background s (if c then u else if d then enterReadOnly u else if e then leaveReadOnly u else u) :=
    .ite hu (.ite (.shared (.shared (.irq (.wr hu _ _ _) _ _) _) _) (.ite (.shared (.trans (.irq (.wr hu _ _ _) _ _) (clearMediaWarning_background _)) _) hu))
  have hthrottle {u : State} (hu : Background s u) (c : Prop) [Decidable c] (a b : Bool) :
      Background s (wrB (wrB (if c then irq u pMAP 5 else u) pMAP MAP_MEDIA_STATE 1 a) pMAP MAP_MEDIA_STATE 2 b) := .wr (.wr (.ite (.irq hu _ _) hu) _ _ _) _ _ _
  exact hthrottle (hmode (hspare (.wr (.wr (.wr (.refl s) _ _ _) _ _ _) _ _ _) _ _) _ _ _) _ _ _

theorem refreshPlace_background (s : State) : Background s (refreshPlace s) := by
  unfold refreshPlace
  extract_lets n u none_ was v
  have hv : Background s v := .wr (.wr (.refl s) _ _ _) _ _ _
  clear_value v none_ was
  exact .ite (.shared (.shared hv _) _) (.ite (.shared (hv.trans (clearMediaWarning_background v)) _) hv)

/-! ### Sets and rebuilds -/

theorem refreshStr_background (s : State) : Background s (refreshStr s) := .wr (.wr (.wr (.wr (.refl s) _ _ _) _ _ _) _ _ _) _ _ _

theorem sIssue_background (s : State) (p : SPayload) : Background s (sIssue s p) := by
  have hseq (v : Word) (c : Prop) [Decidable c] :
      Background s (if c then wr (wr (wr s pSTR STR_SSEQ_ISSUED v) pSTR STR_SSEQ_DURABLE v) pSTR STR_SSEQ_TAIL v else wr (wr s pSTR STR_SSEQ_ISSUED v) pSTR STR_SSEQ_DURABLE v) :=
    .ite (.wr (.wr (.wr (.refl s) _ _ _) _ _ _) _ _ _) (.wr (.wr (.refl s) _ _ _) _ _ _)
  have hlisted {u : State} (hu : Background s u) (base size head : Nat) (bytes : List Byte) (st : Stripe) (c : Prop) [Decidable c] :
      Background s (if c then irq { ringWrite u base size head bytes with str := st } pSTR 6 else { ringWrite u base size head bytes with str := st }) := by
    have hring := hu.trans (ringWrite_background u base size head bytes)
    exact .ite (.irq (.parts hring _ _ _ _ _) _ _) (.parts hring _ _ _ _ _)
  exact hlisted (hseq _ _) _ _ _ _ _ _

theorem closeBlocks_background (s : State) (e : SetEntry) : Background s (closeBlocks s e) :=
  .foldl (fun u _ => .ite (issueBlockState_background u _ _ _ _) (.refl u)) _ s

theorem markAll_background (s : State) (l : List Member) : Background s (l.foldl (fun s m => markRelocate s m.die m.block) s) :=
  .foldl (fun u _ => putBst_background u _ _ _) l s

theorem closeSet_background (s : State) (n : Nat) (e : SetEntry) (pages : Nat) (collect : Bool) : Background s (closeSet s n e pages collect) := by
  have hclosed {u : State} (hu : Background s u) : Background s (closeBlocks (putSet u n { e with open_ := false, pages := pages, next := pages, collect := e.collect || collect }) e) :=
    .trans (.parts hu _ _ _ _ _) (closeBlocks_background _ e)
  have hdrop {u : State} (hu : Background s u) : Background s (refreshPool (dropStripe u n)) :=
    .trans (.trans (.parts hu _ _ _ _ _) (refreshStr_background _)) (refreshPool_background _)
  exact hdrop (.ite (.trans (hclosed (sIssue_background s _)) (markAll_background _ _)) (hclosed (sIssue_background s _)))

theorem closeSetsOn_background (s : State) (d : Nat) : Background s (closeSetsOn s d) := by
  refine .foldl (fun u e => ?_) _ s
  unfold abandonStripe
  split
  · exact .trans (.foldl (fun v _ => takeProgram_background v _ _ _) _ u) (closeSet_background _ _ _ _ _)
  · exact .refl u

theorem putRebuild_background (s : State) (d : Nat) (r : Rebuild) : Background s (putRebuild s d r) := .trans (.parts (.refl s) _ _ _ _ _) (refreshStr_background _)

end Sys2Proof.Machine

/-! The writes of registers that the opcode table lists as commands of their own (R110, R179, R211, R261, R393, R417, R593, R611, R614). -/

namespace Sys2Proof.Machine

-- The proofs are elaborated one after another: run side by side, each that waits for another holds a thread, whose stack counts against the check's memory.
set_option Elab.async false

/-! ### Writes of a live register of a block -/

/-- A write of a live register sets it, except where its own operation does, and the block acts on the defined bits (R8, R9). -/
theorem regWrite_live {s : State} {who : Initiator} {p off : Nat} {k : PageKind} {r : RegRow} (v : Word) (hp : p < 4096) (ho : 0x100 ≤ off) (ho' : off < 4096)
    (hk : pageKind? s.com.chip p = some k) (hr : rowAt? k off = some r) (ha : r.acc = .rw) (hc : r.cls = .live) (h : takesWrite s who p off = true) :
    regWrite s who p off v =
      answer (blockWrite (if selfSet k off then passes s who (.page p off) else wr (passes s who (.page p off)) p off (v &&& r.mask)) who p k off (v &&& r.mask) 0) .ack := by
  obtain ⟨k', r', hk', hr', _, heff⟩ := regWrite_of_takes v 0 hp ho' h
  obtain rfl := Option.some.inj (hk.symm.trans hk')
  obtain rfl := Option.some.inj (hr.symm.trans hr')
  have hne {o : Nat} (h : o < 0x100) : off ≠ o := by omega
  rw [heff]
  simp [rowWrite, ha, hc, hne (o := rIRQ_STATUS) (by decide), hne (o := rIRQ_FORCE) (by decide), hne (o := rSTAGE_CTRL) (by decide), hne (o := rSTAGE_STATUS) (by decide),
    hne (o := rLB_COUNT) (by decide), hne (o := rUNLOCK) (by decide)]

/-- The same for a register that the fabric sets, whose block does `f` with the bits written. -/
theorem regWrite_shows {s : State} {who : Initiator} {p off : Nat} {k : PageKind} {r : RegRow} {v m : Word} {f : State → Word → State} (hp : p < 4096) (ho : 0x100 ≤ off) (ho' : off < 4096)
    (hk : pageKind? s.com.chip p = some k) (hr : rowAt? k off = some r) (ha : r.acc = .rw) (hc : r.cls = .live) (h : takesWrite s who p off = true) (hset : selfSet k off = false) (hm : r.mask = m)
    (hf : (fun u w => blockWrite u who p k off w 0) = f) :
    regWrite s who p off v = answer (f (wr (passes s who (.page p off)) p off (v &&& m)) (v &&& m)) .ack := by
  subst hf hm
  rw [regWrite_live v hp ho ho' hk hr ha hc h, hset]
  rfl

/-- A command that writes a register ends with the registers that the block has left. -/
theorem runs_of_registers {c : Instr} {ps : List Part} {s w u : State} {a : Answer} {P : State → Prop} (he : exec c s = .next (confine ps s w)) (hw : w = answer u a)
    (h : ∀ t, (∀ p o, rd t p o = rd u p o) → RegsKept [] u t → P t) : Runs c s P := by
  subst hw
  exact ⟨_, he, h _ (fun p o => (rd_confine ps s _ p o).1.trans (rd_answer u a p o).1) (regsKept_of_eq [] rfl rfl)⟩

section
variable {s : State} {who : Initiator} {value : Word}

/-! ### MARGIN_CTRL, BST_SEL, RB_SEL and TOKEN_CEIL -/

/-- Every bit of MARGIN_CTRL is defined, and the port does nothing more at its write. -/
theorem runs_marginCtrlWrite {p : Port} (h : takesWrite s who (pHF p) HF_MARGIN_CTRL = true) :
    Runs (.marginCtrlWrite who p value) s fun t => rd t (pHF p) HF_MARGIN_CTRL = value ∧ RegsKept [(pHF p, HF_MARGIN_CTRL)] s t := by
  have hk : pageKind? s.com.chip (pHF p) = some .hf := by cases p <;> rfl
  have hmask : value &&& 0xFFFFFFFF = value := BitVec.and_allOnes
  have hw := regWrite_live value (by cases p <;> decide) (by decide) (by decide) hk rfl rfl rfl h
  dsimp only at hw
  rw [hmask] at hw
  exact runs_of_effect rfl hw ⟨rd_wr_same _ _ _ _, regsKept_wr _ _ (by decide) (by simp)⟩

/-- The registers that show a block's entry, after the selection. -/
def bstRegs : List (Nat × Nat) := [(pMAP, MAP_BST_SEL), (pMAP, MAP_BST_W0), (pMAP, MAP_BST_W0 + 4), (pMAP, MAP_BST_W0 + 8), (pMAP, MAP_BST_W0 + 12)]

theorem bstSelect_shows (s : State) (v : Word) :
    let e := bstOf s (fld v 25 16) (fld v 13 0)
    rd (bstSelect s v) pMAP MAP_BST_W0 = w32 (bstW0 e) ∧ rd (bstSelect s v) pMAP (MAP_BST_W0 + 4) = w32 (e.live % 2 ^ 21) ∧ rd (bstSelect s v) pMAP (MAP_BST_W0 + 8) = w32 e.jseqLast
      ∧ rd (bstSelect s v) pMAP (MAP_BST_W0 + 12) = w32 (e.pins * 65536 + e.closeStamp) ∧ RegsKept bstRegs s (bstSelect s v) := by
  refine ⟨?_, ?_, ?_, rd_wr_same _ _ _ _, ?_⟩
  · simp (disch := decide) only [bstSelect, rd_wr_otherOff, rd_wr_same]
  · simp (disch := decide) only [bstSelect, rd_wr_otherOff, rd_wr_same]
  · simp (disch := decide) only [bstSelect, rd_wr_otherOff, rd_wr_same]
  · have hwr (u : State) (o : Nat) (w : Word) (ho : o < 4096 ∧ (pMAP, o) ∈ bstRegs) : RegsKept bstRegs u (wr u pMAP o w) := regsKept_wr u w ho.1 ho.2
    exact ((((hwr s _ _ (by decide)).trans (hwr _ _ _ (by decide))).trans (hwr _ _ _ (by decide))).trans (hwr _ _ _ (by decide))).trans (hwr _ _ _ (by decide))

/-- A write of BST_SEL shows the entry of the block it names. -/
theorem runs_bstSelWrite (h : takesWrite s who pMAP MAP_BST_SEL = true) :
    Runs (.bstSelWrite who value) s fun t =>
      let e := bstOf s (fld value 25 16) (fld value 13 0)
      rd t pMAP MAP_BST_W0 = w32 (bstW0 e) ∧ rd t pMAP (MAP_BST_W0 + 4) = w32 (e.live % 2 ^ 21) ∧ rd t pMAP (MAP_BST_W0 + 8) = w32 e.jseqLast
      ∧ rd t pMAP (MAP_BST_W0 + 12) = w32 (e.pins * 65536 + e.closeStamp) ∧ RegsKept bstRegs s t := by
  have hfields : fld (value &&& 0x03FF3FFF) 25 16 = fld value 25 16 ∧ fld (value &&& 0x03FF3FFF) 13 0 = fld value 13 0 := ⟨fld_and (by decide), fld_and (by decide)⟩
  have hbst (v : Word) (d b : Nat) : bstOf (wr (passes s who (.page pMAP MAP_BST_SEL)) pMAP MAP_BST_SEL v) d b = bstOf s d b := by
    rw [bstOf, jDurable, rd_wr_otherOff _ _ _ (by decide)]
    rfl
  have hkept (v : Word) : RegsKept bstRegs s (wr (passes s who (.page pMAP MAP_BST_SEL)) pMAP MAP_BST_SEL v) :=
    (regsKept_passes bstRegs s who (.page pMAP MAP_BST_SEL)).trans (regsKept_wr _ v (by decide) (by decide))
  have hshow := bstSelect_shows (wr (passes s who (.page pMAP MAP_BST_SEL)) pMAP MAP_BST_SEL (value &&& 0x03FF3FFF)) (value &&& 0x03FF3FFF)
  simp only [hbst, hfields] at hshow
  obtain ⟨h0, h1, h2, h3, hregs⟩ := hshow
  have hw : regWrite s who pMAP MAP_BST_SEL value = answer (bstSelect (wr (passes s who (.page pMAP MAP_BST_SEL)) pMAP MAP_BST_SEL (value &&& 0x03FF3FFF)) (value &&& 0x03FF3FFF)) .ack :=
    regWrite_shows (k := .map) (f := bstSelect) (by decide) (by decide) (by decide) rfl rfl rfl rfl h rfl rfl rfl
  refine runs_of_registers rfl hw fun t hrd hkeep => ?_
  simp only [hrd]
  exact ⟨h0, h1, h2, h3, ((hkept _).trans hregs).trans (hkeep.mono (List.nil_subset _))⟩

/-- The registers that show a die's rebuild, after the selection. -/
def rebuildRegs : List (Nat × Nat) := [(pSTR, STR_RB_SEL), (pSTR, STR_RB_STATE), (pSTR, STR_RB_DONE), (pSTR, STR_RB_TOTAL)]

theorem rbSelect_shows (s : State) (v : Word) :
    let b := rebuildOf s (fld v 9 0)
    rdF (rbSelect s v) pSTR STR_RB_STATE 7 0 = b.state.code ∧ rd (rbSelect s v) pSTR STR_RB_DONE = w32 b.done ∧ rd (rbSelect s v) pSTR STR_RB_TOTAL = w32 b.total
      ∧ RegsKept rebuildRegs s (rbSelect s v) := by
  have hcode (n : Nat) (c : RbState) : fld (w32 (n % 2 ^ 24 * 256 + c.code)) 7 0 = c.code := by
    have hc : c.code < 256 := by cases c <;> decide
    rw [fld, w32, BitVec.toNat_ofNat, Nat.shiftRight_zero]
    omega
  refine ⟨?_, ?_, rd_wr_same _ _ _ _, ?_⟩
  · simp (disch := decide) only [rbSelect, rdF, rd_wr_otherOff, rd_wr_same, hcode]
  · simp (disch := decide) only [rbSelect, rd_wr_otherOff, rd_wr_same]
  · have hwr (u : State) (o : Nat) (w : Word) (ho : o < 4096 ∧ (pSTR, o) ∈ rebuildRegs) : RegsKept rebuildRegs u (wr u pSTR o w) := regsKept_wr u w ho.1 ho.2
    exact (((hwr s _ _ (by decide)).trans (hwr _ _ _ (by decide))).trans (hwr _ _ _ (by decide))).trans (hwr _ _ _ (by decide))

/-- A write of RB_SEL shows the rebuild of the die it names. -/
theorem runs_rbSelWrite (h : takesWrite s who pSTR STR_RB_SEL = true) :
    Runs (.rbSelWrite who value) s fun t =>
      let b := rebuildOf s (fld value 9 0)
      rdF t pSTR STR_RB_STATE 7 0 = b.state.code ∧ rd t pSTR STR_RB_DONE = w32 b.done ∧ rd t pSTR STR_RB_TOTAL = w32 b.total ∧ RegsKept rebuildRegs s t := by
  have hfield : fld (value &&& 0x3FF) 9 0 = fld value 9 0 := fld_and (by decide)
  have hkept (v : Word) : RegsKept rebuildRegs s (wr (passes s who (.page pSTR STR_RB_SEL)) pSTR STR_RB_SEL v) :=
    (regsKept_passes rebuildRegs s who (.page pSTR STR_RB_SEL)).trans (regsKept_wr _ v (by decide) (by decide))
  have hshow := rbSelect_shows (wr (passes s who (.page pSTR STR_RB_SEL)) pSTR STR_RB_SEL (value &&& 0x3FF)) (value &&& 0x3FF)
  simp only [hfield] at hshow
  obtain ⟨hstate, hdone, htotal, hregs⟩ := hshow
  have hw : regWrite s who pSTR STR_RB_SEL value = answer (rbSelect (wr (passes s who (.page pSTR STR_RB_SEL)) pSTR STR_RB_SEL (value &&& 0x3FF)) (value &&& 0x3FF)) .ack :=
    regWrite_shows (k := .str) (f := rbSelect) (by decide) (by decide) (by decide) rfl rfl rfl rfl h rfl rfl rfl
  refine runs_of_registers rfl hw fun t hrd hkeep => ?_
  simp only [rdF, hrd]
  exact ⟨hstate, hdone, htotal, ((hkept _).trans hregs).trans (hkeep.mono (List.nil_subset _))⟩

/-- TOKEN_CEIL takes the value clamped between TOKEN_MIN and TOKEN_MAX. -/
theorem runs_tokenCeilWrite (h : takesWrite s who pCLE CLE_TOKEN_CEIL = true) :
    Runs (.tokenCeilWrite who value) s fun t =>
      rd t pCLE CLE_TOKEN_CEIL = w32 (max (inF s pCLE CLE_TOKEN_MIN 10 0) (min (inF s pCLE CLE_TOKEN_MAX 10 0) (fld value 10 0))) ∧ RegsKept [(pCLE, CLE_TOKEN_CEIL)] s t := by
  have hfield : fld (value &&& 0x7FF) 10 0 = fld value 10 0 := fld_and (by decide)
  have hw := regWrite_live value (k := .cle) (by decide) (by decide) (by decide) rfl rfl rfl rfl h
  have hset : blockWrite (passes s who (.page pCLE CLE_TOKEN_CEIL)) who pCLE .cle CLE_TOKEN_CEIL (value &&& 0x7FF) 0 = setCeiling (passes s who (.page pCLE CLE_TOKEN_CEIL)) (fld value 10 0) := by
    rw [← hfield]
    rfl
  refine runs_of_effect rfl (hw.trans (congrArg (answer · .ack) hset)) ⟨rd_wr_same _ _ _ _, ?_⟩
  exact (regsKept_passes _ s who (.page pCLE CLE_TOKEN_CEIL)).trans (regsKept_wr _ _ (by decide) (by decide))

/-! ### IRESET and LOG_WRITE -/

/-- A request for the reset of an island that may be reset is taken up when none is in hand. -/
theorem runs_ireset (h : takesWrite s who pFLT FLT_IRESET = true) (hpage : (islandPage? s (fld value 7 0)).isSome = true) (hretired : islandRetired s (fld value 7 0) = false)
    (hnone : s.flt.resets = []) :
    Runs (.ireset who value) s fun t =>
      t.flt.resets = [256 + fld value 7 0] ∧ rd t pFLT FLT_IRESET_STATUS = w32 (2 ^ 31 + fld value 7 0 * 256) ∧ RegsKept [(pFLT, FLT_IRESET_STATUS)] s t := by
  have hfield : fld (value &&& 0xFF) 7 0 = fld value 7 0 := fld_and (by decide)
  have hlt : fld value 7 0 < 256 := fld_lt value 7 0
  obtain ⟨q, hq⟩ := Option.isSome_iff_exists.mp hpage
  have hrequest : islandRequest (passes s who (.page pFLT FLT_IRESET)) (fld value 7 0)
      = islandStatus { passes s who (.page pFLT FLT_IRESET) with flt := { s.flt with resets := [256 + fld value 7 0] } } true (fld value 7 0) 0 := by
    have hq' : islandPage? (passes s who (.page pFLT FLT_IRESET)) (fld value 7 0) = some q := hq
    have hretired' : islandRetired (passes s who (.page pFLT FLT_IRESET)) (fld value 7 0) = false := hretired
    have hnone' : (passes s who (.page pFLT FLT_IRESET)).flt.resets = [] := hnone
    simp only [islandRequest, hq', hretired', hnone']
    rfl
  have hw := regWrite_operation value (k := .flt) (by decide) (by decide) (by decide) rfl rfl rfl rfl h
  rw [show blockWrite (passes s who (.page pFLT FLT_IRESET)) who pFLT .flt FLT_IRESET (value &&& 0xFF) 0 = islandRequest (passes s who (.page pFLT FLT_IRESET)) (fld value 7 0) by
    rw [← hfield]; rfl, hrequest] at hw
  refine runs_of_effect rfl hw ⟨rfl, ?_, ?_⟩
  · rw [(rd_confine ..).1, (rd_answer ..).1, islandStatus, rd_wr_same, if_pos rfl, Nat.mod_eq_of_lt hlt, Nat.add_zero]
  · exact (regsKept_passes _ s who (.page pFLT FLT_IRESET)).trans (regsKept_wr _ _ (by decide) (by decide))

/-- LOG_WRITE queues a FIRMWARE entry while the queue has room and nothing holds it. -/
theorem runs_logWrite (h : takesWrite s who pFLT FLT_LOG_WRITE = true) (hroom : s.com.log.queue.length < 256) (hhold : s.flt.holdQueue = false) :
    Runs (.logWrite who value) s fun t =>
      (∃ x, t.com.log.queue = s.com.log.queue ++ [.entry x] ∧ x.kind = 7 ∧ x.cause = fld value 11 0 ∧ x.initiator = who.num
        ∧ x.detail = (rd s pFLT FLT_LOG_D0).toNat + (rd s pFLT FLT_LOG_D1).toNat * 2 ^ 32 ∧ x.fseq = (s.com.log.issued + 1) % 2 ^ 32)
      ∧ RegsKept [] s t := by
  have hfield : fld (value &&& 0xFFF) 11 0 = fld value 11 0 := fld_and (by decide)
  have hpush (q : LogItem) : logPush (passes s who (.page pFLT FLT_LOG_WRITE)) q = { passes s who (.page pFLT FLT_LOG_WRITE) with
      com := { (passes s who (.page pFLT FLT_LOG_WRITE)).com with log := { s.com.log with queue := s.com.log.queue ++ [q], issued := match q with
        | .entry e => e.fseq
        | .count _ _ => s.com.log.issued } } } :=
    if_pos ⟨hroom, by simp [hhold]⟩
  have hw := regWrite_operation value (k := .flt) (by decide) (by decide) (by decide) rfl rfl rfl rfl h
  rw [show blockWrite (passes s who (.page pFLT FLT_LOG_WRITE)) who pFLT .flt FLT_LOG_WRITE (value &&& 0xFFF) 0 = logWrite (passes s who (.page pFLT FLT_LOG_WRITE)) who (value &&& 0xFFF) from rfl,
    logWrite, logEvent, hfield, show (if kFIRMWARE = kREFUSAL then _ else none : Option LogEntry) = none from rfl] at hw
  dsimp only at hw
  rw [hpush] at hw
  exact runs_of_effect rfl hw ⟨⟨_, rfl, rfl, rfl, rfl, rfl, rfl⟩, regsKept_of_eq [] rfl rfl⟩

/-! ### RETIRE_REQ -/

theorem abandonErase_background (s : State) (d : Nat) (o : Option RunOp) : Background s (abandonErase s d o) := by
  unfold abandonErase
  split
  · exact putBst_background s _ _ _
  · exact .refl s

theorem handRung4_background (s : State) (j : ReadJob) : Background s (handRung4 s j) := by
  have hmark {u : State} (hu : Background s u) (c : Prop) [Decidable c] : Background s (if c then u else markRelocate u j.die j.block) := .ite hu (hu.trans (putBst_background u _ _ _))
  exact .parts (hmark (.shared (.irq (.wr (.refl s) _ _ _) _ _) _) _) _ _ _ _ _

theorem emptyDie_background (s : State) (d : Nat) : Background s (emptyDie s d) :=
  (((abandonErase_background s d _).trans (abandonErase_background _ d _)).trans (putDie_background _ _ _)).trans (.foldl handRung4_background _ _)

theorem rebuildFence_background (s : State) (d : Nat) : Background s (rebuildFence s d) :=
  .ite (((Background.refl s).irq pSTR 0).trans ((closeSetsOn_background _ d).trans (putRebuild_background _ _ _))) (.refl s)

theorem logRetire_raises (s : State) (p cause unit : Nat) : bit (rd (logRetire s p cause unit) pFLT rIRQ_STATUS) 1 = true := by
  rw [logRetire, rd_irq, bit_or, bit_oneBit (by decide), Bool.or_true]

/-- The retirement of a die in service sets DIE_RETIRED of the die and IRQ RETIRE of `FLT` (R179, R600). -/
theorem retireDie_retires {s : State} {d : Nat} (h : dieInService s d = true) : dieRetired (retireDie s d) d = true ∧ bit (rd (retireDie s d) pFLT rIRQ_STATUS) 1 = true := by
  obtain ⟨⟨-, hretired⟩, hfenced⟩ : (_ ∧ dieRetired s d = false) ∧ chanFenced s (d / 16) = false := by
    simpa only [dieInService, Bool.and_eq_true, Bool.not_eq_true'] using h
  unfold retireDie
  extract_lets p u v
  rw [if_neg (by simp [hretired, hfenced])]
  have hraised : bit (rd v pFLT rIRQ_STATUS) 1 = true := bit_irqStatus_irq _ _ (logRetire_raises _ _ _ _)
  clear_value v
  have hafter : Background (wrB v (diePage d) FCH_DIE_RETIRED (d % 16) true) (refreshPlace (refreshPool (fenceDie v d))) :=
    (((emptyDie_background _ d).trans (rebuildFence_background _ d)).trans (refreshPool_background _)).trans (refreshPlace_background _)
  refine ⟨hafter.retired d ?_, hafter.raised pFLT 1 ?_⟩
  · rw [dieRetired, rd_wrB_same]
    exact bit_setBit_same _ _ (by omega)
  · rwa [wrB, rd_wrF _ _ _ _ (by decide) (by decide), if_neg fun hn => absurd hn.2 (by decide)]

/-- A write of RETIRE_REQ without the channel bit retires the named die. -/
theorem runs_retireReq {ch : Chan} (h : takesWrite s who (pFCH ch.val) FCH_RETIRE_REQ = true) (hdie : bit value 31 = false) (hservice : dieInService s (16 * ch.val + fld value 3 0) = true) :
    Runs (.retireReq who ch value) s fun t => dieRetired t (16 * ch.val + fld value 3 0) = true ∧ bit (rd t pFLT rIRQ_STATUS) 1 = true := by
  have hp : pFCH ch.val < 4096 := by unfold pFCH; omega
  obtain ⟨_, k, r, hk, hr, _⟩ := (takesWrite_iff s who _ _).mp h
  obtain rfl := kind_of_channel hk
  have hfields : bit (value &&& 0x8000000F) 31 = bit value 31 ∧ fld (value &&& 0x8000000F) 3 0 = fld value 3 0 := ⟨(bit_and _ _ _).trans (Bool.and_true _), fld_and (by decide)⟩
  have hpassed {d : Nat} : dieInService (passes s who (.page (pFCH ch.val) FCH_RETIRE_REQ)) d = dieInService s d := rfl
  have hch : pFCH ch.val - 0x100 = ch.val := Nat.add_sub_cancel_left _ _
  have hw := regWrite_operation value (k := .fch) hp (by decide) (by decide) hk rfl rfl rfl h
  have hblock (u : State) (w : Word) : blockWrite u who (pFCH ch.val) .fch FCH_RETIRE_REQ w 0 = retireReq u (pFCH ch.val - 0x100) w := rfl
  dsimp only at hw
  rw [hblock, hch, retireReq, hfields.1, hdie, hfields.2] at hw
  obtain ⟨hretired, hraised⟩ := retireDie_retires (hpassed.trans hservice)
  generalize retireDie _ _ = u at hw hretired hraised
  refine runs_of_registers rfl hw fun t hrd _ => ?_
  rw [dieRetired, hrd, hrd, ← dieRetired]
  exact ⟨hretired, hraised⟩

/-! ### Rings and retirement of a caravan -/

/-- The registers that follow a caravan's state. -/
def caravanShown (n : Nat) : List (Nat × Nat) := [(pCVN n, CVN_ACTIVE), (pCVN n, CVN_CTX_STATE)]

theorem showCvn_keeps (s : State) (n : Nat) : RegsKept (caravanShown n) s (showCvn s n) := by
  have hwr (u : State) (o : Nat) (w : Word) (ho : o < 4096) (hm : (pCVN n, o) ∈ caravanShown n) : RegsKept (caravanShown n) u (wr u (pCVN n) o w) := regsKept_wr u w ho hm
  exact ((hwr s _ _ (by decide) (List.mem_cons_self ..)).trans (hwr _ _ _ (by decide) (.tail _ (.head _)))).trans (regsKept_of_eq _ rfl rfl)

theorem pageKind_caravan (ch : Chip) (v : CvnIx) : pageKind? ch (pCVN v.val) = some .cvn := by
  have hv := v.isLt
  unfold pageKind? pCVN
  simp (disch := omega) only [if_neg, if_pos]

/-- The row of a general ring's TAIL or CPL_HEAD. -/
theorem row_ringIndex {r : RingIx} {o : Nat} (hr : 3 ≤ r.val) (ho : o = 0x14 ∨ o = 0x1C) :
    ∃ row, rowAt? .cvn (rgOff r.val o) = some row ∧ row.acc = .rw ∧ row.cls = .live ∧ row.mask = 0x1FFF ∧ selfSet .cvn (rgOff r.val o) = true := by
  rcases ho with rfl | rfl
  · exact ⟨⟨CVN_RING_TAIL, 5, 32, .rw, .live, 0x00001FFF, 0x00000000, false⟩, by decide +revert⟩
  · exact ⟨⟨CVN_RING_CPL_HEAD, 5, 32, .rw, .live, 0x00001FFF, 0x00000000, false⟩, by decide +revert⟩

/-- A ring's index register shows what the write of it set, and only what follows a caravan's state changes beside it. -/
theorem ringIndex_shown {s u : State} {n o : Nat} {w : Word} (ho : o < 4096) (hshown : (pCVN n, o) ∉ caravanShown n) (hp : pCVN n < 4096) (hu : RegsKept [] s u) :
    rd (showCvn (wr u (pCVN n) o w) n) (pCVN n) o = w ∧ RegsKept ((pCVN n, o) :: caravanShown n) s (showCvn (wr u (pCVN n) o w) n) := by
  have hkeep := showCvn_keeps (wr u (pCVN n) o w) n
  exact ⟨((hkeep _ _ hp ho hshown).1).trans (rd_wr_same _ _ _ _),
    ((hu.mono (List.nil_subset _)).trans (regsKept_wr u w ho (List.mem_cons_self ..))).trans (hkeep.mono (List.subset_cons_self ..))⟩

theorem blockWrite_ringTail (u : State) (v : CvnIx) {r : RingIx} (hr : 3 ≤ r.val) (w : Word) : blockWrite u who (pCVN v.val) .cvn (rgOff r.val 0x14) w 0 = ringTail u v.val r.val w := by
  have hc : CVN_RING_TAIL ≤ rgOff r.val 0x14 ∧ (rgOff r.val 0x14 - CVN_RING_TAIL) % 32 = 0 ∧ rgOff r.val 0x14 < 0x300 := by decide +revert
  have hix : (rgOff r.val 0x14 - 0x200) / 32 = r.val := by decide +revert
  have hn : pCVN v.val - 0x040 = v.val := Nat.add_sub_cancel_left _ _
  rw [blockWrite, if_pos hc, hn, hix]

theorem blockWrite_ringCplHead (u : State) (v : CvnIx) {r : RingIx} (hr : 3 ≤ r.val) (w : Word) :
    blockWrite u who (pCVN v.val) .cvn (rgOff r.val 0x1C) w 0 = ringCplHead u v.val r.val w := by
  have htail : ¬(CVN_RING_TAIL ≤ rgOff r.val 0x1C ∧ (rgOff r.val 0x1C - CVN_RING_TAIL) % 32 = 0 ∧ rgOff r.val 0x1C < 0x300) := by decide +revert
  have hc : CVN_RING_CPL_HEAD ≤ rgOff r.val 0x1C ∧ (rgOff r.val 0x1C - CVN_RING_CPL_HEAD) % 32 = 0 ∧ rgOff r.val 0x1C < 0x300 := by decide +revert
  have hix : (rgOff r.val 0x1C - 0x200) / 32 = r.val := by decide +revert
  have hn : pCVN v.val - 0x040 = v.val := Nat.add_sub_cancel_left _ _
  rw [blockWrite, if_neg htail, if_pos hc, hn, hix]

/-- A write of a general ring's TAIL or CPL_HEAD that the caravan takes with the value `w`. -/
theorem runs_ringIndex {c : Instr} {ps : List Part} {v : CvnIx} {r : RingIx} {o : Nat} {w : Word} (hr : 3 ≤ r.val) (ho : o = 0x14 ∨ o = 0x1C)
    (h : takesWrite s who (pCVN v.val) (rgOff r.val o) = true) (hc : exec c s = .next (confine ps s (regWrite s who (pCVN v.val) (rgOff r.val o) value)))
    (hblock : blockWrite (passes s who (.page (pCVN v.val) (rgOff r.val o))) who (pCVN v.val) .cvn (rgOff r.val o) (value &&& 0x1FFF) 0
      = showCvn (wr (passes s who (.page (pCVN v.val) (rgOff r.val o))) (pCVN v.val) (rgOff r.val o) w) v.val) :
    Runs c s fun t => rd t (pCVN v.val) (rgOff r.val o) = w ∧ RegsKept ((pCVN v.val, rgOff r.val o) :: caravanShown v.val) s t := by
  have hp : pCVN v.val < 4096 := by unfold pCVN; omega
  have hlow : 0x200 ≤ rgOff r.val o := by unfold rgOff; omega
  have hhigh : rgOff r.val o < 4096 := by unfold rgOff; omega
  have hother : (pCVN v.val, rgOff r.val o) ∉ caravanShown v.val := by
    have hactive : rgOff r.val o ≠ CVN_ACTIVE := by unfold CVN_ACTIVE; omega
    have hstate : rgOff r.val o ≠ CVN_CTX_STATE := by unfold CVN_CTX_STATE; omega
    simp [caravanShown, hactive, hstate]
  obtain ⟨row, hrow, hacc, hcls, hmask, hself⟩ := row_ringIndex hr ho
  have hw := regWrite_live value hp (by omega) hhigh (pageKind_caravan _ v) hrow hacc hcls h
  rw [hself, if_pos rfl, hmask, hblock] at hw
  obtain ⟨hshown, hkeep⟩ := ringIndex_shown (w := w) hhigh hother hp (regsKept_passes [] s who (.page (pCVN v.val) (rgOff r.val o)))
  refine runs_of_registers hc hw fun t hrd hrest => ?_
  rw [hrd]
  exact ⟨hshown, hkeep.trans (hrest.mono (List.nil_subset _))⟩

/-- TAIL takes a value that leaves no more than the ring's size posted (R393). -/
theorem runs_ringTailWrite {v : CvnIx} {r : RingIx} (hr : 3 ≤ r.val) (h : takesWrite s who (pCVN v.val) (rgOff r.val 0x14) = true)
    (hroom : ringDist (rgSize s v.val r.val) (rgHead s v.val r.val) (fld value 12 0 % 2 ^ (rgSize s v.val r.val + 1)) ≤ 2 ^ rgSize s v.val r.val) :
    Runs (.ringTailWrite who v r value) s fun t => rd t (pCVN v.val) (rgOff r.val 0x14) = w32 (fld value 12 0 % 2 ^ (rgSize s v.val r.val + 1))
      ∧ RegsKept ((pCVN v.val, rgOff r.val 0x14) :: caravanShown v.val) s t := by
  have hfield : fld (value &&& 0x1FFF) 12 0 = fld value 12 0 := fld_and (by decide)
  have hpassed (t : Target) : rgSize (passes s who t) v.val r.val = rgSize s v.val r.val ∧ rgHead (passes s who t) v.val r.val = rgHead s v.val r.val := ⟨rfl, rfl⟩
  exact runs_ringIndex hr (.inl rfl) h rfl
    (by rw [blockWrite_ringTail _ v hr, ringTail, if_neg (Nat.not_lt.mpr hr), (hpassed _).1, (hpassed _).2, hfield, if_neg (Nat.not_lt.mpr hroom)])

/-- CPL_HEAD takes the value modulo twice the ring's size (R393). -/
theorem runs_ringCplHeadWrite {v : CvnIx} {r : RingIx} (hr : 3 ≤ r.val) (h : takesWrite s who (pCVN v.val) (rgOff r.val 0x1C) = true) :
    Runs (.ringCplHeadWrite who v r value) s fun t => rd t (pCVN v.val) (rgOff r.val 0x1C) = w32 (fld value 12 0 % 2 ^ (rgSize s v.val r.val + 1))
      ∧ RegsKept ((pCVN v.val, rgOff r.val 0x1C) :: caravanShown v.val) s t := by
  have hfield : fld (value &&& 0x1FFF) 12 0 = fld value 12 0 := fld_and (by decide)
  have hpassed (t : Target) : rgSize (passes s who t) v.val r.val = rgSize s v.val r.val := rfl
  exact runs_ringIndex hr (.inr rfl) h rfl (by rw [blockWrite_ringCplHead _ v hr, ringCplHead, if_neg (Nat.not_lt.mpr hr), hpassed, hfield])

/-- A caravan is fenced and at rest, the retirement is logged, and no in-force value has changed. -/
structure CaravanGone (n : Nat) (s t : State) : Prop where
  fenced : bit (rd t (pCVN n) rSTATUS) 1 = true
  raised : bit (rd t pFLT rIRQ_STATUS) 1 = true
  idle : cvnOf t n = Caravan.idle
  force : ∀ p o, inForce t p o = inForce s p o

namespace CaravanGone

variable {n : Nat} {t : State}

theorem wr (h : CaravanGone n s t) (p o : Nat) (v : Word) (ho : o < 4096 ∧ rSTATUS ≠ o ∧ rIRQ_STATUS ≠ o := by decide) : CaravanGone n s (wr t p o v) where
  fenced := by rw [rd_wr _ _ ho.1 (by decide), if_neg fun hn => ho.2.1 hn.2]; exact h.fenced
  raised := by rw [rd_wr _ _ ho.1 (by decide), if_neg fun hn => ho.2.2 hn.2]; exact h.raised
  idle := h.idle
  force := h.force

theorem showCvn (h : CaravanGone n s t) : CaravanGone n s (showCvn t n) := by
  have hregs (a b : Word) : CaravanGone n s (Machine.wr (Machine.wr t (pCVN n) CVN_ACTIVE a) (pCVN n) CVN_CTX_STATE b) := (h.wr _ _ a).wr _ _ b
  exact ⟨(hregs _ _).fenced, (hregs _ _).raised, h.idle, h.force⟩

theorem setEpochs (h : CaravanGone n s t) (e : Epochs) : CaravanGone n s (setEpochs t (pCVN n) e) := by
  have hstatus (u : State) (hu : CaravanGone n s u) (b : Bool) : CaravanGone n s (wrB u (pCVN n) rSTATUS 2 b) :=
    ⟨by rw [rd_wrB_same, bit_setBit _ _ _ (by decide)]; exact hu.fenced,
      by rw [wrB, wrF, rd_wr _ _ (by decide) (by decide), if_neg fun hn => absurd hn.2 (by decide)]; exact hu.raised, hu.idle, hu.force⟩
  have hepochs : CaravanGone n s { t with com := { t.com with epochs := t.com.epochs.putD (pCVN n) e ⟨0, 0⟩ } } := ⟨h.fenced, h.raised, h.idle, h.force⟩
  exact (hstatus _ hepochs _).wr (pCVN n) rSTAGE_STATUS _

end CaravanGone

theorem rgOn_congr {s t : State} (h : ∀ p o, inForce t p o = inForce s p o) (n r : Nat) : rgOn t n r = rgOn s n r := by
  unfold rgOn inF
  simp only [h]

/-- A caravan is fenced and its retirement logged; its record is the idle one. -/
theorem caravanGone_fence {s : State} {n : Nat} (hn : n < 16) (cause unit : Nat) (hidle : cvnOf s n = Caravan.idle) :
    CaravanGone n s (logRetire (setFault (wrB s (pCVN n) rSTATUS 1 true) (pCVN n) .permanent cause unit) (pCVN n) cause unit) := by
  have hp : pCVN n < 4096 := by unfold pCVN; omega
  have hne : pCVN n ≠ pFLT := by unfold pCVN pFLT; omega
  have hback (u : State) : Background u (logRetire (setFault u (pCVN n) .permanent cause unit) (pCVN n) cause unit) := (setFault_background u _ _ _ _).trans (logRetire_background _ _ _ _)
  refine ⟨?_, logRetire_raises _ _ _ _, ?_, (hback _).force⟩
  · have hfault := (setFault_regs (wrB s (pCVN n) rSTATUS 1 true) (pCVN n) .permanent cause unit (pCVN n) rSTATUS hp (by decide)
      (by simp [bucketRegs, logRegs, rSTATUS, rLB_COUNT, rIRQ_STATUS, rFAULT, FLT_LOG_LOST])).1
    have hlog := (logEvent_regs (setFault (wrB s (pCVN n) rSTATUS 1 true) (pCVN n) .permanent cause unit)
      { kind := kRETIRE, cls := FClass.permanent.code, page := pCVN n, cause := cause, unit := unit } (pCVN n) rSTATUS hp (by decide) (by simp [logRegs, hne])).1
    rw [logRetire, irq, irqMask, rd_wr _ _ (by decide) (by decide), if_neg fun hn => hne hn.1, hlog, hfault, rd_wrB_same]
    exact bit_setBit_same _ _ (by decide)
  · rw [cvnOf, (hback _).agree.cvn (by decide)]
    exact hidle

theorem cvnOf_record (s : State) (n : Nat) (c : Caravan) : cvnOf { s with cvn := { s.cvn with cvn := s.cvn.cvn.putD n c Caravan.idle } } n = c := Tab.getD_putD_same _ _ _ _

/-- The retirement of an idle caravan with no general ring on fences it, logs it and leaves it idle (R417). -/
theorem retireCvn_gone {s : State} {n : Nat} (hn : n < 16) (hstatus : bit (rd s (pCVN n) rSTATUS) 1 = false) (hidle : cvnOf s n = Caravan.idle)
    (hoff : ∀ q, 3 ≤ q → q < 8 → rgOn s n q = false) : CaravanGone n s (retireCvn s n false) := by
  unfold retireCvn
  rw [hidle]
  extract_lets p c u v w jobs x y
  rw [if_neg (by rw [hstatus]; exact Bool.false_ne_true)]
  have hw : CaravanGone n s w := caravanGone_fence hn _ _ hidle
  clear_value w
  have hx : CaravanGone n s x := .showCvn ⟨hw.fenced, hw.raised, cvnOf_record w n c, hw.force⟩
  clear_value x
  refine .showCvn (.setEpochs (List.foldlRecOn _ _ hx fun z hz r hr => ?_) _)
  have hon : 3 ≤ r → rgOn z n r = false := fun h3 => by
    rw [rgOn_congr hz.force]
    exact hoff r h3 (List.mem_range.mp hr)
  split
  · exact hz
  · rename_i h3
    extract_lets mine size a todo b
    have hnone : ¬rgOn a n r = true := ne_true_of_eq_false (hon (Nat.not_lt.mp h3))
    have htodo : todo = 0 := if_neg hnone
    clear_value todo
    subst htodo
    exact hz.wr _ _ _ (by unfold rgOff rSTATUS rIRQ_STATUS; have := List.mem_range.mp hr; omega)

/-- A write of RETIRE of a caravan with bit 0 retires it. -/
theorem runs_caravanRetire {v : CvnIx} (h : takesWrite s who (pCVN v.val) CVN_RETIRE = true) (hbit : bit value 0 = true) (hstatus : bit (rd s (pCVN v.val) rSTATUS) 1 = false)
    (hidle : cvnOf s v.val = Caravan.idle) (hoff : ∀ q, 3 ≤ q → q < 8 → rgOn s v.val q = false) :
    Runs (.caravanRetire who v value) s fun t => bit (rd t (pCVN v.val) rSTATUS) 1 = true ∧ bit (rd t pFLT rIRQ_STATUS) 1 = true ∧ cvnOf t v.val = Caravan.idle := by
  have hp : pCVN v.val < 4096 := by unfold pCVN; omega
  have hn : pCVN v.val - 0x040 = v.val := Nat.add_sub_cancel_left _ _
  have hwritten : bit (value &&& 1) 0 = true := (bit_and _ _ _).trans (by rw [hbit]; rfl)
  have hblock (u : State) (w : Word) : blockWrite u who (pCVN v.val) .cvn CVN_RETIRE w 0 = if bit w 0 then retireCvn u (pCVN v.val - 0x040) false else u := rfl
  have hw := regWrite_operation value hp (by decide) (by decide) (pageKind_caravan _ v) rfl rfl rfl h
  dsimp only at hw
  rw [hblock, hn, if_pos hwritten] at hw
  obtain ⟨hfenced, hraised, hgone, -⟩ := retireCvn_gone (s := passes s who (.page (pCVN v.val) CVN_RETIRE)) v.isLt hstatus hidle hoff
  exact runs_of_effect rfl hw ⟨hfenced, hraised, hgone⟩

end

/-- Settles O37: each write is one that its page takes, and the register's own operation shows what the clause asks. -/
theorem registerCommandWrites : Obligations.RegisterCommandWrites := by
  intro s who value p ch v r
  exact ⟨runs_marginCtrlWrite, runs_retireReq, runs_bstSelWrite, runs_rbSelWrite, runs_tokenCeilWrite, runs_ireset, runs_logWrite,
    fun hr => ⟨runs_ringTailWrite hr, runs_ringCplHeadWrite hr⟩, runs_caravanRetire⟩

end Sys2Proof.Machine

/-! What carrying out a command leaves beside the command itself: the reply shows in the queue engine's registers only. -/

namespace Sys2Proof.Machine

-- The proofs are elaborated one after another: run side by side, each that waits for another holds a thread, whose stack counts against the check's memory.
set_option Elab.async false

/-! ### After the reply -/

/-- `t` is the state `u` that the work of a command left, but for the list of commands, the error log, the room `reserved`, and what the queue engine shows of them. -/
structure AfterReply (ps : List Part) (reserved : Nat) (s u t : State) : Prop where
  hst : t.hst = { u.hst with cmds := t.hst.cmds, errors := t.hst.errors }
  com : t.com = { u.com with regs := t.com.regs, since := t.com.since }
  rd : ∀ p o, o < 4096 → o ≠ NQE_WB_HELD → rd t p o = rd u p o
  force : ∀ p o, inForce t p o = inForce u p o
  map : t.map = if ps.contains .mapP then { u.map with reserved := reserved } else s.map
  sgl : t.sgl = if ps.contains .sglP then u.sgl else s.sgl
  flt : t.flt = if ps.contains .fltP then u.flt else s.flt
  str : t.str = if ps.contains .strP then u.str else s.str
  key : t.key = if ps.contains .keyP then u.key else s.key
  bot : t.bot = if ps.contains .botP then u.bot else s.bot

theorem rd_putCmd (s : State) (c : HostCmd) (p : Nat) {o : Nat} (ho : o < 4096) (hne : o ≠ NQE_WB_HELD) : rd (putCmd s c) p o = rd s p o := by
  show rd (wr _ pNQE NQE_WB_HELD _) p o = rd s p o
  rw [rd_wr _ _ (by decide) ho, if_neg fun hn => hne hn.2]
  rfl

theorem putCmd_afterReply {ps : List Part} (hps : ps.contains .hstP = true) (s u : State) (c : HostCmd) : AfterReply ps u.map.reserved s u (confine ps s (putCmd u c)) where
  hst := by rw [show (confine ps s (putCmd u c)).hst = if ps.contains .hstP then (putCmd u c).hst else s.hst from rfl, if_pos hps]; rfl
  com := rfl
  rd p _ ho hne := rd_putCmd u c p ho hne
  force _ _ := rfl
  map := rfl
  sgl := rfl
  flt := rfl
  str := rfl
  key := rfl
  bot := rfl

theorem endCmd_afterReply {ps : List Part} (hps : ps.contains .hstP = true) (s u : State) (c : HostCmd) (st : NvStatus) (dw0 : Nat) (data : List Byte) :
    AfterReply ps (u.map.reserved - c.room) s u (confine ps s (endCmd u c st dw0 data)) := by
  unfold endCmd
  dsimp only
  split
  · exact { putCmd_afterReply hps s { u with map := { u.map with reserved := u.map.reserved - c.room } } { c with state := .done st dw0, reply := data, room := 0 } with }
  · have h := putCmd_afterReply hps s { u with
      map := { u.map with reserved := u.map.reserved - c.room }, hst := { u.hst with errors := ((c.q, c.cid, st, 0) :: u.hst.errors).take 256 } }
      { c with state := .done st dw0, reply := data, room := 0 }
    exact { h with }

section
variable {ps : List Part} {i : Instr} {s u : State} {admin : Bool} {op id : Nat} {cmd : HostCmd} {f : State → HostCmd → State × Reply} {P : State → Prop}
  (hexec : exec i s = .next (confine ps s (onCmd s admin op id f))) (hps : ps.contains .hstP = true) (hf : Fetched s id admin op cmd)
include hexec hps hf

/-- A row whose work replies ends the command, and the rest is as the work left it. -/
theorem ends_of_reply {st : NvStatus} {dw0 : Nat} {data : List Byte} (hu : f s cmd = (u, .done st dw0 data)) (hc : u.hst.cmds = s.hst.cmds)
    (hP : ∀ t, AfterReply ps (u.map.reserved - cmd.room) s u t → P t) : Ends i s id st dw0 data P := by
  have hcmd : cmdOf? u id = some cmd := (cmdOf?_congr hc id).trans hf.1
  have hon : onCmd s admin op id f = endCmd u cmd st dw0 data := onCmd_done hf hu hcmd
  have hafter := endCmd_afterReply hps s u cmd st dw0 data
  have hhst : (confine ps s (endCmd u cmd st dw0 data)).hst = (endCmd u cmd st dw0 data).hst := if_pos hps
  rw [← hon] at hafter hhst
  refine ⟨_, hexec, ⟨_, (cmdOf?_congr (by rw [hhst, hon]) id).trans (cmdOf?_endCmd st dw0 data hcmd), rfl, rfl⟩, hP _ hafter⟩

/-- A row whose work waits lists the command as waiting, and the rest is as the work left it. -/
theorem waits_of_reply {c : HostCmd} (hu : f s cmd = (u, .wait)) (hc : cmdOf? u id = some c)
    (hP : ∀ t, AfterReply ps u.map.reserved s u t → cmdOf? t id = some { c with state := .waiting } → P t) : Waits i s id P := by
  have hon : onCmd s admin op id f = putCmd u { c with state := .waiting } := onCmd_wait hf hu hc
  have hafter := putCmd_afterReply hps s u { c with state := .waiting }
  have hhst : (confine ps s (putCmd u { c with state := .waiting })).hst = (putCmd u { c with state := .waiting }).hst := if_pos hps
  rw [← hon] at hafter hhst
  have hget : cmdOf? (confine ps s (onCmd s admin op id f)) id = some { c with state := .waiting } :=
    (cmdOf?_congr (by rw [hhst, hon]) id).trans (cmdOf?_putCmd hc (show c.id = id from id_of_cmdOf? hc))
  exact ⟨_, hexec, ⟨_, hget, rfl⟩, hP _ hafter hget⟩

end

end Sys2Proof.Machine

/-! Structures laid out by fields over a block of bytes (R128, R147). -/

namespace Sys2Proof.Machine

-- The proofs are elaborated one after another: run side by side, each that waits for another holds a thread, whose stack counts against the check's memory.
set_option Elab.async false

/-! ### Fields laid over a block of bytes -/

/-- One field laid over a block. -/
def layField (l : List Byte) (f : Nat × List Byte) : List Byte := l.take f.1 ++ f.2 ++ l.drop (f.1 + f.2.length)

/-- The field lies within `n` bytes. -/
def FieldFits (n : Nat) (f : Nat × List Byte) : Prop := f.1 + f.2.length ≤ n

/-- The field shares no byte with the `n` bytes from `a` on. -/
def FieldClear (a n : Nat) (f : Nat × List Byte) : Prop := a + n ≤ f.1 ∨ f.1 + f.2.length ≤ a

theorem length_layField {l : List Byte} {f : Nat × List Byte} (h : FieldFits l.length f) : (layField l f).length = l.length := by
  unfold FieldFits at h
  simp only [layField, List.length_append, List.length_take, List.length_drop]
  omega

theorem field_layField_same {l : List Byte} {f : Nat × List Byte} (h : FieldFits l.length f) : ((layField l f).drop f.1).take f.2.length = f.2 := by
  have hlen : (l.take f.1).length = f.1 := by rw [List.length_take, Nat.min_eq_left (Nat.le_of_add_right_le h)]
  rw [layField, List.append_assoc, List.drop_append_of_le_length hlen.ge, List.drop_of_length_le hlen.le, List.nil_append, List.take_left]

theorem field_layField_clear {l : List Byte} {f : Nat × List Byte} {a n : Nat} (h : FieldFits l.length f) (hc : FieldClear a n f) :
    ((layField l f).drop a).take n = (l.drop a).take n := by
  unfold FieldFits at h
  unfold FieldClear at hc
  refine List.ext_getElem? fun i => ?_
  simp only [layField, List.getElem?_take, List.getElem?_drop, List.getElem?_append, List.length_append, List.length_take, Nat.min_eq_left (Nat.le_of_add_right_le h)]
  by_cases hi : i < n
  · rw [if_pos hi, if_pos hi]
    rcases hc with hlow | hhigh
    · rw [if_pos (by omega), if_pos (by omega), if_pos (by omega)]
    · rw [if_neg (by omega)]
      congr 1
      omega
  · rw [if_neg hi, if_neg hi]

theorem layFields_cons (l : List Byte) (f : Nat × List Byte) (fs : List (Nat × List Byte)) : layFields l (f :: fs) = layFields (layField l f) fs := rfl

theorem length_layFields (l : List Byte) (fs : List (Nat × List Byte)) (h : ∀ f ∈ fs, FieldFits l.length f) : (layFields l fs).length = l.length := by
  induction fs generalizing l with
  | nil => rfl
  | cons f fs ih =>
    have hf := length_layField (h f (List.mem_cons_self ..))
    rw [layFields_cons, ih _ fun g hg => by rw [hf]; exact h g (List.mem_cons_of_mem _ hg), hf]

theorem layFields_clear (l : List Byte) (fs : List (Nat × List Byte)) {a n : Nat} (h : ∀ f ∈ fs, FieldFits l.length f) (hc : ∀ f ∈ fs, FieldClear a n f) :
    ((layFields l fs).drop a).take n = (l.drop a).take n := by
  induction fs generalizing l with
  | nil => rfl
  | cons f fs ih =>
    have hf := h f (List.mem_cons_self ..)
    rw [layFields_cons, ih _ (fun g hg => by rw [length_layField hf]; exact h g (List.mem_cons_of_mem _ hg)) fun g hg => hc g (List.mem_cons_of_mem _ hg),
      field_layField_clear hf (hc f (List.mem_cons_self ..))]

/-- A field reads back when no later one touches it. -/
theorem layFields_field (l : List Byte) (pre : List (Nat × List Byte)) (f : Nat × List Byte) (post : List (Nat × List Byte)) (h : ∀ g ∈ pre ++ f :: post, FieldFits l.length g)
    (hc : ∀ g ∈ post, FieldClear f.1 f.2.length g) : ((layFields l (pre ++ f :: post)).drop f.1).take f.2.length = f.2 := by
  have hpre := length_layFields l pre fun g hg => h g (List.mem_append_left _ hg)
  have hf : FieldFits (layFields l pre).length f := by rw [hpre]; exact h f (List.mem_append_right _ (List.mem_cons_self ..))
  rw [show layFields l (pre ++ f :: post) = layFields (layField (layFields l pre) f) post from List.foldl_append ..,
    layFields_clear _ post (fun g hg => by rw [length_layField hf, hpre]; exact h g (List.mem_append_right _ (List.mem_cons_of_mem _ hg))) hc, field_layField_same hf]

theorem length_takeBytes (s : State) (n : Nat) : (takeBytes s n).2.length = n := by rw [takeBytes, List.length_map, List.length_range]

end Sys2Proof.Machine

/-! NVMe-MI, the management port, power states, partition reset and SPDM (R140, R141, R144, R146, R147, R533). -/

namespace Sys2Proof.Machine

-- The proofs are elaborated one after another: run side by side, each that waits for another holds a thread, whose stack counts against the check's memory.
set_option Elab.async false

/-! ### The wake that a request brings (R146, R577) -/

/-- Only the power state and registers of `PMU` and `NQE` differ, and the in-force values are the same. -/
structure Woken (s t : State) : Prop where
  hst : t.hst = { s.hst with power := t.hst.power }
  com : t.com = { s.com with regs := t.com.regs }
  force : ∀ p o, inForce t p o = inForce s p o
  rd : ∀ p o, o < 4096 → p ≠ pPMU → p ≠ pNQE → rd t p o = rd s p o

namespace Woken

variable {s t u : State}

theorem refl (s : State) : Woken s s := ⟨rfl, rfl, fun _ _ => rfl, fun _ _ _ _ _ => rfl⟩

theorem trans (h : Woken s t) (h' : Woken t u) : Woken s u where
  hst := by rw [h'.hst, h.hst]
  com := by rw [h'.com, h.com]
  force p o := (h'.force p o).trans (h.force p o)
  rd p o ho hp hq := (h'.rd p o ho hp hq).trans (h.rd p o ho hp hq)

theorem wr (h : Woken s t) (p o : Nat) (v : Word) (hp : p = pPMU ∨ p = pNQE) (ho : o < 4096) : Woken s (wr t p o v) := by
  refine h.trans ⟨rfl, rfl, fun _ _ => rfl, fun q o' ho' hq hq' => ?_⟩
  rw [rd_wr _ _ ho ho', if_neg]
  rintro ⟨rfl, -⟩
  exact hp.elim hq hq'

theorem ctlExists (h : Woken s t) (c : Nat) : ctlExists t c = ctlExists s c := by
  have hchip : t.com.chip = s.com.chip := by rw [h.com]
  have hpage (b : Bool) : rdF t (pHF b) HF_FN_STATUS 5 0 = rdF s (pHF b) HF_FN_STATUS 5 0 := by
    rw [rdF, h.rd _ _ (by decide) (by cases b <;> decide) (by cases b <;> decide), rdF]
  rw [Machine.ctlExists, Machine.ctlExists, numVfs, numVfs, hchip, hpage]

theorem allCtls (h : Woken s t) : allCtls t = allCtls s := by
  simp only [Machine.allCtls, funext h.ctlExists]

end Woken

theorem powerExit_woken (s : State) : Woken s (powerExit s) := by
  have hpower (x : PowerState) : Woken s { s with hst := { s.hst with power := x } } := ⟨rfl, rfl, fun _ _ => rfl, fun _ _ _ _ _ => rfl⟩
  unfold powerExit
  dsimp only
  split
  · exact .refl s
  · exact .wr (.wr (hpower _) _ _ _ (.inr rfl) (by decide)) _ _ _ (.inr rfl) (by decide)

theorem mgmtWake_woken (s : State) : Woken s (mgmtWake s) := by
  unfold mgmtWake wake
  extract_lets p u
  split
  · exact .refl s
  · exact .trans (.wr (.wr (.refl s) _ _ _ (.inl rfl) (by decide)) _ _ _ (.inl rfl) (by decide)) (powerExit_woken _)

/-! ### NVMe-MI on the management port -/

section
variable {ps : List Part} {i : Instr} {s : State} {send : Bool} {op : Nat} {f : State → State × MiAnswer} {P : State → Prop}

/-- A command on the management port that succeeds sends its response. -/
theorem runs_miRun {u : State} {data : List Byte} (hexec : exec i s = .next (confine ps s (miRun s none send op f))) (hps : ps.contains .hstP = true)
    (hf : f (mgmtWake s) = (u, .ok data)) (hout : u.hst.mctpOut = s.hst.mctpOut)
    (h : ∀ t, t.hst = { u.hst with mctpIn := u.hst.mctpIn.drop 1, mctpOut := s.hst.mctpOut ++ [[0, 0, 0, 0] ++ data] } → P t) : Runs i s P := by
  have hrun : miRun s none send op f = mgmtRespond u ([0, 0, 0, 0] ++ data) := by
    simp only [miRun, hf]
    rfl
  refine ⟨_, hexec, h _ ?_⟩
  rw [show (confine ps s (miRun s none send op f)).hst = if ps.contains .hstP then (miRun s none send op f).hst else s.hst from rfl, if_pos hps, hrun, mgmtRespond, hout]

end

/-- The health structure of the subsystem: its stated fields over free bytes. -/
def healthStruct (s : State) : List Byte := layFields (takeBytes s 8).2 [(1, bytesLE 1 (255 - s.com.smart % 256)), (2, bytesLE 1 (miTemp s)), (4, bytesLE 2 (s.hst.mi.getD 0x100 0))]

theorem length_healthStruct (s : State) : (healthStruct s).length = 8 :=
  (length_layFields _ _ (by simp [FieldFits, length_takeBytes, bytesLE])).trans (length_takeBytes s 8)

theorem healthStruct_warnings (s : State) : ((healthStruct s).drop 1).take 1 = bytesLE 1 (255 - s.com.smart % 256) :=
  layFields_field (takeBytes s 8).2 [] (1, bytesLE 1 (255 - s.com.smart % 256)) [(2, bytesLE 1 (miTemp s)), (4, bytesLE 2 (s.hst.mi.getD 0x100 0))]
    (by simp [FieldFits, length_takeBytes, bytesLE]) (by simp [FieldClear, bytesLE])

theorem miControllerPoll_data (first : Nat) (s : State) : ∃ r, miControllerPoll first s = (s, .ok r) ∧ r.length = 16 * min 255 ((allCtls s).filter fun k => decide (first ≤ k)).length := by
  refine ⟨_, rfl, ?_⟩
  rw [List.length_flatMap, List.map_congr_left (g := fun _ => 16) fun k _ => ?_, List.map_const', List.sum_replicate, List.length_take, Nat.mul_comm]
  · rfl
  · rfl

section
variable {s : State}

theorem runs_mgmtRequest (msg : List Byte) (elapsed : Nat) : Runs (.mgmtRequest msg elapsed) s fun t => t.hst.mctpIn = s.hst.mctpIn ++ [msg] :=
  ⟨_, rfl, congrArg HostSide.mctpIn (mgmtWake_woken _).hst⟩

theorem runs_miControllerList (first : BitVec 16) :
    Runs (.readNvmeMiDataStructure 2 first none) s fun t => t.hst.mctpOut = s.hst.mctpOut ++ [[0, 0, 0, 0] ++ ctlList ((allCtls s).filter fun k => decide (first.toNat ≤ k))] := by
  have hw := mgmtWake_woken s
  refine runs_miRun rfl (by decide) (u := mgmtWake s) (data := ctlList ((allCtls s).filter fun k => decide (first.toNat ≤ k))) ?_ (by rw [hw.hst]) fun t ht => by rw [ht]
  rw [← hw.allCtls]
  rfl

theorem runs_miSupportedCommands (ctl : BitVec 16) :
    Runs (.readNvmeMiDataStructure 4 ctl none) s fun t => t.hst.mctpOut = s.hst.mctpOut ++ [[0, 0, 0, 0] ++ (bytesLE 2 8 ++ (List.range 8).flatMap fun i => [8, BitVec.ofNat 8 i])] :=
  runs_miRun rfl (by decide) (u := mgmtWake s) rfl (by rw [(mgmtWake_woken s).hst]) fun t ht => by rw [ht]

/-- The subsystem's health carries the SMART warnings inverted; the composite status is cleared when asked. -/
theorem runs_subsystemHealthStatusPoll (clear : Bool) :
    Runs (.subsystemHealthStatusPoll clear none) s fun t => ∃ r, t.hst.mctpOut = s.hst.mctpOut ++ [[0, 0, 0, 0] ++ r] ∧ r.length = 8 ∧ (r.drop 1).take 1 = bytesLE 1 (255 - s.com.smart % 256)
      ∧ t.hst.mi.getD 0x100 0 = if clear then 0 else s.hst.mi.getD 0x100 0 := by
  have hw := mgmtWake_woken s
  have hpoll : miSubsystemPoll clear (mgmtWake s)
      = ({ takeFree (mgmtWake s) with hst := { (mgmtWake s).hst with mi := if clear then (mgmtWake s).hst.mi.put 0x100 0 else (mgmtWake s).hst.mi } },
        .ok (healthStruct (mgmtWake s))) := by
    cases clear <;> rfl
  refine runs_miRun rfl (by decide) hpoll (by rw [hw.hst]) fun t ht => ⟨_, by rw [ht], length_healthStruct _, ?_, ?_⟩
  · rw [healthStruct_warnings, hw.com]
  · rw [ht, hw.hst]
    cases clear
    · rfl
    · exact congrArg (Option.getD · 0) (Tab.get?_put_same _ _ _)

/-- A controller's health takes 16 bytes. -/
theorem runs_controllerHealthStatusPoll (first : BitVec 16) :
    Runs (.controllerHealthStatusPoll first none) s fun t => ∃ r, t.hst.mctpOut = s.hst.mctpOut ++ [[0, 0, 0, 0] ++ r]
      ∧ r.length = 16 * min 255 ((allCtls s).filter fun k => decide (first.toNat ≤ k)).length := by
  have hw := mgmtWake_woken s
  obtain ⟨r, hr, hlen⟩ := miControllerPoll_data first.toNat (mgmtWake s)
  refine runs_miRun rfl (by decide) hr (by rw [hw.hst]) fun t ht => ⟨r, by rw [ht], ?_⟩
  rw [hlen, hw.allCtls]

/-- A configuration value that is kept. -/
theorem miConfigSet_keeps {id : Nat} (h : id = 1 ∨ id = 3) (v : Nat) (s : State) : miConfigSet id v s = ({ s with hst := { s.hst with mi := s.hst.mi.put id v } }, .ok []) := by
  rcases h with rfl | rfl <;> rfl

theorem miConfigGet_kept {id v : Nat} (h : id = 1 ∨ id = 3) {s : State} (hv : s.hst.mi.get? id = some v) : miConfigGet id s = (s, .ok (bytesLE 4 v)) := by
  rcases h with rfl | rfl <;> simp [miConfigGet, miConfigIds, hv]

theorem toNat_configId {cfg : BitVec 8} (h : cfg = 1 ∨ cfg = 3) : cfg.toNat = 1 ∨ cfg.toNat = 3 := by
  rcases h with rfl | rfl
  · exact .inl rfl
  · exact .inr rfl

theorem runs_configurationSet {cfg : BitVec 8} (h : cfg = 1 ∨ cfg = 3) (value : Word) :
    Runs (.configurationSet cfg value none) s fun t => t.hst.mctpOut = s.hst.mctpOut ++ [[0, 0, 0, 0] ++ []] ∧ t.hst.mi.get? cfg.toNat = some value.toNat :=
  runs_miRun rfl (by decide) (miConfigSet_keeps (toNat_configId h) value.toNat _) (by rw [(mgmtWake_woken s).hst]) fun t ht => ⟨by rw [ht], by rw [ht]; exact Tab.get?_put_same _ _ _⟩

theorem runs_configurationGet {cfg : BitVec 8} (h : cfg = 1 ∨ cfg = 3) {v : Nat} (hv : s.hst.mi.get? cfg.toNat = some v) :
    Runs (.configurationGet cfg none) s fun t => t.hst.mctpOut = s.hst.mctpOut ++ [[0, 0, 0, 0] ++ bytesLE 4 v] := by
  have hw := mgmtWake_woken s
  exact runs_miRun rfl (by decide) (miConfigGet_kept (toNat_configId h) (by rw [hw.hst]; exact hv)) (by rw [hw.hst]) fun t ht => by rw [ht]

theorem miVpdRead_within {off len : Nat} (h : off + len ≤ 65536) (s : State) : miVpdRead off len s = (s, .ok (fit len (s.hst.vpd.drop off))) := if_neg (Nat.not_lt.mpr h)

theorem runs_vpdRead {off len : BitVec 16} (h : off.toNat + len.toNat ≤ 65536) :
    Runs (.vpdRead off len none) s fun t => t.hst.mctpOut = s.hst.mctpOut ++ [[0, 0, 0, 0] ++ fit len.toNat (s.hst.vpd.drop off.toNat)] := by
  have hw := mgmtWake_woken s
  refine runs_miRun rfl (by decide) (miVpdRead_within h (mgmtWake s)) (by rw [hw.hst]) fun t ht => ?_
  rw [ht, hw.hst]

/-- The VPD after a write, with zeros up to the bytes written. -/
def vpdWritten (v : List Byte) (off : Nat) (b : List Byte) : List Byte := layField (fit (max v.length (off + b.length)) v) (off, b)

theorem miVpdWrite_within {off : Nat} {b : List Byte} (h : off + b.length ≤ 65536) (s : State) :
    miVpdWrite off b s = ({ s with hst := { s.hst with vpd := vpdWritten s.hst.vpd off b } }, .ok []) := if_neg (Nat.not_lt.mpr h)

theorem vpdWritten_bytes (v : List Byte) (off : Nat) (b : List Byte) : ((vpdWritten v off b).drop off).take b.length = b :=
  field_layField_same (f := (off, b)) (by rw [FieldFits, length_fit]; exact Nat.le_max_right _ _)

theorem bAt_fit_of_length_le {n : Nat} {l : List Byte} (h : l.length ≤ n) (i : Nat) : bAt (fit n l) i = bAt l i := by
  unfold bAt fit
  rw [List.take_of_length_le (by rw [List.length_append, List.length_replicate]; omega)]
  congr 1
  by_cases hi : i < l.length
  · rw [List.getD_append _ _ _ _ hi]
  · rw [List.getD_append_right _ _ _ _ (Nat.not_lt.mp hi), List.getD_eq_default _ _ (Nat.not_lt.mp hi), List.getD_eq_getElem?_getD, List.getElem?_replicate]
    split <;> rfl

theorem vpdWritten_elsewhere (v : List Byte) {off : Nat} {b : List Byte} {i : Nat} (h : i < off ∨ off + b.length ≤ i) : bAt (vpdWritten v off b) i = bAt v i := by
  have hclear := field_layField_clear (l := fit (max v.length (off + b.length)) v) (f := (off, b)) (a := i) (n := 1)
    (by rw [FieldFits, length_fit]; exact Nat.le_max_right _ _) (by unfold FieldClear; dsimp only; omega)
  have hhead := congrArg List.head? hclear
  simp only [List.head?_take, List.head?_drop, Nat.one_ne_zero, if_false] at hhead
  rw [← bAt_fit_of_length_le (Nat.le_max_left v.length (off + b.length)) i, bAt, bAt, List.getD_eq_getElem?_getD, List.getD_eq_getElem?_getD, vpdWritten, hhead]

theorem runs_vpdWrite {off : BitVec 16} {bytes : List Byte} (h : off.toNat + bytes.length ≤ 65536) :
    Runs (.vpdWrite off bytes none) s fun t => t.hst.mctpOut = s.hst.mctpOut ++ [[0, 0, 0, 0] ++ []] ∧ (t.hst.vpd.drop off.toNat).take bytes.length = bytes
      ∧ ∀ i, i < off.toNat ∨ off.toNat + bytes.length ≤ i → bAt t.hst.vpd i = bAt s.hst.vpd i := by
  have hw := mgmtWake_woken s
  refine runs_miRun rfl (by decide) (miVpdWrite_within h (mgmtWake s)) (by rw [hw.hst]) fun t ht => ?_
  rw [ht, hw.hst]
  exact ⟨rfl, vpdWritten_bytes _ _ _, fun i hi => vpdWritten_elsewhere _ hi⟩

end

/-! ### The NVM Subsystem Reset (R608) -/

/-- A fold of steps that each leave the host side alone leaves it alone. -/
theorem foldl_hst {α : Type} {f : State → α → State} (hf : ∀ s a, (f s a).hst = s.hst) (l : List α) (s : State) : (l.foldl f s).hst = s.hst := by
  induction l generalizing s with
  | nil => rfl
  | cons a l ih => exact (ih (f s a)).trans (hf s a)

theorem railStart_hst (s : State) (r : Nat) : (railStart s r).hst = s.hst := by
  unfold railStart
  split <;> rfl

theorem logEvent_hst (s : State) (v : LogEvent) : (logEvent s v).hst = s.hst := (logEvent_background s v).agree.hst (by decide)

theorem frameRecover_hst (s : State) : (frameRecover s).hst = s.hst := by
  unfold frameRecover
  extract_lets bad top m u v
  have hv : v.hst = s.hst := by
    refine foldl_hst (fun w f => ?_) bad u
    split
    · rfl
    · extract_lets named
      split
      · rfl
      · split <;> rfl
  clear_value v
  split
  · exact hv
  · exact ((refreshFrames_background v).agree.hst (by decide)).trans hv

theorem refreshLaunch_hst (s : State) : (refreshLaunch s).hst = s.hst := by
  unfold refreshLaunch
  extract_lets a u
  cases a <;> rfl

/-- After a reset scope the host side is that of the reset. -/
theorem resetScope_hst (s : State) (code : Nat) : (resetScope s code).hst = resetHost (rollBack s).hst := by
  unfold resetScope
  extract_lets fenced u lost sg fl mp st fe pr t t0 t1 iso t2 t3 t4
  have h1 : t1.hst = t.hst := foldl_hst (f := fun t p => wrB t p rSTATUS 1 true) (fun _ _ => rfl) fenced t0
  have h2 : t2.hst = t1.hst := by
    show (if 2 ≤ code then _ else meterLost t1 : State).hst = t1.hst
    unfold meterLost
    split
    · rfl
    · split <;> rfl
  have h3 : t3.hst = t2.hst := foldl_hst railStart_hst _ t2
  have h4 : t4.hst = t3.hst := by
    show (if lost.isEmpty then t3 else _ : State).hst = t3.hst
    split <;> rfl
  have h0 : t.hst = resetHost u.hst := rfl
  clear_value t t1 t2 t3 t4
  rw [refreshLaunch_hst, logEvent_hst, frameRecover_hst, h4, h3, h2, h1, h0]

section
variable {s : State}

/-- Type 0 answers and, where a ferry may run, resets the subsystem: no controller is enabled. -/
theorem runs_nvmeMiReset (micros : Nat) :
    Runs (.nvmeMiReset 0 none micros) s fun t => t.hst.mctpOut.getLast? = some [0, 0, 0, 0] ∧ (ferryMay (mgmtWake s) = true → ∀ k, (ctlOf t k).enabled = false) := by
  have hrun : miRun s none true 7 (miReset 0 micros) = mgmtRespond (subsystemReset (mgmtWake s) micros) [0, 0, 0, 0] := rfl
  refine ⟨_, rfl, ?_, fun hmay k => ?_⟩
  · show ((miRun s none true 7 (miReset 0 micros)).hst.mctpOut).getLast? = _
    rw [hrun]
    exact List.getLast?_concat
  · show ((miRun s none true 7 (miReset 0 micros)).hst.ctls.getD k Ctrl.fresh).enabled = false
    have hctls : (subsystemReset (mgmtWake s) micros).hst.ctls = [] := by
      rw [subsystemReset, if_pos hmay, resetScope_hst]
      rfl
    rw [hrun, show (mgmtRespond (subsystemReset (mgmtWake s) micros) [0, 0, 0, 0]).hst.ctls = (subsystemReset (mgmtWake s) micros).hst.ctls from rfl, hctls]
    rfl

end

/-! ### NVMe-MI in band -/

section
variable {s : State} {id : Nat} {cmd : HostCmd}

theorem ends_nvmeMiSend_configuration (bytes : List Byte) (micros : Nat) (hf : Fetched s id true 0x1D cmd) (hop : miOpcode cmd.sqe = 3) (hid : cdw cmd.sqe 12 % 256 = 1 ∨ cdw cmd.sqe 12 % 256 = 3) :
    Ends (.nvmeMiSend id bytes micros) s id .success 0 [] fun t => t.hst.mi.get? (cdw cmd.sqe 12 % 256) = some (cdw cmd.sqe 13) := by
  have hu : miSend bytes micros s cmd = ({ s with hst := { s.hst with mi := s.hst.mi.put (cdw cmd.sqe 12 % 256) (cdw cmd.sqe 13) } }, .done .success 0 []) := by
    simp only [miSend, hop, miConfigSet_keeps hid]
    rfl
  refine ends_of_reply rfl (by decide) hf hu rfl fun t ht => ?_
  rw [ht.hst]
  exact Tab.get?_put_same _ _ _

theorem ends_nvmeMiSend_vpd {bytes : List Byte} (micros : Nat) (hf : Fetched s id true 0x1D cmd) (hop : miOpcode cmd.sqe = 6)
    (hroom : cdw cmd.sqe 12 % 65536 + bytes.length ≤ 65536) (hlen : cdw cmd.sqe 13 % 65536 = bytes.length) :
    Ends (.nvmeMiSend id bytes micros) s id .success 0 [] fun t => (t.hst.vpd.drop (cdw cmd.sqe 12 % 65536)).take bytes.length = bytes := by
  have hu : miSend bytes micros s cmd = ({ s with hst := { s.hst with vpd := vpdWritten s.hst.vpd (cdw cmd.sqe 12 % 65536) bytes } }, .done .success 0 []) := by
    simp only [miSend, hop, hlen, List.take_length, miVpdWrite_within hroom]
    rfl
  refine ends_of_reply rfl (by decide) hf hu rfl fun t ht => ?_
  rw [ht.hst]
  exact vpdWritten_bytes _ _ _

theorem ends_nvmeMiReceive_vpd (hf : Fetched s id true 0x1E cmd) (hop : miOpcode cmd.sqe = 5) (hroom : cdw cmd.sqe 12 % 65536 + cdw cmd.sqe 13 % 65536 ≤ 65536) :
    Ends (.nvmeMiReceive id) s id .success 0 (fit (cdw cmd.sqe 13 % 65536) (s.hst.vpd.drop (cdw cmd.sqe 12 % 65536))) fun t => t.hst.vpd = s.hst.vpd := by
  have hu : miReceive s cmd = (s, .done .success 0 (fit (cdw cmd.sqe 13 % 65536) (s.hst.vpd.drop (cdw cmd.sqe 12 % 65536)))) := by
    simp only [miReceive, hop, miVpdRead_within hroom]
    rfl
  exact ends_of_reply rfl (by decide) hf hu rfl fun t ht => by rw [ht.hst]

theorem ends_configurationGet {cfg : BitVec 8} {v : Nat} (hf : Fetched s id true 0x1E cmd) (hop : miOpcode cmd.sqe = 4) (hv : s.hst.mi.get? cfg.toNat = some v) (h : cfg = 1 ∨ cfg = 3) :
    Ends (.configurationGet cfg (some id)) s id .success 0 (bytesLE 4 v) fun t => t.hst.mi = s.hst.mi := by
  refine ends_of_reply (u := s) rfl (by decide) hf ?_ rfl fun t ht => by rw [ht.hst]
  simp only [hop, ne_eq, not_true_eq_false, if_false, miConfigGet_kept (toNat_configId h) hv]
  rfl

/-! ### Tunnelled commands (R147) -/

/-- A tunnelled command that is not among those carried out answers Invalid Command Opcode. -/
theorem runs_tunnelled_refused {sqe : BitVec 512} (bytes : List Byte) (h : sqeOp (bytesLE 64 sqe.toNat) ∉ [0x02, 0x06, 0x0A, 0x10, 0x11, 0x81, 0x82, 0xC2]) :
    Runs (.tunnelledAdminCommand sqe bytes) s fun t => t.hst.mctpOut = s.hst.mctpOut ++ [tunnelReply .invalidOpcode 0 []] := by
  have hnone : tunnelled bytes (bytesLE 64 sqe.toNat) = none := by
    unfold tunnelled
    split <;> simp_all
  have hrun : tunnelAdmin (bytesLE 64 sqe.toNat) bytes s = mgmtRespond (mgmtWake s) (tunnelReply .invalidOpcode 0 []) := by
    simp only [tunnelAdmin, hnone]
  refine ⟨_, rfl, ?_⟩
  show (tunnelAdmin (bytesLE 64 sqe.toNat) bytes s).hst.mctpOut = _
  rw [hrun, mgmtRespond, (mgmtWake_woken s).hst]

/-- The power state is the value of feature 0x02. -/
theorem getFeatures_powerState {s : State} {c : HostCmd} (h : cdwF c.sqe 10 7 0 = 0x02) : getFeatures s c = (s, .done .success s.hst.power.cur []) := by
  simp only [getFeatures, h]
  rfl

/-- The command that a tunnelled one is carried out as. -/
def tunnelCmd (s : State) (sqe data : List Byte) : HostCmd :=
  { id := s.hst.nextId, ctl := 0, q := mgmtQueue, cid := sqeCid sqe, sqe := sqe, dataLen := data.length, keySlot := none, room := 0, state := .fetched, reply := [], units := [], until_ := 0 }

/-- The command is listed while it is carried out. -/
def enlist (s : State) (c : HostCmd) : State := { s with hst := { s.hst with cmds := s.hst.cmds ++ [c], nextId := s.hst.nextId + 1 } }

/-- A tunnelled command that its carrying out ends answers, and leaves the list. -/
theorem tunnelAdmin_done {sqe data d : List Byte} {f : State → HostCmd → State × Reply} {u : State} {st : NvStatus} {dw0 : Nat} (ht : tunnelled data sqe = some f)
    (hu : f (enlist (mgmtWake s) (tunnelCmd (mgmtWake s) sqe data)) (tunnelCmd (mgmtWake s) sqe data) = (u, .done st dw0 d)) :
    tunnelAdmin sqe data s = mgmtRespond { u with hst := { u.hst with cmds := u.hst.cmds.filter fun y => y.id != (mgmtWake s).hst.nextId } } (tunnelReply st dw0 d) := by
  unfold tunnelCmd enlist at hu
  simp only [tunnelAdmin, ht]
  rw [hu]

/-- A tunnelled Get Features of the power state answers it and leaves no command behind. -/
theorem runs_tunnelled_powerState {sqe : BitVec 512} (bytes : List Byte) (hfresh : ∀ y ∈ s.hst.cmds, y.id ≠ s.hst.nextId) (hop : sqeOp (bytesLE 64 sqe.toNat) = 0x0A)
    (hfid : cdwF (bytesLE 64 sqe.toNat) 10 7 0 = 0x02) :
    Runs (.tunnelledAdminCommand sqe bytes) s fun t => t.hst.mctpOut = s.hst.mctpOut ++ [tunnelReply .success t.hst.power.cur []] ∧ t.hst.cmds = s.hst.cmds := by
  have hw := mgmtWake_woken s
  obtain ⟨hcmds, hnext, hout⟩ : (mgmtWake s).hst.cmds = s.hst.cmds ∧ (mgmtWake s).hst.nextId = s.hst.nextId ∧ (mgmtWake s).hst.mctpOut = s.hst.mctpOut := by
    rw [hw.hst]
    exact ⟨rfl, rfl, rfl⟩
  have htunnelled : tunnelled bytes (bytesLE 64 sqe.toNat) = some getFeatures := by
    simp only [tunnelled, hop]
  have hdropped : ((mgmtWake s).hst.cmds ++ [tunnelCmd (mgmtWake s) (bytesLE 64 sqe.toNat) bytes]).filter (fun y => y.id != (mgmtWake s).hst.nextId) = s.hst.cmds := by
    have hkept : s.hst.cmds.filter (fun y => y.id != s.hst.nextId) = s.hst.cmds := List.filter_eq_self.mpr fun y hy => bne_iff_ne.mpr (hfresh y hy)
    simp [hcmds, hnext, hkept, tunnelCmd]
  refine ⟨_, rfl, ?_⟩
  show (tunnelAdmin (bytesLE 64 sqe.toNat) bytes s).hst.mctpOut = s.hst.mctpOut ++ [tunnelReply .success (tunnelAdmin (bytesLE 64 sqe.toNat) bytes s).hst.power.cur []]
    ∧ (tunnelAdmin (bytesLE 64 sqe.toNat) bytes s).hst.cmds = s.hst.cmds
  rw [tunnelAdmin_done htunnelled (getFeatures_powerState hfid)]
  exact ⟨congrArg (· ++ _) hout, hdropped⟩

end

/-! ### Power states (R140, R141) -/

section
variable {s : State}

/-- The power state set, and what shows it, leave the rest of the host side alone. -/
theorem putPower_hst (s : State) (x : PowerState) : (putPower s x).hst = { s.hst with power := x } := rfl

theorem irqNqe_raised (s : State) (i : Nat) (h : i < 32) : bit (rd (irq s pNQE i) pNQE rIRQ_STATUS) i = true := by
  rw [rd_irq, bit_or, bit_oneBit h, Bool.or_true]

theorem runs_powerStateEntry_last {elapsed g : Nat} (htarget : s.hst.power.target = some g) (hferry : ferryRunning (advance s elapsed) = false) :
    Runs (.powerStateEntryStep true elapsed) s fun t =>
      t.hst.power = { s.hst.power with cur := g, target := none, steps := s.hst.power.steps + 1 } ∧ bit (rd t pNQE rIRQ_STATUS) 1 = true := by
  have htarget' : (advance s elapsed).hst.power.target = some g := htarget
  have hstep : powerStep (advance s elapsed) true = irq (putPower (advance s elapsed) { s.hst.power with cur := g, target := none, steps := s.hst.power.steps + 1 }) pNQE 1 := by
    simp only [powerStep, htarget', hferry]
    rfl
  exact runs_of_effect rfl hstep ⟨rfl, irqNqe_raised _ _ (by decide)⟩

theorem runs_powerStateEntry_step {elapsed g : Nat} (htarget : s.hst.power.target = some g) (hferry : ferryRunning (advance s elapsed) = false) :
    Runs (.powerStateEntryStep false elapsed) s fun t => t.hst.power = { s.hst.power with steps := s.hst.power.steps + 1 } := by
  have htarget' : (advance s elapsed).hst.power.target = some g := htarget
  have hstep : powerStep (advance s elapsed) false = putPower (advance s elapsed) { s.hst.power with steps := s.hst.power.steps + 1 } := by
    simp only [powerStep, htarget', hferry]
    rw [← htarget]
    rfl
  exact runs_of_effect rfl hstep rfl

theorem runs_powerStateExit (h : s.hst.power.target.isSome = true ∨ 3 ≤ s.hst.power.cur) :
    Runs .powerStateExit s fun t => t.hst.power = ⟨0, none, 0, s.com.time⟩ ∧ bit (rd t pNQE rIRQ_STATUS) 1 = true := by
  have hleft : ¬(s.hst.power.target.isNone = true ∧ s.hst.power.cur ≤ 2) := by
    rintro ⟨hnone, hcur⟩
    rcases h with h | h
    · rw [Option.isNone_iff_eq_none.mp hnone] at h
      cases h
    · omega
  exact runs_of_effect rfl (show powerExit s = irq (putPower s ⟨0, none, 0, s.com.time⟩) pNQE 1 from if_neg hleft) ⟨rfl, irqNqe_raised _ _ (by decide)⟩

/-- The entry of the APST table for the present state, with its idle time run out, begins the transition. -/
theorem runs_apstTransition {elapsed : Nat} :
    let v := (ctlOf s 0).feats.getD 0x0C 0
    let p := s.hst.power
    let e := v / 2 / 2 ^ (64 * p.cur) % 2 ^ 64
    v % 2 = 1 → (e / 8 % 32 = 3 ∨ e / 8 % 32 = 4) → e / 256 % 2 ^ 24 ≠ 0 → p.target = none → p.cur < e / 8 % 32 → s.hst.cmds = [] → ferryRunning (advance s elapsed) = false →
      e / 256 % 2 ^ 24 * 1000000 ≤ ((advance s elapsed).com.time - p.idleSince).toNat →
      Runs (.apstTransition elapsed) s fun t => t.hst.power = { p with target := some (e / 8 % 32), steps := 0 } := by
  intro v p e hv hstate hms htarget hcur hcmds hferry hidle
  have hcond : v % 2 = 1 ∧ 3 ≤ e / 8 % 32 ∧ e / 8 % 32 ≤ 4 ∧ e / 256 % 2 ^ 24 ≠ 0 ∧ p.target.isNone = true ∧ p.cur < e / 8 % 32 ∧ s.hst.cmds.isEmpty = true
      ∧ e / 256 % 2 ^ 24 * 1000000 ≤ ((advance s elapsed).com.time - p.idleSince).toNat :=
    ⟨hv, by omega, by omega, hms, by rw [htarget]; rfl, hcur, by rw [hcmds]; rfl, hidle⟩
  have hset : apst (advance s elapsed) = setPower (advance s elapsed) (e / 8 % 32) := if_pos hcond
  have hput : setPower (advance s elapsed) (e / 8 % 32) = putPower (advance s elapsed) { p with target := some (e / 8 % 32), steps := 0 } := by
    rw [setPower, if_neg (by omega), if_neg (by rw [hferry]; exact Bool.false_ne_true)]
    rfl
  exact runs_of_effect rfl (hset.trans hput) rfl

end

/-! ### Reset of a controller and of a partition (R144, R608) -/

/-- No command of the controller is in flight. -/
def NoCmdsOf (s : State) (c : Nat) : Prop := ∀ y ∈ s.hst.cmds, y.ctl ≠ c

theorem dropItem_hst (s : State) (i : Nat) : (dropItem s i).hst = s.hst := by
  have hqueue (u : State) (q : Nat) (l : List Nat) (c : Prop) [Decidable c] : (if c then putQueue u q l else u).hst = u.hst := by split <;> rfl
  unfold dropItem
  split
  · split <;> rfl
  · extract_lets x u
    have hu : u.hst = s.hst := hqueue _ _ _ _
    clear_value u
    split <;> exact hu

theorem putItem_hst (s : State) (n : Nat) (x : Item) : (putItem s n x).hst = s.hst := by
  unfold putItem refreshFree
  extract_lets d n was v
  split <;> rfl

/-- The work of the runs of a controller that end: no controller changes, and no command joins. -/
theorem endRuns_hst (s : State) (c : Nat) : (endRuns s c).hst.ctls = s.hst.ctls ∧ ∀ y ∈ (endRuns s c).hst.cmds, y ∈ s.hst.cmds := by
  refine List.foldlRecOn (motive := fun u : State => u.hst.ctls = s.hst.ctls ∧ ∀ y ∈ u.hst.cmds, y ∈ s.hst.cmds) _ _ ⟨rfl, fun _ h => h⟩ fun u hu r _ => ?_
  obtain ⟨hctls, hcmds⟩ := hu
  have hrun (v : State) (hv : cmdOf? v r.cmd = none) : (finishRun v r .programFault 0xFFFFFFFF).hst = v.hst := by
    unfold finishRun
    extract_lets p u item q
    have hq : q.hst = v.hst := putItem_hst _ _ _
    have hnone : cmdOf? q r.cmd = none := (cmdOf?_congr (by rw [hq]) _).trans hv
    rw [hnone]
    exact hq
  have hdropped := dropItem_hst { u with hst := { u.hst with cmds := u.hst.cmds.filter fun c => c.id != r.cmd } } r.slot
  have hgone : cmdOf? (dropItem { u with hst := { u.hst with cmds := u.hst.cmds.filter fun c => c.id != r.cmd } } r.slot) r.cmd = none := by
    rw [cmdOf?, hdropped]
    exact List.find?_eq_none.mpr fun y hy => by simpa using (List.mem_filter.mp hy).2
  rw [hrun _ hgone, hdropped]
  exact ⟨hctls, fun y hy => hcmds y (List.mem_filter.mp hy).1⟩

theorem endCmd_hst (s : State) (c : HostCmd) (st : NvStatus) (dw0 : Nat) (data : List Byte) :
    (endCmd s c st dw0 data).hst.ctls = s.hst.ctls
      ∧ (endCmd s c st dw0 data).hst.cmds = s.hst.cmds.map fun x => if x.id == c.id then { c with state := .done st dw0, reply := data, room := 0 } else x := by
  unfold endCmd
  dsimp only
  split <;> exact ⟨rfl, rfl⟩

theorem endCmd_noCmds {s : State} {c : HostCmd} {k : Nat} (st : NvStatus) (dw0 : Nat) (data : List Byte) (h : NoCmdsOf s k) (hc : c.ctl ≠ k) : NoCmdsOf (endCmd s c st dw0 data) k := by
  intro y hy
  rw [(endCmd_hst s c st dw0 data).2] at hy
  obtain ⟨x, hx, rfl⟩ := List.mem_map.mp hy
  split
  · exact hc
  · exact h x hx

/-- Ending commands changes no controller. -/
theorem endAll_ctls (s : State) (p : HostCmd → Bool) (st : NvStatus) : (endAll s p st).hst.ctls = s.hst.ctls := by
  refine List.foldlRecOn (motive := fun u : State => u.hst.ctls = s.hst.ctls) _ _ rfl fun u hu c _ => ?_
  split
  · split
    · exact hu
    · exact (endCmd_hst u c st 0 []).1.trans hu
  · exact hu

theorem endAll_noCmds {s : State} {k : Nat} (p : HostCmd → Bool) (st : NvStatus) (h : NoCmdsOf s k) : NoCmdsOf (endAll s p st) k := by
  refine List.foldlRecOn (motive := fun u : State => NoCmdsOf u k) _ _ h fun u hu c hc => ?_
  split
  · split
    · exact hu
    · exact endCmd_noCmds st 0 [] hu (h c hc)
  · exact hu

/-- A reset controller has no command and keeps its flexible resources. -/
theorem resetCtl_same (s : State) (c : Nat) :
    NoCmdsOf (resetCtl s c) c ∧ ctlOf (resetCtl s c) c = { Ctrl.fresh with online := (ctlOf s c).online, vq := (ctlOf s c).vq, vi := (ctlOf s c).vi } := by
  have hctl : ctlOf (endAll s (fun y => y.ctl == c) .sqDeletion) c = ctlOf s c := by rw [ctlOf, endAll_ctls, ctlOf]
  refine ⟨fun y hy => ?_, ?_⟩
  · simpa using (List.mem_filter.mp hy).2
  · rw [← hctl]
    exact Tab.getD_putD_same _ _ _ _

/-- The reset of another controller leaves a controller and its commands alone. -/
theorem resetCtl_ne {s : State} {c k : Nat} (h : k ≠ c) : (NoCmdsOf s k → NoCmdsOf (resetCtl s c) k) ∧ ctlOf (resetCtl s c) k = ctlOf s k := by
  refine ⟨fun hs y hy => endAll_noCmds _ _ hs y (List.mem_filter.mp hy).1, ?_⟩
  rw [← show ctlOf (endAll s (fun y => y.ctl == c) .sqDeletion) k = ctlOf s k by rw [ctlOf, endAll_ctls, ctlOf]]
  exact Tab.getD_putD_ne _ _ _ _ h

/-- One controller of a partition is reset, and logged when it exists. -/
def resetOne (s : State) (c : Nat) : State :=
  let t := resetCtl (endRuns s c) c
  if ctlExists s c then logEvent t { kind := kRESET, page := pNQE, cause := 6, unit := c } else t

theorem resetOne_hst (s : State) (c : Nat) : (resetOne s c).hst = (resetCtl (endRuns s c) c).hst := by
  unfold resetOne
  extract_lets t
  split
  · exact logEvent_hst _ _
  · rfl

theorem resetOne_same (s : State) (c : Nat) :
    NoCmdsOf (resetOne s c) c ∧ ctlOf (resetOne s c) c = { Ctrl.fresh with online := (ctlOf s c).online, vq := (ctlOf s c).vq, vi := (ctlOf s c).vi } := by
  have hctl : ctlOf (endRuns s c) c = ctlOf s c := by rw [ctlOf, (endRuns_hst s c).1, ctlOf]
  obtain ⟨hcmds, hreset⟩ := resetCtl_same (endRuns s c) c
  rw [hctl] at hreset
  exact ⟨fun y hy => hcmds y (by rwa [resetOne_hst] at hy), by rw [ctlOf, resetOne_hst]; exact hreset⟩

theorem resetOne_ne {s : State} {c k : Nat} (h : k ≠ c) : (NoCmdsOf s k → NoCmdsOf (resetOne s c) k) ∧ ctlOf (resetOne s c) k = ctlOf s k := by
  have hctl : ctlOf (endRuns s c) k = ctlOf s k := by rw [ctlOf, (endRuns_hst s c).1, ctlOf]
  obtain ⟨hcmds, hreset⟩ := resetCtl_ne (s := endRuns s c) h
  refine ⟨fun hs y hy => ?_, by rw [ctlOf, resetOne_hst, ← hctl, ← hreset, ctlOf]⟩
  rw [resetOne_hst] at hy
  exact hcmds (fun z hz => hs z ((endRuns_hst s c).2 z hz)) y hy

section
variable {s : State}

/-- FLR of a partition VF leaves its controller reset with no command, and raises NQE IRQ 2. -/
theorem runs_partitionReset {fn : Fin 64} (hmode : partitionMode s = true) (hfn : fn.val ≠ 0) :
    Runs (.partitionReset fn) s fun t => (∀ y ∈ t.hst.cmds, y.ctl ≠ fn.val)
      ∧ ctlOf t fn.val = { Ctrl.fresh with online := (ctlOf s fn.val).online, vq := (ctlOf s fn.val).vq, vi := (ctlOf s fn.val).vi } ∧ bit (rd t pNQE rIRQ_STATUS) 2 = true := by
  have hreset : partitionReset s fn.val = irq (if (resetOne s fn.val).com.chip.split then resetOne (resetOne s fn.val) (64 + fn.val) else resetOne s fn.val) pNQE 2 :=
    if_neg (by simp [hmode, hfn])
  have hone := resetOne_same s fn.val
  have hboth : NoCmdsOf (if (resetOne s fn.val).com.chip.split then resetOne (resetOne s fn.val) (64 + fn.val) else resetOne s fn.val) fn.val
      ∧ ctlOf (if (resetOne s fn.val).com.chip.split then resetOne (resetOne s fn.val) (64 + fn.val) else resetOne s fn.val) fn.val
        = { Ctrl.fresh with online := (ctlOf s fn.val).online, vq := (ctlOf s fn.val).vq, vi := (ctlOf s fn.val).vi } := by
    split
    · have hother := resetOne_ne (s := resetOne s fn.val) (c := 64 + fn.val) (k := fn.val) (by omega)
      exact ⟨hother.1 hone.1, hother.2.trans hone.2⟩
    · exact hone
  generalize (if (resetOne s fn.val).com.chip.split then resetOne (resetOne s fn.val) (64 + fn.val) else resetOne s fn.val) = u at hreset hboth
  exact runs_of_effect rfl hreset ⟨hboth.1, hboth.2, irqNqe_raised _ _ (by decide)⟩

/-! ### SPDM (R533) -/

theorem runs_spdm_measurement {idx : BitVec 8} (hboot : 2 ≤ rdF s pSCP SCP_BOOT_STAGE 3 0) :
    Runs (.spdmRequest 2 (.measurements (some idx))) s fun t =>
      t.bot.spdmOut = s.bot.spdmOut ++ [(2, measureBlock s idx.toNat ++ Config.sign 0 (ofBytesLE s.bot.edSeed) (measureBlock s idx.toNat))] := by
  have hopen : ¬(rdF s pSCP SCP_BOOT_STAGE 3 0 < 2 ∨ (2 < 2 ∧ (!(linkOf s (decide (2 = 1))).up) = true)) := by omega
  exact runs_of_effect rfl (show spdmRequest s 2 (.measurements (some idx)) = _ from if_neg hopen) rfl

theorem runs_spdm_setCertificate {chain : List Byte} (hboot : 2 ≤ rdF s pSCP SCP_BOOT_STAGE 3 0) :
    Runs (.spdmRequest 2 (.setCertificate chain)) s fun t => t.bot.chain1 = chain := by
  have hopen : ¬(rdF s pSCP SCP_BOOT_STAGE 3 0 < 2 ∨ (2 < 2 ∧ (!(linkOf s (decide (2 = 1))).up) = true)) := by omega
  exact runs_of_effect rfl (show spdmRequest s 2 (.setCertificate chain) = _ from if_neg hopen) rfl

end

/-- Settles O52: each command of the management port, the power states and the partition reset by its own lemma. -/
theorem managementAndPowerStates : Obligations.ManagementAndPowerStates := by
  intro s msg bytes chain elapsed micros id ctl first off len cfg idx value cmd sqe fn
  exact ⟨runs_mgmtRequest msg elapsed, runs_miControllerList first, runs_miSupportedCommands ctl, runs_subsystemHealthStatusPoll, runs_controllerHealthStatusPoll first,
    fun hcfg => ⟨runs_configurationSet hcfg value, fun _ hv => runs_configurationGet hcfg hv⟩, runs_vpdRead, runs_vpdWrite, runs_nvmeMiReset micros,
    fun hf => ⟨ends_nvmeMiSend_configuration bytes micros hf, ends_nvmeMiSend_vpd micros hf⟩,
    fun hf => ⟨ends_nvmeMiReceive_vpd hf, fun hop _ hv hcfg => ends_configurationGet hf hop hv hcfg⟩,
    fun hfresh => ⟨runs_tunnelled_powerState bytes hfresh, runs_tunnelled_refused bytes⟩,
    fun _ htarget hferry => ⟨runs_powerStateEntry_last htarget hferry, runs_powerStateEntry_step htarget hferry⟩,
    runs_powerStateExit, runs_apstTransition, runs_partitionReset, fun hboot => ⟨runs_spdm_measurement hboot, runs_spdm_setCertificate hboot⟩⟩

end Sys2Proof.Machine

/-! Vendor commands: Snapshot Trigger, Launch Table Access, Retention Range Set and Toll Statement Request (R131, R133 to R137). -/

namespace Sys2Proof.Machine

-- The proofs are elaborated one after another: run side by side, each that waits for another holds a thread, whose stack counts against the check's memory.
set_option Elab.async false

section
variable {ps : List Part} {i : Instr} {s u : State} {op action id : Nat} {cmd : HostCmd} {f : State → HostCmd → State × Reply} {P : State → Prop}
  (hexec : exec i s = .next (confine ps s (onVendor s op action id f))) (hps : ps.contains .hstP = true) (hcall : Fetched s id true op cmd ∧ cdwF cmd.sqe 10 7 0 = action)
include hexec hps hcall

/-- A vendor row whose ACTION fits and whose work replies ends the command. -/
theorem ends_of_vendor {st : NvStatus} {dw0 : Nat} {data : List Byte} (hu : f s cmd = (u, .done st dw0 data)) (hc : u.hst.cmds = s.hst.cmds)
    (hP : ∀ t, AfterReply ps (u.map.reserved - cmd.room) s u t → P t) : Ends i s id st dw0 data P :=
  ends_of_reply hexec hps hcall.1 ((if_pos hcall.2).trans hu) hc hP

/-- A vendor row whose ACTION fits and whose work waits keeps the command. -/
theorem waits_of_vendor {c : HostCmd} (hu : f s cmd = (u, .wait)) (hc : cmdOf? u id = some c)
    (hP : ∀ t, AfterReply ps u.map.reserved s u t → cmdOf? t id = some { c with state := .waiting } → P t) : Waits i s id P :=
  waits_of_reply hexec hps hcall.1 ((if_pos hcall.2).trans hu) hc hP

end

section
variable {s : State} {id : Nat} {cmd : HostCmd}

/-! ### Snapshot Trigger (R134) -/

/-- The SNAP_SEQ that the next snapshot takes. -/
def nextSeq (s : State) : Nat := ((rd s pSGL SGL_SNAP_SEQ_CUR).toNat + 1) % 2 ^ 32

theorem w32_nextSeq (s : State) : w32 (nextSeq s) = rd s pSGL SGL_SNAP_SEQ_CUR + 1 := by
  apply BitVec.eq_of_toNat_eq
  simp [nextSeq, w32, BitVec.toNat_add]

theorem ends_snapshotTriggerIssue (hcall : Fetched s id true 0xC3 cmd ∧ cdwF cmd.sqe 10 7 0 = 0) :
    Ends (.snapshotTriggerIssue id) s id .success (nextSeq s) [] fun t =>
      rd t pSGL SGL_SNAP_SEQ_CUR = w32 (nextSeq s) ∧ rd t pSGL SGL_SNAP_T_LO = lo32 (BitVec.ofNat 64 (round8 (s.com.time.toNat + 64))) := by
  obtain ⟨hseq, -, hlo, -⟩ := orderSnapshot_shows s (round8 (s.com.time.toNat + 64)) 0
  refine ends_of_vendor (u := (fireSnapshot s).1) rfl (by decide) hcall rfl rfl fun t ht => ?_
  rw [ht.rd _ _ (by decide) (by decide), ht.rd _ _ (by decide) (by decide), w32_nextSeq]
  exact ⟨hseq, hlo⟩

theorem waits_snapshotTriggerWait (hcall : Fetched s id true 0xC3 cmd ∧ cdwF cmd.sqe 10 7 0 = 1) :
    Waits (.snapshotTriggerWait id) s id fun t =>
      rd t pSGL SGL_SNAP_SEQ_CUR = w32 (nextSeq s) ∧ (cmdOf? t id).map (fun c => (c.units, c.until_)) = some ([nextSeq s], round8 (s.com.time.toNat + 64)) := by
  obtain ⟨hseq, -⟩ := orderSnapshot_shows s (round8 (s.com.time.toNat + 64)) 0
  have hcmd : cmdOf? (fireSnapshot s).1 id = some cmd := hcall.1.1
  have hput := cmdOf?_putCmd (c' := { cmd with units := [nextSeq s], until_ := round8 (s.com.time.toNat + 64) }) hcmd (show cmd.id = id from id_of_cmdOf? hcall.1.1)
  refine waits_of_vendor rfl (by decide) hcall rfl hput fun t ht hget => ?_
  rw [ht.rd _ _ (by decide) (by decide), rd_putCmd _ _ _ (by decide) (by decide), w32_nextSeq, hget]
  exact ⟨hseq, rfl⟩

/-! ### Launch Table Access (R135) -/

theorem ends_launchTableRead (hhost : belowHost s cmd = false) (hcall : Fetched s id true 0xC4 cmd ∧ cdwF cmd.sqe 10 7 0 = 1) :
    let e := entryOf s (launchIx cmd)
    Ends (.launchTableRead id) s id .success (entryStateWord e 0).toNat
      (bytesLE 8 e.time.toNat ++ bytesLE 2 (e.page % 4096) ++ bytesLE 1 (e.action % 16) ++ [0] ++ bytesLE 4 e.arg.toNat ++ bytesLE 4 (entryStateWord e 0).toNat ++ List.replicate 12 0)
      fun t => t.sgl = s.sgl :=
  ends_of_vendor (u := s) rfl (by decide) hcall (if_neg (by rw [hhost]; exact Bool.false_ne_true)) rfl fun _ ht => ht.sgl.trans (if_pos (by decide))

/-- An operation on the launch table that puts an entry ends with the entry's ENTRY_STATE. -/
theorem ends_launchEntry {i : Instr} {action : Nat} {f : State → HostCmd → State × Reply} {u : State} {e : LaunchEntry}
    (hexec : exec i s = .next (confine [.hstP, .mapP, .sglP] s (onVendor s 0xC4 action id f))) (hcall : Fetched s id true 0xC4 cmd ∧ cdwF cmd.sqe 10 7 0 = action)
    (hu : f s cmd = (u, .done .success (launchState u cmd 0) [])) (hc : u.hst = s.hst) (hentry : entryOf u (launchIx cmd) = e) :
    Ends i s id .success (entryStateWord e 0).toNat [] fun t => entryOf t (launchIx cmd) = e := by
  have hstate : launchState u cmd 0 = (entryStateWord e 0).toNat := by rw [launchState, hentry]
  rw [hstate] at hu
  refine ends_of_vendor hexec (by decide) hcall hu (by rw [hc]) fun t ht => ?_
  rw [← hentry, entryOf, ht.sgl]
  rfl

/-- The entry that ARM takes from the host's 32 bytes. -/
def hostEntry (hd : List Byte) : LaunchEntry :=
  { LaunchEntry.empty with time := BitVec.ofNat 64 (leAt hd 0 8), page := leAt hd 8 2 % 4096, action := bAt hd 10 % 16, arg := w32 (leAt hd 12 4) }

theorem ends_launchTableArm {hd : List Byte} (hhost : belowHost s cmd = false) (hcall : Fetched s id true 0xC4 cmd ∧ cdwF cmd.sqe 10 7 0 = 2) (hlen : hd.length = 32)
    (hact : (hostEntry hd).action = 7 → ∃ a ∈ s.prg.acts, a.slot = (hostEntry hd).arg.toNat ∧ a.ctl = cmd.ctl)
    (harm : armStatus s (entryOf s (launchIx cmd)).state (hostEntry hd) true = 0) :
    Ends (.launchTableArm id hd) s id .success (entryStateWord { hostEntry hd with state := .armed } 0).toNat [] fun t =>
      entryOf t (launchIx cmd) = { hostEntry hd with state := .armed } := by
  have hput : armEntry s (launchIx cmd) (hostEntry hd) true = (refreshLaunch (putEntry s (launchIx cmd) { hostEntry hd with state := .armed }), 0) := if_pos harm
  have hpermitted : ¬((hostEntry hd).action = 7 ∧ (!(s.prg.acts.any fun a => a.slot == (hostEntry hd).arg.toNat && a.ctl == cmd.ctl)) = true) := by
    rintro ⟨h7, hnone⟩
    obtain ⟨a, ha, hslot, hctl⟩ := hact h7
    simp only [Bool.not_eq_true', List.any_eq_false] at hnone
    exact hnone a ha (by simp [hslot, hctl])
  refine ends_launchEntry (u := refreshLaunch (putEntry s (launchIx cmd) { hostEntry hd with state := .armed })) rfl hcall ?_ (refreshLaunch_hst _) ?_
  · unfold launchArm
    rw [if_neg (by rw [hhost]; exact Bool.false_ne_true), if_neg (not_not.mpr hlen)]
    refine (if_neg hpermitted).trans ?_
    unfold hostEntry at hput ⊢
    rw [hput]
    rfl
  · rw [entryOf, (refreshLaunch_keeps _).1]
    exact Tab.getD_putD_same _ _ _ _

theorem ends_launchTableCancel (hhost : belowHost s cmd = false) (hcall : Fetched s id true 0xC4 cmd ∧ cdwF cmd.sqe 10 7 0 = 3) (harmed : (entryOf s (launchIx cmd)).state = .armed) :
    Ends (.launchTableCancel id) s id .success (entryStateWord { entryOf s (launchIx cmd) with state := .cancelled } 0).toNat [] fun t =>
      entryOf t (launchIx cmd) = { entryOf s (launchIx cmd) with state := .cancelled } := by
  have hcancel : cancelEntry s (launchIx cmd) = (refreshLaunch (putEntry s (launchIx cmd) { entryOf s (launchIx cmd) with state := .cancelled }), 0) := if_pos harmed
  refine ends_launchEntry (u := refreshLaunch (putEntry s (launchIx cmd) { entryOf s (launchIx cmd) with state := .cancelled })) rfl hcall ?_ (refreshLaunch_hst _) ?_
  · simp only [launchCancel, hhost, hcancel]
    rfl
  · rw [entryOf, (refreshLaunch_keeps _).1]
    exact Tab.getD_putD_same _ _ _ _

theorem ends_launchTableRelease (hhost : belowHost s cmd = false) (hcall : Fetched s id true 0xC4 cmd ∧ cdwF cmd.sqe 10 7 0 = 4)
    (hover : (entryOf s (launchIx cmd)).state = .fired ∨ (entryOf s (launchIx cmd)).state = .failed ∨ (entryOf s (launchIx cmd)).state = .cancelled) :
    Ends (.launchTableRelease id) s id .success (entryStateWord { entryOf s (launchIx cmd) with state := .free } 0).toNat [] fun t =>
      entryOf t (launchIx cmd) = { entryOf s (launchIx cmd) with state := .free } := by
  have hrelease : releaseEntry s (launchIx cmd) = (putEntry s (launchIx cmd) { entryOf s (launchIx cmd) with state := .free }, 0) := by
    rcases hover with h | h | h <;> simp only [releaseEntry, h]
  refine ends_launchEntry (u := putEntry s (launchIx cmd) { entryOf s (launchIx cmd) with state := .free }) rfl hcall ?_ rfl (entryOf_putEntry_same _ _ _)
  simp only [launchRelease, hhost, hrelease]
  rfl

/-! ### Retention Range Set (R136, R137) -/

theorem foldl_putMatch_hst {α : Type} (i : α → Nat) (e : α → MatchEntry) (l : List α) (s : State) : (l.foldl (fun s p => putMatch s (i p) (e p)) s).hst = s.hst :=
  foldl_hst (f := fun s p => putMatch s (i p) (e p)) (fun _ _ => rfl) l s

theorem enterRange_hst {s u : State} {l : List MatchEntry} (h : enterRange s l = some u) : u.hst = s.hst := by
  unfold enterRange at h
  split at h
  · cases h
  · extract_lets free at h
    split at h
    · cases h
    · obtain rfl := Option.some.inj h
      exact foldl_putMatch_hst _ _ _ _

theorem leaveRange_hst (s : State) (idx : Nat) : (leaveRange s idx).hst = s.hst := by
  unfold leaveRange
  split
  · rfl
  · exact foldl_putMatch_hst _ (fun _ => MatchEntry.fresh) _ _

theorem rangeNs?_permitted {x : Namespace} (hns : nsAt? s (sqeNsid cmd.sqe) = some x) (hctl : isPf cmd.ctl = true ∨ x.attached.contains cmd.ctl = true) : rangeNs? s cmd = some x := by
  rw [rangeNs?, hns, Option.filter_some, if_pos]
  simpa using hctl

/-- The range that CREATE takes from the host's data. -/
def hostRange (nsid : Nat) (hd : List Byte) : RetRange := ⟨nsid, sqeF hd 0 8, sqeF hd 8 8, sqeF hd 16 8, sqeF hd 24 1 == 1⟩

theorem ends_retentionCreate {x : Namespace} {hd : List Byte} {i : Nat} (hns : nsAt? s (sqeNsid cmd.sqe) = some x) (hctl : isPf cmd.ctl = true ∨ x.attached.contains cmd.ctl = true)
    (hcall : Fetched s id true 0xC5 cmd ∧ cdwF cmd.sqe 10 7 0 = 0) (hfree : (List.range 8192).find? (fun i => (s.hst.ranges.get? i).isNone) = some i)
    (hcount : 0 < (hostRange (sqeNsid cmd.sqe) hd).count) (honce : sqeF hd 24 1 ≤ 1) (hexpiry : stampNow s < (hostRange (sqeNsid cmd.sqe) hd).expiry)
    (hsize : (hostRange (sqeNsid cmd.sqe) hd).slba + (hostRange (sqeNsid cmd.sqe) hd).count ≤ x.size)
    (hclear : ∀ q ∈ s.hst.ranges, q.2.nsid = sqeNsid cmd.sqe →
      q.2.slba + q.2.count ≤ (hostRange (sqeNsid cmd.sqe) hd).slba ∨ (hostRange (sqeNsid cmd.sqe) hd).slba + (hostRange (sqeNsid cmd.sqe) hd).count ≤ q.2.slba)
    (henter : (enterRange s (rangeEntries x (sqeNsid cmd.sqe - 1) i (hostRange (sqeNsid cmd.sqe) hd).slba (hostRange (sqeNsid cmd.sqe) hd).count)).isSome = true) :
    Ends (.retentionCreate id hd) s id .success 0 (rangeDesc i (hostRange (sqeNsid cmd.sqe) hd)) fun t => t.hst.ranges.get? i = some (hostRange (sqeNsid cmd.sqe) hd) := by
  obtain ⟨u, hu⟩ := Option.isSome_iff_exists.mp henter
  have hi : i < 8192 := List.mem_range.mp (List.mem_of_find?_eq_some hfree)
  have hnone : s.hst.ranges.find? (fun q => q.2.nsid == sqeNsid cmd.sqe && decide (q.2.slba < sqeF hd 0 8 + sqeF hd 8 8) && decide (sqeF hd 0 8 < q.2.slba + q.2.count)) = none := by
    refine List.find?_eq_none.mpr fun q hq => ?_
    have hq' := hclear q hq
    simp only [hostRange] at hq'
    simp only [Bool.and_eq_true, beq_iff_eq, decide_eq_true_eq]
    rintro ⟨⟨hns, hlow⟩, hhigh⟩
    have := hq' hns
    omega
  have hcreate : retCreate hd s cmd = (putRanges u (u.hst.ranges.put i (hostRange (sqeNsid cmd.sqe) hd)), .done .success 0 (rangeDesc i (hostRange (sqeNsid cmd.sqe) hd))) := by
    unfold hostRange at *
    dsimp only at hcount hexpiry hsize hu
    have hbad : ¬(sqeF hd 24 1 > 1 ∨ sqeF hd 16 8 ≤ stampNow s ∨ sqeF hd 0 8 + sqeF hd 8 8 > x.size) := by omega
    simp only [retCreate, rangeNs?_permitted hns hctl, hfree, Option.getD_some, hnone, hu, if_neg hbad, if_neg hcount.ne', if_neg (Nat.not_le.mpr hi)]
  have hhst := enterRange_hst hu
  refine ends_of_vendor rfl (by decide) hcall hcreate (by rw [putRanges, hhst]) fun t ht => ?_
  rw [ht.hst]
  exact Tab.get?_put_same _ _ _

theorem ends_retentionQuery {x : Namespace} {hd : List Byte} {r : RetRange} (hns : nsAt? s (sqeNsid cmd.sqe) = some x) (hctl : isPf cmd.ctl = true ∨ x.attached.contains cmd.ctl = true)
    (hr : s.hst.ranges.get? (sqeF hd 28 4) = some r) (hnsid : r.nsid = sqeNsid cmd.sqe) (hcall : Fetched s id true 0xC5 cmd ∧ cdwF cmd.sqe 10 7 0 = 1) :
    Ends (.retentionQuery id hd) s id .success 0 (rangeDesc (sqeF hd 28 4) r) fun t => t.hst.ranges = s.hst.ranges := by
  refine ends_of_vendor (u := s) rfl (by decide) hcall ?_ rfl fun t ht => by rw [ht.hst]
  simp only [retQuery, rangeNs?_permitted hns hctl, hr, hnsid, if_true]

theorem ends_retentionExtend {x : Namespace} {hd : List Byte} {r : RetRange} (hns : nsAt? s (sqeNsid cmd.sqe) = some x) (hctl : isPf cmd.ctl = true ∨ x.attached.contains cmd.ctl = true)
    (hr : s.hst.ranges.get? (sqeF hd 28 4) = some r) (hnsid : r.nsid = sqeNsid cmd.sqe) (hcall : Fetched s id true 0xC5 cmd ∧ cdwF cmd.sqe 10 7 0 = 2) (hlater : r.expiry ≤ sqeF hd 16 8) :
    Ends (.retentionExtend id hd) s id .success 0 (rangeDesc (sqeF hd 28 4) { r with expiry := sqeF hd 16 8 }) fun t =>
      t.hst.ranges.get? (sqeF hd 28 4) = some { r with expiry := sqeF hd 16 8 } := by
  have hbad : ¬(r.nsid ≠ sqeNsid cmd.sqe ∨ sqeF hd 16 8 < r.expiry) := by omega
  refine ends_of_vendor (u := putRanges s (s.hst.ranges.put (sqeF hd 28 4) { r with expiry := sqeF hd 16 8 })) rfl (by decide) hcall ?_ rfl fun t ht => ?_
  · simp only [retExtend, rangeNs?_permitted hns hctl, hr, if_neg hbad]
  · rw [ht.hst]
    exact Tab.get?_put_same _ _ _

/-- A key taken out of a table reads as absent however many others go too. -/
theorem get?_foldl_del {α : Type} (l : List (Nat × α)) (t : Tab α) (i : Nat) (h : (∃ e ∈ l, e.1 = i) ∨ t.get? i = none) : (l.foldl (fun t e => t.del e.1) t).get? i = none := by
  induction l generalizing t with
  | nil => exact h.resolve_left (by rintro ⟨e, he, -⟩; cases he)
  | cons e l ih =>
    refine ih (t.del e.1) ?_
    by_cases hi : e.1 = i
    · exact .inr (by rw [hi]; exact Tab.get?_del_same _ _)
    · rcases h with ⟨e', he', hkey⟩ | hnone
      · rcases List.mem_cons.mp he' with rfl | hmem
        · exact absurd hkey hi
        · exact .inl ⟨e', hmem, hkey⟩
      · exact .inr (by rw [Tab.get?_del_ne _ (Ne.symm hi)]; exact hnone)

/-- Ranges whose EXPIRY has passed leave the table. -/
theorem retExpire_ranges (s : State) : (retExpire s).hst.ranges = (s.hst.ranges.filter fun r => rangeExpired s r.2).foldl (fun t e => t.del e.1) s.hst.ranges := by
  unfold retExpire
  generalize s.hst.ranges.filter _ = l
  induction l generalizing s with
  | nil => rfl
  | cons e l ih => rw [List.foldl_cons, ih, leaveRange_hst]; rfl

theorem runs_retentionExpiry {r : RetRange} {elapsed i : Nat} (hr : s.hst.ranges.get? i = some r) (hexpired : rangeExpired (advance s elapsed) r = true) :
    Runs (.retentionExpiry elapsed) s fun t => t.hst.ranges.get? i = none := by
  refine ⟨_, rfl, ?_⟩
  show (retExpire (advance s elapsed)).hst.ranges.get? i = none
  rw [retExpire_ranges]
  exact get?_foldl_del _ _ _ (.inl ⟨(i, r), List.mem_filter.mpr ⟨Tab.mem_of_get? hr, hexpired⟩, rfl⟩)

/-! ### Toll Statement Request (R133, R544) -/

/-- An event that reaches a collector changes the toll part alone. -/
theorem collectorEvent_frame (s : State) (tap : Nat) (e : TapEntry) : (collectorEvent s tap e).hst = s.hst ∧ (collectorEvent s tap e).com = s.com := by
  unfold collectorEvent
  split
  · exact ⟨rfl, rfl⟩
  · extract_lets c
    split <;> exact ⟨rfl, rfl⟩

theorem waits_tollStatementRequest (hcall : Fetched s id true 0xC2 cmd ∧ cdwF cmd.sqe 10 7 0 = 0) (hown : isPf cmd.ctl = true ∨ cdwF cmd.sqe 11 15 0 = tenantOfCtl s cmd.ctl) :
    Waits (.tollStatementRequest id) s id fun t => (cmdOf? t id).map (fun c => (c.units.headD 0, c.until_)) = some (0xC2, s.com.time.toNat + 2000000000) := by
  have hallowed : ¬((!isPf cmd.ctl) = true ∧ cdwF cmd.sqe 11 15 0 ≠ tenantOfCtl s cmd.ctl) := by
    rintro ⟨hvf, hne⟩
    rcases hown with h | h
    · rw [h] at hvf
      cases hvf
    · exact hne h
  obtain ⟨e, units, hwork⟩ : ∃ e units, tollStatement s cmd
      = (putCmd (collectorEvent s 3 e) { cmd with units := 0xC2 :: units, until_ := (collectorEvent s 3 e).com.time.toNat + 2000000000 }, .wait) := ⟨_, _, if_neg hallowed⟩
  obtain ⟨hhst, hcom⟩ := collectorEvent_frame s 3 e
  have hcmd : cmdOf? (collectorEvent s 3 e) id = some cmd := (cmdOf?_congr (by rw [hhst]) id).trans hcall.1.1
  refine waits_of_vendor rfl (by decide) hcall hwork (cmdOf?_putCmd hcmd (show cmd.id = id from id_of_cmdOf? hcall.1.1)) fun t _ hget => ?_
  rw [hget, hcom]
  rfl

theorem ends_tollStatementTimeout {elapsed : Nat} (hcmd : cmdOf? s id = some cmd) (hstate : cmd.state = .waiting) (hhead : cmd.units.head? = some 0xC2)
    (hdue : cmd.until_ ≤ (advance s elapsed).com.time.toNat) : Ends (.tollStatementTimeout id elapsed) s id .meterUnavailable 0 [] fun t => t.hst.ns = s.hst.ns := by
  have hcmd' : cmdOf? (advance s elapsed) id = some cmd := hcmd
  have hrun : tollTimeout (advance s elapsed) id = endCmd (advance s elapsed) cmd .meterUnavailable 0 [] := by
    simp only [tollTimeout, hcmd', hstate, hhead, hdue, and_self, if_true]
  have hend := cmdOf?_endCmd .meterUnavailable 0 [] hcmd'
  obtain ⟨-, -, hns⟩ := endCmd_frame (advance s elapsed) cmd .meterUnavailable 0 []
  exact runs_of_effect rfl hrun ⟨⟨_, hend, rfl, rfl⟩, hns⟩

end

end Sys2Proof.Machine

/-! Barchan Control: an immediate commit of `STR` that passes its check, and what its apply does beside the copy (R127, R138, R250, R256, R261, R263). -/

namespace Sys2Proof.Machine

-- The proofs are elaborated one after another: run side by side, each that waits for another holds a thread, whose stack counts against the check's memory.
set_option Elab.async false

/-! ### Changes of one page's registers -/

/-- Only registers of page `p` and shared state beside the registers differ. -/
structure PageOnly (p : Nat) (s t : State) : Prop where
  agree : State.AgreeOutside [] s t
  chip : t.com.chip = s.com.chip
  other : ∀ q o, o < 4096 → q ≠ p → rd t q o = rd s q o ∧ inForce t q o = inForce s q o

namespace PageOnly

variable {p : Nat} {s t u : State}

theorem refl (s : State) : PageOnly p s s := ⟨.refl _ s, rfl, fun _ _ _ _ => ⟨rfl, rfl⟩⟩

theorem trans (h : PageOnly p s t) (h' : PageOnly p t u) : PageOnly p s u where
  agree := h.agree.trans h'.agree
  chip := h'.chip.trans h.chip
  other q o ho hq := ⟨(h'.other q o ho hq).1.trans (h.other q o ho hq).1, (h'.other q o ho hq).2.trans (h.other q o ho hq).2⟩

theorem foldl {α : Type} {f : State → α → State} (l : List α) (hf : ∀ s, ∀ a ∈ l, PageOnly p s (f s a)) (s : State) : PageOnly p s (l.foldl f s) := by
  induction l generalizing s with
  | nil => exact refl s
  | cons a l ih => exact (hf s a (List.mem_cons_self ..)).trans (ih (fun s b hb => hf s b (List.mem_cons_of_mem _ hb)) (f s a))

theorem wr (h : PageOnly p s t) (off : Nat) (v : Word) (ho : off < 4096) : PageOnly p s (wr t p off v) :=
  h.trans ⟨(State.AgreeOutside.refl _ t).wr p off v, rfl, fun q o ho' hq => ⟨by rw [rd_wr _ _ ho ho', if_neg fun hn => hq hn.1], rfl⟩⟩

theorem wrForce (h : PageOnly p s t) (off : Nat) (v : Word) (ho : off < 4096) : PageOnly p s (wrForce t p off v) :=
  h.trans ⟨(State.AgreeOutside.refl _ t).com _, rfl, fun q o ho' hq => ⟨rfl, by rw [inForce_wrForce _ _ ho ho', if_neg fun hn => hq hn.1]⟩⟩

/-- An update of the shared part beside the registers. -/
theorem shared (h : PageOnly p s t) (c : Common) (hr : c.regs = t.com.regs := by rfl) (hc : c.chip = t.com.chip := by rfl) : PageOnly p s { t with com := c } :=
  h.trans ⟨(State.AgreeOutside.refl _ t).com c, hc, fun q o _ _ => ⟨rd_congr hr hc q o, inForce_congr hr hc q o⟩⟩

end PageOnly

/-! ### The copy of a staged set -/

/-- A page after the copy of its staged set and the turn of its epoch, before the effects of its own. -/
def setCopied (s : State) (p : Nat) (k : PageKind) : State :=
  let u := epochTurned (copiedInForce s p k) p
  lbRearm (irq (wr u p rSTAGE_STATUS (appliedStatus (rd u p rSTAGE_STATUS) false)) p 30) p

theorem stageApply_setCopied {s : State} {p : Nat} {k : PageKind} (hk : pageKind? s.com.chip p = some k) : stageApply s p false = applied s (setCopied s p k) p := by
  simp only [stageApply, hk]
  rfl

theorem epochTurned_pageOnly (s : State) (p : Nat) : PageOnly p s (epochTurned s p) := by
  have hepochs {t : State} (h : PageOnly p s t) (a b : Word) : PageOnly p s (wr (wr t p rSTATUS a) p rSTAGE_STATUS b) := (h.wr _ a (by decide)).wr _ b (by decide)
  exact .shared (hepochs (.shared (.refl s) _) _ _) _

theorem setCopied_pageOnly (s : State) (p : Nat) (k : PageKind) : PageOnly p s (setCopied s p k) := by
  have hcopy : PageOnly p s (copiedInForce s p k) := .foldl _ (fun t o ho => (PageOnly.refl t).wrForce o _ (stagedOffs_place ho).2) s
  have hrearm {t : State} (h : PageOnly p s t) : PageOnly p s (lbRearm t p) := by
    unfold lbRearm
    split
    · exact h.shared _
    · exact h
  exact hrearm (.wr (.wr (hcopy.trans (epochTurned_pageOnly _ p)) _ _ (by decide)) _ _ (by decide))

theorem inForce_setCopied {s : State} {p off : Nat} {k : PageKind} (hp : p < 4096) (ho : off ∈ stagedOffs k) : inForce (setCopied s p k) p off = rd s p off := by
  have hlt := (stagedOffs_place ho).2
  have hturned := (epochTurned_regs (copiedInForce s p k) p p off hp hlt (by simp [stagedOffs_ne ho (o' := rSTATUS) (by decide), stagedOffs_ne ho (o' := rSTAGE_STATUS) (by decide)])).2
  rw [setCopied, inForce_lbRearm, inForce_irq, inForce_wr, hturned, copiedInForce, inForce_foldl_wrForce p (fun o h => (stagedOffs_place h).2) hlt, if_pos ho]

/-! ### Fields of `STR` staged and committed at once -/

/-- The offsets lie in a page and are not STAGE_STATUS. -/
def StagesFields (fs : List (Nat × Word)) : Prop := ∀ f ∈ fs, f.1 < 4096 ∧ f.1 ≠ rSTAGE_STATUS

/-- `STR` with fields staged and the set dirty. -/
def strStaged (s : State) (fs : List (Nat × Word)) : State := wrB (fs.foldl (fun s f => wr s pSTR f.1 f.2) s) pSTR rSTAGE_STATUS 28 true

/-- `STR` with the staged set in force, before the effects of its own. -/
def strCopied (s : State) (fs : List (Nat × Word)) : State := setCopied (untimed (rejectCleared (strStaged s fs) pSTR) pSTR) pSTR .str

theorem strStaged_pageOnly (s : State) {fs : List (Nat × Word)} (hfs : StagesFields fs) : PageOnly pSTR s (strStaged s fs) :=
  .wr (.foldl fs (fun t f hf => (PageOnly.refl t).wr f.1 f.2 (hfs f hf).1) s) _ _ (by decide)

theorem strCopied_pageOnly (s : State) {fs : List (Nat × Word)} (hfs : StagesFields fs) : PageOnly pSTR s (strCopied s fs) :=
  .trans (.shared (.wr (strStaged_pageOnly s hfs) _ _ (by decide)) _) (setCopied_pageOnly _ _ _)

theorem rd_foldl_wr_other (p o : Nat) (ho : o < 4096) (fs : List (Nat × Word)) (hfs : ∀ f ∈ fs, f.1 < 4096 ∧ f.1 ≠ o) (s : State) :
    rd (fs.foldl (fun s f => wr s p f.1 f.2) s) p o = rd s p o := by
  induction fs generalizing s with
  | nil => rfl
  | cons f fs ih =>
    obtain ⟨hlt, hne⟩ := hfs f (List.mem_cons_self ..)
    rw [List.foldl_cons, ih fun g hg => hfs g (List.mem_cons_of_mem _ hg)]
    rw [rd_wr _ _ hlt ho, if_neg fun hn => hne hn.2.symm]

/-- A field reads as staged last. -/
theorem rd_strStaged (s : State) (pre : List (Nat × Word)) (o : Nat) (v : Word) (post : List (Nat × Word)) (ho : o < 4096 ∧ o ≠ rSTAGE_STATUS) (hpost : ∀ f ∈ post, f.1 < 4096 ∧ f.1 ≠ o) :
    rd (strStaged s (pre ++ (o, v) :: post)) pSTR o = v := by
  rw [strStaged, wrB, wrF, rd_wr _ _ (by decide) ho.1, if_neg fun hn => ho.2 hn.2, List.foldl_append, List.foldl_cons, rd_foldl_wr_other _ _ ho.1 _ hpost, rd_wr_same]

theorem rd_strStaged_status (s : State) {fs : List (Nat × Word)} (hfs : StagesFields fs) : rd (strStaged s fs) pSTR rSTAGE_STATUS = setBit (rd s pSTR rSTAGE_STATUS) 28 true := by
  rw [strStaged, rd_wrB_same, rd_foldl_wr_other _ _ (by decide) _ hfs]

theorem mem_of_minBy? {α : Type} {key : α → Nat} {l : List α} {b : α} (h : minBy? key l = some b) : b ∈ l := by
  induction l generalizing b with
  | nil => cases h
  | cons a l ih =>
    rw [minBy?] at h
    split at h
    · obtain rfl := Option.some.inj h
      exact List.mem_cons_self ..
    · rename_i c hc
      split at h
      · obtain rfl := Option.some.inj h
        exact List.mem_cons_of_mem _ (ih hc)
      · obtain rfl := Option.some.inj h
        exact List.mem_cons_self ..

/-- Every REJECT_CODE of `STR` has four bits (R65, R262). -/
theorem commitReject_str_code {s : State} {mode code unit : Nat} (h : commitReject s pSTR mode = some (code, unit)) : code < 16 := by
  have hif {c : Prop} [Decidable c] {a : Nat × Nat} (ha : a.2 < 16) : ∀ x ∈ (if c then [a] else []), x.2 < 16 := by
    split
    · intro x hx; rwa [List.mem_singleton.mp hx]
    · intro x hx; cases hx
  have hcheck : ∀ x ∈ checkStr s, x.2 < 16 := by
    have hif' {c d : Prop} [Decidable c] [Decidable d] {a b : Nat × Nat} (ha : a.2 < 16) (hb : b.2 < 16) : ∀ x ∈ (if c then [a] else if d then [b] else []), x.2 < 16 := by
      split
      · intro x hx; rwa [List.mem_singleton.mp hx]
      · exact hif hb
    unfold checkStr
    extract_lets
    simp only [List.forall_mem_append]
    constructorm* _ ∧ _
    · exact hif' (by decide) (by decide)
    all_goals exact hif (by decide)
  unfold commitReject at h
  split at h
  · obtain ⟨rfl, -⟩ := Prod.mk.inj (Option.some.inj h)
    decide
  · extract_lets time at h
    split at h
    · cases h
    · rename_i off code' hmin
      obtain ⟨rfl, -⟩ := Prod.mk.inj (Option.some.inj h)
      have hmem : (off, code') ∈ time ++ checkStr s := mem_of_minBy? hmin
      rcases List.mem_append.mp hmem with htime | hown
      · exact hif (c := mode = 2 ∧ applyTime s pSTR ≤ s.com.time.toNat) (a := (rAPPLY_LO, 6)) (show 6 < 16 by decide) _ htime
      · exact hcheck _ hown

theorem strStaged_epochs (s : State) (fs : List (Nat × Word)) : (strStaged s fs).com.epochs = s.com.epochs := by
  have hfold : (fs.foldl (fun s f => wr s pSTR f.1 f.2) s).com.epochs = s.com.epochs :=
    List.foldlRecOn (motive := fun t : State => t.com.epochs = s.com.epochs) fs _ rfl fun _ ht _ _ => ht
  exact hfold

theorem stageCommit_rejected_outcome {s : State} (who : Initiator) {p mode : Nat} {x : Nat × Nat} (hfree : commitHeld s p = false)
    (h : commitReject (rejectCleared s p) p mode = some x) : (stageCommit s who p mode).2 = 2 * 16 + x.1 := by
  unfold rejectCleared at h
  simp only [stageCommit, hfree, h, Bool.false_eq_true, if_false]

/-- Fields that `STR` takes apply at once, with the effects of `STR` after the copy. -/
theorem strCommit_takes {s : State} {fs : List (Nat × Word)} (action : Nat) (hfs : StagesFields fs) (h : strTakes s fs = true) :
    strCommit s action fs = (applyStr (strCopied s fs), .ok) := by
  have hstatus := rd_strStaged_status s hfs
  have hpage := strStaged_pageOnly s hfs
  obtain ⟨⟨hheld, hlive⟩, hpassed⟩ : (commitHeld s pSTR = false ∧ olderLive s pSTR = false) ∧ (stageCommit (strStaged s fs) (.crew 0 0) pSTR 0).2 / 16 ≠ 2 := by
    simpa only [strTakes, strStaged, Bool.and_eq_true, Bool.not_eq_true', bne_iff_ne] using h
  have hheld' : commitHeld (strStaged s fs) pSTR = false := by
    rw [commitHeld, hstatus, bit_setBit _ _ _ (by decide), bit_setBit _ _ _ (by decide), if_neg (by decide), if_neg (by decide)]
    exact hheld
  have hlive' : olderLive (strStaged s fs) pSTR = false := by
    rw [olderLive, epochsOf, strStaged_epochs]
    exact hlive
  have hdirty : bit (rd (strStaged s fs) pSTR rSTAGE_STATUS) 28 = true := by rw [hstatus, bit_setBit_same _ _ (by decide)]
  have hok : commitReject (rejectCleared (strStaged s fs) pSTR) pSTR 0 = none := by
    cases hreject : commitReject (rejectCleared (strStaged s fs) pSTR) pSTR 0 with
    | none => rfl
    | some x =>
      refine absurd ?_ hpassed
      have hcode := commitReject_str_code (code := x.1) (unit := x.2) hreject
      rw [stageCommit_rejected_outcome _ hheld' hreject]
      omega
  have happlied : stageCommit (strStaged s fs) (.crew 0 0) pSTR 0 = (applyStr (strCopied s fs), 0) := by
    rw [stageCommit_now _ hheld' hlive' hok hdirty, stageApply_setCopied (k := .str) rfl]
    rfl
  unfold strStaged at happlied
  simp only [strCommit, hheld, happlied]
  rfl

/-! ### What an apply of `STR` does beside the copy (R250, R261) -/

/-- The bits of REQUEST return to 0. -/
def requestTaken (s : State) : State := wrForce (wr s pSTR STR_REQUEST (inForce s pSTR STR_REQUEST &&& 0x3FF)) pSTR STR_REQUEST (inForce s pSTR STR_REQUEST &&& 0x3FF)

/-- A request for a rebuild is taken up. -/
def rebuildTaken (s : State) (rq : Word) : State := if bit rq 30 then rebuildRequest s (fld rq 9 0) else s

/-- A request for a whole-array pass is taken up. -/
def passTaken (s : State) (rq : Word) : State := if bit rq 31 then wholeArrayPass s else s

/-- Verification returns to VERIFY_MODE, new hot spares that hold blocks evacuate, and the counts follow. -/
def strSettled (s : State) : State :=
  refreshPool (refreshPlace { s with str := { s.str with
    verifyAll := false
    evacuating := (serviceDies s).filter fun d => hotSpare s d && decide (heldOn s d ≠ 0) } })

theorem applyStr_steps (s : State) : applyStr s = strSettled (passTaken (rebuildTaken (requestTaken s) (inForce s pSTR STR_REQUEST)) (inForce s pSTR STR_REQUEST)) := rfl

theorem rebuildRequest_background (s : State) (d : Nat) : Background s (rebuildRequest s d) :=
  .ite (putRebuild_background s _ _) (.ite (((closeSetsOn_background s d).trans (putRebuild_background _ _ _)).trans (refreshPlace_background _)) (.refl s))

theorem refreshResync_background (s : State) : Background s (refreshResync s) := by
  have hleft : Background s (wrB (wr s pSTR STR_RESYNC_LEFT (w32 s.str.unresync.length)) pSTR STR_STATE 4 (decide (s.str.unresync.length ≠ 0))) := .wr (.wr (.refl s) _ _ _) _ _ _
  exact .ite (.parts (.wr (.irq hleft _ _) _ _ _) _ _ _ _ _) hleft

theorem wholeArrayPass_background (s : State) : Background s (wholeArrayPass s) := by
  have hset : Background s (wrB (wrB s pSTR STR_STATE 5 true) pSTR STR_STATE 4 true) := .wr (.wr (.refl s) _ _ _) _ _ _
  exact .trans (.parts hset _ _ _ _ _) (refreshResync_background _)

theorem strSettled_background (s : State) : Background s (strSettled s) := .trans (.trans (.parts (.refl s) _ _ _ _ _) (refreshPlace_background _)) (refreshPool_background _)

theorem applyStr_background (s : State) : Background (requestTaken s) (applyStr s) := by
  have hrebuild (t : State) (rq : Word) : Background t (rebuildTaken t rq) := .ite (rebuildRequest_background _ _) (.refl t)
  have hpass (t : State) (rq : Word) : Background t (passTaken t rq) := .ite (wholeArrayPass_background _) (.refl t)
  rw [applyStr_steps]
  exact ((hrebuild _ _).trans (hpass _ _)).trans (strSettled_background _)

theorem requestTaken_pageOnly (s : State) : PageOnly pSTR s (requestTaken s) := ((PageOnly.refl s).wr _ _ (by decide)).wrForce _ _ (by decide)

theorem clearMediaWarning_agree {s u : State} (h : State.AgreeOutside [] s u) : State.AgreeOutside [] s (clearMediaWarning u) := .ite h (h.com _)

theorem refreshPlace_agree (s : State) : State.AgreeOutside [] s (refreshPlace s) := by
  unfold refreshPlace
  extract_lets n u none_ was v
  have hv : State.AgreeOutside [] s v := .wr (.wr (.refl _ s) _ _ _) _ _ _
  clear_value v none_ was
  exact .ite (.com (.smartSet hv _) _) (.ite (.com (clearMediaWarning_agree hv) _) hv)

theorem refreshPool_agree (s : State) : State.AgreeOutside [] s (refreshPool s) := by
  have hspare {u : State} (hu : State.AgreeOutside [] s u) (c d : Prop) [Decidable c] [Decidable d] : State.AgreeOutside [] s (if c then (if d then u else smartSet (irq u pMAP 4) 0) else u) :=
    .ite (.ite hu (.smartSet (.irq hu _ _) _)) hu
  have hmode {u : State} (hu : State.AgreeOutside [] s u) (c d e : Prop) [Decidable c] [Decidable d] [Decidable e] :
      State.AgreeOutside [] s (if c then u else if d then enterReadOnly u else if e then leaveReadOnly u else u) :=
    .ite hu (.ite (.com (.smartSet (.irq (.wr hu _ _ _) _ _) _) _) (.ite (.com (clearMediaWarning_agree (.irq (.wr hu _ _ _) _ _)) _) hu))
  have hthrottle {u : State} (hu : State.AgreeOutside [] s u) (c : Prop) [Decidable c] (a b : Bool) :
      State.AgreeOutside [] s (wrB (wrB (if c then irq u pMAP 5 else u) pMAP MAP_MEDIA_STATE 1 a) pMAP MAP_MEDIA_STATE 2 b) := .wr (.wr (.ite (.irq hu _ _) hu) _ _ _) _ _ _
  exact hthrottle (hmode (hspare (.wr (.wr (.wr (.refl _ s) _ _ _) _ _ _) _ _ _) _ _) _ _ _) _ _ _

/-- The counts that follow the pool and the place are registers and shared state. -/
theorem strSettled_str (s : State) : (strSettled s).str.unresync = s.str.unresync ∧ ∀ d, rebuildOf (strSettled s) d = rebuildOf s d := by
  have hstr : (strSettled s).str = { s.str with verifyAll := false, evacuating := (serviceDies s).filter fun d => hotSpare s d && decide (heldOn s d ≠ 0) } :=
    ((refreshPlace_agree _).trans (refreshPool_agree _)).str (by decide)
  exact ⟨by rw [hstr], fun d => by rw [rebuildOf, hstr, rebuildOf]⟩

/-- A staged field is in force after the copy. -/
theorem inForce_strCopied (s : State) (fs : List (Nat × Word)) {o : Nat} (ho : o ∈ stagedOffs .str) : inForce (strCopied s fs) pSTR o = rd (strStaged s fs) pSTR o := by
  have hcleared : rd (untimed (rejectCleared (strStaged s fs) pSTR) pSTR) pSTR o = rd (strStaged s fs) pSTR o :=
    rd_wr_otherOff (strStaged s fs) pSTR _ (stagedOffs_ne ho (by decide))
  rw [strCopied, inForce_setCopied (by decide) ho, hcleared]

/-- A staged field other than REQUEST stays in force through the effects of `STR`. -/
theorem inForce_applyStr (s : State) (fs : List (Nat × Word)) {o : Nat} (ho : o ∈ stagedOffs .str) (hne : o ≠ STR_REQUEST) :
    inForce (applyStr (strCopied s fs)) pSTR o = rd (strStaged s fs) pSTR o := by
  rw [(applyStr_background _).force, requestTaken, inForce_wrForce _ _ (by decide) (stagedOffs_place ho).2, if_neg fun hn => hne hn.2, inForce_wr, inForce_strCopied s fs ho]

theorem applyStr_strCopied_hst (s : State) {fs : List (Nat × Word)} (hfs : StagesFields fs) : (applyStr (strCopied s fs)).hst = s.hst :=
  ((applyStr_background _).agree.hst (by decide)).trans (((strCopied_pageOnly s hfs).trans (requestTaken_pageOnly _)).agree.hst (by decide))

section
variable {s : State} {id : Nat} {cmd : HostCmd}

/-- A Barchan Control command whose fields `STR` takes ends, and `STR` is as the apply left it. -/
theorem ends_strCommit {i : Instr} {action a : Nat} {f : State → HostCmd → State × Reply} {fs : List (Nat × Word)} {P : State → Prop}
    (hexec : exec i s = .next (confine allParts s (onVendor s 0xC6 action id f))) (hcall : Fetched s id true 0xC6 cmd ∧ cdwF cmd.sqe 10 7 0 = action)
    (hwork : f s cmd = strCommit s a fs) (hfs : StagesFields fs) (htakes : strTakes s fs = true)
    (hP : ∀ t, (∀ o, inForce t pSTR o = inForce (applyStr (strCopied s fs)) pSTR o) → t.str = (applyStr (strCopied s fs)).str → P t) : Ends i s id .success 0 [] P :=
  ends_of_vendor hexec (by decide) hcall (hwork.trans (strCommit_takes a hfs htakes)) (by rw [applyStr_strCopied_hst s hfs]) fun t ht =>
    hP t (fun o => ht.force pSTR o) (ht.str.trans (if_pos (by decide)))

theorem ends_barchanQuery (hcall : Fetched s id true 0xC6 cmd ∧ cdwF cmd.sqe 10 7 0 = 0) : Ends (.barchanQuery id) s id .success 0 (arraySummary s) fun t => t.str = s.str :=
  ends_of_vendor (u := s) rfl (by decide) hcall rfl rfl fun _ ht => ht.str.trans (if_neg (by decide))

theorem ends_barchanSetLayout {hd : List Byte} (hcall : Fetched s id true 0xC6 cmd ∧ cdwF cmd.sqe 10 7 0 = 1) (hns : s.hst.ns = []) (hlen : hd.length = 16) (hprot : bAt hd 1 ≤ 1)
    (hzeros : zerosAt hd 2 6 = true) (hwidth : bAt hd 0 ≤ 63)
    (htakes : strTakes s [(STR_LAYOUT, w32 (bAt hd 1 * 256 + bAt hd 0)), (STR_SEED_LO, w32 (leAt hd 8 4)), (STR_SEED_HI, w32 (leAt hd 12 4))] = true) :
    Ends (.barchanSetLayout id hd) s id .success 0 [] fun t =>
      inForce t pSTR STR_LAYOUT = w32 (bAt hd 1 * 256 + bAt hd 0) ∧ inForce t pSTR STR_SEED_LO = w32 (leAt hd 8 4) ∧ inForce t pSTR STR_SEED_HI = w32 (leAt hd 12 4) := by
  have hfs : StagesFields [(STR_LAYOUT, w32 (bAt hd 1 * 256 + bAt hd 0)), (STR_SEED_LO, w32 (leAt hd 8 4)), (STR_SEED_HI, w32 (leAt hd 12 4))] := by
    simp [StagesFields, STR_LAYOUT, STR_SEED_LO, STR_SEED_HI, rSTAGE_STATUS]
  have hwork : barchanLayout hd s cmd = strCommit s 1 [(STR_LAYOUT, w32 (bAt hd 1 * 256 + bAt hd 0)), (STR_SEED_LO, w32 (leAt hd 8 4)), (STR_SEED_HI, w32 (leAt hd 12 4))] := by
    have hfields : ¬(bAt hd 1 > 1 ∨ (!zerosAt hd 2 6) = true) := by
      rw [hzeros]
      simpa using hprot
    rw [barchanLayout, hns, if_neg (by decide), if_neg (not_not.mpr hlen), if_neg hfields, if_neg (Nat.not_lt.mpr hwidth)]
  refine ends_strCommit rfl hcall hwork hfs htakes fun t hforce _ => ?_
  rw [hforce, hforce, hforce, inForce_applyStr _ _ (by decide) (by decide), inForce_applyStr _ _ (by decide) (by decide), inForce_applyStr _ _ (by decide) (by decide)]
  exact ⟨rd_strStaged s [] _ _ _ (by decide) (by simp [STR_LAYOUT, STR_SEED_LO, STR_SEED_HI]), rd_strStaged s [_] _ _ _ (by decide) (by simp [STR_SEED_LO, STR_SEED_HI]),
    rd_strStaged s [_, _] _ _ [] (by decide) (by decide)⟩

theorem ends_barchanSetShare (hcall : Fetched s id true 0xC6 cmd ∧ cdwF cmd.sqe 10 7 0 = 2)
    (htakes : strTakes s [(STR_SHARE, setFld (rd s pSTR STR_SHARE) 7 0 (cdwF cmd.sqe 11 7 0))] = true) :
    Ends (.barchanSetShare id) s id .success 0 [] fun t => inForce t pSTR STR_SHARE = setFld (rd s pSTR STR_SHARE) 7 0 (cdwF cmd.sqe 11 7 0) := by
  refine ends_strCommit rfl hcall rfl (by simp [StagesFields, STR_SHARE, rSTAGE_STATUS]) htakes fun t hforce _ => ?_
  rw [hforce, inForce_applyStr _ _ (by decide) (by decide)]
  exact rd_strStaged s [] _ _ [] (by decide) (by decide)

theorem hotSpare_staged (k : Fin 32) : STR_HOT_SPARE + 4 * k.val ∈ stagedOffs .str ∧ STR_HOT_SPARE + 4 * k.val ≠ STR_REQUEST ∧ STR_HOT_SPARE + 4 * k.val ≠ rSTAGE_STATUS := by
  decide +revert

theorem ends_barchanSpareDie (hcall : Fetched s id true 0xC6 cmd ∧ cdwF cmd.sqe 10 7 0 = 3) :
    let die := cdwF cmd.sqe 11 9 0
    let spare := STR_HOT_SPARE + 4 * (die / 32)
    strTakes s [(spare, setBit (rd s pSTR spare) (die % 32) true)] = true → Ends (.barchanSpareDie id) s id .success 0 [] fun t => hotSpare t die = true := by
  intro die spare htakes
  have hdie : die < 1024 := Nat.mod_lt _ (by decide)
  obtain ⟨hstaged, hne, hstatus⟩ : spare ∈ stagedOffs .str ∧ spare ≠ STR_REQUEST ∧ spare ≠ rSTAGE_STATUS := hotSpare_staged ⟨die / 32, by omega⟩
  have hlt : spare < 4096 := (stagedOffs_place hstaged).2
  refine ends_strCommit rfl hcall rfl (fun f hf => by rw [List.mem_singleton.mp hf]; exact ⟨hlt, hstatus⟩) htakes fun t hforce _ => ?_
  rw [hotSpare, hforce, inForce_applyStr _ _ hstaged hne]
  exact (congrArg (fun w => bit w (die % 32)) (rd_strStaged s [] spare _ [] ⟨hlt, hstatus⟩ fun f hf => by cases hf)).trans (bit_setBit_same _ _ (by omega))

/-- A request word of `STR` that names a die for a rebuild. -/
theorem rebuildWord_fields {d : Nat} (h : d < 1024) : bit (w32 (2 ^ 30 + d)) 30 = true ∧ bit (w32 (2 ^ 30 + d)) 31 = false ∧ fld (w32 (2 ^ 30 + d)) 9 0 = d := by
  have hval : (w32 (2 ^ 30 + d)).toNat = 2 ^ 30 + d := by
    rw [w32, BitVec.toNat_ofNat]
    omega
  refine ⟨?_, ?_, ?_⟩
  · rw [bit, BitVec.getLsbD, hval, Nat.testBit_two_pow_add_eq, Nat.testBit_lt_two_pow (by omega)]
    rfl
  · rw [bit, BitVec.getLsbD, hval]
    exact Nat.testBit_lt_two_pow (by omega)
  · rw [fld, hval, Nat.shiftRight_zero]
    omega

theorem rebuildOf_putRebuild_same (s : State) (d : Nat) (r : Rebuild) : rebuildOf (putRebuild s d r) d = r := Tab.getD_putD_same _ _ _ _

/-- An in-service die never rebuilt starts COPY_OUT. -/
theorem rebuildRequest_copyOut {s : State} {d : Nat} (hservice : dieInService s d = true) (hnone : (rebuildOf s d).state = .none) : (rebuildOf (rebuildRequest s d) d).state = .copyOut := by
  obtain ⟨r, hr, hcopy⟩ : ∃ r : Rebuild, r.state = .copyOut ∧ rebuildRequest s d = refreshPlace (putRebuild (closeSetsOn s d) d r) :=
    ⟨_, rfl, (if_neg (by rw [hnone]; decide)).trans (if_pos (by rw [hservice, hnone]; rfl))⟩
  rw [hcopy, rebuildOf, (refreshPlace_agree _).str (by decide), ← rebuildOf, rebuildOf_putRebuild_same, hr]

theorem dieInService_pageOnly {s t : State} (h : PageOnly pSTR s t) {d : Nat} (hd : d < 1024) : dieInService t d = dieInService s d := by
  have hpage : diePage d ≠ pSTR ∧ pFCH (d / 16) ≠ pSTR := by unfold diePage pFCH pSTR; omega
  simp only [dieInService, diePresent, dieRetired, chanFenced, h.chip, (h.other _ FCH_DIE_PRESENT (by decide) hpage.1).1, (h.other _ FCH_DIE_RETIRED (by decide) hpage.1).1,
    (h.other _ FCH_DIE_ENABLE (by decide) hpage.1).2, (h.other _ rSTATUS (by decide) hpage.2).1]

theorem ends_barchanRebuild (hcall : Fetched s id true 0xC6 cmd ∧ cdwF cmd.sqe 10 7 0 = 4) :
    let die := cdwF cmd.sqe 11 9 0
    dieInService s die = true → (rebuildOf s die).state = .none → strTakes s [(STR_REQUEST, w32 (2 ^ 30 + die))] = true →
      Ends (.barchanRebuild id) s id .success 0 [] fun t => (rebuildOf t die).state = .copyOut := by
  intro die hservice hnone htakes
  have hdie : die < 1024 := Nat.mod_lt _ (by decide)
  have hfs : StagesFields [(STR_REQUEST, w32 (2 ^ 30 + die))] := by simp [StagesFields, STR_REQUEST, rSTAGE_STATUS]
  have hwork : barchanRebuild s cmd = strCommit s 4 [(STR_REQUEST, w32 (2 ^ 30 + die))] := by
    have hstate : (rebuildOf s (cdwF cmd.sqe 11 9 0)).state = .none := hnone
    simp only [barchanRebuild, hstate]
    rfl
  obtain ⟨h30, h31, hnamed⟩ := rebuildWord_fields hdie
  have hrequest : inForce (strCopied s [(STR_REQUEST, w32 (2 ^ 30 + die))]) pSTR STR_REQUEST = w32 (2 ^ 30 + die) :=
    (inForce_strCopied s _ (by decide)).trans (rd_strStaged s [] _ _ [] (by decide) (by decide))
  have honly := (strCopied_pageOnly s hfs).trans (requestTaken_pageOnly (strCopied s [(STR_REQUEST, w32 (2 ^ 30 + die))]))
  have hstr : (requestTaken (strCopied s [(STR_REQUEST, w32 (2 ^ 30 + die))])).str = s.str := honly.agree.str (by decide)
  refine ends_strCommit rfl hcall hwork hfs htakes fun t _ ht => ?_
  rw [rebuildOf, ht, ← rebuildOf, applyStr_steps, hrequest, (strSettled_str _).2, passTaken, h31, if_neg Bool.false_ne_true, rebuildTaken, h30, if_pos rfl, hnamed]
  exact rebuildRequest_copyOut ((dieInService_pageOnly honly hdie).trans hservice) (by rw [rebuildOf, hstr]; exact hnone)

theorem ends_barchanResync (hcall : Fetched s id true 0xC6 cmd ∧ cdwF cmd.sqe 10 7 0 = 5) (hidle : bit (rd s pSTR STR_STATE) 4 = false) (htakes : strTakes s [(STR_REQUEST, w32 (2 ^ 31))] = true) :
    Ends (.barchanResync id) s id .success 0 [] fun t => t.str.unresync = allStripes s := by
  have hfs : StagesFields [(STR_REQUEST, w32 (2 ^ 31))] := by simp [StagesFields, STR_REQUEST, rSTAGE_STATUS]
  have hwork : barchanResync s cmd = strCommit s 5 [(STR_REQUEST, w32 (2 ^ 31))] := if_neg (by rw [hidle]; exact Bool.false_ne_true)
  have hrequest : inForce (strCopied s [(STR_REQUEST, w32 (2 ^ 31))]) pSTR STR_REQUEST = w32 (2 ^ 31) :=
    (inForce_strCopied s _ (by decide)).trans (rd_strStaged s [] _ _ [] (by decide) (by decide))
  have honly := (strCopied_pageOnly s hfs).trans (requestTaken_pageOnly (strCopied s [(STR_REQUEST, w32 (2 ^ 31))]))
  have hstr : (requestTaken (strCopied s [(STR_REQUEST, w32 (2 ^ 31))])).str = s.str := honly.agree.str (by decide)
  have hpass (u : State) : (wholeArrayPass u).str.unresync = allStripes u := by
    have hresync (v : State) : (refreshResync v).str.unresync = v.str.unresync := by
      unfold refreshResync
      extract_lets n a was b
      split <;> rfl
    unfold wholeArrayPass
    exact hresync _
  refine ends_strCommit rfl hcall hwork hfs htakes fun t _ ht => ?_
  rw [ht, applyStr_steps, hrequest, (strSettled_str _).1, passTaken, if_pos (by decide), hpass, rebuildTaken, if_neg (by decide), allStripes, hstr, allStripes]

end

/-- Settles O54: each vendor command by its own lemma; the Barchan actions go through one immediate commit of `STR`. -/
theorem vendorCommands : Obligations.VendorCommands := by
  intro s id elapsed cmd x hd r
  exact ⟨ends_snapshotTriggerIssue, waits_snapshotTriggerWait,
    fun hhost => ⟨ends_launchTableRead hhost, ends_launchTableArm hhost, ends_launchTableCancel hhost, ends_launchTableRelease hhost⟩,
    fun hns hctl => ⟨fun _ => ends_retentionCreate hns hctl, fun hr hnsid => ⟨ends_retentionQuery hns hctl hr hnsid, ends_retentionExtend hns hctl hr hnsid⟩⟩,
    fun _ => runs_retentionExpiry, ends_barchanQuery, ends_barchanSetLayout, ends_barchanSetShare, ends_barchanSpareDie, ends_barchanRebuild, ends_barchanResync,
    waits_tollStatementRequest, ends_tollStatementTimeout⟩

end Sys2Proof.Machine

/-! Admin commands on the host side alone: Abort, features, event requests, namespaces' attachments, image pieces, self-tests, directives and resources (R114, R120, R122, R521). -/

namespace Sys2Proof.Machine

-- The proofs are elaborated one after another: run side by side, each that waits for another holds a thread, whose stack counts against the check's memory.
set_option Elab.async false

/-! ### Commands that end while another changes -/

/-- A row whose work replies, where the work itself may have replaced commands. -/
theorem ends_of_reply_listed {ps : List Part} {i : Instr} {s u : State} {admin : Bool} {op id : Nat} {cmd c : HostCmd} {f : State → HostCmd → State × Reply} {P : State → Prop} {st : NvStatus}
    {dw0 : Nat} {data : List Byte} (hexec : exec i s = .next (confine ps s (onCmd s admin op id f))) (hps : ps.contains .hstP = true) (hf : Fetched s id admin op cmd)
    (hu : f s cmd = (u, .done st dw0 data)) (hc : cmdOf? u id = some c)
    (hP : ∀ t, AfterReply ps (u.map.reserved - c.room) s u t → t.hst.cmds = (endCmd u c st dw0 data).hst.cmds → P t) : Ends i s id st dw0 data P := by
  have hon : onCmd s admin op id f = endCmd u c st dw0 data := onCmd_done hf hu hc
  have hafter := endCmd_afterReply hps s u c st dw0 data
  have hhst : (confine ps s (endCmd u c st dw0 data)).hst = (endCmd u c st dw0 data).hst := if_pos hps
  rw [← hon] at hafter hhst
  exact ⟨_, hexec, ⟨_, (cmdOf?_congr (by rw [hhst, hon]) id).trans (cmdOf?_endCmd st dw0 data hc), rfl, rfl⟩, hP _ hafter (by rw [hhst, hon])⟩

/-- A command that ends takes the place of whichever had its number. -/
theorem cmdOf?_endCmd_same {s : State} {c c' : HostCmd} (st : NvStatus) (dw0 : Nat) (data : List Byte) (h : cmdOf? s c.id = some c') :
    cmdOf? (endCmd s c st dw0 data) c.id = some { c with state := .done st dw0, reply := data, room := 0 } := by
  unfold endCmd
  dsimp only
  split
  · exact cmdOf?_putCmd (c := c') h rfl
  · exact cmdOf?_putCmd (c := c') h rfl

/-- A command that ends leaves those of another number alone. -/
theorem cmdOf?_endCmd_ne {s : State} {id : Nat} {c : HostCmd} (st : NvStatus) (dw0 : Nat) (data : List Byte) (h : id ≠ c.id) : cmdOf? (endCmd s c st dw0 data) id = cmdOf? s id := by
  rw [cmdOf?, (endCmd_hst s c st dw0 data).2, cmdOf?]
  induction s.hst.cmds with
  | nil => rfl
  | cons x l ih =>
    rw [List.map_cons, List.find?_cons, List.find?_cons]
    by_cases hx : x.id = c.id
    · have hne : (c.id == id) = false := beq_false_of_ne h.symm
      simp only [hx, beq_self_eq_true, if_true, hne]
      exact ih
    · rw [if_neg (by simpa using hx), ih]

theorem AfterReply.nsAt? {ps : List Part} {n nsid : Nat} {s u t : State} (h : AfterReply ps n s u t) : Machine.nsAt? t nsid = Machine.nsAt? u nsid := by
  rw [Machine.nsAt?, h.hst, Machine.nsAt?]

theorem AfterReply.ctlOf {ps : List Part} {n : Nat} {s u t : State} (h : AfterReply ps n s u t) (k : Nat) : Machine.ctlOf t k = Machine.ctlOf u k := by
  rw [Machine.ctlOf, h.hst, Machine.ctlOf]

theorem ctlOf_putCtl_same (s : State) (k : Nat) (x : Ctrl) : ctlOf (putCtl s k x) k = x := Tab.getD_putD_same _ _ _ _

section
variable {s : State} {id : Nat} {cmd : HostCmd}

/-! ### Abort (R120) -/

/-- The command that an Abort names. -/
def abortVictim (s : State) (c : HostCmd) : Option HostCmd :=
  s.hst.cmds.find? fun y => y.ctl == c.ctl && y.q == cdwF c.sqe 10 15 0 && y.cid == cdwF c.sqe 10 31 16 && y.id != c.id && unended y

/-- An Abort of a command that no run holds is carried out on the list of commands alone. -/
theorem abortAny_plain (hruns : ∀ r ∈ s.prg.runs, ∀ c ∈ s.hst.cmds, c.id = r.cmd → c.ctl ≠ cmd.ctl) : abortAny s cmd = abortCmd s cmd := by
  have hnone : ((s.hst.cmds.find? fun y => y.ctl == cmd.ctl && y.q == cdwF cmd.sqe 10 15 0 && y.cid == cdwF cmd.sqe 10 31 16 && y.id != cmd.id).bind
      fun y => s.prg.runs.find? fun r => r.cmd == y.id) = none := by
    cases hy : s.hst.cmds.find? fun y => y.ctl == cmd.ctl && y.q == cdwF cmd.sqe 10 15 0 && y.cid == cdwF cmd.sqe 10 31 16 && y.id != cmd.id with
    | none => rfl
    | some y =>
      have hctl : y.ctl = cmd.ctl := by
        have h := List.find?_some hy
        simp only [Bool.and_eq_true, beq_iff_eq] at h
        exact h.1.1.1
      refine List.find?_eq_none.mpr fun r hr hrun => ?_
      exact hruns r hr y (List.mem_of_find?_eq_some hy) (beq_iff_eq.mp hrun).symm hctl
  simp only [abortAny, hnone]

/-- An Abort within the limit ends the command it names. -/
theorem abortCmd_within (hlimit : (s.hst.cmds.filter fun c => c.ctl == cmd.ctl && c.q == 0 && sqeOp c.sqe == 8).length ≤ 8) :
    abortCmd s cmd = match abortVictim s cmd with
      | some y => (endCmd s y .abortRequested 0 [], .done .success 0 [])
      | none => (s, .done .success 1 []) := by
  have hfew : (s.hst.cmds.filter fun y => y.ctl == cmd.ctl && y.q == 0 && sqeOp y.sqe == 8 && unended y).length ≤ 8 := by
    refine le_trans (List.Sublist.length_le ?_) hlimit
    exact List.monotone_filter_right _ fun y hy => by simp only [Bool.and_eq_true] at hy ⊢; exact hy.1
  exact if_neg (Nat.not_lt.mpr hfew)

theorem ends_abort_victim {y : HostCmd} (hf : Fetched s id true 0x08 cmd) (hlimit : (s.hst.cmds.filter fun c => c.ctl == cmd.ctl && c.q == 0 && sqeOp c.sqe == 8).length ≤ 8)
    (hruns : ∀ r ∈ s.prg.runs, ∀ c ∈ s.hst.cmds, c.id = r.cmd → c.ctl ≠ cmd.ctl) (hvictim : abortVictim s cmd = some y) :
    Ends (.abort id) s id .success 0 [] fun t => (cmdOf? t y.id).map (·.state) = some (.done .abortRequested 0) := by
  have hid : cmd.id = id := id_of_cmdOf? hf.1
  have hne : y.id ≠ id := by
    have h := List.find?_some hvictim
    simp only [Bool.and_eq_true, bne_iff_ne] at h
    exact hid ▸ h.1.2
  obtain ⟨y', hlisted⟩ : ∃ y', cmdOf? s y.id = some y' :=
    Option.isSome_iff_exists.mp (List.find?_isSome.mpr ⟨y, List.mem_of_find?_eq_some hvictim, by simp⟩)
  have hwork : abortAny s cmd = (endCmd s y .abortRequested 0 [], .done .success 0 []) := by
    rw [abortAny_plain hruns, abortCmd_within hlimit, hvictim]
  have hcmd : cmdOf? (endCmd s y .abortRequested 0 []) id = some cmd := (cmdOf?_endCmd_ne _ _ _ hne.symm).trans hf.1
  refine ends_of_reply_listed rfl (by decide) hf hwork hcmd fun t _ hcmds => ?_
  rw [cmdOf?_congr hcmds, cmdOf?_endCmd_ne _ _ _ (by rw [hid]; exact hne), cmdOf?_endCmd_same _ _ _ hlisted]
  rfl

theorem ends_abort_none (hf : Fetched s id true 0x08 cmd) (hlimit : (s.hst.cmds.filter fun c => c.ctl == cmd.ctl && c.q == 0 && sqeOp c.sqe == 8).length ≤ 8)
    (hruns : ∀ r ∈ s.prg.runs, ∀ c ∈ s.hst.cmds, c.id = r.cmd → c.ctl ≠ cmd.ctl) (hvictim : abortVictim s cmd = none) :
    Ends (.abort id) s id .success 1 [] fun t => t.map.reserved = s.map.reserved - cmd.room := by
  have hwork : abortAny s cmd = (s, .done .success 1 []) := by rw [abortAny_plain hruns, abortCmd_within hlimit, hvictim]
  exact ends_of_reply rfl (by decide) hf hwork rfl fun t ht => by rw [ht.map]; rfl

/-! ### Set Features and Get Features (R120, R122, R140, R196) -/

/-- Features that the device keeps as a value alone, for each controller. -/
def plainFeatures : List Nat := [0x01, 0x04, 0x08, 0x09, 0x0A, 0x0B]

/-- A controller's features with one kept. -/
def featKept (s : State) (k fid v : Nat) : State := putCtl s k { ctlOf s k with feats := (ctlOf s k).feats.put fid v }

/-- Set Features carries out the feature's own act and keeps its value. -/
theorem setFeatures_keeps {hd : List Byte} {fid dw0 : Nat} {u : State} (hfid : cdwF cmd.sqe 10 7 0 = fid) (hknown : featureIds.contains fid = true) (hapst : fid ≠ 0x0C)
    (hact : featureActs s cmd fid (cdw cmd.sqe 11) hd = (u, .ok dw0)) : setFeatures hd s cmd = (featKept u (featureHome fid cmd.ctl) fid (cdw cmd.sqe 11), .done .success dw0 []) := by
  simp only [setFeatures, hfid, hknown, hact, if_neg hapst]
  rfl

/-- A Set Features whose act leaves the commands alone ends, with the state of the act and the value kept. -/
theorem ends_setFeatures {hd : List Byte} {fid dw0 : Nat} {u : State} {P : State → Prop} (hf : Fetched s id true 0x09 cmd) (hfid : cdwF cmd.sqe 10 7 0 = fid)
    (hknown : featureIds.contains fid = true) (hapst : fid ≠ 0x0C) (hact : featureActs s cmd fid (cdw cmd.sqe 11) hd = (u, .ok dw0)) (hc : u.hst.cmds = s.hst.cmds)
    (hP : ∀ t, t.hst.power = u.hst.power → t.com.hmb = u.com.hmb → t.com.stamp = u.com.stamp → t.com.time = u.com.time
      → (ctlOf t (featureHome fid cmd.ctl)).feats.get? fid = some (cdw cmd.sqe 11) → P t) : Ends (.setFeatures id hd) s id .success dw0 [] P := by
  refine ends_of_reply rfl (by decide) hf (setFeatures_keeps hfid hknown hapst hact) hc fun t ht => hP t ?_ ?_ ?_ ?_ ?_
  · rw [ht.hst]; rfl
  · rw [ht.com]; rfl
  · rw [ht.com]; rfl
  · rw [ht.com]; rfl
  · rw [ht.ctlOf, featKept, ctlOf_putCtl_same]
    exact Tab.get?_put_same _ _ _

theorem ends_setFeatures_value (hd : List Byte) (hf : Fetched s id true 0x09 cmd) (hfid : cdwF cmd.sqe 10 7 0 ∈ plainFeatures) :
    Ends (.setFeatures id hd) s id .success 0 [] fun t => (ctlOf t cmd.ctl).feats.get? (cdwF cmd.sqe 10 7 0) = some (cdw cmd.sqe 11) := by
  have hplain : ∀ fid ∈ plainFeatures, featureIds.contains fid = true ∧ fid ≠ 0x0C ∧ (∀ ctl, featureHome fid ctl = ctl) ∧ featureActs s cmd fid (cdw cmd.sqe 11) hd = (s, .ok 0) := by
    simp [plainFeatures, featureIds, featureHome, featureActs]
  obtain ⟨hknown, hapst, hhome, hact⟩ := hplain _ hfid
  exact ends_setFeatures hf rfl hknown hapst hact rfl fun t _ _ _ _ hkept => by rwa [hhome] at hkept

theorem ends_setFeatures_power (hd : List Byte) (hf : Fetched s id true 0x09 cmd) (hfid : cdwF cmd.sqe 10 7 0 = 0x02) (hstate : cdw cmd.sqe 11 % 32 ≤ 2) :
    Ends (.setFeatures id hd) s id .success 0 [] fun t => t.hst.power.cur = cdw cmd.sqe 11 % 32 ∧ t.hst.power.target = none := by
  have hact : featureActs s cmd 0x02 (cdw cmd.sqe 11) hd = (irq (putPower s { s.hst.power with cur := cdw cmd.sqe 11 % 32, target := none, steps := 0 }) pNQE 1, .ok 0) := by
    simp only [featureActs, setPower, if_pos hstate, if_neg (show ¬(cdw cmd.sqe 11 % 32 > 4) by omega)]
  exact ends_setFeatures hf hfid (by decide) (by decide) hact rfl fun t hpower _ _ _ _ => by rw [hpower]; exact ⟨rfl, rfl⟩

theorem ends_setFeatures_entry (hd : List Byte) (hf : Fetched s id true 0x09 cmd) (hfid : cdwF cmd.sqe 10 7 0 = 0x02) (hstate : cdw cmd.sqe 11 % 32 = 3 ∨ cdw cmd.sqe 11 % 32 = 4)
    (hferry : ferryRunning s = false) : Ends (.setFeatures id hd) s id .success 0 [] fun t => t.hst.power.target = some (cdw cmd.sqe 11 % 32) := by
  have hact : featureActs s cmd 0x02 (cdw cmd.sqe 11) hd = (putPower s { s.hst.power with target := some (cdw cmd.sqe 11 % 32), steps := 0 }, .ok 0) := by
    simp only [featureActs, setPower, hferry, if_neg (show ¬(cdw cmd.sqe 11 % 32 > 4) by omega), if_neg (show ¬(cdw cmd.sqe 11 % 32 ≤ 2) by omega)]
    rfl
  exact ends_setFeatures hf hfid (by decide) (by decide) hact rfl fun t hpower _ _ _ _ => by rw [hpower]; rfl

theorem ends_setFeatures_queues (hd : List Byte) (hf : Fetched s id true 0x09 cmd) (hfid : cdwF cmd.sqe 10 7 0 = 0x07) (hqueues : ioQueues s cmd.ctl ≠ 0) :
    Ends (.setFeatures id hd) s id .success ((ioQueues s cmd.ctl - 1) * 65537) [] fun _ => True :=
  ends_setFeatures hf hfid (by decide) (by decide) (u := s) (by simp only [featureActs, if_neg hqueues]) rfl fun _ _ _ _ _ _ => trivial

/-- Opening the window changes neither the host side nor the host memory buffer. -/
theorem hmwOpen_frame (s : State) (granted : Nat) :
    (whenUp pMAP (fun s => hmwOpen s granted) s).hst = s.hst ∧ (whenUp pMAP (fun s => hmwOpen s granted) s).com.hmb = s.com.hmb := by
  unfold whenUp
  split
  · dsimp only
    unfold hmwOpen
    split <;> exact ⟨rfl, rfl⟩
  · exact ⟨rfl, rfl⟩

theorem ends_setFeatures_hostMemory (hd : List Byte) (hf : Fetched s id true 0x09 cmd) (hfid : cdwF cmd.sqe 10 7 0 = 0x0D) (henable : cdw cmd.sqe 11 % 2 = 1) :
    Ends (.setFeatures id hd) s id .success 0 [] fun t => t.com.hmb = hmbList hd (cdw cmd.sqe 15) := by
  have hact : featureActs s cmd 0x0D (cdw cmd.sqe 11) hd
      = (whenUp pMAP (fun s => hmwOpen s ((hmbList hd (cdw cmd.sqe 15)).map (·.2)).sum) { s with com := { s.com with hmb := hmbList hd (cdw cmd.sqe 15) } }, .ok 0) := if_pos henable
  obtain ⟨hhst, hhmb⟩ := hmwOpen_frame { s with com := { s.com with hmb := hmbList hd (cdw cmd.sqe 15) } } ((hmbList hd (cdw cmd.sqe 15)).map (·.2)).sum
  exact ends_setFeatures hf hfid (by decide) (by decide) hact (by rw [hhst]) fun t _ ht _ _ _ => ht.trans hhmb

theorem ends_setFeatures_timestamp (hd : List Byte) (hf : Fetched s id true 0x09 cmd) (hfid : cdwF cmd.sqe 10 7 0 = 0x0E) :
    Ends (.setFeatures id hd) s id .success 0 [] fun t => stampNow t = sqeF hd 0 6 := by
  refine ends_setFeatures hf hfid (by decide) (by decide) (u := { s with com := { s.com with stamp := some (sqeF hd 0 6, s.com.time) } }) rfl rfl fun t _ _ hstamp htime _ => ?_
  rw [stampNow, hstamp, htime]
  simp

theorem ends_getFeatures_value (hf : Fetched s id true 0x0A cmd) (hfid : cdwF cmd.sqe 10 7 0 ∈ plainFeatures) :
    Ends (.getFeatures id) s id .success ((ctlOf s cmd.ctl).feats.getD (cdwF cmd.sqe 10 7 0) 0) [] fun t => ctlOf t cmd.ctl = ctlOf s cmd.ctl := by
  have hwork : getFeatures s cmd = (s, .done .success ((ctlOf s cmd.ctl).feats.getD (cdwF cmd.sqe 10 7 0) 0) []) := by
    have hplain : ∀ fid ∈ plainFeatures, cdwF cmd.sqe 10 7 0 = fid → getFeatures s cmd = (s, .done .success ((ctlOf s cmd.ctl).feats.getD fid 0) []) := by
      simp +contextual [plainFeatures, featureIds, featureHome, getFeatures]
    exact hplain _ hfid rfl
  exact ends_of_reply rfl (by decide) hf hwork rfl fun t ht => by rw [ctlOf, ht.hst, ctlOf]

theorem ends_getFeatures_power (hf : Fetched s id true 0x0A cmd) (hfid : cdwF cmd.sqe 10 7 0 = 0x02) :
    Ends (.getFeatures id) s id .success s.hst.power.cur [] fun t => t.hst.power = s.hst.power :=
  ends_of_reply rfl (by decide) hf (getFeatures_powerState hfid) rfl fun t ht => by rw [ht.hst]

theorem ends_getFeatures_timestamp (hf : Fetched s id true 0x0A cmd) (hfid : cdwF cmd.sqe 10 7 0 = 0x0E) :
    Ends (.getFeatures id) s id .success 0 (bytesLE 6 (stampNow s) ++ [0, 0]) fun t => t.com.stamp = s.com.stamp := by
  have hwork : getFeatures s cmd = (s, .done .success 0 (bytesLE 6 (stampNow s) ++ [0, 0])) := by
    simp only [getFeatures, hfid]
    rfl
  exact ends_of_reply rfl (by decide) hf hwork rfl fun t ht => by rw [ht.com]

/-! ### Asynchronous Event Request, Namespace Attachment, Firmware Image Download (R120, R521) -/

theorem waits_asyncEventRequest (hf : Fetched s id true 0x0C cmd)
    (hroom : (s.hst.cmds.filter fun c => c.ctl == cmd.ctl && c.q == 0 && sqeOp c.sqe == 0x0C && c.state == .waiting).length < 16) :
    Waits (.asyncEventRequest id) s id fun t => t.hst.posted = s.hst.posted :=
  waits_of_reply rfl (by decide) hf (if_neg (Nat.not_le.mpr hroom)) hf.1 fun t ht _ => by rw [ht.hst]

/-- The controllers that a list in the host's data names. -/
def hostCtls (hd : List Byte) : List Nat := (List.range (min 2047 (sqeF hd 0 2))).map fun i => sqeF hd (2 + 2 * i) 2

theorem hostCtls_eq (hd : List Byte) : (List.range (min 2047 (sqeF hd 0 2))).map (fun i => sqeF hd (2 + 2 * i) 2) = hostCtls hd := rfl

theorem any_eq_false_of {α : Type} {l : List α} {p : α → Bool} (h : ∀ a ∈ l, p a = false) : l.any p = false := List.any_eq_false.mpr fun a ha => by simp [h a ha]

theorem ends_attach {x : Namespace} {hd : List Byte} (hf : Fetched s id true 0x15 cmd) (hns : nsAt? s (sqeNsid cmd.sqe) = some x) (hexist : ∀ c ∈ hostCtls hd, ctlExists s c = true)
    (hact : cdwF cmd.sqe 10 3 0 = 0) (hnew : ∀ c ∈ hostCtls hd, c ∉ x.attached)
    (hshare : x.shared = true ∧ partitionMode s = false ∨ (x.attached ++ hostCtls hd).length ≤ 1) :
    Ends (.namespaceAttachment id hd) s id .success 0 [] fun t => nsAt? t (sqeNsid cmd.sqe) = some { x with attached := x.attached ++ hostCtls hd } := by
  have hany : (hostCtls hd).any (fun k => !ctlExists s k) = false := any_eq_false_of fun c hc => by rw [hexist c hc]; rfl
  have hnone : (hostCtls hd).any (fun k => x.attached.contains k) = false := any_eq_false_of fun c hc => by simpa using hnew c hc
  have hprivate : ((!x.shared || partitionMode s) && decide (1 < (x.attached ++ hostCtls hd).length)
      && !(partitionMode s && (x.attached ++ hostCtls hd).all fun k => ctlFn k == ctlFn ((hostCtls hd).headD 0))) = false := by
    rcases hshare with ⟨hsh, hpm⟩ | hlen
    · simp [hsh, hpm]
    · simp only [decide_eq_false (Nat.not_lt.mpr hlen), Bool.and_false, Bool.false_and]
  have hwork : nsAttach hd s cmd = ((fun v : State => { v with hst := { v.hst with changedNs := v.hst.changedNs ++ [sqeNsid cmd.sqe] } })
      (putNs s (sqeNsid cmd.sqe - 1) { x with attached := x.attached ++ hostCtls hd }), .ok) := by
    simp only [nsAttach, hostCtls_eq, hns, hany, hact, hnone]
    exact if_neg (ne_true_of_eq_false hprivate)
  exact ends_of_reply rfl (by decide) hf hwork rfl fun t ht => ht.nsAt?.trans (nsAt?_putNs hns)

theorem ends_detach {x : Namespace} {hd : List Byte} (hf : Fetched s id true 0x15 cmd) (hns : nsAt? s (sqeNsid cmd.sqe) = some x) (hexist : ∀ c ∈ hostCtls hd, ctlExists s c = true)
    (hact : cdwF cmd.sqe 10 3 0 = 1) (hheld : ∀ c ∈ hostCtls hd, c ∈ x.attached) :
    Ends (.namespaceAttachment id hd) s id .success 0 [] fun t => nsAt? t (sqeNsid cmd.sqe) = some { x with attached := x.attached.filter fun c => !(hostCtls hd).contains c } := by
  have hany : (hostCtls hd).any (fun k => !ctlExists s k) = false := any_eq_false_of fun c hc => by rw [hexist c hc]; rfl
  have hnone : (hostCtls hd).any (fun k => !x.attached.contains k) = false := any_eq_false_of fun c hc => by simpa using hheld c hc
  have hwork : nsAttach hd s cmd = (putNs s (sqeNsid cmd.sqe - 1) { x with attached := x.attached.filter fun k => !(hostCtls hd).contains k }, .ok) := by
    simp only [nsAttach, hostCtls_eq, hns, hany, hact, hnone]
    rfl
  exact ends_of_reply rfl (by decide) hf hwork rfl fun t ht => ht.nsAt?.trans (nsAt?_putNs hns)

/-- A piece that passes the taps changes the key part and the shared part alone. -/
theorem tap_hst (s : State) (src off : Nat) (bytes : List Byte) : (tap s src off bytes).hst = s.hst := by
  have hdge : (dgeSnoop s src off bytes).hst = s.hst := by
    have habsorb (n : Nat) (j : DigestJob) : (dgeAbsorb s n j bytes).hst = s.hst := by
      unfold dgeAbsorb
      split
      rfl
    unfold dgeSnoop
    split
    · rfl
    · split
      · split
        · rfl
        · split
          · exact habsorb _ _
          · rfl
      · rfl
  have hsn (u : State) : (snSnoop u src off bytes).hst = u.hst := by
    have habsorb (j : DigestJob) : (snAbsorb u j bytes).hst = u.hst := by
      unfold snAbsorb
      split
      rfl
    unfold snSnoop
    split
    · split
      · rfl
      · split
        · exact habsorb _
        · rfl
    · rfl
  exact (hsn _).trans hdge

theorem ends_firmwareImageDownload (hd : List Byte) (hf : Fetched s id true 0x11 cmd) :
    Ends (.firmwareImageDownload id hd) s id .success 0 [] fun t => t.hst.download = s.hst.download ++ [(4 * cdw cmd.sqe 11, hd.take (4 * (cdw cmd.sqe 10 + 1)))] := by
  have hhst := tap_hst s (if ctlPort cmd.ctl then 2 else 1) (4 * cdw cmd.sqe 11) (hd.take (4 * (cdw cmd.sqe 10 + 1)))
  refine ends_of_reply rfl (by decide) hf rfl (by rw [hhst]) fun t ht => ?_
  rw [ht.hst, hhst]

/-! ### Self-test, directives and resources (R114, R120) -/

theorem ends_deviceSelfTest_start (hf : Fetched s id true 0x14 cmd) (hact : cdwF cmd.sqe 10 3 0 = 1 ∨ cdwF cmd.sqe 10 3 0 = 2) (hidle : s.hst.selfTest = none) :
    Ends (.deviceSelfTest id) s id .success 0 [] fun t => t.hst.selfTest = some (cdwF cmd.sqe 10 3 0, s.com.time) := by
  have hwork : selfTest s cmd = ({ s with hst := { s.hst with selfTest := some (cdwF cmd.sqe 10 3 0, s.com.time) } }, .ok) := by
    rcases hact with h | h <;> simp only [selfTest, h, hidle] <;> rfl
  exact ends_of_reply rfl (by decide) hf hwork rfl fun t ht => by rw [ht.hst]

theorem ends_deviceSelfTest_stop (hf : Fetched s id true 0x14 cmd) (hact : cdwF cmd.sqe 10 3 0 = 0xF) :
    Ends (.deviceSelfTest id) s id .success 0 [] fun t => t.hst.selfTest = none := by
  have hwork : selfTest s cmd = ({ s with hst := { s.hst with selfTest := none } }, .ok) := by simp only [selfTest, hact]
  exact ends_of_reply rfl (by decide) hf hwork rfl fun t ht => by rw [ht.hst]

theorem ends_directiveSend_release {x : Namespace} (hns : nsAt? s (sqeNsid cmd.sqe) = some x) (htype : cdwF cmd.sqe 11 15 8 = 1) (hf : Fetched s id true 0x19 cmd) (hop : cdwF cmd.sqe 11 7 0 = 2) :
    Ends (.directiveSend id) s id .success 0 [] fun t => nsAt? t (sqeNsid cmd.sqe) = some { x with open_ := [], streams := 0 } := by
  have hwork : directiveSend s cmd = (putNs s (sqeNsid cmd.sqe - 1) { x with open_ := [], streams := 0 }, .ok) := by simp only [directiveSend, hns, htype, hop]
  exact ends_of_reply rfl (by decide) hf hwork rfl fun t ht => ht.nsAt?.trans (nsAt?_putNs hns)

theorem ends_directiveReceive_allocate {x : Namespace} (hns : nsAt? s (sqeNsid cmd.sqe) = some x) (htype : cdwF cmd.sqe 11 15 8 = 1) (hf : Fetched s id true 0x1A cmd)
    (hop : cdwF cmd.sqe 11 7 0 = 3) :
    Ends (.directiveReceive id) s id .success (min 16 (cdwF cmd.sqe 12 15 0)) [] fun t => nsAt? t (sqeNsid cmd.sqe) = some { x with streams := min 16 (cdwF cmd.sqe 12 15 0) } := by
  have hwork : directiveReceive s cmd = (putNs s (sqeNsid cmd.sqe - 1) { x with streams := min 16 (cdwF cmd.sqe 12 15 0) }, .done .success (min 16 (cdwF cmd.sqe 12 15 0)) []) := by
    simp only [directiveReceive, hns, htype, hop]
  exact ends_of_reply rfl (by decide) hf hwork rfl fun t ht => ht.nsAt?.trans (nsAt?_putNs hns)

section
variable (hf : Fetched s id true 0x1C cmd) (hexists : ctlExists s (cdwF cmd.sqe 10 31 16) = true) (hvf : isPf (cdwF cmd.sqe 10 31 16) = false)
  (hport : ctlPort (cdwF cmd.sqe 10 31 16) = ctlPort cmd.ctl)
include hexists hvf hport

/-- The VF that the command names may be managed. -/
theorem virtManage_permitted : ¬((!ctlExists s (cdwF cmd.sqe 10 31 16)) = true ∨ isPf (cdwF cmd.sqe 10 31 16) = true ∨ ctlPort (cdwF cmd.sqe 10 31 16) ≠ ctlPort cmd.ctl) := by
  simp [hexists, hvf, hport]

include hf

theorem ends_virtualization_offline (hact : cdwF cmd.sqe 10 3 0 = 7) : Ends (.virtualizationManagement id) s id .success 0 [] fun t =>
    (ctlOf t (cdwF cmd.sqe 10 31 16)).online = false ∧ (ctlOf t (cdwF cmd.sqe 10 31 16)).enabled = false := by
  have hpermitted := virtManage_permitted hexists hvf hport
  have hwork : virtManage s cmd = (putCtl s (cdwF cmd.sqe 10 31 16) { ctlOf s (cdwF cmd.sqe 10 31 16) with online := false, enabled := false, ready := false }, .ok) := by
    simp only [virtManage, if_neg hpermitted, hact]
  refine ends_of_reply rfl (by decide) hf hwork rfl fun t ht => ?_
  rw [ht.ctlOf, ctlOf_putCtl_same]
  exact ⟨rfl, rfl⟩

theorem ends_virtualization_online (hact : cdwF cmd.sqe 10 3 0 = 9) (hvq : 2 ≤ (ctlOf s (cdwF cmd.sqe 10 31 16)).vq) (hvi : 1 ≤ (ctlOf s (cdwF cmd.sqe 10 31 16)).vi) :
    Ends (.virtualizationManagement id) s id .success 0 [] fun t => (ctlOf t (cdwF cmd.sqe 10 31 16)).online = true := by
  have hpermitted := virtManage_permitted hexists hvf hport
  have hwork : virtManage s cmd = (putCtl s (cdwF cmd.sqe 10 31 16) { ctlOf s (cdwF cmd.sqe 10 31 16) with online := true }, .ok) := by
    simp only [virtManage, if_neg hpermitted, hact, if_neg (show ¬((ctlOf s (cdwF cmd.sqe 10 31 16)).vq < 2 ∨ (ctlOf s (cdwF cmd.sqe 10 31 16)).vi < 1) by omega)]
  refine ends_of_reply rfl (by decide) hf hwork rfl fun t ht => ?_
  rw [ht.ctlOf, ctlOf_putCtl_same]

theorem ends_virtualization_queues (hact : cdwF cmd.sqe 10 3 0 = 8) (hoffline : (ctlOf s (cdwF cmd.sqe 10 31 16)).online = false) (hmode : partitionMode s = false)
    (htype : cdwF cmd.sqe 10 10 8 = 0) (hroom : cdwF cmd.sqe 11 15 0 ≤ rdF s pNQE NQE_QP_FREE 13 0 + (ctlOf s (cdwF cmd.sqe 10 31 16)).vq) :
    Ends (.virtualizationManagement id) s id .success (cdwF cmd.sqe 11 15 0) [] fun t => (ctlOf t (cdwF cmd.sqe 10 31 16)).vq = cdwF cmd.sqe 11 15 0
      ∧ rd t pNQE NQE_QP_FREE = w32 (rdF s pNQE NQE_QP_FREE 13 0 + (ctlOf s (cdwF cmd.sqe 10 31 16)).vq - cdwF cmd.sqe 11 15 0) := by
  have hpermitted := virtManage_permitted hexists hvf hport
  have hwork : virtManage s cmd = (putCtl (wr s pNQE NQE_QP_FREE (w32 (rdF s pNQE NQE_QP_FREE 13 0 + (ctlOf s (cdwF cmd.sqe 10 31 16)).vq - cdwF cmd.sqe 11 15 0)))
      (cdwF cmd.sqe 10 31 16) { ctlOf s (cdwF cmd.sqe 10 31 16) with vq := cdwF cmd.sqe 11 15 0 }, .done .success (cdwF cmd.sqe 11 15 0) []) := by
    simp only [virtManage, if_neg hpermitted, hact, hoffline, htype, hmode, Bool.false_and, Bool.false_eq_true, or_false, if_false, if_true, if_neg (Nat.not_lt.mpr hroom)]
  refine ends_of_reply rfl (by decide) hf hwork rfl fun t ht => ?_
  rw [ht.ctlOf, ctlOf_putCtl_same, ht.rd _ _ (by decide) (by decide)]
  exact ⟨rfl, rd_wr_same _ _ _ _⟩

theorem ends_virtualization_vectors (hact : cdwF cmd.sqe 10 3 0 = 8) (hoffline : (ctlOf s (cdwF cmd.sqe 10 31 16)).online = false) (hmode : partitionMode s = false)
    (htype : cdwF cmd.sqe 10 10 8 = 1) (hroom : cdwF cmd.sqe 11 15 0 ≤ rdF s pNQE NQE_VEC_FREE 11 0 + (ctlOf s (cdwF cmd.sqe 10 31 16)).vi) :
    Ends (.virtualizationManagement id) s id .success (cdwF cmd.sqe 11 15 0) [] fun t => (ctlOf t (cdwF cmd.sqe 10 31 16)).vi = cdwF cmd.sqe 11 15 0
      ∧ rd t pNQE NQE_VEC_FREE = w32 (rdF s pNQE NQE_VEC_FREE 11 0 + (ctlOf s (cdwF cmd.sqe 10 31 16)).vi - cdwF cmd.sqe 11 15 0) := by
  have hpermitted := virtManage_permitted hexists hvf hport
  have hwork : virtManage s cmd = (putCtl (wr s pNQE NQE_VEC_FREE (w32 (rdF s pNQE NQE_VEC_FREE 11 0 + (ctlOf s (cdwF cmd.sqe 10 31 16)).vi - cdwF cmd.sqe 11 15 0)))
      (cdwF cmd.sqe 10 31 16) { ctlOf s (cdwF cmd.sqe 10 31 16) with vi := cdwF cmd.sqe 11 15 0 }, .done .success (cdwF cmd.sqe 11 15 0) []) := by
    simp only [virtManage, if_neg hpermitted, hact, hoffline, htype, hmode, Bool.false_and, Bool.false_eq_true, or_false, if_false, if_true, Nat.one_ne_zero, if_neg (Nat.not_lt.mpr hroom)]
  refine ends_of_reply rfl (by decide) hf hwork rfl fun t ht => ?_
  rw [ht.ctlOf, ctlOf_putCtl_same, ht.rd _ _ (by decide) (by decide)]
  exact ⟨rfl, rd_wr_same _ _ _ _⟩

end

end

end Sys2Proof.Machine

/-! Namespace Management: creation and deletion (R122, R183, R186). -/

namespace Sys2Proof.Machine

-- The proofs are elaborated one after another: run side by side, each that waits for another holds a thread, whose stack counts against the check's memory.
set_option Elab.async false

/-! ### What the map and the capacity leave alone -/

theorem mapChange_trim_hst (s : State) (h : Fin 1024) (first : BitVec 48) (count : Nat) : (mapChange s (.trim h first count)).hst = s.hst := by
  cases hstop : mapStopped s with
  | true => exact congrArg State.hst (if_pos hstop)
  | false =>
    cases hroom : jRoom s 32 with
    | true => exact (mapChange_trim hstop hroom h first count).1.hst (by decide)
    | false =>
      have hheld : mapChange s (.trim h first count) = { s with map := { s.map with held := s.map.held ++ [.trim h first count] } } :=
        (if_neg (ne_true_of_eq_false hstop)).trans (if_pos (by rw [hroom]; rfl))
      rw [hheld]

theorem trimAll_hst (s : State) (h : Nat) : (trimAll s h).hst = s.hst := by
  unfold trimAll
  split
  · rfl
  · split
    · exact mapChange_trim_hst _ _ _ _
    · rfl

theorem setSpares_hst (s : State) : (setSpares s).hst = s.hst := (refreshPool_agree _).hst (by decide)

theorem hotDrop_hst (s : State) (h : Nat) (key : List Byte) : (hotDrop s h key).1.hst = s.hst := by
  unfold hotDrop
  split <;> rfl

/-- Deletion takes the namespace out of the table and lists it as changed. -/
theorem dropNs_hst (s : State) (h : Nat) (x : Namespace) : (dropNs s h x).hst = { s.hst with
    ns := s.hst.ns.del h, changedNs := s.hst.changedNs ++ [h + 1], blockMeta := s.hst.blockMeta.dropRange (h * 2 ^ 64) ((h + 1) * 2 ^ 64) } := by
  have hkind (u : State) (hu : u.hst = s.hst) (mp : MapState) : ({ u with
      hst := { u.hst with ns := u.hst.ns.del h, changedNs := u.hst.changedNs ++ [h + 1], blockMeta := u.hst.blockMeta.dropRange (h * 2 ^ 64) ((h + 1) * 2 ^ 64) }
      map := mp } : State).hst = { s.hst with
        ns := s.hst.ns.del h, changedNs := s.hst.changedNs ++ [h + 1], blockMeta := s.hst.blockMeta.dropRange (h * 2 ^ 64) ((h + 1) * 2 ^ 64) } := by rw [← hu]
  unfold dropNs
  refine hkind _ ?_ _
  cases x.kind with
  | nvm => exact trimAll_hst s h
  | kv =>
    refine (foldl_hst (f := fun s (e : Nat × Nat × List Byte) => (hotDrop s h e.2.2).1) (fun _ _ => hotDrop_hst _ _ _) _ _).trans ?_
    show (if _ then _ else _ : State).hst = s.hst
    split
    · exact mapChange_trim_hst _ _ _ _
    · rfl
  | memory => rfl
  | compute => rfl

section
variable {s : State} {id : Nat} {cmd : HostCmd}

/-! ### Creation and deletion (R122) -/

theorem lbaFormat_lt {n : Nat} (h : n < 4) : lbaFormat n = some ((lbaFormat n).getD (1, 0)) := by
  match n, h with
  | 0, _ => rfl
  | 1, _ => rfl
  | 2, _ => rfl
  | 3, _ => rfl

/-- A command for one namespace that is there affects it alone. -/
theorem affected_one {x : Namespace} (hone : sqeNsid cmd.sqe ≠ 0xFFFFFFFF) (hns : nsAt? s (sqeNsid cmd.sqe) = some x) : affected s (sqeNsid cmd.sqe) = [sqeNsid cmd.sqe - 1] := by
  have h0 : sqeNsid cmd.sqe ≠ 0 := fun h0 => by simp [nsAt?, h0] at hns
  simp [affected, hone, h0, hns]

theorem nsAt?_putNs_new (s : State) (h : Nat) (x : Namespace) : nsAt? (putNs s h x) (h + 1) = some x := by
  simp [nsAt?, putNs]

theorem ends_nsCreate {hd : List Byte} {h : Nat} (hf : Fetched s id true 0x0D cmd) (hmap : mapStopped s = false) (hact : cdwF cmd.sqe 10 3 0 = 0) (hkind : cdwF cmd.sqe 11 31 24 = 0)
    (hfree : (List.range 1024).find? (fun i => (s.hst.ns.get? i).isNone) = some h) (hlen : hd.length = 4096) (hmu : bAt hd 3072 ≤ 1) (hcompress : bAt hd 3073 ≤ 1)
    (hdu : bAt hd 3074 ≤ 1) (hzeros : zerosAt hd 3075 1021 = true) (hformat : bAt hd 26 % 16 < 4) (hpi : bAt hd 29 % 8 ≤ 3)
    (hmeta : bAt hd 29 % 8 = 0 ∨ ((lbaFormat (bAt hd 26 % 16)).getD (1, 0)).2 ≠ 0) (hsize : 0 < leAt hd 0 8)
    (hroom : leAt hd 0 8 * ((lbaFormat (bAt hd 26 % 16)).getD (1, 0)).1 + nsAllocated s ≤ tnvmcap s) :
    Ends (.namespaceManagement id hd) s id .success (h + 1) [] fun t =>
      nsAt? t (h + 1) = some (nsFrom .nvm hd ((lbaFormat (bAt hd 26 % 16)).getD (1, 0)).1 ((lbaFormat (bAt hd 26 % 16)).getD (1, 0)).2) := by
  have hf' := lbaFormat_lt hformat
  generalize (lbaFormat (bAt hd 26 % 16)).getD (1, 0) = fmt at hf' hmeta hroom ⊢
  obtain ⟨lba, m⟩ := fmt
  dsimp only at hmeta hroom ⊢
  have hfields : ¬(bAt hd 3072 > 1 ∨ bAt hd 3073 > 1 ∨ bAt hd 3074 > 1 ∨ (!zerosAt hd 3075 1021) = true ∨ (nsFrom .nvm hd lba m).pi > 3 ∨ ((nsFrom .nvm hd lba m).pi ≠ 0 ∧ m = 0)) := by
    have hpi' : (nsFrom .nvm hd lba m).pi = bAt hd 29 % 8 := rfl
    rw [hpi', hzeros]
    simp only [Bool.not_true, Bool.false_eq_true, false_or]
    omega
  have hcapacity : ¬((nsFrom .nvm hd lba m).size * lba + nsAllocated s > tnvmcap s ∨ (nsFrom .nvm hd lba m).size = 0) := by
    have hsize' : (nsFrom .nvm hd lba m).size = leAt hd 0 8 := rfl
    rw [hsize']
    omega
  have hwork : nsManage hd s cmd = (putNs (setSpares { s with map := { s.map with mu := s.map.mu.put h ((nsFrom .nvm hd lba m).unit / 64) } }) h (nsFrom .nvm hd lba m), .done .success (h + 1) []) := by
    simp only [nsManage, hact, nsCreate, hkind, hfree, kindOf?, if_true, hf', hlen, ne_eq, not_true_eq_false, if_false, if_neg hfields, hmap, Bool.false_eq_true, if_neg hcapacity]
  refine ends_of_reply rfl (by decide) hf hwork ?_ fun t ht => ht.nsAt?.trans (nsAt?_putNs_new _ _ _)
  rw [putNs, setSpares_hst]

theorem ends_nsDelete {x : Namespace} (hd : List Byte) (hf : Fetched s id true 0x0D cmd) (hmap : mapStopped s = false) (hact : cdwF cmd.sqe 10 3 0 = 1) (hone : sqeNsid cmd.sqe ≠ 0xFFFFFFFF)
    (hns : nsAt? s (sqeNsid cmd.sqe) = some x) (hranges : rangesOf s (sqeNsid cmd.sqe) = []) (hlive : inLiveSet s (sqeNsid cmd.sqe - 1) = false)
    (hacts : ∀ a ∈ s.prg.acts, a.ns ≠ sqeNsid cmd.sqe - 1) (hdrained : draining s cmd [sqeNsid cmd.sqe - 1] = false) :
    Ends (.namespaceManagement id hd) s id .success 0 [] fun t => nsAt? t (sqeNsid cmd.sqe) = none ∧ sqeNsid cmd.sqe ∈ t.hst.changedNs := by
  have h0 : sqeNsid cmd.sqe ≠ 0 := fun h0 => by simp [nsAt?, h0] at hns
  have hentry : s.hst.ns.get? (sqeNsid cmd.sqe - 1) = some x := by rwa [nsAt?, if_neg h0] at hns
  have hsucc : sqeNsid cmd.sqe - 1 + 1 = sqeNsid cmd.sqe := by omega
  have hany : (s.prg.acts.any fun a => a.ns == sqeNsid cmd.sqe - 1) = false := any_eq_false_of fun a ha => by simpa using hacts a ha
  have hwork : nsManage hd s cmd = (dropNs s (sqeNsid cmd.sqe - 1) x, .ok) := by
    simp only [nsManage, hact, nsDelete, affected_one hone hns, List.findSome?_cons, List.findSome?_nil, hsucc, hranges, List.head?_nil, Option.map_none, List.isEmpty_cons, Bool.false_eq_true,
      if_false, List.any_cons, List.any_nil, hlive, Bool.or_false, hmap, hany, hdrained, List.foldl_cons, List.foldl_nil, hentry]
  refine ends_of_reply rfl (by decide) hf hwork (by rw [dropNs_hst]) fun t ht => ?_
  rw [ht.nsAt?, nsAt?, if_neg h0, ht.hst, dropNs_hst]
  exact ⟨Tab.get?_del_same _ _, by simp [hsucc]⟩

end

end Sys2Proof.Machine

/-! Firmware Commit: the check of an image, its replicas and the activation (R518, R521, R612). -/

namespace Sys2Proof.Machine

-- The proofs are elaborated one after another: run side by side, each that waits for another holds a thread, whose stack counts against the check's memory.
set_option Elab.async false

/-! ### A check that an image passes (R518, R534) -/

/-- Only the key part, the counts of the snoop digest and shared state beside the registers differ. -/
structure Snooped (s t : State) : Prop where
  agree : State.AgreeOutside [.keyP] s t
  regs : RegsKept [(pSCP, SCP_SN_STATUS), (pSCP, SCP_SN_BYTES_LO), (pSCP, SCP_SN_BYTES_HI)] s t

theorem snSnoop_snooped (s : State) (src off : Nat) (bytes : List Byte) : Snooped s (snSnoop s src off bytes) := by
  have hkey (k : Keys) : Snooped s { s with key := k } := ⟨(State.AgreeOutside.refl _ s).keys (by decide) s.com k, regsKept_of_eq _ rfl rfl⟩
  have hwr {u : State} (hu : Snooped s u) (o : Nat) (w : Word) (ho : o < 4096 ∧ (pSCP, o) ∈ [(pSCP, SCP_SN_STATUS), (pSCP, SCP_SN_BYTES_LO), (pSCP, SCP_SN_BYTES_HI)]) :
      Snooped s (wr u pSCP o w) := ⟨hu.agree.wr _ _ _, hu.regs.trans (regsKept_wr u w ho.1 ho.2)⟩
  have habsorb (j : DigestJob) : Snooped s (snAbsorb s j bytes) := by
    unfold snAbsorb
    split
    exact hwr (hwr (hkey _) _ _ (by decide)) _ _ (by decide)
  unfold snSnoop
  split
  · split
    · exact hkey s.key
    · split
      · exact habsorb _
      · exact hwr (hkey _) _ _ (by decide)
  · exact hkey s.key

/-- A check that finds no cause leaves what the snoop digest saw, and nothing else. -/
theorem checkImage_passed {s : State} {installing : Bool} {replica : Nat} {img : List Byte} (h : (checkImage s installing replica (some img)).2 = none) :
    ∃ u, checkImage s installing replica (some img) = (u, none) ∧ Snooped s u := by
  refine ⟨(checkImage s installing replica (some img)).1, Prod.ext rfl h, ?_⟩
  unfold checkImage at h ⊢
  dsimp only at h ⊢
  split at h
  · cases h
  · rename_i hinject
    rw [if_neg hinject]
    split at h
    · cases h
    · exact snSnoop_snooped s _ _ _

/-! ### The replicas (R521) -/

/-- An image is written into a replica that is there. -/
def storeReplica (slot : Nat) (img : List Byte) (s : State) (k : Nat) : State :=
  if replicaLost s k then s else putBot s { s.bot with replicas := s.bot.replicas.put k ((replicaOf s k).store slot img) }

theorem storeReplica_hst (slot : Nat) (img : List Byte) (s : State) (k : Nat) : (storeReplica slot img s k).hst = s.hst := by
  unfold storeReplica
  split <;> rfl

theorem replicaLost_storeReplica (slot : Nat) (img : List Byte) (s : State) (k r : Nat) : replicaLost (storeReplica slot img s k) r = replicaLost s r := by
  unfold storeReplica
  split <;> rfl

theorem replicaOf_storeReplica_same {slot : Nat} {img : List Byte} {s : State} {k : Nat} (h : replicaLost s k = false) :
    replicaOf (storeReplica slot img s k) k = (replicaOf s k).store slot img := by
  rw [storeReplica, if_neg (ne_true_of_eq_false h)]
  exact congrArg (Option.getD · BootSet.empty) (Tab.get?_put_same _ _ _)

theorem replicaOf_storeReplica_ne (slot : Nat) (img : List Byte) (s : State) {k r : Nat} (h : r ≠ k) : replicaOf (storeReplica slot img s k) r = replicaOf s r := by
  unfold storeReplica
  split
  · rfl
  · exact congrArg (Option.getD · BootSet.empty) (Tab.get?_put_ne _ _ h)

theorem foldl_storeReplica_ne (slot : Nat) (img : List Byte) (l : List Nat) (s : State) {r : Nat} (h : r ∉ l) : replicaOf (l.foldl (storeReplica slot img) s) r = replicaOf s r := by
  induction l generalizing s with
  | nil => rfl
  | cons k l ih =>
    obtain ⟨hne, hl⟩ : r ≠ k ∧ r ∉ l := by simpa using h
    rw [List.foldl_cons, ih _ hl, replicaOf_storeReplica_ne _ _ _ hne]

theorem foldl_storeReplica_same (slot : Nat) (img : List Byte) (l : List Nat) (s : State) {r : Nat} (hr : r ∈ l) (hl : l.Nodup) (hlost : replicaLost s r = false) :
    replicaOf (l.foldl (storeReplica slot img) s) r = (replicaOf s r).store slot img := by
  induction l generalizing s with
  | nil => cases hr
  | cons k l ih =>
    obtain ⟨hk, hl'⟩ := List.nodup_cons.mp hl
    by_cases hrk : r = k
    · subst hrk
      rw [List.foldl_cons, foldl_storeReplica_ne _ _ _ _ hk, replicaOf_storeReplica_same hlost]
    · rw [List.foldl_cons, ih _ ((List.mem_cons.mp hr).resolve_left hrk) hl' (by rw [replicaLost_storeReplica]; exact hlost), replicaOf_storeReplica_ne _ _ _ hrk]

theorem storeImage_hst (s : State) (slot : Nat) (img : List Byte) : (storeImage s slot img).hst = s.hst := foldl_hst (f := storeReplica slot img) (storeReplica_hst slot img) _ s

theorem mem_replicas (r : Fin 4) : r.val ∈ [3, 2, 1, 0] := by
  decide +revert

theorem replicaOf_storeImage (s : State) (slot : Nat) (img : List Byte) (r : Fin 4) (hlost : replicaLost s r.val = false) :
    replicaOf (storeImage s slot img) r.val = (replicaOf s r.val).store slot img :=
  foldl_storeReplica_same slot img [3, 2, 1, 0] s (mem_replicas r) (by decide) hlost

section
variable {s : State} {id : Nat} {cmd : HostCmd}

/-! ### The command (R521, R612) -/

/-- Action 0 keeps a good image in every replica that is there. -/
theorem ends_firmwareCommit_store (unreadable : List Nat) (hf : Fetched s id true 0x10 cmd) (hlow : 1 ≤ cdwF cmd.sqe 10 2 0) (hhigh : cdwF cmd.sqe 10 2 0 ≤ 4) (hact : cdwF cmd.sqe 10 5 3 = 0)
    (hgood : (checkImage s false 9 (some (downloaded s))).2 = none) (hkind : 1 ≤ imgKind (downloaded s)) (hkind' : imgKind (downloaded s) ≤ 3) :
    Ends (.firmwareCommit id unreadable) s id .success 0 [] fun t =>
      t.hst.download = [] ∧ ∀ r : Fin 4, replicaLost s r.val = false → replicaOf t r.val = (replicaOf s r.val).store (cdwF cmd.sqe 10 2 0) (downloaded s) := by
  obtain ⟨u, hcheck, hsnoop⟩ := checkImage_passed hgood
  have hhst : u.hst = s.hst := hsnoop.agree.hst (by decide)
  have hbot : u.bot = s.bot := hsnoop.agree.bot (by decide)
  have hwork : firmwareCommit unreadable s cmd = (storeImage { u with hst := { u.hst with download := [] } } (cdwF cmd.sqe 10 2 0) (downloaded s), .ok) := by
    have hbad : ¬((none : Option Nat).isSome = true ∨ imgKind (downloaded s) = 0 ∨ 3 < imgKind (downloaded s)) := by simp; omega
    simp only [firmwareCommit, hact, hcheck, if_neg hbad, if_neg (show ¬(cdwF cmd.sqe 10 2 0 = 0) by omega), if_neg (show ¬(cdwF cmd.sqe 10 2 0 > 4) by omega)]
    rfl
  refine ends_of_reply rfl (by decide) hf hwork (by rw [storeImage_hst, hhst]) fun t ht => ⟨?_, fun r hlost => ?_⟩
  · rw [ht.hst, storeImage_hst]
  · have hlost' : replicaLost { u with hst := { u.hst with download := [] } } r.val = false := by
      have hstatus := (hsnoop.regs (pFCH (replicaChan r.val)) rSTATUS (by unfold pFCH replicaChan; omega) (by decide) (by simp [rSTATUS, SCP_SN_STATUS, SCP_SN_BYTES_LO, SCP_SN_BYTES_HI])).1
      rw [← hlost, replicaLost, replicaLost, ← hstatus]
      rfl
    have hreplica : replicaOf { u with hst := { u.hst with download := [] } } r.val = replicaOf s r.val := by
      rw [replicaOf, replicaOf, ← hbot]
    rw [← hreplica, ← replicaOf_storeImage _ _ _ _ hlost', replicaOf, ht.bot]
    rfl

section
variable {unreadable : List Nat} {b : BootSet} (hlow : 1 ≤ cdwF cmd.sqe 10 2 0) (hhigh : cdwF cmd.sqe 10 2 0 ≤ 4) (hset : slotSet s unreadable (cdwF cmd.sqe 10 2 0) = some b)
  (hspan : spanBars s (imgVersion (b.main (cdwF cmd.sqe 10 2 0))) = false) (hring : noRing s = false)
include hlow hhigh hset hspan hring

/-- A slot with a good image that the group's window takes goes to the action. -/
theorem firmwareCommit_slot (hact : 2 ≤ cdwF cmd.sqe 10 5 3) (hact' : cdwF cmd.sqe 10 5 3 ≤ 3) :
    firmwareCommit unreadable s cmd = if cdwF cmd.sqe 10 5 3 = 2 then (putBot s { s.bot with nextSlot := some (cdwF cmd.sqe 10 2 0) }, .ok)
      else activateSlot s unreadable (cdwF cmd.sqe 10 2 0) (cdwF cmd.sqe 10 5 3) cmd := by
  have hany : ((some b).any fun b => spanBars s (imgVersion (b.main (cdwF cmd.sqe 10 2 0)))) = false := hspan
  simp only [firmwareCommit, if_neg (show ¬(cdwF cmd.sqe 10 2 0 = 0) by omega), if_neg (show ¬(cdwF cmd.sqe 10 2 0 > 4) by omega), if_neg (show ¬(cdwF cmd.sqe 10 5 3 > 3) by omega),
    if_neg (show ¬(cdwF cmd.sqe 10 5 3 ≤ 1) by omega), hset, hany, hring, Option.isNone_some, Bool.false_eq_true, if_false]

theorem ends_firmwareCommit_select (hf : Fetched s id true 0x10 cmd) (hact : cdwF cmd.sqe 10 5 3 = 2) :
    Ends (.firmwareCommit id unreadable) s id .success 0 [] fun t => t.bot.nextSlot = some (cdwF cmd.sqe 10 2 0) := by
  have hwork : firmwareCommit unreadable s cmd = (putBot s { s.bot with nextSlot := some (cdwF cmd.sqe 10 2 0) }, .ok) := by
    rw [firmwareCommit_slot hlow hhigh hset hspan hring hact.ge (by omega), if_pos hact]
  exact ends_of_reply rfl (by decide) hf hwork rfl fun t ht => by rw [ht.bot]; rfl

/-- Action 3 begins the activation: its record is queued and ACT_STATUS shows the check passed. -/
theorem waits_firmwareCommit_activate (hf : Fetched s id true 0x10 cmd) (hact : cdwF cmd.sqe 10 5 3 = 3) (hgood : (checkImage s false 9 (some (b.main (cdwF cmd.sqe 10 2 0)))).2 = none)
    (hplace : overlapsPlace s (b.main (cdwF cmd.sqe 10 2 0)) = false) (hidle : s.flt.activating = none) :
    Waits (.firmwareCommit id unreadable) s id fun t => t.bot.queue.length = s.bot.queue.length + 1 ∧ rdF t pFLT FLT_ACT_STATUS 31 28 = 1 := by
  obtain ⟨u, hcheck, hsnoop⟩ := checkImage_passed hgood
  have hhst : u.hst = s.hst := hsnoop.agree.hst (by decide)
  have hbot : u.bot = s.bot := hsnoop.agree.bot (by decide)
  have hplace' : overlapsPlace u (b.main (cdwF cmd.sqe 10 2 0)) = false := by
    rw [← hplace, overlapsPlace, hsnoop.agree.prg (by decide), overlapsPlace]
  have hring' : noRing u = false := by
    rw [← hring, noRing, (hsnoop.regs pSCP SCP_REC_STATUS (by decide) (by decide) (by decide)).1, noRing]
  have hidle' : u.flt.activating = none := by rw [hsnoop.agree.flt (by decide), hidle]
  obtain ⟨e, hwork⟩ : ∃ e, firmwareCommit unreadable s cmd
      = (putCmd (queueRecord (wrF u pFLT FLT_ACT_STATUS 31 28 1) e) { cmd with units := [0xF1, cdwF cmd.sqe 10 2 0] }, .wait) := by
    rw [firmwareCommit_slot hlow hhigh hset hspan hring (by omega) hact.le, if_neg (by omega)]
    simp only [activateSlot, hset, hcheck, hplace', hidle', hring', Option.isSome_none, Bool.or_false, Bool.false_eq_true, if_false]
    exact ⟨_, rfl⟩
  have hcmd : cmdOf? (queueRecord (wrF u pFLT FLT_ACT_STATUS 31 28 1) e) id = some cmd :=
    (cmdOf?_congr (show u.hst.cmds = s.hst.cmds by rw [hhst]) id).trans hf.1
  refine waits_of_reply rfl (by decide) hf hwork (cmdOf?_putCmd hcmd (show cmd.id = id from id_of_cmdOf? hf.1)) fun t ht _ => ⟨?_, ?_⟩
  · rw [ht.bot, ← hbot]
    exact List.length_append
  · rw [rdF, ht.rd _ _ (by decide) (by decide), rd_putCmd _ _ _ (by decide) (by decide), queueRecord, wrB, wrF, rd_wr _ _ (by decide) (by decide), if_neg (by decide)]
    exact (congrArg (fld · 31 28) (rd_wr_same u pFLT FLT_ACT_STATUS _)).trans (fld_setFld_same _ _ (by decide))

end

end

end Sys2Proof.Machine

/-! Erasure, the locking SSCs and the status of LBA ranges (R120, R183, R186, R475). -/

namespace Sys2Proof.Machine

-- The proofs are elaborated one after another: run side by side, each that waits for another holds a thread, whose stack counts against the check's memory.
set_option Elab.async false

/-! ### What the erasure of keys leaves alone, and the slot that a lock sets -/

theorem clearSlot_hst (s : State) (k : Nat) : (kopEffect s k 4).1.hst = s.hst := rfl

theorem putSlot_hst (s : State) (k : Nat) (x : KeySlot) : (putSlot s k x).hst = s.hst := rfl

theorem takeBytes_hst (s : State) (n : Nat) : (takeBytes s n).1.hst = s.hst := rfl

theorem cryptoErase_hst (s : State) (h : Nat) : (cryptoErase s h).hst = s.hst := by
  unfold cryptoErase
  dsimp only
  rw [putSlot_hst, takeBytes_hst, takeBytes_hst, clearSlot_hst, foldl_hst (f := fun s k => (kopEffect s k 4).1) clearSlot_hst]

/-- A lock or an unlock of a slot that holds a key sets its flag. -/
theorem slotOf_kopEffect_lock {s : State} {k : Nat} (hlive : (slotOf s k).state ≠ .empty) : (slotOf (kopEffect s k 7).1 k).locked = true := by
  rw [kopEffect, if_neg (by simpa using hlive)]
  exact congrArg KeySlot.locked (Tab.getD_putD_same _ _ _ _)

theorem slotOf_kopEffect_unlock {s : State} {k : Nat} (hlive : (slotOf s k).state ≠ .empty) : (slotOf (kopEffect s k 8).1 k).locked = false := by
  rw [kopEffect, if_neg (by simpa using hlive)]
  exact congrArg KeySlot.locked (Tab.getD_putD_same _ _ _ _)

theorem kopEffect_lock_hst (s : State) (k : Nat) : (kopEffect s k 7).1.hst = s.hst := by
  rw [kopEffect]
  split <;> rfl

theorem kopEffect_unlock_hst (s : State) (k : Nat) : (kopEffect s k 8).1.hst = s.hst := by
  rw [kopEffect]
  split <;> rfl

/-- A namespace emptied, and its key erased when asked. -/
def eraseNs (crypto : Bool) (s : State) (h : Nat) : State := if crypto = true then cryptoErase (trimAll s h) h else trimAll s h

theorem eraseNs_hst (crypto : Bool) (s : State) (h : Nat) : (eraseNs crypto s h).hst = s.hst := by
  unfold eraseNs
  split
  · rw [cryptoErase_hst, trimAll_hst]
  · exact trimAll_hst s h

section
variable {s : State} {id : Nat} {cmd : HostCmd} {x : Namespace}

/-! ### Format NVM and Sanitize (R120, R186) -/

theorem ends_formatNvm (hf : Fetched s id true 0x80 cmd) (hns : nsAt? s (sqeNsid cmd.sqe) = some x) (hone : sqeNsid cmd.sqe ≠ 0xFFFFFFFF) (hformat : cdwF cmd.sqe 10 3 0 < 4)
    (hses : cdwF cmd.sqe 10 11 9 ≤ 2) (hpi : cdwF cmd.sqe 10 7 5 ≤ 3) (hmeta : cdwF cmd.sqe 10 7 5 = 0 ∨ ((lbaFormat (cdwF cmd.sqe 10 3 0)).getD (1, 0)).2 ≠ 0)
    (hranges : rangesOf s (sqeNsid cmd.sqe) = []) (hmap : mapStopped s = false) (hdrained : draining s cmd [sqeNsid cmd.sqe - 1] = false) :
    Ends (.formatNvm id) s id .success 0 [] fun t => nsAt? t (sqeNsid cmd.sqe) = some { x with
      size := x.size * x.lba / ((lbaFormat (cdwF cmd.sqe 10 3 0)).getD (1, 0)).1, lba := ((lbaFormat (cdwF cmd.sqe 10 3 0)).getD (1, 0)).1
      meta_ := ((lbaFormat (cdwF cmd.sqe 10 3 0)).getD (1, 0)).2, pi := cdwF cmd.sqe 10 7 5 } := by
  have h0 : sqeNsid cmd.sqe ≠ 0 := fun h0 => by simp [nsAt?, h0] at hns
  have hsucc : sqeNsid cmd.sqe - 1 + 1 = sqeNsid cmd.sqe := by omega
  have hentry : s.hst.ns.get? (sqeNsid cmd.sqe - 1) = some x := by rwa [nsAt?, if_neg h0] at hns
  have hfmt := lbaFormat_lt hformat
  generalize (lbaFormat (cdwF cmd.sqe 10 3 0)).getD (1, 0) = fmt at hfmt hmeta ⊢
  obtain ⟨lba, m⟩ := fmt
  have hfields : ¬(cdwF cmd.sqe 10 11 9 > 2 ∨ cdwF cmd.sqe 10 7 5 > 3 ∨ (cdwF cmd.sqe 10 7 5 ≠ 0 ∧ m = 0)) := by
    dsimp only at hmeta
    omega
  have hfree : anyRetained s [sqeNsid cmd.sqe - 1] = false := by simp [anyRetained, hsucc, hranges]
  have herased := eraseNs_hst (decide (cdwF cmd.sqe 10 11 9 = 2)) s (sqeNsid cmd.sqe - 1)
  have hgone : (eraseNs (decide (cdwF cmd.sqe 10 11 9 = 2)) s (sqeNsid cmd.sqe - 1)).hst.ns.get? (sqeNsid cmd.sqe - 1) = some x := by rw [herased, hentry]
  simp only [eraseNs, decide_eq_true_eq] at hgone
  have hwork : formatNvm s cmd = (setSpares (putNs (eraseNs (decide (cdwF cmd.sqe 10 11 9 = 2)) s (sqeNsid cmd.sqe - 1)) (sqeNsid cmd.sqe - 1)
      { x with size := x.size * x.lba / lba, lba := lba, meta_ := m, pi := cdwF cmd.sqe 10 7 5 }), .ok) := by
    simp only [formatNvm, hfmt, affected_one hone hns, List.isEmpty_cons, Bool.false_eq_true, if_false, if_neg hfields, hfree, hmap, hdrained, List.foldl_cons, List.foldl_nil, hgone,
      eraseNs, decide_eq_true_eq]
  refine ends_of_reply rfl (by decide) hf hwork (by rw [setSpares_hst, putNs, herased]) fun t ht => ?_
  rw [ht.nsAt?, nsAt?, if_neg h0, setSpares_hst]
  exact Tab.get?_put_same _ _ _

theorem ends_sanitize (hf : Fetched s id true 0x84 cmd) (hact : cdwF cmd.sqe 10 2 0 = 2 ∨ cdwF cmd.sqe 10 2 0 = 4) (hfree : anyRetained s (s.hst.ns.map (·.1)) = false)
    (hmap : mapStopped s = false) (hdrained : draining s cmd (s.hst.ns.map (·.1)) = false) :
    Ends (.sanitize id) s id .success 0 [] fun t => t.hst.sanitized = (s.hst.sanitized.1 + 1, cdwF cmd.sqe 10 2 0) := by
  have hfields : ¬(cdwF cmd.sqe 10 2 0 ≠ 2 ∧ cdwF cmd.sqe 10 2 0 ≠ 4 ∧ cdwF cmd.sqe 10 2 0 ≠ 1) := by omega
  have herased : ((s.hst.ns.map (·.1)).foldl (eraseNs (decide (cdwF cmd.sqe 10 2 0 = 4))) s).hst = s.hst := foldl_hst (eraseNs_hst _) _ s
  have hstep : (fun s h => let s := trimAll s h; if cdwF cmd.sqe 10 2 0 = 4 then cryptoErase s h else s) = eraseNs (decide (cdwF cmd.sqe 10 2 0 = 4)) := by
    funext u h
    simp only [eraseNs, decide_eq_true_eq]
  generalize hu : (s.hst.ns.map (·.1)).foldl (eraseNs (decide (cdwF cmd.sqe 10 2 0 = 4))) s = u at herased
  have hwork : sanitize s cmd = ({ u with hst := { u.hst with sanitized := (u.hst.sanitized.1 + 1, cdwF cmd.sqe 10 2 0) } }, .ok) := by
    rw [sanitize, if_neg hfields, if_neg (show ¬(cdwF cmd.sqe 10 2 0 = 1) by omega), if_neg (ne_true_of_eq_false hfree), if_neg (ne_true_of_eq_false hmap),
      if_neg (ne_true_of_eq_false hdrained), hstep, hu]
  exact ends_of_reply rfl (by decide) hf hwork (by rw [herased]) fun t ht => by rw [ht.hst, herased]

/-! ### Security Send and Receive (R475) -/

theorem securitySend_opal (hprotocol : secProtocol cmd.sqe ≠ 0xF0) (a : OpalAct) : securitySend a s cmd = opal a s cmd := if_neg hprotocol

theorem ends_securitySend_none (hd : List Byte) (hf : Fetched s id true 0x81 cmd) (hprotocol : secProtocol cmd.sqe ≠ 0xF0) :
    Ends (.securitySend id hd .none) s id .success 0 [] fun t => t.key = s.key :=
  ends_of_reply rfl (by decide) hf (securitySend_opal hprotocol _) rfl fun _ ht => by rw [ht.key]; rfl

section
variable (hd : List Byte) {h : Fin 1024} (hf : Fetched s id true 0x81 cmd) (hprotocol : secProtocol cmd.sqe ≠ 0xF0) (hlive : (slotOf s h.val).state ≠ .empty)
include hf hprotocol hlive

theorem ends_securitySend_lock (hdrained : draining s cmd [h.val] = false) :
    Ends (.securitySend id hd (.lock h)) s id .success 0 [] fun t => (slotOf t h.val).locked = true := by
  have hwork : securitySend (.lock h) s cmd = ((kopEffect s h.val 7).1, .ok) := by rw [securitySend_opal hprotocol, opal, if_neg (ne_true_of_eq_false hdrained)]
  refine ends_of_reply rfl (by decide) hf hwork (by rw [kopEffect_lock_hst]) fun t ht => ?_
  rw [slotOf, ht.key]
  exact slotOf_kopEffect_lock hlive

theorem ends_securitySend_unlock : Ends (.securitySend id hd (.unlock h)) s id .success 0 [] fun t => (slotOf t h.val).locked = false := by
  refine ends_of_reply rfl (by decide) hf (securitySend_opal hprotocol _) (by rw [kopEffect_unlock_hst]) fun t ht => ?_
  rw [slotOf, ht.key]
  exact slotOf_kopEffect_unlock hlive

end

theorem ends_securityReceive (hf : Fetched s id true 0x82 cmd) (hprotocol : secProtocol cmd.sqe ≠ 0xF0) :
    ∃ r, r.length = cdw cmd.sqe 11 ∧ Ends (.securityReceive id) s id .success 0 r fun t => t.bot = s.bot :=
  ⟨(List.range (cdw cmd.sqe 11)).map (Config.freeByte s.com.free), by rw [List.length_map, List.length_range],
    ends_of_reply (u := takeFree s) rfl (by decide) hf (if_neg hprotocol) rfl fun _ ht => by rw [ht.bot]; rfl⟩

/-! ### Get LBA Status (R183) -/

/-- A unit that holds data: one with an entry, or with a write in the buffer. -/
def heldUnit (s : State) (h u : Nat) : Bool := entryAt s h u != trimmed || (wbNewest? s h u).isSome

/-- The LBAs that Get LBA Status looks at. -/
def lbaSpan (d : List Byte) (x : Namespace) : Nat := min (cdwF d 13 15 0) (x.size - sqeF d 40 8)

section
variable (hf : Fetched s id true 0x86 cmd) (hns : nsAt? s (sqeNsid cmd.sqe) = some x) (hstart : sqeF cmd.sqe 40 8 < x.size) (hlen : 5 ≤ cdw cmd.sqe 12)
include hf hns hstart hlen

theorem ends_getLbaStatus_unmapped (hfree : ∀ u ∈ x.units (sqeF cmd.sqe 40 8) (lbaSpan cmd.sqe x), heldUnit s (sqeNsid cmd.sqe - 1) u = false) :
    Ends (.getLbaStatus id) s id .success 0 [0, 0, 0, 0, 1, 0, 0, 0] fun t => t.map.reserved = s.map.reserved - cmd.room := by
  have hnone : (x.units (sqeF cmd.sqe 40 8) (lbaSpan cmd.sqe x)).filter (heldUnit s (sqeNsid cmd.sqe - 1)) = [] := List.filter_eq_nil_iff.mpr fun u hu => ne_true_of_eq_false (hfree u hu)
  have hwork : getLbaStatus s cmd = (s, .done .success 0 [0, 0, 0, 0, 1, 0, 0, 0]) := by
    unfold heldUnit lbaSpan at hnone
    simp only [getLbaStatus, hns, if_neg (Nat.not_le.mpr hstart), hnone, List.foldl_nil, List.length_nil, List.map_nil, List.flatten_nil, List.append_nil]
    rw [List.take_of_length_le (by simp [bytesLE]; omega)]
    rfl
  exact ends_of_reply rfl (by decide) hf hwork rfl fun t ht => by rw [ht.map]; rfl

theorem ends_getLbaStatus_mapped {u : Nat} (hunit : x.units (sqeF cmd.sqe 40 8) (lbaSpan cmd.sqe x) = [u]) (hheld : heldUnit s (sqeNsid cmd.sqe - 1) u = true) :
    Ends (.getLbaStatus id) s id .success 0 ([1, 0, 0, 0, 1, 0, 0, 0] ++ bytesLE 8 (max (sqeF cmd.sqe 40 8) (u * x.unit / x.lba))
        ++ bytesLE 4 (min (sqeF cmd.sqe 40 8 + lbaSpan cmd.sqe x) ((u + 1) * x.unit / x.lba) - max (sqeF cmd.sqe 40 8) (u * x.unit / x.lba)) ++ [0, 0, 0, 0])
      fun t => t.map.reserved = s.map.reserved - cmd.room := by
  have hone : (x.units (sqeF cmd.sqe 40 8) (lbaSpan cmd.sqe x)).filter (heldUnit s (sqeNsid cmd.sqe - 1)) = [u] := by rw [hunit, List.filter_singleton, hheld]; rfl
  have hwork : getLbaStatus s cmd = (s, .done .success 0 ([1, 0, 0, 0, 1, 0, 0, 0] ++ bytesLE 8 (max (sqeF cmd.sqe 40 8) (u * x.unit / x.lba))
        ++ bytesLE 4 (min (sqeF cmd.sqe 40 8 + lbaSpan cmd.sqe x) ((u + 1) * x.unit / x.lba) - max (sqeF cmd.sqe 40 8) (u * x.unit / x.lba)) ++ [0, 0, 0, 0])) := by
    unfold heldUnit lbaSpan at hone
    simp only [getLbaStatus, hns, if_neg (Nat.not_le.mpr hstart), hone, List.foldl_cons, List.foldl_nil, List.getLast?_nil]
    rw [List.take_of_length_le (by simp [bytesLE]; omega)]
    simp [bytesLE, lbaSpan]
  exact ends_of_reply rfl (by decide) hf hwork rfl fun t ht => by rw [ht.map]; rfl

end

end

end Sys2Proof.Machine

/-! Identify and Get Log Page (R120, R128, R130, R223). -/

namespace Sys2Proof.Machine

-- The proofs are elaborated one after another: run side by side, each that waits for another holds a thread, whose stack counts against the check's memory.
set_option Elab.async false

/-! ### Lists cut or filled to a length -/

theorem length_bytesLE (n v : Nat) : (bytesLE n v).length = n := by
  induction n generalizing v with
  | zero => rfl
  | succ n ih => rw [bytesLE, List.length_cons, ih]

theorem take_fit {m n : Nat} {l : List Byte} (hn : m ≤ n) (hl : m ≤ l.length) : (fit n l).take m = l.take m := by
  rw [fit, List.take_take, Nat.min_eq_left hn, List.take_append_of_le_length hl]

theorem fit_append_of_length {n : Nat} {a : List Byte} (h : a.length = n) (b : List Byte) : fit n (a ++ b) = a := by
  rw [fit, List.append_assoc, List.take_append_of_le_length h.ge, List.take_of_length_le h.le]

/-- The field at a place reads back when no later one touches it. -/
theorem layFields_field_at (l : List Byte) {fs : List (Nat × List Byte)} {i : Nat} {f : Nat × List Byte} (hi : fs[i]? = some f) (h : ∀ g ∈ fs, FieldFits l.length g)
    (hc : ∀ g ∈ fs.drop (i + 1), FieldClear f.1 f.2.length g) : ((layFields l fs).drop f.1).take f.2.length = f.2 := by
  obtain ⟨hlt, rfl⟩ := List.getElem?_eq_some_iff.mp hi
  have hsplit : fs.take i ++ fs[i] :: fs.drop (i + 1) = fs := by rw [← List.drop_eq_getElem_cons hlt, List.take_append_drop]
  have hread := layFields_field l (fs.take i) fs[i] (fs.drop (i + 1)) (by rwa [hsplit]) hc
  rwa [hsplit] at hread

section
variable {s : State} {id : Nat} {cmd : HostCmd}

/-! ### Identify (R120, R128) -/

theorem length_identifyVendor (s : State) (ctl : Nat) : (identifyVendor s ctl).length = 1024 := by
  simp only [identifyVendor, List.length_append, length_bytesLE, length_fit, List.length_replicate]

/-- The fields of Identify Controller. -/
def identifyFields (s : State) (ctl : Nat) : List (Nat × List Byte) :=
  [(77, bytesLE 1 9), (78, bytesLE 2 ctl), (258, bytesLE 1 7), (259, bytesLE 1 15), (266, bytesLE 2 368), (268, bytesLE 2 378), (280, bytesLE 16 (tnvmcap s)),
    (296, bytesLE 16 (tnvmcap s - nsAllocated s)), (512, [0x66, 0x44]), (516, bytesLE 4 1024), (525, [0]), (3072, identifyVendor s ctl)]

theorem openStruct_eq (s : State) (n : Nat) (fs : List (Nat × List Byte)) : openStruct s n fs = (takeFree s, layFields (takeBytes s n).2 fs) := rfl

theorem identifyCtl_eq (s : State) (ctl : Nat) : identifyCtl s ctl = (takeFree s, layFields (takeBytes s 4096).2 (identifyFields s ctl)) := by
  rw [← openStruct_eq]
  rfl

theorem identifyFields_fit (s : State) (ctl : Nat) : ∀ g ∈ identifyFields s ctl, FieldFits (takeBytes s 4096).2.length g := by
  simp [identifyFields, FieldFits, length_takeBytes, length_bytesLE, length_identifyVendor]

theorem length_identifyCtl (s : State) (ctl : Nat) : (identifyCtl s ctl).2.length = 4096 := by
  rw [identifyCtl_eq]
  exact (length_layFields _ _ (identifyFields_fit s ctl)).trans (length_takeBytes s 4096)

theorem identifyCtl_id (s : State) (ctl : Nat) : ((identifyCtl s ctl).2.drop 78).take 2 = bytesLE 2 ctl := by
  rw [identifyCtl_eq]
  exact layFields_field_at (i := 1) (f := (78, bytesLE 2 ctl)) _ rfl (identifyFields_fit s ctl) (by simp [identifyFields, FieldClear, length_bytesLE])

theorem identifyCtl_capacity (s : State) (ctl : Nat) : ((identifyCtl s ctl).2.drop 280).take 16 = bytesLE 16 (tnvmcap s) := by
  rw [identifyCtl_eq]
  exact layFields_field_at (i := 6) (f := (280, bytesLE 16 (tnvmcap s))) _ rfl (identifyFields_fit s ctl) (by simp [identifyFields, FieldClear, length_bytesLE])

theorem identifyCtl_entrySizes (s : State) (ctl : Nat) : ((identifyCtl s ctl).2.drop 512).take 2 = [0x66, 0x44] := by
  rw [identifyCtl_eq]
  exact layFields_field_at (i := 8) (f := (512, [0x66, 0x44])) _ rfl (identifyFields_fit s ctl) (by simp [identifyFields, FieldClear, length_bytesLE])

theorem identifyCtl_vendor (s : State) (ctl : Nat) : ((identifyCtl s ctl).2.drop 3072).take 2 = bytesLE 2 1 := by
  have hfield : ((identifyCtl s ctl).2.drop 3072).take 1024 = identifyVendor s ctl := by
    rw [identifyCtl_eq]
    have hread := layFields_field_at (i := 11) (f := (3072, identifyVendor s ctl)) _ rfl (identifyFields_fit s ctl) (by simp [identifyFields])
    rwa [length_identifyVendor] at hread
  calc ((identifyCtl s ctl).2.drop 3072).take 2 = (((identifyCtl s ctl).2.drop 3072).take 1024).take 2 := by rw [List.take_take]; rfl
    _ = (identifyVendor s ctl).take 2 := by rw [hfield]
    _ = bytesLE 2 1 := rfl

theorem ends_identify_namespaces (hf : Fetched s id true 0x06 cmd) (hcns : cdwF cmd.sqe 10 7 0 = 0x10) :
    Ends (.identify id) s id .success 0 (nsidList s (sqeNsid cmd.sqe) fun _ => true) fun t => t.hst.ns = s.hst.ns := by
  have hwork : identify s cmd = (s, .done .success 0 (nsidList s (sqeNsid cmd.sqe) fun _ => true)) := by simp only [identify, hcns]
  exact ends_of_reply rfl (by decide) hf hwork rfl fun t ht => by rw [ht.hst]

theorem ends_identify_controller (hf : Fetched s id true 0x06 cmd) (hcns : cdwF cmd.sqe 10 7 0 = 0x01) :
    Ends (.identify id) s id .success 0 (identifyCtl s cmd.ctl).2 fun t => t.hst.ns = s.hst.ns := by
  have hwork : identify s cmd = (takeFree s, .done .success 0 (identifyCtl s cmd.ctl).2) := by
    simp only [identify, hcns]
    rfl
  exact ends_of_reply rfl (by decide) hf hwork rfl fun t ht => by rw [ht.hst]; rfl

/-! ### Get Log Page (R130) -/

/-- The pages that Get Log Page reads: the standard ones, then the vendor's. -/
def logPage (s : State) (cmd : HostCmd) : Option (State × List Byte) :=
  (standardPage s (cdwF cmd.sqe 10 7 0) (cdwF cmd.sqe 14 31 24)).orElse fun _ => vendorPage s cmd.ctl (cdwF cmd.sqe 10 7 0)

theorem smartPage_fields (s : State) : ∃ temp spare, smartPage s
    = (takeFree s, layFields (takeBytes s 512).2 [(0, bytesLE 1 s.com.smart), (1, bytesLE 2 temp), (3, bytesLE 1 spare), (4, [10])]) := by
  unfold smartPage
  dsimp only
  exact ⟨_, _, openStruct_eq s 512 _⟩

/-- SMART / Health Information begins with the critical warnings (R223). -/
theorem smartPage_warnings (s : State) : ∃ b, smartPage s = (takeFree s, b) ∧ b.length = 512 ∧ b.take 1 = bytesLE 1 s.com.smart := by
  obtain ⟨temp, spare, hpage⟩ := smartPage_fields s
  have hfit : ∀ g ∈ [(0, bytesLE 1 s.com.smart), (1, bytesLE 2 temp), (3, bytesLE 1 spare), (4, [10])], FieldFits (takeBytes s 512).2.length g := by
    simp [FieldFits, length_takeBytes, length_bytesLE]
  refine ⟨_, hpage, (length_layFields _ _ hfit).trans (length_takeBytes s 512), ?_⟩
  exact layFields_field_at (i := 0) (f := (0, bytesLE 1 s.com.smart)) _ rfl hfit (by simp [FieldClear, length_bytesLE])

theorem logGen_cmds (s : State) (key : Nat) (body : List Byte) : (logGen s key body).1.hst.cmds = s.hst.cmds := by
  unfold logGen
  dsimp only
  split <;> rfl

theorem logGen_com (s : State) (key : Nat) (body : List Byte) : (logGen s key body).1.com = s.com := by
  unfold logGen
  dsimp only
  split <;> rfl

/-- The header of a vendor log page without flags, whose entries count from 0. -/
def vendorHeader (lid size gen : Nat) (es : List (List Byte)) : List Byte :=
  bytesLE 4 0x4C575151 ++ bytesLE 2 lid ++ bytesLE 2 1 ++ bytesLE 8 (64 + es.flatten.length) ++ bytesLE 8 gen ++ bytesLE 4 es.length ++ bytesLE 4 size ++ List.replicate 32 0

theorem length_vendorHeader (lid size gen : Nat) (es : List (List Byte)) : (vendorHeader lid size gen es).length = 64 := by
  simp only [vendorHeader, List.length_append, length_bytesLE, List.length_replicate]

theorem vendorLog_eq (s : State) (lid key size : Nat) (es : List (List Byte)) :
    vendorLog s lid key size 0 0 es = ((logGen s key es.flatten).1, vendorHeader lid size (logGen s key es.flatten).2 es ++ es.flatten) := by
  have hzeros : bytesLE 4 0 ++ bytesLE 4 0 ++ List.replicate 24 0 = List.replicate 32 0 := by decide
  simp only [vendorLog, vendorHeader, ← hzeros, List.append_assoc]

section
variable (hlow : cdw cmd.sqe 12 = 0) (hhigh : cdw cmd.sqe 13 = 0) (hlen : cdwF cmd.sqe 11 15 0 = 0)
include hlow hhigh hlen

/-- From offset 0 a page is returned from its first byte on. -/
theorem getLogPage_first {u : State} {b : List Byte} (hpage : logPage s cmd = some (u, b)) :
    getLogPage s cmd = (u, .done .success 0 (fit (4 * (cdwF cmd.sqe 10 31 16 + 1)) b)) := by
  unfold logPage at hpage
  simp only [getLogPage, hpage, hlow, hhigh, hlen]
  simp

theorem ends_getLogPage_smart (hf : Fetched s id true 0x02 cmd) (hlid : cdwF cmd.sqe 10 7 0 = 0x02) :
    ∃ r, r.take 1 = bytesLE 1 s.com.smart ∧ Ends (.getLogPage id) s id .success 0 r fun t => t.hst.ns = s.hst.ns := by
  obtain ⟨b, hsmart, hlength, hfirst⟩ := smartPage_warnings s
  have hpage : logPage s cmd = some (takeFree s, b) := by
    rw [logPage, hlid, ← hsmart]
    rfl
  refine ⟨fit (4 * (cdwF cmd.sqe 10 31 16 + 1)) b, by rw [take_fit (by omega) (by omega), hfirst], ?_⟩
  exact ends_of_reply rfl (by decide) hf (getLogPage_first hlow hhigh hlen hpage) rfl fun t ht => by rw [ht.hst]; rfl

/-- Reading the Changed Namespace List clears it (R120). -/
theorem ends_getLogPage_changed (hf : Fetched s id true 0x02 cmd) (hlid : cdwF cmd.sqe 10 7 0 = 0x04) :
    ∃ r, Ends (.getLogPage id) s id .success 0 r fun t => t.hst.changedNs = [] := by
  have hpage : logPage s cmd = some ({ s with hst := { s.hst with changedNs := [] } }, listStruct 4096 (((List.range 1025).filter fun n => s.hst.changedNs.contains n).map (bytesLE 4))) := by
    rw [logPage, hlid]
    rfl
  exact ⟨_, ends_of_reply rfl (by decide) hf (getLogPage_first hlow hhigh hlen hpage) rfl fun t ht => by rw [ht.hst]⟩

/-- Of the fault log's page 64 bytes are the header (R130). -/
theorem ends_getLogPage_faultLog (hf : Fetched s id true 0x02 cmd) (hlid : cdwF cmd.sqe 10 7 0 = 0xC3) (hpf : isPf cmd.ctl = true) (hheader : cdwF cmd.sqe 10 31 16 = 15) :
    ∃ gen, Ends (.getLogPage id) s id .success 0 (bytesLE 4 0x4C575151 ++ bytesLE 2 0xC3 ++ bytesLE 2 1 ++ bytesLE 8 (64 + (s.com.log.ring.map LogEntry.shown).flatten.length)
      ++ bytesLE 8 gen ++ bytesLE 4 s.com.log.ring.length ++ bytesLE 4 64 ++ List.replicate 32 0) fun t => t.com.log = s.com.log := by
  have hpage : logPage s cmd = some (vendorLog s 0xC3 0xC3 64 0 0 (s.com.log.ring.map LogEntry.shown)) := by
    rw [logPage, hlid, vendorPage, hpf]
    rfl
  rw [vendorLog_eq] at hpage
  have hcut := getLogPage_first hlow hhigh hlen hpage
  rw [hheader, fit_append_of_length (length_vendorHeader ..), vendorHeader, List.length_map] at hcut
  exact ⟨_, ends_of_reply rfl (by decide) hf hcut (logGen_cmds ..) fun t ht => by rw [ht.com, logGen_com]⟩

end

end

end Sys2Proof.Machine

/-! The admin commands of a host (R120). -/

namespace Sys2Proof.Machine

-- The proofs are elaborated one after another: run side by side, each that waits for another holds a thread, whose stack counts against the check's memory.
set_option Elab.async false

/-- Settles O51: each command's work is computed from its conditions alone, and a row whose work replies (or waits) ends (or lists) the command and leaves the rest as the work left it. -/
theorem adminCommands : Obligations.AdminCommands := by
  unfold Obligations.AdminCommands
  intro s id cmd y hd unreadable x h b d k z nsid fid v act l victim img vf w lba fmt n held
  refine ⟨fun hf hlimit hruns => ⟨ends_abort_victim hf hlimit hruns, ends_abort_none hf hlimit hruns⟩, fun hf => ⟨ends_setFeatures_value hd hf, ends_setFeatures_power hd hf,
    ends_setFeatures_entry hd hf, ends_setFeatures_queues hd hf, ends_setFeatures_hostMemory hd hf, ends_setFeatures_timestamp hd hf⟩,
    fun hf => ⟨ends_getFeatures_value hf, ends_getFeatures_power hf, ends_getFeatures_timestamp hf⟩, waits_asyncEventRequest,
    fun hf hmap => ⟨ends_nsCreate hf hmap, ends_nsDelete hd hf hmap⟩, fun hf hns hexist => ⟨ends_attach hf hns hexist, ends_detach hf hns hexist⟩, ends_firmwareImageDownload hd,
    fun hf hlow hhigh => ⟨ends_firmwareCommit_store unreadable hf hlow hhigh, fun hset hspan hring =>
      ⟨ends_firmwareCommit_select hlow hhigh hset hspan hring hf, waits_firmwareCommit_activate hlow hhigh hset hspan hring hf⟩⟩,
    fun hf => ⟨ends_deviceSelfTest_start hf, ends_deviceSelfTest_stop hf⟩, fun hns htype => ⟨ends_directiveSend_release hns htype, ends_directiveReceive_allocate hns htype⟩,
    fun hf hexists hvf hport => ⟨ends_virtualization_offline hf hexists hvf hport, fun hact hoffline hmode => ⟨ends_virtualization_queues hf hexists hvf hport hact hoffline hmode,
      ends_virtualization_vectors hf hexists hvf hport hact hoffline hmode⟩, ends_virtualization_online hf hexists hvf hport⟩,
    ends_formatNvm, ends_sanitize, fun hf hprotocol => ⟨ends_securitySend_none hd hf hprotocol, fun hlive =>
      ⟨ends_securitySend_lock hd hf hprotocol hlive, ends_securitySend_unlock hd hf hprotocol hlive⟩⟩, ends_securityReceive,
    fun hf hns hstart hlen => ⟨ends_getLbaStatus_unmapped hf hns hstart hlen, fun _ => ends_getLbaStatus_mapped hf hns hstart hlen⟩,
    fun hf => ⟨ends_identify_namespaces hf, fun hcns => ⟨(identifyCtl s cmd.ctl).2, length_identifyCtl s cmd.ctl, identifyCtl_id s cmd.ctl, identifyCtl_capacity s cmd.ctl,
      identifyCtl_entrySizes s cmd.ctl, identifyCtl_vendor s cmd.ctl, ends_identify_controller hf hcns⟩⟩,
    fun hf hlow hhigh hlen => ⟨ends_getLogPage_smart hlow hhigh hlen hf, ends_getLogPage_changed hlow hhigh hlen hf, ends_getLogPage_faultLog hlow hhigh hlen hf⟩⟩

end Sys2Proof.Machine

/-! What the work behind a flash channel leaves alone on the pages of the channels: which registers it moves, and that it moves no bit of STATUS but DRAINING (R46, R70, R178, R179). -/

namespace Sys2Proof.Machine

-- The proofs are elaborated one after another: run side by side, each that waits for another holds a thread, whose stack counts against the check's memory.
set_option Elab.async false

/-! ### The updates that upkeep makes -/

/-- The registers of a channel's page that upkeep moves, beside DRAINING of STATUS: faults and interrupts, the bucket, epochs, queues, the count of rung 4, and DIE_RETIRED. -/
def channelMoving : List Nat :=
  [rIRQ_STATUS, rFAULT, rLB_COUNT, rSTAGE_STATUS, FCH_QUEUE_STATUS, FCH_BUSY_MASK, FCH_LADDER_RECON, FCH_DIE_RETIRED]

/-- `t` comes from `s` by the updates that upkeep makes: registers of other pages than a channel's, the moving registers of a page, DRAINING, and the parts beside the registers. -/
inductive Upkeep (s : State) : State → Prop where
  | refl : Upkeep s s
  | parts {t : State} (h : Upkeep s t) (c : Common) (m : Memory) (f : Flash) (mp : MapState) (st : Stripe) (hr : c.regs = t.com.regs := by rfl) (hc : c.chip = t.com.chip := by rfl) :
      Upkeep s { t with com := c, mem := m, fch := f, map := mp, str := st }
  | write {t : State} (h : Upkeep s t) (p o : Nat) (v : Word) (ho : o < 4096) (hpage : p < 0x100 ∨ o ∈ channelMoving) : Upkeep s (wr t p o v)
  | draining {t : State} (h : Upkeep s t) (p : Nat) (b : Bool) : Upkeep s (wrB t p rSTATUS 2 b)

namespace Upkeep

variable {s t u : State}

theorem trans (h : Upkeep s t) (h' : Upkeep t u) : Upkeep s u := by
  induction h' with
  | refl => exact h
  | parts _ c m f mp st hr hc ih => exact ih.parts c m f mp st hr hc
  | write _ p o v ho hpage ih => exact ih.write p o v ho hpage
  | draining _ p b ih => exact ih.draining p b

theorem ite {c : Prop} [Decidable c] (ht : Upkeep s t) (hu : Upkeep s u) : Upkeep s (if c then t else u) := by
  split
  · exact ht
  · exact hu

theorem foldl {α : Type} {f : State → α → State} (hf : ∀ s a, Upkeep s (f s a)) (l : List α) (s : State) : Upkeep s (l.foldl f s) := by
  induction l generalizing s with
  | nil => exact refl
  | cons a l ih => exact (hf s a).trans (ih (f s a))

/-- The same for a fold that carries a value beside the state. -/
theorem foldlPair {α β : Type} {f : State × β → α → State × β} (hf : ∀ r a, Upkeep r.1 (f r a).1) (l : List α) (r : State × β) : Upkeep r.1 (l.foldl f r).1 := by
  induction l generalizing r with
  | nil => exact refl
  | cons a l ih => exact (hf r a).trans (ih (f r a))

/-- A moving register, of whatever page. -/
theorem moving (h : Upkeep s t) (p o : Nat) (v : Word) (ho : o < 4096 ∧ o ∈ channelMoving := by decide) : Upkeep s (wr t p o v) := h.write p o v ho.1 (.inr ho.2)

/-- A register of a page that is not a channel's. -/
theorem unit (h : Upkeep s t) (p o : Nat) (v : Word) (hp : p < 0x100 ∧ o < 4096 := by decide) : Upkeep s (wr t p o v) := h.write p o v hp.2 (.inl hp.1)

/-- An update of the shared part beside the registers. -/
theorem shared (h : Upkeep s t) (c : Common) (hr : c.regs = t.com.regs := by rfl) (hc : c.chip = t.com.chip := by rfl) : Upkeep s { t with com := c } :=
  h.parts c t.mem t.fch t.map t.str hr hc

theorem irq (h : Upkeep s t) (p i : Nat) : Upkeep s (irq t p i) := h.moving p rIRQ_STATUS _

/-- Upkeep moves no other register of a channel's page. -/
theorem kept (h : Upkeep s t) (c : Nat) {o : Nat} (ho : o < 4096) (hst : o ≠ rSTATUS) (hmov : o ∉ channelMoving) : rd t (pFCH c) o = rd s (pFCH c) o := by
  induction h with
  | refl => rfl
  | parts _ _ _ _ _ _ hr hc ih => exact (rd_congr hr hc _ _).trans ih
  | write _ p o' v ho' hpage ih =>
    rw [rd_wr _ v ho' ho, if_neg, ih]
    rintro ⟨rfl, rfl⟩
    rcases hpage with hp | hm
    · exact absurd hp (by unfold pFCH; omega)
    · exact hmov hm
  | draining _ p b ih => rw [rd_wrB_ne _ _ _ (by decide) ho fun hn => hst hn.2, ih]

/-- Upkeep moves no other bit of STATUS than DRAINING. -/
theorem status (h : Upkeep s t) (c : Nat) {i : Nat} (hi : i ≠ 2) : bit (rd t (pFCH c) rSTATUS) i = bit (rd s (pFCH c) rSTATUS) i := by
  induction h with
  | refl => rfl
  | parts _ _ _ _ _ _ hr hc ih => rw [← ih]; exact congrArg (bit · i) (rd_congr hr hc _ _)
  | write _ p o v ho hpage ih =>
    rw [rd_wr _ v ho (by decide), if_neg, ih]
    rintro ⟨rfl, rfl⟩
    rcases hpage with hp | hm
    · exact absurd hp (by unfold pFCH; omega)
    · exact absurd hm (by decide)
  | draining _ p b ih =>
    by_cases hp : pFCH c = p
    · rw [hp, rd_wrB_same, bit_setBit _ _ _ (by decide), if_neg hi, ← hp, ih]
    · rw [rd_wrB_ne _ _ _ (by decide) (by decide) fun hn => hp hn.1, ih]

end Upkeep

/-! ### Logs and counted events -/

theorem logPush_upkeep (s : State) (q : LogItem) : Upkeep s (logPush s q) := .ite (.shared .refl _) (.irq (.unit .refl _ _ _) _ _)

theorem logEvent_upkeep (s : State) (v : LogEvent) : Upkeep s (logEvent s v) := by
  unfold logEvent
  split <;> exact logPush_upkeep s _

theorem setFault_upkeep (s : State) (p : Nat) (c : FClass) (cause unit : Nat) : Upkeep s (setFault s p c cause unit) := by
  refine .trans (t := writeFault s p c cause unit) ?_ (logEvent_upkeep _ _)
  exact .ite (.moving .refl _ _ _) (.irq (.moving .refl _ _ _) _ _)

theorem lbEvent_upkeep (s : State) (p : Nat) : Upkeep s (lbEvent s p).1 := by
  have hcount (n : Nat) : Upkeep s (wrF s p rLB_COUNT 15 0 n) := .moving .refl _ _ _
  unfold lbEvent lbEventAt
  dsimp only
  split
  · exact .trans (.irq (.shared (hcount _) _) _ _) (setFault_upkeep _ _ _ _ _)
  · exact hcount _

theorem logRetire_upkeep (s : State) (page cause unit : Nat) : Upkeep s (logRetire s page cause unit) := .irq (logEvent_upkeep s _) _ _

/-! ### The MRAM -/

theorem dieSet_upkeep (s : State) (d : Nat) (m : WordMem) : Upkeep s (dieSet s d m) := .ite (.parts .refl _ _ _ _ _) (.parts .refl _ _ _ _ _)

theorem dieSetIf_upkeep {s u : State} (hu : Upkeep s u) (d : Nat) (m : WordMem) (c : Prop) [Decidable c] : Upkeep s (if c then dieSet u d m else u) :=
  .ite (hu.trans (dieSet_upkeep u d m)) hu

theorem refreshFrames_upkeep (s : State) : Upkeep s (refreshFrames s) := by
  have hshow (a b c : Word) : Upkeep s (wr (wr (wr s pMRM MRM_FRAMES a) pMRM MRM_PASS_MAX b) pMRM MRM_PASS_MIN c) := .unit (.unit (.unit .refl _ _ _) _ _ _) _ _ _
  exact .ite (.shared (.irq (hshow _ _ _) _ _) _) (hshow _ _ _)

theorem frameRetire_upkeep (s : State) (f : Nat) : Upkeep s (frameRetire s f) := by
  unfold frameRetire
  dsimp only
  refine .ite .refl (.trans (.irq (.parts ?_ _ _ _ _ _) _ _) (refreshFrames_upkeep _))
  split
  · exact .parts ((dieSet_upkeep s _ _).trans (dieSet_upkeep _ _ _)) _ _ _ _ _
  · exact .refl

theorem mrmCorrectedAt_upkeep (s : State) (frame : Option Nat) : Upkeep s (mrmCorrectedAt s frame) := by
  unfold mrmCorrectedAt
  extract_lets kept u m v
  have hv : Upkeep s v := by
    have hu : Upkeep s u := .unit .refl _ _ _
    cases frame <;> exact .parts hu _ _ _ _ _
  clear_value v
  have hevent := hv.trans (lbEvent_upkeep v pMRM)
  split
  rename_i w fired hw
  rw [hw] at hevent
  refine .ite ?_ hevent
  split
  · exact hevent.trans (frameRetire_upkeep _ _)
  · exact hevent

theorem mrmArm_upkeep (s : State) (off : Nat) : Upkeep s (mrmArm s off) := by
  unfold mrmArm
  split
  · exact .refl
  · exact .parts (dieSet_upkeep s _ _) _ _ _ _ _

theorem mrmWordRead_upkeep (s : State) (w : Nat) : Upkeep s (mrmWordRead s w).1 := by
  have hlost {u : State} (hu : Upkeep s u) (off : Nat) : Upkeep s (irq (wr (bumpF u pMRM MRM_ECC_UE 15 0 1) pMRM MRM_UE_ADDR (w32 off)) pMRM 4) := .irq (.unit (.unit hu _ _ _) _ _ _) _ _
  have hmet {u : State} (hu : Upkeep s u) (c : Prop) [Decidable c] (off : Nat) : Upkeep s (if c then u else mrmCorrected u off) := .ite hu (hu.trans (mrmCorrectedAt_upkeep _ _))
  unfold mrmWordRead
  extract_lets off
  split
  · exact .refl
  rename_i u p d0 d o above lost _
  have hu : Upkeep s u := mrmArm_upkeep s off
  clear_value u
  split
  · exact hlost hu off
  split
  extract_lets v v'
  have hv : Upkeep s v' := hmet (hu.trans (dieSet_upkeep _ _ _)) _ off
  clear_value v'
  split
  · exact hv
  split
  · exact hlost hv off
  split
  extract_lets x x'
  have hx : Upkeep s x' := hmet (hv.trans (dieSet_upkeep _ _ _)) _ off
  clear_value x'
  split
  · exact hlost hx off
  · exact .unit (hx.trans (dieSet_upkeep _ _ _)) _ _ _

theorem mrmWordStore_upkeep (s : State) (w : Nat) (bytes : List Byte) : Upkeep s (mrmWordStore s w bytes) :=
  .ite .refl (dieSetIf_upkeep (dieSetIf_upkeep .refl _ _ _) _ _ _)

theorem mrmMark_upkeep (s : State) (w : Nat) (k : WordErr) : Upkeep s (mrmMark s w k) := dieSetIf_upkeep (dieSetIf_upkeep .refl _ _ _) _ _ _

theorem mrmFlush_upkeep (s : State) (e : MergeEntry) : Upkeep s (mrmFlush s e) := by
  have hread {u v : State} {b : Option (List Byte)} (hu : Upkeep s u) (w : Nat) (hv : mrmWordRead u w = (v, b)) : Upkeep s v := by
    have := mrmWordRead_upkeep u w
    rw [hv] at this
    exact hu.trans this
  have hu : Upkeep s { s with mem := { s.mem with mrmMerge := removeFirst (fun x : MergeEntry => x.index == e.index) s.mem.mrmMerge } } := .parts .refl _ _ _ _ _
  unfold mrmFlush
  dsimp only
  refine .ite (hu.trans (mrmWordStore_upkeep _ _ _)) ?_
  split
  · rename_i hv
    exact (hread hu _ hv).trans (mrmWordStore_upkeep _ _ _)
  · rename_i hv
    exact (hread hu _ hv).trans ((mrmWordStore_upkeep _ _ _).trans (mrmMark_upkeep _ _ _))

theorem mrmMergeWrite_upkeep (s : State) (w lo : Nat) (bytes : List Byte) : Upkeep s (mrmMergeWrite s w lo bytes) := by
  have hmerge {u : State} (hu : Upkeep s u) (m : Memory) : Upkeep s { u with mem := m } := .parts hu _ _ _ _ _
  unfold mrmMergeWrite
  split
  · exact .trans (hmerge .refl _) (mrmWordStore_upkeep _ _ _)
  split
  rename_i v e hv
  suffices h : Upkeep s v from .ite (.trans (hmerge h _) (mrmFlush_upkeep _ _)) (hmerge h _)
  split at hv
  · obtain ⟨rfl, -⟩ := Prod.mk.inj hv
    exact .refl
  · obtain ⟨rfl, -⟩ := Prod.mk.inj hv
    refine hmerge ?_ _
    split
    · exact .ite (mrmFlush_upkeep s _) .refl
    · exact .refl

theorem mramPut_upkeep (s : State) (off : Nat) (bytes : List Byte) : Upkeep s (mramPut s off bytes) := by
  have hwords := Upkeep.foldlPair (f := fun (acc : State × List Byte) (p : Nat × Nat × Nat) => (mrmMergeWrite acc.1 p.1 p.2.1 (acc.2.take p.2.2), acc.2.drop p.2.2))
    (fun r p => mrmMergeWrite_upkeep r.1 _ _ _) (pieces8 off bytes.length) (s, bytes)
  exact .ite (.unit (.unit (.parts hwords _ _ _ _ _) _ _ _) _ _ _) hwords

theorem ringWrite_upkeep (s : State) (base size head : Nat) (bytes : List Byte) : Upkeep s (ringWrite s base size head bytes) :=
  .ite ((mramPut_upkeep s _ _).trans (mramPut_upkeep _ _ _)) (mramPut_upkeep s _ _)

/-! ### Dies and blocks -/

theorem putBst_upkeep (s : State) (d b : Nat) (e : Bst) : Upkeep s (putBst s d b e) := .parts .refl _ _ _ _ _

theorem putDie_upkeep (s : State) (d : Nat) (x : Die) : Upkeep s (putDie s d x) := .moving (.moving (.parts .refl _ _ _ _ _) _ _ _) _ _ _

theorem setEpochs_upkeep (s : State) (p : Nat) (e : Epochs) : Upkeep s (setEpochs s p e) := .moving (.draining (.shared .refl _) _ _) _ _ _

theorem finishUnit_upkeep (s : State) (p epoch : Nat) : Upkeep s (finishUnit s p epoch) := .ite (setEpochs_upkeep _ _ _) (setEpochs_upkeep _ _ _)

theorem takeProgram_upkeep (s : State) (die block page : Nat) : Upkeep s (takeProgram s die block page) :=
  .ite (.trans (putDie_upkeep s _ _) (finishUnit_upkeep _ _ _)) .refl

theorem jIssue_upkeep (s : State) (p : JPayload) : Upkeep s (jIssue s p).1 := by
  have hseq (v : Word) (c : Prop) [Decidable c] : Upkeep s (if c then wr (wr s pMAP MAP_JSEQ_ISSUED v) pMAP MAP_JSEQ_TAIL v else wr s pMAP MAP_JSEQ_ISSUED v) :=
    .ite (.unit (.unit .refl _ _ _) _ _ _) (.unit .refl _ _ _)
  have hlisted {u : State} (hu : Upkeep s u) (j : List JRecord) (c : Prop) [Decidable c] :
      Upkeep s (if c then irq { u with map := { u.map with journal := j } } pMAP 6 else { u with map := { u.map with journal := j } }) :=
    .ite (.irq (.parts hu _ _ _ _ _) _ _) (.parts hu _ _ _ _ _)
  exact hlisted (hseq _ _) _ _

theorem issueBlockState_upkeep (s : State) (d b : Nat) (st : BlockState) (upd : Bst → Bst) : Upkeep s (issueBlockState s d b st upd) :=
  (jIssue_upkeep s _).trans (putBst_upkeep _ _ _ _)

theorem clearMediaWarning_upkeep (s : State) : Upkeep s (clearMediaWarning s) := .ite .refl (.shared .refl _)

theorem refreshPool_upkeep (s : State) : Upkeep s (refreshPool s) := by
  have hspare {u : State} (hu : Upkeep s u) (c d : Prop) [Decidable c] [Decidable d] : Upkeep s (if c then (if d then u else smartSet (irq u pMAP 4) 0) else u) :=
    .ite (.ite hu (.shared (.irq hu _ _) _)) hu
  have hmode {u : State} (hu : Upkeep s u) (c d e : Prop) [Decidable c] [Decidable d] [Decidable e] :
      Upkeep s (if c then u else if d then enterReadOnly u else if e then leaveReadOnly u else u) :=
    .ite hu (.ite (.shared (.shared (.irq (.unit hu _ _ _) _ _) _) _) (.ite (.shared (.trans (.irq (.unit hu _ _ _) _ _) (clearMediaWarning_upkeep _)) _) hu))
  have hthrottle {u : State} (hu : Upkeep s u) (c : Prop) [Decidable c] (a b : Bool) :
      Upkeep s (wrB (wrB (if c then irq u pMAP 5 else u) pMAP MAP_MEDIA_STATE 1 a) pMAP MAP_MEDIA_STATE 2 b) := .unit (.unit (.ite (.irq hu _ _) hu) _ _ _) _ _ _
  exact hthrottle (hmode (hspare (.unit (.unit (.unit .refl _ _ _) _ _ _) _ _ _) _ _) _ _ _) _ _ _

theorem refreshPlace_upkeep (s : State) : Upkeep s (refreshPlace s) := by
  unfold refreshPlace
  extract_lets n u none_ was v
  have hv : Upkeep s v := .unit (.unit .refl _ _ _) _ _ _
  clear_value v none_ was
  exact .ite (.shared (.shared hv _) _) (.ite (.shared (hv.trans (clearMediaWarning_upkeep v)) _) hv)

theorem retireBlock_upkeep (s : State) (d b : Nat) : Upkeep s (retireBlock s d b) :=
  .trans (.parts (issueBlockState_upkeep s _ _ _ _) _ _ _ _ _) (refreshPool_upkeep _)

/-! ### Sets and rebuilds -/

theorem refreshStr_upkeep (s : State) : Upkeep s (refreshStr s) := .unit (.unit (.unit (.unit .refl _ _ _) _ _ _) _ _ _) _ _ _

theorem sIssue_upkeep (s : State) (p : SPayload) : Upkeep s (sIssue s p) := by
  have hseq (v : Word) (c : Prop) [Decidable c] :
      Upkeep s (if c then wr (wr (wr s pSTR STR_SSEQ_ISSUED v) pSTR STR_SSEQ_DURABLE v) pSTR STR_SSEQ_TAIL v else wr (wr s pSTR STR_SSEQ_ISSUED v) pSTR STR_SSEQ_DURABLE v) :=
    .ite (.unit (.unit (.unit .refl _ _ _) _ _ _) _ _ _) (.unit (.unit .refl _ _ _) _ _ _)
  have hlisted {u : State} (hu : Upkeep s u) (base size head : Nat) (bytes : List Byte) (st : Stripe) (c : Prop) [Decidable c] :
      Upkeep s (if c then irq { ringWrite u base size head bytes with str := st } pSTR 6 else { ringWrite u base size head bytes with str := st }) := by
    have hring := hu.trans (ringWrite_upkeep u base size head bytes)
    exact .ite (.irq (.parts hring _ _ _ _ _) _ _) (.parts hring _ _ _ _ _)
  exact hlisted (hseq _ _) _ _ _ _ _ _

theorem closeBlocks_upkeep (s : State) (e : SetEntry) : Upkeep s (closeBlocks s e) := .foldl (fun u _ => .ite (issueBlockState_upkeep u _ _ _ _) .refl) _ s

theorem closeSet_upkeep (s : State) (n : Nat) (e : SetEntry) (pages : Nat) (collect : Bool) : Upkeep s (closeSet s n e pages collect) := by
  have hclosed {u : State} (hu : Upkeep s u) : Upkeep s (closeBlocks (putSet u n { e with open_ := false, pages := pages, next := pages, collect := e.collect || collect }) e) :=
    .trans (.parts hu _ _ _ _ _) (closeBlocks_upkeep _ e)
  have hmarked (l : List Member) (u : State) : Upkeep u (l.foldl (fun s m => markRelocate s m.die m.block) u) := .foldl (fun u _ => putBst_upkeep u _ _ _) l u
  have hdrop {u : State} (hu : Upkeep s u) : Upkeep s (refreshPool (dropStripe u n)) :=
    .trans (.trans (.parts hu _ _ _ _ _) (refreshStr_upkeep _)) (refreshPool_upkeep _)
  exact hdrop (.ite ((hclosed (sIssue_upkeep s _)).trans (hmarked _ _)) (hclosed (sIssue_upkeep s _)))

theorem closeSetsOn_upkeep (s : State) (d : Nat) : Upkeep s (closeSetsOn s d) := by
  refine .foldl (fun u e => ?_) _ s
  unfold abandonStripe
  split
  · exact .trans (.foldl (fun v _ => takeProgram_upkeep v _ _ _) _ u) (closeSet_upkeep _ _ _ _ _)
  · exact .refl

theorem rebuildFence_upkeep (s : State) (d : Nat) : Upkeep s (rebuildFence s d) :=
  .ite (.trans (.irq .refl pSTR 0) ((closeSetsOn_upkeep _ d).trans (.trans (.parts .refl _ _ _ _ _) (refreshStr_upkeep _)))) .refl

/-! ### Retirement of a die -/

theorem abandonErase_upkeep (s : State) (d : Nat) (o : Option RunOp) : Upkeep s (abandonErase s d o) := by
  unfold abandonErase
  split
  · exact putBst_upkeep s _ _ _
  · exact .refl

theorem handRung4_upkeep (s : State) (j : ReadJob) : Upkeep s (handRung4 s j) := by
  have hmark {u : State} (hu : Upkeep s u) (c : Prop) [Decidable c] : Upkeep s (if c then u else markRelocate u j.die j.block) := .ite hu (hu.trans (putBst_upkeep u _ _ _))
  exact .parts (hmark (.shared (.irq (.moving .refl _ _ _) _ _) _) _) _ _ _ _ _

theorem emptyDie_upkeep (s : State) (d : Nat) : Upkeep s (emptyDie s d) :=
  (((abandonErase_upkeep s d _).trans (abandonErase_upkeep _ d _)).trans (putDie_upkeep _ _ _)).trans (.foldl handRung4_upkeep _ _)

theorem fenceDie_upkeep (s : State) (d : Nat) : Upkeep s (fenceDie s d) :=
  .trans (.moving .refl _ _ _) ((emptyDie_upkeep _ d).trans (rebuildFence_upkeep _ d))

theorem retireDie_upkeep (s : State) (d : Nat) : Upkeep s (retireDie s d) :=
  .ite (logRetire_upkeep s _ _ _)
    (.trans (.irq ((setFault_upkeep s _ _ _ _).trans (logRetire_upkeep _ _ _ _)) _ _) (((fenceDie_upkeep _ d).trans (refreshPool_upkeep _)).trans (refreshPlace_upkeep _)))

end Sys2Proof.Machine

/-! Commands of the flash channels: their effect on dies and channels beside the pages, retirement of dies and channels, and counted events of a channel (R163, R178, R179). -/

namespace Sys2Proof.Machine

set_option Elab.async false

/-! ### Running a command of a channel -/

/-- The parts that the commands of the flash channels may touch. -/
abbrev flashParts : List Part := [.memP, .fchP, .mapP, .strP]

/-- A command of a unit whose page is up has the effect of its operation. -/
theorem runs_whenUp {c : Instr} {s v u : State} {p : Nat} {f : State → State} {P : State → Prop} (he : exec c s = .next (confine flashParts s (whenUp p f v)))
    (hup : pageUp v p = true) (hu : f v = u) (h : P (confine flashParts s u)) : Runs c s P :=
  runs_of_effect he ((if_pos hup).trans hu) h

/-! ### Dies and channels -/

/-- The page's queue registers follow a die; beside them the die alone changes. -/
theorem putDie_frame (s : State) (d : Nat) (x : Die) :
    (putDie s d x).fch = { s.fch with dies := s.fch.dies.putD d x Die.idle } ∧ (putDie s d x).map = s.map ∧ (putDie s d x).com.time = s.com.time := by
  simp only [putDie, refreshQueues, wr_frame, and_self]

@[simp] theorem dieOf_putDie_same (s : State) (d : Nat) (x : Die) : dieOf (putDie s d x) d = x := by rw [dieOf, (putDie_frame s d x).1, Tab.getD_putD_same]

@[simp] theorem chanOf_putDie (s : State) (d : Nat) (x : Die) (c : Nat) : chanOf (putDie s d x) c = chanOf s c := by rw [chanOf, (putDie_frame s d x).1, chanOf]

@[simp] theorem chanOf_putChan_same (s : State) (c : Nat) (x : Channel) : chanOf (putChan s c x) c = x := Tab.getD_putD_same _ _ _ _

@[simp] theorem dieOf_putChan (s : State) (c : Nat) (x : Channel) (d : Nat) : dieOf (putChan s c x) d = dieOf s d := rfl

@[simp] theorem dieOf_irq (s : State) (p i d : Nat) : dieOf (irq s p i) d = dieOf s d := rfl

@[simp] theorem dieOf_bump (s : State) (p o n d : Nat) : dieOf (bump s p o n) d = dieOf s d := rfl

theorem fch_confine (s t : State) : (confine flashParts s t).fch = t.fch := rfl

theorem dieOf_confine (s t : State) (d : Nat) : dieOf (confine flashParts s t) d = dieOf t d := by rw [dieOf, fch_confine, dieOf]

theorem chanOf_confine (s t : State) (c : Nat) : chanOf (confine flashParts s t) c = chanOf t c := by rw [chanOf, fch_confine, chanOf]

theorem rdF_confine (s t : State) (p o hi lo : Nat) : rdF (confine flashParts s t) p o hi lo = rdF t p o hi lo := congrArg (fld · hi lo) (rd_confine flashParts s t p o).1

theorem dieRetired_confine (s t : State) (d : Nat) : dieRetired (confine flashParts s t) d = dieRetired t d := congrArg (bit · (d % 16)) (rd_confine flashParts s t _ _).1

theorem bstRaw_confine (s t : State) (d b : Nat) : bstRaw (confine flashParts s t) d b = bstRaw t d b := rfl

theorem dieOf_congr {s t : State} (h : t.fch = s.fch) (d : Nat) : dieOf t d = dieOf s d := by rw [dieOf, h, dieOf]

theorem chanOf_congr {s t : State} (h : t.fch = s.fch) (c : Nat) : chanOf t c = chanOf s c := by rw [chanOf, h, chanOf]

theorem pFCH_lt (c : Chan) : pFCH c.val < 4096 := by unfold pFCH; omega

/-! ### Retirement -/

/-- A position that is marked retired leaves every other mark. -/
theorem markRetired_background (s : State) (c i : Nat) (hi : i < 32) : Background s (wrB s (pFCH c) FCH_DIE_RETIRED i true) := by
  refine ⟨(State.AgreeOutside.refl _ s).wr _ _ _, fun _ _ => rfl, fun p j hb => ?_, fun d hb => ?_⟩
  · rwa [rd_wrB_ne _ _ _ (by decide) (by decide) fun hn => absurd hn.2 (by decide)]
  · unfold dieRetired at hb ⊢
    by_cases hp : diePage d = pFCH c
    · rw [hp] at hb ⊢
      rw [rd_wrB_same, bit_setBit _ _ _ hi, hb, ite_self]
    · rwa [rd_wrB_ne _ _ _ (by decide) (by decide) fun hn => hp hn.1]

theorem fenceDie_background (s : State) (d : Nat) : Background s (fenceDie s d) :=
  (markRetired_background s _ _ (by omega)).trans ((emptyDie_background _ d).trans (rebuildFence_background _ d))

theorem retireDie_background (s : State) (d : Nat) : Background s (retireDie s d) :=
  .ite (logRetire_background s _ _ _)
    (.trans (.irq ((setFault_background s _ _ _ _).trans (logRetire_background _ _ _ _)) _ _) (((fenceDie_background _ d).trans (refreshPool_background _)).trans (refreshPlace_background _)))

theorem dieRetired_fenceDie (s : State) (d : Nat) : dieRetired (fenceDie s d) d = true := by
  refine ((emptyDie_background _ d).trans (rebuildFence_background _ d)).retired d ?_
  rw [dieRetired, diePage, rd_wrB_same]
  exact bit_setBit_same _ _ (by omega)

/-- A die of a channel that is not fenced is retired by its retirement (R179). -/
theorem dieRetired_retireDie {s : State} {d : Nat} (hf : chanFenced s (d / 16) = false) : dieRetired (retireDie s d) d = true := by
  unfold retireDie
  split
  next h => exact (logRetire_background s _ _ _).retired d (by simpa [hf] using h)
  next => exact ((refreshPool_background _).trans (refreshPlace_background _)).retired d (dieRetired_fenceDie _ d)

/-- What a channel's retirement leaves before its STATUS changes: the fault, the log, and 16 positions that have left service (R179). -/
def positionsFenced (s : State) (c : Nat) : State :=
  (List.range 16).foldl (fun s i => if diePresent s (16 * c + i) then fenceDie s (16 * c + i) else wrB s (pFCH c) FCH_DIE_RETIRED i true)
    (irq (logRetire (setFault s (pFCH c) .permanent (Config.blockCause 2) 0x0010) (pFCH c) (Config.blockCause 2) 0x0010) (pFCH c) 0)

/-- STATUS of a fenced channel: FENCED, and neither trained nor degraded (R179). -/
def statusFenced (s : State) (c : Nat) : State := wrB (wrB (wrB s (pFCH c) rSTATUS 1 true) (pFCH c) rSTATUS 3 false) (pFCH c) rSTATUS 4 false

theorem retireChannel_of_live {s : State} {c : Nat} (h : chanFenced s c = false) :
    retireChannel s c = refreshPlace (refreshPool (putChan (statusFenced (positionsFenced s c) c) c
      { chanOf (positionsFenced s c) c with wpHigh := false, ceHigh := true, decoding := [] })) := by
  unfold retireChannel
  dsimp only
  rw [if_neg (by simp [h])]
  rfl

theorem positionsFenced_background (s : State) (c : Nat) : Background s (positionsFenced s c) := by
  refine List.foldlRecOn (motive := Background s) _ _ ?_ fun u hu i hi => hu.trans (.ite (fenceDie_background u _) (markRetired_background u c i ?_))
  · exact .irq ((setFault_background s _ _ _ _).trans (logRetire_background _ _ _ _)) _ _
  · have := List.mem_range.mp hi
    omega

theorem statusFenced_background (s : State) (c : Nat) : Background s (statusFenced s c) := .wr (.wr (.wr (.refl s) _ _ _) _ _ _) _ _ _

theorem rd_statusFenced (s : State) (c : Nat) : rd (statusFenced s c) (pFCH c) rSTATUS = setBit (setBit (setBit (rd s (pFCH c) rSTATUS) 1 true) 3 false) 4 false := by
  rw [statusFenced, rd_wrB_same, rd_wrB_same, rd_wrB_same]

theorem retireChannel_background (s : State) (c : Nat) : Background s (retireChannel s c) := by
  cases h : chanFenced s c with
  | false =>
    rw [retireChannel_of_live h]
    exact .trans (.parts ((positionsFenced_background s c).trans (statusFenced_background _ c)) _ _ _ _ _) ((refreshPool_background _).trans (refreshPlace_background _))
  | true =>
    rw [retireChannel, if_pos h]
    exact logRetire_background s _ _ _

/-- The STATUS bits that the retirement of a channel leaves: FENCED, neither trained nor degraded (R179). -/
theorem status_retireChannel {s : State} {c : Nat} (h : chanFenced s c = false) {i : Nat} (hi : i ≠ 2) :
    bit (rd (retireChannel s c) (pFCH c) rSTATUS) i = bit (setBit (setBit (setBit (rd (positionsFenced s c) (pFCH c) rSTATUS) 1 true) 3 false) 4 false) i := by
  rw [retireChannel_of_live h, ((refreshPool_upkeep _).trans (refreshPlace_upkeep _)).status c hi, ← rd_statusFenced]
  rfl

theorem chanFenced_retireChannel {s : State} {c : Nat} (h : chanFenced s c = false) : chanFenced (retireChannel s c) c = true := by
  rw [chanFenced, status_retireChannel h (by decide), bit_setBit _ _ _ (by decide), if_neg (by decide), bit_setBit _ _ _ (by decide), if_neg (by decide),
    bit_setBit_same _ _ (by decide)]

/-- A retirement trains no channel (R179). -/
theorem untrained_retireChannel {s : State} {c : Nat} (h : bit (rd s (pFCH c) rSTATUS) 3 = false) : bit (rd (retireChannel s c) (pFCH c) rSTATUS) 3 = false := by
  cases hf : chanFenced s c with
  | false => rw [status_retireChannel hf (by decide), bit_setBit _ _ _ (by decide), if_neg (by decide), bit_setBit_same _ _ (by decide)]
  | true => rw [retireChannel, if_pos hf, (logRetire_upkeep s _ _ _).status c (by decide), h]

/-! ### Counted events of a channel -/

theorem fchOverflow_background (s : State) (c : Nat) : Background s (fchOverflow s c) := by
  unfold fchOverflow
  dsimp only
  split
  · exact retireDie_background s _
  · exact retireChannel_background s c

theorem fchEvent_background (s : State) (c : Nat) : Background s (fchEvent s c none) :=
  .ite ((lbEvent_background s _).trans (fchOverflow_background _ c)) (lbEvent_background s _)

/-- A counted event trains no channel. -/
theorem untrained_fchEvent {s : State} {c : Nat} (h : bit (rd s (pFCH c) rSTATUS) 3 = false) : bit (rd (fchEvent s c none) (pFCH c) rSTATUS) 3 = false := by
  have hcounted : bit (rd (lbEvent s (pFCH c)).1 (pFCH c) rSTATUS) 3 = false := ((lbEvent_upkeep s _).status c (by decide)).trans h
  unfold fchEvent
  dsimp only
  split
  · unfold fchOverflow
    dsimp only
    split
    · rw [(retireDie_upkeep _ _).status c (by decide), hcounted]
    · exact untrained_retireChannel hcounted
  · exact hcounted

/-- LB_COUNT after one more counted event (R73). -/
def counted (s : State) (p : Nat) : State := wrF s p rLB_COUNT 15 0 (satAdd 0xFFFF (rdF s p rLB_COUNT 15 0) 1)

/-- While the bucket is quiet, a counted event only raises LB_COUNT (R73, R74). -/
theorem lbEvent_quiet {s : State} {p : Nat} (h : lbQuiet s p = true) : lbEvent s p = (counted s p, false) := by
  unfold lbEvent lbEventAt
  dsimp only
  rw [if_neg]
  · rfl
  · simp only [lbQuiet, Bool.or_eq_true, beq_iff_eq, decide_eq_true_eq] at h
    simp only [satAdd, Bool.and_eq_true, decide_eq_true_eq, Bool.not_eq_true', ge_iff_le]
    rintro ⟨⟨⟨h0, hlt⟩, hge⟩, hfired⟩
    rcases h with ((h | h) | h) | h
    · omega
    · omega
    · omega
    · exact absurd h (by simpa using hfired)

/-- Another register than LB_COUNT does not bear on the bucket. -/
theorem lbQuiet_wr (s : State) (p : Nat) {o : Nat} (v : Word) (ho : o ≠ rLB_COUNT) : lbQuiet (wr s p o v) p = lbQuiet s p := by
  unfold lbQuiet
  rw [rdF, rd_wr_otherOff _ _ _ ho.symm]
  rfl

theorem fchEvent_quiet {s : State} {c : Nat} (h : lbQuiet s (pFCH c) = true) : fchEvent s c none = counted s (pFCH c) := by
  unfold fchEvent
  dsimp only
  rw [lbEvent_quiet h]
  rfl

/-- A counted event of a position also raises its EVT count (R178). -/
theorem fchEvent_quiet_position {s : State} {c : Nat} (pos : Nat) (h : lbQuiet s (pFCH c) = true) :
    fchEvent s c (some pos) = counted (bumpF s (pFCH c) (FCH_DIE_EVT + 4 * pos) 7 0 1) (pFCH c) := by
  refine fchEvent_quiet (s := bumpF s (pFCH c) (FCH_DIE_EVT + 4 * pos) 7 0 1) ((lbQuiet_wr s _ _ ?_).trans h)
  unfold FCH_DIE_EVT rLB_COUNT
  omega

end Sys2Proof.Machine

/-! Start-up and training of a channel, training loss, and retraining (R157 to R159). -/

namespace Sys2Proof.Machine

set_option Elab.async false

section
variable {s : State} {c : Chan}

/-! ### Start-up (R157) -/

/-- The mask of the positions that answered (R157). -/
def answerMask (answers : List DieAnswer) : Nat := (List.range 16).foldl (fun m p => if answers.any fun a => a.pos.val == p then m + 2 ^ p else m) 0

/-- A sum of powers of two at falling positions has a bit for each that it holds. -/
theorem testBit_foldl_mask (f : Nat → Bool) (n i : Nat) :
    ((List.range n).foldl (fun m p => if f p then m + 2 ^ p else m) 0).testBit i = (decide (i < n) && f i)
      ∧ (List.range n).foldl (fun m p => if f p then m + 2 ^ p else m) 0 < 2 ^ n := by
  induction n with
  | zero => simp
  | succ n ih =>
    obtain ⟨hbit, hlt⟩ := ih
    rw [List.range_succ, List.foldl_concat]
    generalize (List.range n).foldl (fun m p => if f p then m + 2 ^ p else m) 0 = m at hbit hlt
    have hpow : 2 ^ (n + 1) = 2 ^ n + 2 ^ n := by omega
    by_cases hf : f n = true
    · rw [if_pos hf]
      refine ⟨?_, by omega⟩
      rw [Nat.add_comm]
      rcases Nat.lt_trichotomy i n with hi | rfl | hi
      · rw [Nat.testBit_two_pow_add_gt hi, hbit, decide_eq_true hi, decide_eq_true (by omega)]
      · rw [Nat.testBit_two_pow_add_eq, Nat.testBit_lt_two_pow hlt, hf]
        simp
      · rw [Nat.testBit_lt_two_pow, decide_eq_false (by omega), Bool.false_and]
        have := Nat.pow_le_pow_right (n := 2) (by omega) hi
        omega
    · rw [if_neg hf]
      refine ⟨?_, by omega⟩
      rw [hbit]
      rcases Nat.lt_trichotomy i n with hi | rfl | hi
      · rw [decide_eq_true hi, decide_eq_true (by omega)]
      · simp [hf]
      · rw [decide_eq_false (by omega), decide_eq_false (by omega)]

theorem bit_answerMask (answers : List DieAnswer) (i : Pos) : bit (w32 (answerMask answers)) i.val = answers.any fun a => a.pos == i := by
  have hpos (a : DieAnswer) : (a.pos.val == i.val) = (a.pos == i) := by simp [BEq.beq, Fin.ext_iff]
  rw [bit, w32, BitVec.getLsbD_ofNat, answerMask, (testBit_foldl_mask _ 16 i.val).1]
  simp only [hpos, decide_eq_true (show i.val < 32 by omega), decide_eq_true i.isLt, Bool.true_and]

/-- The registers and the channel as start-up leaves them, before the pool's and the placement's conditions follow (R157). -/
def channelAnswered (s : State) (c : Nat) (answers : List DieAnswer) : State :=
  putChan (wrB (wr (wr s (pFCH c) FCH_DIE_PRESENT (w32 (answerMask answers))) (pFCH c) FCH_IF_STATUS 0x40) (pFCH c) rSTATUS 3 false) c
    { Channel.cold with started := true, answers := answers.foldl (fun (t : Tab (BitVec 48 × BitVec 2)) a => t.put a.pos.val (a.ident, a.protocols)) [], inject := (chanOf s c).inject }

theorem channelStart_of_up (answers : List DieAnswer) (hup : pageUp s (pFCH c.val) = true) (hf : chanFenced s c.val = false) :
    channelStart s c.val answers = refreshPlace (refreshPool (channelAnswered s c.val answers)) := by
  unfold channelStart
  rw [if_neg (by simp [hup, hf])]
  rfl

theorem runs_channelStart (answers : List DieAnswer) (hup : pageUp s (pFCH c.val) = true) (hf : chanFenced s c.val = false) :
    Runs (.channelStart c answers) s fun t =>
      (∀ i : Pos, bit (rd t (pFCH c.val) FCH_DIE_PRESENT) i.val = answers.any fun a => a.pos == i) ∧ rd t (pFCH c.val) FCH_IF_STATUS = 0x40
      ∧ (chanOf t c.val).started = true ∧ bit (rd t (pFCH c.val) rSTATUS) 3 = false := by
  refine runs_of_effect rfl (channelStart_of_up answers hup hf) ?_
  have hafter := (refreshPool_upkeep (channelAnswered s c.val answers)).trans (refreshPlace_upkeep _)
  have hfch := ((refreshPlace_agree (refreshPool (channelAnswered s c.val answers))).fch (by decide)).trans ((refreshPool_agree _).fch (by decide))
  generalize refreshPlace (refreshPool (channelAnswered s c.val answers)) = u at hafter hfch
  have hpresent : rd u (pFCH c.val) FCH_DIE_PRESENT = w32 (answerMask answers) := by
    rw [hafter.kept c.val (by decide) (by decide) (by decide)]
    exact (rd_wr_otherOff _ _ _ (by decide)).trans ((rd_wr_otherOff _ _ _ (by decide)).trans (rd_wr_same _ _ _ _))
  have hstatus : rd u (pFCH c.val) FCH_IF_STATUS = 0x40 := by
    rw [hafter.kept c.val (by decide) (by decide) (by decide)]
    exact (rd_wr_otherOff _ _ _ (by decide)).trans (rd_wr_same _ _ _ _)
  have htrained : bit (rd u (pFCH c.val) rSTATUS) 3 = false := by
    rw [hafter.status c.val (by decide)]
    exact (congrArg (bit · 3) (rd_wrB_same _ _ _ _ _)).trans (bit_setBit_same _ _ (by decide))
  have hstarted : (chanOf u c.val).started = true := by
    rw [chanOf_congr hfch, channelAnswered, chanOf_putChan_same]
  exact ⟨fun i => (congrArg (bit · i.val) hpresent).trans (bit_answerMask answers i), hstatus, hstarted, htrained⟩

/-! ### Training (R157) -/

/-- The registers and the channel after a training that passed, before the placement's conditions follow (R157). -/
def channelTrained (s : State) (c : Nat) : State :=
  let t := wrB (wrB (wr s (pFCH c) FCH_IF_STATUS (w32 (inF s (pFCH c) FCH_IF_CFG 17 16 * 16 + inF s (pFCH c) FCH_IF_CFG 3 0))) (pFCH c) rSTATUS 3 true) (pFCH c) rSTATUS 4 false
  putChan t c { chanOf t c with wpHigh := true }

theorem livePositions_wr (s : State) (c : Nat) {o : Nat} (v : Word) (h : FCH_DIE_PRESENT ≠ o ∧ FCH_DIE_RETIRED ≠ o) : livePositions (wr s (pFCH c) o v) c = livePositions s c := by
  unfold livePositions
  rw [inForce_wr, rd_wr_otherOff _ _ _ h.1, rd_wr_otherOff _ _ _ h.2]

theorem channelTraining_of_eyes {eyes : Nat} (hstart : (chanOf s c.val).started = true) (hf : chanFenced s c.val = false)
    (heyes : ∀ i, i < 16 → (livePositions s c.val).testBit i = true → eyes.testBit i = true) : channelTraining s c.val eyes = refreshPlace (channelTrained s c.val) := by
  unfold channelTraining
  dsimp only
  rw [if_neg (by simp [hstart, hf]), livePositions_wr s c.val _ (by decide), if_pos]
  · rfl
  · simp only [bitList, List.all_eq_true, List.mem_filter, List.mem_range]
    exact fun i hi => heyes i hi.1 hi.2

theorem runs_channelTraining {eyes : BitVec 16} (hup : pageUp s (pFCH c.val) = true) (hf : chanFenced s c.val = false) (hstart : (chanOf s c.val).started = true)
    (heyes : ∀ i, i < 16 → (livePositions s c.val).testBit i = true → eyes.toNat.testBit i = true) :
    Runs (.channelTraining c eyes) s fun t =>
      rd t (pFCH c.val) FCH_IF_STATUS = w32 (inF s (pFCH c.val) FCH_IF_CFG 17 16 * 16 + inF s (pFCH c.val) FCH_IF_CFG 3 0) ∧ bit (rd t (pFCH c.val) rSTATUS) 3 = true
      ∧ bit (rd t (pFCH c.val) rSTATUS) 4 = false ∧ (chanOf t c.val).wpHigh = true := by
  refine runs_whenUp rfl hup (channelTraining_of_eyes hstart hf heyes) ?_
  have hafter := refreshPlace_upkeep (channelTrained s c.val)
  have hfch := (refreshPlace_agree (channelTrained s c.val)).fch (by decide)
  generalize refreshPlace (channelTrained s c.val) = u at hafter hfch
  have hbits : rd (channelTrained s c.val) (pFCH c.val) rSTATUS = setBit (setBit (rd s (pFCH c.val) rSTATUS) 3 true) 4 false := by
    refine (rd_wrB_same _ _ _ _ _).trans (congrArg (setBit · 4 false) ((rd_wrB_same _ _ _ _ _).trans (congrArg (setBit · 3 true) ?_)))
    exact rd_wr_otherOff _ _ _ (by decide)
  have hrate : rd u (pFCH c.val) FCH_IF_STATUS = w32 (inF s (pFCH c.val) FCH_IF_CFG 17 16 * 16 + inF s (pFCH c.val) FCH_IF_CFG 3 0) := by
    rw [hafter.kept c.val (by decide) (by decide) (by decide)]
    exact (rd_wr_otherOff _ _ _ (by decide)).trans ((rd_wr_otherOff _ _ _ (by decide)).trans (rd_wr_same _ _ _ _))
  have htrained : bit (rd u (pFCH c.val) rSTATUS) 3 = true := by
    rw [hafter.status c.val (by decide), hbits, bit_setBit _ _ _ (by decide), if_neg (by decide), bit_setBit_same _ _ (by decide)]
  have hdegraded : bit (rd u (pFCH c.val) rSTATUS) 4 = false := by
    rw [hafter.status c.val (by decide), hbits, bit_setBit_same _ _ (by decide)]
  have hwp : (chanOf u c.val).wpHigh = true := by
    rw [chanOf_congr hfch, channelTrained, chanOf_putChan_same]
  exact ⟨hrate, htrained, hdegraded, hwp⟩

/-! ### Training loss (R158) -/

/-- A drift above DRIFT_LIMIT on a live position (R158). -/
def lossy (s : State) (c : Nat) (drift : List (Pos × Nat)) : Prop := ∃ d ∈ drift, (livePositions s c).testBit d.1.val = true ∧ inF s (pFCH c) FCH_TRAIN_CTRL 23 16 < d.2

theorem drifted_iff (s : State) (c : Nat) (drift : List (Pos × Nat)) :
    (drift.any fun d => (livePositions s c).testBit d.1.val && decide (d.2 > inF s (pFCH c) FCH_TRAIN_CTRL 23 16)) = true ↔ lossy s c drift := by
  simp only [List.any_eq_true, Bool.and_eq_true, decide_eq_true_eq, lossy, gt_iff_lt]

theorem trainingCheck_sound {s : State} {c : Nat} {drift : List (Pos × Nat)} (h : ¬ lossy s c drift) : trainingCheck s c drift = s := by
  unfold trainingCheck
  dsimp only
  rw [if_neg (mt (drifted_iff s c drift).mp h), ite_self]

theorem trainingCheck_lossy {s : State} {c : Nat} {drift : List (Pos × Nat)} (h : lossy s c drift) (hint : inF s (pFCH c) FCH_TRAIN_CTRL 15 0 ≠ 0)
    (hlim : inF s (pFCH c) FCH_TRAIN_CTRL 23 16 ≠ 0) (ht : bit (rd s (pFCH c) rSTATUS) 3 = true) : trainingCheck s c drift = trainingLoss s c := by
  unfold trainingCheck
  dsimp only
  rw [if_neg (by simp [hint, hlim, ht]), if_pos ((drifted_iff s c drift).mpr h)]

/-- A channel is degraded: neither trained nor in retraining yet (R158, R159). -/
def degrade (s : State) (c : Nat) : State :=
  let t := wrF (wrB (wrB s (pFCH c) rSTATUS 3 false) (pFCH c) rSTATUS 4 true) (pFCH c) FCH_IF_STATUS 10 8 0
  putChan t c { chanOf t c with streak := [] }

/-- A channel that loses its training is degraded, with a transient fault shown (R158, R178). -/
def channelDegraded (s : State) (c : Nat) : State := degrade (irq (setFault s (pFCH c) .transient (Config.blockCause 3) 0x0010) (pFCH c) 1) c

theorem degrade_shows (s : State) (c : Nat) :
    bit (rd (degrade s c) (pFCH c) rSTATUS) 3 = false ∧ rd (degrade s c) (pFCH c) rIRQ_STATUS = rd s (pFCH c) rIRQ_STATUS := by
  have hstatus : rd (degrade s c) (pFCH c) rSTATUS = setBit (setBit (rd s (pFCH c) rSTATUS) 3 false) 4 true :=
    (rd_wr_otherOff _ _ _ (by decide)).trans ((rd_wrB_same _ _ _ _ _).trans (congrArg (setBit · 4 true) (rd_wrB_same _ _ _ _ _)))
  rw [hstatus, bit_setBit _ _ _ (by decide), if_neg (by decide), bit_setBit_same _ _ (by decide)]
  exact ⟨rfl, (rd_wr_otherOff _ _ _ (by decide)).trans ((rd_wr_otherOff _ _ _ (by decide)).trans (rd_wr_otherOff _ _ _ (by decide)))⟩

/-- The queued reads of a position go to rung 4 (R159). -/
def readsHanded (s : State) (d : Nat) : State :=
  if ((dieOf s d).readsA ++ (dieOf s d).readsB ++ (dieOf s d).readsC).isEmpty then s
  else ((dieOf s d).readsA ++ (dieOf s d).readsB ++ (dieOf s d).readsC).foldl handRung4 (putDie s d { dieOf s d with readsA := [], readsB := [], readsC := [] })

theorem trainingLoss_of_live {s : State} {c : Nat} (hd : bit (rd s (pFCH c) rSTATUS) 4 = false) (hf : chanFenced s c = false) :
    trainingLoss s c = fchEvent ((List.range 16).foldl (fun s i => readsHanded s (16 * c + i)) (channelDegraded s c)) c none := by
  unfold trainingLoss
  dsimp only
  rw [if_neg (by simp [hd, hf])]
  rfl

theorem readsHanded_upkeep (s : State) (d : Nat) : Upkeep s (readsHanded s d) := .ite .refl ((putDie_upkeep s _ _).trans (.foldl handRung4_upkeep _ _))

theorem readsHanded_background (s : State) (d : Nat) : Background s (readsHanded s d) := .ite (.refl s) ((putDie_background s _ _).trans (.foldl handRung4_background _ _))

theorem trainingLoss_shows {s : State} {c : Nat} (hd : bit (rd s (pFCH c) rSTATUS) 4 = false) (hf : chanFenced s c = false) :
    bit (rd (trainingLoss s c) (pFCH c) rSTATUS) 3 = false ∧ bit (rd (trainingLoss s c) (pFCH c) rIRQ_STATUS) 1 = true := by
  rw [trainingLoss_of_live hd hf]
  obtain ⟨htrained, hkept⟩ := degrade_shows (irq (setFault s (pFCH c) .transient (Config.blockCause 3) 0x0010) (pFCH c) 1) c
  rw [← channelDegraded] at htrained hkept
  have hirq : bit (rd (channelDegraded s c) (pFCH c) rIRQ_STATUS) 1 = true := by rw [hkept, rd_irq, bit_or, bit_oneBit (by decide), Bool.or_true]
  have hhanded : Upkeep (channelDegraded s c) ((List.range 16).foldl (fun s i => readsHanded s (16 * c + i)) (channelDegraded s c)) := .foldl (fun u i => readsHanded_upkeep u _) _ _
  have hraised : Background (channelDegraded s c) ((List.range 16).foldl (fun s i => readsHanded s (16 * c + i)) (channelDegraded s c)) := .foldl (fun u i => readsHanded_background u _) _ _
  exact ⟨untrained_fchEvent ((hhanded.status c (by decide)).trans htrained), (fchEvent_background _ c).raised _ 1 (hraised.raised _ 1 hirq)⟩

theorem runs_trainingCheck_sound {drift : List (Pos × Nat)} (elapsed : Nat) (hup : pageUp s (pFCH c.val) = true) (h : ¬ lossy s c.val drift) :
    Runs (.trainingCheck c elapsed drift) s fun t => t.com.time = (advance s elapsed).com.time ∧ t.fch = s.fch ∧ RegsKept [] s t :=
  runs_whenUp (v := advance s elapsed) rfl hup (trainingCheck_sound h) ⟨rfl, rfl, regsKept_of_eq [] rfl rfl⟩

theorem runs_trainingCheck_lossy {drift : List (Pos × Nat)} (elapsed : Nat) (hup : pageUp s (pFCH c.val) = true) (hf : chanFenced s c.val = false) (h : lossy s c.val drift)
    (hint : inF s (pFCH c.val) FCH_TRAIN_CTRL 15 0 ≠ 0) (hlim : inF s (pFCH c.val) FCH_TRAIN_CTRL 23 16 ≠ 0) (ht : bit (rd s (pFCH c.val) rSTATUS) 3 = true)
    (hd : bit (rd s (pFCH c.val) rSTATUS) 4 = false) :
    Runs (.trainingCheck c elapsed drift) s fun t => bit (rd t (pFCH c.val) rSTATUS) 3 = false ∧ bit (rd t (pFCH c.val) rIRQ_STATUS) 1 = true :=
  runs_whenUp (v := advance s elapsed) rfl hup (trainingCheck_lossy h hint hlim ht) (trainingLoss_shows hd hf)

/-! ### Retraining (R159) -/

/-- The attempt counted in IF_STATUS and in the bucket (R159, R178). -/
def attemptCounted (s : State) (c : Nat) : State := counted (wrF s (pFCH c) FCH_IF_STATUS 10 8 (rdF s (pFCH c) FCH_IF_STATUS 10 8 + 1)) (pFCH c)

/-- The channel is trained again (R159). -/
def retrained (s : State) (c : Nat) : State :=
  wrF (irq (wrB (wrB s (pFCH c) rSTATUS 3 true) (pFCH c) rSTATUS 4 false) (pFCH c) 2) (pFCH c) FCH_IF_STATUS 10 8 0

theorem rd_attemptCounted_status (s : State) (c : Nat) : rd (attemptCounted s c) (pFCH c) rSTATUS = rd s (pFCH c) rSTATUS :=
  (rd_wr_otherOff _ _ _ (by decide)).trans (rd_wr_otherOff _ _ _ (by decide))

theorem rd_attemptCounted_attempts (s : State) (c : Nat) :
    rd (attemptCounted s c) (pFCH c) FCH_IF_STATUS = setFld (rd s (pFCH c) FCH_IF_STATUS) 10 8 (rdF s (pFCH c) FCH_IF_STATUS 10 8 + 1) :=
  (rd_wr_otherOff _ _ _ (by decide)).trans (rd_wr_same _ _ _ _)

/-- An attempt of a degraded channel whose bucket is quiet: it trains the channel, or fences it when it was the last allowed (R159). -/
theorem retrainAttempt_of_degraded {s : State} {c : Nat} (passed : Bool) (hf : chanFenced s c = false) (hd : bit (rd s (pFCH c) rSTATUS) 4 = true) (hmax : transientMax s c ≠ 0)
    (hq : lbQuiet s (pFCH c) = true) :
    retrainAttempt s c passed = if passed then retrained (attemptCounted s c) c
      else if transientMax s c ≤ rdF s (pFCH c) FCH_IF_STATUS 10 8 + 1 then retireChannel (attemptCounted s c) c else attemptCounted s c := by
  have hev : fchEvent (wrF s (pFCH c) FCH_IF_STATUS 10 8 (rdF s (pFCH c) FCH_IF_STATUS 10 8 + 1)) c none = attemptCounted s c :=
    fchEvent_quiet ((lbQuiet_wr s _ _ (by decide)).trans hq)
  have hfenced : chanFenced (attemptCounted s c) c = false := by rw [chanFenced, rd_attemptCounted_status, ← chanFenced, hf]
  unfold retrainAttempt
  dsimp only
  rw [hev, if_neg (by simp [hd]), if_neg hmax, if_neg (by simp [hfenced])]
  rfl

theorem transientMax_lt (s : State) (c : Nat) : transientMax s c < 8 := fld_lt _ 2 0

section
variable (elapsed : Nat) (hup : pageUp s (pFCH c.val) = true) (hf : chanFenced s c.val = false) (hd : bit (rd s (pFCH c.val) rSTATUS) 4 = true) (hmax : transientMax s c.val ≠ 0)
  (hq : lbQuiet s (pFCH c.val) = true)
include hup hf hd hmax hq

theorem runs_retrainAttempt_passes : Runs (.retrainAttempt c elapsed true) s fun t =>
    bit (rd t (pFCH c.val) rSTATUS) 3 = true ∧ bit (rd t (pFCH c.val) rSTATUS) 4 = false ∧ bit (rd t (pFCH c.val) rIRQ_STATUS) 2 = true ∧ rdF t (pFCH c.val) FCH_IF_STATUS 10 8 = 0 := by
  refine runs_whenUp (v := advance s elapsed) rfl hup (retrainAttempt_of_degraded true hf hd hmax hq) ?_
  generalize attemptCounted (advance s elapsed) c.val = u
  have hstatus : rd (retrained u c.val) (pFCH c.val) rSTATUS = setBit (setBit (rd u (pFCH c.val) rSTATUS) 3 true) 4 false :=
    (rd_wr_otherOff _ _ _ (by decide)).trans ((rd_wr_otherOff _ _ _ (by decide)).trans ((rd_wrB_same _ _ _ _ _).trans (congrArg (setBit · 4 false) (rd_wrB_same _ _ _ _ _))))
  have htrained : bit (rd (retrained u c.val) (pFCH c.val) rSTATUS) 3 = true := by
    rw [hstatus, bit_setBit _ _ _ (by decide), if_neg (by decide), bit_setBit_same _ _ (by decide)]
  have hdegraded : bit (rd (retrained u c.val) (pFCH c.val) rSTATUS) 4 = false := by
    rw [hstatus, bit_setBit_same _ _ (by decide)]
  have hirq : bit (rd (retrained u c.val) (pFCH c.val) rIRQ_STATUS) 2 = true := by
    rw [show rd (retrained u c.val) (pFCH c.val) rIRQ_STATUS = _ from (rd_wr_otherOff _ _ _ (by decide)).trans (rd_irq _ _ _), bit_or, bit_oneBit (by decide), Bool.or_true]
  have hcount : rdF (retrained u c.val) (pFCH c.val) FCH_IF_STATUS 10 8 = 0 := by
    rw [rdF, retrained, wrF, rd_wr_same, fld_setFld_same _ _ (by decide)]
    rfl
  exact ⟨htrained, hdegraded, hirq, hcount⟩

theorem runs_retrainAttempt_fails (hn : rdF s (pFCH c.val) FCH_IF_STATUS 10 8 + 1 < transientMax s c.val) : Runs (.retrainAttempt c elapsed false) s fun t =>
    rdF t (pFCH c.val) FCH_IF_STATUS 10 8 = rdF s (pFCH c.val) FCH_IF_STATUS 10 8 + 1 ∧ bit (rd t (pFCH c.val) rSTATUS) 4 = true := by
  refine runs_whenUp (v := advance s elapsed) (u := attemptCounted (advance s elapsed) c.val) rfl hup ?_ ?_
  · exact (retrainAttempt_of_degraded (s := advance s elapsed) false hf hd hmax hq).trans ((if_neg (by decide)).trans (if_neg (Nat.not_le.mpr hn)))
  · have hlt := transientMax_lt s c.val
    have hcount : rdF (attemptCounted (advance s elapsed) c.val) (pFCH c.val) FCH_IF_STATUS 10 8 = rdF s (pFCH c.val) FCH_IF_STATUS 10 8 + 1 := by
      rw [rdF, rd_attemptCounted_attempts, fld_setFld_same _ _ (by decide)]
      exact Nat.mod_eq_of_lt (by change rdF s (pFCH c.val) FCH_IF_STATUS 10 8 + 1 < 8; omega)
    exact ⟨hcount, (congrArg (bit · 4) (rd_attemptCounted_status _ _)).trans hd⟩

theorem runs_retrainAttempt_last (hn : transientMax s c.val ≤ rdF s (pFCH c.val) FCH_IF_STATUS 10 8 + 1) : Runs (.retrainAttempt c elapsed false) s fun t => chanFenced t c.val = true := by
  refine runs_whenUp (v := advance s elapsed) (u := retireChannel (attemptCounted (advance s elapsed) c.val) c.val) rfl hup ?_ ?_
  · exact (retrainAttempt_of_degraded (s := advance s elapsed) false hf hd hmax hq).trans ((if_neg (by decide)).trans (if_pos hn))
  · exact chanFenced_retireChannel ((congrArg (bit · 1) (rd_attemptCounted_status _ _)).trans hf)

end

end

/-- Settles O23: start-up and training by the registers they write, a training loss through what its fold over the positions and the bucket's overflow leave of STATUS, and an attempt by its outcome. -/
theorem flashTraining : Obligations.FlashTraining := by
  unfold Obligations.FlashTraining
  intro s c answers eyes drift elapsed p lim loss n hup hf
  exact ⟨runs_channelStart answers hup hf, runs_channelTraining hup hf, runs_trainingCheck_sound elapsed hup, runs_trainingCheck_lossy elapsed hup hf,
    fun hd hmax hq => ⟨runs_retrainAttempt_passes elapsed hup hf hd hmax hq, runs_retrainAttempt_fails elapsed hup hf hd hmax hq, runs_retrainAttempt_last elapsed hup hf hd hmax hq⟩⟩

end Sys2Proof.Machine

/-! What the operations of a die's queue leave: dies and blocks after an update, the registers that a queue, a work unit and a hand-over to rung 4 move, counted failures, and FAULT (R52, R70, R160, R176, R178, R211). -/

namespace Sys2Proof.Machine

set_option Elab.async false

/-! ### The index of a die (R153) -/

theorem die_div (c : Chan) (pos : Pos) : (16 * c.val + pos.val) / 16 = c.val := by omega

theorem die_mod (c : Chan) (pos : Pos) : (16 * c.val + pos.val) % 16 = pos.val := by omega

theorem diePage_die (c : Chan) (pos : Pos) : diePage (16 * c.val + pos.val) = pFCH c.val := by rw [diePage, die_div]

/-! ### Registers -/

/-- The registers that show the die queues of a channel (R160). -/
theorem putDie_regs (s : State) (d : Nat) (x : Die) : RegsKept [(diePage d, FCH_QUEUE_STATUS), (diePage d, FCH_BUSY_MASK)] s (putDie s d x) := by
  unfold putDie refreshQueues
  extract_lets ds sum mask u
  have hpart : RegsKept [(diePage d, FCH_QUEUE_STATUS), (diePage d, FCH_BUSY_MASK)] s { s with fch := { s.fch with dies := s.fch.dies.putD d x Die.idle } } := regsKept_of_eq _ rfl rfl
  exact hpart.trans ((regsKept_wr _ _ (by decide) List.mem_cons_self).trans (regsKept_wr _ _ (by decide) (List.mem_cons_of_mem _ List.mem_cons_self)))

theorem finishUnit_regs (s : State) (p epoch : Nat) : RegsKept [(p, rSTATUS), (p, rSTAGE_STATUS)] s (finishUnit s p epoch) := by
  unfold finishUnit
  dsimp only
  split <;> exact setEpochs_regs s p _

/-- The end of a work unit changes the shared part alone (R70). -/
theorem finishUnit_frame (s : State) (p epoch : Nat) : (finishUnit s p epoch).fch = s.fch ∧ (finishUnit s p epoch).map = s.map := by
  unfold finishUnit
  dsimp only
  split <;> simp only [setEpochs_frame, and_self]

theorem logEvent_agree (s : State) (v : LogEvent) : State.AgreeOutside [] s (logEvent s v) := (State.AgreeOutside.refl _ s).logEvent v

theorem setFault_agree (s : State) (p : Nat) (c : FClass) (cause unit : Nat) : State.AgreeOutside [] s (setFault s p c cause unit) := (State.AgreeOutside.refl _ s).setFault p c cause unit

/-- The offsets of EVT lie outside the frame and are moved by no upkeep (R160). -/
theorem dieEvt_kept {s t : State} (h : Upkeep s t) (c : Nat) {pos : Nat} (hpos : pos < 16) (hi lo : Nat) :
    rdF t (pFCH c) (FCH_DIE_EVT + 4 * pos) hi lo = rdF s (pFCH c) (FCH_DIE_EVT + 4 * pos) hi lo := by
  refine congrArg (fld · hi lo) (h.kept c ?_ ?_ ?_)
  · unfold FCH_DIE_EVT
    omega
  · unfold FCH_DIE_EVT rSTATUS
    omega
  · simp only [channelMoving, rIRQ_STATUS, rFAULT, rLB_COUNT, rSTAGE_STATUS, FCH_QUEUE_STATUS, FCH_BUSY_MASK, FCH_LADDER_RECON, FCH_DIE_RETIRED, FCH_DIE_EVT, List.mem_cons, List.not_mem_nil, or_false]
    omega

theorem rdF_bumpF (s : State) (p off : Nat) {hi : Nat} (lo n : Nat) (hh : hi < 32) : rdF (bumpF s p off hi lo n) p off hi lo = satAdd (2 ^ (hi + 1 - lo) - 1) (rdF s p off hi lo) n := by
  have hlt : satAdd (2 ^ (hi + 1 - lo) - 1) (rdF s p off hi lo) n < 2 ^ (hi + 1 - lo) := by
    have := Nat.two_pow_pos (hi + 1 - lo)
    unfold satAdd
    omega
  rw [rdF, bumpF, wrF, rd_wr_same, fld_setFld_same _ _ hh, Nat.mod_eq_of_lt hlt]

/-- A counted failure of a position shows in its EVT field and in the page's interrupt (R178). -/
theorem failure_counted (s : State) (p : Nat) (pos hi lo i : Nat) (hh : hi < 32) (hi' : i < 32) :
    rdF (irq (bumpF s p (FCH_DIE_EVT + 4 * pos) hi lo 1) p i) p (FCH_DIE_EVT + 4 * pos) hi lo = satAdd (2 ^ (hi + 1 - lo) - 1) (rdF s p (FCH_DIE_EVT + 4 * pos) hi lo) 1
      ∧ bit (rd (irq (bumpF s p (FCH_DIE_EVT + 4 * pos) hi lo 1) p i) p rIRQ_STATUS) i = true := by
  constructor
  · rw [← rdF_bumpF s p _ lo 1 hh, rdF, irq, irqMask, rd_wr_otherOff, ← rdF]
    unfold FCH_DIE_EVT rIRQ_STATUS
    omega
  · rw [rd_irq, bit_or, bit_oneBit hi', Bool.or_true]

/-- FAULT after a fault of the page: its class and the unit (R52). -/
theorem rd_setFault (s : State) {p : Nat} (hp : p < 4096) (c : FClass) (cause unit : Nat) :
    fld (rd (setFault s p c cause unit) p rFAULT) 31 28 = c.code ∧ fld (rd (setFault s p c cause unit) p rFAULT) 15 0 = unit % 65536 := by
  refine ⟨(setFault_shows s hp c cause unit).1, ?_⟩
  have hlog := (logEvent_regs (writeFault s p c cause unit) { kind := kFAULT, cls := c.code, page := p, cause := cause, unit := unit } p rFAULT hp (by decide)
    (by simp [logRegs, rFAULT, FLT_LOG_LOST, rIRQ_STATUS])).1
  have hval : rd (writeFault s p c cause unit) p rFAULT = w32 (c.code * 2 ^ 28 + (cause % 4096) * 65536 + unit % 65536) := by
    unfold writeFault
    split
    · exact rd_wr_same _ _ _ _
    · exact (rd_wr_otherOff _ _ _ (by decide)).trans (rd_wr_same _ _ _ _)
  rw [setFault, hlog, hval, fld, w32, BitVec.toNat_ofNat, Nat.shiftRight_zero]
  omega

/-! ### Blocks (R211) -/

@[simp] theorem bstRaw_putBst_same (s : State) (d b : Nat) (e : Bst) : bstRaw (putBst s d b e) d b = e := Tab.getD_putD_same _ _ _ _

theorem bstOf_congr {s t : State} (hm : t.map = s.map) (hr : rd t pMAP MAP_JSEQ_DURABLE = rd s pMAP MAP_JSEQ_DURABLE) (d b : Nat) : bstOf t d b = bstOf s d b := by
  rw [bstOf, bstRaw, jDurable, hm, hr]
  rfl

theorem bstRaw_putDie (s : State) (d : Nat) (x : Die) (e b : Nat) : bstRaw (putDie s d x) e b = bstRaw s e b := by rw [bstRaw, (putDie_frame s d x).2.1, bstRaw]

/-- Settling an entry issues no erase. -/
theorem eraseIssued_settle (durable : Nat) (e : Bst) : (settle durable e).eraseIssued = e.eraseIssued := by
  have hfreeable (x : Bst) : (if freeableNow durable x then { x with state := .freeable } else x).eraseIssued = x.eraseIssued := by split <;> rfl
  unfold settle
  dsimp only
  rw [hfreeable]
  split
  · split <;> rfl
  · rfl

/-! ### Rung 4 -/

theorem dieOf_handRung4 (s : State) (j : ReadJob) (d : Nat) : dieOf (handRung4 s j) d = dieOf s d := by
  unfold handRung4
  dsimp only
  split <;> rfl

theorem rd_handRung4 (s : State) (j : ReadJob) (p : Nat) {o : Nat} (ho : o < 4096) (hne : o ≠ FCH_LADDER_RECON ∧ o ≠ rIRQ_STATUS) : rd (handRung4 s j) p o = rd s p o := by
  have hshown : rd (irq (bump s (diePage j.die) FCH_LADDER_RECON 1) (diePage j.die) 6) p o = rd s p o := by
    rw [irq, irqMask, rd_wr _ _ (by decide) ho, if_neg fun hn => hne.2 hn.2, bump, rd_wr _ _ (by decide) ho, if_neg fun hn => hne.1 hn.2]
  unfold handRung4
  dsimp only
  split <;> exact hshown

/-- Reads handed to rung 4 leave the dies and FAULT alone. -/
theorem foldl_handRung4 (l : List ReadJob) (s : State) (d p : Nat) : dieOf (l.foldl handRung4 s) d = dieOf s d ∧ rd (l.foldl handRung4 s) p rFAULT = rd s p rFAULT := by
  refine List.foldlRecOn (motive := fun u => dieOf u d = dieOf s d ∧ rd u p rFAULT = rd s p rFAULT) _ _ ⟨rfl, rfl⟩ fun u hu j _ => ?_
  rw [dieOf_handRung4, rd_handRung4 _ _ _ (by decide) (by decide)]
  exact hu

end Sys2Proof.Machine

/-! Die scheduling: the issue of reads, programs and erases, reads that wait too long, and suspension (R163 to R166). -/

namespace Sys2Proof.Machine

set_option Elab.async false

/-! ### Issue (R163 to R165) -/

/-- A die in service of a trained channel. -/
structure DieServes (s : State) (d : Nat) : Prop where
  retired : dieRetired s d = false
  trained : bit (rd s (diePage d) rSTATUS) 3 = true
  sound : bit (rd s (diePage d) rSTATUS) 4 = false

/-- A die that runs nothing, suspends nothing and is in no retry. -/
structure DieIdle (x : Die) : Prop where
  running : x.running = none
  suspended : x.suspended = none
  retry : x.retry = 0

section
variable {s : State} {d : Nat} (h : DieServes s d) (hi : DieIdle (dieOf s d))
include h hi

/-- An idle die takes its next read, else the head of its queue (R163, R164). -/
theorem dieIssue_idle : dieIssue s d = (nextRead? (dieOf s d)).elim (startWork s d) fun r => startRead s d r.1 { r.2 with batch := r.2.batch - 1 } := by
  have htrained : bit (rd s (pFCH (d / 16)) rSTATUS) 3 = true := h.trained
  have hsound : bit (rd s (pFCH (d / 16)) rSTATUS) 4 = false := h.sound
  unfold dieIssue
  dsimp only
  rw [if_neg (by simp [hi.running, hi.retry, htrained, hsound, h.retired]), if_pos (by simp [readAllowed, hi.suspended])]
  cases nextRead? (dieOf s d) with
  | none => exact if_neg (by simp [hi.suspended])
  | some r => rfl

theorem dieIssue_reads {j : ReadJob} {x : Die} (hn : nextRead? (dieOf s d) = some (j, x)) : dieIssue s d = startRead s d j { x with batch := x.batch - 1 } := by
  rw [dieIssue_idle h hi, hn, Option.elim_some]

theorem dieIssue_works (hn : nextRead? (dieOf s d) = none) : dieIssue s d = startWork s d := by rw [dieIssue_idle h hi, hn, Option.elim_none]

end

theorem dieOf_unpinBlock (s : State) (d b e : Nat) : dieOf (unpinBlock s d b) e = dieOf s e := dieOf_congr ((refreshPool_agree _).fch (by decide)) e

/-- A die that starts a read runs it from now on (R163, R171). -/
theorem startRead_runs (s : State) (d : Nat) (j : ReadJob) (x : Die) :
    ∃ j' levels, j'.id = j.id ∧ dieOf (startRead s d j x) d = { x with running := some ⟨.read j', s.com.time, 0⟩, levels := levels } := by
  unfold startRead
  extract_lets set j' u
  have hu : dieOf u d = { x with running := some ⟨.read j', s.com.time, 0⟩, levels := set } := dieOf_putDie_same _ _ _
  refine ⟨j', set, rfl, ?_⟩
  clear_value u
  split
  · rw [dieOf_unpinBlock, hu]
  · exact hu

theorem startWork_program {s : State} {d b pg n m : Nat} {rest : List Work} (hw : (dieOf s d).work = .program b pg n m :: rest) (ht : (dieOf s d).token = true) :
    startWork s d = putDie s d { dieOf s d with work := rest, running := some ⟨.work (.program b pg n m), s.com.time, 0⟩, token := false } := by
  simp only [startWork, hw, ht, Bool.not_true, Bool.false_eq_true, if_false]

theorem eraseIssue_head {s : State} {d b : Nat} {who : Initiator} {rest : List Work} (h : DieServes s d) (hi : DieIdle (dieOf s d)) (hw : (dieOf s d).work = .erase b who :: rest)
    (ht : (dieOf s d).token = true) : eraseIssue s d = issueErase s d b who { dieOf s d with work := rest } := by
  simp only [eraseIssue, startWork, hw, ht, hi.running, hi.suspended, hi.retry, h.sound, Option.isNone_none, decide_true, Bool.and_true, Bool.not_true, Bool.not_false, Bool.false_eq_true,
    if_true, if_false]

/-- The erase of a FREEABLE block runs and is marked issued (R165, R216). -/
theorem issueErase_freeable {s : State} {d b : Nat} (who : Initiator) (x : Die) (hstate : (bstOf s d b).state = .freeable) (hissued : (bstOf s d b).eraseIssued = false) :
    dieOf (issueErase s d b who x) d = { x with running := some ⟨.work (.erase b who), s.com.time, 0⟩, token := false } ∧ (bstOf (issueErase s d b who x) d b).eraseIssued = true := by
  unfold issueErase
  dsimp only
  rw [if_pos (by simp [hstate, hissued])]
  refine ⟨dieOf_putDie_same _ _ _, (eraseIssued_settle _ _).trans ?_⟩
  rw [bstRaw_putDie, bstRaw_putBst_same]

/-- What a refused erase leaves before it is recorded: the work unit has ended (R165). -/
def eraseDropped (s : State) (d : Nat) (x : Die) : State := finishUnit (putDie s d x) (diePage d) (epochNow s (diePage d))

/-- The erase of another block is dropped, with IRQ 5, and counted in ERASE_REFUSED (R165, R607). -/
theorem issueErase_refused {s : State} {d b : Nat} (who : Initiator) (x : Die) (hstate : (bstOf s d b).state ≠ .freeable) (hp : diePage d ≠ pMAP) :
    dieOf (issueErase s d b who x) d = x ∧ bit (rd (issueErase s d b who x) (diePage d) rIRQ_STATUS) 5 = true
      ∧ rd (issueErase s d b who x) pMAP MAP_ERASE_REFUSED = w32 (satAdd 0xFFFFFFFF (rd s pMAP MAP_ERASE_REFUSED).toNat 1) := by
  unfold issueErase
  dsimp only
  rw [if_neg (by simp [hstate]), ← eraseDropped]
  have hdie (v : LogEvent) : dieOf (logEvent (eraseDropped s d x) v) d = x := by
    rw [dieOf_congr ((logEvent_agree _ _).fch (by decide)), eraseDropped, dieOf_congr (finishUnit_frame _ _ _).1, dieOf_putDie_same]
  have hrefused (v : LogEvent) : rd (logEvent (eraseDropped s d x) v) pMAP MAP_ERASE_REFUSED = rd s pMAP MAP_ERASE_REFUSED := by
    rw [(logEvent_regs _ v _ _ (by decide) (by decide) (by decide)).1, eraseDropped, (finishUnit_regs _ _ _ _ _ (by decide) (by decide) (by simp [hp.symm])).1,
      (putDie_regs _ _ _ _ _ (by decide) (by decide) (by simp [hp.symm])).1]
  have hirq (u : State) : bit (rd (irq u (diePage d) 5) (diePage d) rIRQ_STATUS) 5 = true := by rw [rd_irq, bit_or, bit_oneBit (by decide), Bool.or_true]
  rw [dieOf_irq, dieOf_bump, dieOf_irq]
  refine ⟨hdie _, bit_irqStatus_irq _ _ ?_, ?_⟩
  · rw [bump, rd_wr _ _ (by decide) (by decide), if_neg fun hn => hp hn.1, hirq]
  · rw [irq, irqMask, rd_wr_otherOff _ _ _ (by decide), rd_bump, irq, irqMask, rd_wr _ _ (by decide) (by decide), if_neg fun hn => hp hn.1.symm, hrefused]

/-! ### Waiting and suspension (R163, R166) -/

/-- Has a read waited longer than READ_AGE? (R163) -/
def tooOld (s : State) (d : Nat) (j : ReadJob) : Bool := decide ((s.com.time - j.arrived).toNat > inF s (diePage d) FCH_READ_AGE 15 0 * 1000)

/-- A filter that drops what another keeps keeps all when the other keeps nothing. -/
theorem filter_not_of_empty {α : Type} {l : List α} {p : α → Bool} (h : l.filter p = []) : l.filter (fun a => !p a) = l := by
  rw [List.filter_eq_self]
  intro a ha
  simpa using List.filter_eq_nil_iff.mp h a ha

/-- The reads of classes B and C that have waited too long, as they join class A (R163). -/
def promotedReads (s : State) (d : Nat) : List ReadJob :=
  ((dieOf s d).readsB.filter (tooOld s d) ++ (dieOf s d).readsC.filter (tooOld s d)).map fun j : ReadJob => { j with promoted := true }

theorem agePromotion_eq {s : State} {d : Nat} (h : inF s (diePage d) FCH_READ_AGE 15 0 ≠ 0) :
    agePromotion s d = if (promotedReads s d).isEmpty then s else putDie s d { dieOf s d with
      readsA := (dieOf s d).readsA ++ promotedReads s d
      readsB := (dieOf s d).readsB.filter fun j => !tooOld s d j
      readsC := (dieOf s d).readsC.filter fun j => !tooOld s d j } := by
  unfold agePromotion
  dsimp only
  rw [if_neg h]
  rfl

theorem agePromotion_shows {s : State} {d : Nat} (h : inF s (diePage d) FCH_READ_AGE 15 0 ≠ 0) :
    (dieOf (agePromotion s d) d).readsA = (dieOf s d).readsA ++ promotedReads s d
      ∧ (dieOf (agePromotion s d) d).readsB = (dieOf s d).readsB.filter (fun j => !tooOld s d j)
      ∧ (dieOf (agePromotion s d) d).readsC = (dieOf s d).readsC.filter (fun j => !tooOld s d j) := by
  rw [agePromotion_eq h]
  split
  next hnone =>
    have hup : promotedReads s d = [] := List.isEmpty_iff.mp hnone
    obtain ⟨hb, hc⟩ := List.append_eq_nil_iff.mp (List.map_eq_nil_iff.mp hup)
    rw [hup, filter_not_of_empty hb, filter_not_of_empty hc]
    exact ⟨(List.append_nil _).symm, rfl, rfl⟩
  next => rw [dieOf_putDie_same]; exact ⟨rfl, rfl, rfl⟩

/-- The limits under which a running program or erase may be suspended (R166). -/
def maySuspend (s : State) (d : Nat) (w : Work) (since : Count) (n : Nat) : Prop :=
  match w with
  | .erase _ _ => n < inF s (diePage d) FCH_SCHED_CTRL 8 4 ∧ inF s (diePage d) FCH_SCHED_MIN_RUN 31 16 * 1000 ≤ (s.com.time - since).toNat
  | .program _ _ _ _ => n < inF s (diePage d) FCH_SCHED_CTRL 3 0 ∧ inF s (diePage d) FCH_SCHED_MIN_RUN 15 0 * 1000 ≤ (s.com.time - since).toNat

theorem dieSuspend_within {s : State} {d n : Nat} {w : Work} {since : Count} (hrun : (dieOf s d).running = some ⟨.work w, since, n⟩) (hretry : (dieOf s d).retry = 0)
    (hsound : bit (rd s (diePage d) rSTATUS) 4 = false) (hwait : ((dieOf s d).readsA ++ (dieOf s d).readsB ++ (dieOf s d).readsC).any suspendsOps = true)
    (hbatch : inF s (diePage d) FCH_SCHED_CTRL 12 9 ≠ 0) (hlim : maySuspend s d w since n) :
    dieSuspend s d = putDie s d { dieOf s d with running := none, suspended := some ⟨.work w, s.com.time, n + 1⟩, batch := inF s (diePage d) FCH_SCHED_CTRL 12 9, asking := false } := by
  have hgo {lim minRun : Nat} (hn : n < lim) (hmin : minRun * 1000 ≤ (s.com.time - since).toNat) :
      (((dieOf s d).readsA ++ (dieOf s d).readsB ++ (dieOf s d).readsC).any suspendsOps && decide (inF s (diePage d) FCH_SCHED_CTRL 12 9 ≠ 0) && decide (n < lim)
        && decide ((s.com.time - since).toNat ≥ minRun * 1000) && decide ((dieOf s d).retry = 0) && !bit (rd s (diePage d) rSTATUS) 4) = true := by
    simp only [Bool.and_eq_true, decide_eq_true_eq, Bool.not_eq_true']
    exact ⟨⟨⟨⟨⟨hwait, hbatch⟩, hn⟩, hmin⟩, hretry⟩, hsound⟩
  unfold dieSuspend
  simp only [hrun]
  cases w with
  | erase b who => exact if_pos (hgo hlim.1 hlim.2)
  | program b pg set m => exact if_pos (hgo hlim.1 hlim.2)

theorem dieResume_of_suspended {s : State} {d : Nat} {o : RunOp} (hsusp : (dieOf s d).suspended = some o) (hrun : (dieOf s d).running = none)
    (hend : (dieOf s d).batch = 0 ∨ nextRead? (dieOf s d) = none) :
    dieResume s d = if (dieOf s d).token then
        putDie s d { dieOf s d with running := some { o with since := s.com.time }, suspended := none, token := false, asking := false, batch := 0 }
      else putDie s d { dieOf s d with asking := true } := by
  unfold dieResume
  simp only [hsusp]
  rw [if_neg]
  rcases hend with h | h <;> simp [hrun, h]

end Sys2Proof.Machine

/-! The ends of the operations of a die, with their status failures (R168, R178, R212). -/

namespace Sys2Proof.Machine

set_option Elab.async false

section
variable {s : State} {d : Nat}

/-! ### Ends of operations (R168, R178) -/

/-- Without an armed injection no end is turned into a failure (R160). -/
theorem fchArmed_of_none {c : Nat} (h : (chanOf s c).inject = []) (pos code : Nat) : fchArmed s c pos code = false := by rw [fchArmed, h]; rfl

/-- The die runs nothing any more (R168). -/
def opEnded (s : State) (d : Nat) : State := putDie s d { dieOf s d with running := none, retry := 0 }

/-- The die runs nothing any more, and its work unit has ended (R70, R168). -/
def unitEnded (s : State) (d : Nat) : State := finishUnit (opEnded s d) (diePage d) (epochNow (opEnded s d) (diePage d))

theorem chanOf_opEnded (s : State) (d c : Nat) : chanOf (opEnded s d) c = chanOf s c := chanOf_putDie _ _ _ _

theorem dieOpComplete_read {o : RunOp} {j : ReadJob} (hrun : (dieOf s d).running = some o) (hjob : o.job = .read j) (hinj : (chanOf s (d / 16)).inject = []) (pass : Bool) :
    dieOpComplete s d pass = readDone (opEnded s d) j := by
  unfold dieOpComplete
  simp only [hrun, fchArmed_of_none hinj, Bool.false_eq_true, if_false, hjob]
  rfl

theorem dieOpComplete_program {o : RunOp} {b pg n m : Nat} (hrun : (dieOf s d).running = some o) (hjob : o.job = .work (.program b pg n m)) (hinj : (chanOf s (d / 16)).inject = [])
    (pass : Bool) : dieOpComplete s d pass = if pass then unitEnded s d else programStatusFail (unitEnded s d) d b := by
  have hinj' (x : Die) : (chanOf (putDie s d x) (d / 16)).inject = [] := by rw [chanOf_putDie, hinj]
  unfold dieOpComplete
  simp only [hrun, fchArmed_of_none hinj, fchArmed_of_none (hinj' _), Bool.false_eq_true, if_false, hjob, Bool.not_false, Bool.and_true]
  rfl

theorem dieOpComplete_erase {o : RunOp} {b : Nat} {who : Initiator} (hrun : (dieOf s d).running = some o) (hjob : o.job = .work (.erase b who)) (hinj : (chanOf s (d / 16)).inject = [])
    (pass : Bool) : dieOpComplete s d pass = refreshPool (if pass then eraseStatusPass (unitEnded s d) d b else eraseStatusFail (unitEnded s d) d b) := by
  have hinj' (x : Die) : (chanOf (putDie s d x) (d / 16)).inject = [] := by rw [chanOf_putDie, hinj]
  unfold dieOpComplete
  simp only [hrun, fchArmed_of_none hinj, fchArmed_of_none (hinj' _), Bool.false_eq_true, if_false, hjob, Bool.not_false, Bool.and_true]
  rfl

theorem unitEnded_upkeep (s : State) (d : Nat) : Upkeep s (unitEnded s d) ∧ (dieOf (unitEnded s d) d).running = none := by
  refine ⟨(putDie_upkeep s d _).trans (finishUnit_upkeep _ _ _), ?_⟩
  rw [unitEnded, dieOf_congr (finishUnit_frame _ _ _).1, opEnded, dieOf_putDie_same]

/-- The end of a work unit leaves the map and the registers of other pages alone. -/
theorem unitEnded_frame (s : State) (d : Nat) {p o : Nat} (hp : p < 0x100) (ho : o < 4096) : (unitEnded s d).map = s.map ∧ rd (unitEnded s d) p o = rd s p o := by
  have hpage : p ≠ diePage d := by unfold diePage pFCH; omega
  refine ⟨(finishUnit_frame _ _ _).2.trans (putDie_frame s d _).2.1, ?_⟩
  rw [unitEnded, (finishUnit_regs _ _ _ _ _ (by omega) ho (by simp [hpage])).1, opEnded, (putDie_regs _ _ _ _ _ (by omega) ho (by simp [hpage])).1]

/-- A read of rung 1 or 2 waits for the hard decoder in service (R170). -/
theorem readDone_waits {j : ReadJob} (hrung : j.rung < 3) (hdec : bit (rd s (pFCH (j.die / 16)) rSTATUS) 5 = false) :
    readDone s j = putChan s (j.die / 16) { chanOf s (j.die / 16) with decoding := (chanOf s (j.die / 16)).decoding ++ [j] } := by
  unfold readDone
  dsimp only
  rw [if_neg (by omega), if_neg (by simp [hdec])]

theorem retireBlock_background (s : State) (d b : Nat) : Background s (retireBlock s d b) :=
  .trans (.parts (issueBlockState_background s _ _ _ _) _ _ _ _ _) (refreshPool_background _)

theorem programStatusFail_shows (s : State) (d b : Nat) :
    rdF (programStatusFail s d b) (diePage d) (FCH_DIE_EVT + 4 * (d % 16)) 23 16 = satAdd 255 (rdF s (diePage d) (FCH_DIE_EVT + 4 * (d % 16)) 23 16) 1
      ∧ bit (rd (programStatusFail s d b) (diePage d) rIRQ_STATUS) 3 = true := by
  obtain ⟨hcount, hirq⟩ := failure_counted s (diePage d) (d % 16) 23 16 3 (by decide) (by decide)
  unfold programStatusFail
  extract_lets p u
  have hafter : Upkeep u (if (bstOf u d b).state = .retired then u else retireBlock u d b) := .ite .refl (retireBlock_upkeep u d b)
  have hraised : Background u (if (bstOf u d b).state = .retired then u else retireBlock u d b) := .ite (.refl u) (retireBlock_background u d b)
  exact ⟨(dieEvt_kept hafter _ (Nat.mod_lt _ (by decide)) 23 16).trans hcount, hraised.raised _ 3 hirq⟩

theorem eraseStatusFail_shows (s : State) (d b : Nat) :
    rdF (refreshPool (eraseStatusFail s d b)) (diePage d) (FCH_DIE_EVT + 4 * (d % 16)) 15 8 = satAdd 255 (rdF s (diePage d) (FCH_DIE_EVT + 4 * (d % 16)) 15 8) 1
      ∧ bit (rd (refreshPool (eraseStatusFail s d b)) (diePage d) rIRQ_STATUS) 4 = true := by
  obtain ⟨hcount, hirq⟩ := failure_counted s (diePage d) (d % 16) 15 8 4 (by decide) (by decide)
  unfold eraseStatusFail
  extract_lets p u v lim
  have hv : Upkeep u v := retireBlock_upkeep u d b
  have hv' : Background u v := retireBlock_background u d b
  exact ⟨(dieEvt_kept (.trans (.ite (hv.trans (retireDie_upkeep v d)) hv) (refreshPool_upkeep _)) _ (Nat.mod_lt _ (by decide)) 15 8).trans hcount,
    (Background.trans (.ite (hv'.trans (retireDie_background v d)) hv') (refreshPool_background _)).raised _ 4 hirq⟩

/-- The entry of a block whose erase has passed, before the new state is durable (R212). -/
def erasedBst (s : State) (d b : Nat) : Bst :=
  { bstOf s d b with
    eraseCount := min 0xFFFFF ((bstOf s d b).eraseCount + 1), eraseIssued := false, slc := false, relocate := false, live := 0
    changing := some (.free, ((rd s pMAP MAP_JSEQ_ISSUED).toNat + 1) % 2 ^ 32) }

theorem issueBlockState_agree (s : State) (d b : Nat) (st : BlockState) (upd : Bst → Bst) : State.AgreeOutside [.mapP] s (issueBlockState s d b st upd) :=
  .trans (jIssue_entries s _).1 (putBst_entries _ _ _ _).1

/-- A block whose state is issued shows the change (R211). -/
theorem bstRaw_issueBlockState (s : State) (d b : Nat) (st : BlockState) (upd : Bst → Bst) :
    bstRaw (issueBlockState s d b st upd) d b = { upd (bstOf s d b) with changing := some (st, ((rd s pMAP MAP_JSEQ_ISSUED).toNat + 1) % 2 ^ 32) } := bstRaw_putBst_same _ _ _ _

theorem refreshPool_shows (s : State) (d b : Nat) : dieOf (refreshPool s) d = dieOf s d ∧ bstRaw (refreshPool s) d b = bstRaw s d b := by
  rw [bstRaw, (refreshPool_agree s).map (by decide)]
  exact ⟨dieOf_congr ((refreshPool_agree s).fch (by decide)) d, rfl⟩

/-- A block whose erase passes is to become FREE, with one more erase (R212). -/
theorem eraseStatusPass_shows (s : State) (d b : Nat) : dieOf (eraseStatusPass s d b) d = dieOf s d ∧ bstRaw (eraseStatusPass s d b) d b = erasedBst s d b := by
  unfold eraseStatusPass
  extract_lets u
  have hdie : dieOf u d = dieOf s d := dieOf_congr ((issueBlockState_agree s d b _ _).fch (by decide)) d
  have hbst : bstRaw u d b = erasedBst s d b := (bstRaw_issueBlockState s d b .free _).trans (by rw [erasedBst])
  clear_value u
  exact ⟨hdie, hbst⟩

/-- The end of the work unit that erased a block bears on no field of its entry (R70, R212). -/
theorem erasedBst_unitEnded (s : State) (d b : Nat) : erasedBst (unitEnded s d) d b = erasedBst s d b := by
  obtain ⟨hmap, hissued⟩ := unitEnded_frame s d (p := pMAP) (o := MAP_JSEQ_ISSUED) (by decide) (by decide)
  obtain ⟨-, hdurable⟩ := unitEnded_frame s d (p := pMAP) (o := MAP_JSEQ_DURABLE) (by decide) (by decide)
  rw [erasedBst, bstOf_congr hmap hdurable, hissued, erasedBst]

end

end Sys2Proof.Machine

/-! The timeout of a die and its transient retries (R178, R180), and the commands of die scheduling (R163 to R168). -/

namespace Sys2Proof.Machine

set_option Elab.async false

section
variable {s : State} {d : Nat}

/-! ### Timeouts (R180) -/

/-- A die that begins its first retry, with the transient fault shown; its reads have left (R180). -/
def retryBegun (s : State) (d : Nat) : State :=
  putDie (setFault s (diePage d) .transient (Config.blockCause 4) (d % 16)) d { dieOf s d with retry := 1, readsA := [], readsB := [], readsC := [] }

theorem transientMax_setFault (s : State) (p : Nat) (c : FClass) (cause unit ch : Nat) : transientMax (setFault s p c cause unit) ch = transientMax s ch := by
  rw [transientMax, inF, inForce_setFault, ← inF, ← transientMax]

/-- A running die that is busy too long begins its first retry, and its waiting reads go to rung 4 (R180). -/
theorem dieTimeout_of_running {o : RunOp} (hrun : (dieOf s d).running = some o) (hretry : (dieOf s d).retry = 0) (hmax : transientMax s (d / 16) ≠ 0) :
    dieTimeout s d = ((dieOf s d).readsA ++ (dieOf s d).readsB ++ (dieOf s d).readsC).foldl handRung4 (retryBegun s d) := by
  have hfch := (setFault_agree s (pFCH (d / 16)) .transient (Config.blockCause 4) (d % 16)).fch (by decide)
  unfold dieTimeout dieTransient
  dsimp only
  rw [hrun, hretry, if_neg (by simp), dieOf_congr hfch, if_neg (by rwa [transientMax_setFault]), retryBegun, diePage]

theorem retryBegun_shows (s : State) (d : Nat) (hp : diePage d < 4096) :
    dieOf (retryBegun s d) d = { dieOf s d with retry := 1, readsA := [], readsB := [], readsC := [] } ∧ fld (rd (retryBegun s d) (diePage d) rFAULT) 31 28 = 3
      ∧ fld (rd (retryBegun s d) (diePage d) rFAULT) 15 0 = d % 16 := by
  obtain ⟨hclass, hunit⟩ := rd_setFault s hp .transient (Config.blockCause 4) (d % 16)
  have hkept (u : State) (x : Die) : rd (putDie u d x) (diePage d) rFAULT = rd u (diePage d) rFAULT := (putDie_regs u d x _ _ hp (by decide) (by simp [rFAULT, FCH_QUEUE_STATUS, FCH_BUSY_MASK])).1
  rw [retryBegun, hkept, dieOf_putDie_same, hclass, hunit]
  exact ⟨rfl, rfl, by omega⟩

/-! ### Transient retries (R178) -/

/-- A retry counted for its position and in the bucket (R178). -/
def retryCounted (s : State) (d : Nat) : State := counted (bumpF s (pFCH (d / 16)) (FCH_DIE_EVT + 4 * (d % 16)) 7 0 1) (pFCH (d / 16))

/-- A counted retry moves EVT of its position and LB_COUNT alone. -/
theorem rd_retryCounted (s : State) (d p : Nat) {o : Nat} (ho : o < FCH_DIE_EVT) (hc : o ≠ rLB_COUNT) : rd (retryCounted s d) p o = rd s p o := by
  have hevt : FCH_DIE_EVT + 4 * (d % 16) < 4096 := by unfold FCH_DIE_EVT; omega
  rw [retryCounted, counted, wrF, rd_wr _ _ (by decide) (by omega), if_neg fun hn => hc hn.2, bumpF, wrF, rd_wr _ _ hevt (by omega), if_neg fun hn => by omega]

/-- The first retry of a die in service ends when it is ready; else the next begins, or the die retires when it was the last (R178). -/
theorem transientRetry_first (ready : Bool) (hq : lbQuiet s (diePage d) = true) (hretry : (dieOf s d).retry = 1) (hd : dieRetired s d = false) :
    transientRetry s d ready = if ready then putDie (retryCounted s d) d { dieOf s d with retry := 0 }
      else if transientMax s (d / 16) ≤ 1 then retireDie (putDie (retryCounted s d) d { dieOf s d with retry := 0 }) d
      else putDie (retryCounted s d) d { dieOf s d with retry := 2 } := by
  have hevent : fchEvent s (d / 16) (some (d % 16)) = retryCounted s d := fchEvent_quiet_position _ hq
  have hfch : dieOf (retryCounted s d) d = dieOf s d := rfl
  have hmax : transientMax (retryCounted s d) (d / 16) = transientMax s (d / 16) := rfl
  have hserves : dieRetired (retryCounted s d) d = false := by rw [dieRetired, rd_retryCounted _ _ _ (by decide) (by decide), ← dieRetired, hd]
  unfold transientRetry
  dsimp only
  rw [hretry, if_neg (by decide), hevent, if_neg (by simp [hserves]), hfch]
  simp only [show ¬ 1 ≥ 2 by decide, if_false, hmax, ge_iff_le]

theorem evt_retryCounted (s : State) (d : Nat) :
    rdF (retryCounted s d) (pFCH (d / 16)) (FCH_DIE_EVT + 4 * (d % 16)) 7 0 = satAdd 255 (rdF s (pFCH (d / 16)) (FCH_DIE_EVT + 4 * (d % 16)) 7 0) 1 := by
  refine Eq.trans ?_ (rdF_bumpF s _ _ 0 1 (show 7 < 32 by decide))
  rw [rdF, retryCounted, counted, wrF, rd_wr_otherOff, ← rdF]
  unfold FCH_DIE_EVT rLB_COUNT
  omega

end

/-! ### The commands of die scheduling -/

/-- The die of a position (R153). -/
abbrev dieAt (c : Chan) (pos : Pos) : Nat := 16 * c.val + pos.val

section
variable {s : State} {c : Chan} {pos : Pos} (elapsed : Nat) (hup : pageUp s (pFCH c.val) = true)
include hup

section
variable (hs : DieServes s (dieAt c pos)) (hi : DieIdle (dieOf s (dieAt c pos)))
include hs hi

theorem runs_dieReadIssue_read {j : ReadJob} {y : Die} (hn : nextRead? (dieOf s (dieAt c pos)) = some (j, y)) : Runs (.dieReadIssue c pos elapsed) s fun t =>
    (∃ j', (dieOf t (dieAt c pos)).running = some ⟨.read j', (advance s elapsed).com.time, 0⟩ ∧ j'.id = j.id) ∧ (dieOf t (dieAt c pos)).readsA = y.readsA
      ∧ (dieOf t (dieAt c pos)).readsB = y.readsB ∧ (dieOf t (dieAt c pos)).readsC = y.readsC := by
  have hstart : dieIssue (advance s elapsed) (dieAt c pos) = startRead (advance s elapsed) (dieAt c pos) j { y with batch := y.batch - 1 } :=
    dieIssue_reads (s := advance s elapsed) ⟨hs.retired, hs.trained, hs.sound⟩ hi hn
  obtain ⟨j', levels, hid, hx⟩ := startRead_runs (advance s elapsed) (dieAt c pos) j { y with batch := y.batch - 1 }
  refine runs_whenUp (v := advance s elapsed) rfl hup hstart ?_
  rw [dieOf_confine, hx]
  exact ⟨⟨j', rfl, hid⟩, rfl, rfl, rfl⟩

theorem runs_dieReadIssue_program {b pg n m : Nat} {rest : List Work} (hn : nextRead? (dieOf s (dieAt c pos)) = none) (hw : (dieOf s (dieAt c pos)).work = .program b pg n m :: rest)
    (ht : (dieOf s (dieAt c pos)).token = true) : Runs (.dieReadIssue c pos elapsed) s fun t =>
      (dieOf t (dieAt c pos)).running = some ⟨.work (.program b pg n m), (advance s elapsed).com.time, 0⟩ ∧ (dieOf t (dieAt c pos)).work = rest ∧ (dieOf t (dieAt c pos)).token = false := by
  have hstart := (dieIssue_works (s := advance s elapsed) ⟨hs.retired, hs.trained, hs.sound⟩ hi hn).trans (startWork_program (s := advance s elapsed) hw ht)
  refine runs_whenUp (v := advance s elapsed) rfl hup hstart ?_
  rw [dieOf_confine, dieOf_putDie_same]
  exact ⟨rfl, rfl, rfl⟩

theorem runs_eraseIssue_freeable {b : Nat} {who : Initiator} {rest : List Work} (hw : (dieOf s (dieAt c pos)).work = .erase b who :: rest) (ht : (dieOf s (dieAt c pos)).token = true)
    (hstate : (bstOf s (dieAt c pos) b).state = .freeable) (hissued : (bstOf s (dieAt c pos) b).eraseIssued = false) : Runs (.eraseIssue c pos) s fun t =>
      (dieOf t (dieAt c pos)).running = some ⟨.work (.erase b who), s.com.time, 0⟩ ∧ (dieOf t (dieAt c pos)).work = rest ∧ (bstOf t (dieAt c pos) b).eraseIssued = true := by
  obtain ⟨hx, hb⟩ := issueErase_freeable (s := s) who { dieOf s (dieAt c pos) with work := rest } hstate hissued
  refine runs_whenUp rfl hup (eraseIssue_head hs hi hw ht) ?_
  rw [dieOf_confine, hx]
  exact ⟨rfl, rfl, hb⟩

theorem runs_eraseIssue_refused {b : Nat} {who : Initiator} {rest : List Work} (hw : (dieOf s (dieAt c pos)).work = .erase b who :: rest) (ht : (dieOf s (dieAt c pos)).token = true)
    (hstate : (bstOf s (dieAt c pos) b).state ≠ .freeable) : Runs (.eraseIssue c pos) s fun t =>
      (dieOf t (dieAt c pos)).running = none ∧ (dieOf t (dieAt c pos)).work = rest ∧ bit (rd t (pFCH c.val) rIRQ_STATUS) 5 = true
        ∧ rd t pMAP MAP_ERASE_REFUSED = w32 (satAdd 0xFFFFFFFF (rd s pMAP MAP_ERASE_REFUSED).toNat 1) := by
  have hpage : diePage (dieAt c pos) = pFCH c.val := diePage_die c pos
  obtain ⟨hx, hirq, hcount⟩ := issueErase_refused (s := s) who { dieOf s (dieAt c pos) with work := rest } hstate (by rw [hpage]; unfold pFCH pMAP; omega)
  refine runs_whenUp rfl hup (eraseIssue_head hs hi hw ht) ?_
  rw [dieOf_confine, hx, (rd_confine ..).1, (rd_confine ..).1, ← hpage]
  exact ⟨hi.running, rfl, hirq, hcount⟩

end

theorem runs_readAgePromotion (hage : inF s (pFCH c.val) FCH_READ_AGE 15 0 ≠ 0) : Runs (.readAgePromotion c pos elapsed) s fun t =>
    (dieOf t (dieAt c pos)).readsA = (dieOf s (dieAt c pos)).readsA ++ promotedReads (advance s elapsed) (dieAt c pos)
      ∧ (dieOf t (dieAt c pos)).readsB = (dieOf s (dieAt c pos)).readsB.filter (fun j => !tooOld (advance s elapsed) (dieAt c pos) j)
      ∧ (dieOf t (dieAt c pos)).readsC = (dieOf s (dieAt c pos)).readsC.filter (fun j => !tooOld (advance s elapsed) (dieAt c pos) j) := by
  refine runs_whenUp (v := advance s elapsed) rfl hup rfl ?_
  rw [dieOf_confine]
  exact agePromotion_shows (s := advance s elapsed) (by rwa [diePage_die])

theorem runs_dieSuspend {w : Work} {since : Count} {n : Nat} (hsound : bit (rd s (pFCH c.val) rSTATUS) 4 = false) (hrun : (dieOf s (dieAt c pos)).running = some ⟨.work w, since, n⟩)
    (hretry : (dieOf s (dieAt c pos)).retry = 0)
    (hwait : ((dieOf s (dieAt c pos)).readsA ++ (dieOf s (dieAt c pos)).readsB ++ (dieOf s (dieAt c pos)).readsC).any suspendsOps = true)
    (hbatch : inF s (pFCH c.val) FCH_SCHED_CTRL 12 9 ≠ 0) (hlim : maySuspend (advance s elapsed) (dieAt c pos) w since n) : Runs (.dieSuspend c pos elapsed) s fun t =>
      (dieOf t (dieAt c pos)).running = none ∧ (dieOf t (dieAt c pos)).suspended = some ⟨.work w, (advance s elapsed).com.time, n + 1⟩
        ∧ (dieOf t (dieAt c pos)).batch = inF s (pFCH c.val) FCH_SCHED_CTRL 12 9 := by
  have hpage : diePage (dieAt c pos) = pFCH c.val := diePage_die c pos
  rw [← hpage] at hsound hbatch ⊢
  refine runs_whenUp (v := advance s elapsed) rfl hup (dieSuspend_within (s := advance s elapsed) hrun hretry hsound hwait hbatch hlim) ?_
  rw [dieOf_confine, dieOf_putDie_same]
  exact ⟨rfl, rfl, rfl⟩

section
variable {o : RunOp} (hsusp : (dieOf s (dieAt c pos)).suspended = some o) (hrun : (dieOf s (dieAt c pos)).running = none)
  (hend : (dieOf s (dieAt c pos)).batch = 0 ∨ nextRead? (dieOf s (dieAt c pos)) = none)
include hsusp hrun hend

theorem runs_dieResume_token (ht : (dieOf s (dieAt c pos)).token = true) : Runs (.dieResume c pos elapsed) s fun t =>
    (dieOf t (dieAt c pos)).running = some { o with since := (advance s elapsed).com.time } ∧ (dieOf t (dieAt c pos)).suspended = none ∧ (dieOf t (dieAt c pos)).token = false := by
  refine runs_whenUp (v := advance s elapsed) rfl hup ((dieResume_of_suspended (s := advance s elapsed) hsusp hrun hend).trans (if_pos ht)) ?_
  rw [dieOf_confine, dieOf_putDie_same]
  exact ⟨rfl, rfl, rfl⟩

theorem runs_dieResume_asks (ht : (dieOf s (dieAt c pos)).token = false) : Runs (.dieResume c pos elapsed) s fun t =>
    (dieOf t (dieAt c pos)).suspended = some o ∧ (dieOf t (dieAt c pos)).asking = true := by
  refine runs_whenUp (v := advance s elapsed) rfl hup ((dieResume_of_suspended (s := advance s elapsed) hsusp hrun hend).trans (if_neg (Bool.eq_false_iff.mp ht))) ?_
  rw [dieOf_confine, dieOf_putDie_same]
  exact ⟨hsusp, rfl⟩

end

section
variable {o : RunOp} (hrun : (dieOf s (dieAt c pos)).running = some o) (hinj : (chanOf s c.val).inject = [])
include hrun hinj

theorem runs_dieOpComplete_read {j : ReadJob} (hjob : o.job = .read j) (hdie : j.die = dieAt c pos) (hrung : j.rung < 3) (hdec : bit (rd s (pFCH c.val) rSTATUS) 5 = false) :
    Runs (.dieOpComplete c pos elapsed true) s fun t => (dieOf t (dieAt c pos)).running = none ∧ (chanOf t c.val).decoding = (chanOf s c.val).decoding ++ [j] := by
  have hchan : j.die / 16 = c.val := by rw [hdie]; exact die_div c pos
  have hdec' : bit (rd (opEnded (advance s elapsed) (dieAt c pos)) (pFCH c.val) rSTATUS) 5 = false := ((putDie_upkeep _ _ _).status c.val (by decide)).trans hdec
  refine runs_whenUp (v := advance s elapsed) rfl hup
    ((dieOpComplete_read (s := advance s elapsed) hrun hjob (by rwa [die_div]) true).trans (readDone_waits hrung (by rwa [hchan]))) ?_
  rw [dieOf_confine, chanOf_confine, dieOf_putChan, hchan, chanOf_putChan_same, chanOf_opEnded, opEnded, dieOf_putDie_same]
  exact ⟨rfl, rfl⟩

theorem runs_dieOpComplete_program {b pg n m : Nat} (hjob : o.job = .work (.program b pg n m)) :
    (Runs (.dieOpComplete c pos elapsed true) s fun t => (dieOf t (dieAt c pos)).running = none
      ∧ rdF t (pFCH c.val) (FCH_DIE_EVT + 4 * pos.val) 23 16 = rdF s (pFCH c.val) (FCH_DIE_EVT + 4 * pos.val) 23 16)
    ∧ (Runs (.dieOpComplete c pos elapsed false) s fun t =>
      rdF t (pFCH c.val) (FCH_DIE_EVT + 4 * pos.val) 23 16 = satAdd 255 (rdF s (pFCH c.val) (FCH_DIE_EVT + 4 * pos.val) 23 16) 1 ∧ bit (rd t (pFCH c.val) rIRQ_STATUS) 3 = true) := by
  have heq := dieOpComplete_program (s := advance s elapsed) hrun hjob (by rwa [die_div])
  obtain ⟨hkept, hnone⟩ := unitEnded_upkeep (advance s elapsed) (dieAt c pos)
  generalize unitEnded (advance s elapsed) (dieAt c pos) = u at heq hkept hnone
  have hevt := dieEvt_kept hkept c.val pos.isLt 23 16
  obtain ⟨hcount, hirq⟩ := programStatusFail_shows u (dieAt c pos) b
  rw [diePage_die, die_mod, hevt] at hcount
  rw [diePage_die] at hirq
  generalize programStatusFail u (dieAt c pos) b = v at heq hcount hirq
  constructor
  · refine runs_whenUp (v := advance s elapsed) rfl hup ((heq true).trans (if_pos rfl)) ?_
    rw [dieOf_confine, rdF_confine]
    exact ⟨hnone, hevt⟩
  · refine runs_whenUp (v := advance s elapsed) rfl hup ((heq false).trans (if_neg (by decide))) ?_
    rw [rdF_confine, (rd_confine ..).1]
    exact ⟨hcount, hirq⟩

section
variable {b : Nat} {who : Initiator} (hjob : o.job = .work (.erase b who))
include hjob

theorem runs_dieOpComplete_erased : Runs (.dieOpComplete c pos elapsed true) s fun t => (dieOf t (dieAt c pos)).running = none
    ∧ (bstRaw t (dieAt c pos) b).changing = some (.free, ((rd s pMAP MAP_JSEQ_ISSUED).toNat + 1) % 2 ^ 32)
    ∧ (bstRaw t (dieAt c pos) b).eraseCount = min 0xFFFFF ((bstOf s (dieAt c pos) b).eraseCount + 1) := by
  have heq := (dieOpComplete_erase (s := advance s elapsed) hrun hjob (by rwa [die_div]) true).trans (congrArg refreshPool (if_pos rfl))
  have hnone := (unitEnded_upkeep (advance s elapsed) (dieAt c pos)).2
  obtain ⟨hdie, hbst⟩ := eraseStatusPass_shows (unitEnded (advance s elapsed) (dieAt c pos)) (dieAt c pos) b
  rw [erasedBst_unitEnded] at hbst
  generalize eraseStatusPass (unitEnded (advance s elapsed) (dieAt c pos)) (dieAt c pos) b = u at heq hdie hbst
  obtain ⟨hdie', hbst'⟩ := refreshPool_shows u (dieAt c pos) b
  rw [hdie] at hdie'
  rw [hbst] at hbst'
  generalize refreshPool u = v at heq hdie' hbst'
  refine runs_whenUp (v := advance s elapsed) rfl hup heq ?_
  rw [dieOf_confine, bstRaw_confine, hdie', hbst']
  exact ⟨hnone, rfl, rfl⟩

theorem runs_dieOpComplete_eraseFailed : Runs (.dieOpComplete c pos elapsed false) s fun t =>
    rdF t (pFCH c.val) (FCH_DIE_EVT + 4 * pos.val) 15 8 = satAdd 255 (rdF s (pFCH c.val) (FCH_DIE_EVT + 4 * pos.val) 15 8) 1 ∧ bit (rd t (pFCH c.val) rIRQ_STATUS) 4 = true := by
  have heq := (dieOpComplete_erase (s := advance s elapsed) hrun hjob (by rwa [die_div]) false).trans (congrArg refreshPool (if_neg (by decide)))
  obtain ⟨hcount, hirq⟩ := eraseStatusFail_shows (unitEnded (advance s elapsed) (dieAt c pos)) (dieAt c pos) b
  rw [diePage_die, die_mod, dieEvt_kept (unitEnded_upkeep (advance s elapsed) (dieAt c pos)).1 c.val pos.isLt 15 8] at hcount
  rw [diePage_die] at hirq
  generalize refreshPool (eraseStatusFail (unitEnded (advance s elapsed) (dieAt c pos)) (dieAt c pos) b) = u at heq hcount hirq
  refine runs_whenUp (v := advance s elapsed) rfl hup heq ?_
  rw [rdF_confine, (rd_confine ..).1]
  exact ⟨hcount, hirq⟩

end

end

theorem runs_dieTimeout {o : RunOp} (hrun : (dieOf s (dieAt c pos)).running = some o) (hretry : (dieOf s (dieAt c pos)).retry = 0) (hmax : transientMax s c.val ≠ 0) :
    Runs (.dieTimeout c pos) s fun t => (dieOf t (dieAt c pos)).retry = 1 ∧ (dieOf t (dieAt c pos)).readsA = [] ∧ (dieOf t (dieAt c pos)).readsB = []
      ∧ (dieOf t (dieAt c pos)).readsC = [] ∧ fld (rd t (pFCH c.val) rFAULT) 31 28 = 3 ∧ fld (rd t (pFCH c.val) rFAULT) 15 0 = pos.val := by
  obtain ⟨hdie, hclass, hunit⟩ := retryBegun_shows s (dieAt c pos) (by rw [diePage_die]; exact pFCH_lt c)
  obtain ⟨hkept, hfault⟩ := foldl_handRung4 ((dieOf s (dieAt c pos)).readsA ++ (dieOf s (dieAt c pos)).readsB ++ (dieOf s (dieAt c pos)).readsC) (retryBegun s (dieAt c pos)) (dieAt c pos) (pFCH c.val)
  rw [diePage_die, ← hfault] at hclass hunit
  rw [die_mod] at hunit
  refine runs_whenUp rfl hup (dieTimeout_of_running hrun hretry (by rwa [die_div])) ?_
  rw [dieOf_confine, hkept, hdie]
  exact ⟨rfl, rfl, rfl, rfl, hclass, hunit⟩

section
variable (hq : lbQuiet s (pFCH c.val) = true) (hretry : (dieOf s (dieAt c pos)).retry = 1) (hd : dieRetired s (dieAt c pos) = false)
include hq hretry hd

theorem runs_transientRetry_ready : Runs (.fchTransientRetry c pos elapsed true) s fun t =>
    (dieOf t (dieAt c pos)).retry = 0 ∧ rdF t (pFCH c.val) (FCH_DIE_EVT + 4 * pos.val) 7 0 = satAdd 255 (rdF s (pFCH c.val) (FCH_DIE_EVT + 4 * pos.val) 7 0) 1 := by
  have hcount := evt_retryCounted (advance s elapsed) (dieAt c pos)
  rw [die_div, die_mod] at hcount
  have hevt (x : Die) := dieEvt_kept (putDie_upkeep (retryCounted (advance s elapsed) (dieAt c pos)) (dieAt c pos) x) c.val pos.isLt 7 0
  refine runs_whenUp (v := advance s elapsed) rfl hup ((transientRetry_first (s := advance s elapsed) true (by rwa [diePage_die]) hretry hd).trans (if_pos rfl)) ?_
  rw [dieOf_confine, dieOf_putDie_same, rdF_confine, hevt]
  exact ⟨rfl, hcount⟩

theorem runs_transientRetry_next (hmax : 1 < transientMax s c.val) : Runs (.fchTransientRetry c pos elapsed false) s fun t => (dieOf t (dieAt c pos)).retry = 2 := by
  refine runs_whenUp (v := advance s elapsed) rfl hup ((transientRetry_first (s := advance s elapsed) false (by rwa [diePage_die]) hretry hd).trans
    ((if_neg (by decide)).trans (if_neg (by rw [die_div]; exact Nat.not_le.mpr hmax)))) ?_
  rw [dieOf_confine, dieOf_putDie_same]

theorem runs_transientRetry_last (hf : chanFenced s c.val = false) (hmax : transientMax s c.val ≤ 1) : Runs (.fchTransientRetry c pos elapsed false) s fun t =>
    dieRetired t (dieAt c pos) = true := by
  have hlive (x : Die) : chanFenced (putDie (retryCounted (advance s elapsed) (dieAt c pos)) (dieAt c pos) x) (dieAt c pos / 16) = false := by
    rw [chanFenced, (putDie_upkeep _ _ _).status _ (by decide), rd_retryCounted _ _ _ (by decide) (by decide), die_div]
    exact hf
  refine runs_whenUp (v := advance s elapsed) rfl hup ((transientRetry_first (s := advance s elapsed) false (by rwa [diePage_die]) hretry hd).trans
    ((if_neg (by decide)).trans (if_pos (by rw [die_div]; exact hmax)))) ?_
  rw [dieRetired_confine]
  exact dieRetired_retireDie (hlive _)

end

end

/-- Settles O24: each command's operation on a die in service, by what it does to the die, and the ends of operations through what upkeep leaves of EVT, IRQ_STATUS and the block's entry. -/
theorem flashDieScheduling : Obligations.FlashDieScheduling := by
  unfold Obligations.FlashDieScheduling
  intro s c pos elapsed d p x now evt old hup hd hf htrained hsound hinj
  have hpage : diePage (dieAt c pos) = pFCH c.val := diePage_die c pos
  have hs : DieServes s (dieAt c pos) := ⟨hd, by rwa [hpage], by rwa [hpage]⟩
  refine ⟨fun hrun hsusp hretry => ?_, fun hage => ?_, fun w since n hrun hretry hwait hbatch hlim => ?_, fun o hsusp hrun hend => ?_, fun o hrun => ?_, fun hretry hq => ?_⟩
  · have hi : DieIdle (dieOf s (dieAt c pos)) := ⟨hrun, hsusp, hretry⟩
    exact ⟨fun j y hn => runs_dieReadIssue_read elapsed hup hs hi hn, fun b pg n m rest hn hw ht => runs_dieReadIssue_program elapsed hup hs hi hn hw ht,
      fun b who rest hw ht => ⟨fun hstate hissued => runs_eraseIssue_freeable hup hs hi hw ht hstate hissued, fun hstate => runs_eraseIssue_refused hup hs hi hw ht hstate⟩⟩
  · have hold : tooOld (advance s elapsed) (dieAt c pos) = old := by
      funext j
      rw [tooOld, hpage]
      rfl
    have hpromoted := runs_readAgePromotion (pos := pos) elapsed hup hage
    rw [promotedReads, hold] at hpromoted
    exact hpromoted
  · refine runs_dieSuspend elapsed hup hsound hrun hretry hwait hbatch ?_
    cases w <;> rw [maySuspend, hpage] <;> exact hlim
  · exact ⟨fun ht => runs_dieResume_token elapsed hup hsusp hrun hend ht, fun ht => runs_dieResume_asks elapsed hup hsusp hrun hend ht⟩
  · exact ⟨fun j hjob hdie hrung hdec => runs_dieOpComplete_read elapsed hup hrun hinj hjob hdie hrung hdec, fun b pg n m hjob => runs_dieOpComplete_program elapsed hup hrun hinj hjob,
      fun b who hjob => ⟨runs_dieOpComplete_erased elapsed hup hrun hinj hjob, runs_dieOpComplete_eraseFailed elapsed hup hrun hinj hjob⟩,
      fun hretry hmax => runs_dieTimeout hup hrun hretry hmax⟩
  · exact ⟨runs_transientRetry_ready elapsed hup hq hretry hd, runs_transientRetry_next elapsed hup hq hretry hd, runs_transientRetry_last elapsed hup hq hretry hd hf⟩

end Sys2Proof.Machine

/-! The read-recovery ladder: codewords that a decoder passes or fails, and its budget (R170, R172, R176). -/

namespace Sys2Proof.Machine

set_option Elab.async false

/-! ### Codewords that pass (R176) -/

/-- A register counts one event (R4). -/
def CountsOnce (s t : State) (p o : Nat) : Prop := rd t p o = w32 (satAdd 0xFFFFFFFF (rd s p o).toNat 1)

theorem countsOnce_bump (s : State) (p o : Nat) : CountsOnce s (bump s p o 1) p o := rd_bump s p o 1

theorem CountsOnce.kept {s t u : State} {p o : Nat} (h : CountsOnce s t p o) (hk : rd u p o = rd t p o) : CountsOnce s u p o := hk.trans h

theorem CountsOnce.since {s t u : State} {p o : Nat} (h : CountsOnce t u p o) (hk : rd t p o = rd s p o) : CountsOnce s u p o := by rwa [CountsOnce, hk] at h

section
variable (s : State) (j : ReadJob) (data : Option (List Byte))

/-- A codeword that is delivered is ready for its owner (R176). -/
theorem deliverCodeword_fch : (deliverCodeword s j data).fch = { s.fch with ready := s.fch.ready ++ [(j, data)] } := (finishUnit_frame _ _ _).1

theorem ready_deliverCodeword : (deliverCodeword s j data).fch.ready = s.fch.ready ++ [(j, data)] := by rw [deliverCodeword_fch]

theorem chanOf_deliverCodeword (c : Nat) : chanOf (deliverCodeword s j data) c = chanOf s c := by rw [chanOf, deliverCodeword_fch, chanOf]

theorem dieOf_deliverCodeword (d : Nat) : dieOf (deliverCodeword s j data) d = dieOf s d := by rw [dieOf, deliverCodeword_fch, dieOf]

/-- The delivery moves no register but the two of its epochs (R70). -/
theorem rd_deliverCodeword {p o : Nat} (hp : p < 4096) (ho : o < 4096) (hne : o ≠ rSTATUS ∧ o ≠ rSTAGE_STATUS) : rd (deliverCodeword s j data) p o = rd s p o :=
  (finishUnit_regs { s with fch := { s.fch with ready := s.fch.ready ++ [(j, data)] } } (diePage j.die) j.epoch p o hp ho (by simp [hne])).1

/-- The delivery moves no register of another page (R70). -/
theorem rd_deliverCodeword_page {p o : Nat} (hp : p < 4096) (ho : o < 4096) (hne : p ≠ diePage j.die) : rd (deliverCodeword s j data) p o = rd s p o :=
  (finishUnit_regs { s with fch := { s.fch with ready := s.fch.ready ++ [(j, data)] } } (diePage j.die) j.epoch p o hp ho (by simp [hne])).1

end

/-- The registers and the die after a codeword passed at rung 2, before its block is marked (R171, R176). -/
def retryPassed (s : State) (j : ReadJob) : State :=
  putDie (bumpSince (bump s (diePage j.die) FCH_LADDER_RETRY 1) (diePage j.die) FCH_SNAP_LADDER 1) j.die { dieOf s j.die with hint := j.set }

/-- The block of a codeword that took a late retry set is marked for relocation (R176). -/
def retryMarked (s : State) (j : ReadJob) : State :=
  if inF s pMAP MAP_RELOC_RETRY 3 0 < 8 ∧ j.set.elim 0 id ≥ inF s pMAP MAP_RELOC_RETRY 3 0 then markRelocate s j.die j.block else s

theorem retryMarked_frame (s : State) (j : ReadJob) : (retryMarked s j).fch = s.fch ∧ (retryMarked s j).com = s.com := by
  unfold retryMarked
  split <;> exact ⟨rfl, rfl⟩

section
variable (s : State) {j : ReadJob} (bytes : List Byte)

theorem ladderPass_third (hr : j.rung = 3) : ladderPass s j bytes =
    deliverCodeword (markRelocate (bumpSince (bump s (diePage j.die) FCH_LADDER_SOFT 1) (diePage j.die) FCH_SNAP_LADDER (2 ^ 32)) j.die j.block) j (some bytes) := by
  unfold ladderPass
  simp only [hr]

/-- A codeword that passes at rung 3 moves the registers of its channel's page alone. -/
theorem rd_ladderPass_soft (hr : j.rung = 3) {p o : Nat} (hp : p < 4096) (ho : o < 4096) (hne : p ≠ diePage j.die) : rd (ladderPass s j bytes) p o = rd s p o := by
  rw [ladderPass_third s bytes hr]
  exact (rd_deliverCodeword_page _ _ _ hp ho hne).trans ((rd_wr _ _ (by decide) ho).trans (if_neg fun hn => hne hn.1))

variable (hp : diePage j.die < 4096)
include hp

theorem ladderPass_hard (hr : j.rung = 1) : (ladderPass s j bytes).fch.ready = s.fch.ready ++ [(j, some bytes)] ∧ CountsOnce s (ladderPass s j bytes) (diePage j.die) FCH_LADDER_HARD
    ∧ (chanOf (ladderPass s j bytes) (j.die / 16)).decoding = (chanOf s (j.die / 16)).decoding := by
  have heq : ladderPass s j bytes = deliverCodeword (putChan (bump s (diePage j.die) FCH_LADDER_HARD 1) (j.die / 16) { chanOf s (j.die / 16) with streak := [] }) j (some bytes) := by
    unfold ladderPass
    simp only [hr]
  rw [heq, ready_deliverCodeword, chanOf_deliverCodeword, chanOf_putChan_same]
  exact ⟨rfl, (countsOnce_bump s (diePage j.die) FCH_LADDER_HARD).kept (rd_deliverCodeword _ _ _ hp (by decide) (by decide)), rfl⟩

theorem ladderPass_retry (hr : j.rung = 2) : (ladderPass s j bytes).fch.ready = s.fch.ready ++ [(j, some bytes)] ∧ CountsOnce s (ladderPass s j bytes) (diePage j.die) FCH_LADDER_RETRY
    ∧ (dieOf (ladderPass s j bytes) j.die).hint = j.set := by
  have heq : ladderPass s j bytes = deliverCodeword (retryMarked (retryPassed s j) j) j (some bytes) := by
    unfold ladderPass
    simp only [hr]
    rfl
  obtain ⟨hfch, hcom⟩ := retryMarked_frame (retryPassed s j) j
  have hcount : rd (retryPassed s j) (diePage j.die) FCH_LADDER_RETRY = rd (bump s (diePage j.die) FCH_LADDER_RETRY 1) (diePage j.die) FCH_LADDER_RETRY :=
    (putDie_regs _ _ _ _ _ hp (by decide) (by simp [FCH_LADDER_RETRY, FCH_QUEUE_STATUS, FCH_BUSY_MASK])).1.trans (rd_bumpSince ..).1
  have hregs : rd (retryMarked (retryPassed s j) j) (diePage j.die) FCH_LADDER_RETRY = rd (retryPassed s j) (diePage j.die) FCH_LADDER_RETRY :=
    rd_congr (congrArg Common.regs hcom) (congrArg Common.chip hcom) _ _
  rw [heq, ready_deliverCodeword, dieOf_deliverCodeword, dieOf_congr hfch, hfch, retryPassed, dieOf_putDie_same, (putDie_frame _ _ _).1, ← retryPassed]
  exact ⟨rfl, (countsOnce_bump s (diePage j.die) FCH_LADDER_RETRY).kept ((rd_deliverCodeword _ _ _ hp (by decide) (by decide)).trans (hregs.trans hcount)), rfl⟩

theorem ladderPass_soft (hr : j.rung = 3) : (ladderPass s j bytes).fch.ready = s.fch.ready ++ [(j, some bytes)] ∧ CountsOnce s (ladderPass s j bytes) (diePage j.die) FCH_LADDER_SOFT := by
  rw [ladderPass_third s bytes hr, ready_deliverCodeword]
  exact ⟨rfl, (countsOnce_bump s (diePage j.die) FCH_LADDER_SOFT).kept (rd_deliverCodeword _ _ _ hp (by decide) (by decide))⟩

end

/-! ### The hard decoder (R170, R176) -/

/-- A codeword has left the hard decoder of a channel. -/
def decoderLeft (s : State) (c id : Nat) : State := putChan s c { chanOf s c with decoding := (chanOf s c).decoding.filter fun x => x.id != id }

theorem chanOf_decoderLeft (s : State) (c id : Nat) : chanOf (decoderLeft s c id) c = { chanOf s c with decoding := (chanOf s c).decoding.filter fun x => x.id != id } := chanOf_putChan_same _ _ _

theorem inject_decoderLeft {s : State} {c : Nat} {j : ReadJob} (id : Nat) (hc : j.die / 16 = c) (hinj : (chanOf s c).inject = []) :
    (chanOf (decoderLeft s c id) (j.die / 16)).inject = [] := by
  rw [hc, chanOf_decoderLeft]
  exact hinj

/-- The codeword that goes to rung 2 with the next retry set (R176). -/
abbrev nextTry (j : ReadJob) (weight k : Nat) : ReadJob := { j with best := betterOf j weight, rung := 2, set := some k }

/-- A hard failure at the position of a die joins its channel's streak (R158). -/
def streakGrown (s : State) (d : Nat) : State := putChan s (d / 16) { chanOf s (d / 16) with streak := ((d % 16) :: (chanOf s (d / 16)).streak).take 4 }

/-- A streak of less than four failures loses no training (R158). -/
theorem hardFailure_short {s : State} {d : Nat} (h : (chanOf s (d / 16)).streak.length < 3) : hardFailure s d = streakGrown s d := by
  unfold hardFailure
  dsimp only
  refine if_neg fun hlong => ?_
  have := hlong.1
  simp only [List.length_take, List.length_cons] at this
  omega

theorem hardDecodeDone_of_found {s : State} {c id : Nat} {j : ReadJob} (h : ((chanOf s c).decoding.find? fun x => x.id == id) = some j) (pass : Bool) (weight : Nat) (bytes : List Byte) :
    hardDecodeDone s c id pass weight bytes = hardResult (decoderLeft s c id) j pass weight bytes := by
  unfold hardDecodeDone
  simp only [h]
  rfl

section
variable {s : State} {j : ReadJob} (hinj : (chanOf s (j.die / 16)).inject = []) (weight : Nat) (bytes : List Byte)
include hinj

theorem hardResult_passes : hardResult s j true weight bytes = ladderPass s j bytes := by
  unfold hardResult
  simp only [fchArmed_of_none hinj, Bool.false_eq_true, if_false, Bool.not_false, Bool.and_true, if_true]

/-- A codeword that fails at rung 1, when its failures in a row lose no training, is read again with the next retry set (R158, R176). -/
theorem hardResult_retries {k : Nat} (hr : j.rung = 1) (hstreak : (chanOf s (j.die / 16)).streak.length < 3) (hd : dieRetired s j.die = false)
    (hsound : bit (rd s (pFCH (j.die / 16)) rSTATUS) 4 = false) (hn : nextSet? s j = some k) :
    hardResult s j false weight bytes = requeueHead (streakGrown s j.die) (nextTry j weight k) := by
  have hnext : nextSet? (streakGrown s j.die) { j with best := betterOf j weight } = some k := hn
  have hserves : dieRetired (streakGrown s j.die) j.die = false := hd
  have hup : bit (rd (streakGrown s j.die) (pFCH (j.die / 16)) rSTATUS) 4 = false := hsound
  unfold hardResult
  simp only [fchArmed_of_none hinj, Bool.false_eq_true, if_false, Bool.false_and, if_pos hr, hardFailure_short hstreak, hserves, hup, Bool.or_false, hnext]

end

/-- A read of class A that is read again heads the queue of its class (R163, R176). -/
theorem readsA_requeueHead (s : State) {j : ReadJob} (hcls : j.cls = .a) : (dieOf (requeueHead s j) j.die).readsA = j :: (dieOf s j.die).readsA := by
  unfold requeueHead
  dsimp only
  rw [dieOf_putDie_same, if_pos (by simp [hcls])]

/-! ### The budget (R176) -/

theorem handRung4_shows (s : State) (j : ReadJob) : (handRung4 s j).fch.recon = s.fch.recon ++ [{ j with rung := 4 }] ∧ CountsOnce s (handRung4 s j) (diePage j.die) FCH_LADDER_RECON := by
  have hcount : CountsOnce s (irq (bump s (diePage j.die) FCH_LADDER_RECON 1) (diePage j.die) 6) (diePage j.die) FCH_LADDER_RECON :=
    (countsOnce_bump s _ _).kept (rd_wr_otherOff _ _ _ (by decide))
  unfold handRung4
  dsimp only
  split <;> exact ⟨rfl, hcount⟩

theorem toRung4_unarmed {s : State} {j : ReadJob} (hinj : (chanOf s (j.die / 16)).inject = []) : toRung4 s j = handRung4 s j := by
  unfold toRung4
  dsimp only
  rw [fchArmed_of_none hinj]
  rfl

/-- A codeword in the decoder whose ladder time has reached the budget goes to the stripe engine (R176). -/
theorem budgetExpiry_of_found {s : State} {c id : Nat} {j : ReadJob} (h : ((chanOf s c).decoding.find? fun x => x.id == id) = some j) (hc : j.die / 16 = c)
    (hinj : (chanOf s c).inject = []) (hbudget : inF s (pFCH c) FCH_LADDER_CTRL 31 16 ≠ 0) (hlate : inF s (pFCH c) FCH_LADDER_CTRL 31 16 * 1000 ≤ (s.com.time - j.arrived).toNat) :
    budgetExpiry s c id = handRung4 (decoderLeft s c id) j := by
  have htake : takeJob s c id = (decoderLeft s c id, some j) := by
    unfold takeJob
    simp only [h]
    rfl
  unfold budgetExpiry
  simp only [if_neg hbudget, htake, ge_iff_le, if_pos hlate]
  exact toRung4_unarmed (inject_decoderLeft id hc hinj)

/-! ### The commands of a channel's decoder -/

section
variable {s : State} {c : Chan} {j : ReadJob} {id : Nat} (hc : j.die / 16 = c.val) (hinj : (chanOf s c.val).inject = []) (hup : pageUp s (pFCH c.val) = true)
  (hfound : ((chanOf s c.val).decoding.find? fun x => x.id == id) = some j) (weight : Nat) (bytes : List Byte)
include hc hinj hup hfound

theorem runs_hardDecodeDone_first (hr : j.rung = 1) : Runs (.hardDecodeDone c id true weight bytes) s fun t =>
    t.fch.ready = s.fch.ready ++ [(j, some bytes)] ∧ CountsOnce s t (pFCH c.val) FCH_LADDER_HARD ∧ (chanOf t c.val).decoding = (chanOf s c.val).decoding.filter fun x => x.id != id := by
  have hpage : diePage j.die = pFCH c.val := by rw [diePage, hc]
  have hleft := inject_decoderLeft id hc hinj
  have heq := (hardDecodeDone_of_found hfound true weight bytes).trans (hardResult_passes hleft weight bytes)
  obtain ⟨hready, hcount, hdecoding⟩ := ladderPass_hard (decoderLeft s c.val id) bytes (by rw [hpage]; exact pFCH_lt c) hr
  rw [hc, chanOf_decoderLeft] at hdecoding
  rw [hpage] at hcount
  generalize ladderPass (decoderLeft s c.val id) j bytes = u at heq hready hcount hdecoding
  refine runs_whenUp rfl hup heq ?_
  rw [fch_confine, chanOf_confine, hdecoding]
  exact ⟨hready, hcount.kept (rd_confine ..).1, rfl⟩

theorem runs_hardDecodeDone_second (hr : j.rung = 2) : Runs (.hardDecodeDone c id true weight bytes) s fun t =>
    t.fch.ready = s.fch.ready ++ [(j, some bytes)] ∧ CountsOnce s t (pFCH c.val) FCH_LADDER_RETRY ∧ (dieOf t j.die).hint = j.set := by
  have hpage : diePage j.die = pFCH c.val := by rw [diePage, hc]
  have hleft := inject_decoderLeft id hc hinj
  have heq := (hardDecodeDone_of_found hfound true weight bytes).trans (hardResult_passes hleft weight bytes)
  obtain ⟨hready, hcount, hhint⟩ := ladderPass_retry (decoderLeft s c.val id) bytes (by rw [hpage]; exact pFCH_lt c) hr
  rw [hpage] at hcount
  generalize ladderPass (decoderLeft s c.val id) j bytes = u at heq hready hcount hhint
  refine runs_whenUp rfl hup heq ?_
  rw [fch_confine, dieOf_confine]
  exact ⟨hready, hcount.kept (rd_confine ..).1, hhint⟩

theorem runs_hardDecodeDone_fails {k : Nat} (hr : j.rung = 1) (hcls : j.cls = .a) (hstreak : (chanOf s c.val).streak.length < 3) (hd : dieRetired s j.die = false)
    (hsound : bit (rd s (pFCH c.val) rSTATUS) 4 = false) (hn : nextSet? s j = some k) : Runs (.hardDecodeDone c id false weight bytes) s fun t =>
      (dieOf t j.die).readsA = nextTry j weight k :: (dieOf s j.die).readsA := by
  have hleft := inject_decoderLeft id hc hinj
  have hshort : (chanOf (decoderLeft s c.val id) (j.die / 16)).streak.length < 3 := by rw [hc, chanOf_decoderLeft]; exact hstreak
  have heq := (hardDecodeDone_of_found hfound false weight bytes).trans (hardResult_retries hleft weight bytes hr hshort hd (by rw [hc]; exact hsound) hn)
  refine runs_whenUp rfl hup heq ?_
  rw [dieOf_confine]
  exact readsA_requeueHead (streakGrown (decoderLeft s c.val id) j.die) (j := nextTry j weight k) hcls

theorem runs_ladderBudgetExpiry (elapsed : Nat) (hbudget : inF s (pFCH c.val) FCH_LADDER_CTRL 31 16 ≠ 0)
    (hlate : inF s (pFCH c.val) FCH_LADDER_CTRL 31 16 * 1000 ≤ ((advance s elapsed).com.time - j.arrived).toNat) : Runs (.ladderBudgetExpiry c id elapsed) s fun t =>
      t.fch.recon = s.fch.recon ++ [{ j with rung := 4 }] ∧ CountsOnce s t (pFCH c.val) FCH_LADDER_RECON := by
  have heq := budgetExpiry_of_found (s := advance s elapsed) hfound hc hinj hbudget hlate
  obtain ⟨hrecon, hcount⟩ := handRung4_shows (decoderLeft (advance s elapsed) c.val id) j
  rw [diePage, hc] at hcount
  generalize handRung4 (decoderLeft (advance s elapsed) c.val id) j = u at heq hrecon hcount
  refine runs_whenUp (v := advance s elapsed) rfl hup heq ?_
  rw [fch_confine]
  exact ⟨hrecon, hcount.kept (rd_confine ..).1⟩

end

end Sys2Proof.Machine

/-! The soft decoder pool and the self-check of the decoders (R172, R175). -/

namespace Sys2Proof.Machine

set_option Elab.async false

/-! ### The pool (R172) -/

/-- The registers that show the pool. -/
def poolRegs : List (Nat × Nat) := [(pLDS, LDS_QUEUE_DEPTH), (pLDS, LDS_DEC_BUSY)]

theorem refreshPoolQueue_shows (s : State) : (refreshPoolQueue s).fch = s.fch ∧ RegsKept poolRegs s (refreshPoolQueue s) := by
  constructor
  · simp only [refreshPoolQueue, wr_frame]
  · exact (regsKept_wr _ _ (by decide) List.mem_cons_self).trans (regsKept_wr _ _ (by decide) (List.mem_cons_of_mem _ List.mem_cons_self))

/-- Jobs that move into idle decoders touch the pool's queues and its registers alone (R172). -/
theorem feedPool_shows (s : State) : (feedPool s).fch.ready = s.fch.ready ∧ (feedPool s).fch.recon = s.fch.recon ∧ RegsKept poolRegs s (feedPool s) := by
  unfold feedPool
  generalize hfed : (idleDecoders s).foldl _ s = u
  have hmoved : u.fch.ready = s.fch.ready ∧ u.fch.recon = s.fch.recon ∧ u.com = s.com := by
    rw [← hfed]
    refine List.foldlRecOn (motive := fun u : State => u.fch.ready = s.fch.ready ∧ u.fch.recon = s.fch.recon ∧ u.com = s.com) _ _ ⟨rfl, rfl, rfl⟩ fun u hu n _ => ?_
    split <;> exact hu
  obtain ⟨hready, hrecon, hcom⟩ := hmoved
  obtain ⟨hfch, hregs⟩ := refreshPoolQueue_shows u
  rw [hfch]
  exact ⟨hready, hrecon, (regsKept_of_eq poolRegs (congrArg Common.regs hcom) (congrArg Common.chip hcom)).trans hregs⟩

/-- The soft decoder has no job any more. -/
def softLeft (s : State) (n : Nat) : State := { s with fch := { s.fch with soft := s.fch.soft.del n } }

section
variable {s : State} {n : Nat} {j : ReadJob} (hjob : s.fch.soft.get? n = some ⟨j, false⟩) (harm : s.fch.ldsInject.get? n = none) (weight : Nat) (bytes : List Byte)
include hjob harm

/-- A job that passes is delivered, and the pool fed (R172). -/
theorem softDecodeDone_passes (hinj : (chanOf s (j.die / 16)).inject = []) : softDecodeDone s n true weight bytes = feedPool (ladderPass (bump (softLeft s n) pLDS LDS_SOFT_OK 1) j bytes) := by
  have hfree : fchArmed (softLeft s n) (j.die / 16) (j.die % 16) 2 = false := fchArmed_of_none hinj _ _
  have hnone : ((none : Option Nat) == some 1) = false := rfl
  unfold softDecodeDone
  simp only [hjob, harm, hnone, Bool.false_eq_true, if_false, Bool.not_false, Bool.true_and]
  rw [if_pos (by rw [← softLeft, hfree]; rfl), ← softLeft]

/-- A job that fails in three-bit mode has no mode left (R172, R176). -/
theorem softDecodeDone_fails (h3 : j.threeBits = true) : softDecodeDone s n false weight bytes = feedPool (toRung4 (bump (softLeft s n) pLDS LDS_SOFT_FAIL 1) j) := by
  have hnone : ((none : Option Nat) == some 1) = false := rfl
  unfold softDecodeDone
  simp only [hjob, harm, hnone, h3, Bool.false_eq_true, if_false, Bool.false_and, Bool.not_true]
  rw [← softLeft]

end

section
variable {s : State} {c : Chan} {dec : Fin 8} {j : ReadJob} (hc : j.die / 16 = c.val) (hinj : (chanOf s c.val).inject = []) (hup : pageUp s pLDS = true)
  (hjob : s.fch.soft.get? dec.val = some ⟨j, false⟩) (harm : s.fch.ldsInject.get? dec.val = none) (weight : Nat) (bytes : List Byte)
include hc hinj hup hjob harm

theorem runs_softDecodeJobDone_passes (hr : j.rung = 3) : Runs (.softDecodeJobDone dec true weight bytes) s fun t =>
    t.fch.ready = s.fch.ready ++ [(j, some bytes)] ∧ CountsOnce s t pLDS LDS_SOFT_OK ∧ CountsOnce s t (pFCH c.val) FCH_LADDER_SOFT := by
  have hpage : diePage j.die = pFCH c.val := by rw [diePage, hc]
  have heq := softDecodeDone_passes hjob harm weight bytes (by rw [hc]; exact hinj)
  obtain ⟨hready, hcount⟩ := ladderPass_soft (bump (softLeft s dec.val) pLDS LDS_SOFT_OK 1) bytes (by rw [hpage]; exact pFCH_lt c) hr
  have hother : pLDS ≠ pFCH c.val := by unfold pLDS pFCH; omega
  have hkept := rd_ladderPass_soft (bump (softLeft s dec.val) pLDS LDS_SOFT_OK 1) bytes hr (p := pLDS) (o := LDS_SOFT_OK) (by decide) (by decide) (by rwa [hpage])
  rw [hpage] at hcount
  have hsoft := hcount.since (s := s) ((rd_wr _ _ (by decide) (by decide)).trans (if_neg fun hn => hother hn.1.symm))
  generalize ladderPass (bump (softLeft s dec.val) pLDS LDS_SOFT_OK 1) j bytes = u at heq hready hsoft hkept
  obtain ⟨hfed, -, hregs⟩ := feedPool_shows u
  have hok := (countsOnce_bump (softLeft s dec.val) pLDS LDS_SOFT_OK).kept (((hregs _ _ (by decide) (by decide) (by decide)).1).trans hkept)
  have hladder := hsoft.kept (hregs _ _ (pFCH_lt c) (by decide) (by simp [poolRegs, hother.symm])).1
  generalize feedPool u = v at heq hfed hok hladder
  refine runs_whenUp rfl hup heq ?_
  rw [fch_confine]
  exact ⟨hfed.trans hready, hok.kept (rd_confine ..).1, hladder.kept (rd_confine ..).1⟩

theorem runs_softDecodeJobDone_fails (h3 : j.threeBits = true) : Runs (.softDecodeJobDone dec false weight bytes) s fun t =>
    t.fch.recon = s.fch.recon ++ [{ j with rung := 4 }] ∧ CountsOnce s t pLDS LDS_SOFT_FAIL := by
  have heq := softDecodeDone_fails hjob harm weight bytes h3
  rw [toRung4_unarmed (by rw [hc]; exact hinj)] at heq
  obtain ⟨hrecon, -⟩ := handRung4_shows (bump (softLeft s dec.val) pLDS LDS_SOFT_FAIL 1) j
  have hkept := rd_handRung4 (bump (softLeft s dec.val) pLDS LDS_SOFT_FAIL 1) j pLDS (o := LDS_SOFT_FAIL) (by decide) (by decide)
  generalize handRung4 (bump (softLeft s dec.val) pLDS LDS_SOFT_FAIL 1) j = u at heq hrecon hkept
  obtain ⟨-, hfed, hregs⟩ := feedPool_shows u
  have hcount := (countsOnce_bump (softLeft s dec.val) pLDS LDS_SOFT_FAIL).kept (((hregs _ _ (by decide) (by decide) (by decide)).1).trans hkept)
  generalize feedPool u = v at heq hfed hcount
  refine runs_whenUp rfl hup heq ?_
  rw [fch_confine]
  exact ⟨hfed.trans hrecon, hcount.kept (rd_confine ..).1⟩

end

/-! ### Self-check (R175) -/

theorem selfCheck_right (s : State) (who : DecoderId) : selfCheck s who true = s := by
  unfold selfCheck
  split <;> exact (congrArg (ite _ s) (if_pos rfl)).trans (ite_self s)

/-- A retirement record moves the registers of the log alone. -/
theorem logRetire_regs (s : State) (p cause unit : Nat) : RegsKept logRegs s (logRetire s p cause unit) :=
  (logEvent_regs s _).trans (regsKept_wr _ _ (by decide) (List.mem_cons_of_mem _ List.mem_cons_self))

theorem runs_selfCheck_right (s : State) (who : DecoderId) : Runs (.decoderSelfCheck who true) s fun t => t.fch = s.fch ∧ RegsKept [] s t :=
  runs_of_effect (ps := flashParts) rfl (selfCheck_right s who) ⟨rfl, regsKept_of_eq [] rfl rfl⟩

/-- FAULT and the log after a unit has retired, whose bit shows it (R52, R175). -/
def retirementShown (s : State) (p o i cause unit : Nat) : State :=
  logRetire (setFault (wrB s p o i true) p .permanent (Config.blockCause cause) unit) p (Config.blockCause cause) unit

theorem retireHardDecoder_empty {s : State} {c : Nat} (h : (chanOf s c).decoding = []) : ∃ x, retireHardDecoder s c = putChan (retirementShown s (pFCH c) rSTATUS 5 5 0x11) c x := by
  have hkept : chanOf (retirementShown s (pFCH c) rSTATUS 5 5 0x11) c = chanOf s c :=
    chanOf_congr (((State.AgreeOutside.refl [] s).wr _ _ _ |>.setFault _ _ _ _ |>.logRetire _ _ _).fch (by decide)) c
  unfold retireHardDecoder
  dsimp only
  rw [← retirementShown, hkept, h]
  exact ⟨_, rfl⟩

/-- A hard decoder that retires shows in STATUS and FAULT (R175). -/
theorem retirementShown_hard (s : State) (c : Chan) : bit (rd (retirementShown s (pFCH c.val) rSTATUS 5 5 0x11) (pFCH c.val) rSTATUS) 5 = true
    ∧ fld (rd (retirementShown s (pFCH c.val) rSTATUS 5 5 0x11) (pFCH c.val) rFAULT) 31 28 = 4 ∧ fld (rd (retirementShown s (pFCH c.val) rSTATUS 5 5 0x11) (pFCH c.val) rFAULT) 15 0 = 0x11 := by
  obtain ⟨hclass, hunit⟩ := rd_setFault (wrB s (pFCH c.val) rSTATUS 5 true) (pFCH_lt c) .permanent (Config.blockCause 5) 0x11
  have hkept := (logRetire_regs (setFault (wrB s (pFCH c.val) rSTATUS 5 true) (pFCH c.val) .permanent (Config.blockCause 5) 0x11) (pFCH c.val) (Config.blockCause 5) 0x11
    (pFCH c.val) rFAULT (pFCH_lt c) (by decide) (by simp [logRegs, rFAULT, FLT_LOG_LOST, rIRQ_STATUS])).1
  refine ⟨?_, ?_⟩
  · rw [retirementShown, (logRetire_upkeep _ _ _ _).status _ (by decide), (setFault_upkeep _ _ _ _ _).status _ (by decide), rd_wrB_same, bit_setBit_same _ _ (by decide)]
  · rw [retirementShown, hkept, hclass, hunit]
    exact ⟨rfl, rfl⟩

theorem runs_selfCheck_hard {s : State} {c : Chan} (hint : inF s (pFCH c.val) FCH_TRAIN_CTRL 15 0 ≠ 0) (hdec : bit (rd s (pFCH c.val) rSTATUS) 5 = false)
    (hempty : (chanOf s c.val).decoding = []) (hup : pageUp s (pFCH c.val) = true) (hf : chanFenced s c.val = false) : Runs (.decoderSelfCheck (.hard c) false) s fun t =>
      bit (rd t (pFCH c.val) rSTATUS) 5 = true ∧ fld (rd t (pFCH c.val) rFAULT) 31 28 = 4 ∧ fld (rd t (pFCH c.val) rFAULT) 15 0 = 0x11 := by
  obtain ⟨x, hretire⟩ := retireHardDecoder_empty hempty
  have heq : selfCheck s (.hard c) false = putChan (retirementShown s (pFCH c.val) rSTATUS 5 5 0x11) c.val x := by
    rw [← hretire]
    unfold selfCheck
    dsimp only
    rw [if_neg (by simp [hint, hdec, hempty, hup, hf]), if_neg (by decide)]
  have hshown := retirementShown_hard s c
  generalize retirementShown s (pFCH c.val) rSTATUS 5 5 0x11 = u at heq hshown
  exact runs_of_effect (ps := flashParts) rfl heq hshown

theorem retireSoftDecoder_idle {s : State} {n : Nat} (h : s.fch.soft.get? n = none) :
    retireSoftDecoder s n = feedPool (irq (retirementShown s pLDS LDS_DEC_RETIRED n 6 n) pLDS 0) := by
  have hkept : (irq (retirementShown s pLDS LDS_DEC_RETIRED n 6 n) pLDS 0).fch = s.fch :=
    ((State.AgreeOutside.refl [] s).wr _ _ _ |>.setFault _ _ _ _ |>.logRetire _ _ _ |>.irq _ _).fch (by decide)
  unfold retireSoftDecoder
  dsimp only
  rw [← retirementShown, hkept, h]

/-- A soft decoder that retires shows in DEC_RETIRED and in the interrupt of the pool (R175). -/
theorem retireSoftDecoder_shows {s : State} {dec : Fin 8} (h : s.fch.soft.get? dec.val = none) :
    bit (rd (retireSoftDecoder s dec.val) pLDS LDS_DEC_RETIRED) dec.val = true ∧ bit (rd (retireSoftDecoder s dec.val) pLDS rIRQ_STATUS) 0 = true := by
  obtain ⟨-, -, hregs⟩ := feedPool_shows (irq (retirementShown s pLDS LDS_DEC_RETIRED dec.val 6 dec.val) pLDS 0)
  have hretired : rd (retirementShown s pLDS LDS_DEC_RETIRED dec.val 6 dec.val) pLDS LDS_DEC_RETIRED = rd (wrB s pLDS LDS_DEC_RETIRED dec.val true) pLDS LDS_DEC_RETIRED :=
    (((setFault_regs _ pLDS _ _ _).trans ((logRetire_regs _ _ _ _).mono fun _ hx => List.mem_cons_of_mem _ (List.mem_cons_of_mem _ (List.mem_cons_of_mem _ hx)))) _ _ (by decide) (by decide) (by decide)).1
  rw [retireSoftDecoder_idle h, (hregs _ _ (by decide) (by decide) (by decide)).1, (hregs _ _ (by decide) (by decide) (by decide)).1, rd_irq, bit_or, bit_oneBit (by decide), Bool.or_true]
  refine ⟨?_, rfl⟩
  rw [irq, irqMask, rd_wr_otherOff _ _ _ (by decide), hretired, rd_wrB_same, bit_setBit_same _ _ (by omega)]

theorem runs_selfCheck_soft {s : State} {dec : Fin 8} (hint : inF s pLDS LDS_SELF_CHECK 15 0 ≠ 0) (hdec : bit (rd s pLDS LDS_DEC_RETIRED) dec.val = false)
    (hidle : s.fch.soft.get? dec.val = none) (hup : pageUp s pLDS = true) : Runs (.decoderSelfCheck (.soft dec) false) s fun t =>
      bit (rd t pLDS LDS_DEC_RETIRED) dec.val = true ∧ bit (rd t pLDS rIRQ_STATUS) 0 = true := by
  have heq : selfCheck s (.soft dec) false = retireSoftDecoder s dec.val := by
    unfold selfCheck
    dsimp only
    rw [if_neg (by simp [hint, hdec, hidle, hup]), if_neg (by decide)]
  have hshown := retireSoftDecoder_shows hidle
  generalize retireSoftDecoder s dec.val = u at heq hshown
  exact runs_of_effect (ps := flashParts) rfl heq hshown

/-- Settles O25: a decoder's result by the rung it is at and by what the delivery, the requeue and the hand-over to rung 4 leave, and a self-check by the retirement it makes. -/
theorem flashLadder : Obligations.FlashLadder := by
  unfold Obligations.FlashLadder
  intro s c dec id elapsed weight bytes j p counts handed hc hinj
  exact ⟨fun hup hfound => ⟨runs_hardDecodeDone_first hc hinj hup hfound weight bytes, runs_hardDecodeDone_second hc hinj hup hfound weight bytes,
      fun k => runs_hardDecodeDone_fails hc hinj hup hfound weight bytes, runs_ladderBudgetExpiry hc hinj hup hfound elapsed⟩,
    fun hup hjob harm hr => ⟨runs_softDecodeJobDone_passes hc hinj hup hjob harm weight bytes hr, runs_softDecodeJobDone_fails hc hinj hup hjob harm weight bytes⟩,
    runs_selfCheck_right s, runs_selfCheck_hard, runs_selfCheck_soft⟩

end Sys2Proof.Machine

/-! What the map's records and what follows them leave alone: records issued, LIVE of the blocks that a new reference holds, and the counts that the MAP page shows (R201, R205, R206, R213, R224). -/

namespace Sys2Proof.Machine

-- The proofs are elaborated one after another: run side by side, each that waits for another holds a thread, whose stack counts against the check's memory.
set_option Elab.async false

/-! ### Registers that an update keeps -/

theorem RegsKept.ite {l : List (Nat × Nat)} {c : Prop} [Decidable c] {s t u : State} (ht : RegsKept l s t) (hu : RegsKept l s u) : RegsKept l s (if c then t else u) := by
  split
  · exact ht
  · exact hu

theorem RegsKept.write {l : List (Nat × Nat)} {s t : State} (h : RegsKept l s t) (p off : Nat) (v : Word) (hm : off < 4096 ∧ (p, off) ∈ l := by decide) : RegsKept l s (wr t p off v) :=
  h.trans (regsKept_wr t v hm.1 hm.2)

/-- An update of anything but the registers. -/
theorem RegsKept.beside {l : List (Nat × Nat)} {s t u : State} (h : RegsKept l s t) (hr : u.com.regs = t.com.regs := by rfl) (hc : u.com.chip = t.com.chip := by rfl) : RegsKept l s u :=
  h.trans (regsKept_of_eq l hr hc)

/-! ### Issuing a record (R201) -/

/-- The JSEQ that the next map record takes (R201). -/
def nextJseq (s : State) : Nat := ((rd s pMAP MAP_JSEQ_ISSUED).toNat + 1) % 2 ^ 32

theorem jIssue_seq (s : State) (p : JPayload) : (jIssue s p).2 = nextJseq s := rfl

/-- The record enters the journal, and nothing else of the map changes. -/
theorem map_jIssue (s : State) (p : JPayload) : (jIssue s p).1.map = { s.map with journal := s.map.journal ++ [⟨nextJseq s, p, false⟩] } := by
  unfold jIssue
  dsimp only
  split <;> split <;> rfl

theorem rd_jIssue (s : State) (p : JPayload) : rd (jIssue s p).1 pMAP MAP_JSEQ_ISSUED = w32 (nextJseq s) := by
  have hlisted (u : State) (hu : rd u pMAP MAP_JSEQ_ISSUED = w32 (nextJseq s)) (j : List JRecord) (c : Prop) [Decidable c] :
      rd (if c then irq { u with map := { u.map with journal := j } } pMAP 6 else { u with map := { u.map with journal := j } }) pMAP MAP_JSEQ_ISSUED = w32 (nextJseq s) := by
    split
    · exact (rd_wr_otherOff _ _ _ (by decide)).trans hu
    · exact hu
  refine hlisted _ ?_ _ _
  split
  · exact (rd_wr_otherOff _ _ _ (by decide)).trans (rd_wr_same _ _ _ _)
  · exact rd_wr_same _ _ _ _

/-! ### The counts that follow (R206, R224) -/

/-- The registers of the MAP page that follow its tables: the fill, the oasis and the pool, with their interrupts (R227). -/
def mapShown : List (Nat × Nat) :=
  [MAP_FILL, MAP_OASIS_BLOCKS, MAP_FLOOR_BLOCKS, MAP_FREE_BLOCKS, MAP_RESERVE_BLOCKS, MAP_SPARE_LEFT, MAP_MEDIA_STATE, rIRQ_STATUS].map fun o => (pMAP, o)

theorem refreshFill_regs (s : State) : RegsKept mapShown s (refreshFill s) :=
  .write (.write (.write (regsKept_of_eq _ rfl rfl) _ _ _) _ _ _) _ _ _

theorem clearMediaWarning_regs (s : State) : RegsKept mapShown s (clearMediaWarning s) := .ite (regsKept_of_eq _ rfl rfl) (regsKept_of_eq _ rfl rfl)

theorem refreshPool_regs (s : State) : RegsKept mapShown s (refreshPool s) := by
  have hirq {u : State} (hu : RegsKept mapShown s u) (i : Nat) : RegsKept mapShown s (irq u pMAP i) := .write hu _ _ _
  have hspare {u : State} (hu : RegsKept mapShown s u) (c d : Prop) [Decidable c] [Decidable d] : RegsKept mapShown s (if c then (if d then u else smartSet (irq u pMAP 4) 0) else u) :=
    .ite (.ite hu (.beside (hirq hu 4))) hu
  have hmode {u : State} (hu : RegsKept mapShown s u) (c d e : Prop) [Decidable c] [Decidable d] [Decidable e] :
      RegsKept mapShown s (if c then u else if d then enterReadOnly u else if e then leaveReadOnly u else u) := by
    have hmedia (b : Bool) : RegsKept mapShown s (wrB u pMAP MAP_MEDIA_STATE 0 b) := .write hu _ _ _
    have hleave : RegsKept mapShown s (leaveReadOnly u) := .beside (.trans (hirq (hmedia false) 1) (clearMediaWarning_regs _))
    exact .ite hu (.ite (.beside (hirq (hmedia true) 0)) (.ite hleave hu))
  have hthrottle {u : State} (hu : RegsKept mapShown s u) (c : Prop) [Decidable c] (a b : Bool) :
      RegsKept mapShown s (wrB (wrB (if c then irq u pMAP 5 else u) pMAP MAP_MEDIA_STATE 1 a) pMAP MAP_MEDIA_STATE 2 b) := .write (.write (.ite (hirq hu 5) hu) _ _ _) _ _ _
  have hcounts (a b c : Word) : RegsKept mapShown s (wr (wr (wr s pMAP MAP_FREE_BLOCKS a) pMAP MAP_RESERVE_BLOCKS b) pMAP MAP_SPARE_LEFT c) :=
    .write (.write (.write (regsKept_of_eq _ rfl rfl) _ _ _) _ _ _) _ _ _
  exact hthrottle (hmode (hspare (hcounts _ _ _) _ _) _ _ _) _ _ _

theorem map_refreshPool (s : State) : (refreshPool s).map = s.map := (refreshPool_agree s).map (by decide)

/-! ### LIVE follows a reference (R203 step 4, R213) -/

/-- Only entries of the block state table differ. -/
def BlocksMoved (s t : State) : Prop := ∃ b, t = { s with map := { s.map with bst := b } }

namespace BlocksMoved

theorem refl (s : State) : BlocksMoved s s := ⟨s.map.bst, rfl⟩

theorem trans {s t u : State} (h : BlocksMoved s t) (h' : BlocksMoved t u) : BlocksMoved s u := by
  obtain ⟨b, rfl⟩ := h
  obtain ⟨b', rfl⟩ := h'
  exact ⟨b', rfl⟩

theorem foldl {α : Type} {f : State → α → State} (hf : ∀ s a, BlocksMoved s (f s a)) (l : List α) (s : State) : BlocksMoved s (l.foldl f s) := by
  induction l generalizing s with
  | nil => exact refl s
  | cons a l ih => exact (hf s a).trans (ih (f s a))

end BlocksMoved

theorem replaceRef_moved (s : State) (old new : BitVec 64) (seq : Nat) (put : State → State) : BlocksMoved (put s) (replaceRef s old new seq put) := by
  have hraise (u : State) (l : List (Nat × Nat)) : BlocksMoved u (l.foldl (fun u b => raiseLive u b.1 b.2) u) := .foldl (fun _ _ => ⟨_, rfl⟩) l u
  have hlower (u : State) (l : List (Nat × Nat)) : BlocksMoved u (l.foldl (fun u b => lowerLive u b.1 b.2 seq) u) := .foldl (fun _ _ => ⟨_, rfl⟩) l u
  exact .trans (.foldl (fun u _ => hraise u _) _ (put s)) (.foldl (fun u _ => hlower u _) _ _)

theorem setEntry_eq (s : State) (h u : Nat) (new : BitVec 64) (seq : Nat) : ∃ b, setEntry s h u new seq = { s with map := { s.map with
    undo := (seq, unitKey h u, entryAt s h u, false) :: s.map.undo, entries := s.map.entries.putD (unitKey h u) new trimmed, bst := b } } := replaceRef_moved s _ _ _ _

theorem setDir_eq (s : State) (h p : Nat) (new : BitVec 64) (seq : Nat) : ∃ b, setDir s h p new seq = { s with map := { s.map with
    undo := (seq, pageKey h p, dirAt s h p, true) :: s.map.undo, dir := s.map.dir.putD (pageKey h p) new trimmed, bst := b } } := replaceRef_moved s _ _ _ _

theorem dirtySegment_frame (s : State) (h u : Nat) :
    (dirtySegment s h u).com = s.com ∧ (dirtySegment s h u).map.entries = s.map.entries ∧ (dirtySegment s h u).map.journal = s.map.journal ∧ (dirtySegment s h u).map.held = s.map.held := by
  unfold dirtySegment
  dsimp only
  split <;> exact ⟨rfl, rfl, rfl, rfl⟩

end Sys2Proof.Machine

/-! Changes of map entries: the journaled change of one entry, redirects and moves, trims, locks, and changes held by a full ring (R203, R205, R214). -/

namespace Sys2Proof.Machine

set_option Elab.async false

/-! ### The journaled change of one entry (R203) -/

/-- In `t` one entry has changed, under the next JSEQ and with its record in the journal. -/
structure EntryChanged (s t : State) (h u : Nat) (e : BitVec 64) (p : JPayload) : Prop where
  entry : entryAt t h u = e
  others : ∀ key, key ≠ unitKey h u → t.map.entries.get? key = s.map.entries.get? key
  issued : rd t pMAP MAP_JSEQ_ISSUED = w32 (nextJseq s)
  journal : t.map.journal = s.map.journal ++ [⟨nextJseq s, p, false⟩]
  held : t.map.held = s.map.held

/-- The entries, the journal and its JSEQ, and the held changes are as they were. -/
structure ChangesKept (s t : State) : Prop where
  entries : t.map.entries = s.map.entries
  issued : rd t pMAP MAP_JSEQ_ISSUED = rd s pMAP MAP_JSEQ_ISSUED
  journal : t.map.journal = s.map.journal
  held : t.map.held = s.map.held

theorem ChangesKept.trans {s t u : State} (h : ChangesKept s t) (h' : ChangesKept t u) : ChangesKept s u :=
  ⟨h'.entries.trans h.entries, h'.issued.trans h.issued, h'.journal.trans h.journal, h'.held.trans h.held⟩

theorem EntryChanged.kept {s t u : State} {h n : Nat} {e : BitVec 64} {p : JPayload} (hc : EntryChanged s t h n e p) (hk : ChangesKept t u) : EntryChanged s u h n e p where
  entry := by rw [entryAt, hk.entries]; exact hc.entry
  others key hkey := by rw [hk.entries, hc.others key hkey]
  issued := hk.issued.trans hc.issued
  journal := hk.journal.trans hc.journal
  held := hk.held.trans hc.held

/-- FILL and the pool follow every change of the map (R206, R224). -/
theorem changesKept_refresh (s : State) : ChangesKept s (refreshPool (refreshFill s)) := by
  have hissued := ((refreshFill_regs s).trans (refreshPool_regs _)) pMAP MAP_JSEQ_ISSUED (by decide) (by decide) (by decide)
  constructor
  · rw [map_refreshPool]; rfl
  · exact hissued.1
  · rw [map_refreshPool]; rfl
  · rw [map_refreshPool]; rfl

theorem changesKept_confine (s t : State) : ChangesKept t (confine flashParts s t) := ⟨rfl, rfl, rfl, rfl⟩

/-- The record of a change of one entry is issued, and the entry set (R203 steps 3 and 4). -/
def entryJournaled (s : State) (h u : Nat) (e : BitVec 64) (p : JPayload) : State := dirtySegment (setEntry (jIssue s p).1 h u e (nextJseq s)) h u

theorem entryJournaled_changes (s : State) (h u : Nat) (e : BitVec 64) (p : JPayload) : EntryChanged s (entryJournaled s h u e p) h u e p := by
  have hmap := map_jIssue s p
  have hseq := rd_jIssue s p
  unfold entryJournaled
  generalize (jIssue s p).1 = v at hmap hseq
  obtain ⟨b, hset⟩ := setEntry_eq v h u e (nextJseq s)
  obtain ⟨hcom, hentries, hjournal, hheld⟩ := dirtySegment_frame (setEntry v h u e (nextJseq s)) h u
  generalize dirtySegment (setEntry v h u e (nextJseq s)) h u = t at hcom hentries hjournal hheld
  rw [hset, hmap] at hentries hjournal hheld
  rw [hset] at hcom
  constructor
  · rw [entryAt, hentries, Tab.getD_putD_same]
  · intro key hkey
    rw [hentries, Tab.get?_putD_ne _ _ _ hkey]
  · exact (rd_congr (congrArg Common.regs hcom) (congrArg Common.chip hcom) _ _).trans hseq
  · exact hjournal
  · exact hheld

/-! ### Redirects and moves (R203, R214) -/

/-- The entry and the record of a redirect. -/
def redirected (s : State) (k : RedirectKind) (h u : Nat) (new : BitVec 64) : State :=
  let e := redirectEntry s k (hostLock s h u) (entryAt s h u) new
  entryJournaled s h u e (.redirect k h u e)

theorem redirected_changes (s : State) (k : RedirectKind) (h u : Nat) (new : BitVec 64) :
    let e := redirectEntry s k (hostLock s h u) (entryAt s h u) new
    EntryChanged s (redirected s k h u new) h u e (.redirect k h u e) := entryJournaled_changes s h u _ _

/-- After its entry a redirect brings the write-buffer index and the media error log up to date, and a move is counted. -/
theorem changesKept_doRedirect (s : State) (k : RedirectKind) (h u : Nat) (new : BitVec 64) : ChangesKept (redirected s k h u new) (doRedirect s k h u new) := by
  have hcount (t : State) : ChangesKept t (bump t pMAP MAP_GC_COUNT 1) := ⟨rfl, rd_wr_otherOff _ _ _ (by decide), rfl, rfl⟩
  have hbuffer (t : State) : ChangesKept t (clearMediaError (wbRedirected t h u (nextJseq s)) h u) := ⟨rfl, rfl, rfl, rfl⟩
  cases k with
  | host => exact hbuffer (redirected s .host h u new)
  | gc => exact hcount (redirected s .gc h u new)
  | rebuild => exact hcount (redirected s .rebuild h u new)

/-- A lock under a write-once range comes with a host redirect alone (R187). -/
theorem redirectEntry_move (s : State) {k : RedirectKind} (hk : k ≠ .host) (lock : Bool) (old new : BitVec 64) : redirectEntry s k lock old new = redirectEntry s k false old new := by
  cases k with
  | host => exact absurd rfl hk
  | gc => rfl
  | rebuild => rfl

/-! ### What a trim leaves alone (R183) -/

/-- Units that take the trimmed entry leave every other unit its own. -/
theorem entryAt_trimUnit_fold_ne (h seq : Nat) {us : List Nat} (t : State) {v : Nat} (hv : v ∉ us) : entryAt (us.foldl (trimUnit h seq) t) h v = entryAt t h v := by
  refine List.foldlRecOn (motive := fun w => entryAt w h v = entryAt t h v) _ _ rfl fun w hw u hu => ?_
  have hne : unitKey h v ≠ unitKey h u := fun hk => hv (by rwa [unitKey_inj hk])
  rw [← hw, entryAt, entries_trimUnit, Tab.getD_putD_ne _ _ _ _ hne, entryAt]

/-- A trim leaves the units outside its range alone. -/
theorem entryAt_doTrim_outside (s : State) (h first count : Nat) {v : Nat} (hv : v < first ∨ first + count ≤ v) : entryAt (doTrim s h first count) h v = entryAt s h v := by
  have hj : entryAt (jIssue s (.trim h first count)).1 h v = entryAt s h v := by rw [entryAt, (jIssue_entries _ _).2, entryAt]
  unfold doTrim
  dsimp only
  generalize jIssue s (.trim h first count) = j at hj
  refine (entryAt_trimUnit_fold_ne h j.2 j.1 fun hm => ?_).trans hj
  obtain ⟨e, he, rfl⟩ := List.mem_map.mp hm
  have hrange := (List.mem_filter.mp he).2
  simp only [Bool.and_eq_true, decide_eq_true_eq] at hrange
  omega

/-! ### A change that the map takes -/

section
variable {s : State} (hstop : mapStopped s = false) (hroom : jRoom s 32 = true)
include hstop hroom

/-- A redirect of a covered copy is applied, unless it is a move of a unit that lies elsewhere by now: that one is counted and dropped (R214). -/
theorem mapChange_redirect {new : BitVec 64} (hcov : copyCovered s new = true) (k : RedirectKind) (h : Fin 1024) (u : BitVec 48) (seen : BitVec 64) :
    mapChange s (.redirect k h u new seen) = refreshPool (refreshFill
      (if k = .host ∨ sameLocation (entryAt s h.val u.toNat) seen = true then doRedirect s k h.val u.toNat new else bump s pMAP MAP_REDIRECT_DROP 1)) := by
  unfold mapChange
  rw [if_neg (by simp [hstop]), if_neg (by simp [hroom])]
  dsimp only
  rw [if_neg (by simp [hcov])]
  cases k with
  | host => exact congrArg (fun t => refreshPool (refreshFill t)) (if_pos (.inl rfl)).symm
  | gc => simp only [reduceCtorEq, false_or]
  | rebuild => simp only [reduceCtorEq, false_or]

/-- A host redirect of a covered copy is journaled and applied. -/
theorem mapChange_redirect_host_changes {new : BitVec 64} (hcov : copyCovered s new = true) (h : Fin 1024) (u : BitVec 48) (seen : BitVec 64) :
    let e := redirectEntry s .host (hostLock s h.val u.toNat) (entryAt s h.val u.toNat) new
    EntryChanged s (mapChange s (.redirect .host h u new seen)) h.val u.toNat e (.redirect .host h.val u.toNat e) := by
  rw [mapChange_redirect hstop hroom hcov, if_pos (.inl rfl)]
  exact (redirected_changes s .host h.val u.toNat new).kept ((changesKept_doRedirect s .host _ _ new).trans (changesKept_refresh _))

/-- A move of a unit that is still where it was seen is journaled and applied. -/
theorem mapChange_redirect_move_changes {k : RedirectKind} (hk : k ≠ .host) {new : BitVec 64} (hcov : copyCovered s new = true) {h : Fin 1024} {u : BitVec 48} {seen : BitVec 64}
    (hsame : sameLocation (entryAt s h.val u.toNat) seen = true) :
    let e := redirectEntry s k false (entryAt s h.val u.toNat) new
    EntryChanged s (mapChange s (.redirect k h u new seen)) h.val u.toNat e (.redirect k h.val u.toNat e) := by
  rw [mapChange_redirect hstop hroom hcov, if_pos (.inr hsame), ← redirectEntry_move s hk (hostLock s h.val u.toNat)]
  exact (redirected_changes s k h.val u.toNat new).kept ((changesKept_doRedirect s k _ _ new).trans (changesKept_refresh _))

theorem mapChange_redirect_drop {k : RedirectKind} (hk : k ≠ .host) {new : BitVec 64} (hcov : copyCovered s new = true) {h : Fin 1024} {u : BitVec 48} {seen : BitVec 64}
    (hsame : sameLocation (entryAt s h.val u.toNat) seen = false) :
    (mapChange s (.redirect k h u new seen)).map.entries = s.map.entries
      ∧ rd (mapChange s (.redirect k h u new seen)) pMAP MAP_REDIRECT_DROP = w32 (satAdd 0xFFFFFFFF (rd s pMAP MAP_REDIRECT_DROP).toNat 1) := by
  rw [mapChange_redirect hstop hroom hcov, if_neg (by simp [hk, hsame])]
  have hkept := ((refreshFill_regs (bump s pMAP MAP_REDIRECT_DROP 1)).trans (refreshPool_regs _)) pMAP MAP_REDIRECT_DROP (by decide) (by decide) (by decide)
  exact ⟨(changesKept_refresh _).entries, hkept.1.trans (rd_bump ..)⟩

theorem mapChange_lock_changes {h : Fin 1024} {u : BitVec 48} (hloc : hasLocation (entryAt s h.val u.toNat) = true) :
    let e := entryAt s h.val u.toNat ||| 0x100
    EntryChanged s (mapChange s (.lock h u)) h.val u.toNat e (.flagSet h.val u.toNat e) := by
  have heq : mapChange s (.lock h u) = refreshPool (refreshFill (doLock s h.val u.toNat)) := by
    unfold mapChange
    rw [if_neg (by simp [hstop]), if_neg (by simp [hroom])]
    exact congrArg (fun t => refreshPool (refreshFill t)) (if_pos hloc)
  rw [heq]
  exact (entryJournaled_changes s _ _ _ _).kept (changesKept_refresh _)

theorem mapChange_trim_outside (h : Fin 1024) (first : BitVec 48) (count : Nat) {v : Nat} (hv : v < first.toNat ∨ first.toNat + count ≤ v) :
    entryAt (mapChange s (.trim h first count)) h.val v = entryAt s h.val v := by
  have heq : mapChange s (.trim h first count) = refreshPool (refreshFill (doTrim s h.val first.toNat count)) := by
    unfold mapChange
    rw [if_neg (by simp [hstop]), if_neg (by simp [hroom])]
  rw [heq, entryAt, (changesKept_refresh _).entries]
  exact entryAt_doTrim_outside s h.val first.toNat count hv

end

/-! ### A full ring (R205) -/

theorem mapChange_full {s : State} (hstop : mapStopped s = false) (hfull : jRoom s 32 = false) (ch : MapChange) :
    mapChange s ch = { s with map := { s.map with held := s.map.held ++ [ch] } } := by
  unfold mapChange
  rw [if_neg (by simp [hstop]), if_pos (by simp [hfull])]

/-- Without its held changes the map takes changes and has room as before. -/
def unheld (s : State) : State := { s with map := { s.map with held := [] } }

theorem releaseHeld_single {s : State} {ch : MapChange} (hheld : s.map.held = [ch]) : releaseHeld s = mapChange (unheld s) ch := by
  rw [releaseHeld, hheld]
  rfl

/-! ### The commands -/

section
variable {s : State} (hup : pageUp s pMAP = true)
include hup

theorem runs_mapChange {ch : MapChange} {P : State → Prop} (h : P (confine flashParts s (mapChange s ch))) : Runs (.mapChange ch) s P := runs_whenUp rfl hup rfl h

theorem runs_mapChange_full (hstop : mapStopped s = false) (hfull : jRoom s 32 = false) (ch : MapChange) :
    Runs (.mapChange ch) s fun t => t.map.held = s.map.held ++ [ch] ∧ t.map.entries = s.map.entries :=
  runs_whenUp rfl hup (mapChange_full hstop hfull ch) ⟨rfl, rfl⟩

section
variable (hstop : mapStopped s = false) (hroom : jRoom s 32 = true)
include hstop hroom

theorem runs_mapChange_trim (h : Fin 1024) (first : BitVec 48) (n : Nat) : Runs (.mapChange (.trim h first n)) s fun t =>
    (∀ v, first.toNat ≤ v → v < first.toNat + n → v < 2 ^ 48 → entryAt t h.val v = trimmed)
      ∧ (∀ v, v < first.toNat ∨ first.toNat + n ≤ v → v < 2 ^ 48 → entryAt t h.val v = entryAt s h.val v) :=
  runs_mapChange hup ⟨(mapChange_trim hstop hroom h first n).2, fun _ hv _ => mapChange_trim_outside hstop hroom h first n hv⟩

theorem runs_mapChange_host {new : BitVec 64} (hcov : copyCovered s new = true) (h : Fin 1024) (u : BitVec 48) (seen : BitVec 64) :
    let e := redirectEntry s .host (hostLock s h.val u.toNat) (entryAt s h.val u.toNat) new
    Runs (.mapChange (.redirect .host h u new seen)) s fun t => EntryChanged s t h.val u.toNat e (.redirect .host h.val u.toNat e) :=
  runs_mapChange hup ((mapChange_redirect_host_changes hstop hroom hcov h u seen).kept (changesKept_confine s _))

theorem runs_mapChange_move {k : RedirectKind} (hk : k ≠ .host) {new : BitVec 64} (hcov : copyCovered s new = true) {h : Fin 1024} {u : BitVec 48} {seen : BitVec 64}
    (hsame : sameLocation (entryAt s h.val u.toNat) seen = true) :
    let e := redirectEntry s k false (entryAt s h.val u.toNat) new
    Runs (.mapChange (.redirect k h u new seen)) s fun t => EntryChanged s t h.val u.toNat e (.redirect k h.val u.toNat e) :=
  runs_mapChange hup ((mapChange_redirect_move_changes hstop hroom hk hcov hsame).kept (changesKept_confine s _))

theorem runs_mapChange_drop {k : RedirectKind} (hk : k ≠ .host) {new : BitVec 64} (hcov : copyCovered s new = true) {h : Fin 1024} {u : BitVec 48} {seen : BitVec 64}
    (hsame : sameLocation (entryAt s h.val u.toNat) seen = false) : Runs (.mapChange (.redirect k h u new seen)) s fun t =>
      t.map.entries = s.map.entries ∧ rd t pMAP MAP_REDIRECT_DROP = w32 (satAdd 0xFFFFFFFF (rd s pMAP MAP_REDIRECT_DROP).toNat 1) :=
  runs_mapChange hup (mapChange_redirect_drop hstop hroom hk hcov hsame)

theorem runs_mapChange_lock {h : Fin 1024} {u : BitVec 48} (hloc : hasLocation (entryAt s h.val u.toNat) = true) :
    let e := entryAt s h.val u.toNat ||| 0x100
    Runs (.mapChange (.lock h u)) s fun t => EntryChanged s t h.val u.toNat e (.flagSet h.val u.toNat e) :=
  runs_mapChange hup ((mapChange_lock_changes hstop hroom hloc).kept (changesKept_confine s _))

theorem runs_journalRingFullHold {new : BitVec 64} (hcov : copyCovered s new = true) {h : Fin 1024} {u : BitVec 48} {seen : BitVec 64} (hheld : s.map.held = [.redirect .host h u new seen]) :
    let e := redirectEntry s .host (hostLock s h.val u.toNat) (entryAt s h.val u.toNat) new
    Runs .journalRingFullHold s fun t => EntryChanged (unheld s) t h.val u.toNat e (.redirect .host h.val u.toNat e) :=
  runs_whenUp rfl hup (releaseHeld_single hheld)
    ((mapChange_redirect_host_changes (s := unheld s) hstop hroom hcov h u seen).kept (changesKept_confine s _))

end

end

end Sys2Proof.Machine

/-! What a write of a ring in the MRAM touches: the memories, and the registers of `MRM` and of the fault log (R316, R317, R320, R327, R329). -/

namespace Sys2Proof.Machine

set_option Elab.async false

/-- `t` comes from `s` by what accesses of the MRAM do: updates of the memories, and writes of registers of `MRM` and `FLT`. -/
inductive MramWork (s : State) : State → Prop where
  | refl : MramWork s s
  | memory {t : State} (h : MramWork s t) (c : Common) (m : Memory) (hr : c.regs = t.com.regs := by rfl) (hc : c.chip = t.com.chip := by rfl) : MramWork s { t with com := c, mem := m }
  | write {t : State} (h : MramWork s t) (p o : Nat) (v : Word) (hp : (p = pMRM ∨ p = pFLT) ∧ o < 4096 := by decide) : MramWork s (wr t p o v)

namespace MramWork

variable {s t : State}

/-- Beside the shared part the memories alone change. -/
theorem agree (h : MramWork s t) : State.AgreeOutside [.memP] s t := by
  induction h with
  | refl => exact .refl _ s
  | memory _ c m _ _ ih => exact .memory (by simp) ih c m
  | write _ p o v _ ih => exact ih.wr p o v

/-- The registers of every other page stay. -/
theorem kept (h : MramWork s t) {p o : Nat} (ho : o < 4096) (hp : p ≠ pMRM ∧ p ≠ pFLT) : rd t p o = rd s p o := by
  induction h with
  | refl => rfl
  | memory _ _ _ hr hc ih => exact (rd_congr hr hc p o).trans ih
  | write _ q o' v hq ih =>
    rw [rd_wr _ v hq.2 ho, if_neg, ih]
    rintro ⟨rfl, -⟩
    exact hq.1.elim hp.1 hp.2

theorem trans {u : State} (h : MramWork s t) (h' : MramWork t u) : MramWork s u := by
  induction h' with
  | refl => exact h
  | memory _ c m hr hc ih => exact ih.memory c m hr hc
  | write _ p o v hp ih => exact ih.write p o v hp

theorem ite {c : Prop} [Decidable c] {u : State} (ht : MramWork s t) (hu : MramWork s u) : MramWork s (if c then t else u) := by
  split
  · exact ht
  · exact hu

/-- An update of the shared part beside the registers. -/
theorem shared (h : MramWork s t) (c : Common) (hr : c.regs = t.com.regs := by rfl) (hc : c.chip = t.com.chip := by rfl) : MramWork s { t with com := c } := h.memory c t.mem hr hc

theorem irq (h : MramWork s t) (i : Nat) : MramWork s (irq t pMRM i) := h.write pMRM rIRQ_STATUS _

/-! ### Counted events (R73, R316) -/

theorem logEvent (h : MramWork s t) (v : LogEvent) : MramWork s (logEvent t v) := by
  have hpush (q : LogItem) : MramWork s (logPush t q) := .ite (h.shared _) (.write (.write h pFLT _ _) pFLT _ _)
  unfold Machine.logEvent
  split <;> exact hpush _

theorem lbEvent (h : MramWork s t) : MramWork s (lbEvent t pMRM).1 := by
  have hcount (n : Nat) : MramWork s (wrF t pMRM rLB_COUNT 15 0 n) := h.write pMRM _ _
  have hfault {u : State} (hu : MramWork s u) (cause unit : Nat) : MramWork s (setFault u pMRM .bucket cause unit) := by
    refine .logEvent (t := writeFault u pMRM .bucket cause unit) ?_ _
    unfold writeFault
    exact .ite (hu.write pMRM rFAULT _) (.irq (hu.write pMRM rFAULT _) _)
  unfold Machine.lbEvent lbEventAt
  dsimp only
  split
  · exact hfault (.irq (.shared (hcount _) _) _) _ _
  · exact hcount _

/-! ### Dies and frames (R320, R327) -/

theorem dieSet (h : MramWork s t) (d : Nat) (m : WordMem) : MramWork s (dieSet t d m) := .ite (h.memory _ _) (h.memory _ _)

theorem refreshFrames (h : MramWork s t) : MramWork s (refreshFrames t) := by
  have hshow (a b c : Word) : MramWork s (wr (wr (wr t pMRM MRM_FRAMES a) pMRM MRM_PASS_MAX b) pMRM MRM_PASS_MIN c) := .write (.write (.write h _ _ _) _ _ _) _ _ _
  exact .ite (.shared (.irq (hshow _ _ _) _) _) (hshow _ _ _)

theorem frameRetire (h : MramWork s t) (f : Nat) : MramWork s (frameRetire t f) := by
  unfold Machine.frameRetire
  dsimp only
  refine .ite h (.refreshFrames (.irq (.memory ?_ _ _) _))
  split
  · exact .memory ((h.dieSet _ _).dieSet _ _) _ _
  · exact h

theorem correctedAt (h : MramWork s t) (frame : Option Nat) : MramWork s (mrmCorrectedAt t frame) := by
  unfold mrmCorrectedAt
  extract_lets share u m v
  have hv : MramWork s v := by
    cases frame <;> exact .memory (h.write pMRM MRM_ECC_CE _) _ _
  clear_value v
  have hevent := hv.lbEvent
  split
  rename_i w fired hw
  rw [hw] at hevent
  refine .ite ?_ hevent
  split
  · exact hevent.frameRetire _
  · exact hevent

/-! ### Words (R317, R320) -/

theorem arm (h : MramWork s t) (off : Nat) : MramWork s (mrmArm t off) := by
  unfold mrmArm
  split
  · exact h
  · exact .memory (h.dieSet _ _) _ _

/-- A word read from one die, with what the read met counted. -/
theorem readDie (h : MramWork s t) (d : Nat) (m : WordMem) (c : Prop) [Decidable c] (off : Nat) :
    MramWork s (if c then Machine.dieSet t d m else mrmCorrected (Machine.dieSet t d m) off) := .ite (h.dieSet d m) ((h.dieSet d m).correctedAt _)

theorem wordRead (h : MramWork s t) (w : Nat) : MramWork s (mrmWordRead t w).1 := by
  have hlost {u : State} (hu : MramWork s u) (off : Nat) : MramWork s (Machine.irq (wr (bumpF u pMRM MRM_ECC_UE 15 0 1) pMRM MRM_UE_ADDR (w32 off)) pMRM 4) :=
    .irq (.write (.write hu pMRM _ _) pMRM _ _) _
  unfold mrmWordRead
  extract_lets off
  split
  · exact h
  rename_i u p d0 d o above lost _
  have hu : MramWork s u := h.arm off
  clear_value u
  split
  · exact hlost hu off
  split
  extract_lets first afterFirst
  have hfirst : MramWork s afterFirst := hu.readDie _ _ _ off
  clear_value afterFirst
  split
  · exact hfirst
  split
  · exact hlost hfirst off
  split
  extract_lets second afterSecond
  have hsecond : MramWork s afterSecond := hfirst.readDie _ _ _ off
  clear_value afterSecond
  split
  · exact hlost hsecond off
  · exact .write (hsecond.dieSet _ _) pMRM _ _

theorem dieSetIf (h : MramWork s t) (c : Prop) [Decidable c] (d : Nat) (m : WordMem) : MramWork s (if c then Machine.dieSet t d m else t) := .ite (h.dieSet d m) h

theorem wordStore (h : MramWork s t) (w : Nat) (bytes : List Byte) : MramWork s (mrmWordStore t w bytes) := .ite h ((h.dieSetIf _ _ _).dieSetIf _ _ _)

theorem mark (h : MramWork s t) (w : Nat) (k : WordErr) : MramWork s (mrmMark t w k) := (h.dieSetIf _ _ _).dieSetIf _ _ _

theorem flush (h : MramWork s t) (e : MergeEntry) : MramWork s (mrmFlush t e) := by
  unfold mrmFlush
  extract_lets m u
  have hu : MramWork s u := h.memory _ _
  have hread := hu.wordRead e.index
  clear_value u
  refine .ite (hu.wordStore _ _) ?_
  split
  · rename_i hv
    exact .wordStore (by rwa [hv] at hread) _ _
  · rename_i hv
    exact .mark (.wordStore (by rwa [hv] at hread) _ _) _ _

theorem mergeWrite (h : MramWork s t) (w lo : Nat) (bytes : List Byte) : MramWork s (mrmMergeWrite t w lo bytes) := by
  unfold mrmMergeWrite
  split
  · exact .wordStore (h.memory _ _) _ _
  split
  rename_i v e hv
  suffices hentry : MramWork s v from .ite (.flush (hentry.memory _ _) _) (hentry.memory _ _)
  split at hv
  · obtain ⟨rfl, -⟩ := Prod.mk.inj hv
    exact h
  · obtain ⟨rfl, -⟩ := Prod.mk.inj hv
    refine .memory ?_ _ _
    split
    · exact .ite (h.flush _) h
    · exact h

/-! ### Bytes of the view (R321, R329) -/

theorem put (h : MramWork s t) (off : Nat) (bytes : List Byte) : MramWork s (mramPut t off bytes) := by
  have hwords : MramWork s ((pieces8 off bytes.length).foldl
      (fun (acc : State × List Byte) p => (mrmMergeWrite acc.1 p.1 p.2.1 (acc.2.take p.2.2), acc.2.drop p.2.2)) (t, bytes)).1 :=
    List.foldlRecOn (motive := fun acc : State × List Byte => MramWork s acc.1) _ _ h fun _ hacc _ _ => hacc.mergeWrite _ _ _
  exact .ite (.write (.write (hwords.memory _ _) pMRM _ _) pMRM _ _) hwords

theorem ring (h : MramWork s t) (base size head : Nat) (bytes : List Byte) : MramWork s (ringWrite t base size head bytes) := .ite ((h.put _ _).put _ _) (h.put _ _)

end MramWork

/-! ### A record becomes durable (R201, R203 step 5) -/

/-- The record's bytes are in the ring, JSEQ_DURABLE has moved on, and the write buffer has released what the record redirected. -/
def recordDurable (s : State) (r : JRecord) : State :=
  let t := wr (ringWrite s 0x0800000 jRingSize s.map.jHead (recordBytes r.seq (jEntries r.payload).1 (jEntries r.payload).2 r.torn)) pMAP MAP_JSEQ_DURABLE (w32 r.seq)
  { t with map := { t.map with
      jHead := (t.map.jHead + jSize r.payload) % jRingSize
      undo := t.map.undo.filter fun u => !seqLe u.1 r.seq
      wb := t.map.wb.filter fun w => w.redirect != some r.seq } }

/-- In `t` the record is durable, its room in the write buffer is free, and the entries are as in `s`. -/
def DurableShown (s : State) (r : JRecord) (t : State) : Prop :=
  rd t pMAP MAP_JSEQ_DURABLE = w32 r.seq ∧ t.map.wb = s.map.wb.filter (fun w => w.redirect != some r.seq) ∧ t.map.entries = s.map.entries

theorem recordDurable_shown (s : State) (r : JRecord) : DurableShown s r (recordDurable s r) := by
  have hmap (base size head : Nat) (bytes : List Byte) : (ringWrite s base size head bytes).map = s.map := (MramWork.refl.ring base size head bytes).agree.map (by decide)
  unfold recordDurable
  extract_lets t
  have ht : t.map = s.map := hmap _ _ _ _
  have hrd : rd t pMAP MAP_JSEQ_DURABLE = w32 r.seq := rd_wr_same _ _ _ _
  clear_value t
  exact ⟨hrd, by rw [← ht], by rw [← ht]⟩

theorem jCheckpoint_shown {s t : State} {r : JRecord} (h : DurableShown s r t) (mark : Nat) : DurableShown s r (jCheckpoint t mark) := by
  unfold jCheckpoint
  extract_lets keep m u
  have hu : DurableShown s r u := h
  clear_value u keep
  split
  · exact ⟨(rd_wr_otherOff _ _ _ (by decide)).trans hu.1, hu.2⟩
  · exact hu

/-- A durable checkpoint mark drops the records behind it, and a durable directory record cleans its segments; then the pool follows. -/
theorem journalDurable_shown {s : State} {r : JRecord} (hnext : (s.map.journal.find? fun r => !seqLe r.seq (jDurable s)) = some r) (hwear : wearHolds s 0x0800000 = false) :
    DurableShown s r (journalDurable s) := by
  have hrefresh {t : State} (h : DurableShown s r t) : DurableShown s r (refreshPool t) := by
    rw [DurableShown, map_refreshPool, (refreshPool_regs t _ _ (by decide) (by decide) (by decide)).1]
    exact h
  have hdurable := recordDurable_shown s r
  unfold journalDurable
  rw [hnext]
  dsimp only
  rw [if_neg (by simp [hwear])]
  refine hrefresh ?_
  split
  · exact jCheckpoint_shown hdurable _
  · exact hdurable
  · exact hdurable

theorem runs_journalRecordDurable {s : State} (hup : pageUp s pMAP = true) {r : JRecord} (hnext : (s.map.journal.find? fun r => !seqLe r.seq (jDurable s)) = some r)
    (hwear : wearHolds s 0x0800000 = false) : Runs .journalRecordDurable s (DurableShown s r) :=
  runs_whenUp rfl hup rfl (journalDurable_shown hnext hwear)

/-- Settles O27: a change of an entry by what its journaled change leaves and what the counts that follow keep; a record by what its bytes in the ring, the mark behind it and the pool leave alone. -/
theorem mapChanges : Obligations.MapChanges := by
  unfold Obligations.MapChanges
  intro s h u new seen first n ch hup old others seq
  refine ⟨fun hstop hroom => ⟨fun hcov => ⟨?_, fun k hk => ⟨fun hsame => ?_, runs_mapChange_drop hup hstop hroom hk hcov⟩⟩, runs_mapChange_trim hup hstop hroom h first n, fun hloc => ?_,
    fun hheld hcov => ?_⟩, fun hstop hfull => runs_mapChange_full hup hstop hfull ch, fun r => runs_journalRecordDurable hup⟩
  · exact (runs_mapChange_host hup hstop hroom hcov h u seen).imp fun _ ht => ⟨ht.1, ht.2.entry, ht.2.others, ht.2.issued, ht.2.journal⟩
  · exact (runs_mapChange_move hup hstop hroom hk hcov hsame).imp fun _ ht => ⟨ht.1, ht.2.entry, ht.2.others, ht.2.issued⟩
  · exact (runs_mapChange_lock hup hstop hroom hloc).imp fun _ ht => ⟨ht.1, ht.2.entry, ht.2.others⟩
  · exact (runs_journalRingFullHold hup hstop hroom hcov hheld).imp fun _ ht => ⟨ht.1, ht.2.held, ht.2.entry, ht.2.others⟩

end Sys2Proof.Machine

/-! The block state table at work: a block's state that takes effect, victims of collection, migration and wear levelling, and the throttle window (R210, R212, R216, R218, R219, R222, R224). -/

namespace Sys2Proof.Machine

set_option Elab.async false

/-! ### Settled entries (R212, R216) -/

/-- An entry with no durable change waiting, and to which R216 does not apply, stands as it is. -/
theorem settle_of_settled {n : Nat} {e : Bst} (hc : ∀ st j, e.changing = some (st, j) → seqLe j n = false) (hf : freeableNow n e = false) : settle n e = e := by
  unfold settle
  split
  next st j h => simp [hc st j h, hf]
  next => simp [hf]

theorem settle_settled (n : Nat) (e : Bst) : (∀ st j, (settle n e).changing = some (st, j) → seqLe j n = false) ∧ freeableNow n (settle n e) = false := by
  have hstep {x : Bst} (hx : ∀ st j, x.changing = some (st, j) → seqLe j n = false) :
      (∀ st j, (if freeableNow n x then { x with state := .freeable } else x).changing = some (st, j) → seqLe j n = false)
        ∧ freeableNow n (if freeableNow n x then { x with state := .freeable } else x) = false := by
    split
    · exact ⟨hx, rfl⟩
    · exact ⟨hx, by simpa using ‹¬freeableNow n x = true›⟩
  unfold settle
  split
  next st j h =>
    split
    · exact hstep (fun _ _ hn => by cases hn)
    next hj => exact hstep (fun st' j' hn => by
      obtain ⟨rfl, rfl⟩ := Prod.mk.inj (Option.some.inj (h.symm.trans hn))
      simpa using hj)
  next h => exact hstep (fun _ _ hn => absurd (h.symm.trans hn) (by simp))

theorem settle_idem (n : Nat) (e : Bst) : settle n (settle n e) = settle n e := settle_of_settled (settle_settled n e).1 (settle_settled n e).2

/-! ### What the pool's conditions leave alone (R224) -/

theorem Upkeep.chip {s t : State} (h : Upkeep s t) : t.com.chip = s.com.chip := by
  induction h with
  | refl => rfl
  | parts _ _ _ _ _ _ _ hc ih => exact hc.trans ih
  | write _ _ _ _ _ _ ih => exact ih
  | draining _ _ _ ih => exact ih

theorem rd_refreshPool (s : State) {p o : Nat} (hp : p < 4096 ∧ p ≠ pMAP) (ho : o < 4096) : rd (refreshPool s) p o = rd s p o := by
  refine (refreshPool_regs s p o hp.1 ho fun hm => ?_).1
  obtain ⟨_, -, heq⟩ := List.mem_map.mp hm
  exact hp.2 (Prod.mk.inj heq).1.symm

theorem jDurable_refreshPool (s : State) : jDurable (refreshPool s) = jDurable s :=
  congrArg BitVec.toNat (refreshPool_regs s pMAP MAP_JSEQ_DURABLE (by decide) (by decide) (by decide)).1

theorem diePage_lt {d : Nat} (h : d < 1024) : diePage d < 4096 ∧ diePage d ≠ pMAP := by
  unfold diePage pFCH pMAP
  omega

theorem dieInService_refreshPool (s : State) {d : Nat} (h : d < 1024) : dieInService (refreshPool s) d = dieInService s d := by
  have hpresent : diePresent (refreshPool s) d = diePresent s d := by rw [diePresent, (refreshPool_upkeep s).chip, rd_refreshPool s (diePage_lt h) (by decide), ← diePresent]
  have hretired : dieRetired (refreshPool s) d = dieRetired s d := congrArg (bit · (d % 16)) (rd_refreshPool s (diePage_lt h) (by decide))
  have hfenced : chanFenced (refreshPool s) (d / 16) = chanFenced s (d / 16) := congrArg (bit · 1) (rd_refreshPool s (diePage_lt h) (by decide))
  rw [dieInService, hpresent, hretired, hfenced, (refreshPool_background s).force, ← dieInService]

theorem wornOut_refreshPool (s : State) (d : Nat) (e : Bst) : wornOut (refreshPool s) d e = wornOut s d e := by
  have hcount : retirePe (refreshPool s) d = retirePe s d := by simp only [retirePe, dieBpc, dieTypeF, dieTypeBase, inF, (refreshPool_background s).force]
  rw [wornOut, hcount, ← wornOut]

/-! ### A state that takes effect (R212, R218) -/

/-- Settling a block stores its settled entry, and moves nothing else that its erase depends on. -/
theorem settleBlock_shows (s : State) (d b : Nat) : (settleBlock s d b).fch = s.fch ∧ bstRaw (settleBlock s d b) d b = bstOf s d b ∧ bstOf (settleBlock s d b) d b = bstOf s d b := by
  have hraw : bstRaw (settleBlock s d b) d b = bstOf s d b := (refreshPool_shows _ d b).2.trans (bstRaw_putBst_same s d b _)
  refine ⟨(refreshPool_agree _).fch (by decide), hraw, ?_⟩
  have hdurable : jDurable (settleBlock s d b) = jDurable s := jDurable_refreshPool _
  rw [bstOf, hraw, hdurable]
  exact settle_idem _ _

theorem blockStateChange_settles {s : State} {d b : Nat} (h : (bstOf s d b).state ≠ .freeable) : blockStateChange s d b = settleBlock s d b := by
  unfold blockStateChange
  dsimp only
  rw [(settleBlock_shows s d b).2.2, if_neg (by simp [h])]

/-- A FREEABLE block that is neither worn nor queued goes to its die for its erase (R219). -/
theorem blockStateChange_erases {s : State} {d b : Nat} (hd : d < 1024) (hfree : (bstOf s d b).state = .freeable) (hissued : (bstOf s d b).eraseIssued = false)
    (hqueued : eraseQueued s d b = false) (hferry : ferryRunning s = false) (hserves : dieInService s d = true) (hworn : wornOut s d (bstOf s d b) = false ∨ (bstOf s d b).floor = true) :
    blockStateChange s d b = queueWork (settleBlock s d b) d (.erase b (.block 0x00C)) := by
  obtain ⟨hfch, -, hblock⟩ := settleBlock_shows s d b
  have hqueued' : eraseQueued (settleBlock s d b) d b = false := by rw [eraseQueued, dieOf_congr hfch, ← eraseQueued, hqueued]
  have hferry' : ferryRunning (settleBlock s d b) = false := (congrArg (bit · 4) (rd_refreshPool _ (by decide) (by decide))).trans hferry
  have hserves' : dieInService (settleBlock s d b) d = true := (dieInService_refreshPool _ hd).trans hserves
  have hworn' : (wornOut (settleBlock s d b) d (bstOf s d b) && !(bstOf s d b).floor) = false := by
    rw [settleBlock, wornOut_refreshPool]
    rcases hworn with h | h
    · exact (congrArg (· && _) h).trans (Bool.false_and _)
    · rw [h, Bool.not_true, Bool.and_false]
  unfold blockStateChange
  dsimp only
  rw [hblock, if_pos (by simp [hfree, hissued, hqueued', hferry', hserves']), if_neg (by simp [hworn'])]
  rfl

/-! ### The reads of a victim (R219 COPY) -/

/-- The collector's work and the state changes under way are as they were. -/
structure VictimsKept (s t : State) : Prop where
  gc : t.map.gc = s.map.gc
  changing : ∀ d b, (bstRaw t d b).changing = (bstRaw s d b).changing

namespace VictimsKept

variable {s t u : State}

theorem of_map (h : t.map = s.map) : VictimsKept s t := ⟨by rw [h], fun d b => by rw [bstRaw, h, bstRaw]⟩

theorem trans (h : VictimsKept s t) (h' : VictimsKept t u) : VictimsKept s u := ⟨h'.gc.trans h.gc, fun d b => (h'.changing d b).trans (h.changing d b)⟩

theorem ite {c : Prop} [Decidable c] (ht : VictimsKept s t) (hu : VictimsKept s u) : VictimsKept s (if c then t else u) := by
  split
  · exact ht
  · exact hu

theorem foldl {α : Type} {f : State → α → State} (hf : ∀ s a, VictimsKept s (f s a)) (l : List α) (s : State) : VictimsKept s (l.foldl f s) := by
  induction l generalizing s with
  | nil => exact of_map rfl
  | cons a l ih => exact (hf s a).trans (ih (f s a))

end VictimsKept

theorem markRelocate_victims (s : State) (d b : Nat) : VictimsKept s (markRelocate s d b) := by
  refine ⟨rfl, fun d' b' => ?_⟩
  unfold markRelocate bstRaw putBst
  by_cases hk : bstKey d' b' = bstKey d b
  · rw [hk, Tab.getD_putD_same]
  · rw [Tab.getD_putD_ne _ _ _ _ hk]

theorem handRung4_victims (s : State) (j : ReadJob) : VictimsKept s (handRung4 s j) := by
  unfold handRung4
  extract_lets p t u v
  have hu : VictimsKept s u := .of_map rfl
  have hv : VictimsKept s v := .ite hu (hu.trans (markRelocate_victims u _ _))
  exact hv.trans (.of_map rfl)

theorem queueRead_victims (s : State) (die block page cw : Nat) (cls : ReadClass) (owner : ReadOwner) : VictimsKept s (queueRead s die block page cw cls owner) := by
  unfold queueRead
  extract_lets p j f u x
  have hu : VictimsKept s u := .of_map rfl
  clear_value u
  split
  · exact hu.trans (handRung4_victims u j)
  · exact hu.trans (.of_map (putDie_frame u die _).2.1)

theorem copyReads_victims (s : State) (d b : Nat) : VictimsKept s (copyReads s d b) := by
  have hpage (t : State) (page : Nat) (l : List Nat) : VictimsKept t (l.foldl (fun t c => queueRead t d b page c .c (.gc d b)) t) := .foldl (fun u _ => queueRead_victims u _ _ _ _ _ _) l t
  refine .foldl (fun t e => ?_) _ s
  dsimp only
  split
  · exact (hpage t _ _).trans (hpage _ _ _)
  · exact hpage t _ _

/-! ### Victims (R210, R218, R222) -/

/-- The block joins the collector's work, its change to VICTIM journaled under the next JSEQ. -/
def VictimTaken (s : State) (d b : Nat) (migration : Bool) (t : State) : Prop :=
  t.map.gc = s.map.gc ++ [⟨d, b, .copy, migration⟩] ∧ (bstRaw t d b).changing = some (.victim, nextJseq s)

theorem VictimTaken.confine {s t : State} {d b : Nat} {m : Bool} (h : VictimTaken s d b m t) : VictimTaken s d b m (confine flashParts s t) := h

theorem gc_issueBlockState (s : State) (d b : Nat) (st : BlockState) (upd : Bst → Bst) : (issueBlockState s d b st upd).map.gc = s.map.gc := by
  have hissue (p : JPayload) : (jIssue s p).1.map.gc = s.map.gc := by rw [map_jIssue]
  unfold issueBlockState
  dsimp only [putBst]
  exact hissue _

/-- The block joins the collector's work. -/
def victimJoined (s : State) (d b : Nat) (migration : Bool) : State := { s with map := { s.map with gc := s.map.gc ++ [⟨d, b, .copy, migration⟩] } }

theorem makeVictim_takes (s : State) (d b : Nat) (migration : Bool) : VictimTaken s d b migration (makeVictim s d b migration) := by
  have hgc := gc_issueBlockState s d b .victim fun e => e
  have hraw := bstRaw_issueBlockState s d b .victim fun e => e
  unfold makeVictim
  generalize issueBlockState s d b .victim (fun e => e) = u at hgc hraw
  have hreads := copyReads_victims (victimJoined u d b migration) d b
  exact ⟨hreads.gc.trans (congrArg (· ++ _) hgc), (hreads.changing d b).trans (congrArg Bst.changing hraw)⟩

section
variable {s : State} (hferry : ferryRunning s = false) (hroom : jRoom s 32 = true)
include hferry hroom

theorem gcSelect_picks {d b : Nat} {e : Bst} (hpick : gcPick? s = some (d, b, e)) (hlive : wornOut s d e = false ∨ e.live ≠ 0) : gcSelect s = makeVictim s d b false := by
  unfold gcSelect
  rw [if_neg (by simp [hferry, hroom]), hpick]
  exact if_neg (by simpa [imp_iff_not_or] using hlive)

theorem migrationStart_takes {d b : Nat} {e : Bst} (hover : oasisOver s = true) (hstart : inF s pMAP MAP_MIGRATE_START 6 0 ≠ 0)
    (hcold : coldest? s ((gcCandidates s).filter fun c => c.2.2.slc) = some (d, b, e)) : migrationStart s = makeVictim s d b true := by
  unfold migrationStart
  rw [if_neg (by simp [hferry, hroom, hover, hstart]), hcold]

theorem staticWear_takes {d b : Nat} {e : Bst} (hdelta : inF s pMAP MAP_WL_DELTA 15 0 ≠ 0) (hspread : inF s pMAP MAP_WL_DELTA 15 0 < eraseSpread s d)
    (hold : minBy? (fun c : Nat × Nat × Bst => c.2.2.closeStamp) ((gcCandidates s).filter fun c => c.1 == d) = some (d, b, e)) : staticWear s d = makeVictim s d b false := by
  have hgo : ¬(inF s pMAP MAP_WL_DELTA 15 0 = 0 ∨ eraseSpread s d ≤ inF s pMAP MAP_WL_DELTA 15 0 ∨ ferryRunning s = true ∨ (!jRoom s 32) = true) := by
    simp [hdelta, hspread, hferry, hroom]
  refine (if_neg hgo).trans ?_
  rw [hold]

end

/-! ### The commands -/

section
variable {s : State} (hup : pageUp s pMAP = true)
include hup

theorem runs_blockStateChange_settles {die : Fin 1024} {block : Fin 16384} (h : (bstOf s die.val block.val).state ≠ .freeable) :
    Runs (.blockStateChange die block) s fun t => bstRaw t die.val block.val = bstOf s die.val block.val ∧ t.fch = s.fch := by
  obtain ⟨hfch, hraw, -⟩ := settleBlock_shows s die.val block.val
  refine runs_whenUp rfl hup (blockStateChange_settles h) ?_
  rw [bstRaw_confine, fch_confine]
  exact ⟨hraw, hfch⟩

theorem runs_blockStateChange_erases {die : Fin 1024} {block : Fin 16384} (hfree : (bstOf s die.val block.val).state = .freeable) (hissued : (bstOf s die.val block.val).eraseIssued = false)
    (hqueued : eraseQueued s die.val block.val = false) (hferry : ferryRunning s = false) (hserves : dieInService s die.val = true)
    (hworn : wornOut s die.val (bstOf s die.val block.val) = false ∨ (bstOf s die.val block.val).floor = true) :
    Runs (.blockStateChange die block) s fun t => (dieOf t die.val).work = (dieOf s die.val).work ++ [.erase block.val (.block 0x00C)] := by
  refine runs_whenUp rfl hup (blockStateChange_erases die.isLt hfree hissued hqueued hferry hserves hworn) ?_
  rw [dieOf_confine, queueWork, dieOf_putDie_same, dieOf_congr (settleBlock_shows s _ _).1]

/-- A command whose operation makes a victim shows it. -/
theorem runs_victim {c : Instr} {f : State → State} {d b : Nat} {m : Bool} (he : exec c s = .next (confine flashParts s (whenUp pMAP f s))) (hf : f s = makeVictim s d b m) :
    Runs c s (VictimTaken s d b m) := runs_whenUp he hup hf (makeVictim_takes s d b m).confine

theorem runs_throttleWindow (elapsed : Nat) : Runs (.throttleWindow elapsed) s fun t =>
    t.map.lastReturned = s.map.returned ∧ t.map.returned = 0 ∧ t.map.admitted = 0 ∧ t.map.entries = s.map.entries :=
  runs_whenUp (v := advance s elapsed) rfl hup rfl ⟨rfl, rfl, rfl, rfl⟩

end

/-- Settles O28: a block's state by its settled entry, a victim by the record that takes it and the reads that leave that record alone, and the window by its counts. -/
theorem blockStatesAndCollection : Obligations.BlockStatesAndCollection := by
  unfold Obligations.BlockStatesAndCollection
  intro s die block elapsed hup b seq victim
  exact ⟨runs_blockStateChange_settles hup, runs_blockStateChange_erases hup,
    fun hferry hroom => ⟨fun _ _ _ hpick hlive => runs_victim hup rfl (gcSelect_picks hferry hroom hpick hlive),
      fun _ _ _ hover hstart hcold => runs_victim hup rfl (migrationStart_takes hferry hroom hover hstart hcold),
      fun _ _ hdelta hspread hold => runs_victim hup rfl (staticWear_takes hferry hroom hdelta hspread hold)⟩,
    runs_throttleWindow hup elapsed⟩

end Sys2Proof.Machine

/-! The tiers of the map: lookups, page fills, write-backs, the host window, and checkpoints of the map and of the stripe engine (R192, R195, R196, R215, R243). -/

namespace Sys2Proof.Machine

set_option Elab.async false

/-! ### Lookups (R192, R215) -/

/-- The unit's entry in the write-buffer index, if it has one. -/
def bufferedUnit? (s : State) (h u : Nat) : Option WbUnit := s.map.wb.find? fun w => w.handle == h && w.unit == u && w.redirect.isNone

/-- The trimmed entry is valid in every namespace (R186, R188). -/
theorem validEntry_trimmed (s : State) (h : Nat) : validEntry s h trimmed = true := by
  unfold validEntry
  dsimp only
  rw [if_neg (by decide), if_pos (by decide)]
  decide

theorem resolve_trimmed (s : State) (h u : Nat) (t : LookupEnd) : resolve s h u t trimmed = lookupEnds s h u .trimmed trimmed := by
  unfold resolve
  rw [if_neg (by simp [validEntry_trimmed]), if_pos (by decide)]

theorem resolve_located {s : State} {h u : Nat} {e : BitVec 64} (t : LookupEnd) (hvalid : validEntry s h e = true) (hloc : entT e = false) :
    resolve s h u t e = lookupEnds (pinBlock s (entDie e) (entBlock e)) h u t e := by
  unfold resolve
  rw [if_neg (by simp [hvalid]), if_neg (by simp [hloc])]

/-- Settling an entry pins nothing. -/
theorem pins_settle (n : Nat) (e : Bst) : (settle n e).pins = e.pins := by
  have hfreeable (x : Bst) : (if freeableNow n x then { x with state := .freeable } else x).pins = x.pins := by split <;> rfl
  unfold settle
  dsimp only
  rw [hfreeable]
  split
  · split <;> rfl
  · rfl

/-- A block with a free pin takes one more (R215). -/
theorem pins_pinBlock {s : State} {d b : Nat} (h : (bstOf s d b).pins < 0xFFFF) : (bstOf (pinBlock s d b) d b).pins = (bstOf s d b).pins + 1 := by
  have hraw : bstRaw (pinBlock s d b) d b = { bstOf s d b with pins := (bstOf s d b).pins + 1 } := (bstRaw_putBst_same s d b _).trans (if_pos h)
  rw [bstOf, pins_settle, hraw]

section
variable {s : State} {h u mu : Nat} (hmu : s.map.mu.get? h = some mu)
include hmu

theorem mapLookup_buffered {w : WbUnit} (hw : bufferedUnit? s h u = some w) : mapLookup s h u = lookupEnds s h u .writeBuffer 0 := by
  unfold mapLookup
  rw [if_neg (by simp [hmu]), ← bufferedUnit?, hw]

section
variable (hnone : bufferedUnit? s h u = none)
include hnone

theorem mapLookup_cached (hcached : s.map.cached.contains (segKey h u) = true) (hinj : s.map.inject = []) :
    mapLookup s h u = resolve (cacheTouch s [segKey h u]) h u .cache (entryAt s h u) := by
  have harm : (cacheTouch s [segKey h u]).map.inject.contains 3 = false := (congrArg (List.contains · 3) hinj).trans rfl
  unfold mapLookup
  rw [if_neg (by simp [hmu]), ← bufferedUnit?, hnone]
  dsimp only
  rw [if_pos hcached, if_neg (ne_true_of_eq_false harm)]
  rfl

/-- Outside the cache, with no window, a unit whose map page was never written is trimmed (R193). -/
theorem mapLookup_unwritten (hcached : s.map.cached.contains (segKey h u) = false) (hwindow : hmwActive s = false) (hdir : dirAt s h (u / 2048) = trimmed) :
    mapLookup s h u = lookupEnds s h u .trimmed trimmed := by
  have hflash : lookupFlash s h u = lookupEnds s h u .trimmed trimmed := by
    unfold lookupFlash
    dsimp only
    rw [hdir, if_pos (by decide)]
  unfold mapLookup
  rw [if_neg (by simp [hmu]), ← bufferedUnit?, hnone]
  dsimp only
  rw [if_neg (ne_true_of_eq_false hcached), lookupWindow, if_neg (ne_true_of_eq_false hwindow)]
  exact hflash

end

end

/-! ### Page fills (R192) -/

/-- Nothing leaves a cache that is not over its size. -/
theorem evictTo_zero (dirty l : List Nat) : evictTo dirty 0 l = l := by
  induction l with
  | nil => rfl
  | cons k ks ih => rw [evictTo, if_neg (by simp), ih]

theorem cached_cacheTouch {s : State} {ks : List Nat} (hroom : s.map.cached.length + ks.length ≤ cacheMax s) :
    (cacheTouch s ks).map.cached = s.map.cached.filter (fun k => !ks.contains k) ++ ks := by
  have hfilter := List.length_filter_le (fun k => !ks.contains k) s.map.cached
  unfold cacheTouch
  dsimp only
  rw [List.length_append, show (s.map.cached.filter fun k => !ks.contains k).length + ks.length - cacheMax s = 0 by omega, evictTo_zero]

/-- A window slot that is refreshed bears on no other table of the map. -/
theorem refreshSlot_frame (s : State) (k : Nat) : (refreshSlot s k).map.filling = s.map.filling ∧ (refreshSlot s k).map.cached = s.map.cached := by
  unfold refreshSlot
  split
  · exact ⟨rfl, rfl⟩
  · split
    · exact ⟨rfl, rfl⟩
    · split
      · split <;> exact ⟨rfl, rfl⟩
      · exact ⟨rfl, rfl⟩

theorem foldl_refreshSlot_frame (ks : List Nat) (s : State) : (ks.foldl refreshSlot s).map.filling = s.map.filling ∧ (ks.foldl refreshSlot s).map.cached = s.map.cached := by
  refine List.foldlRecOn (motive := fun t : State => t.map.filling = s.map.filling ∧ t.map.cached = s.map.cached) _ _ ⟨rfl, rfl⟩ fun t ht k _ => ?_
  exact ⟨(refreshSlot_frame t k).1.trans ht.1, (refreshSlot_frame t k).2.trans ht.2⟩

/-- The four segments of a map page (R193). -/
def pageSegments (h p : Nat) : List Nat := (List.range 4).map fun i => h * 2 ^ 40 + 4 * p + i

/-- The fill of a map page has ended. -/
def fillEnded (s : State) (k : Nat) : State := { s with map := { s.map with filling := s.map.filling.filter (· != k) } }

theorem contains_fillEnded (s : State) (k : Nat) : (fillEnded s k).map.filling.contains k = false := by simp [fillEnded]

section
variable {s : State} {h p : Nat} (hfill : s.map.filling.contains (pageKey h p) = true)
include hfill

theorem pageFill_recovered : pageFill s h p true = (pageSegments h p).foldl refreshSlot (cacheTouch (fillEnded s (pageKey h p)) (pageSegments h p)) := by
  unfold pageFill
  rw [if_neg (by rw [hfill]; decide)]
  rfl

theorem pageFill_lost : pageFill s h p false = setFault (fillEnded s (pageKey h p)) pMAP .uncorrectable (Config.blockCause 10) (h % 65536) := by
  unfold pageFill
  rw [if_neg (by rw [hfill]; decide)]
  rfl

theorem pageFill_recovered_shows (hroom : s.map.cached.length + 4 ≤ cacheMax s) :
    (pageFill s h p true).map.filling.contains (pageKey h p) = false ∧ ∀ i, i < 4 → (pageFill s h p true).map.cached.contains (h * 2 ^ 40 + 4 * p + i) = true := by
  obtain ⟨hfilling, hcached⟩ := foldl_refreshSlot_frame (pageSegments h p) (cacheTouch (fillEnded s (pageKey h p)) (pageSegments h p))
  rw [pageFill_recovered hfill, hfilling, hcached, cached_cacheTouch (s := fillEnded s (pageKey h p)) (ks := pageSegments h p) (show s.map.cached.length + (pageSegments h p).length ≤ cacheMax s by simpa [pageSegments] using hroom)]
  refine ⟨contains_fillEnded s _, fun i hi => ?_⟩
  rw [List.contains_iff_mem]
  exact List.mem_append_right _ (List.mem_map.mpr ⟨i, List.mem_range.mpr hi, rfl⟩)

theorem pageFill_lost_shows : (pageFill s h p false).map.filling.contains (pageKey h p) = false ∧ fld (rd (pageFill s h p false) pMAP rFAULT) 31 28 = 5 := by
  rw [pageFill_lost hfill, (setFault_agree _ _ _ _ _).map (by decide)]
  exact ⟨contains_fillEnded s _, (rd_setFault _ (by decide) _ _ _).1⟩

end

/-! ### Write-backs (R195) -/

/-- The directory entry of a page written back: a whole flash page (R193). -/
def pageEntry (loc : BitVec 64) : BitVec 64 := mkEntry (entDie loc) (entBlock loc) (entPage loc) 0 256 0

/-- In `t` the page's directory entry has moved, its record issued under the next JSEQ. -/
def PageMoved (s : State) (h p : Nat) (e : BitVec 64) (t : State) : Prop :=
  t.map.journal = s.map.journal ++ [⟨nextJseq s, .dirUpdate h p e, false⟩] ∧ dirAt t h p = e ∧ rd t pMAP MAP_JSEQ_ISSUED = w32 (nextJseq s)

/-- A page reads the directory entry that was put for it. -/
theorem dirAt_of_putD {s t : State} {h p : Nat} {e : BitVec 64} (hdir : t.map.dir = s.map.dir.putD (pageKey h p) e trimmed) : dirAt t h p = e := by
  rw [dirAt, hdir, Tab.getD_putD_same]

theorem checkpointStep_of_none {s : State} (h : s.map.ckpt = none) (done : Nat) : checkpointStep s done = s := by rw [checkpointStep, h]

/-- The map with its list of segments being cleaned replaced. -/
def withCleaning (s : State) (c : List Nat) : State := { s with map := { s.map with cleaning := c } }

theorem withCleaning_setDir (s : State) (h p : Nat) (e : BitVec 64) (seq : Nat) (c : List Nat) :
    (withCleaning (setDir s h p e seq) c).com = s.com ∧ (withCleaning (setDir s h p e seq) c).map.journal = s.map.journal ∧ (withCleaning (setDir s h p e seq) c).map.ckpt = s.map.ckpt
      ∧ (withCleaning (setDir s h p e seq) c).map.dir = s.map.dir.putD (pageKey h p) e trimmed := by
  obtain ⟨b, hdir⟩ := setDir_eq s h p e seq
  rw [hdir]
  exact ⟨rfl, rfl, rfl, rfl⟩

theorem writeBack_of_free {s : State} {h p : Nat} {loc : BitVec 64} (hdirty : dirtyOf s h p ≠ []) (hstop : mapStopped s = false) (hcov : copyCovered s loc = true) :
    ∃ c, writeBack s h p loc = checkpointStep (withCleaning (setDir (jIssue (packPage s) (.dirUpdate h p (pageEntry loc))).1 h p (pageEntry loc) (nextJseq s)) c) (pageKey h p) := by
  unfold writeBack
  rw [if_neg (by simp [hdirty, hstop, hcov]), ← pageEntry]
  dsimp only
  rw [jIssue_seq, show nextJseq (packPage s) = nextJseq s from rfl]
  generalize setDir (jIssue (packPage s) (.dirUpdate h p (pageEntry loc))).1 h p (pageEntry loc) (nextJseq s) = v
  exact ⟨_, rfl⟩

theorem writeBack_moves {s : State} {h p : Nat} {loc : BitVec 64} (hdirty : dirtyOf s h p ≠ []) (hstop : mapStopped s = false) (hcov : copyCovered s loc = true)
    (hckpt : s.map.ckpt = none) : PageMoved s h p (pageEntry loc) (writeBack s h p loc) := by
  obtain ⟨c, hback⟩ := writeBack_of_free hdirty hstop hcov
  have hmap := map_jIssue (packPage s) (.dirUpdate h p (pageEntry loc))
  have hseq := rd_jIssue (packPage s) (.dirUpdate h p (pageEntry loc))
  have hjournal : (jIssue (packPage s) (.dirUpdate h p (pageEntry loc))).1.map.journal = s.map.journal ++ [⟨nextJseq s, .dirUpdate h p (pageEntry loc), false⟩] := by
    rw [hmap]
    rfl
  have hnone : (jIssue (packPage s) (.dirUpdate h p (pageEntry loc))).1.map.ckpt = none := by
    rw [hmap]
    exact hckpt
  rw [hback]
  generalize (jIssue (packPage s) (.dirUpdate h p (pageEntry loc))).1 = v at hjournal hnone hseq
  obtain ⟨hcom, hlist, hpass, hdir⟩ := withCleaning_setDir v h p (pageEntry loc) (nextJseq s) c
  generalize withCleaning (setDir v h p (pageEntry loc) (nextJseq s)) c = t at hcom hlist hpass hdir
  rw [checkpointStep_of_none (hpass.trans hnone)]
  exact ⟨hlist.trans hjournal, dirAt_of_putD hdir, (rd_congr (congrArg Common.regs hcom) (congrArg Common.chip hcom) _ _).trans hseq⟩

/-! ### The host window (R196) -/

/-- In `t` the window is empty, has a slot for each 8 KiB granted, and holds a fresh key in slot 0xFFF0. -/
def WindowOpened (s : State) (granted : Nat) (t : State) : Prop :=
  t.map.window = [] ∧ t.map.slots = granted / 8192 ∧ t.map.windowKey = s.com.free ∧ t.com.free = s.com.free + 1
    ∧ bit (rd t pMAP MAP_HMW_STATUS) 0 = (bit (inForce s pMAP MAP_MAP_CFG) 0 && decide (granted / 8192 ≠ 0)) ∧ bit (rd t pMAP MAP_HMW_STATUS) 1 = false
    ∧ (slotOf t 0xFFF0).state = .valid ∧ (slotOf t 0xFFF0).type = 4 ∧ (slotOf t 0xFFF0).gen = nextGen (slotOf s 0xFFF0)

/-- HMW_STATUS of a window that is not suspended shows ACTIVE beside the slots (R227). -/
theorem bit_hmwStatus (n : Nat) (active : Bool) : bit (w32 (n % 2 ^ 23 * 16 + 0 + (if active then 1 else 0))) 0 = active ∧ bit (w32 (n % 2 ^ 23 * 16 + 0 + (if active then 1 else 0))) 1 = false := by
  have hlow (i : Nat) (hi : i < 2) (x : Nat) (hx : x < 2) : bit (w32 (n % 2 ^ 23 * 16 + 0 + x)) i = decide (x / 2 ^ i % 2 = 1) := by
    rw [bit, w32, BitVec.getLsbD_ofNat, decide_eq_true (by omega), Bool.true_and, Nat.testBit_eq_decide_div_mod_eq]
    interval_cases i <;> congr 1 <;> rw [eq_iff_iff] <;> omega
  cases active
  · exact ⟨hlow 0 (by omega) 0 (by omega), hlow 1 (by omega) 0 (by omega)⟩
  · exact ⟨hlow 0 (by omega) 1 (by omega), hlow 1 (by omega) 1 (by omega)⟩

theorem slotOf_putSlot_same (s : State) (k : Nat) (x : KeySlot) : slotOf (putSlot s k x) k = x := Tab.getD_putD_same _ _ _ _

theorem hmwOpen_opens {s : State} (hseeded : drbgSeeded s = true) (granted : Nat) : WindowOpened s granted (hmwOpen s granted) := by
  have hkey (u : State) : slotOf (windowKeyLoad u) 0xFFF0 = _ ∧ (windowKeyLoad u).map = u.map ∧ (windowKeyLoad u).com.free = u.com.free := ⟨slotOf_putSlot_same u _ _, rfl, rfl⟩
  have hstatus (u : State) : rd (windowKeyLoad u) pMAP MAP_HMW_STATUS = rd u pMAP MAP_HMW_STATUS := (rd_wr_ne _ _ (by decide)).trans rfl
  obtain ⟨hactive, hsuspended⟩ := bit_hmwStatus (granted / 8192) (bit (inForce s pMAP MAP_MAP_CFG) 0 && decide (granted / 8192 ≠ 0))
  obtain ⟨hslot, hmap, hfree⟩ := hkey (hmwEnable s granted)
  have hshown : rd (hmwEnable s granted) pMAP MAP_HMW_STATUS = _ := rd_wr_same _ _ _ _
  rw [hmwOpen, if_pos hseeded, WindowOpened, hstatus, hslot, hmap, hfree, hshown]
  exact ⟨rfl, rfl, rfl, rfl, hactive, hsuspended, rfl, rfl, rfl⟩

/-! ### Checkpoints (R195, R243) -/

/-- ARG [31] = 1 takes every dirty page. -/
theorem mapCheckpoint_all {s : State} {arg : Word} (harg : bit arg 31 = true) (hdirty : dirtyPages s ≠ []) : mapCheckpoint s arg = { s with map := { s.map with ckpt := some (dirtyPages s) } } := by
  have hne : arg ≠ 0 := by
    rintro rfl
    exact absurd harg (by decide)
  unfold mapCheckpoint
  dsimp only
  rw [if_neg hne, harg, if_pos rfl, if_neg (by simpa using hdirty)]

/-- The SSEQ that the next stripe record takes (R242). -/
def nextSseq (s : State) : Nat := ((rd s pSTR STR_SSEQ_ISSUED).toNat + 1) % 2 ^ 32

/-- In `t` a record is the last of the stripe journal, and its number the last issued. -/
def StripeRecordLast (t : State) (seq : Nat) (p : SPayload) : Prop :=
  (∃ j torn, t.str.journal = j ++ [⟨seq, p, torn⟩]) ∧ rd t pSTR STR_SSEQ_ISSUED = w32 seq

theorem sIssue_last (s : State) (p : SPayload) : StripeRecordLast (sIssue s p) (nextSseq s) p := by
  have hseq (v : Word) (c : Prop) [Decidable c] :
      rd (if c then wr (wr (wr s pSTR STR_SSEQ_ISSUED v) pSTR STR_SSEQ_DURABLE v) pSTR STR_SSEQ_TAIL v else wr (wr s pSTR STR_SSEQ_ISSUED v) pSTR STR_SSEQ_DURABLE v) pSTR STR_SSEQ_ISSUED = v := by
    have hissued : rd (wr (wr s pSTR STR_SSEQ_ISSUED v) pSTR STR_SSEQ_DURABLE v) pSTR STR_SSEQ_ISSUED = v := (rd_wr_otherOff _ _ _ (by decide)).trans (rd_wr_same _ _ _ _)
    split
    · exact (rd_wr_otherOff _ _ _ (by decide)).trans hissued
    · exact hissued
  have hlisted {u : State} (hu : rd u pSTR STR_SSEQ_ISSUED = w32 (nextSseq s)) (base size head : Nat) (bytes : List Byte) (st : Stripe) (j : List SRecord) (torn : Bool)
      (hst : st.journal = j ++ [⟨nextSseq s, p, torn⟩]) (c : Prop) [Decidable c] :
      StripeRecordLast (if c then irq { ringWrite u base size head bytes with str := st } pSTR 6 else { ringWrite u base size head bytes with str := st }) (nextSseq s) p := by
    have hring : rd (ringWrite u base size head bytes) pSTR STR_SSEQ_ISSUED = w32 (nextSseq s) := (MramWork.refl.ring base size head bytes |>.kept (by decide) (by decide)).trans hu
    generalize ringWrite u base size head bytes = v at hring
    split
    · exact ⟨⟨j, torn, hst⟩, (rd_wr_otherOff _ _ _ (by decide)).trans hring⟩
    · exact ⟨⟨j, torn, hst⟩, hring⟩
  exact hlisted (hseq _ _) _ _ _ _ _ _ _ rfl _

/-- What is dropped from the front of a list leaves the last element that is not to be dropped. -/
theorem getLast?_dropWhile_concat {α : Type} {q : α → Bool} {a : α} (ha : q a = false) (l : List α) : ((l ++ [a]).dropWhile q).getLast? = some a := by
  induction l with
  | nil => simp [ha]
  | cons b l ih =>
    rw [List.cons_append, List.dropWhile_cons]
    split
    · exact ih
    · rw [← List.cons_append, List.getLast?_concat]

/-- A checkpoint of the stripe engine leaves its mark as the last record: the tail stops before it. -/
theorem strCheckpoint_marks {s : State} {arg : Word} (harg : bit arg 31 = true) : ((strCheckpoint s arg).str.journal.getLast?.map fun r => r.payload) = some .mark := by
  obtain ⟨⟨j, torn, hjournal⟩, hissued⟩ := sIssue_last s .mark
  unfold strCheckpoint
  rw [if_neg (by simp [harg])]
  generalize sIssue s .mark = u at hjournal hissued
  have hlast : (rd u pSTR STR_SSEQ_ISSUED).toNat = nextSseq s := by
    rw [hissued, w32, BitVec.toNat_ofNat]
    exact Nat.mod_eq_of_lt (Nat.mod_lt _ (by decide))
  have hkept : ((u.str.journal.dropWhile fun r => !sInFlight u r && r.seq != (rd u pSTR STR_SSEQ_ISSUED).toNat).getLast?.map fun r => r.payload) = some .mark := by
    rw [hjournal, getLast?_dropWhile_concat (by simp [hlast])]
    rfl
  dsimp only
  split
  · exact hkept
  · exact hkept

/-! ### The commands -/

section
variable {s : State} (hup : pageUp s pMAP = true)
include hup

/-- A lookup that ends without a location moves no register. -/
theorem runs_mapLookup_ends {h : Fin 1024} {u : BitVec 48} {how : LookupEnd} {e : BitVec 64} {t : State} (hcom : t.com = s.com) (heq : mapLookup s h.val u.toNat = lookupEnds t h.val u.toNat how e) :
    Runs (.mapLookup h u) s fun t => t.map.lastLookup = some (h.val, u.toNat, how, e) ∧ RegsKept [] s t :=
  runs_whenUp rfl hup heq ⟨rfl, regsKept_of_eq [] (congrArg Common.regs hcom) (congrArg Common.chip hcom)⟩

theorem runs_mapLookup_located {h : Fin 1024} {u : BitVec 48} {mu : Nat} (hmu : s.map.mu.get? h.val = some mu) (hnone : bufferedUnit? s h.val u.toNat = none) (hcached : s.map.cached.contains (segKey h.val u.toNat) = true) (hinj : s.map.inject = []) {e : BitVec 64}
    (he : entryAt s h.val u.toNat = e) (hvalid : validEntry s h.val e = true) (hloc : entT e = false) (hpins : (bstOf s (entDie e) (entBlock e)).pins < 0xFFFF) :
    Runs (.mapLookup h u) s fun t =>
      t.map.lastLookup = some (h.val, u.toNat, .cache, e) ∧ (bstOf t (entDie e) (entBlock e)).pins = (bstOf s (entDie e) (entBlock e)).pins + 1 := by
  have heq := mapLookup_cached hmu hnone hcached hinj
  rw [he, resolve_located (s := cacheTouch s [segKey h.val u.toNat]) .cache hvalid hloc] at heq
  exact runs_whenUp rfl hup heq ⟨rfl, pins_pinBlock (s := cacheTouch s [segKey h.val u.toNat]) hpins⟩

theorem runs_hmwEnable (hseeded : drbgSeeded s = true) (granted : Nat) : Runs (.hmwEnable granted) s (WindowOpened s granted) :=
  runs_of_effect rfl (if_pos hup) (hmwOpen_opens hseeded granted)

end

theorem runs_checkpointBegin_mapFill {s : State} (hhigh : jHigh s = true) (hckpt : s.map.ckpt = none) (hdirty : dirtyPages s ≠ []) :
    Runs (.checkpointBegin .mapFill) s fun t => t.map.ckpt = some (dirtyPages s) :=
  runs_of_effect rfl ((if_pos (by rw [hhigh, hckpt]; rfl)).trans (mapCheckpoint_all (by decide) hdirty)) rfl

theorem runs_checkpointBegin_strFill {s : State} (hhigh : sHigh s = true) : Runs (.checkpointBegin .strFill) s fun t => (t.str.journal.getLast?.map fun r => r.payload) = some .mark :=
  runs_of_effect rfl (if_pos hhigh) (strCheckpoint_marks (s := irq s pSTR 6) (by decide))

theorem runs_checkpointBegin_launch {s : State} {i : Fin 1024} (h : delivers s i.val 3 pMAP = true) (hpage : (entryOf s i.val).page = pMAP) (harg : bit (entryOf s i.val).arg 31 = true)
    (hdirty : dirtyPages s ≠ []) : Runs (.checkpointBegin (.launch i)) s fun t => t.map.ckpt = some (dirtyPages s) ∧ t.sgl.returns.get? i.val = some 0 := by
  have hw := deliver_of_delivers (fun s e => (checkpointAt s e.page e.arg, 0)) (fun e => e.page) (hpage.symm ▸ h)
  have hact : checkpointAt s (entryOf s i.val).page (entryOf s i.val).arg = _ := (if_pos hpage).trans (mapCheckpoint_all harg hdirty)
  rw [hact] at hw
  exact runs_of_effect rfl hw ⟨rfl, returns_outcomeSent _ _ _ _ (by decide)⟩

/-- Settles O26: a lookup by the tier that answers it, a page fill and a write-back by what they leave of the tables, the window by its key, and a checkpoint by its pages or by its mark. -/
theorem mapTiers : Obligations.MapTiers := by
  unfold Obligations.MapTiers
  intro s h u pg loc granted e seq ends buffered
  refine ⟨fun hup => ⟨fun mu hmu => ⟨fun w hw => runs_mapLookup_ends hup rfl (mapLookup_buffered hmu hw), fun hnone hcached hinj => ⟨fun htrim => ?_, ?_⟩,
      fun hnone hcached hwindow hdir => runs_mapLookup_ends hup rfl (mapLookup_unwritten hmu hnone hcached hwindow hdir)⟩,
      fun hfill => ⟨fun hroom => runs_whenUp rfl hup rfl (pageFill_recovered_shows hfill hroom), runs_whenUp rfl hup rfl (pageFill_lost_shows hfill)⟩,
      fun hdirty hstop hcov hckpt => runs_whenUp rfl hup rfl (writeBack_moves hdirty hstop hcov hckpt), fun hseeded => runs_hmwEnable hup hseeded granted⟩,
    runs_checkpointBegin_mapFill, runs_checkpointBegin_strFill, fun i => runs_checkpointBegin_launch⟩
  · have heq := mapLookup_cached hmu hnone hcached hinj
    rw [show entryAt s h.val u.toNat = trimmed from htrim, resolve_trimmed] at heq
    exact runs_mapLookup_ends (t := cacheTouch s [segKey h.val u.toNat]) hup rfl heq
  · exact runs_mapLookup_located hup hmu hnone hcached hinj rfl

end Sys2Proof.Machine

/-! Parity P of a stripe: the byte-wise sum of the data members, and the member that it recovers (R231, R232). -/

namespace Sys2Proof.Machine

set_option Elab.async false

/-! ### Sums of codewords -/

theorem xorBytes_comm (a b : List Byte) : xorBytes a b = xorBytes b a := List.zipWith_comm_of_comm BitVec.xor_comm

theorem xorBytes_assoc (a b c : List Byte) : xorBytes (xorBytes a b) c = xorBytes a (xorBytes b c) := by
  induction a generalizing b c with
  | nil => simp [xorBytes]
  | cons x a ih =>
    cases b with
    | nil => simp [xorBytes]
    | cons y b =>
      cases c with
      | nil => simp [xorBytes]
      | cons z c => exact congrArg₂ List.cons (BitVec.xor_assoc x y z) (ih b c)

theorem xorBytes_self (a : List Byte) : xorBytes a a = List.replicate a.length 0 := by
  rw [xorBytes, List.zipWith_self]
  simp

theorem xorBytes_zeros {n : Nat} {a : List Byte} (h : a.length = n) : xorBytes a (List.replicate n 0) = a := by
  subst h
  induction a with
  | nil => rfl
  | cons x a ih => exact congrArg₂ List.cons (BitVec.xor_zero) ih

theorem sumP_cons (n : Nat) (m : Nat × List Byte) (ms : List (Nat × List Byte)) : sumP n (m :: ms) = xorBytes m.2 (sumP n ms) := by
  have hcarry (a acc : List Byte) : ms.foldl (fun acc d => xorBytes acc d.2) (xorBytes acc a) = xorBytes (ms.foldl (fun acc d => xorBytes acc d.2) acc) a := by
    induction ms generalizing acc with
    | nil => rfl
    | cons d ms ih => rw [List.foldl_cons, List.foldl_cons, xorBytes_assoc, xorBytes_comm a, ← xorBytes_assoc, ih]
  rw [sumP, List.foldl_cons, hcarry, xorBytes_comm, sumP]

theorem length_sumP {n : Nat} {ms : List (Nat × List Byte)} (h : ∀ m ∈ ms, m.2.length = n) : (sumP n ms).length = n := by
  induction ms with
  | nil => simp [sumP]
  | cons m ms ih =>
    obtain ⟨hm, hms⟩ := List.forall_mem_cons.mp h
    simp [sumP_cons, xorBytes, hm, ih hms]

/-- A member's part of the sum may be taken out. -/
theorem sumP_remove (n : Nat) {x : Nat} {d : List Byte} {ms : List (Nat × List Byte)} (hkeys : (ms.map (·.1)).Nodup) (hmem : (x, d) ∈ ms) :
    sumP n ms = xorBytes d (sumP n (ms.filter fun m => m.1 != x)) := by
  induction ms with
  | nil => cases hmem
  | cons m ms ih =>
    obtain ⟨hnew, hrest⟩ := List.nodup_cons.mp (List.map_cons .. ▸ hkeys)
    rcases List.mem_cons.mp hmem with rfl | hin
    · have hkeep : ms.filter (fun m => m.1 != x) = ms := List.filter_eq_self.mpr fun m hm => by
        simpa using fun he : m.1 = x => hnew (List.mem_map.mpr ⟨m, hm, he⟩)
      rw [sumP_cons, List.filter_cons_of_neg (by simp), hkeep]
    · have hne : m.1 ≠ x := fun he => hnew (List.mem_map.mpr ⟨(x, d), hin, he.symm⟩)
      rw [sumP_cons, List.filter_cons_of_pos (by simpa using hne), sumP_cons, ih hrest hin, ← xorBytes_assoc, xorBytes_comm m.2, xorBytes_assoc]

/-- P less the sum of the other members leaves the member (R232). -/
theorem xorBytes_sumP_others {n x : Nat} {d : List Byte} {ms : List (Nat × List Byte)} (hkeys : (ms.map (·.1)).Nodup) (hlen : ∀ m ∈ ms, m.2.length = n) (hmem : (x, d) ∈ ms) :
    xorBytes (sumP n ms) (sumP n (ms.filter fun m => m.1 != x)) = d := by
  have hrest : (sumP n (ms.filter fun m => m.1 != x)).length = n := length_sumP fun m hm => hlen m (List.mem_filter.mp hm).1
  rw [sumP_remove n hkeys hmem, xorBytes_assoc, xorBytes_self, hrest, xorBytes_zeros (hlen _ hmem)]

/-! ### The numbered members of a stripe -/

/-- Data members with their numbers, as O29 writes them. -/
def numberedMembers (ds : List (List Byte)) : List (Nat × List Byte) := (List.range ds.length).zip ds

theorem keys_numberedMembers (ds : List (List Byte)) : (numberedMembers ds).map (·.1) = List.range ds.length := List.map_fst_zip (by simp)

theorem mem_numberedMembers {ds : List (List Byte)} {x : Nat} (h : x < ds.length) : (x, ds.getD x []) ∈ numberedMembers ds := by
  rw [numberedMembers, List.mem_iff_getElem]
  exact ⟨x, by simpa using h, by simp [h]⟩

theorem numberedMembers_lt {ds : List (List Byte)} {m : Nat × List Byte} (h : m ∈ numberedMembers ds) : m.1 < ds.length ∧ m.2 ∈ ds :=
  ⟨List.mem_range.mp (List.of_mem_zip h).1, (List.of_mem_zip h).2⟩

/-- Whether a member survives is read off its number. -/
theorem any_numberedMembers (ds : List (List Byte)) (i : Nat) : ((numberedMembers ds).any fun m => m.1 == i) = decide (i < ds.length) := by
  rw [Bool.eq_iff_iff, List.any_eq_true, decide_eq_true_iff]
  constructor
  · rintro ⟨m, hm, he⟩
    exact beq_iff_eq.mp he ▸ (numberedMembers_lt hm).1
  · exact fun h => ⟨_, mem_numberedMembers h, beq_self_eq_true i⟩

/-! ### Recovery -/

/-- With every data member there, P is their sum. -/
theorem recoverMember_parity (n : Nat) (ds : List (List Byte)) : recoverMember ds.length 0 n ds.length (numberedMembers ds) = some (sumP n (numberedMembers ds)) := by
  have hdata : ((numberedMembers ds).filter fun m => decide (m.1 < ds.length)) = numberedMembers ds :=
    List.filter_eq_self.mpr fun m hm => decide_eq_true (numberedMembers_lt hm).1
  have hlost : ((List.range ds.length).filter fun i => !(numberedMembers ds).any fun m => m.1 == i) = [] :=
    List.filter_eq_nil_iff.mpr fun i hi => by simpa [any_numberedMembers] using hi
  simp [recoverMember, hdata, hlost]

section
variable (n x : Nat) (ds : List (List Byte))

/-- What survives the loss of data member `x`: the other data members, and P as member k. -/
def withoutMember : List (Nat × List Byte) := ((numberedMembers ds).filter fun m => m.1 != x) ++ [(ds.length, sumP n (numberedMembers ds))]

theorem data_withoutMember : ((withoutMember n x ds).filter fun m => decide (m.1 < ds.length)) = (numberedMembers ds).filter fun m => m.1 != x := by
  rw [withoutMember, List.filter_append, List.filter_eq_self.mpr fun m hm => decide_eq_true (numberedMembers_lt (List.mem_filter.mp hm).1).1]
  simp

theorem parity_withoutMember : ((withoutMember n x ds).find? fun m => m.1 == ds.length) = some (ds.length, sumP n (numberedMembers ds)) := by
  rw [withoutMember, List.find?_append, List.find?_eq_none.mpr fun m hm => by simpa using (numberedMembers_lt (List.mem_filter.mp hm).1).1.ne]
  simp

theorem any_withoutMember {i : Nat} (hi : i < ds.length) : ((withoutMember n x ds).any fun m => m.1 == i) = (i != x) := by
  rw [Bool.eq_iff_iff, List.any_eq_true, bne_iff_ne]
  constructor
  · rintro ⟨m, hm, he⟩
    obtain rfl := beq_iff_eq.mp he
    rcases List.mem_append.mp hm with hm | hm
    · simpa using (List.mem_filter.mp hm).2
    · exact absurd hi (by simp [List.mem_singleton.mp hm])
  · exact fun hne => ⟨_, List.mem_append_left _ (List.mem_filter.mpr ⟨mem_numberedMembers hi, by simpa using hne⟩), beq_self_eq_true i⟩

theorem lost_withoutMember {x : Nat} (hx : x < ds.length) : ((List.range ds.length).filter fun i => !(withoutMember n x ds).any fun m => m.1 == i) = [x] := by
  have hone : ((List.range ds.length).filter fun i => i == x) = [x] := by
    rw [List.filter_beq, List.count_eq_one_of_mem List.nodup_range (List.mem_range.mpr hx), List.replicate_one]
  rw [← hone]
  exact List.filter_congr fun i hi => by rw [any_withoutMember n x ds (List.mem_range.mp hi), bne, Bool.not_not]

end

/-- From the other data members and P, a lost data member is what P less their sum leaves. -/
theorem recoverMember_data {n x : Nat} {ds : List (List Byte)} (hlen : ∀ d ∈ ds, d.length = n) (hx : x < ds.length) :
    recoverMember ds.length 0 n x (withoutMember n x ds) = some (ds.getD x []) := by
  have hmember : xorBytes (sumP n (numberedMembers ds)) (sumP n ((numberedMembers ds).filter fun m => m.1 != x)) = ds.getD x [] :=
    xorBytes_sumP_others (keys_numberedMembers ds ▸ List.nodup_range) (fun m hm => hlen _ (numberedMembers_lt hm).2) (mem_numberedMembers hx)
  simp only [recoverMember, data_withoutMember, lost_withoutMember n ds hx, parity_withoutMember, Option.map_some, hmember]
  simp [hx]

/-- Settles O29: P less the sum of the members that survive is the one that does not, for the sum takes each member once and is its own inverse. -/
theorem stripeParityRecovers : Obligations.StripeParityRecovers := by
  unfold Obligations.StripeParityRecovers
  intro n x ds hlen hx numbered
  exact ⟨recoverMember_data hlen hx, recoverMember_parity n ds⟩

end Sys2Proof.Machine

/-! What the work of the stripe engine leaves of the engine's own tables: sets, open stripes, rebuilds and the stripe journal (R230, R233, R237, R242, R253). -/

namespace Sys2Proof.Machine

set_option Elab.async false

/-! ### Updates beside the stripe engine -/

@[simp] theorem str_refreshPlace (s : State) : (refreshPlace s).str = s.str := (refreshPlace_agree s).str (by decide)

@[simp] theorem str_refreshPool (s : State) : (refreshPool s).str = s.str := (refreshPool_agree s).str (by decide)

@[simp] theorem str_refreshFill (s : State) : (refreshFill s).str = s.str := rfl

@[simp] theorem str_refreshStr (s : State) : (refreshStr s).str = s.str := rfl

@[simp] theorem str_markRelocate (s : State) (d b : Nat) : (markRelocate s d b).str = s.str := rfl

@[simp] theorem str_packPage (s : State) : (packPage s).str = s.str := rfl

@[simp] theorem str_issueBlockState (s : State) (d b : Nat) (st : BlockState) (upd : Bst → Bst) : (issueBlockState s d b st upd).str = s.str :=
  (issueBlockState_agree s d b st upd).str (by decide)

@[simp] theorem str_retireBlock (s : State) (d b : Nat) : (retireBlock s d b).str = s.str :=
  (str_refreshPool _).trans (str_issueBlockState s d b .retired fun e => { e with eraseIssued := false })

/-- A die's queue and its work units change the flash channels and the shared part alone. -/
theorem putDie_beside (s : State) (d : Nat) (x : Die) : (putDie s d x).str = s.str ∧ (putDie s d x).map = s.map := by
  simp only [putDie, refreshQueues, wr_frame, and_self]

theorem finishUnit_beside (s : State) (p epoch : Nat) : (finishUnit s p epoch).str = s.str ∧ (finishUnit s p epoch).map = s.map := by
  unfold finishUnit
  dsimp only
  split <;> simp only [setEpochs_frame, and_self]

theorem takeProgram_beside (s : State) (d b page : Nat) : (takeProgram s d b page).str = s.str ∧ (takeProgram s d b page).map = s.map := by
  unfold takeProgram
  dsimp only
  split
  · simp only [finishUnit_beside, putDie_beside, and_self]
  · exact ⟨rfl, rfl⟩

@[simp] theorem str_takeProgram (s : State) (d b page : Nat) : (takeProgram s d b page).str = s.str := (takeProgram_beside s d b page).1

@[simp] theorem map_takeProgram (s : State) (d b page : Nat) : (takeProgram s d b page).map = s.map := (takeProgram_beside s d b page).2

theorem queueWork_beside (s : State) (d : Nat) (w : Work) : (queueWork s d w).str = s.str ∧ (queueWork s d w).map = s.map := by
  simp only [queueWork, putDie_beside, admitUnit, setEpochs_frame, and_self]

theorem queueMember_beside (s : State) (n : Nat) (e : SetEntry) (o : OpenStripe) : (queueMember s n e o).str = s.str ∧ (queueMember s n e o).map = s.map := by
  unfold queueMember
  dsimp only
  split
  · exact queueWork_beside s _ _
  · exact ⟨rfl, rfl⟩

@[simp] theorem str_queueMember (s : State) (n : Nat) (e : SetEntry) (o : OpenStripe) : (queueMember s n e o).str = s.str := (queueMember_beside s n e o).1

@[simp] theorem map_queueMember (s : State) (n : Nat) (e : SetEntry) (o : OpenStripe) : (queueMember s n e o).map = s.map := (queueMember_beside s n e o).2

@[simp] theorem str_releaseProv (s : State) (o : OpenStripe) (prot : Nat) : (releaseProv s o prot).str = s.str := by
  unfold releaseProv
  split
  · rfl
  · dsimp only
    split <;> rfl

@[simp] theorem str_mediaError (s : State) (h u : Nat) : (mediaError s h u).str = s.str := by
  unfold mediaError
  split <;> rfl

/-- Steps that each leave the stripe engine alone leave it alone one after another. -/
theorem str_foldl {α : Type} {f : State → α → State} (hf : ∀ s a, (f s a).str = s.str) (l : List α) (s : State) : (l.foldl f s).str = s.str :=
  List.foldlRecOn (motive := fun t => t.str = s.str) l f rfl fun t ht a _ => (hf t a).trans ht

theorem str_markAll (s : State) (l : List Member) : (l.foldl (fun s m => markRelocate s m.die m.block) s).str = s.str :=
  str_foldl (f := fun (s : State) (m : Member) => markRelocate s m.die m.block) (fun t m => str_markRelocate t m.die m.block) l s

@[simp] theorem str_dropPrograms (s : State) (e : SetEntry) (j : Nat) : (dropPrograms s e j).str = s.str := str_foldl (fun t _ => str_takeProgram t _ _ _) _ s

@[simp] theorem str_closeBlocks (s : State) (e : SetEntry) : (closeBlocks s e).str = s.str := by
  refine str_foldl (fun t m => ?_) _ s
  dsimp only
  split
  · exact str_issueBlockState _ _ _ _ _
  · rfl

/-! ### Stripe journal records (R242) -/

/-- The engine's tables with one more record: it takes its place in the ring, and one that is torn uses up an armed injection. -/
def recordListed (st : Stripe) (seq : Nat) (p : SPayload) (torn : Bool) : Stripe :=
  { st with
    sHead := (st.sHead + sSize p) % sRingSize
    journal := st.journal ++ [⟨seq, p, torn⟩]
    inject := if torn then removeFirst (· == 4) st.inject else st.inject }

/-- The registers in which the engine shows the numbers of its records (R261). -/
def sseqRegs : List (Nat × Nat) := [(pSTR, STR_SSEQ_ISSUED), (pSTR, STR_SSEQ_DURABLE), (pSTR, STR_SSEQ_TAIL)]

/-- A record shows its number, writes its bytes in the ring, is listed, and may raise the interrupt of a ring that fills. -/
theorem sIssue_steps (s : State) (p : SPayload) : ∃ u w, RegsKept sseqRegs s u ∧ State.AgreeOutside [] s u ∧ MramWork u w
    ∧ (sIssue s p = { w with str := recordListed s.str (nextSseq s) p (sTorn s p) } ∨ sIssue s p = irq { w with str := recordListed s.str (nextSseq s) p (sTorn s p) } pSTR 6) := by
  have hnumbered (v : Word) (c : Prop) [Decidable c] :
      let u := if c then wr (wr (wr s pSTR STR_SSEQ_ISSUED v) pSTR STR_SSEQ_DURABLE v) pSTR STR_SSEQ_TAIL v else wr (wr s pSTR STR_SSEQ_ISSUED v) pSTR STR_SSEQ_DURABLE v
      RegsKept sseqRegs s u ∧ State.AgreeOutside [] s u :=
    ⟨.ite (.write (.write (.write (regsKept_of_eq _ rfl rfl) _ _ _) _ _ _) _ _ _) (.write (.write (regsKept_of_eq _ rfl rfl) _ _ _) _ _ _), .ite (.wr (.wr (.wr (.refl _ s) _ _ _) _ _ _) _ _ _) (.wr (.wr (.refl _ s) _ _ _) _ _ _)⟩
  have hlisted {u : State} (hu : RegsKept sseqRegs s u ∧ State.AgreeOutside [] s u) (base size head : Nat) (bytes : List Byte) (c : Prop) [Decidable c] :
      let w := ringWrite u base size head bytes
      let x := { w with str := recordListed w.str (nextSseq s) p (sTorn u p) }
      ∃ u w, RegsKept sseqRegs s u ∧ State.AgreeOutside [] s u ∧ MramWork u w ∧ ((if c then irq x pSTR 6 else x) = { w with str := recordListed s.str (nextSseq s) p (sTorn s p) }
        ∨ (if c then irq x pSTR 6 else x) = irq { w with str := recordListed s.str (nextSseq s) p (sTorn s p) } pSTR 6) := by
    intro w x
    have hw : MramWork u w := MramWork.refl.ring base size head bytes
    have hstr : u.str = s.str := hu.2.str (by decide)
    have hx : x = { w with str := recordListed s.str (nextSseq s) p (sTorn s p) } := by
      have htorn : sTorn u p = sTorn s p := by
        unfold sTorn
        rw [hstr]
      rw [← htorn, ← hstr, ← hw.agree.str (by decide)]
    refine ⟨u, w, hu.1, hu.2, hw, ?_⟩
    rw [← hx]
    split
    · exact .inr rfl
    · exact .inl rfl
  exact hlisted (hnumbered _ _) _ _ _ _ _

theorem str_sIssue (s : State) (p : SPayload) : (sIssue s p).str = recordListed s.str (nextSseq s) p (sTorn s p) := by
  obtain ⟨u, w, -, -, -, heq | heq⟩ := sIssue_steps s p <;> rw [heq]
  simp only [irq_frame]

@[simp] theorem map_sIssue (s : State) (p : SPayload) : (sIssue s p).map = s.map := by
  obtain ⟨u, w, -, hu, hw, heq | heq⟩ := sIssue_steps s p <;> rw [heq]
  · exact (hw.agree.map (by decide)).trans (hu.map (by decide))
  · simp only [irq_frame]
    exact (hw.agree.map (by decide)).trans (hu.map (by decide))

/-- A record moves no register but those that number the engine's records, its interrupt, and those of the MRAM and the fault log. -/
theorem rd_sIssue (s : State) (p : SPayload) {q o : Nat} (hq : q < 4096 ∧ q ≠ pMRM ∧ q ≠ pFLT) (ho : o < 4096) (hne : (q, o) ∉ (pSTR, rIRQ_STATUS) :: sseqRegs) : rd (sIssue s p) q o = rd s q o := by
  obtain ⟨hirq, hseq⟩ := not_or.mp (mt List.mem_cons.mpr hne)
  obtain ⟨u, w, hu, -, hw, heq⟩ := sIssue_steps s p
  have hrd : rd w q o = rd s q o := (hw.kept ho hq.2).trans (hu q o hq.1 ho hseq).1
  rcases heq with heq | heq <;> rw [heq]
  · exact hrd
  · rw [irq, irqMask, rd_wr _ _ (by decide) ho, if_neg fun h => hirq (Prod.ext h.1 h.2)]
    exact hrd

section
variable (s : State) (p : SPayload)

@[simp] theorem sets_sIssue : (sIssue s p).str.sets = s.str.sets := by rw [str_sIssue, recordListed]

@[simp] theorem stripes_sIssue : (sIssue s p).str.stripes = s.str.stripes := by rw [str_sIssue, recordListed]

@[simp] theorem nextSet_sIssue : (sIssue s p).str.nextSet = s.str.nextSet := by rw [str_sIssue, recordListed]

@[simp] theorem rebuilds_sIssue : (sIssue s p).str.rebuilds = s.str.rebuilds := by rw [str_sIssue, recordListed]

@[simp] theorem substitutes_sIssue : (sIssue s p).str.substitutes = s.str.substitutes := by rw [str_sIssue, recordListed]

@[simp] theorem unresync_sIssue : (sIssue s p).str.unresync = s.str.unresync := by rw [str_sIssue, recordListed]

@[simp] theorem journal_sIssue : (sIssue s p).str.journal = s.str.journal ++ [⟨nextSseq s, p, sTorn s p⟩] := by rw [str_sIssue, recordListed]

end

/-! ### Sets and open stripes (R233, R237) -/

theorem set_of_stripeOf? {s : State} {n : Nat} {o : OpenStripe} (h : stripeOf? s n = some o) : o.set = n := by
  simpa using List.find?_some h

/-- An open stripe that is set reads back. -/
theorem stripeOf?_putStripe {s : State} {n : Nat} {o o' : OpenStripe} (h : stripeOf? s n = some o) (hset : o'.set = o.set) : stripeOf? (putStripe s o') n = some o' := by
  obtain rfl : o'.set = n := hset.trans (set_of_stripeOf? h)
  unfold stripeOf? at h ⊢
  simp only [putStripe, str_refreshStr]
  generalize s.str.stripes = l at h
  induction l with
  | nil => cases h
  | cons x l ih =>
    rw [List.map_cons]
    by_cases hx : x.set = o'.set
    · rw [if_pos (by simpa using hx), List.find?_cons_of_pos (by simp)]
    · rw [if_neg (by simpa using hx), List.find?_cons_of_neg (by simpa using hx)]
      exact ih (by rwa [List.find?_cons_of_neg (by simpa using hx)] at h)

theorem stripeOf?_dropStripe (s : State) (n : Nat) : stripeOf? (dropStripe s n) n = none := by
  simp only [stripeOf?, dropStripe, str_refreshStr]
  exact List.find?_eq_none.mpr fun x hx => by simpa using (List.mem_filter.mp hx).2

@[simp] theorem setAt?_putSet_same (s : State) (n : Nat) (e : SetEntry) : setAt? (putSet s n e) n = some e := Tab.get?_put_same _ _ _

@[simp] theorem setAt?_putStripe (s : State) (o : OpenStripe) (n : Nat) : setAt? (putStripe s o) n = setAt? s n := rfl

@[simp] theorem journal_putStripe (s : State) (o : OpenStripe) : (putStripe s o).str.journal = s.str.journal := rfl

@[simp] theorem setAt?_dropStripe (s : State) (m n : Nat) : setAt? (dropStripe s m) n = setAt? s n := rfl

@[simp] theorem setAt?_sIssue (s : State) (p : SPayload) (n : Nat) : setAt? (sIssue s p) n = setAt? s n := by rw [setAt?, sets_sIssue, setAt?]

@[simp] theorem stripeOf?_sIssue (s : State) (p : SPayload) (n : Nat) : stripeOf? (sIssue s p) n = stripeOf? s n := by rw [stripeOf?, stripes_sIssue, stripeOf?]

theorem setAt?_congr {s t : State} (h : t.str = s.str) (n : Nat) : setAt? t n = setAt? s n := by rw [setAt?, h, setAt?]

theorem stripeOf?_congr {s t : State} (h : t.str = s.str) (n : Nat) : stripeOf? t n = stripeOf? s n := by rw [stripeOf?, h, stripeOf?]

theorem rebuildOf_congr {s t : State} (h : t.str = s.str) (d : Nat) : rebuildOf t d = rebuildOf s d := by rw [rebuildOf, h, rebuildOf]

/-! ### Closing a set early (R240) -/

/-- In `t` the set has closed before its stripe at page `j`, and its blocks wait for collection. -/
def SetAbandoned (t : State) (n : Nat) (e : SetEntry) (j : Nat) : Prop :=
  stripeOf? t n = none ∧ setAt? t n = some { e with open_ := false, pages := j, next := j, collect := true }

theorem closeSet_abandons (s : State) (n : Nat) (e : SetEntry) (j : Nat) : SetAbandoned (closeSet s n e j true) n e j := by
  unfold closeSet
  extract_lets t u v w
  have hu : setAt? u n = some { e with open_ := false, pages := j, next := j, collect := true } := by simp [u]
  have hw : w.str = u.str := by
    simp only [w, if_true, v]
    exact (str_markAll _ _).trans (str_closeBlocks u e)
  exact ⟨(stripeOf?_congr (str_refreshPool _) n).trans (stripeOf?_dropStripe w n), (setAt?_congr (str_refreshPool _) n).trans ((setAt?_dropStripe w n n).trans ((setAt?_congr hw n).trans hu))⟩

theorem abandonStripe_abandons {s : State} {n : Nat} {e : SetEntry} {o : OpenStripe} (he : setAt? s n = some e) (ho : stripeOf? s n = some o) : SetAbandoned (abandonStripe s n) n e o.page := by
  unfold abandonStripe
  rw [he, ho]
  exact closeSet_abandons _ n e o.page

theorem programFail_abandons {s : State} {n i : Nat} {e : SetEntry} {o : OpenStripe} (he : setAt? s n = some e) (ho : stripeOf? s n = some o) (hi : i < e.width) :
    SetAbandoned (programFail s n i) n e o.page := by
  have hretired (u : State) (hu : u.str = s.str) : SetAbandoned (abandonStripe u n) n e o.page := abandonStripe_abandons ((setAt?_congr hu n).trans he) ((stripeOf?_congr hu n).trans ho)
  unfold programFail
  rw [he, ho]
  dsimp only
  rw [if_neg (by omega)]
  refine hretired _ ?_
  split
  · rfl
  · exact str_retireBlock s _ _

theorem accumulatorUe_abandons {s : State} {n : Nat} {e : SetEntry} {o : OpenStripe} (he : setAt? s n = some e) (ho : stripeOf? s n = some o) (hacc : o.acc = true) :
    SetAbandoned (accumulatorUe s n) n e o.page := by
  unfold accumulatorUe
  rw [ho]
  dsimp only
  rw [if_pos hacc]
  exact abandonStripe_abandons he ho

/-! ### Filling (R237) -/

/-- Registers of a die's queue and of the epochs of its page (R70, R160). -/
def dieRegs (d : Nat) : List (Nat × Nat) := [(diePage d, FCH_QUEUE_STATUS), (diePage d, FCH_BUSY_MASK), (diePage d, rSTATUS), (diePage d, rSTAGE_STATUS)]

theorem takeProgram_regs (s : State) (d b page : Nat) : RegsKept (dieRegs d) s (takeProgram s d b page) := by
  unfold takeProgram
  dsimp only
  split
  · exact ((putDie_regs s d _).mono (by simp [dieRegs])).trans ((finishUnit_regs _ _ _).mono (by simp [dieRegs]))
  · exact regsKept_of_eq _ rfl rfl

/-- The registers in which the engine shows its sets, stripes and rebuilds (R261). -/
def strShown : List (Nat × Nat) := [(pSTR, STR_SETS_OPEN), (pSTR, STR_STRIPES_OPEN), (pSTR, STR_STATE)]

theorem refreshStr_regs (s : State) : RegsKept strShown s (refreshStr s) := by
  unfold refreshStr
  extract_lets prov t u v
  have ht : RegsKept strShown s t := regsKept_wr s _ (by decide) (by decide)
  have hu : RegsKept strShown s u := ht.write _ _ _
  have hv : RegsKept strShown s v := hu.write _ _ _
  exact hv.write _ _ _

theorem putStripe_regs (s : State) (o : OpenStripe) : RegsKept strShown s (putStripe s o) := by
  have hlisted (st : Stripe) : RegsKept strShown s { s with str := st } := regsKept_of_eq _ rfl rfl
  exact (hlisted _).trans (refreshStr_regs _)

end Sys2Proof.Machine

/-! The life of a stripe: filling, parity, padding at CLOSE_AGE, verify, and the provisional stripe (R237 to R241). -/

namespace Sys2Proof.Machine

set_option Elab.async false

/-! ### Filling (R237) -/

theorem diePage_ne {p : Nat} (hp : p < 0x100) (d : Nat) : p ≠ diePage d := by
  unfold diePage pFCH
  omega

theorem nextSseq_congr {s t : State} (h : rd t pSTR STR_SSEQ_ISSUED = rd s pSTR STR_SSEQ_ISSUED) : nextSseq t = nextSseq s := by rw [nextSseq, h, nextSseq]

/-- The state in which a data page's program has passed and its units are packed. -/
def memberPassed (s : State) (e : SetEntry) (o : OpenStripe) (us : List PackedUnit) : State :=
  markPacked (packPage (takeProgram s (e.member (nextMember e o)).die (e.member (nextMember e o)).block o.page)) us

/-- A data page whose program passes joins the mask, the accumulator and the units of its stripe. -/
def memberJoined (s : State) (e : SetEntry) (o : OpenStripe) (us : List PackedUnit) : OpenStripe :=
  { o with
    mask := o.mask + 2 ^ nextMember e o
    acc := true
    firstAt := if o.mask = 0 then (memberPassed s e o us).com.time else o.firstAt
    units := o.units ++ pageUnits (e.member (nextMember e o)) o.page e.slc us }

theorem str_memberPassed (s : State) (e : SetEntry) (o : OpenStripe) (us : List PackedUnit) : (memberPassed s e o us).str = s.str := str_takeProgram s _ _ _

theorem stamp_memberPassed (s : State) (e : SetEntry) (o : OpenStripe) (us : List PackedUnit) : (memberPassed s e o us).map.stamp = (s.map.stamp + 1) % 2 ^ 48 := by
  rw [← map_takeProgram s (e.member (nextMember e o)).die (e.member (nextMember e o)).block o.page]
  rfl

/-- A die's queue shows on its own page alone: the next record has the number it had. -/
theorem nextSseq_memberPassed (s : State) (e : SetEntry) (o : OpenStripe) (us : List PackedUnit) : nextSseq (memberPassed s e o us) = nextSseq s := by
  refine nextSseq_congr (takeProgram_regs s _ _ _ pSTR STR_SSEQ_ISSUED (by decide) (by decide) ?_).1
  simp [dieRegs, diePage_ne (p := pSTR) (by decide)]

theorem nextSseq_putStripe (s : State) (o : OpenStripe) : nextSseq (putStripe s o) = nextSseq s :=
  nextSseq_congr (putStripe_regs s o pSTR STR_SSEQ_ISSUED (by decide) (by decide) (by decide)).1

section
variable {s : State} {n : Nat} {e : SetEntry} {o : OpenStripe} (he : setAt? s n = some e) (ho : stripeOf? s n = some o)
include he ho

theorem memberProgram_joins (us : List PackedUnit) (hphase : o.phase = .filling) (hi : nextMember e o < e.k) (hready : setReady s e = true) (hfull : sFull s = false) :
    memberProgram s n us = queueMember (sIssue (putStripe (memberPassed s e o us) (memberJoined s e o us)) (.stripeProg (stripeNo n o.page) (o.mask + 2 ^ nextMember e o)))
      n e (memberJoined s e o us) := by
  unfold memberProgram
  rw [he, ho]
  dsimp only
  rw [if_neg (by simp [hphase, hready, hfull, hi])]
  simp only [memberJoined, memberPassed]

theorem memberProgram_shows (us : List PackedUnit) (hphase : o.phase = .filling) (hi : nextMember e o < e.k) (hready : setReady s e = true) (hfull : sFull s = false) :
    stripeOf? (memberProgram s n us) n = some (memberJoined s e o us) ∧ (memberProgram s n us).map.stamp = (s.map.stamp + 1) % 2 ^ 48
      ∧ ∃ torn, (memberProgram s n us).str.journal = s.str.journal ++ [⟨nextSseq s, .stripeProg (stripeNo n o.page) (o.mask + 2 ^ nextMember e o), torn⟩] := by
  have hstr := str_memberPassed s e o us
  have hput : stripeOf? (putStripe (memberPassed s e o us) (memberJoined s e o us)) n = some (memberJoined s e o us) :=
    stripeOf?_putStripe ((stripeOf?_congr hstr n).trans ho) rfl
  have hjournal : (putStripe (memberPassed s e o us) (memberJoined s e o us)).str.journal = s.str.journal := (journal_putStripe _ _).trans (congrArg Stripe.journal hstr)
  rw [memberProgram_joins he ho us hphase hi hready hfull]
  refine ⟨?_, ?_, ?_⟩
  · rw [stripeOf?_congr (str_queueMember _ _ _ _), stripeOf?_sIssue, hput]
  · rw [map_queueMember, map_sIssue]
    exact stamp_memberPassed s e o us
  · rw [str_queueMember, journal_sIssue, nextSseq_putStripe, nextSseq_memberPassed, hjournal]
    exact ⟨_, rfl⟩

/-! ### Parity (R238) -/

theorem parityProgram_verifies (hphase : o.phase = .filling) (hlast : e.k ≤ nextMember e o) : stripeOf? (parityProgram s n) n = some { o with phase := .verifying } := by
  unfold parityProgram
  rw [he, ho]
  dsimp only
  rw [if_neg (by simp [hphase, hlast])]
  refine stripeOf?_putStripe (o := o) ?_ rfl
  have hprogrammed (l : List Nat) : (l.foldl (fun s i => packPage (takeProgram s (e.member (e.k + i)).die (e.member (e.k + i)).block o.page)) s).str = s.str :=
    str_foldl (f := fun s i => packPage (takeProgram s (e.member (e.k + i)).die (e.member (e.k + i)).block o.page)) (fun t i => str_takeProgram t _ _ _) l s
  refine Eq.trans ?_ ((stripeOf?_congr (hprogrammed (List.range (1 + e.prot))) n).trans ho)
  split <;> rfl

/-! ### Padding (R238) -/

omit he ho in
theorem nextMember_full (h : o.mask = 2 ^ e.k - 1) : nextMember e o = e.k := by
  have hnone : ((List.range e.k).find? fun i => !o.mask.testBit i) = none :=
    List.find?_eq_none.mpr fun i hi => by simpa [h, Nat.testBit_two_pow_sub_one] using hi
  rw [nextMember, hnone, Option.getD_none]

/-- A stripe whose missing data members are padded, its parity programmed. -/
def stripePadded (e : SetEntry) (o : OpenStripe) : OpenStripe :=
  { o with mask := 2 ^ e.k - 1, pads := o.pads + (e.k - popCount e.k o.mask), phase := .verifying }

theorem padStripe_verifies : stripeOf? (padStripe s n e o) n = some (stripePadded e o) := by
  unfold padStripe
  extract_lets missing t u o'
  have hu : u.str = s.str := (str_foldl (f := fun s _ => packPage s) (fun _ _ => rfl) _ t).trans (str_dropPrograms s e o.page)
  clear_value u
  have hput : stripeOf? (putStripe u o') n = some o' := stripeOf?_putStripe ((stripeOf?_congr hu n).trans ho) rfl
  have hset : setAt? (putStripe u o') n = some e := (setAt?_congr hu n).trans he
  have hrel := str_releaseProv (putStripe u o') o' e.prot
  exact parityProgram_verifies ((setAt?_congr hrel n).trans hset) ((stripeOf?_congr hrel n).trans hput) rfl (nextMember_full rfl).ge

theorem closeAge_pads (hphase : o.phase = .filling) (hmask : o.mask ≠ 0) (hage : inF s pSTR STR_CLOSE_AGE 15 0 ≠ 0)
    (hold : inF s pSTR STR_CLOSE_AGE 15 0 * 1000000 ≤ (s.com.time - o.firstAt).toNat) (hfull : sFull s = false) (hrmw : bit (rd s pMAP MAP_MEDIA_STATE) 2 = false) :
    closeAge s n = padStripe s n e o := by
  unfold closeAge
  rw [he, ho]
  dsimp only
  rw [if_neg (by simp [hphase]), if_neg (by simp [hphase, hmask, hage, hfull, Nat.not_lt.mpr hold, -BitVec.toNat_sub]), if_neg (by simp [hrmw])]

/-! ### Verify (R239) -/

omit he in
theorem finishStripe_moves_on (result : Nat) (hmore : o.page + 1 < e.pages) :
    setAt? (finishStripe s n e o result) n = some { e with next := o.page + 1, provisional := false }
      ∧ ∃ o', stripeOf? (finishStripe s n e o result) n = some o' ∧ o'.page = o.page + 1 ∧ o'.phase = .filling ∧ o'.mask = 0 := by
  unfold finishStripe
  extract_lets t e'
  have ht : stripeOf? t n = some o := (stripeOf?_sIssue s _ n).trans ho
  clear_value t
  rw [if_neg (by simpa [e'] using hmore)]
  have hstripe : stripeOf? (putSet t n e') n = some o := ht
  have hput : stripeOf? (putStripe (putSet t n e') (freshStripe t n e'.next)) n = some (freshStripe t n e'.next) := stripeOf?_putStripe hstripe (set_of_stripeOf? ho).symm
  have hqueue := str_queueMember (putStripe (putSet t n e') (freshStripe t n e'.next)) n e' (freshStripe (putStripe (putSet t n e') (freshStripe t n e'.next)) n e'.next)
  refine ⟨(setAt?_congr hqueue n).trans (setAt?_putSet_same t n e'), _, (stripeOf?_congr hqueue n).trans hput, rfl, rfl, rfl⟩

theorem stripeVerify_clean (hphase : o.phase = .verifying) (hfull : sFull s = false) (hinj : s.str.inject = []) : stripeVerify s n [] = finishStripe s n e o 0 := by
  unfold stripeVerify
  rw [he, ho]
  dsimp only
  rw [if_neg (by simp [hphase]), if_neg (by simp [hphase, hfull])]
  simp [hinj]

/-- A codeword that reached rung 4 keeps the stripe, and sends its set's blocks to collection. -/
theorem stripeVerify_collects {member : Fin 32} (hphase : o.phase = .verifying) (hfull : sFull s = false) (hinj : s.str.inject = [])
    (hread : (verifyMembers s e).contains member.val = true) :
    stripeVerify s n [(member, 3)] = putStripe (putSet (e.members.foldl (fun s m => markRelocate s m.die m.block) (irq s pSTR 5)) n { e with collect := true }) { o with phase := .collecting } := by
  unfold stripeVerify
  rw [he, ho]
  dsimp only
  rw [if_neg (by simp [hphase]), if_neg (by simp [hphase, hfull])]
  have hrungs : (([(member, (3 : Fin 4))].map fun r => (r.1.val, r.2.val)).filter fun r => (verifyMembers s e).contains r.1) = [(member.val, 3)] := by
    simpa using hread
  rw [hrungs]
  simp [hinj]

theorem stripeVerify_collects_shows {member : Fin 32} (hphase : o.phase = .verifying) (hfull : sFull s = false) (hinj : s.str.inject = [])
    (hread : (verifyMembers s e).contains member.val = true) :
    stripeOf? (stripeVerify s n [(member, 3)]) n = some { o with phase := .collecting } ∧ setAt? (stripeVerify s n [(member, 3)]) n = some { e with collect := true }
      ∧ bit (rd (stripeVerify s n [(member, 3)]) pSTR rIRQ_STATUS) 5 = true := by
  rw [stripeVerify_collects he ho hphase hfull hinj hread]
  have hmarked := str_markAll (irq s pSTR 5) e.members
  have hback := markAll_background (irq s pSTR 5) e.members
  generalize e.members.foldl (fun s m => markRelocate s m.die m.block) (irq s pSTR 5) = u at hmarked hback
  refine ⟨stripeOf?_putStripe ((stripeOf?_congr hmarked n).trans ho) rfl, setAt?_putSet_same u n _, ?_⟩
  have hput : Background u (putStripe (putSet u n { e with collect := true }) { o with phase := .collecting }) := .trans (.parts (.refl u) _ _ _ _ _) (refreshStr_background _)
  exact (hback.trans hput).raised pSTR 5 (by rw [rd_irq, bit_or, bit_oneBit (by decide), Bool.or_true])

end

end Sys2Proof.Machine

/-! Provisional parity of a stripe, and the page that joins a provisional stripe (R240, R241). -/

namespace Sys2Proof.Machine

set_option Elab.async false

/-! ### The provisional stripe (R241) -/

/-- A block that opens as the side block of a channel. -/
def sideOpened (s : State) (c d b : Nat) : State :=
  let s := issueBlockState s d b .open_ fun x => { x with slc := true }
  { s with str := { s.str with side := s.str.side.put c (bstKey d b, 1) } }

theorem stripes_sideOpened (s : State) (c d b : Nat) : (sideOpened s c d b).str.stripes = s.str.stripes := by
  have hissued := str_issueBlockState s d b .open_ fun x => { x with slc := true }
  unfold sideOpened
  generalize issueBlockState s d b .open_ (fun x => { x with slc := true }) = u at hissued
  exact (congrArg Stripe.stripes hissued : u.str.stripes = s.str.stripes)

theorem sidePage_stripes {s t : State} {c d b pg : Nat} (h : sidePage s c = some (t, d, b, pg)) : t.str.stripes = s.str.stripes := by
  have hfresh {d' : Nat} (h' : ((allocBlock? s d').map fun b => (sideOpened s c d' b, d', b, 0)) = some (t, d, b, pg)) : t.str.stripes = s.str.stripes := by
    obtain ⟨b', -, heq⟩ := Option.map_eq_some_iff.mp h'
    obtain ⟨ht, -⟩ := Prod.mk.inj heq
    rw [← ht, stripes_sideOpened]
  unfold sidePage at h
  extract_lets fresh at h
  have hopen (hf : fresh = some (t, d, b, pg)) : t.str.stripes = s.str.stripes := by
    simp only [fresh] at hf
    split at hf
    · cases hf
    · exact hfresh hf
  split at h
  · split at h
    · obtain ⟨ht, -⟩ := Prod.mk.inj (Option.some.inj h)
      rw [← ht]
    · exact hopen h
  · exact hopen h

/-- Provisional parity changes neither the open stripes nor what a stripe holds. -/
theorem writeProv_keeps {s t : State} {n : Nat} {e : SetEntry} {o o' : OpenStripe} (h : writeProv s n e o = some (t, o')) :
    t.str.stripes = s.str.stripes ∧ o'.set = o.set ∧ o'.mask = o.mask ∧ o'.units = o.units := by
  unfold writeProv at h
  obtain ⟨⟨u, pd, pb, pp⟩, hu, h⟩ := Option.bind_eq_some_iff.mp h
  obtain ⟨⟨v, qd, qb, qp⟩, hv, h⟩ := Option.map_eq_some_iff.mp h
  have hside : v.str.stripes = s.str.stripes := by
    refine Eq.trans ?_ (sidePage_stripes hu)
    split at hv
    · exact sidePage_stripes hv
    · obtain ⟨rfl, -⟩ := Prod.mk.inj (Option.some.inj hv)
      rfl
  obtain ⟨ht, ho⟩ := Prod.mk.inj h
  have hraised : ∀ (c : Prop) [Decidable c], (if c then raiseLive (raiseLive v pd pb) qd qb else raiseLive v pd pb).str = v.str := by
    intro c _
    split <;> rfl
  refine ⟨?_, ho ▸ rfl, ho ▸ rfl, ho ▸ rfl⟩
  rw [← ht, stripes_sIssue, str_releaseProv, str_packPage, hraised, hside]

/-- A further page of a provisional stripe joins its mask and its units. -/
def provisionalJoined (e : SetEntry) (o : OpenStripe) (us : List PackedUnit) : OpenStripe :=
  { o with mask := o.mask + 2 ^ nextMember e o, units := o.units ++ pageUnits (e.member (nextMember e o)) o.page e.slc us }

/-- The same with its final parity to be programmed. -/
def provisionalFilled (e : SetEntry) (o : OpenStripe) (us : List PackedUnit) : OpenStripe := { provisionalJoined e o us with phase := .filling, prov := none }

/-- A further page of a provisional stripe joins its mask and its units, whether its parity is provisional again or final. -/
theorem rmwUpdate_joins {s : State} {n : Nat} {e : SetEntry} {o : OpenStripe} (he : setAt? s n = some e) (ho : stripeOf? s n = some o) (us : List PackedUnit)
    (hphase : o.phase = .provisional) (hi : nextMember e o < e.k) (hfull : sFull s = false) :
    ∃ o', stripeOf? (rmwUpdate s n us) n = some o' ∧ o'.mask = o.mask + 2 ^ nextMember e o ∧ o'.units = o.units ++ pageUnits (e.member (nextMember e o)) o.page e.slc us := by
  unfold rmwUpdate
  rw [he, ho]
  dsimp only
  rw [if_neg (by simp [hphase, hfull, hi])]
  have hpacked : (markPacked (packPage s) us).str = s.str := rfl
  generalize markPacked (packPage s) us = u at hpacked
  have hstripes : u.str.stripes = s.str.stripes := by rw [hpacked]
  have hput {v : State} (hv : v.str.stripes = s.str.stripes) {x : OpenStripe} (hx : x.set = o.set) : stripeOf? (putStripe v x) n = some x := by
    refine stripeOf?_putStripe (o := o) ?_ hx
    rw [stripeOf?, hv]
    exact ho
  split
  next hlast =>
    have hrel := (str_releaseProv u (provisionalJoined e o us) e.prot).trans hpacked
    have hsame : setAt? (putStripe (releaseProv u (provisionalJoined e o us) e.prot) (provisionalFilled e o us)) n = some e := (setAt?_putStripe _ _ n).trans ((setAt?_congr hrel n).trans he)
    have hstripe : stripeOf? (putStripe (releaseProv u (provisionalJoined e o us) e.prot) (provisionalFilled e o us)) n = some (provisionalFilled e o us) := hput (by rw [hrel]) rfl
    exact ⟨_, parityProgram_verifies hsame hstripe rfl hlast, rfl, rfl⟩
  next =>
    split
    next v x hprov =>
      obtain ⟨hkept, hx, hmask, hunits⟩ := writeProv_keeps hprov
      exact ⟨x, hput (hkept.trans hstripes) hx, hmask, hunits⟩
    next => exact ⟨provisionalJoined e o us, hput hstripes rfl, rfl, rfl⟩

end Sys2Proof.Machine

/-! Opening a block set: what the place conditions leave of the tables that allocation reads, and the set that opens (R234 to R237). -/

namespace Sys2Proof.Machine

set_option Elab.async false

/-! ### Changes of the page of the stripe engine -/

theorem refreshPlace_pageOnly (s : State) : PageOnly pSTR s (refreshPlace s) := by
  have hwarned {u : State} (hu : PageOnly pSTR s u) : PageOnly pSTR s (clearMediaWarning u) := by
    unfold clearMediaWarning
    split
    · exact hu
    · exact hu.shared _
  unfold refreshPlace
  extract_lets n t none_ was u
  have hu : PageOnly pSTR s u := ((PageOnly.refl s).wr _ _ (by decide)).wr _ _ (by decide)
  clear_value u none_ was
  split
  · exact (hu.shared _).shared _
  · split
    · exact (hwarned hu).shared _
    · exact hu

/-- NO_PLACE says whether the eligible channels are too few (R236). -/
theorem noPlace_refreshPlace (s : State) : bit (rd (refreshPlace s) pSTR STR_STATE) 9 = decide (eligibleChannels s < layoutProt s + 2) := by
  unfold refreshPlace
  extract_lets n t none_ was u
  have hu : bit (rd u pSTR STR_STATE) 9 = none_ := by rw [rd_wrB_same, bit_setBit_same _ _ (by decide)]
  have hnone : none_ = decide (eligibleChannels s < layoutProt s + 2) := rfl
  rw [hnone] at hu
  clear_value u none_ was
  have hwarned : rd (clearMediaWarning u) pSTR STR_STATE = rd u pSTR STR_STATE := by
    unfold clearMediaWarning
    split <;> rfl
  split
  · exact hu
  · split
    · exact (congrArg (bit · 9) hwarned).trans hu
    · exact hu

section
variable {s t : State} (h : PageOnly pSTR s t) (hforce : ∀ p o, inForce t p o = inForce s p o)
include h hforce

theorem dieEligible_kept {d : Nat} (hd : d < 1024) : dieEligible t d = dieEligible s d := by
  have hstr : t.str = s.str := h.agree.str (by decide)
  rw [dieEligible, dieInService_pageOnly h hd, rebuildOf_congr hstr, hotSpare, hforce, hstr, ← hotSpare, ← dieEligible]

theorem usedChannels_kept : usedChannels t = usedChannels s := by simp only [usedChannels, h.chip, hforce]

theorem posMasks_kept : posMasks t = posMasks s := by
  unfold posMasks
  rw [usedChannels_kept h hforce]
  refine List.map_congr_left fun c hc => ?_
  have hc' := List.mem_range.mp hc
  congr 1
  unfold posMask
  congr 1
  refine List.map_congr_left fun p hp => ?_
  have hp' := List.mem_range.mp hp
  rw [dieEligible_kept h hforce (by omega)]

theorem serviceDies_kept : serviceDies t = serviceDies s := by
  unfold serviceDies
  rw [usedChannels_kept h hforce]
  refine List.flatMap_congr fun c hc => List.filter_congr fun d hd => dieInService_pageOnly h ?_
  have hc' := List.mem_range.mp (List.mem_filter.mp hc).1
  obtain ⟨p, hp, rfl⟩ := List.mem_map.mp hd
  have hp' := List.mem_range.mp hp
  omega

omit hforce in
theorem jDurable_kept : jDurable t = jDurable s := by rw [jDurable, (h.other pMAP _ (by decide) (by decide)).1, jDurable]

omit h in
theorem dieBlocks_kept (d : Nat) : dieBlocks t d = dieBlocks s d := by simp only [dieBlocks, dieTypeF, dieTypeBase, inF, hforce]

theorem allocBlock?_kept (d : Nat) : allocBlock? t d = allocBlock? s d := by
  have hbst (b : Nat) : bstOf t d b = bstOf s d b := by rw [bstOf, jDurable_kept h, bstRaw, h.agree.map (by decide), ← bstRaw, ← bstOf]
  have hfree : allocatable t d = allocatable s d := funext fun b => by rw [allocatable, hbst, allocatable]
  simp only [allocBlock?, hbst, hfree, dieBlocks_kept hforce]

theorem goodBlocks_kept : goodBlocks t = goodBlocks s := by
  have hcount (d : Nat) : countBlocks t d goodBlock = countBlocks s d goodBlock := by
    simp only [countBlocks, listedBlocks, jDurable_kept h, h.agree.map (by decide), dieBlocks_kept hforce]
  simp only [goodBlocks, sumDies, serviceDies_kept h hforce, hcount]

theorem oasisShare_kept : oasisShare t = oasisShare s := by
  have hfloor : floorBlocks t = floorBlocks s := by
    simp only [floorBlocks, goodBlocks_kept h hforce, serviceDies_kept h hforce, modePages, diePages, dieBpc, dieTypeF, dieTypeBase, inF, hforce]
  simp only [oasisShare, goodBlocks_kept h hforce, hfloor, h.agree.map (by decide), inF, hforce]

omit hforce in
theorem oasisUsed_kept : oasisUsed t = oasisUsed s := by simp only [oasisUsed, jDurable_kept h, h.agree.map (by decide)]

end

/-! ### The set that opens (R235) -/

/-- The member dies of the next set, with the blocks that they give; none where one has none to give. -/
def nextMembers (s : State) (pos : List Nat) : Option (List (Nat × Nat)) :=
  (place s.str.nextSet (layoutSeed s) (layoutWidth s) (chanMask pos) pos).mapM fun d => (allocBlock? s d).map fun b => (d, b)

/-- The next set has its number. -/
def setNumbered (s : State) : State := { s with str := { s.str with nextSet := s.str.nextSet + 1 } }

/-- The entry of the next set, with these members. -/
def openedEntry (s : State) (slc : Bool) (ms : List (Nat × Nat)) : SetEntry :=
  { width := ms.length, prot := layoutProt s, slc := slc, open_ := true, substituted := false, provisional := false, collect := false
    pages := (ms.map fun m => modePages s m.1 slc).foldl min 4096, next := 0, members := ms.map fun m => ⟨false, m.1, m.2⟩ }

/-- The set is journaled, and its blocks are to open. -/
def setJournaled (s : State) (slc : Bool) (pos : List Nat) (ms : List (Nat × Nat)) : State :=
  ms.foldl (fun s m => issueBlockState s m.1 m.2 .open_ fun x => { x with slc := slc })
    (sIssue (setNumbered s) (.setOpen s.str.nextSet (openedEntry s slc ms) (chanMask pos) pos))

/-- The set stands in the set table, and its first stripe is open. -/
def setListed (s : State) (n : Nat) (e : SetEntry) : State :=
  let s := putSet { s with str := { s.str with skips := 0 } } n e
  { s with str := { s.str with stripes := s.str.stripes ++ [freshStripe s n 0] } }

/-- The first member page goes to its die. -/
def firstQueued (s : State) (n : Nat) (ms : List (Nat × Nat)) : State :=
  match ms with
  | m :: _ => queueWork s m.1 (.program m.2 0 n 0)
  | [] => s

theorem str_setJournaled (s : State) (slc : Bool) (pos : List Nat) (ms : List (Nat × Nat)) :
    (setJournaled s slc pos ms).str = (sIssue (setNumbered s) (.setOpen s.str.nextSet (openedEntry s slc ms) (chanMask pos) pos)).str :=
  str_foldl (f := fun (s : State) (m : Nat × Nat) => issueBlockState s m.1 m.2 .open_ fun x => { x with slc := slc }) (fun t m => str_issueBlockState t m.1 m.2 _ _) ms _

theorem str_firstQueued (s : State) (n : Nat) (ms : List (Nat × Nat)) : (firstQueued s n ms).str = s.str := by
  unfold firstQueued
  split
  · exact (queueWork_beside _ _ _).1
  · rfl

theorem openSetFrom_placed {s : State} {slc : Bool} {pos : List Nat} {ms : List (Nat × Nat)} (fuel : Nat) (hplace : nextMembers s pos = some ms) :
    openSetFrom s slc pos (fuel + 1) = refreshStr (refreshPool (refreshFill
      (firstQueued (setListed (setJournaled s slc pos ms) s.str.nextSet (openedEntry s slc ms)) s.str.nextSet ms))) := by
  have hms : ((place s.str.nextSet (layoutSeed s) (layoutWidth s) (chanMask pos) pos).mapM fun d => (allocBlock? (setNumbered s) d).map fun b => (d, b)) = some ms := hplace
  unfold setNumbered at hms
  unfold openSetFrom
  dsimp only
  rw [hms]
  rfl

/-- In `t` the next set has opened with these members, and its first stripe with it. -/
def SetOpened (s : State) (slc : Bool) (ms : List (Nat × Nat)) (t : State) : Prop :=
  t.str.nextSet = s.str.nextSet + 1
  ∧ (∃ e, setAt? t s.str.nextSet = some e ∧ e.members = ms.map (fun m => ⟨false, m.1, m.2⟩) ∧ e.slc = slc ∧ e.open_ = true ∧ e.next = 0)
  ∧ ∃ o, stripeOf? t s.str.nextSet = some o ∧ o.page = 0 ∧ o.phase = .filling ∧ o.mask = 0

theorem openSetFrom_opens {s : State} {slc : Bool} {pos : List Nat} {ms : List (Nat × Nat)} (fuel : Nat) (hplace : nextMembers s pos = some ms) (hnew : stripeOf? s s.str.nextSet = none) :
    SetOpened s slc ms (openSetFrom s slc pos (fuel + 1)) := by
  rw [openSetFrom_placed fuel hplace]
  have hjournaled : (setJournaled s slc pos ms).str.stripes = s.str.stripes ∧ (setJournaled s slc pos ms).str.nextSet = s.str.nextSet + 1 := by
    rw [str_setJournaled, stripes_sIssue, nextSet_sIssue]
    exact ⟨rfl, rfl⟩
  generalize setJournaled s slc pos ms = u at hjournaled
  obtain ⟨hstripes, hnext⟩ := hjournaled
  have hstr : (refreshStr (refreshPool (refreshFill (firstQueued (setListed u s.str.nextSet (openedEntry s slc ms)) s.str.nextSet ms)))).str = (setListed u s.str.nextSet (openedEntry s slc ms)).str := by
    rw [str_refreshStr, str_refreshPool, str_refreshFill, str_firstQueued]
  have hfirst : stripeOf? (setListed u s.str.nextSet (openedEntry s slc ms)) s.str.nextSet = some (freshStripe u s.str.nextSet 0) := by
    have hlisted : (setListed u s.str.nextSet (openedEntry s slc ms)).str.stripes = u.str.stripes ++ [freshStripe u s.str.nextSet 0] := rfl
    rw [stripeOf?, hlisted, hstripes, List.find?_append, show s.str.stripes.find? _ = none from hnew]
    simp [freshStripe]
  refine ⟨(congrArg Stripe.nextSet hstr).trans hnext, ⟨openedEntry s slc ms, (setAt?_congr hstr _).trans ?_, rfl, rfl, rfl, rfl⟩, _, (stripeOf?_congr hstr _).trans hfirst, rfl, rfl, rfl⟩
  exact Tab.get?_put_same _ _ _

/-- With places enough the engine opens the next set. -/
theorem openSet_opens {s : State} {slc : Bool} {ms : List (Nat × Nat)} (hchannels : layoutProt s + 2 ≤ eligibleChannels s) (hferry : ferryRunning s = false) (hfull : sFull s = false)
    (hroom : jRoom s 4096 = true) (hopen : s.str.stripes.length < inF s pSTR STR_OPEN_MAX 7 0) (hoasis : slc = true → oasisUsed s + layoutWidth s ≤ oasisShare s)
    (hnew : stripeOf? s s.str.nextSet = none) (hplace : nextMembers s (posMasks s) = some ms) : SetOpened s slc ms (openSet s slc) := by
  have hpage := refreshPlace_pageOnly s
  have hforce := (refreshPlace_background s).force
  have hbit : bit (rd (refreshPlace s) pSTR STR_STATE) 9 = false := by
    rw [noPlace_refreshPlace, decide_eq_false_iff_not]
    omega
  have hstr := str_refreshPlace s
  have hmap : (refreshPlace s).map = s.map := hpage.agree.map (by decide)
  unfold openSet
  dsimp only
  generalize refreshPlace s = t at hpage hforce hbit hstr hmap
  have hferry' : ferryRunning t = false := by rw [ferryRunning, (hpage.other pPMU _ (by decide) (by decide)).1, ← ferryRunning, hferry]
  have hfull' : sFull t = false := by rw [sFull, sUsed, hstr, ← sUsed, ← sFull, hfull]
  have hroom' : jRoom t 4096 = true := by rw [jRoom, jUsed, hmap, ← jUsed, ← jRoom, hroom]
  have hopen' : ¬t.str.stripes.length ≥ inF t pSTR STR_OPEN_MAX 7 0 := by
    rw [inF, hforce, ← inF, hstr]
    omega
  have hoasis' : (slc && decide (oasisUsed t + layoutWidth t > oasisShare t)) = false := by
    cases slc with
    | false => rfl
    | true =>
      have hwidth : layoutWidth t = layoutWidth s := by simp only [layoutWidth, inF, hforce]
      have := hoasis rfl
      simp only [Bool.true_and, oasisUsed_kept hpage, oasisShare_kept hpage hforce, hwidth, decide_eq_false_iff_not]
      omega
  have hplace' : nextMembers t (posMasks t) = some ms := by
    have hseed : layoutSeed t = layoutSeed s := by simp only [layoutSeed, hforce]
    have hwidth : layoutWidth t = layoutWidth s := by simp only [layoutWidth, inF, hforce]
    simp only [nextMembers, hstr, hseed, hwidth, posMasks_kept hpage hforce, allocBlock?_kept hpage hforce]
    exact hplace
  obtain ⟨fuel, hfuel⟩ : ∃ fuel, (if t.str.skips < 64 then 64 - t.str.skips else 1) = fuel + 1 := by
    split
    · exact ⟨63 - t.str.skips, by omega⟩
    · exact ⟨0, rfl⟩
  rw [if_neg (by simp [hbit, hferry', hfull', hroom']), if_neg hopen', if_neg (by simp [hoasis']), hfuel]
  have hopened := openSetFrom_opens (slc := slc) fuel hplace' ((stripeOf?_congr hstr _).trans (by rw [hstr]; exact hnew))
  rwa [SetOpened, hstr] at hopened

end Sys2Proof.Machine

/-! The life of a stripe as its commands show it (R234 to R241). -/

namespace Sys2Proof.Machine

set_option Elab.async false

/-! ### The commands -/

section
variable {s : State} (hup : pageUp s pSTR = true)
include hup

theorem runs_setOpen {slc : Bool} {ms : List (Nat × Nat)} (hchannels : layoutProt s + 2 ≤ eligibleChannels s) (hferry : ferryRunning s = false) (hfull : sFull s = false)
    (hroom : jRoom s 4096 = true) (hopen : s.str.stripes.length < inF s pSTR STR_OPEN_MAX 7 0) (hoasis : slc = true → oasisUsed s + layoutWidth s ≤ oasisShare s)
    (hnew : stripeOf? s s.str.nextSet = none) (hplace : nextMembers s (posMasks s) = some ms) : Runs (.setOpen slc) s (SetOpened s slc ms) :=
  runs_whenUp rfl hup rfl (openSet_opens hchannels hferry hfull hroom hopen hoasis hnew hplace)

variable {set : BitVec 32} {e : SetEntry} {o : OpenStripe} (he : setAt? s set.toNat = some e) (ho : stripeOf? s set.toNat = some o)
include he ho

theorem runs_stripeMemberProgram (units : List PackedUnit) (hphase : o.phase = .filling) (hi : nextMember e o < e.k) (hready : setReady s e = true) (hfull : sFull s = false) :
    Runs (.stripeMemberProgram set units) s fun t =>
      (∃ o', stripeOf? t set.toNat = some o' ∧ o'.mask = o.mask + 2 ^ nextMember e o ∧ o'.acc = true ∧ o'.units = o.units ++ pageUnits (e.member (nextMember e o)) o.page e.slc units)
      ∧ t.map.stamp = (s.map.stamp + 1) % 2 ^ 48
      ∧ ∃ torn, t.str.journal = s.str.journal ++ [⟨nextSseq s, .stripeProg (stripeNo set.toNat o.page) (o.mask + 2 ^ nextMember e o), torn⟩] := by
  obtain ⟨hstripe, hstamp, hjournal⟩ := memberProgram_shows he ho units hphase hi hready hfull
  exact runs_whenUp rfl hup rfl ⟨⟨_, hstripe, rfl, rfl, rfl⟩, hstamp, hjournal⟩

theorem runs_stripeParityProgram (hphase : o.phase = .filling) (hlast : e.k ≤ nextMember e o) :
    Runs (.stripeParityProgram set) s fun t => stripeOf? t set.toNat = some { o with phase := .verifying } :=
  runs_whenUp rfl hup rfl (parityProgram_verifies he ho hphase hlast)

theorem runs_stripeCloseAge {elapsed : Nat} (hphase : o.phase = .filling) (hmask : o.mask ≠ 0) (hage : inF s pSTR STR_CLOSE_AGE 15 0 ≠ 0)
    (hold : inF s pSTR STR_CLOSE_AGE 15 0 * 1000000 ≤ ((advance s elapsed).com.time - o.firstAt).toNat) (hfull : sFull s = false) (hrmw : bit (rd s pMAP MAP_MEDIA_STATE) 2 = false) :
    Runs (.stripeCloseAge set elapsed) s fun t => stripeOf? t set.toNat = some (stripePadded e o) :=
  runs_whenUp (v := advance s elapsed) rfl hup (closeAge_pads he ho hphase hmask hage hold hfull hrmw) (padStripe_verifies (s := advance s elapsed) he ho)

theorem runs_stripeVerify_clean (hphase : o.phase = .verifying) (hfull : sFull s = false) (hinj : s.str.inject = []) (hmore : o.page + 1 < e.pages) :
    Runs (.stripeVerify set []) s fun t => setAt? t set.toNat = some { e with next := o.page + 1, provisional := false }
      ∧ ∃ o', stripeOf? t set.toNat = some o' ∧ o'.page = o.page + 1 ∧ o'.phase = .filling ∧ o'.mask = 0 :=
  runs_whenUp rfl hup (stripeVerify_clean he ho hphase hfull hinj) (finishStripe_moves_on ho 0 hmore)

theorem runs_stripeVerify_collects {member : Fin 32} (hphase : o.phase = .verifying) (hfull : sFull s = false) (hinj : s.str.inject = [])
    (hread : (verifyMembers s e).contains member.val = true) :
    Runs (.stripeVerify set [(member, 3)]) s fun t =>
      stripeOf? t set.toNat = some { o with phase := .collecting } ∧ setAt? t set.toNat = some { e with collect := true } ∧ bit (rd t pSTR rIRQ_STATUS) 5 = true :=
  runs_whenUp rfl hup rfl (stripeVerify_collects_shows he ho hphase hfull hinj hread)

theorem runs_stripeProgramFail {member : Fin 32} (hmember : member.val < e.width) : Runs (.stripeProgramFail set member) s fun t => SetAbandoned t set.toNat e o.page :=
  runs_whenUp rfl hup rfl (programFail_abandons he ho hmember)

theorem runs_accumulatorUe (hacc : o.acc = true) : Runs (.accumulatorUe set) s fun t => SetAbandoned t set.toNat e o.page :=
  runs_whenUp rfl hup rfl (accumulatorUe_abandons he ho hacc)

theorem runs_rmwParityUpdate (units : List PackedUnit) (hphase : o.phase = .provisional) (hi : nextMember e o < e.k) (hfull : sFull s = false) :
    Runs (.rmwParityUpdate set units) s fun t =>
      ∃ o', stripeOf? t set.toNat = some o' ∧ o'.mask = o.mask + 2 ^ nextMember e o ∧ o'.units = o.units ++ pageUnits (e.member (nextMember e o)) o.page e.slc units :=
  runs_whenUp rfl hup rfl (rmwUpdate_joins he ho units hphase hi hfull)

end

/-- Settles O30: each event of a stripe by the set and the open stripe that it leaves, for what else it does changes neither. -/
theorem stripeLife : Obligations.StripeLife := by
  unfold Obligations.StripeLife
  intro s slc set units elapsed member e o hup n i closed
  refine ⟨fun ms => runs_setOpen hup, fun he ho => ⟨fun hphase => ⟨fun hi hready hfull => runs_stripeMemberProgram hup he ho units hphase hi hready hfull,
      runs_stripeParityProgram hup he ho hphase, runs_stripeCloseAge hup he ho hphase⟩,
    fun hphase hfull hinj => ⟨runs_stripeVerify_clean hup he ho hphase hfull hinj, runs_stripeVerify_collects hup he ho hphase hfull hinj⟩,
    runs_stripeProgramFail hup he ho, runs_accumulatorUe hup he ho, runs_rmwParityUpdate hup he ho units⟩⟩

end Sys2Proof.Machine

/-! Resynchronisation of stripes and reconstruction of codewords at rung 4 (R244, R245, R247, R260). -/

namespace Sys2Proof.Machine

set_option Elab.async false

/-! ### The resync queue (R244) -/

/-- The registers in which the resync queue shows, with the interrupt of its end (R246, R261). -/
def resyncShown : List (Nat × Nat) := [(pSTR, STR_RESYNC_LEFT), (pSTR, STR_STATE), (pSTR, rIRQ_STATUS)]

/-- RESYNC_LEFT follows the queue, and of the engine's tables the flag of a whole-array pass alone changes. -/
theorem refreshResync_shows (s : State) :
    rd (refreshResync s) pSTR STR_RESYNC_LEFT = w32 s.str.unresync.length ∧ RegsKept resyncShown s (refreshResync s) ∧ ∃ pass, (refreshResync s).str = { s.str with wholePass := pass } := by
  unfold refreshResync
  extract_lets n t was u v
  have hleft : rd u pSTR STR_RESYNC_LEFT = w32 n := (rd_wrB_ne _ _ _ (by decide) (by decide) (by decide)).trans (rd_wr_same _ _ _ _)
  have hregs : RegsKept resyncShown s u := ((regsKept_of_eq _ rfl rfl).write _ _ _).write _ _ _
  split
  · have hended : rd v pSTR STR_RESYNC_LEFT = w32 n := (rd_wrB_ne _ _ _ (by decide) (by decide) (by decide)).trans ((rd_wr_otherOff _ _ _ (by decide)).trans hleft)
    have hkept : RegsKept resyncShown s v := (hregs.write pSTR rIRQ_STATUS _).write pSTR STR_STATE _
    exact ⟨hended, hkept, false, rfl⟩
  · exact ⟨hleft, hregs, s.str.wholePass, rfl⟩

/-- The stripe at the head of the queue has left it, and its outcome is journaled. -/
def resyncEnded (s : State) (st outcome : Nat) : State := refreshResync (sIssue s (.resyncDone st outcome))

theorem resyncEnded_shows (s : State) (st outcome : Nat) :
    (resyncEnded s st outcome).str.unresync = s.str.unresync ∧ rd (resyncEnded s st outcome) pSTR STR_RESYNC_LEFT = w32 s.str.unresync.length
      ∧ ((resyncEnded s st outcome).str.journal.getLast?.map fun r => r.payload) = some (.resyncDone st outcome) ∧ ∀ n, setAt? (resyncEnded s st outcome) n = setAt? s n := by
  obtain ⟨hleft, -, pass, hstr⟩ := refreshResync_shows (sIssue s (.resyncDone st outcome))
  refine ⟨?_, ?_, ?_, fun n => ?_⟩
  · rw [resyncEnded, hstr]
    exact unresync_sIssue s _
  · rw [resyncEnded, hleft, unresync_sIssue]
  · rw [resyncEnded, hstr, journal_sIssue, List.getLast?_concat]
    rfl
  · rw [resyncEnded, setAt?, hstr]
    exact setAt?_sIssue s _ n

theorem resyncEnded_background (s : State) (st outcome : Nat) : Background s (resyncEnded s st outcome) := (sIssue_background s _).trans (refreshResync_background _)

theorem rd_resyncEnded_unrecoverable (s : State) (st outcome : Nat) : rd (resyncEnded s st outcome) pSTR STR_UNRECOVERABLE = rd s pSTR STR_UNRECOVERABLE := by
  obtain ⟨-, hregs, -⟩ := refreshResync_shows (sIssue s (.resyncDone st outcome))
  rw [resyncEnded, (hregs pSTR STR_UNRECOVERABLE (by decide) (by decide) (by decide)).1]
  exact rd_sIssue s _ (by decide) (by decide) (by decide)

/-! ### A stripe that is not sound (R244, R260) -/

/-- The units that are lost enter the media error log, and the blocks of the stripe's set wait for collection. -/
def resyncMarked (s : State) (n : Nat) (e : SetEntry) (lost : List (Nat × Nat)) : State :=
  putSet (e.members.foldl (fun s m => markRelocate s m.die m.block) (lost.foldl (fun s u => mediaError s u.1 u.2) s)) n { e with collect := true }

/-- A lost stripe is counted, with its interrupt. -/
def lossCounted (s : State) (k : Nat) : State := if k = 2 then irq (bump s pSTR STR_UNRECOVERABLE 1) pSTR 3 else s

theorem com_mediaErrors (s : State) (l : List (Nat × Nat)) : (l.foldl (fun s u => mediaError s u.1 u.2) s).com = s.com := by
  refine List.foldlRecOn (motive := fun t : State => t.com = s.com) l _ rfl fun t ht u _ => ?_
  unfold mediaError
  split <;> exact ht

theorem com_markAll (s : State) (l : List Member) : (l.foldl (fun s m => markRelocate s m.die m.block) s).com = s.com :=
  List.foldlRecOn (motive := fun t : State => t.com = s.com) l _ rfl fun _ ht _ _ => ht

theorem str_mediaErrors (s : State) (l : List (Nat × Nat)) : (l.foldl (fun s u => mediaError s u.1 u.2) s).str = s.str :=
  str_foldl (f := fun (s : State) (u : Nat × Nat) => mediaError s u.1 u.2) (fun t u => str_mediaError t u.1 u.2) l s

theorem com_resyncMarked (s : State) (n : Nat) (e : SetEntry) (lost : List (Nat × Nat)) : (resyncMarked s n e lost).com = s.com := (com_markAll _ _).trans (com_mediaErrors s lost)

theorem unresync_resyncMarked (s : State) (n : Nat) (e : SetEntry) (lost : List (Nat × Nat)) : (resyncMarked s n e lost).str.unresync = s.str.unresync := by
  have hmarked := congrArg Stripe.unresync ((str_markAll _ e.members).trans (str_mediaErrors s lost))
  exact hmarked

theorem str_lossCounted (s : State) (k : Nat) : (lossCounted s k).str = s.str := by
  unfold lossCounted
  split <;> rfl

/-- A lost stripe shows in its count and its interrupt. -/
theorem lossCounted_two (s : State) : CountsOnce s (lossCounted s 2) pSTR STR_UNRECOVERABLE ∧ bit (rd (lossCounted s 2) pSTR rIRQ_STATUS) 3 = true := by
  refine ⟨?_, ?_⟩
  · exact (countsOnce_bump s pSTR STR_UNRECOVERABLE).kept (rd_wr_otherOff _ _ _ (by decide))
  · rw [lossCounted, if_pos rfl, rd_irq, bit_or, bit_oneBit (by decide), Bool.or_true]

/-! ### Each outcome -/

/-- The stripe at the head of the queue leaves it. -/
def resyncTaken (s : State) (rest : List Nat) : State := { s with str := { s.str with unresync := rest } }

section
variable {s : State} {st : Nat} {rest : List Nat} (hqueue : s.str.unresync = st :: rest) (hshare : inF s pSTR STR_SHARE 15 8 ≠ 0) (hferry : ferryRunning s = false)
include hqueue hshare hferry

theorem stripeResync_sound (lost : List (Nat × Nat)) : stripeResync s 0 lost = resyncEnded (sIssue (resyncTaken s rest) (.stripeClose st 0 0)) st 0 := by
  unfold stripeResync
  rw [hqueue]
  dsimp only
  rw [if_neg (by simp [hshare, hferry])]
  rfl

theorem stripeResync_moved (lost : List (Nat × Nat)) {k : Nat} (hk : k ≠ 0) {e : SetEntry} (he : setAt? s (st / 4096) = some e) (hclosed : e.open_ = false) :
    stripeResync s k lost = resyncEnded (lossCounted (resyncMarked (resyncTaken s rest) (st / 4096) e lost) k) st k := by
  obtain ⟨m, rfl⟩ := Nat.exists_eq_succ_of_ne_zero hk
  have hset : setAt? (lost.foldl (fun s u => mediaError s u.1 u.2) (resyncTaken s rest)) (st / 4096) = some e := (setAt?_congr (str_mediaErrors (resyncTaken s rest) lost) _).trans he
  unfold resyncTaken at hset ⊢
  unfold stripeResync
  rw [hqueue]
  dsimp only
  rw [if_neg (by simp [hshare, hferry]), hset]
  dsimp only
  rw [if_neg (show ¬e.open_ = true by simp [hclosed])]
  rfl

theorem stripeResync_sound_shows (lost : List (Nat × Nat)) :
    (stripeResync s 0 lost).str.unresync = rest ∧ rd (stripeResync s 0 lost) pSTR STR_RESYNC_LEFT = w32 rest.length
      ∧ ((stripeResync s 0 lost).str.journal.getLast?.map fun r => r.payload) = some (.resyncDone st 0) := by
  rw [stripeResync_sound hqueue hshare hferry]
  obtain ⟨hqueued, hleft, hlast, -⟩ := resyncEnded_shows (sIssue (resyncTaken s rest) (.stripeClose st 0 0)) st 0
  rw [unresync_sIssue] at hqueued hleft
  exact ⟨hqueued, hleft, hlast⟩

theorem stripeResync_moved_shows (lost : List (Nat × Nat)) {k : Nat} (hk : k ≠ 0) {e : SetEntry} (he : setAt? s (st / 4096) = some e) (hclosed : e.open_ = false) :
    (stripeResync s k lost).str.unresync = rest ∧ rd (stripeResync s k lost) pSTR STR_RESYNC_LEFT = w32 rest.length ∧ setAt? (stripeResync s k lost) (st / 4096) = some { e with collect := true }
      ∧ (k = 2 → CountsOnce s (stripeResync s k lost) pSTR STR_UNRECOVERABLE ∧ bit (rd (stripeResync s k lost) pSTR rIRQ_STATUS) 3 = true) := by
  rw [stripeResync_moved hqueue hshare hferry lost hk he hclosed]
  have hcom := com_resyncMarked (resyncTaken s rest) (st / 4096) e lost
  have hset : setAt? (resyncMarked (resyncTaken s rest) (st / 4096) e lost) (st / 4096) = some { e with collect := true } := setAt?_putSet_same _ _ _
  have hunresync : (resyncMarked (resyncTaken s rest) (st / 4096) e lost).str.unresync = rest := unresync_resyncMarked _ _ _ _
  generalize resyncMarked (resyncTaken s rest) (st / 4096) e lost = u at hcom hset hunresync
  obtain ⟨hqueued, hleft, -, hsets⟩ := resyncEnded_shows (lossCounted u k) st k
  rw [str_lossCounted, hunresync] at hqueued hleft
  refine ⟨hqueued, hleft, ((hsets _).trans (setAt?_congr (str_lossCounted u k) _)).trans hset, ?_⟩
  rintro rfl
  obtain ⟨hcount, hirq⟩ := lossCounted_two u
  have hkept : rd u pSTR STR_UNRECOVERABLE = rd s pSTR STR_UNRECOVERABLE := rd_congr (congrArg Common.regs hcom) (congrArg Common.chip hcom) _ _
  exact ⟨(hcount.since hkept).kept (rd_resyncEnded_unrecoverable _ st 2), (resyncEnded_background _ st 2).raised pSTR 3 hirq⟩

end

/-! ### Reconstruction (R247) -/

/-- The codeword leaves the queue of rung 4. -/
def reconTaken (s : State) (id : Nat) : State := { s with fch := { s.fch with recon := s.fch.recon.filter fun j => j.id != id } }

/-- A codeword that leaves rung 4 goes to its owner, and a register of the engine counts it. -/
def reconDelivered (s : State) (j : ReadJob) (reg : Nat) (data : Option (List Byte)) : State := deliverCodeword (bump s pSTR reg 1) j data

theorem reconDelivered_shows (s : State) (j : ReadJob) {reg : Nat} (hreg : reg < 4096 ∧ reg ≠ rSTATUS ∧ reg ≠ rSTAGE_STATUS) (data : Option (List Byte)) :
    (reconDelivered s j reg data).fch.recon = s.fch.recon ∧ (reconDelivered s j reg data).fch.ready = s.fch.ready ++ [(j, data)] ∧ CountsOnce s (reconDelivered s j reg data) pSTR reg := by
  rw [reconDelivered, deliverCodeword_fch]
  exact ⟨rfl, rfl, (countsOnce_bump s pSTR reg).kept (rd_deliverCodeword _ _ _ (by decide) hreg.1 hreg.2)⟩

section
variable {s : State} {id : Nat} {j : ReadJob} (hjob : (s.fch.recon.find? fun x => x.id == id) = some j) (hinj : s.str.inject = []) (survivors : List (Fin 32 × List Byte))
include hjob hinj

/-- A block of no set has no stripe to give its codeword. -/
theorem reconstruct_setless (hset : setOf? s j.die j.block = none) : reconstruct s id survivors = reconDelivered (reconTaken s id) j STR_RECON_FAIL none := by
  have harmed : s.str.inject.contains 3 = false := by rw [hinj]; rfl
  unfold reconstruct
  rw [hjob]
  dsimp only
  rw [harmed, if_neg Bool.false_ne_true, if_neg Bool.false_ne_true]
  rw [show setOf? { s with fch := { s.fch with recon := s.fch.recon.filter fun j => j.id != id } } j.die j.block = none from hset]
  rfl

/-- The member of a set that a codeword is of. -/
def lostMember (e : SetEntry) (j : ReadJob) : Nat := (e.members.zipIdx.find? fun m : Member × Nat => m.1.die == j.die && m.1.block == j.block).elim 0 (·.2)

/-- A stripe whose codeword is asked for goes to the head of the resync queue when it stands in it (R245). -/
def resyncHurried (s : State) (st : Nat) : State :=
  if isUnresync s st then { s with str := { s.str with unresync := st :: s.str.unresync.filter (· != st) } } else s

/-- Survivors of a closed stripe that give the codeword deliver it. -/
theorem reconstruct_closed {n : Nat} {e : SetEntry} {b : List Byte} (hset : setOf? s j.die j.block = some (n, e)) (hclosed : stripeOf? s n = none)
    (hb : recoverMember e.k e.prot 4096 (lostMember e j) ((survivors.map fun m => (m.1.val, m.2)).filter fun m => m.1 != lostMember e j) = some b) :
    reconstruct s id survivors = reconDelivered (resyncHurried (reconTaken s id) (stripeNo n j.page)) j STR_RECON_COUNT (some b) := by
  have harmed : s.str.inject.contains 3 = false := by rw [hinj]; rfl
  have hstripe : stripeOf? (resyncHurried (reconTaken s id) (stripeNo n j.page)) n = none := by
    unfold resyncHurried
    split <;> exact hclosed
  unfold reconstruct
  rw [hjob]
  dsimp only
  rw [harmed, if_neg Bool.false_ne_true, if_neg Bool.false_ne_true]
  rw [show setOf? { s with fch := { s.fch with recon := s.fch.recon.filter fun j => j.id != id } } j.die j.block = some (n, e) from hset]
  dsimp only
  unfold resyncHurried reconTaken at hstripe
  rw [hstripe]
  dsimp only
  rw [List.append_nil, List.drop_zero]
  unfold lostMember at hb
  rw [hb]
  rfl

end

/-! ### The commands -/

section
variable {s : State} (hup : pageUp s pSTR = true)
include hup

theorem runs_stripeResync_sound {st : Nat} {rest : List Nat} (hqueue : s.str.unresync = st :: rest) (hshare : inF s pSTR STR_SHARE 15 8 ≠ 0) (hferry : ferryRunning s = false)
    (lost : List (Fin 1024 × BitVec 48)) :
    Runs (.stripeResync 0 lost) s fun t =>
      t.str.unresync = rest ∧ rd t pSTR STR_RESYNC_LEFT = w32 rest.length ∧ (t.str.journal.getLast?.map fun r => r.payload) = some (.resyncDone st 0) :=
  runs_whenUp rfl hup rfl (stripeResync_sound_shows hqueue hshare hferry _)

theorem runs_stripeResync_moved {st : Nat} {rest : List Nat} (hqueue : s.str.unresync = st :: rest) (hshare : inF s pSTR STR_SHARE 15 8 ≠ 0) (hferry : ferryRunning s = false)
    (lost : List (Fin 1024 × BitVec 48)) {k : Fin 3} (hk : k ≠ 0) {e : SetEntry} (he : setAt? s (st / 4096) = some e) (hclosed : e.open_ = false) :
    Runs (.stripeResync k lost) s fun t =>
      t.str.unresync = rest ∧ rd t pSTR STR_RESYNC_LEFT = w32 rest.length ∧ setAt? t (st / 4096) = some { e with collect := true }
      ∧ (k = 2 → CountsOnce s t pSTR STR_UNRECOVERABLE ∧ bit (rd t pSTR rIRQ_STATUS) 3 = true) := by
  obtain ⟨hqueued, hleft, hset, hloss⟩ := stripeResync_moved_shows hqueue hshare hferry (lost.map fun u => (u.1.val, u.2.toNat)) (Fin.val_ne_zero_iff.mpr hk) he hclosed
  exact runs_whenUp rfl hup rfl ⟨hqueued, hleft, hset, fun h2 => hloss (congrArg Fin.val h2)⟩

variable {job : Nat} {j : ReadJob} (hjob : (s.fch.recon.find? fun x => x.id == job) = some j) (hinj : s.str.inject = []) (survivors : List (Fin 32 × List Byte))
include hjob hinj

theorem runs_stripeReconstruct_setless (hset : setOf? s j.die j.block = none) : Runs (.stripeReconstruct job survivors) s fun t =>
    t.fch.recon = s.fch.recon.filter (fun x => x.id != job) ∧ t.fch.ready = s.fch.ready ++ [(j, none)] ∧ CountsOnce s t pSTR STR_RECON_FAIL :=
  runs_whenUp rfl hup (reconstruct_setless hjob hinj survivors hset) (reconDelivered_shows (reconTaken s job) j (by decide) none)

theorem runs_stripeReconstruct_closed {n : Nat} {e : SetEntry} {b : List Byte} (hset : setOf? s j.die j.block = some (n, e)) (hclosed : stripeOf? s n = none)
    (hb : recoverMember e.k e.prot 4096 (lostMember e j) ((survivors.map fun m => (m.1.val, m.2)).filter fun m => m.1 != lostMember e j) = some b) :
    Runs (.stripeReconstruct job survivors) s fun t =>
      t.fch.recon = s.fch.recon.filter (fun x => x.id != job) ∧ t.fch.ready = s.fch.ready ++ [(j, some b)] ∧ CountsOnce s t pSTR STR_RECON_COUNT := by
  have hdelivered := reconDelivered_shows (resyncHurried (reconTaken s job) (stripeNo n j.page)) j (reg := STR_RECON_COUNT) (by decide) (some b)
  have hhurried : (resyncHurried (reconTaken s job) (stripeNo n j.page)).fch = (reconTaken s job).fch ∧ (resyncHurried (reconTaken s job) (stripeNo n j.page)).com = s.com := by
    unfold resyncHurried
    split <;> exact ⟨rfl, rfl⟩
  refine runs_whenUp rfl hup (reconstruct_closed hjob hinj survivors hset hclosed hb) ?_
  rw [hhurried.1] at hdelivered
  obtain ⟨hrecon, hready, hcount⟩ := hdelivered
  exact ⟨hrecon, hready, hcount.since (rd_congr (congrArg Common.regs hhurried.2) (congrArg Common.chip hhurried.2) _ _)⟩

end

/-- Settles O31: a stripe that leaves the resync queue by what its outcome leaves, and a codeword that leaves rung 4 by its delivery. -/
theorem stripeResyncAndReconstruct : Obligations.StripeResyncAndReconstruct := by
  unfold Obligations.StripeResyncAndReconstruct
  intro s lost job survivors hup counts
  exact ⟨fun st rest hqueue hshare hferry => ⟨runs_stripeResync_sound hup hqueue hshare hferry lost,
      fun k e hk he hclosed => runs_stripeResync_moved hup hqueue hshare hferry lost hk he hclosed⟩,
    fun j hjob hinj => ⟨runs_stripeReconstruct_setless hup hjob hinj survivors, fun n e b => runs_stripeReconstruct_closed hup hjob hinj survivors⟩⟩

end Sys2Proof.Machine

/-! The rebuild of a lost die: its start, census, restore, pause, and the copy-out of a die in service (R251 to R256). -/

namespace Sys2Proof.Machine

set_option Elab.async false

/-! ### A die's rebuild -/

section
variable {s : State} {d : Nat}

theorem bit_irq_same (s : State) (p : Nat) {i : Nat} (hi : i < 32) : bit (rd (irq s p i) p rIRQ_STATUS) i = true := by
  rw [rd_irq, bit_or, bit_oneBit hi, Bool.or_true]

/-- A die that retires for the first time is fenced for its rebuild (R253). -/
theorem rebuildStart_fences (hretired : dieRetired s d = true) (hnone : (rebuildOf s d).state = .none) :
    (rebuildOf (rebuildStart s d) d).state = .fenced ∧ bit (rd (rebuildStart s d) pSTR rIRQ_STATUS) 0 = true := by
  have hstart : rebuildStart s d = rebuildFence s d := if_pos (by rw [hretired, hnone]; rfl)
  have hraised : bit (rd (rebuildFence s d) pSTR rIRQ_STATUS) 0 = true := by
    unfold rebuildFence
    dsimp only
    rw [if_pos (.inl hnone)]
    exact ((closeSetsOn_background _ d).trans (putRebuild_background _ d _)).raised pSTR 0 (bit_irq_same s pSTR (by decide))
  rw [hstart]
  refine ⟨?_, hraised⟩
  unfold rebuildFence
  dsimp only
  rw [if_pos (.inl hnone), rebuildOf_putRebuild_same]
  simp [hnone]

/-- A paused rebuild goes back to the state it was in (R253). -/
theorem rebuildStart_resumes (hpaused : (rebuildOf s d).state = .paused) : rebuildStart s d = putRebuild s d { rebuildOf s d with state := (rebuildOf s d).prev } := by
  unfold rebuildStart
  rw [if_neg (by simp [hpaused])]
  exact if_pos hpaused

section
variable (hstate : (rebuildOf s d).state = .fenced ∨ (rebuildOf s d).state = .census) (hferry : ferryRunning s = false)
include hstate hferry

theorem rebuildCensus_pauses (hshare : rebuildShare s = 0) : rebuildCensus s d = putRebuild s d { rebuildOf s d with state := .paused, prev := .census } := by
  unfold rebuildCensus
  dsimp only
  rw [if_neg (by rcases hstate with h | h <;> simp [h, hferry]), if_pos hshare]

/-- The rebuild of a die whose census is taken. -/
def censusTaken (s : State) (d : Nat) : Rebuild :=
  { rebuildOf s d with state := .restore, census := censusOf s d, todo := rebuildTodo s d, total := (rebuildOf s d).done + (rebuildTodo s d).length }

theorem rebuildCensus_lists (hshare : rebuildShare s ≠ 0) (htodo : rebuildTodo s d ≠ []) : rebuildCensus s d = putRebuild s d (censusTaken s d) := by
  unfold rebuildCensus
  dsimp only
  rw [if_neg (by rcases hstate with h | h <;> simp [h, hferry]), if_neg hshare, if_neg (by simpa using htodo)]
  rfl

theorem rebuildCensus_ends (hshare : rebuildShare s ≠ 0) (htodo : rebuildTodo s d = []) : rebuildCensus s d = irq (putRebuild s d { censusTaken s d with state := .done }) pSTR 1 := by
  unfold rebuildCensus
  dsimp only
  rw [if_neg (by rcases hstate with h | h <;> simp [h, hferry]), if_neg hshare, if_pos (by simp [htodo])]
  rfl

end

/-- A share of 0 pauses a die that restores, and its state is remembered (R252). -/
theorem rebuildPause_pauses (hstate : (rebuildOf s d).state = .restore) (hshare : rebuildShare s = 0) :
    rebuildPause s d = putRebuild s d { rebuildOf s d with state := .paused, prev := .restore } := by
  unfold rebuildPause
  dsimp only
  rw [if_neg (by simp [hstate]), if_pos hshare]
  simp [pauseRebuild, hstate]

end

/-! ### A block restored (R255) -/

/-- The sets, the rebuilds and the substitutes are as they were. -/
def RestoreKept (s t : State) : Prop := t.str.sets = s.str.sets ∧ t.str.rebuilds = s.str.rebuilds ∧ t.str.substitutes = s.str.substitutes

theorem RestoreKept.of_str {s t : State} (h : t.str = s.str) : RestoreKept s t := by rw [RestoreKept, h]; exact ⟨rfl, rfl, rfl⟩

theorem RestoreKept.trans {s t u : State} (h : RestoreKept s t) (h' : RestoreKept t u) : RestoreKept s u := ⟨h'.1.trans h.1, h'.2.1.trans h.2.1, h'.2.2.trans h.2.2⟩

theorem strBucket_kept (s : State) : RestoreKept s (strBucket s) := by
  have hevent : (lbEvent s pSTR).1.str = s.str := ((State.AgreeOutside.refl [] s).lbEventAt pSTR _).str (by decide)
  unfold strBucket
  split
  rename_i u fired hu
  rw [hu] at hevent
  split
  · exact .trans (.of_str hevent) ⟨rfl, rfl, rfl⟩
  · exact .of_str hevent

theorem strBuckets_kept (l : List Nat) (s : State) : RestoreKept s (l.foldl (fun s _ => strBucket s) s) :=
  List.foldlRecOn (motive := RestoreKept s) l _ (.of_str rfl) fun t ht _ _ => ht.trans (strBucket_kept t)

@[simp] theorem str_dirtySegment (s : State) (h u : Nat) : (dirtySegment s h u).str = s.str := by
  unfold dirtySegment
  dsimp only
  split <;> rfl

theorem str_jIssue (s : State) (p : JPayload) : (jIssue s p).1.str = s.str := (jIssue_entries s p).1.str (by decide)

theorem str_rebuildRedirect (s : State) (u : Nat × Nat × Nat × Nat × BitVec 64) (nd nb : Nat) : (rebuildRedirect s u nd nb).str = s.str := by
  have hentered {v : State} (hv : v.str = s.str) (m : MapState) (h un : Nat) : (dirtySegment { v with map := m } h un).str = s.str := (str_dirtySegment _ h un).trans hv
  unfold rebuildRedirect
  dsimp only
  split
  · exact hentered (str_jIssue s _) _ _ _
  · rfl

theorem str_rebuildRedirects (l : List (Nat × Nat × Nat × Nat × BitVec 64)) (s : State) (nd nb : Nat) : (l.foldl (fun s u => rebuildRedirect s u nd nb) s).str = s.str :=
  str_foldl (f := fun s u => rebuildRedirect s u nd nb) (fun t u => str_rebuildRedirect t u nd nb) l s

theorem str_rebuildDir (s : State) (d b nd nb : Nat) : (rebuildDir s d b nd nb).str = s.str := by
  have hmoved {v : State} (hv : v.str = s.str) (m : MapState) : ({ v with map := m } : State).str = s.str := hv
  exact List.foldlRecOn (motive := fun t : State => t.str = s.str) _ _ rfl fun t ht x _ => hmoved ((str_jIssue t _).trans ht) _

/-- The substitute takes over the state of the block that is lost. -/
def substituteFilled (s : State) (e : SetEntry) (d b nd nb : Nat) : State :=
  issueBlockState (issueBlockState s nd nb .open_ fun x => { x with slc := e.slc, live := (bstOf s d b).live }) nd nb .closed fun x => { x with closeStamp := (bstOf s d b).closeStamp }

/-- The substitute is listed, and one block of its die's reserve is gone. -/
def substituteListed (s : State) (nd nb : Nat) : State :=
  { s with str := { s.str with substitutes := s.str.substitutes ++ [bstKey nd nb], reserve := s.str.reserve.modify nd 0 (· - 1) } }

/-- The units and map pages of the lost block move to the substitute, and the lost block holds nothing. -/
def referencesMoved (s : State) (d b nd nb : Nat) : State :=
  let t := rebuildDir (((rebuildOf s d).census.filter fun u => u.1 == b).foldl (fun s u => rebuildRedirect s u nd nb) s) d b nd nb
  putBst t d b { bstRaw t d b with live := 0, jseqLast := (rd t pMAP MAP_JSEQ_ISSUED).toNat }

/-- The rebuild with one block fewer to restore. -/
def blockDone (r : Rebuild) (b : Nat) : Rebuild := { r with done := r.done + 1, todo := r.todo.filter (· != b) }

/-- The block is counted and journaled as done. -/
def restoreCounted (s : State) (d b : Nat) : State :=
  let r := blockDone (rebuildOf s d) b
  bumpSince (putRebuild (sIssue s (.rebuildState d r.state.code r.done r.total)) d r) pSTR STR_SNAP_RB 1

/-- The buckets count stripes whose P was programmed with a flipped byte. -/
def badParityCounted (s : State) (n : Nat) : State := (List.range (0 + (s.str.badParity.filter fun st => st / 4096 == n).length)).foldl (fun s _ => strBucket s) s

theorem restoreBlock_steps {s : State} {d b nd nb n : Nat} {e : SetEntry} (halloc : allocBlock? s nd = some nb) (hset : setOf? s d b = some (n, e)) :
    restoreBlock s d b nd 0 1 = restoreCounted (referencesMoved (substituteListed (substituteMember (substituteFilled (badParityCounted s n) e d b nd nb) n e d b nd nb) nd nb) d b nd nb) d b := by
  unfold restoreBlock
  rw [halloc, hset]
  dsimp only
  rw [if_neg (by simp)]
  simp only [restoreCounted, blockDone, referencesMoved, substituteListed, substituteFilled, badParityCounted]

/-- The set table entry whose member on a lost block is its substitute. -/
def substituted (e : SetEntry) (d b nd nb : Nat) : SetEntry :=
  { e with substituted := true, members := e.members.map fun m : Member => if m.die == d && m.block == b then ⟨true, nd, nb⟩ else m }

/-- In `t` the block's member of set `n` is its substitute, which is listed, and the rebuild has one block fewer to restore. -/
def BlockRestored (s t : State) (n : Nat) (e : SetEntry) (d b nd nb : Nat) : Prop :=
  setAt? t n = some (substituted e d b nd nb) ∧ rebuildOf t d = blockDone (rebuildOf s d) b ∧ t.str.substitutes = s.str.substitutes ++ [bstKey nd nb]

theorem substituteFilled_kept (s : State) (e : SetEntry) (d b nd nb : Nat) : RestoreKept s (substituteFilled s e d b nd nb) :=
  .of_str ((str_issueBlockState _ _ _ _ _).trans (str_issueBlockState _ _ _ _ _))

theorem referencesMoved_kept (s : State) (d b nd nb : Nat) : RestoreKept s (referencesMoved s d b nd nb) :=
  .of_str ((str_rebuildDir _ _ _ _ _).trans (str_rebuildRedirects _ s nd nb))

@[simp] theorem str_bumpSince (s : State) (p o n : Nat) : (bumpSince s p o n).str = s.str := rfl

/-- A die's rebuild that is set changes no other table of the engine. -/
theorem str_putRebuild (s : State) (d : Nat) (r : Rebuild) : (putRebuild s d r).str = { s.str with rebuilds := s.str.rebuilds.putD d r Rebuild.idle } := str_refreshStr _

theorem restoreCounted_shows (s : State) (d b : Nat) :
    (restoreCounted s d b).str.sets = s.str.sets ∧ rebuildOf (restoreCounted s d b) d = blockDone (rebuildOf s d) b ∧ (restoreCounted s d b).str.substitutes = s.str.substitutes := by
  unfold restoreCounted
  dsimp only
  rw [rebuildOf_congr (str_bumpSince _ _ _ _), rebuildOf_putRebuild_same, str_bumpSince, str_putRebuild]
  exact ⟨sets_sIssue s _, rfl, substitutes_sIssue s _⟩

theorem str_putSet (s : State) (n : Nat) (e : SetEntry) : (putSet s n e).str = { s.str with sets := s.str.sets.put n e } := rfl

theorem substituteMember_shows (s : State) (n : Nat) (e : SetEntry) (d b nd nb : Nat) :
    setAt? (substituteMember s n e d b nd nb) n = some (substituted e d b nd nb) ∧ (substituteMember s n e d b nd nb).str.rebuilds = s.str.rebuilds
      ∧ (substituteMember s n e d b nd nb).str.substitutes = s.str.substitutes := by
  unfold substituteMember
  dsimp only
  rw [setAt?_putSet_same, str_putSet]
  exact ⟨rfl, rebuilds_sIssue s _, substitutes_sIssue s _⟩

theorem restoreBlock_restores {s : State} {d b nd nb n : Nat} {e : SetEntry} (halloc : allocBlock? s nd = some nb) (hset : setOf? s d b = some (n, e)) :
    BlockRestored s (restoreBlock s d b nd 0 1) n e d b nd nb := by
  have hfilled : RestoreKept s (substituteFilled (badParityCounted s n) e d b nd nb) := (strBuckets_kept _ s).trans (substituteFilled_kept _ e d b nd nb)
  rw [restoreBlock_steps halloc hset]
  generalize substituteFilled (badParityCounted s n) e d b nd nb = u at hfilled
  obtain ⟨-, hrebuilds, hsubstitutes⟩ := hfilled
  obtain ⟨hmember, hrebuilds', hsubstitutes'⟩ := substituteMember_shows u n e d b nd nb
  generalize substituteMember u n e d b nd nb = v at hmember hrebuilds' hsubstitutes'
  obtain ⟨hsets, hrebuilds'', hsubstitutes''⟩ := referencesMoved_kept (substituteListed v nd nb) d b nd nb
  generalize referencesMoved (substituteListed v nd nb) d b nd nb = w at hsets hrebuilds'' hsubstitutes''
  obtain ⟨hcounted, hdone, hlisted⟩ := restoreCounted_shows w d b
  refine ⟨?_, ?_, ?_⟩
  · rw [setAt?, hcounted, hsets]
    exact hmember
  · rw [hdone, rebuildOf, hrebuilds'', show (substituteListed v nd nb).str.rebuilds = s.str.rebuilds from hrebuilds'.trans hrebuilds, ← rebuildOf]
  · rw [hlisted, hsubstitutes'', ← hsubstitutes, ← hsubstitutes']
    rfl

end Sys2Proof.Machine

/-! The restored block of a rebuild, and the copy-out of a die in service (R254, R256). -/

namespace Sys2Proof.Machine

set_option Elab.async false

/-! ### The next block of a rebuild -/

theorem refreshStr_pageOnly (s : State) : PageOnly pSTR s (refreshStr s) :=
  ((((PageOnly.refl s).wr _ _ (by decide)).wr _ _ (by decide)).wr _ _ (by decide)).wr _ _ (by decide)

/-- Neither NO_SPARE nor a die's rebuild changes the block that a die gives. -/
theorem allocBlock?_putRebuild (s : State) (d : Nat) (r : Rebuild) (d' : Nat) : allocBlock? (putRebuild s d r) d' = allocBlock? s d' :=
  allocBlock?_kept (s := { s with str := { s.str with rebuilds := s.str.rebuilds.putD d r Rebuild.idle } }) (refreshStr_pageOnly _) (refreshStr_background _).force d'

theorem allocBlock?_noSpare (s : State) (b : Bool) (d : Nat) : allocBlock? (wrB s pSTR STR_STATE 6 b) d = allocBlock? s d :=
  allocBlock?_kept ((PageOnly.refl s).wr _ _ (by decide)) (fun _ _ => rfl) d

/-- The die restores, and has a substitute. -/
def restoreReady (s : State) (d : Nat) : State := putRebuild (wrB s pSTR STR_STATE 6 false) d { rebuildOf s d with state := .restore }

/-- A rebuild with nothing left to restore is done. -/
def rebuildClosed (s : State) (d : Nat) : State :=
  if (rebuildOf s d).todo.isEmpty then irq (putRebuild s d { rebuildOf s d with state := .done }) pSTR 1 else s

section
variable {s : State} {d b nd nb n : Nat} {rest : List Nat} {e : SetEntry}

theorem rebuildRestore_steps (hstate : (rebuildOf s d).state = .restore) (hferry : ferryRunning s = false) (hroom : jRoom s 65536 = true) (hfull : sFull s = false)
    (hshare : rebuildShare s ≠ 0) (htodo : (rebuildOf s d).todo = b :: rest) (hset : setOf? s d b = some (n, e)) (hsub : substituteDie? s e = some nd) :
    rebuildRestore s d 0 1 = rebuildClosed (restoreBlock (restoreReady s d) d b nd 0 1) d := by
  unfold rebuildRestore
  dsimp only
  rw [if_neg (by simp [hstate, hferry, hroom, hfull]), if_neg hshare]
  split
  next hnil => exact absurd (hnil.symm.trans htodo) (List.cons_ne_nil b rest).symm
  next c left hcons =>
    obtain rfl : c = b := (List.cons.inj (hcons.symm.trans htodo)).1
    rw [hset]
    dsimp only
    rw [hsub]
    rfl

theorem rebuildClosed_keeps (t : State) (d : Nat) : (rebuildClosed t d).str.sets = t.str.sets ∧ (rebuildClosed t d).str.substitutes = t.str.substitutes
    ∧ (rebuildOf (rebuildClosed t d) d).done = (rebuildOf t d).done ∧ (rebuildOf (rebuildClosed t d) d).todo = (rebuildOf t d).todo := by
  unfold rebuildClosed
  split
  · have hirq : (irq (putRebuild t d { rebuildOf t d with state := .done }) pSTR 1).str = (putRebuild t d { rebuildOf t d with state := .done }).str := by simp only [irq_frame]
    rw [rebuildOf_congr hirq, rebuildOf_putRebuild_same, hirq, str_putRebuild]
    exact ⟨rfl, rfl, rfl, rfl⟩
  · exact ⟨rfl, rfl, rfl, rfl⟩

/-- The next block of a die is restored into its substitute. -/
theorem rebuildRestore_restores (hstate : (rebuildOf s d).state = .restore) (hferry : ferryRunning s = false) (hroom : jRoom s 65536 = true) (hfull : sFull s = false)
    (hshare : rebuildShare s ≠ 0) (htodo : (rebuildOf s d).todo = b :: rest) (honce : b ∉ rest) (hset : setOf? s d b = some (n, e)) (hsub : substituteDie? s e = some nd)
    (halloc : allocBlock? s nd = some nb) :
    setAt? (rebuildRestore s d 0 1) n = some (substituted e d b nd nb) ∧ (rebuildOf (rebuildRestore s d 0 1) d).done = (rebuildOf s d).done + 1
      ∧ (rebuildOf (rebuildRestore s d 0 1) d).todo = rest ∧ (rebuildRestore s d 0 1).str.substitutes = s.str.substitutes ++ [bstKey nd nb] := by
  have halloc' : allocBlock? (restoreReady s d) nd = some nb := by rw [restoreReady, allocBlock?_putRebuild, allocBlock?_noSpare, halloc]
  obtain ⟨hmember, hdone, hlisted⟩ := restoreBlock_restores halloc' (show setOf? (restoreReady s d) d b = some (n, e) from hset)
  have hready : rebuildOf (restoreReady s d) d = { rebuildOf s d with state := .restore } := rebuildOf_putRebuild_same _ _ _
  have hrest : ((rebuildOf s d).todo.filter (· != b)) = rest := by
    rw [htodo, List.filter_cons_of_neg (by simp)]
    exact List.filter_eq_self.mpr fun c hc => by simpa using fun h : c = b => honce (h ▸ hc)
  rw [rebuildRestore_steps hstate hferry hroom hfull hshare htodo hset hsub]
  obtain ⟨hsets, hsubs, hcount, hleft⟩ := rebuildClosed_keeps (restoreBlock (restoreReady s d) d b nd 0 1) d
  rw [hready] at hdone
  refine ⟨?_, ?_, ?_, ?_⟩
  · rw [setAt?, hsets]
    exact hmember
  · rw [hcount, hdone, blockDone]
  · rw [hleft, hdone, blockDone]
    exact hrest
  · rw [hsubs, hlisted]
    rfl

end

/-! ### What closes sets leaves alone on the page of the power management unit -/

/-- The registers of the power management unit are as they were. -/
def PowerKept (s t : State) : Prop := ∀ o, o < 4096 → rd t pPMU o = rd s pPMU o

theorem PowerKept.trans {s t u : State} (h : PowerKept s t) (h' : PowerKept t u) : PowerKept s u := fun o ho => (h' o ho).trans (h o ho)

theorem PowerKept.ite {c : Prop} [Decidable c] {s t u : State} (ht : PowerKept s t) (hu : PowerKept s u) : PowerKept s (if c then t else u) := by
  split
  · exact ht
  · exact hu

theorem PowerKept.foldl {α : Type} {f : State → α → State} (hf : ∀ s a, PowerKept s (f s a)) (l : List α) (s : State) : PowerKept s (l.foldl f s) :=
  List.foldlRecOn (motive := PowerKept s) l f (fun _ _ => rfl) fun t ht a _ => ht.trans (hf t a)

theorem PowerKept.beside {s t u : State} (h : PowerKept s t) (hr : u.com.regs = t.com.regs) (hc : u.com.chip = t.com.chip) : PowerKept s u := fun o ho => (rd_congr hr hc _ _).trans (h o ho)

theorem PowerKept.write {s t : State} (h : PowerKept s t) (p o : Nat) (v : Word) (hp : pPMU ≠ p ∧ o < 4096) : PowerKept s (wr t p o v) := fun o' ho' => by
  rw [rd_wr _ _ hp.2 ho', if_neg fun hn => hp.1 hn.1, h o' ho']

theorem PowerKept.of_regs {l : List (Nat × Nat)} {s t : State} (h : RegsKept l s t) (hl : ∀ o, (pPMU, o) ∉ l) : PowerKept s t := fun o ho => (h pPMU o (by decide) ho (hl o)).1

theorem takeProgram_power (s : State) (d b page : Nat) : PowerKept s (takeProgram s d b page) :=
  .of_regs (takeProgram_regs s d b page) fun o => by simp [dieRegs, diePage_ne (p := pPMU) (by decide)]

theorem issueBlockState_power (s : State) (d b : Nat) (st : BlockState) (upd : Bst → Bst) : PowerKept s (issueBlockState s d b st upd) := by
  have hlisted {u : State} (hu : PowerKept s u) (j : List JRecord) (c : Prop) [Decidable c] :
      PowerKept s (if c then irq { u with map := { u.map with journal := j } } pMAP 6 else { u with map := { u.map with journal := j } }) :=
    .ite (.write (.beside hu rfl rfl) _ _ _ (by decide)) (.beside hu rfl rfl)
  have hissued (p : JPayload) : PowerKept s (jIssue s p).1 :=
    hlisted (.ite (.write (.write (fun _ _ => rfl) _ _ _ (by decide)) _ _ _ (by decide)) (.write (fun _ _ => rfl) _ _ _ (by decide))) _ _
  exact .beside (hissued _) rfl rfl

theorem sIssue_power (s : State) (p : SPayload) : PowerKept s (sIssue s p) := fun o ho => rd_sIssue s p (by decide) ho (by simp [sseqRegs, pPMU, pSTR])

theorem refreshStr_power (s : State) : PowerKept s (refreshStr s) := .of_regs (refreshStr_regs s) fun o => by simp [strShown, pPMU, pSTR]

/-- An update of the engine's tables that shows on its page. -/
theorem strUpdated_power (s : State) (st : Stripe) : PowerKept s (refreshStr { s with str := st }) := by
  have hupdated : PowerKept s { s with str := st } := fun _ _ => rfl
  exact hupdated.trans (refreshStr_power _)

theorem refreshPool_power (s : State) : PowerKept s (refreshPool s) := fun _ ho => rd_refreshPool s (by decide) ho

theorem refreshPlace_power (s : State) : PowerKept s (refreshPlace s) := fun _ ho => ((refreshPlace_pageOnly s).other pPMU _ ho (by decide)).1

theorem closeBlocks_power (s : State) (e : SetEntry) : PowerKept s (closeBlocks s e) :=
  .foldl (fun u _ => .ite (issueBlockState_power u _ _ _ _) (fun _ _ => rfl)) _ s

theorem closeSet_power (s : State) (n : Nat) (e : SetEntry) (pages : Nat) (collect : Bool) : PowerKept s (closeSet s n e pages collect) := by
  unfold closeSet
  extract_lets t u v w
  have ht : PowerKept s t := sIssue_power s _
  have hu : PowerKept s u := ht.beside rfl rfl
  have hv : PowerKept s v := hu.trans (closeBlocks_power u e)
  clear_value v
  have hw : PowerKept s w := .ite (.beside hv (congrArg Common.regs (com_markAll v e.members)) (congrArg Common.chip (com_markAll v e.members))) hv
  exact (hw.trans (strUpdated_power w _)).trans (refreshPool_power _)

theorem closeSetsOn_power (s : State) (d : Nat) : PowerKept s (closeSetsOn s d) := by
  refine .foldl (fun u e => ?_) _ s
  unfold abandonStripe
  split
  · exact .trans (.foldl (fun v _ => takeProgram_power v _ _ _) _ u) (closeSet_power _ _ _ _ _)
  · exact fun _ _ => rfl

theorem rebuildRequest_power (s : State) (d : Nat) : PowerKept s (rebuildRequest s d) :=
  .ite (strUpdated_power s _) (.ite (((closeSetsOn_power s d).trans (strUpdated_power _ _)).trans (refreshPlace_power _)) (fun _ _ => rfl))

/-! ### Copy-out (R256) -/

theorem rebuildRequest_upkeep (s : State) (d : Nat) : Upkeep s (rebuildRequest s d) := by
  have hput {t : State} (r : Rebuild) : Upkeep t (putRebuild t d r) := .trans (.parts .refl _ _ _ _ _) (refreshStr_upkeep _)
  exact .ite (hput _) (.ite (((closeSetsOn_upkeep s d).trans (hput _)).trans (refreshPlace_upkeep _)) .refl)

/-- The copy-out of a die in service starts with the blocks that it holds. -/
theorem rebuildRequest_todo {s : State} {d : Nat} (hservice : dieInService s d = true) (hnone : (rebuildOf s d).state = .none) :
    (rebuildOf (rebuildRequest s d) d).todo = heldBlocksOf s d := by
  obtain ⟨r, hr, hcopy⟩ : ∃ r : Rebuild, r.todo = heldBlocksOf s d ∧ rebuildRequest s d = refreshPlace (putRebuild (closeSetsOn s d) d r) :=
    ⟨_, rfl, (if_neg (by rw [hnone]; decide)).trans (if_pos (by rw [hservice, hnone]; rfl))⟩
  rw [hcopy, rebuildOf_congr (str_refreshPlace _), rebuildOf_putRebuild_same, hr]

/-- The census of a die that is copied out is taken. -/
def copyListed (s : State) (d : Nat) : State := putRebuild s d { rebuildOf s d with census := censusOf s d }

/-- A die that holds nothing live is retired at once. -/
theorem copyOut_retires {s : State} {d : Nat} (hservice : dieInService s d = true) (hnone : (rebuildOf s d).state = .none) (hferry : ferryRunning s = false) (hempty : heldBlocksOf s d = []) :
    copyOut s d = irq (retireDie (copyListed (rebuildRequest s d) d) d) pSTR 1 := by
  have hstate := rebuildRequest_copyOut hservice hnone
  have htodo := (rebuildRequest_todo hservice hnone).trans hempty
  have hferry' : ferryRunning (rebuildRequest s d) = false := by rw [ferryRunning, rebuildRequest_power s d _ (by decide), ← ferryRunning, hferry]
  unfold copyOut
  dsimp only
  generalize rebuildRequest s d = u at hstate htodo hferry'
  have hnothing : copyOutFrom d (rebuildOf u d).todo.length (copyListed u d) = copyListed u d := by
    rw [htodo]
    rfl
  have hlisted : rebuildOf (copyListed u d) d = { rebuildOf u d with census := censusOf u d } := rebuildOf_putRebuild_same _ _ _
  have hcopy : (rebuildOf (copyListed u d) d).state = .copyOut := by rw [hlisted, ← hstate]
  have hleft : (rebuildOf (copyListed u d) d).todo.isEmpty = true := by
    rw [hlisted]
    exact List.isEmpty_iff.mpr htodo
  rw [if_neg (by simp [hstate, hferry'])]
  unfold copyListed at hnothing hcopy hleft ⊢
  rw [hnothing, if_pos ⟨hcopy, hleft⟩]

theorem copyOut_shows {s : State} {d : Nat} (hservice : dieInService s d = true) (hnone : (rebuildOf s d).state = .none) (hferry : ferryRunning s = false) (hempty : heldBlocksOf s d = []) :
    dieRetired (copyOut s d) d = true ∧ bit (rd (copyOut s d) pSTR rIRQ_STATUS) 1 = true := by
  have hlisted (u : State) : Upkeep u (copyListed u d) := .trans (.parts .refl _ _ _ _ _) (refreshStr_upkeep _)
  have hserves : chanFenced s (d / 16) = false := by
    simp only [dieInService, Bool.and_eq_true, Bool.not_eq_true'] at hservice
    exact hservice.2
  have hfenced : chanFenced (copyListed (rebuildRequest s d) d) (d / 16) = false := (((rebuildRequest_upkeep s d).trans (hlisted _)).status (d / 16) (by decide)).trans hserves
  rw [copyOut_retires hservice hnone hferry hempty]
  exact ⟨(Background.irq (.refl _) pSTR 1).retired d (dieRetired_retireDie hfenced), bit_irq_same _ pSTR (by decide)⟩

/-! ### The commands -/

section
variable {s : State} {die : Fin 1024} (hup : pageUp s pSTR = true)
include hup

theorem runs_rebuildStart_fences (hretired : dieRetired s die.val = true) (hnone : (rebuildOf s die.val).state = .none) :
    Runs (.rebuildStart die) s fun t => (rebuildOf t die.val).state = .fenced ∧ bit (rd t pSTR rIRQ_STATUS) 0 = true :=
  runs_whenUp rfl hup rfl (rebuildStart_fences hretired hnone)

/-- A command that sets the die's rebuild alone. -/
theorem runs_putRebuild {c : Instr} {f : State → State} {r : Rebuild} (he : exec c s = .next (confine flashParts s (whenUp pSTR f s))) (hf : f s = putRebuild s die.val r) :
    Runs c s fun t => rebuildOf t die.val = r :=
  runs_whenUp he hup hf (rebuildOf_putRebuild_same s die.val r)

theorem runs_rebuildStart_resumes (hpaused : (rebuildOf s die.val).state = .paused) : Runs (.rebuildStart die) s fun t => (rebuildOf t die.val).state = (rebuildOf s die.val).prev :=
  (runs_putRebuild hup rfl (rebuildStart_resumes hpaused)).imp fun _ ht => ⟨ht.1, congrArg Rebuild.state ht.2⟩

section
variable (hstate : (rebuildOf s die.val).state = .fenced ∨ (rebuildOf s die.val).state = .census) (hferry : ferryRunning s = false)
include hstate hferry

theorem runs_rebuildCensus_pauses (hshare : rebuildShare s = 0) : Runs (.rebuildCensus die) s fun t => (rebuildOf t die.val).state = .paused ∧ (rebuildOf t die.val).prev = .census :=
  (runs_putRebuild hup rfl (rebuildCensus_pauses hstate hferry hshare)).imp fun _ ht => ⟨ht.1, congrArg Rebuild.state ht.2, congrArg Rebuild.prev ht.2⟩

theorem runs_rebuildCensus_ends (hshare : rebuildShare s ≠ 0) (htodo : rebuildTodo s die.val = []) :
    Runs (.rebuildCensus die) s fun t => (rebuildOf t die.val).state = .done ∧ bit (rd t pSTR rIRQ_STATUS) 1 = true := by
  refine runs_whenUp rfl hup (rebuildCensus_ends hstate hferry hshare htodo) ⟨?_, bit_irq_same _ pSTR (by decide)⟩
  exact congrArg Rebuild.state (rebuildOf_putRebuild_same s die.val { censusTaken s die.val with state := .done })

theorem runs_rebuildCensus_lists (hshare : rebuildShare s ≠ 0) (htodo : rebuildTodo s die.val ≠ []) : Runs (.rebuildCensus die) s fun t =>
    (rebuildOf t die.val).state = .restore ∧ (rebuildOf t die.val).todo = rebuildTodo s die.val
      ∧ (rebuildOf t die.val).total = (rebuildOf s die.val).done + (rebuildTodo s die.val).length :=
  (runs_putRebuild hup rfl (rebuildCensus_lists hstate hferry hshare htodo)).imp fun _ ht => ⟨ht.1, congrArg Rebuild.state ht.2, congrArg Rebuild.todo ht.2, congrArg Rebuild.total ht.2⟩

end

theorem runs_rebuildRestoreBlock {b nd nb n : Nat} {rest : List Nat} {e : SetEntry} (hstate : (rebuildOf s die.val).state = .restore) (hferry : ferryRunning s = false)
    (hroom : jRoom s 65536 = true) (hfull : sFull s = false) (hshare : rebuildShare s ≠ 0) (htodo : (rebuildOf s die.val).todo = b :: rest) (honce : b ∉ rest)
    (hset : setOf? s die.val b = some (n, e)) (hsub : substituteDie? s e = some nd) (halloc : allocBlock? s nd = some nb) :
    Runs (.rebuildRestoreBlock die 0 1) s fun t =>
      (∃ e', setAt? t n = some e' ∧ e'.substituted = true ∧ e'.members = e.members.map fun m : Member => if m.die == die.val && m.block == b then ⟨true, nd, nb⟩ else m)
      ∧ (rebuildOf t die.val).done = (rebuildOf s die.val).done + 1 ∧ (rebuildOf t die.val).todo = rest ∧ t.str.substitutes = s.str.substitutes ++ [bstKey nd nb] := by
  obtain ⟨hmember, hrebuild⟩ := rebuildRestore_restores hstate hferry hroom hfull hshare htodo honce hset hsub halloc
  exact runs_whenUp rfl hup rfl ⟨⟨_, hmember, rfl, rfl⟩, hrebuild⟩

theorem runs_rebuildPause (hstate : (rebuildOf s die.val).state = .restore) (hshare : rebuildShare s = 0) :
    Runs (.rebuildPause die) s fun t => (rebuildOf t die.val).state = .paused ∧ (rebuildOf t die.val).prev = .restore :=
  (runs_putRebuild hup rfl (rebuildPause_pauses hstate hshare)).imp fun _ ht => ⟨ht.1, congrArg Rebuild.state ht.2, congrArg Rebuild.prev ht.2⟩

theorem runs_copyOut (hservice : dieInService s die.val = true) (hnone : (rebuildOf s die.val).state = .none) (hferry : ferryRunning s = false) (hempty : heldBlocksOf s die.val = []) :
    Runs (.copyOut die) s fun t => dieRetired t die.val = true ∧ bit (rd t pSTR rIRQ_STATUS) 1 = true :=
  runs_whenUp rfl hup rfl (copyOut_shows hservice hnone hferry hempty)

end

/-- Settles O32: each step of a rebuild by the rebuild that it sets, a restored block by its set's entry and the tables that the moved units leave alone, and a copy-out by the retirement that ends it. -/
theorem rebuildOfADie : Obligations.RebuildOfADie := by
  unfold Obligations.RebuildOfADie
  intro s die hup d r
  exact ⟨runs_rebuildStart_fences hup, runs_rebuildStart_resumes hup,
    fun hstate hferry => ⟨runs_rebuildCensus_pauses hup hstate hferry, runs_rebuildCensus_ends hup hstate hferry, runs_rebuildCensus_lists hup hstate hferry⟩,
    fun hstate => ⟨fun b rest n e nd nb hferry hroom hfull hshare => runs_rebuildRestoreBlock hup hstate hferry hroom hfull hshare, runs_rebuildPause hup hstate⟩,
    runs_copyOut hup⟩

end Sys2Proof.Machine
